-- ==== Sys2Proof/Word.lean ====
section
/-! DEFINITION. The words of the device: 32-bit registers and 8-bit memory cells (R5), and the list form in which the model
keeps sparse data. -/

namespace Sys2Proof

/-- A 32-bit register word (R5). -/
abbrev Word := BitVec 32

/-- A byte of memory (R5). -/
abbrev Byte := BitVec 8

/-- Sparse data by number: entries in rising order of their number, and no entry that equals what an unlisted number reads as. -/
abbrev Table (α : Type) := List (Nat × α)

end Sys2Proof
end

