-- ==== Sys2Proof/Machine/Table.lean ====
section
/-! DEFINITION. Sparse data by number, in one canonical form: numbers strictly rising, and no entry equal to what an unlisted
number reads as. The default may depend on the number (a register's reset word does). -/

namespace Sys2Proof.Machine

/-- The value at the number `k`; `d` where `k` is not listed. -/
def tget {α : Type} (d : α) : Table α → Nat → α
  | [], _ => d
  | (j, v) :: r, k => if j = k then v else tget d r k

/-- The table without the number `k`. -/
def tdel {α : Type} : Table α → Nat → Table α
  | [], _ => []
  | (j, v) :: r, k => if j = k then tdel r k else (j, v) :: tdel r k

/-- The table with `v` listed at `k`, in its place in the rising order. -/
def tput {α : Type} : Table α → Nat → α → Table α
  | [], k, v => [(k, v)]
  | (j, w) :: r, k, v => if j < k then (j, w) :: tput r k v else if j = k then (k, v) :: r else (k, v) :: (j, w) :: r

/-- Writes `v` at `k`; writing what an unlisted `k` reads as (`d`) removes the entry. -/
def tset {α : Type} [DecidableEq α] (d : α) (t : Table α) (k : Nat) (v : α) : Table α :=
  if v = d then tdel t k else tput t k v

/-- Every listed number is above `m`. -/
def tabove {α : Type} (m : Nat) : Table α → Bool
  | [] => true
  | (j, _) :: r => decide (m < j) && tabove m r

/-- The canonical form: numbers strictly rising, no entry equal to the default of its number. -/
def twf {α : Type} [DecidableEq α] (d : Nat → α) : Table α → Bool
  | [] => true
  | (j, v) :: r => decide (v ≠ d j) && (tabove j r && twf d r)

end Sys2Proof.Machine
end

