-- ==== Sys2Proof/Syntax.lean ====
section
/-! DEFINITION. The commands of the block: one constructor for each row of spec/opcode_table.json, with the operands that the row
needs. A command is what one sender brings to the device or what happens to it: a bus access, an engine instruction as it issues, a
tick, an edge on a pin, a frame on a line. -/

namespace Sys2Proof

/-- A change of position of a decoder or encoder input: one step in either direction, an illegal transition of both inputs, or an
index edge with its direction (R37, R44, R63). -/
inductive EdgeKind
  | forward | reverse | illegal | indexForward | indexReverse
deriving DecidableEq, Repr

/-- A clock domain (R12). -/
inductive Domain
  | sect (s : Fin 16) | fab (k : Fin 8) | mod (g : Fin 4)
  | tb | pin | sys | cfg | safe | rtc | pcie | pair | line | dbg | mram | can
deriving DecidableEq, Repr

/-- A frame of a line as it is received (R271, R274): its bytes from the one after its start symbol up to its last before the end, the
CRC among them, and whether it ends with EOF with no damaged symbol before. -/
structure LineFrame where
  bytes : List Byte
  eof : Bool
deriving DecidableEq, Repr

/-- A returned data frame on the receive pair of a line (R284), with the measured RTT in TB_CLK cycles (R283). -/
structure LineReturn where
  frame : LineFrame
  rtt : Nat
deriving DecidableEq, Repr

/-- How a Ubvel packet is received (R295): whether its CRC-32 is right, its sequence number, and the one-way delay of the link in TB_CLK
cycles as the echoes show it at that instant. -/
structure PacketRx where
  crc : Bool
  seq : BitVec 16
  dly : BitVec 16
deriving DecidableEq, Repr

/-- A TICK packet (R301): tick, TB_NOW of its edge, TANG, TREV, TSPD, SPEED_OK, the primary's epoch and image identity, and for the
tick before the engines that ran with their checksums, and whether the transmit queue has overflowed (R308). -/
structure TickPacket where
  tick : BitVec 48
  now : BitVec 64
  ang : Word
  rev : Word
  spd : Word
  speedOk : Bool
  epoch : Nat
  image : Word
  sums : List (Nat × Nat)
  overflow : Bool
deriving DecidableEq, Repr

/-- An activation in a LOG packet (R301): slot, ending (0 EOS, 1 YIELD, 2 preemption, 3 fault, 4 debug stop), instructions completed,
logged words. -/
structure LogAct where
  slot : Nat
  how : Nat
  count : Nat
  words : List Word
deriving DecidableEq, Repr

/-- A LOG packet (R301): tick, engine, activations in slice order. -/
structure LogPacket where
  tick : BitVec 48
  engine : Nat
  acts : List LogAct
deriving DecidableEq, Repr

/-- A SESSION packet (R301, R306): a staged value, a staged request, or the end of the session (LASTEND) with the tick in progress, which
with APPLIED is the apply tick. -/
inductive SessionPacket
  | stage (addr : Nat) (value : Word)
  | request (op slot : Nat) (words : List Word)
  | ended (how : Nat) (tick : BitVec 48)
deriving DecidableEq, Repr

/-- An ALLOC packet (R301): slot number 16·t + k, its new state by code (R112), generation, effective tick, descriptor words. -/
structure AllocPacket where
  slot : Nat
  st : Nat
  gen : Nat
  tick : BitVec 48
  words : List Word
deriving DecidableEq, Repr

/-- One channel of a REFRESH packet (R305): the tick after which it was taken, slot number, the 32 words of the bank image, and the
persistent words. -/
structure RefreshPacket where
  tick : BitVec 48
  slot : Nat
  bank : List Word
  persist : List Word
deriving DecidableEq, Repr

/-- The content of a BULK packet (R314): memory words, a register, a slot of the allocator, or an entry of an action store. -/
inductive BulkItem
  | memory (addr : Nat) (words : List Word)
  | register (addr : Nat) (value : Word)
  | slot (p : AllocPacket)
  | action (k : Nat) (w0 w1 w2 w3 : Word)
deriving DecidableEq, Repr

/-- A STATUS packet (R301): role, AGE, last tick replayed, DIVERGED engines, slots whose refresh is asked for. -/
structure StatusPacket where
  role : Nat
  age : Nat
  last : BitVec 48
  diverged : List Nat
  asked : List Nat
deriving DecidableEq, Repr

/-- A HELLO packet (R301): role, side, epoch, image identity. -/
structure HelloPacket where
  role : Nat
  side : Bool
  epoch : Nat
  image : Word
deriving DecidableEq, Repr

/-- What a MEMORY_BIT_FLIP meets (R358, R361): bits of the code word at an address, bits of a word of a configuration frame (word 40
is the check word), or bits of a copy of a triple-voted item: 0 the place of the pass, 1 its start, else a register by its address. -/
inductive FlipTarget
  | memory (addr mask : Nat)
  | frame (frame word mask : Nat)
  | voted (item copy mask : Nat)
deriving DecidableEq, Repr

/-- What a store or load on port A of a scratchpad bank meets (R21, R88): the requests that came before it, in cycles, and the positions
of the engines that ask in the same cycle. -/
structure PortWait where
  earlier : Nat
  rivals : List (Fin 16)
deriving DecidableEq, Repr

/-- The arrival of a tick: the domain, and whether the phase measured in a sector is off by more than a SECT_CLK cycle (R16). -/
structure Arrival where
  d : Domain
  skew : Bool
deriving DecidableEq, Repr

/-- A word that is written, and whether a write of other data on port A meets it at its scratchpad word in the same cycle (R213). -/
structure BusWord where
  v : Word
  coll : Bool
deriving DecidableEq, Repr

/-- The engine whose posted write the bus accepts, and whether a write of other data on port A meets it (R213). -/
structure Accepted where
  t : Fin 256
  coll : Bool
deriving DecidableEq, Repr

/-- The engine of a CANCEL, and the cycles that it waits for the slot of its action store (R97). -/
structure SlotWait where
  t : Fin 256
  w : Nat
deriving DecidableEq, Repr

/-- The limiter of a DAC: whether it is active, and whether the detector flags a short (R204). -/
structure Limiter where
  limiting : Bool
  flag : Bool
deriving DecidableEq, Repr

/-- The requester and the address of a staged write (R236). -/
structure StagedAt where
  req : Fin 405
  a : Word
deriving DecidableEq, Repr

/-- A block of a KEYSEL section (R331): the words of its ciphertext with those of its tag, and whether the check of the tag has begun
before the key was lost (R341). -/
structure CipherBlock where
  words : List Word
  begun : Bool
deriving DecidableEq, Repr

/-- The first word of an image, and whether a flash in OCTAL mode has given its tables (R333). -/
structure FirstWord where
  w : Word
  sfdp : Bool
deriving DecidableEq, Repr

/-- The dwords of a memory write with their byte enables; bit j of `colls` tells that a write of other data on port A meets dword j
(R213). -/
structure WriteDwords where
  dws : List (Nat × Word)
  colls : Nat
deriving DecidableEq, Repr

/-- The comparator of a bay that samples, and whether the other comparator of its window samples at the same edge (R186). -/
structure WindowSample where
  c : Fin 4
  pair : Bool
deriving DecidableEq, Repr

/-- A configuration request: Memory Space Enable and BAR0 as they stand after it, and for a read the number of the dword (R389). -/
structure HeaderAccess where
  mse : Bool
  bar : Word
  read : Option (Fin 64)
deriving DecidableEq, Repr

/-- The data words of a CAN frame on the RX input, and what ISO 11898-1 adds to REC for it: 0 for a good frame (R399). -/
structure RxData where
  data : List Word
  err : Nat
deriving DecidableEq, Repr

/-- The commands (spec/opcode_table.json). A requester of the device bus is named by its index (R20). -/
inductive Instr
  /-- TICK_EDGE (R35): The tick counter reaches TB_TICKLEN.CYCLES and a new tick n begins at a TB_CLK edge. -/
  | tickEdge
  /-- TICK_BOUNDARY (R14): The tick reaches a domain at its arrival time, and the domain acts on that tick. -/
  | tickBoundary (d : Arrival)
  /-- REGISTER_WRITE (R7): A write to a register that has no row of its own acts as its access codes say. -/
  | registerWrite (req : Fin 405) (a : Word) (size : Nat) (v : BusWord)
  /-- SYS_IRQ_EOI (R30): A write of SYS_IRQ_EOI re-arms the MSI of a group and resends it if the group is still pending. -/
  | sysIrqEoi (v : Word)
  /-- EVENT_DELIVERY (R33): An event pulse crosses a pulse synchroniser and becomes visible in a destination domain. -/
  | eventDelivery (e : Nat) (d : Domain)
  /-- ENCODER_EDGE (R37): An accepted quadrature edge updates the edge count and sets P to the exact edge angle. -/
  | encoderEdge (i : Fin 4) (k : EdgeKind)
  /-- INDEX_EDGE (R44): An index edge fires the index event and, in the forward direction, checks and corrects the edge count. -/
  | indexEdge (i : Fin 4) (forward : Bool)
  /-- SSI_READ (R39): The PERIOD count expires and an SSI read of the absolute position starts. -/
  | ssiRead (i : Fin 4)
  /-- SSI_SAMPLE (R39): An SSI frame completes and is decoded as an edge, or is discarded as SSIERR. -/
  | ssiSample (i : Fin 4) (data : Word) (parity frame : Bool)
  /-- ENCODER_TIMEOUT (R43): No edge arrives for TIMEOUT, so S becomes 0 and STOPPED and STOP are set. -/
  | encoderTimeout (i : Fin 4)
  /-- TB_NOW_LO_READ (R47): A read of TB_NOW_LO latches the time and angle snapshot for its requester. -/
  | tbNowLoRead (req : Fin 405)
  /-- HPOST_GO (R50): A host GO write posts TB_HPOST_W to the action store of a sector. -/
  | hpostGo (k : Fin 16)
  /-- HCANCEL (R57): A host write of TB_HCANCEL starts a cancel of the matching entries of a sector. -/
  | hcancel (mask : BitVec 16)
  /-- HRESULT_DONE (R453): The result of a host post or cancel becomes valid and DONE is set. -/
  | hresultDone
  /-- ARM (R51): An accepted entry crosses to TB_CLK and is armed, with T and F determined. -/
  | arm (k : Fin 16)
  /-- FIRE (R54): A pin entry reaches its instant and drives its value onto ACT_OUT. -/
  | fire (k : Fin 16)
  /-- ASSEMBLY (R55): The assembly of a line cycle starts LEAD cycles before C, and armed entries are placed in the timed frame. -/
  | assembly (l : Fin 8)
  /-- ENTRY_FREE (R56): A freed store entry becomes available for a new post once the freeing has crossed back to SECT_CLK. -/
  | entryFree (k : Fin 16)
  /-- CANCEL_ARM (R57): A cancel is armed at TB_CLK and removes the matching armed and pending entries. -/
  | cancelArm (k : Fin 16) (n : Nat)
  /-- PWM_PERIOD_START (R61): A PWM counter ends its period and starts a new one with the shadow duty. -/
  | pwmPeriodStart (k : Fin 16) (j : Fin 8)
  /-- PWM_DUTY_WRITE (R61): A write of STM_PWM_DUTY loads the shadow duty for the next period. -/
  | pwmDutyWrite (k : Fin 16) (n : Fin 16) (v : Word)
  /-- CAPTURE_EDGE (R62): A selected edge of a capture input stores a timestamp in the FIFO and fires the capture event. -/
  | captureEdge (k : Fin 16) (u : Fin 8) (level : Bool) (n : Nat)
  /-- CAP_DATA_READ (R60): A read of STM_CAP_DATA pops the oldest timestamp. -/
  | capDataRead (req : Fin 405) (k : Fin 16) (u : Fin 8)
  /-- QD_EDGE (R63): A quadrature decoder input edge updates POS. -/
  | qdEdge (k : Fin 16) (q : Fin 2) (e : EdgeKind)
  /-- QD_POS_WRITE (R60): A write of STM_QD_POS loads the count. -/
  | qdPosWrite (k : Fin 16) (q : Fin 2) (v : Word)
  /-- ACTIVATION_START (R65): A slice or BASE activation begins with the bank switch, and the first instruction issues. -/
  | activationStart (t : Fin 256)
  /-- PREEMPT (R66): The budget count ends before the activation has ended, so the engine preempts it. -/
  | preempt (t : Fin 256)
  /-- ACTIVATION_END (R67): EOS, YIELD or a fault completes once the posted-write buffer has drained. -/
  | activationEnd (t : Fin 256) (w : Nat)
  /-- POSTED_WRITE_ACCEPT (R76): A posted global write enters the crossing FIFO and leaves the buffer. -/
  | postedWriteAccept (t : Accepted)
  /-- GLOBAL_LOAD_RESPONSE (R88): The data of a blocking global load returns to the engine. -/
  | globalLoadResponse (t : Fin 256) (n : Nat)
  /-- FAULT_REPORT (R119): The fault report reaches the allocator, which takes the channel to FAULTED. -/
  | faultReport (t : Fin 256) (k : Fin 16)
  /-- CHANNEL_RELEASE (R119): At the release boundary, the release values take effect and the actions of a faulted channel are cancelled. -/
  | channelRelease (t : Fin 256) (k : Fin 16)
  /-- ILLEGAL (R77): An illegal instruction word faults the channel with ILLEGAL. -/
  | illegal (t : Fin 256)
  /-- ADD (R79): rd becomes ra + rb, wrapping. -/
  | add (t : Fin 256)
  /-- SUB (R79): rd becomes ra − rb, wrapping. -/
  | sub (t : Fin 256)
  /-- ADDS (R79): rd becomes the saturated sum. -/
  | adds (t : Fin 256)
  /-- SUBS (R79): rd becomes the saturated difference. -/
  | subs (t : Fin 256)
  /-- AND (R79): Bitwise AND. -/
  | and_ (t : Fin 256)
  /-- OR (R79): Bitwise OR. -/
  | or_ (t : Fin 256)
  /-- XOR (R79): Bitwise XOR. -/
  | xor (t : Fin 256)
  /-- ANDN (R79): ra AND NOT rb. -/
  | andn (t : Fin 256)
  /-- SHL (R79): Logical shift left. -/
  | shl (t : Fin 256)
  /-- SHR (R79): Logical shift right. -/
  | shr (t : Fin 256)
  /-- SAR (R79): Arithmetic shift right. -/
  | sar (t : Fin 256)
  /-- SHLS (R79): Saturating shift left. -/
  | shls (t : Fin 256)
  /-- MIN (R79): Signed minimum. -/
  | min_ (t : Fin 256)
  /-- MAX (R79): Signed maximum. -/
  | max_ (t : Fin 256)
  /-- ABS (R79): Saturated absolute value. -/
  | abs (t : Fin 256)
  /-- NEG (R79): Saturated negation. -/
  | neg (t : Fin 256)
  /-- MULQ31 (R80): Rounded, saturated Q1.31 product. -/
  | mulq31 (t : Fin 256)
  /-- MULQ16 (R80): Rounded, saturated Q16.16 product. -/
  | mulq16 (t : Fin 256)
  /-- MUL (R79): Low 32 bits of the product. -/
  | mul (t : Fin 256)
  /-- CLAMP (R79): Limits rd to the range ra to rb. -/
  | clamp (t : Fin 256)
  /-- MAC (R83): Adds a rounded product into the accumulator. -/
  | mac (t : Fin 256)
  /-- MSU (R83): Subtracts a rounded product from the accumulator. -/
  | msu (t : Fin 256)
  /-- MPY (R83): Loads the accumulator with a rounded product. -/
  | mpy (t : Fin 256)
  /-- RDA (R83): Reads the accumulator, rounded and saturated, into rd. -/
  | rda (t : Fin 256)
  /-- WRA (R83): Writes a shifted value into the accumulator. -/
  | wra (t : Fin 256)
  /-- CLRA (R83): Clears the accumulator. -/
  | clra (t : Fin 256)
  /-- ADDA (R83): Adds a shifted value to the accumulator. -/
  | adda (t : Fin 256)
  /-- EQ (R84): The flag becomes ra = rb. -/
  | eq (t : Fin 256)
  /-- NE (R84): The flag becomes ra ≠ rb. -/
  | ne (t : Fin 256)
  /-- LT (R84): Signed less than. -/
  | lt (t : Fin 256)
  /-- LE (R84): Signed less than or equal. -/
  | le (t : Fin 256)
  /-- LTU (R84): Unsigned less than. -/
  | ltu (t : Fin 256)
  /-- LEU (R84): Unsigned less than or equal. -/
  | leu (t : Fin 256)
  /-- TST (R84): The flag becomes (ra AND rb) ≠ 0. -/
  | tst (t : Fin 256)
  /-- SEL (R78): Selects ra or rb by a flag. -/
  | sel (t : Fin 256)
  /-- ADDI (R78): Adds an immediate, wrapping. -/
  | addi (t : Fin 256)
  /-- ADDSI (R78): Adds an immediate, saturating. -/
  | addsi (t : Fin 256)
  /-- ANDI (R78): ANDs a zero-extended immediate. -/
  | andi (t : Fin 256)
  /-- ORI (R78): ORs a zero-extended immediate. -/
  | ori (t : Fin 256)
  /-- XORI (R78): XORs a zero-extended immediate. -/
  | xori (t : Fin 256)
  /-- SHI (R78): Shifts by an immediate amount of the selected kind. -/
  | shi (t : Fin 256)
  /-- CMPI (R84): Compares ra with an immediate into a flag. -/
  | cmpi (t : Fin 256)
  /-- BR (R85): Conditional relative branch. -/
  | br (t : Fin 256)
  /-- DBNZ (R78): Decrements rd and branches if it is not zero. -/
  | dbnz (t : Fin 256)
  /-- LI (R78): Loads a sign-extended 20-bit immediate. -/
  | li (t : Fin 256)
  /-- LUI (R78): Loads an immediate into the upper bits. -/
  | lui (t : Fin 256)
  /-- JMP (R85): Absolute jump. -/
  | jmp (t : Fin 256)
  /-- CALL (R85): Absolute call that saves the return address in v15. -/
  | call (t : Fin 256)
  /-- LD (R86): Load through a pointer with post-modify. -/
  | ld (t : Fin 256) (w : PortWait)
  /-- ST (R86): Store through a pointer with post-modify. -/
  | st (t : Fin 256) (w : PortWait)
  /-- NOP (R89): No operation. -/
  | nop (t : Fin 256)
  /-- EOS (R67): Ends the activation with a commit; the next activation starts at the entry point. -/
  | eos (t : Fin 256)
  /-- YIELD (R67): Ends the activation with a commit; the next activation resumes after the YIELD. -/
  | yield_ (t : Fin 256)
  /-- BRK (R99): Faults with BREAK, or stops the channel when a break is armed. -/
  | brk (t : Fin 256)
  /-- JR (R85): Jumps to the address in ra. -/
  | jr (t : Fin 256)
  /-- MFS (R71): Reads a special register; a read of TRIG clears it. -/
  | mfs (t : Fin 256)
  /-- MTS (R71): Writes a special register. -/
  | mts (t : Fin 256)
  /-- ADDP (R87): Adds an immediate to a pointer with modulo correction. -/
  | addp (t : Fin 256)
  /-- RDIN (R93): Reads an input binding with a freshness flag. -/
  | rdin (t : Fin 256)
  /-- RDINT (R93): Returns the timestamp of the last converter value that RDIN read. -/
  | rdint (t : Fin 256)
  /-- STOUT (R94): Stages a word for an output binding. -/
  | stout (t : Fin 256)
  /-- POST (R96): Posts an action entry to the action store of the own sector. -/
  | post (t : Fin 256) (w : Nat)
  /-- CANCEL (R98): Cancels the channel's own entries that match a tag and mask, and returns the count. -/
  | cancel (t : SlotWait)
  /-- LUT (R90): Interpolates in a table. -/
  | lut (t : Fin 256)
  /-- RCPS (R91): Returns an approximate Q16.16 reciprocal. -/
  | rcps (t : Fin 256)
  /-- SQRS (R91): Returns an approximate Q16.16 square root. -/
  | sqrs (t : Fin 256)
  /-- CLAIM (R105): Claims a free request buffer for the writer. -/
  | claim (req : Fin 405) (b : Fin 16)
  /-- RELEASE (R105): The owner frees its request buffer, after DONE if a request is pending. -/
  | rbRelease (req : Fin 405) (b : Fin 16)
  /-- CREATE (R110): Queues a request to create a channel in a slot. -/
  | create (req : Fin 405) (b : Fin 16) (staged : Bool)
  /-- DESTROY (R112): Queues a request to destroy a channel. -/
  | destroy (req : Fin 405) (b : Fin 16) (staged : Bool)
  /-- MODIFY (R112): Queues a request to change the settings of a channel. -/
  | modify (req : Fin 405) (b : Fin 16) (staged : Bool)
  /-- QUERY (R109): Queues a request for the state of a channel. -/
  | query (req : Fin 405) (b : Fin 16) (staged : Bool)
  /-- REQUEST_DONE (R106): The allocator finishes a queued request, with its checks, and writes RESULT, TICK and the code. -/
  | requestDone
  /-- ALLOC_RBFREE (R105): The host frees request buffers through ALLOC_RBFREE. -/
  | allocRbfree (v : Word)
  /-- FLOG_POP (R123): Removes the oldest fault-log entry. -/
  | flogPop (v : Word)
  /-- ENGHOLD_WRITE (R121): A write of ALLOC_ENGHOLD holds or releases engines, and a hold is refused on an engine with channels. -/
  | engholdWrite (w : Fin 8) (v : Word)
  /-- RCAL_GO (R140): Starts the measurement of one matrix switch, or refuses it. -/
  | rcalGo (k : Fin 16) (v : Word)
  /-- RCAL_DONE (R140): A switch measurement completes and writes RON, or is aborted by an apply. -/
  | rcalDone (k : Fin 16) (ron : Nat)
  /-- RONSTALE (R137): No measurement has completed for 10 s, so RONSTALE becomes 1. -/
  | ronstale (k : Fin 16)
  /-- REF_OK (R130): The reference buffer reaches or leaves regulation, and REF_OK changes. -/
  | refOk (k : Fin 16) (ok : Bool)
  /-- AMP_LIMIT (R127): An amplifier enters current limit, and AMPLIM is set. -/
  | ampLimit (k : Fin 16) (j : Fin 8) (on : Bool)
  /-- ADC_SWTRIG (R154): A write of ADC_SWTRIG.GO is a software trigger of a converter. -/
  | adcSwtrig (n : Fin 32)
  /-- CONVERSION_END (R150): A conversion reaches its end edge E, and the next entry or run starts. -/
  | conversionEnd (n : Fin 32) (d : Word) (ovr refbad : Bool)
  /-- RESULT_WRITE (R157): At W the result record of an entry is replaced, and the result-ready event fires. -/
  | resultWrite (n : Fin 32)
  /-- RESULT_COPY (R161): A result record arrives at the sector's copy for the engines. -/
  | resultCopy (n : Fin 32)
  /-- ADC_RES_LO_READ (R160): A read of ADC_RES_LO returns VALUE and takes a snapshot for the requester. -/
  | adcResLoRead (req : Fin 405) (n : Fin 32) (e : Fin 16)
  /-- CAL_ZERO (R168): Starts a zero calibration measurement. -/
  | calZero (n : Fin 32) (v : Word)
  /-- CAL_FULL (R170): Starts a full-scale calibration measurement. -/
  | calFull (n : Fin 32) (v : Word)
  /-- CAL_ABORT (R169): Aborts a calibration measurement. -/
  | calAbort (n : Fin 32)
  /-- CAL_SAVE (R171): Saves a calibration set to the retention store. -/
  | calSave (n : Fin 32) (v : Word)
  /-- CAL_RESTORE (R172): Restores a calibration set from the retention store. -/
  | calRestore (n : Fin 32) (v : Word)
  /-- COMPARATOR_CROSS (R177): The comparator input crosses a trip point, and R changes. -/
  | comparatorCross (k : Fin 16) (c : Fin 4) (above : Bool)
  /-- FILTER_SAMPLE (R179): The sample divider expires, and the majority filter takes a sample and updates F and L. -/
  | filterSample (k : Fin 16) (c : WindowSample)
  /-- SETTLING_HOLD_END (R182): The settling hold of a comparator ends, and sampling resumes. -/
  | settlingHoldEnd (k : Fin 16) (c : Fin 4)
  /-- CMP_LATCH_WRITE (R184): A write of CMP_LATCH sends clears of comparator and window latches. -/
  | cmpLatchWrite (k : Fin 16) (v : Word)
  /-- LATCH_CLEAR (R185): A latch clear arrives at MOD_CLK and clears L unless F is still 1. -/
  | latchClear (k : Fin 16) (l : Fin 6)
  /-- RANGE_HOLD_END (R202): The DAC track-and-hold ends, and the new gain and pending code take effect. -/
  | rangeHoldEnd (n : Fin 32)
  /-- DAC_SHORT (R204): The short detector flags continuous current limiting, and SHORT is set. -/
  | dacShort (n : Fin 32) (limiting : Limiter)
  /-- SHORT_CLEAR (R200): Software clears SHORT, and a DAC in FAULT goes to WAIT. -/
  | shortClear (n : Fin 32)
  /-- ECC_WRITEBACK (R209): A corrected word is written back in an idle bank cycle. -/
  | eccWriteback (k : Fin 16)
  /-- DMA_GO (R219): Checks the descriptor and starts or arms a DMA channel. -/
  | dmaGo (k : Fin 16) (j : Fin 8) (v : Word)
  /-- DMA_ABORT (R220): Aborts or disarms a DMA channel. -/
  | dmaAbort (k : Fin 16) (j : Fin 8)
  /-- DMA_WORD (R218): A DMA channel completes the read and write of one word, and ends the block after the last word. -/
  | dmaWord (k : Fin 16) (j : Fin 8) (coll : Bool)
  /-- FABRIC_SP_REQUEST (R228): A fabric scratchpad request arrives and is served on port B. -/
  | fabricSpRequest (k : Fin 16) (we : Bool) (view : Fin 4) (word : BitVec 16) (data : Word) (coll : Bool)
  /-- FABRIC_SP_RETURN (R228): A scratchpad read return reaches the fabric. -/
  | fabricSpReturn (k : Fin 16)
  /-- MBX_TOFAB_WRITE (R229): A bus write of a mailbox word to the fabric. -/
  | mbxTofabWrite (k : Fin 16) (j : Fin 8) (v : Word)
  /-- MBX_TO_ACK (R229): The fabric acknowledges a mailbox word, which clears TOFULL. -/
  | mbxToAck (k : Fin 16) (j : Fin 8)
  /-- MBX_FROM_WR (R229): The fabric writes a mailbox word to the bus. -/
  | mbxFromWr (k : Fin 16) (j : Fin 8) (v : Word)
  /-- MBX_DOORBELL (R229): A write of RING pulses MBX_DB. -/
  | mbxDoorbell (k : Fin 16) (v : Word)
  /-- SCR_INJ_ARM (R231): Arms error injection on the next full-word write. -/
  | scrInjArm (k : Fin 16) (v : Word)
  /-- VAULT_WIPE (R224): A keyed command wipes the vault. -/
  | vaultWipe (req : Fin 405) (v : Word)
  /-- WIPE_DONE (R225): A vault wipe ends, and LASTCAUSE, WIPES and WIPED are updated. -/
  | wipeDone
  /-- OPEN (R234): Opens an Attar session. -/
  | openSession (req : Fin 405)
  /-- CHECK (R234): Starts the checker on the staged state. -/
  | attarCheck (req : Fin 405)
  /-- CHECK_DONE (R240): The checker completes and writes its result and the CHECKED or OPEN state. -/
  | checkDone
  /-- APPLY (R243): Arms the apply for a tick or an angle. -/
  | attarApply (req : Fin 405) (mode : Fin 4)
  /-- ABORT (R247): Closes the session without effect, with FORCE optional. -/
  | attarAbort (req : Fin 405) (force : Bool)
  /-- STAGED_WRITE (R236): A write to a register with RWS fields goes to the staged copy, or has no effect and sets STRAY. -/
  | stagedWrite (a : StagedAt) (v : Word)
  /-- PEEK (R237): A write of ATTAR_PEEK_ADDR selects the staged state that PEEK_DATA returns. -/
  | peek (a : Word)
  /-- APPLY_STROBE (R244): At the tick edge of the apply tick, the clocks are sampled and the apply strobe is sent or fails. -/
  | applyStrobe
  /-- SESSION_TIMEOUT (R247): A session open longer than TIMEOUT closes. -/
  | sessionTimeout
  /-- GPIO_SET (R259): Sets GPIO_OUT bits. -/
  | gpioSet (g : Fin 11) (v : Word)
  /-- GPIO_CLR (R259): Clears GPIO_OUT bits. -/
  | gpioClr (g : Fin 11) (v : Word)
  /-- GPIO_TGL (R259): Inverts GPIO_OUT bits. -/
  | gpioTgl (g : Fin 11) (v : Word)
  /-- XBAR_LOCK (R262): A write of XBAR_LOCK opens or completes the lock sequence, or ends it with LOCKERR. -/
  | xbarLock (req : Fin 405) (v : Word)
  /-- LOCK_TIMEOUT (R262): An open lock sequence times out after 256 cycles. -/
  | lockTimeout
  /-- BANK_FAIL (R250): A VDDIO bank is lost, its pads go high-impedance, and BANKFAIL is set. -/
  | bankFail (b : Fin 8)
  /-- BANK_RETURN (R250): A bank returns, and its pads resume at the next tick boundary. -/
  | bankReturn (b : Fin 8) (level : Fin 4)
  /-- CYCLE_START (R272): A line cycle begins, and the MARK, data frame and timed frame are sent. -/
  | cycleStart (l : Fin 8)
  /-- RETURN_RECEIVE (R284): A returned data frame is received and judged, and the node statuses are updated. -/
  | returnReceive (l : Fin 8) (f : LineReturn)
  /-- NODE_SYMBOL_LOCK (R285): A node gains symbol lock and goes from OFFLINE to HOLD. -/
  | nodeSymbolLock (l : Fin 8) (k : Fin 32)
  /-- NODE_LOCK_LOSS (R285): A node loses symbol lock on every port and goes OFFLINE. -/
  | nodeLockLoss (l : Fin 8) (k : Fin 32)
  /-- NODE_DATA_FRAME (R285): A node accepts a data frame, writes its return fields, and acts on SAFE and ENOUT. -/
  | nodeDataFrame (l : Fin 8) (k : Fin 32) (f : LineFrame) (loop aux nfault : Nat)
  /-- NODE_TIMED_FRAME (R286): A node receives and checks a timed frame. -/
  | nodeTimedFrame (l : Fin 8) (k : Fin 32) (f : LineFrame)
  /-- NODE_MARK (R286): A MARK arrives at a node, which stages the image, applies FOLLOW and arms the records. -/
  | nodeMark (l : Fin 8) (k : Fin 32) (good down : Bool)
  /-- NODE_FIRING (R286): A node executes the records of a window step. -/
  | nodeFiring (l : Fin 8) (k : Fin 32)
  /-- NODE_PULSE_END (R278): A pulse length expires, and the output turns off. -/
  | nodePulseEnd (l : Fin 8) (k : Fin 32)
  /-- NODE_TIMEOUT (R289): TMO cycles pass without an accepted data frame, and the node goes to HOLD. -/
  | nodeTimeout (l : Fin 8) (k : Fin 32)
  /-- NODE_EPOCH_RELEASE (R287): A node that has accepted no frame for 1 s clears OWNER_EPOCH. -/
  | nodeEpochRelease (l : Fin 8) (k : Fin 32)
  /-- TICK_PACKET (R301): A TICK packet arrives from the primary, and the checksums are compared. -/
  | tickPacket (rx : PacketRx) (p : TickPacket)
  /-- LOG_PACKET (R302): A LOG packet with the external values of the activations arrives. -/
  | logPacket (rx : PacketRx) (p : LogPacket)
  /-- WRITE_PACKET (R303): A mirrored write arrives and is applied. -/
  | writePacket (rx : PacketRx) (addr size : Nat) (v : BusWord)
  /-- SESSION_PACKET (R306): A mirrored session arrives, and the standby applies or discards it. -/
  | sessionPacket (rx : PacketRx) (p : SessionPacket)
  /-- ALLOC_PACKET (R301): A slot state change of the primary arrives. -/
  | allocPacket (rx : PacketRx) (p : AllocPacket)
  /-- REFRESH_PACKET (R305): A channel refresh arrives and is applied after the replay. -/
  | refreshPacket (rx : PacketRx) (p : RefreshPacket)
  /-- BULK_PACKET (R314): Bulk join data arrives. -/
  | bulkPacket (rx : PacketRx) (p : BulkItem) (left : Nat)
  /-- STATUS_PACKET (R312): A STATUS packet arrives from the standby. -/
  | statusPacket (rx : PacketRx) (p : StatusPacket)
  /-- HELLO_PACKET (R301): A HELLO packet arrives, and the role transitions of SEEK are evaluated. -/
  | helloPacket (rx : PacketRx) (p : HelloPacket)
  /-- HELLO_SEND (R301): The 100 µs timer expires, and a HELLO packet is sent. -/
  | helloSend
  /-- REPLAY (R302): A standby engine replays a logged activation of tick n − 2. -/
  | replay (t : Fin 256)
  /-- HEARTBEAT_CHECK (R309): Half a tick passes without a good TICK packet, so HBMISS counts and the primary may be declared lost. -/
  | heartbeatCheck
  /-- TAKEOVER (R310): At the boundary of the takeover tick, the standby becomes LONE. -/
  | takeover
  /-- ALIVE_TOGGLE (R296): The alive pin toggles every 32 SAFE_CLK cycles while the device is fit. -/
  | aliveToggle
  /-- ALIVE_IN_EDGE (R296): An edge on PAIR_ALIVE_IN marks the partner alive. -/
  | aliveInEdge
  /-- PARTNER_STATIC (R296): No alive edge for 20 µs, so the partner is static. -/
  | partnerStatic
  /-- SEEK_TIMEOUT (R299): The partner is static for SEEKTMO, so the device goes to LONE. -/
  | seekTimeout
  /-- SYNC_TICK (R314): At the sync tick, the joiner loads TB_NOW and the tick counter from the primary. -/
  | syncTick (now : BitVec 64) (tick : BitVec 48) (banks : List RefreshPacket)
  /-- JOIN_COMPLETE (R314): After 64 clean ticks, the joiner becomes STANDBY and the partner PRIMARY. -/
  | joinComplete
  /-- RESIGN (R313): A keyed RESIGN deposes a PRIMARY or LONE device. -/
  | resign (v : Word)
  /-- REJOIN (R299): A keyed REJOIN sends the device to SEEK or restarts a join. -/
  | rejoin (v : Word)
  /-- EPOCH_SILENCE_END (R311): The 1.2 s silence after epoch wrap ends, and epoch 0x0002 + side is used. -/
  | epochSilenceEnd
  /-- POWER_ON (R415): The last rail rises and the power-on reset hold ends. -/
  | powerOn
  /-- RAIL_FALL (R415): A rail falls below its threshold and starts a power-on reset. -/
  | railFall (rail : Fin 5)
  /-- RESET_N_ASSERT (R416): RESET_N is recognised low, and the pads go high-impedance. -/
  | resetNAssert
  /-- RESET_N_RELEASE (R318): RESET_N rises, MODE is sampled and loading begins with the clearing. -/
  | resetNRelease
  /-- SYNC_WORD (R320): The first image word is checked against the sync word. -/
  | syncWord (w : FirstWord)
  /-- AUTH (R329): The AUTH record is read and the stream pauses for its checks. -/
  | auth (h : Word) (ws : List Word)
  /-- AUTH_CHECK_DONE (R330): The AUTH checks complete and the stream resumes or fails. -/
  | authCheckDone (key sig : Unit)
  /-- NOP_RECORD (R321): A NOP record is skipped. -/
  | nopRecord (h : Word) (ws : List Word)
  /-- REGWR (R322): A register-write record sets active values. -/
  | regwr (h : Word) (ws : List Word)
  /-- FRAME (R324): A FRAME record writes configuration frames after their CRC checks. -/
  | frame (h : Word) (ws : List Word)
  /-- CHECK_RECORD (R327): A CHECK record compares a CRC of the parsed plaintext. -/
  | checkRecord (h : Word) (ws : List Word)
  /-- RBEGIN (R351): Begins a region section; for a partial load it starts the hold. -/
  | rbegin (h : Word)
  /-- REND (R353): Ends a region section. -/
  | rend (h : Word)
  /-- KEYSEL (R331): Begins an encrypted section with a selected key. -/
  | keysel (h plen : Word)
  /-- KEYSEL_BLOCK (R331): An encrypted block arrives, its tag is checked and it is decrypted. -/
  | keyselBlock (b : CipherBlock)
  /-- PASSON (R335): A PASSON record is sent out of the pass-on port. -/
  | passon (h : Word) (ws : List Word)
  /-- END (R330): The END record is checked against the hash and LENGTH. -/
  | endRecord (h : Word) (hash : Unit)
  /-- CONFIG_RELEASE (R340): The configuration is released after the release check, the clocks and the restores; tick 0 begins. -/
  | configRelease (us : Word)
  /-- IO_ENABLE (R336): With HOLDIO, the I/O is enabled once CFG_DONE has been high for 1 µs. -/
  | ioEnable
  /-- CFG_LOADWIN_WRITE (R337): A host write appends a word to the image stream. -/
  | cfgLoadwinWrite (v : Word)
  /-- LOAD_DEADLINE (R337): The host-load deadline expires before release. -/
  | loadDeadline
  /-- RESTART (R339): A keyed CFG_CMD RESTART starts a new host-load attempt. -/
  | cfgRestart (v : Word)
  /-- FUSE_IMGKEY (R343): Fuses the image-key hash. -/
  | fuseImgkey (v : Word)
  /-- FUSE_SVCKEY (R343): Fuses the service-key hash. -/
  | fuseSvckey (v : Word)
  /-- FUSE_AESKEY (R343): Fuses the AES key. -/
  | fuseAeskey (v : Word)
  /-- KEYRAM (R343): Writes the key RAM. -/
  | keyram (v : Word)
  /-- ADVANCE (R343): Advances the life-cycle state. -/
  | advanceLc (v : Word)
  /-- SERVICE (R344): Checks a service token and enters SERVICE. -/
  | service (v : Word)
  /-- LEAVE (R343): Leaves SERVICE for DEPLOYED. -/
  | leaveService (v : Word)
  /-- RETIRE (R343): Retires the device, with a trip, a key kill and an internal reset. -/
  | retire (v : Word)
  /-- SETMINVER (R343): Raises MINVER. -/
  | setminver (v : Word)
  /-- FUSE_ALTBOOT (R343): Sets ALTBOOT. -/
  | fuseAltboot (v : Word)
  /-- LCCMD_DONE (R343): A life-cycle command completes and writes RESULT. -/
  | lccmdDone (ok : Bool)
  /-- SERVICE_EXPIRY (R343): The token duration runs out, and SERVICE ends. -/
  | serviceExpiry
  /-- REGION_HOLD (R351): At the hold boundary, a region enters reset and its channels fault with REGION. -/
  | regionHold (r : Fin 32)
  /-- PARTIAL_CHECK_DONE (R353): The release check of a partial load completes. -/
  | partialCheckDone
  /-- REGION_RELEASE (R353): At the release boundary, a region takes its new settings and leaves reset. -/
  | regionRelease (r : Fin 32)
  /-- ABANDON (R350): Abandons a partial load and ends discarding. -/
  | abandon (v : Word)
  /-- RELOAD (R360): Starts a reload of a region from flash. -/
  | reload (v : Word)
  /-- SCRUB_VISIT (R357): The pacing count expires and the scrubber reads the next frame or instruction word. -/
  | scrubVisit
  /-- VOTE_FIX (R361): A disagreeing copy of triple-voted state is rewritten. -/
  | voteFix
  /-- IST_SIGNATURE (R364): A signature program runs in engine slack and its signature is checked. -/
  | istSignature (t : Fin 256) (sig : Word) (expected pass : Unit)
  /-- SPMARCH_WINDOW (R365): A scratchpad window is march-tested and restored. -/
  | spmarchWindow (k : Fin 16) (b : Fin 8) (word : Fin 64) (diff : BitVec 39) (starts : Bool) (pass : Unit)
  /-- TRMARCH_WINDOW (R365): A tile data RAM window is march-tested and restored. -/
  | trmarchWindow (t : Fin 256) (word : Fin 64) (diff : BitVec 39) (starts : Bool) (pass : Unit)
  /-- IST_CONVERSION (R366): A borrowed test conversion ends and is compared with its limit. -/
  | istConversion (kind : Fin 4) (unit arg : Nat) (d : Word) (starts : Bool)
  /-- LINK_WINDOW (R367): A 1 s window of line error counts ends and is compared with LIMIT. -/
  | linkWindow (l : Fin 8) (pass : Unit)
  /-- IST_STARVED (R368): A kind has not completed a pass in MAXPASS, so STARVED is set. -/
  | istStarved (kind : Fin 8)
  /-- TRIP (R371): A keyed SAFE_CTRL TRIP raises source HOST. -/
  | trip (v : Word)
  /-- TRIP_INPUT (R371): TRIP_IN_N stays low for INFILT + 1 cycles. -/
  | tripInput (i : Fin 2) (low : Bool)
  /-- COMPARATOR_TRIP (R371): A trip comparator persists at 1 for 4·(CF + 1) cycles. -/
  | comparatorTrip (n : Fin 64) (on : Bool)
  /-- VMON (R440): A rail is out of range for 1 µs. -/
  | vmon (out : Bool)
  /-- TEMP (R440): Tj rises above 135 °C. -/
  | temp (hot : Bool)
  /-- CLOCK_MONITOR (R378): A 1 µs clock-count window ends, and two bad windows raise CLOCK. -/
  | clockMonitor (bad : Bool)
  /-- TICK_WATCHDOG (R378): The tick gap exceeds US, which raises TICKWD. -/
  | tickWatchdog
  /-- HANDOVER_TRIP (R373): The trip edge of a handover falls after the deposing boundary. -/
  | handoverTrip
  /-- TRIP_RELEASE (R374): A keyed RELEASE releases a trip, or is refused. -/
  | tripRelease (v : Word)
  /-- SAFE_LOCK (R384): A keyed LOCK locks the RWL fields of SAFE and IST. -/
  | safeLock (v : Word)
  /-- KICK (R377): A write of SAFE_WDKICK kicks the watchdog, or expires it. -/
  | kick (v : Word)
  /-- WDWARN (R377): MAX/2 passes without a kick, so WDWARN is set. -/
  | wdwarn
  /-- WATCHDOG_EXPIRY (R377): The watchdog expires and raises WDT. -/
  | watchdogExpiry
  /-- INTERNAL_RESET_RELEASE (R379): The 100 µs internal reset hold ends, and loading begins. -/
  | internalResetRelease
  /-- TAMPER_EVENT (R380): A tamper event wipes the vault and the key RAM. -/
  | tamperEvent (e : Fin 6)
  /-- RTC_SECOND (R454): SAFE_RTCSEC counts a second on RTC_CLK. -/
  | rtcSecond
  /-- SILLAGE_WRITE (R386): The buffer writes a record from its FIFO, and freezes after POST records past the trigger. -/
  | sillageWrite
  /-- SILLAGE_FREEZE (R387): Freezes capture. -/
  | sillageFreeze
  /-- SILLAGE_RESUME (R387): Clears FROZEN and TRIGGERED. -/
  | sillageResume
  /-- SILLAGE_CLEAR (R387): Sets WPTR and LAP to 0. -/
  | sillageClear
  /-- SILLAGE_MARK (R385): A write of SILLAGE_MARK records a MARK. -/
  | sillageMark (req : Fin 405) (v : Word)
  /-- PCIE_MEMORY_WRITE (R392): A memory write request becomes device-bus accesses. -/
  | pcieMemoryWrite (off : BitVec 26) (dws : WriteDwords) (poison : Bool)
  /-- PCIE_MEMORY_READ (R392): A memory read request is served in completions. -/
  | pcieMemoryRead (off : BitVec 26) (n : Nat)
  /-- UNSUPPORTED_REQUEST (R392): An unsupported request receives UR. -/
  | unsupportedRequest
  /-- MSI_RELEASE (R393): Held MSIs are sent once the conditions permit them. -/
  | msiRelease
  /-- PERST (R394): PERST_N resets the endpoint. -/
  | perst
  /-- LINK_DOWN (R394): The PCIe link goes down without PERST_N. -/
  | linkDown
  /-- PUSH (R397): Copies CAN_TXBUF into the transmit queue. -/
  | canPush (m : Fin 4)
  /-- CAN_ABORT (R397): Removes the queued frames that have not started. -/
  | canAbort (m : Fin 4)
  /-- RECOVER (R399): Starts bus-off recovery. -/
  | canRecover (m : Fin 4)
  /-- POP (R398): Removes the oldest received frame. -/
  | canPop (m : Fin 4)
  /-- CAN_RX_FRAME (R398): A received frame is filtered and enters the FIFO. -/
  | canRxFrame (m : Fin 4) (id ctrl : Word) (age : Nat) (data : RxData)
  /-- CAN_TX_DONE (R397): A frame transmission ends, with success, lost arbitration or an error. -/
  | canTxDone (m : Fin 4) (result : Fin 3)
  /-- BUSOFF_RECOVERY (R399): 128 occurrences of 11 recessive bits end bus-off. -/
  | busoffRecovery (m : Fin 4)
  /-- SPI_TX (R401): Pushes a word to the SPI transmit FIFO. -/
  | spiTx (m : Fin 16) (v : Word)
  /-- SPI_RX (R401): Pops a received SPI word. -/
  | spiRx (req : Fin 405) (m : Fin 16)
  /-- SPI_WORD_DONE (R402): An SPI word transfer completes. -/
  | spiWordDone (m : Fin 16) (data : Word)
  /-- I2C_CMD (R403): Pushes an I²C command entry. -/
  | i2cCmd (m : Fin 8) (v : Word)
  /-- I2C_ENTRY_DONE (R403): An I²C command entry completes, or ends with NACK or ARBLOST. -/
  | i2cEntryDone (m : Fin 8) (data : BitVec 8) (result : Fin 3)
  /-- I2C_RX (R401): Pops a received I²C byte. -/
  | i2cRx (req : Fin 405) (m : Fin 8)
  /-- I2C_TIMEOUT (R403): SCL is held low for 25 ms. -/
  | i2cTimeout (m : Fin 8)
  /-- UART_TX (R401): Pushes a UART transmit entry. -/
  | uartTx (m : Fin 8) (v : Word)
  /-- UART_RX (R401): Pops a received UART entry. -/
  | uartRx (req : Fin 405) (m : Fin 8)
  /-- UART_FRAME_SENT (R404): A UART frame is sent. -/
  | uartFrameSent (m : Fin 8)
  /-- UART_FRAME_RECEIVED (R404): A UART frame is received. -/
  | uartFrameReceived (m : Fin 8) (data : BitVec 9) (break_ parity framing : Bool)
  /-- IDCODE (R406): Selects the IDCODE register. -/
  | idcode
  /-- SAMPLE_PRELOAD (R406): Selects SAMPLE/PRELOAD. -/
  | samplePreload (cells : List (Nat × Bool × Bool))
  /-- EXTEST (R407): Drives the pads from the boundary cells. -/
  | extest (cells : List (Nat × Bool × Bool))
  /-- JTAG_CLAMP (R407): The CLAMP instruction holds the pads and selects bypass. -/
  | jtagClamp
  /-- HIGHZ (R407): Takes the covered pads to high impedance. -/
  | highz
  /-- BYPASS (R406): Selects the bypass register. -/
  | bypass
  /-- CFGLOAD (R408): Selects the image-load data register. -/
  | cfgload
  /-- CFGLOAD_UPDATE (R408): An Update-DR appends a word to the image stream. -/
  | cfgloadUpdate (v : Word)
  /-- TEST_LOGIC_RESET (R407): The TAP resets, and the pads return to their functions. -/
  | testLogicReset
  /-- READ (R410): A maintenance-port read of a word address. -/
  | mpRead (addr : Word) (crc : BitVec 8)
  /-- WRITE (R410): A maintenance-port write of a word address. -/
  | mpWrite (addr : Word) (v : BusWord) (crc : BitVec 8)
  /-- HALT (R412): Stops a channel before its next activation. -/
  | debugHalt (addr : Word) (crc : BitVec 8)
  /-- RESUME (R412): Resumes a stopped channel. -/
  | debugResume (addr : Word) (crc : BitVec 8)
  /-- STEP (R412): Lets a stopped channel run one instruction. -/
  | debugStep (addr : Word) (crc : BitVec 8)
  /-- BRKSET (R412): Arms BRK and an optional PC breakpoint. -/
  | brkset (addr v : Word) (crc : BitVec 8)
  /-- BRKCLR (R412): Removes the break and the breakpoint. -/
  | brkclr (addr : Word) (crc : BitVec 8)
  /-- RDREG (R413): Reads a register of a stopped channel. -/
  | rdreg (addr : Word) (crc : BitVec 8)
  /-- WRREG (R413): Writes a register of a stopped channel. -/
  | wrreg (addr v : Word) (crc : BitVec 8)
  /-- MP_TIMEOUT (R409): A maintenance-port request has not completed after 4,096 cycles and returns TIMEOUT. -/
  | mpTimeout
  /-- PLL_LOCK (R418): A PLL locks. -/
  | pllLock (i : Fin 5)
  /-- PLL_UNLOCK (R421): A running PLL loses lock. -/
  | pllUnlock (i : Fin 5)
  /-- STANDBY_REQUEST (R422): A keyed CLK_STBY GO requests standby, or is refused. -/
  | standbyRequest (v : Word)
  /-- STANDBY_ENTRY (R423): The device enters standby at the boundary. -/
  | standbyEntry
  /-- WAKE (R425): A wake source meets its condition, and the clocks restart. -/
  | wake (src : BitVec 4) (cmps : BitVec 64)
  /-- WAKE_LOCK_TIMEOUT (R426): A PLL has not locked within 1 ms of the wake, which raises CLOCK. -/
  | wakeLockTimeout
  /-- RESUME_BOUNDARY (R426): The first tick boundary after lock ends the standby. -/
  | resumeBoundary
  /-- POWER_FAIL_WARNING (R427): PFW_N or VDD gives a power-fail warning. -/
  | powerFailWarning
  /-- SNAPSHOT_DONE (R432): A snapshot ends with its header written. -/
  | snapshotDone
  /-- SNAP (R429): Starts a command snapshot. -/
  | snap (v : Word)
  /-- ERASESNAP (R438): Zeroes every snapshot header. -/
  | erasesnap (v : Word)
  /-- ERASEFAULT (R433): Clears the fault area and the pointer ring. -/
  | erasefault (v : Word)
  /-- MRAM_REFRESH (R434): Every 10 minutes, one page of the retention store is rewritten. -/
  | mramRefresh
  /-- RC_REGISTER_READ (R8): A read of a register that holds RC fields returns their values and clears them, keeping an event of the same cycle. -/
  | rcRegisterRead (req : Fin 405) (a : Word) (size : Nat)
  /-- VIRTUAL_SOURCE_WRAP (R45): The virtual source position V, advancing by TB_VSPEED every TB_CLK cycle, passes a revolution boundary, so REV changes and event 0x124 fires. -/
  | virtualSourceWrap
  /-- FAB_OUT_CHANGE (R227): The fabric design changes a FAB_OUT value or its output enable, which the pin crossbar then shows on the pads that select it. -/
  | fabOutChange (k : Fin 16) (j : Fin 32) (value oe : Bool)
  /-- UBVEL_LINK_DOWN (R295): A lane of the Ubvel link loses lock or alignment, so PAIR_STAT.LINK falls to 0 and LINKDOWN is set. -/
  | ubvelLinkDown
  /-- UBVEL_LINK_UP (R316): Both Ubvel lanes lock and align, PAIR_STAT.LINK becomes 1, and with AUTOJOIN a desynchronised device restarts its join. -/
  | ubvelLinkUp (dly : BitVec 16)
  /-- CFG_CLOCK_TIMEOUT (R338): A PLL enabled by the image's CLKRST writes has not locked within 1 ms during the release, and the load fails with CLOCK. -/
  | cfgClockTimeout
  /-- MEMORY_BIT_FLIP (R358): A stored bit of configuration memory, an instruction or data RAM, a scratchpad or the voted state flips or sticks. -/
  | memoryBitFlip (t : FlipTarget)
  /-- PCIE_CONFIG_REQUEST (R389): A configuration request from the host changes the function's header, such as Memory Space Enable, Bus Master Enable, MSI Enable or the power state. -/
  | pcieConfigRequest (h : HeaderAccess) (bme msiEn d3 : Bool) (grant : Fin 4)
  /-- PERST_N_RELEASE (R394): PERST_N rises, the PCIe PLL starts and the endpoint leaves reset to train. -/
  | perstNRelease
  /-- PCIE_LINK_TRAINED (R390): Link training completes and PCIE_STAT.LINKUP becomes 1. -/
  | pcieLinkTrained (gen2 : Bool)
  /-- UART_CTS_ASSERT (R404): CTS of a UART with FLOW = 1 goes low, so a frame waiting in the transmit FIFO starts. -/
  | uartCtsAssert (m : Fin 8)
  /-- BATTERY_DOMAIN_LOSS (R436): VBAT is lost while AVDD is absent, so the battery domain loses the key RAM, the RTC count and the tamper settings, and the vault too if VDD is absent. -/
  | batteryDomainLoss
  /-- BATTERY_DOMAIN_RETURN (R454): The battery domain regains supply from VBAT or AVDD after losing both, and SAFE_RTCSEC starts again from 0 with the VBAT fields at reset. -/
  | batteryDomainReturn
deriving DecidableEq, Repr

end Sys2Proof
end

