-- ==== Sys2Proof/Decode.lean ====
section
/-! DEFINITION. The command that a word spells by the bits of spec/opcode_table.json. The table gives no row any bits: its rows are
commands, not words, and the words of the loop engines are decoded in Machine/Isa.lean. -/

namespace Sys2Proof

/-- The command of a word by the table's bits: none, since no row has bits. -/
def decodeTableWord (_nbits _w : Nat) : Option Instr := none

end Sys2Proof
end

