-- ==== Sys2Proof/Config.lean ====
section
/-! DEFINITION. The free values of the model: what the spec leaves open. None has a body that a proof could see. -/

namespace Sys2Proof.Config

/-- A value that the spec leaves open, fresh for each number (log 9). -/
opaque freeWord : Nat → Word

/-- Whether an outside source drives a pad, and to which level (R258), by time and pad. -/
opaque padOutside : Nat → Nat → Option Bool

/-- The level read at a pad where R258 leaves it open (fought over, undriven without a pull, or with a keeper that nothing has driven),
by time and pad. -/
opaque padOpen : Nat → Nat → Bool

/-- The raw reciprocal of RCPS before it is brought into the bound of R91, by operand. -/
opaque rcpSeed : Word → Int

/-- The raw square root of SQRS before it is brought into the bound of R91, by operand. -/
opaque sqrtSeed : Word → Int

/-- The angle of the next expected sample of an SSI encoder, by its position (R41 names the next edge of a quadrature encoder). -/
opaque ssiNext : BitVec 64 → BitVec 64

/-- Whether the route factor, which R138 forms in Q2.30 with no rounding stated, is rounded up: by K_P + K_N, RON and divider. -/
opaque routeUp : Nat → Nat → Nat → Bool

/-- The safe state of a node's outputs, which the node fixes (R285), by line and node address. -/
opaque nodeSafe : Nat → Nat → BitVec 64

/-- Whether a node is strapped as the terminator of its line (R288), by line and node address. -/
opaque nodeTerm : Nat → Nat → Bool

/-- Entries of a node's signature queue beyond the 64 that R290 asks for, by line and node address. -/
opaque sigExtra : Nat → Nat → Nat

/-- The level of a serial line in the middle of a transfer (R252), by time and OUTSEL. -/
opaque wireBit : Nat → Nat → Bool

/-- Whether a serial line is driven where R402 and R403 leave it open, by time and OUTSEL. -/
opaque wireEnable : Nat → Nat → Bool

/-- The output of a logic cell in a combinational loop (R226), by time, sector and cell. -/
opaque cellLoop : Nat → Nat → Nat → Bool

/-- The SECT_CLK cycles of a signature program of the in-service tester (R364), at most 240 of which count, by program. -/
opaque programCycles : Nat → Nat

/-- The dword of the configuration header at which the MSI capability stands, behind the 16 of the Type 0 header (R389). -/
opaque msiDword : BitVec 6

/-- The signature of a signature program (R364), by program. -/
opaque signature : Nat → Word

end Sys2Proof.Config
end

