-- ==== Sys2Proof/Machine/RegMap.lean ====
section
/-! DEFINITION. The register map of the device (R23, R59, R60, R109, R123, R145, R173, R195, R207, R231, R232, R248, R267,
R268, R294, R317, R345, R362, R369, R384, R388, R395, R400, R405, R437, R438): one row per register with its address, its
repeats (count and stride), its reset word and the access mask of each code of R7, and one named place per field. -/

namespace Sys2Proof.Machine

/-- A field of a register: the register's device address and the field's bit range, both ends included. -/
structure RF where
  addr : Nat
  hi : Nat
  lo : Nat
deriving DecidableEq, Repr

/-- A register of the map: base address, repeats as (count, stride) from the outermost, the reset word, and for each access
code of R7 the mask of the bits that carry it. -/
structure RegRow where
  base : Nat
  dims : List (Nat × Nat)
  rst : Nat
  rw : Nat
  ro : Nat
  wo : Nat
  w1c : Nat
  rc : Nat
  rwl : Nat
  rws : Nat
  w1s : Nat
deriving DecidableEq, Repr

/-- Whether the offset `off` from a row's base is one of the row's repeats. -/
def dimsHit : List (Nat × Nat) → Nat → Bool
  | [], off => off == 0
  | (n, st) :: r, off => decide (off / st < n) && dimsHit r (off % st)

/-- Whether the row holds the register at the address `a`. -/
def RegRow.holds (r : RegRow) (a : Nat) : Bool := decide (r.base ≤ a) && dimsHit r.dims (a - r.base)

/-- The row of the register at the address `a`, if the map has one. -/
def findRow (rows : List RegRow) (a : Nat) : Option RegRow := rows.find? (fun r => r.holds a)

/-- Rows of the register map, part 0. -/
def regRows0 : List RegRow := [
  ⟨0x40000000, [], 0x4c568256, 0, 0xffffffff, 0, 0, 0, 0, 0, 0⟩ /- SYS_ID -/,
  ⟨0x40000004, [], 0x100, 0, 0xffff, 0, 0, 0, 0, 0, 0⟩ /- SYS_REVISION -/,
  ⟨0x40000008, [], 0x10, 0, 0xf7, 0, 0, 0, 0, 0, 0⟩ /- SYS_SPEED -/,
  ⟨0x4000000c, [], 0x40810, 0, 0x70f1f, 0, 0, 0, 0, 0, 0⟩ /- SYS_CONFIG -/,
  ⟨0x40000010, [], 0x20, 0, 0xffff002f, 0, 0x10, 0, 0, 0, 0⟩ /- SYS_STATUS -/,
  ⟨0x40000014, [], 0x0, 0, 0, 0, 0xffff, 0, 0, 0, 0⟩ /- SYS_TICKSKEW -/,
  ⟨0x40000018, [], 0x0, 0, 0, 0, 0xffff, 0, 0, 0, 0⟩ /- SYS_TICKMISS -/,
  ⟨0x40000020, [], 0x0, 0, 0x1ff0000, 0, 0xf, 0, 0, 0, 0⟩ /- SYS_ERRSTAT -/,
  ⟨0x40000024, [], 0x0, 0, 0xffffffff, 0, 0, 0, 0, 0, 0⟩ /- SYS_ERRADDR -/,
  ⟨0x40000040, [], 0x0, 0, 0xffffffff, 0, 0, 0, 0, 0, 0⟩ /- SYS_IRQ_PEND -/,
  ⟨0x40000044, [], 0x0, 0xffffffff, 0, 0, 0, 0, 0, 0, 0⟩ /- SYS_IRQ_ENABLE -/,
  ⟨0x40000048, [], 0x0, 0xffffffff, 0, 0, 0, 0, 0, 0, 0⟩ /- SYS_MSI_ENABLE -/,
  ⟨0x4000004c, [], 0x0, 0, 0, 0xffffffff, 0, 0, 0, 0, 0⟩ /- SYS_IRQ_EOI -/,
  ⟨0x40000050, [(4, 0x4)], 0x0, 0x77777777, 0, 0, 0, 0, 0, 0, 0⟩ /- SYS_MSI_MAP -/,
  ⟨0x40000080, [], 0x0, 0xffffffff, 0, 0, 0, 0, 0, 0, 0⟩ /- SYS_SCRATCH -/,
  ⟨0x40001004, [], 0x2710, 0, 0, 0, 0, 0, 0, 0x3ffff, 0⟩ /- TB_TICKLEN -/,
  ⟨0x40001008, [], 0x7, 0, 0, 0, 0, 0, 0, 0x7, 0⟩ /- TB_MASTER -/,
  ⟨0x4000100c, [], 0x0, 0, 0, 0, 0, 0, 0, 0xffffffff, 0⟩ /- TB_ANGLE_OFS -/,
  ⟨0x40001010, [], 0x0, 0, 0, 0, 0, 0, 0, 0xffffffff, 0⟩ /- TB_VSPEED -/,
  ⟨0x40001014, [], 0x3e8, 0, 0, 0, 0, 0, 0, 0x7fff, 0⟩ /- TB_BLEAD -/,
  ⟨0x40001020, [], 0x0, 0, 0xffffffff, 0, 0, 0, 0, 0, 0⟩ /- TB_NOW_LO -/,
  ⟨0x40001024, [], 0x0, 0, 0xffffffff, 0, 0, 0, 0, 0, 0⟩ /- TB_NOW_HI -/,
  ⟨0x40001028, [], 0x0, 0, 0xffffffff, 0, 0, 0, 0, 0, 0⟩ /- TB_TICK_LO -/,
  ⟨0x4000102c, [], 0x0, 0, 0xffff, 0, 0, 0, 0, 0, 0⟩ /- TB_TICK_HI -/]

/-- Rows of the register map, part 1. -/
def regRows1 : List RegRow := [
  ⟨0x40001030, [], 0x0, 0, 0xffffffff, 0, 0, 0, 0, 0, 0⟩ /- TB_ANGLE -/,
  ⟨0x40001034, [], 0x0, 0, 0xffffffff, 0, 0, 0, 0, 0, 0⟩ /- TB_REV -/,
  ⟨0x40001038, [], 0x0, 0, 0xffffffff, 0, 0, 0, 0, 0, 0⟩ /- TB_SPEED -/,
  ⟨0x4000103c, [], 0x8, 0, 0xf, 0, 0, 0, 0, 0, 0⟩ /- TB_MSTAT -/,
  ⟨0x40001040, [], 0x0, 0, 0, 0, 0x3f, 0, 0, 0, 0⟩ /- TB_IRQ_STAT -/,
  ⟨0x40001044, [], 0x0, 0x3f, 0, 0, 0, 0, 0, 0, 0⟩ /- TB_IRQ_EN -/,
  ⟨0x40001060, [(4, 0x4)], 0x0, 0xffffffff, 0, 0, 0, 0, 0, 0, 0⟩ /- TB_HPOST_W -/,
  ⟨0x40001070, [], 0x0, 0xf, 0, 0x10, 0, 0, 0, 0, 0⟩ /- TB_HPOST_CTRL -/,
  ⟨0x40001074, [], 0x0, 0, 0, 0xffff0000, 0, 0, 0, 0, 0⟩ /- TB_HCANCEL -/,
  ⟨0x40001078, [], 0x80000000, 0, 0xc00001ff, 0, 0, 0, 0, 0, 0⟩ /- TB_HRESULT -/,
  ⟨0x40001100, [(4, 0x20)], 0x420, 0, 0, 0, 0, 0, 0, 0xfff, 0⟩ /- TB_ENC_CFG -/,
  ⟨0x40001104, [(4, 0x20)], 0x4, 0, 0, 0, 0, 0, 0, 0x1ffffff, 0⟩ /- TB_ENC_EPR -/,
  ⟨0x40001108, [(4, 0x20)], 0x0, 0, 0, 0, 0, 0, 0, 0xffffff, 0⟩ /- TB_ENC_IDX -/,
  ⟨0x4000110c, [(4, 0x20)], 0x2710, 0, 0, 0, 0, 0, 0, 0xffff, 0⟩ /- TB_ENC_TIMEOUT -/,
  ⟨0x40001110, [(4, 0x20)], 0x7d09200, 0, 0, 0, 0, 0, 0, 0xffffffff, 0⟩ /- TB_ENC_SSI -/,
  ⟨0x40001114, [(4, 0x20)], 0x0, 0, 0xffffffff, 0, 0, 0, 0, 0, 0⟩ /- TB_ENC_POS -/,
  ⟨0x40001118, [(4, 0x20)], 0x0, 0, 0, 0, 0, 0xffffffff, 0, 0, 0⟩ /- TB_ENC_STAT -/,
  ⟨0x40001200, [(16, 0x20)], 0x0, 0, 0, 0, 0, 0, 0, 0xffff, 0⟩ /- TB_QCFG -/,
  ⟨0x40001204, [(16, 0x20)], 0x0, 0, 0x1ff, 0, 0, 0x1ff0000, 0, 0, 0⟩ /- TB_QSTAT -/,
  ⟨0x40001208, [(16, 0x20)], 0x0, 0, 0, 0, 0, 0xffffffff, 0, 0, 0⟩ /- TB_QCNT_LATE -/,
  ⟨0x4000120c, [(16, 0x20)], 0x0, 0, 0, 0, 0, 0xffffffff, 0, 0, 0⟩ /- TB_QCNT_CLOSE -/,
  ⟨0x40001210, [(16, 0x20)], 0x0, 0, 0, 0, 0, 0xffffffff, 0, 0, 0⟩ /- TB_QCNT_OTHER -/,
  ⟨0x40001214, [(16, 0x20)], 0x0, 0, 0x61ffffff, 0, 0, 0x80000000, 0, 0, 0⟩ /- TB_QLOG -/,
  ⟨0x3000c000, [(16, 0x10000), (8, 0x4)], 0xffff, 0, 0, 0, 0, 0, 0, 0xf3ffffff, 0⟩ /- STM_PWM_CFG -/]

/-- Rows of the register map, part 2. -/
def regRows2 : List RegRow := [
  ⟨0x3000c040, [(16, 0x10000), (16, 0x4)], 0x0, 0x1ffff, 0, 0, 0, 0, 0, 0, 0⟩ /- STM_PWM_DUTY -/,
  ⟨0x3000c080, [(16, 0x10000), (8, 0x4)], 0x0, 0, 0, 0, 0, 0, 0, 0xffc, 0⟩ /- STM_CAP_CFG -/,
  ⟨0x3000c0a0, [(16, 0x10000), (8, 0x4)], 0x0, 0, 0, 0, 0, 0xffffffff, 0, 0, 0⟩ /- STM_CAP_DATA -/,
  ⟨0x3000c0c0, [(16, 0x10000)], 0x0, 0, 0xff0000, 0, 0xff000000, 0, 0, 0, 0⟩ /- STM_CAP_STAT -/,
  ⟨0x3000c0c4, [(16, 0x10000)], 0x0, 0, 0xffffff, 0, 0, 0, 0, 0, 0⟩ /- STM_CAP_LEVEL -/,
  ⟨0x3000c0d0, [(16, 0x10000), (2, 0x4)], 0x20, 0, 0, 0, 0, 0, 0, 0xff, 0⟩ /- STM_QD_CFG -/,
  ⟨0x3000c0e0, [(16, 0x10000), (2, 0x4)], 0x0, 0xffffffff, 0, 0, 0, 0, 0, 0, 0⟩ /- STM_QD_POS -/,
  ⟨0x40002000, [], 0x100, 0, 0, 0, 0, 0, 0, 0xfff, 0⟩ /- ALLOC_CFG -/,
  ⟨0x40002004, [], 0x0, 0, 0x1f01, 0, 0x1e, 0, 0, 0, 0⟩ /- ALLOC_STATUS -/,
  ⟨0x40002008, [], 0x0, 0, 0, 0, 0, 0, 0, 0, 0xffff⟩ /- ALLOC_RBFREE -/,
  ⟨0x40002010, [], 0x0, 0, 0, 0, 0xf, 0, 0, 0, 0⟩ /- ALLOC_IRQ_STAT -/,
  ⟨0x40002014, [], 0x0, 0xf, 0, 0, 0, 0, 0, 0, 0⟩ /- ALLOC_IRQ_EN -/,
  ⟨0x40002020, [], 0x0, 0, 0x1f, 0, 0, 0, 0, 0, 0⟩ /- ALLOC_FLOG_STAT -/,
  ⟨0x40002024, [], 0x0, 0, 0xffffffff, 0, 0, 0, 0, 0, 0⟩ /- ALLOC_FLOG_HANDLE -/,
  ⟨0x40002028, [], 0x0, 0, 0xfff0f, 0, 0, 0, 0, 0, 0⟩ /- ALLOC_FLOG_CAUSE -/,
  ⟨0x4000202c, [], 0x0, 0, 0xffffffff, 0, 0, 0, 0, 0, 0⟩ /- ALLOC_FLOG_ADDR -/,
  ⟨0x40002030, [], 0x0, 0, 0xffffffff, 0, 0, 0, 0, 0, 0⟩ /- ALLOC_FLOG_TICK -/,
  ⟨0x40002034, [], 0x0, 0, 0, 0x1, 0, 0, 0, 0, 0⟩ /- ALLOC_FLOG_POP -/,
  ⟨0x40002040, [(8, 0x4)], 0x0, 0xffffffff, 0, 0, 0, 0, 0, 0, 0⟩ /- ALLOC_ENGHOLD -/,
  ⟨0x40002080, [(16, 0x4)], 0x0, 0, 0x7ffff, 0, 0, 0, 0, 0, 0⟩ /- ALLOC_SECTCYC -/,
  ⟨0x400020c0, [(16, 0x4)], 0x0, 0, 0x7ffff, 0, 0, 0, 0, 0, 0⟩ /- ALLOC_SECTLIM -/,
  ⟨0x40002200, [(256, 0x4)], 0x0, 0, 0x7ffff, 0, 0, 0, 0, 0, 0⟩ /- ALLOC_ENGLOAD -/,
  ⟨0x40002800, [(16, 0x80)], 0x0, 0, 0xfff0ffff, 0, 0, 0, 0, 0, 0⟩ /- ALLOC_RB_CMD -/,
  ⟨0x40002804, [(16, 0x80)], 0x0, 0, 0xffffffff, 0, 0, 0, 0, 0, 0⟩ /- ALLOC_RB_RESULT -/]

/-- Rows of the register map, part 3. -/
def regRows3 : List RegRow := [
  ⟨0x40002808, [(16, 0x80)], 0x0, 0, 0xffffffff, 0, 0, 0, 0, 0, 0⟩ /- ALLOC_RB_TICK -/,
  ⟨0x4000280c, [(16, 0x80)], 0x0, 0xffffffff, 0, 0, 0, 0, 0, 0, 0⟩ /- ALLOC_RB_PLACE -/,
  ⟨0x40002810, [(16, 0x80)], 0x0, 0xffffffff, 0, 0, 0, 0, 0, 0, 0⟩ /- ALLOC_RB_SCHED -/,
  ⟨0x40002814, [(16, 0x80)], 0x0, 0xffffffff, 0, 0, 0, 0, 0, 0, 0⟩ /- ALLOC_RB_MODE -/,
  ⟨0x40002818, [(16, 0x80)], 0x0, 0xffffffff, 0, 0, 0, 0, 0, 0, 0⟩ /- ALLOC_RB_BUDGET -/,
  ⟨0x4000281c, [(16, 0x80)], 0x1ff, 0xffffffff, 0, 0, 0, 0, 0, 0, 0⟩ /- ALLOC_RB_TRIGGER -/,
  ⟨0x40002820, [(16, 0x80)], 0x0, 0xffffffff, 0, 0, 0, 0, 0, 0, 0⟩ /- ALLOC_RB_START -/,
  ⟨0x40002824, [(16, 0x80)], 0x0, 0xffffffff, 0, 0, 0, 0, 0, 0, 0⟩ /- ALLOC_RB_STATE -/,
  ⟨0x40002828, [(16, 0x80), (4, 0x4)], 0x0, 0xffffffff, 0, 0, 0, 0, 0, 0, 0⟩ /- ALLOC_RB_IN -/,
  ⟨0x40002838, [(16, 0x80), (4, 0x4)], 0x0, 0xffffffff, 0, 0, 0, 0, 0, 0, 0⟩ /- ALLOC_RB_OUT -/,
  ⟨0x40002848, [(16, 0x80), (8, 0x4)], 0x0, 0xffffffff, 0, 0, 0, 0, 0, 0, 0⟩ /- ALLOC_RB_RELEASE -/,
  ⟨0x40002868, [(16, 0x80)], 0x0, 0, 0xffff00ff, 0, 0, 0, 0, 0, 0⟩ /- ALLOC_RB_QOVR -/,
  ⟨0x4000286c, [(16, 0x80)], 0x0, 0, 0x800fff0f, 0, 0, 0, 0, 0, 0⟩ /- ALLOC_RB_QFAULT -/,
  ⟨0x40002870, [(16, 0x80)], 0x0, 0, 0xffffffff, 0, 0, 0, 0, 0, 0⟩ /- ALLOC_RB_QADDR -/,
  ⟨0x40002874, [(16, 0x80)], 0x0, 0, 0x7ffff, 0, 0, 0, 0, 0, 0⟩ /- ALLOC_RB_QSLICE -/,
  ⟨0x40002878, [(16, 0x80)], 0x0, 0, 0xffffffff, 0, 0, 0, 0, 0, 0⟩ /- ALLOC_RB_QDEFER -/,
  ⟨0x30000000, [(16, 0x10000)], 0x0, 0, 0, 0, 0, 0, 0, 0x7, 0⟩ /- BAY_CTRL -/,
  ⟨0x30000004, [(16, 0x10000)], 0x0, 0, 0xff1f, 0, 0x20, 0, 0, 0, 0⟩ /- BAY_STATUS -/,
  ⟨0x30000008, [(16, 0x10000)], 0x0, 0, 0, 0, 0xf, 0, 0, 0, 0⟩ /- BAY_IRQ_STAT -/,
  ⟨0x3000000c, [(16, 0x10000)], 0x0, 0xf, 0, 0, 0, 0, 0, 0, 0⟩ /- BAY_IRQ_EN -/,
  ⟨0x30000010, [(16, 0x10000)], 0x0, 0, 0, 0, 0, 0, 0, 0xffff, 0⟩ /- BAY_PAD_CFG -/,
  ⟨0x30000014, [(16, 0x10000)], 0xb40, 0, 0xffff, 0, 0, 0, 0, 0, 0⟩ /- BAY_RONREP -/,
  ⟨0x30000020, [(16, 0x10000)], 0x0, 0x1f3f, 0x40000000, 0x80000000, 0, 0, 0, 0, 0⟩ /- BAY_RCAL_CMD -/,
  ⟨0x30000024, [(16, 0x10000)], 0x0, 0, 0xc000ffff, 0, 0, 0, 0, 0, 0⟩ /- BAY_RCAL_RESULT -/]

/-- Rows of the register map, part 4. -/
def regRows4 : List RegRow := [
  ⟨0x30000040, [(16, 0x10000), (8, 0x4)], 0x0, 0, 0, 0, 0, 0, 0, 0xff77, 0⟩ /- BAY_AMP_CFG -/,
  ⟨0x30000080, [(16, 0x10000), (4, 0x4)], 0x4000b00, 0, 0, 0, 0, 0, 0, 0xffffff77, 0⟩ /- BAY_BQ_CFG -/,
  ⟨0x30000100, [(16, 0x10000), (57, 0x4)], 0x0, 0, 0, 0, 0, 0, 0, 0xfffff, 0⟩ /- BAY_SW -/,
  ⟨0x30000200, [(16, 0x10000), (57, 0x4)], 0xf, 0, 0x3ff00f, 0, 0, 0, 0, 0, 0⟩ /- BAY_ROUTE -/,
  ⟨0x30004000, [(16, 0x10000), (2, 0x1000)], 0x2, 0, 0, 0, 0, 0, 0, 0x3ff, 0⟩ /- ADC_CFG -/,
  ⟨0x30004004, [(16, 0x10000), (2, 0x1000)], 0x1ff, 0, 0, 0, 0, 0, 0, 0xffffc1ff, 0⟩ /- ADC_TRIG -/,
  ⟨0x30004008, [(16, 0x10000), (2, 0x1000)], 0x0, 0, 0, 0x1, 0, 0, 0, 0, 0⟩ /- ADC_SWTRIG -/,
  ⟨0x3000400c, [(16, 0x10000), (2, 0x1000)], 0x0, 0, 0xf1e, 0, 0, 0, 0, 0, 0⟩ /- ADC_STAT -/,
  ⟨0x30004010, [(16, 0x10000), (2, 0x1000)], 0x0, 0, 0, 0, 0x7f, 0, 0, 0, 0⟩ /- ADC_IRQ_STAT -/,
  ⟨0x30004014, [(16, 0x10000), (2, 0x1000)], 0x0, 0x7f, 0, 0, 0, 0, 0, 0, 0⟩ /- ADC_IRQ_EN -/,
  ⟨0x30004018, [(16, 0x10000), (2, 0x1000)], 0x0, 0, 0, 0, 0, 0xffffffff, 0, 0, 0⟩ /- ADC_CNT_TRIG -/,
  ⟨0x3000401c, [(16, 0x10000), (2, 0x1000)], 0x0, 0, 0, 0, 0, 0xffffffff, 0, 0, 0⟩ /- ADC_CNT_MISC -/,
  ⟨0x30004020, [(16, 0x10000), (2, 0x1000)], 0x0, 0, 0, 0, 0, 0, 0, 0xff, 0⟩ /- ADC_ASYNC_CFG -/,
  ⟨0x30004024, [(16, 0x10000), (2, 0x1000)], 0x0, 0, 0, 0, 0, 0, 0, 0xffffffff, 0⟩ /- ADC_ASYNC_ANG -/,
  ⟨0x30004028, [(16, 0x10000), (2, 0x1000)], 0x0, 0, 0x3ff, 0, 0, 0xffff0000, 0, 0, 0⟩ /- ADC_ASYNC_STAT -/,
  ⟨0x30004040, [(16, 0x10000), (2, 0x1000)], 0x0, 0x77f00, 0x80000000, 0x7, 0, 0, 0, 0, 0⟩ /- ADC_CAL_CMD -/,
  ⟨0x30004044, [(16, 0x10000), (2, 0x1000)], 0x0, 0, 0x8f7000ff, 0, 0, 0, 0, 0, 0⟩ /- ADC_CAL_STAT -/,
  ⟨0x30004048, [(16, 0x10000), (2, 0x1000)], 0x0, 0xffffffff, 0, 0, 0, 0, 0, 0, 0⟩ /- ADC_CAL_FSVAL -/,
  ⟨0x3000404c, [(16, 0x10000), (2, 0x1000)], 0x1b0400, 0x1fffff, 0, 0, 0, 0, 0, 0, 0⟩ /- ADC_CAL_LIM -/,
  ⟨0x30004050, [(16, 0x10000), (2, 0x1000)], 0x0, 0, 0xffffffff, 0, 0, 0, 0, 0, 0⟩ /- ADC_CAL_DZERO -/,
  ⟨0x30004054, [(16, 0x10000), (2, 0x1000)], 0x0, 0, 0xffffffff, 0, 0, 0, 0, 0, 0⟩ /- ADC_CAL_DFULL -/,
  ⟨0x30004058, [(16, 0x10000), (2, 0x1000)], 0x0, 0, 0xffffffff, 0, 0, 0, 0, 0, 0⟩ /- ADC_CAL_SPREAD -/,
  ⟨0x30004100, [(16, 0x10000), (2, 0x1000), (16, 0x4)], 0x7b0000, 0, 0, 0, 0, 0, 0, 0x3fff783f, 0⟩ /- ADC_SEQ -/,
  ⟨0x30004200, [(16, 0x10000), (2, 0x1000), (16, 0x10)], 0x0, 0, 0xffffffff, 0, 0, 0, 0, 0, 0⟩ /- ADC_RES_LO -/]

/-- Rows of the register map, part 5. -/
def regRows5 : List RegRow := [
  ⟨0x30004204, [(16, 0x10000), (2, 0x1000), (16, 0x10)], 0x0, 0, 0xffffffff, 0, 0, 0, 0, 0, 0⟩ /- ADC_RES_HI -/,
  ⟨0x30004208, [(16, 0x10000), (2, 0x1000), (16, 0x10)], 0x0, 0, 0xfeffff, 0, 0, 0, 0, 0, 0⟩ /- ADC_RES_TAG -/,
  ⟨0x3000420c, [(16, 0x10000), (2, 0x1000), (16, 0x10)], 0x0, 0, 0xffffffff, 0, 0, 0, 0, 0, 0⟩ /- ADC_RES_SHORT -/,
  ⟨0x30004300, [(16, 0x10000), (2, 0x1000), (8, 0x8)], 0x0, 0, 0, 0, 0, 0, 0, 0xffffffff, 0⟩ /- ADC_CALOFS -/,
  ⟨0x30004304, [(16, 0x10000), (2, 0x1000), (8, 0x8)], 0x40000000, 0, 0, 0, 0, 0, 0, 0xffffffff, 0⟩ /- ADC_CALGAIN -/,
  ⟨0x30006000, [(16, 0x10000), (4, 0x20)], 0x0, 0, 0, 0, 0, 0, 0, 0x3ffff, 0⟩ /- CMP_CFG -/,
  ⟨0x30006004, [(16, 0x10000), (4, 0x20)], 0x0, 0, 0, 0, 0, 0, 0, 0x3ff, 0⟩ /- CMP_THR -/,
  ⟨0x30006008, [(16, 0x10000), (4, 0x20)], 0x11, 0, 0, 0, 0, 0, 0, 0x7ff, 0⟩ /- CMP_FILT -/,
  ⟨0x3000600c, [(16, 0x10000), (4, 0x20)], 0x0, 0, 0x1f, 0, 0, 0, 0, 0, 0⟩ /- CMP_STAT -/,
  ⟨0x30006010, [(16, 0x10000), (4, 0x20)], 0x0, 0, 0, 0, 0, 0xffffffff, 0, 0, 0⟩ /- CMP_CNT -/,
  ⟨0x30006080, [(16, 0x10000), (2, 0x10)], 0x0, 0, 0, 0, 0, 0, 0, 0xfd, 0⟩ /- CMP_WIN_CFG -/,
  ⟨0x30006084, [(16, 0x10000), (2, 0x10)], 0x0, 0, 0x7, 0, 0x8, 0xff00, 0, 0, 0⟩ /- CMP_WIN_STAT -/,
  ⟨0x300060a0, [(16, 0x10000)], 0x0, 0, 0, 0, 0x3f, 0, 0, 0, 0⟩ /- CMP_LATCH -/,
  ⟨0x300060a4, [(16, 0x10000)], 0x0, 0, 0, 0, 0xff, 0, 0, 0, 0⟩ /- CMP_IRQ_STAT -/,
  ⟨0x300060a8, [(16, 0x10000)], 0x0, 0xff, 0, 0, 0, 0, 0, 0, 0⟩ /- CMP_IRQ_EN -/,
  ⟨0x300060ac, [(16, 0x10000)], 0x0, 0, 0, 0, 0xf000, 0, 0, 0xf0f, 0⟩ /- CMP_WAKE -/,
  ⟨0x30008000, [(16, 0x10000), (2, 0x1000)], 0x0, 0, 0, 0, 0, 0, 0, 0x1f, 0⟩ /- DAC_CFG -/,
  ⟨0x30008004, [(16, 0x10000), (2, 0x1000)], 0x0, 0, 0, 0, 0, 0, 0, 0x3fff, 0⟩ /- DAC_CODE -/,
  ⟨0x30008008, [(16, 0x10000), (2, 0x1000)], 0x3fff0000, 0, 0, 0, 0, 0, 0, 0x3fff3fff, 0⟩ /- DAC_LIMIT -/,
  ⟨0x3000800c, [(16, 0x10000), (2, 0x1000)], 0x0, 0, 0x77, 0, 0x80, 0, 0, 0, 0⟩ /- DAC_STAT -/,
  ⟨0x30008010, [(16, 0x10000), (2, 0x1000)], 0x0, 0, 0, 0, 0x7, 0, 0, 0, 0⟩ /- DAC_IRQ_STAT -/,
  ⟨0x30008014, [(16, 0x10000), (2, 0x1000)], 0x0, 0x7, 0, 0, 0, 0, 0, 0, 0⟩ /- DAC_IRQ_EN -/,
  ⟨0x30008018, [(16, 0x10000), (2, 0x1000)], 0x0, 0, 0, 0, 0, 0xffffffff, 0, 0, 0⟩ /- DAC_CNT -/,
  ⟨0x3000d000, [(16, 0x10000)], 0x1, 0x1, 0, 0, 0, 0, 0, 0, 0⟩ /- SCR_CFG -/]

/-- Rows of the register map, part 6. -/
def regRows6 : List RegRow := [
  ⟨0x3000d008, [(16, 0x10000)], 0x0, 0, 0, 0, 0x3f, 0, 0, 0, 0⟩ /- SCR_IRQ_STAT -/,
  ⟨0x3000d00c, [(16, 0x10000)], 0x0, 0x3f, 0, 0, 0, 0, 0, 0, 0⟩ /- SCR_IRQ_EN -/,
  ⟨0x3000d010, [(16, 0x10000)], 0x0, 0, 0, 0, 0, 0xffffffff, 0, 0, 0⟩ /- SCR_ECC_CNT -/,
  ⟨0x3000d014, [(16, 0x10000)], 0x0, 0, 0xffffffff, 0, 0, 0, 0, 0, 0⟩ /- SCR_ECC_ADDR -/,
  ⟨0x3000d018, [(16, 0x10000)], 0x0, 0, 0xffffffff, 0, 0, 0, 0, 0, 0⟩ /- SCR_COLL_ADDR -/,
  ⟨0x3000d01c, [(16, 0x10000)], 0x0, 0, 0x1ff, 0, 0x80000000, 0, 0, 0, 0⟩ /- SCR_COLL_REQ -/,
  ⟨0x3000d020, [(16, 0x10000)], 0x0, 0x7f3f, 0, 0, 0, 0, 0, 0, 0x80000000⟩ /- SCR_INJ -/,
  ⟨0x3000d040, [(16, 0x10000)], 0x0, 0, 0x3, 0, 0, 0, 0, 0, 0⟩ /- FAB_STAT -/,
  ⟨0x3000d100, [(16, 0x10000), (8, 0x20)], 0x0, 0xffffffff, 0, 0, 0, 0, 0, 0, 0⟩ /- DMA_SRC -/,
  ⟨0x3000d104, [(16, 0x10000), (8, 0x20)], 0x0, 0xffffffff, 0, 0, 0, 0, 0, 0, 0⟩ /- DMA_DST -/,
  ⟨0x3000d108, [(16, 0x10000), (8, 0x20)], 0x0, 0x1ffff, 0, 0, 0, 0, 0, 0, 0⟩ /- DMA_COUNT -/,
  ⟨0x3000d10c, [(16, 0x10000), (8, 0x20)], 0x1ff, 0x3c001ff, 0, 0xc0000000, 0, 0, 0, 0, 0⟩ /- DMA_CTRL -/,
  ⟨0x3000d110, [(16, 0x10000), (8, 0x20)], 0x0, 0, 0xc0f1ffff, 0, 0x20000000, 0, 0, 0, 0⟩ /- DMA_STAT -/,
  ⟨0x3000d200, [(16, 0x10000), (8, 0x4)], 0x0, 0xffffffff, 0, 0, 0, 0, 0, 0, 0⟩ /- MBX_TOFAB -/,
  ⟨0x3000d220, [(16, 0x10000), (8, 0x4)], 0x0, 0, 0xffffffff, 0, 0, 0, 0, 0, 0⟩ /- MBX_FROMFAB -/,
  ⟨0x3000d240, [(16, 0x10000)], 0x0, 0, 0xff000000, 0, 0xff0003, 0, 0, 0, 0⟩ /- MBX_STAT -/,
  ⟨0x3000d244, [(16, 0x10000)], 0x0, 0, 0, 0x1, 0, 0, 0, 0, 0⟩ /- MBX_DOORBELL -/,
  ⟨0x40014000, [], 0x0, 0, 0x800000f0, 0, 0, 0, 0, 0, 0⟩ /- VAULT_STAT -/,
  ⟨0x40014004, [], 0x0, 0, 0, 0xffff0001, 0, 0, 0, 0, 0⟩ /- VAULT_WIPE -/,
  ⟨0x40014008, [], 0x0, 0, 0, 0, 0, 0, 0, 0, 0xffff⟩ /- VAULT_WPROT -/,
  ⟨0x40014010, [], 0x0, 0, 0, 0, 0x1, 0, 0, 0, 0⟩ /- VAULT_IRQ_STAT -/,
  ⟨0x40014014, [], 0x0, 0x1, 0, 0, 0, 0, 0, 0, 0⟩ /- VAULT_IRQ_EN -/,
  ⟨0x40014018, [], 0x0, 0, 0xffff, 0, 0, 0, 0, 0, 0⟩ /- VAULT_CNT -/,
  ⟨0x40003000, [], 0x0, 0, 0, 0x13f, 0, 0, 0, 0, 0⟩ /- ATTAR_CMD -/]

/-- Rows of the register map, part 7. -/
def regRows7 : List RegRow := [
  ⟨0x40003004, [], 0x0, 0, 0x3fe0fff7, 0, 0xc0000000, 0, 0, 0, 0⟩ /- ATTAR_STAT -/,
  ⟨0x40003008, [], 0x0, 0xffffffff, 0, 0, 0, 0, 0, 0, 0⟩ /- ATTAR_WHEN -/,
  ⟨0x4000300c, [], 0x0, 0xffff, 0, 0, 0, 0, 0, 0, 0⟩ /- ATTAR_WHEN_REV -/,
  ⟨0x40003010, [], 0x0, 0, 0xffffffff, 0, 0, 0, 0, 0, 0⟩ /- ATTAR_APPLY_TICK -/,
  ⟨0x40003014, [], 0x0, 0, 0xffff, 0, 0, 0, 0, 0, 0⟩ /- ATTAR_CHK_RESULT -/,
  ⟨0x40003018, [], 0x0, 0, 0xffffffff, 0, 0, 0, 0, 0, 0⟩ /- ATTAR_CHK_ADDR -/,
  ⟨0x4000301c, [], 0x0, 0, 0xffffffff, 0, 0, 0, 0, 0, 0⟩ /- ATTAR_CHK_HANDLE -/,
  ⟨0x40003020, [], 0x0, 0, 0xffffffff, 0, 0, 0, 0, 0, 0⟩ /- ATTAR_STRAY_ADDR -/,
  ⟨0x40003024, [], 0x0, 0xffff, 0, 0, 0, 0, 0, 0, 0⟩ /- ATTAR_CFG -/,
  ⟨0x40003028, [], 0x0, 0xffffffff, 0, 0, 0, 0, 0, 0, 0⟩ /- ATTAR_PEEK_ADDR -/,
  ⟨0x4000302c, [], 0x0, 0, 0xffffffff, 0, 0, 0, 0, 0, 0⟩ /- ATTAR_PEEK_DATA -/,
  ⟨0x40003030, [], 0x0, 0, 0, 0, 0x1f, 0, 0, 0, 0⟩ /- ATTAR_IRQ_STAT -/,
  ⟨0x40003038, [], 0x0, 0, 0, 0, 0, 0xffffffff, 0, 0, 0⟩ /- ATTAR_CNT -/,
  ⟨0x40003034, [], 0x0, 0x1f, 0, 0, 0, 0, 0, 0, 0⟩ /- ATTAR_IRQ_EN -/,
  ⟨0x40004000, [(352, 0x4)], 0x7ff03ff, 0, 0, 0, 0, 0, 0, 0x7ff03ff, 0⟩ /- XBAR_SEL -/,
  ⟨0x40004800, [(352, 0x4)], 0x1001, 0, 0, 0, 0, 0, 0, 0x3ffb, 0⟩ /- XBAR_PAD -/,
  ⟨0x40005000, [], 0x0, 0, 0x1, 0, 0x6, 0, 0, 0, 0⟩ /- XBAR_STAT -/,
  ⟨0x40005004, [], 0x0, 0, 0xffff, 0, 0, 0, 0, 0, 0⟩ /- XBAR_BANKSTAT -/,
  ⟨0x40005008, [], 0x0, 0, 0, 0, 0xf, 0, 0, 0, 0⟩ /- XBAR_IRQ_STAT -/,
  ⟨0x4000500c, [], 0x0, 0xf, 0, 0, 0, 0, 0, 0, 0⟩ /- XBAR_IRQ_EN -/,
  ⟨0x40005010, [], 0x0, 0, 0, 0xffff000f, 0, 0, 0, 0, 0⟩ /- XBAR_LOCK -/,
  ⟨0x40005040, [(11, 0x4)], 0x0, 0xffffffff, 0, 0, 0, 0, 0, 0, 0⟩ /- XBAR_LOCKMASK -/,
  ⟨0x40005080, [(11, 0x4)], 0x0, 0, 0xffffffff, 0, 0, 0, 0, 0, 0⟩ /- XBAR_LOCKED -/,
  ⟨0x40005100, [(28, 0x4)], 0x0, 0, 0xffffffff, 0, 0, 0, 0, 0, 0⟩ /- XBAR_CONFLICT -/]

/-- Rows of the register map, part 8. -/
def regRows8 : List RegRow := [
  ⟨0x40006000, [(868, 0x4)], 0x0, 0, 0xc00001ff, 0, 0, 0, 0, 0, 0⟩ /- XBAR_INSRC -/,
  ⟨0x40008000, [(11, 0x20)], 0x0, 0xffffffff, 0, 0, 0, 0, 0, 0, 0⟩ /- GPIO_OUT -/,
  ⟨0x40008004, [(11, 0x20)], 0x0, 0, 0, 0xffffffff, 0, 0, 0, 0, 0⟩ /- GPIO_SET -/,
  ⟨0x40008008, [(11, 0x20)], 0x0, 0, 0, 0xffffffff, 0, 0, 0, 0, 0⟩ /- GPIO_CLR -/,
  ⟨0x4000800c, [(11, 0x20)], 0x0, 0, 0, 0xffffffff, 0, 0, 0, 0, 0⟩ /- GPIO_TGL -/,
  ⟨0x40008010, [(11, 0x20)], 0x0, 0xffffffff, 0, 0, 0, 0, 0, 0, 0⟩ /- GPIO_OE -/,
  ⟨0x40008014, [(11, 0x20)], 0x0, 0, 0xffffffff, 0, 0, 0, 0, 0, 0⟩ /- GPIO_IN -/,
  ⟨0x40009000, [(8, 0x100)], 0x4082000, 0, 0, 0, 0, 0, 0, 0xffff7ff1, 0⟩ /- BL_CFG -/,
  ⟨0x40009004, [(8, 0x100)], 0x0, 0, 0xffff000f, 0, 0, 0, 0, 0, 0⟩ /- BL_STAT -/,
  ⟨0x40009008, [(8, 0x100)], 0x0, 0, 0xffffffff, 0, 0, 0, 0, 0, 0⟩ /- BL_CYCLE -/,
  ⟨0x4000900c, [(8, 0x100)], 0x0, 0, 0xffffffff, 0, 0, 0, 0, 0, 0⟩ /- BL_NODESTALE -/,
  ⟨0x40009010, [(8, 0x100)], 0x0, 0, 0xffffffff, 0, 0, 0, 0, 0, 0⟩ /- BL_NODEMISS -/,
  ⟨0x40009014, [(8, 0x100)], 0x0, 0, 0xffffffff, 0, 0, 0, 0, 0, 0⟩ /- BL_NODEWRAP -/,
  ⟨0x40009018, [(8, 0x100)], 0x0, 0, 0, 0, 0, 0xffffffff, 0, 0, 0⟩ /- BL_CNT -/,
  ⟨0x40009020, [(8, 0x100)], 0x0, 0, 0, 0, 0x3f, 0, 0, 0, 0⟩ /- BL_IRQ_STAT -/,
  ⟨0x40009024, [(8, 0x100)], 0x0, 0x3f, 0, 0, 0, 0, 0, 0, 0⟩ /- BL_IRQ_EN -/,
  ⟨0x40009040, [(8, 0x100), (32, 0x4)], 0x0, 0, 0, 0, 0, 0, 0, 0x831f, 0⟩ /- BL_SEG -/,
  ⟨0x400090c0, [(8, 0x100), (16, 0x4)], 0x0, 0, 0xffffffff, 0, 0, 0, 0, 0, 0⟩ /- BL_DLY -/,
  ⟨0x40009800, [], 0x1, 0, 0xffff, 0, 0, 0, 0, 0, 0⟩ /- BL_EPOCH -/,
  ⟨0x40009820, [(8, 0x4)], 0x3e8, 0, 0, 0, 0, 0, 0, 0xffff, 0⟩ /- BL_PULSE -/,
  ⟨0x4000a000, [], 0x1f41004, 0, 0, 0, 0, 0, 0, 0xffffff07, 0⟩ /- PAIR_CFG -/,
  ⟨0x4000a004, [], 0x0, 0, 0, 0xffff0003, 0, 0, 0, 0, 0⟩ /- PAIR_CTRL -/,
  ⟨0x4000a008, [], 0x0, 0, 0xfff00f77, 0, 0, 0, 0, 0, 0⟩ /- PAIR_STAT -/,
  ⟨0x4000a00c, [], 0x0, 0, 0, 0, 0x3ff, 0, 0, 0, 0⟩ /- PAIR_IRQ_STAT -/]

/-- Rows of the register map, part 9. -/
def regRows9 : List RegRow := [
  ⟨0x4000a014, [], 0x0, 0, 0xffff, 0, 0, 0, 0, 0, 0⟩ /- PAIR_LINKDLY -/,
  ⟨0x4000a018, [], 0x0, 0, 0xffff, 0, 0, 0xffff0000, 0, 0, 0⟩ /- PAIR_TXQ -/,
  ⟨0x4000a01c, [], 0x0, 0, 0, 0, 0, 0xffffffff, 0, 0, 0⟩ /- PAIR_CNT -/,
  ⟨0x4000a020, [], 0x0, 0, 0, 0, 0, 0xffffffff, 0, 0, 0⟩ /- PAIR_CNT2 -/,
  ⟨0x4000a024, [], 0x0, 0, 0xffffffff, 0, 0, 0, 0, 0, 0⟩ /- PAIR_JOINPROG -/,
  ⟨0x4000a028, [], 0x0, 0, 0xffffffff, 0, 0, 0, 0, 0, 0⟩ /- PAIR_IMGID -/,
  ⟨0x4000a02c, [], 0x0, 0, 0xffff, 0, 0, 0, 0, 0, 0⟩ /- PAIR_PEPOCH -/,
  ⟨0x4000a010, [], 0x0, 0x3ff, 0, 0, 0, 0, 0, 0, 0⟩ /- PAIR_IRQ_EN -/,
  ⟨0x4000a040, [(8, 0x4)], 0x0, 0, 0xffffffff, 0, 0, 0, 0, 0, 0⟩ /- PAIR_DIVERGE -/,
  ⟨0x4000b000, [], 0x0, 0, 0xf870ff07, 0, 0x4000000, 0, 0, 0, 0⟩ /- CFG_STAT -/,
  ⟨0x4000b004, [], 0x0, 0, 0, 0xffff0001, 0, 0, 0, 0, 0⟩ /- CFG_CMD -/,
  ⟨0x4000b008, [], 0x0, 0, 0, 0, 0xf, 0, 0, 0, 0⟩ /- CFG_IRQ_STAT -/,
  ⟨0x4000b010, [], 0x0, 0, 0xffffffff, 0, 0, 0, 0, 0, 0⟩ /- CFG_IMGID -/,
  ⟨0x4000b014, [], 0x0, 0, 0x3f, 0, 0, 0, 0, 0, 0⟩ /- CFG_SECVER -/,
  ⟨0x4000b018, [], 0x0, 0, 0xffffffff, 0, 0, 0, 0, 0, 0⟩ /- CFG_ERRPOS -/,
  ⟨0x4000b01c, [], 0x0, 0, 0xffffffff, 0, 0, 0, 0, 0, 0⟩ /- CFG_LOADTIME -/,
  ⟨0x4000b020, [], 0xc8, 0xffff, 0, 0, 0, 0, 0, 0, 0⟩ /- CFG_DEADLINE -/,
  ⟨0x4000b024, [], 0x0, 0, 0x1, 0, 0, 0, 0, 0, 0⟩ /- CFG_IMGCTL -/,
  ⟨0x4000b028, [], 0x0, 0, 0xffff0037, 0, 0, 0, 0, 0, 0⟩ /- CFG_LC -/,
  ⟨0x4000b02c, [], 0x0, 0, 0x8f00, 0xffff000f, 0, 0, 0, 0, 0⟩ /- CFG_LCCMD -/,
  ⟨0x4000b030, [], 0x0, 0, 0x3f001f, 0, 0, 0, 0, 0, 0⟩ /- CFG_FUSE -/,
  ⟨0x4000b034, [], 0x0, 0, 0xff, 0, 0, 0, 0, 0, 0⟩ /- CFG_ACODE -/,
  ⟨0x4000b00c, [], 0x0, 0xf, 0, 0, 0, 0, 0, 0, 0⟩ /- CFG_IRQ_EN -/,
  ⟨0x4000b040, [(8, 0x4)], 0x0, 0, 0xffffffff, 0, 0, 0, 0, 0, 0⟩ /- CFG_SECENG -/]

/-- Rows of the register map, part 10. -/
def regRows10 : List RegRow := [
  ⟨0x4000b080, [(8, 0x4)], 0x0, 0, 0xffffffff, 0, 0, 0, 0, 0, 0⟩ /- CFG_NONCE -/,
  ⟨0x4000b0a0, [], 0x0, 0, 0xffffffff, 0, 0, 0, 0, 0, 0⟩ /- CFG_UID_LO -/,
  ⟨0x4000b0a4, [], 0x0, 0, 0xffffffff, 0, 0, 0, 0, 0, 0⟩ /- CFG_UID_HI -/,
  ⟨0x4000b100, [(64, 0x4)], 0x0, 0xffffffff, 0, 0, 0, 0, 0, 0, 0⟩ /- CFG_ARG -/,
  ⟨0x4000b800, [(512, 0x4)], 0x0, 0, 0, 0xffffffff, 0, 0, 0, 0, 0⟩ /- CFG_LOADWIN -/,
  ⟨0x4000c000, [], 0x280001, 0xffff0001, 0, 0, 0, 0, 0, 0, 0⟩ /- SCRUB_CFG -/,
  ⟨0x4000c004, [], 0x0, 0, 0x80000001, 0, 0, 0, 0, 0, 0⟩ /- SCRUB_STAT -/,
  ⟨0x4000c008, [], 0x0, 0, 0, 0, 0x1ff, 0, 0, 0, 0⟩ /- SCRUB_IRQ_STAT -/,
  ⟨0x4000c010, [], 0x0, 0, 0, 0, 0, 0xffffffff, 0, 0, 0⟩ /- SCRUB_CNT -/,
  ⟨0x4000c014, [], 0x0, 0, 0xffffffff, 0, 0, 0, 0, 0, 0⟩ /- SCRUB_UEADDR -/,
  ⟨0x4000c018, [], 0x0, 0, 0xffffffff, 0, 0, 0, 0, 0, 0⟩ /- SCRUB_PASSTIME -/,
  ⟨0x4000c00c, [], 0x0, 0x1ff, 0, 0, 0, 0, 0, 0, 0⟩ /- SCRUB_IRQ_EN -/,
  ⟨0x4000c020, [], 0x0, 0, 0, 0xffff1f0f, 0, 0, 0, 0, 0⟩ /- PR_CMD -/,
  ⟨0x4000c024, [], 0x0, 0, 0xe0001fff, 0, 0x10000000, 0, 0, 0, 0⟩ /- PR_STAT -/,
  ⟨0x4000c028, [], 0x0, 0, 0xffffffff, 0, 0, 0, 0, 0, 0⟩ /- PR_ERRPOS -/,
  ⟨0x4000c080, [(32, 0x4)], 0x0, 0, 0, 0, 0, 0, 0xfffffc00, 0, 0⟩ /- REG_DEF -/,
  ⟨0x4000c100, [(32, 0x4)], 0x0, 0, 0, 0, 0, 0, 0xfffff000, 0, 0⟩ /- REG_SRC -/,
  ⟨0x4000c180, [(32, 0x4)], 0x0, 0, 0xcfffff00, 0, 0, 0xff, 0, 0, 0⟩ /- REG_STAT -/,
  ⟨0x4000c200, [(88, 0x4)], 0x0, 0, 0, 0, 0, 0, 0x9f9f9f9f, 0, 0⟩ /- REG_PINOWN -/,
  ⟨0x4000d000, [], 0x3c001f, 0xffff001f, 0, 0, 0, 0, 0, 0, 0⟩ /- IST_CFG -/,
  ⟨0x4000d004, [], 0x0, 0, 0xffff00ff, 0, 0x100, 0, 0, 0, 0⟩ /- IST_STAT -/,
  ⟨0x4000d008, [], 0x0, 0, 0, 0, 0x7, 0, 0, 0, 0⟩ /- IST_IRQ_STAT -/,
  ⟨0x4000d010, [], 0x557f, 0, 0, 0, 0, 0, 0xffff, 0, 0⟩ /- IST_ACTION -/,
  ⟨0x4000d014, [], 0x10030100, 0xffffff00, 0, 0, 0, 0, 0, 0, 0⟩ /- IST_LIM -/]

/-- Rows of the register map, part 11. -/
def regRows11 : List RegRow := [
  ⟨0x4000d018, [], 0x14, 0xffff, 0, 0, 0, 0, 0, 0, 0⟩ /- IST_LINKLIM -/,
  ⟨0x4000d020, [], 0x0, 0, 0xf00ffff, 0, 0, 0, 0, 0, 0⟩ /- IST_FKIND -/,
  ⟨0x4000d024, [], 0x0, 0, 0xffffffff, 0, 0, 0, 0, 0, 0⟩ /- IST_FADDR -/,
  ⟨0x4000d028, [], 0x0, 0, 0xffffffff, 0, 0, 0, 0, 0, 0⟩ /- IST_FDATA -/,
  ⟨0x4000d030, [], 0x0, 0, 0, 0, 0, 0xffffffff, 0, 0, 0⟩ /- IST_CNT -/,
  ⟨0x4000d00c, [], 0x0, 0x7, 0, 0, 0, 0, 0, 0, 0⟩ /- IST_IRQ_EN -/,
  ⟨0x4000e000, [], 0x10000000, 0, 0xfa003fff, 0, 0x4000000, 0, 0, 0, 0⟩ /- SAFE_STAT -/,
  ⟨0x4000e004, [], 0x0, 0, 0x3fff, 0, 0, 0, 0, 0, 0⟩ /- SAFE_CAUSE -/,
  ⟨0x4000e008, [], 0x3fff, 0, 0, 0, 0, 0, 0x3fff, 0, 0⟩ /- SAFE_SRCEN -/,
  ⟨0x4000e00c, [], 0x0, 0, 0, 0xffff000f, 0, 0, 0, 0, 0⟩ /- SAFE_CTRL -/,
  ⟨0x4000e010, [], 0x0, 0x4, 0, 0, 0, 0, 0x2, 0, 0⟩ /- SAFE_CFG -/,
  ⟨0x4000e014, [], 0x0, 0, 0, 0, 0x1f, 0, 0, 0, 0⟩ /- SAFE_IRQ_STAT -/,
  ⟨0x4000e020, [], 0x3e80000, 0, 0, 0, 0, 0, 0xffffff07, 0, 0⟩ /- SAFE_WDCFG -/,
  ⟨0x4000e024, [], 0x0, 0, 0, 0xffff, 0, 0, 0, 0, 0⟩ /- SAFE_WDKICK -/,
  ⟨0x4000e028, [], 0x3c5a0000, 0, 0xffffffff, 0, 0, 0, 0, 0, 0⟩ /- SAFE_WDSTAT -/,
  ⟨0x4000e02c, [], 0x80000fa0, 0, 0, 0, 0, 0, 0x8000ffff, 0, 0⟩ /- SAFE_TICKWD -/,
  ⟨0x4000e038, [], 0x70, 0, 0, 0, 0, 0, 0xff0, 0, 0⟩ /- SAFE_TRIPCFG -/,
  ⟨0x4000e040, [], 0x0, 0x1ff, 0, 0, 0, 0, 0, 0, 0⟩ /- SAFE_TAMPCFG -/,
  ⟨0x4000e044, [], 0x0, 0, 0, 0, 0x3f, 0, 0, 0, 0⟩ /- SAFE_TAMPSTAT -/,
  ⟨0x4000e048, [], 0x0, 0, 0xffffffff, 0, 0, 0, 0, 0, 0⟩ /- SAFE_RTCSEC -/,
  ⟨0x4000e04c, [], 0x1, 0, 0x7, 0, 0, 0, 0, 0, 0⟩ /- SAFE_RSTCAUSE -/,
  ⟨0x4000e050, [], 0x0, 0, 0x1ff, 0, 0, 0, 0, 0, 0⟩ /- SAFE_FRSTAT -/,
  ⟨0x4000e018, [], 0x0, 0x1f, 0, 0, 0, 0, 0, 0, 0⟩ /- SAFE_IRQ_EN -/,
  ⟨0x4000e030, [(2, 0x4)], 0x0, 0, 0, 0, 0, 0, 0xffffffff, 0, 0⟩ /- SAFE_CMPTRIP -/]

/-- Rows of the register map, part 12. -/
def regRows12 : List RegRow := [
  ⟨0x4000e800, [(16, 0x20), (8, 0x4)], 0x0, 0, 0xffffffff, 0, 0, 0, 0, 0, 0⟩ /- SAFE_FREC -/,
  ⟨0x40013000, [], 0x0, 0xffff0fff, 0, 0, 0, 0, 0, 0, 0⟩ /- SILLAGE_CFG -/,
  ⟨0x40013004, [], 0x0, 0, 0xffff7fff, 0, 0, 0, 0, 0, 0⟩ /- SILLAGE_STAT -/,
  ⟨0x40013008, [], 0x0, 0, 0, 0x7, 0, 0, 0, 0, 0⟩ /- SILLAGE_CTRL -/,
  ⟨0x4001300c, [], 0x0, 0, 0, 0xffffffff, 0, 0, 0, 0, 0⟩ /- SILLAGE_MARK -/,
  ⟨0x40013010, [], 0x0, 0, 0, 0, 0x3, 0, 0, 0, 0⟩ /- SILLAGE_IRQ_STAT -/,
  ⟨0x40013018, [], 0x0, 0, 0, 0, 0, 0xffffffff, 0, 0, 0⟩ /- SILLAGE_CNT -/,
  ⟨0x4001301c, [], 0x0, 0, 0xbfffffff, 0, 0, 0, 0, 0, 0⟩ /- SILLAGE_PREV -/,
  ⟨0x40013014, [], 0x0, 0x3, 0, 0, 0, 0, 0, 0, 0⟩ /- SILLAGE_IRQ_EN -/,
  ⟨0x40010000, [], 0x1, 0, 0x1ff, 0, 0, 0, 0, 0, 0⟩ /- PCIE_STAT -/,
  ⟨0x40010004, [], 0x0, 0, 0, 0, 0x7, 0, 0, 0, 0⟩ /- PCIE_IRQ_STAT -/,
  ⟨0x4001000c, [], 0x0, 0, 0, 0, 0, 0xffffffff, 0, 0, 0⟩ /- PCIE_CNT -/,
  ⟨0x40010008, [], 0x0, 0x7, 0, 0, 0, 0, 0, 0, 0⟩ /- PCIE_IRQ_EN -/,
  ⟨0x40010040, [(15, 0x4)], 0x0, 0xffc00000, 0, 0, 0, 0, 0, 0, 0⟩ /- PCIE_WIN -/,
  ⟨0x4000f000, [(4, 0x200)], 0x0, 0, 0, 0, 0, 0, 0, 0x7f, 0⟩ /- CAN_CFG -/,
  ⟨0x4000f004, [(4, 0x200)], 0x30a09, 0, 0, 0, 0, 0, 0, 0x3fffffff, 0⟩ /- CAN_NBT -/,
  ⟨0x4000f008, [(4, 0x200)], 0x10401, 0, 0, 0, 0, 0, 0, 0x7fff1f1f, 0⟩ /- CAN_DBT -/,
  ⟨0x4000f00c, [(4, 0x200)], 0x0, 0, 0xffff3ff3, 0, 0, 0, 0, 0, 0⟩ /- CAN_STAT -/,
  ⟨0x4000f010, [(4, 0x200)], 0x0, 0, 0, 0, 0x7f, 0, 0, 0, 0⟩ /- CAN_IRQ_STAT -/,
  ⟨0x4000f014, [(4, 0x200)], 0x0, 0x7f, 0, 0, 0, 0, 0, 0, 0⟩ /- CAN_IRQ_EN -/,
  ⟨0x4000f018, [(4, 0x200)], 0x0, 0, 0, 0xf, 0, 0, 0, 0, 0⟩ /- CAN_CMD -/,
  ⟨0x4000f01c, [(4, 0x200)], 0x0, 0, 0, 0, 0, 0xffffffff, 0, 0, 0⟩ /- CAN_CNT -/,
  ⟨0x4000f040, [(4, 0x200), (8, 0x8)], 0x0, 0, 0, 0, 0, 0, 0, 0xdfffffff, 0⟩ /- CAN_FILT -/,
  ⟨0x4000f044, [(4, 0x200), (8, 0x8)], 0x0, 0, 0, 0, 0, 0, 0, 0x1fffffff, 0⟩ /- CAN_MASK -/]

/-- Rows of the register map, part 13. -/
def regRows13 : List RegRow := [
  ⟨0x4000f100, [(4, 0x200)], 0x0, 0xdfffffff, 0x20000000, 0, 0, 0, 0, 0, 0⟩ /- CAN_TXID -/,
  ⟨0x4000f104, [(4, 0x200)], 0x0, 0x3f, 0x80001f00, 0, 0, 0, 0, 0, 0⟩ /- CAN_TXCTRL -/,
  ⟨0x4000f108, [(4, 0x200), (16, 0x4)], 0x0, 0xffffffff, 0, 0, 0, 0, 0, 0, 0⟩ /- CAN_TXDATA -/,
  ⟨0x4000f180, [(4, 0x200)], 0x0, 0, 0xffffffff, 0, 0, 0, 0, 0, 0⟩ /- CAN_RXID -/,
  ⟨0x4000f184, [(4, 0x200)], 0x0, 0, 0x80001f3f, 0, 0, 0, 0, 0, 0⟩ /- CAN_RXCTRL -/,
  ⟨0x4000f188, [(4, 0x200)], 0x0, 0, 0xffffffff, 0, 0, 0, 0, 0, 0⟩ /- CAN_RXTIME -/,
  ⟨0x4000f18c, [(4, 0x200), (16, 0x4)], 0x0, 0, 0xffffffff, 0, 0, 0, 0, 0, 0⟩ /- CAN_RXDATA -/,
  ⟨0x4000f800, [(16, 0x40)], 0x3a0009, 0, 0, 0, 0, 0, 0, 0xffff00ff, 0⟩ /- SPI_CFG -/,
  ⟨0x4000f804, [(16, 0x40)], 0x0, 0, 0, 0xffffffff, 0, 0, 0, 0, 0⟩ /- SPI_TX -/,
  ⟨0x4000f808, [(16, 0x40)], 0x0, 0, 0, 0, 0, 0xffffffff, 0, 0, 0⟩ /- SPI_RX -/,
  ⟨0x4000f80c, [(16, 0x40)], 0x0, 0, 0xf0f28, 0, 0x17, 0, 0, 0, 0⟩ /- SPI_STAT -/,
  ⟨0x4000f810, [(16, 0x40)], 0x0, 0x17, 0, 0, 0, 0, 0, 0, 0⟩ /- SPI_IRQ_EN -/,
  ⟨0x4000fc00, [(8, 0x40)], 0x3e803e8, 0, 0, 0, 0, 0, 0, 0x8fff0fff, 0⟩ /- I2C_CFG -/,
  ⟨0x4000fc04, [(8, 0x40)], 0x0, 0, 0, 0x7ff, 0, 0, 0, 0, 0⟩ /- I2C_CMD -/,
  ⟨0x4000fc08, [(8, 0x40)], 0x0, 0, 0, 0, 0, 0xff, 0, 0, 0⟩ /- I2C_RX -/,
  ⟨0x4000fc0c, [(8, 0x40)], 0x0, 0, 0x1f1f10, 0, 0xf, 0, 0, 0, 0⟩ /- I2C_STAT -/,
  ⟨0x4000fc10, [(8, 0x40)], 0x0, 0xf, 0, 0, 0, 0, 0, 0, 0⟩ /- I2C_IRQ_EN -/,
  ⟨0x4000fe00, [(8, 0x40)], 0x108006c, 0, 0, 0, 0, 0, 0, 0xff0fffff, 0⟩ /- UART_CFG -/,
  ⟨0x4000fe04, [(8, 0x40)], 0x0, 0, 0, 0x1ff, 0, 0, 0, 0, 0⟩ /- UART_TX -/,
  ⟨0x4000fe08, [(8, 0x40)], 0x0, 0, 0, 0, 0, 0xf1ff, 0, 0, 0⟩ /- UART_RX -/,
  ⟨0x4000fe0c, [(8, 0x40)], 0x0, 0, 0x1f1f0000, 0, 0x7, 0, 0, 0, 0⟩ /- UART_STAT -/,
  ⟨0x4000fe10, [(8, 0x40)], 0x0, 0x7, 0, 0, 0, 0, 0, 0, 0⟩ /- UART_IRQ_EN -/,
  ⟨0x40011000, [], 0x50, 0, 0, 0, 0, 0, 0, 0x7f, 0⟩ /- CLK_CORE -/,
  ⟨0x40011004, [], 0x0, 0, 0, 0, 0, 0, 0, 0x7777, 0⟩ /- CLK_MOD -/]

/-- Rows of the register map, part 14. -/
def regRows14 : List RegRow := [
  ⟨0x40011008, [], 0x0, 0, 0x1f, 0, 0, 0, 0, 0, 0⟩ /- CLK_STAT -/,
  ⟨0x4001100c, [], 0x0, 0, 0, 0, 0x7, 0, 0, 0, 0⟩ /- CLK_IRQ_STAT -/,
  ⟨0x40011010, [], 0x0, 0x7, 0, 0, 0, 0, 0, 0, 0⟩ /- CLK_IRQ_EN -/,
  ⟨0x40011014, [], 0x0, 0x2, 0, 0xffff0001, 0, 0, 0, 0, 0⟩ /- CLK_STBY -/,
  ⟨0x40011018, [], 0x0, 0xf, 0, 0, 0, 0, 0, 0, 0⟩ /- CLK_WAKECFG -/,
  ⟨0x4001101c, [], 0x0, 0, 0xffff000f, 0, 0, 0, 0, 0, 0⟩ /- CLK_WAKESTAT -/,
  ⟨0x40011020, [], 0x0, 0xffffffff, 0, 0, 0, 0, 0, 0, 0⟩ /- CLK_ALARM -/,
  ⟨0x40011040, [(16, 0x4)], 0x5, 0, 0, 0, 0, 0, 0, 0x1f, 0⟩ /- CLK_SECT -/,
  ⟨0x40011080, [(8, 0x4)], 0x8, 0, 0, 0, 0, 0, 0, 0x7f, 0⟩ /- CLK_FAB -/,
  ⟨0x40012000, [], 0x2, 0x2, 0, 0, 0, 0, 0, 0x1, 0⟩ /- RETAIN_CFG -/,
  ⟨0x40012004, [], 0x0, 0, 0, 0, 0, 0, 0, 0xfffffff8, 0⟩ /- RETAIN_SNAPSRC -/,
  ⟨0x40012008, [], 0x0, 0, 0xfc0000ff, 0, 0, 0, 0, 0, 0⟩ /- RETAIN_STAT -/,
  ⟨0x4001200c, [], 0x0, 0, 0, 0xffff0003, 0, 0, 0, 0, 0⟩ /- RETAIN_CMD -/,
  ⟨0x40012010, [], 0x0, 0, 0, 0, 0xf, 0, 0, 0, 0⟩ /- RETAIN_IRQ_STAT -/,
  ⟨0x40012018, [], 0x0, 0, 0, 0, 0, 0xffffffff, 0, 0, 0⟩ /- RETAIN_CNT -/,
  ⟨0x4001201c, [], 0x0, 0, 0x8000003f, 0, 0, 0, 0, 0, 0⟩ /- RETAIN_SNAPLAST -/,
  ⟨0x40012020, [], 0x0, 0, 0, 0, 0, 0xffffffff, 0, 0, 0⟩ /- RETAIN_ECC -/,
  ⟨0x40012014, [], 0x0, 0xf, 0, 0, 0, 0, 0, 0, 0⟩ /- RETAIN_IRQ_EN -/]

/-- Rows of the register map: all of them. -/
def regRows : List RegRow :=
  regRows0 ++ regRows1 ++ regRows2 ++ regRows3 ++ regRows4 ++ regRows5 ++ regRows6 ++ regRows7 ++ regRows8 ++ regRows9 ++ regRows10 ++ regRows11 ++ regRows12 ++ regRows13 ++ regRows14

/-- Rows whose reset word is not zero, part 0. -/
def rstRows0 : List RegRow := [
  ⟨0x40000000, [], 0x4c568256, 0, 0xffffffff, 0, 0, 0, 0, 0, 0⟩ /- SYS_ID -/,
  ⟨0x40000004, [], 0x100, 0, 0xffff, 0, 0, 0, 0, 0, 0⟩ /- SYS_REVISION -/,
  ⟨0x40000008, [], 0x10, 0, 0xf7, 0, 0, 0, 0, 0, 0⟩ /- SYS_SPEED -/,
  ⟨0x4000000c, [], 0x40810, 0, 0x70f1f, 0, 0, 0, 0, 0, 0⟩ /- SYS_CONFIG -/,
  ⟨0x40000010, [], 0x20, 0, 0xffff002f, 0, 0x10, 0, 0, 0, 0⟩ /- SYS_STATUS -/,
  ⟨0x40001004, [], 0x2710, 0, 0, 0, 0, 0, 0, 0x3ffff, 0⟩ /- TB_TICKLEN -/,
  ⟨0x40001008, [], 0x7, 0, 0, 0, 0, 0, 0, 0x7, 0⟩ /- TB_MASTER -/,
  ⟨0x40001014, [], 0x3e8, 0, 0, 0, 0, 0, 0, 0x7fff, 0⟩ /- TB_BLEAD -/,
  ⟨0x4000103c, [], 0x8, 0, 0xf, 0, 0, 0, 0, 0, 0⟩ /- TB_MSTAT -/,
  ⟨0x40001078, [], 0x80000000, 0, 0xc00001ff, 0, 0, 0, 0, 0, 0⟩ /- TB_HRESULT -/,
  ⟨0x40001100, [(4, 0x20)], 0x420, 0, 0, 0, 0, 0, 0, 0xfff, 0⟩ /- TB_ENC_CFG -/,
  ⟨0x40001104, [(4, 0x20)], 0x4, 0, 0, 0, 0, 0, 0, 0x1ffffff, 0⟩ /- TB_ENC_EPR -/,
  ⟨0x4000110c, [(4, 0x20)], 0x2710, 0, 0, 0, 0, 0, 0, 0xffff, 0⟩ /- TB_ENC_TIMEOUT -/,
  ⟨0x40001110, [(4, 0x20)], 0x7d09200, 0, 0, 0, 0, 0, 0, 0xffffffff, 0⟩ /- TB_ENC_SSI -/,
  ⟨0x3000c000, [(16, 0x10000), (8, 0x4)], 0xffff, 0, 0, 0, 0, 0, 0, 0xf3ffffff, 0⟩ /- STM_PWM_CFG -/,
  ⟨0x3000c0d0, [(16, 0x10000), (2, 0x4)], 0x20, 0, 0, 0, 0, 0, 0, 0xff, 0⟩ /- STM_QD_CFG -/,
  ⟨0x40002000, [], 0x100, 0, 0, 0, 0, 0, 0, 0xfff, 0⟩ /- ALLOC_CFG -/,
  ⟨0x4000281c, [(16, 0x80)], 0x1ff, 0xffffffff, 0, 0, 0, 0, 0, 0, 0⟩ /- ALLOC_RB_TRIGGER -/,
  ⟨0x30000014, [(16, 0x10000)], 0xb40, 0, 0xffff, 0, 0, 0, 0, 0, 0⟩ /- BAY_RONREP -/,
  ⟨0x30000080, [(16, 0x10000), (4, 0x4)], 0x4000b00, 0, 0, 0, 0, 0, 0, 0xffffff77, 0⟩ /- BAY_BQ_CFG -/,
  ⟨0x30000200, [(16, 0x10000), (57, 0x4)], 0xf, 0, 0x3ff00f, 0, 0, 0, 0, 0, 0⟩ /- BAY_ROUTE -/,
  ⟨0x30004000, [(16, 0x10000), (2, 0x1000)], 0x2, 0, 0, 0, 0, 0, 0, 0x3ff, 0⟩ /- ADC_CFG -/,
  ⟨0x30004004, [(16, 0x10000), (2, 0x1000)], 0x1ff, 0, 0, 0, 0, 0, 0, 0xffffc1ff, 0⟩ /- ADC_TRIG -/,
  ⟨0x3000404c, [(16, 0x10000), (2, 0x1000)], 0x1b0400, 0x1fffff, 0, 0, 0, 0, 0, 0, 0⟩ /- ADC_CAL_LIM -/]

/-- Rows whose reset word is not zero, part 1. -/
def rstRows1 : List RegRow := [
  ⟨0x30004100, [(16, 0x10000), (2, 0x1000), (16, 0x4)], 0x7b0000, 0, 0, 0, 0, 0, 0, 0x3fff783f, 0⟩ /- ADC_SEQ -/,
  ⟨0x30004304, [(16, 0x10000), (2, 0x1000), (8, 0x8)], 0x40000000, 0, 0, 0, 0, 0, 0, 0xffffffff, 0⟩ /- ADC_CALGAIN -/,
  ⟨0x30006008, [(16, 0x10000), (4, 0x20)], 0x11, 0, 0, 0, 0, 0, 0, 0x7ff, 0⟩ /- CMP_FILT -/,
  ⟨0x30008008, [(16, 0x10000), (2, 0x1000)], 0x3fff0000, 0, 0, 0, 0, 0, 0, 0x3fff3fff, 0⟩ /- DAC_LIMIT -/,
  ⟨0x3000d000, [(16, 0x10000)], 0x1, 0x1, 0, 0, 0, 0, 0, 0, 0⟩ /- SCR_CFG -/,
  ⟨0x3000d10c, [(16, 0x10000), (8, 0x20)], 0x1ff, 0x3c001ff, 0, 0xc0000000, 0, 0, 0, 0, 0⟩ /- DMA_CTRL -/,
  ⟨0x40004000, [(352, 0x4)], 0x7ff03ff, 0, 0, 0, 0, 0, 0, 0x7ff03ff, 0⟩ /- XBAR_SEL -/,
  ⟨0x40004800, [(352, 0x4)], 0x1001, 0, 0, 0, 0, 0, 0, 0x3ffb, 0⟩ /- XBAR_PAD -/,
  ⟨0x40009000, [(8, 0x100)], 0x4082000, 0, 0, 0, 0, 0, 0, 0xffff7ff1, 0⟩ /- BL_CFG -/,
  ⟨0x40009800, [], 0x1, 0, 0xffff, 0, 0, 0, 0, 0, 0⟩ /- BL_EPOCH -/,
  ⟨0x40009820, [(8, 0x4)], 0x3e8, 0, 0, 0, 0, 0, 0, 0xffff, 0⟩ /- BL_PULSE -/,
  ⟨0x4000a000, [], 0x1f41004, 0, 0, 0, 0, 0, 0, 0xffffff07, 0⟩ /- PAIR_CFG -/,
  ⟨0x4000b020, [], 0xc8, 0xffff, 0, 0, 0, 0, 0, 0, 0⟩ /- CFG_DEADLINE -/,
  ⟨0x4000c000, [], 0x280001, 0xffff0001, 0, 0, 0, 0, 0, 0, 0⟩ /- SCRUB_CFG -/,
  ⟨0x4000d000, [], 0x3c001f, 0xffff001f, 0, 0, 0, 0, 0, 0, 0⟩ /- IST_CFG -/,
  ⟨0x4000d010, [], 0x557f, 0, 0, 0, 0, 0, 0xffff, 0, 0⟩ /- IST_ACTION -/,
  ⟨0x4000d014, [], 0x10030100, 0xffffff00, 0, 0, 0, 0, 0, 0, 0⟩ /- IST_LIM -/,
  ⟨0x4000d018, [], 0x14, 0xffff, 0, 0, 0, 0, 0, 0, 0⟩ /- IST_LINKLIM -/,
  ⟨0x4000e000, [], 0x10000000, 0, 0xfa003fff, 0, 0x4000000, 0, 0, 0, 0⟩ /- SAFE_STAT -/,
  ⟨0x4000e008, [], 0x3fff, 0, 0, 0, 0, 0, 0x3fff, 0, 0⟩ /- SAFE_SRCEN -/,
  ⟨0x4000e020, [], 0x3e80000, 0, 0, 0, 0, 0, 0xffffff07, 0, 0⟩ /- SAFE_WDCFG -/,
  ⟨0x4000e028, [], 0x3c5a0000, 0, 0xffffffff, 0, 0, 0, 0, 0, 0⟩ /- SAFE_WDSTAT -/,
  ⟨0x4000e02c, [], 0x80000fa0, 0, 0, 0, 0, 0, 0x8000ffff, 0, 0⟩ /- SAFE_TICKWD -/,
  ⟨0x4000e038, [], 0x70, 0, 0, 0, 0, 0, 0xff0, 0, 0⟩ /- SAFE_TRIPCFG -/]

/-- Rows whose reset word is not zero, part 2. -/
def rstRows2 : List RegRow := [
  ⟨0x4000e04c, [], 0x1, 0, 0x7, 0, 0, 0, 0, 0, 0⟩ /- SAFE_RSTCAUSE -/,
  ⟨0x40010000, [], 0x1, 0, 0x1ff, 0, 0, 0, 0, 0, 0⟩ /- PCIE_STAT -/,
  ⟨0x4000f004, [(4, 0x200)], 0x30a09, 0, 0, 0, 0, 0, 0, 0x3fffffff, 0⟩ /- CAN_NBT -/,
  ⟨0x4000f008, [(4, 0x200)], 0x10401, 0, 0, 0, 0, 0, 0, 0x7fff1f1f, 0⟩ /- CAN_DBT -/,
  ⟨0x4000f800, [(16, 0x40)], 0x3a0009, 0, 0, 0, 0, 0, 0, 0xffff00ff, 0⟩ /- SPI_CFG -/,
  ⟨0x4000fc00, [(8, 0x40)], 0x3e803e8, 0, 0, 0, 0, 0, 0, 0x8fff0fff, 0⟩ /- I2C_CFG -/,
  ⟨0x4000fe00, [(8, 0x40)], 0x108006c, 0, 0, 0, 0, 0, 0, 0xff0fffff, 0⟩ /- UART_CFG -/,
  ⟨0x40011000, [], 0x50, 0, 0, 0, 0, 0, 0, 0x7f, 0⟩ /- CLK_CORE -/,
  ⟨0x40011040, [(16, 0x4)], 0x5, 0, 0, 0, 0, 0, 0, 0x1f, 0⟩ /- CLK_SECT -/,
  ⟨0x40011080, [(8, 0x4)], 0x8, 0, 0, 0, 0, 0, 0, 0x7f, 0⟩ /- CLK_FAB -/,
  ⟨0x40012000, [], 0x2, 0x2, 0, 0, 0, 0, 0, 0x1, 0⟩ /- RETAIN_CFG -/]

/-- Rows whose reset word is not zero: all of them. -/
def rstRows : List RegRow :=
  rstRows0 ++ rstRows1 ++ rstRows2

/-- The reset base of each slot of PCIE_WIN (R391). -/
def pcieWinReset : List Nat :=
  [0x10000000, 0x11000000, 0x12000000, 0x20000000, 0x21000000, 0x30000000, 0x50000000, 0x51000000, 0x52000000, 0x60000000,
    0x13000000, 0, 0, 0, 0]

/-- The reset word of the register at the address `a`: 0 where the map has no row or the row gives 0. PCIE_WIN resets slot by
slot (R391). -/
def rstWord (a : Nat) : Word :=
  if 0x40010040 ≤ a ∧ a < 0x4001007c ∧ a % 4 = 0 then BitVec.ofNat 32 (pcieWinReset.getD ((a - 0x40010040) / 4) 0)
  else match findRow rstRows a with
  | some r => BitVec.ofNat 32 r.rst
  | none => 0

/-! ## Addresses and fields -/

abbrev SYS_ID_at : Nat := 0x40000000
abbrev SYS_ID_ID : RF := ⟨SYS_ID_at, 31, 0⟩
abbrev SYS_REVISION_at : Nat := 0x40000004
abbrev SYS_REVISION_MAJOR : RF := ⟨SYS_REVISION_at, 15, 8⟩
abbrev SYS_REVISION_MINOR : RF := ⟨SYS_REVISION_at, 7, 0⟩
abbrev SYS_SPEED_at : Nat := 0x40000008
abbrev SYS_SPEED_TEMP : RF := ⟨SYS_SPEED_at, 7, 4⟩
abbrev SYS_SPEED_GRADE : RF := ⟨SYS_SPEED_at, 2, 0⟩
abbrev SYS_CONFIG_at : Nat := 0x4000000c
abbrev SYS_CONFIG_MODGROUPS : RF := ⟨SYS_CONFIG_at, 18, 16⟩
abbrev SYS_CONFIG_LINES : RF := ⟨SYS_CONFIG_at, 11, 8⟩
abbrev SYS_CONFIG_SECTORS : RF := ⟨SYS_CONFIG_at, 4, 0⟩
abbrev SYS_STATUS_at : Nat := 0x40000010
abbrev SYS_STATUS_SECT_RUN : RF := ⟨SYS_STATUS_at, 31, 16⟩
abbrev SYS_STATUS_UNLOCK_ANY : RF := ⟨SYS_STATUS_at, 5, 5⟩
abbrev SYS_STATUS_TICK_SLIP : RF := ⟨SYS_STATUS_at, 4, 4⟩
abbrev SYS_STATUS_SAFE_TRIPPED : RF := ⟨SYS_STATUS_at, 3, 3⟩
abbrev SYS_STATUS_STANDBY : RF := ⟨SYS_STATUS_at, 2, 2⟩
abbrev SYS_STATUS_CFG_ERR : RF := ⟨SYS_STATUS_at, 1, 1⟩
abbrev SYS_STATUS_CFG_DONE : RF := ⟨SYS_STATUS_at, 0, 0⟩
abbrev SYS_TICKSKEW_at : Nat := 0x40000014
abbrev SYS_TICKSKEW_SKEW : RF := ⟨SYS_TICKSKEW_at, 15, 0⟩
abbrev SYS_TICKMISS_at : Nat := 0x40000018
abbrev SYS_TICKMISS_MISS : RF := ⟨SYS_TICKMISS_at, 15, 0⟩
abbrev SYS_ERRSTAT_at : Nat := 0x40000020
abbrev SYS_ERRSTAT_REQUESTER : RF := ⟨SYS_ERRSTAT_at, 24, 16⟩
abbrev SYS_ERRSTAT_OVERFLOW : RF := ⟨SYS_ERRSTAT_at, 3, 3⟩
abbrev SYS_ERRSTAT_DENIED : RF := ⟨SYS_ERRSTAT_at, 2, 2⟩
abbrev SYS_ERRSTAT_SIZE : RF := ⟨SYS_ERRSTAT_at, 1, 1⟩
abbrev SYS_ERRSTAT_UNMAPPED : RF := ⟨SYS_ERRSTAT_at, 0, 0⟩
abbrev SYS_ERRADDR_at : Nat := 0x40000024
abbrev SYS_ERRADDR_ADDR : RF := ⟨SYS_ERRADDR_at, 31, 0⟩
abbrev SYS_IRQ_PEND_at : Nat := 0x40000040
abbrev SYS_IRQ_PEND_PEND : RF := ⟨SYS_IRQ_PEND_at, 31, 0⟩
abbrev SYS_IRQ_ENABLE_at : Nat := 0x40000044
abbrev SYS_IRQ_ENABLE_EN : RF := ⟨SYS_IRQ_ENABLE_at, 31, 0⟩
abbrev SYS_MSI_ENABLE_at : Nat := 0x40000048
abbrev SYS_MSI_ENABLE_EN : RF := ⟨SYS_MSI_ENABLE_at, 31, 0⟩
abbrev SYS_IRQ_EOI_at : Nat := 0x4000004c
abbrev SYS_IRQ_EOI_EOI : RF := ⟨SYS_IRQ_EOI_at, 31, 0⟩
abbrev SYS_MSI_MAP_at (m : Nat) : Nat := 0x40000050 + m * 0x4
abbrev SYS_MSI_MAP_V0 (m : Nat) : RF := ⟨SYS_MSI_MAP_at m, 2, 0⟩
abbrev SYS_MSI_MAP_V1 (m : Nat) : RF := ⟨SYS_MSI_MAP_at m, 6, 4⟩
abbrev SYS_MSI_MAP_V2 (m : Nat) : RF := ⟨SYS_MSI_MAP_at m, 10, 8⟩
abbrev SYS_MSI_MAP_V3 (m : Nat) : RF := ⟨SYS_MSI_MAP_at m, 14, 12⟩
abbrev SYS_MSI_MAP_V4 (m : Nat) : RF := ⟨SYS_MSI_MAP_at m, 18, 16⟩
abbrev SYS_MSI_MAP_V5 (m : Nat) : RF := ⟨SYS_MSI_MAP_at m, 22, 20⟩
abbrev SYS_MSI_MAP_V6 (m : Nat) : RF := ⟨SYS_MSI_MAP_at m, 26, 24⟩
abbrev SYS_MSI_MAP_V7 (m : Nat) : RF := ⟨SYS_MSI_MAP_at m, 30, 28⟩
abbrev SYS_SCRATCH_at : Nat := 0x40000080
abbrev SYS_SCRATCH_DATA : RF := ⟨SYS_SCRATCH_at, 31, 0⟩
abbrev TB_TICKLEN_at : Nat := 0x40001004
abbrev TB_TICKLEN_CYCLES : RF := ⟨TB_TICKLEN_at, 17, 0⟩
abbrev TB_MASTER_at : Nat := 0x40001008
abbrev TB_MASTER_SRC : RF := ⟨TB_MASTER_at, 2, 0⟩
abbrev TB_ANGLE_OFS_at : Nat := 0x4000100c
abbrev TB_ANGLE_OFS_OFS : RF := ⟨TB_ANGLE_OFS_at, 31, 0⟩
abbrev TB_VSPEED_at : Nat := 0x40001010
abbrev TB_VSPEED_SPEED : RF := ⟨TB_VSPEED_at, 31, 0⟩
abbrev TB_BLEAD_at : Nat := 0x40001014
abbrev TB_BLEAD_LEAD : RF := ⟨TB_BLEAD_at, 14, 0⟩
abbrev TB_NOW_LO_at : Nat := 0x40001020
abbrev TB_NOW_LO_NOW : RF := ⟨TB_NOW_LO_at, 31, 0⟩
abbrev TB_NOW_HI_at : Nat := 0x40001024
abbrev TB_NOW_HI_NOW : RF := ⟨TB_NOW_HI_at, 31, 0⟩
abbrev TB_TICK_LO_at : Nat := 0x40001028
abbrev TB_TICK_LO_TICK : RF := ⟨TB_TICK_LO_at, 31, 0⟩
abbrev TB_TICK_HI_at : Nat := 0x4000102c
abbrev TB_TICK_HI_TICK : RF := ⟨TB_TICK_HI_at, 15, 0⟩
abbrev TB_ANGLE_at : Nat := 0x40001030
abbrev TB_ANGLE_ANGLE : RF := ⟨TB_ANGLE_at, 31, 0⟩
abbrev TB_REV_at : Nat := 0x40001034
abbrev TB_REV_REV : RF := ⟨TB_REV_at, 31, 0⟩
abbrev TB_SPEED_at : Nat := 0x40001038
abbrev TB_SPEED_S : RF := ⟨TB_SPEED_at, 31, 0⟩
abbrev TB_MSTAT_at : Nat := 0x4000103c
abbrev TB_MSTAT_SRC_NONE : RF := ⟨TB_MSTAT_at, 3, 3⟩
abbrev TB_MSTAT_STOPPED : RF := ⟨TB_MSTAT_at, 2, 2⟩
abbrev TB_MSTAT_DIR : RF := ⟨TB_MSTAT_at, 1, 1⟩
abbrev TB_MSTAT_SPEED_OK : RF := ⟨TB_MSTAT_at, 0, 0⟩
abbrev TB_IRQ_STAT_at : Nat := 0x40001040
abbrev TB_IRQ_STAT_FULL : RF := ⟨TB_IRQ_STAT_at, 5, 5⟩
abbrev TB_IRQ_STAT_DROP : RF := ⟨TB_IRQ_STAT_at, 4, 4⟩
abbrev TB_IRQ_STAT_ENCERR : RF := ⟨TB_IRQ_STAT_at, 3, 3⟩
abbrev TB_IRQ_STAT_IDX : RF := ⟨TB_IRQ_STAT_at, 2, 2⟩
abbrev TB_IRQ_STAT_STOP : RF := ⟨TB_IRQ_STAT_at, 1, 1⟩
abbrev TB_IRQ_STAT_REVERSE : RF := ⟨TB_IRQ_STAT_at, 0, 0⟩
abbrev TB_IRQ_EN_at : Nat := 0x40001044
abbrev TB_IRQ_EN_FULL : RF := ⟨TB_IRQ_EN_at, 5, 5⟩
abbrev TB_IRQ_EN_DROP : RF := ⟨TB_IRQ_EN_at, 4, 4⟩
abbrev TB_IRQ_EN_ENCERR : RF := ⟨TB_IRQ_EN_at, 3, 3⟩
abbrev TB_IRQ_EN_IDX : RF := ⟨TB_IRQ_EN_at, 2, 2⟩
abbrev TB_IRQ_EN_STOP : RF := ⟨TB_IRQ_EN_at, 1, 1⟩
abbrev TB_IRQ_EN_REVERSE : RF := ⟨TB_IRQ_EN_at, 0, 0⟩
abbrev TB_HPOST_W_at (n : Nat) : Nat := 0x40001060 + n * 0x4
abbrev TB_HPOST_W_WORD (n : Nat) : RF := ⟨TB_HPOST_W_at n, 31, 0⟩
abbrev TB_HPOST_CTRL_at : Nat := 0x40001070
abbrev TB_HPOST_CTRL_GO : RF := ⟨TB_HPOST_CTRL_at, 4, 4⟩
abbrev TB_HPOST_CTRL_SECT : RF := ⟨TB_HPOST_CTRL_at, 3, 0⟩
abbrev TB_HCANCEL_at : Nat := 0x40001074
abbrev TB_HCANCEL_MASK : RF := ⟨TB_HCANCEL_at, 31, 16⟩
abbrev TB_HRESULT_at : Nat := 0x40001078
abbrev TB_HRESULT_DONE : RF := ⟨TB_HRESULT_at, 31, 31⟩
abbrev TB_HRESULT_STOPPED : RF := ⟨TB_HRESULT_at, 30, 30⟩
abbrev TB_HRESULT_RESULT : RF := ⟨TB_HRESULT_at, 8, 0⟩
abbrev TB_ENC_CFG_at (i : Nat) : Nat := 0x40001100 + i * 0x20
abbrev TB_ENC_CFG_AVG (i : Nat) : RF := ⟨TB_ENC_CFG_at i, 11, 9⟩
abbrev TB_ENC_CFG_IDXEN (i : Nat) : RF := ⟨TB_ENC_CFG_at i, 8, 8⟩
abbrev TB_ENC_CFG_FILTER (i : Nat) : RF := ⟨TB_ENC_CFG_at i, 7, 4⟩
abbrev TB_ENC_CFG_MODE (i : Nat) : RF := ⟨TB_ENC_CFG_at i, 3, 0⟩
abbrev TB_ENC_EPR_at (i : Nat) : Nat := 0x40001104 + i * 0x20
abbrev TB_ENC_EPR_EPR (i : Nat) : RF := ⟨TB_ENC_EPR_at i, 24, 0⟩
abbrev TB_ENC_IDX_at (i : Nat) : Nat := 0x40001108 + i * 0x20
abbrev TB_ENC_IDX_COUNT (i : Nat) : RF := ⟨TB_ENC_IDX_at i, 23, 0⟩
abbrev TB_ENC_TIMEOUT_at (i : Nat) : Nat := 0x4000110c + i * 0x20
abbrev TB_ENC_TIMEOUT_US (i : Nat) : RF := ⟨TB_ENC_TIMEOUT_at i, 15, 0⟩
abbrev TB_ENC_SSI_at (i : Nat) : Nat := 0x40001110 + i * 0x20
abbrev TB_ENC_SSI_PERIOD (i : Nat) : RF := ⟨TB_ENC_SSI_at i, 31, 16⟩
abbrev TB_ENC_SSI_DIV (i : Nat) : RF := ⟨TB_ENC_SSI_at i, 15, 12⟩
abbrev TB_ENC_SSI_PARITY (i : Nat) : RF := ⟨TB_ENC_SSI_at i, 11, 11⟩
abbrev TB_ENC_SSI_BITS (i : Nat) : RF := ⟨TB_ENC_SSI_at i, 10, 5⟩
abbrev TB_ENC_SSI_LATENCY (i : Nat) : RF := ⟨TB_ENC_SSI_at i, 4, 0⟩
abbrev TB_ENC_POS_at (i : Nat) : Nat := 0x40001114 + i * 0x20
abbrev TB_ENC_POS_ANGLE (i : Nat) : RF := ⟨TB_ENC_POS_at i, 31, 0⟩
abbrev TB_ENC_STAT_at (i : Nat) : Nat := 0x40001118 + i * 0x20
abbrev TB_ENC_STAT_ERR (i : Nat) : RF := ⟨TB_ENC_STAT_at i, 31, 16⟩
abbrev TB_ENC_STAT_IDXERR (i : Nat) : RF := ⟨TB_ENC_STAT_at i, 15, 0⟩
abbrev TB_QCFG_at (s : Nat) : Nat := 0x40001200 + s * 0x20
abbrev TB_QCFG_GRACE (s : Nat) : RF := ⟨TB_QCFG_at s, 15, 0⟩
abbrev TB_QSTAT_at (s : Nat) : Nat := 0x40001204 + s * 0x20
abbrev TB_QSTAT_HIGH (s : Nat) : RF := ⟨TB_QSTAT_at s, 24, 16⟩
abbrev TB_QSTAT_LEVEL (s : Nat) : RF := ⟨TB_QSTAT_at s, 8, 0⟩
abbrev TB_QCNT_LATE_at (s : Nat) : Nat := 0x40001208 + s * 0x20
abbrev TB_QCNT_LATE_LATE_FIRED (s : Nat) : RF := ⟨TB_QCNT_LATE_at s, 31, 16⟩
abbrev TB_QCNT_LATE_LATE_DROPPED (s : Nat) : RF := ⟨TB_QCNT_LATE_at s, 15, 0⟩
abbrev TB_QCNT_CLOSE_at (s : Nat) : Nat := 0x4000120c + s * 0x20
abbrev TB_QCNT_CLOSE_CLOSE_FIRED (s : Nat) : RF := ⟨TB_QCNT_CLOSE_at s, 31, 16⟩
abbrev TB_QCNT_CLOSE_CLOSE_DROPPED (s : Nat) : RF := ⟨TB_QCNT_CLOSE_at s, 15, 0⟩
abbrev TB_QCNT_OTHER_at (s : Nat) : Nat := 0x40001210 + s * 0x20
abbrev TB_QCNT_OTHER_JUMPED (s : Nat) : RF := ⟨TB_QCNT_OTHER_at s, 31, 24⟩
abbrev TB_QCNT_OTHER_UNMAPPED (s : Nat) : RF := ⟨TB_QCNT_OTHER_at s, 23, 16⟩
abbrev TB_QCNT_OTHER_FULL (s : Nat) : RF := ⟨TB_QCNT_OTHER_at s, 15, 0⟩
abbrev TB_QLOG_at (s : Nat) : Nat := 0x40001214 + s * 0x20
abbrev TB_QLOG_LOG_VALID (s : Nat) : RF := ⟨TB_QLOG_at s, 31, 31⟩
abbrev TB_QLOG_CLASS (s : Nat) : RF := ⟨TB_QLOG_at s, 30, 30⟩
abbrev TB_QLOG_FIRED (s : Nat) : RF := ⟨TB_QLOG_at s, 29, 29⟩
abbrev TB_QLOG_HOST (s : Nat) : RF := ⟨TB_QLOG_at s, 24, 24⟩
abbrev TB_QLOG_OWNER (s : Nat) : RF := ⟨TB_QLOG_at s, 23, 16⟩
abbrev TB_QLOG_TAG (s : Nat) : RF := ⟨TB_QLOG_at s, 15, 0⟩
abbrev STM_PWM_CFG_at (s j : Nat) : Nat := 0x3000c000 + s * 0x10000 + j * 0x4
abbrev STM_PWM_CFG_MODE (s j : Nat) : RF := ⟨STM_PWM_CFG_at s j, 31, 30⟩
abbrev STM_PWM_CFG_CENTRE (s j : Nat) : RF := ⟨STM_PWM_CFG_at s j, 29, 29⟩
abbrev STM_PWM_CFG_SYNC (s j : Nat) : RF := ⟨STM_PWM_CFG_at s j, 28, 28⟩
abbrev STM_PWM_CFG_DEAD (s j : Nat) : RF := ⟨STM_PWM_CFG_at s j, 25, 16⟩
abbrev STM_PWM_CFG_PERIOD (s j : Nat) : RF := ⟨STM_PWM_CFG_at s j, 15, 0⟩
abbrev STM_PWM_DUTY_at (s n : Nat) : Nat := 0x3000c040 + s * 0x10000 + n * 0x4
abbrev STM_PWM_DUTY_DUTY (s n : Nat) : RF := ⟨STM_PWM_DUTY_at s n, 16, 0⟩
abbrev STM_CAP_CFG_at (s k : Nat) : Nat := 0x3000c080 + s * 0x10000 + k * 0x4
abbrev STM_CAP_CFG_SRC (s k : Nat) : RF := ⟨STM_CAP_CFG_at s k, 11, 4⟩
abbrev STM_CAP_CFG_EDGE (s k : Nat) : RF := ⟨STM_CAP_CFG_at s k, 3, 2⟩
abbrev STM_CAP_DATA_at (s k : Nat) : Nat := 0x3000c0a0 + s * 0x10000 + k * 0x4
abbrev STM_CAP_DATA_TIME (s k : Nat) : RF := ⟨STM_CAP_DATA_at s k, 31, 0⟩
abbrev STM_CAP_STAT_at (s : Nat) : Nat := 0x3000c0c0 + s * 0x10000
abbrev STM_CAP_STAT_OVF (s : Nat) : RF := ⟨STM_CAP_STAT_at s, 31, 24⟩
abbrev STM_CAP_STAT_EDGEBIT (s : Nat) : RF := ⟨STM_CAP_STAT_at s, 23, 16⟩
abbrev STM_CAP_LEVEL_at (s : Nat) : Nat := 0x3000c0c4 + s * 0x10000
abbrev STM_CAP_LEVEL_LEVEL (s : Nat) : RF := ⟨STM_CAP_LEVEL_at s, 23, 0⟩
abbrev STM_QD_CFG_at (s q : Nat) : Nat := 0x3000c0d0 + s * 0x10000 + q * 0x4
abbrev STM_QD_CFG_FILTER (s q : Nat) : RF := ⟨STM_QD_CFG_at s q, 7, 4⟩
abbrev STM_QD_CFG_IDXCLR (s q : Nat) : RF := ⟨STM_QD_CFG_at s q, 3, 3⟩
abbrev STM_QD_CFG_MODE (s q : Nat) : RF := ⟨STM_QD_CFG_at s q, 2, 0⟩
abbrev STM_QD_POS_at (s q : Nat) : Nat := 0x3000c0e0 + s * 0x10000 + q * 0x4
abbrev STM_QD_POS_POS (s q : Nat) : RF := ⟨STM_QD_POS_at s q, 31, 0⟩
abbrev ALLOC_CFG_at : Nat := 0x40002000
abbrev ALLOC_CFG_ISTRES : RF := ⟨ALLOC_CFG_at, 11, 0⟩
abbrev ALLOC_STATUS_at : Nat := 0x40002004
abbrev ALLOC_STATUS_QUEUED : RF := ⟨ALLOC_STATUS_at, 12, 8⟩
abbrev ALLOC_STATUS_STAGEDROP : RF := ⟨ALLOC_STATUS_at, 4, 4⟩
abbrev ALLOC_STATUS_HOLDREF : RF := ⟨ALLOC_STATUS_at, 3, 3⟩
abbrev ALLOC_STATUS_REENTRY : RF := ⟨ALLOC_STATUS_at, 2, 2⟩
abbrev ALLOC_STATUS_FOREIGN : RF := ⟨ALLOC_STATUS_at, 1, 1⟩
abbrev ALLOC_STATUS_BUSY : RF := ⟨ALLOC_STATUS_at, 0, 0⟩
abbrev ALLOC_RBFREE_at : Nat := 0x40002008
abbrev ALLOC_RBFREE_FREE : RF := ⟨ALLOC_RBFREE_at, 15, 0⟩
abbrev ALLOC_IRQ_STAT_at : Nat := 0x40002010
abbrev ALLOC_IRQ_STAT_DEFER : RF := ⟨ALLOC_IRQ_STAT_at, 3, 3⟩
abbrev ALLOC_IRQ_STAT_OVERRUN : RF := ⟨ALLOC_IRQ_STAT_at, 2, 2⟩
abbrev ALLOC_IRQ_STAT_FLOST : RF := ⟨ALLOC_IRQ_STAT_at, 1, 1⟩
abbrev ALLOC_IRQ_STAT_FAULT : RF := ⟨ALLOC_IRQ_STAT_at, 0, 0⟩
abbrev ALLOC_IRQ_EN_at : Nat := 0x40002014
abbrev ALLOC_IRQ_EN_DEFER : RF := ⟨ALLOC_IRQ_EN_at, 3, 3⟩
abbrev ALLOC_IRQ_EN_OVERRUN : RF := ⟨ALLOC_IRQ_EN_at, 2, 2⟩
abbrev ALLOC_IRQ_EN_FLOST : RF := ⟨ALLOC_IRQ_EN_at, 1, 1⟩
abbrev ALLOC_IRQ_EN_FAULT : RF := ⟨ALLOC_IRQ_EN_at, 0, 0⟩
abbrev ALLOC_FLOG_STAT_at : Nat := 0x40002020
abbrev ALLOC_FLOG_STAT_LEVEL : RF := ⟨ALLOC_FLOG_STAT_at, 4, 0⟩
abbrev ALLOC_FLOG_HANDLE_at : Nat := 0x40002024
abbrev ALLOC_FLOG_HANDLE_HANDLE : RF := ⟨ALLOC_FLOG_HANDLE_at, 31, 0⟩
abbrev ALLOC_FLOG_CAUSE_at : Nat := 0x40002028
abbrev ALLOC_FLOG_CAUSE_PC : RF := ⟨ALLOC_FLOG_CAUSE_at, 19, 8⟩
abbrev ALLOC_FLOG_CAUSE_CAUSE : RF := ⟨ALLOC_FLOG_CAUSE_at, 3, 0⟩
abbrev ALLOC_FLOG_ADDR_at : Nat := 0x4000202c
abbrev ALLOC_FLOG_ADDR_ADDR : RF := ⟨ALLOC_FLOG_ADDR_at, 31, 0⟩
abbrev ALLOC_FLOG_TICK_at : Nat := 0x40002030
abbrev ALLOC_FLOG_TICK_TICK : RF := ⟨ALLOC_FLOG_TICK_at, 31, 0⟩
abbrev ALLOC_FLOG_POP_at : Nat := 0x40002034
abbrev ALLOC_FLOG_POP_POP : RF := ⟨ALLOC_FLOG_POP_at, 0, 0⟩
abbrev ALLOC_ENGHOLD_at (w : Nat) : Nat := 0x40002040 + w * 0x4
abbrev ALLOC_ENGHOLD_HOLD (w : Nat) : RF := ⟨ALLOC_ENGHOLD_at w, 31, 0⟩
abbrev ALLOC_SECTCYC_at (s : Nat) : Nat := 0x40002080 + s * 0x4
abbrev ALLOC_SECTCYC_C (s : Nat) : RF := ⟨ALLOC_SECTCYC_at s, 18, 0⟩
abbrev ALLOC_SECTLIM_at (s : Nat) : Nat := 0x400020c0 + s * 0x4
abbrev ALLOC_SECTLIM_LIM (s : Nat) : RF := ⟨ALLOC_SECTLIM_at s, 18, 0⟩
abbrev ALLOC_ENGLOAD_at (t : Nat) : Nat := 0x40002200 + t * 0x4
abbrev ALLOC_ENGLOAD_PEAK (t : Nat) : RF := ⟨ALLOC_ENGLOAD_at t, 18, 0⟩
abbrev ALLOC_RB_CMD_at (b : Nat) : Nat := 0x40002800 + b * 0x80
abbrev ALLOC_RB_CMD_DONE (b : Nat) : RF := ⟨ALLOC_RB_CMD_at b, 31, 31⟩
abbrev ALLOC_RB_CMD_PEND (b : Nat) : RF := ⟨ALLOC_RB_CMD_at b, 30, 30⟩
abbrev ALLOC_RB_CMD_OWNED (b : Nat) : RF := ⟨ALLOC_RB_CMD_at b, 29, 29⟩
abbrev ALLOC_RB_CMD_OWNER (b : Nat) : RF := ⟨ALLOC_RB_CMD_at b, 28, 20⟩
abbrev ALLOC_RB_CMD_FIELD (b : Nat) : RF := ⟨ALLOC_RB_CMD_at b, 15, 8⟩
abbrev ALLOC_RB_CMD_CODE (b : Nat) : RF := ⟨ALLOC_RB_CMD_at b, 7, 0⟩
abbrev ALLOC_RB_RESULT_at (b : Nat) : Nat := 0x40002804 + b * 0x80
abbrev ALLOC_RB_RESULT_RESULT (b : Nat) : RF := ⟨ALLOC_RB_RESULT_at b, 31, 0⟩
abbrev ALLOC_RB_TICK_at (b : Nat) : Nat := 0x40002808 + b * 0x80
abbrev ALLOC_RB_TICK_TICK (b : Nat) : RF := ⟨ALLOC_RB_TICK_at b, 31, 0⟩
abbrev ALLOC_RB_PLACE_at (b : Nat) : Nat := 0x4000280c + b * 0x80
abbrev ALLOC_RB_PLACE_WORD (b : Nat) : RF := ⟨ALLOC_RB_PLACE_at b, 31, 0⟩
abbrev ALLOC_RB_SCHED_at (b : Nat) : Nat := 0x40002810 + b * 0x80
abbrev ALLOC_RB_SCHED_WORD (b : Nat) : RF := ⟨ALLOC_RB_SCHED_at b, 31, 0⟩
abbrev ALLOC_RB_MODE_at (b : Nat) : Nat := 0x40002814 + b * 0x80
abbrev ALLOC_RB_MODE_WORD (b : Nat) : RF := ⟨ALLOC_RB_MODE_at b, 31, 0⟩
abbrev ALLOC_RB_BUDGET_at (b : Nat) : Nat := 0x40002818 + b * 0x80
abbrev ALLOC_RB_BUDGET_WORD (b : Nat) : RF := ⟨ALLOC_RB_BUDGET_at b, 31, 0⟩
abbrev ALLOC_RB_TRIGGER_at (b : Nat) : Nat := 0x4000281c + b * 0x80
abbrev ALLOC_RB_TRIGGER_WORD (b : Nat) : RF := ⟨ALLOC_RB_TRIGGER_at b, 31, 0⟩
abbrev ALLOC_RB_START_at (b : Nat) : Nat := 0x40002820 + b * 0x80
abbrev ALLOC_RB_START_WORD (b : Nat) : RF := ⟨ALLOC_RB_START_at b, 31, 0⟩
abbrev ALLOC_RB_STATE_at (b : Nat) : Nat := 0x40002824 + b * 0x80
abbrev ALLOC_RB_STATE_WORD (b : Nat) : RF := ⟨ALLOC_RB_STATE_at b, 31, 0⟩
abbrev ALLOC_RB_IN_at (b i : Nat) : Nat := 0x40002828 + b * 0x80 + i * 0x4
abbrev ALLOC_RB_IN_WORD (b i : Nat) : RF := ⟨ALLOC_RB_IN_at b i, 31, 0⟩
abbrev ALLOC_RB_OUT_at (b i : Nat) : Nat := 0x40002838 + b * 0x80 + i * 0x4
abbrev ALLOC_RB_OUT_WORD (b i : Nat) : RF := ⟨ALLOC_RB_OUT_at b i, 31, 0⟩
abbrev ALLOC_RB_RELEASE_at (b i : Nat) : Nat := 0x40002848 + b * 0x80 + i * 0x4
abbrev ALLOC_RB_RELEASE_RELEASE (b i : Nat) : RF := ⟨ALLOC_RB_RELEASE_at b i, 31, 0⟩
abbrev ALLOC_RB_QOVR_at (b : Nat) : Nat := 0x40002868 + b * 0x80
abbrev ALLOC_RB_QOVR_OVR_TOTAL (b : Nat) : RF := ⟨ALLOC_RB_QOVR_at b, 31, 16⟩
abbrev ALLOC_RB_QOVR_OVR_CONSEC (b : Nat) : RF := ⟨ALLOC_RB_QOVR_at b, 7, 0⟩
abbrev ALLOC_RB_QFAULT_at (b : Nat) : Nat := 0x4000286c + b * 0x80
abbrev ALLOC_RB_QFAULT_VALID (b : Nat) : RF := ⟨ALLOC_RB_QFAULT_at b, 31, 31⟩
abbrev ALLOC_RB_QFAULT_PC (b : Nat) : RF := ⟨ALLOC_RB_QFAULT_at b, 19, 8⟩
abbrev ALLOC_RB_QFAULT_CAUSE (b : Nat) : RF := ⟨ALLOC_RB_QFAULT_at b, 3, 0⟩
abbrev ALLOC_RB_QADDR_at (b : Nat) : Nat := 0x40002870 + b * 0x80
abbrev ALLOC_RB_QADDR_ADDR (b : Nat) : RF := ⟨ALLOC_RB_QADDR_at b, 31, 0⟩
abbrev ALLOC_RB_QSLICE_at (b : Nat) : Nat := 0x40002874 + b * 0x80
abbrev ALLOC_RB_QSLICE_OFFSET (b : Nat) : RF := ⟨ALLOC_RB_QSLICE_at b, 18, 0⟩
abbrev ALLOC_RB_QDEFER_at (b : Nat) : Nat := 0x40002878 + b * 0x80
abbrev ALLOC_RB_QDEFER_MISSED (b : Nat) : RF := ⟨ALLOC_RB_QDEFER_at b, 31, 16⟩
abbrev ALLOC_RB_QDEFER_DEFERRED (b : Nat) : RF := ⟨ALLOC_RB_QDEFER_at b, 15, 0⟩
abbrev BAY_CTRL_at (s : Nat) : Nat := 0x30000000 + s * 0x10000
abbrev BAY_CTRL_TRIPALL (s : Nat) : RF := ⟨BAY_CTRL_at s, 2, 2⟩
abbrev BAY_CTRL_ROUTECORR (s : Nat) : RF := ⟨BAY_CTRL_at s, 1, 1⟩
abbrev BAY_CTRL_REFEN (s : Nat) : RF := ⟨BAY_CTRL_at s, 0, 0⟩
abbrev BAY_STATUS_at (s : Nat) : Nat := 0x30000004 + s * 0x10000
abbrev BAY_STATUS_AMPLIM (s : Nat) : RF := ⟨BAY_STATUS_at s, 15, 8⟩
abbrev BAY_STATUS_XTLOST (s : Nat) : RF := ⟨BAY_STATUS_at s, 5, 5⟩
abbrev BAY_STATUS_RONSTALE (s : Nat) : RF := ⟨BAY_STATUS_at s, 4, 4⟩
abbrev BAY_STATUS_TRIPOPEN (s : Nat) : RF := ⟨BAY_STATUS_at s, 3, 3⟩
abbrev BAY_STATUS_HELD (s : Nat) : RF := ⟨BAY_STATUS_at s, 2, 2⟩
abbrev BAY_STATUS_RONVALID (s : Nat) : RF := ⟨BAY_STATUS_at s, 1, 1⟩
abbrev BAY_STATUS_REF_OK (s : Nat) : RF := ⟨BAY_STATUS_at s, 0, 0⟩
abbrev BAY_IRQ_STAT_at (s : Nat) : Nat := 0x30000008 + s * 0x10000
abbrev BAY_IRQ_STAT_XTLOST (s : Nat) : RF := ⟨BAY_IRQ_STAT_at s, 3, 3⟩
abbrev BAY_IRQ_STAT_RCALDONE (s : Nat) : RF := ⟨BAY_IRQ_STAT_at s, 2, 2⟩
abbrev BAY_IRQ_STAT_RONRANGE (s : Nat) : RF := ⟨BAY_IRQ_STAT_at s, 1, 1⟩
abbrev BAY_IRQ_STAT_AMPLIM (s : Nat) : RF := ⟨BAY_IRQ_STAT_at s, 0, 0⟩
abbrev BAY_IRQ_EN_at (s : Nat) : Nat := 0x3000000c + s * 0x10000
abbrev BAY_IRQ_EN_XTLOST (s : Nat) : RF := ⟨BAY_IRQ_EN_at s, 3, 3⟩
abbrev BAY_IRQ_EN_RCALDONE (s : Nat) : RF := ⟨BAY_IRQ_EN_at s, 2, 2⟩
abbrev BAY_IRQ_EN_RONRANGE (s : Nat) : RF := ⟨BAY_IRQ_EN_at s, 1, 1⟩
abbrev BAY_IRQ_EN_AMPLIM (s : Nat) : RF := ⟨BAY_IRQ_EN_at s, 0, 0⟩
abbrev BAY_PAD_CFG_at (s : Nat) : Nat := 0x30000010 + s * 0x10000
abbrev BAY_PAD_CFG_ROLE (s : Nat) : RF := ⟨BAY_PAD_CFG_at s, 15, 0⟩
abbrev BAY_RONREP_at (s : Nat) : Nat := 0x30000014 + s * 0x10000
abbrev BAY_RONREP_RON (s : Nat) : RF := ⟨BAY_RONREP_at s, 15, 0⟩
abbrev BAY_RCAL_CMD_at (s : Nat) : Nat := 0x30000020 + s * 0x10000
abbrev BAY_RCAL_CMD_GO (s : Nat) : RF := ⟨BAY_RCAL_CMD_at s, 31, 31⟩
abbrev BAY_RCAL_CMD_BUSY (s : Nat) : RF := ⟨BAY_RCAL_CMD_at s, 30, 30⟩
abbrev BAY_RCAL_CMD_TRACK (s : Nat) : RF := ⟨BAY_RCAL_CMD_at s, 12, 8⟩
abbrev BAY_RCAL_CMD_TERM (s : Nat) : RF := ⟨BAY_RCAL_CMD_at s, 5, 0⟩
abbrev BAY_RCAL_RESULT_at (s : Nat) : Nat := 0x30000024 + s * 0x10000
abbrev BAY_RCAL_RESULT_VALID (s : Nat) : RF := ⟨BAY_RCAL_RESULT_at s, 31, 31⟩
abbrev BAY_RCAL_RESULT_REFUSED (s : Nat) : RF := ⟨BAY_RCAL_RESULT_at s, 30, 30⟩
abbrev BAY_RCAL_RESULT_RON (s : Nat) : RF := ⟨BAY_RCAL_RESULT_at s, 15, 0⟩
abbrev BAY_AMP_CFG_at (s j : Nat) : Nat := 0x30000040 + s * 0x10000 + j * 0x4
abbrev BAY_AMP_CFG_TIABIAS (s j : Nat) : RF := ⟨BAY_AMP_CFG_at s j, 15, 15⟩
abbrev BAY_AMP_CFG_CF (s j : Nat) : RF := ⟨BAY_AMP_CFG_at s j, 14, 12⟩
abbrev BAY_AMP_CFG_RF (s j : Nat) : RF := ⟨BAY_AMP_CFG_at s j, 11, 8⟩
abbrev BAY_AMP_CFG_GAIN (s j : Nat) : RF := ⟨BAY_AMP_CFG_at s j, 6, 4⟩
abbrev BAY_AMP_CFG_MODE (s j : Nat) : RF := ⟨BAY_AMP_CFG_at s j, 2, 0⟩
abbrev BAY_BQ_CFG_at (s q : Nat) : Nat := 0x30000080 + s * 0x10000 + q * 0x4
abbrev BAY_BQ_CFG_FREQ (s q : Nat) : RF := ⟨BAY_BQ_CFG_at s q, 31, 16⟩
abbrev BAY_BQ_CFG_QC (s q : Nat) : RF := ⟨BAY_BQ_CFG_at s q, 15, 8⟩
abbrev BAY_BQ_CFG_DIV (s q : Nat) : RF := ⟨BAY_BQ_CFG_at s q, 6, 4⟩
abbrev BAY_BQ_CFG_EN (s q : Nat) : RF := ⟨BAY_BQ_CFG_at s q, 2, 2⟩
abbrev BAY_BQ_CFG_TYPE (s q : Nat) : RF := ⟨BAY_BQ_CFG_at s q, 1, 0⟩
abbrev BAY_SW_at (s n : Nat) : Nat := 0x30000100 + s * 0x10000 + n * 0x4
abbrev BAY_SW_XT (s n : Nat) : RF := ⟨BAY_SW_at s n, 19, 16⟩
abbrev BAY_SW_LT (s n : Nat) : RF := ⟨BAY_SW_at s n, 15, 0⟩
abbrev BAY_ROUTE_at (s n : Nat) : Nat := 0x30000200 + s * 0x10000 + n * 0x4
abbrev BAY_ROUTE_DTERM (s n : Nat) : RF := ⟨BAY_ROUTE_at s n, 21, 16⟩
abbrev BAY_ROUTE_DBAY (s n : Nat) : RF := ⟨BAY_ROUTE_at s n, 15, 12⟩
abbrev BAY_ROUTE_K (s n : Nat) : RF := ⟨BAY_ROUTE_at s n, 3, 0⟩
abbrev ADC_CFG_at (n : Nat) : Nat := 0x30004000 + n / 2 * 0x10000 + n % 2 * 0x1000
abbrev ADC_CFG_AUTOREST (n : Nat) : RF := ⟨ADC_CFG_at n, 9, 9⟩
abbrev ADC_CFG_ASYNC (n : Nat) : RF := ⟨ADC_CFG_at n, 8, 8⟩
abbrev ADC_CFG_LEN (n : Nat) : RF := ⟨ADC_CFG_at n, 7, 4⟩
abbrev ADC_CFG_CONT (n : Nat) : RF := ⟨ADC_CFG_at n, 3, 3⟩
abbrev ADC_CFG_POLICY (n : Nat) : RF := ⟨ADC_CFG_at n, 2, 1⟩
abbrev ADC_CFG_EN (n : Nat) : RF := ⟨ADC_CFG_at n, 0, 0⟩
abbrev ADC_TRIG_at (n : Nat) : Nat := 0x30004004 + n / 2 * 0x10000 + n % 2 * 0x1000
abbrev ADC_TRIG_TPHASE (n : Nat) : RF := ⟨ADC_TRIG_at n, 31, 24⟩
abbrev ADC_TRIG_TPERIOD (n : Nat) : RF := ⟨ADC_TRIG_at n, 23, 16⟩
abbrev ADC_TRIG_SRC (n : Nat) : RF := ⟨ADC_TRIG_at n, 15, 14⟩
abbrev ADC_TRIG_EVENT (n : Nat) : RF := ⟨ADC_TRIG_at n, 8, 0⟩
abbrev ADC_SWTRIG_at (n : Nat) : Nat := 0x30004008 + n / 2 * 0x10000 + n % 2 * 0x1000
abbrev ADC_SWTRIG_GO (n : Nat) : RF := ⟨ADC_SWTRIG_at n, 0, 0⟩
abbrev ADC_STAT_at (n : Nat) : Nat := 0x3000400c + n / 2 * 0x10000 + n % 2 * 0x1000
abbrev ADC_STAT_CUR (n : Nat) : RF := ⟨ADC_STAT_at n, 11, 8⟩
abbrev ADC_STAT_QUEUED (n : Nat) : RF := ⟨ADC_STAT_at n, 4, 4⟩
abbrev ADC_STAT_BORROWED (n : Nat) : RF := ⟨ADC_STAT_at n, 3, 3⟩
abbrev ADC_STAT_CALBUSY (n : Nat) : RF := ⟨ADC_STAT_at n, 2, 2⟩
abbrev ADC_STAT_RUN (n : Nat) : RF := ⟨ADC_STAT_at n, 1, 1⟩
abbrev ADC_IRQ_STAT_at (n : Nat) : Nat := 0x30004010 + n / 2 * 0x10000 + n % 2 * 0x1000
abbrev ADC_IRQ_STAT_RESTERR (n : Nat) : RF := ⟨ADC_IRQ_STAT_at n, 6, 6⟩
abbrev ADC_IRQ_STAT_NOSYNC (n : Nat) : RF := ⟨ADC_IRQ_STAT_at n, 5, 5⟩
abbrev ADC_IRQ_STAT_CALREJ (n : Nat) : RF := ⟨ADC_IRQ_STAT_at n, 4, 4⟩
abbrev ADC_IRQ_STAT_CALDONE (n : Nat) : RF := ⟨ADC_IRQ_STAT_at n, 3, 3⟩
abbrev ADC_IRQ_STAT_DROP (n : Nat) : RF := ⟨ADC_IRQ_STAT_at n, 2, 2⟩
abbrev ADC_IRQ_STAT_REFBAD (n : Nat) : RF := ⟨ADC_IRQ_STAT_at n, 1, 1⟩
abbrev ADC_IRQ_STAT_OVR (n : Nat) : RF := ⟨ADC_IRQ_STAT_at n, 0, 0⟩
abbrev ADC_IRQ_EN_at (n : Nat) : Nat := 0x30004014 + n / 2 * 0x10000 + n % 2 * 0x1000
abbrev ADC_IRQ_EN_RESTERR (n : Nat) : RF := ⟨ADC_IRQ_EN_at n, 6, 6⟩
abbrev ADC_IRQ_EN_NOSYNC (n : Nat) : RF := ⟨ADC_IRQ_EN_at n, 5, 5⟩
abbrev ADC_IRQ_EN_CALREJ (n : Nat) : RF := ⟨ADC_IRQ_EN_at n, 4, 4⟩
abbrev ADC_IRQ_EN_CALDONE (n : Nat) : RF := ⟨ADC_IRQ_EN_at n, 3, 3⟩
abbrev ADC_IRQ_EN_DROP (n : Nat) : RF := ⟨ADC_IRQ_EN_at n, 2, 2⟩
abbrev ADC_IRQ_EN_REFBAD (n : Nat) : RF := ⟨ADC_IRQ_EN_at n, 1, 1⟩
abbrev ADC_IRQ_EN_OVR (n : Nat) : RF := ⟨ADC_IRQ_EN_at n, 0, 0⟩
abbrev ADC_CNT_TRIG_at (n : Nat) : Nat := 0x30004018 + n / 2 * 0x10000 + n % 2 * 0x1000
abbrev ADC_CNT_TRIG_DROPPED (n : Nat) : RF := ⟨ADC_CNT_TRIG_at n, 31, 16⟩
abbrev ADC_CNT_TRIG_QOVF (n : Nat) : RF := ⟨ADC_CNT_TRIG_at n, 15, 0⟩
abbrev ADC_CNT_MISC_at (n : Nat) : Nat := 0x3000401c + n / 2 * 0x10000 + n % 2 * 0x1000
abbrev ADC_CNT_MISC_RESTARTS (n : Nat) : RF := ⟨ADC_CNT_MISC_at n, 31, 16⟩
abbrev ADC_CNT_MISC_CFGRESTART (n : Nat) : RF := ⟨ADC_CNT_MISC_at n, 15, 8⟩
abbrev ADC_CNT_MISC_COINC (n : Nat) : RF := ⟨ADC_CNT_MISC_at n, 7, 0⟩
abbrev ADC_ASYNC_CFG_at (n : Nat) : Nat := 0x30004020 + n / 2 * 0x10000 + n % 2 * 0x1000
abbrev ADC_ASYNC_CFG_M (n : Nat) : RF := ⟨ADC_ASYNC_CFG_at n, 7, 0⟩
abbrev ADC_ASYNC_ANG_at (n : Nat) : Nat := 0x30004024 + n / 2 * 0x10000 + n % 2 * 0x1000
abbrev ADC_ASYNC_ANG_ANG0 (n : Nat) : RF := ⟨ADC_ASYNC_ANG_at n, 31, 0⟩
abbrev ADC_ASYNC_STAT_at (n : Nat) : Nat := 0x30004028 + n / 2 * 0x10000 + n % 2 * 0x1000
abbrev ADC_ASYNC_STAT_CLAMPS (n : Nat) : RF := ⟨ADC_ASYNC_STAT_at n, 31, 16⟩
abbrev ADC_ASYNC_STAT_SYNCED (n : Nat) : RF := ⟨ADC_ASYNC_STAT_at n, 9, 9⟩
abbrev ADC_ASYNC_STAT_FILL (n : Nat) : RF := ⟨ADC_ASYNC_STAT_at n, 8, 0⟩
abbrev ADC_CAL_CMD_at (n : Nat) : Nat := 0x30004040 + n / 2 * 0x10000 + n % 2 * 0x1000
abbrev ADC_CAL_CMD_BUSY (n : Nat) : RF := ⟨ADC_CAL_CMD_at n, 31, 31⟩
abbrev ADC_CAL_CMD_AVG (n : Nat) : RF := ⟨ADC_CAL_CMD_at n, 18, 16⟩
abbrev ADC_CAL_CMD_SET (n : Nat) : RF := ⟨ADC_CAL_CMD_at n, 14, 12⟩
abbrev ADC_CAL_CMD_ENTRY (n : Nat) : RF := ⟨ADC_CAL_CMD_at n, 11, 8⟩
abbrev ADC_CAL_CMD_OP (n : Nat) : RF := ⟨ADC_CAL_CMD_at n, 2, 0⟩
abbrev ADC_CAL_STAT_at (n : Nat) : Nat := 0x30004044 + n / 2 * 0x10000 + n % 2 * 0x1000
abbrev ADC_CAL_STAT_ZVALID (n : Nat) : RF := ⟨ADC_CAL_STAT_at n, 31, 31⟩
abbrev ADC_CAL_STAT_ZENTRY (n : Nat) : RF := ⟨ADC_CAL_STAT_at n, 27, 24⟩
abbrev ADC_CAL_STAT_ZSET (n : Nat) : RF := ⟨ADC_CAL_STAT_at n, 22, 20⟩
abbrev ADC_CAL_STAT_CODE (n : Nat) : RF := ⟨ADC_CAL_STAT_at n, 7, 0⟩
abbrev ADC_CAL_FSVAL_at (n : Nat) : Nat := 0x30004048 + n / 2 * 0x10000 + n % 2 * 0x1000
abbrev ADC_CAL_FSVAL_FSVAL (n : Nat) : RF := ⟨ADC_CAL_FSVAL_at n, 31, 0⟩
abbrev ADC_CAL_LIM_at (n : Nat) : Nat := 0x3000404c + n / 2 * 0x10000 + n % 2 * 0x1000
abbrev ADC_CAL_LIM_ZEXP (n : Nat) : RF := ⟨ADC_CAL_LIM_at n, 20, 16⟩
abbrev ADC_CAL_LIM_NOISE (n : Nat) : RF := ⟨ADC_CAL_LIM_at n, 15, 0⟩
abbrev ADC_CAL_DZERO_at (n : Nat) : Nat := 0x30004050 + n / 2 * 0x10000 + n % 2 * 0x1000
abbrev ADC_CAL_DZERO_DZERO (n : Nat) : RF := ⟨ADC_CAL_DZERO_at n, 31, 0⟩
abbrev ADC_CAL_DFULL_at (n : Nat) : Nat := 0x30004054 + n / 2 * 0x10000 + n % 2 * 0x1000
abbrev ADC_CAL_DFULL_DFULL (n : Nat) : RF := ⟨ADC_CAL_DFULL_at n, 31, 0⟩
abbrev ADC_CAL_SPREAD_at (n : Nat) : Nat := 0x30004058 + n / 2 * 0x10000 + n % 2 * 0x1000
abbrev ADC_CAL_SPREAD_SPREAD (n : Nat) : RF := ⟨ADC_CAL_SPREAD_at n, 31, 0⟩
abbrev ADC_SEQ_at (n e : Nat) : Nat := 0x30004100 + n / 2 * 0x10000 + n % 2 * 0x1000 + e * 0x4
abbrev ADC_SEQ_OSRN (n e : Nat) : RF := ⟨ADC_SEQ_at n e, 29, 19⟩
abbrev ADC_SEQ_ORDER (n e : Nat) : RF := ⟨ADC_SEQ_at n e, 18, 16⟩
abbrev ADC_SEQ_CALSET (n e : Nat) : RF := ⟨ADC_SEQ_at n e, 14, 12⟩
abbrev ADC_SEQ_NOCAL (n e : Nat) : RF := ⟨ADC_SEQ_at n e, 11, 11⟩
abbrev ADC_SEQ_INSEL (n e : Nat) : RF := ⟨ADC_SEQ_at n e, 5, 0⟩
abbrev ADC_RES_LO_at (n e : Nat) : Nat := 0x30004200 + n / 2 * 0x10000 + n % 2 * 0x1000 + e * 0x10
abbrev ADC_RES_LO_VALUE (n e : Nat) : RF := ⟨ADC_RES_LO_at n e, 31, 0⟩
abbrev ADC_RES_HI_at (n e : Nat) : Nat := 0x30004204 + n / 2 * 0x10000 + n % 2 * 0x1000 + e * 0x10
abbrev ADC_RES_HI_TIME (n e : Nat) : RF := ⟨ADC_RES_HI_at n e, 31, 0⟩
abbrev ADC_RES_TAG_at (n e : Nat) : Nat := 0x30004208 + n / 2 * 0x10000 + n % 2 * 0x1000 + e * 0x10
abbrev ADC_RES_TAG_NOCAL (n e : Nat) : RF := ⟨ADC_RES_TAG_at n e, 23, 23⟩
abbrev ADC_RES_TAG_CALSET (n e : Nat) : RF := ⟨ADC_RES_TAG_at n e, 22, 20⟩
abbrev ADC_RES_TAG_SYNC (n e : Nat) : RF := ⟨ADC_RES_TAG_at n e, 19, 19⟩
abbrev ADC_RES_TAG_REFBAD (n e : Nat) : RF := ⟨ADC_RES_TAG_at n e, 18, 18⟩
abbrev ADC_RES_TAG_OVR (n e : Nat) : RF := ⟨ADC_RES_TAG_at n e, 17, 17⟩
abbrev ADC_RES_TAG_LIVETAG (n e : Nat) : RF := ⟨ADC_RES_TAG_at n e, 15, 8⟩
abbrev ADC_RES_TAG_SNAPTAG (n e : Nat) : RF := ⟨ADC_RES_TAG_at n e, 7, 0⟩
abbrev ADC_RES_SHORT_at (n e : Nat) : Nat := 0x3000420c + n / 2 * 0x10000 + n % 2 * 0x1000 + e * 0x10
abbrev ADC_RES_SHORT_VALUE (n e : Nat) : RF := ⟨ADC_RES_SHORT_at n e, 31, 0⟩
abbrev ADC_CALOFS_at (n c : Nat) : Nat := 0x30004300 + n / 2 * 0x10000 + n % 2 * 0x1000 + c * 0x8
abbrev ADC_CALOFS_OFFSET (n c : Nat) : RF := ⟨ADC_CALOFS_at n c, 31, 0⟩
abbrev ADC_CALGAIN_at (n c : Nat) : Nat := 0x30004304 + n / 2 * 0x10000 + n % 2 * 0x1000 + c * 0x8
abbrev ADC_CALGAIN_GAIN (n c : Nat) : RF := ⟨ADC_CALGAIN_at n c, 31, 0⟩
abbrev CMP_CFG_at (s c : Nat) : Nat := 0x30006000 + s * 0x10000 + c * 0x20
abbrev CMP_CFG_CLRPWM (s c : Nat) : RF := ⟨CMP_CFG_at s c, 17, 14⟩
abbrev CMP_CFG_CLRSRC (s c : Nat) : RF := ⟨CMP_CFG_at s c, 13, 12⟩
abbrev CMP_CFG_EVT (s c : Nat) : RF := ⟨CMP_CFG_at s c, 11, 10⟩
abbrev CMP_CFG_CAPSRC (s c : Nat) : RF := ⟨CMP_CFG_at s c, 9, 9⟩
abbrev CMP_CFG_INIT (s c : Nat) : RF := ⟨CMP_CFG_at s c, 8, 8⟩
abbrev CMP_CFG_POL (s c : Nat) : RF := ⟨CMP_CFG_at s c, 7, 7⟩
abbrev CMP_CFG_THSRC (s c : Nat) : RF := ⟨CMP_CFG_at s c, 6, 6⟩
abbrev CMP_CFG_HYST (s c : Nat) : RF := ⟨CMP_CFG_at s c, 5, 3⟩
abbrev CMP_CFG_MODE (s c : Nat) : RF := ⟨CMP_CFG_at s c, 2, 0⟩
abbrev CMP_THR_at (s c : Nat) : Nat := 0x30006004 + s * 0x10000 + c * 0x20
abbrev CMP_THR_CODE (s c : Nat) : RF := ⟨CMP_THR_at s c, 9, 0⟩
abbrev CMP_FILT_at (s c : Nat) : Nat := 0x30006008 + s * 0x10000 + c * 0x20
abbrev CMP_FILT_SDIV (s c : Nat) : RF := ⟨CMP_FILT_at s c, 10, 8⟩
abbrev CMP_FILT_N (s c : Nat) : RF := ⟨CMP_FILT_at s c, 7, 4⟩
abbrev CMP_FILT_M (s c : Nat) : RF := ⟨CMP_FILT_at s c, 3, 0⟩
abbrev CMP_STAT_at (s c : Nat) : Nat := 0x3000600c + s * 0x10000 + c * 0x20
abbrev CMP_STAT_HOLD (s c : Nat) : RF := ⟨CMP_STAT_at s c, 4, 4⟩
abbrev CMP_STAT_ON (s c : Nat) : RF := ⟨CMP_STAT_at s c, 3, 3⟩
abbrev CMP_STAT_CSYNC (s c : Nat) : RF := ⟨CMP_STAT_at s c, 2, 2⟩
abbrev CMP_STAT_L (s c : Nat) : RF := ⟨CMP_STAT_at s c, 1, 1⟩
abbrev CMP_STAT_F (s c : Nat) : RF := ⟨CMP_STAT_at s c, 0, 0⟩
abbrev CMP_CNT_at (s c : Nat) : Nat := 0x30006010 + s * 0x10000 + c * 0x20
abbrev CMP_CNT_EDGES (s c : Nat) : RF := ⟨CMP_CNT_at s c, 31, 16⟩
abbrev CMP_CNT_EVOVF (s c : Nat) : RF := ⟨CMP_CNT_at s c, 15, 8⟩
abbrev CMP_CNT_CLROVF (s c : Nat) : RF := ⟨CMP_CNT_at s c, 7, 0⟩
abbrev CMP_WIN_CFG_at (s w : Nat) : Nat := 0x30006080 + s * 0x10000 + w * 0x10
abbrev CMP_WIN_CFG_CLRPWM (s w : Nat) : RF := ⟨CMP_WIN_CFG_at s w, 7, 4⟩
abbrev CMP_WIN_CFG_CLRSRC (s w : Nat) : RF := ⟨CMP_WIN_CFG_at s w, 3, 2⟩
abbrev CMP_WIN_CFG_EN (s w : Nat) : RF := ⟨CMP_WIN_CFG_at s w, 0, 0⟩
abbrev CMP_WIN_STAT_at (s w : Nat) : Nat := 0x30006084 + s * 0x10000 + w * 0x10
abbrev CMP_WIN_STAT_EVOVF (s w : Nat) : RF := ⟨CMP_WIN_STAT_at s w, 15, 8⟩
abbrev CMP_WIN_STAT_WINERR (s w : Nat) : RF := ⟨CMP_WIN_STAT_at s w, 3, 3⟩
abbrev CMP_WIN_STAT_WL (s w : Nat) : RF := ⟨CMP_WIN_STAT_at s w, 2, 2⟩
abbrev CMP_WIN_STAT_STATE (s w : Nat) : RF := ⟨CMP_WIN_STAT_at s w, 1, 0⟩
abbrev CMP_LATCH_at (s : Nat) : Nat := 0x300060a0 + s * 0x10000
abbrev CMP_LATCH_WIN (s : Nat) : RF := ⟨CMP_LATCH_at s, 5, 4⟩
abbrev CMP_LATCH_CMP (s : Nat) : RF := ⟨CMP_LATCH_at s, 3, 0⟩
abbrev CMP_IRQ_STAT_at (s : Nat) : Nat := 0x300060a4 + s * 0x10000
abbrev CMP_IRQ_STAT_WINERR (s : Nat) : RF := ⟨CMP_IRQ_STAT_at s, 7, 7⟩
abbrev CMP_IRQ_STAT_EVOVF (s : Nat) : RF := ⟨CMP_IRQ_STAT_at s, 6, 6⟩
abbrev CMP_IRQ_STAT_WOUT (s : Nat) : RF := ⟨CMP_IRQ_STAT_at s, 5, 4⟩
abbrev CMP_IRQ_STAT_LSET (s : Nat) : RF := ⟨CMP_IRQ_STAT_at s, 3, 0⟩
abbrev CMP_IRQ_EN_at (s : Nat) : Nat := 0x300060a8 + s * 0x10000
abbrev CMP_IRQ_EN_WINERR (s : Nat) : RF := ⟨CMP_IRQ_EN_at s, 7, 7⟩
abbrev CMP_IRQ_EN_EVOVF (s : Nat) : RF := ⟨CMP_IRQ_EN_at s, 6, 6⟩
abbrev CMP_IRQ_EN_WOUT (s : Nat) : RF := ⟨CMP_IRQ_EN_at s, 5, 4⟩
abbrev CMP_IRQ_EN_LSET (s : Nat) : RF := ⟨CMP_IRQ_EN_at s, 3, 0⟩
abbrev CMP_WAKE_at (s : Nat) : Nat := 0x300060ac + s * 0x10000
abbrev CMP_WAKE_WOKE (s : Nat) : RF := ⟨CMP_WAKE_at s, 15, 12⟩
abbrev CMP_WAKE_WF (s : Nat) : RF := ⟨CMP_WAKE_at s, 11, 8⟩
abbrev CMP_WAKE_WAKEEN (s : Nat) : RF := ⟨CMP_WAKE_at s, 3, 0⟩
abbrev DAC_CFG_at (n : Nat) : Nat := 0x30008000 + n / 2 * 0x10000 + n % 2 * 0x1000
abbrev DAC_CFG_INITDRV (n : Nat) : RF := ⟨DAC_CFG_at n, 4, 4⟩
abbrev DAC_CFG_TRIPRESUME (n : Nat) : RF := ⟨DAC_CFG_at n, 3, 3⟩
abbrev DAC_CFG_FAULTPOL (n : Nat) : RF := ⟨DAC_CFG_at n, 2, 2⟩
abbrev DAC_CFG_GAIN (n : Nat) : RF := ⟨DAC_CFG_at n, 1, 1⟩
abbrev DAC_CFG_EN (n : Nat) : RF := ⟨DAC_CFG_at n, 0, 0⟩
abbrev DAC_CODE_at (n : Nat) : Nat := 0x30008004 + n / 2 * 0x10000 + n % 2 * 0x1000
abbrev DAC_CODE_CODE (n : Nat) : RF := ⟨DAC_CODE_at n, 13, 0⟩
abbrev DAC_LIMIT_at (n : Nat) : Nat := 0x30008008 + n / 2 * 0x10000 + n % 2 * 0x1000
abbrev DAC_LIMIT_HI (n : Nat) : RF := ⟨DAC_LIMIT_at n, 29, 16⟩
abbrev DAC_LIMIT_LO (n : Nat) : RF := ⟨DAC_LIMIT_at n, 13, 0⟩
abbrev DAC_STAT_at (n : Nat) : Nat := 0x3000800c + n / 2 * 0x10000 + n % 2 * 0x1000
abbrev DAC_STAT_SHORT (n : Nat) : RF := ⟨DAC_STAT_at n, 7, 7⟩
abbrev DAC_STAT_LIMITING (n : Nat) : RF := ⟨DAC_STAT_at n, 6, 6⟩
abbrev DAC_STAT_GAINF (n : Nat) : RF := ⟨DAC_STAT_at n, 5, 5⟩
abbrev DAC_STAT_CODEVALID (n : Nat) : RF := ⟨DAC_STAT_at n, 4, 4⟩
abbrev DAC_STAT_STATE (n : Nat) : RF := ⟨DAC_STAT_at n, 2, 0⟩
abbrev DAC_IRQ_STAT_at (n : Nat) : Nat := 0x30008010 + n / 2 * 0x10000 + n % 2 * 0x1000
abbrev DAC_IRQ_STAT_OVERRIDE (n : Nat) : RF := ⟨DAC_IRQ_STAT_at n, 2, 2⟩
abbrev DAC_IRQ_STAT_CLAMP (n : Nat) : RF := ⟨DAC_IRQ_STAT_at n, 1, 1⟩
abbrev DAC_IRQ_STAT_SHORT (n : Nat) : RF := ⟨DAC_IRQ_STAT_at n, 0, 0⟩
abbrev DAC_IRQ_EN_at (n : Nat) : Nat := 0x30008014 + n / 2 * 0x10000 + n % 2 * 0x1000
abbrev DAC_IRQ_EN_OVERRIDE (n : Nat) : RF := ⟨DAC_IRQ_EN_at n, 2, 2⟩
abbrev DAC_IRQ_EN_CLAMP (n : Nat) : RF := ⟨DAC_IRQ_EN_at n, 1, 1⟩
abbrev DAC_IRQ_EN_SHORT (n : Nat) : RF := ⟨DAC_IRQ_EN_at n, 0, 0⟩
abbrev DAC_CNT_at (n : Nat) : Nat := 0x30008018 + n / 2 * 0x10000 + n % 2 * 0x1000
abbrev DAC_CNT_CLAMPS (n : Nat) : RF := ⟨DAC_CNT_at n, 31, 16⟩
abbrev DAC_CNT_OVERRIDES (n : Nat) : RF := ⟨DAC_CNT_at n, 15, 8⟩
abbrev DAC_CNT_SHORTS (n : Nat) : RF := ⟨DAC_CNT_at n, 7, 0⟩
abbrev SCR_CFG_at (s : Nat) : Nat := 0x3000d000 + s * 0x10000
abbrev SCR_CFG_WBEN (s : Nat) : RF := ⟨SCR_CFG_at s, 0, 0⟩
abbrev SCR_IRQ_STAT_at (s : Nat) : Nat := 0x3000d008 + s * 0x10000
abbrev SCR_IRQ_STAT_MBXOVF (s : Nat) : RF := ⟨SCR_IRQ_STAT_at s, 5, 5⟩
abbrev SCR_IRQ_STAT_MBXIN (s : Nat) : RF := ⟨SCR_IRQ_STAT_at s, 4, 4⟩
abbrev SCR_IRQ_STAT_DMAEND (s : Nat) : RF := ⟨SCR_IRQ_STAT_at s, 3, 3⟩
abbrev SCR_IRQ_STAT_UE (s : Nat) : RF := ⟨SCR_IRQ_STAT_at s, 2, 2⟩
abbrev SCR_IRQ_STAT_CE (s : Nat) : RF := ⟨SCR_IRQ_STAT_at s, 1, 1⟩
abbrev SCR_IRQ_STAT_COLL (s : Nat) : RF := ⟨SCR_IRQ_STAT_at s, 0, 0⟩
abbrev SCR_IRQ_EN_at (s : Nat) : Nat := 0x3000d00c + s * 0x10000
abbrev SCR_IRQ_EN_MBXOVF (s : Nat) : RF := ⟨SCR_IRQ_EN_at s, 5, 5⟩
abbrev SCR_IRQ_EN_MBXIN (s : Nat) : RF := ⟨SCR_IRQ_EN_at s, 4, 4⟩
abbrev SCR_IRQ_EN_DMAEND (s : Nat) : RF := ⟨SCR_IRQ_EN_at s, 3, 3⟩
abbrev SCR_IRQ_EN_UE (s : Nat) : RF := ⟨SCR_IRQ_EN_at s, 2, 2⟩
abbrev SCR_IRQ_EN_CE (s : Nat) : RF := ⟨SCR_IRQ_EN_at s, 1, 1⟩
abbrev SCR_IRQ_EN_COLL (s : Nat) : RF := ⟨SCR_IRQ_EN_at s, 0, 0⟩
abbrev SCR_ECC_CNT_at (s : Nat) : Nat := 0x3000d010 + s * 0x10000
abbrev SCR_ECC_CNT_CE (s : Nat) : RF := ⟨SCR_ECC_CNT_at s, 31, 16⟩
abbrev SCR_ECC_CNT_UE (s : Nat) : RF := ⟨SCR_ECC_CNT_at s, 15, 0⟩
abbrev SCR_ECC_ADDR_at (s : Nat) : Nat := 0x3000d014 + s * 0x10000
abbrev SCR_ECC_ADDR_ADDR (s : Nat) : RF := ⟨SCR_ECC_ADDR_at s, 31, 0⟩
abbrev SCR_COLL_ADDR_at (s : Nat) : Nat := 0x3000d018 + s * 0x10000
abbrev SCR_COLL_ADDR_ADDR (s : Nat) : RF := ⟨SCR_COLL_ADDR_at s, 31, 0⟩
abbrev SCR_COLL_REQ_at (s : Nat) : Nat := 0x3000d01c + s * 0x10000
abbrev SCR_COLL_REQ_OVERFLOW (s : Nat) : RF := ⟨SCR_COLL_REQ_at s, 31, 31⟩
abbrev SCR_COLL_REQ_REQUESTER (s : Nat) : RF := ⟨SCR_COLL_REQ_at s, 8, 0⟩
abbrev SCR_INJ_at (s : Nat) : Nat := 0x3000d020 + s * 0x10000
abbrev SCR_INJ_ARM (s : Nat) : RF := ⟨SCR_INJ_at s, 31, 31⟩
abbrev SCR_INJ_TWO (s : Nat) : RF := ⟨SCR_INJ_at s, 14, 14⟩
abbrev SCR_INJ_BIT2 (s : Nat) : RF := ⟨SCR_INJ_at s, 13, 8⟩
abbrev SCR_INJ_BIT1 (s : Nat) : RF := ⟨SCR_INJ_at s, 5, 0⟩
abbrev FAB_STAT_at (s : Nat) : Nat := 0x3000d040 + s * 0x10000
abbrev FAB_STAT_HELD (s : Nat) : RF := ⟨FAB_STAT_at s, 1, 1⟩
abbrev FAB_STAT_CLKOK (s : Nat) : RF := ⟨FAB_STAT_at s, 0, 0⟩
abbrev DMA_SRC_at (s k : Nat) : Nat := 0x3000d100 + s * 0x10000 + k * 0x20
abbrev DMA_SRC_SRC (s k : Nat) : RF := ⟨DMA_SRC_at s k, 31, 0⟩
abbrev DMA_DST_at (s k : Nat) : Nat := 0x3000d104 + s * 0x10000 + k * 0x20
abbrev DMA_DST_DST (s k : Nat) : RF := ⟨DMA_DST_at s k, 31, 0⟩
abbrev DMA_COUNT_at (s k : Nat) : Nat := 0x3000d108 + s * 0x10000 + k * 0x20
abbrev DMA_COUNT_COUNT (s k : Nat) : RF := ⟨DMA_COUNT_at s k, 16, 0⟩
abbrev DMA_CTRL_at (s k : Nat) : Nat := 0x3000d10c + s * 0x10000 + k * 0x20
abbrev DMA_CTRL_GO (s k : Nat) : RF := ⟨DMA_CTRL_at s k, 31, 31⟩
abbrev DMA_CTRL_ABORT (s k : Nat) : RF := ⟨DMA_CTRL_at s k, 30, 30⟩
abbrev DMA_CTRL_REPEAT (s k : Nat) : RF := ⟨DMA_CTRL_at s k, 25, 25⟩
abbrev DMA_CTRL_TRIG (s k : Nat) : RF := ⟨DMA_CTRL_at s k, 24, 24⟩
abbrev DMA_CTRL_SFIX (s k : Nat) : RF := ⟨DMA_CTRL_at s k, 23, 23⟩
abbrev DMA_CTRL_DFIX (s k : Nat) : RF := ⟨DMA_CTRL_at s k, 22, 22⟩
abbrev DMA_CTRL_EVENT (s k : Nat) : RF := ⟨DMA_CTRL_at s k, 8, 0⟩
abbrev DMA_STAT_at (s k : Nat) : Nat := 0x3000d110 + s * 0x10000 + k * 0x20
abbrev DMA_STAT_BUSY (s k : Nat) : RF := ⟨DMA_STAT_at s k, 31, 31⟩
abbrev DMA_STAT_ARMED (s k : Nat) : RF := ⟨DMA_STAT_at s k, 30, 30⟩
abbrev DMA_STAT_TRIGOVF (s k : Nat) : RF := ⟨DMA_STAT_at s k, 29, 29⟩
abbrev DMA_STAT_CODE (s k : Nat) : RF := ⟨DMA_STAT_at s k, 23, 20⟩
abbrev DMA_STAT_DONE (s k : Nat) : RF := ⟨DMA_STAT_at s k, 16, 0⟩
abbrev MBX_TOFAB_at (s j : Nat) : Nat := 0x3000d200 + s * 0x10000 + j * 0x4
abbrev MBX_TOFAB_DATA (s j : Nat) : RF := ⟨MBX_TOFAB_at s j, 31, 0⟩
abbrev MBX_FROMFAB_at (s j : Nat) : Nat := 0x3000d220 + s * 0x10000 + j * 0x4
abbrev MBX_FROMFAB_DATA (s j : Nat) : RF := ⟨MBX_FROMFAB_at s j, 31, 0⟩
abbrev MBX_STAT_at (s : Nat) : Nat := 0x3000d240 + s * 0x10000
abbrev MBX_STAT_TOFULL (s : Nat) : RF := ⟨MBX_STAT_at s, 31, 24⟩
abbrev MBX_STAT_FROMFULL (s : Nat) : RF := ⟨MBX_STAT_at s, 23, 16⟩
abbrev MBX_STAT_TOOVF (s : Nat) : RF := ⟨MBX_STAT_at s, 1, 1⟩
abbrev MBX_STAT_FROMOVF (s : Nat) : RF := ⟨MBX_STAT_at s, 0, 0⟩
abbrev MBX_DOORBELL_at (s : Nat) : Nat := 0x3000d244 + s * 0x10000
abbrev MBX_DOORBELL_RING (s : Nat) : RF := ⟨MBX_DOORBELL_at s, 0, 0⟩
abbrev VAULT_STAT_at : Nat := 0x40014000
abbrev VAULT_STAT_WIPING : RF := ⟨VAULT_STAT_at, 31, 31⟩
abbrev VAULT_STAT_LASTCAUSE : RF := ⟨VAULT_STAT_at, 7, 4⟩
abbrev VAULT_WIPE_at : Nat := 0x40014004
abbrev VAULT_WIPE_KEY : RF := ⟨VAULT_WIPE_at, 31, 16⟩
abbrev VAULT_WIPE_GO : RF := ⟨VAULT_WIPE_at, 0, 0⟩
abbrev VAULT_WPROT_at : Nat := 0x40014008
abbrev VAULT_WPROT_PAGES : RF := ⟨VAULT_WPROT_at, 15, 0⟩
abbrev VAULT_IRQ_STAT_at : Nat := 0x40014010
abbrev VAULT_IRQ_STAT_WIPED : RF := ⟨VAULT_IRQ_STAT_at, 0, 0⟩
abbrev VAULT_IRQ_EN_at : Nat := 0x40014014
abbrev VAULT_IRQ_EN_WIPED : RF := ⟨VAULT_IRQ_EN_at, 0, 0⟩
abbrev VAULT_CNT_at : Nat := 0x40014018
abbrev VAULT_CNT_WIPES : RF := ⟨VAULT_CNT_at, 15, 0⟩
abbrev ATTAR_CMD_at : Nat := 0x40003000
abbrev ATTAR_CMD_FORCE : RF := ⟨ATTAR_CMD_at, 8, 8⟩
abbrev ATTAR_CMD_WHEN : RF := ⟨ATTAR_CMD_at, 5, 4⟩
abbrev ATTAR_CMD_OP : RF := ⟨ATTAR_CMD_at, 3, 0⟩
abbrev ATTAR_STAT_at : Nat := 0x40003004
abbrev ATTAR_STAT_LATE : RF := ⟨ATTAR_STAT_at, 31, 31⟩
abbrev ATTAR_STAT_STRAY : RF := ⟨ATTAR_STAT_at, 30, 30⟩
abbrev ATTAR_STAT_OWNER : RF := ⟨ATTAR_STAT_at, 29, 21⟩
abbrev ATTAR_STAT_LASTFAIL : RF := ⟨ATTAR_STAT_at, 15, 12⟩
abbrev ATTAR_STAT_LASTEND : RF := ⟨ATTAR_STAT_at, 11, 8⟩
abbrev ATTAR_STAT_CMDRES : RF := ⟨ATTAR_STAT_at, 7, 4⟩
abbrev ATTAR_STAT_STATE : RF := ⟨ATTAR_STAT_at, 2, 0⟩
abbrev ATTAR_WHEN_at : Nat := 0x40003008
abbrev ATTAR_WHEN_TARGET : RF := ⟨ATTAR_WHEN_at, 31, 0⟩
abbrev ATTAR_WHEN_REV_at : Nat := 0x4000300c
abbrev ATTAR_WHEN_REV_REV : RF := ⟨ATTAR_WHEN_REV_at, 15, 0⟩
abbrev ATTAR_APPLY_TICK_at : Nat := 0x40003010
abbrev ATTAR_APPLY_TICK_TICK : RF := ⟨ATTAR_APPLY_TICK_at, 31, 0⟩
abbrev ATTAR_CHK_RESULT_at : Nat := 0x40003014
abbrev ATTAR_CHK_RESULT_COUNT : RF := ⟨ATTAR_CHK_RESULT_at, 15, 8⟩
abbrev ATTAR_CHK_RESULT_CODE : RF := ⟨ATTAR_CHK_RESULT_at, 7, 0⟩
abbrev ATTAR_CHK_ADDR_at : Nat := 0x40003018
abbrev ATTAR_CHK_ADDR_ADDR : RF := ⟨ATTAR_CHK_ADDR_at, 31, 0⟩
abbrev ATTAR_CHK_HANDLE_at : Nat := 0x4000301c
abbrev ATTAR_CHK_HANDLE_HANDLE : RF := ⟨ATTAR_CHK_HANDLE_at, 31, 0⟩
abbrev ATTAR_STRAY_ADDR_at : Nat := 0x40003020
abbrev ATTAR_STRAY_ADDR_ADDR : RF := ⟨ATTAR_STRAY_ADDR_at, 31, 0⟩
abbrev ATTAR_CFG_at : Nat := 0x40003024
abbrev ATTAR_CFG_TIMEOUT : RF := ⟨ATTAR_CFG_at, 15, 0⟩
abbrev ATTAR_PEEK_ADDR_at : Nat := 0x40003028
abbrev ATTAR_PEEK_ADDR_ADDR : RF := ⟨ATTAR_PEEK_ADDR_at, 31, 0⟩
abbrev ATTAR_PEEK_DATA_at : Nat := 0x4000302c
abbrev ATTAR_PEEK_DATA_DATA : RF := ⟨ATTAR_PEEK_DATA_at, 31, 0⟩
abbrev ATTAR_IRQ_STAT_at : Nat := 0x40003030
abbrev ATTAR_IRQ_STAT_STRAY : RF := ⟨ATTAR_IRQ_STAT_at, 4, 4⟩
abbrev ATTAR_IRQ_STAT_APPLYFAIL : RF := ⟨ATTAR_IRQ_STAT_at, 3, 3⟩
abbrev ATTAR_IRQ_STAT_CLOSED : RF := ⟨ATTAR_IRQ_STAT_at, 2, 2⟩
abbrev ATTAR_IRQ_STAT_APPLIED : RF := ⟨ATTAR_IRQ_STAT_at, 1, 1⟩
abbrev ATTAR_IRQ_STAT_CHKDONE : RF := ⟨ATTAR_IRQ_STAT_at, 0, 0⟩
abbrev ATTAR_CNT_at : Nat := 0x40003038
abbrev ATTAR_CNT_APPLIES : RF := ⟨ATTAR_CNT_at, 31, 16⟩
abbrev ATTAR_CNT_ABORTS : RF := ⟨ATTAR_CNT_at, 15, 0⟩
abbrev ATTAR_IRQ_EN_at : Nat := 0x40003034
abbrev ATTAR_IRQ_EN_STRAY : RF := ⟨ATTAR_IRQ_EN_at, 4, 4⟩
abbrev ATTAR_IRQ_EN_APPLYFAIL : RF := ⟨ATTAR_IRQ_EN_at, 3, 3⟩
abbrev ATTAR_IRQ_EN_CLOSED : RF := ⟨ATTAR_IRQ_EN_at, 2, 2⟩
abbrev ATTAR_IRQ_EN_APPLIED : RF := ⟨ATTAR_IRQ_EN_at, 1, 1⟩
abbrev ATTAR_IRQ_EN_CHKDONE : RF := ⟨ATTAR_IRQ_EN_at, 0, 0⟩
abbrev XBAR_SEL_at (p : Nat) : Nat := 0x40004000 + p * 0x4
abbrev XBAR_SEL_OUTSEL (p : Nat) : RF := ⟨XBAR_SEL_at p, 26, 16⟩
abbrev XBAR_SEL_INSEL (p : Nat) : RF := ⟨XBAR_SEL_at p, 9, 0⟩
abbrev XBAR_PAD_at (p : Nat) : Nat := 0x40004800 + p * 0x4
abbrev XBAR_PAD_SHARED (p : Nat) : RF := ⟨XBAR_PAD_at p, 13, 13⟩
abbrev XBAR_PAD_SAFE (p : Nat) : RF := ⟨XBAR_PAD_at p, 12, 11⟩
abbrev XBAR_PAD_INVIN (p : Nat) : RF := ⟨XBAR_PAD_at p, 10, 10⟩
abbrev XBAR_PAD_INVOUT (p : Nat) : RF := ⟨XBAR_PAD_at p, 9, 9⟩
abbrev XBAR_PAD_ODRAIN (p : Nat) : RF := ⟨XBAR_PAD_at p, 8, 8⟩
abbrev XBAR_PAD_FILT (p : Nat) : RF := ⟨XBAR_PAD_at p, 7, 6⟩
abbrev XBAR_PAD_PULL (p : Nat) : RF := ⟨XBAR_PAD_at p, 5, 4⟩
abbrev XBAR_PAD_SLOW (p : Nat) : RF := ⟨XBAR_PAD_at p, 3, 3⟩
abbrev XBAR_PAD_DRIVE (p : Nat) : RF := ⟨XBAR_PAD_at p, 1, 0⟩
abbrev XBAR_STAT_at : Nat := 0x40005000
abbrev XBAR_STAT_LOCKSKIP : RF := ⟨XBAR_STAT_at, 2, 2⟩
abbrev XBAR_STAT_LOCKERR : RF := ⟨XBAR_STAT_at, 1, 1⟩
abbrev XBAR_STAT_CONFLICT : RF := ⟨XBAR_STAT_at, 0, 0⟩
abbrev XBAR_BANKSTAT_at : Nat := 0x40005004
abbrev XBAR_BANKSTAT_LEVEL : RF := ⟨XBAR_BANKSTAT_at, 15, 0⟩
abbrev XBAR_IRQ_STAT_at : Nat := 0x40005008
abbrev XBAR_IRQ_STAT_BANKFAIL : RF := ⟨XBAR_IRQ_STAT_at, 3, 3⟩
abbrev XBAR_IRQ_STAT_LOCKSKIP : RF := ⟨XBAR_IRQ_STAT_at, 2, 2⟩
abbrev XBAR_IRQ_STAT_LOCKERR : RF := ⟨XBAR_IRQ_STAT_at, 1, 1⟩
abbrev XBAR_IRQ_STAT_CONFLICT : RF := ⟨XBAR_IRQ_STAT_at, 0, 0⟩
abbrev XBAR_IRQ_EN_at : Nat := 0x4000500c
abbrev XBAR_IRQ_EN_BANKFAIL : RF := ⟨XBAR_IRQ_EN_at, 3, 3⟩
abbrev XBAR_IRQ_EN_LOCKSKIP : RF := ⟨XBAR_IRQ_EN_at, 2, 2⟩
abbrev XBAR_IRQ_EN_LOCKERR : RF := ⟨XBAR_IRQ_EN_at, 1, 1⟩
abbrev XBAR_IRQ_EN_CONFLICT : RF := ⟨XBAR_IRQ_EN_at, 0, 0⟩
abbrev XBAR_LOCK_at : Nat := 0x40005010
abbrev XBAR_LOCK_KEY : RF := ⟨XBAR_LOCK_at, 31, 16⟩
abbrev XBAR_LOCK_GROUP : RF := ⟨XBAR_LOCK_at, 3, 0⟩
abbrev XBAR_LOCKMASK_at (g : Nat) : Nat := 0x40005040 + g * 0x4
abbrev XBAR_LOCKMASK_MASK (g : Nat) : RF := ⟨XBAR_LOCKMASK_at g, 31, 0⟩
abbrev XBAR_LOCKED_at (g : Nat) : Nat := 0x40005080 + g * 0x4
abbrev XBAR_LOCKED_LOCKED (g : Nat) : RF := ⟨XBAR_LOCKED_at g, 31, 0⟩
abbrev XBAR_CONFLICT_at (w : Nat) : Nat := 0x40005100 + w * 0x4
abbrev XBAR_CONFLICT_CONFLICT (w : Nat) : RF := ⟨XBAR_CONFLICT_at w, 31, 0⟩
abbrev XBAR_INSRC_at (i : Nat) : Nat := 0x40006000 + i * 0x4
abbrev XBAR_INSRC_CONFLICT (i : Nat) : RF := ⟨XBAR_INSRC_at i, 31, 31⟩
abbrev XBAR_INSRC_CLAIMED (i : Nat) : RF := ⟨XBAR_INSRC_at i, 30, 30⟩
abbrev XBAR_INSRC_PIN (i : Nat) : RF := ⟨XBAR_INSRC_at i, 8, 0⟩
abbrev GPIO_OUT_at (g : Nat) : Nat := 0x40008000 + g * 0x20
abbrev GPIO_OUT_OUT (g : Nat) : RF := ⟨GPIO_OUT_at g, 31, 0⟩
abbrev GPIO_SET_at (g : Nat) : Nat := 0x40008004 + g * 0x20
abbrev GPIO_SET_SET (g : Nat) : RF := ⟨GPIO_SET_at g, 31, 0⟩
abbrev GPIO_CLR_at (g : Nat) : Nat := 0x40008008 + g * 0x20
abbrev GPIO_CLR_CLR (g : Nat) : RF := ⟨GPIO_CLR_at g, 31, 0⟩
abbrev GPIO_TGL_at (g : Nat) : Nat := 0x4000800c + g * 0x20
abbrev GPIO_TGL_TGL (g : Nat) : RF := ⟨GPIO_TGL_at g, 31, 0⟩
abbrev GPIO_OE_at (g : Nat) : Nat := 0x40008010 + g * 0x20
abbrev GPIO_OE_OE (g : Nat) : RF := ⟨GPIO_OE_at g, 31, 0⟩
abbrev GPIO_IN_at (g : Nat) : Nat := 0x40008014 + g * 0x20
abbrev GPIO_IN_IN (g : Nat) : RF := ⟨GPIO_IN_at g, 31, 0⟩
abbrev BL_CFG_at (l : Nat) : Nat := 0x40009000 + l * 0x100
abbrev BL_CFG_MISSLIM (l : Nat) : RF := ⟨BL_CFG_at l, 31, 24⟩
abbrev BL_CFG_TMO (l : Nat) : RF := ⟨BL_CFG_at l, 23, 16⟩
abbrev BL_CFG_SIGN (l : Nat) : RF := ⟨BL_CFG_at l, 14, 12⟩
abbrev BL_CFG_PHASE (l : Nat) : RF := ⟨BL_CFG_at l, 11, 8⟩
abbrev BL_CFG_TICKS (l : Nat) : RF := ⟨BL_CFG_at l, 7, 4⟩
abbrev BL_CFG_EN (l : Nat) : RF := ⟨BL_CFG_at l, 0, 0⟩
abbrev BL_STAT_at (l : Nat) : Nat := 0x40009004 + l * 0x100
abbrev BL_STAT_RTT (l : Nat) : RF := ⟨BL_STAT_at l, 31, 16⟩
abbrev BL_STAT_DEMOTED (l : Nat) : RF := ⟨BL_STAT_at l, 3, 3⟩
abbrev BL_STAT_RETOK (l : Nat) : RF := ⟨BL_STAT_at l, 2, 2⟩
abbrev BL_STAT_SAFE (l : Nat) : RF := ⟨BL_STAT_at l, 1, 1⟩
abbrev BL_STAT_RUN (l : Nat) : RF := ⟨BL_STAT_at l, 0, 0⟩
abbrev BL_CYCLE_at (l : Nat) : Nat := 0x40009008 + l * 0x100
abbrev BL_CYCLE_CYCLE (l : Nat) : RF := ⟨BL_CYCLE_at l, 31, 0⟩
abbrev BL_NODESTALE_at (l : Nat) : Nat := 0x4000900c + l * 0x100
abbrev BL_NODESTALE_STALE (l : Nat) : RF := ⟨BL_NODESTALE_at l, 31, 0⟩
abbrev BL_NODEMISS_at (l : Nat) : Nat := 0x40009010 + l * 0x100
abbrev BL_NODEMISS_MISS (l : Nat) : RF := ⟨BL_NODEMISS_at l, 31, 0⟩
abbrev BL_NODEWRAP_at (l : Nat) : Nat := 0x40009014 + l * 0x100
abbrev BL_NODEWRAP_WRAP (l : Nat) : RF := ⟨BL_NODEWRAP_at l, 31, 0⟩
abbrev BL_CNT_at (l : Nat) : Nat := 0x40009018 + l * 0x100
abbrev BL_CNT_CRCERR (l : Nat) : RF := ⟨BL_CNT_at l, 31, 24⟩
abbrev BL_CNT_NORET (l : Nat) : RF := ⟨BL_CNT_at l, 23, 16⟩
abbrev BL_CNT_TFULL (l : Nat) : RF := ⟨BL_CNT_at l, 15, 8⟩
abbrev BL_CNT_BADCODE (l : Nat) : RF := ⟨BL_CNT_at l, 7, 0⟩
abbrev BL_IRQ_STAT_at (l : Nat) : Nat := 0x40009020 + l * 0x100
abbrev BL_IRQ_STAT_DLYJUMP (l : Nat) : RF := ⟨BL_IRQ_STAT_at l, 5, 5⟩
abbrev BL_IRQ_STAT_DEMOTED (l : Nat) : RF := ⟨BL_IRQ_STAT_at l, 4, 4⟩
abbrev BL_IRQ_STAT_TFULL (l : Nat) : RF := ⟨BL_IRQ_STAT_at l, 3, 3⟩
abbrev BL_IRQ_STAT_RETERR (l : Nat) : RF := ⟨BL_IRQ_STAT_at l, 2, 2⟩
abbrev BL_IRQ_STAT_WRAP (l : Nat) : RF := ⟨BL_IRQ_STAT_at l, 1, 1⟩
abbrev BL_IRQ_STAT_MISS (l : Nat) : RF := ⟨BL_IRQ_STAT_at l, 0, 0⟩
abbrev BL_IRQ_EN_at (l : Nat) : Nat := 0x40009024 + l * 0x100
abbrev BL_IRQ_EN_DLYJUMP (l : Nat) : RF := ⟨BL_IRQ_EN_at l, 5, 5⟩
abbrev BL_IRQ_EN_DEMOTED (l : Nat) : RF := ⟨BL_IRQ_EN_at l, 4, 4⟩
abbrev BL_IRQ_EN_TFULL (l : Nat) : RF := ⟨BL_IRQ_EN_at l, 3, 3⟩
abbrev BL_IRQ_EN_RETERR (l : Nat) : RF := ⟨BL_IRQ_EN_at l, 2, 2⟩
abbrev BL_IRQ_EN_WRAP (l : Nat) : RF := ⟨BL_IRQ_EN_at l, 1, 1⟩
abbrev BL_IRQ_EN_MISS (l : Nat) : RF := ⟨BL_IRQ_EN_at l, 0, 0⟩
abbrev BL_SEG_at (l j : Nat) : Nat := 0x40009040 + l * 0x100 + j * 0x4
abbrev BL_SEG_V (l j : Nat) : RF := ⟨BL_SEG_at l j, 15, 15⟩
abbrev BL_SEG_ENOUT (l j : Nat) : RF := ⟨BL_SEG_at l j, 9, 9⟩
abbrev BL_SEG_FOLLOW (l j : Nat) : RF := ⟨BL_SEG_at l j, 8, 8⟩
abbrev BL_SEG_NODE (l j : Nat) : RF := ⟨BL_SEG_at l j, 4, 0⟩
abbrev BL_DLY_at (l w : Nat) : Nat := 0x400090c0 + l * 0x100 + w * 0x4
abbrev BL_DLY_D1 (l w : Nat) : RF := ⟨BL_DLY_at l w, 31, 16⟩
abbrev BL_DLY_D0 (l w : Nat) : RF := ⟨BL_DLY_at l w, 15, 0⟩
abbrev BL_EPOCH_at : Nat := 0x40009800
abbrev BL_EPOCH_EPOCH : RF := ⟨BL_EPOCH_at, 15, 0⟩
abbrev BL_PULSE_at (p : Nat) : Nat := 0x40009820 + p * 0x4
abbrev BL_PULSE_LEN (p : Nat) : RF := ⟨BL_PULSE_at p, 15, 0⟩
abbrev PAIR_CFG_at : Nat := 0x4000a000
abbrev PAIR_CFG_SEEKTMO : RF := ⟨PAIR_CFG_at, 31, 16⟩
abbrev PAIR_CFG_AGELIM : RF := ⟨PAIR_CFG_at, 15, 8⟩
abbrev PAIR_CFG_AUTOJOIN : RF := ⟨PAIR_CFG_at, 2, 2⟩
abbrev PAIR_CFG_STRICT : RF := ⟨PAIR_CFG_at, 1, 1⟩
abbrev PAIR_CFG_EN : RF := ⟨PAIR_CFG_at, 0, 0⟩
abbrev PAIR_CTRL_at : Nat := 0x4000a004
abbrev PAIR_CTRL_KEY : RF := ⟨PAIR_CTRL_at, 31, 16⟩
abbrev PAIR_CTRL_REJOIN : RF := ⟨PAIR_CTRL_at, 1, 1⟩
abbrev PAIR_CTRL_RESIGN : RF := ⟨PAIR_CTRL_at, 0, 0⟩
abbrev PAIR_STAT_at : Nat := 0x4000a008
abbrev PAIR_STAT_AGE : RF := ⟨PAIR_STAT_at, 31, 24⟩
abbrev PAIR_STAT_HBMISS : RF := ⟨PAIR_STAT_at, 23, 20⟩
abbrev PAIR_STAT_SIDE : RF := ⟨PAIR_STAT_at, 11, 11⟩
abbrev PAIR_STAT_READY : RF := ⟨PAIR_STAT_at, 10, 10⟩
abbrev PAIR_STAT_ALIVEIN : RF := ⟨PAIR_STAT_at, 9, 9⟩
abbrev PAIR_STAT_LINK : RF := ⟨PAIR_STAT_at, 8, 8⟩
abbrev PAIR_STAT_PROLE : RF := ⟨PAIR_STAT_at, 6, 4⟩
abbrev PAIR_STAT_ROLE : RF := ⟨PAIR_STAT_at, 2, 0⟩
abbrev PAIR_IRQ_STAT_at : Nat := 0x4000a00c
abbrev PAIR_IRQ_STAT_IMGMIS : RF := ⟨PAIR_IRQ_STAT_at, 9, 9⟩
abbrev PAIR_IRQ_STAT_LOCALWR : RF := ⟨PAIR_IRQ_STAT_at, 8, 8⟩
abbrev PAIR_IRQ_STAT_ALIGNERR : RF := ⟨PAIR_IRQ_STAT_at, 7, 7⟩
abbrev PAIR_IRQ_STAT_DEPOSED : RF := ⟨PAIR_IRQ_STAT_at, 6, 6⟩
abbrev PAIR_IRQ_STAT_DIVERGE : RF := ⟨PAIR_IRQ_STAT_at, 5, 5⟩
abbrev PAIR_IRQ_STAT_DESYNC : RF := ⟨PAIR_IRQ_STAT_at, 4, 4⟩
abbrev PAIR_IRQ_STAT_JOINED : RF := ⟨PAIR_IRQ_STAT_at, 3, 3⟩
abbrev PAIR_IRQ_STAT_PARTNERLOST : RF := ⟨PAIR_IRQ_STAT_at, 2, 2⟩
abbrev PAIR_IRQ_STAT_LINKDOWN : RF := ⟨PAIR_IRQ_STAT_at, 1, 1⟩
abbrev PAIR_IRQ_STAT_TAKEOVER : RF := ⟨PAIR_IRQ_STAT_at, 0, 0⟩
abbrev PAIR_LINKDLY_at : Nat := 0x4000a014
abbrev PAIR_LINKDLY_DLY : RF := ⟨PAIR_LINKDLY_at, 15, 0⟩
abbrev PAIR_TXQ_at : Nat := 0x4000a018
abbrev PAIR_TXQ_HIGH : RF := ⟨PAIR_TXQ_at, 31, 16⟩
abbrev PAIR_TXQ_LEVEL : RF := ⟨PAIR_TXQ_at, 15, 0⟩
abbrev PAIR_CNT_at : Nat := 0x4000a01c
abbrev PAIR_CNT_TAKEOVERS : RF := ⟨PAIR_CNT_at, 31, 24⟩
abbrev PAIR_CNT_JOINS : RF := ⟨PAIR_CNT_at, 23, 16⟩
abbrev PAIR_CNT_DESYNCS : RF := ⟨PAIR_CNT_at, 15, 8⟩
abbrev PAIR_CNT_TOLOST : RF := ⟨PAIR_CNT_at, 7, 0⟩
abbrev PAIR_CNT2_at : Nat := 0x4000a020
abbrev PAIR_CNT2_REFIX : RF := ⟨PAIR_CNT2_at, 31, 16⟩
abbrev PAIR_CNT2_CRCERR : RF := ⟨PAIR_CNT2_at, 15, 0⟩
abbrev PAIR_JOINPROG_at : Nat := 0x4000a024
abbrev PAIR_JOINPROG_BYTES : RF := ⟨PAIR_JOINPROG_at, 31, 0⟩
abbrev PAIR_IMGID_at : Nat := 0x4000a028
abbrev PAIR_IMGID_ID : RF := ⟨PAIR_IMGID_at, 31, 0⟩
abbrev PAIR_PEPOCH_at : Nat := 0x4000a02c
abbrev PAIR_PEPOCH_EPOCH : RF := ⟨PAIR_PEPOCH_at, 15, 0⟩
abbrev PAIR_IRQ_EN_at : Nat := 0x4000a010
abbrev PAIR_IRQ_EN_IMGMIS : RF := ⟨PAIR_IRQ_EN_at, 9, 9⟩
abbrev PAIR_IRQ_EN_LOCALWR : RF := ⟨PAIR_IRQ_EN_at, 8, 8⟩
abbrev PAIR_IRQ_EN_ALIGNERR : RF := ⟨PAIR_IRQ_EN_at, 7, 7⟩
abbrev PAIR_IRQ_EN_DEPOSED : RF := ⟨PAIR_IRQ_EN_at, 6, 6⟩
abbrev PAIR_IRQ_EN_DIVERGE : RF := ⟨PAIR_IRQ_EN_at, 5, 5⟩
abbrev PAIR_IRQ_EN_DESYNC : RF := ⟨PAIR_IRQ_EN_at, 4, 4⟩
abbrev PAIR_IRQ_EN_JOINED : RF := ⟨PAIR_IRQ_EN_at, 3, 3⟩
abbrev PAIR_IRQ_EN_PARTNERLOST : RF := ⟨PAIR_IRQ_EN_at, 2, 2⟩
abbrev PAIR_IRQ_EN_LINKDOWN : RF := ⟨PAIR_IRQ_EN_at, 1, 1⟩
abbrev PAIR_IRQ_EN_TAKEOVER : RF := ⟨PAIR_IRQ_EN_at, 0, 0⟩
abbrev PAIR_DIVERGE_at (w : Nat) : Nat := 0x4000a040 + w * 0x4
abbrev PAIR_DIVERGE_ENG (w : Nat) : RF := ⟨PAIR_DIVERGE_at w, 31, 0⟩
abbrev CFG_STAT_at : Nat := 0x4000b000
abbrev CFG_STAT_DONE : RF := ⟨CFG_STAT_at, 31, 31⟩
abbrev CFG_STAT_ERR : RF := ⟨CFG_STAT_at, 30, 30⟩
abbrev CFG_STAT_LOADING : RF := ⟨CFG_STAT_at, 29, 29⟩
abbrev CFG_STAT_ALT : RF := ⟨CFG_STAT_at, 28, 28⟩
abbrev CFG_STAT_HOLDING : RF := ⟨CFG_STAT_at, 27, 27⟩
abbrev CFG_STAT_LATEWR : RF := ⟨CFG_STAT_at, 26, 26⟩
abbrev CFG_STAT_MODE : RF := ⟨CFG_STAT_at, 22, 20⟩
abbrev CFG_STAT_ERRCODE : RF := ⟨CFG_STAT_at, 15, 8⟩
abbrev CFG_STAT_KEYSRC : RF := ⟨CFG_STAT_at, 2, 1⟩
abbrev CFG_STAT_SIGNED : RF := ⟨CFG_STAT_at, 0, 0⟩
abbrev CFG_CMD_at : Nat := 0x4000b004
abbrev CFG_CMD_KEY : RF := ⟨CFG_CMD_at, 31, 16⟩
abbrev CFG_CMD_RESTART : RF := ⟨CFG_CMD_at, 0, 0⟩
abbrev CFG_IRQ_STAT_at : Nat := 0x4000b008
abbrev CFG_IRQ_STAT_LCDONE : RF := ⟨CFG_IRQ_STAT_at, 3, 3⟩
abbrev CFG_IRQ_STAT_IOEN : RF := ⟨CFG_IRQ_STAT_at, 2, 2⟩
abbrev CFG_IRQ_STAT_ERR : RF := ⟨CFG_IRQ_STAT_at, 1, 1⟩
abbrev CFG_IRQ_STAT_DONE : RF := ⟨CFG_IRQ_STAT_at, 0, 0⟩
abbrev CFG_IMGID_at : Nat := 0x4000b010
abbrev CFG_IMGID_ID : RF := ⟨CFG_IMGID_at, 31, 0⟩
abbrev CFG_SECVER_at : Nat := 0x4000b014
abbrev CFG_SECVER_SECVER : RF := ⟨CFG_SECVER_at, 5, 0⟩
abbrev CFG_ERRPOS_at : Nat := 0x4000b018
abbrev CFG_ERRPOS_POS : RF := ⟨CFG_ERRPOS_at, 31, 0⟩
abbrev CFG_LOADTIME_at : Nat := 0x4000b01c
abbrev CFG_LOADTIME_US : RF := ⟨CFG_LOADTIME_at, 31, 0⟩
abbrev CFG_DEADLINE_at : Nat := 0x4000b020
abbrev CFG_DEADLINE_T10MS : RF := ⟨CFG_DEADLINE_at, 15, 0⟩
abbrev CFG_IMGCTL_at : Nat := 0x4000b024
abbrev CFG_IMGCTL_HOLDIO : RF := ⟨CFG_IMGCTL_at, 0, 0⟩
abbrev CFG_LC_at : Nat := 0x4000b028
abbrev CFG_LC_SVCMIN : RF := ⟨CFG_LC_at, 31, 16⟩
abbrev CFG_LC_TRIES : RF := ⟨CFG_LC_at, 5, 4⟩
abbrev CFG_LC_STATE : RF := ⟨CFG_LC_at, 2, 0⟩
abbrev CFG_LCCMD_at : Nat := 0x4000b02c
abbrev CFG_LCCMD_KEY : RF := ⟨CFG_LCCMD_at, 31, 16⟩
abbrev CFG_LCCMD_BUSY : RF := ⟨CFG_LCCMD_at, 15, 15⟩
abbrev CFG_LCCMD_RESULT : RF := ⟨CFG_LCCMD_at, 11, 8⟩
abbrev CFG_LCCMD_OP : RF := ⟨CFG_LCCMD_at, 3, 0⟩
abbrev CFG_FUSE_at : Nat := 0x4000b030
abbrev CFG_FUSE_MINVER : RF := ⟨CFG_FUSE_at, 21, 16⟩
abbrev CFG_FUSE_ALTBOOT : RF := ⟨CFG_FUSE_at, 4, 4⟩
abbrev CFG_FUSE_KEYRAMOK : RF := ⟨CFG_FUSE_at, 3, 3⟩
abbrev CFG_FUSE_AESKEY : RF := ⟨CFG_FUSE_at, 2, 2⟩
abbrev CFG_FUSE_SVCKEY : RF := ⟨CFG_FUSE_at, 1, 1⟩
abbrev CFG_FUSE_IMGKEY : RF := ⟨CFG_FUSE_at, 0, 0⟩
abbrev CFG_ACODE_at : Nat := 0x4000b034
abbrev CFG_ACODE_CODE : RF := ⟨CFG_ACODE_at, 7, 0⟩
abbrev CFG_IRQ_EN_at : Nat := 0x4000b00c
abbrev CFG_IRQ_EN_LCDONE : RF := ⟨CFG_IRQ_EN_at, 3, 3⟩
abbrev CFG_IRQ_EN_IOEN : RF := ⟨CFG_IRQ_EN_at, 2, 2⟩
abbrev CFG_IRQ_EN_ERR : RF := ⟨CFG_IRQ_EN_at, 1, 1⟩
abbrev CFG_IRQ_EN_DONE : RF := ⟨CFG_IRQ_EN_at, 0, 0⟩
abbrev CFG_SECENG_at (w : Nat) : Nat := 0x4000b040 + w * 0x4
abbrev CFG_SECENG_SECURE (w : Nat) : RF := ⟨CFG_SECENG_at w, 31, 0⟩
abbrev CFG_NONCE_at (i : Nat) : Nat := 0x4000b080 + i * 0x4
abbrev CFG_NONCE_NONCE (i : Nat) : RF := ⟨CFG_NONCE_at i, 31, 0⟩
abbrev CFG_UID_LO_at : Nat := 0x4000b0a0
abbrev CFG_UID_LO_UID : RF := ⟨CFG_UID_LO_at, 31, 0⟩
abbrev CFG_UID_HI_at : Nat := 0x4000b0a4
abbrev CFG_UID_HI_UID : RF := ⟨CFG_UID_HI_at, 31, 0⟩
abbrev CFG_ARG_at (i : Nat) : Nat := 0x4000b100 + i * 0x4
abbrev CFG_ARG_ARG (i : Nat) : RF := ⟨CFG_ARG_at i, 31, 0⟩
abbrev CFG_LOADWIN_at (i : Nat) : Nat := 0x4000b800 + i * 0x4
abbrev CFG_LOADWIN_DATA (i : Nat) : RF := ⟨CFG_LOADWIN_at i, 31, 0⟩
abbrev SCRUB_CFG_at : Nat := 0x4000c000
abbrev SCRUB_CFG_PASS : RF := ⟨SCRUB_CFG_at, 31, 16⟩
abbrev SCRUB_CFG_EN : RF := ⟨SCRUB_CFG_at, 0, 0⟩
abbrev SCRUB_STAT_at : Nat := 0x4000c004
abbrev SCRUB_STAT_RUNNING : RF := ⟨SCRUB_STAT_at, 31, 31⟩
abbrev SCRUB_STAT_UEKIND : RF := ⟨SCRUB_STAT_at, 0, 0⟩
abbrev SCRUB_IRQ_STAT_at : Nat := 0x4000c008
abbrev SCRUB_IRQ_STAT_HELD : RF := ⟨SCRUB_IRQ_STAT_at, 8, 8⟩
abbrev SCRUB_IRQ_STAT_RELOADFAIL : RF := ⟨SCRUB_IRQ_STAT_at, 7, 7⟩
abbrev SCRUB_IRQ_STAT_PRERR : RF := ⟨SCRUB_IRQ_STAT_at, 6, 6⟩
abbrev SCRUB_IRQ_STAT_PRDONE : RF := ⟨SCRUB_IRQ_STAT_at, 5, 5⟩
abbrev SCRUB_IRQ_STAT_VOTEFIX : RF := ⟨SCRUB_IRQ_STAT_at, 4, 4⟩
abbrev SCRUB_IRQ_STAT_PASSLATE : RF := ⟨SCRUB_IRQ_STAT_at, 3, 3⟩
abbrev SCRUB_IRQ_STAT_STATICUE : RF := ⟨SCRUB_IRQ_STAT_at, 2, 2⟩
abbrev SCRUB_IRQ_STAT_UE : RF := ⟨SCRUB_IRQ_STAT_at, 1, 1⟩
abbrev SCRUB_IRQ_STAT_CE : RF := ⟨SCRUB_IRQ_STAT_at, 0, 0⟩
abbrev SCRUB_CNT_at : Nat := 0x4000c010
abbrev SCRUB_CNT_CE : RF := ⟨SCRUB_CNT_at, 31, 16⟩
abbrev SCRUB_CNT_UE : RF := ⟨SCRUB_CNT_at, 15, 8⟩
abbrev SCRUB_CNT_VOTEFIX : RF := ⟨SCRUB_CNT_at, 7, 0⟩
abbrev SCRUB_UEADDR_at : Nat := 0x4000c014
abbrev SCRUB_UEADDR_ADDR : RF := ⟨SCRUB_UEADDR_at, 31, 0⟩
abbrev SCRUB_PASSTIME_at : Nat := 0x4000c018
abbrev SCRUB_PASSTIME_PASSES : RF := ⟨SCRUB_PASSTIME_at, 31, 16⟩
abbrev SCRUB_PASSTIME_LAST : RF := ⟨SCRUB_PASSTIME_at, 15, 0⟩
abbrev SCRUB_IRQ_EN_at : Nat := 0x4000c00c
abbrev SCRUB_IRQ_EN_HELD : RF := ⟨SCRUB_IRQ_EN_at, 8, 8⟩
abbrev SCRUB_IRQ_EN_RELOADFAIL : RF := ⟨SCRUB_IRQ_EN_at, 7, 7⟩
abbrev SCRUB_IRQ_EN_PRERR : RF := ⟨SCRUB_IRQ_EN_at, 6, 6⟩
abbrev SCRUB_IRQ_EN_PRDONE : RF := ⟨SCRUB_IRQ_EN_at, 5, 5⟩
abbrev SCRUB_IRQ_EN_VOTEFIX : RF := ⟨SCRUB_IRQ_EN_at, 4, 4⟩
abbrev SCRUB_IRQ_EN_PASSLATE : RF := ⟨SCRUB_IRQ_EN_at, 3, 3⟩
abbrev SCRUB_IRQ_EN_STATICUE : RF := ⟨SCRUB_IRQ_EN_at, 2, 2⟩
abbrev SCRUB_IRQ_EN_UE : RF := ⟨SCRUB_IRQ_EN_at, 1, 1⟩
abbrev SCRUB_IRQ_EN_CE : RF := ⟨SCRUB_IRQ_EN_at, 0, 0⟩
abbrev PR_CMD_at : Nat := 0x4000c020
abbrev PR_CMD_KEY : RF := ⟨PR_CMD_at, 31, 16⟩
abbrev PR_CMD_REGION : RF := ⟨PR_CMD_at, 12, 8⟩
abbrev PR_CMD_OP : RF := ⟨PR_CMD_at, 3, 0⟩
abbrev PR_STAT_at : Nat := 0x4000c024
abbrev PR_STAT_BUSY : RF := ⟨PR_STAT_at, 31, 31⟩
abbrev PR_STAT_SRC : RF := ⟨PR_STAT_at, 30, 30⟩
abbrev PR_STAT_DISCARD : RF := ⟨PR_STAT_at, 29, 29⟩
abbrev PR_STAT_BUSYWR : RF := ⟨PR_STAT_at, 28, 28⟩
abbrev PR_STAT_REGION : RF := ⟨PR_STAT_at, 12, 8⟩
abbrev PR_STAT_CODE : RF := ⟨PR_STAT_at, 7, 0⟩
abbrev PR_ERRPOS_at : Nat := 0x4000c028
abbrev PR_ERRPOS_POS : RF := ⟨PR_ERRPOS_at, 31, 0⟩
abbrev REG_DEF_at (r : Nat) : Nat := 0x4000c080 + r * 0x4
abbrev REG_DEF_EN (r : Nat) : RF := ⟨REG_DEF_at r, 31, 31⟩
abbrev REG_DEF_WHOLE (r : Nat) : RF := ⟨REG_DEF_at r, 30, 30⟩
abbrev REG_DEF_ESC (r : Nat) : RF := ⟨REG_DEF_at r, 29, 28⟩
abbrev REG_DEF_SHI (r : Nat) : RF := ⟨REG_DEF_at r, 27, 24⟩
abbrev REG_DEF_SLO (r : Nat) : RF := ⟨REG_DEF_at r, 23, 20⟩
abbrev REG_DEF_CHI (r : Nat) : RF := ⟨REG_DEF_at r, 19, 16⟩
abbrev REG_DEF_CLO (r : Nat) : RF := ⟨REG_DEF_at r, 15, 12⟩
abbrev REG_DEF_RETRY (r : Nat) : RF := ⟨REG_DEF_at r, 11, 10⟩
abbrev REG_SRC_at (r : Nat) : Nat := 0x4000c100 + r * 0x4
abbrev REG_SRC_OFFSET (r : Nat) : RF := ⟨REG_SRC_at r, 31, 12⟩
abbrev REG_STAT_at (r : Nat) : Nat := 0x4000c180 + r * 0x4
abbrev REG_STAT_HELD (r : Nat) : RF := ⟨REG_STAT_at r, 31, 31⟩
abbrev REG_STAT_LOADING (r : Nat) : RF := ⟨REG_STAT_at r, 30, 30⟩
abbrev REG_STAT_TRIES (r : Nat) : RF := ⟨REG_STAT_at r, 27, 24⟩
abbrev REG_STAT_CODE (r : Nat) : RF := ⟨REG_STAT_at r, 23, 16⟩
abbrev REG_STAT_ACODE (r : Nat) : RF := ⟨REG_STAT_at r, 15, 8⟩
abbrev REG_STAT_UE (r : Nat) : RF := ⟨REG_STAT_at r, 7, 0⟩
abbrev REG_PINOWN_at (w : Nat) : Nat := 0x4000c200 + w * 0x4
abbrev REG_PINOWN_V0 (w : Nat) : RF := ⟨REG_PINOWN_at w, 7, 7⟩
abbrev REG_PINOWN_REGION0 (w : Nat) : RF := ⟨REG_PINOWN_at w, 4, 0⟩
abbrev REG_PINOWN_V1 (w : Nat) : RF := ⟨REG_PINOWN_at w, 15, 15⟩
abbrev REG_PINOWN_REGION1 (w : Nat) : RF := ⟨REG_PINOWN_at w, 12, 8⟩
abbrev REG_PINOWN_V2 (w : Nat) : RF := ⟨REG_PINOWN_at w, 23, 23⟩
abbrev REG_PINOWN_REGION2 (w : Nat) : RF := ⟨REG_PINOWN_at w, 20, 16⟩
abbrev REG_PINOWN_V3 (w : Nat) : RF := ⟨REG_PINOWN_at w, 31, 31⟩
abbrev REG_PINOWN_REGION3 (w : Nat) : RF := ⟨REG_PINOWN_at w, 28, 24⟩
abbrev IST_CFG_at : Nat := 0x4000d000
abbrev IST_CFG_MAXPASS : RF := ⟨IST_CFG_at, 31, 16⟩
abbrev IST_CFG_LINKEN : RF := ⟨IST_CFG_at, 4, 4⟩
abbrev IST_CFG_ANAEN : RF := ⟨IST_CFG_at, 3, 3⟩
abbrev IST_CFG_TRAMEN : RF := ⟨IST_CFG_at, 2, 2⟩
abbrev IST_CFG_SPEN : RF := ⟨IST_CFG_at, 1, 1⟩
abbrev IST_CFG_ENGEN : RF := ⟨IST_CFG_at, 0, 0⟩
abbrev IST_STAT_at : Nat := 0x4000d004
abbrev IST_STAT_PASSES : RF := ⟨IST_STAT_at, 31, 16⟩
abbrev IST_STAT_FCAP : RF := ⟨IST_STAT_at, 8, 8⟩
abbrev IST_STAT_STARVED : RF := ⟨IST_STAT_at, 7, 0⟩
abbrev IST_IRQ_STAT_at : Nat := 0x4000d008
abbrev IST_IRQ_STAT_STARVED : RF := ⟨IST_IRQ_STAT_at, 2, 2⟩
abbrev IST_IRQ_STAT_PASS : RF := ⟨IST_IRQ_STAT_at, 1, 1⟩
abbrev IST_IRQ_STAT_FAULT : RF := ⟨IST_IRQ_STAT_at, 0, 0⟩
abbrev IST_ACTION_at : Nat := 0x4000d010
abbrev IST_ACTION_ACT : RF := ⟨IST_ACTION_at, 15, 0⟩
abbrev IST_LIM_at : Nat := 0x4000d014
abbrev IST_LIM_DACLIM : RF := ⟨IST_LIM_at, 31, 24⟩
abbrev IST_LIM_THRLIM : RF := ⟨IST_LIM_at, 23, 16⟩
abbrev IST_LIM_SHORTLIM : RF := ⟨IST_LIM_at, 15, 8⟩
abbrev IST_LINKLIM_at : Nat := 0x4000d018
abbrev IST_LINKLIM_LIMIT : RF := ⟨IST_LINKLIM_at, 15, 0⟩
abbrev IST_FKIND_at : Nat := 0x4000d020
abbrev IST_FKIND_KIND : RF := ⟨IST_FKIND_at, 27, 24⟩
abbrev IST_FKIND_UNIT : RF := ⟨IST_FKIND_at, 15, 0⟩
abbrev IST_FADDR_at : Nat := 0x4000d024
abbrev IST_FADDR_ADDR : RF := ⟨IST_FADDR_at, 31, 0⟩
abbrev IST_FDATA_at : Nat := 0x4000d028
abbrev IST_FDATA_DATA : RF := ⟨IST_FDATA_at, 31, 0⟩
abbrev IST_CNT_at : Nat := 0x4000d030
abbrev IST_CNT_FAULTS : RF := ⟨IST_CNT_at, 31, 16⟩
abbrev IST_CNT_ABANDONS : RF := ⟨IST_CNT_at, 15, 0⟩
abbrev IST_IRQ_EN_at : Nat := 0x4000d00c
abbrev IST_IRQ_EN_STARVED : RF := ⟨IST_IRQ_EN_at, 2, 2⟩
abbrev IST_IRQ_EN_PASS : RF := ⟨IST_IRQ_EN_at, 1, 1⟩
abbrev IST_IRQ_EN_FAULT : RF := ⟨IST_IRQ_EN_at, 0, 0⟩
abbrev SAFE_STAT_at : Nat := 0x4000e000
abbrev SAFE_STAT_TRIPPED : RF := ⟨SAFE_STAT_at, 31, 31⟩
abbrev SAFE_STAT_DEVCLASS : RF := ⟨SAFE_STAT_at, 30, 30⟩
abbrev SAFE_STAT_FIT : RF := ⟨SAFE_STAT_at, 29, 29⟩
abbrev SAFE_STAT_ERROUT : RF := ⟨SAFE_STAT_at, 28, 28⟩
abbrev SAFE_STAT_HANDOVER : RF := ⟨SAFE_STAT_at, 27, 27⟩
abbrev SAFE_STAT_RELREF : RF := ⟨SAFE_STAT_at, 26, 26⟩
abbrev SAFE_STAT_LOCKED : RF := ⟨SAFE_STAT_at, 25, 25⟩
abbrev SAFE_STAT_ACTIVE : RF := ⟨SAFE_STAT_at, 13, 0⟩
abbrev SAFE_CAUSE_at : Nat := 0x4000e004
abbrev SAFE_CAUSE_CAUSE : RF := ⟨SAFE_CAUSE_at, 13, 0⟩
abbrev SAFE_SRCEN_at : Nat := 0x4000e008
abbrev SAFE_SRCEN_EN : RF := ⟨SAFE_SRCEN_at, 13, 0⟩
abbrev SAFE_CTRL_at : Nat := 0x4000e00c
abbrev SAFE_CTRL_KEY : RF := ⟨SAFE_CTRL_at, 31, 16⟩
abbrev SAFE_CTRL_LOCK : RF := ⟨SAFE_CTRL_at, 3, 3⟩
abbrev SAFE_CTRL_FORCE : RF := ⟨SAFE_CTRL_at, 2, 2⟩
abbrev SAFE_CTRL_RELEASE : RF := ⟨SAFE_CTRL_at, 1, 1⟩
abbrev SAFE_CTRL_TRIP : RF := ⟨SAFE_CTRL_at, 0, 0⟩
abbrev SAFE_CFG_at : Nat := 0x4000e010
abbrev SAFE_CFG_ERRFORCE : RF := ⟨SAFE_CFG_at, 2, 2⟩
abbrev SAFE_CFG_HANDOVER : RF := ⟨SAFE_CFG_at, 1, 1⟩
abbrev SAFE_IRQ_STAT_at : Nat := 0x4000e014
abbrev SAFE_IRQ_STAT_RELEASED : RF := ⟨SAFE_IRQ_STAT_at, 4, 4⟩
abbrev SAFE_IRQ_STAT_TAMPER : RF := ⟨SAFE_IRQ_STAT_at, 3, 3⟩
abbrev SAFE_IRQ_STAT_FREC : RF := ⟨SAFE_IRQ_STAT_at, 2, 2⟩
abbrev SAFE_IRQ_STAT_TRIP : RF := ⟨SAFE_IRQ_STAT_at, 1, 1⟩
abbrev SAFE_IRQ_STAT_WDWARN : RF := ⟨SAFE_IRQ_STAT_at, 0, 0⟩
abbrev SAFE_WDCFG_at : Nat := 0x4000e020
abbrev SAFE_WDCFG_MAX : RF := ⟨SAFE_WDCFG_at, 31, 16⟩
abbrev SAFE_WDCFG_MIN : RF := ⟨SAFE_WDCFG_at, 15, 8⟩
abbrev SAFE_WDCFG_ACTION : RF := ⟨SAFE_WDCFG_at, 2, 1⟩
abbrev SAFE_WDCFG_EN : RF := ⟨SAFE_WDCFG_at, 0, 0⟩
abbrev SAFE_WDKICK_at : Nat := 0x4000e024
abbrev SAFE_WDKICK_KICK : RF := ⟨SAFE_WDKICK_at, 15, 0⟩
abbrev SAFE_WDSTAT_at : Nat := 0x4000e028
abbrev SAFE_WDSTAT_NEXT : RF := ⟨SAFE_WDSTAT_at, 31, 16⟩
abbrev SAFE_WDSTAT_ELAPSED : RF := ⟨SAFE_WDSTAT_at, 15, 0⟩
abbrev SAFE_TICKWD_at : Nat := 0x4000e02c
abbrev SAFE_TICKWD_EN : RF := ⟨SAFE_TICKWD_at, 31, 31⟩
abbrev SAFE_TICKWD_US : RF := ⟨SAFE_TICKWD_at, 15, 0⟩
abbrev SAFE_TRIPCFG_at : Nat := 0x4000e038
abbrev SAFE_TRIPCFG_CF : RF := ⟨SAFE_TRIPCFG_at, 11, 8⟩
abbrev SAFE_TRIPCFG_INFILT : RF := ⟨SAFE_TRIPCFG_at, 7, 4⟩
abbrev SAFE_TAMPCFG_at : Nat := 0x4000e040
abbrev SAFE_TAMPCFG_TAMPCLASS : RF := ⟨SAFE_TAMPCFG_at, 8, 7⟩
abbrev SAFE_TAMPCFG_TEMPEN : RF := ⟨SAFE_TAMPCFG_at, 6, 6⟩
abbrev SAFE_TAMPCFG_CLKEN : RF := ⟨SAFE_TAMPCFG_at, 5, 5⟩
abbrev SAFE_TAMPCFG_VBATEN : RF := ⟨SAFE_TAMPCFG_at, 4, 4⟩
abbrev SAFE_TAMPCFG_TPOL : RF := ⟨SAFE_TAMPCFG_at, 3, 2⟩
abbrev SAFE_TAMPCFG_TEN : RF := ⟨SAFE_TAMPCFG_at, 1, 0⟩
abbrev SAFE_TAMPSTAT_at : Nat := 0x4000e044
abbrev SAFE_TAMPSTAT_EVT : RF := ⟨SAFE_TAMPSTAT_at, 5, 0⟩
abbrev SAFE_RTCSEC_at : Nat := 0x4000e048
abbrev SAFE_RTCSEC_SEC : RF := ⟨SAFE_RTCSEC_at, 31, 0⟩
abbrev SAFE_RSTCAUSE_at : Nat := 0x4000e04c
abbrev SAFE_RSTCAUSE_CAUSE : RF := ⟨SAFE_RSTCAUSE_at, 2, 0⟩
abbrev SAFE_FRSTAT_at : Nat := 0x4000e050
abbrev SAFE_FRSTAT_COUNT : RF := ⟨SAFE_FRSTAT_at, 8, 4⟩
abbrev SAFE_FRSTAT_NEWEST : RF := ⟨SAFE_FRSTAT_at, 3, 0⟩
abbrev SAFE_IRQ_EN_at : Nat := 0x4000e018
abbrev SAFE_IRQ_EN_RELEASED : RF := ⟨SAFE_IRQ_EN_at, 4, 4⟩
abbrev SAFE_IRQ_EN_TAMPER : RF := ⟨SAFE_IRQ_EN_at, 3, 3⟩
abbrev SAFE_IRQ_EN_FREC : RF := ⟨SAFE_IRQ_EN_at, 2, 2⟩
abbrev SAFE_IRQ_EN_TRIP : RF := ⟨SAFE_IRQ_EN_at, 1, 1⟩
abbrev SAFE_IRQ_EN_WDWARN : RF := ⟨SAFE_IRQ_EN_at, 0, 0⟩
abbrev SAFE_CMPTRIP_at (i : Nat) : Nat := 0x4000e030 + i * 0x4
abbrev SAFE_CMPTRIP_MASK (i : Nat) : RF := ⟨SAFE_CMPTRIP_at i, 31, 0⟩
abbrev SAFE_FREC_at (e w : Nat) : Nat := 0x4000e800 + e * 0x20 + w * 0x4
abbrev SAFE_FREC_DATA (e w : Nat) : RF := ⟨SAFE_FREC_at e w, 31, 0⟩
abbrev SILLAGE_CFG_at : Nat := 0x40013000
abbrev SILLAGE_CFG_POST : RF := ⟨SILLAGE_CFG_at, 31, 16⟩
abbrev SILLAGE_CFG_TRIG : RF := ⟨SILLAGE_CFG_at, 11, 9⟩
abbrev SILLAGE_CFG_STOP : RF := ⟨SILLAGE_CFG_at, 8, 8⟩
abbrev SILLAGE_CFG_SRCEN : RF := ⟨SILLAGE_CFG_at, 7, 0⟩
abbrev SILLAGE_STAT_at : Nat := 0x40013004
abbrev SILLAGE_STAT_FROZEN : RF := ⟨SILLAGE_STAT_at, 31, 31⟩
abbrev SILLAGE_STAT_TRIGGERED : RF := ⟨SILLAGE_STAT_at, 30, 30⟩
abbrev SILLAGE_STAT_LAP : RF := ⟨SILLAGE_STAT_at, 29, 16⟩
abbrev SILLAGE_STAT_WPTR : RF := ⟨SILLAGE_STAT_at, 14, 0⟩
abbrev SILLAGE_CTRL_at : Nat := 0x40013008
abbrev SILLAGE_CTRL_CLEAR : RF := ⟨SILLAGE_CTRL_at, 2, 2⟩
abbrev SILLAGE_CTRL_RESUME : RF := ⟨SILLAGE_CTRL_at, 1, 1⟩
abbrev SILLAGE_CTRL_FREEZE : RF := ⟨SILLAGE_CTRL_at, 0, 0⟩
abbrev SILLAGE_MARK_at : Nat := 0x4001300c
abbrev SILLAGE_MARK_DATA : RF := ⟨SILLAGE_MARK_at, 31, 0⟩
abbrev SILLAGE_IRQ_STAT_at : Nat := 0x40013010
abbrev SILLAGE_IRQ_STAT_LOST : RF := ⟨SILLAGE_IRQ_STAT_at, 1, 1⟩
abbrev SILLAGE_IRQ_STAT_FROZEN : RF := ⟨SILLAGE_IRQ_STAT_at, 0, 0⟩
abbrev SILLAGE_CNT_at : Nat := 0x40013018
abbrev SILLAGE_CNT_LOST : RF := ⟨SILLAGE_CNT_at, 31, 16⟩
abbrev SILLAGE_CNT_SKIPPED : RF := ⟨SILLAGE_CNT_at, 15, 0⟩
abbrev SILLAGE_PREV_at : Nat := 0x4001301c
abbrev SILLAGE_PREV_VALID : RF := ⟨SILLAGE_PREV_at, 31, 31⟩
abbrev SILLAGE_PREV_STAT : RF := ⟨SILLAGE_PREV_at, 29, 0⟩
abbrev SILLAGE_IRQ_EN_at : Nat := 0x40013014
abbrev SILLAGE_IRQ_EN_LOST : RF := ⟨SILLAGE_IRQ_EN_at, 1, 1⟩
abbrev SILLAGE_IRQ_EN_FROZEN : RF := ⟨SILLAGE_IRQ_EN_at, 0, 0⟩
abbrev PCIE_STAT_at : Nat := 0x40010000
abbrev PCIE_STAT_D3 : RF := ⟨PCIE_STAT_at, 8, 8⟩
abbrev PCIE_STAT_LINKUP : RF := ⟨PCIE_STAT_at, 7, 7⟩
abbrev PCIE_STAT_GEN2 : RF := ⟨PCIE_STAT_at, 6, 6⟩
abbrev PCIE_STAT_BME : RF := ⟨PCIE_STAT_at, 5, 5⟩
abbrev PCIE_STAT_MSIEN : RF := ⟨PCIE_STAT_at, 4, 4⟩
abbrev PCIE_STAT_MSIGRANT : RF := ⟨PCIE_STAT_at, 3, 1⟩
abbrev PCIE_STAT_LOADER : RF := ⟨PCIE_STAT_at, 0, 0⟩
abbrev PCIE_IRQ_STAT_at : Nat := 0x40010004
abbrev PCIE_IRQ_STAT_POISON : RF := ⟨PCIE_IRQ_STAT_at, 2, 2⟩
abbrev PCIE_IRQ_STAT_PERST : RF := ⟨PCIE_IRQ_STAT_at, 1, 1⟩
abbrev PCIE_IRQ_STAT_LINKDOWN : RF := ⟨PCIE_IRQ_STAT_at, 0, 0⟩
abbrev PCIE_CNT_at : Nat := 0x4001000c
abbrev PCIE_CNT_POISONED : RF := ⟨PCIE_CNT_at, 31, 16⟩
abbrev PCIE_CNT_UR : RF := ⟨PCIE_CNT_at, 15, 0⟩
abbrev PCIE_IRQ_EN_at : Nat := 0x40010008
abbrev PCIE_IRQ_EN_POISON : RF := ⟨PCIE_IRQ_EN_at, 2, 2⟩
abbrev PCIE_IRQ_EN_PERST : RF := ⟨PCIE_IRQ_EN_at, 1, 1⟩
abbrev PCIE_IRQ_EN_LINKDOWN : RF := ⟨PCIE_IRQ_EN_at, 0, 0⟩
abbrev PCIE_WIN_at (k : Nat) : Nat := 0x40010040 + k * 0x4
abbrev PCIE_WIN_BASE (k : Nat) : RF := ⟨PCIE_WIN_at k, 31, 22⟩
abbrev CAN_CFG_at (m : Nat) : Nat := 0x4000f000 + m * 0x200
abbrev CAN_CFG_TDCEN (m : Nat) : RF := ⟨CAN_CFG_at m, 6, 6⟩
abbrev CAN_CFG_AUTOREC (m : Nat) : RF := ⟨CAN_CFG_at m, 5, 5⟩
abbrev CAN_CFG_ONESHOT (m : Nat) : RF := ⟨CAN_CFG_at m, 4, 4⟩
abbrev CAN_CFG_FDEN (m : Nat) : RF := ⟨CAN_CFG_at m, 3, 3⟩
abbrev CAN_CFG_LOOP (m : Nat) : RF := ⟨CAN_CFG_at m, 2, 2⟩
abbrev CAN_CFG_LISTEN (m : Nat) : RF := ⟨CAN_CFG_at m, 1, 1⟩
abbrev CAN_CFG_EN (m : Nat) : RF := ⟨CAN_CFG_at m, 0, 0⟩
abbrev CAN_NBT_at (m : Nat) : Nat := 0x4000f004 + m * 0x200
abbrev CAN_NBT_NSJW (m : Nat) : RF := ⟨CAN_NBT_at m, 29, 23⟩
abbrev CAN_NBT_NTSEG2 (m : Nat) : RF := ⟨CAN_NBT_at m, 22, 16⟩
abbrev CAN_NBT_NTSEG1 (m : Nat) : RF := ⟨CAN_NBT_at m, 15, 8⟩
abbrev CAN_NBT_NBRP (m : Nat) : RF := ⟨CAN_NBT_at m, 7, 0⟩
abbrev CAN_DBT_at (m : Nat) : Nat := 0x4000f008 + m * 0x200
abbrev CAN_DBT_TDCO (m : Nat) : RF := ⟨CAN_DBT_at m, 30, 24⟩
abbrev CAN_DBT_DSJW (m : Nat) : RF := ⟨CAN_DBT_at m, 23, 20⟩
abbrev CAN_DBT_DTSEG2 (m : Nat) : RF := ⟨CAN_DBT_at m, 19, 16⟩
abbrev CAN_DBT_DTSEG1 (m : Nat) : RF := ⟨CAN_DBT_at m, 12, 8⟩
abbrev CAN_DBT_DBRP (m : Nat) : RF := ⟨CAN_DBT_at m, 4, 0⟩
abbrev CAN_STAT_at (m : Nat) : Nat := 0x4000f00c + m * 0x200
abbrev CAN_STAT_TEC (m : Nat) : RF := ⟨CAN_STAT_at m, 31, 24⟩
abbrev CAN_STAT_REC (m : Nat) : RF := ⟨CAN_STAT_at m, 23, 16⟩
abbrev CAN_STAT_RXLEVEL (m : Nat) : RF := ⟨CAN_STAT_at m, 13, 8⟩
abbrev CAN_STAT_TXPEND (m : Nat) : RF := ⟨CAN_STAT_at m, 7, 4⟩
abbrev CAN_STAT_STATE (m : Nat) : RF := ⟨CAN_STAT_at m, 1, 0⟩
abbrev CAN_IRQ_STAT_at (m : Nat) : Nat := 0x4000f010 + m * 0x200
abbrev CAN_IRQ_STAT_BUSOFF (m : Nat) : RF := ⟨CAN_IRQ_STAT_at m, 6, 6⟩
abbrev CAN_IRQ_STAT_PASSIVE (m : Nat) : RF := ⟨CAN_IRQ_STAT_at m, 5, 5⟩
abbrev CAN_IRQ_STAT_RXOVF (m : Nat) : RF := ⟨CAN_IRQ_STAT_at m, 4, 4⟩
abbrev CAN_IRQ_STAT_TXOVF (m : Nat) : RF := ⟨CAN_IRQ_STAT_at m, 3, 3⟩
abbrev CAN_IRQ_STAT_ERR (m : Nat) : RF := ⟨CAN_IRQ_STAT_at m, 2, 2⟩
abbrev CAN_IRQ_STAT_TXDONE (m : Nat) : RF := ⟨CAN_IRQ_STAT_at m, 1, 1⟩
abbrev CAN_IRQ_STAT_RX (m : Nat) : RF := ⟨CAN_IRQ_STAT_at m, 0, 0⟩
abbrev CAN_IRQ_EN_at (m : Nat) : Nat := 0x4000f014 + m * 0x200
abbrev CAN_IRQ_EN_BUSOFF (m : Nat) : RF := ⟨CAN_IRQ_EN_at m, 6, 6⟩
abbrev CAN_IRQ_EN_PASSIVE (m : Nat) : RF := ⟨CAN_IRQ_EN_at m, 5, 5⟩
abbrev CAN_IRQ_EN_RXOVF (m : Nat) : RF := ⟨CAN_IRQ_EN_at m, 4, 4⟩
abbrev CAN_IRQ_EN_TXOVF (m : Nat) : RF := ⟨CAN_IRQ_EN_at m, 3, 3⟩
abbrev CAN_IRQ_EN_ERR (m : Nat) : RF := ⟨CAN_IRQ_EN_at m, 2, 2⟩
abbrev CAN_IRQ_EN_TXDONE (m : Nat) : RF := ⟨CAN_IRQ_EN_at m, 1, 1⟩
abbrev CAN_IRQ_EN_RX (m : Nat) : RF := ⟨CAN_IRQ_EN_at m, 0, 0⟩
abbrev CAN_CMD_at (m : Nat) : Nat := 0x4000f018 + m * 0x200
abbrev CAN_CMD_POP (m : Nat) : RF := ⟨CAN_CMD_at m, 3, 3⟩
abbrev CAN_CMD_RECOVER (m : Nat) : RF := ⟨CAN_CMD_at m, 2, 2⟩
abbrev CAN_CMD_ABORT (m : Nat) : RF := ⟨CAN_CMD_at m, 1, 1⟩
abbrev CAN_CMD_PUSH (m : Nat) : RF := ⟨CAN_CMD_at m, 0, 0⟩
abbrev CAN_CNT_at (m : Nat) : Nat := 0x4000f01c + m * 0x200
abbrev CAN_CNT_RXOVFS (m : Nat) : RF := ⟨CAN_CNT_at m, 31, 16⟩
abbrev CAN_CNT_ERRFRAMES (m : Nat) : RF := ⟨CAN_CNT_at m, 15, 0⟩
abbrev CAN_FILT_at (m f : Nat) : Nat := 0x4000f040 + m * 0x200 + f * 0x8
abbrev CAN_FILT_EN (m f : Nat) : RF := ⟨CAN_FILT_at m f, 31, 31⟩
abbrev CAN_FILT_XTD (m f : Nat) : RF := ⟨CAN_FILT_at m f, 30, 30⟩
abbrev CAN_FILT_ID (m f : Nat) : RF := ⟨CAN_FILT_at m f, 28, 0⟩
abbrev CAN_MASK_at (m f : Nat) : Nat := 0x4000f044 + m * 0x200 + f * 0x8
abbrev CAN_MASK_MASK (m f : Nat) : RF := ⟨CAN_MASK_at m f, 28, 0⟩
abbrev CAN_TXID_at (m : Nat) : Nat := 0x4000f100 + m * 0x200
abbrev CAN_TXID_XTD (m : Nat) : RF := ⟨CAN_TXID_at m, 31, 31⟩
abbrev CAN_TXID_RTR (m : Nat) : RF := ⟨CAN_TXID_at m, 30, 30⟩
abbrev CAN_TXID_ESI (m : Nat) : RF := ⟨CAN_TXID_at m, 29, 29⟩
abbrev CAN_TXID_ID (m : Nat) : RF := ⟨CAN_TXID_at m, 28, 0⟩
abbrev CAN_TXCTRL_at (m : Nat) : Nat := 0x4000f104 + m * 0x200
abbrev CAN_TXCTRL_VALID (m : Nat) : RF := ⟨CAN_TXCTRL_at m, 31, 31⟩
abbrev CAN_TXCTRL_FILTER (m : Nat) : RF := ⟨CAN_TXCTRL_at m, 12, 8⟩
abbrev CAN_TXCTRL_BRS (m : Nat) : RF := ⟨CAN_TXCTRL_at m, 5, 5⟩
abbrev CAN_TXCTRL_FDF (m : Nat) : RF := ⟨CAN_TXCTRL_at m, 4, 4⟩
abbrev CAN_TXCTRL_DLC (m : Nat) : RF := ⟨CAN_TXCTRL_at m, 3, 0⟩
abbrev CAN_TXDATA_at (m w : Nat) : Nat := 0x4000f108 + m * 0x200 + w * 0x4
abbrev CAN_TXDATA_DATA (m w : Nat) : RF := ⟨CAN_TXDATA_at m w, 31, 0⟩
abbrev CAN_RXID_at (m : Nat) : Nat := 0x4000f180 + m * 0x200
abbrev CAN_RXID_XTD (m : Nat) : RF := ⟨CAN_RXID_at m, 31, 31⟩
abbrev CAN_RXID_RTR (m : Nat) : RF := ⟨CAN_RXID_at m, 30, 30⟩
abbrev CAN_RXID_ESI (m : Nat) : RF := ⟨CAN_RXID_at m, 29, 29⟩
abbrev CAN_RXID_ID (m : Nat) : RF := ⟨CAN_RXID_at m, 28, 0⟩
abbrev CAN_RXCTRL_at (m : Nat) : Nat := 0x4000f184 + m * 0x200
abbrev CAN_RXCTRL_VALID (m : Nat) : RF := ⟨CAN_RXCTRL_at m, 31, 31⟩
abbrev CAN_RXCTRL_FILTER (m : Nat) : RF := ⟨CAN_RXCTRL_at m, 12, 8⟩
abbrev CAN_RXCTRL_BRS (m : Nat) : RF := ⟨CAN_RXCTRL_at m, 5, 5⟩
abbrev CAN_RXCTRL_FDF (m : Nat) : RF := ⟨CAN_RXCTRL_at m, 4, 4⟩
abbrev CAN_RXCTRL_DLC (m : Nat) : RF := ⟨CAN_RXCTRL_at m, 3, 0⟩
abbrev CAN_RXTIME_at (m : Nat) : Nat := 0x4000f188 + m * 0x200
abbrev CAN_RXTIME_TIME (m : Nat) : RF := ⟨CAN_RXTIME_at m, 31, 0⟩
abbrev CAN_RXDATA_at (m w : Nat) : Nat := 0x4000f18c + m * 0x200 + w * 0x4
abbrev CAN_RXDATA_DATA (m w : Nat) : RF := ⟨CAN_RXDATA_at m w, 31, 0⟩
abbrev SPI_CFG_at (m : Nat) : Nat := 0x4000f800 + m * 0x40
abbrev SPI_CFG_EN (m : Nat) : RF := ⟨SPI_CFG_at m, 31, 31⟩
abbrev SPI_CFG_SLAVE (m : Nat) : RF := ⟨SPI_CFG_at m, 30, 30⟩
abbrev SPI_CFG_LSBF (m : Nat) : RF := ⟨SPI_CFG_at m, 29, 29⟩
abbrev SPI_CFG_MODE (m : Nat) : RF := ⟨SPI_CFG_at m, 28, 27⟩
abbrev SPI_CFG_HOLD (m : Nat) : RF := ⟨SPI_CFG_at m, 26, 26⟩
abbrev SPI_CFG_CSEL (m : Nat) : RF := ⟨SPI_CFG_at m, 25, 24⟩
abbrev SPI_CFG_LEN (m : Nat) : RF := ⟨SPI_CFG_at m, 23, 19⟩
abbrev SPI_CFG_SDLY (m : Nat) : RF := ⟨SPI_CFG_at m, 18, 16⟩
abbrev SPI_CFG_DIV (m : Nat) : RF := ⟨SPI_CFG_at m, 7, 0⟩
abbrev SPI_TX_at (m : Nat) : Nat := 0x4000f804 + m * 0x40
abbrev SPI_TX_DATA (m : Nat) : RF := ⟨SPI_TX_at m, 31, 0⟩
abbrev SPI_RX_at (m : Nat) : Nat := 0x4000f808 + m * 0x40
abbrev SPI_RX_DATA (m : Nat) : RF := ⟨SPI_RX_at m, 31, 0⟩
abbrev SPI_STAT_at (m : Nat) : Nat := 0x4000f80c + m * 0x40
abbrev SPI_STAT_TXLEVEL (m : Nat) : RF := ⟨SPI_STAT_at m, 19, 16⟩
abbrev SPI_STAT_RXLEVEL (m : Nat) : RF := ⟨SPI_STAT_at m, 11, 8⟩
abbrev SPI_STAT_RXNE (m : Nat) : RF := ⟨SPI_STAT_at m, 5, 5⟩
abbrev SPI_STAT_DONE (m : Nat) : RF := ⟨SPI_STAT_at m, 4, 4⟩
abbrev SPI_STAT_BUSY (m : Nat) : RF := ⟨SPI_STAT_at m, 3, 3⟩
abbrev SPI_STAT_UNDERRUN (m : Nat) : RF := ⟨SPI_STAT_at m, 2, 2⟩
abbrev SPI_STAT_RXOVF (m : Nat) : RF := ⟨SPI_STAT_at m, 1, 1⟩
abbrev SPI_STAT_TXOVF (m : Nat) : RF := ⟨SPI_STAT_at m, 0, 0⟩
abbrev SPI_IRQ_EN_at (m : Nat) : Nat := 0x4000f810 + m * 0x40
abbrev SPI_IRQ_EN_DONE (m : Nat) : RF := ⟨SPI_IRQ_EN_at m, 4, 4⟩
abbrev SPI_IRQ_EN_UNDERRUN (m : Nat) : RF := ⟨SPI_IRQ_EN_at m, 2, 2⟩
abbrev SPI_IRQ_EN_RXOVF (m : Nat) : RF := ⟨SPI_IRQ_EN_at m, 1, 1⟩
abbrev SPI_IRQ_EN_TXOVF (m : Nat) : RF := ⟨SPI_IRQ_EN_at m, 0, 0⟩
abbrev I2C_CFG_at (m : Nat) : Nat := 0x4000fc00 + m * 0x40
abbrev I2C_CFG_EN (m : Nat) : RF := ⟨I2C_CFG_at m, 31, 31⟩
abbrev I2C_CFG_THIGH (m : Nat) : RF := ⟨I2C_CFG_at m, 27, 16⟩
abbrev I2C_CFG_TLOW (m : Nat) : RF := ⟨I2C_CFG_at m, 11, 0⟩
abbrev I2C_CMD_at (m : Nat) : Nat := 0x4000fc04 + m * 0x40
abbrev I2C_CMD_START (m : Nat) : RF := ⟨I2C_CMD_at m, 10, 10⟩
abbrev I2C_CMD_OP (m : Nat) : RF := ⟨I2C_CMD_at m, 9, 8⟩
abbrev I2C_CMD_DATA (m : Nat) : RF := ⟨I2C_CMD_at m, 7, 0⟩
abbrev I2C_RX_at (m : Nat) : Nat := 0x4000fc08 + m * 0x40
abbrev I2C_RX_DATA (m : Nat) : RF := ⟨I2C_RX_at m, 7, 0⟩
abbrev I2C_STAT_at (m : Nat) : Nat := 0x4000fc0c + m * 0x40
abbrev I2C_STAT_CMDLEVEL (m : Nat) : RF := ⟨I2C_STAT_at m, 20, 16⟩
abbrev I2C_STAT_RXLEVEL (m : Nat) : RF := ⟨I2C_STAT_at m, 12, 8⟩
abbrev I2C_STAT_BUSY (m : Nat) : RF := ⟨I2C_STAT_at m, 4, 4⟩
abbrev I2C_STAT_TIMEOUT (m : Nat) : RF := ⟨I2C_STAT_at m, 3, 3⟩
abbrev I2C_STAT_ARBLOST (m : Nat) : RF := ⟨I2C_STAT_at m, 2, 2⟩
abbrev I2C_STAT_NACK (m : Nat) : RF := ⟨I2C_STAT_at m, 1, 1⟩
abbrev I2C_STAT_DONE (m : Nat) : RF := ⟨I2C_STAT_at m, 0, 0⟩
abbrev I2C_IRQ_EN_at (m : Nat) : Nat := 0x4000fc10 + m * 0x40
abbrev I2C_IRQ_EN_TIMEOUT (m : Nat) : RF := ⟨I2C_IRQ_EN_at m, 3, 3⟩
abbrev I2C_IRQ_EN_ARBLOST (m : Nat) : RF := ⟨I2C_IRQ_EN_at m, 2, 2⟩
abbrev I2C_IRQ_EN_NACK (m : Nat) : RF := ⟨I2C_IRQ_EN_at m, 1, 1⟩
abbrev I2C_IRQ_EN_DONE (m : Nat) : RF := ⟨I2C_IRQ_EN_at m, 0, 0⟩
abbrev UART_CFG_at (m : Nat) : Nat := 0x4000fe00 + m * 0x40
abbrev UART_CFG_EN (m : Nat) : RF := ⟨UART_CFG_at m, 31, 31⟩
abbrev UART_CFG_RS485 (m : Nat) : RF := ⟨UART_CFG_at m, 30, 30⟩
abbrev UART_CFG_FLOW (m : Nat) : RF := ⟨UART_CFG_at m, 29, 29⟩
abbrev UART_CFG_STOP2 (m : Nat) : RF := ⟨UART_CFG_at m, 28, 28⟩
abbrev UART_CFG_PARITY (m : Nat) : RF := ⟨UART_CFG_at m, 27, 26⟩
abbrev UART_CFG_BITS (m : Nat) : RF := ⟨UART_CFG_at m, 25, 24⟩
abbrev UART_CFG_FRAC (m : Nat) : RF := ⟨UART_CFG_at m, 19, 16⟩
abbrev UART_CFG_DIV (m : Nat) : RF := ⟨UART_CFG_at m, 15, 0⟩
abbrev UART_TX_at (m : Nat) : Nat := 0x4000fe04 + m * 0x40
abbrev UART_TX_DATA (m : Nat) : RF := ⟨UART_TX_at m, 8, 0⟩
abbrev UART_RX_at (m : Nat) : Nat := 0x4000fe08 + m * 0x40
abbrev UART_RX_VALID (m : Nat) : RF := ⟨UART_RX_at m, 15, 15⟩
abbrev UART_RX_BREAK (m : Nat) : RF := ⟨UART_RX_at m, 14, 14⟩
abbrev UART_RX_PE (m : Nat) : RF := ⟨UART_RX_at m, 13, 13⟩
abbrev UART_RX_FE (m : Nat) : RF := ⟨UART_RX_at m, 12, 12⟩
abbrev UART_RX_DATA (m : Nat) : RF := ⟨UART_RX_at m, 8, 0⟩
abbrev UART_STAT_at (m : Nat) : Nat := 0x4000fe0c + m * 0x40
abbrev UART_STAT_TXLEVEL (m : Nat) : RF := ⟨UART_STAT_at m, 28, 24⟩
abbrev UART_STAT_RXLEVEL (m : Nat) : RF := ⟨UART_STAT_at m, 20, 16⟩
abbrev UART_STAT_RXOVF (m : Nat) : RF := ⟨UART_STAT_at m, 2, 2⟩
abbrev UART_STAT_TXOVF (m : Nat) : RF := ⟨UART_STAT_at m, 1, 1⟩
abbrev UART_STAT_ERR (m : Nat) : RF := ⟨UART_STAT_at m, 0, 0⟩
abbrev UART_IRQ_EN_at (m : Nat) : Nat := 0x4000fe10 + m * 0x40
abbrev UART_IRQ_EN_RXOVF (m : Nat) : RF := ⟨UART_IRQ_EN_at m, 2, 2⟩
abbrev UART_IRQ_EN_TXOVF (m : Nat) : RF := ⟨UART_IRQ_EN_at m, 1, 1⟩
abbrev UART_IRQ_EN_ERR (m : Nat) : RF := ⟨UART_IRQ_EN_at m, 0, 0⟩
abbrev CLK_CORE_at : Nat := 0x40011000
abbrev CLK_CORE_M : RF := ⟨CLK_CORE_at, 6, 0⟩
abbrev CLK_MOD_at : Nat := 0x40011004
abbrev CLK_MOD_DIV0 : RF := ⟨CLK_MOD_at, 2, 0⟩
abbrev CLK_MOD_DIV1 : RF := ⟨CLK_MOD_at, 6, 4⟩
abbrev CLK_MOD_DIV2 : RF := ⟨CLK_MOD_at, 10, 8⟩
abbrev CLK_MOD_DIV3 : RF := ⟨CLK_MOD_at, 14, 12⟩
abbrev CLK_STAT_at : Nat := 0x40011008
abbrev CLK_STAT_LOCK : RF := ⟨CLK_STAT_at, 4, 0⟩
abbrev CLK_IRQ_STAT_at : Nat := 0x4001100c
abbrev CLK_IRQ_STAT_WAKE : RF := ⟨CLK_IRQ_STAT_at, 2, 2⟩
abbrev CLK_IRQ_STAT_STBYREF : RF := ⟨CLK_IRQ_STAT_at, 1, 1⟩
abbrev CLK_IRQ_STAT_UNLOCK : RF := ⟨CLK_IRQ_STAT_at, 0, 0⟩
abbrev CLK_IRQ_EN_at : Nat := 0x40011010
abbrev CLK_IRQ_EN_WAKE : RF := ⟨CLK_IRQ_EN_at, 2, 2⟩
abbrev CLK_IRQ_EN_STBYREF : RF := ⟨CLK_IRQ_EN_at, 1, 1⟩
abbrev CLK_IRQ_EN_UNLOCK : RF := ⟨CLK_IRQ_EN_at, 0, 0⟩
abbrev CLK_STBY_at : Nat := 0x40011014
abbrev CLK_STBY_KEY : RF := ⟨CLK_STBY_at, 31, 16⟩
abbrev CLK_STBY_PCIEKEEP : RF := ⟨CLK_STBY_at, 1, 1⟩
abbrev CLK_STBY_GO : RF := ⟨CLK_STBY_at, 0, 0⟩
abbrev CLK_WAKECFG_at : Nat := 0x40011018
abbrev CLK_WAKECFG_EN : RF := ⟨CLK_WAKECFG_at, 3, 0⟩
abbrev CLK_WAKESTAT_at : Nat := 0x4001101c
abbrev CLK_WAKESTAT_WAKES : RF := ⟨CLK_WAKESTAT_at, 31, 16⟩
abbrev CLK_WAKESTAT_SRC : RF := ⟨CLK_WAKESTAT_at, 3, 0⟩
abbrev CLK_ALARM_at : Nat := 0x40011020
abbrev CLK_ALARM_SEC : RF := ⟨CLK_ALARM_at, 31, 0⟩
abbrev CLK_SECT_at (s : Nat) : Nat := 0x40011040 + s * 0x4
abbrev CLK_SECT_SDIV (s : Nat) : RF := ⟨CLK_SECT_at s, 4, 0⟩
abbrev CLK_FAB_at (k : Nat) : Nat := 0x40011080 + k * 0x4
abbrev CLK_FAB_FDIV (k : Nat) : RF := ⟨CLK_FAB_at k, 6, 0⟩
abbrev RETAIN_CFG_at : Nat := 0x40012000
abbrev RETAIN_CFG_AUTOREF : RF := ⟨RETAIN_CFG_at, 1, 1⟩
abbrev RETAIN_CFG_SNAPEN : RF := ⟨RETAIN_CFG_at, 0, 0⟩
abbrev RETAIN_SNAPSRC_at : Nat := 0x40012004
abbrev RETAIN_SNAPSRC_SECT : RF := ⟨RETAIN_SNAPSRC_at, 31, 28⟩
abbrev RETAIN_SNAPSRC_LENM1 : RF := ⟨RETAIN_SNAPSRC_at, 27, 18⟩
abbrev RETAIN_SNAPSRC_OFS : RF := ⟨RETAIN_SNAPSRC_at, 17, 3⟩
abbrev RETAIN_STAT_at : Nat := 0x40012008
abbrev RETAIN_STAT_BUSY : RF := ⟨RETAIN_STAT_at, 31, 31⟩
abbrev RETAIN_STAT_PFW : RF := ⟨RETAIN_STAT_at, 30, 30⟩
abbrev RETAIN_STAT_CAUSE : RF := ⟨RETAIN_STAT_at, 29, 28⟩
abbrev RETAIN_STAT_RESULT : RF := ⟨RETAIN_STAT_at, 27, 26⟩
abbrev RETAIN_STAT_FRPOS : RF := ⟨RETAIN_STAT_at, 7, 0⟩
abbrev RETAIN_CMD_at : Nat := 0x4001200c
abbrev RETAIN_CMD_KEY : RF := ⟨RETAIN_CMD_at, 31, 16⟩
abbrev RETAIN_CMD_OP : RF := ⟨RETAIN_CMD_at, 1, 0⟩
abbrev RETAIN_IRQ_STAT_at : Nat := 0x40012010
abbrev RETAIN_IRQ_STAT_UE : RF := ⟨RETAIN_IRQ_STAT_at, 3, 3⟩
abbrev RETAIN_IRQ_STAT_PFW : RF := ⟨RETAIN_IRQ_STAT_at, 2, 2⟩
abbrev RETAIN_IRQ_STAT_FRSKIP : RF := ⟨RETAIN_IRQ_STAT_at, 1, 1⟩
abbrev RETAIN_IRQ_STAT_SNAPDONE : RF := ⟨RETAIN_IRQ_STAT_at, 0, 0⟩
abbrev RETAIN_CNT_at : Nat := 0x40012018
abbrev RETAIN_CNT_SNAPS : RF := ⟨RETAIN_CNT_at, 31, 16⟩
abbrev RETAIN_CNT_FRSKIP : RF := ⟨RETAIN_CNT_at, 15, 0⟩
abbrev RETAIN_SNAPLAST_at : Nat := 0x4001201c
abbrev RETAIN_SNAPLAST_VALID : RF := ⟨RETAIN_SNAPLAST_at, 31, 31⟩
abbrev RETAIN_SNAPLAST_SLOT : RF := ⟨RETAIN_SNAPLAST_at, 5, 0⟩
abbrev RETAIN_ECC_at : Nat := 0x40012020
abbrev RETAIN_ECC_CE : RF := ⟨RETAIN_ECC_at, 31, 16⟩
abbrev RETAIN_ECC_UE : RF := ⟨RETAIN_ECC_at, 15, 0⟩
abbrev RETAIN_IRQ_EN_at : Nat := 0x40012014
abbrev RETAIN_IRQ_EN_UE : RF := ⟨RETAIN_IRQ_EN_at, 3, 3⟩
abbrev RETAIN_IRQ_EN_PFW : RF := ⟨RETAIN_IRQ_EN_at, 2, 2⟩
abbrev RETAIN_IRQ_EN_FRSKIP : RF := ⟨RETAIN_IRQ_EN_at, 1, 1⟩
abbrev RETAIN_IRQ_EN_SNAPDONE : RF := ⟨RETAIN_IRQ_EN_at, 0, 0⟩

end Sys2Proof.Machine
end

