-- ==== Sys2Proof/Machine/Bits.lean ====
section
/-! DEFINITION. Bit fields of numbers and words, saturation, signs, and byte order (R5: little-endian). -/

namespace Sys2Proof.Machine

/-- Bits [hi:lo] of a number. -/
def bits (n hi lo : Nat) : Nat := n / 2 ^ lo % 2 ^ (hi + 1 - lo)

/-- Bit `i` of a number. -/
def bitAt (n i : Nat) : Bool := n.testBit i

/-- The number of a truth value. -/
def b2n (b : Bool) : Nat := if b then 1 else 0

/-- The field's value in a register word. -/
def RF.get (f : RF) (w : Word) : Nat := bits w.toNat f.hi f.lo

/-- The mask of the field's bits. -/
def RF.mask (f : RF) : Word := BitVec.ofNat 32 ((2 ^ (f.hi + 1 - f.lo) - 1) * 2 ^ f.lo)

/-- The register word with the field set to `v`, `v` cut to the field's width; the other bits stay. -/
def RF.put (f : RF) (w : Word) (v : Nat) : Word :=
  (w &&& ~~~f.mask) ||| (BitVec.ofNat 32 (v % 2 ^ (f.hi + 1 - f.lo) * 2 ^ f.lo))

/-- The largest value of the field. -/
def RF.max (f : RF) : Nat := 2 ^ (f.hi + 1 - f.lo) - 1

/-- The number's value as a two's complement number of `w` bits. -/
def toSigned (w : Nat) (n : Nat) : Int := if n % 2 ^ w < 2 ^ (w - 1) then (n % 2 ^ w : Nat) else (n % 2 ^ w : Nat) - (2 ^ w : Nat)

/-- The low `w` bits of an integer, as a number. -/
def ofSigned (w : Nat) (i : Int) : Nat := (i % (2 ^ w : Nat)).toNat

/-- An integer limited to the range of `w`-bit two's complement. -/
def satSigned (w : Nat) (i : Int) : Int :=
  if i < -(2 ^ (w - 1) : Nat) then -(2 ^ (w - 1) : Nat) else if (2 ^ (w - 1) : Nat) - 1 < i then (2 ^ (w - 1) : Nat) - 1 else i

/-- The positions below `n` at which the number has a 1, rising. -/
def bitList (n m : Nat) : List Nat := (List.range m).filter (fun i => n.testBit i)

/-- The bytes of a word, lowest address first (R5). -/
def wordBytes (w : Word) : List Byte := [w.extractLsb' 0 8, w.extractLsb' 8 8, w.extractLsb' 16 8, w.extractLsb' 24 8]

/-- The number that bytes spell, lowest address first (R5). -/
def bytesNat : List Byte → Nat
  | [] => 0
  | b :: r => b.toNat + 256 * bytesNat r

/-- The words that bytes spell, four bytes each, lowest address first; a last part of a word is filled with 0. -/
def bytesWords : List Byte → List Word
  | [] => []
  | [a] => [BitVec.ofNat 32 (bytesNat [a])]
  | [a, b] => [BitVec.ofNat 32 (bytesNat [a, b])]
  | [a, b, c] => [BitVec.ofNat 32 (bytesNat [a, b, c])]
  | a :: b :: c :: d :: r => BitVec.ofNat 32 (bytesNat [a, b, c, d]) :: bytesWords r

/-- The list with entry `i` replaced by `v`; a list too short is filled with `d`. -/
def listSet {α : Type} (d : α) : List α → Nat → α → List α
  | [], 0, v => [v]
  | [], n + 1, v => d :: listSet d [] n v
  | _ :: r, 0, v => v :: r
  | x :: r, n + 1, v => x :: listSet d r n v

/-- One bit step of the reflected CRC-32 (R171, R274). -/
def crcStep : Nat → BitVec 32 → BitVec 32
  | 0, c => c
  | n + 1, c => crcStep n (if c.toNat % 2 = 1 then (c >>> 1) ^^^ 0xEDB88320#32 else c >>> 1)

/-- CRC-32 of bytes: polynomial 0x04C1_1DB7, reflected, initial value and final XOR 0xFFFF_FFFF (R171, R274). -/
def crc32 (bs : List Byte) : BitVec 32 :=
  bs.foldl (fun c b => crcStep 8 (c ^^^ b.setWidth 32)) 0xFFFFFFFF ^^^ 0xFFFFFFFF

/-- CRC-8 of bits in the order sent: polynomial 0x07, initial value 0 (R409). -/
def crc8 (l : List Bool) : BitVec 8 := l.foldl (fun c b => (c <<< 1) ^^^ (if c.toNat.testBit 7 != b then 7 else 0)) 0

/-- The low `n` bits of a number, least significant first. -/
def lsbBits (n x : Nat) : List Bool := (List.range n).map x.testBit

end Sys2Proof.Machine
end

