-- ==== Sys2Proof/Machine/State.lean ====
section
/-! DEFINITION. The state of the device as plain data: the register file (all software-visible registers, in one home), memories,
and every hidden state that the spec gives the blocks; then the reasons for which a step can stop, and the state after reset. -/

namespace Sys2Proof.Machine

/-! ## Per-part constants, supplies, events and messages (chapters 00, 01, 14, 18) -/

/-- What differs from part to part: grade (R3), strapped pins (R297, R318) and fuses (R342, R343, R345). Log 2. -/
structure Part where
  grade : Nat
  modePins : Nat
  sidePin : Bool
  uid : BitVec 64
deriving DecidableEq, Repr

/-- What has left the device: bus responses, MSIs, frames and packets (R30, R160, R275, R301, R392, R409). -/
inductive Output
  /-- Data returned to a requester of the device bus. -/
  | readData (req : Nat) (addr : Nat) (data : Word)
  /-- An MSI with its vector (R30). -/
  | msi (vector : Nat)
  /-- A named message with its words: a line frame, a Ubvel packet, a serial frame or a port reply. -/
  | message (kind : String) (words : List Nat)
deriving DecidableEq, Repr

/-! ## Timebase, encoders, action stores and sector timers (chapter 02) -/

/-- The timebase: TB_NOW (R34), the tick counter and the last tick edge (R35), the master position P and the virtual position V,
both with 16 fraction bits (R41, R45), and the master estimate (R40 to R43). -/
structure Timebase where
  now : BitVec 64
  nowValid : Bool
  tick : BitVec 48
  edge : BitVec 64
  pos : BitVec 80
  v : BitVec 80
  speed : BitVec 32
  speedOk : Bool
  dir : Bool
  stopped : Bool
deriving DecidableEq, Repr

/-- An encoder ENC[i]: edge count, revolutions and angle (R37 to R39), its estimate (R40), the times and positions of its last
edges in one direction, newest first, the time of the last edge of any kind, and an SSI read in progress with its sample instant. -/
structure Encoder where
  cnt : Nat
  rev : BitVec 32
  angle : BitVec 32
  dir : Bool
  hist : List (BitVec 64 × BitVec 64)
  lastEdge : Option (BitVec 64)
  speed : BitVec 32
  speedOk : Bool
  stopped : Bool
  ssiStart : BitVec 64
  ssiBusy : Option (BitVec 64)
  ssiGood : Bool
deriving DecidableEq, Repr

/-- The time set latched for one requester (R47). -/
structure TimeSet where
  now : BitVec 64
  tick : BitVec 48
  pos : BitVec 64
  speed : BitVec 32
  mstat : BitVec 32
deriving DecidableEq, Repr

/-- How an armed entry stands: not yet judged (pin and angle, before A + 32), the same after P has crossed its target, waiting for its
instant, or due to fire at an instant with its class (0 on time, 1 LATE, 2 CLOSE) and its lateness in cycles (R51 to R53). -/
inductive Stand
  | unjudged
  | crossed
  | waiting
  | due (at_ : BitVec 64) (cls : Nat) (late : Nat)
deriving DecidableEq, Repr

/-- An entry of an action store (R48), with its arming edge, its full target (R49) and where it stands. -/
structure Action where
  w0 : Word
  w1 : Word
  w2 : Word
  w3 : Word
  arm : BitVec 64
  target : BitVec 64
  stand : Stand
deriving DecidableEq, Repr

/-- An item of the post FIFO of an action store: a post, or a cancel with its owner field where a channel sent it (R57, R97). -/
inductive QItem
  | post (a : Action)
  | cancel (tag mask : Nat) (owner : Option Nat) (engine : Option Nat)
deriving DecidableEq, Repr

/-- The action store of a sector: what waits to be armed, the armed entries in arming order, freed entries that still count
(R56), and the cycle of the last pin firing (R54). -/
structure Store where
  fifo : List QItem
  armed : List Action
  freed : Nat
  lastFire : Option (BitVec 64)
deriving DecidableEq, Repr

/-- The host's post or cancel (R453): whether it has ended, with its result and whether it met a stopped sector. -/
structure HostOp where
  done : Bool
  result : Nat
  stopped : Bool
deriving DecidableEq, Repr

/-- A PWM pair: the duties in force, the instant (TB_NOW) from which cycles of the period count, the cycles for which a side is held
low after a restart, the cycles of the period counted before that instant (R18, R61), and for each side how many cycles before the
start of the period it has fallen last (R61) and for how many cycles up to that start it had been high (R253). -/
structure PwmPair where
  d0 : Nat
  d1 : Nat
  start : BitVec 64
  hold0 : Nat
  hold1 : Nat
  base : Nat
  fell0 : Option Nat
  fell1 : Option Nat
  up0 : Nat
  up1 : Nat
deriving DecidableEq, Repr

/-- A capture unit: its FIFO of timestamps and levels, oldest first, the level after the edge last popped, and the reference
level (R62). -/
structure Capture where
  fifo : List (Word × Bool)
  edgeBit : Bool
  level : Bool
deriving DecidableEq, Repr

/-! ## Loop engines and channels (chapters 03, 04) -/

/-- The register bank of a slot (R70). -/
structure Bank where
  v : Table Word
  acc0 : BitVec 48
  acc1 : BitVec 48
  p : Table Word
  pb : Table Word
  pl : Table Word
  flags : BitVec 4
  sat : Bool
  accsat : Bool
  pc : Nat
deriving DecidableEq, Repr

/-- How an activation is ending (R67, R99). -/
inductive Ending
  | eos | yield_ | fault
deriving DecidableEq, Repr

/-- What the last instruction left for R92: a register loaded, an accumulator written, or a pointer set by MTS. -/
inductive Hazard
  | none | loaded (rd : Nat) | acc (a : Bool) | ptr (k : Nat)
deriving DecidableEq, Repr

/-- A running activation: slot, PC, cycles used, budget, the offset of its first cycle in the tick, how it ends, the stage
buffer by binding with T (R94), the last producer (R92), whether the next word is exempt from the PC breakpoint and whether it stops
after one instruction (R412), the values of the LOG in a replay, the words logged so far, the instructions completed, and how many a
replay runs with its logged ending (R302). -/
structure Act where
  slot : Nat
  pc : Nat
  used : Nat
  budget : Nat
  offset : Nat
  ending : Option Ending
  stage : Table (Word × Bool)
  hazard : Hazard
  skipBp : Bool
  step : Bool
  log : Option (List Word)
  words : List Word
  count : Nat
  limit : Nat
  how : Nat
deriving DecidableEq, Repr

/-- A posted global write in the buffer of an engine (R76), with the slot and the PC of its store (R25) and the TB_CLK cycle in which
it asked for the device bus (R19). -/
structure PostedWrite where
  addr : Nat
  size : Nat
  data : Word
  slot : Nat
  pc : Nat
  asked : BitVec 64
deriving DecidableEq, Repr

/-- How an access ended: done, an access error of R25, or an uncorrectable word. -/
inductive Ended
  | fine | refused | ecc
deriving DecidableEq, Repr

/-- A global load on the device bus (R76, R88): the address, size, sign extension, destination register and pointer update, the
TB_CLK cycle in which it asked for the device bus, and, where the bus has served it before a later request (R19), what it has read. -/
structure GlobalLoad where
  addr : Nat
  size : Nat
  sx : Bool
  rd : Nat
  ptr : Nat
  ptrNew : Word
  asked : BitVec 64
  got : Option (Nat × Ended)
deriving DecidableEq, Repr

/-- A guaranteed slice of the tick: slot, offset and budget, and whether it has passed (R113). -/
structure Slice where
  slot : Nat
  offset : Nat
  budget : Nat
  gate : Bool
  passed : Bool
deriving DecidableEq, Repr

/-- An activation that has run in the tick, as a LOG packet tells it: slot, ending (0 EOS, 1 YIELD, 2 preemption, 3 fault, 4 debug
stop), instructions completed, and logged words (R301, R302). -/
structure Ran where
  slot : Nat
  how : Nat
  count : Nat
  words : List Word
deriving DecidableEq, Repr

/-- A loop engine: activation, posted-write buffer, global load, the register that waits for the count of a CANCEL, the layout of the
tick, the offset reached, the BASE slots that have been taken in the tick, the slot of the last BASE activation, the hold in force,
the break and breakpoint of the maintenance port (R412), what has run in the tick with its checksum stream, and what the activation in
progress adds to it of posted entries and of stores outside the tile (R302, R304), and whether a store has found the posted-write buffer
full and waits (R76). -/
structure Engine where
  act : Option Act
  buf : List PostedWrite
  gload : Option GlobalLoad
  cancelRd : Option Nat
  layout : List Slice
  offset : Nat
  baseDone : List Nat
  lastBase : Nat
  held : Bool
  brk : Bool
  bp : Option (Nat × Nat)
  ran : List Ran
  stream : List Byte
  posts : List Byte
  outs : List Byte
  stalled : Bool
deriving DecidableEq, Repr

/-- The values that the timebase sends to a sector with the tick (R72). -/
structure SectTick where
  tnow : Word
  ttick : Word
  tang : Word
  trev : Word
  tspd : Word
deriving DecidableEq, Repr

/-- The state of a slot (R112). -/
inductive ChanState
  | free | staged | starting | running | stopping | faulted
deriving DecidableEq, Repr

/-- The settings of a channel: the descriptor words of R109 from SCHED on. -/
structure Desc where
  sched : Word
  mode : Word
  budget : Word
  trigger : Word
  start : Word
  stateW : Word
  ins : List Word
  outs : List Word
  rel : List Word
deriving DecidableEq, Repr

/-- A fault of a channel: cause, PC, address, and the low word of its tick (R99, R119). -/
structure FaultInfo where
  cause : Nat
  pc : Nat
  addr : Word
  tick : Word
deriving DecidableEq, Repr

/-- A slot with its channel: state, generation (R103), settings, bank, activation counts and CHS flags (R71), trigger count, flag
and gate (R114), overruns (R118), faults reported and not yet reported (R119), BASE counters (R115), freshness memory and
timestamps (R93), deferred words with the kind and number of their output (R95), the ticks of a pending start or stop and of the release, changes accepted and not yet in
force with their ticks (R107), and the debug stop: its
reason (0 HALT, 1 BRK, 2 PC breakpoint, 3 STEP), a stop asked for at the start of the next activation, the kept stage buffer, whether
the resume passes the BRK word, and the resume asked for (true for STEP). -/
structure Chan where
  st : ChanState
  gen : Nat
  desc : Desc
  bank : Bank
  acts : Nat
  first : Bool
  preempted : Bool
  resumed : Bool
  trig : Nat
  flag : Bool
  gate : Bool
  ovrTotal : Nat
  ovrConsec : Nat
  fault : Option FaultInfo
  unreported : Option FaultInfo
  pend : Bool
  missed : Nat
  deferred : Nat
  fresh : Table (Nat × Bool)
  stamp : Table Word
  defOut : Table (Word × Nat × Nat)
  startTick : Option (BitVec 48)
  stopTick : Option (BitVec 48)
  mods : List (BitVec 48 × Desc)
  releaseTick : Option (BitVec 48)
  released : Bool
  stop : Option Nat
  halt : Option Nat
  kept : Table (Word × Bool)
  pastBrk : Bool
  resume : Option Bool
deriving DecidableEq, Repr

/-- A request in the allocator queue (R106): its buffer, operation and STAGED bit; its words stand in the buffer. -/
structure Request where
  buf : Nat
  op : Nat
  staged : Bool
deriving DecidableEq, Repr

/-- An entry of the fault log (R119). -/
structure FaultEntry where
  handle : Word
  info : FaultInfo
deriving DecidableEq, Repr

/-! ## Analog bays, converters, comparators and DACs (chapters 05 to 08) -/

/-- The switches of the bays, by bit (R141): bays whose image settings do not act yet, bays whose pad switches stay open until the
I/O is enabled, bays whose OUT pads are held open by the standby role, and held bays whose reference stays on. -/
structure BaySwitches where
  before : Nat
  pads : Nat
  outs : Nat
  refs : Nat
deriving DecidableEq, Repr

/-- A matrix switch measurement in progress: terminal and track (R140). -/
structure RCal where
  term : Nat
  track : Nat
deriving DecidableEq, Repr

/-- A result record of a converter entry (R157). -/
structure AdcRec where
  value : Word
  time : Word
  tag : Nat
  ovr : Bool
  refbad : Bool
  sync : Bool
  calset : Nat
  nocal : Bool
deriving DecidableEq, Repr

/-- A conversion between its end edge E and its write edge W: entry, value before calibration, TIME and flags (R157, R162). -/
structure AdcPending where
  entry : Nat
  d1 : Int
  time : Word
  ovr : Bool
  refbad : Bool
  sync : Bool
deriving DecidableEq, Repr

/-- A calibration measurement in progress: operation (1 ZERO, 2 FULL), entry, set, conversions still to run, the values so far,
whether a conversion carried OVR or REFBAD, whether it waits for the end of a run in progress, and whether that run was continuous (R168). -/
structure CalMeas where
  op : Nat
  entry : Nat
  set_ : Nat
  avg : Nat
  vals : List Int
  bad : Bool
  waiting : Bool
  cont : Bool
deriving DecidableEq, Repr

/-- A converter: run, entry in conversion, LEN of the run, queued trigger (R152 to R155), route factor of the conversion in Q2.30
(R138), a borrowed conversion (R156), results on their way to W and to the sector copies, records and copies by entry (R157,
R161), snapshots by requester (R160), the angle-synchronous ring of (d1, OSR, clamped), newest first, and whether the first
conversion after synchronisation has passed (R165, R166), the length of the conversion and its clamping, a measurement (R168), the
edge at which the last trigger became visible (R154), software triggers that wait for MOD_CLK (R154), the last instant at which REF_OK
was 0 (R157), the start of the last conversion with full settling, and whether the present one goes on without it (R150). -/
structure Adc where
  run : Bool
  cur : Nat
  len : Nat
  queued : Bool
  factor : Nat
  borrowed : Option Nat
  toWrite : List AdcPending
  toCopy : List (Nat × AdcRec)
  recs : Table AdcRec
  copies : Table AdcRec
  snaps : Table (Option (Nat × AdcRec))
  ring : List (Int × Nat × Bool)
  syncFirst : Bool
  osrNow : Nat
  clamped : Bool
  cal : Option CalMeas
  lastTrig : Option (BitVec 64)
  swWait : Nat
  lowAt : Option (BitVec 64)
  begun : BitVec 64
  short : Bool
deriving DecidableEq, Repr

/-- A comparator: the raw state R with hysteresis (R177), and the history of its filter, newest first (R179).
C is R XOR POL (R174); F, L, C_sync, HOLD and ON stand in CMP_STAT. `back` is set from a return from standby until the first
MOD_CLK edge (R192). -/
structure Cmp where
  r : Bool
  hist : List Bool
  back : Bool
deriving DecidableEq, Repr

/-- A DAC: the pending code and gain of a range change (R202), whether the standby role of a pair forced it at the last boundary
(R200), and whether the short detector has flagged while SECT_CLK stood (R204). -/
structure Dac where
  pendCode : Nat
  pendGain : Bool
  role : Bool
  flagged : Bool
deriving DecidableEq, Repr

/-! ## Scratchpad ports, fabric and vault (chapter 09) -/

/-- A scratchpad request of the fabric (R228): write flag, view, word offset and data. -/
structure FabReq where
  we : Bool
  view : Nat
  word : Nat
  data : Word
deriving DecidableEq, Repr

/-- A read return on its way to the fabric: data and SP_ERR (R228). -/
structure FabRet where
  data : Word
  err : Bool
deriving DecidableEq, Repr

/-- The fabric of a sector: requests not yet served, returns on their way, the values and output enables of FAB_OUT (R227), doorbell
pulses that it has not seen, acknowledges and words on their way to the mailbox (R229, R230), the read return that it sees at its
next edge (R228), and bus writes of mailbox words and doorbell pulses that wait for SECT_CLK (R230). -/
structure Fabric where
  reqs : List FabReq
  rets : List FabRet
  out : BitVec 32
  oe : BitVec 32
  bells : Nat
  acks : List Nat
  froms : List (Nat × Word)
  back : Option FabRet
  tos : List (Nat × Word)
  rings : Nat
deriving DecidableEq, Repr

/-! ## Staged commit (chapter 10) -/

/-- When an armed apply is due: at a tick, or at the first eligible tick whose edge finds P at or beyond a position (R243). -/
inductive ApplyAt
  | tick (n : BitVec 48)
  | angle (first : BitVec 48) (target : BitVec 64) (reverse : Bool)
deriving DecidableEq, Repr

/-- A staged allocator request (R108): the request and the slot it concerns. -/
structure StagedReq where
  op : Nat
  slot : Nat
  desc : Desc
deriving DecidableEq, Repr

/-- Attar: the staged copies of registers with their written marks set (R235), the staged requests (R238), the armed apply (R243),
whether an event invalidated the running check (R242), and the time of opening for the timeout (R247). -/
structure Attar where
  staged : Table (Option Word)
  reqs : List StagedReq
  target : Option ApplyAt
  dirty : Bool
  since : BitVec 64
deriving DecidableEq, Repr

/-- An apply strobe on its way (R244, R245, R306): its tick, the domains that still have to take it, the staged words and requests,
whether the session is the device's own (a standby also applies mirrored ones), the registers before it (R163), whether a domain has
taken it, and as bits the bays that a region has held since, which take nothing of it (R193, R351). -/
structure Strobe where
  tick : BitVec 48
  doms : List Domain
  regs : Table (Option Word)
  reqs : List StagedReq
  own : Bool
  before : Table Word
  begun : Bool
  gone : Nat
deriving DecidableEq, Repr

/-! ## Pins (chapter 11) -/

/-- An output signal of the crossbar: its value and its enable (R252). -/
structure Signal where
  value : Bool
  enable : Bool
deriving DecidableEq, Repr

/-- The pads: whether the outputs have taken their functions (R264), whether they show safe levels (R265), whether shared pins are
released for the partner (R266), whether the inputs are routed (R264), the PIN_CLK edge of a return and which pads it concerns (bit
0 all, from high impedance; 1 all, from the safe level; 2 shared ones; R260), the levels and enables that the pads showed at the trip,
what pads held at their last change of function with its edge and their XBAR_PAD before it (R260), banks not yet back (R250), an open
lock sequence with its requester, group and time (R262), and what the pads on FAB_OUT or PWM of a held region showed at its hold
(R264). -/
structure Pins where
  on : Bool
  tripped : Bool
  shared : Bool
  routed : Bool
  edge : Option (BitVec 64 × Nat)
  trip : Table Signal
  hold : Table (Option (BitVec 64 × Signal × Word))
  bankOff : Nat
  lockSeq : Option (Nat × Nat × BitVec 64)
  heldAt : Table Signal
deriving DecidableEq, Repr

/-! ## Barchan lines and their nodes (chapter 12) -/

/-- A line cycle as its assembly made it (R55, R280, R291): the tick of its start, the settings taken, and the records. -/
structure LineCycle where
  start : BitVec 48
  cfg : Word
  lead : Nat
  segs : List Word
  pulses : List Nat
  len : Nat
  recs : List Word
deriving DecidableEq, Repr

/-- A line: whether a cycle has begun since EN became 1, the cycle number, the tick of the last cycle start, the assembled cycle, the
cycle whose return is awaited, whether a damaged return has arrived, the measured d_k (R283), the stale cycles in a row by node
(R284), and the higher epoch that demoted it (R287). -/
structure Line where
  started : Bool
  cycle : BitVec 32
  lastTick : Option (BitVec 48)
  asm : Option LineCycle
  cur : Option LineCycle
  damaged : Bool
  dly : Table Nat
  stale : Table Nat
  demoted : Nat
deriving DecidableEq, Repr

/-- The state of a node (R285). -/
inductive NodeState
  | offline | hold | run
deriving DecidableEq, Repr

/-- A node (R285 to R290): its state, OWNER_EPOCH, accepted frames in a row that allow RUN, the data frame and the timed frame since the
last MARK, the staged image and outputs, settings (CLEN, pulse lengths), armed records, the instant of the last MARK, pending pulse
ends (instant and output), queued signatures (output and cycle), the cycle of the window, RXERR, SIGLOST, EPREJ, WRAP,
the counts of missing and good returns, and FOLLOW in force. -/
structure Node where
  st : NodeState
  epoch : Nat
  ready : Nat
  data : Option LineFrame
  timed : Option LineFrame
  image : BitVec 64
  outs : BitVec 64
  clen : Nat
  tmo : Nat
  pulse : List Nat
  armed : List Word
  mark : BitVec 64
  pulses : List (BitVec 64 × Nat)
  sigs : List (Nat × BitVec 32)
  window : BitVec 32
  rxerr : Nat
  siglost : Nat
  eprej : Bool
  wrap : Bool
  noRet : Nat
  goodRet : Nat
  follow : Bool
deriving DecidableEq, Repr

/-! ## The pair (chapter 13) -/

/-- What the pair keeps beyond its registers: a deposing at the next boundary and a RESIGN written (R313), the level of
PAIR_ALIVE_OUT, the last edge of PAIR_ALIVE_IN and the instant since which the partner is static (R296), whether a good packet of
the current tick has arrived and the tick last judged (R309), the instant of the loss, the packets that wait for their replay (LOG,
checksums, REFRESH, ALLOC; R302 to R305), a LOG with the instant of its arrival, and the last tick whose replay is complete on every
engine (R308), the staged values of the mirrored session and whether its end with APPLIED has arrived (R306), channels whose refresh the
partner asked for, channels refreshed since their engine diverged, a join in progress, its sync tick and clean ticks (R314), ticks with the link down (R316), the start of an epoch silence (R311),
whether the partner's last STATUS shows it READY, the transmit queue in half bytes as of an instant and whether a packet has overflowed
it (R308), the bytes of a join's copy that are still to send and its sync tick on the sending side (R314), whether a LONE device
still waits for its first tick boundary (R299), the sequence numbers of the next packet sent and of the next one expected (R295), the
staged requests of the mirrored session, engine settings that wait for the replay of their apply tick (R306), and a join that a held
region holds back (R355). -/
structure Pair where
  depose : Bool
  resigned : Bool
  aliveOut : Bool
  lastAlive : BitVec 64
  since : BitVec 64
  got : Bool
  judged : Option (BitVec 48)
  lost : Option (BitVec 64)
  logs : List (LogPacket × BitVec 64)
  sums : List (BitVec 48 × Nat × Nat)
  refs : List RefreshPacket
  allocs : List AllocPacket
  replayed : BitVec 48
  staged : Table (Option Word)
  ended : Bool
  asked : List Nat
  refreshed : List Nat
  joining : Bool
  synced : Option (BitVec 48)
  clean : Nat
  down : Nat
  silent : Option (BitVec 64)
  partnerReady : Bool
  txq : Nat
  txAt : BitVec 64
  txOver : Bool
  bulk : Option Nat
  syncAt : Option (BitVec 48)
  waits : Bool
  txSeq : BitVec 16
  rxSeq : Option (BitVec 16)
  reqs : List (Nat × Nat × List Word)
  later : List (BitVec 48 × Table (Option Word))
  joinHeld : Bool
deriving DecidableEq, Repr

/-! ## Loading, life cycle, scrubber (chapters 14, 15) -/

/-- Life cycle (R342 to R344): the fused state (0 BLANK, 1 DEVELOP, 2 DEPLOYED, 4 RETIRED), the SERVICE flag on VBAT with the second of
SAFE_RTCSEC at which SERVICE ends, the fused hashes and AES key, the key RAM on VBAT, MINVER, ALTBOOT, and a command in progress (its
operation and its arguments). -/
structure LifeCycle where
  st : Nat
  service : Option Nat
  imgKey : Option (List Word)
  svcKey : Option (List Word)
  aesKey : Option (List Word)
  keyRam : Option (List Word)
  minver : Nat
  altboot : Bool
  busy : Option (Nat × List Word)
deriving DecidableEq, Repr

/-- Where the loader stands in the image stream (R320): idle, before the sync word, before AUTH, paused for the checks of AUTH, in the
body, after END with PASSON records to come, waiting for the release, or discarding after an error (R339, R350). -/
inductive LoadPhase
  | idle | sync | auth | checks | body | passon | release | discard
deriving DecidableEq, Repr

/-- The source of an image (R318, R360): flash, the pass-on input, the host, or the boundary-scan instruction. -/
inductive LoadSource
  | flash | chain | host | jtag
deriving DecidableEq, Repr

/-- The loader: phase, source, whether the load is partial (R349), the byte offset of the next record and of the body (R338), the
running CRC-32 of R327, a KEYSEL section with its plaintext bytes left, ciphertext blocks left and the number of the next block of the
image (R331), the key source of the section, the region section open and the number begun, whether the last record was a CHECK (R349), AUTH words (R329), whether
records outside KEYSEL sections are rejected, the register values collected for the release (R322, R353), registers written (R340), whether the alternate
image has been tried (R333), the start of the host's deadline (R337), a pass-on that has not ended (R335), plaintext decrypted and not yet
parsed, the offset and plaintext length of the section, the words of the host or of boundary scan not yet parsed (R337), the words of the
body read since AUTH, newest first (R330), the fabric frames written (R325), and for PASSON records still to come their source with the
offset of the next one, and the words not yet parsed (R335). -/
structure Loader where
  phase : LoadPhase
  source : LoadSource
  part : Bool
  pos : Nat
  body : Nat
  crc : BitVec 32
  left : Nat
  blocks : Nat
  block : Nat
  keySrc : Nat
  region : Option Nat
  begun : Nat
  checked : Bool
  auth : List Word
  clk : Table Word
  wrote : List Nat
  alt : Bool
  deadline : Option (BitVec 64)
  more : Bool
  plain : List Word
  secStart : Nat
  secLen : Nat
  buf : List Word
  read : List Word
  done : List Nat
  passOn : Option (LoadSource × Nat)
  passBuf : List Word
deriving DecidableEq, Repr

/-- The scrubber and the regions (R351 to R361): regions that wait for their hold boundary with its tick and the code that the hold gives
them, if any; regions that wait for their release boundary, reloads that wait, the scrubber's place (frame or word number) with the
start of its pass, the bits in which copy c of the voted item i differs from the majority by the number 3·i + c (R361; the items are
numbered as in MEMORY_BIT_FLIP), and the attempts of the present reload (R360). -/
structure Scrub where
  holds : List (Nat × BitVec 48 × Option Nat)
  releases : List (Nat × BitVec 48)
  reloads : List Nat
  place : Nat
  start : BitVec 64
  diffs : Table Nat
  tried : Nat
deriving DecidableEq, Repr

/-! ## Safe plane, Sillage and supplies (chapters 16, 18) -/

/-- The Sillage FIFO (R386) with, for each record, whether it is the trigger, and the records left until the freeze (R387). -/
structure Sillage where
  fifo : List (List Word × Bool)
  post : Option Nat
deriving DecidableEq, Repr

/-- A phase of device standby (R422 to R426): running, standby accepted until a boundary, standby, waking. -/
inductive StandbyPhase
  | run | armed | standby | waking
deriving DecidableEq, Repr

/-- Supplies and run state: core rails up (R415), held in reset (R416, R379), configuration released (R340), I/O enabled (R336),
standby, the supplies of the battery domain (R436), its loss flag (R222), a snapshot that has stopped the engines (R428), VDD (R222),
the tick of an accepted standby (R422), the instant of the wake edge or of the last lock since (R426), and as bits the clocks that
stand until their first tick boundary: SECT_CLK[k] (bit k) and FAB_CLK[k] (bit 16 + k) after a loss of the core PLL (R421), and the
fabrics of FAB_CLK[k] (bit 24 + k) in FAB_RST before tick 0 (R230). -/
structure Power where
  railsUp : Bool
  held : Bool
  released : Bool
  ioEnabled : Bool
  phase : StandbyPhase
  avdd : Bool
  vbat : Bool
  battLost : Bool
  snapStop : Bool
  vdd : Bool
  standbyAt : BitVec 48
  since : BitVec 64
  stands : Nat
deriving DecidableEq, Repr

/-- The part of the PCIe configuration header that the device acts on: Memory Space Enable, Bus Master Enable, MSI Enable, and the
number of MSI vectors granted (R30, R389, R393), whether PERST_N is low (R394), and BAR0 (R389, R391). -/
structure Pcie where
  mse : Bool
  bme : Bool
  msiEn : Bool
  grant : Nat
  perst : Bool
  bar : Word
deriving DecidableEq, Repr

/-- The hidden state of the safe plane: entries since the rise of VDD (R381), the tick number of the last tick edge received (R378,
R454), the times of the entries that entered the retention store within the last second and the generation of its pointer ring (R433),
the last kick or the start of the watchdog's count, whether it was a kick, whether the watchdog stands after an expiry (R377), a watchdog reset in progress (R379), the causes of a
handover (R373), a tamper event that met the main part without VDD (R380), the trip comparators whose persistence is met (R371), what
makes CLOCK active as bits: 0 the monitor, 1 the system PLL, 2 a PLL that is late after a wake (R378, R421, R426); whether the last
TAMPER cause was of the device class (R371), and the USEC of the last entry with its TB_NOW, while TB_CLK has run since (R381). -/
structure Safe where
  seq : Nat
  ticks : Word
  stored : List (BitVec 64)
  ringGen : Nat
  wd : Option (BitVec 64)
  wdKicked : Bool
  wdStopped : Bool
  wdReset : Bool
  hand : Nat
  tamperLate : Bool
  cmps : List Nat
  clock : Nat
  tampDev : Bool
  usec : Option (Word × BitVec 64)
deriving DecidableEq, Repr

/-- The walk of a march test through the banks or the tiles of a sector (R365): the bank or tile, the window in it, whether that window
is under test and has been accessed (R217), and the abandoned windows of this bank or tile. -/
structure March where
  unit : Nat
  win : Nat
  busy : Bool
  hit : Bool
  again : List Nat
deriving DecidableEq, Repr

/-- A borrowed conversion of the tester (R366): the kind, the unit, what it measures, the converter, and whether its condition has
broken. -/
structure Loan where
  kind : Nat
  unit : Nat
  arg : Nat
  conv : Nat
  void : Bool
deriving DecidableEq, Repr

/-- The converter tests of a bay (R366): the next of them in their order, and the one that runs. -/
structure BayTests where
  pos : Nat
  run : Option Loan
deriving DecidableEq, Repr

/-- The in-service tester: tests whose first failure awaits its repeat (kind, unit and window, switch or input), the kinds whose pass
has completed since PASSES last counted, errored cycles of each line in the window (R367, R368), the page that the retention refresh
reaches next (R434), the next signature program of each engine (R364), the units that the pass of their kind has done with, the walks
of the two march tests by sector (R365), the converter tests by bay (R366), and the end of each kind's last full pass (R368). -/
structure Ist where
  retry : List (Nat × Nat × Nat)
  passed : Nat
  link : Table Nat
  page : Nat
  prog : Table Nat
  covered : List (Nat × Nat)
  sp : Table March
  tr : Table March
  bay : Table BayTests
  since : Table (BitVec 64)
deriving DecidableEq, Repr

/-- A snapshot in progress (R428, R429, R432): cause, RETAIN_SNAPSRC, RTC and TICK at its start, and its first slot. -/
structure Snapshot where
  cause : Nat
  src : Word
  rtc : Word
  tick : Word
  slot : Nat
deriving DecidableEq, Repr

/-! ## Host and field interfaces (chapter 17) -/

/-- A CAN frame: ID word, CTRL word, data words; for a received one its TIME (R397, R398). -/
structure CanFrame where
  id : Word
  ctrl : Word
  time : Word
  data : List Word
deriving DecidableEq, Repr

/-- A CAN controller: frames queued with the mark of the one in transmission, frames received, oldest first, and whether bus-off
recovery counts (R397 to R399). -/
structure Can where
  tx : List (CanFrame × Bool)
  rx : List CanFrame
  recovering : Bool
deriving DecidableEq, Repr

/-- A serial controller: its transmit or command FIFO, its receive FIFO, and whether a transfer is in progress (R402 to R404). -/
structure Serial where
  tx : List Word
  rx : List Word
  busy : Bool
deriving DecidableEq, Repr

/-- The TAP (R406, R407): the instruction selected, the pads taken by EXTEST (1), CLAMP (2) or HIGHZ (3), 4 more until they return at the
next boundary of PIN_CLK, and the boundary cells. -/
structure Tap where
  ir : Nat
  pads : Nat
  cells : Table Signal
deriving DecidableEq, Repr


/-! ## The machine -/

/-- The state of the device: its cells, tiles, sectors and shared blocks (R10). -/
structure State where
  /-- The commands that wait, first in, first out. -/
  pending : List Instr
  /-- What has left the device, oldest first. -/
  outbox : List Output
  /-- The model's own counter that makes every free value fresh (log 9). -/
  freeCtr : Nat
  /-- Grade, straps and identity of the part (log 2). -/
  part : Part
  /-- The register file: device address to word; an unlisted register holds its reset word. -/
  regs : Table Word
  /-- All byte memories by device address; an unlisted byte reads as 0 (log 1). -/
  mem : List Host.Cell
  /-- The inverted bits of the 39-bit code word of a stored word, by word address (R209, R221). -/
  ecc : Table Nat
  /-- Event pulses in flight: event number and destination domain (R33). -/
  evq : List (Nat × Domain)
  /-- MSI vectors held by the endpoint, rising (R393). -/
  msiHeld : List Nat
  /-- The tick counter copy of each domain, by its number (R17). -/
  tickCopy : Table (BitVec 48)
  /-- The timebase. -/
  tb : Timebase
  /-- Encoders by number. -/
  enc : Table Encoder
  /-- Latched time sets by requester (R47). -/
  snaps : Table (Option TimeSet)
  /-- The host's post or cancel (R453). -/
  hop : HostOp
  /-- Action stores by sector. -/
  stores : Table Store
  /-- PWM pairs: number 8·s + j. -/
  pwm : Table PwmPair
  /-- Capture units: number 8·s + k. -/
  cap : Table Capture
  /-- The time of the last accepted edge of a quadrature decoder: number 2·s + q (R63). -/
  qdAt : Table (Option (BitVec 64))
  /-- Values of the current tick by sector (R72). -/
  sect : Table SectTick
  /-- The values that the timebase sent with the current tick (R72). -/
  tickVals : SectTick
  /-- The round-robin pointer of each scratchpad bank: number 8·s + b (R21). -/
  rr : Table Nat
  /-- The engines that still wait of those that asked for a bank in one cycle, with the pointer of that cycle (R19, R21). -/
  rrAsk : Table (Nat × List Nat)
  /-- Loop engines by number. -/
  eng : Table Engine
  /-- Slots: number 16·t + k. -/
  chans : Table Chan
  /-- Whether a request buffer holds a release until DONE (R105); its other state stands in its registers. -/
  rb : Table Bool
  /-- The allocator queue, oldest first (R106). -/
  aq : List Request
  /-- The fault log, oldest first (R119). -/
  flog : List FaultEntry
  /-- The pad switches that stand open (R141). -/
  baySw : BaySwitches
  /-- Switch measurements by bay (R140). -/
  rcal : Table (Option RCal)
  /-- Converters by number. -/
  adc : Table Adc
  /-- Comparators: number 4·s + c. -/
  cmp : Table Cmp
  /-- DACs by number. -/
  dac : Table Dac
  /-- Fabrics by sector. -/
  fab : Table Fabric
  /-- The flip-flops of the logic cells, by number 2,048·s + 128·p + c; one without a value holds its INIT as loaded (R226, R325). -/
  ffs : Table (Option Bool)
  /-- The descriptor kept by an armed DMA channel: number 8·s + k (R219). -/
  dmaTrig : Table (Option Nat)
  /-- A vault wipe in progress and its last cause (R225). -/
  wipe : Option Nat
  /-- The session (chapter 10). -/
  attar : Attar
  /-- Applies that have not reached every domain, oldest first (R245). -/
  strobes : List Strobe
  /-- Supplies and run state. -/
  pwr : Power
  /-- The PCIe configuration header. -/
  pcie : Pcie
  /-- The Sillage FIFO. -/
  sil : Sillage
  /-- ACT_OUT[p]: the last firing (R252). -/
  actOut : Table Signal
  /-- The cycle of the last firing on each pin (R54). -/
  actAt : Table (Option (BitVec 64))
  /-- CH_OUT[p]: the last committed pin entry or release value (R252). -/
  chOut : Table Signal
  /-- Deferred pin entries until the PIN_CLK boundary, with the tick of their commit and their pin: number 8·slot + binding (R95). -/
  pinDef : Table (Word × BitVec 48 × Nat)
  /-- Release values of pins until the PIN_CLK boundary: value + 1 by pin (R120). -/
  pinRel : Table Nat
  /-- Latch clears on their way to MOD_CLK: sector, latch 0 to 5, and whether a PWM period start sent it (R184). -/
  clearq : List (Nat × Nat × Bool)
  /-- Corrected scratchpad words that wait for their write-back (R209). -/
  wbq : List Nat
  /-- The pads. -/
  pins : Pins
  /-- The last level that drove a pad with a keeper (R258). -/
  keep : Table (Option Bool)
  /-- Whether ABORT has been written to a busy DMA channel (R220): number 8·s + k. -/
  dmaAbort : Table Bool
  /-- Barchan lines by number. -/
  lines : Table Line
  /-- Nodes: number 32·l + node address. -/
  nodes : Table Node
  /-- The pair. -/
  pair : Pair
  /-- Life cycle, fuses and key RAM (log 2). -/
  lc : LifeCycle
  /-- The loader. -/
  loader : Loader
  /-- Configuration memory of the frames that are no register or RAM (R324): number 64·frame + word. -/
  cfgmem : Table Word
  /-- The inverted bits of the stored words of configuration memory (R356, R358); word 40 is the check word. -/
  cfgFlip : Table Nat
  /-- The scrubber and the regions. -/
  scrub : Scrub
  /-- The safe plane. -/
  safe : Safe
  /-- The in-service tester. -/
  ist : Ist
  /-- A snapshot in progress. -/
  snap : Option Snapshot
  /-- CAN controllers. -/
  can : Table Can
  /-- SPI controllers. -/
  spi : Table Serial
  /-- I²C controllers. -/
  i2c : Table Serial
  /-- UART controllers. -/
  uart : Table Serial
  /-- The TAP. -/
  tap : Tap
deriving DecidableEq, Repr

/-- The reasons for which the machine stops with a fault. -/
inductive Fault
  /-- Never raised: no rule of the spec stops the device as a whole, and every command has an effect. Safe. -/
  | none_
deriving DecidableEq, Repr

/-- The reasons for which a command has no meaning. -/
inductive Refusal
  /-- A command whose meaning has not been written; raised by exec alone. Safe. -/
  | notModelled (mnemonic : String)
deriving DecidableEq, Repr

/-- The machine right after reset: every field at the value that the spec states, and where it states none at the value that the
assumption log names (logs 1, 2 and 3). -/
def State.reset : State where
  pending := []
  outbox := []
  freeCtr := 0
  part := ⟨4, 1, false, 0⟩
  regs := []
  mem := []
  ecc := []
  evq := []
  msiHeld := []
  tickCopy := []
  tb := ⟨0, true, 0, 0, 0, 0, 0, false, false, false⟩
  enc := []
  snaps := []
  hop := ⟨true, 0, false⟩
  stores := []
  pwm := []
  cap := []
  qdAt := []
  sect := []
  tickVals := ⟨0, 0, 0, 0, 0⟩
  rr := []
  rrAsk := []
  eng := []
  chans := []
  rb := []
  aq := []
  flog := []
  baySw := ⟨0xFFFF, 0xFFFF, 0, 0⟩
  rcal := []
  adc := []
  cmp := []
  dac := []
  fab := []
  ffs := []
  dmaTrig := []
  wipe := none
  attar := ⟨[], [], none, false, 0⟩
  strobes := []
  pwr := ⟨false, true, false, false, .run, true, true, false, false, true, 0, 0, 0⟩
  pcie := ⟨false, false, false, 1, false, 0⟩
  sil := ⟨[], none⟩
  actOut := []
  actAt := []
  chOut := []
  pinDef := []
  pinRel := []
  clearq := []
  wbq := []
  pins := ⟨false, false, false, false, none, [], [], 0, none, []⟩
  keep := []
  dmaAbort := []
  lines := []
  nodes := []
  pair := ⟨false, false, false, 0, 0, false, none, none, [], [], [], [], 0, [], false, [], [], false, none, 0, 0, none, false, 0, 0, false, none, none, false, 0, none, [], [], false⟩
  lc := ⟨0, none, none, none, none, none, 0, false, none⟩
  loader := ⟨.idle, .flash, false, 0, 0, 0xFFFFFFFF, 0, 0, 0, 0, none, 0, false, [], [], [], false, none, false, [], 0, 0, [], [], [], none, []⟩
  cfgmem := []
  cfgFlip := []
  scrub := ⟨[], [], [], 0, 0, [], 0⟩
  safe := ⟨0, 0, [], 0, none, false, false, false, 0, false, [], 0, false, none⟩
  ist := ⟨[], 0, [], 0, [], [], [], [], [], []⟩
  snap := none
  can := []
  spi := []
  i2c := []
  uart := []
  tap := ⟨1, 0, []⟩

end Sys2Proof.Machine
end

