-- ==== Sys2Proof/Machine/Ops.lean ====
section
/-! DEFINITION. The named operations over the state: registers and fields, memory and its check bits, free values, clocks, events,
trace records, access errors and interrupts. -/

namespace Sys2Proof.Machine

/-! ## Registers -/

/-- The stored word of the register at the address `a`. -/
def State.reg (s : State) (a : Nat) : Word := tget (rstWord a) s.regs a

/-- Stores a whole register word. -/
def State.setReg (s : State) (a : Nat) (w : Word) : State := { s with regs := tset (rstWord a) s.regs a w }

/-- Changes the life cycle. -/
def State.lcWith (s : State) (f : LifeCycle → LifeCycle) : State := { s with lc := f s.lc }

/-- The value of a field. -/
def State.fld (s : State) (f : RF) : Nat := f.get (s.reg f.addr)

/-- Whether a field is not 0. -/
def State.fb (s : State) (f : RF) : Bool := s.fld f != 0

/-- Stores a field, cut to its width; the other bits of the register stay. -/
def State.setFld (s : State) (f : RF) (v : Nat) : State := s.setReg f.addr (f.put (s.reg f.addr) v)

/-- Stores a one-bit field. -/
def State.setB (s : State) (f : RF) (b : Bool) : State := s.setFld f (b2n b)

/-- Adds to a counter field that saturates (R8, and every "saturating" of the field tables). -/
def State.addSat (s : State) (f : RF) (n : Nat) : State := s.setFld f (min (s.fld f + n) f.max)

/-- Bit `i` of a field. -/
def State.fbit (s : State) (f : RF) (i : Nat) : Bool := (s.fld f).testBit i

/-- Sets bit `i` of a field. -/
def State.orBit (s : State) (f : RF) (i : Nat) : State := s.setFld f (s.fld f ||| 2 ^ i)

/-- Clears bit `i` of a field. -/
def State.offBit (s : State) (f : RF) (i : Nat) : State := s.setFld f (s.fld f - (s.fld f &&& 2 ^ i))

/-- Stores bit `i` of a field. -/
def State.putBit (s : State) (f : RF) (i : Nat) (b : Bool) : State := if b then s.orBit f i else s.offBit f i

/-! ## Free values and what leaves the device -/

/-- A free value of this instant; the next is taken with the counter advanced (log 9). -/
def State.free (s : State) : Word := Config.freeWord s.freeCtr

/-- The counter of the free values advanced. -/
def State.fresh (s : State) : State := { s with freeCtr := s.freeCtr + 1 }

/-- An error of a timestamp within ±2 TB_CLK cycles (R158, R385). -/
def State.jitter (s : State) : Int := (s.free.toNat % 5 : Nat) - (2 : Int)

/-- A message leaves the device. -/
def State.emit (s : State) (o : Output) : State := { s with outbox := s.outbox ++ [o] }

/-! ## Memory: little-endian bytes (R5), SECDED words (R209, R221) -/

/-- The canonical form of a memory: addresses strictly rising, no listed byte that reads as an unlisted one. -/
def Memory.wf (m : List Host.Cell) : Bool := twf (fun _ => (0 : Byte)) m

/-- The byte at an address. -/
def State.byte (s : State) (a : Nat) : Byte := tget 0 s.mem a

/-- Writes a byte. -/
def State.setByte (s : State) (a : Nat) (b : Byte) : State := { s with mem := tset 0 s.mem a b }

/-- The number spelled by `n` bytes from `a` up. -/
def State.load (s : State) (a : Nat) : Nat → Nat
  | 0 => 0
  | n + 1 => (s.byte a).toNat + 256 * s.load (a + 1) n

/-- Writes the low `n` bytes of a number from `a` up. -/
def State.store (s : State) (a : Nat) : Nat → Nat → State
  | 0, _ => s
  | n + 1, v => (s.setByte a (BitVec.ofNat 8 v)).store (a + 1) n (v / 256)

/-- The aligned word at `a`, as the array holds it when its check bits agree. -/
def State.word (s : State) (a : Nat) : Word := BitVec.ofNat 32 (s.load a 4)

/-- Writes a word. -/
def State.setWord (s : State) (a : Nat) (w : Word) : State := s.store a 4 w.toNat

/-- Writes words one after the other from `a` up. -/
def State.setWords (s : State) (a : Nat) : List Word → State
  | [] => s
  | w :: r => (s.setWord a w).setWords (a + 4) r

/-- `n` words from `a` up. -/
def State.words (s : State) (a : Nat) : Nat → List Word
  | 0 => []
  | n + 1 => s.word a :: s.words (a + 4) n

/-- The inverted bits of the stored code word at the aligned address `a`. -/
def State.flips (s : State) (a : Nat) : Nat := tget 0 s.ecc (a / 4)

/-- Stores the inverted bits of a code word; new check bits leave none. -/
def State.setFlips (s : State) (a m : Nat) : State := { s with ecc := tset 0 s.ecc (a / 4) m }

/-- The number of inverted bits of the code word at `a`. -/
def State.flipCount (s : State) (a : Nat) : Nat := (bitList (s.flips a) 39).length

/-- The 32 data bits as stored, uncorrected: bits 0 to 31 of the code word are its data bits (log 12). -/
def State.storedWord (s : State) (a : Nat) : Word := s.word a ^^^ BitVec.ofNat 32 (s.flips a)

/-! ## Time and clocks -/

/-- TB_NOW as it is read (R34): open once the system PLL has lost lock, until a reset (R421). -/
def State.timeNow (s : State) : BitVec 64 := if s.tb.nowValid then s.tb.now else s.free ++ s.free

/-- TB_NOW[31:0], the timestamp of R34. -/
def State.stamp (s : State) : Word := s.timeNow.setWidth 32

/-- Low 32 bits of the tick counter. -/
def State.tickLo (s : State) : Word := s.tb.tick.setWidth 32

/-- Whether a PLL is locked: 4 PCIe, 3 lane, 2 analog, 1 core, 0 system (R418). -/
def State.locked (s : State) (i : Nat) : Bool := s.fbit CLK_STAT_LOCK i

/-- Whether the device is out of standby (R423). -/
def State.awake (s : State) : Bool := decide (s.pwr.phase = .run ∨ s.pwr.phase = .armed)

/-- Whether SECT_CLK[k] has what it needs to run (R18, R419, R423). -/
def State.sectReady (s : State) (k : Nat) : Bool := s.pwr.released && s.awake && s.locked 1 && s.fb (CLK_SECT_SDIV k)

/-- Whether SECT_CLK[k] runs: after a loss of the core PLL from its first tick boundary after lock (R18, R421). -/
def State.sectRuns (s : State) (k : Nat) : Bool := s.sectReady k && !s.pwr.stands.testBit k

/-- Whether FAB_CLK[k] has what it needs to run (R230, R419). -/
def State.fabReady (s : State) (k : Nat) : Bool := s.pwr.released && s.awake && s.locked 1 && s.fb (CLK_FAB_FDIV k)

/-- Whether FAB_CLK[k] runs: after a loss of the core PLL from its first tick boundary after lock (R230, R421). -/
def State.fabRuns (s : State) (k : Nat) : Bool := s.fabReady k && !s.pwr.stands.testBit (16 + k)

/-- The field of CLK_MOD that divides MOD_CLK[g] (R419, chapter 18). -/
def modDiv (g : Nat) : RF := ⟨CLK_MOD_at, 4 * g + 2, 4 * g⟩

/-- Whether MOD_CLK[g] runs: code 4 stops it (R420). -/
def State.modRuns (s : State) (g : Nat) : Bool :=
  s.pwr.released && s.awake && s.locked 2 && decide (s.fld (modDiv g) < 4)

/-- The number of SECT_CLK[k] cycles in `n` TB_CLK cycles, rounded down: SECT_CLK is 25 MHz × M / SDIV (R418). -/
def State.toSect (s : State) (k n : Nat) : Nat := n * 25 * s.fld CLK_CORE_M / (s.fld (CLK_SECT_SDIV k) * 200)

/-- The number of TB_CLK cycles in `n` SECT_CLK[k] cycles, rounded down. -/
def State.ofSect (s : State) (k n : Nat) : Nat := n * 200 * s.fld (CLK_SECT_SDIV k) / (25 * s.fld CLK_CORE_M)

/-- C_s: SECT_CLK[k] cycles in a tick (R116). -/
def State.tickCycles (s : State) (k : Nat) : Nat := s.toSect k (s.fld TB_TICKLEN_CYCLES)

/-- A number for each clock domain. -/
def Domain.num : Domain → Nat
  | .sect s => s.val
  | .fab k => 16 + k.val
  | .mod g => 24 + g.val
  | .tb => 28 | .pin => 29 | .sys => 30 | .cfg => 31 | .safe => 32 | .rtc => 33 | .pcie => 34 | .pair => 35 | .line => 36
  | .dbg => 37 | .mram => 38 | .can => 39

/-- Whether a domain receives ticks: RTC_CLK and DBG_CLK do not (R15). -/
def Domain.ticks : Domain → Bool
  | .rtc => false
  | .dbg => false
  | _ => true

/-- Whether a domain's clock can run from its next tick boundary on (R421). -/
def State.domReady (s : State) : Domain → Bool
  | .sect k => s.sectReady k.val
  | .fab k => s.fabReady k.val
  | .mod g => s.modRuns g.val
  | .pcie => s.locked 4
  | .pair => s.awake && s.locked 3
  | .line => s.awake && s.locked 3
  | .safe => true
  | .rtc => true
  | .dbg => true
  | _ => s.awake && s.locked 0

/-- Whether a domain's clock runs. -/
def State.domRuns (s : State) : Domain → Bool
  | .sect k => s.sectRuns k.val
  | .fab k => s.fabRuns k.val
  | d => s.domReady d

/-- The number of SECT_CLK[k] cycles that `n` TB_CLK cycles take, rounded up. -/
def State.sectUp (s : State) (k n : Nat) : Nat := s.toSect k n + b2n (s.ofSect k (s.toSect k n) < n)

/-! ## Typed parts of the state -/

/-- An encoder at reset. -/
def encReset : Encoder := ⟨0, 0, 0, false, [], none, 0, false, false, 0, none, false⟩

/-- An empty action store. -/
def storeReset : Store := ⟨[], [], 0, none⟩

/-- A register bank at the creation of a channel, with its resume point (R68). -/
def bankReset (entry : Nat) : Bank := ⟨[], 0, 0, [], [], [], 0, false, false, entry⟩

/-- Settings of a slot that holds no channel. -/
def descReset : Desc := ⟨0, 0, 0, 0x1FF, 0, 0, [0, 0, 0, 0], [0, 0, 0, 0], [0, 0, 0, 0, 0, 0, 0, 0]⟩

/-- A slot at reset: FREE, generation 0x001 (R103). -/
def chanReset : Chan :=
  ⟨.free, 1, descReset, bankReset 0, 0, true, false, false, 0, false, false, 0, 0, none, none, false, 0, 0, [], [], [], none, none,
    [], none, false, none, none, [], false, none⟩

/-- An engine at reset. DESIGN CHOICE (log 84): before any BASE channel has activated, an engine takes BASE channels from slot 0
(R115). -/
def engReset : Engine := ⟨none, [], none, none, [], 0, [], 15, false, false, none, [], [], [], [], false⟩

/-- A converter at reset. -/
def adcReset : Adc :=
  ⟨false, 0, 1, false, 2 ^ 30, none, [], [], [], [], [], [], false, 0, false, none, none, 0, none, 0, false⟩

/-- A comparator at reset. -/
def cmpReset : Cmp := ⟨false, [], false⟩

/-- A DAC at reset. -/
def dacReset : Dac := ⟨0, false, false, false⟩

/-- The fabric of a sector at reset. -/
def fabReset : Fabric := ⟨[], [], 0, 0, 0, [], [], none, [], 0⟩

/-- An empty result record (R159). -/
def recReset : AdcRec := ⟨0, 0, 0, false, false, false, 0, false⟩

/-- Encoder `i`. -/
def State.encOf (s : State) (i : Nat) : Encoder := tget encReset s.enc i
/-- Stores encoder `i`. -/
def State.setEnc (s : State) (i : Nat) (e : Encoder) : State := { s with enc := tset encReset s.enc i e }
/-- The action store of sector `k`. -/
def State.storeOf (s : State) (k : Nat) : Store := tget storeReset s.stores k
/-- Stores an action store. -/
def State.setStore (s : State) (k : Nat) (x : Store) : State := { s with stores := tset storeReset s.stores k x }
/-- LE[t]. -/
def State.engOf (s : State) (t : Nat) : Engine := tget engReset s.eng t
/-- Stores LE[t]. -/
def State.setEng (s : State) (t : Nat) (e : Engine) : State := { s with eng := tset engReset s.eng t e }
/-- The slot with number `i` = 16·t + k. -/
def State.chanOf (s : State) (i : Nat) : Chan := tget chanReset s.chans i
/-- Stores a slot. -/
def State.setChan (s : State) (i : Nat) (c : Chan) : State := { s with chans := tset chanReset s.chans i c }
/-- Converter `n`. -/
def State.adcOf (s : State) (n : Nat) : Adc := tget adcReset s.adc n
/-- Stores converter `n`. -/
def State.setAdc (s : State) (n : Nat) (x : Adc) : State := { s with adc := tset adcReset s.adc n x }
/-- Comparator `n`. -/
def State.cmpOf (s : State) (n : Nat) : Cmp := tget cmpReset s.cmp n
/-- Stores comparator `n`. -/
def State.setCmp (s : State) (n : Nat) (x : Cmp) : State := { s with cmp := tset cmpReset s.cmp n x }
/-- DAC `n`. -/
def State.dacOf (s : State) (n : Nat) : Dac := tget dacReset s.dac n
/-- Stores DAC `n`. -/
def State.setDac (s : State) (n : Nat) (x : Dac) : State := { s with dac := tset dacReset s.dac n x }
/-- The fabric of sector `k`. -/
def State.fabOf (s : State) (k : Nat) : Fabric := tget fabReset s.fab k
/-- Stores the fabric of sector `k`. -/
def State.setFab (s : State) (k : Nat) (x : Fabric) : State := { s with fab := tset fabReset s.fab k x }

/-- Whether a slot's channel takes triggers: STARTING, RUNNING or STOPPING (R114). -/
def ChanState.live : ChanState → Bool
  | .starting => true
  | .running => true
  | .stopping => true
  | _ => false

/-- The trigger event of a channel (R109). -/
def Chan.event (c : Chan) : Nat := bits c.desc.trigger.toNat 8 0
/-- The budget of a channel. -/
def Chan.budget (c : Chan) : Nat := bits c.desc.budget.toNat 18 0
/-- The note of a channel: 0 TOP, 1 HEART, 2 BASE. -/
def Chan.note (c : Chan) : Nat := bits c.desc.mode.toNat 1 0
/-- Whether a channel is gated. -/
def Chan.gated (c : Chan) : Bool := c.desc.mode.toNat.testBit 2
/-- The entry point of a channel. -/
def Chan.entry (c : Chan) : Nat := bits c.desc.sched.toNat 11 0
/-- The period of a channel in ticks. -/
def Chan.period (c : Chan) : Nat := bits c.desc.sched.toNat 23 16 + 1
/-- The phase of a channel in ticks. -/
def Chan.phase (c : Chan) : Nat := bits c.desc.sched.toNat 31 24

/-! ## Conditions of the device -/

/-- A safe trip is in force (R371). -/
def State.tripped (s : State) : Bool := s.fb SAFE_STAT_TRIPPED

/-- The device holds the standby role of a pair: SEEK, JOINING, STANDBY or DEPOSED (R299). -/
def State.pairStandby (s : State) : Bool :=
  let r := s.fld PAIR_STAT_ROLE
  r == 1 || r == 2 || r == 3 || r == 6

/-- The allocator and Attar serve no requests (R110, R234): in the standby role, and in LONE up to its first tick boundary (R299). -/
def State.noService (s : State) : Bool := s.pairStandby || s.pair.waits

/-- Engines run live: no pair, PRIMARY or LONE (R299). -/
def State.live (s : State) : Bool :=
  let r := s.fld PAIR_STAT_ROLE
  r == 0 || r == 4 || r == 5

/-- The strobes that wait for a domain (R244, R245). -/
def State.strobesFor (s : State) (d : Domain) : List Strobe :=
  s.strobes.filter (fun x => x.doms.contains d && decide (x.tick.toNat ≤ s.tb.tick.toNat))

/-- An event of R242 meets the session: a running check is marked, a passed one is void, and an armed apply is cancelled where the
event is not a staged write (R247). DESIGN CHOICE (log 87): a strobe on its way that no domain has taken is cancelled too; once a domain
has taken it, the apply goes ahead, since all domains take it or none (R244). The strobe of the session is the one that SYS_CLK has
not taken: the strobe of an earlier session is none of this one's. -/
def State.invalidate (s : State) : State :=
  match s.fld ATTAR_STAT_STATE with
  | 2 => { s with attar := { s.attar with dirty := true } }
  | 3 => s.setFld ATTAR_STAT_STATE 1
  | 4 =>
    if s.strobes.any (fun x => x.own && x.begun && x.doms.contains .sys) then s
    else { ((s.setFld ATTAR_STAT_STATE 1).setFld ATTAR_STAT_LASTFAIL 2).setFld ATTAR_IRQ_STAT_APPLYFAIL 1 with
      attar := { s.attar with target := none, since := s.tb.now }
      strobes := s.strobes.filter (fun x => !(x.own && x.doms.contains .sys)) }
  | _ => s

/-! ## Sillage records (R385 to R387) -/

/-- The kind of record that is the chosen trigger: 2 CHFAULT, 3 IST, 4 a MARK with bit 31 of its data (R387). -/
def silTrigger (trig kind : Nat) (ws : List Word) : Bool :=
  (trig == 2 && kind == 4) || (trig == 3 && kind == 7) || (trig == 4 && kind == 8 && (ws.getD 2 0).toNat.testBit 31)

/-- A trace record of a kind arrives with its words 1 to 3, word 1 without its KIND; TIME is now (R385, R386). -/
def State.trace (s : State) (kind : Nat) (time w1 w2 w3 : Word) : State :=
  if s.fbit SILLAGE_CFG_SRCEN (kind - 1) then
    let ws := [time + BitVec.ofInt 32 s.jitter, w1 ||| BitVec.ofNat 32 (kind * 2 ^ 28), w2, w3]
    let s := s.fresh
    if s.fb SILLAGE_STAT_FROZEN then s.addSat SILLAGE_CNT_SKIPPED 1
    else if s.sil.fifo.length ≥ 256 then (s.addSat SILLAGE_CNT_LOST 1).setFld SILLAGE_IRQ_STAT_LOST 1
    else
      let t := silTrigger (s.fld SILLAGE_CFG_TRIG) kind ws && !s.fb SILLAGE_STAT_TRIGGERED
      let s' := { s with sil := { s.sil with fifo := s.sil.fifo ++ [(ws, t)] } }
      if t then s'.setFld SILLAGE_STAT_TRIGGERED 1 else s'
  else s

/-! ## Events (R32, R33) -/

/-- Whether sector `k` has a listener for the event: a channel's trigger binding or an armed DMA channel (R114, R219). -/
def State.sectListens (s : State) (k e : Nat) : Bool :=
  s.chans.any (fun p => p.1 / 256 == k && p.2.st.live && p.2.event == e) ||
    s.dmaTrig.any (fun p => p.1 / 8 == k && p.2 == some e)

/-- Whether a converter of group `g` takes the event as its trigger (R154). -/
def State.modListens (s : State) (g e : Nat) : Bool :=
  (List.range 8).any (fun j => s.fld (ADC_TRIG_SRC (8 * g + j)) == 2 && s.fld (ADC_TRIG_EVENT (8 * g + j)) == e
    && s.fb (ADC_CFG_EN (8 * g + j)))

/-- A pulse of comparator or window events that cannot be accepted counts in its source (R188); other sources name no counter. -/
def State.eventLost (s : State) (e : Nat) : State :=
  if e < 0x40 then ((s.addSat (CMP_CNT_EVOVF (e / 4) (e % 4)) 1).setFld (CMP_IRQ_STAT_EVOVF (e / 4)) 1)
  else if e < 0x60 then
    ((s.addSat (CMP_WIN_STAT_EVOVF ((e - 0x40) / 2) (e % 2)) 1).setFld (CMP_IRQ_STAT_EVOVF ((e - 0x40) / 2)) 1)
  else s

/-- An event pulse enters the synchroniser of one destination, or is refused there: a pulse of the same line is still in flight
(R13, R33), or a comparator's pulse finds the sector's clock stopped (R188). -/
def State.firePulse (s : State) (e : Nat) (d : Domain) : State :=
  if s.evq.any (fun p => p.1 == e && p.2 == d) || (decide (e < 0x60) && !s.domRuns d) then s.eventLost e
  else { s with evq := s.evq ++ [(e, d)] }

/-- An event fires: a pulse to each sector and each converter group that listens, and of a comparator or window event to every sector
(R33, R114, R154, R188, R219). 0x1FF never fires. -/
def State.fire (s : State) (e : Nat) : State :=
  let ds := (List.finRange 16).filterMap (fun k => if e < 0x60 || s.sectListens k.val e then some (Domain.sect k) else none) ++
    (List.finRange 4).filterMap (fun g => if s.modListens g.val e then some (Domain.mod g) else none)
  if e ≥ 0x1FF then s else ds.foldl (fun s d => s.firePulse e d) s

/-! ## What a primary sends to its partner (R301, R303) -/

/-- The partner is joining: a LONE device mirrors from the start of the join (R314). -/
def State.joinRuns (s : State) : Bool := s.fld PAIR_STAT_ROLE == 5 && s.fld PAIR_STAT_PROLE == 2

/-- The level of the transmit queue (R308), in half bytes: the link takes 5 of them in a TB_CLK cycle (R295) while it is up. -/
def State.txLevel (s : State) : Nat :=
  if s.fb PAIR_STAT_LINK then s.pair.txq - 5 * (s.tb.now - s.pair.txAt).toNat else s.pair.txq

/-- The level of the transmit queue in 16-byte units, as PAIR_TXQ shows it. -/
def State.txUnits (s : State) : Nat := (s.txLevel + 31) / 32

/-- What a message takes in the queue, in half bytes: packets of up to 64 words, each with 12 bytes of framing (R295). -/
def packetSize (ws : List Nat) : Nat := 2 * (12 * max 1 ((ws.length + 63) / 64) + 4 * ws.length)

/-- The KIND of a packet (R301). -/
def packetKind (kind : String) : Nat :=
  match kind with
  | "TICK" => 1 | "LOG" => 2 | "WRITE" => 3 | "SESSION" => 4 | "ALLOC" => 5 | "REFRESH" => 6 | "BULK" => 7 | "STATUS" => 8
  | _ => 9

/-- The words of a packet between its start and end symbols (R295): the header, the payload, and the CRC-32 over both. -/
def packetWords (kind seq : Nat) (ws : List Nat) : List Nat :=
  let body := (kind + (ws.length - 1) % 64 * 2 ^ 8 + seq % 2 ^ 16 * 2 ^ 16) :: ws
  body ++ [(crc32 (body.flatMap (fun w => wordBytes (BitVec.ofNat 32 w)))).toNat]

/-- A message goes out in packets of up to 64 words with rising sequence numbers (R295; log 42). -/
def State.sendPackets (s : State) (kind : String) (ws : List Nat) : State :=
  (List.range (max 1 ((ws.length + 63) / 64))).foldl (fun s i =>
    ({ s with pair := { s.pair with txSeq := s.pair.txSeq + 1 } } : State).emit
      (.message kind (packetWords (packetKind kind) s.pair.txSeq.toNat ((ws.drop (64 * i)).take 64)))) s

/-- A number of up to 64 bits as two words of a packet, the lower first. -/
def twoWords (n : Nat) : List Nat := [n % 2 ^ 32, n / 2 ^ 32]

/-- A packet enters the transmit queue of 256 KB; one that would overflow it is not queued, which the next TICK reports (R308). -/
def State.queuePacket (s : State) (kind : String) (ws : List Nat) : State :=
  let n := s.txLevel + packetSize ws
  if n > 0x80000 then { s with pair := { s.pair with txOver := true } }
  else
    let s1 := { s with pair := { s.pair with txq := n, txAt := s.tb.now } }.sendPackets kind ws
    s1.setFld PAIR_TXQ_HIGH (max (s1.fld PAIR_TXQ_HIGH) s1.txUnits)

/-- A packet to the standby: a PRIMARY sends it, and a LONE device during a join. -/
def State.toPartner (s : State) (kind : String) (ws : List Nat) : State :=
  if s.fld PAIR_STAT_ROLE = 4 ∨ s.joinRuns = true then s.queuePacket kind ws else s

/-- A standby discards a write of its own requesters to mirrored state (R303). -/
def State.localWrite (s : State) : State := s.setFld PAIR_IRQ_STAT_LOCALWR 1

/-- The standby makes an engine DIVERGED (R302, R304): every channel of it is to be refreshed. -/
def State.diverge (s : State) (t : Nat) : State :=
  let s1 := (s.orBit (PAIR_DIVERGE_ENG (t / 32)) (t % 32)).setFld PAIR_IRQ_STAT_DIVERGE 1
  { s1 with pair := { s1.pair with refreshed := s1.pair.refreshed.filter (fun i => i / 16 != t) } }

/-! ## Angle-synchronous averages (R167) -/

/-- SPEED_OK falls, DIR changes or P jumps: every angle-synchronous converter clears its ring. -/
def State.asyncLost (s : State) : State :=
  (List.range 32).foldl (fun s n =>
    if s.fb (ADC_CFG_ASYNC n) && s.fb (ADC_CFG_EN n) then
      (s.setAdc n { s.adcOf n with ring := [], syncFirst := false, osrNow := 0 }).setFld (ADC_IRQ_STAT_NOSYNC n) 1
    else s) s

/-- The master estimate changed between two states in a way that ends synchronisation (R167). -/
def asyncCheck (old s : State) : State :=
  if (old.tb.speedOk && !s.tb.speedOk) || old.tb.dir != s.tb.dir then s.asyncLost else s

/-! ## Access errors (R25, R26) -/

/-- Records an access error of the host or the maintenance port: the causes, and the capture of the first. -/
def State.accessError (s : State) (req a : Nat) (unmapped size denied : Bool) : State :=
  let clear := !(s.fb SYS_ERRSTAT_UNMAPPED || s.fb SYS_ERRSTAT_SIZE || s.fb SYS_ERRSTAT_DENIED)
  let s1 := if clear then (s.setFld SYS_ERRSTAT_REQUESTER req).setFld SYS_ERRADDR_ADDR a else s.setFld SYS_ERRSTAT_OVERFLOW 1
  let s2 := if unmapped then s1.setFld SYS_ERRSTAT_UNMAPPED 1 else s1
  let s3 := if size then s2.setFld SYS_ERRSTAT_SIZE 1 else s2
  if denied then s3.setFld SYS_ERRSTAT_DENIED 1 else s3

/-- A command on a register at `a` of the bay window of sector `k`: while the sector's region is held the write has no effect and is
denied (R352). The command names no requester; DESIGN CHOICE (log 95): the error counts as the host's. -/
def State.bayGate (s : State) (k a : Nat) (f : State → State) : State :=
  if s.fb (BAY_STATUS_HELD k) then s.accessError 403 a false false true else f s

/-! ## Interrupts and MSI (R28 to R31, R451, R393) -/

/-- The group whose enable register stands at the address; its status register is the word before (R28). -/
def irqGroup (a : Nat) : Option Nat :=
  if a = TB_IRQ_EN_at then some 0 else if a = ALLOC_IRQ_EN_at then some 1 else if a = ATTAR_IRQ_EN_at then some 2
  else if a = XBAR_IRQ_EN_at then some 3 else if a = PAIR_IRQ_EN_at then some 5 else if a = CFG_IRQ_EN_at then some 6
  else if a = SCRUB_IRQ_EN_at then some 7 else if a = IST_IRQ_EN_at then some 8 else if a = SAFE_IRQ_EN_at then some 9
  else if a = PCIE_IRQ_EN_at then some 11 else if a = RETAIN_IRQ_EN_at then some 12 else if a = SILLAGE_IRQ_EN_at then some 13
  else if a = VAULT_IRQ_EN_at then some 14 else if a = CLK_IRQ_EN_at then some 15
  else if 0x40009000 ≤ a ∧ a < 0x40009800 then (if a % 0x100 = 0x24 then some 4 else none)
  else if 0x4000f000 ≤ a ∧ a < 0x4000f800 then (if a % 0x200 = 0x14 then some 10 else none)
  else if 0x4000f800 ≤ a ∧ a < 0x40010000 then (if a % 0x40 = 0x10 then some 15 else none)
  else if 0x30000000 ≤ a ∧ a < 0x30100000 then
    (let o := a % 0x10000
     if o = 0xc ∨ o = 0x4014 ∨ o = 0x5014 ∨ o = 0x60a8 ∨ o = 0x8014 ∨ o = 0x9014 ∨ o = 0xd00c then some (16 + a / 0x10000 % 16)
     else none)
  else none

/-- SYS_IRQ_PEND: the groups with an enabled cause set (R29); the causes of SYS itself are always enabled (R451). -/
def State.irqPend (s : State) : Nat :=
  s.regs.foldl (fun m p => match irqGroup p.1 with
    | some g => if p.2 &&& s.reg (p.1 - 4) = 0 then m else m ||| 2 ^ g
    | none => m)
    (if (s.reg SYS_ERRSTAT_at).toNat &&& 0xF = 0 ∧ s.reg SYS_TICKSKEW_at = 0 ∧ s.reg SYS_TICKMISS_at = 0 ∧
        s.fb SYS_STATUS_TICK_SLIP = false then 0 else 2 ^ 15)

/-- INT_N is low: an enabled group is pending (R29). -/
def State.intLow (s : State) : Bool := s.irqPend &&& (s.reg SYS_IRQ_ENABLE_at).toNat != 0

/-- The MSI vector that SYS_MSI_MAP gives a group (R30). -/
def State.msiVector (s : State) (g : Nat) : Nat := bits (s.reg (SYS_MSI_MAP_at (g / 8))).toNat (4 * (g % 8) + 2) (4 * (g % 8))

/-- Whether the endpoint may send an MSI (R393). -/
def State.msiOpen (s : State) : Bool := s.pcie.bme && s.pcie.msiEn && !s.fb PCIE_STAT_D3

/-- The vectors of a set of groups, reduced modulo the number granted: one message per vector, lowest group first (R30, R31). -/
def State.msiVectors (s : State) (groups : Nat) : List Nat :=
  ((bitList groups 32).map (fun g => s.msiVector g % s.pcie.grant)).foldl (fun l v => if l.contains v then l else l ++ [v]) []

/-- A vector among the held ones, at most once each, rising (R393). -/
def holdVector : List Nat → Nat → List Nat
  | [], v => [v]
  | h :: r, v => if h = v then h :: r else if v < h then v :: h :: r else h :: holdVector r v

/-- Sends the messages of a set of groups, or holds them while the endpoint may not send (R30, R31, R393). -/
def State.sendMsi (s : State) (groups : Nat) : State :=
  if s.msiOpen then { s with outbox := s.outbox ++ (s.msiVectors groups).map Output.msi }
  else { s with msiHeld := ((bitList groups 32).map s.msiVector).foldl holdVector s.msiHeld }

/-- The groups that rose between two states and are enabled onto MSI (R30). -/
def rose (s s' : State) : Nat :=
  (s'.irqPend - (s'.irqPend &&& s.irqPend)) &&& (s'.reg SYS_MSI_ENABLE_at).toNat

end Sys2Proof.Machine
end

