-- ==== Sys2Proof/Machine/Pads.lean ====
section
/-! DEFINITION. What the pads show and what the inputs receive: the output signals, the pads in each condition, the levels read, and
the input routing (R61, R249 to R266); then the end of every command. -/

namespace Sys2Proof.Machine

/-! ## PWM waveforms (R61) -/

/-- The intervals of period cycles in which a PWM output is high (R61). `n` is PERIOD + 1, `d` the duty that governs the side. -/
def pwmIntervals (mode : Nat) (centre : Bool) (n dead duty : Nat) (side1 : Bool) : List (Nat × Nat) :=
  let d := min duty n
  match mode, centre with
  | 1, false => [(0, d)]
  | 1, true => [((n - d) / 2, (n - d) / 2 + d)]
  | 2, false => if side1 then [(d, n - dead)] else [(0, d - dead)]
  | 2, true =>
    let a := (n - d + dead) / 2
    if side1 then [(0, a - dead), (a + d, n)] else [(a, a + d - dead)]
  | _, _ => []

/-- Whether a cycle lies in one of the intervals. -/
def inIntervals (l : List (Nat × Nat)) (c : Nat) : Bool := l.any (fun p => decide (p.1 ≤ c ∧ c < p.2))

/-- A PWM pair at reset. -/
def pwmReset : PwmPair := ⟨0, 0, 0, 0, 0, 0, none, none, 0, 0⟩

/-- The pair PWM[2j], PWM[2j+1] of sector `k`. -/
def State.pwmOf (s : State) (k j : Nat) : PwmPair := tget pwmReset s.pwm (8 * k + j)

/-- The intervals of one side of a pair under the settings and duties in force. -/
def State.pwmSide (s : State) (k j : Nat) (side1 : Bool) : List (Nat × Nat) :=
  let p := s.pwmOf k j
  let mode := s.fld (STM_PWM_CFG_MODE k j)
  pwmIntervals mode (s.fb (STM_PWM_CFG_CENTRE k j)) (s.fld (STM_PWM_CFG_PERIOD k j) + 1) (s.fld (STM_PWM_CFG_DEAD k j))
    (if side1 && mode == 1 then p.d1 else p.d0) side1

/-- Whether this is the PIN_CLK edge before the one at which the period of a pair started (R253, R260). -/
def State.pwmEve (s : State) (k j : Nat) : Bool := s.tb.now + 1 == (s.pwmOf k j).start && (s.pwmOf k j).base == 0

/-- The cycle of the period in progress (R61): it counts cycles of SECT_CLK[k], and holds while that clock stands (R18). -/
def State.pwmCycle (s : State) (k j : Nat) : Nat :=
  let p := s.pwmOf k j
  p.base + (if s.sectRuns k && !s.pwmEve k j then s.toSect k (s.tb.now - p.start).toNat else 0)

/-- For how many cycles a side has been high in cycle `c` of a period, 0 where it is low (R253): `l` are its intervals, `hold` the cycles
for which it is held low, and `up` for how many cycles it had been high up to the start of the period. -/
def upCycles (l : List (Nat × Nat)) (hold up c : Nat) : Nat :=
  match l.find? (fun q => decide (q.1 ≤ c ∧ c < q.2)) with
  | none => 0
  | some q => if c < hold then 0 else if q.1 = 0 ∧ hold = 0 then up + c + 1 else c + 1 - max q.1 hold

/-- For how many cycles PWM[n] of sector `k` has been high, 0 where it is low. -/
def State.pwmUp (s : State) (k n : Nat) : Nat :=
  let j := n / 2
  let side1 := n % 2 == 1
  let p := s.pwmOf k j
  let up := if side1 then p.up1 else p.up0
  if s.pwmEve k j then up
  else upCycles (s.pwmSide k j side1) (if side1 then p.hold1 else p.hold0) up (s.pwmCycle k j)

/-- PWM[n] of sector `k` as PIN_CLK samples it (R253): of two outputs of a pair that are both high, the one that has risen later is
held low, and both where they have risen together. -/
def State.pwmSample (s : State) (k n : Nat) : Bool := decide (s.pwmUp k (if n % 2 = 0 then n + 1 else n - 1) < s.pwmUp k n)

/-! ## The serial pool (R401 to R404) -/

/-- A controller at rest. -/
def serialReset : Serial := ⟨[], [], false⟩

/-- SPI[m]. -/
def State.spiOf (s : State) (m : Nat) : Serial := tget serialReset s.spi m
/-- Stores SPI[m]. -/
def State.setSpi (s : State) (m : Nat) (x : Serial) : State := { s with spi := tset serialReset s.spi m x }
/-- I2C[m]. -/
def State.i2cOf (s : State) (m : Nat) : Serial := tget serialReset s.i2c m
/-- Stores I2C[m]. -/
def State.setI2c (s : State) (m : Nat) (x : Serial) : State := { s with i2c := tset serialReset s.i2c m x }
/-- UART[m]. -/
def State.uartOf (s : State) (m : Nat) : Serial := tget serialReset s.uart m
/-- Stores UART[m]. -/
def State.setUart (s : State) (m : Nat) (x : Serial) : State := { s with uart := tset serialReset s.uart m x }

/-! ## Output signals (R252) -/

/-- The serial lines whose levels follow from the state; bits in time are free values (R252, R401 to R404, log 14). SPI: a master drives
SCK at its idle level, SDO and the chip selects, low for the selected one while words are in progress. I²C drives only low. UART: TX
idles high; RTS by FLOW or RS485. CAN TX is recessive where the controller does not send, as in bus-off (R399). A controller that is
off drives nothing. -/
def State.wireSignal (s : State) (sel : Nat) : Signal :=
  let bit := Config.wireBit s.freeCtr sel
  if sel < 0x780 then
    let m := (sel - 0x720) / 6
    let k := (sel - 0x720) % 6
    let master := s.fb (SPI_CFG_EN m) && !s.fb (SPI_CFG_SLAVE m)
    let busy := (s.spiOf m).busy
    if k = 0 then ⟨if busy then bit else decide (s.fld (SPI_CFG_MODE m) ≥ 2), master⟩
    else if k = 1 then ⟨bit, master || (s.fb (SPI_CFG_EN m) && Config.wireEnable s.freeCtr sel)⟩
    else ⟨!(busy && s.fld (SPI_CFG_CSEL m) == k - 2), master⟩
  else if sel < 0x790 then
    let x := s.i2cOf ((sel - 0x780) / 2)
    ⟨false, s.fb (I2C_CFG_EN ((sel - 0x780) / 2)) && x.busy && Config.wireEnable s.freeCtr sel⟩
  else if sel < 0x7A0 then
    let m := (sel - 0x790) / 2
    let x := s.uartOf m
    let rts := if s.fb (UART_CFG_RS485 m) then x.busy || !x.tx.isEmpty
      else if s.fb (UART_CFG_FLOW m) then decide (16 - x.rx.length < 4) else bit
    ⟨if sel % 2 = 0 then (if x.busy then bit else true) else rts, s.fb (UART_CFG_EN m)⟩
  else if sel < 0x7A4 then
    let m := sel - 0x7A0
    ⟨!(s.fb (CAN_CFG_EN m) && !s.fb (CAN_CFG_LISTEN m) && !s.pairStandby && s.fld (CAN_STAT_STATE m) != 2) || bit, s.fb (CAN_CFG_EN m)⟩
  else
    let i := sel - 0x7A4
    let m := s.fld (TB_ENC_CFG_MODE i)
    ⟨if (s.encOf i).ssiBusy.isSome then bit else true, m == 2 || m == 3⟩

/-- The signal that an OUTSEL value names (R252). -/
def State.signal (s : State) (sel : Nat) : Signal :=
  if sel < 0x160 then ⟨s.fbit (GPIO_OUT_OUT (sel / 32)) (sel % 32), s.fbit (GPIO_OE_OE (sel / 32)) (sel % 32)⟩
  else if sel < 0x2C0 then tget ⟨false, false⟩ s.chOut (sel - 0x160)
  else if sel < 0x420 then tget ⟨false, false⟩ s.actOut (sel - 0x2C0)
  else if sel < 0x620 then
    let f := s.fabOf ((sel - 0x420) / 32)
    ⟨f.out.toNat.testBit ((sel - 0x420) % 32), f.oe.toNat.testBit ((sel - 0x420) % 32)⟩
  else if sel < 0x720 then ⟨s.pwmSample ((sel - 0x620) / 16) ((sel - 0x620) % 16), true⟩
  else if sel < 0x7A8 then s.wireSignal sel
  else ⟨false, false⟩

/-- A signal after the INVOUT and ODRAIN of a word of XBAR_PAD (R251, R254). -/
def padDrive (pad : Word) (g : Signal) : Signal :=
  let v := g.value != pad.toNat.testBit 9
  ⟨v, g.enable && !(v && pad.toNat.testBit 8)⟩

/-! ## The pads (R250, R251, R260, R264 to R266) -/

/-- XBAR_PAD of a pin as it acts: at the edge E of a change of the pin's function it is still the word before the apply (R260). -/
def State.padReg (s : State) (p : Nat) : Word :=
  match tget none s.pins.hold p with
  | some (t, _, w) => if t = s.tb.now then w else s.reg (XBAR_PAD_at p)
  | none => s.reg (XBAR_PAD_at p)

/-- The safe level of a pin: 0 low, 1 high, 2 high impedance, 3 hold (R251). -/
def State.safeLevel (s : State) (p : Nat) : Nat := (XBAR_PAD_SAFE p).get (s.padReg p)

/-- Whether a pin is wired to the partner (R251). -/
def State.padShared (s : State) (p : Nat) : Bool := (XBAR_PAD_SHARED p).get (s.padReg p) != 0

/-- The supply bank of a digital pin is there (R250); analog-capable pins use AVDD. -/
def State.bankUp (s : State) (p : Nat) : Bool :=
  if p < 224 then decide (bits (s.fld XBAR_BANKSTAT_LEVEL) (2 * (p / 28) + 1) (2 * (p / 28)) ≠ 0) && !s.pins.bankOff.testBit (p / 28)
  else true

/-- The sector whose FAB_OUT or PWM an OUTSEL names, if any (R264). -/
def outsideSector (sel : Nat) : Option Nat :=
  if 0x420 ≤ sel ∧ sel < 0x620 then some ((sel - 0x420) / 32)
  else if 0x620 ≤ sel ∧ sel < 0x720 then some ((sel - 0x620) / 16) else none

/-- What a pad shows at its safe level, where `shown` says what the pads showed when the safe level took them (R251, R265). -/
def State.safeFrom (s : State) (shown : Table Signal) (p : Nat) : Signal :=
  match s.safeLevel p with
  | 0 => ⟨false, true⟩
  | 1 => ⟨true, true⟩
  | 2 => ⟨false, false⟩
  | _ => tget ⟨false, false⟩ shown p

/-- What a pad shows at its safe level in a trip (R265). -/
def State.safeSignal (s : State) (p : Nat) : Signal := s.safeFrom s.pins.trip p

/-- What boundary scan puts on a pad (R407): its cell, or nothing under HIGHZ. -/
def State.scanSignal (s : State) (p : Nat) : Signal :=
  if s.tap.pads % 4 = 3 then ⟨false, false⟩ else tget ⟨false, false⟩ s.tap.cells p

/-- What a pad registered at the edge before this one, where this edge is the E of a change of its function (R260): a return of the
pads from disabled I/O, from a trip or from the partner, or an apply. -/
def State.edgeFrom (s : State) (p : Nat) : Option Signal :=
  let how := match s.pins.edge with
    | some (t, how) => if t = s.tb.now then how else 0
    | none => 0
  let safe := if how.testBit 1 then some (s.safeSignal p) else none
  if how.testBit 0 || (how.testBit 2 && s.padShared p) then some ⟨false, false⟩
  else match tget none s.pins.hold p with
  | some (t, a, _) => if t = s.tb.now then some a else safe
  | none => safe

/-- What the device drives at pin `p`: boundary scan (R407), else the first matching condition of R264, with R250 and the changes of
R260. -/
def State.padOut (s : State) (p : Nat) : Signal :=
  let sel := s.fld (XBAR_SEL_OUTSEL p)
  let hiZ : Signal := ⟨false, false⟩
  if s.tap.pads ≠ 0 then s.scanSignal p
  else if s.pwr.released = false ∨ s.pwr.railsUp = false ∨ s.pwr.held = true then hiZ
  else if s.bankUp p = false then hiZ
  else if s.pins.on = false then hiZ
  else if s.pins.shared = true ∧ s.padShared p = true then hiZ
  else if s.pins.tripped then s.safeSignal p
  else if (outsideSector sel).any (fun k => s.fb (FAB_STAT_HELD k)) then s.safeFrom s.pins.heldAt p
  else match s.edgeFrom p with
  | some a => ⟨a.value, a.enable && (padDrive (s.padReg p) (s.signal sel)).enable⟩
  | none => padDrive (s.reg (XBAR_PAD_at p)) (s.signal sel)

/-- What the device drove at pin `p` one PIN_CLK edge ago (R260). -/
def State.padBefore (s : State) (p : Nat) : Signal := ({ s with tb := { s.tb with now := s.tb.now - 1 } } : State).padOut p

/-- The pins that have a set-up: a listed XBAR_SEL or XBAR_PAD. -/
def State.setPins (s : State) : List Nat :=
  (s.regs.filterMap (fun e =>
    if 0x40004000 ≤ e.1 ∧ e.1 < 0x40004800 + 4 * 352 then some ((e.1 - 0x40004000) / 4 % 512) else none)).eraseDups

/-! ## Levels read (R257, R258) -/

/-- The analog role of a pad: 1 IN, 2 OUT (R134); 0 for a digital pin. -/
def State.analogRole (s : State) (p : Nat) : Nat :=
  if p < 224 then 0 else bits (s.fld (BAY_PAD_CFG_ROLE ((p - 224) / 8))) (2 * ((p - 224) % 8) + 1) (2 * ((p - 224) % 8))

/-- Whether anything drives a pad, and to which level: the device, the outside, or both; a fight is open (R258). -/
def State.padDriven (s : State) (p : Nat) : Option Bool :=
  let g := s.padOut p
  match g.enable, Config.padOutside s.freeCtr p with
  | true, none => some g.value
  | true, some e => some (if e = g.value then e else Config.padOpen s.freeCtr p)
  | false, e => e

/-- Whether the pulls of the pads are on: once the outputs have taken their functions (R264). -/
def State.pullsOn (s : State) : Bool := s.pwr.released && s.pins.on

/-- The level at the pad (R258): what drives it, else its pull, else with a keeper the last level driven onto it; otherwise it is
open. -/
def State.padLevel (s : State) (p : Nat) : Bool :=
  match s.padDriven p with
  | some e => e
  | none =>
    match (if s.pullsOn then (XBAR_PAD_PULL p).get (s.padReg p) else 0) with
    | 1 => false
    | 2 => true
    | 3 => (tget none s.keep p).getD (Config.padOpen s.freeCtr p)
    | _ => Config.padOpen s.freeCtr p

/-- Every pad that has a set-up notes the level that drives it, which its keeper keeps once it has one (R258). What drove a pad before it
had a set-up is not known: its level stays open. -/
def State.keepPads (s : State) : State :=
  { s with keep := s.setPins.foldl (fun t p =>
    match s.padDriven p with | some e => tset none t p (some e) | none => tset none t p (tget none s.keep p)) [] }

/-- Whether the default level replaces a pad: its bank is absent, or its role is analog (R257, R258). -/
def State.padAway (s : State) (p : Nat) : Bool := !s.bankUp p || s.analogRole p == 1 || s.analogRole p == 2

/-- The level of a pin after INVIN (R250, R258); 0 where the pad is away. -/
def State.pinIn (s : State) (p : Nat) : Bool :=
  if s.padAway p then false else s.padLevel p != ((XBAR_PAD_INVIN p).get (s.padReg p) != 0)

/-- GPIO_IN[g] (R258). -/
def State.gpioIn (s : State) (g : Nat) : Word :=
  BitVec.ofNat 32 ((List.range 32).foldl (fun n i => n + b2n (s.pinIn (32 * g + i)) * 2 ^ i) 0)

/-! ## Input routing (R255 to R257, R261) -/

/-- The inputs that pins name, with the pin: the listed XBAR_SEL registers (R255). -/
def State.namedInputs (s : State) : List (Nat × Nat) :=
  s.regs.filterMap (fun e =>
    if 0x40004000 ≤ e.1 ∧ e.1 < 0x40004000 + 4 * 352 ∧ bits e.2.toNat 9 0 ≠ 0x3FF then
      some (bits e.2.toNat 9 0, (e.1 - 0x40004000) / 4)
    else none)

/-- The default level of an input (R255): 1 for SS of SPI, I²C, UART and CAN. -/
def inputDefault (i : Nat) : Bool := decide (0x340 ≤ i ∨ (0x310 ≤ i ∧ (i - 0x310) % 3 = 2))

/-- The pin that feeds an input: the only one that names it, once the image is routed and while its pad is there (R255 to R257,
R264). -/
def State.feeder (s : State) (i : Nat) : Option Nat :=
  if s.pins.routed = false then none
  else match (s.namedInputs.filter (fun e => e.1 == i)).map (·.2) with
  | [p] => if s.padAway p then none else some p
  | _ => none

/-- Whether a pin feeds an input. -/
def State.fed (s : State) (i : Nat) : Bool := (s.feeder i).isSome

/-- The level that an input receives (R255, R256). -/
def State.inputLevel (s : State) (i : Nat) : Bool :=
  match s.feeder i with
  | some p => s.pinIn p
  | none => inputDefault i

/-! ## Starts of the serial pool (R402 to R404) -/

/-- Whether a frame of UART[m] may start: enabled, and with flow control CTS is low (R404). -/
def State.uartMay (s : State) (m : Nat) : Bool :=
  s.fb (UART_CFG_EN m) && (!s.fb (UART_CFG_FLOW m) || s.fb (UART_CFG_RS485 m) ||
    !s.inputLevel (0x350 + 2 * m + 1))

/-- The controllers after an apply of their settings (R402 to R404): one that is on begins with what waits, and one that is off has
nothing in progress. -/
def State.poolStart (s : State) : State :=
  let s1 := s.spi.foldl (fun s p => s.setSpi p.1 { s.spiOf p.1 with
    busy := s.fb (SPI_CFG_EN p.1) && !s.fb (SPI_CFG_SLAVE p.1) && !p.2.tx.isEmpty }) s
  let s2 := s1.i2c.foldl (fun s p => s.setI2c p.1 { s.i2cOf p.1 with busy := s.fb (I2C_CFG_EN p.1) && !p.2.tx.isEmpty }) s1
  s2.uart.foldl (fun s p => s.setUart p.1 { s.uartOf p.1 with
    busy := s.fb (UART_CFG_EN p.1) && !p.2.tx.isEmpty && (p.2.busy || s.uartMay p.1) }) s2

/-! ## The end of a command -/

/-- The state after a command's own effect, with the levels that have driven the pads (R258) and the MSIs of the groups that it made
pending (R30, R31); the next command meets free values of its own. -/
def settle (s s' : State) : State :=
  if rose s s' = 0 then s'.keepPads.fresh else s'.keepPads.fresh.sendMsi (rose s s')

/-- The outcome of a command that took the machine from `s` to `s'`. -/
def done (s s' : State) : Host.Outcome State Fault Refusal := .next (settle s s')

end Sys2Proof.Machine
end

