-- ==== Sys2Proof/Machine/Compare.lean ====
section
/-! DEFINITION. Comparators and window monitors (R174 to R195). -/

namespace Sys2Proof.Machine

/-- Whether a comparator is on: a mode in force (R195), a bay that is not held, and in standby, up to its first MOD_CLK edge after
it, only where it may wake the device (R175, R191 to R193). -/
def State.cmpOn (s : State) (k c : Nat) : Bool :=
  s.pwr.released && s.fb (CMP_CFG_MODE k c) && s.fb (CMP_STAT_ON k c) && !s.fb (BAY_STATUS_HELD k) &&
    ((s.awake && !(s.cmpOf (4 * k + c)).back) || s.fbit (CMP_WAKE_WAKEEN k) c)

/-- The state that two F signals form (R186). -/
def winState (lo hi : Bool) : Nat := if hi then 2 else if lo then 1 else 0

/-- One MOD_CLK edge of a window monitor (R186, R188, R190). -/
def State.winEdge (s : State) (k w : Nat) : State :=
  if s.fb (CMP_WIN_CFG_EN k w) = false then s
  else
    let lo := s.fb (CMP_STAT_F k (2 * w))
    let hi := s.fb (CMP_STAT_F k (2 * w + 1))
    let old := s.fld (CMP_WIN_STAT_STATE k w)
    let new := winState lo hi
    let s1 := s.setFld (CMP_WIN_STAT_STATE k w) new
    let s2 := if hi && !lo then (s1.setFld (CMP_WIN_STAT_WINERR k w) 1).setFld (CMP_IRQ_STAT_WINERR k) 1 else s1
    let s3 := if new = 1 then s2 else s2.setFld (CMP_WIN_STAT_WL k w) 1
    let s4 := if old = 1 ∧ new ≠ 1 then s3.orBit (CMP_IRQ_STAT_WOUT k) w else s3
    if old = new then s4 else s4.fire (0x40 + 2 * k + w)

/-- F takes a value, and EDGES counts where that changes it (R195). -/
def State.putF (s : State) (k c : Nat) (f : Bool) : State :=
  let s1 := s.setB (CMP_STAT_F k c) f
  if s.fb (CMP_STAT_F k c) = f then s1 else s1.addSat (CMP_CNT_EDGES k c) 1

/-- F takes a value at a MOD_CLK edge: the latch, the events and the interrupt (R184, R188, R190). -/
def State.edgeF (s : State) (k c : Nat) (f : Bool) : State :=
  let old := s.fb (CMP_STAT_F k c)
  let oldL := s.fb (CMP_STAT_L k c)
  let s1 := s.putF k c f
  let s2 := if f then s1.setFld (CMP_STAT_L k c) 1 else s1
  let lRises := f && !oldL
  let s3 := if lRises then s2.orBit (CMP_IRQ_STAT_LSET k) c else s2
  let fires := match s.fld (CMP_CFG_EVT k c) with
    | 0 => f && !old
    | 1 => old && !f
    | 2 => old != f
    | _ => lRises
  if fires then s3.fire (4 * k + c) else s3

/-- C of a comparator (R174). -/
def State.cmpC (s : State) (k c : Nat) : Bool := (s.cmpOf (4 * k + c)).r != s.fb (CMP_CFG_POL k c)

/-- C_sync takes C, where MOD_CLK gives the synchroniser its edges (R174). -/
def State.cmpSync (s : State) (k c : Nat) : State :=
  if s.modRuns (k / 4) then s.setB (CMP_STAT_CSYNC k c) (s.cmpC k c) else s

/-- COMPARATOR_CROSS (R174, R177): V_IN rises above V_TH, or falls below V_TH − H; R and C follow, and C_sync while its clock runs. -/
def State.cmpCross (s : State) (k c : Nat) (above : Bool) : State :=
  if s.cmpOn k c = false then s
  else
    let n := 4 * k + c
    (s.setCmp n { s.cmpOf n with r := above }).cmpSync k c

/-- A sample edge of a comparator (R179, R182): the history takes C_sync, and F follows the majority. -/
def State.sampleF (s : State) (k c : Nat) : State :=
  if s.cmpOn k c = false ∨ s.fb (CMP_STAT_HOLD k c) = true ∨ s.modRuns (k / 4) = false then s
  else
    let s := s.cmpSync k c
    let n := 4 * k + c
    let m := s.fld (CMP_FILT_M k c)
    let need := s.fld (CMP_FILT_N k c)
    let h := (s.fb (CMP_STAT_CSYNC k c) :: (s.cmpOf n).hist).take m
    let ones := (h.filter id).length
    let f := if need ≤ ones then true else if need ≤ h.length - ones then false else s.fb (CMP_STAT_F k c)
    (s.setCmp n { s.cmpOf n with hist := h }).edgeF k c f

/-- FILTER_SAMPLE (R179, R186): a comparator samples, with the other of its window where that samples at the same edge, and the window
forms one state from both. -/
def State.filterSample (s : State) (k c : Nat) (pair : Bool) : State :=
  if s.modRuns (k / 4) = false ∨ s.cmpOn k c = false then s
  else ((if pair then s.sampleF k (c / 2 * 2 + (1 - c % 2)) else s).sampleF k c).winEdge k (c / 2)

/-- An enable event (R181, R182): no event fires and no cause is set; the change of F still counts in EDGES (R195). -/
def State.cmpEnable (s : State) (k c : Nat) : State :=
  let i := s.fb (CMP_CFG_INIT k c)
  let n := 4 * k + c
  (((((s.setCmp n ⟨i != s.fb (CMP_CFG_POL k c), List.replicate (s.fld (CMP_FILT_M k c)) i, false⟩).putF k c i).setB
    (CMP_STAT_L k c) i).setB (CMP_STAT_CSYNC k c) i).setFld (CMP_STAT_HOLD k c) 1).setFld (CMP_STAT_ON k c) 1

/-- A comparator stops (R175, R183). -/
def State.cmpOff (s : State) (k c : Nat) : State :=
  ((s.setCmp (4 * k + c) cmpReset).putF k c false).setReg (CMP_STAT_at k c) 0

/-- Every comparator and window is off and every signal reads 0: unpowered or in reset (R193). -/
def State.cmpsClear (s : State) : State :=
  let ns := List.range 64
  let s1 := ns.foldl (fun s n => s.setReg (CMP_STAT_at (n / 4) (n % 4)) 0) { s with cmp := [], clearq := [] }
  (List.range 32).foldl (fun s n => (s.setFld (CMP_WIN_STAT_STATE (n / 2) (n % 2)) 0).setFld (CMP_WIN_STAT_WL (n / 2) (n % 2)) 0) s1

/-- The first MOD_CLK edge after a return from standby (R192): a wake comparator starts its hold with history and F at C_sync, another
has an enable event. DESIGN CHOICE (log 85): C_sync has caught up with C on that edge. -/
def State.cmpReturn (s : State) (k c : Nat) : State :=
  let n := 4 * k + c
  if (s.cmpOf n).back = false then s
  else if s.fbit (CMP_WAKE_WAKEEN k) c then
    let f := s.cmpC k c
    let s1 := s.setCmp n { s.cmpOf n with hist := List.replicate (s.fld (CMP_FILT_M k c)) f, back := false }
    ((s1.setB (CMP_STAT_CSYNC k c) f).edgeF k c f).setFld (CMP_STAT_HOLD k c) 1
  else s.cmpEnable k c

/-- The first edge of MOD_CLK[g] after a return from standby, where it runs: its comparators return, then its windows form their
states (R186, R192). -/
def State.cmpReturns (s : State) (g : Nat) : State :=
  let ns := (List.range 16).filter (fun j => (s.cmpOf (16 * g + j)).back)
  if s.modRuns g = false ∨ ns = [] then s
  else
    let s1 := ns.foldl (fun s j => s.cmpReturn (4 * g + j / 4) (j % 4)) s
    (List.range 8).foldl (fun s j => s.winEdge (4 * g + j / 2) (j % 2)) s1

/-- The return from standby: every comparator with a mode waits for its first MOD_CLK edge, which comes at once where that clock runs
(R192). -/
def State.cmpsBack (s : State) : State :=
  let s1 := (List.range 64).foldl (fun s n =>
    if s.fb (CMP_CFG_MODE (n / 4) (n % 4)) = false ∨ s.fb (BAY_STATUS_HELD (n / 4)) = true then s
    else s.setCmp n { s.cmpOf n with back := true }) s
  (List.range 4).foldl State.cmpReturns s1

/-- The boundary of an apply on MOD_CLK meets comparator `c` of bay `k` (R181 to R183). -/
def State.cmpApply (old s : State) (k c : Nat) : State :=
  let m0 := old.fld (CMP_CFG_MODE k c)
  let m1 := s.fld (CMP_CFG_MODE k c)
  if m1 = 0 then (if m0 = 0 then s else s.cmpOff k c)
  else if m0 = 0 ∨ old.fld (CMP_CFG_POL k c) ≠ s.fld (CMP_CFG_POL k c) then s.cmpEnable k c
  else
    let s1 := if m0 = m1 then s else s.setFld (CMP_STAT_HOLD k c) 1
    if old.reg (CMP_FILT_at k c) = s.reg (CMP_FILT_at k c) then s1
    else s1.setCmp (4 * k + c) { s1.cmpOf (4 * k + c) with
      hist := List.replicate (s.fld (CMP_FILT_M k c)) (s.fb (CMP_STAT_F k c)) }

/-- The boundary of an apply meets window `w` of bay `k` (R186). -/
def State.winApply (s : State) (k w : Nat) : State :=
  if s.fb (CMP_WIN_CFG_EN k w) then s.winEdge k w
  else (s.setFld (CMP_WIN_STAT_STATE k w) 0).setFld (CMP_WIN_STAT_WL k w) 0

/-- A clear of latch `l` takes effect (R184 to R186): it stays where its cause is still present. -/
def State.clearLatch (s : State) (k l : Nat) : State :=
  if l < 4 then s.setB (CMP_STAT_L k l) (s.fb (CMP_STAT_F k l))
  else
    let w := l - 4
    s.setB (CMP_WIN_STAT_WL k w) (s.fb (CMP_WIN_CFG_EN k w) && s.fld (CMP_WIN_STAT_STATE k w) != 1)

/-- The tick boundary of MOD_CLK clears the latches of bay `k` with CLRSRC = 1 (R184). -/
def State.tickClears (s : State) (k : Nat) : State :=
  (List.range 6).foldl (fun s l =>
    if (if l < 4 then s.fld (CMP_CFG_CLRSRC k l) else s.fld (CMP_WIN_CFG_CLRSRC k (l - 4))) = 1 then s.clearLatch k l else s) s

/-- CMP_LATCH_WRITE (R184): clears on their way to MOD_CLK. -/
def State.latchWrite (s : State) (k : Nat) (v : Word) : State :=
  { s with clearq := s.clearq ++ (bitList v.toNat 6).map (fun l => (k, l, false)) }

/-- LATCH_CLEAR (R184, R185): the oldest clear of a latch arrives, while MOD_CLK runs. -/
def State.latchClear (s : State) (k l : Nat) : State :=
  match s.clearq.find? (fun q => q.1 == k && q.2.1 == l) with
  | some q => if s.modRuns (k / 4) then ({ s with clearq := s.clearq.erase q }).clearLatch k l else s
  | none => s

/-- COMPARATOR_CROSS. -/
def execComparatorCross (k : Fin 16) (c : Fin 4) (above : Bool) (s : State) : Host.Outcome State Fault Refusal :=
  done s (s.cmpCross k.val c.val above)
/-- FILTER_SAMPLE. -/
def execFilterSample (k : Fin 16) (c : WindowSample) (s : State) : Host.Outcome State Fault Refusal :=
  done s (s.filterSample k.val c.c.val c.pair)
/-- SETTLING_HOLD_END (R182). -/
def execSettlingHoldEnd (k : Fin 16) (c : Fin 4) (s : State) : Host.Outcome State Fault Refusal :=
  done s (s.setFld (CMP_STAT_HOLD k.val c.val) 0)
/-- CMP_LATCH_WRITE. -/
def execCmpLatchWrite (k : Fin 16) (v : Word) (s : State) : Host.Outcome State Fault Refusal :=
  done s (s.bayGate k.val (CMP_LATCH_at k.val) (fun s => s.latchWrite k.val v))
/-- LATCH_CLEAR. -/
def execLatchClear (k : Fin 16) (l : Fin 6) (s : State) : Host.Outcome State Fault Refusal := done s (s.latchClear k.val l.val)

end Sys2Proof.Machine
end

