-- ==== Sys2Proof/Machine/Dac.lean ====
section
/-! DEFINITION. The output DACs: committed codes, states, range changes and shorts (R196 to R206). -/

namespace Sys2Proof.Machine

/-- The state codes of R200. -/
def dacOff : Nat := 0
/-- WAIT. -/
def dacWait : Nat := 1
/-- DRIVE. -/
def dacDrive : Nat := 2
/-- RANGE. -/
def dacRange : Nat := 3
/-- FAULT. -/
def dacFault : Nat := 4
/-- RELHIZ. -/
def dacRelHiz : Nat := 5
/-- FORCED. -/
def dacForced : Nat := 6

/-- A code outside the limits gives the nearer limit (R199). -/
def State.dacLimit (s : State) (n code : Nat) : Nat :=
  if code < s.fld (DAC_LIMIT_LO n) then s.fld (DAC_LIMIT_LO n)
  else if s.fld (DAC_LIMIT_HI n) < code then s.fld (DAC_LIMIT_HI n) else code

/-- A clamped code counts and sets its cause (R199). -/
def State.dacClampNote (s : State) (n code : Nat) : State :=
  if s.dacLimit n code = code then s else (s.addSat (DAC_CNT_CLAMPS n) 1).setFld (DAC_IRQ_STAT_CLAMP n) 1

/-- The loopback test of a DAC that changes its code or its state is no test (R366). -/
def State.loopBreak (s : State) (n : Nat) : State :=
  let b := tget ⟨0, none⟩ s.ist.bay (n / 2)
  match b.run with
  | some r =>
    if r.kind = 5 ∧ r.unit = n then
      { s with ist := { s.ist with bay := tset ⟨0, none⟩ s.ist.bay (n / 2) { b with run := some { r with void := true } } } }
    else s
  | none => s

/-- The code in force takes a value. -/
def State.putCode (s : State) (n code : Nat) : State :=
  (if s.fld (DAC_CODE_CODE n) = code then s else s.loopBreak n).setFld (DAC_CODE_CODE n) code

/-- The code in force is brought into the limits (R199). -/
def State.dacClamp (s : State) (n : Nat) : State :=
  (s.dacClampNote n (s.fld (DAC_CODE_CODE n))).putCode n (s.dacLimit n (s.fld (DAC_CODE_CODE n)))

/-- The output voltage in microvolts, where the DAC drives its pad (R197): CODE · 125 · G; in RANGE it is the voltage held since the
boundary, which the code and the gain still in force give (R202). While the I/O is held disabled nothing drives the pad (R336). -/
def State.dacVolts (s : State) (n : Nat) : Option Nat :=
  let st := s.fld (DAC_STAT_STATE n)
  if s.baySw.pads.testBit (n / 2) then none
  else if st = dacDrive ∨ st = dacRange then some (s.fld (DAC_CODE_CODE n) * 125 * (1 + s.fld (DAC_STAT_GAINF n))) else none

/-- A DAC enters a state. Where it does not drive its pad, no limiter is active and no short is detected (R204). -/
def State.dacTo (s : State) (n st : Nat) : State :=
  let s1 := (s.loopBreak n).setFld (DAC_STAT_STATE n) st
  if st = dacDrive ∨ st = dacRange then s1
  else (s1.setFld (DAC_STAT_LIMITING n) 0).setDac n { s1.dacOf n with flagged := false }

/-- The pending code and gain of a range change come into force (R202, R203). -/
def State.dacEndHold (s : State) (n : Nat) : State :=
  (s.putCode n (s.dacOf n).pendCode).setB (DAC_STAT_GAINF n) (s.dacOf n).pendGain

/-- A committed code (R198 to R200, R202): clamped, stored, and in RANGE kept pending; it takes WAIT and RELHIZ to DRIVE. -/
def State.dacCommit (s : State) (n code : Nat) : State :=
  let c := s.dacLimit n (code % 2 ^ 14)
  let s1 := s.dacClampNote n (code % 2 ^ 14)
  let st := s.fld (DAC_STAT_STATE n)
  if st = dacRange then s1.setDac n { s1.dacOf n with pendCode := c }
  else
    let s2 := s1.putCode n c
    if st = dacWait ∨ st = dacRelHiz then (s2.dacTo n dacDrive).setFld (DAC_STAT_CODEVALID n) 1
    else if st = dacForced then s2.setFld (DAC_STAT_CODEVALID n) 1 else s2

/-- A release value (R120, R200): with HIZ the output goes high-impedance; otherwise its code is committed. -/
def State.dacRelease (s : State) (n : Nat) (w : Word) : State :=
  let st := s.fld (DAC_STAT_STATE n)
  if w.toNat.testBit 31 then
    if st = dacRange then (s.dacEndHold n).dacTo n dacRelHiz
    else if st = dacDrive then s.dacTo n dacRelHiz else s
  else s.dacCommit n (bits w.toNat 13 0)

/-- A condition of the device forces the output to high impedance (R200, R203). -/
def State.dacForce (s : State) (n : Nat) : State :=
  let st := s.fld (DAC_STAT_STATE n)
  let s := s.setDac n { s.dacOf n with role := s.pairStandby }
  if st = dacOff ∨ st = dacForced then s
  else if st = dacRange then ((s.dacEndHold n).dacTo n dacForced).setFld (DAC_STAT_CODEVALID n) 1
  else s.dacTo n dacForced

/-- Every DAC is off: in reset, and while the configuration is not released (R201). -/
def State.dacsOff (s : State) : State :=
  (List.range 32).foldl (fun s n => (s.dacTo n dacOff).setFld (DAC_STAT_CODEVALID n) 0) s

/-- The output leaves FORCED (R200): to DRIVE where it may resume and has a code, otherwise to WAIT. -/
def State.dacResume (s : State) (n : Nat) (resume : Bool) : State :=
  if s.fld (DAC_STAT_STATE n) ≠ dacForced then s
  else if resume && s.fb (DAC_STAT_CODEVALID n) then s.dacTo n dacDrive
  else (s.dacTo n dacWait).setFld (DAC_STAT_CODEVALID n) 0

/-- Whether a condition of the device forces the DACs of sector `k` (R200). -/
def State.dacsForced (s : State) (k : Nat) : Bool := s.tripped || !s.awake || s.pairStandby || s.fb (BAY_STATUS_HELD k)

/-- An apply, the image at tick 0 or a region release meets DAC `n` (R198 to R203): `old` is the state before it, `wrote` whether it
commits DAC_CODE. The register already holds the new settings. -/
def State.dacApply (old s0 : State) (n : Nat) (wrote : Bool) : State :=
  let code := s0.fld (DAC_CODE_CODE n)
  let s := if code = old.fld (DAC_CODE_CODE n) then s0 else s0.loopBreak n
  let en := s.fb (DAC_CFG_EN n)
  let st := old.fld (DAC_STAT_STATE n)
  let gain := s.fb (DAC_CFG_GAIN n)
  if en = false then (((s.dacClamp n).dacTo n dacOff).setFld (DAC_STAT_CODEVALID n) 0).setB (DAC_STAT_GAINF n) gain
  else if st = dacOff then
    let s1 := (s.dacClamp n).setB (DAC_STAT_GAINF n) gain
    let s2 := if wrote then (s1.dacTo n dacDrive).setFld (DAC_STAT_CODEVALID n) 1
      else (s1.dacTo n dacWait).setFld (DAC_STAT_CODEVALID n) 0
    if s.dacsForced (n / 2) then s2.dacForce n else s2
  else if st = dacDrive ∧ gain ≠ old.fb (DAC_CFG_GAIN n) then
    let s1 := (s.dacClampNote n code).setFld (DAC_CODE_CODE n) (old.fld (DAC_CODE_CODE n))
    (s1.dacTo n dacRange).setDac n { s1.dacOf n with pendCode := s.dacLimit n code, pendGain := gain }
  else
    let s1 := if st = dacRange then s else s.setB (DAC_STAT_GAINF n) gain
    if wrote then (s1.setFld (DAC_CODE_CODE n) (old.fld (DAC_CODE_CODE n))).dacCommit n code
    else s1.dacClamp n

/-- SHORT sets at an edge of SECT_CLK (R204): detected in DRIVE and RANGE; with FAULTPOL = 1 the output goes to FAULT. -/
def State.shortSets (s : State) (n : Nat) : State :=
  let st := s.fld (DAC_STAT_STATE n)
  let s1 := (((s.setDac n { s.dacOf n with flagged := false }).setFld (DAC_STAT_SHORT n) 1).setFld (DAC_IRQ_STAT_SHORT n) 1).addSat
    (DAC_CNT_SHORTS n) 1
  if s.fb (DAC_CFG_FAULTPOL n) then (if st = dacRange then s1.dacEndHold n else s1).dacTo n dacFault else s1

/-- The SECT_CLK boundary (R200): a DAC in FORCED with no condition left leaves it, by TRIPRESUME, or to drive its code where the
standby role held it up to now. A short flagged while the clock stood sets now (R204). -/
def State.dacBoundary (s : State) (n : Nat) : State :=
  let s := if (s.dacOf n).flagged then s.shortSets n else s
  if s.fld (DAC_STAT_STATE n) ≠ dacForced then s
  else if s.dacsForced (n / 2) then s.setDac n { s.dacOf n with role := s.pairStandby }
  else s.dacResume n (s.fb (DAC_CFG_TRIPRESUME n) || (s.dacOf n).role)

/-- RANGE_HOLD_END (R202): the new gain and the pending code take effect together. -/
def State.rangeHoldEnd (s : State) (n : Nat) : State :=
  if s.fld (DAC_STAT_STATE n) = dacRange then (s.dacEndHold n).dacTo n dacDrive else s

/-- DAC_SHORT (R204): the limiter is active or not, and the filter of the detector has flagged continuous limiting or not. SHORT is
detected in DRIVE and RANGE, and sets at an edge of SECT_CLK: at once, or once that clock runs again. -/
def State.dacShort (s : State) (n : Nat) (limiting flag : Bool) : State :=
  let st := s.fld (DAC_STAT_STATE n)
  if limiting = false then (s.setFld (DAC_STAT_LIMITING n) 0).setDac n { s.dacOf n with flagged := false }
  else if st ≠ dacDrive ∧ st ≠ dacRange then s
  else
    let s1 := s.setFld (DAC_STAT_LIMITING n) 1
    if flag = false then s1
    else if s.sectRuns (n / 2) then s1.shortSets n
    else s1.setDac n { s1.dacOf n with flagged := true }

/-- SHORT_CLEAR (R200, R204): SHORT clears, and FAULT goes to WAIT. -/
def State.shortClear (s : State) (n : Nat) : State :=
  let s1 := s.setFld (DAC_STAT_SHORT n) 0
  if s.fld (DAC_STAT_STATE n) = dacFault then (s1.dacTo n dacWait).setFld (DAC_STAT_CODEVALID n) 0 else s1

/-- RANGE_HOLD_END. -/
def execRangeHoldEnd (n : Fin 32) (s : State) : Host.Outcome State Fault Refusal := done s (s.rangeHoldEnd n.val)
/-- DAC_SHORT. -/
def execDacShort (n : Fin 32) (limiting : Limiter) (s : State) : Host.Outcome State Fault Refusal :=
  done s (s.dacShort n.val limiting.limiting limiting.flag)
/-- SHORT_CLEAR. -/
def execShortClear (n : Fin 32) (s : State) : Host.Outcome State Fault Refusal :=
  done s (s.bayGate (n.val / 2) (DAC_STAT_at n.val) (fun s => s.shortClear n.val))

end Sys2Proof.Machine
end

