-- ==== Sys2Proof/Machine/Memory.lean ====
section
/-! DEFINITION. The memories behind the device map: which access is permitted to whom (R23 to R25, R74, R216, R218, R221, R223), and
what a word, halfword or byte access does in each view with its check bits (R208 to R215, R221). -/

namespace Sys2Proof.Machine

/-- A region of the device map (R23). The scratchpads carry their view: 0 normal, 1 bit-set, 2 bit-clear, 3 rotate. -/
inductive Region
  | scratch (view : Nat) | dram | iram | bay | regs | vault | retain | sillage | image | unmapped
deriving DecidableEq, Repr

/-- The region of an address (R23). -/
def regionOf (a : Nat) : Region :=
  let o := a % 0x1000000
  match a / 0x1000000 with
  | 0x10 => if o < 0x400000 then .scratch 0 else .unmapped
  | 0x11 => if o < 0x400000 then .scratch 1 else .unmapped
  | 0x12 => if o < 0x400000 then .scratch 2 else .unmapped
  | 0x13 => if o < 0x400000 then .scratch 3 else .unmapped
  | 0x20 => if o < 0x400000 then .dram else .unmapped
  | 0x21 => if o < 0x400000 then .iram else .unmapped
  | 0x30 => if o < 0x100000 then .bay else .unmapped
  | 0x40 => if o < 0x15000 then .regs else .unmapped
  | 0x50 => if o < 0x10000 then .vault else .unmapped
  | 0x51 => if o < 0x80000 then .retain else .unmapped
  | 0x52 => if o < 0x80000 then .sillage else .unmapped
  | 0x60 => if o < 0x10000 then .image else .unmapped
  | _ => .unmapped

/-- Whether a width and alignment are refused in a region: registers take aligned words, memories aligned accesses of 1, 2 or 4
bytes, the rotate view any alignment (R24). -/
def badSize (r : Region) (a size : Nat) : Bool :=
  let sz := size == 1 || size == 2 || size == 4
  match r with
  | .bay | .regs => !(size == 4 && a % 4 == 0)
  | .scratch 3 => !sz
  | .unmapped => false
  | _ => !(sz && a % size == 0)

/-- Whether LE[t] is marked secure (R71, R323). -/
def State.secure (s : State) (t : Nat) : Bool := s.fbit (CFG_SECENG_SECURE (t / 32)) (t % 32)

/-- Whether the host and the maintenance port may use the vault: life-cycle state DEVELOP or SERVICE (R223, R342). -/
def State.vaultOpen (s : State) : Bool := s.fld CFG_LC_STATE == 1 || s.fld CFG_LC_STATE == 3

/-- Whether a write meets a write-protected vault page (R223). -/
def State.vaultProtected (s : State) (a : Nat) : Bool := s.fbit VAULT_WPROT_PAGES (a % 0x10000 / 0x1000)

/-- Whether a register block is open to an engine for reading (0), for both (1), or closed (2): the Engine column of R23 by 4 KB
page. VAULT control is for secure engines. -/
def enginePage (page : Nat) (secure : Bool) : Nat :=
  match page with
  | 0 => 0 | 1 => 1 | 2 => 1 | 3 => 0 | 4 => 0 | 5 => 0 | 6 => 0 | 7 => 0 | 8 => 1 | 9 => 0 | 10 => 0
  | 11 => 2 | 12 => 2 | 13 => 0 | 14 => 0 | 15 => 1 | 16 => 2 | 17 => 0 | 18 => 0 | 19 => 1
  | _ => if secure then 1 else 2

/-- Whether region `r` covers LE[t] (R346). -/
def State.covers (s : State) (r t : Nat) : Bool :=
  s.fb (REG_DEF_EN r) && decide (s.fld (REG_DEF_SLO r) ≤ t / 16 ∧ t / 16 ≤ s.fld (REG_DEF_SHI r) ∧ s.fld (REG_DEF_CLO r) ≤ t % 16 ∧
    t % 16 ≤ s.fld (REG_DEF_CHI r))

/-- Whether region `r` covers sector `k` as a whole (R346). -/
def State.coversSector (s : State) (r k : Nat) : Bool :=
  s.fb (REG_DEF_EN r) && s.fb (REG_DEF_WHOLE r) && decide (s.fld (REG_DEF_SLO r) ≤ k ∧ k ≤ s.fld (REG_DEF_SHI r))

/-- Whether a held region keeps device-bus writes off the address: its tile RAMs and the bay windows of its WHOLE sectors (R352). -/
def State.regionCloses (s : State) (a : Nat) : Bool :=
  (List.range 32).any (fun r => s.fb (REG_STAT_HELD r) && (match regionOf a with
    | .dram => s.covers r (a % 0x1000000 / 0x4000)
    | .iram => s.covers r (a % 0x1000000 / 0x4000)
    | .bay => s.coversSector r (a / 0x10000 % 16)
    | _ => false))

/-- Whether the requester's column of R23, with R74, R216, R218, R221, R223, R352 and R380, denies an access. -/
def State.denied (s : State) (req a : Nat) (write : Bool) : Bool :=
  let host := decide (req ≥ 403)
  let secure := decide (req < 256) && s.secure req
  (write && s.regionCloses a) ||
  match regionOf a with
  | .scratch _ => !s.sectRuns (a % 0x1000000 / 0x40000)
  | .dram => !host && decide (a % 0x4000 < 0x1000)
  | .iram => write && !(host && (s.engOf (a % 0x1000000 / 0x4000)).held)
  | .bay => false
  | .regs =>
    let page := a % 0x1000000 / 0x1000
    if write && decide (a = SAFE_TAMPCFG_at) && !([0, 1, 3].contains (s.fld CFG_LC_STATE)) then true
    else if write && decide (a = ALLOC_RBFREE_at) && decide (req ≠ 403) then true
    else if host then (if page = 20 then !s.vaultOpen else false)
    else (match enginePage page secure with | 0 => write | 1 => false | _ => true)
  | .vault => (if host then !s.vaultOpen else !secure) || (write && s.vaultProtected a)
  | .retain => write && !(host && decide (a % 0x1000000 ≥ 0x45000))
  | .sillage => write
  | .image => false
  | .unmapped => true

/-- The address of a scratchpad byte in the normal view. -/
def normalView (a : Nat) : Nat := 0x10000000 + a % 0x1000000

/-- The sector whose error counters serve a stored word: the scratchpad's, or the tile's (R209, R221). -/
def eccSector (a : Nat) : Nat :=
  if a / 0x1000000 = 0x20 ∨ a / 0x1000000 = 0x21 then a % 0x1000000 / 0x4000 / 16 else a % 0x1000000 / 0x40000

/-- Whether errors of the stored word count in SCR_ECC_CNT: scratchpads and tile RAMs (R209, R221). -/
def eccCounted (a : Nat) : Bool := a / 0x1000000 == 0x10 || a / 0x1000000 == 0x20 || a / 0x1000000 == 0x21

/-- A single-bit error is found at the aligned address `a` (R209): counted, and in a scratchpad the corrected word waits for its
write-back while WBEN = 1. -/
def State.noteCe (s : State) (a : Nat) : State :=
  if !eccCounted a then s else
  let k := eccSector a
  let s1 := (s.addSat (SCR_ECC_CNT_CE k) 1).setFld (SCR_IRQ_STAT_CE k) 1
  if a / 0x1000000 = 0x10 ∧ s.fb (SCR_CFG_WBEN k) = true ∧ s.wbq.contains a = false then { s1 with wbq := s1.wbq ++ [a] } else s1

/-- An uncorrectable error is met at the aligned address `a`: counted, and the first after UE was clear captured (R210). -/
def State.noteUe (s : State) (a : Nat) : State :=
  if !eccCounted a then s else
  let k := eccSector a
  let s1 := if s.fb (SCR_IRQ_STAT_UE k) then s else s.setFld (SCR_ECC_ADDR_ADDR k) a
  (s1.addSat (SCR_ECC_CNT_UE k) 1).setFld (SCR_IRQ_STAT_UE k) 1

/-- Reads the stored word at the aligned address `a`: the word (uncorrected where the error is uncorrectable) and whether it is
uncorrectable (R209, R210, R221). -/
def State.readWord (s : State) (a : Nat) : State × Word × Bool :=
  match s.flipCount a with
  | 0 => (s, s.word a, false)
  | 1 => (s.noteCe a, s.word a, false)
  | _ => (s.noteUe a, s.storedWord a, true)

/-- Armed error injection takes a full-word write of the sector's scratchpad: the chosen bits are stored inverted (R231). -/
def State.inject (s : State) (k a : Nat) : State :=
  if s.fb (SCR_INJ_ARM k) then
    let b1 := 2 ^ s.fld (SCR_INJ_BIT1 k) % 2 ^ 39
    let b2 := if s.fb (SCR_INJ_TWO k) then 2 ^ s.fld (SCR_INJ_BIT2 k) % 2 ^ 39 else 0
    (s.setFlips a (b1 ^^^ b2)).setFld (SCR_INJ_ARM k) 0
  else s

/-- A full-word write with new check bits; a scratchpad write meets an armed injection (R210, R231), and a corrected word that waits
for its write-back is not written back any more (R209). -/
def State.writeWord (s : State) (a : Nat) (w : Word) : State :=
  let s1 := ({ s with wbq := s.wbq.erase a }.setWord a w).setFlips a 0
  if a / 0x1000000 = 0x10 then s1.inject (eccSector a) a else s1

/-- A read-modify-write of the aligned word at `a`: discarded where the word is uncorrectable (R210). -/
def State.mergeWord (s : State) (a : Nat) (f : Word → Word) : State :=
  match s.readWord a with
  | (s1, w, bad) => if bad then s1 else ({ s1 with wbq := s1.wbq.erase a }.setWord a (f w)).setFlips a 0

/-! ## Windows under in-service test (R217, R365) -/

/-- A walk of a march test at its start. -/
def marchReset : March := ⟨0, 0, false, false, []⟩

/-- The windows of a unit of a march test: of a bank, or of a tile's data RAM (R208, R365). -/
def marchWins (tile : Bool) : Nat := if tile then 32 else 128

/-- The window that a walk has reached: after the last one of its bank or tile, the oldest that was abandoned (R365). -/
def March.target (m : March) (tile : Bool) : Nat := if m.win < marchWins tile then m.win else m.again.headD 0

/-- The address of the first word of the window that the walk of sector `k` has reached. -/
def March.base (m : March) (tile : Bool) (k : Nat) : Nat :=
  (if tile then 0x20000000 + (16 * k + m.unit) * 0x4000 else 0x10000000 + k * 0x40000 + m.unit * 0x8000) + 256 * m.target tile

/-- The walk of sector `k` through its banks, or through its tiles. -/
def State.marchOf (s : State) (tile : Bool) (k : Nat) : March := tget marchReset (if tile then s.ist.tr else s.ist.sp) k

/-- Stores a walk. -/
def State.setMarch (s : State) (tile : Bool) (k : Nat) (m : March) : State :=
  if tile then { s with ist := { s.ist with tr := tset marchReset s.ist.tr k m } }
  else { s with ist := { s.ist with sp := tset marchReset s.ist.sp k m } }

/-- The walk in whose window under test an address lies. -/
def State.underTest (s : State) (a : Nat) : Option (Bool × Nat) :=
  let tile := a / 0x1000000 == 0x20
  let k := a % 0x1000000 / 0x40000
  if !tile && a / 0x1000000 != 0x10 then none
  else if (s.marchOf tile k).busy && a / 256 == (s.marchOf tile k).base tile k / 256 then some (tile, k) else none

/-- Whether the window under test of the walk of LE[t]'s sector lies in its data RAM: it starts no activation (R365). -/
def State.tileTested (s : State) (t : Nat) : Bool := (s.marchOf true (t / 16)).busy && (s.marchOf true (t / 16)).unit == t % 16

/-- An access meets a window under test (R217, R365): the shadow serves it, and the test is abandoned and counted. A tile's window is
abandoned as one of a bank is (DEDUCED, log 99). -/
def State.touch (s : State) (a : Nat) : State :=
  match s.underTest a with
  | some (tile, k) =>
    if (s.marchOf tile k).hit then s
    else (s.setMarch tile k { s.marchOf tile k with hit := true }).addSat IST_CNT_ABANDONS 1
  | none => s

/-- The mask of the byte lanes that an access of `size` bytes at lane `k` covers. -/
def laneMask (k size : Nat) : Word := BitVec.ofNat 32 ((2 ^ (8 * size) - 1) * 2 ^ (8 * k))

/-- The word with `size` bytes of `v` in lanes (k + i) mod 4 (R215). -/
def rotatePut (w : Word) (k size : Nat) (v : Nat) : Word :=
  (List.range size).foldl (fun w i =>
    let l := (k + i) % 4
    (w &&& ~~~(laneMask l 1)) ||| BitVec.ofNat 32 (v / 2 ^ (8 * i) % 256 * 2 ^ (8 * l))) w

/-- A write of `size` bytes through a view to the scratchpad or a tile RAM (R210, R214, R215, R221). -/
def State.memWrite (s0 : State) (view a size v : Nat) : State :=
  let s := s0.touch a
  let k := a % 4
  let wa := a - k
  let x := BitVec.ofNat 32 (v % 2 ^ (8 * size) * 2 ^ (8 * k))
  match view with
  | 1 => s.mergeWord wa (fun w => w ||| x)
  | 2 => s.mergeWord wa (fun w => w &&& ~~~x)
  | 3 => if size = 4 then s.writeWord wa (rotatePut 0 k 4 v) else s.mergeWord wa (fun w => rotatePut w k size v)
  | _ => if size = 4 then s.writeWord wa (BitVec.ofNat 32 v)
    else s.mergeWord wa (fun w => (w &&& ~~~(laneMask k size)) ||| x)

/-- A read of `size` bytes through a view (R210, R214, R215): the value and whether the word is uncorrectable. -/
def State.memRead (s : State) (a size : Nat) : State × Nat × Bool :=
  let k := a % 4
  match (s.touch a).readWord (a - k) with
  | (s1, w, bad) => (s1, (w.rotateRight (8 * k)).toNat % 2 ^ (8 * size), bad)

/-- A read of the retention store (R431): 64-bit words with a code of 72 bits; an uncorrectable word answers its stored bits. -/
def State.retainRead (s : State) (a size : Nat) : State × Nat × Bool :=
  let b := a - a % 8
  let m := s.flips b
  let v := s.load b 8
  match (bitList m 72).length with
  | 0 => (s, v / 2 ^ (8 * (a % 8)) % 2 ^ (8 * size), false)
  | 1 => (s.addSat RETAIN_ECC_CE 1, v / 2 ^ (8 * (a % 8)) % 2 ^ (8 * size), false)
  | _ => ((s.addSat RETAIN_ECC_UE 1).setFld RETAIN_IRQ_STAT_UE 1, (v ^^^ m % 2 ^ 64) / 2 ^ (8 * (a % 8)) % 2 ^ (8 * size), true)

/-- Words as the device itself reads them from the retention store: an uncorrectable 64-bit word reads with its inverted bits (R431).
Its own reads count nothing in RETAIN_ECC (DESIGN CHOICE, log 89). -/
def State.retainWords (s : State) (a n : Nat) : List Word :=
  (List.range n).map (fun i => BitVec.ofNat 32 (s.retainRead (a + 4 * i) 4).2.1)

/-- A write of the retention store: the whole 64-bit word is written with new check bits (R431). -/
def State.retainWrite (s : State) (a size v : Nat) : State := (s.store a size v).setFlips (a - a % 8) 0

/-- The device writes bytes of the retention store (R431). -/
def State.retainPut (s : State) (a : Nat) : List Word → State
  | [] => s
  | w :: r => (s.retainWrite a 4 w.toNat).retainPut (a + 4) r

/-- The cell address and view behind an address of the device map. -/
def cellOf (a : Nat) : Nat × Nat :=
  match regionOf a with
  | .scratch v => (v, normalView a)
  | _ => (0, a)

/-- Whether an address lies in the reserved upper half of a tile's data-RAM stride (R23): it reads 0 and ignores writes (R9). -/
def reservedRam (a : Nat) : Bool := decide (regionOf a = .dram ∧ a % 0x4000 ≥ 0x2000)

/-- Whether an address takes no write: the reserved half of a data-RAM stride (R23), and the status words and reserved offsets of an
actuator image (R279). -/
def takesNone (a : Nat) : Bool := reservedRam a || decide (regionOf a = .image ∧ a % 0x100 ≥ 8)

/-- A permitted bus read of a memory region (R9, R225): value and whether the word is uncorrectable. -/
def State.regionRead (s : State) (a size : Nat) : State × Nat × Bool :=
  if reservedRam a || (decide (regionOf a = .vault) && s.wipe.isSome) then (s, 0, false)
  else if regionOf a = .retain then s.retainRead a size else s.memRead (cellOf a).2 size

/-- A permitted bus write of a memory region (R9, R225, R279). -/
def State.regionWrite (s : State) (a size v : Nat) : State :=
  if takesNone a || (decide (regionOf a = .vault) && s.wipe.isSome) then s
  else if regionOf a = .retain then s.retainWrite a size v else s.memWrite (cellOf a).1 (cellOf a).2 size v

/-- ECC_WRITEBACK (R209): the oldest corrected word of sector `k` is written back with its check bits, once SECT_CLK runs (R18). A write
in the meantime has taken it out of the words that wait. -/
def State.eccWriteback (s : State) (k : Nat) : State :=
  if s.sectRuns k = false then s
  else match s.wbq.find? (fun a => eccSector a == k) with
  | none => s
  | some a => { s with wbq := s.wbq.erase a }.setFlips a 0

/-- MEMORY_BIT_FLIP (R358): bits of a stored code word flip: 39 bits for a word, 72 for a word of the retention store. -/
def State.flipBits (s : State) (a m : Nat) : State :=
  if regionOf a = .retain then s.setFlips (a - a % 8) (s.flips (a - a % 8) ^^^ m % 2 ^ 72)
  else s.setFlips (a - a % 4) (s.flips (a - a % 4) ^^^ m % 2 ^ 39)

/-- ECC_WRITEBACK. -/
def execEccWriteback (k : Fin 16) (s : State) : Host.Outcome State Fault Refusal := done s (s.eccWriteback k.val)

end Sys2Proof.Machine
end

