-- ==== Sys2Proof/Machine/Bay.lean ====
section
/-! DEFINITION. The analog bays: nets of the switch matrix, switch measurements and the state of a bay (R124 to R145). -/

namespace Sys2Proof.Machine

/-! ## Nets (R131 to R138) -/

/-- A view of registers: the active state, or a staged one. -/
abbrev View := Nat → Word

/-- The active registers. -/
def State.view (s : State) : View := s.reg

/-- A field in a view. -/
def View.fld (v : View) (f : RF) : Nat := f.get (v f.addr)

/-- The terminal number of bay `k`, terminal `n`, over the whole device. -/
def termId (k n : Nat) : Nat := 64 * k + n

/-- Whether a terminal has switches to the inter-bay tracks (R132, R145). -/
def hasXt (n : Nat) : Bool := decide (n < 32 ∨ (48 ≤ n ∧ n < 52))

/-- The bits of a register that exist, for BAY_SW (R145): XT bits of terminals and bays without those tracks are reserved. -/
def swBits (a : Nat) : Nat :=
  let k := a / 0x10000 % 16
  let o := a % 0x10000
  if a / 0x100000 ≠ 0x300 ∨ o < 0x100 ∨ 0x1E0 < o then 2 ^ 32 - 1
  else 0xFFFF + (if hasXt ((o - 0x100) / 4) then (if 0 < k then 0x30000 else 0) + (if k < 15 then 0xC0000 else 0) else 0)

/-- The tracks that the set bits of BAY_SW[n] of bay `k` reach: LT[j] of the bay is 16·k + j, XT[x] is 256 + x (R125, R131, R132). -/
def tracksOf (k n : Nat) (w : Word) : List Nat :=
  (List.range 16).filterMap (fun j => if w.toNat.testBit j then some (16 * k + j) else none) ++
  (List.range 4).filterMap (fun j =>
    if hasXt n = true ∧ w.toNat.testBit (16 + j) ∧ (2 ≤ 2 * k + j) ∧ 2 * k + j - 2 < 30 then some (256 + (2 * k + j - 2)) else none)

/-- The closed switches of a view: terminal and track. Only listed addresses can hold a closed switch. -/
def switches (v : View) (addrs : List Nat) : List (Nat × Nat) :=
  addrs.flatMap (fun a =>
    let o := a % 0x10000
    if 0x30000000 ≤ a ∧ a < 0x30100000 ∧ 0x100 ≤ o ∧ o ≤ 0x1E0 then
      (tracksOf (a / 0x10000 % 16) ((o - 0x100) / 4) (v a)).map (fun t => (termId (a / 0x10000 % 16) ((o - 0x100) / 4), t))
    else [])

/-- One step of growth of a net: tracks of its terminals, then terminals of its tracks. -/
def growNet (es : List (Nat × Nat)) (ts rs : List Nat) : List Nat × List Nat :=
  let rs' := es.foldl (fun r e => if ts.contains e.1 && !r.contains e.2 then e.2 :: r else r) rs
  let ts' := es.foldl (fun t e => if rs'.contains e.2 && !t.contains e.1 then e.1 :: t else t) ts
  (ts', rs')

/-- The net of a terminal: its terminals and tracks (R134). -/
def netOf (es : List (Nat × Nat)) : Nat → List Nat × List Nat → List Nat × List Nat
  | 0, p => p
  | n + 1, p => let q := growNet es p.1 p.2; if q.1.length = p.1.length ∧ q.2.length = p.2.length then q else netOf es n q

/-- The number of closed switches from a driver to a terminal of its net (R138); `none` where no path leads there. -/
def hops (es : List (Nat × Nat)) (goal : Nat) : Nat → Nat → List Nat × List Nat → Option Nat
  | 0, _, _ => none
  | n + 1, k, p => if p.1.contains goal then some k else hops es goal n (k + 2) (growNet es p.1 p.2)

/-- Whether a terminal drives its net in a view (R125, R134). -/
def driver (v : View) (x : Nat) : Bool :=
  let k := x / 64
  let n := x % 64
  if n < 8 then bits (v.fld (BAY_PAD_CFG_ROLE k)) (2 * n + 1) (2 * n) == 1
  else if n < 32 then
    let j := (n - 8) / 3
    match (n - 8) % 3 with
    | 0 => v.fld (BAY_AMP_CFG_MODE k j) == 4 && v.fld (BAY_AMP_CFG_TIABIAS k j) == 1
    | 2 => v.fld (BAY_AMP_CFG_MODE k j) != 0
    | _ => false
  else if n < 40 then n % 2 == 1 && v.fld (BAY_BQ_CFG_EN k ((n - 32) / 2)) == 1
  else decide (52 ≤ n ∧ n ≤ 56)

/-- Whether a terminal is an input of an enabled cell in a view (R134, R135, R143). -/
def cellInput (v : View) (x : Nat) : Bool :=
  let k := x / 64
  let n := x % 64
  if n < 8 then false
  else if n < 32 then
    let j := (n - 8) / 3
    (n - 8) % 3 != 2 && v.fld (BAY_AMP_CFG_MODE k j) != 0 && !driver v x
  else if n < 40 then n % 2 == 0 && v.fld (BAY_BQ_CFG_EN k ((n - 32) / 2)) == 1
  else if n < 48 then
    let c := (n - 40) / 2
    v.fld (CMP_CFG_MODE k c) != 0 && (n % 2 == 0 || v.fld (CMP_CFG_THSRC k c) == 1)
  else if n < 52 then v.fld (ADC_CFG_EN (2 * k + (n - 48) / 2)) == 1
  else false

/-- The role of a pad in a view (R134): 0 unused, 1 IN, 2 OUT. -/
def View.role (v : View) (k n : Nat) : Nat := bits (v.fld (BAY_PAD_CFG_ROLE k)) (2 * n + 1) (2 * n)

/-- Whether a terminal is an input of an enabled cell, or an OUT pad (R135 AFLOAT). -/
def needsDriver (v : View) (x : Nat) : Bool := cellInput v x || (decide (x % 64 < 8) && v.role (x / 64) (x % 64) == 2)

/-- Whether two nets are one: the same terminals and tracks (R134). -/
def sameNet (p q : List Nat × List Nat) : Bool :=
  p.1.all q.1.contains && q.1.all p.1.contains && p.2.all q.2.contains && q.2.all p.2.contains

/-- The net of one terminal. -/
def netAt (es : List (Nat × Nat)) (x : Nat) : List Nat × List Nat := netOf es es.length ([x], [])

/-- BAY_ROUTE of a terminal from the switches of a view (R138). DESIGN CHOICE (log 92): a terminal on a net without a driver reads as
one on no net, and a path of more than 15 switches reads K = 0xF. -/
def routeWord (v : View) (es : List (Nat × Nat)) (x : Nat) : Word :=
  if es.any (fun e => e.1 == x) = false then 0xF
  else
    let net := netOf es es.length ([x], [])
    match net.1.find? (driver v) with
    | none => 0xF
    | some d => BitVec.ofNat 32 (d % 64 * 2 ^ 16 + d / 64 * 2 ^ 12 + min ((hops es x (es.length + 1) 0 ([d], [])).getD 0xF) 0xF)

/-- The routes of bay `k` take the values of the settings of a view, whose closed switches stand at `addrs` (R133, R138). -/
def State.setRoutesBy (s : State) (v : View) (addrs : List Nat) (k : Nat) : State :=
  let es := switches v addrs
  (List.range 57).foldl (fun s n => s.setReg (BAY_ROUTE_at k n) (routeWord v es (termId k n))) s

/-- The routes of bay `k` take the values of the settings in force. -/
def State.setRoutes (s : State) (k : Nat) : State := s.setRoutesBy s.view (s.regs.map (·.1)) k

/-- K of the two terminals of converter `n` together, as BAY_ROUTE shows it (R138). -/
def State.routeK (s : State) (n : Nat) : Nat :=
  s.fld (BAY_ROUTE_K (n / 2) (48 + 2 * (n % 2))) + s.fld (BAY_ROUTE_K (n / 2) (49 + 2 * (n % 2)))

/-- The same under the settings of a view (R138). -/
def viewK (v : View) (addrs : List Nat) (n : Nat) : Nat :=
  let es := switches v addrs
  [48 + 2 * (n % 2), 49 + 2 * (n % 2)].foldl (fun k i => k + bits (routeWord v es (termId (n / 2) i)).toNat 3 0) 0

/-- Whether a terminal's net or its route differs between two views (R138, R144, R163). -/
def terminalMoved (v0 v1 : View) (es0 es1 : List (Nat × Nat)) (x : Nat) : Bool :=
  !sameNet (netAt es0 x) (netAt es1 x) || routeWord v0 es0 x != routeWord v1 es1 x

/-- The terminals whose net or route differs between two views: only one with a closed switch can. -/
def movedTerminals (v0 v1 : View) (es0 es1 : List (Nat × Nat)) : List Nat :=
  (((es0 ++ es1).map (·.1)).eraseDups).filter (terminalMoved v0 v1 es0 es1)

/-! ## Switch measurements (R140) -/

/-- The track that TRACK names in bay `k`, if it exists (R131, R140). -/
def trackId (k track : Nat) : Option Nat :=
  if track < 16 then some (16 * k + track)
  else if track < 20 ∧ 2 ≤ 2 * k + (track - 16) ∧ 2 * k + (track - 16) - 2 < 30 then some (256 + (2 * k + (track - 16) - 2))
  else none

/-- Whether a terminal and a track cannot be measured beside a set of closed switches (R140). -/
def rcalBlocked (es : List (Nat × Nat)) (k term track : Nat) : Bool :=
  match trackId k track with
  | none => true
  | some t => decide (term < 8 ∨ term > 56) || (decide (track ≥ 16) && !hasXt term) ||
      es.any (fun e => e.1 == termId k term || e.2 == t)

/-- The terminal and the track of the switch that the tester measures in a bay (R366): `arg` 1 + 32·n + t. -/
def Loan.switch (r : Loan) : Option (Nat × Nat) := if r.kind = 6 ∧ r.arg > 0 then some ((r.arg - 1) / 32, (r.arg - 1) % 32) else none

/-- The switches that the running measurements of other bays than `k` hold closed, the tester's among them (R140, R366). -/
def State.rcalHeld (s : State) (k : Nat) : List (Nat × Nat) :=
  let at_ (j term track : Nat) : Option (Nat × Nat) := (trackId j track).map (fun t => (termId j term, t))
  s.rcal.filterMap (fun p => if p.1 = k then none else p.2.bind (fun r => at_ p.1 r.term r.track)) ++
    s.ist.bay.filterMap (fun p => if p.1 = k then none else p.2.run.bind (fun r => r.switch.bind (fun x => at_ p.1 x.1 x.2)))

/-- Whether an apply has closed a switch on the terminal or the track of a measurement (R140). -/
def State.rcalMet (s : State) (k term track : Nat) : Bool := rcalBlocked (switches s.view (s.regs.map (·.1))) k term track

/-- Whether a command is refused (R140): the track has a closed switch too where a measurement of another bay holds one. -/
def State.rcalRefused (s : State) (k term track : Nat) : Bool :=
  rcalBlocked (switches s.view (s.regs.map (·.1)) ++ s.rcalHeld k) k term track

/-- A measurement of the replica writes RON, or is out of range (R137). DESIGN CHOICE (log 92): every measurement that completes ends
RONSTALE, one out of range too. -/
def State.ronResult (s : State) (k ron : Nat) : State :=
  if 100 * 16 ≤ ron ∧ ron ≤ 400 * 16 then
    ((s.setFld (BAY_RONREP_RON k) ron).setFld (BAY_STATUS_RONVALID k) 1).setFld (BAY_STATUS_RONSTALE k) 0
  else (s.setFld (BAY_IRQ_STAT_RONRANGE k) 1).setFld (BAY_STATUS_RONSTALE k) 0

/-- AMP_LIMIT (R127): an enabled amplifier enters or leaves its current limit. -/
def State.ampLimit (s : State) (k j : Nat) (on : Bool) : State :=
  if on && s.fb (BAY_AMP_CFG_MODE k j) && !s.baySw.before.testBit k && !s.fb (BAY_STATUS_HELD k) then
    let s1 := s.orBit (BAY_STATUS_AMPLIM k) j
    if s.fbit (BAY_STATUS_AMPLIM k) j then s1 else s1.setFld (BAY_IRQ_STAT_AMPLIM k) 1
  else s.offBit (BAY_STATUS_AMPLIM k) j

/-- A neighbour of a held or released bay looks at its nets (R143): one that has lost its driver and still holds an input of an
enabled cell sets XTLOST. -/
def State.xtLost (s : State) (k : Nat) : State :=
  let es := switches s.view (s.regs.map (·.1))
  let mine := (es.filter (fun e => e.1 / 64 == k)).map (·.1)
  if mine.any (fun x => (netAt es x).1.any (cellInput s.view) && !((netAt es x).1.any (driver s.view))) then
    (s.setFld (BAY_STATUS_XTLOST k) 1).setFld (BAY_IRQ_STAT_XTLOST k) 1
  else s

/-! ## The switches as they stand (R141, R142) -/

/-- Whether the pad switches of pad `n` of bay `k` stand open whatever its settings: up to the first tick boundary with the I/O
enabled; of an OUT pad in a trip, in the standby role and in device standby (R423); of an IN pad in a trip with TRIPALL. -/
def State.padSwitchOpen (s : State) (k n : Nat) : Bool :=
  let role := View.role s.view k n
  s.baySw.pads.testBit k || (role == 2 && (s.baySw.outs.testBit k || s.fb (BAY_STATUS_TRIPOPEN k) || !s.awake)) ||
    (role == 1 && s.fb (BAY_STATUS_TRIPOPEN k) && s.fb (BAY_CTRL_TRIPALL k))

/-- The switches that are closed now (R141): those of the settings in force, but none in a held bay or before the boundary of tick 0,
and no pad switch that stands open; all are open until the configuration is released. -/
def State.closedNow (s : State) : List (Nat × Nat) :=
  (switches s.view (s.regs.map (·.1))).filter (fun e =>
    let k := e.1 / 64
    let n := e.1 % 64
    s.pwr.released && !s.fb (BAY_STATUS_HELD k) && !s.baySw.before.testBit k && !(decide (n < 8) && s.padSwitchOpen k n))

/-- The safe plane opens the pad switches of every bay (R142). DESIGN CHOICE (log 92): TRIPOPEN reads 1 in a bay without an affected pad
switch too. -/
def State.tripSwitches (s : State) : State := (List.range 16).foldl (fun s k => s.setFld (BAY_STATUS_TRIPOPEN k) 1) s

/-- A tick boundary of SECT_CLK[k] meets the pad switches of its bay (R141, R142): the settings of the image act; switches close
once the I/O is enabled, once no trip is in force, and once the device has left the standby role. -/
def State.bayBoundary (s : State) (k : Nat) : State :=
  let b := s.baySw
  let off (m : Nat) : Nat := m - (m &&& 2 ^ k)
  let s1 : State := { s with baySw := ⟨off b.before, if s.pwr.ioEnabled then off b.pads else b.pads,
    if s.pairStandby then b.outs ||| 2 ^ k else off b.outs, b.refs⟩ }
  if s.tripped then s1 else s1.setFld (BAY_STATUS_TRIPOPEN k) 0

/-- RONSTALE (R137): no replica measurement has completed for 10 s. -/
def execRonstale (k : Fin 16) (s : State) : Host.Outcome State Fault Refusal := done s (s.setFld (BAY_STATUS_RONSTALE k.val) 1)
/-- AMP_LIMIT. -/
def execAmpLimit (k : Fin 16) (j : Fin 8) (on : Bool) (s : State) : Host.Outcome State Fault Refusal :=
  done s (s.ampLimit k.val j.val on)

end Sys2Proof.Machine
end

