-- ==== Sys2Proof/Machine/Timers.lean ====
section
/-! DEFINITION. The sector timers: PWM, captures and quadrature decoders (R60 to R63). -/

namespace Sys2Proof.Machine

/-- Whether SECT_CLK[k] runs alike in two states, at one frequency. -/
def sameClock (old s : State) (k : Nat) : Bool :=
  old.sectRuns k == s.sectRuns k && old.fld (CLK_SECT_SDIV k) == s.fld (CLK_SECT_SDIV k) &&
    old.fld CLK_CORE_M == s.fld CLK_CORE_M

/-- SECT_CLK[k] stops, starts or changes its frequency: the periods in progress go on in cycles of the clock as it is now (R18,
R61). -/
def State.reclock (old s : State) (k : Nat) : State :=
  if sameClock old s k then s
  else (List.range 8).foldl (fun s j =>
    let p := s.pwmOf k j
    let old' : State := { old with pwm := s.pwm, tb := s.tb }
    { s with pwm := tset pwmReset s.pwm (8 * k + j) { p with base := old'.pwmCycle k j, start := s.tb.now } }) s

/-- The clocks of all sectors, after what may have changed them. -/
def State.reclockAll (old s : State) : State := (List.range 16).foldl (fun s k => State.reclock old s k) s

/-- How many cycles before cycle `c` of a period a side has fallen last, where the period ends there (R61): `l` are its intervals,
`hold` the cycles for which it was held low, and `before` how long before the start of the period it had fallen last. -/
def fallAge (l : List (Nat × Nat)) (hold : Nat) (before : Option Nat) (c : Nat) : Option Nat :=
  if inIntervals l c && decide (hold ≤ c) then some 0
  else match (l.filter (fun p => decide (max p.1 hold < p.2 ∧ p.2 ≤ c))).map (·.2) with
    | [] => before.map (· + c)
    | ends => some (c - ends.foldl max 0)

/-- For how many cycles of a new period a side that rises at its start is held low, so that DEAD has passed since the other side
fell (R61). -/
def holdCycles (fell : Option Nat) (dead : Nat) : Nat := match fell with
  | none => 0
  | some a => dead - a

/-- A new period of a pair starts now with the shadow duties (R61). `old` is the state before it; a restart by an apply or by SYNC
keeps the dead time across the restart. -/
def State.pwmStart (old s : State) (k j : Nat) (restart : Bool) : State :=
  let q := old.pwmOf k j
  let c := old.pwmCycle k j
  let p : PwmPair := ⟨s.fld (STM_PWM_DUTY_DUTY k (2 * j)), s.fld (STM_PWM_DUTY_DUTY k (2 * j + 1)), s.tb.now, 0, 0, 0,
    fallAge (old.pwmSide k j false) q.hold0 q.fell0 c, fallAge (old.pwmSide k j true) q.hold1 q.fell1 c,
    if c = 0 then q.up0 else upCycles (old.pwmSide k j false) q.hold0 q.up0 (c - 1),
    if c = 0 then q.up1 else upCycles (old.pwmSide k j true) q.hold1 q.up1 (c - 1)⟩
  let s1 := { s with pwm := tset pwmReset s.pwm (8 * k + j) p }
  if restart = true ∧ s.fld (STM_PWM_CFG_MODE k j) = 2 then
    let dead := s.fld (STM_PWM_CFG_DEAD k j)
    let h0 := if inIntervals (s1.pwmSide k j false) 0 then holdCycles p.fell1 dead else 0
    let h1 := if inIntervals (s1.pwmSide k j true) 0 then holdCycles p.fell0 dead else 0
    { s with pwm := tset pwmReset s.pwm (8 * k + j) { p with hold0 := h0, hold1 := h1 } }
  else s1

/-- A period start of PWM[2j] and PWM[2j+1] sends a clear to each latch of the sector that selects it; one that meets a clear still
on its way counts in CLROVF (R184). -/
def State.pwmClears (s : State) (k j : Nat) : State :=
  (List.range 6).foldl (fun s l =>
    let src := if l < 4 then s.fld (CMP_CFG_CLRSRC k l) else s.fld (CMP_WIN_CFG_CLRSRC k (l - 4))
    let pwm := if l < 4 then s.fld (CMP_CFG_CLRPWM k l) else s.fld (CMP_WIN_CFG_CLRPWM k (l - 4))
    if src = 2 ∧ pwm / 2 = j then
      if s.clearq.contains (k, l, true) then (if l < 4 then s.addSat (CMP_CNT_CLROVF k l) 1 else s)
      else { s with clearq := s.clearq ++ [(k, l, true)] }
    else s) s

/-- PWM_PERIOD_START (R61): a pair that is not off ends its period and starts a new one with the shadow duty. -/
def State.pwmPeriod (s : State) (k j : Nat) : State :=
  if s.sectRuns k = false ∨ s.fld (STM_PWM_CFG_MODE k j) = 0 ∨ s.fld (STM_PWM_CFG_MODE k j) = 3 then s
  else (s.pwmStart s k j false).pwmClears k j

/-- A capture unit. -/
def State.capOf (s : State) (k u : Nat) : Capture := tget ⟨[], false, false⟩ s.cap (8 * k + u)
/-- Stores a capture unit. -/
def State.setCap (s : State) (k u : Nat) (c : Capture) : State :=
  { s with cap := tset ⟨[], false, false⟩ s.cap (8 * k + u) c }

/-- The values of the current tick in sector `k` (R72). -/
def State.sectOf (s : State) (k : Nat) : SectTick := tget ⟨0, 0, 0, 0, 0⟩ s.sect k

/-- The timestamp of an edge seen `n` SECT_CLK cycles after the tick boundary: TNOW + 64 + floor((n − 2) · 200 / f) (R62). -/
def State.capTime (s : State) (k n : Nat) : Word :=
  (s.sectOf k).tnow + 64 +
    BitVec.ofInt 32 (((n : Int) - 2) * (200 * s.fld (CLK_SECT_SDIV k) : Nat) / (25 * s.fld CLK_CORE_M : Nat))

/-- CAPTURE_EDGE (R62): a selected change of the input stores its timestamp and fires the event; a full FIFO discards it. -/
def State.captureEdge (s : State) (k u : Nat) (level : Bool) (n : Nat) : State :=
  let c := s.capOf k u
  if s.sectRuns k = false ∨ c.level = level then s
  else
    let sel := s.fld (STM_CAP_CFG_EDGE k u)
    let c1 := { c with level := level }
    if sel = 3 ∨ (sel = 1 ∧ level = true) ∨ (sel = 2 ∧ level = false) then
      if c.fifo.length ≥ 4 then (s.setCap k u c1).orBit (STM_CAP_STAT_OVF k) u
      else (s.setCap k u { c1 with fifo := c.fifo ++ [(s.capTime k n, level)] }).fire (0x80 + 8 * k + u)
    else s.setCap k u c1

/-- Pops the oldest timestamp of a capture unit; none where the FIFO is empty (R60, R93). -/
def State.popCapture (s : State) (k u : Nat) : State × Option Word :=
  match (s.capOf k u).fifo with
  | [] => (s, none)
  | (t, l) :: r => (s.setCap k u { s.capOf k u with fifo := r, edgeBit := l }, some t)

/-- Whether an edge comes closer to the last accepted one than a quadrature decoder takes it: FILTER + 2 SECT_CLK cycles (R63). -/
def State.qdTooClose (s : State) (k q : Nat) : Bool :=
  match tget none s.qdAt (2 * k + q) with
  | none => false
  | some t => decide (s.toSect k (s.tb.now - t).toNat < s.fld (STM_QD_CFG_FILTER k q) + 2)

/-- An accepted step of a quadrature decoder brings POS to `pos` (R60, R63). -/
def State.qdStep (s : State) (k q : Nat) (pos : Word) : State :=
  if s.qdTooClose k q then s
  else { s.setReg (STM_QD_POS_at k q) pos with qdAt := tset none s.qdAt (2 * k + q) (some s.tb.now) }

/-- QD_EDGE (R60, R63): a step moves POS unless it follows the last one too closely, an illegal transition leaves it, a forward index
clears it with IDXCLR; an input that no pin feeds does not move (R255). -/
def State.qdEdge (s : State) (k q : Nat) (e : EdgeKind) : State :=
  let m := s.fld (STM_QD_CFG_MODE k q)
  let i := 0xB0 + 3 * (2 * k + q)
  if s.sectRuns k = false ∨ (m ≠ 1 ∧ m ≠ 2) then s
  else
    let pos := s.reg (STM_QD_POS_at k q)
    match e with
    | .forward => if s.fed i || s.fed (i + 1) then s.qdStep k q (pos + 1) else s
    | .reverse => if s.fed i || s.fed (i + 1) then s.qdStep k q (pos - 1) else s
    | .indexForward => if s.fed (i + 2) && s.fb (STM_QD_CFG_IDXCLR k q) then s.setReg (STM_QD_POS_at k q) 0 else s
    | _ => s

/-- PWM_PERIOD_START. -/
def execPwmPeriodStart (k : Fin 16) (j : Fin 8) (s : State) : Host.Outcome State Fault Refusal := done s (s.pwmPeriod k.val j.val)
/-- A write of STM_PWM_DUTY over the bus loads the shadow duty, which the next period start takes (R61, R303). -/
def State.pwmDuty (s : State) (k n : Nat) (v : Word) : State :=
  if s.pairStandby then s.localWrite
  else (s.setFld (STM_PWM_DUTY_DUTY k n) (bits v.toNat 16 0)).toPartner "WRITE" [STM_PWM_DUTY_at k n, 4, v.toNat]

/-- PWM_DUTY_WRITE: the write loads the shadow duty, which the next period start takes (R61). -/
def execPwmDutyWrite (k : Fin 16) (n : Fin 16) (v : Word) (s : State) : Host.Outcome State Fault Refusal :=
  done s (s.bayGate k.val (STM_PWM_DUTY_at k.val n.val) (fun s => s.pwmDuty k.val n.val v))
/-- CAP_DATA_READ: the read pops the oldest timestamp, or returns 0 (R60). -/
def execCapDataRead (req : Fin 405) (k : Fin 16) (u : Fin 8) (s : State) : Host.Outcome State Fault Refusal :=
  done s ((s.popCapture k.val u.val).1.emit
    (.readData req.val (STM_CAP_DATA_at k.val u.val) ((s.popCapture k.val u.val).2.getD 0)))
/-- QD_EDGE. -/
def execQdEdge (k : Fin 16) (q : Fin 2) (e : EdgeKind) (s : State) : Host.Outcome State Fault Refusal :=
  done s (s.qdEdge k.val q.val e)
/-- QD_POS_WRITE: the write loads the count (R60). -/
def execQdPosWrite (k : Fin 16) (q : Fin 2) (v : Word) (s : State) : Host.Outcome State Fault Refusal :=
  done s (s.bayGate k.val (STM_QD_POS_at k.val q.val) (fun s => s.setReg (STM_QD_POS_at k.val q.val) v))

end Sys2Proof.Machine
end

