-- ==== Sys2Proof/Machine/Pins.lean ====
section
/-! DEFINITION. Pins, crossbar and GPIO (R249 to R268). -/

namespace Sys2Proof.Machine

/-- A word on CH_OUT[p] (R252): 0 low, 1 high, 2 enable off, 3 keep. -/
def State.setChOut (s : State) (p v : Nat) : State :=
  let g := tget ⟨false, false⟩ s.chOut p
  let g' : Signal := match v % 4 with
    | 0 => ⟨false, true⟩
    | 1 => ⟨true, true⟩
    | 2 => ⟨g.value, false⟩
    | _ => g
  { s with chOut := tset ⟨false, false⟩ s.chOut p g' }

/-- The pads at the moment of a trip: each keeps in mind what it showed, for SAFE = hold, also where an apply chooses that later (R265).
A pin without a listed set-up shows nothing. -/
def State.pinsTrip (s : State) : State :=
  { s with pins := { s.pins with
    tripped := true, trip := s.setPins.foldl (fun t p => tset ⟨false, false⟩ t p (s.padOut p)) [] } }

/-- Conflicts anew from the set-up in force (R256): the bits of XBAR_CONFLICT, and the interrupt where one appears. -/
def State.findConflicts (s : State) : State :=
  let names := s.namedInputs.map (·.1)
  let bad := (names.filter (fun i => decide ((names.filter (· == i)).length ≥ 2))).eraseDups
  let s1 := (List.range 28).foldl (fun s w =>
    s.setFld (XBAR_CONFLICT_CONFLICT w) ((bad.filter (fun i => i / 32 == w)).foldl (fun n i => n + 2 ^ (i % 32)) 0)) s
  let s2 := s1.setB XBAR_STAT_CONFLICT (!bad.isEmpty)
  if bad.isEmpty then s2 else s2.setFld XBAR_IRQ_STAT_CONFLICT 1

/-- XBAR_INSRC[i] (R267): whether and where pins name input `i`. -/
def State.insrc (s : State) (i : Nat) : Word :=
  let ps := (s.namedInputs.filter (fun e => e.1 == i)).map (·.2)
  match ps with
  | [] => 0
  | p :: r => BitVec.ofNat 32 (b2n (!r.isEmpty) * 2 ^ 31 + 2 ^ 30 + r.foldl min p)

/-- The boundary of PIN_CLK (R250, R260, R264 to R266): returned banks and, once the I/O is enabled, the functions take the pads;
a released trip ends, and so do the release of shared pins and the hold of boundary scan, each with its edge: bit 0 every pin from
high impedance, 1 from the safe level, 2 shared pins from high impedance. Inputs are routed from the boundary of tick 0. -/
def State.pinsBoundary (s : State) : State :=
  let p := s.pins
  let back := (List.range 8).foldl (fun m b =>
    if p.bankOff.testBit b ∧ bits (s.fld XBAR_BANKSTAT_LEVEL) (2 * b + 1) (2 * b) = 0 then m + 2 ^ b else m) 0
  let now := s.tb.now
  let ioOn := !p.on && s.pwr.ioEnabled
  let taken := p.shared && !s.pairStandby
  let back' := p.tripped && !s.tripped
  let how := b2n ioOn + 2 * b2n back' + 4 * b2n taken
  let p1 : Pins := { p with
    bankOff := back, routed := true, on := p.on || s.pwr.ioEnabled, shared := s.pairStandby, tripped := p.tripped && s.tripped
    edge := if how = 0 then p.edge else some (now, how) }
  if s.tap.pads < 4 then { s with pins := p1 }
  else
    { s with
      tap := { s.tap with pads := 0 }
      pins := { p1 with hold := (List.range 352).foldl (fun h p =>
        tset none h p (some (now, s.scanSignal p, s.reg (XBAR_PAD_at p)))) p1.hold } }

/-- Whether a pin selects FAB_OUT or PWM of a sector in a region held in reset (R264). -/
def State.onHeld (s : State) (p : Nat) : Bool := (outsideSector (s.fld (XBAR_SEL_OUTSEL p))).any (fun k => s.fb (FAB_STAT_HELD k))

/-- The pins whose OUTSEL an apply changes hold what they registered at the edge before, for one PIN_CLK cycle, under the XBAR_PAD before
it (R260). DESIGN CHOICE (log 96): a pin that an apply brings onto FAB_OUT or PWM of a held region holds, with SAFE = hold, what it
showed before; the spec says what hold keeps at a trip only. -/
def State.pinsApply (old s : State) (ps : List Nat) : State :=
  let qs := ps.filter (fun p => old.fld (XBAR_SEL_OUTSEL p) != s.fld (XBAR_SEL_OUTSEL p))
  { s with pins := { s.pins with
    hold := qs.foldl (fun h p => tset none h p (some (s.tb.now, old.padBefore p, old.reg (XBAR_PAD_at p)))) s.pins.hold
    heldAt := (qs.filter (fun p => s.onHeld p && !old.onHeld p)).foldl (fun t p => tset ⟨false, false⟩ t p (old.padBefore p)) s.pins.heldAt } }

/-- Writes of GPIO_SET, GPIO_CLR and GPIO_TGL (R259). -/
def State.gpioOp (s : State) (g : Nat) (f : Word → Word) : State := s.setReg (GPIO_OUT_at g) (f (s.reg (GPIO_OUT_at g)))

/-- The GPIO bits of word `g` whose pins are shared. -/
def State.sharedBits (s : State) (g : Nat) : Word :=
  BitVec.ofNat 32 ((List.range 32).foldl (fun n i => n + b2n (s.fb (XBAR_PAD_SHARED (32 * g + i))) * 2 ^ i) 0)

/-- A write of GPIO_SET, GPIO_CLR or GPIO_TGL at `a` (R263, R303): the bits of `v` act; a standby leaves out those of shared pins, and
a primary mirrors those. -/
def State.gpioStrobe (s : State) (a g : Nat) (v : Word) (f : Word → Word → Word) : State :=
  let m := s.sharedBits g
  if s.pairStandby then
    let s1 := s.gpioOp g (fun w => f w (v &&& ~~~m))
    if v &&& m = 0 then s1 else s1.localWrite
  else
    let s1 := s.gpioOp g (fun w => f w v)
    if v &&& m = 0 then s1 else s1.toPartner "WRITE" [a, 4, (v &&& m).toNat]

/-- A write of GPIO_OUT or GPIO_OE at `a` (R303). -/
def State.gpioStore (s : State) (a g : Nat) (v : Word) : State :=
  let m := s.sharedBits g
  if s.pairStandby then
    let s1 := s.setReg a ((s.reg a &&& m) ||| (v &&& ~~~m))
    if m = 0 then s1 else s1.localWrite
  else
    let s1 := s.setReg a v
    if m = 0 then s1 else s1.toPartner "WRITE" [a, 4, (v &&& m).toNat]

/-- LOCKERR is set (R262). -/
def State.lockErr (s : State) : State := (s.setFld XBAR_STAT_LOCKERR 1).setFld XBAR_IRQ_STAT_LOCKERR 1

/-- LOCK_TIMEOUT (R262): a sequence that has been open for more than 256 SYS_CLK cycles ends without effect. -/
def State.lockTimeout (s : State) : State :=
  match s.pins.lockSeq with
  | some (_, _, t) => if (s.tb.now - t).toNat > 256 then { s.lockErr with pins := { s.pins with lockSeq := none } } else s
  | none => s

/-- XBAR_LOCK (R262): every write is judged against the sequence that is still open. -/
def State.xbarLock (s : State) (req : Nat) (v : Word) : State :=
  let key := bits v.toNat 31 16
  let g := v.toNat % 2 ^ 16
  if req < 403 then s
  else
    let s := s.lockTimeout
    let expected := match s.pins.lockSeq with
      | some (r, h, _) => decide (r = req ∧ key = 0x9394 ∧ g = h)
      | none => false
    if expected then
      ({ (s.setReg (XBAR_LOCKED_at g) (s.reg (XBAR_LOCKED_at g) ||| s.reg (XBAR_LOCKMASK_at g))) with
        pins := { s.pins with lockSeq := none } }).invalidate
    else if key = 0x6C6B ∧ g ≤ 10 then
      let s1 := if s.pins.lockSeq.isSome then s.lockErr else s
      { s1 with pins := { s1.pins with lockSeq := some (req, g, s.tb.now) } }
    else { s.lockErr with pins := { s.pins with lockSeq := none } }

/-- BANK_FAIL (R250): the bank is absent; a bank that was present sets BANKFAIL. -/
def State.bankFail (s : State) (b : Nat) : State :=
  let l := s.fld XBAR_BANKSTAT_LEVEL
  let cur := bits l (2 * b + 1) (2 * b)
  if cur = 0 then s
  else { (s.setFld XBAR_BANKSTAT_LEVEL (l - cur * 4 ^ b)).setFld XBAR_IRQ_STAT_BANKFAIL 1 with
    pins := { s.pins with bankOff := s.pins.bankOff ||| 2 ^ b } }

/-- BANK_RETURN (R250): the bank's level is detected; its pads resume at the next PIN_CLK boundary. -/
def State.bankReturn (s : State) (b level : Nat) : State :=
  let l := s.fld XBAR_BANKSTAT_LEVEL
  let cur := bits l (2 * b + 1) (2 * b)
  { (s.setFld XBAR_BANKSTAT_LEVEL (l - cur * 4 ^ b + level * 4 ^ b)) with
    pins := { s.pins with bankOff := s.pins.bankOff ||| 2 ^ b } }

/-- Whether the cells of sector `k` run: FAB_RST is off, as it is from the boundary of tick 0, and FAB_CLK runs (R230). -/
def State.fabricRuns (s : State) (k : Nat) : Bool :=
  s.fabRuns (k / 2) && !s.pwr.stands.testBit (24 + k / 2) && !s.fb (FAB_STAT_HELD k)

/-- Whether configuration memory holds a word of the fabric of sector `k` (R324). DESIGN CHOICE (log 21): where it holds none, the
sender gives what the fabric does at its ports. -/
def State.fabLoaded (s : State) (k : Nat) : Bool := s.cfgmem.any (fun e => e.1 / 64 / 2 ^ 24 == k)

/-- FAB_OUT_CHANGE (R227, R230): the fabric changes a value or its enable, unless its clock stands or it is held in reset, or its
cells give the values themselves. -/
def State.fabOut (s : State) (k j : Nat) (value oe : Bool) : State :=
  if s.fabricRuns k = false ∨ s.fabLoaded k = true then s
  else
    let f := s.fabOf k
    let m : BitVec 32 := BitVec.ofNat 32 (2 ^ j)
    s.setFab k { f with out := if value then f.out ||| m else f.out &&& ~~~m, oe := if oe then f.oe ||| m else f.oe &&& ~~~m }

/-- GPIO_SET. -/
def execGpioSet (g : Fin 11) (v : Word) (s : State) : Host.Outcome State Fault Refusal :=
  done s (s.gpioStrobe (GPIO_SET_at g.val) g.val v (· ||| ·))
/-- GPIO_CLR. -/
def execGpioClr (g : Fin 11) (v : Word) (s : State) : Host.Outcome State Fault Refusal :=
  done s (s.gpioStrobe (GPIO_CLR_at g.val) g.val v (fun w b => w &&& ~~~b))
/-- GPIO_TGL. -/
def execGpioTgl (g : Fin 11) (v : Word) (s : State) : Host.Outcome State Fault Refusal :=
  done s (s.gpioStrobe (GPIO_TGL_at g.val) g.val v (· ^^^ ·))
/-- XBAR_LOCK. -/
def execXbarLock (req : Fin 405) (v : Word) (s : State) : Host.Outcome State Fault Refusal := done s (s.xbarLock req.val v)
/-- LOCK_TIMEOUT. -/
def execLockTimeout (s : State) : Host.Outcome State Fault Refusal := done s s.lockTimeout
/-- BANK_FAIL. -/
def execBankFail (b : Fin 8) (s : State) : Host.Outcome State Fault Refusal := done s (s.bankFail b.val)
/-- BANK_RETURN. -/
def execBankReturn (b : Fin 8) (level : Fin 4) (s : State) : Host.Outcome State Fault Refusal := done s (s.bankReturn b.val level.val)
/-- FAB_OUT_CHANGE. -/
def execFabOutChange (k : Fin 16) (j : Fin 32) (value oe : Bool) (s : State) : Host.Outcome State Fault Refusal :=
  done s (s.fabOut k.val j.val value oe)

end Sys2Proof.Machine
end

