-- ==== Sys2Proof/Machine/Fabric.lean ====
section
/-! DEFINITION. The logic cells of the fabric: their configuration, what they compute, and the edges of FAB_CLK (R226, R227, R325). -/

namespace Sys2Proof.Machine

/-! ## Configuration (R324, R325) -/

/-- Word `j` of the vector of column `col` of sector `k` as configuration memory holds it; an inverted bit acts until it is corrected
(R358). -/
def State.fabWord (s : State) (k col j : Nat) : Nat :=
  let i := 64 * (k * 2 ^ 24 + col * 2 ^ 16 + j / 40) + j % 40
  (tget 0 s.cfgmem i ^^^ BitVec.ofNat 32 (tget 0 s.cfgFlip i)).toNat

/-- The 96-bit slice of cell `c` of sector `k`. -/
def State.slice (s : State) (k c : Nat) : Nat :=
  let w (i : Nat) : Nat := s.fabWord k (c / 128) (3 * (c % 128) + i)
  w 0 + w 1 * 2 ^ 32 + w 2 * 2 ^ 64

/-- Code `e` of the sector interface vector. -/
def State.ifCode (s : State) (k e : Nat) : Nat :=
  let b := 12 * e
  bits (s.fabWord k 16 (b / 32) + s.fabWord k 16 (b / 32 + 1) * 2 ^ 32) (b % 32 + 11) (b % 32)

/-- The cell whose slice holds the entry `i` of configuration memory, in sector `k`. -/
def cellAt (k i : Nat) : Option Nat :=
  let f := i / 64
  let c := (f % 2 ^ 16 * 40 + i % 64) / 3
  if f / 2 ^ 24 = k ∧ f / 2 ^ 16 % 256 < 16 ∧ i % 64 < 40 ∧ c < 128 then some (f / 2 ^ 16 % 256 * 128 + c) else none

/-- The cells of sector `k` with a word or an inverted bit in configuration memory, rising. Any other cell has the output 0. -/
def State.fabCells (s : State) (k : Nat) : List Nat :=
  let stored := (s.cfgmem.filterMap (fun e => cellAt k e.1)).foldr (fun c l => if l.head? = some c then l else c :: l) []
  ((s.cfgFlip.filterMap (fun e => cellAt k e.1)).foldl (fun t c => tput t c ()) (stored.map (fun c => (c, ())))).map (·.1)

/-! ## What the cells compute (R226, R325) -/

/-- The outputs and the carries of the cells of a sector, by cell. -/
abbrev CellOuts := Table (Bool × Bool)

/-- The signal that a source code names. -/
def State.fabSource (s : State) (k : Nat) (outs : CellOuts) (code : Nat) : Bool :=
  let f := s.fabOf k
  if code < 0x800 then (tget (false, false) outs code).1
  else if code < 0x820 then s.inputLevel (0x110 + 32 * k + (code - 0x800))
  else if code < 0x920 then (s.reg (MBX_TOFAB_at k ((code - 0x820) / 32))).toNat.testBit ((code - 0x820) % 32)
  else if code < 0x928 then s.fbit (MBX_STAT_TOFULL k) (code - 0x920)
  else if code < 0x930 then s.fbit (MBX_STAT_FROMFULL k) (code - 0x928)
  else if code = 0x930 then f.bells != 0
  else if code = 0x931 then decide (f.reqs.length + f.rets.length < 4)
  else if code = 0x932 then f.back.isSome
  else if code = 0x933 then f.back.any (·.err)
  else if code < 0x960 then f.back.any (fun r => r.data.toNat.testBit (code - 0x940))
  else code == 0xFFE

/-- Source `n` of a slice: 0 to 3 I0 to I3, 4 CESEL, 5 SRSEL. -/
def sliceSource (v n : Nat) : Nat := bits v (35 + 12 * n) (24 + 12 * n)

/-- INIT of a cell as loaded, without inverted bits. -/
def State.loadedInit (s : State) (k c : Nat) : Bool :=
  let j := 3 * (c % 128)
  (tget 0 s.cfgmem (64 * (k * 2 ^ 24 + c / 128 * 2 ^ 16 + j / 40) + j % 40)).toNat.testBit 17

/-- The flip-flop of a cell: what its last edge gave it. An inverted bit of INIT that comes later does not reach it (R325, R358). -/
def State.flop (s : State) (k c : Nat) : Bool := (tget none s.ffs (2048 * k + c)).getD (s.loadedInit k c)

/-- FAB_RST of sector `k` ends: each flip-flop holds the INIT that acts (R226, R230). -/
def State.fabInit (s : State) (k : Nat) : State :=
  { s with ffs := (s.fabCells k).foldl (fun t c =>
      let i := (s.slice k c).testBit 17
      tset none t (2048 * k + c) (if i = s.loadedInit k c then none else some i)) (s.ffs.filter (fun p => p.1 / 2048 != k)) }

/-- The carry into a cell: 0 for the first of a tile; a cell without a slice has cell 0 as both inputs, so its carry is that output. -/
def carryIn (outs : CellOuts) (c : Nat) : Bool :=
  if c % 128 = 0 then false
  else match outs.find? (fun e => e.1 == c - 1) with
  | some e => e.2.2
  | none => (tget (false, false) outs 0).1

/-- The lookup table of a cell, and its carry out. -/
def State.lutOut (s : State) (k : Nat) (outs : CellOuts) (c : Nat) : Bool × Bool :=
  let v := s.slice k c
  let i (n : Nat) : Bool := s.fabSource k outs (sliceSource v n)
  let cin := carryIn outs c
  let i3 := if v.testBit 18 then cin else i 3
  (v.testBit (8 * b2n i3 + 4 * b2n (i 2) + 2 * b2n (i 1) + b2n (i 0)), (i 0 && i 1) || (i 0 && cin) || (i 1 && cin))

/-- One round of evaluation of all cells. -/
def State.cellRound (s : State) (k : Nat) (cs : List Nat) (outs : CellOuts) : CellOuts :=
  cs.map (fun c =>
    let (l, carry) := s.lutOut k outs c
    (c, (if (s.slice k c).testBit 16 then s.flop k c else l, carry)))

/-- Rounds until nothing changes; what still changes then is a combinational loop, whose outputs are free values. -/
def State.cellSettle (s : State) (k : Nat) (cs : List Nat) : Nat → CellOuts → CellOuts
  | 0, outs =>
    let new := s.cellRound k cs outs
    new.map (fun e => if tget (false, false) outs e.1 = e.2 then e else (e.1, (Config.cellLoop s.freeCtr k e.1, e.2.2)))
  | n + 1, outs =>
    let new := s.cellRound k cs outs
    if new = outs then outs else s.cellSettle k cs n new

/-- The outputs of the cells of sector `k` at this instant. -/
def State.cellOuts (s : State) (k : Nat) : CellOuts :=
  let cs := s.fabCells k
  s.cellSettle k cs (2 * cs.length + 1) (cs.map (fun c => (c, (false, false))))

/-- Signal `e` of the sector interface vector. -/
def State.ifSignal (s : State) (k : Nat) (outs : CellOuts) (e : Nat) : Bool := s.fabSource k outs (s.ifCode k e)

/-- A number from `n` signals of the interface vector, from entry `e` up. -/
def State.ifNumber (s : State) (k : Nat) (outs : CellOuts) (e n : Nat) : Nat :=
  (List.range n).foldl (fun x b => x + b2n (s.ifSignal k outs (e + b)) * 2 ^ b) 0

/-! ## FAB_CLK (R227 to R229) -/

/-- The next state of the flip-flop of a cell: SR before CE (log 21), else the lookup table. -/
def State.flopNext (s : State) (k : Nat) (outs : CellOuts) (c : Nat) : Bool :=
  let v := s.slice k c
  if v.testBit 20 && s.fabSource k outs (sliceSource v 5) then v.testBit 17
  else if v.testBit 19 && !s.fabSource k outs (sliceSource v 4) then s.flop k c
  else (s.lutOut k outs c).1

/-- What the fabric gives its ports at an edge: acknowledges and words for the mailbox, a scratchpad request that is granted, and
events (R227 to R229). A signal that stays at 1 is a pulse at each edge (log 21). -/
def State.fabPorts (s : State) (k : Nat) (outs : CellOuts) : State :=
  let f := s.fabOf k
  let sig (e : Nat) : Bool := s.ifSignal k outs e
  let acks := (List.range 8).filter (fun j => sig (66 + j))
  let froms := ((List.range 8).filter (fun j => sig (330 + j))).map (fun j => (j, BitVec.ofNat 32 (s.ifNumber k outs (74 + 32 * j) 32)))
  let req : List FabReq := if sig 338 && decide (f.reqs.length + f.rets.length < 4) then
    [⟨sig 339, s.ifNumber k outs 340 2, s.ifNumber k outs 342 16, BitVec.ofNat 32 (s.ifNumber k outs 358 32)⟩] else []
  let s1 := s.setFab k { f with
    acks := f.acks ++ acks, froms := f.froms ++ froms, reqs := f.reqs ++ req, bells := f.bells - 1, back := none }
  (List.range 2).foldl (fun t e => if sig (64 + e) then t.fire (0x100 + 2 * k + e) else t) s1

/-- The levels of FAB_OUT and their enables (R227). -/
def State.fabDrive (s : State) (k : Nat) : State :=
  let outs := s.cellOuts k
  s.setFab k { s.fabOf k with out := BitVec.ofNat 32 (s.ifNumber k outs 0 32), oe := BitVec.ofNat 32 (s.ifNumber k outs 32 32) }

/-- One edge of FAB_CLK in sector `k`. -/
def State.fabEdge (s : State) (k : Nat) : State :=
  let outs := s.cellOuts k
  let next := (s.fabCells k).map (fun c => (c, s.flopNext k outs c))
  let s1 := s.fabPorts k outs
  let s2 : State := { s1 with ffs := next.foldl (fun t e =>
    tset none t (2048 * k + e.1) (some e.2)) s1.ffs }
  s2.fabDrive k

/-- Edges of FAB_CLK of the sectors 2j and 2j + 1 in the first `n` TB_CLK cycles: FAB_CLK is 25 MHz × M / FDIV (R418). -/
def State.fabTime (s : State) (j : Nat) (n : Nat) : Nat := n * 25 * s.fld CLK_CORE_M / (s.fld (CLK_FAB_FDIV j) * 200)

/-- `n` edges of FAB_CLK in sector `k`. -/
def State.fabEdges (s : State) (k : Nat) : Nat → State
  | 0 => s
  | n + 1 => (s.fabEdge k).fabEdges k n

/-- `n` TB_CLK cycles pass for the cells of every sector that has any, while they run (R226, R230). -/
def State.fabAdvance (s : State) (n : Nat) : State :=
  ((List.range 16).filter s.fabLoaded).foldl (fun s k =>
    if s.fabricRuns k then s.fabEdges k (s.fabTime (k / 2) (s.tb.now.toNat + n) - s.fabTime (k / 2) s.tb.now.toNat) else s) s

end Sys2Proof.Machine
end

