-- ==== Sys2Proof/Machine/Timebase.lean ====
section
/-! DEFINITION. The timebase: time, the master position, encoders, and the action stores (R34 to R59, R452, R453). -/

namespace Sys2Proof.Machine

/-! ## Positions -/

/-- The master source in force (R45). -/
def State.src (s : State) : Nat := s.fld TB_MASTER_SRC

/-- The 64-bit position of an encoder: revolutions and its own angle (R45). -/
def Encoder.position (e : Encoder) : BitVec 64 := e.rev ++ e.angle

/-- The angle at edge count `e`: floor(e · 2^32 / EPR) (R38). -/
def edgeAngle (e epr : Nat) : Nat := e * 2 ^ 32 / epr

/-- TB_VSPEED as a signed number with 16 fraction bits (R45). -/
def State.vspeed (s : State) : Int := (s.reg TB_VSPEED_at).toInt

/-- The master offset as a position (R45). -/
def State.offset64 (s : State) : BitVec 64 := (s.reg TB_ANGLE_OFS_at).setWidth 64

/-- A whole position with no fraction. -/
def whole (p : BitVec 64) : BitVec 80 := p ++ (0 : BitVec 16)

/-- The 64-bit master position P without its fraction. -/
def State.P (s : State) : BitVec 64 := s.tb.pos.extractLsb' 16 64

/-- The position that bounds interpolation: one unit short of the next expected edge, with the offset (R41). -/
def State.bound (s : State) (i : Nat) : BitVec 64 :=
  let e := s.encOf i
  let epr := s.fld (TB_ENC_EPR_EPR i)
  if s.fld (TB_ENC_CFG_MODE i) = 1 then
    if e.dir then
      (if e.cnt = 0 then (e.rev - 1) ++ BitVec.ofNat 32 (edgeAngle (epr - 1) epr)
        else e.rev ++ BitVec.ofNat 32 (edgeAngle (e.cnt - 1) epr)) + s.offset64 + 1
    else (e.rev ++ (0 : BitVec 32)) + BitVec.ofNat 64 (edgeAngle (e.cnt + 1) epr) + s.offset64 - 1
  else Config.ssiNext e.position + s.offset64 + (if e.dir then 1 else -1)

/-- P after `n` more cycles without an edge (R41, R45): an encoder's estimate carries it no further than the bound; the virtual
source moves it with V; otherwise it holds. -/
def State.posAfter (s : State) (n : Nat) : BitVec 80 :=
  if s.src = 4 then s.tb.v + BitVec.ofInt 80 (s.vspeed * n) + whole s.offset64
  else if s.src < 4 ∧ s.tb.speedOk = true then
    let room := (whole (s.bound s.src) - s.tb.pos).toInt
    let step : Int := s.tb.speed.toNat * n
    if s.tb.dir then (if room ≥ 0 then s.tb.pos else s.tb.pos + BitVec.ofInt 80 (-(min step (-room))))
    else if room ≤ 0 then s.tb.pos else s.tb.pos + BitVec.ofInt 80 (min step room)
  else s.tb.pos

/-! ## Entries of the action stores -/

/-- KIND of an entry (R48). -/
def Action.kind (a : Action) : Nat := bits a.w1.toNat 31 30
/-- LATEFIRE of an entry. -/
def Action.lateFire (a : Action) : Bool := a.w1.toNat.testBit 29
/-- TRACE of an entry. -/
def Action.traced (a : Action) : Bool := a.w1.toNat.testBit 28
/-- TAG of an entry. -/
def Action.tag (a : Action) : Nat := bits a.w2.toNat 31 16
/-- DEST of an entry: 0 pin, 1 Barchan. -/
def Action.dest (a : Action) : Nat := bits a.w2.toNat 15 14
/-- ADDR of an entry. -/
def Action.addr (a : Action) : Nat := bits a.w2.toNat 13 0
/-- The pin of a pin entry. -/
def Action.pin (a : Action) : Nat := bits a.w2.toNat 8 0
/-- The owner fields of an entry: position and slot. -/
def Action.owner (a : Action) : Nat := bits a.w3.toNat 31 24
/-- OWNER_HOST of an entry. -/
def Action.host (a : Action) : Bool := a.w3.toNat.testBit 23
/-- VALUE of an entry. -/
def Action.value (a : Action) : Nat := bits a.w3.toNat 15 0

/-- The full target of an angle entry: the position within 32,768 revolutions of the present one whose low 16 REV bits and ANGLE are
those given (R49). -/
def fullTarget (p : BitVec 64) (rev16 : Nat) (angle : Word) : BitVec 64 :=
  let cur : BitVec 32 := p.extractLsb' 32 32
  let d := (BitVec.ofNat 16 rev16 - cur.setWidth 16).toInt
  (cur + BitVec.ofInt 32 d) ++ angle

/-- The instant of a time entry: ahead only within 2^31 cycles, otherwise past (R49). -/
def timeTarget (now : BitVec 64) (target : Word) : BitVec 64 := now + BitVec.ofInt 64 (target - now.setWidth 32).toInt

/-- Whether a move from `p0` to `p1` (16 fraction bits) crosses the target in the entry's direction: KIND 1 forward, 2 reverse. -/
def crosses (kind : Nat) (t : BitVec 64) (p0 p1 : BitVec 80) : Bool :=
  let d0 := (whole t - p0).toInt
  let d1 := (whole t - p1).toInt
  if kind = 1 then decide (0 < d0 ∧ d1 ≤ 0) else if kind = 2 then decide (d0 < 0 ∧ 0 ≤ d1) else false

/-- Whether the target is passed at a position: P ≥ target for a forward entry, P ≤ target for a reverse one (R51). -/
def passed (kind : Nat) (t : BitVec 64) (p : BitVec 80) : Bool :=
  let d := (whole t - p).toInt
  if kind = 1 then decide (d ≤ 0) else if kind = 2 then decide (0 ≤ d) else false

/-- The counters and the log of an entry of sector `k` that is late (class 1) or close (class 2), and fires late or is dropped
(R52). -/
def State.judgeLate (s : State) (k cls : Nat) (fires : Bool) (a : Action) : State :=
  let s1 := match cls, fires with
    | 1, true => s.addSat (TB_QCNT_LATE_LATE_FIRED k) 1
    | 1, false => s.addSat (TB_QCNT_LATE_LATE_DROPPED k) 1
    | _, true => s.addSat (TB_QCNT_CLOSE_CLOSE_FIRED k) 1
    | _, false => s.addSat (TB_QCNT_CLOSE_CLOSE_DROPPED k) 1
  let s2 := if fires then s1 else s1.setFld TB_IRQ_STAT_DROP 1
  ((((((s2.setFld (TB_QLOG_LOG_VALID k) 1).setFld (TB_QLOG_CLASS k) (cls - 1)).setB (TB_QLOG_FIRED k) fires).setB
    (TB_QLOG_HOST k) a.host).setFld (TB_QLOG_OWNER k) a.owner).setFld (TB_QLOG_TAG k) a.tag)

/-- The grace of sector `k` in cycles (R52). -/
def State.grace (s : State) (k : Nat) : Nat := s.fld (TB_QCFG_GRACE k) * 8

/-- Whether the entry waits for its A + 32 (R51). -/
def Stand.early : Stand → Bool
  | .unjudged => true
  | .crossed => true
  | _ => false

/-- One armed entry of sector `k` over `n` cycles from position `p0` to `p1`: a pin angle entry whose A + 32 falls into them is
judged there (R51, R52), and one that waits becomes due where P crosses its target (R53, R54). With SPEED_OK = 0 at A + 32 it is not
judged at all: it keeps its place until P next crosses its target, or fires at once where that has happened since A (R53). A target
passed with S = 0 has an infinitely early T (R51). Answers the entry, or none where it is dropped. -/
def State.overCycles (s : State) (k n : Nat) (p0 p1 : BitVec 80) (a : Action) : State × Option Action :=
  if a.dest ≠ 0 ∨ a.kind = 0 then (s, some a)
  else
    let crossAt (q : BitVec 80) (from_ : BitVec 64) : BitVec 64 :=
      if s.tb.speed = 0 then from_ + BitVec.ofNat 64 n
      else from_ + BitVec.ofNat 64 (((whole a.target - q).toInt.natAbs + s.tb.speed.toNat - 1) / s.tb.speed.toNat)
    match a.stand with
    | .due _ _ _ => (s, some a)
    | .waiting =>
      if crosses a.kind a.target p0 p1 then (s, some { a with stand := .due (crossAt p0 s.tb.now) 0 0 }) else (s, some a)
    | st =>
      let f := a.arm + 32
      let ahead := (f - s.tb.now).toInt
      if ahead > (n : Int) then (s, some (if crosses a.kind a.target p0 p1 then { a with stand := .crossed } else a))
      else
        let q := s.posAfter ahead.toNat
        if s.tb.speedOk = true ∧ passed a.kind a.target q = true then
          let d := (whole a.target - q).toInt.natAbs
          let v := s.tb.speed.toNat
          if d = 0 ∧ v ≠ 0 then (s, some { a with stand := .due f 0 0 })
          else
            let cls := if v ≠ 0 ∧ d ≤ 32 * v then 2 else 1
            if a.lateFire = true ∧ v ≠ 0 ∧ d ≤ s.grace k * v then
              (s.judgeLate k cls true a, some { a with stand := .due f cls (d / v) })
            else (s.judgeLate k cls false a, none)
        else if s.tb.speedOk = false ∧ (st = .crossed ∨ crosses a.kind a.target p0 q = true) then
          (s, some { a with stand := .due f 0 0 })
        else if crosses a.kind a.target q p1 then (s, some { a with stand := .due (crossAt q f) 0 0 })
        else (s, some { a with stand := .waiting })

/-- All armed entries of sector `k` over `n` cycles. -/
def State.storeCycles (s : State) (k n : Nat) (p0 p1 : BitVec 80) : State :=
  let r := (s.storeOf k).armed.foldl (fun (acc : State × List Action) a =>
    match acc.1.overCycles k n p0 p1 a with
    | (s', some a') => (s', acc.2 ++ [a'])
    | (s', none) => (s', acc.2)) (s, [])
  let st := s.storeOf k
  r.1.setStore k { st with armed := r.2, freed := st.freed + (st.armed.length - r.2.length) }

/-- REV increments between two positions (R46). -/
def revRose (p0 p1 : BitVec 80) : Bool :=
  decide (0 < ((p1.extractLsb' 48 32 : BitVec 32) - (p0.extractLsb' 48 32 : BitVec 32)).toInt)

/-- `n` TB_CLK cycles pass: TB_NOW counts (R34), the cells of the fabric see their edges (R226), V and P move (R41, R45), waiting angle
entries meet their targets, and event 0x124 fires where REV increments (R46). Nothing counts before the configuration is released. -/
def State.advance (s : State) (n : Nat) : State :=
  if s.pwr.released = false ∨ n = 0 then s
  else
    let p0 := s.tb.pos
    let p1 := s.posAfter n
    let s := s.fabAdvance n
    let s1 := (s.stores.map (·.1)).foldl (fun s k => s.storeCycles k n p0 p1) s
    let s2 := { s1 with tb := { s1.tb with
      now := s1.tb.now + BitVec.ofNat 64 n, v := s1.tb.v + BitVec.ofInt 80 (s1.vspeed * n), pos := p1 } }
    if revRose p0 p1 then s2.fire 0x124 else s2

/-- P moves at once, by an edge or a jump: entries whose target it crosses become due now, a jump counts them in JUMPED, and event
0x124 fires where REV increments (R46, R53). A pin entry that has not reached its A + 32 keeps the crossing of an ordinary edge in mind
(R51). -/
def State.moveP (s : State) (p1 : BitVec 80) (jump : Bool) : State :=
  let p0 := s.tb.pos
  let s1 := (s.stores.map (·.1)).foldl (fun s k =>
    let st := s.storeOf k
    let hit (a : Action) : Bool := a.kind != 0 && crosses a.kind a.target p0 p1 &&
      (match a.stand with | .due _ _ _ => false | _ => jump || a.dest == 0)
    let s' := if jump then s.addSat (TB_QCNT_OTHER_JUMPED k) (st.armed.filter hit).length else s
    s'.setStore k { st with armed := st.armed.map (fun a =>
      if hit a then { a with stand := if a.stand.early && !jump then .crossed else .due s.tb.now 0 0 } else a) }) s
  let s2 : State := { s1 with tb := { s1.tb with pos := p1 } }
  let s3 := if jump then s2.asyncLost else s2
  if revRose p0 p1 then s3.fire 0x124 else s3

/-! ## Encoders (R37 to R44) -/

/-- The speed estimate over the last K edges: angle travelled by cycles, 16 fraction bits, at most the largest (R40). -/
def estimate (hist : List (BitVec 64 × BitVec 64)) (kEdges : Nat) : Option (BitVec 32) :=
  match hist.head?, hist[kEdges]? with
  | some (t0, p0), some (t1, p1) =>
    some (BitVec.ofNat 32 (min ((p0 - p1).toInt.natAbs * 2 ^ 16 / max 1 (t0 - t1).toNat) (2 ^ 32 - 1)))
  | _, _ => none

/-- An accepted edge brings encoder `i` to a position in a direction, at an instant (R40, R42). Answers the encoder and whether the
direction changed. DESIGN CHOICE (log 83): until a new estimate exists the encoder keeps its last speed, and the quotient of R40 is
rounded down. -/
def State.encEdge (s : State) (i : Nat) (cnt : Nat) (pos : BitVec 64) (dir : Bool) (at_ : BitVec 64) : Encoder × Bool :=
  let e := s.encOf i
  let late := match e.lastEdge with
    | none => true
    | some t => decide ((at_ - t).toNat > s.fld (TB_ENC_TIMEOUT_US i) * 200)
  let rev := decide (dir ≠ e.dir)
  let hist := if late || rev then [(at_, pos)] else ((at_, pos) :: e.hist).take 65
  let est := estimate hist (2 ^ s.fld (TB_ENC_CFG_AVG i))
  ({ e with
      cnt := cnt, rev := pos.extractLsb' 32 32, angle := pos.setWidth 32, dir := dir, hist := hist, lastEdge := some at_
      speed := est.getD e.speed, speedOk := est.isSome, stopped := false }, rev)

/-- The master takes over the estimate of its source after an edge of that source, and P the exact position (R41, R42). DESIGN
CHOICE (log 83): an SSI sample opposite to the direction is no jump, since R46 measures a reversal by an edge spacing, which SSI has
not. -/
def State.masterEdge (s : State) (i : Nat) (reversed : Bool) : State :=
  if s.src ≠ i then s
  else
    let e := s.encOf i
    let p := e.position + s.offset64
    let epr := s.fld (TB_ENC_EPR_EPR i)
    let jump := reversed && decide (s.fld (TB_ENC_CFG_MODE i) = 1) && decide ((p - s.P).toInt.natAbs * epr > 2 ^ 32)
    let s1 := { s with tb := { s.tb with speed := e.speed, speedOk := e.speedOk, dir := e.dir, stopped := false } }
    let s2 := if reversed then s1.setFld TB_IRQ_STAT_REVERSE 1 else s1
    s2.moveP (whole p) jump

/-- Whether an edge comes closer to the last accepted one than the glitch filter of encoder `i` lets through: FILTER + 2 cycles
(R38). -/
def State.tooClose (s : State) (i : Nat) : Bool :=
  match (s.encOf i).lastEdge with
  | none => false
  | some t => decide ((s.tb.now - t).toNat < s.fld (TB_ENC_CFG_FILTER i) + 2)

/-- QERR of encoder `i` counts an event (R37, R38). -/
def State.countQerr (s : State) (i : Nat) : State := (s.addSat (TB_ENC_STAT_ERR i) 1).setFld TB_IRQ_STAT_ENCERR 1

/-- ENCODER_EDGE (R37): an accepted change of A or B steps the count, or is lost and counts as QERR where the filter is too slow for
it (R38). Nothing moves before the configuration is released (R45), nor where no pin feeds A or B (R255). -/
def State.encoderEdge (s : State) (i : Nat) (k : EdgeKind) : State :=
  let e := s.encOf i
  let epr := s.fld (TB_ENC_EPR_EPR i)
  if s.fld (TB_ENC_CFG_MODE i) ≠ 1 ∨ s.pwr.released = false ∨ (s.fed (0xA0 + 3 * i) || s.fed (0xA1 + 3 * i)) = false then s
  else if s.tooClose i = true ∧ (k = .forward ∨ k = .reverse) then s.countQerr i
  else
    let go (cnt : Nat) (rev : BitVec 32) (dir : Bool) : State :=
      let (e', reversed) := s.encEdge i cnt (rev ++ BitVec.ofNat 32 (edgeAngle cnt epr)) dir s.tb.now
      (s.setEnc i e').masterEdge i reversed
    match k with
    | .forward => if e.cnt + 1 ≥ epr then go 0 (e.rev + 1) false else go (e.cnt + 1) e.rev false
    | .reverse => if e.cnt = 0 then go (epr - 1) (e.rev - 1) true else go (e.cnt - 1) e.rev true
    | .illegal => s.countQerr i
    | _ => s

/-- INDEX_EDGE (R44): the event fires; a forward index compares the edge count and corrects it, which is a jump of P. -/
def State.indexEdge (s : State) (i : Nat) (forward : Bool) : State :=
  if s.fld (TB_ENC_CFG_MODE i) ≠ 1 ∨ s.pwr.released = false ∨ s.fed (0xA2 + 3 * i) = false then s
  else
    let s0 := s.fire (0x120 + i)
    let e := s0.encOf i
    let cnt := s0.fld (TB_ENC_IDX_COUNT i)
    if forward && s0.fb (TB_ENC_CFG_IDXEN i) && decide (e.cnt ≠ cnt) then
      let pos : BitVec 64 := e.rev ++ BitVec.ofNat 32 (edgeAngle cnt (s0.fld (TB_ENC_EPR_EPR i)))
      let d := pos - e.position
      let s1 := s0.setEnc i { e with cnt := cnt, angle := pos.setWidth 32, hist := e.hist.map (fun h => (h.1, h.2 + d)) }
      let s2 := (s1.addSat (TB_ENC_STAT_IDXERR i) 1).setFld TB_IRQ_STAT_IDX 1
      if s2.src = i then s2.moveP (whole (pos + s2.offset64)) true else s2
    else s0

/-- SSI_READ (R39): a read starts; its sample instant is this edge less LATENCY. -/
def State.ssiRead (s : State) (i : Nat) : State :=
  let m := s.fld (TB_ENC_CFG_MODE i)
  if (m = 2 ∨ m = 3) ∧ s.pwr.released = true then
    s.setEnc i { s.encOf i with
      ssiStart := s.tb.now, ssiBusy := some (s.tb.now - BitVec.ofNat 64 (s.fld (TB_ENC_SSI_LATENCY i))) }
  else s

/-- The number that a Gray code word stands for. -/
def grayDecode (n : Nat) : Nat := (List.range 32).foldl (fun acc j => acc ^^^ (n >>> j)) 0

/-- SSI_SAMPLE (R39): without a pin that feeds the data input, every bit is 0 (R255). A good frame is decoded as an edge, with a wrap where two samples differ by more than half a revolution; a
parity or framing error discards it and counts. -/
def State.ssiSample (s : State) (i : Nat) (data0 : Word) (parity0 frame : Bool) : State :=
  let data := if s.fed (0xA0 + 3 * i) then data0 else 0
  let parity := parity0 && s.fed (0xA0 + 3 * i)
  let e := s.encOf i
  match e.ssiBusy with
  | none => s
  | some at_ =>
    let s0 := s.setEnc i { e with ssiBusy := none }
    let n := s.fld (TB_ENC_SSI_BITS i)
    let raw := data.toNat % 2 ^ n
    let even := (bitList raw 32).length % 2 = (b2n parity)
    if frame = false ∨ (s.fb (TB_ENC_SSI_PARITY i) = true ∧ ¬ even) then
      s0.countQerr i
    else
      let pos := if s.fld (TB_ENC_CFG_MODE i) = 3 then grayDecode raw else raw
      let angle : BitVec 32 := BitVec.ofNat 32 (pos * 2 ^ (32 - n))
      let up := decide (e.angle.toNat ≤ angle.toNat)
      let dist := if up then angle.toNat - e.angle.toNat else e.angle.toNat - angle.toNat
      let wrap := e.ssiGood && decide (dist > 2 ^ 31)
      let rev := if wrap then (if up then e.rev - 1 else e.rev + 1) else e.rev
      let dir := if angle = e.angle then e.dir else if wrap then up else !up
      let (e', reversed) := s0.encEdge i e.cnt (rev ++ angle) (if e.ssiGood then dir else e.dir) at_
      (s0.setEnc i { e' with ssiGood := true }).masterEdge i (reversed && e.ssiGood)

/-- ENCODER_TIMEOUT (R43): the estimate ends; on the master P holds, and STOPPED and STOP are set. -/
def State.encoderTimeout (s : State) (i : Nat) : State :=
  if s.fld (TB_ENC_CFG_MODE i) = 0 then s
  else
    let e := s.encOf i
    let s1 := s.setEnc i { e with hist := [], speed := 0, speedOk := false, stopped := true }
    if s.src = i then
      { s1 with tb := { s1.tb with speed := 0, speedOk := false, stopped := true } }.setFld TB_IRQ_STAT_STOP 1
    else s1

/-! ## Master selection (R45, R46) -/

/-- The position of a source without the offset; `none` for SRC = 7. -/
def State.sourcePos (s : State) (src : Nat) : Option (BitVec 80) :=
  if src < 4 then some (whole (s.encOf src).position) else if src = 4 then some s.tb.v else none

/-- The master estimate of the source now selected: an encoder's own, or VSPEED's (R45). DESIGN CHOICE (log 83): where SRC becomes 7,
TB_SPEED keeps the last S and STOPPED reads 0; R45 gives only SPEED_OK = 0. -/
def State.masterEstimate (s : State) : State :=
  if s.src < 4 then
    let e := s.encOf s.src
    { s with tb := { s.tb with speed := e.speed, speedOk := e.speedOk, dir := e.dir, stopped := e.stopped } }
  else if s.src = 4 then
    if s.vspeed = 0 then
      { s with tb := { s.tb with speed := 0, speedOk := false, stopped := true } }.setFld TB_IRQ_STAT_STOP 1
    else
      { s with tb := { s.tb with
        speed := BitVec.ofNat 32 s.vspeed.natAbs, speedOk := true, stopped := false, dir := decide (s.vspeed < 0) } }
  else { s with tb := { s.tb with speedOk := false, stopped := false } }

/-- The image's values reach the timebase at tick 0: P is the position of the source with the offset, and no jump (R45). -/
def State.masterInit (s : State) : State :=
  let s1 : State := match s.sourcePos s.src with
    | some p => { s with tb := { s.tb with pos := p + whole s.offset64 } }
    | none => { s with tb := { s.tb with pos := whole s.offset64 } }
  s1.masterEstimate

/-- What an apply on TB_CLK does to the master: `old` is the state before its values (R45, R46). -/
def State.masterApply (old s : State) : State :=
  let ofsD := s.offset64 - old.offset64
  let s1 :=
    if s.src = old.src ∧ ofsD = 0 then s
    else match s.sourcePos s.src with
      | some p => s.moveP (p + whole s.offset64) true
      | none => if ofsD = 0 then s else s.moveP (s.tb.pos + whole ofsD) true
  if s.src = old.src ∧ s.vspeed = old.vspeed then s1
  else
    let s2 := s1.masterEstimate
    if s.src = 4 ∧ old.src = 4 ∧ s2.tb.dir ≠ s.tb.dir then s2.setFld TB_IRQ_STAT_REVERSE 1 else s2

/-- TB_CLK cycles from now to the edge at which the next tick begins (R35). -/
def State.toNextEdge (s : State) : Nat := s.fld TB_TICKLEN_CYCLES - (s.tb.now - s.tb.edge).toNat

/-- TB_CLK cycles until V crosses its next revolution boundary (R45). -/
def State.wrapCycles (s : State) : Nat :=
  let frac := s.tb.v.toNat % 2 ^ 48
  let v := s.vspeed.natAbs
  if s.vspeed > 0 then (2 ^ 48 - frac + v - 1) / v else frac / v + 1

/-- VIRTUAL_SOURCE_WRAP (R45): time passes to the cycle in which V crosses its next revolution boundary. A boundary that lies beyond
the next tick edge is not reached before that edge has come (R35). -/
def State.virtualWrap (s : State) : State :=
  if s.src = 4 ∧ s.vspeed ≠ 0 ∧ s.wrapCycles ≤ s.toNextEdge then s.advance s.wrapCycles else s

/-! ## Time sets (R47) -/

/-- TB_MSTAT of the present edge. -/
def State.mstat (s : State) : Word :=
  BitVec.ofNat 32 (8 * b2n (s.src == 7) + 4 * b2n s.tb.stopped + 2 * b2n s.tb.dir + b2n s.tb.speedOk)

/-- A read of TB_NOW_LO latches the set for its requester. -/
def State.latchTime (s : State) (req : Nat) : State :=
  { s with snaps := tset none s.snaps req (some ⟨s.timeNow, s.tb.tick, s.P, s.tb.speed, s.mstat⟩) }

/-! ## Posting and cancelling (R50, R56, R57, R97, R452) -/

/-- Entries in use, with those freed but not yet back (R56). -/
def Store.inUse (x : Store) : Nat :=
  (x.fifo.filter (fun q => match q with | .post _ => true | .cancel _ _ _ _ => false)).length + x.armed.length + x.freed

/-- Whether an entry meets a BADENTRY condition (R50). -/
def State.badEntry (s : State) (a : Action) : Bool :=
  a.kind == 3 || decide (a.dest ≥ 2) || (a.dest == 0 && decide (a.pin > 351)) || (a.kind != 0 && s.src == 7)

/-- A post to the store of sector `k` (R50): the result 0 ACCEPTED, 1 FULL or 2 BADENTRY. -/
def State.post (s : State) (k : Nat) (a : Action) : State × Nat :=
  if s.badEntry a then (s, 2)
  else
    let x := s.storeOf k
    if x.inUse ≥ 256 then ((s.addSat (TB_QCNT_OTHER_FULL k) 1).setFld TB_IRQ_STAT_FULL 1, 1)
    else
      let s1 := s.setStore k { x with fifo := x.fifo ++ [.post a] }
      (s1.setFld (TB_QSTAT_HIGH k) (max (s1.fld (TB_QSTAT_HIGH k)) (x.inUse + 1)), 0)

/-- Whether a cancel removes an entry: TAG under MASK, and the owner where a channel sent it (R57). -/
def cancelHits (tag mask : Nat) (owner : Option Nat) (a : Action) : Bool :=
  (a.tag &&& mask) == (tag &&& mask) && (match owner with | none => true | some o => a.owner == o && !a.host)

/-- Whether an entry is due to fire at this instant or before; a cancel does not reach it (R57). -/
def State.dueNow (s : State) (a : Action) : Bool :=
  match a.stand with
  | .due t _ _ => decide (t.toNat ≤ s.tb.now.toNat)
  | .waiting => a.kind == 0 && a.dest == 0 && decide (a.target.toNat ≤ s.tb.now.toNat)
  | _ => false

/-- Removes what a cancel hits from the armed entries of sector `k`; answers the number removed (R57). -/
def State.cancelArmed (s : State) (k tag mask : Nat) (owner : Option Nat) : State × Nat :=
  let x := s.storeOf k
  let keep := x.armed.filter (fun a => s.dueNow a || !cancelHits tag mask owner a)
  let n := x.armed.length - keep.length
  (s.setStore k { x with armed := keep, freed := x.freed + n }, n)

/-- The cancel that the timebase makes itself when a channel is released: all entries of the owner, armed or pending (R58). -/
def State.cancelOwned (s : State) (k owner : Nat) : State :=
  let s1 := (s.cancelArmed k 0 0 (some owner)).1
  let x := s1.storeOf k
  let keep := x.fifo.filter (fun q => match q with | .post a => !cancelHits 0 0 (some owner) a | .cancel _ _ _ _ => true)
  s1.setStore k { x with fifo := keep, freed := x.freed + (x.fifo.length - keep.length) }

/-- A step of the emptying of a post FIFO (R57, R453): a post joins the entries, and a cancel takes out those that it hits; that of the
host ends with their number. -/
def flushStep (r : List Action × HostOp) (q : QItem) : List Action × HostOp :=
  match q with
  | .post a => (r.1 ++ [a], r.2)
  | .cancel tag mask o e =>
    let keep := r.1.filter (fun a => !cancelHits tag mask o a)
    (keep, if e.isNone && o.isNone then { r.2 with done := true, result := r.1.length - keep.length } else r.2)

/-- Every entry of an action store is cancelled, as by a cancel of the host with MASK = 0 (R423): what waits in the post FIFO is served
before it, and every entry counts as in use for its time (R56). -/
def State.storeEmpty (s : State) (k : Nat) : State :=
  let x := s.storeOf k
  let r := x.fifo.foldl flushStep (x.armed, s.hop)
  let posts := (x.fifo.filter (fun q => match q with | .post _ => true | .cancel _ _ _ _ => false)).length
  let s1 : State := { s.setStore k { x with
    fifo := [], armed := r.1, freed := x.freed + (x.armed.length + posts - r.1.length) } with hop := r.2 }
  (s1.cancelArmed k 0 0 none).1

/-- HPOST_GO (R453, R50, R452): a GO write takes the words of TB_HPOST_W and posts them to sector `k`; DONE = 0 turns it away. -/
def State.hpostGo (s : State) (k : Nat) : State :=
  let s := s.setFld TB_HPOST_CTRL_SECT k
  if s.fb TB_HRESULT_DONE = false then s
  else
    let s1 := s.setFld TB_HRESULT_DONE 0
    if s.sectRuns k = false then { s1 with hop := ⟨true, 3, true⟩ }
    else
      let w3 := (s.reg (TB_HPOST_W_at 3)).toNat % 2 ^ 16 + 2 ^ 23
      let a : Action := ⟨s.reg (TB_HPOST_W_at 0), s.reg (TB_HPOST_W_at 1), s.reg (TB_HPOST_W_at 2), BitVec.ofNat 32 w3, 0, 0,
        .unjudged⟩
      let (s2, r) := s1.post k a
      { s2 with hop := ⟨true, r, false⟩ }

/-- HCANCEL (R57, R453, R452): a cancel of the sector in TB_HPOST_CTRL with the TAG of TB_HPOST_W[2]. -/
def State.hcancel (s : State) (mask : Nat) : State :=
  if s.fb TB_HRESULT_DONE = false then s
  else
    let k := s.fld TB_HPOST_CTRL_SECT
    let s1 := s.setFld TB_HRESULT_DONE 0
    if s.sectRuns k = false then { s1 with hop := ⟨true, 0, true⟩ }
    else
      let x := s.storeOf k
      { s1.setStore k { x with fifo := x.fifo ++ [.cancel (bits (s.reg (TB_HPOST_W_at 2)).toNat 31 16) mask none none] } with
        hop := ⟨false, 0, false⟩ }

/-- HRESULT_DONE (R453): the result of the operation becomes valid. -/
def State.hresultDone (s : State) : State :=
  if s.fb TB_HRESULT_DONE = true ∨ s.hop.done = false then s
  else ((s.setFld TB_HRESULT_RESULT s.hop.result).setB TB_HRESULT_STOPPED s.hop.stopped).setFld TB_HRESULT_DONE 1

/-! ## Arming and firing (R51 to R56) -/

/-- ARM (R51, R52): the oldest post of sector `k` is armed at this edge A. A pin time entry is judged at once against F = A + 32; a
pin angle entry is judged at A + 32; a Barchan entry at its assembly. DESIGN CHOICE (log 83): a late time entry is counted at A, where
its lateness is known, so that a cancel between A and F leaves it counted. -/
def State.arm (s : State) (k : Nat) : State :=
  let x := s.storeOf k
  match x.fifo with
  | .post a :: r =>
    let now := s.tb.now
    let t := if a.kind = 0 then timeTarget now a.w0 else fullTarget s.P (bits a.w1.toNat 15 0) a.w0
    let a1 : Action := { a with arm := now, target := t }
    if a.dest = 0 ∧ a.kind = 0 then
      let f := now + 32
      let l := (f - t).toInt
      if l ≤ 0 then s.setStore k { x with fifo := r, armed := x.armed ++ [{ a1 with stand := .waiting }] }
      else
        let cls := if l > 32 then 1 else 2
        if a.lateFire = true ∧ l ≤ (s.grace k : Int) then
          (s.judgeLate k cls true a1).setStore k
            { x with fifo := r, armed := x.armed ++ [{ a1 with stand := .due f cls l.toNat }] }
        else (s.judgeLate k cls false a1).setStore k { x with fifo := r, freed := x.freed + 1 }
    else if a.dest = 0 then s.setStore k { x with fifo := r, armed := x.armed ++ [{ a1 with stand := .unjudged }] }
    else s.setStore k { x with fifo := r, armed := x.armed ++ [{ a1 with stand := .waiting }] }
  | _ => s

/-- The instant at which an armed pin entry fires, where it is known (R54). -/
def Action.fireAt (a : Action) : Option (BitVec 64) :=
  if a.dest ≠ 0 then none
  else match a.stand with
    | .due t _ _ => some t
    | .waiting => if a.kind = 0 then some a.target else none
    | _ => none

/-- The earliest firing instant of the armed entries. -/
def earliest (l : List Action) : Option (BitVec 64) :=
  l.foldl (fun m a => match m, a.fireAt with
    | none, t => t
    | some u, some t => if t.toNat < u.toNat then some t else some u
    | some u, none => some u) none

/-- A firing drives its value onto ACT_OUT[p] (R48, R54, R252): 0 low, 1 high, 2 high impedance, 3 toggle. -/
def driveAct (g : Signal) (v : Nat) : Signal :=
  match v % 4 with
  | 0 => ⟨false, true⟩
  | 1 => ⟨true, true⟩
  | 2 => ⟨g.value, false⟩
  | _ => ⟨!g.value, true⟩

/-- The firing of one pin entry of sector `k`: ACT_OUT, the trace record (R385), and the entry freed (R56). -/
def State.firePin (s : State) (k : Nat) (a : Action) (rest : List Action) : State :=
  let x := s.storeOf k
  let g := driveAct (tget ⟨false, false⟩ s.actOut a.pin) a.value
  let s1 := { s.setStore k { x with armed := rest, freed := x.freed + 1, lastFire := some s.tb.now } with
    actOut := tset ⟨false, false⟩ s.actOut a.pin g, actAt := tset none s.actAt a.pin (some s.tb.now) }
  if a.traced then
    let (cls, l) := match a.stand with | .due _ c l => (c, l) | _ => (0, 0)
    s1.trace 1 s.stamp (BitVec.ofNat 32 (cls * 2 ^ 26 + a.pin))
      (BitVec.ofNat 32 (a.tag * 2 ^ 16 + k * 2 ^ 12 + a.owner * 2 ^ 4 + 8 * b2n a.host + a.value % 4)) (BitVec.ofNat 32 l)
  else s1

/-- The first entry, in arming order, that fires at the instant `t`, and the others. -/
def takeDue (t : BitVec 64) : List Action → Option (Action × List Action)
  | [] => none
  | a :: r => if a.fireAt = some t then some (a, r)
    else match takeDue t r with
      | some (b, r') => some (b, a :: r')
      | none => none

/-- The pin entry that sector `k` fires next, the cycle of that firing, and the entries that stay: of the entries due first the one
armed first, one entry of a sector in a cycle and one firing of a pin in a cycle (R54). -/
def State.nextPin (s : State) (k : Nat) : Option (BitVec 64 × Action × List Action) :=
  match earliest (s.storeOf k).armed with
  | none => none
  | some t =>
    match takeDue t (s.storeOf k).armed with
    | none => none
    | some (a, rest) =>
      let t1 := if t.toNat < s.tb.now.toNat then s.tb.now else t
      let t2 := if (s.storeOf k).lastFire = some t1 then t1 + 1 else t1
      some (if tget none s.actAt a.pin = some t2 then t2 + 1 else t2, a, rest)

/-- Whether a lower sector has an entry for the same pin in the same cycle, which is served first (R19, R54). -/
def State.pinTaken (s : State) (k : Nat) (t : BitVec 64) (pin : Nat) : Bool :=
  (List.range k).any (fun j => match s.nextPin j with
    | some (u, a, _) => u == t && a.pin == pin
    | none => false)

/-- The instant at which the next pin entry of sector `k` falls due, where nothing but time passes up to the next tick edge: that of an
angle entry, too, whose target P crosses on the way (R51, R54). -/
def State.nextDue (s : State) (k : Nat) : Option (BitVec 64) := earliest ((s.advance s.toNextEdge).storeOf k).armed

/-- FIRE (R54): the next pin entry of sector `k` fires at its instant, and time passes to it. An instant beyond the next tick edge is
not reached before that edge has come (R35); an entry whose pin a lower sector drives in the same cycle keeps its place (R19). -/
def State.fireNext (s : State) (k : Nat) : State :=
  match s.nextDue k with
  | none => s
  | some u =>
    let n := (u - s.tb.now).toInt.toNat
    let s1 := s.advance n
    match s1.nextPin k with
    | none => s
    | some (t, a, _) =>
      let m := (t - s1.tb.now).toNat
      if n + m > s.toNextEdge ∨ s1.pinTaken k t a.pin = true then s
      else
        let s2 := s1.advance m
        match s2.nextPin k with
        | some (_, b, rest) => s2.firePin k b rest
        | none => s2

/-- ENTRY_FREE (R56, R452): a freed entry of sector `k` can be posted again once SECT_CLK runs. -/
def State.entryFree (s : State) (k : Nat) : State :=
  let x := s.storeOf k
  if s.sectRuns k then s.setStore k { x with freed := x.freed - 1 } else s

/-! ## The commands -/

/-- The values that the timebase sends with the tick: those at its edge (R71, R72). TSPD is 0 while SPEED_OK is 0. -/
def State.sendTick (s : State) : State :=
  { s with tickVals := ⟨s.tb.edge.setWidth 32, s.tickLo, s.P.setWidth 32, s.P.extractLsb' 32 32,
    if s.tb.speedOk then s.tb.speed else 0⟩ }

/-- TICK_EDGE's effect on time: time passes to the next tick edge, and tick n begins (R35). -/
def State.toTickEdge (s : State) : State :=
  if s.pwr.released = false then s
  else
    let due := s.tb.edge + BitVec.ofNat 64 (s.fld TB_TICKLEN_CYCLES)
    let s1 := s.advance (due - s.tb.now).toInt.toNat
    ({ s1 with tb := { s1.tb with tick := s1.tb.tick + 1, edge := due } } : State).sendTick

/-- ENCODER_EDGE. -/
def execEncoderEdge (i : Fin 4) (k : EdgeKind) (s : State) : Host.Outcome State Fault Refusal := done s (asyncCheck s (s.encoderEdge i.val k))
/-- INDEX_EDGE. -/
def execIndexEdge (i : Fin 4) (forward : Bool) (s : State) : Host.Outcome State Fault Refusal := done s (asyncCheck s (s.indexEdge i.val forward))
/-- SSI_READ. -/
def execSsiRead (i : Fin 4) (s : State) : Host.Outcome State Fault Refusal := done s (s.ssiRead i.val)
/-- SSI_SAMPLE. -/
def execSsiSample (i : Fin 4) (data : Word) (parity frame : Bool) (s : State) : Host.Outcome State Fault Refusal :=
  done s (asyncCheck s (s.ssiSample i.val data parity frame))
/-- ENCODER_TIMEOUT. -/
def execEncoderTimeout (i : Fin 4) (s : State) : Host.Outcome State Fault Refusal := done s (asyncCheck s (s.encoderTimeout i.val))
/-- VIRTUAL_SOURCE_WRAP. -/
def execVirtualSourceWrap (s : State) : Host.Outcome State Fault Refusal := done s s.virtualWrap
/-- TB_NOW_LO_READ: the read latches the set and returns TB_NOW[31:0] (R47). -/
def execTbNowLoRead (req : Fin 405) (s : State) : Host.Outcome State Fault Refusal :=
  done s ((s.latchTime req.val).emit (.readData req.val TB_NOW_LO_at s.stamp))
/-- HPOST_GO. -/
def execHpostGo (k : Fin 16) (s : State) : Host.Outcome State Fault Refusal := done s (s.hpostGo k.val)
/-- HCANCEL. -/
def execHcancel (mask : BitVec 16) (s : State) : Host.Outcome State Fault Refusal := done s (s.hcancel mask.toNat)
/-- HRESULT_DONE. -/
def execHresultDone (s : State) : Host.Outcome State Fault Refusal := done s s.hresultDone
/-- ARM. -/
def execArm (k : Fin 16) (s : State) : Host.Outcome State Fault Refusal := done s (s.arm k.val)
/-- FIRE. -/
def execFire (k : Fin 16) (s : State) : Host.Outcome State Fault Refusal := done s (s.fireNext k.val)
/-- ENTRY_FREE. -/
def execEntryFree (k : Fin 16) (s : State) : Host.Outcome State Fault Refusal := done s (s.entryFree k.val)

end Sys2Proof.Machine
end

