-- ==== Sys2Proof/Machine/Adc.lean ====
section
/-! DEFINITION. The sigma-delta converters: runs and triggers, results, angle-synchronous operation and calibration (R146 to R173). -/

namespace Sys2Proof.Machine

/-! ## Runs (R148 to R156) -/

/-- The clock group of converter `n`. -/
def adcGroup (n : Nat) : Nat := n / 8

/-- The route factor F in Q2.30 of an entry whose conversion starts now (R138, R148), with K_P + K_N and under the settings of a view. -/
def State.routeFactor (s : State) (v : View) (kk n e : Nat) : Nat :=
  let k := n / 2
  if s.fld (ADC_SEQ_INSEL n e) ≠ 0 ∨ v.fld (BAY_CTRL_ROUTECORR k) = 0 then 2 ^ 30
  else
    let ron := s.fld (BAY_RONREP_RON k)
    let div := s.fld (modDiv (adcGroup n))
    let num := kk * ron * 2048 * 2 ^ 30
    let den := 16 * 100000000 * 2 ^ div
    2 ^ 30 + num / den + (if num % den ≠ 0 ∧ Config.routeUp kk ron div then 1 else 0)

/-- OSR of an entry (R149). -/
def State.entryOsr (s : State) (n e : Nat) : Nat := 16 * (s.fld (ADC_SEQ_OSRN n e) + 1)

/-- Segments per revolution. -/
def State.segments (s : State) (n : Nat) : Nat := s.fld (ADC_ASYNC_CFG_M n) + 1

/-- The distance from the angle `p` to the next segment boundary in the direction of motion (R165). -/
def State.toBoundary (s : State) (n : Nat) (p : BitVec 32) (reverse : Bool) : Nat :=
  let m := s.segments n
  (List.range m).foldl (fun d j =>
    let a : BitVec 32 := s.reg (ADC_ASYNC_ANG_at n) + BitVec.ofNat 32 (j * 2 ^ 32 / m)
    let x := (if reverse then p - a else a - p).toNat
    min d (if x = 0 then 2 ^ 32 else x)) (2 ^ 32)

/-- The length of an angle-synchronous conversion in units of 16 cycles before it is clamped, halves upwards (R165). -/
def State.asyncUnits (s : State) (n : Nat) : Nat :=
  let d := s.toBoundary n (s.P.setWidth 32) s.tb.dir
  let den := s.tb.speed.toNat * 625 * 2 ^ s.fld (modDiv (adcGroup n))
  if den = 0 then 4096 else (2 * (d * 2 ^ 17) + den) / (2 * den)

/-- Whether a measurement of converter `n` has begun (R168). -/
def Adc.measures (x : Adc) : Bool := x.cal.any (fun c => !c.waiting)

/-- A conversion of the current entry starts now with full settling (R138, R150, R165), with K_P + K_N and under the settings of a view.
A measurement goes by the filter of its entry (R168). -/
def State.startConvBy (s : State) (v : View) (kk n : Nat) : State :=
  let x := { s.adcOf n with begun := s.tb.now, short := false }
  let f := s.routeFactor v kk n x.cur
  if s.fb (ADC_CFG_ASYNC n) && s.tb.speedOk && !x.measures then
    let u := s.asyncUnits n
    let c := decide (u < 1 ∨ 2048 < u)
    let s1 := if c then s.addSat (ADC_ASYNC_STAT_CLAMPS n) 1 else s
    s1.setAdc n { x with factor := f, osrNow := 16 * max 1 (min u 2048), clamped := c }
  else s.setAdc n { x with factor := f, osrNow := 0, clamped := false }

/-- A conversion of the current entry starts now under the settings in force. -/
def State.startConv (s : State) (n : Nat) : State := s.startConvBy s.view (s.routeK n) n

/-- A run starts at this edge (R152). -/
def State.startRun (s : State) (n : Nat) : State :=
  (s.setAdc n { s.adcOf n with run := true, cur := 0, len := s.fld (ADC_CFG_LEN n) + 1, borrowed := none }).startConv n

/-- A continuous run of one entry goes on at this edge without settling anew (R150). -/
def State.goOn (s : State) (n : Nat) : State :=
  let s1 := s.startRun n
  s1.setAdc n { s1.adcOf n with begun := (s.adcOf n).begun, short := true }

/-- A trigger is dropped (R155). -/
def State.adcDrop (s : State) (n : Nat) : State := (s.addSat (ADC_CNT_TRIG_DROPPED n) 1).setFld (ADC_IRQ_STAT_DROP n) 1

/-- A trigger becomes visible at this edge (R152, R154 to R156). -/
def State.adcTrigger (s : State) (n : Nat) : State :=
  if s.fb (ADC_CFG_EN n) = false then s
  else
    let x := s.adcOf n
    if x.lastTrig = some s.tb.now then s.addSat (ADC_CNT_MISC_COINC n) 1
    else
      let s0 := s.setAdc n { x with lastTrig := some s.tb.now }
      if x.measures then s0.adcDrop n
      else if x.run = false then s0.startRun n
      else match s.fld (ADC_CFG_POLICY n) with
      | 0 => s0.adcDrop n
      | 1 =>
        if x.queued then (s0.addSat (ADC_CNT_TRIG_QOVF n) 1).setFld (ADC_IRQ_STAT_DROP n) 1
        else s0.setAdc n { s0.adcOf n with queued := true }
      | 2 => (s0.addSat (ADC_CNT_MISC_RESTARTS n) 1).startRun n
      | _ => s0.adcDrop n

/-- A software trigger (R154): it waits on its way while MOD_CLK stands. -/
def State.adcSwtrig (s : State) (n : Nat) : State :=
  if s.modRuns (adcGroup n) then s.adcTrigger n
  else s.setAdc n { s.adcOf n with swWait := (s.adcOf n).swWait + 1 }

/-- MOD_CLK of converter `n` runs again: the software triggers that have waited become visible (R154). DESIGN CHOICE (log 94): each
leaves the FIFO at an edge of its own, so that none counts as coincident. -/
def State.adcSwArrive (s : State) (n : Nat) : State :=
  let k := (s.adcOf n).swWait
  if k = 0 then s
  else (List.range k).foldl (fun s _ => (s.setAdc n { s.adcOf n with lastTrig := none }).adcTrigger n)
    (s.setAdc n { s.adcOf n with swWait := 0 })

/-- Whether a converter is idle (R156). -/
def State.adcIdle (s : State) (n : Nat) : Bool :=
  let x := s.adcOf n
  (!s.fb (ADC_CFG_EN n) || (!x.run && !x.queued)) && !s.fb (ADC_CFG_CONT n) && !s.fb (ADC_CFG_ASYNC n) && x.cal.isNone &&
    s.fb (BAY_STATUS_REF_OK (n / 2))

/-- Whether a converter can be borrowed: it is idle, and nobody has borrowed it. -/
def State.lends (s : State) (n : Nat) : Bool := s.adcIdle n && (s.adcOf n).borrowed.isNone

/-- Whether a converter is borrowed by a borrower: 16 BAY_RCAL_CMD, or a kind of the in-service test. -/
def State.borrowedFor (s : State) (n who : Nat) : Bool := (s.adcOf n).borrowed == some who

/-- A switch measurement that waits takes the idle time of a converter of its bay, ahead of the in-service tester (R140, R156). -/
def State.rcalBorrow (s : State) (k : Nat) : State :=
  if (tget none s.rcal k).isNone ∨ s.borrowedFor (2 * k) 16 = true ∨ s.borrowedFor (2 * k + 1) 16 = true then s
  else match [2 * k, 2 * k + 1].find? s.lends with
  | some n => s.setAdc n { s.adcOf n with borrowed := some 16 }
  | none => s

/-- A borrowed conversion is abandoned, since its converter is idle no longer (R156). -/
def State.endLoan (s : State) (n : Nat) : State := s.setAdc n { s.adcOf n with borrowed := none }

/-- REF_OK (R130): the reference buffer comes into regulation, or leaves it; it is off while REFEN = 0, but for that of a held bay, and
before the boundary of tick 0 (R141). The converters note when it was last 0 (R157), and none is idle without it (R156). -/
def State.refOk (s : State) (k : Nat) (ok : Bool) : State :=
  let on := ok && (s.fb (BAY_CTRL_REFEN k) || s.baySw.refs.testBit k) && !s.baySw.before.testBit k
  let s1 := s.setB (BAY_STATUS_REF_OK k) on
  let low (t : BitVec 64) (s : State) (n : Nat) : State := s.setAdc n { s.adcOf n with lowAt := some t }
  if on then
    (if s.fb (BAY_STATUS_REF_OK k) then s1 else [2 * k, 2 * k + 1].foldl (low (s.tb.now - 1)) s1).rcalBorrow k
  else [2 * k, 2 * k + 1].foldl (fun s n => (low s.tb.now s n).endLoan n) s1

/-! ## Switch measurements (R140) -/

/-- RCAL_GO (R140): a write of BAY_RCAL_CMD with GO. DESIGN CHOICE (log 92): a command refused at once does not set RCALDONE, which ends
a measurement. -/
def State.rcalGo (s : State) (k : Nat) (v : Word) : State :=
  let s1 := (s.setFld (BAY_RCAL_CMD_TRACK k) (bits v.toNat 12 8)).setFld (BAY_RCAL_CMD_TERM k) (bits v.toNat 5 0)
  if v.toNat.testBit 31 = false ∨ s.fb (BAY_RCAL_CMD_BUSY k) = true then s1
  else
    let term := bits v.toNat 5 0
    let track := bits v.toNat 12 8
    let s2 := s1.setReg (BAY_RCAL_RESULT_at k) 0
    if s2.rcalRefused k term track then (s2.setFld (BAY_RCAL_RESULT_VALID k) 1).setFld (BAY_RCAL_RESULT_REFUSED k) 1
    else ({ s2.setFld (BAY_RCAL_CMD_BUSY k) 1 with rcal := tset none s2.rcal k (some ⟨term, track⟩) } : State).rcalBorrow k

/-- A measurement ends (R140): with a result in 1/16 Ω, or refused by an apply. -/
def State.rcalEnd (s : State) (k : Nat) (ron : Option Nat) : State :=
  let s0 := [2 * k, 2 * k + 1].foldl (fun s n => if s.borrowedFor n 16 then s.setAdc n { s.adcOf n with borrowed := none } else s) s
  let s1 := (({ s0 with rcal := tset none s0.rcal k none }.setFld (BAY_RCAL_CMD_BUSY k) 0).setFld (BAY_RCAL_RESULT_VALID k) 1).setFld
    (BAY_IRQ_STAT_RCALDONE k) 1
  match ron with
  | some r => s1.setFld (BAY_RCAL_RESULT_RON k) (if r > 65534 then 0xFFFF else r)
  | none => s1.setFld (BAY_RCAL_RESULT_REFUSED k) 1

/-- RCAL_DONE (R140): the result, once a converter of the bay has had idle time for it (R156); otherwise the bay retries. -/
def State.rcalDone (s : State) (k ron : Nat) : State :=
  if (tget none s.rcal k).isNone ∨ [2 * k, 2 * k + 1].all (fun n => !(s.borrowedFor n 16 || s.lends n)) then s
  else s.rcalEnd k (some ron)

/-- An apply meets the tester's measurement of a switch: what closes on its track or terminal ends it (R140, R366). -/
def State.istMeets (s : State) (k : Nat) : State :=
  let b := tget ⟨0, none⟩ s.ist.bay k
  match b.run with
  | some r =>
    if r.switch.any (fun x => s.rcalMet k x.1 x.2) then
      { s with ist := { s.ist with bay := tset ⟨0, none⟩ s.ist.bay k { b with run := some { r with void := true } } } }
    else s
  | none => s

/-- An apply meets a measurement: one that closes a switch on its track or terminal aborts it (R140). -/
def State.rcalApply (s0 : State) (k : Nat) : State :=
  let s := s0.istMeets k
  match tget none s.rcal k with
  | some r => if s.rcalMet k r.term r.track then s.rcalEnd k none else s
  | none => s

/-! ## Results (R147, R157 to R162, R166) -/

/-- The limit of D (R147). -/
def dLimit : Int := 1181116006

/-- rnd of R162 with saturation to 32 bits. -/
def rnd32 (x : Int) (k : Nat) : Int := satSigned 32 ((x + 2 ^ (k - 1)) / 2 ^ k)

/-- The length-weighted mean of the ring (R166). DESIGN CHOICE (log 93): halves go upwards, as in R162. -/
def ringMean (l : List (Int × Nat × Bool)) : Int :=
  let num : Int := l.foldl (fun a x => a + x.1 * (x.2.1 : Int)) 0
  let den : Int := l.foldl (fun a x => a + (x.2.1 : Int)) 0
  (2 * num + den) / (2 * den)

/-- The conversion of angle-synchronous operation ends (R166): the value before calibration and SYNC. -/
def State.asyncEnd (s : State) (n : Nat) (d1 : Int) : State × Int × Bool :=
  let x := s.adcOf n
  if x.osrNow = 0 ∨ s.tb.speedOk = false then (s, d1, false)
  else if x.syncFirst = false then (s.setAdc n { x with syncFirst := true }, d1, false)
  else
    let ring := ((d1, x.osrNow, x.clamped) :: x.ring).take (s.segments n)
    let s1 := s.setAdc n { x with ring := ring }
    if ring.length < s.segments n then (s1, d1, false) else (s1, ringMean ring, !ring.any (fun r => r.2.2))

/-- What follows the E of an entry (R150, R152, R155, R165, R168): entry 0 again with ASYNC, the next entry, a waiting measurement, a
queued or a continued run, or idle. -/
def State.afterEnd (s : State) (n : Nat) : State :=
  let x := s.adcOf n
  if s.fb (ADC_CFG_ASYNC n) && x.cal.isNone then (s.setAdc n { x with cur := 0, len := 1 }).startConv n
  else if x.cur + 1 < x.len then (s.setAdc n { x with cur := x.cur + 1 }).startConv n
  else match x.cal with
  | some c =>
    let c' : CalMeas := { c with waiting := false, cont := s.fb (ADC_CFG_CONT n) }
    (s.setAdc n { x with run := false, cur := c.entry, cal := some c' }).startConv n
  | none =>
    if x.queued then (s.setAdc n { x with queued := false }).startRun n
    else if s.fb (ADC_CFG_CONT n) && s.fb (ADC_CFG_EN n) then
      (if x.len = 1 ∧ s.fld (ADC_CFG_LEN n) = 0 then s.goOn n else s.startRun n)
    else (s.setAdc n { x with run := false }).rcalBorrow (n / 2)

/-! ## Calibration (R168 to R172) -/

/-- The address of copy `k` of calibration set `c` of converter `n` (R171, R430). -/
def calAddr (n c k : Nat) : Nat := 0x51000000 + 16 * (16 * n + 2 * c + k)

/-- A measurement or command of calibration ends with a code (R169, R170). -/
def State.calCode (s : State) (n op code : Nat) : State :=
  let s1 := (s.setFld (ADC_CAL_STAT_CODE n) code).setFld (ADC_CAL_CMD_BUSY n) 0
  let s2 := s1.setAdc n { s1.adcOf n with cal := none }
  if code = 0 then s2
  else if op = 1 then s2.setFld (ADC_CAL_STAT_ZVALID n) 0
  else if op = 2 then s2.setFld (ADC_IRQ_STAT_CALREJ n) 1 else s2

/-- The exact quotient of integers, halves away from zero (R170). -/
def roundQuot (a b : Int) : Int :=
  let q : Int := ((2 * a.natAbs + b.natAbs) / (2 * b.natAbs) : Nat)
  if (a < 0 ∧ 0 < b) ∨ (0 < a ∧ b < 0) then -q else q

/-- A calibration pair is written into the active registers (R172); an apply on its way finds it there, and it is no change of
the apply (R163). -/
def State.writePair (s : State) (n c : Nat) (ofs gain : Word) : State :=
  let upd (t : Table Word) (a : Nat) (w : Word) : Table Word := if t = [] then t else tset (rstWord a) t a w
  { (s.setReg (ADC_CALOFS_at n c) ofs).setReg (ADC_CALGAIN_at n c) gain with
    strobes := s.strobes.map (fun x =>
      { x with before := upd (upd x.before (ADC_CALOFS_at n c) ofs) (ADC_CALGAIN_at n c) gain }) }

/-- A FULL writes its pair, into the active registers and into the written staged copies of the open session, of which those of an
apply on its way are some (R170, R239). -/
def State.putPair (s : State) (n c : Nat) (ofs gain : Word) : State :=
  let upd (t : Table (Option Word)) (a : Nat) (w : Word) : Table (Option Word) :=
    if (tget none t a).isSome then tset none t a (some w) else t
  let both (t : Table (Option Word)) : Table (Option Word) := upd (upd t (ADC_CALOFS_at n c) ofs) (ADC_CALGAIN_at n c) gain
  let s1 := s.writePair n c ofs gain
  { s1 with
    attar := { s1.attar with staged := both s1.attar.staged }
    strobes := s1.strobes.map (fun x => if x.own && x.doms.contains .sys then { x with regs := both x.regs } else x) }

/-- A measurement is complete (R168 to R170). -/
def State.calFinish (s : State) (n : Nat) (c : CalMeas) : State :=
  let cnt := 2 ^ c.avg
  let sum := c.vals.foldl (· + ·) 0
  let mean : Int := (2 * sum + cnt) / (2 * cnt)
  let hi := c.vals.foldl max (c.vals.headD 0)
  let lo := c.vals.foldl min (c.vals.headD 0)
  let s0 := s.setReg (ADC_CAL_SPREAD_at n) (BitVec.ofInt 32 (hi - lo))
  let ze := s.fld (ADC_CAL_LIM_ZEXP n)
  let zexp := if 20 ≤ ze ∧ ze ≤ 30 then ze else 30
  if c.bad then s0.calCode n c.op 5
  else if c.avg ≥ 1 ∧ hi - lo > s.fld (ADC_CAL_LIM_NOISE n) * 256 then s0.calCode n c.op 6
  else if c.op = 1 then
    if mean.natAbs > 2 ^ zexp then s0.calCode n 1 7
    else
      (((((s0.setReg (ADC_CAL_DZERO_at n) (BitVec.ofInt 32 mean)).setFld (ADC_CAL_STAT_ZVALID n) 1).setFld (ADC_CAL_STAT_ZENTRY n)
        c.entry).setFld (ADC_CAL_STAT_ZSET n) c.set_).setFld (ADC_IRQ_STAT_CALDONE n) 1).calCode n 1 0
  else
    let dzero := (s.reg (ADC_CAL_DZERO_at n)).toInt
    let fs := (s.reg (ADC_CAL_FSVAL_at n)).toInt
    let gain := roundQuot (fs * 2 ^ 30) (mean - dzero)
    if (mean - dzero).natAbs < 2 ^ 20 then s0.calCode n 2 8
    else if fs = 0 ∨ gain < -(2 ^ 31) ∨ gain > 2 ^ 31 - 1 then s0.calCode n 2 9
    else
      ((s0.setReg (ADC_CAL_DFULL_at n) (BitVec.ofInt 32 mean)).putPair n c.set_ (BitVec.ofInt 32 dzero)
        (BitVec.ofInt 32 gain)).calCode n 2 0

/-- After a measurement the converter takes up its queued run (R155). DESIGN CHOICE (log 86): a continuous run at whose end the
measurement began goes on after it, while CONT is still 1; R152 does not say when it does. -/
def State.afterCal (s : State) (n : Nat) (cont : Bool) : State :=
  let x := s.adcOf n
  if x.cal.isSome ∨ x.run = true then s
  else if x.queued then (s.setAdc n { x with queued := false }).startRun n
  else if ((cont && s.fb (ADC_CFG_CONT n)) || s.fb (ADC_CFG_ASYNC n)) && s.fb (ADC_CFG_EN n) then s.startRun n
  else s.rcalBorrow (n / 2)

/-- The TB_CLK cycles of the window of the conversion in progress, N·OSR cycles of MOD_CLK (R150, R157). -/
def State.windowCycles (s : State) (n e : Nat) : Nat :=
  s.fld (ADC_SEQ_ORDER n e) * s.entryOsr n e * 625 * 2 ^ s.fld (modDiv (adcGroup n)) / 64

/-- Whether REF_OK was 0 at an edge of the conversion that ends now (R157): one that goes on without settling looks back over its
whole window. -/
def State.refDip (s : State) (n : Nat) : Bool :=
  let x := s.adcOf n
  let back := BitVec.ofNat 64 (min (s.windowCycles n x.cur) (s.tb.now - x.begun).toNat)
  let from_ := if x.short then s.tb.now - back else x.begun
  !s.fb (BAY_STATUS_REF_OK (n / 2)) || x.lowAt.any (fun t => decide (0 ≤ (t - from_).toInt))

/-- CONVERSION_END (R150, R147, R162, R168): the conversion in progress reaches its end edge E with the raw code D, and the next entry
or run starts. REFBAD tells whether REF_OK was 0 at any edge of the conversion (R157), as the state shows it or as `refbad` brings
it. -/
def State.convEnd (s : State) (n : Nat) (d : Word) (ovr refbad : Bool) : State :=
  if s.modRuns (adcGroup n) = false then s else
  let x := s.adcOf n
  let beyond := decide (d.toInt.natAbs > 1181116006)
  let dl := max (-dLimit) (min d.toInt dLimit)
  let d1 := rnd32 (dl * x.factor) 30
  let ov := ovr || beyond
  let rb := refbad || s.refDip n
  match x.cal with
  | some c =>
    if c.waiting = false then
      let c1 := { c with vals := c.vals ++ [d1], bad := c.bad || ov || rb }
      if c1.vals.length < 2 ^ c.avg then (s.setAdc n { x with cal := some c1 }).startConv n
      else (s.calFinish n c1).afterCal n c.cont
    else if x.run then
      let (s1, v, sync) := if s.fb (ADC_CFG_ASYNC n) then s.asyncEnd n d1 else (s, d1, false)
      let p : AdcPending := ⟨x.cur, v, s.stamp + BitVec.ofInt 32 s.jitter, ov, rb, sync⟩
      (s1.fresh.setAdc n { s1.adcOf n with toWrite := x.toWrite ++ [p] }).afterEnd n
    else s
  | none =>
    if x.run = false then s
    else
      let (s1, v, sync) := if s.fb (ADC_CFG_ASYNC n) then s.asyncEnd n d1 else (s, d1, false)
      let p : AdcPending := ⟨x.cur, v, s.stamp + BitVec.ofInt 32 s.jitter, ov, rb, sync⟩
      (s1.fresh.setAdc n { s1.adcOf n with toWrite := x.toWrite ++ [p] }).afterEnd n

/-- VALUE from d1 under the calibration pair in force (R162). -/
def State.calibrated (s : State) (n e : Nat) (d1 : Int) : Word :=
  if s.fb (ADC_SEQ_NOCAL n e) then BitVec.ofInt 32 d1
  else
    let c := s.fld (ADC_SEQ_CALSET n e)
    BitVec.ofInt 32 (rnd32 ((d1 - (s.reg (ADC_CALOFS_at n c)).toInt) * (s.reg (ADC_CALGAIN_at n c)).toInt) 30)

/-- TAG after one more result (R159). -/
def nextTag (t : Nat) : Nat := if t ≥ 255 then 1 else t + 1

/-- RESULT_WRITE (R157, R159, R162): the record of the entry is replaced as one unit, and event 0x060 + n fires. -/
def State.resultWrite (s : State) (n : Nat) : State :=
  if s.modRuns (adcGroup n) = false then s else
  let x := s.adcOf n
  match x.toWrite with
  | [] => s
  | p :: r =>
    let old := tget recReset x.recs p.entry
    let rec' : AdcRec := ⟨s.calibrated n p.entry p.d1, p.time, nextTag old.tag, p.ovr, p.refbad, p.sync, s.fld (ADC_SEQ_CALSET n p.entry),
      s.fb (ADC_SEQ_NOCAL n p.entry)⟩
    let s1 := s.setAdc n { x with toWrite := r, recs := tset recReset x.recs p.entry rec', toCopy := x.toCopy ++ [(p.entry, rec')] }
    let s2 := if p.ovr then s1.setFld (ADC_IRQ_STAT_OVR n) 1 else s1
    let s3 := if p.refbad then s2.setFld (ADC_IRQ_STAT_REFBAD n) 1 else s2
    s3.fire (0x60 + n)

/-- RESULT_COPY (R161): the oldest record on its way replaces the sector's copy, while the sector's clock runs. -/
def State.resultCopy (s : State) (n : Nat) : State :=
  let x := s.adcOf n
  match x.toCopy with
  | (e, r) :: rest => if s.sectRuns (n / 2) then s.setAdc n { x with toCopy := rest, copies := tset recReset x.copies e r } else s
  | [] => s

/-- ADC_RES_LO_READ (R160): VALUE, and a snapshot for the requester. -/
def State.resLoRead (s : State) (req n e : Nat) : State × Word :=
  let x := s.adcOf n
  let r := tget recReset x.recs e
  (s.setAdc n { x with snaps := tset none x.snaps req (some (e, r)) }, r.value)

/-! ### Commands of calibration -/

/-- The RW fields of ADC_CAL_CMD. -/
def State.calFields (s : State) (n : Nat) (v : Word) : State :=
  ((s.setFld (ADC_CAL_CMD_AVG n) (bits v.toNat 18 16)).setFld (ADC_CAL_CMD_SET n) (bits v.toNat 14 12)).setFld (ADC_CAL_CMD_ENTRY n)
    (bits v.toNat 11 8)

/-- A measurement is commanded: op 1 ZERO, 2 FULL (R168, R169). -/
def State.calStart (s : State) (n op : Nat) (v : Word) : State :=
  if s.fb (ADC_CAL_CMD_BUSY n) then s
  else
    let e := bits v.toNat 11 8
    let c := bits v.toNat 14 12
    let s1 := s.calFields n v
    let s2 := if op = 1 then s1.setFld (ADC_CAL_STAT_ZVALID n) 0 else s1
    if e ≥ s.fld (ADC_CFG_LEN n) + 1 then s2.calCode n op 1
    else if s.fb (ADC_CFG_EN n) = false ∨ s.fb (ADC_CFG_ASYNC n) = true then s2.calCode n op 2
    else if op = 2 ∧ ¬ (s.fb (ADC_CAL_STAT_ZVALID n) = true ∧ s.fld (ADC_CAL_STAT_ZENTRY n) = e ∧ s.fld (ADC_CAL_STAT_ZSET n) = c) then
      s2.calCode n 2 3
    else
      let x := s2.adcOf n
      let m : CalMeas := ⟨op, e, c, bits v.toNat 18 16, [], false, x.run, false⟩
      let s3 := (s2.setFld (ADC_CAL_CMD_BUSY n) 1).setAdc n { x with cal := some m, borrowed := none }
      if x.run then s3 else (s3.setAdc n { s3.adcOf n with cur := e }).startConv n

/-- A measurement in progress ends with ABORTED (R163, R164, R169). -/
def State.calAbort (s : State) (n : Nat) : State :=
  match (s.adcOf n).cal with
  | some c => (s.calCode n c.op 4).afterCal n c.cont
  | none => s

/-- Whether a copy of a calibration set is valid: its CHECK and its ID; answers COUNT (R171, R172). -/
def State.calCopy (s : State) (n c k : Nat) : Option Nat :=
  let a := calAddr n c k
  let ws := s.retainWords a 4
  let id := (ws.getD 2 0).toNat
  if ws.getD 3 0 = crc32 ((ws.take 3).flatMap wordBytes) ∧ bits id 15 8 = n ∧ bits id 7 3 = 0 ∧ bits id 2 0 = c then some (bits id 31 16)
  else none

/-- The newer valid copy (R172). DESIGN CHOICE (log 93): copy 1 where the COUNTs are equal or 2^15 apart. -/
def State.newerCopy (s : State) (n c : Nat) : Option Nat :=
  match s.calCopy n c 0, s.calCopy n c 1 with
  | none, none => none
  | some _, none => some 0
  | none, some _ => some 1
  | some a, some b => if 0 < (a + 2 ^ 16 - b) % 2 ^ 16 ∧ (a + 2 ^ 16 - b) % 2 ^ 16 < 2 ^ 15 then some 0 else some 1

/-- SAVE writes the copy that does not hold the newer valid record (R171, R172). DESIGN CHOICE (log 93): copy 0 where neither is
valid. -/
def State.calSave (s : State) (n c : Nat) : State :=
  let (k, cnt) := match s.newerCopy n c with
    | none => (0, 1)
    | some j => (1 - j, ((s.calCopy n c j).getD 0 + 1) % 2 ^ 16)
  let ws := [s.reg (ADC_CALOFS_at n c), s.reg (ADC_CALGAIN_at n c), BitVec.ofNat 32 (cnt * 2 ^ 16 + n * 2 ^ 8 + c)]
  s.retainPut (calAddr n c k) (ws ++ [crc32 (ws.flatMap wordBytes)])

/-- The pair of the newer valid copy (R172). -/
def State.calSet (s : State) (n c : Nat) : Option (Word × Word) :=
  (s.newerCopy n c).map (fun k => ((s.retainWords (calAddr n c k) 4).getD 0 0, (s.retainWords (calAddr n c k) 4).getD 1 0))

/-- RESTORE loads the newer valid copy (R172); whether there was one. -/
def State.calLoad (s : State) (n c : Nat) : State × Bool :=
  match s.calSet n c with
  | some (o, g) => (s.writePair n c o g, true)
  | none => (s.setFld (ADC_IRQ_STAT_RESTERR n) 1, false)

/-- SAVE and RESTORE: op 4 or 5 of ADC_CAL_CMD (R171, R172). -/
def State.calStore (s : State) (n op : Nat) (v : Word) : State :=
  if s.fb (ADC_CAL_CMD_BUSY n) then s
  else
    let c := bits v.toNat 14 12
    let s1 := s.calFields n v
    if op = 4 then (s1.calSave n c).setFld (ADC_CAL_STAT_CODE n) 0
    else
      let (s2, ok) := s1.calLoad n c
      s2.setFld (ADC_CAL_STAT_CODE n) (if ok then 0 else 0x0A)

/-- A write of ADC_CAL_CMD (R169, R173). -/
def State.calCmd (s : State) (n : Nat) (v : Word) : State :=
  match bits v.toNat 2 0 with
  | 0 => if s.fb (ADC_CAL_CMD_BUSY n) then s else s.calFields n v
  | 1 => s.calStart n 1 v
  | 2 => s.calStart n 2 v
  | 3 => if s.fb (ADC_CAL_CMD_BUSY n) then s.calAbort n else s.calFields n v
  | 4 => s.calStore n 4 v
  | 5 => s.calStore n 5 v
  | _ => if s.fb (ADC_CAL_CMD_BUSY n) then s else (s.calFields n v).setFld (ADC_CAL_STAT_CODE n) 1

/-! ## Applies and conditions of the device (R163, R164) -/

/-- A queued trigger is discarded (R155, R163). -/
def State.dropQueued (s : State) (n : Nat) : State :=
  let x := s.adcOf n
  if x.queued then (s.setAdc n { x with queued := false }).adcDrop n else s

/-- Whether an apply changes something of converter `n` that R163 lists, beside the frequency and the nets: the entry in conversion,
calibration settings of an entry or a pair, the sequence and its triggers, or EN from 1 to 0. -/
def adcListed (old s : State) (n : Nat) (converting : Bool) : Bool :=
  let differs (a : Nat) (m : Word) : Bool := (old.reg a &&& m) != (s.reg a &&& m)
  let part (f : RF) : Bool := old.fld f != s.fld f
  (converting && (part (ADC_SEQ_ORDER n (s.adcOf n).cur) || part (ADC_SEQ_OSRN n (s.adcOf n).cur) ||
    part (ADC_SEQ_INSEL n (s.adcOf n).cur))) ||
  (List.range 16).any (fun e => part (ADC_SEQ_CALSET n e) || part (ADC_SEQ_NOCAL n e)) ||
  (List.range 8).any (fun c => differs (ADC_CALOFS_at n c) (-1) || differs (ADC_CALGAIN_at n c) (-1)) ||
  part (ADC_CFG_LEN n) || part (ADC_CFG_CONT n) || part (ADC_TRIG_SRC n) || part (ADC_TRIG_TPERIOD n) || part (ADC_TRIG_TPHASE n) ||
  (old.fb (ADC_CFG_EN n) && !s.fb (ADC_CFG_EN n))

/-- Whether the net or the K of the converter's terminals differs between the settings before an apply and those after it (R144,
R163), whose registers may stand at `addrs`. -/
def State.netMoved (old : State) (v : View) (addrs : List Nat) (n : Nat) : Bool :=
  let es0 := switches old.view (old.regs.map (·.1))
  let es1 := switches v addrs
  [48 + 2 * (n % 2), 49 + 2 * (n % 2)].any (fun i => terminalMoved old.view v es0 es1 (termId (n / 2) i))

/-- The boundary of an apply on MOD_CLK[g] meets converter `n` (R163 to R167): `old` is the state before it, `moved` says whether
the nets of its terminals change, and `v` and `kk` give the settings after the apply and its K (R138). DESIGN CHOICE (log 93): a
measurement that still waits for the end of a run ends with ABORTED too, as one in progress does (R169). -/
def State.adcApply (old s : State) (moved : Bool) (v : View) (kk n : Nat) : State :=
  let freq := old.fld (modDiv (adcGroup n)) ≠ s.fld (modDiv (adcGroup n))
  let x := s.adcOf n
  let e := x.cur
  let converting := x.run || x.measures
  let net := converting && moved && s.fld (ADC_SEQ_INSEL n e) == 0
  let redo := decide freq || net || old.fld (ADC_SEQ_ORDER n e) != s.fld (ADC_SEQ_ORDER n e) ||
    old.fld (ADC_SEQ_OSRN n e) != s.fld (ADC_SEQ_OSRN n e) || old.fld (ADC_SEQ_INSEL n e) != s.fld (ADC_SEQ_INSEL n e)
  let s1 := if freq ∨ net = true ∨ adcListed old s n converting = true then
      (match x.cal with | some c => s.calCode n c.op 4 | none => s).setFld (ADC_CAL_STAT_ZVALID n) 0
    else s
  let s2 := if old.fld (ADC_CFG_POLICY n) = 1 ∧ s.fld (ADC_CFG_POLICY n) ≠ 1 then s1.dropQueued n else s1
  let s3 := if freq ∨ s.fb (ADC_CFG_ASYNC n) = false then s2.setAdc n { s2.adcOf n with ring := [], syncFirst := false } else s2
  if s.fb (ADC_CFG_EN n) = false then
    (s3.dropQueued n).setAdc n { (s3.dropQueued n).adcOf n with run := false, ring := [], syncFirst := false }
  else
    let s4 := if s.fb (ADC_CFG_CONT n) || s.fb (ADC_CFG_ASYNC n) then s3.endLoan n else s3
    if s.fb (ADC_CFG_ASYNC n) = true ∧ x.run = false ∧ (s4.adcOf n).cal.isNone = true then s4.startRun n
    else if x.run = true ∧ redo = true then (s4.addSat (ADC_CNT_MISC_CFGRESTART n) 1).startConvBy v kk n
    else if x.cal.isSome then s4.afterCal n (x.cal.any (·.cont))
    else s4

/-- A region that holds the bay stops the converter (R164). -/
def State.adcHold (s : State) (n : Nat) : State :=
  let s1 := match (s.adcOf n).cal with
    | some c => s.calCode n c.op 4
    | none => s
  (s1.setFld (ADC_CAL_STAT_ZVALID n) 0).setAdc n
    { s1.adcOf n with
      run := false, queued := false, cal := none, borrowed := none, ring := [], syncFirst := false, toWrite := [], swWait := 0 }

/-- The records are cleared (R159). -/
def State.adcClear (s : State) (n : Nat) : State :=
  s.setAdc n { s.adcOf n with recs := [], copies := [], toWrite := [], toCopy := [] }

/-- RCAL_GO. -/
def execRcalGo (k : Fin 16) (v : Word) (s : State) : Host.Outcome State Fault Refusal :=
  done s (s.bayGate k.val (BAY_RCAL_CMD_at k.val) (fun s => s.rcalGo k.val v))
/-- RCAL_DONE. -/
def execRcalDone (k : Fin 16) (ron : Nat) (s : State) : Host.Outcome State Fault Refusal := done s (s.rcalDone k.val ron)
/-- REF_OK. -/
def execRefOk (k : Fin 16) (ok : Bool) (s : State) : Host.Outcome State Fault Refusal := done s (s.refOk k.val ok)
/-- ADC_SWTRIG. -/
def execAdcSwtrig (n : Fin 32) (s : State) : Host.Outcome State Fault Refusal :=
  done s (s.bayGate (n.val / 2) (ADC_SWTRIG_at n.val) (fun s => s.adcSwtrig n.val))
/-- CONVERSION_END. -/
def execConversionEnd (n : Fin 32) (d : Word) (ovr refbad : Bool) (s : State) : Host.Outcome State Fault Refusal :=
  done s (s.convEnd n.val d ovr refbad)
/-- RESULT_WRITE. -/
def execResultWrite (n : Fin 32) (s : State) : Host.Outcome State Fault Refusal := done s (s.resultWrite n.val)
/-- RESULT_COPY. -/
def execResultCopy (n : Fin 32) (s : State) : Host.Outcome State Fault Refusal := done s (s.resultCopy n.val)
/-- ADC_RES_LO_READ. -/
def execAdcResLoRead (req : Fin 405) (n : Fin 32) (e : Fin 16) (s : State) : Host.Outcome State Fault Refusal :=
  done s ((s.resLoRead req.val n.val e.val).1.emit
    (.readData req.val (ADC_RES_LO_at n.val e.val) (s.resLoRead req.val n.val e.val).2))
/-- CAL_ZERO. -/
def execCalZero (n : Fin 32) (v : Word) (s : State) : Host.Outcome State Fault Refusal :=
  done s (s.bayGate (n.val / 2) (ADC_CAL_CMD_at n.val) (fun s => s.calStart n.val 1 v))
/-- CAL_FULL. -/
def execCalFull (n : Fin 32) (v : Word) (s : State) : Host.Outcome State Fault Refusal :=
  done s (s.bayGate (n.val / 2) (ADC_CAL_CMD_at n.val) (fun s => s.calStart n.val 2 v))
/-- CAL_ABORT. -/
def execCalAbort (n : Fin 32) (s : State) : Host.Outcome State Fault Refusal :=
  done s (s.bayGate (n.val / 2) (ADC_CAL_CMD_at n.val) (fun s => s.calAbort n.val))
/-- CAL_SAVE. -/
def execCalSave (n : Fin 32) (v : Word) (s : State) : Host.Outcome State Fault Refusal :=
  done s (s.bayGate (n.val / 2) (ADC_CAL_CMD_at n.val) (fun s => s.calStore n.val 4 v))
/-- CAL_RESTORE. -/
def execCalRestore (n : Fin 32) (v : Word) (s : State) : Host.Outcome State Fault Refusal :=
  done s (s.bayGate (n.val / 2) (ADC_CAL_CMD_at n.val) (fun s => s.calStore n.val 5 v))

end Sys2Proof.Machine
end

