-- ==== Sys2Proof/Machine/Crypto.lean ====
section
/-! DEFINITION. The functions that R330, R331 and R344 name by their standards: SHA-256 (FIPS 180-4), ECDSA on P-256 (FIPS 186-4) and
AES-256-GCM (FIPS 197, SP 800-38D). Words and field elements are numbers, bytes are bytes. -/

namespace Sys2Proof.Machine

/-! ## Bytes -/

/-- The number that bytes spell, first byte most significant. -/
def bigEndian (bs : List Byte) : Nat := bs.foldl (fun n b => 256 * n + b.toNat) 0

/-- The low `n` bytes of a number, first byte most significant. -/
def bytesOf : Nat → Nat → List Byte
  | 0, _ => []
  | n + 1, v => bytesOf n (v / 256) ++ [BitVec.ofNat 8 v]

/-! ## SHA-256 -/

/-- The constants K of SHA-256. -/
def shaK : List Nat :=
  [0x428a2f98, 0x71374491, 0xb5c0fbcf, 0xe9b5dba5, 0x3956c25b, 0x59f111f1, 0x923f82a4, 0xab1c5ed5,
   0xd807aa98, 0x12835b01, 0x243185be, 0x550c7dc3, 0x72be5d74, 0x80deb1fe, 0x9bdc06a7, 0xc19bf174,
   0xe49b69c1, 0xefbe4786, 0x0fc19dc6, 0x240ca1cc, 0x2de92c6f, 0x4a7484aa, 0x5cb0a9dc, 0x76f988da,
   0x983e5152, 0xa831c66d, 0xb00327c8, 0xbf597fc7, 0xc6e00bf3, 0xd5a79147, 0x06ca6351, 0x14292967] ++
  [0x27b70a85, 0x2e1b2138, 0x4d2c6dfc, 0x53380d13, 0x650a7354, 0x766a0abb, 0x81c2c92e, 0x92722c85,
   0xa2bfe8a1, 0xa81a664b, 0xc24b8b70, 0xc76c51a3, 0xd192e819, 0xd6990624, 0xf40e3585, 0x106aa070,
   0x19a4c116, 0x1e376c08, 0x2748774c, 0x34b0bcb5, 0x391c0cb3, 0x4ed8aa4a, 0x5b9cca4f, 0x682e6ff3,
   0x748f82ee, 0x78a5636f, 0x84c87814, 0x8cc70208, 0x90befffa, 0xa4506ceb, 0xbef9a3f7, 0xc67178f2]

/-- A 32-bit word rotated right. -/
def rotR (x n : Nat) : Nat := x >>> n ||| x <<< (32 - n) % 2 ^ 32

/-- The eight working words of SHA-256. -/
structure ShaState where
  a : Nat
  b : Nat
  c : Nat
  d : Nat
  e : Nat
  f : Nat
  g : Nat
  h : Nat
deriving DecidableEq, Repr

/-- The initial hash value. -/
def shaInit : ShaState :=
  ⟨0x6a09e667, 0xbb67ae85, 0x3c6ef372, 0xa54ff53a, 0x510e527f, 0x9b05688c, 0x1f83d9ab, 0x5be0cd19⟩

/-- One round with its constant and its word of the message schedule. -/
def ShaState.round (s : ShaState) (k w : Nat) : ShaState :=
  let s1 := rotR s.e 6 ^^^ rotR s.e 11 ^^^ rotR s.e 25
  let ch := (s.e &&& s.f) ^^^ ((2 ^ 32 - 1 - s.e) &&& s.g)
  let t1 := s.h + s1 + ch + k + w
  let s0 := rotR s.a 2 ^^^ rotR s.a 13 ^^^ rotR s.a 22
  let maj := (s.a &&& s.b) ^^^ (s.a &&& s.c) ^^^ (s.b &&& s.c)
  ⟨(t1 + s0 + maj) % 2 ^ 32, s.a, s.b, s.c, (s.d + t1) % 2 ^ 32, s.e, s.f, s.g⟩

/-- The rounds over the constants; `ws` are the 16 words of the schedule that come next. -/
def ShaState.rounds (s : ShaState) : List Nat → List Nat → ShaState
  | [], _ => s
  | _, [] => s
  | k :: ks, w :: ws =>
    let x := ws.getD 0 0
    let y := ws.getD 13 0
    let n := w + (rotR x 7 ^^^ rotR x 18 ^^^ x >>> 3) + ws.getD 8 0 + (rotR y 17 ^^^ rotR y 19 ^^^ y >>> 10)
    (s.round k w).rounds ks (ws ++ [n % 2 ^ 32])

/-- One block of 64 bytes. -/
def ShaState.block (s : ShaState) (bs : List Byte) : ShaState :=
  let t := s.rounds shaK ((List.range 16).map (fun i => bigEndian ((bs.drop (4 * i)).take 4)))
  ⟨(s.a + t.a) % 2 ^ 32, (s.b + t.b) % 2 ^ 32, (s.c + t.c) % 2 ^ 32, (s.d + t.d) % 2 ^ 32, (s.e + t.e) % 2 ^ 32,
    (s.f + t.f) % 2 ^ 32, (s.g + t.g) % 2 ^ 32, (s.h + t.h) % 2 ^ 32⟩

/-- `n` blocks of a message. -/
def ShaState.blocks (s : ShaState) : Nat → List Byte → ShaState
  | 0, _ => s
  | n + 1, bs => (s.block (bs.take 64)).blocks n (bs.drop 64)

/-- SHA-256 of a message, as 32 bytes. -/
def sha256 (bs : List Byte) : List Byte :=
  let n := bs.length
  let p := bs ++ [0x80] ++ List.replicate ((119 - n % 64) % 64) 0 ++ bytesOf 8 (8 * n)
  let s := shaInit.blocks (p.length / 64) p
  [s.a, s.b, s.c, s.d, s.e, s.f, s.g, s.h].flatMap (bytesOf 4)

/-! ## ECDSA on P-256 -/

/-- The field prime of P-256. -/
def p256P : Nat := 2 ^ 256 - 2 ^ 224 + 2 ^ 192 + 2 ^ 96 - 1
/-- The order of the base point. -/
def p256N : Nat := 0xFFFFFFFF00000000FFFFFFFFFFFFFFFFBCE6FAADA7179E84F3B9CAC2FC632551
/-- The coefficient b of the curve; the coefficient a is −3. -/
def p256B : Nat := 0x5AC635D8AA3A93E7B3EBBD55769886BC651D06B0CC53B0F63BCE3C3E27D2604B
/-- The base point. -/
def p256G : Nat × Nat :=
  (0x6B17D1F2E12C4247F8BCE6E563A440F277037D812DEB33A0F4A13945D898C296,
   0x4FE342E2FE1A7F9B8EE7EB4A7C0F9E162BCE33576B315ECECBB6406837BF51F5)

/-- A difference in the field. -/
def fsub (a b : Nat) : Nat := (a + p256P - b % p256P) % p256P

/-- A power modulo `m`, by the low `n` bits of the exponent. -/
def powMod (m : Nat) : Nat → Nat → Nat → Nat
  | 0, _, _ => 1
  | n + 1, x, e => (if e % 2 = 1 then x else 1) * powMod m n (x * x % m) (e / 2) % m

/-- The inverse modulo a prime of 256 bits. -/
def invMod (m x : Nat) : Nat := powMod m 256 (x % m) (m - 2)

/-- A point of the curve in Jacobian coordinates; Z = 0 is the point at infinity. -/
structure Point where
  x : Nat
  y : Nat
  z : Nat
deriving DecidableEq, Repr

/-- The double of a point. -/
def Point.dbl (p : Point) : Point :=
  let d := p.z * p.z % p256P
  let m := 3 * fsub p.x d * (p.x + d) % p256P
  let yy := p.y * p.y % p256P
  let s := 4 * p.x * yy % p256P
  let x := fsub (m * m) (2 * s)
  ⟨x, fsub (m * fsub s x) (8 * yy * yy), 2 * p.y * p.z % p256P⟩

/-- The sum of two points. -/
def Point.add (p q : Point) : Point :=
  if p.z = 0 then q
  else if q.z = 0 then p
  else
    let z1 := p.z * p.z % p256P
    let z2 := q.z * q.z % p256P
    let u1 := p.x * z2 % p256P
    let u2 := q.x * z1 % p256P
    let s1 := p.y * z2 * q.z % p256P
    let s2 := q.y * z1 * p.z % p256P
    if u1 = u2 then (if s1 = s2 then p.dbl else ⟨1, 1, 0⟩)
    else
      let h := fsub u2 u1
      let r := fsub s2 s1
      let hh := h * h % p256P
      let v := u1 * hh % p256P
      let x := fsub (fsub (r * r) (h * hh)) (2 * v)
      ⟨x, fsub (r * fsub v x) (s1 * (h * hh % p256P)), h * p.z * q.z % p256P⟩

/-- The multiple of a point by the low `n` bits of a number. -/
def Point.mul : Nat → Nat → Point → Point
  | 0, _, _ => ⟨1, 1, 0⟩
  | n + 1, k, p =>
    let r := Point.mul n (k / 2) p.dbl
    if k % 2 = 1 then p.add r else r

/-- Whether a pair of numbers is a point of P-256. -/
def onCurve (x y : Nat) : Bool :=
  decide (x < p256P ∧ y < p256P) && y * y % p256P == fsub (x * x * x + p256B) (3 * x)

/-- Whether (r, s) signs a hash under the public key (x, y). -/
def ecdsaValid (hash key sig : List Byte) : Bool :=
  let x := bigEndian (key.take 32)
  let y := bigEndian (key.drop 32)
  let r := bigEndian (sig.take 32)
  let s := bigEndian (sig.drop 32)
  if onCurve x y = false ∨ r = 0 ∨ p256N ≤ r ∨ s = 0 ∨ p256N ≤ s then false
  else
    let w := invMod p256N s
    let u1 := bigEndian hash * w % p256N
    let u2 := r * w % p256N
    let q := (Point.mul 256 u1 ⟨p256G.1, p256G.2, 1⟩).add (Point.mul 256 u2 ⟨x, y, 1⟩)
    let i := invMod p256P q.z
    q.z != 0 && q.x * i % p256P * i % p256P % p256N == r

/-! ## AES-256 -/

/-- A product by x in the field of AES. -/
def xtime (a : Nat) : Nat := (2 * a) % 256 ^^^ (if a < 128 then 0 else 0x1B)

/-- A product in the field of AES, by the low `n` bits of the second factor. -/
def gmul : Nat → Nat → Nat → Nat
  | 0, _, _ => 0
  | n + 1, a, b => (if b % 2 = 1 then a else 0) ^^^ gmul n (xtime a) (b / 2)

/-- The square of an element of the field of AES. -/
def gsquare (a : Nat) : Nat := gmul 8 a a

/-- The inverse in the field of AES: the power 254; 0 for 0. -/
def ginv (a : Nat) : Nat :=
  let a2 := gsquare a
  let a4 := gsquare a2
  let a8 := gsquare a4
  let a16 := gsquare a8
  let a32 := gsquare a16
  let a64 := gsquare a32
  gmul 8 (gmul 8 (gmul 8 a2 a4) (gmul 8 a8 a16)) (gmul 8 (gmul 8 a32 a64) (gsquare a64))

/-- The substitution of a byte. -/
def subByte (b : Byte) : Byte :=
  let x := ginv b.toNat
  let rot (n : Nat) : Nat := (x <<< n ||| x >>> (8 - n)) % 256
  BitVec.ofNat 8 (x ^^^ rot 1 ^^^ rot 2 ^^^ rot 3 ^^^ rot 4 ^^^ 0x63)

/-- Bytes XOR bytes. -/
def xorBytes (a b : List Byte) : List Byte := (a.zip b).map (fun p => p.1 ^^^ p.2)

/-- The key words that follow the eight before them (newest last), `n` groups of eight words: AES-256 takes 60 words. -/
def expandKey : Nat → Nat → List (List Byte) → List (List Byte)
  | 0, _, _ => []
  | n + 1, rcon, w =>
    let g := xorBytes (((w.getD 7 []).rotateLeft 1).map subByte) [BitVec.ofNat 8 rcon, 0, 0, 0]
    let w0 := xorBytes (w.getD 0 []) g
    let w1 := xorBytes (w.getD 1 []) w0
    let w2 := xorBytes (w.getD 2 []) w1
    let w3 := xorBytes (w.getD 3 []) w2
    let w4 := xorBytes (w.getD 4 []) (w3.map subByte)
    let w5 := xorBytes (w.getD 5 []) w4
    let w6 := xorBytes (w.getD 6 []) w5
    let ws := [w0, w1, w2, w3, w4, w5, w6, xorBytes (w.getD 7 []) w6]
    ws ++ expandKey n (xtime rcon) ws

/-- The 15 round keys of a key of 32 bytes. -/
def roundKeys (key : List Byte) : List (List Byte) :=
  let ws := (List.range 8).map (fun i => (key.drop (4 * i)).take 4)
  let all := ws ++ expandKey 7 1 ws
  (List.range 15).map (fun i => ((all.drop (4 * i)).take 4).flatten)

/-- The rows of a state of 16 bytes, column by column, are shifted. -/
def shiftRows (b : List Byte) : List Byte := (List.range 16).map (fun i => b.getD ((i + 4 * (i % 4)) % 16) 0)

/-- The columns of a state are mixed. -/
def mixColumns (b : List Byte) : List Byte :=
  (List.range 16).map (fun i =>
    let x (j : Nat) : Nat := (b.getD (4 * (i / 4) + (i + j) % 4) 0).toNat
    BitVec.ofNat 8 (xtime (x 0) ^^^ xtime (x 1) ^^^ x 1 ^^^ x 2 ^^^ x 3))

/-- The rounds of AES over the round keys that follow the first. -/
def aesRounds : List (List Byte) → List Byte → List Byte
  | [], b => b
  | [k], b => xorBytes (shiftRows (b.map subByte)) k
  | k :: ks, b => aesRounds ks (xorBytes (mixColumns (shiftRows (b.map subByte))) k)

/-- A block under AES-256 with its round keys. -/
def aesBlock (ks : List (List Byte)) (b : List Byte) : List Byte := aesRounds (ks.drop 1) (xorBytes b (ks.getD 0 []))

/-! ## GCM -/

/-- A product in the field of GHASH: bit 127 of a number is the first bit of its block. -/
def ghashMul : Nat → Nat → Nat → Nat
  | 0, _, _ => 0
  | n + 1, x, v =>
    (if x.testBit n then v else 0) ^^^ ghashMul n x (if v % 2 = 1 then v / 2 ^^^ 0xE1000000000000000000000000000000 else v / 2)

/-- GHASH over `n` blocks of bytes. -/
def ghash (h : Nat) : Nat → Nat → List Byte → Nat
  | 0, y, _ => y
  | n + 1, y, bs => ghash h n (ghashMul 128 (y ^^^ bigEndian (bs.take 16)) h) (bs.drop 16)

/-- Bytes filled up with zeros to whole blocks. -/
def padBlock (bs : List Byte) : List Byte := bs ++ List.replicate ((16 - bs.length % 16) % 16) 0

/-- The key stream of GCM for `n` blocks from a counter on, after a 96-bit IV. -/
def gcmStream (ks : List (List Byte)) (iv : List Byte) : Nat → Nat → List Byte
  | 0, _ => []
  | n + 1, c => aesBlock ks (iv ++ bytesOf 4 c) ++ gcmStream ks iv n (c + 1)

/-- Authenticated decryption: the plaintext, where the tag is that of the ciphertext and the additional data. -/
def gcmOpen (key iv aad ct tag : List Byte) : Option (List Byte) :=
  let ks := roundKeys key
  let h := bigEndian (aesBlock ks (List.replicate 16 0))
  let m := padBlock aad ++ padBlock ct ++ bytesOf 8 (8 * aad.length) ++ bytesOf 8 (8 * ct.length)
  let t := bytesOf 16 (ghash h (m.length / 16) 0 m)
  if xorBytes t (aesBlock ks (iv ++ bytesOf 4 1)) = tag then some (xorBytes ct (gcmStream ks iv ((ct.length + 15) / 16) 2)) else none

end Sys2Proof.Machine
end

