-- ==== Sys2Proof/Machine/Isa.lean ====
section
/-! DEFINITION. The loop engine's instruction words (R77 to R91): formats, what makes a word illegal, and the arithmetic of the
instruction groups. -/

namespace Sys2Proof.Machine

/-- The instructions of the loop engine (R78, R79, R83, R84, R89); `illegal` stands for a word that R77 makes illegal. -/
inductive EOp
  | illegal
  | add | sub | adds | subs | and_ | or_ | xor | andn | shl | shr | sar | shls | min_ | max_ | abs | neg | mulq31 | mulq16 | mul | clamp
  | mac | msu | mpy | rda | wra | clra | adda
  | eq | ne | lt | le | ltu | leu | tst | sel
  | addi | addsi | andi | ori | xori | shi | cmpi | br | dbnz | li | lui | jmp | call | ld | st
  | nop | eos | yield_ | brk | jr | mfs | mts | addp | rdin | rdint | stout | post | cancel | lut | rcps | sqrs
deriving DecidableEq, Repr

/-- A decoded word: the operation and the fields of its format. `imm` is the immediate, offset or target; in format A `sub` is the
sub field, in format M the pointer, in the extended group the low byte or the table fields; `sz`, `pm` and `sx` are those of format
M. -/
structure EI where
  op : EOp
  rd : Nat
  ra : Nat
  rb : Nat
  fl : Nat
  fe : Bool
  imm : Int
  sub : Nat
  sz : Nat
  pm : Nat
  sx : Bool
deriving DecidableEq, Repr

/-- Format A (R77, R79, R83, R84). -/
def decodeA (w major : Nat) : Option EI :=
  let rd := bits w 25 22
  let ra := bits w 21 18
  let rb := bits w 17 14
  let fn := bits w 13 8
  let fe := w.testBit 5
  let sub := bits w 4 0
  let mk (op : EOp) : EI := ⟨op, rd, ra, rb, bits w 7 6, fe, 0, sub, 0, 0, false⟩
  match major with
  | 1 =>
    if sub ≠ 0 then none
    else match fn with
    | 0x00 => some (mk .add) | 0x01 => some (mk .sub) | 0x02 => some (mk .adds) | 0x03 => some (mk .subs)
    | 0x04 => some (mk .and_) | 0x05 => some (mk .or_) | 0x06 => some (mk .xor) | 0x07 => some (mk .andn)
    | 0x08 => some (mk .shl) | 0x09 => some (mk .shr) | 0x0A => some (mk .sar) | 0x0B => some (mk .shls)
    | 0x0C => some (mk .min_) | 0x0D => some (mk .max_)
    | 0x0E => if rb = 0 then some (mk .abs) else none
    | 0x0F => if rb = 0 then some (mk .neg) else none
    | 0x10 => some (mk .mulq31) | 0x11 => some (mk .mulq16) | 0x12 => some (mk .mul) | 0x14 => some (mk .clamp)
    | _ => none
  | 2 =>
    let q := bits sub 4 3
    let k4 := sub.testBit 0
    if sub.testBit 1 = true ∨ q = 3 then none
    else match fn with
    | 0x00 => if rd = 0 ∧ k4 = false then some (mk .mac) else none
    | 0x01 => if rd = 0 ∧ k4 = false then some (mk .msu) else none
    | 0x02 => if rd = 0 ∧ k4 = false then some (mk .mpy) else none
    | 0x03 => if ra = 0 ∧ q = 0 then some (mk .rda) else none
    | 0x04 => if rd = 0 ∧ q = 0 then some (mk .wra) else none
    | 0x05 => if rd = 0 ∧ ra = 0 ∧ rb = 0 ∧ q = 0 ∧ k4 = false then some (mk .clra) else none
    | 0x06 => if rd = 0 ∧ q = 0 then some (mk .adda) else none
    | _ => none
  | 3 =>
    if sub ≠ 0 ∨ fe = true ∨ rd ≠ 0 then none
    else match fn with
    | 0x00 => some (mk .eq) | 0x01 => some (mk .ne) | 0x02 => some (mk .lt) | 0x03 => some (mk .le)
    | 0x04 => some (mk .ltu) | 0x05 => some (mk .leu) | 0x06 => some (mk .tst)
    | _ => none
  | _ => if sub = 0 ∧ fe = false ∧ fn = 0 then some (mk .sel) else none

/-- Format B (R78, R85). DESIGN CHOICE (log 84): bits [17:14], to which the format table gives no meaning, count as unused (R77), so a
word with one of them set is illegal. -/
def decodeB (w major : Nat) : Option EI :=
  let rd := bits w 25 22
  let ra := bits w 21 18
  let z := bits w 13 0
  let sx := toSigned 14 z
  let mk (op : EOp) (imm : Int) (sub : Nat) : EI := ⟨op, rd, ra, 0, 0, false, imm, sub, 0, 0, false⟩
  if bits w 17 14 ≠ 0 then none
  else match major with
  | 0x08 => some (mk .addi sx 0)
  | 0x09 => some (mk .addsi sx 0)
  | 0x0A => some (mk .andi z 0)
  | 0x0B => some (mk .ori z 0)
  | 0x0C => some (mk .xori z 0)
  | 0x0D => if bits w 11 5 = 0 then some (mk .shi (bits w 4 0) (bits w 13 12)) else none
  | 0x0E => some (mk .cmpi sx (bits w 23 22))
  | 0x10 => if ra = 0 ∧ rd ≤ 8 then some (mk .br sx 0) else none
  | _ => if ra = 0 then some (mk .dbnz sx 0) else none

/-- Format C (R78, R85). -/
def decodeC (w major : Nat) : Option EI :=
  let rd := bits w 25 22
  let z := bits w 19 0
  let mk (op : EOp) (imm : Int) : EI := ⟨op, rd, 0, 0, 0, false, imm, 0, 0, 0, false⟩
  if bits w 21 20 ≠ 0 then none
  else match major with
  | 0x18 => some (mk .li (toSigned 20 z))
  | 0x19 => some (mk .lui z)
  | 0x1A => if rd = 0 then some (mk .jmp z) else none
  | _ => if rd = 0 then some (mk .call z) else none

/-- Format M (R77, R86). -/
def decodeM (w : Nat) (store : Bool) : Option EI :=
  let sz := bits w 19 18
  let sx := w.testBit 15
  if sz = 3 ∨ bits w 14 10 ≠ 0 ∨ (sx = true ∧ (store = true ∨ sz = 2)) then none
  else some ⟨if store then .st else .ld, bits w 25 22, 0, 0, 0, false, toSigned 10 (bits w 9 0), bits w 21 20, sz, bits w 17 16, sx⟩

/-- Whether MFS reads the number (R71). -/
def specialRead (n : Nat) : Bool := decide (n ≤ 0x09 ∨ (0x10 ≤ n ∧ n ≤ 0x1B))

/-- Whether MTS writes the number (R71). -/
def specialWrite (n : Nat) : Bool := decide (n = 0 ∨ (0x10 ≤ n ∧ n ≤ 0x1B))

/-- The extended group (R89). -/
def decodeX (w : Nat) : Option EI :=
  let rd := bits w 19 16
  let ra := bits w 15 12
  let rb := bits w 11 8
  let i := bits w 7 0
  let mk (op : EOp) (sub : Nat) : EI := ⟨op, rd, ra, 0, bits w 5 4, w.testBit 6, 0, sub, 0, 0, false⟩
  let only (ok : Bool) (op : EOp) (sub : Nat) : Option EI := if ok then some (mk op sub) else none
  match bits w 25 20 with
  | 0x00 => only (bits w 19 0 == 0) .nop 0
  | 0x01 => only (bits w 19 0 == 0) .eos 0
  | 0x02 => only (bits w 19 0 == 0) .yield_ 0
  | 0x03 => only (bits w 19 0 == 0) .brk 0
  | 0x04 => only (rd == 0 && bits w 11 0 == 0) .jr 0
  | 0x08 => only (ra == 0 && rb == 0 && specialRead i) .mfs i
  | 0x09 => only (rd == 0 && rb == 0 && specialWrite i) .mts i
  | 0x0A => if rd = 0 ∧ ra = 0 ∧ rb < 4 then some ⟨.addp, 0, 0, 0, 0, false, toSigned 8 i, rb, 0, 0, false⟩ else none
  | 0x10 => only (ra == 0 && rb == 0 && !w.testBit 3 && !w.testBit 7) .rdin (bits w 2 0)
  | 0x11 => only (ra == 0 && rb == 0 && decide (i < 8)) .rdint i
  | 0x12 => if rd = 0 ∧ rb = 0 ∧ i < 16 then some ⟨.stout, 0, ra, 0, 0, w.testBit 3, 0, bits w 2 0, 0, 0, false⟩ else none
  | 0x14 => only (ra % 4 == 0 && bits w 11 0 == 0) .post 0
  | 0x15 => only (bits w 11 0 == 0) .cancel 0
  | 0x18 => if bits w 8 0 = 0 then none else some ⟨.lut, rd, ra, 0, 0, w.testBit 9, bits w 8 0 + 1, bits w 11 10, 0, 0, false⟩
  | 0x19 => only (bits w 11 0 == 0) .rcps 0
  | 0x1A => only (bits w 11 0 == 0) .sqrs 0
  | _ => none

/-- The instruction that a word spells; none for an illegal one (R77). -/
def decodeWord (w : Nat) : Option EI :=
  match bits w 31 26 with
  | 0x01 => decodeA w 1 | 0x02 => decodeA w 2 | 0x03 => decodeA w 3 | 0x04 => decodeA w 4
  | 0x08 => decodeB w 0x08 | 0x09 => decodeB w 0x09 | 0x0A => decodeB w 0x0A | 0x0B => decodeB w 0x0B | 0x0C => decodeB w 0x0C
  | 0x0D => decodeB w 0x0D | 0x0E => decodeB w 0x0E | 0x10 => decodeB w 0x10 | 0x11 => decodeB w 0x11
  | 0x18 => decodeC w 0x18 | 0x19 => decodeC w 0x19 | 0x1A => decodeC w 0x1A | 0x1B => decodeC w 0x1B
  | 0x20 => decodeM w false | 0x21 => decodeM w true
  | 0x3F => decodeX w
  | _ => none

/-- The value registers that an instruction reads (R92). -/
def EI.uses (e : EI) : List Nat :=
  match e.op with
  | .abs | .neg | .wra | .adda | .addi | .addsi | .andi | .ori | .xori | .shi | .cmpi | .jr | .mts | .stout | .cancel | .lut | .rcps
  | .sqrs => [e.ra]
  | .clamp => [e.ra, e.rb, e.rd]
  | .dbnz | .st => [e.rd]
  | .post => [e.ra, e.ra + 1, e.ra + 2, e.ra + 3]
  | .add | .sub | .adds | .subs | .and_ | .or_ | .xor | .andn | .shl | .shr | .sar | .shls | .min_ | .max_ | .mulq31 | .mulq16 | .mul
  | .mac | .msu | .mpy | .eq | .ne | .lt | .le | .ltu | .leu | .tst | .sel => [e.ra, e.rb]
  | .illegal | .rda | .clra | .br | .li | .lui | .jmp | .call | .ld | .nop | .eos | .yield_ | .brk | .mfs | .addp | .rdin | .rdint => []

/-! ## Arithmetic -/

/-- rnd(x, n) (R80). -/
def rnd (x : Int) (n : Nat) : Int := if n = 0 then x else (x + 2 ^ (n - 1)) / 2 ^ n

/-- A result, whether it was saturated or limited, and whether the flag receives that (S) or a test for zero (Z) (R79). -/
structure AluRes where
  w : Word
  limited : Bool
  sFlag : Bool
deriving DecidableEq, Repr

/-- A wrapping or logical result: the flag is Z. -/
def plain (w : Word) : AluRes := ⟨w, false, false⟩

/-- A saturating result: the flag is S (R79, R80). -/
def sat32 (x : Int) : AluRes := ⟨BitVec.ofInt 32 (satSigned 32 x), decide (satSigned 32 x ≠ x), true⟩

/-- sat48 (R83): the accumulator and whether it saturated. -/
def sat48 (x : Int) : BitVec 48 × Bool := (BitVec.ofInt 48 (satSigned 48 x), decide (satSigned 48 x ≠ x))

/-- CLAMP (R79, R82). -/
def clampRes (d a b : Word) : AluRes :=
  let r := if b.toInt < a.toInt then b.toInt else min (max d.toInt a.toInt) b.toInt
  ⟨BitVec.ofInt 32 r, decide (b.toInt < a.toInt ∨ d.toInt < a.toInt ∨ b.toInt < d.toInt), true⟩

/-- S, the shift of a product, by the mode Q (R83). -/
def accShift (sub : Nat) : Nat := match bits sub 4 3 with | 1 => 31 | 2 => 16 | _ => 0

/-- The floor of a square root, bit by bit from 2^(n − 1). -/
def floorSqrt (x : Nat) : Nat → Nat → Nat
  | 0, r => r
  | n + 1, r => if (r + 2 ^ n) * (r + 2 ^ n) ≤ x then floorSqrt x n (r + 2 ^ n) else floorSqrt x n r

/-- RCPS (R91): any value in the bound with the sign of x; beyond the range it saturates, and 0 gives the largest value. -/
def rcps (x : Word) : AluRes :=
  let i := x.toInt
  if i = 0 then ⟨0x7FFFFFFF, true, true⟩
  else
    let y := Config.rcpSeed x
    let ok := decide ((y * i - 2 ^ 32).natAbs ≤ 2 ^ 20 + i.natAbs ∧ 0 ≤ y * i)
    sat32 (if ok then y else if i < 0 then -((2 ^ 32 / i.natAbs : Nat) : Int) else ((2 ^ 32 / i.natAbs : Nat) : Int))

/-- SQRS (R91): any value in the bound; a negative operand gives 0. -/
def sqrs (x : Word) : AluRes :=
  if x.toInt < 0 then ⟨0, true, true⟩
  else
    let n := x.toNat * 2 ^ 16
    let y := Config.sqrtSeed x
    let lo := ((y + 1) * 4096).toNat
    let hi := ((y - 1) * 4096).toNat
    let ok := decide (0 ≤ y) && decide (4095 * 4095 * n ≤ lo * lo) && decide (hi * hi ≤ 4097 * 4097 * n)
    sat32 (if ok then y else (floorSqrt n 24 0 : Int))

/-- The interpolation of LUT between two entries, and its index (R90): `x` is the input after SG. -/
def lutIndex (n x : Nat) : Nat := (n - 1) * x / 2 ^ 32

/-- The value of LUT from the entries around it. -/
def lutValue (n x : Nat) (t0 t1 : Word) : Word :=
  let f : Int := ((n - 1) * x % 2 ^ 32 : Nat)
  BitVec.ofInt 32 (t0.toInt + ((t1.toInt - t0.toInt) * f + 2 ^ 31) / 2 ^ 32)

end Sys2Proof.Machine
end

