-- ==== Sys2Proof/Machine/Engine.lean ====
section
/-! DEFINITION. The loop engines: how an instruction issues, what it costs and does, how it faults, and how an activation starts and
ends (R64 to R100, R113 to R119, R302, R412). -/

namespace Sys2Proof.Machine

/-! ## Registers of a bank -/

/-- Value register `r`. -/
def Bank.val (b : Bank) (r : Nat) : Word := tget 0 b.v r
/-- Writes value register `r`. -/
def Bank.setVal (b : Bank) (r : Nat) (w : Word) : Bank := { b with v := tset 0 b.v r w }
/-- Pointer register `k`. -/
def Bank.ptr (b : Bank) (k : Nat) : Word := tget 0 b.p k
/-- Writes pointer register `k`. -/
def Bank.setPtr (b : Bank) (k : Nat) (w : Word) : Bank := { b with p := tset 0 b.p k w }
/-- The base of the modulo buffer of pointer `k`. -/
def Bank.base (b : Bank) (k : Nat) : Word := tget 0 b.pb k
/-- The length of the modulo buffer of pointer `k`. -/
def Bank.len (b : Bank) (k : Nat) : Word := tget 0 b.pl k
/-- Flag `c`. -/
def Bank.flag (b : Bank) (c : Nat) : Bool := b.flags.toNat.testBit c
/-- Writes flag `c`. -/
def Bank.setFlag (b : Bank) (c : Nat) (v : Bool) : Bank :=
  let m : BitVec 4 := BitVec.ofNat 4 (2 ^ c)
  { b with flags := if v then b.flags ||| m else b.flags &&& ~~~m }
/-- The chosen accumulator. -/
def Bank.acc (b : Bank) (one : Bool) : BitVec 48 := if one then b.acc1 else b.acc0
/-- Writes the chosen accumulator. -/
def Bank.setAcc (b : Bank) (one : Bool) (v : BitVec 48) : Bank := if one then { b with acc1 := v } else { b with acc0 := v }
/-- STAT (R71): the flag image and the sticky bits. -/
def Bank.stat (b : Bank) : Word := BitVec.ofNat 32 (b.flags.toNat * 256 + 2 * b2n b.accsat + b2n b.sat)
/-- A write of STAT (R71). -/
def Bank.setStat (b : Bank) (w : Word) : Bank :=
  { b with flags := w.extractLsb' 8 4, accsat := w.toNat.testBit 1, sat := w.toNat.testBit 0 }

/-- A pointer after an update by a step, corrected once (R87). DESIGN CHOICE (log 84): the new value is compared with PB and PB + PL as
an unbounded number, and only the result wraps to 32 bits. -/
def Bank.stepPtr (b : Bank) (k : Nat) (d : Int) : Word :=
  let n := (b.ptr k).toNat + d
  let lo : Int := (b.base k).toNat
  let len : Int := (b.len k).toNat
  if len = 0 then BitVec.ofInt 32 n
  else if lo + len ≤ n then BitVec.ofInt 32 (n - len)
  else if n < lo then BitVec.ofInt 32 (n + len)
  else BitVec.ofInt 32 n

/-! ## The effect of one instruction -/

/-- What an instruction works on and leaves: the state, the engine, the channel, and the activation with its next PC. -/
structure Eff where
  s : State
  t : Nat
  c : Chan
  a : Act
deriving DecidableEq, Repr

/-- What an instruction does: it completes after `cost` cycles, with the state that stays and from which cycle on even where it is
cut off (R65); it stops at a break; it faults with a cause and an address (R99); it meets an uncorrectable word, which the sector
records (R210, R221); or it cannot issue yet (R76). -/
inductive Res
  | ok (f : Eff) (cost : Nat) (kept : Option (State × Nat))
  | stop
  | fault (cause : Nat) (addr : Word)
  | bad (s : State) (addr : Word)
  | wait
deriving DecidableEq, Repr

/-- The sector of the engine. -/
def Eff.sect (f : Eff) : Nat := f.t / 16
/-- The slot of the activation. -/
def Eff.slot (f : Eff) : Nat := f.a.slot
/-- Replaces the bank. -/
def Eff.withBank (f : Eff) (b : Bank) : Eff := { f with c := { f.c with bank := b } }
/-- Writes a value register. -/
def Eff.put (f : Eff) (r : Nat) (w : Word) : Eff := f.withBank (f.c.bank.setVal r w)

/-- A value from outside the tile (R302): in a replay the next value of the LOG, otherwise the device's own, logged. -/
def Eff.ext (f : Eff) (w : Word) : Eff × Word :=
  match f.a.log with
  | some (x :: r) => ({ f with a := { f.a with log := some r } }, x)
  | some [] => (f, w)
  | none => ({ f with a := { f.a with words := f.a.words ++ [w] } }, w)

/-- Whether the activation is a replay. -/
def Eff.replay (f : Eff) : Bool := f.a.log.isSome

/-- A result of the ALU group: rd, STAT.SAT and the flag (R79, R81). -/
def Bank.alu (b : Bank) (e : EI) (r : AluRes) : Bank :=
  let b1 := b.setVal e.rd r.w
  let b2 := if r.limited then { b1 with sat := true } else b1
  if e.fe then b2.setFlag e.fl (if r.sFlag then r.limited else r.w == 0) else b2

/-- Replaces the bank by one with a result of the ALU group. -/
def Eff.alu (f : Eff) (e : EI) (r : AluRes) : Eff := f.withBank (f.c.bank.alu e r)

/-- The meaning of an instruction that computes rd from ra, rb and rd in one cycle. -/
def semAlu (g : Word → Word → Word → AluRes) (e : EI) (f : Eff) : Res :=
  let b := f.c.bank
  .ok (f.alu e (g (b.val e.ra) (b.val e.rb) (b.val e.rd))) 1 none

/-- The meaning of an instruction that computes rd from ra and the immediate in one cycle. -/
def semImm (g : Word → Int → AluRes) (e : EI) (f : Eff) : Res :=
  .ok (f.alu e (g (f.c.bank.val e.ra) e.imm)) 1 none

/-- The meaning of a compare: c[fl] receives the relation (R84). -/
def semCmp (g : Word → Word → Bool) (e : EI) (f : Eff) : Res :=
  let b := f.c.bank
  .ok (f.withBank (b.setFlag e.fl (g (b.val e.ra) (b.val e.rb)))) 1 none

/-- The amount k of the accumulator group (R83). -/
def EI.accK (e : EI) : Nat := b2n (e.sub.testBit 0) * 16 + e.rb

/-- The accumulator that sub [2] selects. -/
def EI.accOne (e : EI) : Bool := e.sub.testBit 2

/-- The chosen accumulator, STAT.ACCSAT and the flag after an accumulator write (R81, R83). -/
def Bank.accum (b : Bank) (e : EI) (r : BitVec 48 × Bool) : Bank :=
  let b1 := b.setAcc e.accOne r.1
  let b2 := if r.2 then { b1 with accsat := true } else b1
  if e.fe && e.op != .clra then b2.setFlag e.fl r.2 else b2

/-- The meaning of an accumulator write: the new value before sat48 from the old accumulator, ra and rb (R81, R83). -/
def semAcc (g : Int → Word → Word → Int) (e : EI) (f : Eff) : Res :=
  let b := f.c.bank
  let f1 := f.withBank (b.accum e (sat48 (g (b.acc e.accOne).toInt (b.val e.ra) (b.val e.rb))))
  .ok { f1 with a := { f1.a with hazard := .acc e.accOne } } 1 none

/-- RDA (R81, R83). -/
def semRda (e : EI) (f : Eff) : Res :=
  .ok (f.alu e (sat32 (rnd (f.c.bank.acc e.accOne).toInt e.accK))) 1 none

/-- SEL (R78). -/
def semSel (e : EI) (f : Eff) : Res :=
  let b := f.c.bank
  .ok (f.put e.rd (if b.flag e.fl then b.val e.ra else b.val e.rb)) 1 none

/-- SHI by its kind (R78). -/
def shiRes (kind : Nat) (a : Word) (n : Nat) : AluRes :=
  match kind with
  | 0 => plain (a <<< n)
  | 1 => plain (a >>> n)
  | 2 => plain (a.sshiftRight n)
  | _ => sat32 (a.toInt * 2 ^ n)

/-- CMPI (R78, R84). -/
def semCmpi (e : EI) (f : Eff) : Res :=
  let b := f.c.bank
  let a := b.val e.ra
  let i := BitVec.ofInt 32 e.imm
  let v := match e.sub with | 0 => a == i | 1 => BitVec.slt a i | 2 => BitVec.ult a i | _ => BitVec.sle a i
  .ok (f.withBank (b.setFlag (bits e.rd 3 2) v)) 1 none

/-- A transfer to a target outside 0 to 4,095 faults (R85). -/
def Eff.jump (f : Eff) (target : Int) : Res :=
  if 0 ≤ target ∧ target ≤ 4095 then .ok { f with a := { f.a with pc := target.toNat } } 2 none else .fault 3 0

/-- BR: the condition of the rd field (R85). -/
def semBr (e : EI) (f : Eff) : Res :=
  let c := if e.rd < 4 then f.c.bank.flag e.rd else if e.rd < 8 then !f.c.bank.flag (e.rd - 4) else true
  if c then f.jump (f.a.pc + e.imm) else .ok f 1 none

/-- DBNZ (R78, R85). -/
def semDbnz (e : EI) (f : Eff) : Res :=
  let v := f.c.bank.val e.rd - 1
  let f1 := f.put e.rd v
  if v = 0 then .ok f1 1 none else f1.jump (f.a.pc + e.imm)

/-- JMP (R85). -/
def semJmp (e : EI) (f : Eff) : Res := f.jump e.imm
/-- CALL (R78, R85): v15 receives the address of the next word. -/
def semCall (e : EI) (f : Eff) : Res := (f.put 15 (BitVec.ofNat 32 f.a.pc)).jump e.imm
/-- JR (R85, R89). -/
def semJr (e : EI) (f : Eff) : Res := f.jump (f.c.bank.val e.ra).toNat

/-! ## Memory (R73 to R76, R86 to R88) -/

/-- Where an engine address leads (R73): the tile's own data RAM or another address by its device address, or nowhere. -/
inductive Target
  | own (addr : Nat) | scratch (addr : Nat) | global (addr : Nat) | violation
deriving DecidableEq, Repr

/-- The engine's view of memory for slot `k` of LE[t] (R73, R75). -/
def targetOf (t k a : Nat) : Target :=
  if a < 0x100 then .own (0x20000000 + t * 0x4000 + 0x100 * k + a)
  else if 0x1000 ≤ a ∧ a < 0x2000 then .own (0x20000000 + t * 0x4000 + a)
  else if a < 0x10000000 then .violation
  else if 0x10000000 ≤ a ∧ a < 0x14000000 ∧ a % 0x1000000 / 0x40000 = t / 16 then .scratch a
  else .global a

/-- Whether the address lies in the rotate view, which takes any alignment (R23, R74, R86). -/
def rotateView (a : Nat) : Bool := decide (0x13000000 ≤ a ∧ a < 0x13400000)

/-- The number of the scratchpad bank of an address of any view: 8·s + b (R208). -/
def bankOfAddr (a : Nat) : Nat := a % 0x1000000 / 0x8000

/-- The pointer P of a bank in the cycle in which the engine at position `p` asked: that of the engines which asked with it, where one
of them has been served since, and otherwise that of now (R19, R21). -/
def State.askedPtr (s : State) (bank p : Nat) : Nat :=
  let x := tget (0, []) s.rrAsk bank
  if x.2.contains p then x.1 else tget 0 s.rr bank % 16

/-- The requester index of the engine at position `q` on port A of a bank in the cycle in which `p` asked: (q − P) mod 16 (R21). -/
def State.portIndex (s : State) (bank p q : Nat) : Nat := (q + 16 - s.askedPtr bank p) % 16

/-- The wait w of an access on port A (R21, R88, R211): the requests that came before it, and of those that ask with it the ones with a
lower index; at most 15. An access to a window under in-service test takes one cycle more (R217). -/
def State.portWait (s : State) (a p : Nat) (w : PortWait) : Nat :=
  let bank := bankOfAddr a
  min 15 (w.earlier + (w.rivals.filter (fun r => r.val != p && decide (s.portIndex bank p r.val < s.portIndex bank p p))).length) +
    b2n (s.underTest (normalView a)).isSome

/-- Port A of a bank has served the engine at position `p`: the pointer moves to the position after it, and the engines that asked in the
same cycle still wait under the pointer of that cycle (R19, R21). -/
def State.portServed (s : State) (bank p : Nat) (w : PortWait) : State :=
  let x := tget (0, []) s.rrAsk bank
  let waits := (if x.2.contains p then x.2 else w.rivals.map (·.val)).filter (· != p)
  { s with
    rr := tset 0 s.rr bank ((p + 1) % 16)
    rrAsk := tset (0, []) s.rrAsk bank (if waits.isEmpty then (0, []) else (s.askedPtr bank p, waits)) }

/-- Whether an access is refused (R24, R25, R73, R74). -/
def State.refused (s : State) (t k a size : Nat) (write : Bool) : Bool :=
  match targetOf t k a with
  | .violation => true
  | .own _ => false
  | .scratch _ => false
  | .global a => badSize (regionOf a) a size || s.denied t a write

/-- The value that a load delivers: zero- or sign-extended (R86). -/
def extend (size v : Nat) (sx : Bool) : Word := if sx then BitVec.ofInt 32 (toSigned (8 * size) v) else BitVec.ofNat 32 v

/-- The address of an M-format access, and the pointer after it (R86, R87). -/
def EI.address (e : EI) (b : Bank) : Word × Word :=
  let size := 2 ^ e.sz
  let a := b.ptr e.sub + BitVec.ofInt 32 (e.imm * size)
  match e.pm with
  | 0 => (a, b.ptr e.sub)
  | 1 => (a, b.stepPtr e.sub size)
  | 2 => (a, b.stepPtr e.sub (-(size : Int)))
  | _ => (b.ptr e.sub, b.stepPtr e.sub (e.imm * size))

/-- LD (R86 to R88): `w` tells what it meets at port A. The cycles that MTS to a pointer adds are those of `hazard`. -/
def semLd (w : PortWait) (e : EI) (f : Eff) : Res :=
  let size := 2 ^ e.sz
  let (aw, p) := e.address f.c.bank
  let a := aw.toNat
  let k := f.slot
  if a % size ≠ 0 ∧ rotateView a = false then .fault 4 aw
  else if f.s.refused f.t k a size false then .fault 5 aw
  else match targetOf f.t k a with
  | .own m =>
    let r := f.s.memRead m size
    if r.2.2 then .bad r.1 aw
    else
      let f1 := { f with s := r.1 }.withBank ((f.c.bank.setPtr e.sub p).setVal e.rd (extend size r.2.1 e.sx))
      .ok { f1 with a := { f1.a with hazard := .loaded e.rd } } 1 none
  | .scratch m =>
    let r := (f.s.portServed (bankOfAddr m) (f.t % 16) w).memRead (normalView m) size
    if r.2.2 ∧ f.replay = false then .bad r.1 aw
    else
      let (f1, v) := { f with s := if f.replay then f.s else r.1 }.ext (extend size r.2.1 e.sx)
      .ok (f1.withBank ((f1.c.bank.setPtr e.sub p).setVal e.rd v)) (3 + f.s.portWait m (f.t % 16) w) none
  | .global m =>
    match f.a.log, regionOf m with
    | some _, .vault =>
      let r := f.s.regionRead m size
      .ok ({ f with s := r.1 }.withBank ((f.c.bank.setPtr e.sub p).setVal e.rd (extend size r.2.1 e.sx))) 1 none
    | some _, _ =>
      let (f1, v) := f.ext 0
      .ok (f1.withBank ((f1.c.bank.setPtr e.sub p).setVal e.rd v)) 1 none
    | none, _ =>
      let g : GlobalLoad := ⟨m, size, e.sx, e.rd, e.sub, p, f.s.tb.now, none⟩
      .ok { f with s := f.s.setEng f.t { f.s.engOf f.t with gload := some g } } 0 none
  | .violation => .fault 5 aw

/-- Bytes of a checksum stream (R304), lowest first. -/
def streamWord (w : Word) : List Byte := wordBytes w

/-- A posted entry joins the checksum stream of the activation (R304). -/
def State.notePost (s : State) (t : Nat) (bs : List Byte) : State :=
  s.setEng t { s.engOf t with posts := (s.engOf t).posts ++ bs }

/-- A store outside the tile joins the checksum stream of the activation (R304). -/
def State.noteStore (s : State) (t : Nat) (bs : List Byte) : State :=
  s.setEng t { s.engOf t with outs := (s.engOf t).outs ++ bs }

/-- ST (R76, R86, R88): `w` tells what it meets at port A. A global store that finds the posted-write buffer full does not issue until
an entry has drained, and then counts the `w.earlier` cycles that it has waited. -/
def semSt (w : PortWait) (e : EI) (f : Eff) : Res :=
  let size := 2 ^ e.sz
  let (aw, p) := e.address f.c.bank
  let a := aw.toNat
  let k := f.slot
  let v := (f.c.bank.val e.rd).toNat % 2 ^ (8 * size)
  let f0 := f.withBank (f.c.bank.setPtr e.sub p)
  if a % size ≠ 0 ∧ rotateView a = false then .fault 4 aw
  else if f.s.refused f.t k a size true then .fault 5 aw
  else match targetOf f.t k a with
  | .own m =>
    let s1 := f.s.memWrite 0 m size v
    .ok { f0 with s := if s1.joinRuns then s1.toPartner "WRITE" [m, size, v] else s1 } 1 none
  | .scratch m =>
    let view := m / 0x1000000 % 4
    let s1 := f.s.noteStore f.t (streamWord aw ++ streamWord (BitVec.ofNat 32 v))
    let s2 := (s1.portServed (bankOfAddr m) (f.t % 16) w).memWrite view (normalView m) size v
    .ok { f0 with s := if f.replay then s1 else s2.toPartner "WRITE" [m, size, v] }
      ((if view = 1 ∨ view = 2 then 3 else 2) + f.s.portWait m (f.t % 16) w) none
  | .global m =>
    let s1 := f.s.noteStore f.t (streamWord aw ++ streamWord (BitVec.ofNat 32 v))
    if f.replay then .ok { f0 with s := s1 } 1 none
    else if (f.s.engOf f.t).buf.length ≥ 4 then .wait
    else
      let en := s1.engOf f.t
      let x : PostedWrite := ⟨m, size, BitVec.ofNat 32 v, k, f.a.pc - 1, f.s.tb.now⟩
      .ok { f0 with s := s1.setEng f.t { en with buf := en.buf ++ [x] } } (1 + (if en.stalled then w.earlier else 0)) none
  | .violation => .fault 5 aw

/-- The table entry `i` of LUT: none where the word is uncorrectable, which the sector records (R210, R221). -/
def State.entryAt (s : State) (m i : Nat) : State × Option Word :=
  let r := s.readWord (m + 4 * i)
  (r.1, if r.2.2 then none else some r.2.1)

/-- LUT (R90). -/
def semLut (e : EI) (f : Eff) : Res :=
  let n := e.imm.toNat
  let p := f.c.bank.ptr e.sub
  let a := p.toNat
  let last := a + 4 * n - 1
  if a % 4 ≠ 0 then .fault 4 p
  else if last < 0x100 ∨ (0x1000 ≤ a ∧ last < 0x2000) then
    match targetOf f.t f.slot a with
    | .own m =>
      let xa := f.c.bank.val e.ra
      let x := (if e.fe then xa ^^^ 0x80000000 else xa).toNat
      let i := lutIndex n x
      let (s1, t0) := f.s.entryAt m i
      let (s2, t1) := s1.entryAt m (i + 1)
      match t0, t1 with
      | some t0, some t1 => .ok ({ f with s := s2 }.put e.rd (lutValue n x t0 t1)) 4 none
      | none, _ => .bad s1 (BitVec.ofNat 32 (a + 4 * i))
      | some _, none => .bad s2 (BitVec.ofNat 32 (a + 4 * (i + 1)))
    | _ => .fault 5 p
  else .fault 5 p

/-- ADDP (R87, R89). -/
def semAddp (e : EI) (f : Eff) : Res := .ok (f.withBank (f.c.bank.setPtr e.sub (f.c.bank.stepPtr e.sub e.imm))) 1 none

/-! ## Special registers (R71, R72) -/

/-- CHS (R71). -/
def Eff.chs (f : Eff) : Word :=
  BitVec.ofNat 32 (f.c.acts % 2 ^ 16 * 2 ^ 16 + f.t * 256 + f.slot * 16 + 8 * b2n f.c.resumed + 4 * b2n (f.s.secure f.t) +
    2 * b2n f.c.preempted + b2n f.c.first)

/-- The special register `n` as RDREG reads it, with no side effect (R71, R413). DESIGN CHOICE (log 84): CYC shows the cycle in which
the MFS issues; R71 says only of BUDGET that it counts after the MFS. -/
def Eff.special (f : Eff) (n : Nat) : Word :=
  let b := f.c.bank
  let k := f.s.sectOf f.sect
  match n with
  | 0x00 => b.stat
  | 0x01 => f.chs
  | 0x02 => BitVec.ofNat 32 f.c.trig
  | 0x03 => BitVec.ofNat 32 (f.a.budget - f.a.used - 1)
  | 0x04 => BitVec.ofNat 32 ((f.a.offset + f.a.used) % 2 ^ 19)
  | 0x05 => k.tnow
  | 0x06 => k.ttick
  | 0x07 => k.tang
  | 0x08 => k.trev
  | 0x09 => k.tspd
  | 0x10 | 0x11 | 0x12 | 0x13 => b.ptr (n - 0x10)
  | 0x14 | 0x15 | 0x16 | 0x17 => b.base (n - 0x14)
  | 0x18 | 0x19 | 0x1A | 0x1B => b.len (n - 0x18)
  | _ => 0

/-- A write of special register `n` (R71). -/
def Bank.setSpecial (b : Bank) (n : Nat) (w : Word) : Bank :=
  match n with
  | 0x00 => b.setStat w
  | 0x10 | 0x11 | 0x12 | 0x13 => b.setPtr (n - 0x10) w
  | 0x14 | 0x15 | 0x16 | 0x17 => { b with pb := tset 0 b.pb (n - 0x14) w }
  | 0x18 | 0x19 | 0x1A | 0x1B => { b with pl := tset 0 b.pl (n - 0x18) (w &&& 0xFFFF) }
  | _ => b

/-- MFS (R71): a read of TRIG clears it; TRIG, BUDGET, CYC and TNOW to TSPD are logged (R302). -/
def semMfs (e : EI) (f : Eff) : Res :=
  let w := f.special e.sub
  if 2 ≤ e.sub ∧ e.sub ≤ 9 then
    let (f1, v) := f.ext w
    let f2 := if e.sub = 2 ∧ f.replay = false then { f1 with c := { f1.c with trig := 0 } } else f1
    .ok (f2.put e.rd v) 1 none
  else .ok (f.put e.rd w) 1 none

/-- MTS (R71, R92). -/
def semMts (e : EI) (f : Eff) : Res :=
  let f1 := f.withBank (f.c.bank.setSpecial e.sub (f.c.bank.val e.ra))
  .ok (if e.sub = 0 then f1 else { f1 with a := { f1.a with hazard := .ptr (e.sub % 4) } }) 1 none

/-! ## Bindings (R93, R94, R111) -/

/-- Half `b` of a list of packed words. -/
def half (ws : List Word) (b : Nat) : Nat := bits (ws.getD (b / 2) 0).toNat (16 * (b % 2) + 15) (16 * (b % 2))
/-- Input binding `b`: its kind and its index. -/
def Desc.inp (d : Desc) (b : Nat) : Nat × Nat := (half d.ins b / 4096, half d.ins b % 4096)
/-- Output binding `b`: its kind and its index. -/
def Desc.out (d : Desc) (b : Nat) : Nat × Nat := (half d.outs b / 4096, half d.outs b % 4096)
/-- Release value `b`. -/
def Desc.release (d : Desc) (b : Nat) : Word := d.rel.getD b 0

/-- What a source shows now (R93): the word, its freshness mark, whether a value exists, and its timestamp. -/
def State.source (s : State) (k kind n : Nat) : Word × Nat × Bool × Word :=
  match kind with
  | 1 =>
    let r := tget recReset (s.adcOf (bits n 8 4)).copies (bits n 3 0)
    (r.value, r.tag, r.tag != 0, r.time)
  | 2 =>
    let w := b2n (s.fb (CMP_STAT_F (n / 4) (n % 4))) + 2 * b2n (s.fb (CMP_STAT_L (n / 4) (n % 4)))
    (BitVec.ofNat 32 w, w, true, 0)
  | 3 =>
    let w := s.fld (CMP_WIN_STAT_STATE (n / 2) (n % 2)) + 4 * b2n (s.fb (CMP_WIN_STAT_WL (n / 2) (n % 2)))
    (BitVec.ofNat 32 w, w, true, 0)
  | 5 => (s.reg (STM_QD_POS_at k n), (s.reg (STM_QD_POS_at k n)).toNat, true, 0)
  | 6 => (BitVec.ofNat 32 (b2n (s.pinIn n)), b2n (s.pinIn n), true, 0)
  | _ => (0, 0, false, 0)

/-- RDIN (R93, R302). -/
def semRdin (e : EI) (f : Eff) : Res :=
  let (kind, n) := f.c.desc.inp e.sub
  let finish (f : Eff) (w : Word) (fresh : Bool) : Res :=
    let (f1, v) := f.ext w
    let (f2, fr) := if e.fe then f1.ext (BitVec.ofNat 32 (b2n fresh)) else (f1, 0)
    let b := f2.c.bank.setVal e.rd v
    .ok (f2.withBank (if e.fe then b.setFlag e.fl (fr != 0) else b)) 4 none
  if kind = 0 then .fault 6 0
  else if f.replay then finish f 0 false
  else if kind = 4 then
    let (s1, o) := f.s.popCapture f.sect n
    finish { f with s := s1 } (o.getD 0) o.isSome
  else
    let (w, mark, has, time) := f.s.source f.sect kind n
    let old := tget (0, false) f.c.fresh e.sub
    let fresh := has && (!old.2 || old.1 != mark)
    let c := if has then { f.c with
        fresh := tset (0, false) f.c.fresh e.sub (mark, true), stamp := tset 0 f.c.stamp e.sub time } else f.c
    finish { f with c := c } w fresh

/-- RDINT (R93). -/
def semRdint (e : EI) (f : Eff) : Res :=
  if (f.c.desc.inp e.sub).1 ≠ 1 then .fault 6 0
  else
    let (f1, v) := f.ext (tget 0 f.c.stamp e.sub)
    .ok (f1.put e.rd v) 1 none

/-- STOUT (R94): `fe` is the T bit. -/
def semStout (e : EI) (f : Eff) : Res :=
  let (kind, _) := f.c.desc.out e.sub
  if kind = 0 ∨ kind = 4 then .fault 6 0
  else .ok { f with a := { f.a with stage := tput f.a.stage e.sub (f.c.bank.val e.ra, e.fe) } } 1 none

/-- Whether ADDR lies in an action-range output binding (R96, R111). -/
def Desc.inRange (d : Desc) (a : Action) : Bool :=
  let x := if a.dest = 0 then a.pin else a.addr
  (List.range 8).any (fun b => (d.out b).1 == 4 &&
    (let r := (d.release b).toNat; bits r 31 30 == a.dest && decide (bits r 13 0 ≤ x ∧ x ≤ bits r 29 16)))

/-- POST (R96, R97): `w` is the wait for the store. The entry enters the store in the first cycle; rd is written in the second. -/
def semPost (w : Nat) (e : EI) (f : Eff) : Res :=
  let b := f.c.bank
  let own := f.t % 16 * 2 ^ 28 + f.slot * 2 ^ 24
  let w3 := BitVec.ofNat 32 ((b.val (e.ra + 3)).toNat % 2 ^ 16 + own)
  let a : Action := ⟨b.val e.ra, b.val (e.ra + 1), b.val (e.ra + 2), w3, 0, 0, .unjudged⟩
  let finish (f : Eff) (r : Nat) : Res := .ok (f.put e.rd (BitVec.ofNat 32 r)) (2 + w) (some (f.s, 1 + w))
  let words := [a.w0, a.w1, a.w2, BitVec.ofNat 32 (w3.toNat % 2 ^ 16)]
  if f.replay then
    let (f1, r) := f.ext 0
    if r = 0 then finish { f1 with s := (f1.s.post f.sect a).1.notePost f.t (words.flatMap streamWord) } 0
    else finish f1 r.toNat
  else if f.s.badEntry a then
    let (f1, _) := f.ext 2
    finish f1 2
  else if f.c.desc.inRange a = false then .fault 6 0
  else
    let (s1, r) := f.s.post f.sect a
    let (f1, _) := { f with s := if r = 0 then s1.notePost f.t (words.flatMap streamWord) else s1 }.ext (BitVec.ofNat 32 r)
    finish f1 r

/-- CANCEL (R97, R98): after a wait of `w` cycles for the slot of the store the cancel enters the post FIFO, where that cycle lies within
the budget; the engine blocks until its count returns (CANCEL_ARM). A cancel that has not been served by the end of the budget never leaves the engine (R65). -/
def semCancel (w : Nat) (e : EI) (f : Eff) : Res :=
  if f.replay then
    let (f1, v) := f.ext 0
    .ok (f1.put e.rd v) 1 none
  else if f.a.used + 1 + w > f.a.budget then .ok f (1 + w) none
  else
    let v := (f.c.bank.val e.ra).toNat
    let x := f.s.storeOf f.sect
    let q := QItem.cancel (bits v 31 16) (bits v 15 0) (some (f.t % 16 * 16 + f.slot)) (some f.t)
    let s1 := f.s.setStore f.sect { x with fifo := x.fifo ++ [q] }
    .ok { f with s := s1.setEng f.t { s1.engOf f.t with cancelRd := some e.rd } } w none

/-- EOS and YIELD (R67): the activation is ending; ACTIVATION_END completes it. -/
def semEnd (how : Ending) (_ : EI) (f : Eff) : Res := .ok { f with a := { f.a with ending := some how } } 1 none

/-- BRK (R99, R412). -/
def semBrk (_ : EI) (f : Eff) : Res := if (f.s.engOf f.t).brk then .stop else .fault 8 0

/-- NOP. -/
def semNop (_ : EI) (f : Eff) : Res := .ok f 1 none

/-! ## The operations -/

/-- The same meaning with a cost of two cycles (R89). -/
def twoCycles (g : EI → Eff → Res) (e : EI) (f : Eff) : Res :=
  match g e f with
  | .ok f' _ k => .ok f' 2 k
  | r => r

/-- What an instruction does, by its operation. An access to a scratchpad, a post and a cancel wait for nothing here; their commands say
for what they wait. -/
def semOf (op : EOp) (e : EI) (f : Eff) : Res :=
  match op with
  | .illegal => semNop e f
  | .ld => semLd ⟨0, []⟩ e f
  | .st => semSt ⟨0, []⟩ e f
  | .post => semPost 0 e f
  | .cancel => semCancel 0 e f
  | .add => semAlu (fun a b _ => plain (a + b)) e f
  | .sub => semAlu (fun a b _ => plain (a - b)) e f
  | .adds => semAlu (fun a b _ => sat32 (a.toInt + b.toInt)) e f
  | .subs => semAlu (fun a b _ => sat32 (a.toInt - b.toInt)) e f
  | .and_ => semAlu (fun a b _ => plain (a &&& b)) e f
  | .or_ => semAlu (fun a b _ => plain (a ||| b)) e f
  | .xor => semAlu (fun a b _ => plain (a ^^^ b)) e f
  | .andn => semAlu (fun a b _ => plain (a &&& ~~~b)) e f
  | .shl => semAlu (fun a b _ => plain (a <<< (b.toNat % 32))) e f
  | .shr => semAlu (fun a b _ => plain (a >>> (b.toNat % 32))) e f
  | .sar => semAlu (fun a b _ => plain (a.sshiftRight (b.toNat % 32))) e f
  | .shls => semAlu (fun a b _ => sat32 (a.toInt * 2 ^ (b.toNat % 32))) e f
  | .min_ => semAlu (fun a b _ => plain (if a.toInt ≤ b.toInt then a else b)) e f
  | .max_ => semAlu (fun a b _ => plain (if a.toInt ≤ b.toInt then b else a)) e f
  | .abs => semAlu (fun a _ _ => sat32 a.toInt.natAbs) e f
  | .neg => semAlu (fun a _ _ => sat32 (-a.toInt)) e f
  | .mulq31 => semAlu (fun a b _ => sat32 (rnd (a.toInt * b.toInt) 31)) e f
  | .mulq16 => semAlu (fun a b _ => sat32 (rnd (a.toInt * b.toInt) 16)) e f
  | .mul => semAlu (fun a b _ => plain (a * b)) e f
  | .clamp => semAlu (fun a b d => clampRes d a b) e f
  | .mac => semAcc (fun x a b => x + rnd (a.toInt * b.toInt) (accShift e.sub)) e f
  | .msu => semAcc (fun x a b => x - rnd (a.toInt * b.toInt) (accShift e.sub)) e f
  | .mpy => semAcc (fun _ a b => rnd (a.toInt * b.toInt) (accShift e.sub)) e f
  | .rda => semRda e f
  | .wra => semAcc (fun _ a _ => a.toInt * 2 ^ e.accK) e f
  | .clra => semAcc (fun _ _ _ => 0) e f
  | .adda => semAcc (fun x a _ => x + a.toInt * 2 ^ e.accK) e f
  | .eq => semCmp (fun a b => a == b) e f
  | .ne => semCmp (fun a b => a != b) e f
  | .lt => semCmp BitVec.slt e f
  | .le => semCmp BitVec.sle e f
  | .ltu => semCmp BitVec.ult e f
  | .leu => semCmp BitVec.ule e f
  | .tst => semCmp (fun a b => a &&& b != 0) e f
  | .sel => semSel e f
  | .addi => semImm (fun a i => plain (a + BitVec.ofInt 32 i)) e f
  | .addsi => semImm (fun a i => sat32 (a.toInt + i)) e f
  | .andi => semImm (fun a i => plain (a &&& BitVec.ofInt 32 i)) e f
  | .ori => semImm (fun a i => plain (a ||| BitVec.ofInt 32 i)) e f
  | .xori => semImm (fun a i => plain (a ^^^ BitVec.ofInt 32 i)) e f
  | .shi => semImm (fun a i => shiRes e.sub a i.toNat) e f
  | .cmpi => semCmpi e f
  | .br => semBr e f
  | .dbnz => semDbnz e f
  | .li => semImm (fun _ i => plain (BitVec.ofInt 32 i)) e f
  | .lui => semImm (fun _ i => plain (BitVec.ofInt 32 i <<< 12)) e f
  | .jmp => semJmp e f
  | .call => semCall e f
  | .nop => semNop e f
  | .eos => semEnd .eos e f
  | .yield_ => semEnd .yield_ e f
  | .brk => semBrk e f
  | .jr => semJr e f
  | .mfs => semMfs e f
  | .mts => semMts e f
  | .addp => semAddp e f
  | .rdin => semRdin e f
  | .rdint => semRdint e f
  | .stout => semStout e f
  | .lut => semLut e f
  | .rcps => twoCycles (semAlu (fun a _ _ => rcps a)) e f
  | .sqrs => twoCycles (semAlu (fun a _ _ => sqrs a)) e f

/-! ## Issuing -/

/-- The extra cycles between the last instruction and this one (R92). -/
def hazardCycles (h : Hazard) (e : EI) : Nat :=
  match h with
  | .none => 0
  | .loaded rd => b2n (e.uses.contains rd)
  | .acc one => b2n (e.op == .rda && e.accOne == one)
  | .ptr k => b2n ((e.op == .ld || e.op == .st || e.op == .lut) && e.sub == k)

/-- The address of an instruction word (R73, R221). -/
def instrAddr (t pc : Nat) : Nat := 0x21000000 + t * 0x4000 + 4 * pc

/-- Whether LE[t] can issue an instruction: its clock and its activation are running, and it waits for nothing (R18, R65, R67, R76,
R98, R452); a replay has not run its logged count (R302). -/
def State.issues (s : State) (t : Nat) : Option Act :=
  let en := s.engOf t
  match en.act with
  | none => none
  | some a =>
    if s.sectRuns (t / 16) = false ∨ a.ending.isSome ∨ en.gload.isSome ∨ en.cancelRd.isSome ∨ a.used ≥ a.budget ∨ (a.log.isSome ∧ a.count ≥ a.limit) then none
    else some a

/-- The activation of LE[t] with changes. -/
def State.setAct (s : State) (t : Nat) (a : Option Act) : State := s.setEng t { s.engOf t with act := a }

/-- The bytes that a committed stage buffer adds to the checksum stream (R304): binding, T and word of each entry. -/
def stageStream (stage : Table (Word × Bool)) : List Byte :=
  stage.flatMap (fun e => [BitVec.ofNat 8 e.1, BitVec.ofNat 8 (b2n e.2.2)] ++ streamWord e.2.1)

/-- The engine's record of an activation that has ended (R302): its part of the checksum stream holds the slot number, the stage entries
where they were committed, the posted entries and the stores outside the tile, in the order in which R304 lists them (DEDUCED, log
97). -/
def State.ran (s : State) (t how : Nat) (a : Act) : State :=
  let en := s.engOf t
  s.setEng t { en with
    act := none, stalled := false, ran := en.ran ++ [⟨a.slot, how, a.count, a.words⟩]
    stream := en.stream ++ [BitVec.ofNat 8 a.slot] ++ (if how ≤ 1 then stageStream a.stage else []) ++ en.posts ++ en.outs
    posts := [], outs := []
    offset := max en.offset (a.offset + a.used) }

/-- A debug stop (R412): the activation ends with no commit and no overrun; registers and stage buffer are kept. -/
def State.debugStop (s : State) (t reason pc : Nat) (a : Act) : State :=
  let i := 16 * t + a.slot
  let c := s.chanOf i
  (s.setChan i { c with
    bank := { c.bank with pc := pc }, stop := some reason, kept := a.stage, pastBrk := reason == 1, resume := none, first := false,
    preempted := false, resumed := false }).ran t 4 a

/-- A fault of the instruction at the PC (R99): no effect but the end of the activation, at the end of its first cycle. DESIGN CHOICE
(log 84): a fault past word 4,095 (R85) reports the PC modulo 4,096, since PC has 12 bits. -/
def State.chanFault (s : State) (t cause : Nat) (addr : Word) (x : Nat) (a : Act) : State :=
  let i := 16 * t + a.slot
  let c := s.chanOf i
  if a.log.isSome then (s.diverge t).setAct t (some { a with used := a.budget })
  else
  let info : FaultInfo := ⟨cause, a.pc % 4096, if cause = 4 ∨ cause = 5 ∨ cause = 7 then addr else 0, (s.sectOf (t / 16)).ttick⟩
  (s.setChan i { c with unreported := some info }).setAct t
    (some { a with ending := some .fault, stage := [], used := a.used + x + 1, hazard := .none })

/-- A budget that ends before the instruction can issue: the cycles pass (R65). -/
def State.exhaust (s : State) (t : Nat) (a : Act) : State := s.setAct t (some { a with used := a.budget })

/-- The result of an instruction whose issue waited `x` cycles (R65, R92, R412). -/
def State.retire (s : State) (t x : Nat) (a : Act) (r : Res) : State :=
  match r with
  | .fault cause addr => s.chanFault t cause addr x a
  | .bad s1 addr => s1.chanFault t 7 addr x a
  | .wait => s.setEng t { s.engOf t with stalled := true }
  | .stop => s.debugStop t 1 a.pc a
  | .ok f cost kept =>
    if a.used + x + cost > a.budget then
      match kept with
      | some (s1, n) => if a.used + x + n ≤ a.budget then s1.exhaust t a else s.exhaust t a
      | none => s.exhaust t a
    else
      let waits := (f.s.engOf t).gload.isSome || (f.s.engOf t).cancelRd.isSome
      let a1 := { f.a with used := a.used + x + cost, count := a.count + b2n (!waits), skipBp := false }
      let s0 := f.s.setChan (16 * t + a.slot) f.c
      let s1 := s0.setEng t { s0.engOf t with act := some a1, stalled := false }
      if a.step ∧ a1.ending = none ∧ waits = false then s1.debugStop t 3 a1.pc a1 else s1

/-- One instruction issues on LE[t] (R65): the word at the PC is fetched (R99 IFETCH, R85 past the last word, R412 breakpoint), and
where it is the operation that the command names, it has its effect. A command that is not the next instruction changes nothing. -/
def State.issue (s : State) (t : Nat) (op : EOp) (sem : EI → Eff → Res) : State :=
  match s.issues t with
  | none => s
  | some a =>
    if a.pc > 4095 then s.chanFault t 3 0 0 a
    else
      match s.readWord (instrAddr t a.pc) with
      | (s1, w, bad) =>
        if (s.engOf t).bp = some (a.slot, a.pc) ∧ a.skipBp = false then s.debugStop t 2 a.pc a
        else if bad then s1.chanFault t 1 0 0 a
        else match decodeWord w.toNat with
          | none => if op = .illegal then s1.chanFault t 2 0 0 a else s
          | some e =>
            if e.op ≠ op then s
            else
              let x := hazardCycles a.hazard e
              if a.used + x + 1 > a.budget then s1.exhaust t a
              else s1.retire t x a (sem e ⟨s1, t, s1.chanOf (16 * t + a.slot), { a with pc := a.pc + 1, hazard := .none, used := a.used + x }⟩)

/-! ## Activations (R64 to R67, R113 to R118) -/

/-- The settings of slot `k` of LE[t]. -/
def State.slotOf (s : State) (t k : Nat) : Chan := s.chanOf (16 * t + k)

/-- A slice may activate: its gate is open, its channel runs and has not faulted, whether or not the fault has been reported, and a
stopped channel has been resumed (R114, R119, R412). -/
def Chan.mayRun (c : Chan) : Bool :=
  (c.st == .running || c.st == .stopping) && c.unreported.isNone && c.fault.isNone && (c.stop.isNone || c.resume.isSome)

/-- An activation of slot `k` begins with its first cycle at an offset of the tick (R65, R67, R68, R412). -/
def State.activate (s : State) (t k offset budget : Nat) : State :=
  let i := 16 * t + k
  let c := s.chanOf i
  let cont := c.stop.isSome
  let pc := if cont && c.pastBrk then c.bank.pc + 1 else c.bank.pc
  let c1 := { c with
    acts := (c.acts + 1) % 2 ^ 16, resumed := c.resumed || cont, stop := none, kept := [], pastBrk := false, resume := none,
    pend := false }
  let a : Act := ⟨k, pc, 0, budget, offset, none, if cont then c.kept else [], .none, c.stop == some 2, c.resume == some true, none, [],
    0, 0, 0⟩
  match c.halt with
  | some r =>
    if cont then (s.setChan i { c1 with halt := none }).setAct t (some a)
    else ((s.setChan i { c1 with halt := none }).debugStop t r pc a)
  | none => (s.setChan i c1).setAct t (some a)

/-- The first slice that has not passed and may activate; the slices before it pass idle. -/
def takeSlice (run : Nat → Bool) : List Slice → Option Slice × List Slice
  | [] => (none, [])
  | x :: r =>
    if x.passed then (match takeSlice run r with | (o, l) => (o, x :: l))
    else if x.gate && run x.slot then (some x, { x with passed := true } :: r)
    else match takeSlice run r with | (o, l) => (o, { x with passed := true } :: l)

/-- The BASE slots in the order in which the engine takes them: from the slot after the last one that activated (R115). -/
def baseOrder (last : Nat) : List Nat := (List.range 16).map (fun j => (last + 1 + j) % 16)

/-- The pending BASE channels of LE[t] in turn (R115): one that does not fit is deferred, the first that fits activates. -/
def State.takeBase (s : State) (t : Nat) : List Nat → State
  | [] => s
  | k :: r =>
    let c := s.slotOf t k
    let en := s.engOf t
    if c.pend && c.mayRun && c.note == 2 && !en.baseDone.contains k then
      let s1 := s.setEng t { en with baseDone := k :: en.baseDone }
      if en.offset + 2 + c.budget + s.fld ALLOC_CFG_ISTRES ≤ s.tickCycles (t / 16) then
        (s1.setEng t { s1.engOf t with lastBase := k }).activate t k (en.offset + 2) c.budget
      else ((s1.setChan (16 * t + k) { c with deferred := min (c.deferred + 1) 0xFFFF }).setFld ALLOC_IRQ_STAT_DEFER 1).takeBase t r
    else s.takeBase t r

/-- The region, if any, that covers LE[t] (R346). -/
def State.tileRegion (s : State) (t : Nat) : Option Nat :=
  (List.range 32).find? (fun r => s.fb (REG_DEF_EN r) && decide (s.fld (REG_DEF_SLO r) ≤ t / 16 ∧ t / 16 ≤ s.fld (REG_DEF_SHI r) ∧
    s.fld (REG_DEF_CLO r) ≤ t % 16 ∧ t % 16 ≤ s.fld (REG_DEF_CHI r)))

/-- Whether LE[t] lies in a region held in reset (R351). -/
def State.tileHeld (s : State) (t : Nat) : Bool := (s.tileRegion t).any (fun r => s.fb (REG_STAT_HELD r))

/-- Whether LE[t] can start slots: released, its clock running, not held, no snapshot, its data RAM not under test (R18, R119, R221,
R351, R365, R428). -/
def State.engineRuns (s : State) (t : Nat) : Bool :=
  s.sectRuns (t / 16) && !(s.engOf t).held && !s.tileHeld t && !s.pwr.snapStop && !s.tileTested t

/-- ACTIVATION_START (R64, R65, R113 to R115): the next slice of LE[t] that activates, or after the guaranteed slices the next BASE
channel. -/
def State.startNext (s : State) (t : Nat) : State :=
  let en := s.engOf t
  if en.act.isSome ∨ s.engineRuns t = false ∨ s.live = false then s
  else
    let (o, l) := takeSlice (fun k => (s.slotOf t k).mayRun) en.layout
    let s1 := s.setEng t { en with layout := l }
    match o with
    | some x => s1.activate t x.slot (x.offset + 2) x.budget
    | none =>
      let end_ := l.foldl (fun m x => max m (x.offset + 2 + x.budget)) en.offset
      (s1.setEng t { s1.engOf t with offset := end_ }).takeBase t (baseOrder en.lastBase)

/-- A word on an output of a channel (R95, R120): 1 DAC, 2 PWM duty, 3 pin. -/
def State.drive (s : State) (k kind n : Nat) (w : Word) : State :=
  match kind with
  | 1 => s.dacCommit n (bits w.toNat 13 0)
  | 2 => s.setFld (STM_PWM_DUTY_DUTY k n) (bits w.toNat 16 0)
  | 3 => s.setChOut n (bits w.toNat 1 0)
  | _ => s

/-- A deferred entry of binding `b` of slot `i` waits (R95): a pin entry for the boundary of PIN_CLK, with the tick in which its sector
commits it, another for the boundary of the sector. An entry committed before a tick whose PIN_CLK boundary falls on the same instant
and has acted already acts with it. -/
def State.defer (s : State) (i b : Nat) (w : Word) : State :=
  let o := (s.chanOf i).desc.out b
  let tick := tget 0 s.tickCopy (i / 256)
  if o.1 = 3 then
    if tget 0 s.tickCopy (Domain.num .pin) = tick + 1 then s.setChOut o.2 (bits w.toNat 1 0)
    else { s with pinDef := tput s.pinDef (8 * i + b) (w, tick, o.2) }
  else s.setChan i { s.chanOf i with defOut := tput (s.chanOf i).defOut b (w, o) }

/-- The commit of a stage buffer in binding order (R95): immediate entries take effect, deferred ones wait for the boundary. -/
def State.commit (s : State) (t k : Nat) (stage : Table (Word × Bool)) : State :=
  stage.foldl (fun s e =>
    let (b, w, later) := e
    let i := 16 * t + k
    if later then s.defer i b w
    else s.drive (t / 16) ((s.chanOf i).desc.out b).1 ((s.chanOf i).desc.out b).2 w) s

/-- A cancel that has left an engine no longer returns its count there (R65). -/
def State.forgetCancel (s : State) (t : Nat) : State :=
  let x := s.storeOf (t / 16)
  s.setStore (t / 16) { x with fifo := x.fifo.map (fun q => match q with
    | .cancel tag mask o e => .cancel tag mask o (if e = some t then none else e)
    | q => q) }

/-- An activation whose EOS or YIELD has completed in time: its drain is over (R65, R67). -/
def Engine.inTime (en : Engine) (a : Act) : Bool := (a.ending == some .eos || a.ending == some .yield_) && en.buf.isEmpty

/-- PREEMPT (R65, R66, R99, R118): the budget has ended before the activation has; one that ended in time is not preempted. A faulted
activation ends without an overrun. DESIGN CHOICE (log 84): with a load, a cancel or a store still in progress the PC reported is
that instruction's; with an EOS or YIELD still draining it is the next word's. -/
def State.preempt (s : State) (t : Nat) : State :=
  let en := s.engOf t
  match en.act with
  | none => s
  | some a =>
    if (a.used < a.budget ∧ a.ending = none ∧ en.gload = none ∧ en.cancelRd = none ∧ en.stalled = false ∧
        (a.log = none ∨ a.count < a.limit)) ∨ en.inTime a = true then s
    else if a.log.isSome ∧ a.count ≥ a.limit ∧ a.how = 3 then s.ran t 3 a
    else if a.log.isSome ∧ a.count ≥ a.limit ∧ a.how = 4 then
      (s.setChan (16 * t + a.slot) { s.chanOf (16 * t + a.slot) with bank := { (s.chanOf (16 * t + a.slot)).bank with pc := a.pc } }).ran
        t 4 a
    else
      let s := if a.log.isSome ∧ ¬ (a.count ≥ a.limit ∧ a.how = 2) then s.diverge t else s
      let i := 16 * t + a.slot
      let s1 := if en.cancelRd.isSome then s.forgetCancel t else s
      let s2 := s1.setEng t { en with buf := [], gload := none, cancelRd := none }
      let a1 := { a with used := a.budget }
      let c := s2.chanOf i
      if a.ending = some .fault then s2.ran t 3 a1
      else
        let n := c.ovrConsec + 1
        let fails := a.log.isNone && decide (n ≥ bits c.desc.mode.toNat 15 8)
        let pc := if en.gload.isSome || en.cancelRd.isSome then a.pc - 1 else a.pc
        let info : FaultInfo := ⟨9, pc % 4096, 0, (s.sectOf (t / 16)).ttick⟩
        let c1 := { c with
          ovrTotal := min (c.ovrTotal + 1) 0xFFFF, ovrConsec := min n 0xFF, preempted := true, resumed := false, first := false,
          bank := { c.bank with pc := c.entry }, unreported := if fails then some info else c.unreported }
        ((s2.setChan i c1).setFld ALLOC_IRQ_STAT_OVERRUN 1).ran t 2 a1

/-- ACTIVATION_END (R65, R67, R95, R99): the posted-write buffer has drained after `w` further cycles; the stage buffer is committed
and the bank keeps its registers. -/
def State.activationEnd (s : State) (t w : Nat) : State :=
  let en := s.engOf t
  match en.act with
  | none => s
  | some a =>
    match a.ending with
    | none => s
    | some how =>
      if en.buf ≠ [] ∨ a.used + w > a.budget then s
      else
        let i := 16 * t + a.slot
        let a1 := { a with used := a.used + w }
        if how = .fault then s.ran t 3 a1
        else if a.log.isSome ∧ ¬ (a.count = a.limit ∧ a.how = b2n (how == .yield_)) then
          (s.diverge t).setAct t (some { a with ending := none, used := a.budget })
        else
          let s1 := s.commit t a.slot a.stage
          let c := s1.chanOf i
          let y := how == .yield_
          let c1 := { c with
            ovrConsec := 0, preempted := false, resumed := y, first := false, bank := { c.bank with pc := if y then a.pc else c.entry },
            halt := if a.step then some 3 else c.halt }
          (s1.setChan i c1).ran t (b2n y) a1

/-- The wait of a global load or a CANCEL is over after `n` cycles: its register is written (R65, R88, R98), or the budget has ended
first. -/
def State.unblock (s : State) (t n : Nat) (a : Act) (g : Bank → Bank) (v : Word) : State :=
  let i := 16 * t + a.slot
  if a.used + n > a.budget then s.exhaust t a
  else
    let c := s.chanOf i
    let a1 := { a with used := a.used + n, words := a.words ++ [v], count := a.count + 1 }
    let s1 := (s.setChan i { c with bank := g c.bank }).setAct t (some a1)
    if a.step then s1.debugStop t 3 a1.pc a1 else s1

/-- CANCEL_ARM (R57, R98, R453): the oldest item of the post FIFO of sector `k` is a cancel; it removes what it hits from the armed
entries, and its count returns to the engine after `n` cycles or to TB_HRESULT. -/
def State.cancelArm (s : State) (k n : Nat) : State :=
  let x := s.storeOf k
  match x.fifo with
  | .cancel tag mask o e :: r =>
    let (s1, m) := (s.setStore k { x with fifo := r }).cancelArmed k tag mask o
    match e, o with
    | some t, _ =>
      (match (s1.engOf t).act, (s1.engOf t).cancelRd with
       | some a, some rd =>
         let s2 := s1.setEng t { s1.engOf t with cancelRd := none }
         s2.unblock t (max n (5 + s.sectUp k 8)) a (fun b => b.setVal rd (BitVec.ofNat 32 m)) (BitVec.ofNat 32 m)
       | _, _ => s1)
    | none, none => { s1 with hop := { s1.hop with done := true, result := m } }
    | none, some _ => s1
  | _ => s

/-! ## The commands -/

/-- CANCEL_ARM. -/
def execCancelArm (k : Fin 16) (n : Nat) (s : State) : Host.Outcome State Fault Refusal := done s (s.cancelArm k.val n)
/-- ACTIVATION_START. -/
def execActivationStart (t : Fin 256) (s : State) : Host.Outcome State Fault Refusal := done s (s.startNext t.val)
/-- PREEMPT. -/
def execPreempt (t : Fin 256) (s : State) : Host.Outcome State Fault Refusal := done s (s.preempt t.val)
/-- ACTIVATION_END. -/
def execActivationEnd (t : Fin 256) (w : Nat) (s : State) : Host.Outcome State Fault Refusal := done s (s.activationEnd t.val w)
/-- ILLEGAL: the word at the PC is illegal (R77). -/
def execIllegal (t : Fin 256) (s : State) : Host.Outcome State Fault Refusal := done s (s.issue t.val .illegal semNop)

/-- ADD. -/
def execAdd (t : Fin 256) (s : State) : Host.Outcome State Fault Refusal :=
  done s (s.issue t.val .add (semOf .add))
/-- SUB. -/
def execSub (t : Fin 256) (s : State) : Host.Outcome State Fault Refusal :=
  done s (s.issue t.val .sub (semOf .sub))
/-- ADDS. -/
def execAdds (t : Fin 256) (s : State) : Host.Outcome State Fault Refusal :=
  done s (s.issue t.val .adds (semOf .adds))
/-- SUBS. -/
def execSubs (t : Fin 256) (s : State) : Host.Outcome State Fault Refusal :=
  done s (s.issue t.val .subs (semOf .subs))
/-- AND. -/
def execAnd (t : Fin 256) (s : State) : Host.Outcome State Fault Refusal :=
  done s (s.issue t.val .and_ (semOf .and_))
/-- OR. -/
def execOr (t : Fin 256) (s : State) : Host.Outcome State Fault Refusal :=
  done s (s.issue t.val .or_ (semOf .or_))
/-- XOR. -/
def execXor (t : Fin 256) (s : State) : Host.Outcome State Fault Refusal :=
  done s (s.issue t.val .xor (semOf .xor))
/-- ANDN. -/
def execAndn (t : Fin 256) (s : State) : Host.Outcome State Fault Refusal :=
  done s (s.issue t.val .andn (semOf .andn))
/-- SHL. -/
def execShl (t : Fin 256) (s : State) : Host.Outcome State Fault Refusal :=
  done s (s.issue t.val .shl (semOf .shl))
/-- SHR. -/
def execShr (t : Fin 256) (s : State) : Host.Outcome State Fault Refusal :=
  done s (s.issue t.val .shr (semOf .shr))
/-- SAR. -/
def execSar (t : Fin 256) (s : State) : Host.Outcome State Fault Refusal :=
  done s (s.issue t.val .sar (semOf .sar))
/-- SHLS. -/
def execShls (t : Fin 256) (s : State) : Host.Outcome State Fault Refusal :=
  done s (s.issue t.val .shls (semOf .shls))
/-- MIN. -/
def execMin (t : Fin 256) (s : State) : Host.Outcome State Fault Refusal :=
  done s (s.issue t.val .min_ (semOf .min_))
/-- MAX. -/
def execMax (t : Fin 256) (s : State) : Host.Outcome State Fault Refusal :=
  done s (s.issue t.val .max_ (semOf .max_))
/-- ABS. -/
def execAbs (t : Fin 256) (s : State) : Host.Outcome State Fault Refusal :=
  done s (s.issue t.val .abs (semOf .abs))
/-- NEG. -/
def execNeg (t : Fin 256) (s : State) : Host.Outcome State Fault Refusal :=
  done s (s.issue t.val .neg (semOf .neg))
/-- MULQ31. -/
def execMulq31 (t : Fin 256) (s : State) : Host.Outcome State Fault Refusal :=
  done s (s.issue t.val .mulq31 (semOf .mulq31))
/-- MULQ16. -/
def execMulq16 (t : Fin 256) (s : State) : Host.Outcome State Fault Refusal :=
  done s (s.issue t.val .mulq16 (semOf .mulq16))
/-- MUL. -/
def execMul (t : Fin 256) (s : State) : Host.Outcome State Fault Refusal :=
  done s (s.issue t.val .mul (semOf .mul))
/-- CLAMP. -/
def execClamp (t : Fin 256) (s : State) : Host.Outcome State Fault Refusal :=
  done s (s.issue t.val .clamp (semOf .clamp))
/-- MAC. -/
def execMac (t : Fin 256) (s : State) : Host.Outcome State Fault Refusal :=
  done s (s.issue t.val .mac (semOf .mac))
/-- MSU. -/
def execMsu (t : Fin 256) (s : State) : Host.Outcome State Fault Refusal :=
  done s (s.issue t.val .msu (semOf .msu))
/-- MPY. -/
def execMpy (t : Fin 256) (s : State) : Host.Outcome State Fault Refusal :=
  done s (s.issue t.val .mpy (semOf .mpy))
/-- RDA. -/
def execRda (t : Fin 256) (s : State) : Host.Outcome State Fault Refusal :=
  done s (s.issue t.val .rda (semOf .rda))
/-- WRA. -/
def execWra (t : Fin 256) (s : State) : Host.Outcome State Fault Refusal :=
  done s (s.issue t.val .wra (semOf .wra))
/-- CLRA. -/
def execClra (t : Fin 256) (s : State) : Host.Outcome State Fault Refusal :=
  done s (s.issue t.val .clra (semOf .clra))
/-- ADDA. -/
def execAdda (t : Fin 256) (s : State) : Host.Outcome State Fault Refusal :=
  done s (s.issue t.val .adda (semOf .adda))
/-- EQ. -/
def execEq (t : Fin 256) (s : State) : Host.Outcome State Fault Refusal :=
  done s (s.issue t.val .eq (semOf .eq))
/-- NE. -/
def execNe (t : Fin 256) (s : State) : Host.Outcome State Fault Refusal :=
  done s (s.issue t.val .ne (semOf .ne))
/-- LT. -/
def execLt (t : Fin 256) (s : State) : Host.Outcome State Fault Refusal :=
  done s (s.issue t.val .lt (semOf .lt))
/-- LE. -/
def execLe (t : Fin 256) (s : State) : Host.Outcome State Fault Refusal :=
  done s (s.issue t.val .le (semOf .le))
/-- LTU. -/
def execLtu (t : Fin 256) (s : State) : Host.Outcome State Fault Refusal :=
  done s (s.issue t.val .ltu (semOf .ltu))
/-- LEU. -/
def execLeu (t : Fin 256) (s : State) : Host.Outcome State Fault Refusal :=
  done s (s.issue t.val .leu (semOf .leu))
/-- TST. -/
def execTst (t : Fin 256) (s : State) : Host.Outcome State Fault Refusal :=
  done s (s.issue t.val .tst (semOf .tst))
/-- SEL. -/
def execSel (t : Fin 256) (s : State) : Host.Outcome State Fault Refusal :=
  done s (s.issue t.val .sel (semOf .sel))
/-- ADDI. -/
def execAddi (t : Fin 256) (s : State) : Host.Outcome State Fault Refusal :=
  done s (s.issue t.val .addi (semOf .addi))
/-- ADDSI. -/
def execAddsi (t : Fin 256) (s : State) : Host.Outcome State Fault Refusal :=
  done s (s.issue t.val .addsi (semOf .addsi))
/-- ANDI. -/
def execAndi (t : Fin 256) (s : State) : Host.Outcome State Fault Refusal :=
  done s (s.issue t.val .andi (semOf .andi))
/-- ORI. -/
def execOri (t : Fin 256) (s : State) : Host.Outcome State Fault Refusal :=
  done s (s.issue t.val .ori (semOf .ori))
/-- XORI. -/
def execXori (t : Fin 256) (s : State) : Host.Outcome State Fault Refusal :=
  done s (s.issue t.val .xori (semOf .xori))
/-- SHI. -/
def execShi (t : Fin 256) (s : State) : Host.Outcome State Fault Refusal :=
  done s (s.issue t.val .shi (semOf .shi))
/-- CMPI. -/
def execCmpi (t : Fin 256) (s : State) : Host.Outcome State Fault Refusal :=
  done s (s.issue t.val .cmpi (semOf .cmpi))
/-- BR. -/
def execBr (t : Fin 256) (s : State) : Host.Outcome State Fault Refusal :=
  done s (s.issue t.val .br (semOf .br))
/-- DBNZ. -/
def execDbnz (t : Fin 256) (s : State) : Host.Outcome State Fault Refusal :=
  done s (s.issue t.val .dbnz (semOf .dbnz))
/-- LI. -/
def execLi (t : Fin 256) (s : State) : Host.Outcome State Fault Refusal :=
  done s (s.issue t.val .li (semOf .li))
/-- LUI. -/
def execLui (t : Fin 256) (s : State) : Host.Outcome State Fault Refusal :=
  done s (s.issue t.val .lui (semOf .lui))
/-- JMP. -/
def execJmp (t : Fin 256) (s : State) : Host.Outcome State Fault Refusal :=
  done s (s.issue t.val .jmp (semOf .jmp))
/-- CALL. -/
def execCall (t : Fin 256) (s : State) : Host.Outcome State Fault Refusal :=
  done s (s.issue t.val .call (semOf .call))
/-- LD. -/
def execLd (t : Fin 256) (w : PortWait) (s : State) : Host.Outcome State Fault Refusal :=
  done s (s.issue t.val .ld (semLd w))
/-- ST. -/
def execSt (t : Fin 256) (w : PortWait) (s : State) : Host.Outcome State Fault Refusal :=
  done s (s.issue t.val .st (semSt w))
/-- NOP. -/
def execNop (t : Fin 256) (s : State) : Host.Outcome State Fault Refusal :=
  done s (s.issue t.val .nop (semOf .nop))
/-- EOS. -/
def execEos (t : Fin 256) (s : State) : Host.Outcome State Fault Refusal :=
  done s (s.issue t.val .eos (semOf .eos))
/-- YIELD. -/
def execYield (t : Fin 256) (s : State) : Host.Outcome State Fault Refusal :=
  done s (s.issue t.val .yield_ (semOf .yield_))
/-- BRK. -/
def execBrk (t : Fin 256) (s : State) : Host.Outcome State Fault Refusal :=
  done s (s.issue t.val .brk (semOf .brk))
/-- JR. -/
def execJr (t : Fin 256) (s : State) : Host.Outcome State Fault Refusal :=
  done s (s.issue t.val .jr (semOf .jr))
/-- MFS. -/
def execMfs (t : Fin 256) (s : State) : Host.Outcome State Fault Refusal :=
  done s (s.issue t.val .mfs (semOf .mfs))
/-- MTS. -/
def execMts (t : Fin 256) (s : State) : Host.Outcome State Fault Refusal :=
  done s (s.issue t.val .mts (semOf .mts))
/-- ADDP. -/
def execAddp (t : Fin 256) (s : State) : Host.Outcome State Fault Refusal :=
  done s (s.issue t.val .addp (semOf .addp))
/-- RDIN. -/
def execRdin (t : Fin 256) (s : State) : Host.Outcome State Fault Refusal :=
  done s (s.issue t.val .rdin (semOf .rdin))
/-- RDINT. -/
def execRdint (t : Fin 256) (s : State) : Host.Outcome State Fault Refusal :=
  done s (s.issue t.val .rdint (semOf .rdint))
/-- STOUT. -/
def execStout (t : Fin 256) (s : State) : Host.Outcome State Fault Refusal :=
  done s (s.issue t.val .stout (semOf .stout))
/-- POST. -/
def execPost (t : Fin 256) (w : Nat) (s : State) : Host.Outcome State Fault Refusal :=
  done s (s.issue t.val .post (semPost w))
/-- CANCEL. -/
def execCancel (t : SlotWait) (s : State) : Host.Outcome State Fault Refusal :=
  done s (s.issue t.t.val .cancel (semCancel t.w))
/-- LUT. -/
def execLut (t : Fin 256) (s : State) : Host.Outcome State Fault Refusal :=
  done s (s.issue t.val .lut (semOf .lut))
/-- RCPS. -/
def execRcps (t : Fin 256) (s : State) : Host.Outcome State Fault Refusal :=
  done s (s.issue t.val .rcps (semOf .rcps))
/-- SQRS. -/
def execSqrs (t : Fin 256) (s : State) : Host.Outcome State Fault Refusal :=
  done s (s.issue t.val .sqrs (semOf .sqrs))

end Sys2Proof.Machine
end

