-- ==== Sys2Proof/Machine/Alloc.lean ====
section
/-! DEFINITION. The allocator: handles, request buffers, requests, the life of a channel, faults and release values, and the layout
of a tick (R101 to R123). -/

namespace Sys2Proof.Machine

/-! ## Handles (R101 to R104) -/

/-- The handle of slot `i` = 16·t + k with generation `gen` (R101, R102). -/
def handleOf (i gen : Nat) : Nat :=
  let h := gen % 4096 * 4096 + i
  h + 2 ^ 24 * (bits h 23 16 ^^^ bits h 15 8 ^^^ bits h 7 0 ^^^ 0x5A)

/-- The handle of the channel in slot `i`. -/
def State.handle (s : State) (i : Nat) : Nat := handleOf i (s.chanOf i).gen

/-- Whether LE[t] exists on the member (R27). -/
def State.present (s : State) (t : Nat) : Bool := decide (t / 16 < s.fld SYS_CONFIG_SECTORS)

/-- The check of a handle (R104): 0 good, 5 BADHANDLE, 6 STALE. -/
def State.checkHandle (s : State) (h : Nat) : Nat :=
  let i := h % 4096
  if handleOf i (bits h 23 12) ≠ h then 5
  else if s.present (i / 16) = false then 5
  else if (s.chanOf i).st = .free ∨ (s.chanOf i).gen ≠ bits h 23 12 then 6
  else 0

/-! ## Times and sessions -/

/-- The first tick whose edge lies at least 200 SYS_CLK cycles ahead: 200 cycles of SYS_CLK are 200 of TB_CLK (R107, R119). -/
def State.effTick (s : State) : BitVec 48 :=
  let len := max 1 (s.fld TB_TICKLEN_CYCLES)
  let ahead := (s.tb.now + 200 - s.tb.edge).toNat
  s.tb.tick + BitVec.ofNat 48 (max 1 ((ahead + len - 1) / len))

/-- A session is open: OPEN, CHECKING, CHECKED or PENDING (R108, R233). -/
def State.session (s : State) : Bool := decide (1 ≤ s.fld ATTAR_STAT_STATE ∧ s.fld ATTAR_STAT_STATE ≤ 4)

/-- Whether an event number is reserved (R32). -/
def eventReserved (e : Nat) : Bool :=
  !(decide (e < 0x125) || (decide (0x128 ≤ e) && decide (e < 0x131)) || (decide (0x140 ≤ e) && decide (e < 0x160)) || e == 0x1FF)

/-! ## Descriptors -/

/-- The descriptor in a request buffer (R109). -/
def State.readDesc (s : State) (b : Nat) : Desc :=
  ⟨s.reg (ALLOC_RB_SCHED_at b), s.reg (ALLOC_RB_MODE_at b), s.reg (ALLOC_RB_BUDGET_at b), s.reg (ALLOC_RB_TRIGGER_at b),
    s.reg (ALLOC_RB_START_at b), s.reg (ALLOC_RB_STATE_at b), (List.range 4).map (fun i => s.reg (ALLOC_RB_IN_at b i)),
    (List.range 4).map (fun i => s.reg (ALLOC_RB_OUT_at b i)), (List.range 8).map (fun i => s.reg (ALLOC_RB_RELEASE_at b i))⟩

/-- The words of a descriptor from SCHED on. -/
def Desc.words (d : Desc) : List Nat :=
  ([d.sched, d.mode, d.budget, d.trigger, d.start, d.stateW] ++ d.ins ++ d.outs ++ d.rel).map BitVec.toNat

/-- Fields of a descriptor word. -/
def Desc.event (d : Desc) : Nat := bits d.trigger.toNat 8 0
/-- B. -/
def Desc.b (d : Desc) : Nat := bits d.budget.toNat 18 0
/-- NOTE. -/
def Desc.note (d : Desc) : Nat := bits d.mode.toNat 1 0
/-- GATED. -/
def Desc.gated (d : Desc) : Bool := d.mode.toNat.testBit 2
/-- PERIOD in ticks. -/
def Desc.period (d : Desc) : Nat := bits d.sched.toNat 23 16 + 1
/-- PHASE in ticks. -/
def Desc.phase (d : Desc) : Nat := bits d.sched.toNat 31 24

/-- The byte offset of the first word with a reserved field set or a field out of range, PLACE and PSIZE only for CREATE (R109,
R110). -/
def badField (create : Bool) (place : Word) (d : Desc) : Option Nat :=
  if create ∧ bits place.toNat 31 13 ≠ 0 then some 0x0C
  else if bits d.sched.toNat 15 12 ≠ 0 ∨ d.phase ≥ d.period then some 0x10
  else if bits d.mode.toNat 31 16 ≠ 0 ∨ bits d.mode.toNat 7 4 ≠ 0 ∨ bits d.mode.toNat 15 8 = 0 ∨ d.note = 3 then some 0x14
  else if bits d.budget.toNat 31 19 ≠ 0 then some 0x18
  else if bits d.trigger.toNat 31 9 ≠ 0 then some 0x1C
  else if bits d.stateW.toNat 31 7 ≠ 0 ∨ (create ∧ bits d.stateW.toNat 6 0 > 64) then some 0x24
  else none

/-! ## Bindings (R111) -/

/-- Whether an input binding of LE[t] names a resource in range. -/
def inputOk (sect kind n : Nat) : Bool :=
  match kind with
  | 0 => n == 0
  | 1 => decide (n < 512) && n / 16 / 2 == sect
  | 2 => n / 4 == sect
  | 3 => n / 2 == sect
  | 4 => decide (n < 8)
  | 5 => decide (n < 2)
  | 6 => decide (n < 352)
  | _ => false

/-- Whether an action range is well formed (R111). -/
def rangeOk (r : Nat) : Bool :=
  bits r 15 14 == 0 && decide (bits r 13 0 ≤ bits r 29 16) &&
    (bits r 31 30 == 1 || (bits r 31 30 == 0 && decide (bits r 29 16 < 352)))

/-- Whether an output binding of LE[t] names a resource in range; the range of kind 4 is checked with its release value. -/
def outputOk (sect kind n : Nat) (rel : Word) : Bool :=
  match kind with
  | 0 => n == 0
  | 1 => n / 2 == sect
  | 2 => decide (n < 16)
  | 3 => decide (n < 352)
  | 4 => n == 0 && rangeOk rel.toNat
  | _ => false

/-- Whether two action ranges overlap. -/
def rangesMeet (r q : Nat) : Bool :=
  bits r 31 30 == bits q 31 30 && decide (bits r 13 0 ≤ bits q 29 16) && decide (bits q 13 0 ≤ bits r 29 16)

/-- An exclusive resource claimed by a binding (R111): captures and PWM with their sector, DACs, CH_OUT and action ranges. -/
inductive Claim
  | cap (sect n : Nat) | dac (n : Nat) | pwm (sect n : Nat) | chOut (n : Nat) | range (r : Nat)
deriving DecidableEq, Repr

/-- Whether two claims meet. -/
def Claim.meets : Claim → Claim → Bool
  | .range r, .range q => rangesMeet r q
  | a, b => a == b

/-- The claims of a descriptor on a sector with the byte offset of the word that makes each, inputs first. -/
def Desc.claims (d : Desc) (sect : Nat) : List (Nat × Claim) :=
  (List.range 8).filterMap (fun b => if (d.inp b).1 = 4 then some (0x28 + 4 * (b / 2), Claim.cap sect (d.inp b).2) else none) ++
  (List.range 8).filterMap (fun b =>
    let o := 0x38 + 4 * (b / 2)
    match (d.out b).1 with
    | 1 => some (o, Claim.dac (d.out b).2)
    | 2 => some (o, Claim.pwm sect (d.out b).2)
    | 3 => some (o, Claim.chOut (d.out b).2)
    | 4 => some (o, Claim.range (d.release b).toNat)
    | _ => none)

/-- The first claim of a list that an earlier one meets. -/
def dupClaim : List (Nat × Claim) → List (Nat × Claim) → Option Nat
  | _, [] => none
  | seen, (o, c) :: r => if seen.any (fun p => p.2.meets c) then some o else dupClaim (seen ++ [(o, c)]) r

/-- The byte offset of the first word whose binding fails R111. DESIGN CHOICE (log 91): an ill-formed or conflicting action range
names the OUT word, not the RELEASE word, and a resource named twice the later word; R109 and R110 do not say which. -/
def badBinding (sect : Nat) (d : Desc) : Option Nat :=
  let ins := (List.range 8).filterMap (fun b => if inputOk sect (d.inp b).1 (d.inp b).2 then none else some (0x28 + 4 * (b / 2)))
  let outs := (List.range 8).filterMap (fun b =>
    if outputOk sect (d.out b).1 (d.out b).2 (d.release b) then none else some (0x38 + 4 * (b / 2)))
  match ins ++ outs ++ (dupClaim [] (d.claims sect)).toList with
  | [] => none
  | o :: r => some (r.foldl min o)

/-- The claims of every channel but that of slot `i`, with its slot; a pending change claims too (R111, R112). -/
def State.otherClaims (s : State) (i : Nat) : List (Nat × Claim) :=
  s.chans.flatMap (fun p =>
    if p.1 = i ∨ p.2.st = .free then []
    else ((p.2.desc.claims (p.1 / 256)) ++ p.2.mods.flatMap (fun x => x.2.claims (p.1 / 256))).map (fun q => (p.1, q.2)))

/-- The byte offset of the first binding of a descriptor that conflicts with another channel, with that channel's slot. -/
def State.conflict (s : State) (i : Nat) (d : Desc) : Option (Nat × Nat) :=
  let others := s.otherClaims i
  (d.claims (i / 256)).findSome? (fun q => (others.find? (fun o => o.2.meets q.2)).map (fun o => (q.1, o.1)))

/-! ## Admission (R116) -/

/-- Whether a state counts in the load table. -/
def ChanState.admitted : ChanState → Bool
  | .staged => true | .starting => true | .running => true | .stopping => true
  | _ => false

/-- What a descriptor adds to L[r]. -/
def Desc.load (d : Desc) (r : Nat) : Nat :=
  if d.note ≤ 1 ∧ r % Nat.gcd d.period 256 = d.phase % Nat.gcd d.period 256 then d.b else 0

/-- The settings that a channel will have once every accepted change is in force (R107, R116). -/
def Chan.next (c : Chan) : Desc := (c.mods.getLast?.map (·.2)).getD c.desc

/-- L[r] of LE[t] with slot `i` replaced by a descriptor, if one is given. -/
def State.loadAt (s : State) (t r : Nat) (sub : Option (Nat × Desc)) : Nat :=
  (List.range 16).foldl (fun n k =>
    let i := 16 * t + k
    let c := s.chanOf i
    n + (match sub with
      | some (j, d) => if i = j then d.load r else if c.st.admitted then c.next.load r else 0
      | none => if c.st.admitted then c.next.load r else 0)) 0

/-- The peak of L, which ALLOC_ENGLOAD reads. -/
def State.peakLoad (s : State) (t : Nat) (sub : Option (Nat × Desc)) : Nat :=
  (List.range 256).foldl (fun m r => max m (s.loadAt t r sub)) 0

/-- Lim_s: 92 % of C_s. -/
def limitOf (c : Nat) : Nat := 23 * c / 25

/-! ## The checks of R110 from BADFIELD on -/

/-- The code and FIELD of a descriptor on slot `i`, from BADBUDGET on; 0 where it is admissible. -/
def State.checkDesc (s : State) (i : Nat) (d : Desc) : Nat × Nat :=
  let t := i / 16
  let c := s.tickCycles (t / 16)
  if d.b = 0 ∨ (d.note = 2 ∧ 2 + d.b + s.fld ALLOC_CFG_ISTRES > c) then (0x0E, 0)
  else if eventReserved d.event ∨ (d.gated = true ∧ d.event = 0x1FF) then (0x0F, 0)
  else match badBinding (t / 16) d with
  | some o => (0x10, o)
  | none =>
    match s.conflict i d with
    | some (o, _) => (0x11, o)
    | none => if d.note ≤ 1 ∧ s.peakLoad t (some (i, d)) > limitOf c then (0x12, 0) else (0, 0)

/-- The slot that a CREATE takes: the one requested, or the lowest FREE one (R109). -/
def State.pickSlot (s : State) (place : Nat) : Option Nat :=
  let t := bits place 7 0
  if place.testBit 12 then ((List.range 16).find? (fun k => (s.slotOf t k).st == .free)).map (16 * t + ·)
  else if (s.slotOf t (bits place 11 8)).st = .free then some (16 * t + bits place 11 8) else none

/-- START as a full tick number, where it is not before the effective tick (R110, R112). -/
def startTick (e : BitVec 48) (start : Word) : Option (BitVec 48) :=
  let d := start - e.setWidth 32
  if start = 0 then some e else if d.toNat ≥ 2 ^ 31 then none else some (e + d.setWidth 48)

/-- The code and FIELD of a request, in the order of R110. DESIGN CHOICE (log 91): HELD is judged by the bit of ALLOC_ENGHOLD, so a
CREATE that is judged between the write of 0 and the boundary that releases the engine is accepted. -/
def State.judge (s : State) (q : Request) : Nat × Nat :=
  let place := (s.reg (ALLOC_RB_PLACE_at q.buf)).toNat
  let d := s.readDesc q.buf
  let st := s.fld ATTAR_STAT_STATE
  let named := q.op = 2 ∧ s.checkHandle place = 0 ∧ s.attar.reqs.any (fun r => r.slot == place % 4096)
  let t := bits place 7 0
  if q.op = 0 ∨ q.op > 4 then (0x01, 0)
  else if s.noService ∧ q.op ≠ 4 then (0x02, 0)
  else if q.op ≠ 4 ∧ q.staged = false ∧ s.session = true ∧ (q.op = 1 ∨ q.op = 3 ∨ named) then (0x03, 0)
  else if q.op ≠ 4 ∧ q.staged = true ∧ (s.session = false ∨ st = 4) then (0x04, 0)
  else if q.op ≠ 1 ∧ s.checkHandle place ≠ 0 then (s.checkHandle place, 0)
  else
    let c := s.chanOf (place % 4096)
    if q.op = 3 ∧ c.st ≠ .starting ∧ c.st ≠ .running then (0x07, 0)
    else if q.op = 2 ∨ q.op = 4 then (0, 0)
    else match badField (q.op == 1) (BitVec.ofNat 32 place) d with
    | some o => (0x08, o)
    | none =>
      if q.op = 1 then
        if s.present t = false then (0x09, 0)
        else if s.fbit (ALLOC_ENGHOLD_HOLD (t / 32)) (t % 32) then (0x0A, 0)
        else if s.tileHeld t then (0x0B, 0)
        else match s.pickSlot place with
        | none => (if place.testBit 12 then 0x0D else 0x0C, 0)
        | some i =>
          match s.checkDesc i d with
          | (0, _) => if q.staged = false ∧ startTick s.effTick d.start = none then (0x13, 0) else (0, 0)
          | r => r
      else if s.tileHeld (place % 4096 / 16) then (0x0B, 0)
      else s.checkDesc (place % 4096) d

/-! ## The life of a channel (R112) -/

/-- The code of a state (R112). -/
def ChanState.code : ChanState → Nat
  | .free => 0 | .staged => 1 | .starting => 2 | .running => 3 | .stopping => 4 | .faulted => 5

/-- What an ALLOC packet tells of a slot (R301): its number, state, generation and effective tick, and the words of its latest settings. -/
def Chan.told (c : Chan) (i : Nat) (now : BitVec 48) : List Nat :=
  [i, c.st.code, c.gen] ++
    twoWords ((c.startTick <|> c.stopTick <|> c.releaseTick <|> (c.mods.getLast?.map (·.1))).getD now).toNat ++
    ((c.mods.getLast?.map (·.2)).getD c.desc).words

/-- The slot takes a new state, and a primary tells its partner (R301 ALLOC). -/
def State.setSlot (s : State) (i : Nat) (c : Chan) : State := (s.setChan i c).toPartner "ALLOC" (c.told i s.tb.tick)

/-- The generation after the slot returns to FREE (R103). -/
def nextGen (g : Nat) : Nat := if g ≥ 0xFFF then 1 else g + 1

/-- A slot returns to FREE. DESIGN CHOICE (log 91): a report of a fault still on its way is gone with the channel; R121 is silent on a
report that arrives at a FREE slot. -/
def State.freeSlot (s : State) (i : Nat) : State :=
  s.setSlot i { chanReset with gen := nextGen (s.chanOf i).gen }

/-- A new channel in a slot (R68, R112). -/
def newChan (gen : Nat) (d : Desc) (st : ChanState) : Chan :=
  { chanReset with st := st, gen := gen, desc := d, bank := bankReset (bits d.sched.toNat 11 0) }

/-- The descriptor after a MODIFY: ENTRY, WINIT and PSIZE keep their values (R109). -/
def Desc.modified (old new : Desc) : Desc :=
  { new with
    sched := (new.sched &&& 0xFFFFF000) ||| (old.sched &&& 0xFFF), mode := (new.mode &&& 0xFFFFFFF7) ||| (old.mode &&& 8)
    stateW := (new.stateW &&& 0xFFFFFF80) ||| (old.stateW &&& 0x7F) }

/-- Zeroes the private window of slot `i` (R109 WINIT); the writes are mirrored, whoever makes them (R303). -/
def State.clearWindow (s : State) (i : Nat) : State :=
  (List.range 64).foldl (fun s j =>
    let a := 0x20000000 + i / 16 * 0x4000 + i % 16 * 0x100 + 4 * j
    (s.writeWord a 0).toPartner "WRITE" [a, 4, 0]) s

/-- A staged request joins the session (R108, R238). -/
def State.stage (s : State) (op i : Nat) (d : Desc) : State :=
  let q : StagedReq := ⟨op, i, d⟩
  let s1 : State := { s with attar := { s.attar with reqs := s.attar.reqs ++ [q] } }
  (s1.toPartner "SESSION" ([2, op, i] ++ d.words)).invalidate

/-- CREATE on a slot that is FREE. Answers RESULT and TICK. -/
def State.create (s : State) (i : Nat) (d : Desc) (staged : Bool) : State × Nat × Nat :=
  let gen := (s.chanOf i).gen
  let s1 := if d.mode.toNat.testBit 3 then s.clearWindow i else s
  if staged then ((s1.setSlot i (newChan gen d .staged)).stage 1 i d, handleOf i gen, 0)
  else
    let e := (startTick s.effTick d.start).getD s.effTick
    (s1.setSlot i { newChan gen d .starting with startTick := some e }, handleOf i gen, e.toNat % 2 ^ 32)

/-- DESTROY of a channel. Answers TICK; a second one has no further effect (R110). -/
def State.destroy (s : State) (i : Nat) (staged : Bool) : State × Nat :=
  let c := s.chanOf i
  if staged then (s.stage 2 i c.desc, 0)
  else if c.st = .stopping then (s, (c.stopTick.getD 0).toNat % 2 ^ 32)
  else
    let e := s.effTick
    (s.setSlot i { c with st := .stopping, stopTick := some e, stop := none, kept := [], resume := none }, e.toNat % 2 ^ 32)

/-- MODIFY of a channel: the new settings join the changes that wait for their ticks (R107). Answers TICK. -/
def State.modify (s : State) (i : Nat) (d : Desc) (staged : Bool) : State × Nat :=
  let c := s.chanOf i
  let d1 := c.desc.modified d
  if staged then (s.stage 3 i d1, 0)
  else (s.setSlot i { c with mods := c.mods ++ [(s.effTick, d1)] }, s.effTick.toNat % 2 ^ 32)

/-- QUERY writes the state word and the Q words (R109). -/
def State.query (s : State) (b i : Nat) : State × Nat :=
  let c := s.chanOf i
  let off := ((s.engOf (i / 16)).layout.find? (fun x => x.slot == i % 16)).map (fun x => x.offset)
  let s1 := (s.setFld (ALLOC_RB_QOVR_OVR_TOTAL b) c.ovrTotal).setFld (ALLOC_RB_QOVR_OVR_CONSEC b) c.ovrConsec
  let s2 := match c.fault with
    | some f => (((s1.setFld (ALLOC_RB_QFAULT_VALID b) 1).setFld (ALLOC_RB_QFAULT_PC b) f.pc).setFld (ALLOC_RB_QFAULT_CAUSE b)
        f.cause).setFld (ALLOC_RB_QADDR_ADDR b) f.addr.toNat
    | none => (s1.setReg (ALLOC_RB_QFAULT_at b) 0).setFld (ALLOC_RB_QADDR_ADDR b) 0
  let base := c.note == 2
  let s3 := ((s2.setFld (ALLOC_RB_QSLICE_OFFSET b) (off.getD 0x7FFFF)).setFld (ALLOC_RB_QDEFER_MISSED b)
    (if base then c.missed else 0)).setFld (ALLOC_RB_QDEFER_DEFERRED b) (if base then c.deferred else 0)
  (s3, c.st.code + 16 * c.note + 64 * b2n c.gated)

/-- An accepted request is performed (R108, R112): RESULT and TICK. -/
def State.perform (s : State) (q : Request) : State × Nat × Nat :=
  let place := (s.reg (ALLOC_RB_PLACE_at q.buf)).toNat
  let i := place % 4096
  match q.op with
  | 1 => match s.pickSlot place with
    | some j => s.create j (s.readDesc q.buf) q.staged
    | none => (s, 0, 0)
  | 2 => ((s.destroy i q.staged).1, 0, (s.destroy i q.staged).2)
  | 3 => ((s.modify i (s.readDesc q.buf) q.staged).1, 0, (s.modify i (s.readDesc q.buf) q.staged).2)
  | _ => ((s.query q.buf i).1, (s.query q.buf i).2, 0)

/-! ## Request buffers (R105, R106) -/

/-- The buffer is freed. -/
def State.freeBuffer (s : State) (b : Nat) : State :=
  (s.setFld (ALLOC_RB_CMD_OWNED b) 0).setFld (ALLOC_RB_CMD_OWNER b) 0

/-- A release by the owner or the host: held while a request is pending. -/
def State.releaseBuffer (s : State) (b : Nat) : State :=
  if s.fb (ALLOC_RB_CMD_PEND b) then { s with rb := tset false s.rb b true } else s.freeBuffer b

/-- REQUEST_DONE (R106): the request at the head is checked and performed, and its results appear on one edge. -/
def State.requestDone (s : State) : State :=
  match s.aq with
  | [] => s
  | q :: r =>
    let s0 := { s with aq := r }
    let (code, field) := s0.judge q
    let (s1, res, tick) := if code = 0 then s0.perform q else (s0, 0, 0)
    let b := q.buf
    let s2 := (((s1.setFld (ALLOC_RB_CMD_CODE b) code).setFld (ALLOC_RB_CMD_FIELD b) field).setFld (ALLOC_RB_RESULT_RESULT b)
      res).setFld (ALLOC_RB_TICK_TICK b) tick
    let s3 := (s2.setFld (ALLOC_RB_CMD_DONE b) 1).setFld (ALLOC_RB_CMD_PEND b) 0
    if tget false s3.rb b then (({ s3 with rb := tset false s3.rb b false }).freeBuffer b).offBit ALLOC_RBFREE_FREE b else s3

/-- Whether the requester owns the buffer. -/
def State.owns (s : State) (req b : Nat) : Bool := s.fb (ALLOC_RB_CMD_OWNED b) && s.fld (ALLOC_RB_CMD_OWNER b) == req

/-- A write to a buffer other than CLAIM is turned away: not the owner, or a request pending (R105, R106). -/
def State.turnAway (s : State) (req b : Nat) : State :=
  let s1 := if s.owns req b then s else s.setFld ALLOC_STATUS_FOREIGN 1
  if s.fb (ALLOC_RB_CMD_PEND b) then s1.setFld ALLOC_STATUS_REENTRY 1 else s1

/-- A write of ALLOC_RB_CMD[b] (R105, R106, R109). -/
def State.rbCmd (s : State) (req b op : Nat) (staged : Bool) : State :=
  if op = 0xE then
    if s.fb (ALLOC_RB_CMD_PEND b) then s.setFld ALLOC_STATUS_REENTRY 1
    else if s.fb (ALLOC_RB_CMD_OWNED b) then s
    else (s.setFld (ALLOC_RB_CMD_OWNED b) 1).setFld (ALLOC_RB_CMD_OWNER b) req
  else if s.owns req b = false then s.turnAway req b
  else if op = 0xF then s.releaseBuffer b
  else if s.fb (ALLOC_RB_CMD_PEND b) then s.turnAway req b
  else { (s.setFld (ALLOC_RB_CMD_DONE b) 0).setFld (ALLOC_RB_CMD_PEND b) 1 with aq := s.aq ++ [⟨b, op, staged⟩] }

/-- A write of a descriptor word of RB[b]. -/
def State.rbWrite (s : State) (req b a : Nat) (v : Word) : State :=
  if s.owns req b = false ∨ s.fb (ALLOC_RB_CMD_PEND b) = true then s.turnAway req b else s.setReg a v

/-! ## Faults and releases (R118 to R121) -/

/-- A channel faults as the allocator sees it (R112, R119): the log, the interrupt, the Sillage record, and the way to FAULTED.
`at_` is the release tick. -/
def State.takeFault (s : State) (i : Nat) (f : FaultInfo) (at_ : BitVec 48) : State :=
  let c := s.chanOf i
  let h := s.handle i
  let s1 := if s.flog.length ≥ 16 then s.setFld ALLOC_IRQ_STAT_FLOST 1
    else { s with flog := s.flog ++ [⟨BitVec.ofNat 32 h, f⟩] }
  let total := if s.flog.length ≥ 16 ∧ f.cause ≠ 9 then min (c.ovrTotal + 1) 0xFFFF else c.ovrTotal
  let s2 := (s1.setFld ALLOC_IRQ_STAT_FAULT 1).trace 4 s.stamp (BitVec.ofNat 32 (f.pc * 256 + f.cause)) (BitVec.ofNat 32 h) f.addr
  let c1 := { c with ovrTotal := total, fault := some f, unreported := none }
  if c.st = .stopping then s2.setChan i c1
  else s2.setSlot i { c1 with st := .faulted, mods := [], releaseTick := some at_, stop := none, kept := [] }

/-- FAULT_REPORT (R119): the report of slot `k` of LE[t] reaches the allocator. -/
def State.faultReport (s : State) (t k : Nat) : State :=
  let i := 16 * t + k
  match (s.chanOf i).unreported with
  | some f => s.takeFault i f s.effTick
  | none => s

/-- A release value takes effect (R120): a pin is driven from the boundary of PIN_CLK, at once where that has come; 0b11 holds. -/
def State.releaseOut (s : State) (k kind n : Nat) (w : Word) : State :=
  match kind with
  | 1 => s.dacRelease n w
  | 3 =>
    if tget 0 s.tickCopy (Domain.num .pin) = s.tb.tick then s.setChOut n (bits w.toNat 1 0)
    else { s with pinRel := tset 0 s.pinRel n (bits w.toNat 1 0 + 1) }
  | _ => s.drive k kind n w

/-- The release of a channel (R58, R95, R119, R120): release values, deferred entries discarded, actions cancelled; once only. -/
def State.releaseChan (s : State) (i : Nat) : State :=
  let c := s.chanOf i
  if c.released then s
  else
    let k := i / 256
    let s1 := (List.range 8).foldl (fun s b => s.releaseOut k (c.desc.out b).1 (c.desc.out b).2 (c.desc.release b)) s
    let s2 := (s1.cancelOwned k (i % 256)).setChan i { c with defOut := [], released := true, releaseTick := none }
    { s2 with pinDef := s2.pinDef.filter (fun p => p.1 / 8 != i) }

/-- Whether a tick has come. -/
def tickCome (n : BitVec 48) (o : Option (BitVec 48)) : Bool :=
  match o with | some m => decide (m.toNat ≤ n.toNat) | none => false

/-- Whether a release of the channel is due at a tick: a stop's or a fault's (R112, R119). -/
def Chan.releases (c : Chan) (n : BitVec 48) : Bool := (c.st == .stopping && tickCome n c.stopTick) || tickCome n c.releaseTick

/-- The releases that are due at a tick for slot `i`: a fault's, and a stop's, which also frees the slot (R112, R119). -/
def State.releaseDue (s : State) (i : Nat) (n : BitVec 48) : State :=
  let c := s.chanOf i
  if c.st = .stopping ∧ tickCome n c.stopTick then (s.releaseChan i).freeSlot i
  else if tickCome n c.releaseTick then s.releaseChan i else s

/-- The boundary of PIN_CLK for the outputs of channels (R95, R120): deferred entries committed before it, in their order, but those
of a channel whose release is due, then the release values. -/
def State.pinOutputs (s : State) : State :=
  let n := s.tb.tick
  let due (p : Nat × Word × BitVec 48 × Nat) : Bool := decide (p.2.2.1.toNat < n.toNat) && !(s.chanOf (p.1 / 8)).releases n
  let s1 := (s.pinDef.filter due).foldl (fun s p => s.setChOut p.2.2.2 (bits p.2.1.toNat 1 0)) s
  let s2 := s.pinRel.foldl (fun s p => s.setChOut p.1 (p.2 - 1)) s1
  { s2 with pinDef := s.pinDef.filter (fun p => !due p), pinRel := [] }

/-! ## The tick on one engine (R113 to R115) -/

/-- The changes that have fallen due by tick `n`, oldest first, in force (R107, R112). -/
def Chan.takeMods (c : Chan) (n : BitVec 48) : Chan :=
  let due := c.mods.filter (fun x => decide (x.1.toNat ≤ n.toNat))
  { c with desc := (due.getLast?.map (·.2)).getD c.desc, mods := c.mods.filter (fun x => !decide (x.1.toNat ≤ n.toNat)) }

/-- Immediate changes that fall due at tick `n` (R112): a start, and new settings. DESIGN CHOICE (log 84): a BASE activation that is
pending stays so where a MODIFY makes the channel TOP or HEART; R115 is silent. -/
def State.slotChanges (s : State) (i : Nat) (n : BitVec 48) : State :=
  let c := s.chanOf i
  let c1 := c.takeMods n
  let c2 := if c1.st = .starting ∧ tickCome n c1.startTick then { c1 with st := .running, startTick := none } else c1
  if c2 = c then s else s.setSlot i c2

/-- Whether a channel is due in tick `n` (R113). -/
def Chan.due (c : Chan) (n : Nat) : Bool := ((n : Int) - c.phase) % c.period == 0

/-- Whether a channel takes part in the layout of tick `n` (R112, R113): it runs, or stops later, and is due. -/
def Chan.laysOut (c : Chan) (n : Nat) : Bool :=
  (c.st == .running || (c.st == .stopping && c.stopTick.all (fun m => decide (n < m.toNat)))) && c.due n

/-- One due channel at the boundary: its gate, and for BASE its pending mark (R114, R115). Answers the slice, if guaranteed. -/
def State.layoutSlot (s : State) (t k n off : Nat) : State × Option Slice :=
  let i := 16 * t + k
  let c := s.chanOf i
  if c.laysOut n then
    let gate := !c.gated || c.flag
    let c1 := if c.gated then { c with flag := false, gate := gate } else { c with gate := true }
    if c.note = 2 then
      if gate = false then (s.setChan i c1, none)
      else if c.pend then
        ((s.setChan i { c1 with missed := min (c.missed + 1) 0xFFFF }).setFld ALLOC_IRQ_STAT_DEFER 1, none)
      else (s.setChan i { c1 with pend := true }, none)
    else (s.setChan i c1, some ⟨k, off, c.budget, gate, false⟩)
  else (s, none)

/-- The layout of tick `n` on LE[t] (R113): the due TOP channels in slot order, then the due HEART channels, then BASE marks. -/
def State.layoutTick (s : State) (t n : Nat) : State :=
  let slots := (List.range 16).filter (fun k => (s.slotOf t k).note == 0) ++ (List.range 16).filter (fun k => (s.slotOf t k).note == 1) ++
    (List.range 16).filter (fun k => (s.slotOf t k).note ≥ 2)
  let r := slots.foldl (fun (acc : State × List Slice × Nat) k =>
    match acc.1.layoutSlot t k n acc.2.2 with
    | (s', some x) => (s', acc.2.1 ++ [x], acc.2.2 + 2 + x.budget)
    | (s', none) => (s', acc.2.1, acc.2.2)) (s, [], 0)
  r.1.setEng t { r.1.engOf t with layout := r.2.1, offset := 0, baseDone := [] }

/-- The guaranteed slices of tick `n` on an engine that replays it (R302): those that the primary laid out, with the channels and settings
as they stand for the replay. -/
def State.replaySlices (s : State) (t n : Nat) : List Slice :=
  (((List.range 16).filter (fun k => (s.slotOf t k).note == 0) ++ (List.range 16).filter (fun k => (s.slotOf t k).note == 1)).foldl
    (fun (acc : List Slice × Nat) k =>
      let c := s.slotOf t k
      if c.laysOut n then (acc.1 ++ [⟨k, acc.2, c.budget, true, false⟩], acc.2 + 2 + c.budget) else acc) ([], 0)).1

/-! ## The pair at the end of a tick on one engine (R301, R302, R304, R305) -/

/-- The checksum of a stream (R304). -/
def checksum (bs : List Byte) : Nat := (crc32 bs).toNat % 2 ^ 16

/-- The 32 words of a bank image, in the order of R305 (log 36): v, the accumulators in three words, p, PB, PL, then STAT with PC in its
upper half. -/
def Bank.words (b : Bank) : List Word :=
  (List.range 16).map b.val ++
  [b.acc0.extractLsb' 0 32, BitVec.ofNat 32 (b.acc0.toNat / 2 ^ 32 + b.acc1.toNat % 2 ^ 16 * 2 ^ 16), b.acc1.extractLsb' 16 32] ++
  (List.range 4).map b.ptr ++ (List.range 4).map b.base ++ (List.range 4).map b.len ++ [b.stat ||| BitVec.ofNat 32 (b.pc * 2 ^ 16)]

/-- The bank that an image stands for. -/
def bankOf (ws : List Word) : Bank :=
  let w (i : Nat) : Word := ws.getD i 0
  let t (i n : Nat) : Table Word := (List.range n).foldl (fun t j => tset 0 t j (w (i + j))) []
  let acc0 : BitVec 48 := BitVec.ofNat 48 ((w 16).toNat + (w 17).toNat % 2 ^ 16 * 2 ^ 32)
  let acc1 : BitVec 48 := BitVec.ofNat 48 ((w 17).toNat / 2 ^ 16 + (w 18).toNat * 2 ^ 16)
  { (⟨t 0 16, acc0, acc1, t 19 4, t 23 4, t 27 4, 0, false, false, (w 31).toNat / 2 ^ 16⟩ : Bank).setStat (w 31) with
    pc := (w 31).toNat / 2 ^ 16 }

/-- The address of the private window of slot `i`, whose first PSIZE words persist (R109). -/
def windowAddr (i : Nat) : Nat := 0x20000000 + i / 16 * 0x4000 + i % 16 * 0x100

/-- The persistent words of slot `i`. -/
def State.persistent (s : State) (i : Nat) : List Word :=
  s.words (windowAddr i) (bits (s.chanOf i).desc.stateW.toNat 6 0)

/-- The bank and the persistent words of a channel take the values of a packet (R305, R314). -/
def State.loadRefresh (s : State) (p : RefreshPacket) : State :=
  (s.setChan p.slot { s.chanOf p.slot with bank := bankOf p.bank }).setWords (windowAddr p.slot) p.persist

/-- A refresh of a channel takes effect; a difference counts (R305). -/
def State.takeRefresh (s : State) (p : RefreshPacket) : State :=
  let same := decide ((s.chanOf p.slot).bank = bankOf p.bank ∧ s.words (windowAddr p.slot) p.persist.length = p.persist)
  let s1 := if same then s else s.addSat PAIR_CNT2_REFIX 1
  let s2 : State := { s1 with pair := { s1.pair with refreshed := p.slot :: s1.pair.refreshed.filter (· != p.slot) } }
  s2.loadRefresh p

/-- The channels of DIVERGED engines whose refresh is still to come (R304). -/
def State.toRefresh (s : State) (t : Nat) : List Nat :=
  ((List.range 16).map (16 * t + ·)).filter (fun i => (s.chanOf i).st != .free && !s.pair.refreshed.contains i)

/-- The refreshes of tick `r` of LE[t] take effect, straight after its replay (R305). -/
def State.takeRefreshes (s : State) (t : Nat) (r : BitVec 48) : State :=
  let due (p : RefreshPacket) : Bool := p.tick == r && p.slot / 16 == t
  let s1 := (s.pair.refs.filter due).foldl State.takeRefresh s
  { s1 with pair := { s1.pair with refs := s1.pair.refs.filter (fun p => !due p) } }

/-- On a device that replays, tick `r` is complete on LE[t]: its checksum is compared (R304), its refreshes take effect (R305), and
its packets are gone. DIVERGED ends with the first checksum that matches once every channel of the engine has been refreshed. -/
def State.replayClose (s : State) (t : Nat) (r : BitVec 48) : State :=
  let en := s.engOf t
  let left := s.pair.logs.any (fun p => p.1.tick == r && p.1.engine == t)
  let s1 := match s.pair.sums.find? (fun x => x.1 == r && x.2.1 == t) with
    | none => if left then s.diverge t else s
    | some x =>
      if left = false ∧ en.ran ≠ [] ∧ checksum en.stream = x.2.2 then
        (if s.toRefresh t = [] then s.offBit (PAIR_DIVERGE_ENG (t / 32)) (t % 32) else s)
      else s.diverge t
  let s2 := s1.takeRefreshes t r
  { s2 with pair := { s2.pair with
    logs := s2.pair.logs.filter (fun p => !(p.1.tick == r && p.1.engine == t))
    sums := s2.pair.sums.filter (fun x => !(x.1 == r && x.2.1 == t)) } }

/-- The refreshes that a primary sends of LE[t] after tick `n` (R305), and at the boundary of the sync tick of a join those of every
channel (R314). -/
def State.sendRefresh (s : State) (t : Nat) (n : BitVec 48) : State :=
  let s := (List.range 16).foldl (fun s k =>
    let i := 16 * t + k
    if ((s.chanOf i).st = .running ∧ i % 64 = n.toNat % 64) ∨ s.pair.asked.contains i ∨
        ((s.chanOf i).st ≠ .free ∧ s.pair.syncAt = some (n + 1)) then
      (s.toPartner "REFRESH" ([s.handle i, n.toNat % 2 ^ 32] ++ ((s.chanOf i).bank.words ++ s.persistent i).map BitVec.toNat))
    else s) s
  { s with pair := { s.pair with asked := s.pair.asked.filter (fun i => i / 16 != t) } }

/-- The activation of LE[t] is over at the end of the tick, since its budget has passed (R117): one that ended in time completes
(R65), another is preempted. -/
def State.closeAct (s : State) (t : Nat) : State :=
  let cut (s : State) : State := match (s.engOf t).act with
    | some a => (s.setAct t (some { a with used := a.budget })).preempt t
    | none => s
  match (s.engOf t).act with
  | some a => if (s.engOf t).inTime a then cut (s.activationEnd t 0) else cut s
  | none => s

/-- What a primary sends of the tick that ends on LE[t] (R301 LOG), with the end of any activation that is left. -/
def State.closeTick (s : State) (t : Nat) : State :=
  let s1 := s.closeAct t
  let en := s1.engOf t
  let s2 : State := if en.ran = [] then s1
    else s1.toPartner "LOG" ((s1.tb.tick - 1).toNat % 2 ^ 32 :: t ::
      en.ran.flatMap (fun r => (r.slot + 16 * r.how + 256 * r.count) :: r.words.map BitVec.toNat))
  let s3 := if s2.fld PAIR_STAT_ROLE = 4 ∨ s2.joinRuns then s2.sendRefresh t (s2.tb.tick - 1)
    else if s2.pair.synced.isSome then s2.replayClose t (s2.tb.tick - 3) else s2
  s3.setEng t { s3.engOf t with ran := [], stream := [] }

/-! ## The commands -/

/-- FAULT_REPORT. -/
def execFaultReport (t : Fin 256) (k : Fin 16) (s : State) : Host.Outcome State Fault Refusal := done s (s.faultReport t.val k.val)
/-- The release boundary of a channel has come (R95, R119, R203): an apply that waits for the boundary of its sector comes first. -/
def State.channelRelease (s : State) (i : Nat) : State :=
  if (s.strobesFor (.sect (Fin.ofNat 16 (i / 256)))).isEmpty then s.releaseDue i s.tb.tick else s

/-- CHANNEL_RELEASE. -/
def execChannelRelease (t : Fin 256) (k : Fin 16) (s : State) : Host.Outcome State Fault Refusal :=
  done s (s.channelRelease (16 * t.val + k.val))
/-- CLAIM. -/
def execClaim (req : Fin 405) (b : Fin 16) (s : State) : Host.Outcome State Fault Refusal := done s (s.rbCmd req.val b.val 0xE false)
/-- RELEASE. -/
def execRelease (req : Fin 405) (b : Fin 16) (s : State) : Host.Outcome State Fault Refusal := done s (s.rbCmd req.val b.val 0xF false)
/-- CREATE. -/
def execCreate (req : Fin 405) (b : Fin 16) (staged : Bool) (s : State) : Host.Outcome State Fault Refusal :=
  done s (s.rbCmd req.val b.val 1 staged)
/-- DESTROY. -/
def execDestroy (req : Fin 405) (b : Fin 16) (staged : Bool) (s : State) : Host.Outcome State Fault Refusal :=
  done s (s.rbCmd req.val b.val 2 staged)
/-- MODIFY. -/
def execModify (req : Fin 405) (b : Fin 16) (staged : Bool) (s : State) : Host.Outcome State Fault Refusal :=
  done s (s.rbCmd req.val b.val 3 staged)
/-- QUERY. -/
def execQuery (req : Fin 405) (b : Fin 16) (staged : Bool) (s : State) : Host.Outcome State Fault Refusal :=
  done s (s.rbCmd req.val b.val 4 staged)
/-- REQUEST_DONE. -/
def execRequestDone (s : State) : Host.Outcome State Fault Refusal := done s s.requestDone

/-- ALLOC_RBFREE (R105, R123): the host frees the buffers of the set bits that have an owner; a bit reads 1 while its buffer waits for
a pending request. -/
def State.rbFree (s : State) (v : Word) : State :=
  (bitList v.toNat 16).foldl (fun s b =>
    if s.fb (ALLOC_RB_CMD_OWNED b) then
      (if s.fb (ALLOC_RB_CMD_PEND b) then (s.releaseBuffer b).orBit ALLOC_RBFREE_FREE b else s.releaseBuffer b)
    else s) s
/-- ALLOC_RBFREE. -/
def execAllocRbfree (v : Word) (s : State) : Host.Outcome State Fault Refusal := done s (s.rbFree v)

/-- FLOG_POP (R123): the oldest entry of the fault log goes. -/
def State.flogPop (s : State) (v : Word) : State := if v.toNat.testBit 0 then { s with flog := s.flog.drop 1 } else s
/-- FLOG_POP. -/
def execFlogPop (v : Word) (s : State) : Host.Outcome State Fault Refusal := done s (s.flogPop v)

/-- ENGHOLD_WRITE (R121, R123): a hold is refused while a channel of the engine runs, starts, stops or is staged. -/
def State.engHold (s : State) (w : Nat) (v : Word) : State :=
  (List.range 32).foldl (fun s j =>
    let t := 32 * w + j
    if v.toNat.testBit j = false then s.offBit (ALLOC_ENGHOLD_HOLD w) j
    else if (List.range 16).any (fun k => (s.slotOf t k).st.admitted) then
      (s.offBit (ALLOC_ENGHOLD_HOLD w) j).setFld ALLOC_STATUS_HOLDREF 1
    else s.orBit (ALLOC_ENGHOLD_HOLD w) j) s
/-- ENGHOLD_WRITE. -/
def execEngholdWrite (w : Fin 8) (v : Word) (s : State) : Host.Outcome State Fault Refusal := done s (s.engHold w.val v)

end Sys2Proof.Machine
end

