-- ==== Sys2Proof/Machine/Checker.lean ====
section
/-! DEFINITION. The checker of Attar (R240, R241): the offences of a staged state, block by block. The release check of a full image
and of a partial load uses the same rule set (R340, R353). -/

namespace Sys2Proof.Machine

/-- An offence: the first offending address, the result code, and the handle that R241 reports (0 for none). -/
structure Offence where
  addr : Nat
  code : Nat
  handle : Nat
deriving DecidableEq, Repr

/-- An offence if the condition holds. -/
def flag (b : Bool) (addr code : Nat) : List Offence := if b then [⟨addr, code, 0⟩] else []

/-- The RWS bits of a register (R7). -/
def rwsMask (a : Nat) : Word := BitVec.ofNat 32 (((findRow regRows a).map (·.rws)).getD 0 &&& swBits a)

/-- The staged state (R235): the staged copy where the written mark is set, else the active value. -/
def State.stagedView (s : State) : View := fun a =>
  match tget none s.attar.staged a with
  | some w => (w &&& rwsMask a) ||| (s.reg a &&& ~~~rwsMask a)
  | none => s.reg a

/-- The addresses whose staged word can differ from the reset word. -/
def State.stagedAddrs (s : State) : List Nat := (s.regs.map (·.1) ++ s.attar.staged.map (·.1)).eraseDups

/-! ## Timebase, timers, clocks, pair and interfaces: FIELD and GRADE -/

/-- Offences of the timebase and the sector timers (R36, R45, R55, R59, R60, R306, R378). DESIGN CHOICE (log 83): an EPR outside the
range of R37, a TIMEOUT of 0 and an SSI length outside 8 to 32 bits, whose rejection no rule states, are accepted and used as they are. -/
def checkTime (s : State) (v : View) (release : Bool) : List Offence :=
  let c := v.fld TB_TICKLEN_CYCLES
  let role := s.fld PAIR_STAT_ROLE
  let us := max (s.fld SAFE_TICKWD_US) 100
  flag (decide (c < 2000 ∨ 200000 < c) || (!release && (role == 4 || role == 5) && c != s.fld TB_TICKLEN_CYCLES) ||
    decide (us * 200 ≤ c)) TB_TICKLEN_at 3 ++
  flag (v.fld TB_MASTER_SRC == 5 || v.fld TB_MASTER_SRC == 6) TB_MASTER_at 3 ++
  flag (decide (v.fld TB_BLEAD_LEAD < 400 ∨ 20000 < v.fld TB_BLEAD_LEAD)) TB_BLEAD_at 3 ++
  (List.range 4).flatMap (fun i =>
    flag (decide (v.fld (TB_ENC_CFG_MODE i) > 3) || v.fld (TB_ENC_CFG_AVG i) == 7) (TB_ENC_CFG_at i) 3) ++
  (List.range 16).flatMap (fun k =>
    (List.range 8).flatMap (fun j =>
      flag (v.fld (STM_PWM_CFG_MODE k j) == 3 || v.fld (STM_PWM_CFG_PERIOD k j) == 0) (STM_PWM_CFG_at k j) 3 ++
      flag (decide (v.fld (STM_CAP_CFG_SRC k j) ≥ 6)) (STM_CAP_CFG_at k j) 3) ++
    (List.range 2).flatMap (fun q => flag (decide (v.fld (STM_QD_CFG_MODE k q) > 2)) (STM_QD_CFG_at k q) 3))

/-- The grade limits of SECT_CLK and FAB_CLK in MHz (R3). -/
def gradeLimit (grade : Nat) : Nat × Nat := if grade = 3 then (300, 200) else (400, 250)

/-- Offences of the clocks (R3, R419): SECT_CLK is 25 MHz × M / SDIV and FAB_CLK is 25 MHz × M / FDIV. -/
def checkClocks (s : State) (v : View) (release : Bool) : List Offence :=
  let f := 25 * v.fld CLK_CORE_M
  let lim := gradeLimit s.part.grade
  flag (!release && v.fld CLK_CORE_M != s.fld CLK_CORE_M) CLK_CORE_at 3 ++
  flag ((List.range 4).any (fun g => decide (4 < v.fld (modDiv g)))) CLK_MOD_at 3 ++
  (List.range 16).flatMap (fun k =>
    let d := v.fld (CLK_SECT_SDIV k)
    flag (decide (d ≠ 0 ∧ (f < 100 * d ∨ 400 * d < f))) (CLK_SECT_at k) 3 ++ flag (decide (d ≠ 0 ∧ lim.1 * d < f)) (CLK_SECT_at k) 2) ++
  (List.range 8).flatMap (fun k =>
    let d := v.fld (CLK_FAB_FDIV k)
    flag (decide (d ≠ 0 ∧ (f < 25 * d ∨ 250 * d < f))) (CLK_FAB_at k) 3 ++ flag (decide (d ≠ 0 ∧ lim.2 * d < f)) (CLK_FAB_at k) 2)

/-- Offences of the pair, the interfaces and the retention store (R299, R317, R396, R405, R438). -/
def checkPorts (s : State) (v : View) (release : Bool) : List Offence :=
  flag (v.fld PAIR_CFG_SEEKTMO == 0 || decide (v.fld PAIR_CFG_AGELIM < 4) ||
    (!release && v.fld PAIR_CFG_EN != s.fld PAIR_CFG_EN)) PAIR_CFG_at 3 ++
  (List.range 4).flatMap (fun m =>
    flag (decide (v.fld (CAN_NBT_NTSEG1 m) + v.fld (CAN_NBT_NTSEG2 m) + 3 < 8 ∨ v.fld (CAN_NBT_NSJW m) > v.fld (CAN_NBT_NTSEG2 m)))
      (CAN_NBT_at m) 3 ++
    flag (decide (v.fld (CAN_DBT_DTSEG1 m) + v.fld (CAN_DBT_DTSEG2 m) + 3 < 5 ∨ v.fld (CAN_DBT_DSJW m) > v.fld (CAN_DBT_DTSEG2 m)))
      (CAN_DBT_at m) 3) ++
  (List.range 16).flatMap (fun m => flag (v.fld (SPI_CFG_DIV m) == 0) (SPI_CFG_at m) 3) ++
  (List.range 8).flatMap (fun m =>
    flag (v.fld (UART_CFG_PARITY m) == 3 || v.fld (UART_CFG_BITS m) == 3 || v.fld (UART_CFG_DIV m) == 0) (UART_CFG_at m) 3) ++
  flag (decide (8 * v.fld RETAIN_SNAPSRC_OFS % 0x8000 + 8 * (v.fld RETAIN_SNAPSRC_LENM1 + 1) > 0x8000)) RETAIN_SNAPSRC_at 3

/-! ## Analog bays (R126, R128, R135, R136) -/

/-- Whether a biquad's setting is rejected (R128): FREQ and QC of any, f0 = 2,500 Hz × FREQ / 2^(4 + MOD_CLK code + DIV), 0 with
MOD_CLK stopped, of an enabled one. DEDUCED (log 86): f0 of a disabled biquad is not judged, since the reset setting of R145 would
fail at 10.24 MHz. -/
def badBiquad (v : View) (k q : Nat) : Bool :=
  let freq := v.fld (BAY_BQ_CFG_FREQ k q)
  let d := v.fld (modDiv (k / 4))
  let den := 2 ^ (4 + d + v.fld (BAY_BQ_CFG_DIV k q))
  decide (freq < 64 ∨ 4096 < freq) || decide (v.fld (BAY_BQ_CFG_QC k q) < 8) ||
    (v.fld (BAY_BQ_CFG_EN k q) == 1 && (decide (d ≥ 4) || decide (2500 * freq < 10 * den ∨ 100000 * den < 2500 * freq)))

/-- Whether a bay uses its reference buffer (R135 AREFOFF). -/
def needsRef (v : View) (es : List (Nat × Nat)) (k : Nat) : Bool :=
  es.any (fun e => e.1 == termId k 54 || e.1 == termId k 55) ||
  (List.range 2).any (fun i => v.fld (ADC_CFG_EN (2 * k + i)) == 1 || v.fld (DAC_CFG_EN (2 * k + i)) == 1) ||
  (List.range 4).any (fun c => v.fld (CMP_CFG_MODE k c) != 0 || v.fld (BAY_BQ_CFG_EN k c) == 1) ||
  (List.range 8).any (fun j =>
    let m := v.fld (BAY_AMP_CFG_MODE k j)
    m == 2 || m == 3 || (m == 4 && v.fld (BAY_AMP_CFG_TIABIAS k j) == 1))

/-- Offences of the nets: the terminal with the lowest number stands for its net (R135, R136). -/
def checkNets (v : View) (es : List (Nat × Nat)) : List Offence :=
  ((es.map (·.1)).eraseDups).flatMap (fun x =>
    let net := netOf es es.length ([x], [])
    if net.1.any (fun y => decide (y < x)) then []
    else
      let a := BAY_SW_at (x / 64) (x % 64)
      let drivers := (net.1.filter (driver v)).length
      let edges := (es.filter (fun e => net.1.contains e.1)).length
      flag (decide (drivers ≥ 2)) a 0x20 ++ flag (drivers == 0 && net.1.any (needsDriver v)) a 0x21 ++
      flag (decide (edges ≥ net.1.length + net.2.length)) a 0x22)

/-- Offences of the analog bays. -/
def checkBays (v : View) (es : List (Nat × Nat)) : List Offence :=
  checkNets v es ++ (List.range 16).flatMap (fun k =>
    (List.range 8).flatMap (fun j =>
      flag (decide (v.fld (BAY_AMP_CFG_MODE k j) > 4 ∨ v.fld (BAY_AMP_CFG_RF k j) > 9)) (BAY_AMP_CFG_at k j) 3) ++
    (List.range 4).flatMap (fun q => flag (badBiquad v k q) (BAY_BQ_CFG_at k q) 3) ++
    flag ((List.range 8).any (fun n => v.role k n == 3 || (v.role k n == 0 && es.any (fun e => e.1 == termId k n))))
      (BAY_PAD_CFG_at k) 0x23 ++
    flag ((List.range 8).any (fun n => (v.role k n == 1 || v.role k n == 2) &&
      v.fld (XBAR_SEL_OUTSEL (224 + 8 * k + n)) != 0x7FF)) (BAY_PAD_CFG_at k) 0x24 ++
    flag ((List.range 2).any (fun i => v.role k (6 + i) != 0 && v.fld (DAC_CFG_EN (2 * k + i)) == 1)) (BAY_PAD_CFG_at k) 0x25 ++
    flag (v.fld (BAY_CTRL_REFEN k) == 0 && needsRef v es k) (BAY_CTRL_at k) 0x26)

/-! ## Converters, comparators, DACs (R153, R187, R194, R206) -/

/-- Offences of converter `n`. -/
def checkAdc (v : View) (es : List (Nat × Nat)) (n : Nat) : List Offence :=
  let len := v.fld (ADC_CFG_LEN n) + 1
  let src := v.fld (ADC_TRIG_SRC n)
  let cfg := ADC_CFG_at n
  let trig := ADC_TRIG_at n
  let onNet (t : Nat) : Bool := es.any (fun e => e.1 == termId (n / 2) t)
  (List.range len).flatMap (fun e =>
    flag (decide (v.fld (ADC_SEQ_INSEL n e) > 10) || v.fld (ADC_SEQ_ORDER n e) == 0 || decide (v.fld (ADC_SEQ_ORDER n e) ≥ 6))
      (ADC_SEQ_at n e) 0x28) ++
  flag (v.fld (ADC_CFG_POLICY n) == 3 || (v.fld (ADC_CFG_CONT n) == 1 && src != 0) ||
    (v.fld (ADC_CFG_ASYNC n) == 1 && (len != 1 || v.fld (ADC_SEQ_ORDER n 0) != 1 || v.fld (ADC_CFG_CONT n) == 1 || src != 0)))
    cfg 0x28 ++
  flag (src == 3 || decide (v.fld (ADC_TRIG_TPHASE n) > v.fld (ADC_TRIG_TPERIOD n)) ||
    (src == 2 && eventReserved (v.fld (ADC_TRIG_EVENT n)))) trig 0x28 ++
  flag (src == 2 && eventReserved (v.fld (ADC_TRIG_EVENT n))) trig 4 ++
  flag (v.fld (ADC_CFG_EN n) == 1 && (List.range len).any (fun e => v.fld (ADC_SEQ_INSEL n e) == 0) &&
    !(onNet (48 + 2 * (n % 2)) && onNet (49 + 2 * (n % 2)))) cfg 0x29

/-- The hysteresis of a HYST code in mV (R177). -/
def hystMv (c : Nat) : Nat := ([0, 5, 10, 20, 40]).getD c 0

/-- Offences of window `w` of bay `k` (R187), each at the lowest address that takes part (R194). -/
def checkWindow (v : View) (es : List (Nat × Nat)) (k w : Nat) : List Offence :=
  let lo := 2 * w
  let hi := 2 * w + 1
  if v.fld (CMP_WIN_CFG_EN k w) = 0 then []
  else
    let net (c : Nat) : List Nat := (netOf es es.length ([termId k (40 + 2 * c)], [])).1
    let bad (c : Nat) : Bool := v.fld (CMP_CFG_MODE k c) == 0 || v.fld (CMP_CFG_POL k c) == 1
    flag (bad lo || (v.fld (CMP_CFG_THSRC k lo) == 0 && v.fld (CMP_CFG_THSRC k hi) == 0 &&
      decide (2 * v.fld (CMP_THR_CODE k hi) ≤ 2 * v.fld (CMP_THR_CODE k lo) + hystMv (v.fld (CMP_CFG_HYST k hi)))))
      (CMP_CFG_at k lo) 0x2D ++
    flag (bad hi) (CMP_CFG_at k hi) 0x2D ++
    flag (v.fld (CMP_FILT_SDIV k lo) != v.fld (CMP_FILT_SDIV k hi)) (CMP_FILT_at k lo) 0x2D ++
    flag (!(net lo).contains (termId k (40 + 2 * hi))) (CMP_WIN_CFG_at k w) 0x2D

/-- Offences of the comparators of bay `k` (R194). -/
def checkCmps (v : View) (es : List (Nat × Nat)) (k : Nat) : List Offence :=
  (List.range 4).flatMap (fun c =>
    let m := v.fld (CMP_FILT_M k c)
    let n := v.fld (CMP_FILT_N k c)
    flag (decide (v.fld (CMP_CFG_MODE k c) ≥ 5 ∨ v.fld (CMP_CFG_HYST k c) ≥ 5) || v.fld (CMP_CFG_CLRSRC k c) == 3 ||
      ((v.fld (CMP_WAKE_WAKEEN k)).testBit c && v.fld (CMP_CFG_MODE k c) == 0)) (CMP_CFG_at k c) 0x2C ++
    flag (m == 0 || n == 0 || decide (n > m ∨ 2 * n ≤ m)) (CMP_FILT_at k c) 0x2C) ++
  (List.range 2).flatMap (fun w =>
    flag (v.fld (CMP_WIN_CFG_CLRSRC k w) == 3) (CMP_WIN_CFG_at k w) 0x2C ++ checkWindow v es k w)

/-- Whether a DAC is held by an output binding among descriptors. -/
def dacBound (ds : List (Nat × Desc)) (n : Nat) : Bool :=
  ds.any (fun p => (p.2.claims (p.1 / 256)).any (fun q => q.2 == Claim.dac n))

/-- Offences of DAC `n` (R206): `w` says which registers the session writes. -/
def checkDac (s : State) (v : View) (w : Nat → Bool) (ds : List (Nat × Desc)) (n : Nat) : List Offence :=
  let gain := v.fld (DAC_CFG_GAIN n) != s.fld (DAC_CFG_GAIN n)
  let code := v.fld (DAC_CODE_CODE n)
  let lo := v.fld (DAC_LIMIT_LO n)
  let hi := v.fld (DAC_LIMIT_HI n)
  flag (decide (lo > hi)) (DAC_LIMIT_at n) 0x30 ++
  flag (gain && !w (DAC_CODE_at n)) (DAC_CFG_at n) 0x31 ++
  flag (decide (code < lo ∨ hi < code)) (DAC_CODE_at n) 0x31 ++
  flag (w (DAC_CODE_at n) && !gain && dacBound ds n) (DAC_CODE_at n) 0x32

/-! ## Crossbar (R263) -/

/-- Whether an INSEL value is reserved (R255). -/
def inselReserved (i : Nat) : Bool :=
  !(decide (i < 0xAC) || (decide (0xB0 ≤ i) && decide (i < 0x364)) || i == 0x3FF)

/-- Whether an OUTSEL value is reserved (R252). -/
def outselReserved (i : Nat) : Bool := decide (0x7A8 ≤ i) && i != 0x7FF

/-- Offences of pin `p` with XFIELD and XLOCK. -/
def checkPin (s : State) (v : View) (release : Bool) (p : Nat) : List Offence :=
  let analog := decide (p ≥ 224)
  let k := (p - 224) / 8
  let n := (p - 224) % 8
  let out := v.fld (XBAR_SEL_OUTSEL p)
  let inp := v.fld (XBAR_SEL_INSEL p)
  let dacPad := analog && decide (n ≥ 6) && v.fld (DAC_CFG_EN (2 * k + (n - 6))) == 1
  let selBad := outselReserved out || inselReserved inp ||
    (analog && inp != 0x3FF && (v.role k n == 1 || v.role k n == 2)) || (dacPad && out != 0x7FF)
  let padBad := (analog && decide (v.fld (XBAR_PAD_DRIVE p) ≥ 2)) ||
    (v.fld (XBAR_PAD_SAFE p) == 1 && v.fld (XBAR_PAD_ODRAIN p) == 1) || (dacPad && v.fld (XBAR_PAD_SAFE p) != 2)
  let locked := !release && s.fbit (XBAR_LOCKED_LOCKED (p / 32)) (p % 32)
  let selMoved := locked && v (XBAR_SEL_at p) != s.reg (XBAR_SEL_at p)
  let padMoved := locked && v (XBAR_PAD_at p) != s.reg (XBAR_PAD_at p)
  flag selBad (XBAR_SEL_at p) 0x3A ++ flag (!selBad && padBad) (XBAR_PAD_at p) 0x3A ++
  flag selMoved (XBAR_SEL_at p) 0x39 ++ flag (!selMoved && padMoved) (XBAR_PAD_at p) 0x39

/-- Offences with XINPUT: one for each input that two or more pins name, at the lowest pin that names it. -/
def checkInputs (v : View) : List Offence :=
  let named := (List.range 352).filterMap (fun p =>
    if v.fld (XBAR_SEL_INSEL p) = 0x3FF then none else some (v.fld (XBAR_SEL_INSEL p), p))
  named.flatMap (fun q =>
    flag (named.any (fun r => r.1 == q.1 && decide (r.2 > q.2)) && !named.any (fun r => r.1 == q.1 && decide (r.2 < q.2)))
      (XBAR_SEL_at q.2) 0x38)

/-! ## Barchan lines (R293, R306) -/

/-- The valid segment positions of line `l` in a view. -/
def View.segs (v : View) (l : Nat) : List Nat := (List.range 32).filter (fun j => v.fld (BL_SEG_V l j) == 1)

/-- Offences of line `l`. -/
def checkLine (s : State) (v : View) (l : Nat) : List Offence :=
  let js := v.segs l
  let ticks := v.fld (BL_CFG_TICKS l) + 1
  let len := ticks * v.fld TB_TICKLEN_CYCLES
  let en := v.fld (BL_CFG_EN l) == 1
  let role := s.fld PAIR_STAT_ROLE
  let seg := js.filter (fun j => js.any (fun i => i != j && v.fld (BL_SEG_NODE l i) == v.fld (BL_SEG_NODE l j)) ||
    decide (js.length ≤ j))
  let gap := (List.range js.length).find? (fun j => !js.contains j)
  let bad := seg ++ gap.toList ++ (if en && js.isEmpty then [0] else [])
  (match bad with
   | [] => []
   | j :: r => [⟨BL_SEG_at l (r.foldl min j), 0x40, 0⟩]) ++
  flag (decide (v.fld (BL_CFG_PHASE l) > v.fld (BL_CFG_TICKS l) ∨ v.fld (BL_CFG_SIGN l) > 4 ∨ v.fld (BL_CFG_TMO l) = 0 ∨
      v.fld (BL_CFG_MISSLIM l) = 0 ∨ len > 524288 ∨
      1 + 36 + js.length * (18 + 4 * v.fld (BL_CFG_SIGN l)) + v.fld TB_BLEAD_LEAD / 8 > len / 8) ||
    (en && decide (v.fld TB_TICKLEN_CYCLES % 8 ≠ 0) && (List.range l).all (fun i => v.fld (BL_CFG_EN i) == 0)) ||
    (en && (role == 4 || role == 5) && decide (v.fld (BL_CFG_TMO l) * ticks < 6))) (BL_CFG_at l) 0x41

/-! ## Channels (R110, R111, R116, R117, R241) -/

/-- The channels that an apply leaves, with their slots (R240): STARTING, RUNNING, STOPPING and FAULTED ones, changed by the staged
requests; `true` marks a channel whose descriptor a staged request gives. -/
def State.channelSet (s : State) : List (Nat × Desc × Bool × Bool) :=
  let base := s.chans.filterMap (fun p =>
    if p.2.st = .free ∨ p.2.st = .staged then none else some (p.1, p.2.next, false, p.2.st == .faulted))
  s.attar.reqs.foldl (fun l q =>
    let rest := l.filter (fun p => p.1 != q.slot)
    match q.op with
    | 1 => rest ++ [(q.slot, q.desc, true, false)]
    | 3 => if (s.chanOf q.slot).st = .faulted then l else rest ++ [(q.slot, q.desc, true, false)]
    | _ => rest) base

/-- The lowest handle among slots that staged requests name; 0 where there is none (R241). -/
def State.lowHandle (s : State) (slots : List Nat) : Nat :=
  match (slots.map s.handle) with
  | [] => 0
  | h :: r => r.foldl min h

/-- Offences of the channel set with the tick length and clocks of a view. -/
def checkChans (s : State) (v : View) : List Offence :=
  let set := s.channelSet
  let engines := (set.map (fun p => p.1 / 16)).eraseDups
  engines.flatMap (fun t =>
    let mine := set.filter (fun p => p.1 / 16 == t)
    let staged (l : List (Nat × Desc × Bool × Bool)) : List Nat := (l.filter (fun p => p.2.2.1)).map (·.1)
    let d := v.fld (CLK_SECT_SDIV (t / 16))
    let c := v.fld TB_TICKLEN_CYCLES * 25 * v.fld CLK_CORE_M / (d * 200)
    let load := mine.filter (fun p => decide (p.2.1.note ≤ 1) && !p.2.2.2)
    let total (r : Nat) : Nat := load.foldl (fun n p => n + p.2.1.load r) 0
    let high := (List.range 256).filter (fun r => decide (total r > limitOf c))
    let heavy := load.filter (fun p => high.any (fun r => p.2.1.load r != 0))
    let large := mine.filter (fun p => p.2.1.note == 2 && !p.2.2.2 && decide (2 + p.2.1.b + v.fld ALLOC_CFG_ISTRES > c))
    let meet (p q : Nat × Desc × Bool × Bool) : Bool := p.1 != q.1 &&
      (p.2.1.claims (p.1 / 256)).any (fun a => (q.2.1.claims (q.1 / 256)).any (fun b => a.2.meets b.2))
    let clash := set.filter (fun q => mine.any (fun p => meet p q))
    let self := mine.filter (fun p => (badBinding (p.1 / 256) p.2.1).isSome || set.any (fun q => meet p q))
    let at_ := ALLOC_ENGLOAD_at t
    (if high.isEmpty then [] else [⟨at_, 0x10, s.lowHandle (staged heavy)⟩]) ++
    (if self.isEmpty then [] else [⟨at_, 0x11, s.lowHandle (staged (self ++ clash))⟩]) ++
    (if large.isEmpty then [] else [⟨at_, 0x12, s.lowHandle (staged large)⟩]))

/-! ## The whole check -/

/-- Every offence of a view (R240, R241). The release check leaves out XINPUT and XLOCK and what compares with active values
(R340). `w` says which registers the session writes. -/
def offences (s : State) (v : View) (addrs : List Nat) (w : Nat → Bool) (release : Bool) : List Offence :=
  let es := switches v addrs
  let ds := s.channelSet.map (fun p => (p.1, p.2.1))
  checkTime s v release ++ checkClocks s v release ++ checkPorts s v release ++ checkBays v es ++
  (List.range 32).flatMap (checkAdc v es) ++ (List.range 16).flatMap (checkCmps v es) ++
  (List.range 32).flatMap (checkDac s v w ds) ++
  (List.range 352).flatMap (checkPin s v release) ++ (if release then [] else checkInputs v) ++
  (List.range 8).flatMap (fun l => checkLine s v l ++ flag (v.fld (BL_PULSE_LEN l) == 0) (BL_PULSE_at l) 0x41) ++
  (if release then [] else checkChans s v)

/-- The offence that the checker reports: the lowest address, and there the lowest code (R241). -/
def firstOffence : List Offence → Option Offence
  | [] => none
  | o :: r => match firstOffence r with
    | none => some o
    | some p => if o.addr < p.addr ∨ (o.addr = p.addr ∧ o.code ≤ p.code) then some o else some p

/-- The offences of the session's staged state. -/
def State.sessionOffences (s : State) : List Offence :=
  offences s s.stagedView s.stagedAddrs (fun a => (tget none s.attar.staged a).isSome) false

end Sys2Proof.Machine
end

