-- ==== Sys2Proof/Machine/Attar.lean ====
section
/-! DEFINITION. Staged commit: sessions, staging, the check, and the apply up to its strobe (R233 to R248). What each domain does at
the boundary of the apply tick stands with the boundaries. -/

namespace Sys2Proof.Machine

/-- The result of a command (R234). -/
def State.cmdRes (s : State) (c : Nat) : State := s.setFld ATTAR_STAT_CMDRES c

/-- STATE of the session (R233). -/
def State.attarState (s : State) : Nat := s.fld ATTAR_STAT_STATE

/-! ## Staging (R235 to R237) -/

/-- A write to the RWS fields of a register (R236): staged and marked while the session is OPEN, CHECKING or CHECKED, else without
effect and recorded as a stray. -/
def State.stageWord (s : State) (a : Nat) (v : Word) : State :=
  if rwsMask a = 0 then s
  else if 1 ≤ s.attarState ∧ s.attarState ≤ 3 then
    ({ s with attar := { s.attar with staged := tset none s.attar.staged a (some (v &&& rwsMask a)) } }.invalidate).toPartner
      "SESSION" [1, a, (v &&& rwsMask a).toNat]
  else
    let s1 := if s.fb ATTAR_STAT_STRAY then s else s.setFld ATTAR_STRAY_ADDR_ADDR a
    (s1.setFld ATTAR_STAT_STRAY 1).setFld ATTAR_IRQ_STAT_STRAY 1

/-- What ATTAR_PEEK_DATA reads (R237). -/
def State.peekData (s : State) : Word :=
  let a := s.fld ATTAR_PEEK_ADDR_ADDR
  if s.attarState = 0 then 0 else s.stagedView a &&& rwsMask a

/-! ## Domains of an apply (R244) -/

/-- The domains that hold a register (R11, R12, R15): the converters and comparators of a bay on MOD_CLK, the rest of its window on
SECT_CLK; a clock's own divider switches in its domain while that runs (R420), and with SYS_CLK where it is stopped. -/
def State.regDomains (s : State) (a : Nat) : List Domain :=
  let o := a % 0x10000
  if a / 0x100000 = 0x300 then
    let k := a / 0x10000 % 16
    if 0x4000 ≤ o ∧ o < 0x8000 then [.mod (Fin.ofNat 4 (k / 4))] else [.sect (Fin.ofNat 16 k)]
  else if a = CLK_MOD_at then .sys :: ((List.finRange 4).filter (fun g => s.modRuns g.val)).map Domain.mod
  else if CLK_SECT_at 0 ≤ a ∧ a < CLK_SECT_at 16 then
    let k := Fin.ofNat 16 (o % 0x40 / 4)
    if s.sectRuns k.val then [.sect k] else [.sys]
  else if CLK_FAB_at 0 ≤ a ∧ a < CLK_FAB_at 8 then
    let k := Fin.ofNat 8 (o % 0x40 / 4)
    if s.fabRuns k.val then [.fab k] else [.sys]
  else match a / 0x1000 with
  | 0x40001 => [.tb] | 0x40004 => [.pin] | 0x40009 => [.line] | 0x4000a => [.pair]
  | 0x4000f => if o < 0xF800 then [.can] else [.sys]
  | 0x40012 => [.mram]
  | _ => [.sys]

/-- The domains that take part in the apply of staged registers and requests (R244). -/
def State.takesPart (s : State) (regs : Table (Option Word)) (reqs : List StagedReq) : List Domain :=
  let r := regs.flatMap (fun p => s.regDomains p.1)
  let q := if reqs.isEmpty then [] else .sys :: reqs.map (fun q => Domain.sect (Fin.ofNat 16 (q.slot / 256)))
  (r ++ q).eraseDups

/-- Whether a clock that takes part is stopped or not locked (R244). -/
def State.clockStopped (s : State) (ds : List Domain) : Bool := ds.any (fun d => !s.domRuns d)

/-- Whether an address is that of a register of the analog part of a bay window. -/
def inBay (a : Nat) : Bool := a / 0x100000 == 0x300 && decide (a % 0x10000 < 0x4000)

/-- The settings after staged words have taken effect. -/
def State.viewWith (s : State) (regs : Table (Option Word)) : View := fun a =>
  match tget none regs a with
  | some w => (s.reg a &&& ~~~rwsMask a) ||| (w &&& rwsMask a)
  | none => s.reg a

/-- The terminals whose net or route an apply of staged words moves (R138, R144). -/
def State.movedBy (s : State) (regs : Table (Option Word)) : List Nat :=
  if regs.any (fun p => inBay p.1) then
    let v := s.viewWith regs
    let addrs := s.regs.map (·.1)
    movedTerminals s.view v (switches s.view addrs) (switches v ((addrs ++ regs.map (·.1)).eraseDups))
  else []

/-- The domains that a strobe reaches: those that take part, SYS_CLK where Attar closes the session, and the running SECT_CLK and
MOD_CLK of the bays whose routes or converter inputs it moves, over inter-bay tracks too (R133, R138, R144, R163). -/
def State.strobeDomains (s : State) (regs : Table (Option Word)) (reqs : List StagedReq) : List Domain :=
  let bays := (s.movedBy regs).flatMap (fun x => Domain.sect (Fin.ofNat 16 (x / 64)) ::
    (if 48 ≤ x % 64 ∧ x % 64 < 52 then [Domain.mod (Fin.ofNat 4 (x / 256))] else []))
  (.sys :: (s.takesPart regs reqs ++ bays.filter s.domRuns)).eraseDups

/-! ## Closing (R247) -/

/-- The session ends: marks clear and staged requests are gone. LASTEND, the owner and STATE follow (R233, R244, R247). -/
def State.closeSession (s : State) (how : Nat) : State :=
  ((({ s with attar := ⟨[], [], none, false, 0⟩ }.setFld ATTAR_STAT_STATE 0).setFld ATTAR_STAT_OWNER 0).setFld
    ATTAR_STAT_LASTEND how).toPartner "SESSION" (3 :: how :: twoWords s.tb.tick.toNat)

/-- The slots of staged CREATEs return to FREE (R112, R247). -/
def State.dropStaged (s : State) : State :=
  s.attar.reqs.foldl (fun s q => if q.op = 1 ∧ (s.chanOf q.slot).st = .staged then s.freeSlot q.slot else s) s

/-- The session closes without effect (R247): 2 ABORTED, 3 TIMEOUT, 4 FORCED. -/
def State.endSession (s : State) (how : Nat) : State :=
  ((s.dropStaged.closeSession how).setFld ATTAR_IRQ_STAT_CLOSED 1).addSat ATTAR_CNT_ABORTS 1

/-! ## Commands (R234, R243, R247) -/

/-- OPEN. -/
def State.attarOpen (s : State) (req : Nat) : State :=
  if s.attarState ≠ 0 then s.cmdRes 1
  else if s.noService then s.cmdRes 4
  else (({ s with attar := ⟨[], [], none, false, s.tb.now⟩ }.setFld ATTAR_STAT_STATE 1).setFld ATTAR_STAT_OWNER req).cmdRes 0

/-- CHECK by the owner. -/
def State.attarCheck (s : State) : State :=
  match s.attarState with
  | 2 => s.cmdRes 5
  | 4 => s.cmdRes 7
  | _ => ({ s with attar := { s.attar with dirty := false } }.setFld ATTAR_STAT_STATE 2).cmdRes 0

/-- Whether a position P, as TANG and TREV show it, is at or beyond a target (R243). -/
def reached (rev : Bool) (t p : BitVec 64) : Bool :=
  if rev then decide (0 ≤ (t - p).toInt) else decide ((t - p).toInt ≤ 0)

/-- The first eligible tick (R243): its edge lies at least 200 cycles ahead. -/
def State.firstTick (s : State) : BitVec 48 :=
  let due := s.tb.edge + BitVec.ofNat 64 (s.fld TB_TICKLEN_CYCLES)
  if (due - s.tb.now).toInt ≥ 200 then s.tb.tick + 1 else s.tb.tick + 2

/-- The apply tick that WHEN asks for, or the code of a refusal (R243). -/
def State.applyTarget (s : State) (mode : Nat) : ApplyAt × Nat :=
  let first := s.firstTick
  let t := s.reg ATTAR_WHEN_at
  match mode with
  | 0 => (.tick first, 0)
  | 1 =>
    let d := t - first.setWidth 32
    (.tick (first + d.setWidth 48), if d.toNat ≥ 2 ^ 31 then 8 else 0)
  | _ =>
    let target := fullTarget s.P (s.fld ATTAR_WHEN_REV_REV) t
    (if reached (mode == 3) target s.P then .tick first else .angle first target (mode == 3), if s.src = 7 then 9 else 0)

/-- APPLY by the owner. -/
def State.attarApply (s : State) (mode : Nat) : State :=
  match s.attarState with
  | 1 => s.cmdRes 6
  | 2 => s.cmdRes 5
  | 4 => s.cmdRes 7
  | _ =>
    match s.applyTarget mode with
    | (x, 0) =>
      if s.clockStopped (s.takesPart s.attar.staged s.attar.reqs) then s.cmdRes 0xA
      else ({ s with attar := { s.attar with target := some x } }.setFld ATTAR_STAT_STATE 4).cmdRes 0
    | (_, c) => s.cmdRes c

/-- Whether a tick with edge position `p` is the apply tick (R243). -/
def ApplyAt.due (x : ApplyAt) (n : BitVec 48) (p : BitVec 64) : Bool :=
  match x with
  | .tick m => n == m
  | .angle first t rev => decide (first.toNat ≤ n.toNat) && reached rev t p

/-- Whether an ABORT comes too late: the apply tick's edge is past, or less than 200 cycles ahead (R247). -/
def State.abortLate (s : State) : Bool :=
  match s.attar.target with
  | none => true
  | some x =>
    let left := ((s.tb.edge + BitVec.ofNat 64 (s.fld TB_TICKLEN_CYCLES)) - s.tb.now).toInt
    decide (left < 200) && x.due (s.tb.tick + 1) ((s.posAfter left.toNat).extractLsb' 16 64)

/-- ABORT of an open session: by its owner, or by FORCE (R247). -/
def State.attarAbort (s : State) (how : Nat) : State :=
  if s.attarState = 4 ∧ s.abortLate = true then s.cmdRes 7 else (s.endSession how).cmdRes 0

/-- A command other than OPEN reaches a session: NOSESSION and NOTOWNER come first (R234). -/
def State.asOwner (s : State) (req : Nat) (f : State → State) : State :=
  if s.attarState = 0 then s.cmdRes 2
  else if s.fld ATTAR_STAT_OWNER ≠ req then s.cmdRes 3
  else f s

/-- A write of ATTAR_CMD by requester `req` (R234). Only the host and the maintenance port reach it (R233). -/
def State.attarCmd (s : State) (req op mode : Nat) (force : Bool) : State :=
  if req < 403 then s
  else match op with
  | 1 => s.attarOpen req
  | 2 => s.asOwner req State.attarCheck
  | 3 => s.asOwner req (fun s => s.attarApply mode)
  | 4 => if force ∧ s.attarState ≠ 0 ∧ s.fld ATTAR_STAT_OWNER ≠ req then s.attarAbort 4 else s.asOwner req (fun s => s.attarAbort 2)
  | _ => s.cmdRes 0xB

/-- CHECK_DONE (R240 to R242): the checker writes its result. -/
def State.checkDone (s : State) : State :=
  if s.attarState ≠ 2 then s
  else
    let os := s.sessionOffences
    let o := (firstOffence os).getD ⟨0, 0, 0⟩
    let s1 := ((((s.setFld ATTAR_CHK_RESULT_COUNT (min os.length 255)).setFld ATTAR_CHK_RESULT_CODE o.code).setFld
      ATTAR_CHK_ADDR_ADDR o.addr).setFld ATTAR_CHK_HANDLE_HANDLE o.handle).setFld ATTAR_IRQ_STAT_CHKDONE 1
    { s1.setFld ATTAR_STAT_STATE (if os.isEmpty && !s.attar.dirty then 3 else 1) with attar := { s1.attar with dirty := false } }

/-- SESSION_TIMEOUT (R247): a session open longer than TIMEOUT ms outside PENDING closes. -/
def State.sessionTimeout (s : State) : State :=
  let ms := s.fld ATTAR_CFG_TIMEOUT
  if 1 ≤ s.attarState ∧ s.attarState ≤ 3 ∧ ms ≠ 0 ∧ 200000 * ms ≤ (s.tb.now - s.attar.since).toNat then s.endSession 3 else s

/-! ## The strobe (R244, R247) -/

/-- At a tick edge (R243, R244): where this is the apply tick, the clocks are sampled and the strobe is sent, or the apply fails. -/
def State.strobe (s : State) : State :=
  match s.attar.target with
  | none => s
  | some x =>
    if s.attarState = 4 ∧ x.due s.tb.tick s.P then
      let s1 : State := { s with attar := { s.attar with target := none } }
      if s.clockStopped (s.takesPart s.attar.staged s.attar.reqs) then
        ((({ s1 with attar := { s1.attar with since := s.tb.now } }.setFld ATTAR_STAT_STATE 3).setFld ATTAR_STAT_LASTFAIL 1).setFld
          ATTAR_IRQ_STAT_APPLYFAIL 1)
      else
        { s1.setFld ATTAR_APPLY_TICK_TICK s.tickLo.toNat with
          strobes := s1.strobes ++ [⟨s.tb.tick, s.strobeDomains s.attar.staged s.attar.reqs, s.attar.staged, s.attar.reqs, true, s.regs, false, 0⟩] }
    else s

/-- A domain that has not taken an apply by the next tick edge makes it LATE (R245); the image's settings are no apply. -/
def State.strobeLate (s : State) : State := if s.strobes.any (fun x => !x.before.isEmpty) then s.setFld ATTAR_STAT_LATE 1 else s

/-! ## What a domain takes (R246) -/

/-- The word of a register after a domain takes its staged fields; of CLK_MOD, MOD_CLK[g] takes DIV[g] and SYS_CLK those of stopped
groups (R420). -/
def State.takeWord (s : State) (d : Domain) (a : Nat) (w : Word) : State :=
  if a = CLK_MOD_at then
    (List.range 4).foldl (fun s g =>
      let mine := match d with | .mod h => h.val == g | .sys => !s.modRuns g | _ => false
      if mine then s.setFld (modDiv g) ((modDiv g).get w) else s) s
  else s.setReg a ((s.reg a &&& ~~~rwsMask a) ||| (w &&& rwsMask a))

/-- The staged registers of a strobe that the domain holds. -/
def State.strobeRegs (s : State) (d : Domain) (x : Strobe) : List (Nat × Word) :=
  x.regs.filterMap (fun p => if (s.regDomains p.1).contains d then p.2.map (fun w => (p.1, w)) else none)

/-- A staged request takes effect at the boundary of tick `n` (R108, R112). -/
def State.applyReq (s : State) (n : BitVec 48) (q : StagedReq) : State :=
  let c := s.chanOf q.slot
  match q.op with
  | 1 =>
    if c.st ≠ .staged then s
    else match startTick n q.desc.start with
    | some m => if m.toNat ≤ n.toNat then s.setSlot q.slot { c with st := .running }
        else s.setSlot q.slot { c with st := .starting, startTick := some m }
    | none => s.setSlot q.slot { c with st := .running }
  | 2 =>
    if c.st = .free ∨ c.st = .staged then s
    else s.setSlot q.slot { c with st := .stopping, stopTick := some n, stop := none, kept := [], resume := none }
  | _ =>
    if c.st = .starting ∨ c.st = .running then s.setSlot q.slot { c with desc := q.desc }
    else if c.st = .faulted then s.setFld ALLOC_STATUS_STAGEDROP 1 else s

/-! ## The commands -/

/-- OPEN. -/
def execOpen (req : Fin 405) (s : State) : Host.Outcome State Fault Refusal := done s (s.attarCmd req.val 1 0 false)
/-- CHECK. -/
def execCheck (req : Fin 405) (s : State) : Host.Outcome State Fault Refusal := done s (s.attarCmd req.val 2 0 false)
/-- CHECK_DONE. -/
def execCheckDone (s : State) : Host.Outcome State Fault Refusal := done s s.checkDone
/-- APPLY. -/
def execApply (req : Fin 405) (mode : Fin 4) (s : State) : Host.Outcome State Fault Refusal :=
  done s (s.attarCmd req.val 3 mode.val false)
/-- ABORT. -/
def execAbort (req : Fin 405) (force : Bool) (s : State) : Host.Outcome State Fault Refusal :=
  done s (s.attarCmd req.val 4 0 force)
/-- PEEK: a write of ATTAR_PEEK_ADDR (R237). -/
def execPeek (a : Word) (s : State) : Host.Outcome State Fault Refusal :=
  done s (let s1 := s.setReg ATTAR_PEEK_ADDR_at a
    s1.setReg ATTAR_PEEK_DATA_at s1.peekData)
/-- SESSION_TIMEOUT. -/
def execSessionTimeout (s : State) : Host.Outcome State Fault Refusal := done s s.sessionTimeout

end Sys2Proof.Machine
end

