-- ==== Sys2Proof/Machine/Lines.lean ====
section
/-! DEFINITION. Barchan lines: cycles, assembly and placement, frames, returns, and the nodes (R55, R269 to R294). -/

namespace Sys2Proof.Machine

/-! ## Lines -/

/-- A line at reset. -/
def lineReset : Line := ⟨false, 0, none, none, none, false, [], [], 0⟩

/-- Line `l`. -/
def State.lineOf (s : State) (l : Nat) : Line := tget lineReset s.lines l

/-- Stores line `l`. -/
def State.setLine (s : State) (l : Nat) (x : Line) : State := { s with lines := tset lineReset s.lines l x }

/-- Whether a line originates frames under settings `cfg` (R287, R289, R292, R307), with the I/O enabled at a tick boundary (R336). -/
def State.lineSends (s : State) (l : Nat) (cfg : Word) : Bool :=
  s.pwr.released && s.pins.on && s.domRuns .line && (BL_CFG_EN l).get cfg == 1 && !s.pairStandby && !s.fb (BL_STAT_DEMOTED l) &&
    s.pair.silent.isNone

/-- The valid segments of a list of BL_SEG words, with their positions. -/
def segsOf (ws : List Word) : List (Nat × Word) :=
  ((List.range ws.length).zip ws).filter (fun p => p.2.toNat.testBit 15)

/-- The node address of a segment word. -/
def segNode (w : Word) : Nat := bits w.toNat 4 0

/-- The segment words of line `l` in force. -/
def State.lineSegs (s : State) (l : Nat) : List Word := (List.range 32).map (fun j => s.reg (BL_SEG_at l j))

/-- d_k of line `l` (R283): as measured, or 40·(j + 1) by segment position until the node has given a fresh status. -/
def Line.delay (x : Line) (segs : List Word) (k : Nat) : Nat :=
  match x.dly.find? (fun p => p.1 == k) with
  | some p => p.2
  | none => match (segsOf segs).find? (fun p => segNode p.2 == k) with
    | some p => 40 * (p.1 + 1)
    | none => 0

/-- What BL_DLY[l][w] reads (R283, R294). -/
def State.dlyWord (s : State) (l w : Nat) : Word :=
  let x := s.lineOf l
  let segs := s.lineSegs l
  BitVec.ofNat 32 (x.delay segs (2 * w + 1) % 2 ^ 16 * 2 ^ 16 + x.delay segs (2 * w) % 2 ^ 16)

/-! ## Assembly and placement (R55, R280) -/

/-- The tick of the next cycle start after the current tick (R272). -/
def State.nextStart (s : State) (l : Nat) : BitVec 48 :=
  let t := s.fld (BL_CFG_TICKS l) + 1
  let n := s.tb.tick.toNat + 1
  s.tb.tick + 1 + BitVec.ofNat 48 (((s.fld (BL_CFG_PHASE l) : Int) - n) % t).toNat

/-- Whether the current tick is a cycle start (R272). -/
def State.isStart (s : State) (l : Nat) : Bool :=
  ((s.tb.tick.toNat : Int) - s.fld (BL_CFG_PHASE l)) % ((s.fld (BL_CFG_TICKS l) : Int) + 1) == 0

/-- The predicted instant of an entry as a number of cycles from now, num / den (R55): its target time, the instant of a jump that
crossed it (R53), or what the position still to go gives at the speed of now; none while it has no predicted instant, as an angle entry
has none while SPEED_OK = 0. A target passed with S = 0 is infinitely early (R51): den = 0. -/
def State.predict (s : State) (a : Action) : Option (Int × Nat) :=
  if a.kind = 0 then some ((a.target - s.tb.now).toInt, 1)
  else if s.tb.speedOk = false then none
  else match a.stand with
  | .due t _ _ => some ((t - s.tb.now).toInt, 1)
  | _ =>
    let gap := (whole a.target - s.tb.pos).toInt
    let d := if a.kind = 1 then gap else -gap
    if s.tb.speed = 0 then (if d ≤ 0 then some (-1, 0) else none)
    else if d > 0 ∧ s.tb.dir = (a.kind == 1) then none else some (d, s.tb.speed.toNat)

/-- The records of a list that name a node, or that every node executes (R278, R280). -/
def strobesAll (code : Nat) : Bool := code == 4 || decide (code ≥ 0x18)

/-- How many records of a frame count for node `k`. -/
def recsFor (recs : List Word) (k : Nat) : Nat :=
  (recs.filter (fun w => bits w.toNat 31 27 == k || strobesAll (bits w.toNat 4 0))).length

/-- Whether the line refuses a placement (R280): the frame is full, by its slots (R273) or by NREC (R277), or a node that would
execute the record has 64 already. -/
def LineCycle.refuses (x : LineCycle) (node code : Nat) : Bool :=
  decide (x.recs.length ≥ min ((x.lead / 8 - 30) / 4) 255) ||
    (if strobesAll code then (segsOf x.segs).any (fun p => decide (recsFor x.recs (segNode p.2) ≥ 64))
     else decide (recsFor x.recs node ≥ 64))

/-- A placed entry: its record (R277), its trace record (R385), and it leaves the store (R55). -/
def State.placeRec (s : State) (k cls : Nat) (a : Action) (win : BitVec 64) (off : Nat) (x : LineCycle) : State × LineCycle :=
  let code := a.value % 32
  let w := BitVec.ofNat 32 (bits a.addr 10 6 * 2 ^ 27 + bits a.addr 5 0 * 2 ^ 21 + off % 2 ^ 16 * 2 ^ 5 + code)
  let s1 := if a.traced then
      s.trace 2 ((win + BitVec.ofNat 64 (8 * off)).setWidth 32) (BitVec.ofNat 32 (cls * 2 ^ 26 + a.addr))
        (BitVec.ofNat 32 (a.tag * 2 ^ 16 + k * 2 ^ 12 + a.owner * 2 ^ 4 + 8 * b2n a.host)) (BitVec.ofNat 32 (off * 2 ^ 16 + code))
    else s
  (s1, { x with recs := x.recs ++ [w] })

/-- An entry meets an assembly: it is placed, refused, dropped, or stays armed (R52, R55, R280). The last part of the answer says
whether it stays. -/
def State.placeOne (s : State) (l k : Nat) (c : BitVec 64) (en : Bool) (y : Line) (x : LineCycle) (a : Action) :
    State × LineCycle × Bool :=
  if a.dest ≠ 1 ∨ bits a.addr 13 11 ≠ l then (s, x, true)
  else match s.predict a with
  | none => (s, x, true)
  | some (num, den) =>
    let node := bits a.addr 10 6
    let code := a.value % 32
    let mapped := en && (segsOf x.segs).any (fun p => segNode p.2 == node)
    let d := if mapped then y.delay x.segs node else 0
    let win := c + BitVec.ofNat 64 d
    -- den · (T − window start)
    let rel := num - (den : Int) * (win - s.tb.now).toInt
    if den ≠ 0 ∧ rel ≥ (den : Int) * x.len then (s, x, true)
    else if mapped = false then (s.addSat (TB_QCNT_OTHER_UNMAPPED k) 1, x, false)
    else if 5 ≤ code ∧ code ≤ 7 then (s.addSat (BL_CNT_BADCODE l) 1, x, false)
    else if rel ≥ 0 then
      if x.refuses node code then ((s.addSat (BL_CNT_TFULL l) 1).setFld (BL_IRQ_STAT_TFULL l) 1, x, true)
      else
        let off := ((2 * rel + 8 * (den : Int)) / (16 * (den : Int))).toNat
        let r := s.placeRec k 0 a win (min off (x.len / 8 - 1)) x
        (r.1, r.2, false)
    else
      let late := ((-rel) + (den : Int) - 1) / (den : Int)
      let cls := if num < (den : Int) * (a.arm - s.tb.now).toInt then 1 else 2
      let fires := a.lateFire && decide (den ≠ 0) && decide (late ≤ (s.grace k : Int))
      if fires then
        if x.refuses node code then ((s.addSat (BL_CNT_TFULL l) 1).setFld (BL_IRQ_STAT_TFULL l) 1, x, true)
        else
          let r := (s.judgeLate k cls true a).placeRec k cls a win 0 x
          (r.1, r.2, false)
      else (s.judgeLate k cls false a, x, false)

/-- The armed entries of sector `k` meet an assembly in arming order. -/
def State.placeSector (s : State) (l k : Nat) (c : BitVec 64) (en : Bool) (y : Line) (x : LineCycle) : State × LineCycle :=
  let r := (s.storeOf k).armed.foldl (fun (acc : State × LineCycle × List Action) a =>
    match acc.1.placeOne l k c en y acc.2.1 a with
    | (s', x', stays) => (s', x', if stays then acc.2.2 ++ [a] else acc.2.2)) (s, x, [])
  let st := s.storeOf k
  (r.1.setStore k { st with armed := r.2.2, freed := st.freed + (st.armed.length - r.2.2.length) }, r.2.1)

/-- Whether the entries of line `l` find its segment map: not with EN = 0, nor with LINE_CLK not locked (R280, R292). -/
def State.lineMapped (s : State) (l : Nat) : Bool := s.fb (BL_CFG_EN l) && s.domRuns .line

/-- The assembly of the cycle that starts at tick `m` with its edge at `c` (R55, R280, R291). -/
def State.assemble (s : State) (l : Nat) (m : BitVec 48) (c : BitVec 64) : State :=
  let cfg := s.reg (BL_CFG_at l)
  let x : LineCycle := ⟨m, cfg, s.fld TB_BLEAD_LEAD, s.lineSegs l, (List.range 8).map (fun p => s.fld (BL_PULSE_LEN p)),
    (s.fld (BL_CFG_TICKS l) + 1) * s.fld TB_TICKLEN_CYCLES, []⟩
  let y := s.lineOf l
  let r := (List.range 16).foldl (fun (acc : State × LineCycle) k =>
    acc.1.placeSector l k c (s.lineMapped l) y acc.2) (s, x)
  r.1.setLine l { r.1.lineOf l with asm := some r.2 }

/-- ASSEMBLY (R55): time passes to LEAD cycles before the next cycle start, where no tick edge lies between, and the frame of that
cycle is assembled. -/
def State.assembly (s : State) (l : Nat) : State :=
  let m := s.nextStart l
  let len := s.fld TB_TICKLEN_CYCLES
  let c := s.tb.edge + BitVec.ofNat 64 ((m - s.tb.tick).toNat * len)
  let a := (c - s.tb.now).toInt - s.fld TB_BLEAD_LEAD
  let left := ((s.tb.edge + BitVec.ofNat 64 len) - s.tb.now).toInt
  if s.pwr.released = false ∨ s.awake = false ∨ ((s.lineOf l).asm.map (·.start)) = some m ∨ a ≥ left then s
  else (s.advance a.toNat).assemble l m c

/-! ## Frames (R273 to R277) -/

/-- The `n` low bytes of a number, lowest first. -/
def leBytes : Nat → Nat → List Nat
  | 0, _ => []
  | n + 1, v => v % 256 :: leBytes n (v / 256)

/-- The bytes of a frame with its CRC (R274). -/
def withCrc (bs : List Nat) : List Nat := bs ++ leBytes 4 (crc32 (bs.map (BitVec.ofNat 8))).toNat

/-- The address of a node's block in the actuator image (R279). -/
def imageAddr (l k : Nat) : Nat := 0x60000000 + l * 0x2000 + k * 0x100

/-- The bytes of the data frame of cycle `c` (R275, R276). -/
def State.dataFrame (s : State) (l : Nat) (x : LineCycle) (c : BitVec 32) : List Nat :=
  let segs := segsOf x.segs
  let sign := (BL_CFG_SIGN l).get x.cfg
  withCrc ([0xD1, b2n s.tripped] ++ leBytes 2 (s.fld BL_EPOCH_EPOCH) ++ leBytes 4 c.toNat ++ leBytes 2 (x.len / 8 - 1) ++
    [segs.length, sign, (BL_CFG_TMO l).get x.cfg, 0] ++ x.pulses.flatMap (leBytes 2) ++
    segs.flatMap (fun p =>
      let a := imageAddr l (segNode p.2)
      [segNode p.2, bits p.2.toNat 9 8] ++ leBytes 4 (s.word a).toNat ++ leBytes 4 (s.word (a + 4)).toNat ++
        List.replicate (8 + 4 * sign) 0))

/-- The bytes of the timed frame whose records belong to cycle `c` (R277). -/
def State.timedFrame (s : State) (x : LineCycle) (c : BitVec 32) : List Nat :=
  withCrc ([0x71, x.recs.length] ++ leBytes 2 (s.fld BL_EPOCH_EPOCH) ++ leBytes 4 c.toNat ++ [0, 0, 0, 0] ++
    x.recs.flatMap (fun w => leBytes 4 w.toNat))

/-! ## Frames received (R274 to R277) -/

end Sys2Proof.Machine

namespace Sys2Proof

/-- Byte `i` of a frame. -/
def LineFrame.byte (f : LineFrame) (i : Nat) : Nat := (f.bytes.getD i 0).toNat

/-- The number that `n` bytes of a frame from byte `i` on spell. -/
def LineFrame.num (f : LineFrame) (i : Nat) : Nat → Nat
  | 0 => 0
  | n + 1 => f.byte i + 256 * f.num (i + 1) n

/-- Whether a frame is good: it ends with EOF, and its CRC matches (R274, R284). -/
def LineFrame.good (f : LineFrame) : Bool :=
  let n := f.bytes.length - 4
  f.eof && decide (4 ≤ f.bytes.length) && (Machine.crc32 (f.bytes.take n)).toNat == f.num n 4

/-- EPOCH of a frame. -/
def LineFrame.epoch (f : LineFrame) : Nat := f.num 2 2
/-- CYCLE of a frame. -/
def LineFrame.cycle (f : LineFrame) : BitVec 32 := BitVec.ofNat 32 (f.num 4 4)
/-- SAFE of a data frame. -/
def LineFrame.safe (f : LineFrame) : Bool := (f.byte 1).testBit 0
/-- CLEN of a data frame. -/
def LineFrame.clen (f : LineFrame) : Nat := f.num 8 2
/-- SIGN of a data frame. -/
def LineFrame.sign (f : LineFrame) : Nat := f.byte 11
/-- TMO of a data frame. -/
def LineFrame.tmo (f : LineFrame) : Nat := f.byte 12
/-- The pulse lengths of a data frame. -/
def LineFrame.pulse (f : LineFrame) : List Nat := (List.range 8).map (fun p => f.num (14 + 2 * p) 2)
/-- The first byte of segment `j` of a data frame. -/
def LineFrame.segAt (f : LineFrame) (j : Nat) : Nat := 30 + (18 + 4 * f.sign) * j
/-- The first byte of the segment of node `k`, where a data frame has one. -/
def LineFrame.mine (f : LineFrame) (k : Nat) : Option Nat :=
  ((List.range (f.byte 10)).map f.segAt).find? (fun o => f.byte o % 32 == k)
/-- FOLLOW, ENOUT and IMG that a data frame brings node `k`, where it has a segment for the node. -/
def LineFrame.seg (f : LineFrame) (k : Nat) : Option (Bool × Bool × BitVec 64) :=
  (f.mine k).map (fun o => ((f.byte (o + 1)).testBit 0, (f.byte (o + 1)).testBit 1, BitVec.ofNat 64 (f.num (o + 2) 8)))
/-- The records of a timed frame (R277). -/
def LineFrame.recs (f : LineFrame) : List Word := (List.range (f.byte 1)).map (fun r => BitVec.ofNat 32 (f.num (12 + 4 * r) 4))

/-- The bytes of a data frame after a node has written its return fields from byte `o` on, with the CRC recomputed (R290). -/
def LineFrame.answered (f : LineFrame) (o : Nat) (ret : List Nat) : List Nat :=
  let body := (f.bytes.take (f.bytes.length - 4)).map BitVec.toNat
  Machine.withCrc (body.take o ++ ret ++ body.drop (o + ret.length))

/-- The return fields of a segment (R276). -/
structure SegReturn where
  node : Nat
  stat : Word
  loop : Nat
  aux : Nat
  sigs : List Word
deriving DecidableEq, Repr

/-- Whether a returned frame is good in itself. -/
def LineReturn.good (f : LineReturn) : Bool := f.frame.good
/-- EPOCH of a returned frame. -/
def LineReturn.epoch (f : LineReturn) : Nat := f.frame.epoch
/-- CYCLE of a returned frame. -/
def LineReturn.cycle (f : LineReturn) : BitVec 32 := f.frame.cycle
/-- The segments of a returned frame. -/
def LineReturn.segs (f : LineReturn) : List SegReturn :=
  let g := f.frame
  ((List.range (g.byte 10)).map g.segAt).map (fun o => ⟨g.byte o % 32, BitVec.ofNat 32 (g.num (o + 10) 4), g.num (o + 14) 2,
    g.num (o + 16) 2, (List.range g.sign).map (fun i => BitVec.ofNat 32 (g.num (o + 18 + 4 * i) 4))⟩)

end Sys2Proof

namespace Sys2Proof.Machine

/-! ## Returns (R283, R284) -/

/-- Node `k` is stale for a cycle (R284). -/
def State.nodeStale (s : State) (l limit k : Nat) : State :=
  let x := s.lineOf l
  let n := tget 0 x.stale k + 1
  let s1 := (s.setLine l { x with stale := tset 0 x.stale k n }).orBit (BL_NODESTALE_STALE l) k
  if n ≥ limit ∧ s1.fbit (BL_NODEMISS_MISS l) k = false then (s1.orBit (BL_NODEMISS_MISS l) k).setFld (BL_IRQ_STAT_MISS l) 1 else s1

/-- Every mapped node of a cycle is stale. -/
def State.allStale (s : State) (l : Nat) (x : LineCycle) : State :=
  (segsOf x.segs).foldl (fun s p => s.nodeStale l ((BL_CFG_MISSLIM l).get x.cfg) (segNode p.2)) (s.setReg (BL_NODESTALE_at l) 0)

/-- No good return has arrived by the next cycle start (R284). -/
def State.noReturn (s : State) (l : Nat) (x : LineCycle) : State :=
  let s : State := { s with ist := { s.ist with link := tset 0 s.ist.link l (tget 0 s.ist.link l + 1) } }
  let s1 := s.allStale l x
  let s2 := if (s1.lineOf l).damaged then s1.addSat (BL_CNT_CRCERR l) 1 else s1.addSat (BL_CNT_NORET l) 1
  (((s2.setFld (BL_IRQ_STAT_RETERR l) 1).setFld (BL_STAT_RETOK l) 0).setLine l { s2.lineOf l with cur := none, damaged := false }).fire
    (0x128 + l)

/-- A fresh status of a mapped node (R282 to R284): readback, delay, WRAP and signatures. -/
def State.nodeFresh (s : State) (l : Nat) (x : LineCycle) (c : BitVec 32) (rtt : Nat) (f : SegReturn) : State :=
  let k := f.node
  let a := imageAddr l k
  let s1 := ((s.setWord (a + 8) f.stat).setWord (a + 12) (BitVec.ofNat 32 (f.loop % 2 ^ 16 * 2 ^ 16 + f.aux % 2 ^ 16))).setWord
    (a + 16) c
  let y := s1.lineOf l
  let d := ((5 * (rtt : Int) - 4 * (f.loop : Int) + 5) / 10).toNat
  let old := y.delay x.segs k
  let jump := decide (((d : Int) - old).natAbs > 8)
  let s2 := ((s1.setLine l { y with dly := tput y.dly k d, stale := tset 0 y.stale k 0 }).offBit (BL_NODEMISS_MISS l) k).offBit
    (BL_NODESTALE_STALE l) k
  let s3 := if jump then s2.setFld (BL_IRQ_STAT_DLYJUMP l) 1 else s2
  let wrap := f.stat.toNat.testBit 30
  let s4 := s3.putBit (BL_NODEWRAP_WRAP l) k wrap
  let s5 := if wrap then s4.setFld (BL_IRQ_STAT_WRAP l) 1 else s4
  f.sigs.foldl (fun s w =>
    if w.toNat.testBit 0 then
      s.trace 3 s.stamp (BitVec.ofNat 32 (l * 2 ^ 24 + k * 2 ^ 16 + c.toNat % 2 ^ 16)) w c
    else s) s5

/-- A good return of the cycle (R284). -/
def State.goodReturn (s : State) (l : Nat) (x : LineCycle) (f : LineReturn) : State :=
  let s1 := (segsOf x.segs).foldl (fun s p =>
    match f.segs.find? (fun q => q.node == segNode p.2 && q.stat.toNat.testBit 31) with
    | some q => s.nodeFresh l x f.cycle f.rtt q
    | none => s.nodeStale l ((BL_CFG_MISSLIM l).get x.cfg) (segNode p.2)) (s.setReg (BL_NODESTALE_at l) 0)
  (((s1.setFld (BL_STAT_RTT l) f.rtt).setFld (BL_STAT_RETOK l) 1).setLine l { s1.lineOf l with cur := none, damaged := false }).fire
    (0x128 + l)

/-- An epoch is seen on a line or in a packet (R311). -/
def State.seeEpoch (s : State) (e : Nat) : State := s.setFld PAIR_PEPOCH_EPOCH (max e (s.fld PAIR_PEPOCH_EPOCH))

/-- A PRIMARY or LONE device will be deposed at its next tick boundary (R313). -/
def State.deposed (s : State) : State :=
  if s.fld PAIR_STAT_ROLE = 4 ∨ s.fld PAIR_STAT_ROLE = 5 then { s with pair := { s.pair with depose := true } } else s

/-- A MARK and the data frame behind it are turned round, with a LOOP of at most 1 µs, which is not stated closer (R287, R307): the
messages hold the line, LOOP in 4 ns units, and whether the frame is damaged with its bytes. -/
def State.turnRound (s : State) (l : Nat) (f : LineFrame) : State :=
  ((s.emit (.message "TURN_MARK" [l, s.free.toNat % 251])).emit
    (.message "TURN" (l :: b2n (!f.good) :: f.bytes.map BitVec.toNat))).fresh

/-- RETURN_RECEIVE (R284, R287, R292, R307, R311, R313). The return of a cycle sent before EN became 0 is still taken (R291). -/
def State.returnReceive (s : State) (l : Nat) (f : LineReturn) : State :=
  if s.pwr.released = false ∨ s.domRuns .line = false then s
  else
  let s := if f.good then s.seeEpoch f.epoch else s
  if s.fb (BL_CFG_EN l) = false ∧ (s.lineOf l).cur = none then s
  else if s.fb (BL_STAT_DEMOTED l) ∧ s.pairStandby = false then
    (if f.good then s.setLine l { s.lineOf l with demoted := max (s.lineOf l).demoted f.epoch } else s).turnRound l f.frame
  else if s.pairStandby then
    (if f.good then s.setFld (BL_CYCLE_CYCLE l) f.cycle.toNat else s).turnRound l f.frame
  else if f.good = true ∧ f.epoch > s.fld BL_EPOCH_EPOCH then
    ((((s.setFld (BL_STAT_DEMOTED l) 1).setFld (BL_IRQ_STAT_DEMOTED l) 1).setLine l
      { s.lineOf l with demoted := f.epoch, cur := none }).turnRound l f.frame).deposed
  else match (s.lineOf l).cur with
  | none => s
  | some x =>
    if f.good = false then s.setLine l { s.lineOf l with damaged := true }
    else if f.cycle = (s.lineOf l).cycle ∧ f.epoch = s.fld BL_EPOCH_EPOCH then s.goodReturn l x f
    else s

/-! ## The cycle start (R272, R273) -/

/-- The assembled cycle begins: frames leave, and the return of the cycle is awaited. The cycle number counts every cycle of an
enabled line, also one in which a demoted or silent line sends nothing (R272); BL_CYCLE is that of the last MARK. A standby role
takes its number from the frames it sees (R307). -/
def State.beginCycle (s : State) (l : Nat) (x : LineCycle) : State :=
  let y := s.lineOf l
  let c := if y.started then y.cycle + 1 else 0
  if s.lineSends l x.cfg then
    let s1 := s.emit (.message "TIMED" (l :: s.timedFrame x c))
    let s2 := (s1.emit (.message "MARK" [l, c.toNat])).emit (.message "DATA" (l :: s.dataFrame l x c))
    (((s2.setFld (BL_CYCLE_CYCLE l) c.toNat).setFld (BL_STAT_RUN l) 1).setB (BL_STAT_SAFE l) s.tripped).setLine l
      { y with started := true, cycle := c, lastTick := some s.tb.tick, asm := none, cur := some x, damaged := false }
  else
    let counts := (BL_CFG_EN l).get x.cfg == 1 && !s.pairStandby
    (s.setFld (BL_STAT_RUN l) 0).setLine l
      { y with started := y.started || counts, cycle := if counts then c else y.cycle, lastTick := some s.tb.tick, asm := none,
               cur := none }

/-- CYCLE_START (R272, R284): at a tick edge that starts a cycle of the line, once for each tick. -/
def State.cycleStart (s : State) (l : Nat) : State :=
  let y := s.lineOf l
  let due := match y.asm with
    | some x => x.start == s.tb.tick
    | none => s.isStart l
  if s.pwr.released = false ∨ s.awake = false ∨ due = false ∨ y.lastTick = some s.tb.tick then s
  else
    let s1 := match y.cur with | some x => s.noReturn l x | none => s
    let s2 := if y.asm.isSome then s1 else s1.assemble l s.tb.tick s.tb.edge
    match (s2.lineOf l).asm with
    | some x => s2.beginCycle l x
    | none => s2

/-- The boundary of an apply meets line `l` (R287, R291, R294): `old` is the state before it. A cycle already sent goes on to its end under
the settings that it was assembled with. -/
def State.lineApply (old s : State) (l : Nat) : State :=
  let en0 := old.fb (BL_CFG_EN l)
  let en1 := s.fb (BL_CFG_EN l)
  if en0 = en1 then s
  else if en1 then
    s.setLine l { s.lineOf l with started := false, dly := [], stale := [], demoted := 0 }
  else (s.setFld (BL_STAT_DEMOTED l) 0).setLine l { s.lineOf l with demoted := 0 }

/-- BL_EPOCH takes a value: a demotion by a lower epoch ends (R294). -/
def State.setEpoch (s : State) (e : Nat) : State :=
  (List.range 8).foldl (fun s l =>
    if s.fb (BL_STAT_DEMOTED l) ∧ (s.lineOf l).demoted < e then s.setFld (BL_STAT_DEMOTED l) 0 else s) (s.setFld BL_EPOCH_EPOCH e)

/-! ## Nodes (R281, R282, R285 to R290) -/

/-- Node `k` of line `l` at its power-up: OFFLINE, its outputs in its safe state (R285). -/
def nodeReset (l k : Nat) : Node :=
  ⟨.offline, 0, 0, none, none, 0, Config.nodeSafe l k, 0, 8, [], [], 0, [], [], 0, 0, 0, false, false, 0, 0, false⟩

/-- Node `k` of line `l`. -/
def State.nodeOf (s : State) (l k : Nat) : Node := tget (nodeReset l k) s.nodes (32 * l + k)

/-- Stores a node. -/
def State.setNode (s : State) (l k : Nat) (x : Node) : State := { s with nodes := tset (nodeReset l k) s.nodes (32 * l + k) x }

/-- A node goes to OFFLINE or HOLD: its outputs take their safe state, and nothing is armed or pending (R285). -/
def Node.safe (x : Node) (l k : Nat) (st : NodeState) : Node :=
  { x with st := st, outs := Config.nodeSafe l k, armed := [], pulses := [], ready := 0 }

/-- A count that saturates at 255. -/
def sat8 (n : Nat) : Nat := min n 255

/-- The status word that a node writes (R281). -/
def Node.stat (x : Node) (more : Bool) (nfault : Nat) : Nat :=
  2 ^ 31 + b2n x.wrap * 2 ^ 30 + b2n (x.st != .run) * 2 ^ 29 + b2n x.eprej * 2 ^ 28 + b2n more * 2 ^ 27 + x.rxerr * 2 ^ 16 +
    x.siglost * 2 ^ 8 + nfault % 256

/-- A signature slot (R282): what the coil did is measured, so PEAK, RISE, OPEN and SHORT are free. -/
def sigWord (free : Word) (o : Nat) (age : Nat) : Nat :=
  o * 2 ^ 26 + (free.toNat / 2 ^ 8 % 2 ^ 18) * 2 ^ 8 + min age 15 * 2 ^ 4 + (free.toNat / 4 % 4) * 4 + 1

/-- What leaves node `k` after an outbound frame (R288, R290): the frame goes on downstream, but not from the terminator; a terminator and
a node that wraps send a data frame upstream too. The message holds the line, the node, whether the frame ends in ABORT, and its
bytes. -/
def State.nodeSends (s : State) (l k : Nat) (data : Bool) (f : LineFrame) (bytes : List Nat) : State :=
  let m := l :: k :: b2n (!f.good) :: bytes
  { s with outbox := s.outbox ++ (if Config.nodeTerm l k then [] else [.message "NODE_FORWARD" m]) ++
      (if data && (Config.nodeTerm l k || (s.nodeOf l k).wrap) then [.message "NODE_TURN" m] else []) }

/-- NODE_DATA_FRAME (R285, R287 to R290): a frame that the node accepts goes on with its return fields and a new CRC; a damaged one goes
on with ABORT at its end, and one of a lower epoch unchanged. -/
def State.nodeData (s : State) (l k : Nat) (f : LineFrame) (loop aux nfault : Nat) : State :=
  let x := s.nodeOf l k
  let same := f.bytes.map BitVec.toNat
  if x.st = .offline then s
  else if f.good = false then
    (s.setNode l k { x with rxerr := sat8 (x.rxerr + 1), ready := 0, data := none }).nodeSends l k true f same
  else if f.epoch < x.epoch then (s.setNode l k { x with eprej := true }).nodeSends l k true f same
  else
    let seg := f.seg k
    let ready := match seg with | some (_, en, _) => if en && !f.safe then x.ready + 1 else 0 | none => 0
    let hold := x.st == .run && (f.safe || (match seg with | some (_, en, _) => !en | none => false))
    let out := x.sigs.take f.sign
    let rest := x.sigs.drop f.sign
    let slots := out.map (fun p => sigWord (Config.freeWord (s.freeCtr + p.1)) p.1 (f.cycle - p.2).toNat)
    let ret := leBytes 4 (x.stat (!rest.isEmpty) nfault) ++ leBytes 2 loop ++ leBytes 2 aux ++
      (slots ++ List.replicate (f.sign - slots.length) 0).flatMap (leBytes 4)
    let x1 : Node := { x with epoch := f.epoch, ready := ready, data := some f }
    let x2 := if seg.isSome then { x1 with sigs := rest, rxerr := 0, siglost := 0, eprej := false } else x1
    let x3 := if hold then { x2.safe l k .hold with ready := ready } else x2
    let s1 := { s with freeCtr := s.freeCtr + 64 }.setNode l k x3
    s1.nodeSends l k true f (match f.mine k with | some o => f.answered (o + 10) ret | none => same)

/-- NODE_TIMED_FRAME (R286 to R288, R290). -/
def State.nodeTimed (s : State) (l k : Nat) (f : LineFrame) : State :=
  let x := s.nodeOf l k
  if x.st = .offline then s
  else
    let y : Node := if f.good = false then { x with rxerr := sat8 (x.rxerr + 1), timed := none }
      else if f.epoch < x.epoch then { x with eprej := true } else { x with epoch := f.epoch, timed := some f }
    (s.setNode l k y).nodeSends l k false f (f.bytes.map BitVec.toNat)

/-- The count of cycles without and with a good return from downstream, and WRAP (R288): a cycle that is neither breaks the row. The
terminator waits for no return. -/
def Node.wrapCount (x : Node) (term down : Bool) : Node :=
  let no := if term then x.noRet else if down then 0 else if x.data.isSome then x.noRet + 1 else 0
  let got := if term then x.goodRet else if down then x.goodRet + 1 else 0
  let wrap := if term then x.wrap else if down then x.wrap && decide (got < 2) else x.wrap || (x.data.isSome && decide (2 ≤ no))
  { x with noRet := no, goodRet := got, wrap := wrap }

/-- A MARK goes on downstream, and upstream from the terminator or a node that wraps (R288). -/
def State.nodeMarks (s : State) (l k : Nat) : State :=
  { s with outbox := s.outbox ++ (if Config.nodeTerm l k then [] else [.message "NODE_FORWARD_MARK" [l, k]]) ++
      (if Config.nodeTerm l k || (s.nodeOf l k).wrap then [.message "NODE_TURN_MARK" [l, k]] else []) }

/-- The records that a MARK arms for node `k`: its own and those for every node; one beyond CLEN is ignored and counts (R286). -/
def Node.arm (x : Node) (k : Nat) (recs : List Word) : Node :=
  let mine := recs.filter (fun w => bits w.toNat 31 27 == k || strobesAll (bits w.toNat 4 0))
  let good := mine.filter (fun w => decide (bits w.toNat 20 5 ≤ x.clen))
  { x with armed := good, rxerr := sat8 (x.rxerr + (mine.length - good.length)) }

/-- NODE_MARK (R285, R286): a MARK reaches the node, or is damaged or missed (`good` false). `down`: a good returned data frame of the
owner's epoch has come from downstream since the last MARK (R288). A missed MARK opens no window, and what was received for it is gone. Without the data frame of the cycle before, the settings stay,
FOLLOW among them, so that the outputs still take the staged image under it. -/
def State.nodeMark (s : State) (l k : Nat) (good down : Bool) : State :=
  let x := s.nodeOf l k
  if x.st = .offline then s
  else if good = false then
    let x0 := x.wrapCount (Config.nodeTerm l k) down
    s.setNode l k { x0 with rxerr := sat8 (x.rxerr + 1), armed := [], data := none, timed := none
                            ready := if x.data.isSome then x0.ready else 0 }
  else
    let x0 := x.wrapCount (Config.nodeTerm l k) down
    let x1 : Node := if x0.st = .hold ∧ x0.ready ≥ 2 ∧ x0.data.isSome then { x0 with st := .run, outs := 0, pulses := [], armed := [] }
      else { x0 with ready := if x0.data.isSome then x0.ready else 0 }
    let clear (y : Node) : Node := { y with data := none, timed := none, mark := s.tb.now }
    let step2 (y : Node) : Node := if y.follow then { y with outs := y.image, pulses := [] } else y
    if x1.st ≠ .run then (s.setNode l k (clear x1)).nodeMarks l k
    else
      match x1.data with
      | none => (s.setNode l k (clear { step2 x1 with armed := [] })).nodeMarks l k
      | some f =>
        let x2 : Node := { x1 with clen := f.clen, tmo := f.tmo, pulse := f.pulse, window := f.cycle + 1
                                   image := (match f.seg k with | some (_, _, i) => i | none => x1.image)
                                   follow := (match f.seg k with | some (b, _, _) => b | none => x1.follow) }
        let x3 := step2 x2
        let x4 := match x1.timed with
          | some t => if t.cycle = f.cycle + 1 then x3.arm k t.recs else { x3 with armed := [] }
          | none => { x3 with armed := [] }
        (s.setNode l k (clear x4)).nodeMarks l k

/-- Queues the signatures of outputs that a firing turned on, up to the queue's size (R282, R290). -/
def Node.sign (x : Node) (l k : Nat) (was : BitVec 64) : Node :=
  (bitList (x.outs &&& ~~~was).toNat 64).foldl (fun y o =>
    if y.sigs.length ≥ 64 + Config.sigExtra l k then { y with siglost := sat8 (y.siglost + 1) }
    else { y with sigs := y.sigs ++ [(o, y.window)] }) x

/-- Bit `o` of an output word stored. -/
def putOut (w : BitVec 64) (o : Nat) (v : Bool) : BitVec 64 :=
  if v then w ||| BitVec.ofNat 64 (2 ^ o) else w &&& ~~~(BitVec.ofNat 64 (2 ^ o))

/-- One record executes at the instant `t` (R278). -/
def Node.exec (x : Node) (t : BitVec 64) (w : Word) : Node :=
  let o := bits w.toNat 26 21
  let code := bits w.toNat 4 0
  let stop (t : BitVec 64) (p : Nat) : BitVec 64 := t + BitVec.ofNat 64 (x.pulse.getD p 0 * 200)
  let drop := x.pulses.filter (fun q => q.2 != o)
  if code = 0 then { x with outs := putOut x.outs o false, pulses := drop }
  else if code = 1 then { x with outs := putOut x.outs o true, pulses := drop }
  else if code = 2 then { x with outs := putOut x.outs o (!x.outs.toNat.testBit o), pulses := drop }
  else if code = 3 ∨ code = 4 then { x with outs := x.image, pulses := [] }
  else if code < 8 then x
  else if code < 16 then { x with outs := putOut x.outs o true, pulses := drop ++ [(stop t (code - 8), o)] }
  else { x with outs := x.image, pulses := (bitList x.image.toNat 64).map (fun o => (stop t (code % 8), o)) }

/-- Pulse ends at or before `t` turn their outputs off (R286). -/
def Node.endPulses (x : Node) (t : BitVec 64) : Node :=
  let due := x.pulses.filter (fun q => decide (q.1.toNat ≤ t.toNat))
  { x with outs := due.foldl (fun w q => putOut w q.2 false) x.outs, pulses := x.pulses.filter (fun q => !decide (q.1.toNat ≤ t.toNat)) }

/-- NODE_FIRING (R286): the next step of the window that has records: pulse ends first, then the records in order. -/
def State.nodeFiring (s : State) (l k : Nat) : State :=
  let x := s.nodeOf l k
  if x.st ≠ .run then s
  else match x.armed with
  | [] => s
  | w :: r =>
    let off (w : Word) : Nat := bits w.toNat 20 5
    let o := r.foldl (fun m w => min m (off w)) (off w)
    let t := x.mark + BitVec.ofNat 64 (8 * o)
    let x1 := x.endPulses t
    let x2 := (x.armed.filter (fun w => off w == o)).foldl (fun y w => y.exec t w) x1
    s.setNode l k (({ x2 with armed := x.armed.filter (fun w => off w != o) }).sign l k x1.outs)

/-- NODE_PULSE_END (R278): the earliest pending pulse ends. -/
def State.nodePulseEnd (s : State) (l k : Nat) : State :=
  let x := s.nodeOf l k
  match x.pulses with
  | [] => s
  | q :: r => s.setNode l k (x.endPulses (r.foldl (fun m q => if q.1.toNat < m.toNat then q.1 else m) q.1))

/-- NODE_SYMBOL_LOCK (R285). -/
def State.nodeLock (s : State) (l k : Nat) : State :=
  let x := s.nodeOf l k
  if x.st = .offline then s.setNode l k (x.safe l k .hold) else s

/-- NODE_LOCK_LOSS (R285). -/
def State.nodeLost (s : State) (l k : Nat) : State :=
  s.setNode l k { (s.nodeOf l k).safe l k .offline with data := none, timed := none }

/-- NODE_TIMEOUT (R289). -/
def State.nodeTimeout (s : State) (l k : Nat) : State :=
  let x := s.nodeOf l k
  if x.st = .run then s.setNode l k (x.safe l k .hold) else s

/-- NODE_EPOCH_RELEASE (R287). -/
def State.nodeRelease (s : State) (l k : Nat) : State := s.setNode l k { s.nodeOf l k with epoch := 0 }

/-! ## The commands -/

/-- ASSEMBLY. -/
def execAssembly (l : Fin 8) (s : State) : Host.Outcome State Fault Refusal := done s (s.assembly l.val)
/-- CYCLE_START. -/
def execCycleStart (l : Fin 8) (s : State) : Host.Outcome State Fault Refusal := done s (s.cycleStart l.val)
/-- RETURN_RECEIVE. -/
def execReturnReceive (l : Fin 8) (f : LineReturn) (s : State) : Host.Outcome State Fault Refusal := done s (s.returnReceive l.val f)
/-- NODE_SYMBOL_LOCK. -/
def execNodeSymbolLock (l : Fin 8) (k : Fin 32) (s : State) : Host.Outcome State Fault Refusal := done s (s.nodeLock l.val k.val)
/-- NODE_LOCK_LOSS. -/
def execNodeLockLoss (l : Fin 8) (k : Fin 32) (s : State) : Host.Outcome State Fault Refusal := done s (s.nodeLost l.val k.val)
/-- NODE_DATA_FRAME. -/
def execNodeDataFrame (l : Fin 8) (k : Fin 32) (f : LineFrame) (loop aux nfault : Nat) (s : State) :
    Host.Outcome State Fault Refusal := done s (s.nodeData l.val k.val f loop aux nfault)
/-- NODE_TIMED_FRAME. -/
def execNodeTimedFrame (l : Fin 8) (k : Fin 32) (f : LineFrame) (s : State) : Host.Outcome State Fault Refusal :=
  done s (s.nodeTimed l.val k.val f)
/-- NODE_MARK. -/
def execNodeMark (l : Fin 8) (k : Fin 32) (good down : Bool) (s : State) : Host.Outcome State Fault Refusal :=
  done s (s.nodeMark l.val k.val good down)
/-- NODE_FIRING. -/
def execNodeFiring (l : Fin 8) (k : Fin 32) (s : State) : Host.Outcome State Fault Refusal := done s (s.nodeFiring l.val k.val)
/-- NODE_PULSE_END. -/
def execNodePulseEnd (l : Fin 8) (k : Fin 32) (s : State) : Host.Outcome State Fault Refusal := done s (s.nodePulseEnd l.val k.val)
/-- NODE_TIMEOUT. -/
def execNodeTimeout (l : Fin 8) (k : Fin 32) (s : State) : Host.Outcome State Fault Refusal := done s (s.nodeTimeout l.val k.val)
/-- NODE_EPOCH_RELEASE. -/
def execNodeEpochRelease (l : Fin 8) (k : Fin 32) (s : State) : Host.Outcome State Fault Refusal := done s (s.nodeRelease l.val k.val)

end Sys2Proof.Machine
end

