-- ==== Sys2Proof/Machine/Sector.lean ====
section
/-! DEFINITION. Sector DMA control, mailboxes, the fabric's scratchpad port, error injection and the vault's wipe (R213, R218 to
R232). The words that a DMA channel moves stand with the device bus. -/

namespace Sys2Proof.Machine

/-! ## Scratchpad collisions (R213) -/

/-- Whether a write of a scratchpad is one that a write on port A can meet in the same cycle (R22, R213): a full word of a port B that takes
one cycle, in the normal or the rotate view. -/
def meetsPortA (a size : Nat) : Bool := size == 4 && (regionOf a == .scratch 0 || regionOf a == .scratch 3)

/-- A port B write of requester `req` at `a` was discarded: recorded in the sector of the scratchpad. -/
def State.collide (s : State) (a req : Nat) : State :=
  let k := eccSector a
  if s.fb (SCR_IRQ_STAT_COLL k) then s.setFld (SCR_COLL_REQ_OVERFLOW k) 1
  else ((s.setFld (SCR_COLL_ADDR_ADDR k) a).setFld (SCR_COLL_REQ_REQUESTER k) req).setFld (SCR_IRQ_STAT_COLL k) 1

/-! ## DMA channels (R219, R220) -/

/-- Whether channel `j` of sector `k` is BUSY. -/
def State.dmaBusy (s : State) (k j : Nat) : Bool := s.fb (DMA_STAT_BUSY k j)

/-- Whether channel `j` of sector `k` is ARMED. -/
def State.dmaArmed (s : State) (k j : Nat) : Bool := s.fb (DMA_STAT_ARMED k j)

/-- A block ends with a code (R220). After DONE with REPEAT the channel is armed again (R219). -/
def State.dmaEnd (s : State) (k j code : Nat) : State :=
  let again := code == 1 && s.fb (DMA_CTRL_TRIG k j) && s.fb (DMA_CTRL_REPEAT k j)
  let s1 := (((s.setFld (DMA_STAT_BUSY k j) 0).setB (DMA_STAT_ARMED k j) again).setFld (DMA_STAT_CODE k j) code).setFld
    (SCR_IRQ_STAT_DMAEND k) 1
  { s1 with
    dmaTrig := if again then s1.dmaTrig else tset none s1.dmaTrig (8 * k + j) none
    dmaAbort := tset false s1.dmaAbort (8 * k + j) false }

/-- A block starts: BUSY, no word written yet. -/
def State.dmaStart (s : State) (k j : Nat) : State :=
  ((s.setFld (DMA_STAT_BUSY k j) 1).setFld (DMA_STAT_ARMED k j) 0).setFld (DMA_STAT_DONE k j) 0

/-- Whether the descriptor of a channel is bad (R219). -/
def State.dmaBad (s : State) (k j : Nat) : Bool :=
  let n := s.fld (DMA_COUNT_COUNT k j)
  n == 0 || decide (n > 65536) || decide (s.fld (DMA_SRC_SRC k j) % 4 ≠ 0) || decide (s.fld (DMA_DST_DST k j) % 4 ≠ 0) ||
    (s.fb (DMA_CTRL_TRIG k j) && (eventReserved (s.fld (DMA_CTRL_EVENT k j)) || s.fld (DMA_CTRL_EVENT k j) == 0x1FF))

/-- GO: the descriptor is checked, and the channel starts or is armed (R219). -/
def State.dmaGo (s : State) (k j : Nat) : State :=
  if s.dmaBad k j then (s.setFld (DMA_STAT_DONE k j) 0).dmaEnd k j 6
  else if s.fb (DMA_CTRL_TRIG k j) then
    { s.setFld (DMA_STAT_ARMED k j) 1 with dmaTrig := tset none s.dmaTrig (8 * k + j) (some (s.fld (DMA_CTRL_EVENT k j))) }
  else s.dmaStart k j

/-- ABORT: an armed channel is disarmed; in a busy one the word in flight completes and no further word starts (R220). -/
def State.dmaStop (s : State) (k j : Nat) : State :=
  if s.dmaBusy k j then { s with dmaAbort := tset false s.dmaAbort (8 * k + j) true }
  else if s.dmaArmed k j then
    { s.setFld (DMA_STAT_ARMED k j) 0 with dmaTrig := tset none s.dmaTrig (8 * k + j) none }
  else s

/-- A write of DMA_CTRL (R219, R231): while BUSY or ARMED only ABORT acts. -/
def State.dmaCtrl (s : State) (k j : Nat) (v : Word) : State :=
  if s.dmaBusy k j || s.dmaArmed k j then (if v.toNat.testBit 30 then s.dmaStop k j else s)
  else
    let s1 := s.setReg (DMA_CTRL_at k j) (v &&& 0x03C001FF)
    if v.toNat.testBit 31 then s1.dmaGo k j else s1

/-- An event reaches the armed or busy channels of sector `k` that wait for it (R219). -/
def State.dmaEvent (s : State) (k e : Nat) : State :=
  (List.range 8).foldl (fun s j =>
    if tget none s.dmaTrig (8 * k + j) = some e then
      if s.dmaBusy k j then s.setFld (DMA_STAT_TRIGOVF k j) 1
      else if s.dmaArmed k j then s.dmaStart k j else s
    else s) s

/-! ## Fabric: scratchpad port and mailbox (R227 to R230) -/

/-- A request of the fabric is served on port B (R228): a write whose data a collision discards is lost. -/
def State.fabServe (s : State) (k : Nat) (coll : Bool) (q : FabReq) : State :=
  let a := 0x10000000 + k * 0x40000 + 4 * (q.word % 0x10000)
  let ret (s : State) (r : FabRet) : State := s.setFab k { s.fabOf k with rets := (s.fabOf k).rets ++ [r] }
  if q.view = 3 then ret s ⟨0, true⟩
  else if q.we then
    if s.pairStandby then s.localWrite
    else if coll && q.view == 0 then s.collide a (384 + k)
    else (s.memWrite q.view a 4 q.data.toNat).toPartner "WRITE" [a + 0x1000000 * q.view, 4, q.data.toNat]
  else
    match (s.touch a).readWord a with
    | (s1, w, bad) => ret s1 ⟨w, bad⟩

/-- The requests that wait are served in order once SECT_CLK runs (R216, R228). -/
def State.fabServeAll (s : State) (k : Nat) (coll : Bool) : State :=
  if s.sectRuns k then
    let qs := (s.fabOf k).reqs
    qs.foldl (fun s q => s.fabServe k coll q) (s.setFab k { s.fabOf k with reqs := [] })
  else s

/-- FABRIC_SP_REQUEST (R228): taken while fewer than 4 requests are outstanding. Where the cells give the requests themselves, those
that wait are served. -/
def State.fabRequest (s : State) (k : Nat) (q : FabReq) (coll : Bool) : State :=
  let f := s.fabOf k
  if s.fabLoaded k then s.fabServeAll k coll
  else if s.fabricRuns k = false ∨ f.reqs.length + f.rets.length ≥ 4 then s
  else (s.setFab k { f with reqs := f.reqs ++ [q] }).fabServeAll k coll

/-- FABRIC_SP_RETURN (R228): the oldest read return reaches the fabric, which sees it at its next edge, with SP_ERR in its third
word. -/
def State.fabReturn (s : State) (k : Nat) : State :=
  let s1 := s.fabServeAll k false
  if s1.fabRuns (k / 2) = false then s1
  else match (s1.fabOf k).rets with
  | [] => s1
  | r :: rest => (s1.setFab k { s1.fabOf k with rets := rest, back := some r }).emit (.message "SP_RDATA" [k, r.data.toNat, b2n r.err])

/-- A bus write of mailbox word `j` (R229); one that finds SECT_CLK[k] stopped waits (R230). -/
def State.mbxTofab (s : State) (k j : Nat) (v : Word) : State :=
  if s.sectRuns k = false then s.setFab k { s.fabOf k with tos := (s.fabOf k).tos ++ [(j, v)] }
  else if s.fbit (MBX_STAT_TOFULL k) j then (s.setFld (MBX_STAT_TOOVF k) 1).setFld (SCR_IRQ_STAT_MBXOVF k) 1
  else ((s.setReg (MBX_TOFAB_at k j) v).orBit (MBX_STAT_TOFULL k) j).toPartner "WRITE" [MBX_TOFAB_at k j, 4, v.toNat]

/-- A bus write of mailbox word `j` by a requester of this device: a standby discards it (R303). -/
def State.mbxWrite (s : State) (k j : Nat) (v : Word) : State := if s.pairStandby then s.localWrite else s.mbxTofab k j v

/-- A word of the fabric arrives in mailbox word `j` (R229). -/
def State.mbxPut (s : State) (k j : Nat) (v : Word) : State :=
  if s.fbit (MBX_STAT_FROMFULL k) j then (s.setFld (MBX_STAT_FROMOVF k) 1).setFld (SCR_IRQ_STAT_MBXOVF k) 1
  else ((s.setReg (MBX_FROMFAB_at k j) v).orBit (MBX_STAT_FROMFULL k) j).setFld (SCR_IRQ_STAT_MBXIN k) 1

/-- What the fabric has launched towards the mailbox, and what the bus has written, arrives once SECT_CLK[k] runs (R229, R230). -/
def State.mbxDrain (s : State) (k : Nat) : State :=
  if s.sectRuns k = false then s
  else
    let f := s.fabOf k
    let s1 := s.setFab k { f with acks := [], froms := [], tos := [], bells := f.bells + f.rings, rings := 0 }
    let s2 := f.froms.foldl (fun s p => s.mbxPut k p.1 p.2) (f.acks.foldl (fun s j => s.offBit (MBX_STAT_TOFULL k) j) s1)
    f.tos.foldl (fun s p => s.mbxTofab k p.1 p.2) s2

/-- The fabric acknowledges mailbox word `j` (R229). Where the cells give the acknowledges themselves, those launched arrive. -/
def State.mbxAck (s : State) (k j : Nat) : State :=
  if s.fabLoaded k then s.mbxDrain k
  else if s.fabricRuns k = false then s
  else (s.setFab k { s.fabOf k with acks := (s.fabOf k).acks ++ [j] }).mbxDrain k

/-- The fabric writes mailbox word `j` (R229). Where the cells give the words themselves, those launched arrive. -/
def State.mbxFrom (s : State) (k j : Nat) (v : Word) : State :=
  if s.fabLoaded k then s.mbxDrain k
  else if s.fabricRuns k = false then s
  else (s.setFab k { s.fabOf k with froms := (s.fabOf k).froms ++ [(j, v)] }).mbxDrain k

/-- A write of MBX_DOORBELL pulses MBX_DB (R229), once SECT_CLK[k] runs (R230). -/
def State.mbxRing (s : State) (k : Nat) (v : Word) : State :=
  let f := s.fabOf k
  if v.toNat.testBit 0 = false then s
  else s.setFab k (if s.sectRuns k then { f with bells := f.bells + 1 } else { f with rings := f.rings + 1 })

/-- What a hold of sector `k` clears: mailbox words and flags, and what is outstanding between fabric and sector (R230, R351). -/
def State.fabClear (s : State) (k : Nat) : State :=
  let s1 := (List.range 8).foldl (fun s j => (s.setReg (MBX_TOFAB_at k j) 0).setReg (MBX_FROMFAB_at k j) 0) s
  (s1.setReg (MBX_STAT_at k) 0).setFab k { s1.fabOf k with reqs := [], rets := [], acks := [], froms := [], back := none, tos := [], rings := 0 }

/-! ## Error injection (R231) -/

/-- A write of SCR_INJ: the bits are stored, and ARM is set by a 1. -/
def State.injWrite (s : State) (k : Nat) (v : Word) : State :=
  s.setReg (SCR_INJ_at k) ((v &&& 0x80007F3F) ||| (s.reg (SCR_INJ_at k) &&& 0x80000000))

/-! ## The vault (R224, R225) -/

/-- A wipe event with its cause (R224); during a wipe it is only recorded as the last cause (R225). -/
def State.vaultWipe (s : State) (cause : Nat) : State := { s.setFld VAULT_STAT_WIPING 1 with wipe := some cause }

/-- A write of VAULT_WIPE by requester `req` (R223, R224). -/
def State.wipeCommand (s : State) (req : Nat) (v : Word) : State :=
  if s.denied req VAULT_WIPE_at true then (if req ≥ 403 then s.accessError req VAULT_WIPE_at false false true else s)
  else if v.toNat / 2 ^ 16 = 0xA5C3 ∧ v.toNat.testBit 0 = true then s.vaultWipe 3 else s

/-- WIPE_DONE (R224, R225): every word of the vault is 0 with valid check bits and WPROT is 0. -/
def State.wipeDone (s : State) : State :=
  match s.wipe with
  | none => s
  | some c =>
    let inVault (a : Nat) : Bool := a / 0x10000 == 0x5000
    let s1 : State := { s with
      mem := s.mem.filter (fun p => !inVault p.1), ecc := s.ecc.filter (fun p => !inVault (4 * p.1)), wipe := none }
    ((((s1.setFld VAULT_STAT_WIPING 0).setFld VAULT_STAT_LASTCAUSE c).addSat VAULT_CNT_WIPES 1).setFld VAULT_IRQ_STAT_WIPED 1).setFld
      VAULT_WPROT_PAGES 0

/-! ## The commands -/

/-- DMA_GO: a write of DMA_CTRL with GO set. -/
def execDmaGo (k : Fin 16) (j : Fin 8) (v : Word) (s : State) : Host.Outcome State Fault Refusal :=
  done s (s.bayGate k.val (DMA_CTRL_at k.val j.val) (fun s => s.dmaCtrl k.val j.val (v ||| 0x80000000)))
/-- DMA_ABORT: a write of DMA_CTRL with ABORT set. -/
def execDmaAbort (k : Fin 16) (j : Fin 8) (s : State) : Host.Outcome State Fault Refusal :=
  done s (s.bayGate k.val (DMA_CTRL_at k.val j.val) (fun s => s.dmaStop k.val j.val))
/-- FABRIC_SP_REQUEST. -/
def execFabricSpRequest (k : Fin 16) (we : Bool) (view : Fin 4) (word : BitVec 16) (data : Word) (coll : Bool) (s : State) :
    Host.Outcome State Fault Refusal := done s (s.fabRequest k.val ⟨we, view.val, word.toNat, data⟩ coll)
/-- FABRIC_SP_RETURN. -/
def execFabricSpReturn (k : Fin 16) (s : State) : Host.Outcome State Fault Refusal := done s (s.fabReturn k.val)
/-- MBX_TOFAB_WRITE. -/
def execMbxTofabWrite (k : Fin 16) (j : Fin 8) (v : Word) (s : State) : Host.Outcome State Fault Refusal :=
  done s (s.bayGate k.val (MBX_TOFAB_at k.val j.val) (fun s => s.mbxWrite k.val j.val v))
/-- MBX_TO_ACK. -/
def execMbxToAck (k : Fin 16) (j : Fin 8) (s : State) : Host.Outcome State Fault Refusal := done s (s.mbxAck k.val j.val)
/-- MBX_FROM_WR. -/
def execMbxFromWr (k : Fin 16) (j : Fin 8) (v : Word) (s : State) : Host.Outcome State Fault Refusal :=
  done s (s.mbxFrom k.val j.val v)
/-- MBX_DOORBELL. -/
def execMbxDoorbell (k : Fin 16) (v : Word) (s : State) : Host.Outcome State Fault Refusal :=
  done s (s.bayGate k.val (MBX_DOORBELL_at k.val) (fun s => s.mbxRing k.val v))
/-- SCR_INJ_ARM. -/
def execScrInjArm (k : Fin 16) (v : Word) (s : State) : Host.Outcome State Fault Refusal :=
  done s (s.bayGate k.val (SCR_INJ_at k.val) (fun s => s.injWrite k.val (v ||| 0x80000000)))
/-- VAULT_WIPE. -/
def execVaultWipe (req : Fin 405) (v : Word) (s : State) : Host.Outcome State Fault Refusal := done s (s.wipeCommand req.val v)
/-- WIPE_DONE. -/
def execWipeDone (s : State) : Host.Outcome State Fault Refusal := done s s.wipeDone

end Sys2Proof.Machine
end

