-- ==== Sys2Proof/Machine/Pair.lean ====
section
/-! DEFINITION. The Ubvel pair: link and alive pins, roles, mirroring and shadow execution, the loss of a partner, joins (R295 to
R317). -/

namespace Sys2Proof.Machine

/-! ## Fitness and roles (R299, R300) -/

/-- The role of the device (R299): 0 OFF, 1 SEEK, 2 JOINING, 3 STANDBY, 4 PRIMARY, 5 LONE, 6 DEPOSED. -/
def State.role (s : State) : Nat := s.fld PAIR_STAT_ROLE

/-- The causes of the device-fault class that are in force (R370, R371): sources 5 to 11 and 13, and TAMPER where TAMPCLASS named
the class as it arose. -/
def State.deviceCauses (s : State) : Nat :=
  let c := s.fld SAFE_CAUSE_CAUSE
  (c &&& 0x2FE0) ||| (if s.safe.tampDev then c &&& 0x1000 else 0)

/-- Whether the device is fit (R300, R373). -/
def State.fit (s : State) : Bool :=
  s.pwr.released && s.role != 6 && !s.pair.resigned && s.awake && s.deviceCauses == 0 && !s.fb SAFE_STAT_HANDOVER

/-- Replaces what the pair keeps. -/
def State.withPair (s : State) (f : Pair → Pair) : State := { s with pair := f s.pair }

/-- PAIR_ALIVE_OUT of a device that is not fit is low (R296). -/
def State.dropAlive (s : State) : State := if s.fit then s else s.withPair (fun p => { p with aliveOut := false })

/-- What PAIR_ALIVE_OUT shows (R296): nothing drives it while the device is unpowered, in reset or not configured. -/
def State.alivePin (s : State) : Option Bool :=
  if s.pwr.railsUp ∧ s.pwr.held = false ∧ s.pwr.released then some (s.fit && s.pair.aliveOut) else none

/-- The device takes a role; the standby role releases shared pins at once (R266). -/
def State.setRole (s : State) (r : Nat) : State :=
  let s1 := s.setFld PAIR_STAT_ROLE r
  if s1.pairStandby then
    (List.range 32).foldl State.dacForce { s1 with baySw := { s1.baySw with outs := 0xFFFF }, pins := { s1.pins with shared := true } }
  else s1

/-- READY of PAIR_STAT: STANDBY with no engine DIVERGED and AGE ≤ AGELIM. -/
def State.ready (s : State) : Bool :=
  s.role == 3 && (List.range 8).all (fun w => s.fld (PAIR_DIVERGE_ENG w) == 0) && decide (s.fld PAIR_STAT_AGE ≤ s.fld PAIR_CFG_AGELIM)

/-- The engines that are DIVERGED. -/
def State.divergedEngines (s : State) : List Nat :=
  (List.range 8).flatMap (fun w => (bitList (s.fld (PAIR_DIVERGE_ENG w)) 32).map (32 * w + ·))

/-- What a device drops when it leaves replay. -/
def Pair.quiet (p : Pair) : Pair :=
  { p with
    logs := [], sums := [], refs := [], allocs := [], staged := [], ended := false, refreshed := [], joining := false
    synced := none, clean := 0, down := 0, reqs := [], later := [], joinHeld := false }

/-- The replays in progress end where they stand (R310). -/
def State.stopReplay (s : State) : State :=
  s.eng.foldl (fun s p => match p.2.act with
    | some a => if a.log.isSome then s.setEng p.1 { s.engOf p.1 with act := none } else s
    | none => s) s

/-- The slots return to FREE, with what they have armed. DEDUCED (log 98): a device that enters LONE from SEEK holds no channels (R299),
so one that comes to SEEK with channels, and one that starts a join, drops them. -/
def State.dropChans (s : State) : State :=
  let s1 := s.chans.foldl (fun s p =>
    if p.2.st = .free then s else (s.cancelOwned (p.1 / 256) (p.1 % 256)).freeSlot p.1) s
  { s1 with pinDef := [], pinRel := [] }

/-- SEEK is entered. -/
def State.enterSeek (s : State) : State := (s.stopReplay.dropChans.withPair (fun p => { p.quiet with lost := none })).setRole 1

/-- A region is held: a device does not join before it is released (R355). -/
def State.regionHeld (s : State) : Bool := (List.range 32).any (fun r => s.fb (REG_STAT_HELD r))

/-- The role JOINING is taken; a held region keeps the join from starting before its release (R355). -/
def State.joinRole (s : State) : State :=
  (s.stopReplay.withPair (fun p => { p.quiet with joining := !s.regionHeld, joinHeld := s.regionHeld, lost := none })).setRole 2

/-- A join starts, or starts again (R314): the slots and the action stores are empty until the copy fills them. What waited in a post
FIFO is served first, so that an operation of the host ends (R453). -/
def State.startJoin (s : State) : State :=
  let s1 := ((s.stores.map (·.1)).foldl State.storeEmpty s).dropChans.joinRole
  { s1 with stores := s1.stores.map (fun p => (p.1, { p.2 with armed := [] })) }

/-- Desynchronisation (R316): the join starts again by itself with AUTOJOIN once the link is up. -/
def State.desync (s : State) : State :=
  let s1 := (s.setFld PAIR_IRQ_STAT_DESYNC 1).addSat PAIR_CNT_DESYNCS 1
  let s2 := if s.fb PAIR_CFG_AUTOJOIN && s.fb PAIR_STAT_LINK then s1.startJoin
    else (s1.stopReplay.withPair (fun p => { p.quiet with lost := none })).setRole 2
  s2.withPair (fun p => { p with down := s.pair.down })

/-- The epoch of a device that takes the machine (R311): the smallest above every epoch seen whose low bit is the side. -/
def State.takeEpoch (s : State) : State :=
  let e := s.fld PAIR_PEPOCH_EPOCH
  let side := s.fld PAIR_STAT_SIDE
  let n := if (e + 1) % 2 = side then e + 1 else e + 2
  if n > 0xFFFF then s.withPair (fun p => { p with silent := some s.tb.now }) else s.setEpoch n

/-- EPOCH_SILENCE_END (R311): after 1.2 s. -/
def State.silenceEnd (s : State) : State :=
  match s.pair.silent with
  | none => s
  | some t =>
    if (s.tb.now - t).toNat < 240000000 then s
    else (s.withPair (fun p => { p with silent := none })).setEpoch (2 + s.fld PAIR_STAT_SIDE)

/-- LONE is entered from SEEK with every slot FREE (R299, R311). -/
def State.enterLone (s : State) : State := (s.dropChans.withPair (fun p => { p.quiet with waits := true })).takeEpoch.setRole 5

/-! ## Damage and arrival -/

/-- A packet arrives over the link (R295): it is damaged where its CRC is wrong or its sequence number is not the next one, and then
counts; a good one shows the delay of the link. `take` is what follows for its kind. -/
def State.arrive (s : State) (rx : PacketRx) (take : Bool → State → State) : State :=
  if s.role = 0 ∨ s.fb PAIR_STAT_LINK = false then s
  else
    let next := (if rx.crc then rx.seq else s.pair.rxSeq.getD rx.seq) + 1
    let s1 := s.withPair (fun p => { p with rxSeq := some next })
    if rx.crc && s.pair.rxSeq.all (· == rx.seq) then take true (s1.setFld PAIR_LINKDLY_DLY rx.dly.toNat)
    else take false (s1.addSat PAIR_CNT2_CRCERR 1)

/-- The device takes packets of a primary: STANDBY, or a join in progress. -/
def State.takesMirror (s : State) : Bool := s.role == 3 || (s.role == 2 && s.pair.joining)

/-- A packet whose damage desynchronises (R301). -/
def State.damagedMirror (s : State) : State := if s.takesMirror then s.desync else s

/-! ## Mirrored writes (R303) -/

/-- A write of the receiver to a memory that is mirrored (R303): the vault and the retention store are never reached (R218, R223), and
a scratchpad whose SECT_CLK stands takes nothing (R216). `coll` tells that an engine writes other data to the same word in the same
cycle (R213). -/
def State.mirrorStore (s : State) (a size v : Nat) (coll : Bool) : State :=
  match regionOf a with
  | .scratch _ =>
    if s.sectRuns (a % 0x1000000 / 0x40000) = false then s
    else if coll ∧ meetsPortA a size then s.collide (normalView a) 400 else s.regionWrite a size v
  | .dram | .iram | .image => s.regionWrite a size v
  | _ => s

/-- A mirrored write takes effect (R303): a memory, the GPIO bits of shared pins, a PWM duty or a mailbox word; another address is
none that a primary mirrors, and takes nothing. Nor does one in a held region (R352). -/
def State.mirrorWrite (s : State) (a size : Nat) (v : Word) (coll : Bool) : State :=
  if s.regionCloses a then s
  else if regionOf a ≠ .regs ∧ regionOf a ≠ .bay then s.mirrorStore a size v.toNat coll
  else if GPIO_OUT_at 0 ≤ a ∧ a < GPIO_OUT_at 11 then
    let g := (a - GPIO_OUT_at 0) / 0x20
    let m := s.sharedBits g
    match (a - GPIO_OUT_at 0) % 0x20 with
    | 0x04 => s.gpioOp g (· ||| (v &&& m))
    | 0x08 => s.gpioOp g (· &&& ~~~(v &&& m))
    | 0x0C => s.gpioOp g (· ^^^ (v &&& m))
    | _ => s.setReg a ((s.reg a &&& ~~~m) ||| (v &&& m))
  else if regionOf a = .bay ∧ MBX_TOFAB_at 0 0 ≤ a % 0x10000 + 0x30000000 ∧ a % 0x10000 + 0x30000000 < MBX_TOFAB_at 0 8 then
    s.mbxTofab (a / 0x10000 % 16) ((a % 0x10000 + 0x30000000 - MBX_TOFAB_at 0 0) / 4) v
  else if regionOf a = .bay ∧ 0xC040 ≤ a % 0x10000 ∧ a % 0x10000 < 0xC080 then
    s.setFld (STM_PWM_DUTY_DUTY (a / 0x10000 % 16) ((a % 0x10000 - 0xC040) / 4)) (bits v.toNat 16 0)
  else s

/-- WRITE_PACKET (R301, R303). -/
def State.writePacket (s : State) (good : Bool) (a size : Nat) (v : Word) (coll : Bool) : State :=
  if good = false then s.damagedMirror else if s.takesMirror then s.mirrorWrite a size v coll else s

/-! ## Sessions, slots and refreshes (R301, R305, R306) -/

/-- The descriptor that words spell. -/
def descOf (ws : List Word) : Desc :=
  let w (i : Nat) : Word := ws.getD i 0
  let l (i n : Nat) : List Word := (List.range n).map (fun j => w (i + j))
  ⟨w 0, w 1, w 2, w 3, w 4, w 5, l 6 4, l 10 4, l 14 8⟩

/-- The staged requests of a mirrored session as changes of their slots at the apply tick (R238, R306). An ALLOC packet of the slot that
has come already and takes effect no earlier tells more. -/
def State.sessionAllocs (s : State) (tick : BitVec 48) : List AllocPacket :=
  s.pair.reqs.filterMap (fun q =>
    let i := q.2.1
    let queued := s.pair.allocs.filter (fun p => p.slot == i)
    let gen := (queued.getLast?.map (·.gen)).getD (s.chanOf i).gen
    if queued.any (fun p => decide (tick.toNat ≤ p.tick.toNat)) then none
    else match q.1 with
    | 1 => some ⟨i, 2, gen, (startTick tick (descOf q.2.2).start).getD tick, q.2.2⟩
    | 2 => some ⟨i, 4, gen, tick, q.2.2⟩
    | _ => some ⟨i, 3, gen, tick, q.2.2⟩)

/-- The staged values that the replay uses from the apply tick onwards (R306): the settings of the allocator and the engines, at
0x4000_2000. -/
def engineSetting (a : Nat) : Bool := a / 0x1000 == 0x40002

/-- SESSION_PACKET (R306): staged values and requests are kept; the end with APPLIED (1) lets the values be applied at the next boundary,
those of the engines and the requests with the replay of the apply tick; another end discards all. -/
def State.sessionPacket (s : State) (good : Bool) (p : SessionPacket) : State :=
  if good = false then s.damagedMirror
  else if s.takesMirror = false then s
  else match p with
  | .stage a v => s.withPair (fun q => { q with staged := tset none q.staged a (some v) })
  | .request op i ws => s.withPair (fun q => { q with reqs := q.reqs ++ [(op, i, ws)] })
  | .ended 1 tick => s.withPair (fun q => { q with
      ended := true, reqs := [], allocs := q.allocs ++ s.sessionAllocs tick
      staged := q.staged.filter (fun x => !engineSetting x.1)
      later := q.later ++ [(tick, q.staged.filter (fun x => engineSetting x.1))] })
  | .ended _ _ => s.withPair (fun q => { q with staged := [], reqs := [] })

/-- A strobe of staged values that act at the boundary of the tick in progress. -/
def State.strobeNow (s : State) (regs : Table (Option Word)) : State :=
  { s with strobes := s.strobes ++ [⟨s.tb.tick, s.strobeDomains regs [], regs, [], false, s.regs, false, 0⟩] }

/-- A slot takes the state that the primary's slot took (R301, R302); what waits for a tick waits for the replay of that tick, two ticks
later. -/
def State.slotTakes (s : State) (p : AllocPacket) : State :=
  let d := descOf p.words
  let at_ := p.tick + 2
  let c := if (s.chanOf p.slot).gen = p.gen ∧ (s.chanOf p.slot).st ≠ .free then s.chanOf p.slot else newChan p.gen d .running
  s.setChan p.slot (match p.st with
    | 0 => { chanReset with gen := p.gen }
    | 1 => newChan p.gen d .staged
    | 2 => { newChan p.gen d .starting with startTick := some at_ }
    | 3 => if at_.toNat ≤ s.tb.tick.toNat then { c with st := .running, startTick := none, desc := d } else { c with mods := c.mods ++ [(at_, d)] }
    | 4 => { c with st := .stopping, stopTick := some at_, desc := d }
    | _ => { c with st := .faulted, releaseTick := some at_, desc := d })

/-- ALLOC_PACKET: it waits until the replay reaches its effective tick. -/
def State.allocPacket (s : State) (good : Bool) (p : AllocPacket) : State :=
  if good = false then s.damagedMirror
  else if s.takesMirror then s.withPair (fun q => { q with allocs := q.allocs ++ [p] }) else s

/-- The slot changes that are chosen take effect in their order; the others go on waiting. -/
def State.takeAllocs (s : State) (due : AllocPacket → Bool) : State :=
  (s.pair.allocs.filter due).foldl State.slotTakes (s.withPair (fun q => { q with allocs := q.allocs.filter (fun p => !due p) }))

/-- The slot changes whose effective tick the replay reaches in tick `m` (R302). -/
def State.allocsDue (s : State) (m : BitVec 48) : State := s.takeAllocs (fun p => decide (p.tick.toNat + 2 ≤ m.toNat))

/-- REFRESH_PACKET (R305): it waits for the replay of its tick; damaged, it is lost. -/
def State.refreshPacket (s : State) (good : Bool) (p : RefreshPacket) : State :=
  if good = true ∧ s.takesMirror = true ∧ s.pair.synced.isSome then s.withPair (fun q => { q with refs := q.refs ++ [p] }) else s

/-! ## Joining (R314) -/

/-- Words of a memory that the receiver stores, with new check bits (R210). -/
def State.mirrorWords (s : State) (a : Nat) (ws : List Word) : State :=
  ((List.range ws.length).zip ws).foldl (fun s p =>
    if regionOf a = .image then s.setWord (a + 4 * p.1) p.2 else s.mirrorStore (a + 4 * p.1) 4 p.2.toNat false) s

/-- Whether an address is that of a calibration pair of a converter (R164, R172). -/
def calPair (a : Nat) : Bool := a / 0x100000 == 0x300 && decide (0x4000 ≤ a % 0x10000 ∧ a % 0x10000 < 0x6000) &&
  decide (0x300 ≤ a % 0x1000 ∧ a % 0x1000 < 0x340)

/-- The fields of a register that a join copies (R314): its RWS fields, and a calibration pair whole. -/
def copiedMask (a : Nat) : Word :=
  if calPair a then BitVec.allOnes 32 else rwsMask a

/-- BULK_PACKET: memory and register contents; damaged, the join starts again. -/
def State.bulkPacket (s : State) (good : Bool) (p : BulkItem) (left : Nat) : State :=
  if s.role ≠ 2 ∨ s.pair.joining = false ∨ s.pair.synced.isSome then s
  else if good = false then s.startJoin
  else
    let s1 := s.setFld PAIR_JOINPROG_BYTES left
    match p with
    | .memory a ws => if regionOf a = .regs ∨ regionOf a = .bay then s1 else s1.mirrorWords a ws
    | .register a v => s1.setReg a ((s1.reg a &&& ~~~copiedMask a) ||| (v &&& copiedMask a))
    | .slot q => s1.withPair (fun x => { x with allocs := x.allocs ++ [q] })
    | .action k w0 w1 w2 w3 => (s1.post k ⟨w0, w1, w2, w3, 0, 0, .unjudged⟩).1

/-- SYNC_TICK (R314): TB_NOW, the tick counter and every copy take the primary's values, and the tick in progress ends; what the
device dates by TB_NOW keeps its distance. Every domain's copy steps to the new tick at the boundary that follows its edge. A TB_NOW that
a lock loss has made invalid stays so until the next device reset (R34). Replay starts with the sync tick. -/
def State.syncTick (s : State) (now : BitVec 64) (tick : BitVec 48) (banks : List RefreshPacket) : State :=
  if s.role ≠ 2 ∨ s.pair.joining = false ∨ s.pair.synced.isSome then s
  else
    let d := now - s.tb.now
    let s1 : State := { s with
      tb := { s.tb with now := now, tick := tick, edge := now }
      tickCopy := s.tickCopy.foldl (fun t p => tset 0 t p.1 (tick - 1)) []
      enc := s.enc.map (fun p => (p.1, { p.2 with
        hist := p.2.hist.map (fun h => (h.1 + d, h.2)), lastEdge := p.2.lastEdge.map (· + d), ssiStart := p.2.ssiStart + d,
        ssiBusy := p.2.ssiBusy.map (· + d) }))
      pwm := s.pwm.map (fun p => (p.1, { p.2 with start := p.2.start + d }))
      attar := { s.attar with since := s.attar.since + d }
      safe := { s.safe with
        stored := s.safe.stored.map (· + d), wd := s.safe.wd.map (· + d), usec := s.safe.usec.map (fun p => (p.1, p.2 + d)) }
      ist := { s.ist with since := (List.range 8).foldl (fun t j => tset 0 t (j + 1) (tget 0 s.ist.since (j + 1) + d)) [] } }
    let s2 := banks.foldl State.loadRefresh (s1.sendTick.takeAllocs (fun _ => true))
    s2.withPair (fun q => { q with
      synced := some tick, clean := 0, replayed := tick - 1, lastAlive := q.lastAlive + d
      since := q.since + d })

/-- JOIN_COMPLETE (R314): 64 clean ticks. -/
def State.joinComplete (s : State) : State :=
  if s.role = 2 ∧ s.pair.synced.isSome ∧ s.pair.clean ≥ 64 then
    (((s.withPair (fun q => { q with joining := false })).setRole 3).setFld PAIR_IRQ_STAT_JOINED 1).addSat PAIR_CNT_JOINS 1
  else s

/-! ## The packets of a primary and of a partner -/

/-- A heartbeat has arrived good (R309, R312): the count of missed ones ends; `own` tells that it is that of the tick in progress. -/
def State.heartbeat (s : State) (own : Bool) : State :=
  (s.setFld PAIR_STAT_HBMISS 0).withPair (fun p => { p with got := p.got || own })

/-- SEEK meets the report of a partner (R299, R315). -/
def State.seekMeets (s : State) (role : Nat) (side : Bool) (image : Word) : State :=
  if s.role ≠ 1 then s else
  let match_ := image == s.reg PAIR_IMGID_at
  let s1 := if match_ then s else s.setFld PAIR_IRQ_STAT_IMGMIS 1
  if b2n side = s.fld PAIR_STAT_SIDE ∨ s.fb PAIR_STAT_LINK = false then s1
  else if role = 4 ∨ role = 5 then (if match_ then s1.startJoin else s1)
  else if role = 1 ∧ s.fld PAIR_STAT_SIDE = 0 then s1.enterLone
  else s1

/-- The engines of a map become DIVERGED (R301). -/
def State.divergeAll (s : State) (ts : List Nat) : State := ts.foldl State.diverge s

/-- How far the edge of tick `m` of this device lies from an instant, in TB_CLK cycles (R314). -/
def State.edgeOff (s : State) (m : BitVec 48) (now : BitVec 64) : Nat :=
  let d : Int := ((m.toNat : Int) - s.tb.tick.toNat) * s.fld TB_TICKLEN_CYCLES
  (s.tb.edge + BitVec.ofInt 64 d - now).toInt.natAbs

/-- TICK_PACKET (R301, R304, R307, R309, R313, R314). In SEEK it reports a device that holds the machine. Before the sync tick, whose
tick it is cannot be told. -/
def State.tickPacket (s : State) (good : Bool) (p : TickPacket) : State :=
  if good = false then (if s.takesMirror && s.pair.synced.isSome then s.divergeAll (p.sums.map (·.1)) else s)
  else
    let s1 := s.seeEpoch p.epoch
    match s.role with
    | 1 => (s1.setEpoch p.epoch).seekMeets 5 (p.epoch % 2 == 1) p.image
    | 4 => if p.epoch > s.fld BL_EPOCH_EPOCH then s1.deposed else s1
    | 5 => if p.epoch > s.fld BL_EPOCH_EPOCH then s1.deposed else s1
    | 6 => s1.setEpoch p.epoch
    | _ =>
      let s2 := (s1.heartbeat (s.pair.synced.isNone || p.tick == s.tb.tick)).setEpoch p.epoch
      if p.overflow ∧ s.takesMirror then s2.desync
      else if s2.pair.synced.isNone then s2
      else
        let s3 := s2.withPair (fun q => { q with sums := q.sums ++ p.sums.map (fun x => (p.tick - 1, x.1, x.2)) })
        if s.edgeOff p.tick p.now > 8 then (s3.setFld PAIR_IRQ_STAT_ALIGNERR 1).desync else s3

/-- LOG_PACKET (R301, R302). -/
def State.logPacket (s : State) (good : Bool) (p : LogPacket) : State :=
  if s.takesMirror = false ∨ s.pair.synced = none then s
  else if good = false then s.diverge p.engine
  else s.withPair (fun q => { q with logs := q.logs ++ [(p, s.tb.now)] })

/-- The partner is lost to a PRIMARY, or has left STANDBY (R312). -/
def State.partnerLeft (s : State) (lost : Bool) : State :=
  let s1 := (s.withPair (fun p => { p with txq := 0, txOver := false, bulk := none, syncAt := none })).setRole 5
  if lost then s1.setFld PAIR_IRQ_STAT_PARTNERLOST 1 else s1

/-- STATUS_PACKET (R301, R304, R308, R312, R314): a partner that reaches STANDBY makes a LONE device PRIMARY. -/
def State.statusPacket (s : State) (good : Bool) (p : StatusPacket) : State :=
  if good = false then s
  else
    let s1 := (s.setFld PAIR_STAT_PROLE p.role).withPair (fun q => { q with
      asked := p.asked
      partnerReady := p.role == 3 && p.diverged.isEmpty && decide (p.age ≤ s.fld PAIR_CFG_AGELIM) })
    if s.role = 4 then
      let s2 := (s1.heartbeat true).setFld PAIR_STAT_AGE p.age
      if p.role = 3 then s2 else s2.partnerLeft false
    else if s.role = 5 ∧ p.role = 3 then
      (((s1.heartbeat true).setRole 4).setFld PAIR_IRQ_STAT_JOINED 1).addSat PAIR_CNT_JOINS 1
    else s1

/-- HELLO_PACKET (R299, R301, R311, R312, R315): to a PRIMARY it reports a partner that is not in STANDBY. -/
def State.helloPacket (s : State) (good : Bool) (p : HelloPacket) : State :=
  if good = false then s
  else
    let s1 := ((s.seeEpoch p.epoch).setFld PAIR_STAT_PROLE p.role).seekMeets p.role p.side p.image
    if s.role = 4 ∧ p.role ≠ 3 then s1.partnerLeft false else s1

/-- HELLO_SEND (R301): in SEEK and DEPOSED. -/
def State.helloSend (s : State) : State :=
  if s.role = 1 ∨ s.role = 6 then
    s.sendPackets "HELLO" [s.role, s.fld PAIR_STAT_SIDE, s.fld BL_EPOCH_EPOCH, (s.reg PAIR_IMGID_at).toNat]
  else s

/-! ## Loss (R296, R309, R312) -/

/-- HBMISS is 3 or more and the partner is static: the primary, or the partner of a primary, is lost. -/
def State.lossCheck (s : State) : State :=
  if s.fld PAIR_STAT_HBMISS < 3 ∨ s.fb PAIR_STAT_ALIVEIN = true then s
  else match s.role with
  | 2 => s.enterSeek.setFld PAIR_IRQ_STAT_PARTNERLOST 1
  | 3 => if s.pair.lost.isSome then s
    else (s.withPair (fun p => { p with lost := some s.tb.now })).setFld PAIR_IRQ_STAT_PARTNERLOST 1
  | 4 => s.partnerLeft true
  | _ => s

/-- HEARTBEAT_CHECK (R309, R312): half a tick after the edge, once for each tick. -/
def State.heartbeatCheck (s : State) : State :=
  if ¬ (2 ≤ s.role ∧ s.role ≤ 4) ∨ s.pair.judged = some s.tb.tick then s
  else
    let half := s.tb.edge + BitVec.ofNat 64 (s.fld TB_TICKLEN_CYCLES / 2)
    let s1 := (s.advance (half - s.tb.now).toInt.toNat).withPair (fun p => { p with judged := some s.tb.tick })
    if s.pair.got then s1 else (s1.addSat PAIR_STAT_HBMISS 1).lossCheck

/-- ALIVE_TOGGLE (R296): the pin toggles while the device is fit, and is low otherwise. -/
def State.aliveToggle (s : State) : State :=
  s.withPair (fun p => { p with aliveOut := s.fit && !p.aliveOut })

/-- ALIVE_IN_EDGE (R296). -/
def State.aliveIn (s : State) : State :=
  (s.withPair (fun p => { p with lastAlive := s.tb.now })).setFld PAIR_STAT_ALIVEIN 1

/-- PARTNER_STATIC (R296): no edge for 20 µs of SAFE_CLK, which runs within 5 %. -/
def State.partnerStatic (s : State) : State :=
  if s.fb PAIR_STAT_ALIVEIN = false ∨ (s.tb.now - s.pair.lastAlive).toNat < 3800 then s
  else ((s.withPair (fun p => { p with since := s.tb.now })).setFld PAIR_STAT_ALIVEIN 0).lossCheck

/-- SEEK_TIMEOUT (R299): the partner has been static for SEEKTMO ms. -/
def State.seekTimeout (s : State) : State :=
  if s.role = 1 ∧ s.fb PAIR_STAT_ALIVEIN = false ∧ (s.tb.now - s.pair.since).toNat ≥ 200000 * s.fld PAIR_CFG_SEEKTMO then s.enterLone
  else s

/-! ## Replay (R302) -/

/-- The offset of the first cycle of a replayed activation of slot `k` on LE[t] (R302): that of its guaranteed slice, or for a BASE channel
the first after the slices that has been reached. -/
def State.replayOffset (s : State) (t k : Nat) : Nat :=
  let en := s.engOf t
  match en.layout.find? (fun x => x.slot == k) with
  | some x => x.offset + 2
  | none => en.layout.foldl (fun m x => max m (x.offset + 2 + x.budget)) en.offset + 2

/-- Whether a LOG that has arrived at an instant has come after the start of the slice (R302). -/
def State.logLate (s : State) (t off : Nat) (arrived : BitVec 64) : Bool :=
  decide ((s.tb.edge + BitVec.ofNat 64 (64 + s.ofSect (t / 16) off) - arrived).toInt < 0)

/-- The next logged activation of a LOG begins on LE[t] with its first cycle at an offset; a late one ends as a preemption, with the
engine DIVERGED (R302). -/
def State.replayAct (s : State) (p : LogPacket × BitVec 64) (a : LogAct) (rest : List LogAct) (late : Bool) : State :=
  let t := p.1.engine
  let logs := s.pair.logs.flatMap (fun q => if q = p then (if rest.isEmpty then [] else [({ p.1 with acts := rest }, p.2)]) else [q])
  let s1 := s.withPair (fun q => { q with logs := logs })
  let i := 16 * t + a.slot
  let c := s1.chanOf i
  let s2 := s1.setChan i { c with acts := (c.acts + 1) % 2 ^ 16 }
  let act : Act := ⟨a.slot, c.bank.pc, 0, c.budget, s1.replayOffset t a.slot, none, [], .none, false, false, some a.words, [], 0, a.count, a.how⟩
  if late then ((s2.diverge t).setAct t (some { act with used := c.budget, limit := 0, how := 2 })).preempt t
  else s2.setAct t (some act)

/-- REPLAY: the next logged activation of tick n − 2 on LE[t] begins, in the slice that the layout of that tick gives its channel. -/
def State.replay (s : State) (t : Nat) : State :=
  let r := s.tb.tick - 2
  if s.pair.synced.isNone ∨ ¬ (s.role = 2 ∨ s.role = 3) ∨ (s.engOf t).act.isSome ∨ s.engineRuns t = false ∨
      r.toNat < (s.pair.synced.getD 0).toNat then s
  else match s.pair.logs.find? (fun p => p.1.tick == r && p.1.engine == t) with
  | none => s
  | some p =>
    match p.1.acts with
    | [] => s
    | a :: rest => s.replayAct p a rest (s.logLate t (s.replayOffset t a.slot) p.2)

/-! ## Takeover (R310) -/

/-- The freshness memory of every binding is clear, and the FIFOs of bound captures are empty. -/
def State.clearInputs (s : State) : State :=
  s.chans.foldl (fun s p =>
    let s1 := s.setChan p.1 { s.chanOf p.1 with fresh := [] }
    (List.range 8).foldl (fun s b =>
      if (p.2.desc.inp b).1 = 4 then s.setCap (p.1 / 256) (p.2.desc.inp b).2 { s.capOf (p.1 / 256) (p.2.desc.inp b).2 with fifo := [] }
      else s) s1) s

/-- The frame of a line's first cycle start at or after the present tick edge, assembled where none is yet. -/
def State.firstFrame (s : State) (l : Nat) : State :=
  if (s.lineOf l).asm.isSome then s
  else if s.isStart l then s.assemble l s.tb.tick s.tb.edge
  else
    let m := s.nextStart l
    s.assemble l m (s.tb.edge + BitVec.ofNat 64 ((m - s.tb.tick).toNat * s.fld TB_TICKLEN_CYCLES))

/-- Every enabled line originates from its next cycle start, with no firing records in its first cycle. -/
def State.takeLines (s : State) : State :=
  (List.range 8).foldl (fun s l =>
    if s.fb (BL_CFG_EN l) then
      let s := s.firstFrame l
      let y := s.lineOf l
      let lost := match y.asm with | some x => x.recs.length | none => 0
      (s.addSat PAIR_CNT_TOLOST lost).setLine l { y with
        started := true, cycle := s.reg (BL_CYCLE_at l), asm := y.asm.map (fun x => { x with recs := [] }), cur := none }
    else s) s

/-- One step of the replays that are left on LE[t] at a takeover: the activation in progress issues its next instruction or ends, or the next
activation of tick `r` begins. -/
def State.replayStep (s : State) (t : Nat) (r : BitVec 48) : State :=
  match (s.engOf t).act with
  | some a =>
    if a.ending.isSome then s.activationEnd t 0
    else if (s.issues t).isSome then
      (match decodeWord (s.readWord (instrAddr t a.pc)).2.1.toNat with
       | some e => s.issue t e.op (semOf e.op)
       | none => s.issue t .illegal (semOf .illegal))
    else s.preempt t
  | none =>
    match s.pair.logs.find? (fun p => p.1.tick == r && p.1.engine == t) with
    | some p => (match p.1.acts with
      | a :: rest => s.replayAct p a rest false
      | [] => s)
    | none => s

/-- A number of steps of the replays that are left. -/
def State.replaySteps (t : Nat) (r : BitVec 48) : Nat → State → State
  | 0, s => s
  | n + 1, s => State.replaySteps t r n (s.replayStep t r)

/-- The steps that the replay of tick `r` on LE[t] can still take: each activation begins, issues its logged count and ends. -/
def State.replayLeft (s : State) (t : Nat) (r : BitVec 48) : Nat :=
  (match (s.engOf t).act with | some a => a.limit + 2 | none => 0) +
    ((s.pair.logs.filter (fun p => p.1.tick == r && p.1.engine == t)).flatMap (·.1.acts)).foldl (fun n a => n + a.count + 3) 0

/-- The replay of tick `r` is brought to its end with the LOGs that are held (R310): the slots' changes up to it, the activations, and
the refreshes after it. -/
def State.replayTick (s : State) (r : BitVec 48) : State :=
  (s.allocsDue (r + 2)).eng.foldl (fun s p => (State.replaySteps p.1 r (s.replayLeft p.1 r) s).takeRefreshes p.1 r) (s.allocsDue (r + 2))

/-- The ticks whose LOGs are held, rising, after that which is being replayed (R310). -/
def State.heldTicks (s : State) : List (BitVec 48) :=
  let now := s.tb.tick - 2
  let rest := (s.pair.logs.map (·.1.tick)).filter (fun r => decide (now.toNat < r.toNat))
  now :: (List.range 64).filterMap (fun i => if rest.contains (now + BitVec.ofNat 48 (i + 1)) then some (now + BitVec.ofNat 48 (i + 1)) else none)

/-- What a slot still waits for is no longer two ticks late (R302, R310). -/
def Chan.prompt (c : Chan) : Chan :=
  { c with
    startTick := c.startTick.map (· - 2), stopTick := c.stopTick.map (· - 2), releaseTick := c.releaseTick.map (· - 2)
    mods := c.mods.map (fun x => (x.1 - 2, x.2)) }

/-- What the mirrored session still holds back takes effect (R306, R310). -/
def State.sessionFlush (s : State) : State :=
  s.pair.later.foldl (fun s x => s.strobeNow x.2) (if s.pair.ended then s.strobeNow s.pair.staged else s)

/-- The replays end with the state after the last tick whose LOG is held complete, and the slots' changes take their own ticks (R310). -/
def State.endReplay (s : State) : State :=
  let s1 := ((s.heldTicks.foldl State.replayTick s).takeAllocs (fun _ => true)).sessionFlush
  { s1.stopReplay with chans := s1.stopReplay.chans.map (fun p => (p.1, p.2.prompt)) }

/-- TAKEOVER (R309, R310): at the first tick whose edge lies 1 µs after the loss. With STRICT and an engine DIVERGED or an old mirror,
the device goes to SEEK. -/
def State.takeover (s : State) : State :=
  match s.pair.lost with
  | none => s
  | some t =>
    if s.role ≠ 3 ∨ s.fit = false ∨ (s.tb.edge - t).toInt < 200 then s
    else if s.fb PAIR_CFG_STRICT ∧ s.ready = false then s.enterSeek
    else
      let s1 := (s.endReplay.withPair (fun p => { p.quiet with lost := none, waits := true })).setRole 5
      (((s1.clearInputs.takeEpoch.takeLines).fire 0x130).setFld PAIR_IRQ_STAT_TAKEOVER 1).addSat PAIR_CNT_TAKEOVERS 1

/-! ## RESIGN and REJOIN (R299, R313, R316) -/

/-- A write of PAIR_CTRL. -/
def State.pairCtrl (s : State) (v : Word) : State :=
  if v.toNat / 2 ^ 16 ≠ 0x6E6F then s
  else
    let s1 := if v.toNat.testBit 0 ∧ (s.role = 4 ∨ s.role = 5) then
        (s.withPair (fun p => { p with resigned := true })).dropAlive.deposed else s
    if v.toNat.testBit 1 then
      (if s1.role = 6 then (s1.withPair (fun p => { p with resigned := false })).enterSeek
       else if s1.role = 2 then s1.startJoin else s1)
    else s1

/-- The boundary of SYS_CLK deposes a device (R313), and a LONE device serves requests from it on (R299, R310). -/
def State.deposeDue (s : State) : State :=
  let s := if s.pair.waits then s.withPair (fun p => { p with waits := false }) else s
  if s.pair.depose then
    (((s.withPair (fun p => { p.quiet with depose := false })).setRole 6).setFld PAIR_IRQ_STAT_DEPOSED 1).dropAlive
  else s

/-! ## The link (R295, R316) -/

/-- The level of the transmit queue is taken down as of now (R308). -/
def State.markQueue (s : State) : State := s.withPair (fun p => { p with txq := s.txLevel, txAt := s.tb.now })

/-- UBVEL_LINK_DOWN: what waits in the transmit queue stays there. -/
def State.linkDown (s : State) : State :=
  if s.fld PAIR_CFG_EN = 0 ∨ s.fb PAIR_STAT_LINK = false then s
  else (s.markQueue.setFld PAIR_STAT_LINK 0).setFld PAIR_IRQ_STAT_LINKDOWN 1

/-- UBVEL_LINK_UP, with the measured one-way delay. The first packet after it begins the count of the sequence numbers (log 42). -/
def State.linkUp (s : State) (dly : Nat) : State :=
  if s.fld PAIR_CFG_EN = 0 then s
  else
    let s1 := (((s.markQueue.setFld PAIR_STAT_LINK 1).setFld PAIR_LINKDLY_DLY dly)).withPair (fun p => { p with
      down := 0, rxSeq := none })
    if s.role = 2 ∧ s.pair.joining = false ∧ (s.fb PAIR_CFG_AUTOJOIN = true ∨ s.pair.joinHeld = true) then s1.startJoin else s1

/-- A region has been released: a join that it held back starts once no region is held and the link is up (R355). -/
def State.joinFreed (s : State) : State :=
  if s.role = 2 ∧ s.pair.joinHeld = true ∧ s.regionHeld = false ∧ s.fb PAIR_STAT_LINK = true then s.startJoin else s

/-! ## The tick edge (R300, R301, R308, R316) -/

/-- The bytes of a join's bulk copy: the scratchpads, the tile RAMs and the actuator images (R314). -/
def bulkTotal : Nat := 0x400000 + 0x600000 + 0x10000

/-- The address of byte `o` of the bulk copy (log 41): the scratchpads, the data RAMs, the instruction RAMs, the actuator images. -/
def bulkAddr (o : Nat) : Nat :=
  if o < 0x400000 then 0x10000000 + o
  else if o < 0x600000 then 0x20000000 + (o - 0x400000) / 0x2000 * 0x4000 + o % 0x2000
  else if o < 0xA00000 then 0x21000000 + (o - 0x600000)
  else 0x60000000 + (o - 0xA00000)

/-- The registers with RWS fields, whose active values a join copies (R314). -/
def copiedRegs : List Nat :=
  ((List.range 0x40000).map (fun i => 0x30000000 + 4 * i) ++ (List.range 0x5400).map (fun i => 0x40000000 + 4 * i)).filter
    (fun a => copiedMask a != 0)

/-- What the copy holds beside memories (R314): the active value of every RWS field, the allocator state and the action stores. The first
word of a message tells which (log 41). -/
def State.bulkRest (s : State) : State :=
  let s1 := copiedRegs.foldl (fun s a => s.sendPackets "BULK" [1, a, (s.reg a &&& copiedMask a).toNat]) s
  let s2 := (List.range 4096).foldl (fun s i => s.sendPackets "BULK" (2 :: (s.chanOf i).told i s.tb.tick)) s1
  s2.stores.foldl (fun s p => p.2.armed.foldl (fun s a =>
    s.sendPackets "BULK" [3, p.1, a.w0.toNat, a.w1.toNat, a.w2.toNat, a.w3.toNat]) s) s2

/-- A LONE device sends a join's copy in spare capacity (R314): at each tick edge, the packets of 256 bytes for which the link has room
in the tick beside what waits. After the copy it names a sync tick two ticks ahead. -/
def State.sendBulk (s : State) : State :=
  if s.joinRuns = false then (if s.fld PAIR_STAT_ROLE = 5 then s.withPair (fun p => { p with bulk := none, syncAt := none }) else s)
  else
    let left := s.pair.bulk.getD bulkTotal
    if s.pair.syncAt.isSome then s
    else if left = 0 then
      (s.bulkRest.withPair (fun p => { p with syncAt := some (s.tb.tick + 2) })).sendPackets "BULK" (4 :: twoWords (s.tb.tick + 2).toNat)
    else
      let room := if s.fb PAIR_STAT_LINK then (5 * s.fld TB_TICKLEN_CYCLES - s.txLevel) / 536 * 256 else 0
      let n := min left room
      (List.range (n / 256)).foldl (fun s i =>
        s.sendPackets "BULK" ((s.words (bulkAddr (bulkTotal - left + 256 * i)) 64).map BitVec.toNat))
        ((s.withPair (fun p => { p with bulk := some (left - n) })).setFld PAIR_JOINPROG_BYTES (left - n))

/-- The engines that ran in the tick that ends, with their checksums (R301, R304). -/
def State.tickSums (s : State) : List (Nat × Nat) :=
  s.eng.filterMap (fun p => if p.2.ran = [] then none else some (p.1, checksum p.2.stream))

/-- The TICK packet of the tick that begins (R301, R308): a record of 16 words, the map of the engines that ran, and their checksums, two in
a word (log 41). -/
def State.tickWords (s : State) : List Nat :=
  let sums := s.tickSums
  let speed := if s.tb.speedOk then s.tb.speed.toNat else 0
  twoWords s.tb.tick.toNat ++ twoWords s.tb.now.toNat ++ twoWords s.P.toNat ++
    [speed, b2n s.tb.speedOk, s.fld BL_EPOCH_EPOCH, (s.reg PAIR_IMGID_at).toNat, b2n s.pair.txOver, 0, 0, 0, 0, 0] ++
    (List.range 8).map (fun w => (sums.filter (fun x => x.1 / 32 == w)).foldl (fun m x => m + 2 ^ (x.1 % 32)) 0) ++
    (List.range ((sums.length + 1) / 2)).map (fun i => ((sums.map (·.2)).getD (2 * i) 0) + 2 ^ 16 * ((sums.map (·.2)).getD (2 * i + 1) 0))

/-- The STATUS packet (R301, R304): role, AGE, the last tick replayed, the DIVERGED engines, and the slots whose refresh is asked for. -/
def State.statusWords (s : State) : List Nat :=
  let ds := s.divergedEngines
  [s.role, s.fld PAIR_STAT_AGE] ++ twoWords s.pair.replayed.toNat ++ (ds.length :: ds) ++ ds.flatMap s.toRefresh

/-- The replay of tick `r` is complete on every engine (R308): no LOG of it is left, no replay is in progress, and the engines of its map
have run. -/
def State.replayDone (s : State) (r : BitVec 48) : Bool :=
  s.pair.logs.all (fun p => decide (r.toNat < p.1.tick.toNat)) &&
    s.eng.all (fun p => match p.2.act with
      | some a => a.log.isNone || decide (a.limit ≤ a.count) || a.ending.isSome
      | none => true) &&
    s.pair.sums.all (fun x => x.1 != r || !(s.engOf x.2.1).ran.isEmpty)

/-- AGE at the edge of tick `n` (R308): the replay of tick n − 3 ended with the tick before. -/
def State.ageEdge (s : State) : State :=
  match s.pair.synced with
  | none => s
  | some first =>
    let n := s.tb.tick
    let r := n - 3
    let s1 := if first.toNat + 3 ≤ n.toNat ∧ s.replayDone r then s.withPair (fun p => { p with replayed := r }) else s
    (s1.setFld PAIR_STAT_AGE (min (n - s1.pair.replayed).toNat 255)).withPair (fun p => { p with
      clean := if s1.divergedEngines.isEmpty then p.clean + 1 else 0 })

/-- The values of the mirrored session take effect (R306): at the first boundary after its end, and the settings of the engines with the
replay of the apply tick. -/
def State.sessionEdge (s : State) : State :=
  let s1 := if s.pair.ended then (s.withPair (fun p => { p with staged := [], ended := false })).strobeNow s.pair.staged else s
  let due (x : BitVec 48 × Table (Option Word)) : Bool := decide (x.1.toNat + 2 ≤ s.tb.tick.toNat)
  ((s1.pair.later.filter due).filter (fun x => !x.2.isEmpty)).foldl (fun s x => s.strobeNow x.2)
    (s1.withPair (fun p => { p with later := p.later.filter (fun x => !due x) }))

/-- The packet of a fit device at the tick edge (R300, R301). -/
def State.pairSends (s : State) : State :=
  if s.fit = false then s
  else if s.role = 4 ∨ s.role = 5 then
    ((s.sendPackets "TICK" s.tickWords).withPair (fun p => { p with txOver := false })).sendBulk
  else s.sendPackets "STATUS" s.statusWords

/-- The pair at the tick edge: AGE and the packet of a fit device; on a device that replays, the slots' changes, the mirrored session, and
the causes of R316 that a tick brings. -/
def State.pairEdge (s : State) : State :=
  if s.role = 0 then s
  else
    let s1 := (s.withPair (fun p => { p with got := false })).ageEdge.pairSends
    if s1.role ≠ 2 ∧ s1.role ≠ 3 then s1
    else
      let s2 := (if s1.pair.synced.isSome then s1.allocsDue s1.tb.tick else s1).sessionEdge
      let s3 := if s2.fb PAIR_STAT_LINK then s2 else s2.withPair (fun p => { p with down := p.down + 1 })
      if s3.pair.down = s3.fld PAIR_CFG_AGELIM ∨ (s3.pair.synced.isSome ∧ s3.fld PAIR_STAT_AGE > s3.fld PAIR_CFG_AGELIM) then s3.desync
      else s3

/-! ## The commands -/

/-- TICK_PACKET. -/
def execTickPacket (rx : PacketRx) (p : TickPacket) (s : State) : Host.Outcome State Fault Refusal :=
  done s (s.arrive rx (fun good s => s.tickPacket good p))
/-- LOG_PACKET. -/
def execLogPacket (rx : PacketRx) (p : LogPacket) (s : State) : Host.Outcome State Fault Refusal :=
  done s (s.arrive rx (fun good s => s.logPacket good p))
/-- WRITE_PACKET. -/
def execWritePacket (rx : PacketRx) (a size : Nat) (v : BusWord) (s : State) : Host.Outcome State Fault Refusal :=
  done s (s.arrive rx (fun good s => s.writePacket good a size v.v v.coll))
/-- SESSION_PACKET. -/
def execSessionPacket (rx : PacketRx) (p : SessionPacket) (s : State) : Host.Outcome State Fault Refusal :=
  done s (s.arrive rx (fun good s => s.sessionPacket good p))
/-- ALLOC_PACKET. -/
def execAllocPacket (rx : PacketRx) (p : AllocPacket) (s : State) : Host.Outcome State Fault Refusal :=
  done s (s.arrive rx (fun good s => s.allocPacket good p))
/-- REFRESH_PACKET. -/
def execRefreshPacket (rx : PacketRx) (p : RefreshPacket) (s : State) : Host.Outcome State Fault Refusal :=
  done s (s.arrive rx (fun good s => s.refreshPacket good p))
/-- BULK_PACKET. -/
def execBulkPacket (rx : PacketRx) (p : BulkItem) (left : Nat) (s : State) : Host.Outcome State Fault Refusal :=
  done s (s.arrive rx (fun good s => s.bulkPacket good p left))
/-- STATUS_PACKET. -/
def execStatusPacket (rx : PacketRx) (p : StatusPacket) (s : State) : Host.Outcome State Fault Refusal :=
  done s (s.arrive rx (fun good s => s.statusPacket good p))
/-- HELLO_PACKET. -/
def execHelloPacket (rx : PacketRx) (p : HelloPacket) (s : State) : Host.Outcome State Fault Refusal :=
  done s (s.arrive rx (fun good s => s.helloPacket good p))
/-- HELLO_SEND. -/
def execHelloSend (s : State) : Host.Outcome State Fault Refusal := done s s.helloSend
/-- REPLAY. -/
def execReplay (t : Fin 256) (s : State) : Host.Outcome State Fault Refusal := done s (s.replay t.val)
/-- HEARTBEAT_CHECK. -/
def execHeartbeatCheck (s : State) : Host.Outcome State Fault Refusal := done s s.heartbeatCheck
/-- TAKEOVER. -/
def execTakeover (s : State) : Host.Outcome State Fault Refusal := done s s.takeover
/-- ALIVE_TOGGLE. -/
def execAliveToggle (s : State) : Host.Outcome State Fault Refusal := done s s.aliveToggle
/-- ALIVE_IN_EDGE. -/
def execAliveInEdge (s : State) : Host.Outcome State Fault Refusal := done s s.aliveIn
/-- PARTNER_STATIC. -/
def execPartnerStatic (s : State) : Host.Outcome State Fault Refusal := done s s.partnerStatic
/-- SEEK_TIMEOUT. -/
def execSeekTimeout (s : State) : Host.Outcome State Fault Refusal := done s s.seekTimeout
/-- SYNC_TICK. -/
def execSyncTick (now : BitVec 64) (tick : BitVec 48) (banks : List RefreshPacket) (s : State) : Host.Outcome State Fault Refusal :=
  done s (s.syncTick now tick banks)
/-- JOIN_COMPLETE. -/
def execJoinComplete (s : State) : Host.Outcome State Fault Refusal := done s s.joinComplete
/-- RESIGN: a write of PAIR_CTRL with RESIGN set. -/
def execResign (v : Word) (s : State) : Host.Outcome State Fault Refusal := done s (s.pairCtrl (v ||| 1))
/-- REJOIN: a write of PAIR_CTRL with REJOIN set. -/
def execRejoin (v : Word) (s : State) : Host.Outcome State Fault Refusal := done s (s.pairCtrl (v ||| 2))
/-- EPOCH_SILENCE_END. -/
def execEpochSilenceEnd (s : State) : Host.Outcome State Fault Refusal := done s s.silenceEnd
/-- UBVEL_LINK_DOWN. -/
def execUbvelLinkDown (s : State) : Host.Outcome State Fault Refusal := done s s.linkDown
/-- UBVEL_LINK_UP. -/
def execUbvelLinkUp (dly : BitVec 16) (s : State) : Host.Outcome State Fault Refusal := done s (s.linkUp dly.toNat)

end Sys2Proof.Machine
end

