-- ==== Sys2Proof/Machine/Safe.lean ====
section
/-! DEFINITION. The safe plane with its fault record, watchdogs and tamper events, the in-service tester, the Sillage buffer, and
the retention store with its snapshots (R363 to R388, R427 to R434, R454). -/

namespace Sys2Proof.Machine

/-! ## Views of SAFE_STAT (R375, R384) -/

/-- ERR_OUT_N is low (R375). -/
def State.errOut (s : State) : Bool :=
  !s.pwr.released || s.tripped || s.fb SAFE_STAT_HANDOVER || s.deviceCauses != 0 || s.fb SAFE_CFG_ERRFORCE || s.safe.wdReset

/-- What SAFE_STAT reads. -/
def State.safeStat (s : State) : Word :=
  SAFE_STAT_ERROUT.put (SAFE_STAT_FIT.put (s.reg SAFE_STAT_at) (b2n s.fit)) (b2n s.errOut)

/-! ## The fault record (R381, R433, R454) -/

/-- An entry in the retention store and the next position in its pointer ring (R433); beyond 100 in a second it is skipped. -/
def State.retainEntry (s : State) (ws : List Word) : State :=
  let recent := s.safe.stored.filter (fun t => decide ((s.tb.now - t).toNat < 200000000))
  if recent.length ≥ 100 then
    { (s.addSat RETAIN_CNT_FRSKIP 1).setFld RETAIN_IRQ_STAT_FRSKIP 1 with safe := { s.safe with stored := recent } }
  else
    let j := s.fld RETAIN_STAT_FRPOS
    let g := s.safe.ringGen + 1
    let s1 := s.retainPut (0x51002000 + 32 * j) ws
    let s2 := s1.retainPut (0x51004800 + 8 * (g % 16)) [BitVec.ofNat 32 ((j + 1) % 256), BitVec.ofNat 32 g]
    { s2.setFld RETAIN_STAT_FRPOS ((j + 1) % 256) with safe := { s.safe with stored := recent ++ [s.tb.now], ringGen := g } }

/-- USEC of an entry (R381): microseconds of SAFE_CLK since the rise of VDD. Where TB_CLK has run since an earlier entry, what that one
showed and the time since on an oscillator exact within 5 %; otherwise free, as no clock of the model counts the time of ramps, holds
and loads. The numbers between the bounds are free too. -/
def State.usecNow (s : State) : Word :=
  match s.safe.usec with
  | none => s.free
  | some (w, t) =>
    let d := (s.tb.now - t).toNat
    w + BitVec.ofNat 32 (d * 19 / 4000 + s.free.toNat % (d / 2000 + 2))

/-- A fault-record entry of a kind (R381): ring, retention store, interrupt cause and Sillage record. -/
def State.faultEntry (s : State) (kind cls source detail : Nat) : State :=
  let seq := s.safe.seq + 1
  let usec := s.usecNow
  let w4 := BitVec.ofNat 32 (source % 2 ^ 16 * 2 ^ 16 + cls * 256 + kind)
  let ws := [BitVec.ofNat 32 seq, s.reg SAFE_RTCSEC_at, usec, s.safe.ticks, w4, BitVec.ofNat 32 detail, s.safeStat]
  let ws := ws ++ [crc32 (ws.flatMap wordBytes)]
  let n := s.fld SAFE_FRSTAT_COUNT
  let e := if n = 0 then 0 else (s.fld SAFE_FRSTAT_NEWEST + 1) % 16
  let s1 : State := { s.fresh with
    safe := { s.safe with seq := seq, usec := if s.pwr.released ∧ s.locked 0 then some (usec, s.tb.now) else none } }
  let s2 := ((List.range 8).zip ws).foldl (fun s p => s.setReg (SAFE_FREC_at e p.1) p.2) s1
  let s3 := ((s2.setFld SAFE_FRSTAT_COUNT (min (n + 1) 16)).setFld SAFE_FRSTAT_NEWEST e).setFld SAFE_IRQ_STAT_FREC 1
  (s3.retainEntry ws).trace 5 s.stamp (BitVec.ofNat 32 kind) w4 (BitVec.ofNat 32 seq)

/-! ## Sillage (R385 to R388) -/

/-- Capture freezes (R387). -/
def State.sillageFreeze (s : State) : State :=
  { (s.setFld SILLAGE_STAT_FROZEN 1).setFld SILLAGE_IRQ_STAT_FROZEN 1 with sil := { s.sil with post := none } }

/-- The trigger has been written, or a safe trip is it: POST further records follow (R387). -/
def State.sillageTrigger (s : State) : State :=
  if s.fld SILLAGE_CFG_POST = 0 then s.sillageFreeze
  else { s with sil := { s.sil with post := some (s.fld SILLAGE_CFG_POST) } }

/-- SILLAGE_WRITE (R386, R387): the oldest record is written at WPTR. -/
def State.sillageWrite (s : State) : State :=
  if s.fb SILLAGE_STAT_FROZEN then s
  else match s.sil.fifo with
  | [] => s
  | (ws, trig) :: r =>
    let p := s.fld SILLAGE_STAT_WPTR
    let a := 0x52000000 + 16 * p
    let s1 := (List.range 4).foldl (fun s i => (s.setWord (a + 4 * i) (ws.getD i 0)).setFlips (a + 4 * i) 0)
      { s with sil := { s.sil with fifo := r } }
    let wraps := decide (p = 32767)
    let s2 := s1.setFld SILLAGE_STAT_WPTR ((p + 1) % 32768)
    let s3 := if wraps then s2.setFld SILLAGE_STAT_LAP ((s2.fld SILLAGE_STAT_LAP + 1) % 2 ^ 14) else s2
    let s4 := if trig then s3.sillageTrigger
      else match s3.sil.post with
      | none => s3
      | some n => if n ≤ 1 then s3.sillageFreeze else { s3 with sil := { s3.sil with post := some (n - 1) } }
    if wraps && s4.fb SILLAGE_CFG_STOP && !s4.fb SILLAGE_STAT_FROZEN then s4.sillageFreeze else s4

/-- A write of SILLAGE_CTRL (R387, R388). -/
def State.sillageCtrl (s : State) (v : Word) : State :=
  let s1 := if v.toNat.testBit 0 ∧ s.fb SILLAGE_STAT_FROZEN = false then s.sillageFreeze else s
  let s2 : State := if v.toNat.testBit 1 then
      { (s1.setFld SILLAGE_STAT_FROZEN 0).setFld SILLAGE_STAT_TRIGGERED 0 with sil := { s1.sil with post := none } }
    else s1
  if v.toNat.testBit 2 then (s2.setFld SILLAGE_STAT_WPTR 0).setFld SILLAGE_STAT_LAP 0 else s2

/-- A write of SILLAGE_MARK by a requester (R385). -/
def State.sillageMark (s : State) (req : Nat) (v : Word) : State := s.trace 8 s.stamp (BitVec.ofNat 32 req) v s.tickLo

/-! ## Trips (R371 to R374) -/

/-- The device-class bits of a mask of sources (R371). -/
def State.deviceBits (s : State) (m : Nat) : Nat :=
  (m &&& 0x2FE0) ||| (if s.safe.tampDev then m &&& 0x1000 else 0)

/-- The class of the causes in force: 1 process, 2 device. -/
def State.tripClass (s : State) : Nat := if s.deviceCauses ≠ 0 then 2 else 1

/-- The class of the trip in force as SAFE_STAT shows it. A device of the device class is not fit, and PAIR_ALIVE_OUT goes low (R372,
R376). -/
def State.classNow (s : State) : State := (s.setB SAFE_STAT_DEVCLASS (s.tripClass == 2)).dropAlive

/-- Causes join the trip in force (R454). -/
def State.joinTrip (s : State) (m : Nat) : State :=
  let s1 := s.setFld SAFE_CAUSE_CAUSE (s.fld SAFE_CAUSE_CAUSE ||| m)
  let s2 := s1.classNow
  s2.faultEntry 1 s2.tripClass m 0

/-- The trip edge (R372): pads, DACs and analog pad switches are forced, the entry is written, and the Sillage trigger 1 occurs. -/
def State.tripNow (s : State) (m : Nat) : State :=
  let s1 := ((s.pinsTrip.tripSwitches.setFld SAFE_STAT_TRIPPED 1).setFld SAFE_CAUSE_CAUSE 0).setFld SAFE_IRQ_STAT_TRIP 1
  let s2 := (List.range 32).foldl State.dacForce (s1.joinTrip m)
  if s2.fld SILLAGE_CFG_TRIG = 1 ∧ s2.fb SILLAGE_STAT_TRIGGERED = false ∧ s2.fb SILLAGE_STAT_FROZEN = false then
    (s2.setFld SILLAGE_STAT_TRIGGERED 1).sillageTrigger
  else s2

/-- Sources arise at a SAFE_CLK edge (R371, R373); `entry` is the fault-record entry of another kind that arises with them, TRIP before
it and HANDOVER behind it (R381). -/
def State.raiseWith (s : State) (m : Nat) (entry : State → State) : State :=
  let e := m &&& (s.fld SAFE_SRCEN_EN ||| 0x2000)
  if s.tripped then
    let new := e - (e &&& s.fld SAFE_CAUSE_CAUSE)
    entry (if new = 0 then s.classNow else s.joinTrip new)
  else if e = 0 then entry s
  else if s.fb SAFE_CFG_HANDOVER ∧ s.deviceBits e ≠ 0 ∧ s.role = 4 ∧ s.pair.partnerReady = true ∧ s.fb SAFE_STAT_HANDOVER = false then
    let s1 : State := { s.setFld SAFE_STAT_HANDOVER 1 with safe := { s.safe with hand := e } }
    (entry (s1.withPair (fun p => { p with aliveOut := false })).deposed).faultEntry 0x0B 2 0 0
  else if s.fb SAFE_STAT_HANDOVER then
    entry (if s.deviceBits e = e then { s with safe := { s.safe with hand := s.safe.hand ||| e } } else s.tripNow e)
  else entry (s.tripNow e)

/-- Sources arise with no other entry. -/
def State.raiseTrip (s : State) (m : Nat) : State := s.raiseWith m id

/-- HANDOVER_TRIP (R373): the trip edge after the deposing boundary. -/
def State.handoverTrip (s : State) : State :=
  if s.fb SAFE_STAT_HANDOVER ∧ s.role ≠ 4 ∧ s.role ≠ 5 then
    let s1 : State := { s.setFld SAFE_STAT_HANDOVER 0 with safe := { s.safe with hand := 0 } }
    if s1.tripped then s1.joinTrip (s.safe.hand - (s.safe.hand &&& s1.fld SAFE_CAUSE_CAUSE)) else s1.tripNow s.safe.hand
  else s

/-- A level source is active or not (R371); as it becomes active it arises. -/
def State.level (s : State) (i : Nat) (on : Bool) : State :=
  let s1 := s.putBit SAFE_STAT_ACTIVE i on
  if on then s1.raiseTrip (2 ^ i) else s1

/-- A write of SAFE_SRCEN (R371): a source that is active as its bit becomes 1 arises there. -/
def State.srcenWrite (s : State) (v : Word) : State :=
  let old := s.fld SAFE_SRCEN_EN
  let s1 := s.setFld SAFE_SRCEN_EN (v.toNat % 2 ^ 14 ||| 0x2000)
  let new := s1.fld SAFE_STAT_ACTIVE &&& s1.fld SAFE_SRCEN_EN
  let rising := new - (new &&& old)
  if rising = 0 then s1 else s1.raiseTrip rising

/-- A release (R374), `edge` with a source that arises on the edge of the write. -/
def State.tripRelease (s : State) (force edge : Bool) : State :=
  if s.tripped = false then s
  else
    let lc := s.fld CFG_LC_STATE
    let active := (s.fld SAFE_STAT_ACTIVE &&& (s.fld SAFE_SRCEN_EN ||| 0x2000)) != 0
    if edge ∨ active ∨ (s.tripClass = 2 ∧ ¬ (force = true ∧ (lc = 1 ∨ lc = 3))) then s.setFld SAFE_STAT_RELREF 1
    else
      ((((s.setFld SAFE_CAUSE_CAUSE 0).setFld SAFE_STAT_TRIPPED 0).setFld SAFE_STAT_DEVCLASS 0).setFld
        SAFE_IRQ_STAT_RELEASED 1).faultEntry 2 0 0 0

/-- A write of SAFE_CTRL (R374, R384). -/
def State.safeCtrl (s : State) (v : Word) : State :=
  if v.toNat / 2 ^ 16 ≠ 0x5346 then s
  else
    let trip := v.toNat.testBit 0
    let s1 := if v.toNat.testBit 3 then s.setFld SAFE_STAT_LOCKED 1 else s
    let s2 := if v.toNat.testBit 1 then s1.tripRelease (v.toNat.testBit 2) (trip && s1.fbit SAFE_SRCEN_EN 0) else s1
    if trip then s2.raiseTrip 1 else s2

/-! ## Retention and snapshots (R427 to R434) -/

/-- The 32 bytes of a snapshot header. -/
def State.snapHeader (s : State) (slot : Nat) : List Word := s.retainWords (0x51004000 + 32 * slot) 8

/-- The data of a snapshot that starts at a slot: `n` words, the slots counted modulo 64. -/
def State.snapData (s : State) (slot n : Nat) : List Word :=
  (List.range n).flatMap (fun i => s.retainWords (0x51005000 + (slot * 4096 + 4 * i) % 0x40000) 1)

/-- The length in bytes of a span (R438). -/
def spanBytes (src : Word) : Nat := 8 * (bits src.toNat 27 18 + 1)

/-- Whether a header is valid: CHECK and DCRC match (R432). -/
def State.snapValid (s : State) (slot : Nat) : Bool :=
  let h := s.snapHeader slot
  crc32 ((h.take 7).flatMap wordBytes) == h.getD 7 0 && decide (bits (h.getD 4 0).toNat 15 8 ≠ 0) &&
    crc32 ((s.snapData slot (spanBytes (h.getD 3 0) / 4)).flatMap wordBytes) == h.getD 5 0

/-- The newest of the valid snapshots, by SEQ in serial order (R432). -/
def State.newestSnap (s : State) : Option Nat :=
  ((List.range 64).filter s.snapValid).foldl (fun m j => match m with
    | none => some j
    | some k => if (((s.snapHeader j).getD 0 0) - ((s.snapHeader k).getD 0 0)).toNat < 2 ^ 31 then some j else some k) none

/-- RETAIN_SNAPLAST as the safe plane finds it. -/
def State.findSnap (s : State) : State :=
  match s.newestSnap with
  | none => s.setReg RETAIN_SNAPLAST_at 0
  | some j => (s.setFld RETAIN_SNAPLAST_VALID 1).setFld RETAIN_SNAPLAST_SLOT j

/-- The engines stop at the end of the instruction they issue (R428): nothing is committed or posted. DEDUCED (log 89): that holds of a
write that stands in a posted-write buffer, too. -/
def State.stopEngines (s : State) : State :=
  let s1 := s.eng.foldl (fun s p => s.setEng p.1 { s.engOf p.1 with act := none, buf := [], gload := none, cancelRd := none }) s
  { s1 with pwr := { s1.pwr with snapStop := true } }

/-- A snapshot starts (R428, R432): the headers of its slots are zeroed. -/
def State.snapStart (s : State) (cause : Nat) : State :=
  let src := s.reg RETAIN_SNAPSRC_at
  let n := (spanBytes src + 4095) / 4096
  let first := if s.fb RETAIN_SNAPLAST_VALID then
      let j := s.fld RETAIN_SNAPLAST_SLOT
      (j + bits ((s.snapHeader j).getD 4 0).toNat 15 8) % 64
    else 0
  let s1 := (List.range n).foldl (fun s i => s.retainPut (0x51004000 + 32 * ((first + i) % 64)) [0, 0, 0, 0, 0, 0, 0, 0]) s
  { (s1.setFld RETAIN_STAT_BUSY 1).setFld RETAIN_STAT_CAUSE cause with
    snap := some ⟨cause, src, s.reg SAFE_RTCSEC_at, s.tickLo, first⟩ }

/-- A reset other than power-on keeps what SILLAGE_STAT showed (R387). -/
def State.keepSillage (s : State) : State :=
  s.setReg SILLAGE_PREV_at ((s.reg SILLAGE_STAT_at &&& 0x3FFFFFFF) ||| 0x80000000)

/-- The position of the fault area and the generation of the pointer ring, from the word with the highest generation (R433). -/
def State.findRing (s : State) : State :=
  let best := (List.range 16).foldl (fun (b : Nat × Nat) i =>
    let w := s.retainWords (0x51004800 + 8 * i) 2
    if (w.getD 1 0).toNat > b.1 then ((w.getD 1 0).toNat, (w.getD 0 0).toNat) else b) (0, 0)
  { s.setFld RETAIN_STAT_FRPOS best.2 with safe := { s.safe with ringGen := best.1 } }

/-- The internal reset of R379 is held (steps 3 and 4). -/
def State.internalHold (s0 : State) : State :=
  let s := (s0.setFld CLK_STAT_LOCK 0).keepSillage.cmpsClear.dacsOff
  { s with
    pwr := { s.pwr with held := true, released := false, ioEnabled := false, phase := .run }
    loader := State.reset.loader
    safe := { s.safe with wdReset := true, ticks := 0, usec := none } }

/-- Steps 3 and 4 of a watchdog reset (R379). -/
def State.wdResetHold (s : State) : State := ((s.faultEntry 3 0 0 0).setFld SAFE_RSTCAUSE_CAUSE 3).internalHold

/-- Reads the span of a snapshot: corrected words, and whether one was uncorrectable (R428). -/
def State.spanWords (s : State) (src : Word) : State × List Word × Bool :=
  let a := 0x10000000 + bits src.toNat 31 28 * 0x40000 + bits src.toNat 17 3 * 8
  (List.range (spanBytes src / 4)).foldl (fun acc i =>
    match (acc.1.touch (a + 4 * i)).readWord (a + 4 * i) with
    | (s', w, bad) => (s', acc.2.1 ++ [w], acc.2.2 || bad)) (s, [], false)

/-- The header of a snapshot `x` whose data are the words `ws` (R432). -/
def State.snapHead (s : State) (x : Snapshot) (ws : List Word) (bad : Bool) : List Word :=
  let n := (spanBytes x.src + 4095) / 4096
  let seq := if s.fb RETAIN_SNAPLAST_VALID then (s.snapHeader (s.fld RETAIN_SNAPLAST_SLOT)).getD 0 0 + 1 else 1
  let h := [seq, x.rtc, x.tick, x.src, BitVec.ofNat 32 (x.cause + 256 * n + 65536 * b2n bad), crc32 (ws.flatMap wordBytes), 0]
  h ++ [crc32 (h.flatMap wordBytes)]

/-- The data of a snapshot go into its slots, counted modulo 64 (R432). -/
def State.snapPut (s : State) (slot : Nat) (ws : List Word) : State :=
  ((List.range ws.length).zip ws).foldl (fun s p => s.retainPut (0x51005000 + (slot * 4096 + 4 * p.1) % 0x40000) [p.2]) s

/-- The data of a snapshot and then its header are written (R428, R432); what the registers show of it. -/
def State.snapWrite (s : State) (x : Snapshot) : State :=
  match s.spanWords x.src with
  | (s1, ws, bad) =>
    let s2 := (s1.snapPut x.slot ws).retainPut (0x51004000 + 32 * x.slot) (s.snapHead x ws bad)
    (((((s2.setFld RETAIN_SNAPLAST_VALID 1).setFld RETAIN_SNAPLAST_SLOT x.slot).addSat RETAIN_CNT_SNAPS 1).setFld
      RETAIN_IRQ_STAT_SNAPDONE 1).setFld RETAIN_STAT_RESULT 1).setFld RETAIN_STAT_BUSY 0

/-- SNAPSHOT_DONE (R379, R428, R432): the data and then the header are written; a watchdog reset that waits for it goes on. The span is
read as it stands here (DESIGN CHOICE, log 89); a command snapshot reads it on SECT_CLK (R429). -/
def State.snapDone (s : State) : State :=
  match s.snap with
  | none => s
  | some x =>
    if x.cause = 3 ∧ s.sectRuns (bits x.src.toNat 31 28) = false then s
    else
      let s1 : State := { s.snapWrite x with snap := none }
      if s1.safe.wdReset && !s1.pwr.held then s1.wdResetHold else s1

/-- A write of RETAIN_CMD (R429, R433, R438). -/
def State.retainCmd (s : State) (v : Word) : State :=
  if v.toNat / 2 ^ 16 ≠ 0x5254 then s
  else match v.toNat % 4 with
  | 1 => if s.snap.isSome then s.setFld RETAIN_STAT_RESULT 3 else s.snapStart 3
  | 2 =>
    let s1 := (List.range 64).foldl (fun s i => s.retainPut (0x51004000 + 32 * i) [0, 0, 0, 0, 0, 0, 0, 0]) s
    s1.setReg RETAIN_SNAPLAST_at 0
  | 3 =>
    let lc := s.fld CFG_LC_STATE
    if lc = 0 ∨ lc = 1 ∨ lc = 3 then
      let inside (a : Nat) : Bool := decide (0x51002000 ≤ a ∧ a < 0x51004000) || decide (0x51004800 ≤ a ∧ a < 0x51004880)
      { s.setFld RETAIN_STAT_FRPOS 0 with
        mem := s.mem.filter (fun p => !inside p.1), ecc := s.ecc.filter (fun p => !inside (4 * p.1)) }
    else s
  | _ => s

/-- POWER_FAIL_WARNING (R427 to R429), while the safe plane has VDD: with SNAPEN a snapshot of cause 1 starts; a command snapshot is
abandoned. PFW then shows the warning up to the next reset (DESIGN CHOICE, log 89). -/
def State.powerFail (s : State) : State :=
  let s1 := (s.setFld RETAIN_STAT_PFW 1).setFld RETAIN_IRQ_STAT_PFW 1
  if s.pwr.vdd = false then s
  else if s1.fb RETAIN_CFG_SNAPEN = false then s1
  else match s1.snap with
  | none => s1.stopEngines.snapStart 1
  | some x => if x.cause = 3 then (s1.setFld RETAIN_STAT_RESULT 2).stopEngines.snapStart 1 else s1

/-- MRAM_REFRESH (R434): one page is rewritten in address order, on MRAM_CLK, which standby gates off and a reset stops (R418, R423); its
single-bit errors are gone. -/
def State.mramRefresh (s : State) : State :=
  if s.fb RETAIN_CFG_AUTOREF = false ∨ s.snap.isSome ∨ s.awake = false ∨ s.pwr.held = true then s
  else
    let p := s.ist.page
    let s1 := (s.ecc.filter (fun e => decide ((4 * e.1) / 4096 = 0x51000 + p))).foldl (fun s e =>
      let s' := (s.retainRead (4 * e.1) 4).1
      if (bitList e.2 72).length = 1 then s'.setFlips (4 * e.1) 0 else s') s
    { s1 with ist := { s1.ist with page := (p + 1) % 128 } }

/-! ## Watchdogs (R377 to R379) -/

/-- The watchdog begins to count (R377). -/
def State.wdStart (s : State) : State := { s with safe := { s.safe with wd := some s.tb.now, wdKicked := false, wdStopped := false } }

/-- Whole milliseconds since the last kick: TB_NOW counts them for SAFE_CLK. -/
def State.wdElapsed (s : State) : Nat := match s.safe.wd with | some t => (s.tb.now - t).toNat / 200000 | none => 0

/-- The value of MIN that acts, and that of MAX (R384). -/
def State.wdWindow (s : State) : Nat × Nat :=
  let mx := max 1 (s.fld SAFE_WDCFG_MAX)
  (if s.fld SAFE_WDCFG_MIN ≥ mx then 0 else s.fld SAFE_WDCFG_MIN, mx)

/-- A watchdog reset begins (R379): with SNAPEN the snapshot of cause 2 comes first. -/
def State.watchdogReset (s : State) : State :=
  let s1 : State := { s with safe := { s.safe with wdReset := true } }
  if s1.fb RETAIN_CFG_SNAPEN then
    (match s1.snap with
     | some x => if x.cause = 3 then (s1.setFld RETAIN_STAT_RESULT 2).stopEngines.snapStart 2 else s1
     | none => s1.stopEngines.snapStart 2)
  else s1.wdResetHold

/-- The watchdog expires (R377). -/
def State.wdExpire (s : State) : State :=
  let s1 : State := { s with safe := { s.safe with wdStopped := true } }
  let s2 := s1.raiseTrip 0x40
  if s.fld SAFE_WDCFG_ACTION = 0 then s2 else s2.watchdogReset

/-- A write of SAFE_WDKICK (R377): MIN counts from a kick, not from the start of counting. -/
def State.kick (s : State) (v : Word) : State :=
  let next := s.fld SAFE_WDSTAT_NEXT
  let good := decide (v.toNat % 2 ^ 16 = next)
  let again := ({ s.wdStart with safe := { s.wdStart.safe with wdKicked := true } } : State).setFld SAFE_WDSTAT_NEXT (if next = 0x3C5A then 0xC3A5 else 0x3C5A)
  if s.fb SAFE_WDCFG_EN = false then s
  else if s.safe.wdStopped then (if good then again else s)
  else if good ∧ (s.safe.wdKicked = false ∨ s.wdElapsed ≥ s.wdWindow.1) then again
  else s.wdExpire

/-- Whether `n` half milliseconds have passed since the last kick on SAFE_CLK, which runs within 5 %, while the watchdog counts. -/
def State.wdPassed (s : State) (n : Nat) : Bool :=
  match s.safe.wd with
  | some t => s.fb SAFE_WDCFG_EN && !s.safe.wdStopped && s.awake && decide ((s.tb.now - t).toNat ≥ 95000 * n)
  | none => false

/-- WDWARN (R377): MAX / 2 ms have passed. -/
def State.wdWarn (s : State) : State := if s.wdPassed s.wdWindow.2 then s.setFld SAFE_IRQ_STAT_WDWARN 1 else s

/-- WATCHDOG_EXPIRY (R377): MAX ms have passed. -/
def State.watchdogExpiry (s : State) : State := if s.wdPassed (2 * s.wdWindow.2) then s.wdExpire else s

/-- TICK_WATCHDOG (R378): the gap between two tick edges exceeds US. -/
def State.tickWatchdog (s : State) : State :=
  let us := max 100 (s.fld SAFE_TICKWD_US)
  if s.fb SAFE_TICKWD_EN ∧ s.pwr.released = true ∧ s.awake = true ∧ (s.tb.now - s.tb.edge).toNat ≥ 190 * us then s.raiseTrip 0x80 else s

/-- Whether a comparator can be a trip comparator: its bit of SAFE_CMPTRIP is set and it is on (R371). -/
def State.tripCmp (s : State) (n : Nat) : Bool := s.fbit (SAFE_CMPTRIP_MASK (n / 32)) (n % 32) && s.cmpOn (n / 4) (n % 4)

/-- The comparators that hold CMP active (R371): one that has lost its bit or its mode holds it no longer. -/
def State.cmpLevels (s : State) : State :=
  let l := s.safe.cmps.filter s.tripCmp
  { s.putBit SAFE_STAT_ACTIVE 3 (!l.isEmpty) with safe := { s.safe with cmps := l } }

/-- COMPARATOR_TRIP (R371): the persistence of a trip comparator is met, or it has returned. CMP is active while any of them holds it;
it arises with each one whose persistence is met. -/
def State.cmpTrip (s : State) (n : Nat) (on : Bool) : State :=
  if s.tripCmp n ∧ on = s.cmpC (n / 4) (n % 4) then
    let s1 := ({ s with safe := { s.safe with cmps := s.safe.cmps.filter (· != n) ++ (if on then [n] else []) } } : State).cmpLevels
    if on then s1.raiseTrip 8 else s1
  else s

/-- What makes CLOCK active (R378, R421, R426): `i` 0 the monitor, 1 the system PLL, 2 a PLL that is late after a wake. -/
def State.clockBad (s : State) (i : Nat) (on : Bool) : State :=
  let c := s.safe.clock
  let m := (c - (c &&& 2 ^ i)) + b2n on * 2 ^ i
  let s1 : State := { s.putBit SAFE_STAT_ACTIVE 8 (m != 0) with safe := { s.safe with clock := m } }
  if on then s1.raiseTrip 0x100 else s1

/-! ## Tamper (R380) -/

/-- Whether an event is enabled: 0, 1 the inputs, 2, 3 VBAT low and high, 4 clock, 5 temperature. -/
def State.tamperEnabled (s : State) (e : Nat) : Bool :=
  match e with
  | 0 => s.fbit SAFE_TAMPCFG_TEN 0
  | 1 => s.fbit SAFE_TAMPCFG_TEN 1
  | 2 => s.fb SAFE_TAMPCFG_VBATEN
  | 3 => s.fb SAFE_TAMPCFG_VBATEN
  | 4 => s.fb SAFE_TAMPCFG_CLKEN
  | _ => s.fb SAFE_TAMPCFG_TEMPEN

/-- The fault-record entry of a tamper event (R380, R381). -/
def State.tamperEntry (s : State) : State := s.faultEntry 4 (min 2 (s.fld SAFE_TAMPCFG_TAMPCLASS)) (s.fld SAFE_TAMPSTAT_EVT) 0

/-- The main part's side of a tamper event: the class of the cause is that of TAMPCLASS as it arises (R371, R380). -/
def State.tamperMain (s : State) : State :=
  let c := s.fld SAFE_TAMPCFG_TAMPCLASS
  let s1 := s.setFld SAFE_IRQ_STAT_TAMPER 1
  if c = 0 then s1.tamperEntry
  else
    let dev := decide (c ≥ 2) || (s.safe.tampDev && s.fbit SAFE_CAUSE_CAUSE 12)
    ({ s1 with safe := { s1.safe with tampDev := dev } } : State).raiseWith 0x1000 State.tamperEntry

/-- TAMPER_EVENT (R380): the vault and the key RAM go. -/
def State.tamper (s : State) (e : Nat) : State :=
  if s.tamperEnabled e = false ∨ (s.pwr.avdd = false ∧ s.pwr.vbat = false) then s
  else
    let s1 := (s.orBit SAFE_TAMPSTAT_EVT e).vaultWipe 1
    let s2 := (s1.setFld CFG_FUSE_KEYRAMOK 0).lcWith (fun x => { x with keyRam := none })
    if s2.pwr.vdd then s2.tamperMain else { s2 with safe := { s2.safe with tamperLate := true } }

/-- RTC_SECOND (R454): while the battery domain is supplied. -/
def State.rtcSecond (s : State) : State :=
  if s.pwr.avdd ∨ s.pwr.vbat then s.setReg SAFE_RTCSEC_at (s.reg SAFE_RTCSEC_at + 1) else s

/-! ## The in-service tester (R363 to R369) -/

/-- The IST_CFG bit of a kind: 1 ENGSIG, 2 SPMARCH, 3 TRMARCH, 4 to 7 the converter kinds, 8 LINK. -/
def istBit (kind : Nat) : Nat := if kind ≤ 3 then kind - 1 else if kind ≤ 7 then 3 else 4

/-- Whether a kind is enabled. -/
def State.istOn (s : State) (kind : Nat) : Bool := (s.reg IST_CFG_at).toNat.testBit (istBit kind) && s.pwr.released && s.awake

/-- A fault (R368): counted, recorded, captured, and the action of its kind. -/
def State.istFault (s : State) (kind unit addr : Nat) (data : Word) : State :=
  let entry (s : State) : State :=
    (s.faultEntry 5 0 kind unit).trace 7 s.stamp (BitVec.ofNat 32 (kind * 2 ^ 24 + unit)) (BitVec.ofNat 32 addr) data
  let s1 := s.addSat IST_CNT_FAULTS 1
  let s2 := if s1.fb IST_STAT_FCAP then s1
    else ((((s1.setFld IST_FKIND_KIND kind).setFld IST_FKIND_UNIT unit).setFld IST_FADDR_ADDR addr).setReg IST_FDATA_at data).setFld
      IST_STAT_FCAP 1
  match bits (s2.fld IST_ACTION_ACT) (2 * kind - 1) (2 * kind - 2) with
  | 0 => entry s2
  | 1 => entry (s2.setFld IST_IRQ_STAT_FAULT 1)
  | 2 => (s2.setFld IST_IRQ_STAT_FAULT 1).raiseWith 0x10 entry
  | _ => (s2.setFld IST_IRQ_STAT_FAULT 1).raiseWith 0x20 entry

/-- A full pass of a kind has completed (R368): its STARVED bit clears, and PASSES counts once every enabled kind has passed. -/
def State.istPass (s : State) (kind : Nat) : State :=
  let done_ := s.ist.passed ||| 2 ^ (kind - 1)
  let want := (List.range 8).foldl (fun m j => m + b2n (s.istOn (j + 1)) * 2 ^ j) 0
  let s0 := s.offBit IST_STAT_STARVED (kind - 1)
  let s1 : State := { s0 with ist := { s0.ist with since := tset 0 s0.ist.since kind s.tb.now } }
  if done_ &&& want = want then
    { (s1.setFld IST_STAT_PASSES ((s1.fld IST_STAT_PASSES + 1) % 2 ^ 16)).setFld IST_IRQ_STAT_PASS 1 with
      ist := { s1.ist with passed := 0 } }
  else { s1 with ist := { s1.ist with passed := done_ } }

/-- The groups that a full pass of a kind goes through: engines, sectors or lines. -/
def istGroups (kind : Nat) : Nat := if kind = 1 then 256 else if kind = 8 then 8 else 16

/-- Whether the tester skips a group (R363): in a held region, of a sector whose clock is stopped; a line that is off is no unit. -/
def State.istSkips (s : State) (kind u : Nat) : Bool :=
  if kind = 1 then !s.sectRuns (u / 16) || s.tileHeld u
  else if kind = 8 then !s.fb (BL_CFG_EN u)
  else !s.sectRuns u || s.fb (BAY_STATUS_HELD u)

/-- The pass of a kind has done with a group; with the last of those that it does not skip, it is a full pass. -/
def State.istCover (s : State) (kind u : Nat) : State :=
  let l := if s.ist.covered.contains (kind, u) then s.ist.covered else (kind, u) :: s.ist.covered
  if (List.range (istGroups kind)).all (fun v => s.istSkips kind v || l.contains (kind, v)) then
    ({ s with ist := { s.ist with covered := l.filter (fun p => p.1 != kind) } } : State).istPass kind
  else { s with ist := { s.ist with covered := l } }

/-- Whether a result settles its test: a pass, or a failure of the repeat (R368). -/
def State.istSettles (s : State) (key : Nat × Nat × Nat) (ok : Bool) : Bool := ok || s.ist.retry.contains key

/-- The result of a test (R368): a first failure awaits its repeat, a failure of the repeat is a fault. -/
def State.istResult (s : State) (key : Nat × Nat × Nat) (addr : Nat) (data : Word) (ok : Bool) : State :=
  let s1 (l : List (Nat × Nat × Nat)) : State := { s with ist := { s.ist with retry := l } }
  if ok then s1 (s.ist.retry.erase key)
  else if s.ist.retry.contains key then (s1 (s.ist.retry.erase key)).istFault key.1 key.2.1 addr data
  else s1 (s.ist.retry ++ [key])

/-- The slack of LE[t] after its last activation of the tick (R69, R113, R363): nothing runs, and no slice is left that could. -/
def State.engineSlack (s : State) (t : Nat) : Bool :=
  (s.engOf t).act.isNone && (takeSlice (fun k => (s.slotOf t k).mayRun) (s.engOf t).layout).1.isNone

/-- Whether the tester can use tile `t` (R363): its sector runs, no region holds it, and its engine is in its slack. -/
def State.istTile (s : State) (t : Nat) : Bool := s.sectRuns (t / 16) && !s.tileHeld t && s.engineSlack t

/-- SECT_CLK cycles of sector `k` before its next tick boundary (R364, R365): none where that of the current tick still stands out. The
boundary follows the tick edge, from which they are counted. -/
def State.sectLeft (s : State) (k : Nat) : Nat :=
  if tget 0 s.tickCopy k = s.tb.tick then
    s.toSect k (((s.tb.edge + BitVec.ofNat 64 (s.fld TB_TICKLEN_CYCLES)) - s.tb.now).toInt).toNat
  else 0

/-- IST_SIGNATURE (R364): LE[t] runs its next program of the ROM, and `sig` is its signature. -/
def State.istSignature (s : State) (t : Nat) (sig : Word) : State :=
  let i := tget 0 s.ist.prog t
  if s.istOn 1 = false ∨ s.istTile t = false ∨ s.sectLeft (t / 16) < min 240 (Config.programCycles i) + 18 then s
  else
    let ok := sig == Config.signature i
    let s1 := s.istResult (1, t, i) 0 sig ok
    if s.istSettles (1, t, i) ok = false then s1
    else
      let s2 : State := { s1 with ist := { s1.ist with prog := tset 0 s1.ist.prog t ((i + 1) % 16) } }
      if i = 15 then s2.istCover 1 t else s2

/-- A walk goes on behind the window that it has reached (R365): abandoned, that one is retried after the rest of its unit. -/
def March.step (m : March) (tile again : Bool) : March :=
  let rest := (if m.win < marchWins tile then m.again else m.again.tail) ++ (if again then [m.target tile] else [])
  let win := if m.win < marchWins tile then m.win + 1 else m.win
  if win < marchWins tile ∨ rest ≠ [] then { m with win := win, busy := false, hit := false, again := rest }
  else ⟨m.unit + 1, 0, false, false, []⟩

/-- The units of a sector that a march test walks: 8 banks, 16 tiles. -/
def marchUnits (tile : Bool) : Nat := if tile then 16 else 8

/-- A walk passes the tiles that a region holds (R363). -/
def State.marchSkip (s : State) (tile : Bool) (k : Nat) (m : March) : Nat → March
  | 0 => m
  | n + 1 => if tile && decide (m.unit < 16) && s.tileHeld (16 * k + m.unit) then s.marchSkip tile k ⟨m.unit + 1, 0, false, false, []⟩ n else m

/-- A walk stands at a place: one that has come to the end of its sector begins again, and its kind's pass has done with the sector. -/
def State.marchAt (s : State) (tile : Bool) (k : Nat) (m : March) : State :=
  let m1 := s.marchSkip tile k m 16
  if m1.unit < marchUnits tile then s.setMarch tile k m1
  else (s.setMarch tile k marchReset).istCover (if tile then 3 else 2) k

/-- A march test of the window that the walk of sector `k` has reached begins (R365): the window is under test. A tile's begins only
with 1,536 cycles left. -/
def State.marchStart (s : State) (tile : Bool) (k u : Nat) : State :=
  let s1 := if (s.marchOf tile k).busy then s else s.marchAt tile k (s.marchOf tile k)
  let m := s1.marchOf tile k
  if m.busy ∨ m.unit ≠ u ∨ (tile = true ∧ (s1.istTile (16 * k + u) = false ∨ s1.sectLeft k < 1536)) then s1
  else s1.setMarch tile k { m with busy := true }

/-- The march of a window ends and its contents are restored (R365): `diff` is the exclusive or of the 39 bits read and expected at the
first failing word. A window that was accessed has been abandoned. -/
def State.marchEnd (s : State) (tile : Bool) (k u word : Nat) (diff : BitVec 39) : State :=
  let m := s.marchOf tile k
  let kind := if tile then 3 else 2
  let key := (kind, (if tile then 16 * k + u else 8 * k + u), m.target tile)
  if m.busy = false ∨ m.unit ≠ u then s
  else if m.hit then s.marchAt tile k (m.step tile true)
  else
    let s1 := s.istResult key (if diff = 0 then 0 else m.base tile k + 4 * word) (diff.setWidth 32) (diff == 0)
    if s.istSettles key (diff == 0) then s1.marchAt tile k (m.step tile false) else s1.setMarch tile k { m with busy := false }

/-- A march window of a bank or of a tile (R365): its test begins or ends. -/
def State.march (s : State) (tile : Bool) (k u word : Nat) (diff : BitVec 39) (starts : Bool) : State :=
  if s.istOn (if tile then 3 else 2) = false ∨ s.istSkips (if tile then 3 else 2) k = true then
    s.setMarch tile k { s.marchOf tile k with busy := false, hit := false }
  else if starts then s.marchStart tile k u else s.marchEnd tile k u word diff

/-- The ideal value and the limit of a converter test of a kind (R178, R205, R366): 4 THRDAC, 5 DACLOOP, 7 CONV with `arg` 0 SHORT or 1 VREF. -/
def State.istIdeal (s : State) (kind unit arg : Nat) : Int × Int :=
  match kind with
  | 4 => ((s.fld (CMP_THR_CODE (unit / 4) (unit % 4)) * 2 ^ 20 : Nat), (s.fld IST_LIM_THRLIM * 2 ^ 20 : Nat))
  | 5 =>
    let ideal : Nat := s.fld (DAC_CODE_CODE unit) * (1 + s.fld (DAC_STAT_GAINF unit)) * 2 ^ 15
    ((ideal : Int), ((s.fld IST_LIM_DACLIM * 2 ^ 20 + ideal / 256 : Nat) : Int))
  | _ => (if arg = 0 then 0 else 2 ^ 30, (s.fld IST_LIM_SHORTLIM * 2 ^ 20 : Nat))

/-- The bay whose converters serve a test (R366). -/
def istBay (kind unit : Nat) : Nat := if kind = 4 then unit / 4 else if kind = 6 then unit else unit / 2

/-- How many converter tests a bay has: the replica, 4 threshold DACs, 2 DACs, SHORT and VREF on either converter, and 49 × 20
switches. -/
def istTests : Nat := 991

/-- The tests of bay `k` in the order in which they are served (R366): kind, unit, and what is measured: 6 RON 0 the replica,
1 + 32·n + t the switch of terminal `n` and track `t` in BAY_SW order; 7 CONV 0 SHORT, 1 VREF. -/
def istNth (k j : Nat) : Nat × Nat × Nat :=
  if j = 0 then (6, k, 0)
  else if j ≤ 4 then (4, 4 * k + (j - 1), 0)
  else if j ≤ 6 then (5, 2 * k + (j - 5), 0)
  else if j ≤ 10 then (7, 2 * k + (j - 7) / 2, (j - 7) % 2)
  else (6, k, 1 + 32 * ((j - 11) / 20 + 8) + (j - 11) % 20)

/-- The last test of each kind in that order. -/
def istEnds : List (Nat × Nat) := [(4, 4), (5, 6), (7, 10), (6, 990)]

/-- The converter that a test borrows (R156): CONV tests its own, the others take either of the bay. -/
def State.istConv (s : State) (kind unit : Nat) : Option Nat :=
  let k := istBay kind unit
  (if kind = 7 then [unit] else [2 * k, 2 * k + 1]).find? s.lends

/-- Whether a test can be made now (R156, R363, R366): a converter lends itself, and the condition of its kind holds. -/
def State.istMay (s : State) (x : Nat × Nat × Nat) : Bool :=
  (s.istConv x.1 x.2.1).isSome && (match x.1 with
    | 4 => s.cmpOn (x.2.1 / 4) (x.2.1 % 4)
    | 5 => s.fld (DAC_STAT_STATE x.2.1) == dacDrive
    | 6 => x.2.2 == 0 || !s.rcalRefused x.2.1 ((x.2.2 - 1) / 32) ((x.2.2 - 1) % 32)
    | _ => true)

/-- The converter tests of a bay. -/
def State.bayTests (s : State) (k : Nat) : BayTests := tget ⟨0, none⟩ s.ist.bay k

/-- Stores the converter tests of a bay. -/
def State.setBayTests (s : State) (k : Nat) (b : BayTests) : State :=
  { s with ist := { s.ist with bay := tset ⟨0, none⟩ s.ist.bay k b } }

/-- The place of the next test of bay `k` that can be made, in its order (R366). -/
def State.istNext (s : State) (k : Nat) : Option Nat :=
  ((List.range istTests).map (fun j => ((s.bayTests k).pos + j) % istTests)).find? (fun j => s.istMay (istNth k j))

/-- The pass goes on behind the test at a place of bay `k`: the kinds whose last test lies on the way are done with the bay. -/
def State.istGoOn (s : State) (k p : Nat) : State :=
  let from_ := (s.bayTests k).pos
  let far (j : Nat) : Nat := (j + istTests - from_) % istTests
  let s1 := s.setBayTests k { s.bayTests k with pos := (p + 1) % istTests }
  istEnds.foldl (fun s e => if far e.2 ≤ far p then s.istCover e.1 k else s) s1

/-- A test of a bay begins (R366): it is the next one in order, or the replica, whose period comes first and which is measured whatever
ANAEN says (R137); its converter is borrowed (R156). -/
def State.istBegin (s : State) (kind unit arg : Nat) : State :=
  let k := istBay kind unit
  let due := (kind = 6 ∧ arg = 0) ∨ (s.istOn kind = true ∧ (s.istNext k).any (fun j => istNth k j == (kind, unit, arg)))
  match s.istConv kind unit with
  | some n =>
    if (s.bayTests k).run.isSome ∨ ¬ due then s
    else (s.setAdc n { s.adcOf n with borrowed := some kind }).setBayTests k
      { s.bayTests k with run := some ⟨kind, unit, arg, n, false⟩ }
  | none => s

/-- The result of a converter test (R366). RON is the resistance in 1/16 Ω, 0xFFFF_FFFF an open switch; the replica's goes to BAY_RONREP
too (R137). -/
def State.istJudge (s : State) (r : Loan) (d : Word) : State :=
  let k := istBay r.kind r.unit
  let s0 := if r.kind = 6 ∧ r.arg = 0 then s.ronResult k d.toNat else s
  if s0.istOn r.kind = false then s0
  else
    let x := s.istIdeal r.kind r.unit r.arg
    let ok := if r.kind = 6 then decide (1600 ≤ d.toNat ∧ d.toNat ≤ 6400) else decide ((d.toInt - x.1).natAbs ≤ x.2.natAbs)
    let addr := if r.kind = 6 ∧ r.arg > 0 ∧ ok = false then BAY_SW_at k ((r.arg - 1) / 32) else 0
    let key := (r.kind, r.unit, r.arg)
    let s1 := s0.istResult key addr d ok
    match (List.range istTests).find? (fun j => istNth k j == key) with
    | some p =>
      if s0.istSettles key ok ∧ (p ≠ 0 ∨ (s0.bayTests k).pos = 0) then s1.istGoOn k p else s1
    | none => s1

/-- The borrowed conversion of a bay ends (R156, R366): one that was abandoned or whose condition broke is no test. -/
def State.istEnd (s : State) (kind unit arg : Nat) (d : Word) : State :=
  let k := istBay kind unit
  match (s.bayTests k).run with
  | none => s
  | some r =>
    if r.kind ≠ kind ∨ r.unit ≠ unit ∨ r.arg ≠ arg then s
    else
      let s1 := s.setBayTests k { s.bayTests k with run := none }
      if s.borrowedFor r.conv kind = false then s1
      else
        let s2 := s1.setAdc r.conv { s1.adcOf r.conv with borrowed := none }
        (if r.void then s2 else s2.istJudge r d).rcalBorrow k

/-- The borrowed conversion of a bay that the tester skips ends without a result (R363). -/
def State.istDrop (s : State) (k : Nat) : State :=
  match (s.bayTests k).run with
  | none => s
  | some r =>
    (if s.borrowedFor r.conv r.kind then s.endLoan r.conv else s).setBayTests k { s.bayTests k with run := none }

/-- IST_CONVERSION (R366): a borrowed conversion of kinds 4 to 7 begins or ends. -/
def State.istConversion (s : State) (kind unit arg : Nat) (d : Word) (starts : Bool) : State :=
  let k := istBay kind unit
  if s.pwr.released = false ∨ s.awake = false ∨ s.istSkips kind k = true then
    s.istDrop k
  else if starts then s.istBegin kind unit arg else s.istEnd kind unit arg d

/-- LINK_WINDOW (R367): a window of 1 s of line `l` ends. A count over the limit is a fault. -/
def State.linkWindow (s : State) (l : Nat) : State :=
  let n := tget 0 s.ist.link l
  let s1 : State := { s with ist := { s.ist with link := tset 0 s.ist.link l 0 } }
  if s.istOn 8 = false ∨ s.fb (BL_CFG_EN l) = false then s1
  else (if n > s.fld IST_LINKLIM_LIMIT then s1.istFault 8 l 0 (BitVec.ofNat 32 n) else s1).istCover 8 l

/-- IST_STARVED (R368): the last full pass of a kind, or the release, lies MAXPASS seconds back; TB_NOW counts them (DESIGN CHOICE,
log 99). -/
def State.istStarved (s : State) (kind : Nat) : State :=
  if s.istOn kind ∧ (s.tb.now - tget 0 s.ist.since kind).toNat ≥ s.fld IST_CFG_MAXPASS * 200000000 then
    (s.orBit IST_STAT_STARVED (kind - 1)).setFld IST_IRQ_STAT_STARVED 1
  else s

/-! ## The commands -/

/-- IST_SIGNATURE. -/
def execIstSignature (t : Fin 256) (sig : Word) (_ _ : Unit) (s : State) : Host.Outcome State Fault Refusal :=
  done s (s.istSignature t.val sig)
/-- SPMARCH_WINDOW. -/
def execSpmarchWindow (k : Fin 16) (b : Fin 8) (word : Fin 64) (diff : BitVec 39) (starts : Bool) (_ : Unit) (s : State) :
    Host.Outcome State Fault Refusal := done s (s.march false k.val b.val word.val diff starts)
/-- TRMARCH_WINDOW. -/
def execTrmarchWindow (t : Fin 256) (word : Fin 64) (diff : BitVec 39) (starts : Bool) (_ : Unit) (s : State) :
    Host.Outcome State Fault Refusal := done s (s.march true (t.val / 16) (t.val % 16) word.val diff starts)
/-- IST_CONVERSION. -/
def execIstConversion (kind : Fin 4) (unit arg : Nat) (d : Word) (starts : Bool) (s : State) : Host.Outcome State Fault Refusal :=
  done s (s.istConversion (4 + kind.val) unit arg d starts)
/-- LINK_WINDOW. -/
def execLinkWindow (l : Fin 8) (_ : Unit) (s : State) : Host.Outcome State Fault Refusal := done s (s.linkWindow l.val)
/-- IST_STARVED. -/
def execIstStarved (kind : Fin 8) (s : State) : Host.Outcome State Fault Refusal := done s (s.istStarved (kind.val + 1))
/-- TRIP: a write of SAFE_CTRL with TRIP set. -/
def execTrip (v : Word) (s : State) : Host.Outcome State Fault Refusal := done s (s.safeCtrl (v ||| 1))
/-- TRIP_INPUT: TRIP_IN_N[i] has been low for its filter time, or has returned. -/
def execTripInput (i : Fin 2) (low : Bool) (s : State) : Host.Outcome State Fault Refusal := done s (s.level (1 + i.val) low)
/-- COMPARATOR_TRIP. -/
def execComparatorTrip (n : Fin 64) (on : Bool) (s : State) : Host.Outcome State Fault Refusal := done s (s.cmpTrip n.val on)
/-- VMON (R371). -/
def execVmon (out : Bool) (s : State) : Host.Outcome State Fault Refusal := done s (s.level 9 out)
/-- TEMP (R371). -/
def execTemp (hot : Bool) (s : State) : Host.Outcome State Fault Refusal := done s (s.level 10 hot)
/-- CLOCK_MONITOR (R378). -/
def execClockMonitor (bad : Bool) (s : State) : Host.Outcome State Fault Refusal := done s (s.clockBad 0 bad)
/-- TICK_WATCHDOG. -/
def execTickWatchdog (s : State) : Host.Outcome State Fault Refusal := done s s.tickWatchdog
/-- HANDOVER_TRIP. -/
def execHandoverTrip (s : State) : Host.Outcome State Fault Refusal := done s s.handoverTrip
/-- TRIP_RELEASE: a write of SAFE_CTRL with RELEASE set. -/
def execTripRelease (v : Word) (s : State) : Host.Outcome State Fault Refusal := done s (s.safeCtrl (v ||| 2))
/-- SAFE_LOCK: a write of SAFE_CTRL with LOCK set. -/
def execSafeLock (v : Word) (s : State) : Host.Outcome State Fault Refusal := done s (s.safeCtrl (v ||| 8))
/-- KICK. -/
def execKick (v : Word) (s : State) : Host.Outcome State Fault Refusal := done s (s.kick v)
/-- WDWARN. -/
def execWdwarn (s : State) : Host.Outcome State Fault Refusal := done s s.wdWarn
/-- WATCHDOG_EXPIRY. -/
def execWatchdogExpiry (s : State) : Host.Outcome State Fault Refusal := done s s.watchdogExpiry
/-- TAMPER_EVENT. -/
def execTamperEvent (e : Fin 6) (s : State) : Host.Outcome State Fault Refusal := done s (s.tamper e.val)
/-- RTC_SECOND. -/
def execRtcSecond (s : State) : Host.Outcome State Fault Refusal := done s s.rtcSecond
/-- SILLAGE_WRITE. -/
def execSillageWrite (s : State) : Host.Outcome State Fault Refusal := done s s.sillageWrite
/-- SILLAGE_FREEZE. -/
def execSillageFreeze (s : State) : Host.Outcome State Fault Refusal := done s (s.sillageCtrl 1)
/-- SILLAGE_RESUME. -/
def execSillageResume (s : State) : Host.Outcome State Fault Refusal := done s (s.sillageCtrl 2)
/-- SILLAGE_CLEAR. -/
def execSillageClear (s : State) : Host.Outcome State Fault Refusal := done s (s.sillageCtrl 4)
/-- SILLAGE_MARK. -/
def execSillageMark (req : Fin 405) (v : Word) (s : State) : Host.Outcome State Fault Refusal := done s (s.sillageMark req.val v)
/-- SNAPSHOT_DONE. -/
def execSnapshotDone (s : State) : Host.Outcome State Fault Refusal := done s s.snapDone
/-- SNAP: a write of RETAIN_CMD with OP 1. -/
def execSnap (v : Word) (s : State) : Host.Outcome State Fault Refusal := done s (s.retainCmd ((v &&& 0xFFFFFFFC) ||| 1))
/-- ERASESNAP: a write of RETAIN_CMD with OP 2. -/
def execErasesnap (v : Word) (s : State) : Host.Outcome State Fault Refusal := done s (s.retainCmd ((v &&& 0xFFFFFFFC) ||| 2))
/-- ERASEFAULT: a write of RETAIN_CMD with OP 3. -/
def execErasefault (v : Word) (s : State) : Host.Outcome State Fault Refusal := done s (s.retainCmd (v ||| 3))
/-- MRAM_REFRESH. -/
def execMramRefresh (s : State) : Host.Outcome State Fault Refusal := done s s.mramRefresh
/-- POWER_FAIL_WARNING. -/
def execPowerFailWarning (s : State) : Host.Outcome State Fault Refusal := done s s.powerFail

end Sys2Proof.Machine
end

