-- ==== Sys2Proof/Machine/Loader.lean ====
section
/-! DEFINITION. The loader: resets and their clearing, the image stream and its records, load errors, the release of the
configuration, and the life cycle (R318 to R345, R349, R350). -/

namespace Sys2Proof.Machine

/-! ## Clearing (R319, R417, R419) -/

/-- The registers that no clearing touches: battery domain, fuses and identity, fault record, what the safe plane keeps, levels of
the banks. -/
def keptAlways (a : Nat) : Bool :=
  a == SAFE_TAMPCFG_at || a == SAFE_TAMPSTAT_at || a == SAFE_RTCSEC_at || a == SAFE_RSTCAUSE_at || a == SAFE_FRSTAT_at ||
  (decide (SAFE_FREC_at 0 0 ≤ a) && decide (a < SAFE_FREC_at 16 0)) || a == SILLAGE_PREV_at || a == VAULT_STAT_at || a == VAULT_CNT_at ||
  a == CFG_LC_at || a == CFG_FUSE_at || a == CFG_UID_LO_at || a == CFG_UID_HI_at || a == RETAIN_SNAPLAST_at || a == XBAR_BANKSTAT_at

/-- The registers that the clearing of a failed attempt keeps too: the safe plane, the PCIe endpoint, the PLLs, and the CFG block
but for what the image sets. -/
def keptInAttempt (a : Nat) : Bool :=
  keptAlways a || a / 0x1000 == 0x4000e || a / 0x1000 == 0x40010 || a == CLK_STAT_at || a == RETAIN_STAT_at ||
  (a / 0x1000 == 0x4000b && !(a == CFG_IMGCTL_at || a == CFG_IMGID_at || a == CFG_SECVER_at ||
    (decide (CFG_SECENG_at 0 ≤ a) && decide (a < CFG_SECENG_at 8))))

/-- The memories that no clearing touches: vault, retention store, Sillage buffer (R319, R385). -/
def keptMemory (a : Nat) : Bool := a / 0x1000000 == 0x50 || a / 0x1000000 == 0x51 || a / 0x1000000 == 0x52

/-- The clock registers of the part's grade (R419): grade 3 differs from the reset words of the map. -/
def State.gradeClocks (s : State) : State :=
  if s.part.grade = 3 then
    let s1 := (List.range 16).foldl (fun s k => s.setFld (CLK_SECT_SDIV k) 6) (s.setFld CLK_CORE_M 72)
    (List.range 8).foldl (fun s k => s.setFld (CLK_FAB_FDIV k) 9) s1
  else s

/-- The fields of a register that a record sets: RW, RWS and RWL, and the image-only fields (R322, R323). -/
def imageMask (a : Nat) : Word :=
  if a = CFG_IMGCTL_at then 1
  else if CFG_SECENG_at 0 ≤ a ∧ a < CFG_SECENG_at 8 then 0xFFFFFFFF
  else match findRow regRows a with
    | some r => BitVec.ofNat 32 ((r.rw ||| r.rws ||| r.rwl) &&& swBits a)
    | none => 0

/-- What an image can set in the registers that the clearing of a failed attempt keeps takes its reset value too (R319, R339). -/
def State.imageCleared (s : State) : State :=
  (s.regs.filter (fun p => p.1 / 0x1000 == 0x4000e || p.1 / 0x1000 == 0x40010)).foldl (fun s p =>
    if keptAlways p.1 then s else s.setReg p.1 ((s.reg p.1 &&& ~~~imageMask p.1) ||| (rstWord p.1 &&& imageMask p.1))) s

/-- The clearing of R319: registers at reset but for `keep`, memories at 0 with valid check bits, every block at rest. -/
def State.clearAll (s : State) (keep : Nat → Bool) : State :=
  ({ State.reset with
      pending := s.pending, outbox := s.outbox, freeCtr := s.freeCtr, part := s.part, regs := s.regs.filter (fun p => keep p.1)
      mem := s.mem.filter (fun p => keptMemory p.1), ecc := s.ecc.filter (fun p => keptMemory (4 * p.1)), wipe := s.wipe
      msiHeld := s.msiHeld, pcie := s.pcie, nodes := s.nodes, lc := s.lc, loader := s.loader, tap := s.tap
      safe := { s.safe with ticks := 0, wd := none, wdStopped := false, hand := 0, usec := none }
      ist := { State.reset.ist with page := s.ist.page }
      pwr := { s.pwr with released := false, ioEnabled := false, phase := .run, snapStop := false } } : State).gradeClocks

/-! ## The life cycle's registers (R342, R345) -/

/-- The life-cycle state (R342). -/
def LifeCycle.state (x : LifeCycle) : Nat := if x.service.isSome then 3 else x.st

/-- The minutes of SERVICE that remain, as CFG_LC shows them (R345), rounded up. -/
def State.serviceMinutes (s : State) : Nat :=
  match s.lc.service with | some t => (t - s.fld SAFE_RTCSEC_SEC + 59) / 60 | none => 0

/-- CFG_LC and CFG_FUSE show the fuses, the SERVICE flag and the key RAM. -/
def State.lcShow (s : State) : State :=
  let x := s.lc
  let mins := s.serviceMinutes
  ((((((((s.setFld CFG_LC_STATE x.state).setFld CFG_LC_SVCMIN mins).setFld CFG_FUSE_MINVER x.minver).setB CFG_FUSE_ALTBOOT
    x.altboot).setB CFG_FUSE_KEYRAMOK x.keyRam.isSome).setB CFG_FUSE_AESKEY x.aesKey.isSome).setB CFG_FUSE_SVCKEY
    x.svcKey.isSome).setB CFG_FUSE_IMGKEY x.imgKey.isSome)

/-- A change of life-cycle state wipes the vault and is recorded (R343, R381). -/
def State.lcChanged (s : State) : State := (s.lcShow.vaultWipe 2).faultEntry 0x0A 0 s.lc.state 0

/-- A new nonce is drawn (R344). -/
def State.newNonce (s : State) : State := (List.range 8).foldl (fun s i => (s.setReg (CFG_NONCE_at i) s.free).fresh) s

/-! ## Starting an attempt (R318, R319, R333, R339) -/

/-- The source of the sampled mode (R318). -/
def modeSource (m : Nat) : LoadSource :=
  match m with | 0 => .flash | 1 => .flash | 2 => .chain | 3 => .host | 4 => .host | _ => .jtag

/-- A loader before its sync word. -/
def loaderAt (src : LoadSource) (part alt : Bool) (buf : List Word) : Loader :=
  { State.reset.loader with phase := .sync, source := src, part := part, alt := alt, buf := buf }

/-- A final failure (R339). -/
def State.finalFailure (s : State) : State :=
  { (s.setFld CFG_STAT_ERR 1).setFld CFG_STAT_LOADING 0 with loader := { State.reset.loader with source := .jtag } }

/-- The loader reads a flash (R333, R360): the message holds 0 in OCTAL mode and 1 in QUAD mode, which HOSTF uses too, and the byte
offset. -/
def State.flashRead (s : State) (offset : Nat) : State := s.emit (.message "FLASH_READ" [b2n (s.fld CFG_STAT_MODE != 0), offset])

/-- An attempt begins. -/
def State.attempt (s : State) (src : LoadSource) (alt : Bool) : State :=
  let s1 := ((s.setFld CFG_STAT_LOADING 1).setFld CFG_STAT_ERR 0).setB CFG_STAT_ALT alt
  { (if src = .flash then s1.flashRead (if alt then 0x800000 else 0) else s1) with loader := loaderAt src false alt [] }

/-- The clearing between attempts (R319, R339); the side stays as sampled (R297). -/
def State.attemptClear (s : State) : State := (s.clearAll keptInAttempt).imageCleared.setFld PAIR_STAT_SIDE (s.fld PAIR_STAT_SIDE)

/-- The loader meets an error before the release (R338, R339): the clearing, and what the mode does next. CFG_ACODE tells of a failed
release check only (R345). -/
def State.loadError (s : State) (code pos : Nat) : State :=
  let s1 := (((s.setFld CFG_STAT_ERRCODE code).setFld CFG_ERRPOS_POS pos).setFld CFG_IRQ_STAT_ERR 1).faultEntry 9 0 code 0
  let s2 := (if code = 0x1C then s1 else s1.setFld CFG_ACODE_CODE 0).attemptClear
  let mode := s.fld CFG_STAT_MODE
  let flash := decide (s.loader.source = .flash)
  if code = 0x15 ∨ code = 0x14 then s2.finalFailure
  else if flash ∧ s.loader.alt = false ∧ s.lc.altboot = true then s2.attempt .flash true
  else if mode = 4 ∧ flash = false then s2.attempt .flash false
  else s2.finalFailure

/-- RESET_N_RELEASE (R318, R319, R342): MODE and PAIR_ROLE are sampled, the clearing is done, and the loader starts. -/
def State.startLoad (s : State) : State :=
  let s1 := s.clearAll keptAlways
  let s2 : State := { s1 with
    pwr := { s1.pwr with held := false }
    safe := { s1.safe with wdReset := false, cmps := [], clock := 0, tampDev := false }
    pcie := { State.reset.pcie with perst := s1.pcie.perst }
    msiHeld := [] }
  let s3 := (((((s2.lcWith (fun x => { x with busy := none })).setFld CFG_LC_TRIES 0).setFld CFG_STAT_MODE s.part.modePins).setB PAIR_STAT_SIDE s.part.sidePin).setReg CFG_UID_LO_at
    (s.part.uid.setWidth 32)).setReg CFG_UID_HI_at (s.part.uid.extractLsb' 32 32)
  let s4 := if s3.lc.service.isSome then (s3.lcWith (fun x => { x with service := none })).lcChanged else s3.lcShow
  let s5 : State := if s4.pwr.battLost then { s4.vaultWipe 4 with pwr := { s4.pwr with battLost := false } } else s4
  let s6 := s5.newNonce.findSnap.findRing
  if s6.lc.st = 4 then (s6.setFld CFG_STAT_LOADING 1).loadError 0x15 0
  else if s.part.modePins = 5 ∨ s.part.modePins = 6 then (s6.setFld CFG_STAT_LOADING 1).loadError 0x14 0
  else s6.attempt (modeSource s.part.modePins) false

/-- RESET_N_RELEASE: where the device is held with its rails up. -/
def State.resetRelease (s : State) : State := if s.pwr.held ∧ s.pwr.railsUp then s.startLoad else s

/-! ## Where a record stands (R338) -/

/-- The byte offset of the next record in the image: inside a section the tags of the blocks before it count (R331). -/
def Loader.offset (x : Loader) : Nat :=
  if x.left = 0 then x.pos
  else x.secStart + (x.secLen - x.left) + 16 * ((x.secLen - x.left) / 4096)

/-- Whether the boot mode has a flash (R318, R360). -/
def State.flashMode (s : State) : Bool := decide (s.fld CFG_STAT_MODE ≤ 1 ∨ s.fld CFG_STAT_MODE = 4)

/-- A loader that has let its stream go keeps a pass-on, and what the region sections have collected. -/
def Loader.rest (x : Loader) : Loader :=
  { State.reset.loader with more := x.more, passOn := x.passOn, passBuf := x.passBuf, clk := x.clk }

/-- A loader before the sync word of a partial image. -/
def Loader.partAt (x : Loader) (src : LoadSource) : Loader := { x.rest with phase := .sync, source := src, part := true }

/-- An attempt of a reload begins: the image stands in the flash at the region's offset (R360). -/
def State.reloadBegins (s : State) (r : Nat) : State :=
  let s1 := (((s.setFld PR_STAT_BUSY 1).setFld PR_STAT_SRC 1).setFld PR_STAT_REGION r).setFld (REG_STAT_LOADING r) 1
  let s2 := (s1.setFld (REG_STAT_TRIES r) (min (s1.fld (REG_STAT_TRIES r) + 1) 15)).flashRead (4096 * s1.fld (REG_SRC_OFFSET r))
  { s2 with loader := s.loader.partAt .flash, scrub := { s2.scrub with tried := s.scrub.tried + 1 } }

/-- A reload fails at once for want of a flash (R360). -/
def State.reloadFails (s : State) (r : Nat) : State :=
  let s1 := ((s.setFld PR_STAT_SRC 1).setFld PR_STAT_REGION r).setFld PR_STAT_CODE 0x13
  ((s1.setFld (REG_STAT_CODE r) 0x13).setFld SCRUB_IRQ_STAT_PRERR 1).setFld SCRUB_IRQ_STAT_RELOADFAIL 1

/-- Reloads run one at a time, in region order, once their region is held (R354, R360). -/
def State.startReload (s : State) : State :=
  let due := (List.range 32).filter (fun r => s.scrub.reloads.contains r && s.fb (REG_STAT_HELD r))
  let without (s : State) (rs : List Nat) : State :=
    { s with scrub := { s.scrub with reloads := s.scrub.reloads.filter (fun r => !rs.contains r) } }
  if s.fb PR_STAT_BUSY then s
  else if s.flashMode = false then due.foldl State.reloadFails (without s due)
  else match due with
  | [] => s
  | r :: _ => ({ without s [r] with scrub := { (without s [r]).scrub with tried := 0 } } : State).reloadBegins r

/-- A partial load ends with a code (R350, R360): the region stays as it is; a reload has its retries. -/
def State.partialError (s : State) (code pos : Nat) : State :=
  let r := s.fld PR_STAT_REGION
  let flash := s.fb PR_STAT_SRC
  let s1 := (((s.setFld PR_STAT_CODE code).setFld PR_ERRPOS_POS pos).setFld SCRUB_IRQ_STAT_PRERR 1)
  let s2 := if s.loader.begun ≠ 0 ∨ flash = true then (s1.setFld (REG_STAT_CODE r) code).setFld (REG_STAT_LOADING r) 0 else s1
  if flash ∧ code ≠ 0x1A ∧ s2.scrub.tried ≤ s2.fld (REG_DEF_RETRY r) then s2.reloadBegins r
  else if flash then
    let s3 : State := { s2.setFld PR_STAT_BUSY 0 with loader := s.loader.rest }
    (if code = 0x1A then s3 else s3.setFld SCRUB_IRQ_STAT_RELOADFAIL 1).startReload
  else
    ({ (s2.setFld PR_STAT_BUSY 0).setFld PR_STAT_DISCARD 1 with
      loader := { s.loader.rest with phase := .discard, source := s.loader.source } } :
      State).startReload

/-- The loader stops at an error, full or partial. -/
def State.failAt (s : State) (code pos : Nat) : State := if s.loader.part then s.partialError code pos else s.loadError code pos

/-- The loader stops at the record it has reached. -/
def State.failHere (s : State) (code : Nat) : State := s.failAt code s.loader.offset

/-- Replaces the loader. -/
def State.withLoader (s : State) (f : Loader → Loader) : State := { s with loader := f s.loader }

/-- Whether the words of a source come by the loader's buffer (R337): those of a flash or of the pass-on input come with the command. -/
def LoadSource.buffered (src : LoadSource) : Bool := src == .host || src == .jtag

/-- Words of the image stream are read: they are noted for the hash (R330), and those of a host or of boundary scan have to stand in the
buffer, all of them. -/
def State.take (s : State) (ws : List Word) : Option State :=
  if s.loader.source.buffered && s.loader.buf.take ws.length != ws then none
  else some (s.withLoader (fun x => { x with
    read := ws.reverse ++ x.read, buf := if x.source.buffered then x.buf.drop ws.length else x.buf }))

/-- Words of a record are read: inside a KEYSEL section from the plaintext that has been decrypted (R331). -/
def State.supply (s : State) (ws : List Word) : Option State :=
  if s.loader.left = 0 then s.take ws
  else if s.loader.plain.take ws.length = ws then some (s.withLoader (fun x => { x with plain := x.plain.drop ws.length }))
  else none

/-! ## Sync word and AUTH (R320, R329, R330) -/

/-- SYNC_WORD: the first word of an image; `sfdp` tells, in OCTAL mode, that the flash has given valid SFDP tables (R333). -/
def State.syncWord (s : State) (w : Word) (sfdp : Bool) : State :=
  if s.loader.phase ≠ .sync then s
  else match s.supply [w] with
  | none => s
  | some s1 =>
    if sfdp = false ∧ s.loader.source = .flash ∧ s.fld CFG_STAT_MODE = 0 then s1.failAt 0x13 0
    else if w = 0x5A5A4C38 then s1.withLoader (fun x => { x with phase := .auth, pos := 4 })
    else if w = 0xFFFFFFFF ∧ s.loader.source = .flash then s1.failAt 0x13 0
    else s1.failAt 1 0

/-- AUTH (R330 step 1): the record is taken and the stream pauses. -/
def State.authRecord (s : State) (h : Word) (ws : List Word) : State :=
  let n := bits h.toNat 19 0
  let sub := bits h.toNat 27 20
  if s.loader.phase ≠ .auth then s
  else if ¬ (bits h.toNat 31 28 = 7 ∧ ((n = 16 ∧ sub = 0) ∨ (n = 48 ∧ sub = 1))) then
    (match s.supply [h] with | some s1 => s1.failAt 2 4 | none => s)
  else if ws.length ≠ n then s
  else match s.supply (h :: ws) with
  | none => s
  | some s1 =>
      s1.withLoader (fun x => { x with
        phase := .checks, auth := ws, pos := x.pos + 4 * (n + 1), body := x.pos + 4 * (n + 1), read := [] })

/-- The bytes of words `i` to `i + n − 1` of a record, as stored. -/
def wordsAt (ws : List Word) (i n : Nat) : List Byte := ((ws.drop i).take n).flatMap wordBytes

/-- Whether bytes have a fused hash (R330, R344). -/
def hashIs (h : Option (List Word)) (bs : List Byte) : Bool :=
  match h with
  | some ws => ws.flatMap wordBytes == sha256 bs
  | none => false

/-- AUTH_CHECK_DONE (R330 steps 2 to 6, R349): KEY has the fused hash, and SIG is valid for it over words 0 to 15. -/
def State.authDone (s : State) : State :=
  if s.loader.phase ≠ .checks then s
  else
    let a (i : Nat) : Word := s.loader.auth.getD i 0
    let key := wordsAt s.loader.auth 16 16
    let keyOk := hashIs s.lc.imgKey key
    let sigOk := ecdsaValid (sha256 (wordsAt s.loader.auth 0 16)) key (wordsAt s.loader.auth 32 16)
    let signed := decide (s.loader.auth.length = 48)
    let blank := decide (s.lc.state = 0)
    let ver := bits (a 3).toNat 5 0
    if a 1 ≠ s.reg SYS_ID_at then s.failAt 3 4
    else if signed = false ∧ blank = false then s.failAt 6 4
    else if blank = false ∧ keyOk = false then s.failAt 4 4
    else if blank = false ∧ sigOk = false then s.failAt 5 4
    else if ver < s.lc.minver then s.failAt 7 4
    else if s.loader.part then
      (if a 2 ≠ s.reg CFG_IMGID_at then s.failAt 0x18 4 else s.withLoader (fun x => { x with phase := .body }))
    else
      ((((s.setReg CFG_IMGID_at (a 2)).setReg PAIR_IMGID_at (a 2)).setFld CFG_SECVER_SECVER ver).setB CFG_STAT_SIGNED signed).withLoader
        (fun x => { x with phase := .body })

/-! ## Records of the body (R321, R327, R331) -/

/-- Whether a header obeys the table of R321 for a kind of the body. -/
def headerOk (h : Nat) : Bool :=
  let sub := bits h 27 20
  let wc := bits h 19 0
  match bits h 31 28 with
  | 0 => sub == 0
  | 1 => decide (sub ≤ 1) && decide (wc ≥ 2)
  | 2 => sub == 0 && decide (wc ≥ 42) && (wc - 1) % 41 == 0
  | 3 => sub == 0 && wc == 1
  | 4 => decide (sub < 32) && wc == 0
  | 5 => decide (sub < 32) && wc == 0
  | 6 => sub == 1 || sub == 2
  | 15 => decide (sub ≤ 1) && wc == 0
  | _ => false

/-- The running CRC of R327 over words. -/
def crcWords (c : BitVec 32) (ws : List Word) : BitVec 32 :=
  (ws.flatMap wordBytes).foldl (fun c b => crcStep 8 (c ^^^ b.setWidth 32)) c

/-- The record is parsed: its place, the section it stands in, and the running CRC. -/
def State.passRecord (s : State) (ws : List Word) (crc : BitVec 32) (check : Bool) : State :=
  let n := 4 * ws.length
  s.withLoader (fun x =>
    if x.left = 0 then { x with pos := x.pos + n, crc := crc, checked := check }
    else
      let l := x.left - n
      { x with
        left := l, crc := crc, checked := check
        pos := if l = 0 then x.secStart + x.secLen + 16 * ((x.secLen + 4095) / 4096) else x.pos })

/-- Words of the stream behind END are read (R335): those of a host or of boundary scan have to have arrived, all of them. -/
def State.takePass (s : State) (ws : List Word) : Option State :=
  match s.loader.passOn with
  | none => none
  | some (src, pos) =>
    if src.buffered && s.loader.passBuf.take ws.length != ws then none
    else some (s.withLoader (fun x => { x with passBuf := x.passBuf.drop ws.length, passOn := some (src, pos + 4 * ws.length) }))

/-- A record behind END breaks the table of R321. DESIGN CHOICE (log 88): once the configuration is released nothing is cleared; the error
is reported, and the pass-on stops without an end. -/
def State.passFails (s : State) : State :=
  let pos := (s.loader.passOn.map (·.2)).getD 0
  if s.pwr.released then
    (((s.setFld CFG_STAT_ERRCODE 2).setFld CFG_ERRPOS_POS pos).setFld CFG_IRQ_STAT_ERR 1).withLoader (fun x => { x with
      passOn := none, passBuf := [] })
  else s.loadError 2 pos

/-- A record that is not PASSON stands behind an END with MORE = 1 (R321). -/
def State.behindEnd (s : State) (h : Word) : State :=
  if bits h.toNat 31 28 = 8 ∨ (s.takePass [h]).isNone then s else s.passFails

/-- Whether a header cannot stand where it is (R321): a reserved KIND, a SUB or WC outside the table, or inside a section one that
crosses its end or may not stand there. -/
def Loader.badHeader (x : Loader) (h : Nat) : Bool :=
  let k := bits h 31 28
  !headerOk h || (x.left != 0 && (decide (4 * (bits h 19 0 + 1) > x.left) || k == 6 || k == 15))

/-- What a header shows wrong before its payload is read: the stream has run past LENGTH (R330), the header breaks the table, or a record
stands outside a section where R331 asks for one. -/
def State.headerError (s : State) (h : Nat) : Option Nat :=
  let x := s.loader
  let k := bits h 31 28
  if x.left = 0 ∧ x.pos - x.body ≥ (x.auth.getD 4 0).toNat then some 0x10
  else if x.badHeader h then some 2
  else if x.left = 0 ∧ (s.lc.state = 2 ∨ s.lc.state = 3) ∧ k ≠ 0 ∧ k ≠ 6 ∧ k ≠ 15 then some 8
  else none

/-- A record of a kind arrives in the body: its header is checked; then `f` acts, with the record parsed. A record of another kind is not
this command. -/
def State.record (s : State) (kind : Nat) (h : Word) (ws : List Word) (f : State → State) : State :=
  let k := bits h.toNat 31 28
  if s.loader.phase ≠ .body then s.behindEnd h
  else if (k ≤ 6 ∨ k = 15) ∧ k ≠ kind then s
  else match s.headerError h.toNat with
  | some code => if code = 0x10 then s.failHere code else (match s.supply [h] with | some _ => s.failHere code | none => s)
  | none =>
    if bits h.toNat 19 0 ≠ ws.length then s
    else match s.supply (h :: ws) with
    | none => s
    | some s1 => f s1

/-- A record that leaves nothing but its place. -/
def State.plainRecord (s : State) (h : Word) (ws : List Word) : State := s.passRecord (h :: ws) (crcWords s.loader.crc (h :: ws)) false

/-! ## Targets (R322, R346, R348) -/

/-- Whether a REGWR may write an address (R322). -/
def regwrTarget (a : Nat) : Bool :=
  match regionOf a with
  | .bay => true
  | .dram => true
  | .image => true
  | .scratch v => v == 0
  | .regs =>
    let page := a % 0x1000000 / 0x1000
    if page = 0 ∨ page = 20 then false
    else if page = 11 then a == CFG_IMGCTL_at || (decide (CFG_SECENG_at 0 ≤ a) && decide (a < CFG_SECENG_at 8))
    else true
  | _ => false

/-- The entry of REG_PINOWN for a pin (R346): V and REGION. -/
def State.pinOwner (s : State) (p : Nat) : Nat := bits (s.reg (REG_PINOWN_at (p / 4))).toNat (8 * (p % 4) + 7) (8 * (p % 4))

/-- Whether a REGWR target lies inside region `r` (R348). -/
def State.targetIn (s : State) (r a : Nat) : Bool :=
  match regionOf a with
  | .dram => s.covers r (a % 0x1000000 / 0x4000)
  | .bay => s.coversSector r (a / 0x10000 % 16)
  | .scratch _ => s.coversSector r (a % 0x1000000 / 0x40000)
  | .regs =>
    if XBAR_SEL_at 0 ≤ a ∧ a < XBAR_SEL_at 352 then s.pinOwner ((a - XBAR_SEL_at 0) / 4) == 128 + r
    else if XBAR_PAD_at 0 ≤ a ∧ a < XBAR_PAD_at 352 then s.pinOwner ((a - XBAR_PAD_at 0) / 4) == 128 + r
    else false
  | _ => false

/-- Whether a frame lies inside region `r` (R348). -/
def State.frameIn (s : State) (r frame : Nat) : Bool :=
  let k := bits frame 27 24
  match bits frame 31 28 with
  | 2 => s.covers r (16 * k + bits frame 23 16)
  | 3 => s.covers r (16 * k + bits frame 23 16)
  | 4 => false
  | _ => s.coversSector r k

/-! ## Writing (R322, R324 to R326) -/

/-- The register that word `i` of a frame of TYPE 1 or 4 holds (R324). -/
def frameReg (f i : Nat) : Option Nat :=
  let k := bits f 27 24
  match bits f 31 28, bits f 15 0 with
  | 1, 0 => some (BAY_SW_at k i)
  | 1, _ =>
    if i ≤ 16 then some (BAY_SW_at k (40 + i)) else if i ≤ 24 then some (BAY_AMP_CFG_at k (i - 17))
    else if i ≤ 28 then some (BAY_BQ_CFG_at k (i - 25)) else if i = 29 then some (BAY_PAD_CFG_at k)
    else if i = 30 then some (BAY_CTRL_at k) else none
  | 4, m => if m ≤ 8 then some (XBAR_SEL_at (40 * m + i)) else some (XBAR_PAD_at (40 * (m - 9) + i))
  | _, _ => none

/-- A new value of a register that a frame holds has new check bits (R356). -/
def State.rewriteFrame (s : State) (a : Nat) : State :=
  { s with cfgFlip := s.cfgFlip.filter (fun p => frameReg (p.1 / 64) (p.1 % 64) != some a) }

/-- A write of a voted register writes its three copies (R361). -/
def State.voteWritten (s : State) (item : Nat) : State :=
  { s with scrub := { s.scrub with diffs := s.scrub.diffs.filter (fun p => p.1 / 3 != item) } }

/-- A register takes its active value from a record. Writes to CLKRST are collected for the release (R322), and so are the values of
RWS fields in a partial image, the calibration pairs among them (R353). -/
def State.imageReg (s : State) (a : Nat) (v : Word) : State :=
  let m := imageMask a
  let s := if a / 0x1000 = 0x4000C then s.voteWritten a else s
  if a / 0x1000 = 0x40011 ∨ (s.loader.part = true ∧ rwsMask a ≠ 0) then
    s.withLoader (fun x => { x with clk := tput x.clk a v, wrote := if a / 0x1000 = 0x40011 then x.wrote else a :: x.wrote.erase a })
  else ((s.setReg a ((s.reg a &&& ~~~m) ||| (v &&& m))).rewriteFrame a).withLoader (fun x => { x with wrote := a :: x.wrote.erase a })

/-- A word of a record goes to its target. A memory takes it with new check bits, and a primary mirrors it as any other write (R303);
reserved places and the status words of an actuator image take none (R9, R279). -/
def State.imageWord (s : State) (a : Nat) (v : Word) : State :=
  match regionOf a with
  | .regs => s.imageReg a v
  | .bay => s.imageReg a v
  | _ => if takesNone a then s else (s.writeWord a v).toPartner "WRITE" [a, 4, v.toNat]

/-- The data of a REGWR, word by word; it stops at the first word whose target is refused. -/
def State.regwrWords (s : State) (fixed : Bool) (a : Nat) : List Word → State × Bool
  | [] => (s, true)
  | v :: r =>
    let inside := match s.loader.region with
      | some q => s.targetIn q a
      | none => true
    if regwrTarget a && inside then (s.imageWord a v).regwrWords fixed (if fixed then a else a + 4) r else (s, false)

/-- The last MINOR of a frame TYPE and COLUMN, and the last COLUMN of the TYPE (R324). -/
def frameLimits (ty col : Nat) : Nat × Nat :=
  match ty with
  | 0 => (if col = 16 then 3 else 9, 16)
  | 1 => (1, 0)
  | 2 => (102, 15)
  | 3 => (51, 15)
  | 4 => (17, 0)
  | _ => (0, 0)

/-- Whether a frame address names a frame of the member (R326). -/
def State.frameAddrOk (s : State) (f : Nat) : Bool :=
  let ty := bits f 31 28
  let (m, c) := frameLimits ty (bits f 23 16)
  decide (ty ≤ 5) && decide (bits f 27 24 < s.fld SYS_CONFIG_SECTORS) && decide (bits f 23 16 ≤ c) && decide (bits f 15 0 ≤ m) &&
    (ty != 4 || bits f 27 24 == 0)

/-- The address of the frame that follows (R326); behind the last sector stands none, which no TYPE names. -/
def nextFrame (f : Nat) : Nat :=
  let ty := bits f 31 28
  let (m, c) := frameLimits ty (bits f 23 16)
  if bits f 15 0 < m then f + 1
  else if bits f 23 16 < c then f / 2 ^ 24 * 2 ^ 24 + (bits f 23 16 + 1) * 2 ^ 16
  else if bits f 27 24 = 15 then 0xFFFFFFFF
  else (f / 2 ^ 24 + 1) * 2 ^ 24

/-- The words of a frame that carry content (R324): from this word on they must be 0. DEDUCED (log 88): that holds of words 20 to 39 of a
trim frame, too. -/
def frameUsed (f : Nat) : Nat :=
  match bits f 31 28, bits f 15 0 with
  | 1, 1 => 31
  | 2, 102 => 16
  | 3, 51 => 8
  | 4, 8 => 32
  | 4, 17 => 32
  | 5, _ => 20
  | 0, m => if bits f 23 16 = 16 then (if m = 3 then 27 else 40) else if m = 9 then 24 else 40
  | _, _ => 40

/-- Word `w` of the vector that a fabric frame belongs to, from the frame's own words or those stored before (R325). -/
def State.vectorWord (s : State) (f : Nat) (ws : List Word) (w : Nat) : Nat :=
  if w / 40 = bits f 15 0 then (ws.getD (w % 40) 0).toNat
  else (tget 0 s.cfgmem (64 * (f / 2 ^ 16 * 2 ^ 16 + w / 40) + w % 40)).toNat

/-- A source code of 12 bits at a bit of the vector. -/
def State.sourceCode (s : State) (f : Nat) (ws : List Word) (b : Nat) : Nat :=
  bits (s.vectorWord f ws (b / 32) + s.vectorWord f ws (b / 32 + 1) * 2 ^ 32) (b % 32 + 11) (b % 32)

/-- Whether a source code names a signal of the sector (R325). -/
def sourceOk (c : Nat) : Bool := decide (c ≤ 0x933) || decide (0x940 ≤ c ∧ c ≤ 0x95F) || decide (0xFFE ≤ c)

/-- Whether the source codes of a fabric frame are all known, the bits [23:21] of its slices 0, and so the bits of the sector interface
vector from 4,680 on (R325). A code that straddles two frames is judged with the second of them that is written. -/
def State.vectorOk (s : State) (f : Nat) (ws : List Word) : Bool :=
  if bits f 31 28 ≠ 0 then true
  else
    let m := bits f 15 0
    let mine (e : Nat) : Bool := e / 1280 == m
    let known (e : Nat) : Bool := mine e || s.loader.done.contains (f / 2 ^ 16 * 2 ^ 16 + e / 1280)
    let code (b : Nat) : Bool := !(mine b || mine (b + 11)) || !(known b && known (b + 11)) || sourceOk (s.sourceCode f ws b)
    if bits f 23 16 = 16 then
      (bits f 15 0 != 3 || decide ((ws.getD 26 0).toNat < 2 ^ 8)) && (List.range 390).all (fun k => code (12 * k))
    else (List.range 128).all (fun c =>
      (!mine (96 * c + 23) || bits (s.vectorWord f ws (3 * c)) 23 21 == 0) &&
      (List.range 6).all (fun j => code (96 * c + 24 + 12 * j)))

/-- One word of a frame is written (R324). -/
def State.frameWord (s : State) (f i : Nat) (w : Word) : State :=
  let t := 16 * bits f 27 24 + bits f 23 16
  match bits f 31 28 with
  | 2 => s.imageWord (0x21000000 + t * 0x4000 + 4 * (40 * bits f 15 0 + i)) w
  | 3 => s.imageWord (0x20000000 + t * 0x4000 + 4 * (40 * bits f 15 0 + i)) w
  | 0 => { s with cfgmem := tset 0 s.cfgmem (64 * f + i) w }
  | 5 => { s with cfgmem := tset 0 s.cfgmem (64 * f + i) w }
  | _ => match frameReg f i with
    | some a => s.imageReg a w
    | none => s

/-- The frames of a FRAME record (R326): answers 0, or the code of the frame at which it stops; earlier frames are written. -/
def State.frames (s : State) (f : Nat) : Nat → List Word → State × Nat
  | 0, _ => (s, 0)
  | n + 1, ws =>
    let d := ws.take 40
    let inside := match s.loader.region with | some r => s.frameIn r f | none => true
    if s.frameAddrOk f = false ∨ (d.drop (frameUsed f)).any (· != 0) ∨ s.vectorOk f d = false then (s, 0x0C)
    else if inside = false then (s, if s.loader.part then 0x16 else 0x0C)
    else if crc32 ((BitVec.ofNat 32 f :: d).flatMap wordBytes) ≠ ws.getD 40 0 then (s, 0x0B)
    else
      let s1 := ((List.range (frameUsed f)).zip d).foldl (fun s p => s.frameWord f p.1 p.2) s
      let s2 : State := { s1 with
        cfgFlip := s1.cfgFlip.filter (fun p => p.1 / 64 != f)
        loader := { s1.loader with done := if bits f 31 28 = 0 then f :: s1.loader.done.erase f else s1.loader.done } }
      s2.frames (nextFrame f) n (ws.drop 41)

/-- A region section of a partial load is written only once the region is held (R351). -/
def State.regionReady (s : State) : Bool :=
  !s.loader.part || (match s.loader.region with | some r => s.fb (REG_STAT_HELD r) | none => true)

/-- REGWR (R322, R348, R350). -/
def State.regwr (s : State) (h : Word) (ws : List Word) : State :=
  if s.regionReady = false then s
  else s.record 1 h ws (fun s =>
    if s.loader.part ∧ s.loader.region = none then s.failHere 0x17
    else
      let a := (ws.getD 0 0).toNat
      let pos := s.loader.offset
      if a % 4 ≠ 0 then s.failAt 0x0D pos
      else match s.regwrWords (bits h.toNat 27 20 == 1) a (ws.drop 1) with
      | (s1, true) => s1.plainRecord h ws
      | (s1, false) => s1.failAt (if s.loader.part then 0x16 else 0x0D) pos)

/-- FRAME (R324, R326, R348, R350). -/
def State.frameRecord (s : State) (h : Word) (ws : List Word) : State :=
  if s.regionReady = false then s
  else s.record 2 h ws (fun s =>
    if s.loader.part ∧ s.loader.region = none then s.failHere 0x17
    else
      let pos := s.loader.offset
      match s.frames (ws.getD 0 0).toNat ((ws.length - 1) / 41) (ws.drop 1) with
      | (s1, 0) => s1.plainRecord h ws
      | (s1, c) => s1.failAt c pos)

/-- NOP_RECORD (R321). -/
def State.nopRecord (s : State) (h : Word) (ws : List Word) : State := s.record 0 h ws (fun s => s.plainRecord h ws)

/-- CHECK_RECORD (R327). -/
def State.checkRecord (s : State) (h : Word) (ws : List Word) : State :=
  s.record 3 h ws (fun s =>
    if s.loader.crc ^^^ 0xFFFFFFFF = ws.getD 0 0 then s.passRecord (h :: ws) 0xFFFFFFFF true else s.failHere 0x0E)

/-- The first tick whose edge lies at least 200 cycles ahead takes a hold of region `r`, with a code where it gives one (R351, R359). -/
def State.holdRegion (s : State) (r : Nat) (code : Option Nat) : State :=
  if s.fb (REG_STAT_HELD r) ∨ s.scrub.holds.any (fun h => h.1 == r) then s
  else { s with scrub := { s.scrub with holds := s.scrub.holds ++ [(r, s.effTick, code)] } }

/-- RBEGIN (R328, R348 to R351). -/
def State.rbegin (s : State) (h : Word) : State :=
  s.record 4 h [] (fun s =>
    let r := bits h.toNat 27 20
    if s.loader.region.isSome then s.failHere 2
    else if s.loader.part then
      if s.fb (REG_DEF_EN r) = false ∨ s.loader.begun ≠ 0 then s.failHere 0x17
      else
        let s1 := (s.plainRecord h []).withLoader (fun x => { x with region := some r, begun := x.begun + 1 })
        ((s1.setFld PR_STAT_REGION r).setFld (REG_STAT_LOADING r) 1).holdRegion r none
    else if s.fb (REG_DEF_EN r) = false then s.failHere 2
    else (s.plainRecord h []).withLoader (fun x => { x with region := some r, begun := x.begun + 1 }))

/-- REND (R328, R349). -/
def State.rend (s : State) (h : Word) : State :=
  if s.regionReady = false then s
  else s.record 5 h [] (fun s =>
    if s.loader.part ∧ s.loader.region = none then s.failHere 0x17
    else if s.loader.region ≠ some (bits h.toNat 27 20) then s.failHere 2
    else if s.loader.part ∧ s.loader.checked = false then s.failHere 0x17
    else (s.plainRecord h []).withLoader (fun x => { x with region := none }))

/-- KEYSEL (R331, R332): the key of the section is taken. -/
def State.keysel (s : State) (h plen : Word) : State :=
  let n := (plen.toNat + 4095) / 4096
  let src := bits h.toNat 27 20
  if s.loader.phase ≠ .body then s.behindEnd h
  else if bits h.toNat 31 28 ≠ 6 then s
  else match s.headerError h.toNat with
  | some code => if code = 0x10 then s.failHere code else (match s.supply [h] with | some _ => s.failHere code | none => s)
  | none => match s.supply [h, plen] with
  | none => s
  | some s1 =>
    if plen.toNat % 4 ≠ 0 ∨ plen.toNat < 4 ∨ bits h.toNat 19 0 ≠ 1 + plen.toNat / 4 + 4 * n then s1.failHere 2
    else
      let key := if src = 1 then s1.lc.aesKey.isSome else s1.lc.keyRam.isSome
      let s2 := if s1.loader.part then s1 else s1.setFld CFG_STAT_KEYSRC src
      if key = false then s2.failHere 9
      else s2.withLoader (fun x => { x with
        crc := crcWords x.crc [h, plen], left := plen.toNat, plain := [], blocks := n, keySrc := src, secStart := x.pos + 8
        secLen := plen.toNat, checked := x.checked })

/-- The key of the section in progress (R332). -/
def State.sectionKey (s : State) : Option (List Word) := if s.loader.keySrc = 1 then s.lc.aesKey else s.lc.keyRam

/-- KEYSEL_BLOCK (R331, R341): the words of the next block are there and its tag is checked; with the right tag its plaintext can be parsed.
The IV is IVBASE with the number of the block in the image, the additional data words 2 and 3 of AUTH. A key that is lost after the
check has begun fails the tag. -/
def State.keyselBlock (s : State) (b : CipherBlock) : State :=
  let x := s.loader
  let len := if x.blocks = 1 then x.secLen - 4096 * ((x.secLen - 1) / 4096) else 4096
  if x.phase ≠ .body ∨ x.blocks = 0 ∨ b.words.length ≠ len / 4 + 4 then s
  else match s.take b.words with
  | none => s
  | some s1 =>
    match s1.sectionKey with
    | none => s1.failAt (if b.begun then 0x0A else 9) (x.secStart - 8)
    | some key =>
      match gcmOpen (key.flatMap wordBytes) (wordsAt x.auth 5 2 ++ bytesOf 4 x.block) (wordsAt x.auth 2 2)
          (wordsAt b.words 0 (len / 4)) (wordsAt b.words (len / 4) 4) with
      | none => s1.failAt 0x0A (x.secStart - 8)
      | some text => s1.withLoader (fun x => { x with blocks := x.blocks - 1, block := x.block + 1, plain := x.plain ++ bytesWords text })

/-! ## END and the release (R330, R340, R347) -/

/-- Whether the enabled region definitions stand (R347). -/
def State.regionsOk (s : State) : Bool :=
  let rs := (List.range 32).filter (fun r => s.fb (REG_DEF_EN r))
  rs.all (fun r =>
    decide (s.fld (REG_DEF_SLO r) ≤ s.fld (REG_DEF_SHI r) ∧ s.fld (REG_DEF_CLO r) ≤ s.fld (REG_DEF_CHI r)) &&
    s.fld (REG_DEF_ESC r) != 3 && decide (s.fld (REG_DEF_SHI r) < s.fld SYS_CONFIG_SECTORS) &&
    (!s.fb (REG_DEF_WHOLE r) || (s.fld (REG_DEF_CLO r) == 0 && s.fld (REG_DEF_CHI r) == 15)) &&
    rs.all (fun q => q == r || !((List.range 256).any (fun t => s.covers r t && s.covers q t))))

/-- The addresses whose words a view can hold away from reset. -/
def State.viewAddrs (s : State) : List Nat := s.regs.map (·.1)

/-- The release check of a full image (R340): every RWS register counts as written. -/
def State.releaseOffence (s : State) : Option Offence := firstOffence (offences s s.reg s.viewAddrs (fun _ => true) true)

/-- The collected CLKRST writes take effect (R340). -/
def State.takeClocks (s : State) : State :=
  (s.loader.clk.foldl (fun s p =>
    let m := imageMask p.1
    s.setReg p.1 ((s.reg p.1 &&& ~~~m) ||| (p.2 &&& m))) s).withLoader (fun x => { x with clk := [] })

/-- END (R330, R340, R347, R349): HASH is compared with that of all words read since AUTH, and LENGTH with their bytes; the release check
follows. With MORE = 1 what follows in the stream is PASSON records. -/
def State.endRecord (s : State) (h : Word) : State :=
  s.record 15 h [] (fun s =>
    let x := s.loader
    let pos := x.offset
    let more := h.toNat.testBit 20
    if x.region.isSome ∨ (x.part = true ∧ (more = true ∨ x.begun ≠ 1)) then s.failAt 2 pos
    else if x.part = false ∧ s.regionsOk = false then s.failAt 0x0D pos
    else if sha256 (x.read.reverse.flatMap wordBytes) ≠ wordsAt x.auth 8 8 then s.failAt 0x0F pos
    else if (x.auth.getD 4 0).toNat ≠ pos + 4 - x.body then s.failAt 0x10 pos
    else
      let s1 := s.withLoader (fun x => if x.part then { x with phase := .release, pos := pos + 4 } else { x with
        phase := .release, pos := pos + 4, more := more, passOn := if more then some (x.source, pos + 4) else none
        passBuf := if more then x.buf else [], buf := if more then [] else x.buf })
      if x.part then s1
      else
        let s2 := s1.takeClocks
        match s2.releaseOffence with
        | some o => (s2.setFld CFG_ACODE_CODE o.code).failAt 0x1C o.addr
        | none => s2)

/-- PASSON (R321, R335): the bytes of the payload leave by the pass-on port, the least significant of each word first; SUB 1 ends the
pass-on. -/
def State.passon (s : State) (h : Word) (ws : List Word) : State :=
  let sub := bits h.toNat 27 20
  if bits h.toNat 31 28 ≠ 8 then s
  else if s.loader.phase = .body then (match s.supply [h] with | some _ => s.failHere 2 | none => s)
  else if sub ≥ 2 then (if (s.takePass [h]).isSome then s.passFails else s)
  else if bits h.toNat 19 0 ≠ ws.length then s
  else match s.takePass (h :: ws) with
  | none => s
  | some s1 =>
    let s2 := s1.emit (.message "PASSON" ((ws.flatMap wordBytes).map BitVec.toNat))
    if sub = 1 then s2.withLoader (fun x => { x with more := false, passOn := none, passBuf := [] }) else s2

/-- Calibration sets of every converter with AUTOREST are restored (R172, R340, R353). -/
def State.restores (s : State) (ns : List Nat) : State :=
  ns.foldl (fun s n => if s.fb (ADC_CFG_AUTOREST n) then (List.range 8).foldl (fun s c => (s.calLoad n c).1) s else s) s

/-- All domains that receive ticks, for the boundary at which a release takes effect. -/
def allDomains : List Domain :=
  (List.finRange 16).map Domain.sect ++ (List.finRange 4).map Domain.mod ++ [.tb, .pin, .line, .sys]

/-- The registers of RWS fields that stand away from reset, and DAC_CODE
where INITDRV commits it, as a strobe names them (R198, R240). -/
def State.namedRegs (s : State) (mine : Nat → Bool) : Table (Option Word) :=
  let l := (s.regs.filter (fun p => mine p.1 && rwsMask p.1 != 0 && !(List.range 32).any (fun n => p.1 == DAC_CODE_at n))).map (fun p => (p.1, some p.2))
  (List.range 32).foldl (fun t n => if mine (DAC_CODE_at n) && s.fb (DAC_CFG_INITDRV n) then tput t (DAC_CODE_at n) (some (s.reg (DAC_CODE_at n))) else t) l

/-- The I/O is enabled (R336). -/
def State.enableIo (s : State) : State :=
  { (s.setFld CFG_STAT_HOLDING 0).setFld CFG_IRQ_STAT_IOEN 1 with pwr := { s.pwr with ioEnabled := true } }

/-- CONFIG_RELEASE (R340): every PLL of the image is locked; calibration sets are restored; TB_NOW starts at 0 with tick 0, encoder
positions, V and latched sets are 0 (R34, R45, R47), and every domain takes the image's settings at its boundary of tick 0, one whose
clock stands as soon as it runs (R181). The epochs that a pair sees count from here (R311). -/
def State.configRelease (s : State) (us : Word) : State :=
  if s.loader.phase ≠ .release ∨ s.loader.part = true ∨ ¬ (s.locked 0 = true ∧ s.locked 1 = true ∧ s.locked 2 = true ∧ s.locked 3 = true)
  then s
  else
    let s1 := s.restores (List.range 32)
    let named := s1.namedRegs (fun _ => true)
    let s2 : State := { s1 with
      tb := { State.reset.tb with nowValid := true }
      pwr := { s1.pwr with released := true, stands := 0xFF000000 }
      enc := [], snaps := []
      tickCopy := (List.range 40).foldl (fun t i => tset 0 t i (0 - 1)) []
      strobes := [⟨0, allDomains, named, [], false, [], false, 0⟩] }
    let s3 := ((((((s2.setFld SYS_STATUS_CFG_DONE 1).setFld CFG_STAT_DONE 1).setFld CFG_STAT_LOADING 0).setFld CFG_IRQ_STAT_DONE 1).setReg
      CFG_LOADTIME_at us).setFld CFG_ACODE_CODE 0).setFld PAIR_PEPOCH_EPOCH 0
    let s4 := if s3.fb PAIR_CFG_EN then s3.setRole 1 else s3
    let s5 := if s4.fb CFG_IMGCTL_HOLDIO then s4.setFld CFG_STAT_HOLDING 1 else s4.enableIo
    let s6 := if s5.fb SAFE_WDCFG_EN then s5.wdStart else s5
    let s7 := ((s6.setFld PCIE_STAT_LOADER 0).withLoader (fun x => { x.rest with clk := [] })).masterInit
    s7.sendTick

/-- Whether the device drives its open-drain pin CFG_DONE low (R336): from power-up until its release and its pass-on have ended. -/
def State.cfgDoneLow (s : State) : Bool := !(s.pwr.released && !s.loader.more)

/-- Whether the device drives its open-drain pin CFG_ERR_N low (R336): from a final failure on. -/
def State.cfgErrLow (s : State) : Bool := s.fb CFG_STAT_ERR

/-- IO_ENABLE (R336): with HOLDIO, once CFG_DONE has been high for 1 µs, which the device's own release and pass-on allow. -/
def State.ioEnable (s : State) : State :=
  if s.cfgDoneLow = false ∧ s.fb CFG_STAT_HOLDING then s.enableIo else s

/-- A word reaches the image stream from the host or by boundary scan (R337, R339, R340, R341, R350, R354, R408). A full buffer of 16 KB
takes no word of boundary scan (READY is 0); the words of the host beyond it wait in the endpoint in their order, behind those of the
buffer. DESIGN CHOICE (log 88): while a pass-on of the same source has not ended, a word belongs to it, after the release too. -/
def State.streamWordIn (s : State) (src : LoadSource) (v : Word) : State :=
  let late (s : State) : State := s.setFld CFG_STAT_LATEWR 1
  let put (s : State) : State :=
    if src = .jtag ∧ s.loader.buf.length ≥ 4096 then late s else s.withLoader (fun x => { x with buf := x.buf ++ [v] })
  if s.loader.passOn.any (fun p => p.1 == src) then
    (if src = .jtag ∧ s.loader.passBuf.length ≥ 4096 then late s else s.withLoader (fun x => { x with passBuf := x.passBuf ++ [v] }))
  else if s.pwr.released then
    if s.fb PR_STAT_BUSY ∧ s.fb PR_STAT_SRC then s.setFld PR_STAT_BUSYWR 1
    else if s.fb PR_STAT_DISCARD then s
    else if s.fb PR_STAT_BUSY then (if s.loader.source = src then put s else late s)
    else
      let s1 := (s.setFld PR_STAT_BUSY 1).setFld PR_STAT_SRC 0
      put { s1 with loader := s.loader.partAt src }
  else if s.loader.phase = .idle ∧ src = .jtag ∧ s.fb CFG_STAT_ERR ∧ s.lc.st ≠ 4 ∧ [2, 5, 6, 7].contains (s.fld CFG_STAT_MODE) then
    put ((s.attempt .jtag false).setFld CFG_ACODE_CODE 0)
  else if s.loader.source = src ∧ s.loader.phase ≠ .idle ∧ s.loader.phase ≠ .discard then put s
  else late s

/-- LOAD_DEADLINE (R337): the deadline of a host load expires before the release. -/
def State.loadDeadline (s : State) : State :=
  if s.pwr.released = false ∧ s.loader.source = .host ∧ s.loader.phase ≠ .idle ∧ s.loader.deadline.isSome then s.failHere 0x11 else s

/-- CFG_CLOCK_TIMEOUT (R338): a PLL has not locked within 1 ms during the release. -/
def State.clockTimeout (s : State) : State :=
  if s.loader.phase = .release ∧ s.loader.part = false ∧ ¬ (s.locked 1 = true ∧ s.locked 2 = true ∧ s.locked 3 = true) then
    s.failHere 0x12
  else s

/-- A write of CFG_CMD (R339): RESTART starts an attempt with a deadline of its own. -/
def State.cfgCmd (s : State) (v : Word) : State :=
  if v.toNat / 2 ^ 16 = 0x4C44 ∧ v.toNat.testBit 0 = true ∧ s.fld CFG_STAT_MODE = 3 ∧ s.fb CFG_STAT_ERR = true ∧ s.lc.st ≠ 4 then
    ((s.attempt .host false).setFld CFG_ACODE_CODE 0).withLoader (fun x => { x with deadline := some s.tb.now })
  else s

/-! ## Life cycle (R343, R344) -/

/-- CFG_ARG is cleared, as after every command (R343). -/
def State.clearArgs (s : State) : State := (List.range 64).foldl (fun s i => s.setReg (CFG_ARG_at i) 0) s

/-- CFG_ARG is cleared and RESULT written (R343). -/
def State.lcResult (s : State) (code : Nat) : State :=
  (((s.clearArgs.setFld CFG_LCCMD_RESULT code).setFld CFG_LCCMD_BUSY 0).setFld CFG_IRQ_STAT_LCDONE 1)

/-- Whether a command is permitted in the life-cycle state (R343). -/
def LifeCycle.permits (x : LifeCycle) (op : Nat) : Bool :=
  let st := x.state
  match op with
  | 1 => st == 0
  | 2 => decide (st ≤ 1)
  | 3 => decide (st ≤ 1)
  | 4 => decide (st ≤ 1) || st == 3
  | 5 => (st == 0 && x.imgKey.isSome) || st == 1
  | 6 => st == 2 && x.svcKey.isSome
  | 7 => st == 3
  | 8 => st == 1 || st == 3
  | 9 => st != 4
  | 0xA => decide (st ≤ 1)
  | _ => false

/-- The arguments of a command are taken when it starts (R343): the words of CFG_ARG, and those of CFG_NONCE behind them. -/
def State.args (s : State) : List Word :=
  (List.range 64).map (fun i => s.reg (CFG_ARG_at i)) ++ (List.range 8).map (fun i => s.reg (CFG_NONCE_at i))

/-- A command is refused; a refused SERVICE draws a new nonce as any other does (R344). -/
def State.lcRefuse (s : State) (op : Nat) : State := if op = 6 then s.newNonce else s

/-- A write of CFG_LCCMD (R341, R343): refused at once, or in progress until LCCMD_DONE. DESIGN CHOICE (log 88): where several refusals
meet, BUSY comes before KEY, KEY before STATE, and STATE before the others. RETIRE trips and halts every engine at
once. -/
def State.lcCmd (s : State) (v : Word) : State :=
  let op := v.toNat % 16
  let arg := s.fld (CFG_ARG_ARG 0)
  if s.lc.busy.isSome then ((s.lcRefuse op).clearArgs.setFld CFG_LCCMD_RESULT 1).setFld CFG_IRQ_STAT_LCDONE 1
  else if (s.loader.phase ≠ .idle ∧ s.loader.phase ≠ .discard) ∨ s.fb PR_STAT_BUSY then (s.lcRefuse op).lcResult 1
  else if v.toNat / 2 ^ 16 ≠ 0x4C43 then (s.lcRefuse op).lcResult 3
  else if s.lc.permits op = false then (s.lcRefuse op).lcResult 2
  else if op = 6 ∧ s.fld CFG_LC_TRIES ≥ 3 then (s.lcRefuse op).lcResult 6
  else if op = 9 ∧ (arg > 63 ∨ arg < s.lc.minver) then s.lcResult 7
  else
    let s1 := (s.lcWith (fun x => { x with busy := some (op, s.args) })).setFld CFG_LCCMD_BUSY 1
    if op = 8 then (s1.raiseTrip 0x2000).stopEngines else s1

/-- Whether a service token is accepted (R344): nonce, UID, DEVICE and MINUTES, the hash of its key, and the signature. -/
def State.tokenOk (s : State) (g : List Word) : Bool :=
  (List.range 8).all (fun i => g.getD i 0 == g.getD (64 + i) 0) &&
    g.getD 8 0 == s.reg CFG_UID_LO_at && g.getD 9 0 == s.reg CFG_UID_HI_at && g.getD 10 0 == s.reg SYS_ID_at &&
    bits (g.getD 11 0).toNat 15 0 != 0 && hashIs s.lc.svcKey (wordsAt g 12 16) &&
    ecdsaValid (sha256 (wordsAt g 0 28)) (wordsAt g 12 16) (wordsAt g 28 16)

/-- What a performed life-cycle command makes of the fuses, the SERVICE flag and the key RAM (R343); SERVICE ends at second `t`. -/
def LifeCycle.act (x : LifeCycle) (op : Nat) (g : List Word) (t : Nat) : LifeCycle :=
  match op with
  | 1 => { x with imgKey := some (g.take 8) }
  | 2 => { x with svcKey := some (g.take 8) }
  | 3 => { x with aesKey := some (g.take 8) }
  | 4 => { x with keyRam := some (g.take 8) }
  | 5 => { x with st := x.st + 1 }
  | 6 => { x with service := some t }
  | 7 => { x with service := none }
  | 8 => { x with st := 4, service := none, aesKey := none, keyRam := none }
  | 9 => { x with minver := (g.getD 0 0).toNat }
  | _ => { x with altboot := true }

/-- What follows a performed command besides (R343, R344): a change of state is recorded, SERVICE draws a nonce, RETIRE resets. -/
def State.lcAfter (s : State) (op : Nat) : State :=
  match op with
  | 5 => s.lcChanged
  | 6 => s.lcChanged.newNonce
  | 7 => s.lcChanged
  | 8 => (s.lcChanged.setFld SAFE_RSTCAUSE_CAUSE 4).internalHold
  | _ => s.lcShow

/-- Whether the command in progress is performed: the fuses verify, the token is accepted, or nothing is checked (R343, R344). -/
def State.lcOk (s : State) (op : Nat) (g : List Word) (ok : Bool) : Bool :=
  match op with | 4 => true | 7 => true | 6 => s.tokenOk g | _ => ok

/-- LCCMD_DONE (R343): the command in progress completes; `ok` answers whether fuses verify. -/
def State.lcDone (s : State) (ok : Bool) : State :=
  match s.lc.busy with
  | none => s
  | some (op, g) =>
    if s.lcOk op g ok then
      let t := s.fld SAFE_RTCSEC_SEC + 60 * bits (g.getD 11 0).toNat 15 0
      ((s.lcWith (fun x => { x.act op g t with busy := none })).lcAfter op).lcResult 0
    else
      let s1 := s.lcWith (fun x => { x with busy := none })
      if op = 6 then ((s1.addSat CFG_LC_TRIES 1).newNonce).lcResult 4 else s1.lcResult 5

/-- SERVICE_EXPIRY (R343): the duration has run out on RTC_CLK. -/
def State.serviceExpiry (s : State) : State :=
  match s.lc.service with
  | some t => if t ≤ s.fld SAFE_RTCSEC_SEC then (s.lcWith (fun x => { x with service := none })).lcChanged else s
  | none => s

/-- A write of CFG_LCCMD with its OP. -/
def State.lcOp (s : State) (op : Nat) (v : Word) : State := s.lcCmd ((v &&& 0xFFFFFFF0) ||| BitVec.ofNat 32 op)

/-! ## The commands -/

/-- RESET_N_RELEASE. -/
def execResetNRelease (s : State) : Host.Outcome State Fault Refusal := done s s.resetRelease
/-- SYNC_WORD. -/
def execSyncWord (w : FirstWord) (s : State) : Host.Outcome State Fault Refusal := done s (s.syncWord w.w w.sfdp)
/-- AUTH. -/
def execAuth (h : Word) (ws : List Word) (s : State) : Host.Outcome State Fault Refusal := done s (s.authRecord h ws)
/-- AUTH_CHECK_DONE. -/
def execAuthCheckDone (_ _ : Unit) (s : State) : Host.Outcome State Fault Refusal := done s s.authDone
/-- NOP_RECORD. -/
def execNopRecord (h : Word) (ws : List Word) (s : State) : Host.Outcome State Fault Refusal := done s (s.nopRecord h ws)
/-- REGWR. -/
def execRegwr (h : Word) (ws : List Word) (s : State) : Host.Outcome State Fault Refusal := done s (s.regwr h ws)
/-- FRAME. -/
def execFrame (h : Word) (ws : List Word) (s : State) : Host.Outcome State Fault Refusal := done s (s.frameRecord h ws)
/-- CHECK_RECORD. -/
def execCheckRecord (h : Word) (ws : List Word) (s : State) : Host.Outcome State Fault Refusal := done s (s.checkRecord h ws)
/-- RBEGIN. -/
def execRbegin (h : Word) (s : State) : Host.Outcome State Fault Refusal := done s (s.rbegin h)
/-- REND. -/
def execRend (h : Word) (s : State) : Host.Outcome State Fault Refusal := done s (s.rend h)
/-- KEYSEL. -/
def execKeysel (h plen : Word) (s : State) : Host.Outcome State Fault Refusal := done s (s.keysel h plen)
/-- KEYSEL_BLOCK. -/
def execKeyselBlock (b : CipherBlock) (s : State) : Host.Outcome State Fault Refusal := done s (s.keyselBlock b)
/-- PASSON. -/
def execPasson (h : Word) (ws : List Word) (s : State) : Host.Outcome State Fault Refusal := done s (s.passon h ws)
/-- END. -/
def execEnd (h : Word) (_ : Unit) (s : State) : Host.Outcome State Fault Refusal := done s (s.endRecord h)
/-- CONFIG_RELEASE. -/
def execConfigRelease (us : Word) (s : State) : Host.Outcome State Fault Refusal := done s (s.configRelease us)
/-- IO_ENABLE. -/
def execIoEnable (s : State) : Host.Outcome State Fault Refusal := done s s.ioEnable
/-- CFG_LOADWIN_WRITE. -/
def execCfgLoadwinWrite (v : Word) (s : State) : Host.Outcome State Fault Refusal := done s (s.streamWordIn .host v)
/-- LOAD_DEADLINE. -/
def execLoadDeadline (s : State) : Host.Outcome State Fault Refusal := done s s.loadDeadline
/-- RESTART: a write of CFG_CMD with RESTART set. -/
def execRestart (v : Word) (s : State) : Host.Outcome State Fault Refusal := done s (s.cfgCmd (v ||| 1))
/-- FUSE_IMGKEY. -/
def execFuseImgkey (v : Word) (s : State) : Host.Outcome State Fault Refusal := done s (s.lcOp 1 v)
/-- FUSE_SVCKEY. -/
def execFuseSvckey (v : Word) (s : State) : Host.Outcome State Fault Refusal := done s (s.lcOp 2 v)
/-- FUSE_AESKEY. -/
def execFuseAeskey (v : Word) (s : State) : Host.Outcome State Fault Refusal := done s (s.lcOp 3 v)
/-- KEYRAM. -/
def execKeyram (v : Word) (s : State) : Host.Outcome State Fault Refusal := done s (s.lcOp 4 v)
/-- ADVANCE. -/
def execAdvance (v : Word) (s : State) : Host.Outcome State Fault Refusal := done s (s.lcOp 5 v)
/-- SERVICE. -/
def execService (v : Word) (s : State) : Host.Outcome State Fault Refusal := done s (s.lcOp 6 v)
/-- LEAVE. -/
def execLeave (v : Word) (s : State) : Host.Outcome State Fault Refusal := done s (s.lcOp 7 v)
/-- RETIRE. -/
def execRetire (v : Word) (s : State) : Host.Outcome State Fault Refusal := done s (s.lcOp 8 v)
/-- SETMINVER. -/
def execSetminver (v : Word) (s : State) : Host.Outcome State Fault Refusal := done s (s.lcOp 9 v)
/-- FUSE_ALTBOOT. -/
def execFuseAltboot (v : Word) (s : State) : Host.Outcome State Fault Refusal := done s (s.lcOp 0xA v)
/-- LCCMD_DONE. -/
def execLccmdDone (ok : Bool) (s : State) : Host.Outcome State Fault Refusal := done s (s.lcDone ok)
/-- SERVICE_EXPIRY. -/
def execServiceExpiry (s : State) : Host.Outcome State Fault Refusal := done s s.serviceExpiry
/-- CFG_CLOCK_TIMEOUT. -/
def execCfgClockTimeout (s : State) : Host.Outcome State Fault Refusal := done s s.clockTimeout

end Sys2Proof.Machine
end

