-- ==== Sys2Proof/Machine/Boundary.lean ====
section
/-! DEFINITION. Ticks: the tick edge, the tick boundary of each domain, applies at their boundary, and events that reach a domain
(R14 to R18, R33, R35, R72, R113, R114, R244 to R246). -/

namespace Sys2Proof.Machine

/-! ## What an apply does beside the registers (R246) -/

/-- The level of the source of capture unit `u` (R62, R189). -/
def State.capSource (s : State) (k u : Nat) : Bool :=
  let c := s.fld (STM_CAP_CFG_SRC k u)
  if c < 4 then
    (if s.fb (CMP_CFG_CAPSRC k c) then (s.cmpOf (4 * k + c)).r != s.fb (CMP_CFG_POL k c) else s.fb (CMP_STAT_F k c))
  else if c = 4 then s.inputLevel (0x20 + 8 * k + u)
  else if c = 5 then s.fabLoaded k && s.ifSignal k (s.cellOuts k) 64
  else false

/-- Whether the source of capture unit `u` can show a level at this instant (R62, R255): a comparator's and a loaded fabric's follow
from the state, a pin has to feed the input, and a fabric whose cells are not loaded has to run. -/
def State.capShows (s : State) (k u : Nat) (level : Bool) : Bool :=
  let c := s.fld (STM_CAP_CFG_SRC k u)
  if c < 4 then level == s.capSource k u
  else if c = 4 then s.fed (0x20 + 8 * k + u)
  else if c = 5 then (if s.fabLoaded k then level == s.capSource k u else s.fabricRuns k)
  else false

/-- The captures whose source or edge an apply changes take the level of the source as their reference (R62). -/
def State.capApply (old s : State) (k : Nat) : State :=
  (List.range 8).foldl (fun s u =>
    if old.reg (STM_CAP_CFG_at k u) = s.reg (STM_CAP_CFG_at k u) then s
    else s.setCap k u { s.capOf k u with level := s.capSource k u }) s

/-- Whether a pair is on: MODE 0 is off and 3 reserved (R60). -/
def State.pwmOn (s : State) (k j : Nat) : Bool := s.fld (STM_PWM_CFG_MODE k j) != 0 && s.fld (STM_PWM_CFG_MODE k j) != 3

/-- The pairs whose settings an apply changes start a new period, and one that is on by them a period start (R61, R184). -/
def State.pwmApply (old s : State) (k : Nat) : State :=
  (List.range 8).foldl (fun s j =>
    if old.reg (STM_PWM_CFG_at k j) = s.reg (STM_PWM_CFG_at k j) then s
    else
      let s1 := pwmStart old s k j true
      if s.pwmOn k j then s1.pwmClears k j else s1) s

/-- Whether a strobe names a register of the analog part of a bay window. -/
def Strobe.bays (x : Strobe) : Bool := x.regs.any (fun p => inBay p.1)

/-- The settings after an apply, whether or not a domain has taken them yet. -/
def Strobe.view (x : Strobe) (s : State) : View := s.viewWith x.regs

/-- The addresses at which those settings may stand. -/
def Strobe.addrs (x : Strobe) (s : State) : List Nat := ((s.regs ++ x.before).map (·.1) ++ x.regs.map (·.1)).eraseDups

/-- The bays whose routes follow at the boundary of SECT_CLK[k] (R133, R138): its own, and those that no boundary of their own
waits for. -/
def Strobe.routesAt (x : Strobe) (k : Nat) : List Nat :=
  (List.range 16).filter (fun j => j == k || !x.doms.contains (.sect (Fin.ofNat 16 j)))

/-- What an apply does in the bay of a sector on SECT_CLK[k]: routes, measurements, reference, PWM, captures, DACs. -/
def State.bayApply (old s : State) (k : Nat) (x : Strobe) : State :=
  let s1 := if x.bays then (x.routesAt k).foldl (fun t j => State.setRoutesBy t (x.view s) (x.addrs s) j) s else s
  let s2 := (List.range 16).foldl State.rcalApply s1
  let s3 := if s2.fb (BAY_CTRL_REFEN k) then s2 else s2.refOk k false
  let s4 := State.capApply old (State.pwmApply old s3 k) k
  [2 * k, 2 * k + 1].foldl (fun s n => State.dacApply old s n (tget none x.regs (DAC_CODE_at n)).isSome) s4

/-- The rest of an apply on SECT_CLK[k]: the bay, but for one that a region has held since (R351), and the staged requests. -/
def State.sectApply (old s : State) (k : Nat) (x : Strobe) : State :=
  let s5 := if x.gone.testBit k then s else State.bayApply old s k x
  (x.reqs.filter (fun q => q.slot / 256 == k)).foldl (fun s q => s.applyReq s.tb.tick q) s5

/-- The rest of an apply on MOD_CLK[g]: converters, comparators and windows of its four bays (R163, R181 to R183, R186), but those that a
region has held since (R193, R351). -/
def State.modApply (old s : State) (g : Nat) (x : Strobe) : State :=
  let v := x.view s
  let addrs := x.addrs s
  let s1 := (List.range 8).foldl (fun s j =>
    let n := 8 * g + j
    if x.gone.testBit (n / 2) then s
    else State.adcApply old s (x.bays && State.netMoved old v addrs n) v (if x.bays then viewK v addrs n else s.routeK n) n) s
  let ks := ((List.range 4).map (fun j => 4 * g + j)).filter (fun k => !x.gone.testBit k)
  let s2 := ks.foldl (fun s k => (List.range 4).foldl (fun s c => State.cmpApply old s k c) s) s1
  (ks.foldl (fun s k => (List.range 2).foldl (fun s w => s.winApply k w) s) s2).cmpLevels

/-- Clocks that run and did not before (R154, R174, R204, R230): periods in progress go on (R61); the first edges of a SECT_CLK set what
the short detectors flagged meanwhile and take what waits for the mailbox; those of a MOD_CLK bring C to C_sync and software triggers to
the converters. -/
def State.clocksStart (old s : State) : State :=
  let s1 := (List.range 16).foldl (fun s k =>
    if s.sectRuns k && !old.sectRuns k then
      ([2 * k, 2 * k + 1].foldl (fun s n => if (s.dacOf n).flagged then s.shortSets n else s) s).mbxDrain k
    else s) (State.reclockAll old s)
  (List.range 4).foldl (fun s g =>
    if s.modRuns g && !old.modRuns g then
      let s2 := (List.range 16).foldl (fun s j => if s.cmpOn (4 * g + j / 4) (j % 4) then s.cmpSync (4 * g + j / 4) (j % 4) else s) s
      (List.range 8).foldl (fun s j => s.adcSwArrive (8 * g + j)) s2
    else s) s1

/-- The SECT_CLK and FAB_CLK that could not run before stand up to their first tick boundary (R18, R230, R421). -/
def State.clocksStand (old s : State) : State :=
  let m := (List.range 16).foldl (fun m k => if s.sectReady k && !old.sectReady k then m ||| 2 ^ k else m)
    ((List.range 8).foldl (fun m k => if s.fabReady k && !old.fabReady k then m ||| 2 ^ (16 + k) else m) s.pwr.stands)
  State.reclockAll old { s with pwr := { s.pwr with stands := m } }

/-- MOD_CLK[g] starts at a new frequency by a write that SYS_CLK takes (R163, R420). -/
def State.modFreq (old s : State) (g : Nat) : State :=
  if s.modRuns g && !old.modRuns g then
    (List.range 8).foldl (fun s j => State.adcApply old s false s.view (s.routeK (8 * g + j)) (8 * g + j)) s
  else s

/-- The pins whose set-up a strobe names. -/
def Strobe.pins (x : Strobe) : List Nat :=
  x.regs.filterMap (fun p => if 0x40004000 ≤ p.1 ∧ p.1 < 0x40004000 + 4 * 352 then some ((p.1 - 0x40004000) / 4) else none)

/-- Attar closes the session on SYS_CLK (R244). -/
def State.applied (s : State) (x : Strobe) : State :=
  let s1 := ((s.closeSession 1).setFld ATTAR_IRQ_STAT_APPLIED 1).addSat ATTAR_CNT_APPLIES 1
  s1.trace 6 s.stamp 0 (x.tick.setWidth 32) 0

/-- A domain takes a strobe at its boundary (R246): the staged values that it holds, and what follows from them. The image's own
strobe at tick 0 finds the registers as after reset. -/
def State.takeStrobe (s0 : State) (d : Domain) (x : Strobe) : State :=
  let s1 := State.reclockAll s0 ((s0.strobeRegs d x).foldl (fun s p => (s.takeWord d p.1 p.2).rewriteFrame p.1) s0)
  let s : State := if x.before = [] then { s0 with regs := [] } else s0
  match d with
  | .sect k => State.sectApply s s1 k.val x
  | .mod g => State.modApply { s with regs := x.before } s1 g.val x
  | .tb => if x.before = [] then s1 else asyncCheck s (State.masterApply s s1)
  | .pin => (State.pinsApply s s1 x.pins).findConflicts
  | .line => (List.range 8).foldl (fun t l => State.lineApply s t l) s1
  | .sys =>
    let s2 := if x.before = [] then s1
      else State.clocksStart s0 (State.clocksStand s0 ((List.range 4).foldl (fun t g => State.modFreq s0 t g) s1))
    let s3 := s2.poolStart
    if x.own then s3.applied x else s3
  | _ => s1

/-- A domain takes every strobe that waits for it, oldest first; a strobe that all have taken is gone. -/
def State.takeStrobes (s : State) (d : Domain) : State :=
  let s1 := (s.strobesFor d).foldl (fun s x => s.takeStrobe d x) s
  { s1 with strobes := (s1.strobes.map (fun x =>
      if x.tick.toNat ≤ s.tb.tick.toNat then { x with doms := x.doms.erase d, begun := x.begun || x.doms.contains d } else x)).filter (fun x => !x.doms.isEmpty) }

/-! ## The boundary of a sector (R72, R95, R112, R113, R121, R246) -/

/-- The layout of the tick on LE[t]: an engine that starts no slots lays out nothing, and one that replays takes the slices of the tick
that it replays (R302). -/
def State.layoutNow (s : State) (t : Nat) : State :=
  let s1 := s.setEng t { s.engOf t with held := s.fbit (ALLOC_ENGHOLD_HOLD (t / 32)) (t % 32) }
  if s1.live ∧ s1.engineRuns t then s1.layoutTick t s.tb.tick.toNat
  else
    let l := if s1.pair.synced.isSome && s1.engineRuns t then s1.replaySlices t (s1.tb.tick - 2).toNat else []
    s1.setEng t { s1.engOf t with layout := l, offset := 0, baseDone := [] }

/-- The releases and the deferred outputs of slot `i` (R95, R119); where an apply has just committed a DAC, its code stands and the
entry counts (R203). -/
def State.slotOutputs (s : State) (i : Nat) (taken : List Strobe) : State :=
  let s1 := s.releaseDue i s.tb.tick
  let c := s1.chanOf i
  let s2 := c.defOut.foldl (fun s e =>
    let o := e.2.2
    if o.1 = 1 ∧ taken.any (fun x => (tget none x.regs (DAC_CODE_at o.2)).isSome) then
      (s.addSat (DAC_CNT_OVERRIDES o.2) 1).setFld (DAC_IRQ_STAT_OVERRIDE o.2) 1
    else s.drive (i / 256) o.1 o.2 e.2.1) s1
  if c.defOut = [] then s2 else s2.setChan i { s2.chanOf i with defOut := [] }

/-- The slots of a sector that hold a channel. -/
def State.slotsIn (s : State) (k : Nat) : List Nat := (s.chans.filter (fun p => p.1 / 256 == k)).map (·.1)

/-- The pairs with SYNC = 1 start a new period at the boundary (R61), but where an apply has just started one; `old` is the state
before that apply. -/
def State.pwmSync (old s : State) (k : Nat) : State :=
  (List.range 8).foldl (fun s j =>
    if s.fb (STM_PWM_CFG_SYNC k j) ∧ s.pwmOn k j ∧ old.reg (STM_PWM_CFG_at k j) = s.reg (STM_PWM_CFG_at k j) then
      (pwmStart s s k j true).pwmClears k j
    else s) s

/-- The boundary of SECT_CLK[k], after the tick before it has been closed on its engines: a tile window under test is released before it
(R365). -/
def State.sectBoundary (s0 : State) (k : Nat) (d : Domain) : State :=
  let s := s0.setMarch true k { s0.marchOf true k with busy := false, hit := false }
  let ts := (List.range 16).map (fun c => 16 * k + c)
  let taken := s.strobesFor d
  let s2 := (s.slotsIn k).foldl (fun s i => s.slotChanges i s.tb.tick) s
  let s3 := s2.takeStrobes d
  let s4 : State := { State.pwmSync (if taken.any (fun x => x.before.isEmpty && !x.gone.testBit k) then { s2 with regs := [] } else s2) s3 k with sect := tset ⟨0, 0, 0, 0, 0⟩ s3.sect k s.tickVals }
  let s5 := ts.foldl State.layoutNow s4
  let s6 := (s5.slotsIn k).foldl (fun s i => s.slotOutputs i taken) s5
  let s7 := [2 * k, 2 * k + 1].foldl State.dacBoundary s6
  ((s7.bayBoundary k).mbxDrain k).fabServeAll k false

/-- Whether the current tick triggers converter `n` (R154). -/
def State.tickTriggers (s : State) (n : Nat) : Bool :=
  s.fb (ADC_CFG_EN n) && s.fld (ADC_TRIG_SRC n) == 1 &&
    ((s.tb.tick.toNat : Int) - s.fld (ADC_TRIG_TPHASE n)) % (s.fld (ADC_TRIG_TPERIOD n) + 1) == 0

/-- The boundary of MOD_CLK[g]: an apply, then converter triggers by the tick (R154) and latch clears (R184). -/
def State.modBoundary (s : State) (g : Nat) (d : Domain) : State :=
  let s1 := (s.takeStrobes d).cmpReturns g
  let s2 := (List.range 8).foldl (fun s j =>
    let n := 8 * g + j
    if s.tickTriggers n then s.adcTrigger n else s) s1
  (List.range 4).foldl (fun s j => s.tickClears (4 * g + j)) s2

/-! ## The boundary of any domain (R14, R17) -/

/-- A domain's copy of the tick counter steps; the timebase's value corrects it (R17). -/
def State.stepCopy (s : State) (d : Domain) : State :=
  let c := tget 0 s.tickCopy (Domain.num d)
  let s1 : State := { s with tickCopy := tset 0 s.tickCopy (Domain.num d) s.tb.tick }
  if c = s.tb.tick ∨ c + 1 = s.tb.tick then s1 else s1.setFld SYS_STATUS_TICK_SLIP 1

/-- Time passes to the arrival of the tick, 64 cycles after its edge (R14). -/
def State.toArrival (s : State) : State :=
  let n := (s.tb.now - s.tb.edge).toNat
  if n < 64 then s.advance (64 - n) else s

/-- Whether a domain can act on the current tick: the configuration is released, its clock has what it needs to run, and it has not
acted on it yet. -/
def State.boundaryDue (s : State) (d : Domain) : Bool :=
  s.pwr.released && s.awake && Domain.ticks d && s.domReady d && tget 0 s.tickCopy (Domain.num d) != s.tb.tick

/-- The clocks that stop with a PLL and receive ticks (R12, R421). -/
def pllDomains : List Domain :=
  (List.finRange 16).map Domain.sect ++ (List.finRange 8).map Domain.fab ++ (List.finRange 4).map Domain.mod ++ [.pcie, .pair, .line]

/-- Clocks run again, `old` being the state before: a domain whose boundary of the current tick has passed in the meantime acts at the
next one; its sector is recorded, and an apply that waits for it is late (R18, R245). -/
def State.passedOver (old s : State) : State :=
  if s.pwr.released = false ∨ s.awake = false ∨ (s.tb.now - s.tb.edge).toNat ≤ 64 then s
  else pllDomains.foldl (fun s d =>
    if old.domReady d ∨ s.boundaryDue d = false then s
    else
      let s1 : State := { s with tickCopy := tset 0 s.tickCopy (Domain.num d) s.tb.tick }
      let s2 := match d with | .sect k => s1.orBit SYS_TICKMISS_MISS k.val | _ => s1
      if (s2.strobesFor d).any (fun x => !x.before.isEmpty) then s2.setFld ATTAR_STAT_LATE 1 else s2) s

/-- The clocks that wait for this boundary run again from it on (R18, R230, R421): FAB_RST ends with that of tick 0, where the cells
take their initial values (R325). -/
def State.clockResumes (s : State) (d : Domain) : State :=
  let off (s : State) (i : Nat) : State :=
    if s.pwr.stands.testBit i then { s with pwr := { s.pwr with stands := s.pwr.stands - 2 ^ i } } else s
  match d with
  | .sect k => State.clocksStart s (off s k.val)
  | .fab k =>
    let s1 := off (off s (16 + k.val)) (24 + k.val)
    if s.pwr.stands.testBit (24 + k.val) then (s1.fabInit (2 * k.val)).fabInit (2 * k.val + 1) else s1
  | _ => s

/-- The tick before this one ends on the engines of a sector (R65, R95, R301): what they commit at its end still belongs to it. -/
def State.closeTicks (s : State) (d : Domain) : State := match d with
  | .sect k => (List.range 16).foldl (fun s c => s.closeTick (16 * k.val + c)) s
  | _ => s

/-- TICK_BOUNDARY. `skew` tells that the arrival phase measured in a sector is off by more than a SECT_CLK cycle (R16). -/
def State.tickBoundary (s : State) (d : Domain) (skew : Bool) : State :=
  if s.boundaryDue d = false then s
  else
    let s1 := ((s.toArrival.clockResumes d).closeTicks d).stepCopy d
    match d with
    | .sect k => (if skew then s1.orBit SYS_TICKSKEW_SKEW k.val else s1).sectBoundary k.val d
    | .mod g => s1.modBoundary g.val d
    | .pin => (s1.takeStrobes d).pinsBoundary.pinOutputs
    | .sys => (s1.takeStrobes d).deposeDue
    | _ => s1.takeStrobes d

/-! ## The tick edge (R17, R18, R35, R243 to R245, R308, R454) -/

/-- What a tick edge finds of the sectors whose clock is stopped: MISS (R18), and copies of stopped domains that follow the value
which waits for them (R17). -/
def State.missed (s : State) : State :=
  if s.awake = false then s
  else
    let s1 := (List.range 16).foldl (fun s k => if s.sectReady k then s else s.orBit SYS_TICKMISS_MISS k) s
    pllDomains.foldl (fun s d => if s.domReady d then s else { s with tickCopy := tset 0 s.tickCopy (Domain.num d) s.tb.tick }) s1

/-- TICK_EDGE: tick n begins. -/
def State.tickEdge (s : State) : State :=
  if s.pwr.released = false then s
  else
    let s1 := s.strobeLate.missed.toTickEdge
    let s2 : State := { s1 with safe := { s1.safe with ticks := s1.tickLo } }
    if s2.awake then s2.strobe.pairEdge else s2

/-- APPLY_STROBE: the tick edge of the apply tick (R243, R244); before any other tick edge it cannot arise. -/
def State.applyStrobe (s : State) : State :=
  match s.attar.target with
  | none => s
  | some x =>
    let t := s.toTickEdge
    if s.pwr.released ∧ s.awake ∧ s.attarState = 4 ∧ x.due t.tb.tick t.P then s.tickEdge else s

/-- One cycle of TB_CLK; a tick edge that falls due comes with it. -/
def State.cycle (s : State) : State :=
  if s.pwr.released = false then s
  else if (s.tb.now + 1 - s.tb.edge).toNat ≥ s.fld TB_TICKLEN_CYCLES then s.tickEdge
  else s.advance 1

/-! ## Events (R33, R114, R154, R219) -/

/-- A trigger reaches the channels of sector `k` that are bound to event `e` (R71, R114). -/
def State.chanEvent (s : State) (k e : Nat) : State :=
  (s.slotsIn k).foldl (fun s i =>
    let c := s.chanOf i
    if c.st.live ∧ c.event = e then s.setChan i { c with flag := true, trig := min (c.trig + 1) 255 } else s) s

/-- Whether the world outside the model's cells can raise an event (R32): an event pin that a pin feeds, and an event output of a fabric
that runs and whose cells are not loaded (logs 14 and 21). -/
def State.eventOutside (s : State) (e : Nat) : Bool :=
  if 0x140 ≤ e ∧ e < 0x160 then s.fed (e - 0x140)
  else if 0x100 ≤ e ∧ e < 0x120 then !s.fabLoaded ((e - 0x100) / 2) && s.fabricRuns ((e - 0x100) / 2)
  else false

/-- EVENT_DELIVERY: a pulse in flight becomes visible in its destination, where the clock runs; a pulse from outside fires and
becomes visible. -/
def State.eventDelivery (s : State) (e : Nat) (d : Domain) : State :=
  if (s.evq.contains (e, d) = false ∧ s.eventOutside e = false) ∨ s.domRuns d = false then s
  else
    let s1 : State := { s with evq := s.evq.erase (e, d) }
    match d with
    | .sect k => (s1.chanEvent k.val e).dmaEvent k.val e
    | .mod g => (List.range 8).foldl (fun s j =>
        let n := 8 * g.val + j
        if s.fb (ADC_CFG_EN n) ∧ s.fld (ADC_TRIG_SRC n) = 2 ∧ s.fld (ADC_TRIG_EVENT n) = e then s.adcTrigger n else s) s1
    | _ => s1

/-! ## The commands -/

/-- TICK_EDGE. -/
def execTickEdge (s : State) : Host.Outcome State Fault Refusal := done s s.tickEdge
/-- TICK_BOUNDARY. -/
def execTickBoundary (d : Arrival) (s : State) : Host.Outcome State Fault Refusal := done s (s.tickBoundary d.d d.skew)
/-- CAPTURE_EDGE: the source of the unit shows a level, seen `n` SECT_CLK cycles after the tick boundary. -/
def execCaptureEdge (k : Fin 16) (u : Fin 8) (level : Bool) (n : Nat) (s : State) : Host.Outcome State Fault Refusal :=
  done s (if s.capShows k.val u.val level then s.captureEdge k.val u.val level n else s)
/-- APPLY_STROBE. -/
def execApplyStrobe (s : State) : Host.Outcome State Fault Refusal := done s s.applyStrobe
/-- EVENT_DELIVERY. -/
def execEventDelivery (e : Nat) (d : Domain) (s : State) : Host.Outcome State Fault Refusal := done s (s.eventDelivery e d)

end Sys2Proof.Machine
end

