-- ==== Sys2Proof/Machine/Field.lean ====
section
/-! DEFINITION. Field interfaces: CAN FD controllers, the serial pool, and boundary scan (R396 to R408). The bits in time on the lines
are not part of the model (log 14): a command says that a frame or a word has been sent or received. -/

namespace Sys2Proof.Machine

/-! ## CAN FD controllers (R397 to R400) -/

/-- Controller `m`. -/
def State.canOf (s : State) (m : Nat) : Can := tget ⟨[], [], false⟩ s.can m
/-- Stores controller `m`. -/
def State.setCan (s : State) (m : Nat) (c : Can) : State := { s with can := tset ⟨[], [], false⟩ s.can m c }

/-- The rank of a frame in arbitration, lower first: base identifier, RTR or SRR, IDE, the rest of an extended one, RTR (R397). -/
def CanFrame.rank (f : CanFrame) : Nat :=
  let i := f.id.toNat
  let rtr := b2n (i.testBit 30 && !f.ctrl.toNat.testBit 4)
  if i.testBit 31 then bits i 28 18 * 2 ^ 21 + 2 ^ 20 + 2 ^ 19 + bits i 17 0 * 2 + rtr
  else bits i 28 18 * 2 ^ 21 + rtr * 2 ^ 20

/-- Whether controller `m` may send (R397, R399). -/
def State.canSends (s : State) (m : Nat) : Bool :=
  s.pwr.released && s.awake && s.fb (CAN_CFG_EN m) && !s.fb (CAN_CFG_LISTEN m) && !s.pairStandby && decide (s.fld (CAN_STAT_STATE m) ≠ 2)

/-- The place in the queue of the frame that arbitration ranks first, equal identifiers in push order. -/
def firstRanked : List (CanFrame × Bool) → Option Nat
  | [] => none
  | f :: r => match firstRanked r with
    | none => some 0
    | some j => if ((r.getD j f).1).rank < f.1.rank then some (j + 1) else some 0

/-- The place of the frame in transmission: the one marked, or the one that arbitration ranks first. -/
def Can.current (c : Can) : Option Nat :=
  match c.tx.findIdx? (fun f => f.2) with
  | some j => some j
  | none => firstRanked c.tx

/-- A frame goes into transmission where none is and the controller may send. -/
def State.canStart (s : State) (m : Nat) : State :=
  let c := s.canOf m
  if s.canSends m = false ∨ c.tx.any (·.2) then s
  else match firstRanked c.tx with
  | none => s
  | some j => s.setCan m { c with tx := (c.tx.zipIdx).map (fun p => if p.2 = j then (p.1.1, true) else p.1) }

/-- PUSH copies CAN_TXBUF into the queue. -/
def State.canPush (s : State) (m : Nat) : State :=
  let c := s.canOf m
  if c.tx.length ≥ 8 then s.setFld (CAN_IRQ_STAT_TXOVF m) 1
  else
    let f : CanFrame := ⟨s.reg (CAN_TXID_at m), s.reg (CAN_TXCTRL_at m), 0, (List.range 16).map (fun w => s.reg (CAN_TXDATA_at m w))⟩
    (s.setCan m { c with tx := c.tx ++ [(f, false)] }).canStart m

/-- ABORT removes every frame that has not started. -/
def State.canAbort (s : State) (m : Nat) : State := s.setCan m { s.canOf m with tx := (s.canOf m).tx.filter (·.2) }

/-- RECOVER lets bus-off recovery count (R399). -/
def State.canRecover (s : State) (m : Nat) : State :=
  if s.fld (CAN_STAT_STATE m) = 2 then s.setCan m { s.canOf m with recovering := true } else s

/-- POP removes the oldest received frame. -/
def State.canPop (s : State) (m : Nat) : State := s.setCan m { s.canOf m with rx := (s.canOf m).rx.drop 1 }

/-- A write of CAN_CMD: ABORT, PUSH, POP and RECOVER as its bits say, in this order. -/
def State.canCmd (s : State) (m : Nat) (v : Word) : State :=
  let b (i : Nat) : Bool := v.toNat.testBit i
  let s1 := if b 1 then s.canAbort m else s
  let s2 := if b 0 then s1.canPush m else s1
  let s3 := if b 3 then s2.canPop m else s2
  if b 2 then s3.canRecover m else s3

/-- The index that a received frame carries: its first matching filter, 0x1F with no filter enabled; none where no filter matches
(R398). -/
def State.canFilter (s : State) (m : Nat) (id : Word) : Option Nat :=
  let en := (List.range 8).filter (fun f => s.fb (CAN_FILT_EN m f))
  if en.isEmpty then some 0x1F
  else en.find? (fun f =>
    let mask := s.reg (CAN_MASK_at m f) &&& 0x1FFFFFFF
    (id &&& mask) == (s.reg (CAN_FILT_at m f) &&& mask) && s.fb (CAN_FILT_XTD m f) == id.toNat.testBit 31)

/-- A good frame lowers REC as ISO 11898-1 says: by 1 from at most 127, else to 127 (R399). -/
def State.canRecDown (s : State) (m : Nat) : State :=
  let r := s.fld (CAN_STAT_REC m)
  s.setFld (CAN_STAT_REC m) (if r > 127 then 127 else r - 1)

/-- STATE follows the error counts (R399): passive above 127; error active again below. -/
def State.canState (s : State) (m : Nat) : State :=
  if s.fld (CAN_STAT_STATE m) = 2 then s
  else
    let passive := decide (s.fld (CAN_STAT_TEC m) > 127 ∨ s.fld (CAN_STAT_REC m) > 127)
    let s1 := s.setB (CAN_STAT_STATE m) passive
    if passive ∧ s.fld (CAN_STAT_STATE m) = 0 then s1.setFld (CAN_IRQ_STAT_PASSIVE m) 1 else s1

/-- A good frame reaches the filters and the FIFO (R398). -/
def State.canAccept (s : State) (m : Nat) (id ctrl time : Word) (data : List Word) : State :=
  match s.canFilter m id with
  | none => s
  | some f =>
    let c := s.canOf m
    if c.rx.length ≥ 32 then (s.addSat (CAN_CNT_RXOVFS m) 1).setFld (CAN_IRQ_STAT_RXOVF m) 1
    else
      let fr : CanFrame := ⟨id, (ctrl &&& 0x3F) ||| BitVec.ofNat 32 (2 ^ 31 + f * 256), time, data.take 16⟩
      (s.setCan m { c with rx := c.rx ++ [fr] }).setFld (CAN_IRQ_STAT_RX m) 1

/-- CAN_RX_FRAME (R398, R399): a frame on the RX input, whose SOF bit was sampled `age` TB_CLK cycles ago. `err` is what ISO 11898-1 adds
to REC for it: 0 for a good frame, else the frame is damaged. With LOOP the controller hears only itself. -/
def State.canReceive (s : State) (m : Nat) (id ctrl : Word) (age : Nat) (data : List Word) (err : Nat) : State :=
  if s.pwr.released = false ∨ s.awake = false ∨ s.fb (CAN_CFG_EN m) = false ∨ s.fb (CAN_CFG_LOOP m) ∨ s.fed (0x360 + m) = false then s
  else if err = 0 then
    let time := s.stamp - BitVec.ofNat 32 age + BitVec.ofInt 32 ((s.free.toNat % 7 : Nat) - (3 : Int))
    ((s.canRecDown m).canState m).fresh.canAccept m id ctrl time data
  else
    ((((s.setFld (CAN_STAT_REC m) (min 255 (s.fld (CAN_STAT_REC m) + err))).addSat (CAN_CNT_ERRFRAMES m) 1).setFld
      (CAN_IRQ_STAT_ERR m) 1).canState m)

/-- CAN_TX_DONE (R397, R399): the transmission ends with success (0), lost arbitration (1) or an error (2). With LOOP the controller
receives its own frame (R400), with a free TIME: the command tells nothing of when its SOF bit was sampled. Without LOOP and with no
pin on RX the controller reads recessive (R255): its first dominant bit is an error. -/
def State.canDone (s : State) (m bus : Nat) : State :=
  let c := s.canOf m
  let result := if s.fb (CAN_CFG_LOOP m) || s.fed (0x360 + m) then bus else 2
  if s.canSends m = false then s
  else match c.current with
  | none => s
  | some j =>
    let gone : List (CanFrame × Bool) := (c.tx.eraseIdx j).map (fun f => (f.1, false))
    let kept : List (CanFrame × Bool) := c.tx.map (fun f => (f.1, false))
    let retry := if s.fb (CAN_CFG_ONESHOT m) then gone else kept
    match result with
    | 0 =>
      let fr := (c.tx.getD j (⟨0, 0, 0, []⟩, false)).1
      let s1 := (s.setCan m { c with tx := gone }).emit (.message "CAN" ([m, fr.id.toNat, fr.ctrl.toNat] ++ fr.data.map BitVec.toNat))
      let s2 := if s.fb (CAN_CFG_LOOP m) then (s1.canRecDown m).fresh.canAccept m fr.id fr.ctrl s.free fr.data else s1
      (((s2.setFld (CAN_STAT_TEC m) (s2.fld (CAN_STAT_TEC m) - 1)).setFld (CAN_IRQ_STAT_TXDONE m) 1).canState m).canStart m
    | 1 => (s.setCan m { c with tx := retry }).canStart m
    | _ =>
      let t := s.fld (CAN_STAT_TEC m) + 8
      let s1 := ((s.setCan m { c with tx := retry }).addSat (CAN_CNT_ERRFRAMES m) 1).setFld (CAN_IRQ_STAT_ERR m) 1
      if t > 255 then
        ((s1.setFld (CAN_STAT_TEC m) 255).setFld (CAN_STAT_STATE m) 2).setFld (CAN_IRQ_STAT_BUSOFF m) 1
      else ((s1.setFld (CAN_STAT_TEC m) t).canState m).canStart m

/-- BUSOFF_RECOVERY (R399), on CAN_CLK while the controller is on. -/
def State.canBusOn (s : State) (m : Nat) : State :=
  if s.pwr.released ∧ s.awake ∧ s.fb (CAN_CFG_EN m) ∧ s.fld (CAN_STAT_STATE m) = 2 ∧ (s.fb (CAN_CFG_AUTOREC m) ∨ (s.canOf m).recovering) then
    ((((s.setFld (CAN_STAT_STATE m) 0).setFld (CAN_STAT_TEC m) 0).setFld (CAN_STAT_REC m) 0).setCan m
      { s.canOf m with recovering := false }).canStart m
  else s

/-- Word `w` of CAN_RXBUF: the oldest frame, or 0 (R398). -/
def State.canRx (s : State) (m w : Nat) : Word :=
  match (s.canOf m).rx with
  | [] => 0
  | f :: _ => match w with | 0 => f.id | 1 => f.ctrl | 2 => f.time | _ => f.data.getD (w - 3) 0

/-! ## The serial pool (R401 to R405) -/

/-- The pool runs on SYS_CLK (R401): from the release on, and not in device standby. -/
def State.poolRuns (s : State) : Bool := s.pwr.released && s.awake

/-- Whether a word can pass on SPI[m]: as master, with a word to send; as slave, with SCK fed and SS low (R402). -/
def State.spiMay (s : State) (m : Nat) : Bool :=
  s.poolRuns && s.fb (SPI_CFG_EN m) &&
    (if s.fb (SPI_CFG_SLAVE m) then s.fed (0x311 + 3 * m) && !s.inputLevel (0x312 + 3 * m) else !(s.spiOf m).tx.isEmpty)

/-- A word cut to the length of SPI[m]. -/
def State.spiCut (s : State) (m : Nat) (w : Word) : Word := BitVec.ofNat 32 (w.toNat % 2 ^ (s.fld (SPI_CFG_LEN m) + 1))

/-- SPI_TX: one word is pushed (R401); a master begins to send it. -/
def State.spiTx (s : State) (m : Nat) (v : Word) : State :=
  let x := s.spiOf m
  if x.tx.length ≥ 8 then s.setFld (SPI_STAT_TXOVF m) 1
  else s.setSpi m { x with tx := x.tx ++ [v], busy := x.busy || (s.fb (SPI_CFG_EN m) && !s.fb (SPI_CFG_SLAVE m)) }

/-- SPI_WORD_DONE (R402): one word has left and one has come. A slave with nothing to send sends 0. -/
def State.spiDone (s : State) (m : Nat) (data : Word) : State :=
  let x := s.spiOf m
  let slave := s.fb (SPI_CFG_SLAVE m)
  if s.spiMay m = false then s
  else
    let s1 := if x.tx = [] then s.setFld (SPI_STAT_UNDERRUN m) 1 else s
    let s2 := s1.emit (.message "SPI" [m, (s.spiCut m (x.tx.headD 0)).toNat])
    let full := decide (x.rx.length ≥ 8)
    let rx := if full then x.rx else x.rx ++ [if s.fed (0x310 + 3 * m) then s.spiCut m data else 0]
    let rest := x.tx.drop 1
    let s3 := (if full then s2.setFld (SPI_STAT_RXOVF m) 1 else s2).setSpi m ⟨rest, rx, !slave && !rest.isEmpty⟩
    if rest = [] ∧ x.tx ≠ [] then s3.setFld (SPI_STAT_DONE m) 1 else s3

/-- SPI_RX: a read pops the oldest word; 0 from an empty FIFO (R401). -/
def State.spiRx (s : State) (m : Nat) : State × Word :=
  let x := s.spiOf m
  (s.setSpi m { x with rx := x.rx.drop 1 }, x.rx.headD 0)

/-- SPI_STAT with its levels (R405). -/
def State.spiStat (s : State) (m : Nat) : Word :=
  let x := s.spiOf m
  (s.reg (SPI_STAT_at m) &&& 0x17) ||| BitVec.ofNat 32
    (x.tx.length * 2 ^ 16 + x.rx.length * 2 ^ 8 + b2n (!x.rx.isEmpty) * 32 + b2n x.busy * 8)

/-- I2C_CMD: an entry is pushed; one for a full FIFO is discarded (R401, R403). -/
def State.i2cCmd (s : State) (m : Nat) (v : Word) : State :=
  let x := s.i2cOf m
  if x.tx.length ≥ 16 then s else s.setI2c m { x with tx := x.tx ++ [v &&& 0x7FF], busy := x.busy || s.fb (I2C_CFG_EN m) }

/-- How an entry ends that the bus ends with `result`: with no pin on SDA the controller reads 1, so a write meets no acknowledge, and
no arbitration is lost (R255, R256). -/
def State.i2cResult (s : State) (m op result : Nat) : Nat :=
  if s.fed (0x341 + 2 * m) then result else if op = 0 then 1 else 0

/-- I2C_ENTRY_DONE (R403): the oldest entry ends well (0), with NACK (1) or with lost arbitration (2). DESIGN CHOICE (log 64): a byte
read into a full FIFO is lost, and a command FIFO that a failure empties sets no DONE. -/
def State.i2cDone (s : State) (m : Nat) (data : BitVec 8) (bus : Nat) : State :=
  let x := s.i2cOf m
  match x.tx with
  | [] => s
  | e :: rest =>
    if s.poolRuns = false ∨ s.fb (I2C_CFG_EN m) = false then s
    else
      let op := bits e.toNat 9 8
      let result := s.i2cResult m op bus
      let s1 := s.emit (.message "I2C" [m, e.toNat])
      if result = 1 ∧ op = 0 then
        ((s1.setI2c m { x with tx := [], busy := false }).setFld (I2C_STAT_NACK m) 1).emit (.message "I2C" [m, 0x300])
      else if result = 2 then (s1.setI2c m { x with tx := [], busy := false }).setFld (I2C_STAT_ARBLOST m) 1
      else
        let rx := if (op = 1 ∨ op = 2) ∧ x.rx.length < 16 then x.rx ++ [if s.fed (0x341 + 2 * m) then data.setWidth 32 else 0xFF] else x.rx
        let s2 := s1.setI2c m ⟨rest, rx, !rest.isEmpty⟩
        if rest = [] then s2.setFld (I2C_STAT_DONE m) 1 else s2

/-- I2C_TIMEOUT (R403): the transfer in progress ends. With no pin on SCL the controller reads 1, and nothing holds it low (R255). -/
def State.i2cTimeout (s : State) (m : Nat) : State :=
  let x := s.i2cOf m
  match x.tx with
  | [] => s
  | _ :: rest => if s.poolRuns && x.busy && s.fed (0x340 + 2 * m) then (s.setI2c m { x with tx := rest, busy := !rest.isEmpty }).setFld (I2C_STAT_TIMEOUT m) 1 else s

/-- I2C_RX: a read pops the oldest byte; 0 from an empty FIFO. -/
def State.i2cRx (s : State) (m : Nat) : State × Word :=
  let x := s.i2cOf m
  (s.setI2c m { x with rx := x.rx.drop 1 }, x.rx.headD 0)

/-- I2C_STAT with its levels. -/
def State.i2cStat (s : State) (m : Nat) : Word :=
  let x := s.i2cOf m
  (s.reg (I2C_STAT_at m) &&& 0xF) ||| BitVec.ofNat 32 (x.tx.length * 2 ^ 16 + x.rx.length * 2 ^ 8 + b2n x.busy * 16)

/-- UART_TX: an entry is pushed (R401). -/
def State.uartTx (s : State) (m : Nat) (v : Word) : State :=
  let x := s.uartOf m
  if x.tx.length ≥ 16 then s.setFld (UART_STAT_TXOVF m) 1
  else s.setUart m { x with tx := x.tx ++ [v &&& 0x1FF], busy := x.busy || s.uartMay m }

/-- UART_CTS_ASSERT (R404): CTS has gone low, and a frame that waits starts; with no pin on CTS it stays 1 (R255, R256). -/
def State.uartCts (s : State) (m : Nat) : State :=
  let x := s.uartOf m
  if s.poolRuns ∧ s.fb (UART_CFG_EN m) ∧ s.fb (UART_CFG_FLOW m) ∧ s.fb (UART_CFG_RS485 m) = false ∧ s.fed (0x351 + 2 * m) ∧ x.tx ≠ [] then s.setUart m { x with busy := true } else s

/-- The data bits of a frame of UART[m] (R405). -/
def State.uartBits (s : State) (m : Nat) : Nat := 7 + s.fld (UART_CFG_BITS m)

/-- UART_FRAME_SENT (R404): the frame in progress has left; the next starts where it may. -/
def State.uartSent (s : State) (m : Nat) : State :=
  let x := s.uartOf m
  match x.tx with
  | [] => s
  | w :: rest =>
    if s.poolRuns = false ∨ s.fb (UART_CFG_EN m) = false then s
    else (s.emit (.message "UART" [m, w.toNat % 2 ^ s.uartBits m])).setUart m { x with tx := rest, busy := !rest.isEmpty && s.uartMay m }

/-- UART_FRAME_RECEIVED (R404), with its flags. -/
def State.uartReceived (s : State) (m : Nat) (data : BitVec 9) (brk pe fe : Bool) : State :=
  let x := s.uartOf m
  if s.poolRuns = false ∨ s.fb (UART_CFG_EN m) = false ∨ s.fed (0x350 + 2 * m) = false then s
  else if x.rx.length ≥ 16 then s.setFld (UART_STAT_RXOVF m) 1
  else
    let w := BitVec.ofNat 32 (2 ^ 15 + b2n brk * 2 ^ 14 + b2n pe * 2 ^ 13 + b2n fe * 2 ^ 12 + data.toNat % 2 ^ s.uartBits m)
    let s1 := s.setUart m { x with rx := x.rx ++ [w] }
    if brk || pe || fe then s1.setFld (UART_STAT_ERR m) 1 else s1

/-- UART_RX: a read pops the oldest entry with its flags; 0 from an empty FIFO. -/
def State.uartRx (s : State) (m : Nat) : State × Word :=
  let x := s.uartOf m
  (s.setUart m { x with rx := x.rx.drop 1 }, x.rx.headD 0)

/-- UART_STAT with its levels. -/
def State.uartStat (s : State) (m : Nat) : Word :=
  let x := s.uartOf m
  (s.reg (UART_STAT_at m) &&& 7) ||| BitVec.ofNat 32 (x.tx.length * 2 ^ 24 + x.rx.length * 2 ^ 16)

/-! ## Boundary scan (R406 to R408) -/

/-- Values for boundary cells. -/
def cellTable (l : List (Nat × Bool × Bool)) : Table Signal := l.foldl (fun t c => tset ⟨false, false⟩ t c.1 ⟨c.2.1, c.2.2⟩) []

/-- An instruction without hold of the pads is selected: pads that one held return (R407). -/
def State.tapPlain (s : State) (ir : Nat) : State :=
  let p := s.tap.pads % 4
  { s with tap := { s.tap with ir := ir, pads := if p = 0 then s.tap.pads else if s.pwr.released then 4 + p else 0 } }

/-- Whether EXTEST, CLAMP and HIGHZ act (R407). -/
def State.tapActs (s : State) : Bool := !(s.lc.state == 2 && s.pwr.released)

/-- What Capture-DR loads into the data register that an instruction selects (R406, R408): IDCODE, READY, ERR and DONE, the levels at the
user pins, or the bypass bit. The loader is READY where it would take a word. -/
def State.tapData (s : State) : List Nat :=
  match s.tap.ir with
  | 1 => [s.fld SYS_REVISION_MAJOR * 2 ^ 28 + 0x8256B67]
  | 2 => (List.range 352).map (fun p => b2n (s.padLevel p))
  | 3 => (List.range 352).map (fun p => b2n (s.padLevel p))
  | 0x20 =>
    let ready := decide ((s.streamWordIn .jtag 0).loader ≠ s.loader)
    [b2n ready + 2 * b2n (s.fb CFG_STAT_ERR) + 4 * b2n (s.fb CFG_STAT_DONE)]
  | _ => [0]

/-- The data register is captured and shifted out. -/
def State.tapShow (s : State) : State := s.emit (.message "DR" s.tapData)

/-- EXTEST (1), CLAMP (2) or HIGHZ (3) takes the pads, or acts as BYPASS. -/
def State.tapTake (s : State) (ir how : Nat) (cells : Option (Table Signal)) : State :=
  if s.tapActs then { s with tap := { s.tap with ir := ir, pads := how, cells := cells.getD s.tap.cells } } else s.tapPlain 0xFF

/-- CFGLOAD (R408). -/
def State.tapLoad (s : State) : State := s.tapPlain (if s.lc.state = 4 then 0xFF else 0x20)

/-- CFGLOAD_UPDATE (R408): an Update-DR appends a word to the image stream. -/
def State.tapUpdate (s : State) (v : Word) : State := if s.tap.ir = 0x20 then s.streamWordIn .jtag v else s

/-! ## The commands -/

/-- PUSH. -/
def execPush (m : Fin 4) (s : State) : Host.Outcome State Fault Refusal := done s (s.canPush m.val)
/-- CAN_ABORT. -/
def execCanAbort (m : Fin 4) (s : State) : Host.Outcome State Fault Refusal := done s (s.canAbort m.val)
/-- RECOVER. -/
def execRecover (m : Fin 4) (s : State) : Host.Outcome State Fault Refusal := done s (s.canRecover m.val)
/-- POP. -/
def execPop (m : Fin 4) (s : State) : Host.Outcome State Fault Refusal := done s (s.canPop m.val)
/-- CAN_RX_FRAME. -/
def execCanRxFrame (m : Fin 4) (id ctrl : Word) (age : Nat) (data : RxData) (s : State) : Host.Outcome State Fault Refusal :=
  done s (s.canReceive m.val id ctrl age data.data data.err)
/-- CAN_TX_DONE. -/
def execCanTxDone (m : Fin 4) (result : Fin 3) (s : State) : Host.Outcome State Fault Refusal := done s (s.canDone m.val result.val)
/-- BUSOFF_RECOVERY. -/
def execBusoffRecovery (m : Fin 4) (s : State) : Host.Outcome State Fault Refusal := done s (s.canBusOn m.val)
/-- SPI_TX. -/
def execSpiTx (m : Fin 16) (v : Word) (s : State) : Host.Outcome State Fault Refusal := done s (s.spiTx m.val v)
/-- SPI_RX. -/
def execSpiRx (req : Fin 405) (m : Fin 16) (s : State) : Host.Outcome State Fault Refusal :=
  done s ((s.spiRx m.val).1.emit (.readData req.val (SPI_RX_at m.val) (s.spiRx m.val).2))
/-- SPI_WORD_DONE. -/
def execSpiWordDone (m : Fin 16) (data : Word) (s : State) : Host.Outcome State Fault Refusal := done s (s.spiDone m.val data)
/-- I2C_CMD. -/
def execI2cCmd (m : Fin 8) (v : Word) (s : State) : Host.Outcome State Fault Refusal := done s (s.i2cCmd m.val v)
/-- I2C_ENTRY_DONE. -/
def execI2cEntryDone (m : Fin 8) (data : BitVec 8) (result : Fin 3) (s : State) : Host.Outcome State Fault Refusal :=
  done s (s.i2cDone m.val data result.val)
/-- I2C_RX. -/
def execI2cRx (req : Fin 405) (m : Fin 8) (s : State) : Host.Outcome State Fault Refusal :=
  done s ((s.i2cRx m.val).1.emit (.readData req.val (I2C_RX_at m.val) (s.i2cRx m.val).2))
/-- I2C_TIMEOUT. -/
def execI2cTimeout (m : Fin 8) (s : State) : Host.Outcome State Fault Refusal := done s (s.i2cTimeout m.val)
/-- UART_TX. -/
def execUartTx (m : Fin 8) (v : Word) (s : State) : Host.Outcome State Fault Refusal := done s (s.uartTx m.val v)
/-- UART_RX. -/
def execUartRx (req : Fin 405) (m : Fin 8) (s : State) : Host.Outcome State Fault Refusal :=
  done s ((s.uartRx m.val).1.emit (.readData req.val (UART_RX_at m.val) (s.uartRx m.val).2))
/-- UART_FRAME_SENT. -/
def execUartFrameSent (m : Fin 8) (s : State) : Host.Outcome State Fault Refusal := done s (s.uartSent m.val)
/-- UART_FRAME_RECEIVED. -/
def execUartFrameReceived (m : Fin 8) (data : BitVec 9) (break_ parity framing : Bool) (s : State) : Host.Outcome State Fault Refusal :=
  done s (s.uartReceived m.val data break_ parity framing)
/-- UART_CTS_ASSERT. -/
def execUartCtsAssert (m : Fin 8) (s : State) : Host.Outcome State Fault Refusal := done s (s.uartCts m.val)
/-- IDCODE. -/
def execIdcode (s : State) : Host.Outcome State Fault Refusal := done s (s.tapPlain 1).tapShow
/-- SAMPLE_PRELOAD, with the values preloaded into the cells. -/
def execSamplePreload (cells : List (Nat × Bool × Bool)) (s : State) : Host.Outcome State Fault Refusal :=
  done s (let t := (s.tapPlain 2).tapShow
    if t.tap.pads = 0 then { t with tap := { t.tap with cells := cellTable cells } } else t)
/-- EXTEST, with the values of the cells. -/
def execExtest (cells : List (Nat × Bool × Bool)) (s : State) : Host.Outcome State Fault Refusal :=
  done s (s.tapTake 3 1 (some (cellTable cells))).tapShow
/-- JTAG_CLAMP. -/
def execJtagClamp (s : State) : Host.Outcome State Fault Refusal := done s (s.tapTake 4 2 none)
/-- HIGHZ. -/
def execHighz (s : State) : Host.Outcome State Fault Refusal := done s (s.tapTake 5 3 none)
/-- BYPASS. -/
def execBypass (s : State) : Host.Outcome State Fault Refusal := done s (s.tapPlain 0xFF).tapShow
/-- CFGLOAD. -/
def execCfgload (s : State) : Host.Outcome State Fault Refusal := done s s.tapLoad.tapShow
/-- CFGLOAD_UPDATE. -/
def execCfgloadUpdate (v : Word) (s : State) : Host.Outcome State Fault Refusal := done s (s.tapUpdate v)
/-- TEST_LOGIC_RESET. -/
def execTestLogicReset (s : State) : Host.Outcome State Fault Refusal := done s (s.tapPlain 1)

end Sys2Proof.Machine
end

