-- ==== Sys2Proof/Machine/Region.lean ====
section
/-! DEFINITION. Regions held in reset, partial loads, their release, and the scrubber (R346 to R361). -/

namespace Sys2Proof.Machine

/-! ## The hold boundary (R351, R355) -/

/-- The tiles that a region covers. -/
def State.tilesOf (s : State) (r : Nat) : List Nat := (List.range 256).filter (fun t => s.covers r t)

/-- The sectors that a region covers as a whole. -/
def State.sectorsOf (s : State) (r : Nat) : List Nat := (List.range 16).filter (fun k => s.coversSector r k)

/-- A channel on an engine of the region faults with cause REGION, and its release takes effect at once. -/
def State.chanHeld (s : State) (i : Nat) : State :=
  let c := s.chanOf i
  if c.st = .free then s
  else
    let s1 := s.takeFault i ⟨0xA, c.bank.pc % 4096, 0, s.tickLo⟩ s.tb.tick
    (s1.setSlot i { s1.chanOf i with st := .faulted, stopTick := none, mods := [], unreported := none }).releaseChan i

/-- What falls due on a channel at the hold boundary comes first (R246, R354): a start, new settings, a release. -/
def State.chanDue (s : State) (i : Nat) : State := (s.slotChanges i s.tb.tick).releaseDue i s.tb.tick

/-- An engine of the region halts; where its sector has not met the boundary, what it ran in the tick before ends with that tick (R117). -/
def State.engineHeld (s : State) (t : Nat) : State :=
  let s1 := if tget 0 s.tickCopy (t / 16) = s.tb.tick then s else s.closeAct t
  s1.setEng t { s1.engOf t with
    act := none, buf := [], gload := none, cancelRd := none, layout := [], baseDone := [], posts := [], outs := [], stalled := false }

/-- The RAMs of the covered tiles are cleared with valid check bits. -/
def State.clearTiles (s : State) (r : Nat) : State :=
  let inside (a : Nat) : Bool := (a / 0x1000000 == 0x20 || a / 0x1000000 == 0x21) && s.covers r (a % 0x1000000 / 0x4000)
  { s with mem := s.mem.filter (fun p => !inside p.1), ecc := s.ecc.filter (fun p => !inside (4 * p.1)) }

/-- The in-service tester lets go of what a sector holds: the window under test of its scratchpad, and a test of its bay (R363). -/
def State.istHeld (s : State) (k : Nat) : State :=
  { s with ist := { s.ist with
      sp := tset marchReset s.ist.sp k { s.marchOf false k with busy := false, hit := false }
      bay := tset ⟨0, none⟩ s.ist.bay k { tget ⟨0, none⟩ s.ist.bay k with run := none } } }

/-- The registers of a held sector's bay window go to their reset values, and what the sector keeps beside them is cleared, but for the
reference (R141); an apply on its way changes nothing in the bay any more (R193). -/
def State.sectorCleared (s : State) (k : Nat) : State :=
  { s with
    regs := s.regs.filter (fun p => p.1 / 0x10000 != 0x3000 + k || calPair p.1)
    pwm := s.pwm.filter (fun p => p.1 / 8 != k)
    cap := s.cap.filter (fun p => p.1 / 8 != k)
    cmp := s.cmp.filter (fun p => p.1 / 4 != k)
    dac := s.dac.filter (fun p => p.1 / 2 != k)
    rcal := tset none s.rcal k none
    clearq := s.clearq.filter (fun p => p.1 != k)
    dmaTrig := s.dmaTrig.filter (fun p => p.1 / 8 != k)
    dmaAbort := s.dmaAbort.filter (fun p => p.1 / 8 != k)
    fab := tset fabReset s.fab k fabReset
    ffs := s.ffs.filter (fun p => p.1 / 2048 != k)
    cfgFlip := s.cfgFlip.filter (fun p => !(p.1 / 64 / 2 ^ 28 == 1 && p.1 / 64 / 2 ^ 24 % 16 == k))
    baySw := { s.baySw with refs := s.baySw.refs ||| (if s.fb (BAY_CTRL_REFEN k) then 2 ^ k else 0) }
    strobes := s.strobes.map (fun x => { x with
      gone := x.gone ||| 2 ^ k, regs := x.regs.filter (fun p => p.1 / 0x10000 != 0x3000 + k) }) }

/-- A sector that the region covers as a whole: the bay window, the fabric, and what the sector keeps beside them. A block in progress
ends with REGION and keeps the count of its words; an armed channel is disarmed (R220). The reference stays as it is (R141). -/
def State.sectorHeld (s : State) (k : Nat) : State :=
  let ended := (List.range 8).filter (s.dmaBusy k)
  let forced := [2 * k, 2 * k + 1].filter (fun n => s.fld (DAC_STAT_STATE n) != dacOff)
  let s1 := (([2 * k, 2 * k + 1].foldl State.adcHold s).istHeld k).sectorCleared k
  let s2 := ended.foldl (fun t j => (t.dmaEnd k j 7).setFld (DMA_STAT_DONE k j) (s.fld (DMA_STAT_DONE k j))) s1
  let s3 := forced.foldl (fun s n => s.setFld (DAC_STAT_STATE n) dacForced) s2
  (((s3.setFld (BAY_STATUS_HELD k) 1).setFld (FAB_STAT_HELD k) 1).setB (BAY_STATUS_TRIPOPEN k) s.tripped).setB (BAY_STATUS_REF_OK k)
    (s.fb (BAY_STATUS_REF_OK k))

/-- The pads on FAB_OUT or PWM of the sectors of a region keep, with SAFE = hold, what they show at the hold (R264, R351). -/
def State.padsHeld (s : State) (r : Nat) : State :=
  let ps := (List.range 352).filter (fun p => (outsideSector (s.fld (XBAR_SEL_OUTSEL p))).any (fun k => s.coversSector r k))
  { s with pins := { s.pins with heldAt := ps.foldl (fun t p => tset ⟨false, false⟩ t p (s.padOut p)) s.pins.heldAt } }

/-- The bays beside a held sector look at their nets (R143). -/
def State.neighbours (s : State) (k : Nat) : State :=
  let s1 := if k = 0 then s else s.xtLost (k - 1)
  if k = 15 then s1 else s1.xtLost (k + 1)

/-- REGION_HOLD: the hold boundary of region `r`. -/
def State.regionHold (s : State) (r : Nat) : State :=
  match s.scrub.holds.find? (fun h => h.1 == r) with
  | none => s
  | some (_, n, code) =>
    if s.pwr.released = false ∨ s.awake = false ∨ s.tb.tick.toNat < n.toNat then s
    else
      let s0 := s.toArrival
      let s1 : State := { s0.padsHeld r with scrub := { s0.scrub with holds := s0.scrub.holds.filter (fun h => h.1 != r) } }
      let s2 := (s1.eng.filter (fun p => s1.covers r p.1)).foldl (fun s p => s.engineHeld p.1) s1
      let s3 := (s2.chans.filter (fun p => s2.covers r (p.1 / 16))).foldl (fun s p => (s.chanDue p.1).chanHeld p.1) s2
      let s4 := ((s3.setFld (REG_STAT_HELD r) 1).setFld (REG_STAT_CODE r) (code.getD (s3.fld (REG_STAT_CODE r)))).setFld SCRUB_IRQ_STAT_HELD 1
      let s5 := (s4.sectorsOf r).foldl State.sectorHeld (s4.clearTiles r)
      let s6 := ((s5.sectorsOf r).foldl State.neighbours s5).invalidate
      (if s6.role = 2 ∨ s6.role = 3 then s6.desync else s6).startReload

/-! ## The release check and the release boundary (R353) -/

/-- Whether a pin is locked (R262). -/
def State.pinLocked (s : State) (p : Nat) : Bool := s.fbit (XBAR_LOCKED_LOCKED (p / 32)) (p % 32)

/-- The pin whose set-up a register is. -/
def pinOf (a : Nat) : Option Nat :=
  if XBAR_SEL_at 0 ≤ a ∧ a < XBAR_SEL_at 352 then some ((a - XBAR_SEL_at 0) / 4)
  else if XBAR_PAD_at 0 ≤ a ∧ a < XBAR_PAD_at 352 then some ((a - XBAR_PAD_at 0) / 4)
  else none

/-- The values collected for a region, but for locked pins. -/
def State.collected (s : State) (r : Nat) : Table Word :=
  s.loader.clk.filter (fun p => s.targetIn r p.1 && !((pinOf p.1).any s.pinLocked))

/-- The active state with the region's new values in place (R353). -/
def State.regionView (s : State) (r : Nat) : View := fun a =>
  match (s.collected r).find? (fun p => p.1 == a) with
  | some p => (s.reg a &&& ~~~rwsMask a) ||| (p.2 &&& rwsMask a)
  | none => s.reg a

/-- The offences that the release check finds: the rule set of R240 but for XINPUT and XLOCK. -/
def State.regionOffences (s : State) (r : Nat) : List Offence :=
  let t : State := { s with attar := State.reset.attar }
  let v := s.regionView r
  offences t v (s.viewAddrs ++ (s.collected r).map (·.1)).eraseDups (fun a => s.targetIn r a) true ++ checkChans t v

/-- The calibration set of entry `c` of converter `n`, as SAVE has stored it, joins the values that take effect at the release of the region
(R172, R353); an invalid one sets RESTERR. -/
def State.calCollect (s : State) (n c : Nat) : State :=
  match s.calSet n c with
  | none => s.setFld (ADC_IRQ_STAT_RESTERR n) 1
  | some (o, g) => s.withLoader (fun x => { x with clk := tput (tput x.clk (ADC_CALOFS_at n c) o) (ADC_CALGAIN_at n c) g })

/-- PARTIAL_CHECK_DONE: calibration sets are restored, and the release check ends; it waits for a CHECK of a session. -/
def State.partialCheckDone (s : State) : State :=
  let r := s.fld PR_STAT_REGION
  if s.loader.part = false ∨ s.loader.phase ≠ .release ∨ s.attarState = 2 ∨ s.scrub.releases.any (fun x => x.1 == r) then s
  else
    let v := s.regionView r
    let ns := (List.range 32).filter (fun n => s.coversSector r (n / 2) && v.fld (ADC_CFG_AUTOREST n) != 0)
    let s1 := ns.foldl (fun s n => (List.range 8).foldl (fun s c => s.calCollect n c) s) s
    match firstOffence (s1.regionOffences r) with
    | some o => (s1.setFld (REG_STAT_ACODE r) o.code).partialError 0x19 o.addr
    | none => { s1 with scrub := { s1.scrub with releases := s1.scrub.releases ++ [(r, s1.effTick)] } }

/-- The strobe of a region's release: what the image gives, and DAC_CODE where INITDRV commits it (R198). -/
def State.releaseStrobe (s : State) (r : Nat) : Strobe :=
  let v := s.regionView r
  let dacs := (List.range 32).filter (fun n => s.coversSector r (n / 2))
  let isCode (a : Nat) : Bool := dacs.any (fun n => a == DAC_CODE_at n)
  let given := ((s.collected r).filter (fun p => !isCode p.1)).map (fun p => (p.1, some p.2))
  let regs := (dacs.filter (fun n => v.fld (DAC_CFG_INITDRV n) != 0)).foldl (fun t n => tput t (DAC_CODE_at n) (some (v (DAC_CODE_at n)))) given
  ⟨s.tb.tick, [], regs, [], false, s.regs, true, 0⟩

/-- The domains of a region. -/
def State.regionDomains (s : State) (r : Nat) : List Domain :=
  ((s.sectorsOf r).map (fun k => Domain.sect (Fin.ofNat 16 k)) ++ (s.sectorsOf r).map (fun k => Domain.mod (Fin.ofNat 4 (k / 4)))).eraseDups ++
    [.pin]

/-- REGION_RELEASE: the release boundary of region `r`. -/
def State.regionRelease (s : State) (r : Nat) : State :=
  match s.scrub.releases.find? (fun x => x.1 == r) with
  | none => s
  | some (_, n) =>
    if s.pwr.released = false ∨ s.awake = false ∨ s.tb.tick.toNat < n.toNat then s
    else
      let s0 := s.toArrival
      let skipped := s0.loader.clk.any (fun p => s0.targetIn r p.1 && (pinOf p.1).any s0.pinLocked && p.2 &&& rwsMask p.1 != s0.reg p.1 &&& rwsMask p.1)
      let x := s0.releaseStrobe r
      let ks := s0.sectorsOf r
      let codes := (s0.collected r).filter (fun p => ks.any (fun k => p.1 == DAC_CODE_at (2 * k) || p.1 == DAC_CODE_at (2 * k + 1)))
      let s1 := (((s0.setFld (REG_STAT_HELD r) 0).setFld (REG_STAT_LOADING r) 0).setFld (REG_STAT_CODE r) 0).setFld (REG_STAT_TRIES r) 0
      let s2 := (((s1.setFld PR_STAT_BUSY 0).setFld PR_STAT_CODE 0).setFld SCRUB_IRQ_STAT_PRDONE 1)
      let s3 := ks.foldl (fun s k => [2 * k, 2 * k + 1].foldl (fun s n => (s.setFld (DAC_STAT_STATE n) dacOff).adcClear n)
        ((s.setFld (BAY_STATUS_HELD k) 0).setFld (FAB_STAT_HELD k) 0)) s2
      let s4 := codes.foldl (fun s p => s.setReg p.1 ((s.reg p.1 &&& ~~~rwsMask p.1) ||| (p.2 &&& rwsMask p.1))) s3
      let s5 := (s4.regionDomains r).foldl (fun s d => s.takeStrobe d x) s4
      let s6 : State := { s5 with
        baySw := { s5.baySw with refs := ks.foldl (fun m k => m - (m &&& 2 ^ k)) s5.baySw.refs }
        loader := { s5.loader.rest with clk := s5.loader.clk.filter (fun p => !s5.targetIn r p.1) }
        scrub := { s5.scrub with releases := s5.scrub.releases.filter (fun y => y.1 != r) } }
      let s7 := (ks.filter (fun k => !s6.fb (BAY_CTRL_REFEN k))).foldl (fun s k => s.refOk k false) s6
      ((if skipped then (s7.setFld XBAR_STAT_LOCKSKIP 1).setFld XBAR_IRQ_STAT_LOCKSKIP 1 else s7).invalidate).joinFreed.startReload

/-! ## PR_CMD (R350, R360) -/

/-- ABANDON: a partial load in progress ends with ABANDONED, and the loader waits for a sync word again. -/
def State.abandon (s : State) : State :=
  let r := s.fld PR_STAT_REGION
  let s1 := if s.fb PR_STAT_BUSY then
      ({ s with scrub := { s.scrub with releases := s.scrub.releases.filter (fun x => x.1 != r) } } : State).partialError 0x1A
        s.loader.offset
    else s
  let s2 := s1.setFld PR_STAT_DISCARD 0
  if s2.loader.phase = .discard then s2.withLoader Loader.rest else s2

/-- RELOAD of a region: its reload starts at its hold boundary, or at once where it is held. -/
def State.requestReload (s : State) (r : Nat) : State :=
  if s.fb (REG_DEF_EN r) = false then s
  else
    let s1 : State := { s with scrub := { s.scrub with reloads := r :: s.scrub.reloads.erase r } }
    if s.fb (REG_STAT_HELD r) then s1.startReload else s1.holdRegion r none

/-- A write of PR_CMD. -/
def State.prCmd (s : State) (v : Word) : State :=
  if v.toNat / 2 ^ 16 ≠ 0x5052 ∨ s.pwr.released = false then s
  else match v.toNat % 16 with
  | 1 => s.abandon
  | 2 => s.requestReload (bits v.toNat 12 8)
  | _ => s

/-! ## The scrubber (R356 to R361) -/

/-- The frame at a place of the pass: in sector, column and minor order (R357). DESIGN CHOICE (log 60): frames of the same sector, column
and minor come in the order of their TYPE. -/
def scrubFrame (i : Nat) : Nat :=
  let j := i % 167
  i / 167 * 2 ^ 24 + (match j with
    | 0 => 0
    | 1 => 2 ^ 28
    | 2 => 5 * 2 ^ 28
    | 3 => 1
    | 4 => 2 ^ 28 + 1
    | _ => if j < 163 then (j - 3) / 10 * 2 ^ 16 + (j - 3) % 10 else 16 * 2 ^ 16 + (j - 163))

/-- The first place after the frames, and the places of a pass. -/
def scrubFrames : Nat := 2672
/-- All places. -/
def scrubPlaces : Nat := 2672 + 1048576

/-- The region, if any, in which a frame of configuration memory lies (R348). -/
def State.frameRegion (s : State) (f : Nat) : Option Nat := (List.range 32).find? (fun r => s.coversSector r (f / 2 ^ 24 % 16))

/-- Whether a region is held or loading (R354, R357). -/
def State.regionBusy (s : State) (r : Nat) : Bool := s.fb (REG_STAT_HELD r) || s.fb (REG_STAT_LOADING r)

/-- A single-bit error has been corrected (R358). -/
def State.scrubCe (s : State) : State := (s.addSat SCRUB_CNT_CE 1).setFld SCRUB_IRQ_STAT_CE 1

/-- An uncorrectable error at an address of a kind (0 frame, 1 instruction RAM), in a region or in the static part (R359). -/
def State.scrubUe (s : State) (kind addr : Nat) (region : Option Nat) : State :=
  let s1 := if s.fb SCRUB_CNT_UE then s else (s.setReg SCRUB_UEADDR_at (BitVec.ofNat 32 addr)).setFld SCRUB_STAT_UEKIND kind
  let s2 := s1.addSat SCRUB_CNT_UE 1
  match region with
  | none =>
    let s3 := s2.setFld SCRUB_IRQ_STAT_STATICUE 1
    if kind = 0 then s3.raiseWith 0x800 (fun s => s.faultEntry 6 0 0 addr) else s3
  | some r =>
    let s3 := s2.addSat (REG_STAT_UE r) 1
    if s.regionBusy r then s3
    else
      let s4 := s3.setFld SCRUB_IRQ_STAT_UE 1
      match s.fld (REG_DEF_ESC r) with
      | 1 => s4.holdRegion r (some 0x1B)
      | 2 => ({ s4 with scrub := { s4.scrub with reloads := r :: s4.scrub.reloads.erase r } } : State).holdRegion r (some 0x1B)
      | _ => s4

/-- What a flipped bit of a frame of TYPE 1 does to the register that it holds: it acts until it is corrected (R358). -/
def State.flipReg (s : State) (f w m : Nat) : State :=
  match frameReg f w with
  | some a =>
    let s1 := s.setReg a (s.reg a ^^^ (BitVec.ofNat 32 m &&& rwsMask a))
    if f / 2 ^ 28 = 1 then (List.range 16).foldl State.setRoutes s1 else s1
  | none => s

/-- The scrubber reads a frame: single errors are corrected, and what remains fails the frame (R358, R359). The check word has no code
of its own. -/
def State.visitFrame (s : State) (f : Nat) : State :=
  let bad := s.cfgFlip.filter (fun p => p.1 / 64 == f)
  let one (p : Nat × Nat) : Bool := decide (p.1 % 64 < 40) && (bitList p.2 39).length == 1
  let s1 := (bad.filter one).foldl (fun s p =>
    ({ s.flipReg f (p.1 % 64) p.2 with cfgFlip := tset 0 s.cfgFlip p.1 0 } : State).scrubCe) s
  if bad.all one then s1 else s1.scrubUe 0 f (s.frameRegion f)

/-- The scrubber reads an instruction word. -/
def State.visitInstr (s : State) (i : Nat) : State :=
  let a := 0x21000000 + 4 * i
  match s.flipCount a with
  | 0 => s
  | 1 => (s.setFlips a 0).scrubCe
  | _ => s.scrubUe 1 a (s.tileRegion (i / 4096))

/-- The region of a place, where it has one. -/
def State.placeRegion (s : State) (i : Nat) : Option Nat :=
  if i < scrubFrames then s.frameRegion (scrubFrame i) else s.tileRegion ((i - scrubFrames) / 4096)

/-- A pass ends (R357). -/
def State.passEnds (s : State) : State :=
  let ms := (s.tb.now - s.scrub.start).toNat / 200000
  let late := decide ((s.tb.now - s.scrub.start).toNat > 200000 * max 12 (s.fld SCRUB_CFG_PASS))
  let s1 := (s.setFld SCRUB_PASSTIME_PASSES (s.fld SCRUB_PASSTIME_PASSES + 1)).setFld SCRUB_PASSTIME_LAST (min ms 65535)
  if late then s1.setFld SCRUB_IRQ_STAT_PASSLATE 1 else s1

/-- Whether the scrubber can read a place: an instruction word is reached on the SECT_CLK of its tile (R357), and waits while that
stands. -/
def State.placeRuns (s : State) (i : Nat) : Bool :=
  decide (i < scrubFrames) || s.sectRuns ((i - scrubFrames) / 65536) || (s.placeRegion i).any s.regionBusy

/-- SCRUB_VISIT: the next place of the pass is read, unless its region is held or loading. RUNNING shows a pass in progress (R362). -/
def State.scrubVisit (s : State) : State :=
  if s.pwr.released = false ∨ s.awake = false ∨ s.fb SCRUB_CFG_EN = false ∨ s.placeRuns s.scrub.place = false then s
  else
    let i := s.scrub.place
    let s0 := s.setFld SCRUB_STAT_RUNNING 1
    let s1 : State := if i = 0 then { s0.voteWritten 1 with scrub := { (s0.voteWritten 1).scrub with start := s.tb.now } } else s0
    let s2 := if (s.placeRegion i).any s.regionBusy then s1
      else if i < scrubFrames then s1.visitFrame (scrubFrame i)
      else s1.visitInstr (i - scrubFrames)
    let s3 := s2.voteWritten 0
    if i + 1 < scrubPlaces then { s3 with scrub := { s3.scrub with place := i + 1 } }
    else (({ s3 with scrub := { s3.scrub with place := 0 } } : State).passEnds).setFld SCRUB_STAT_RUNNING 0

/-- VOTE_FIX (R361): a copy that disagrees is rewritten. -/
def State.voteFix (s : State) : State :=
  match s.scrub.diffs with
  | [] => s
  | p :: _ => (({ s with scrub := { s.scrub with diffs := tset 0 s.scrub.diffs p.1 0 } } : State).addSat SCRUB_CNT_VOTEFIX 1).setFld
      SCRUB_IRQ_STAT_VOTEFIX 1

/-- Whether a number is that of a voted item (R361). -/
def voted (i : Nat) : Bool :=
  i == 0 || i == 1 || i == SCRUB_CFG_at || (i % 4 == 0 && ((decide (REG_DEF_at 0 ≤ i) && decide (i < REG_DEF_at 32)) ||
    (decide (REG_SRC_at 0 ≤ i) && decide (i < REG_SRC_at 32)) || (decide (REG_PINOWN_at 0 ≤ i) && decide (i < REG_PINOWN_at 88))))

/-- The bits `m` of a voted item change in what acts and is read. -/
def State.voteMoves (s : State) (i m : Nat) : State :=
  match i with
  | 0 => { s with scrub := { s.scrub with place := s.scrub.place ^^^ m } }
  | 1 => { s with scrub := { s.scrub with start := s.scrub.start ^^^ BitVec.ofNat 64 m } }
  | _ => s.setReg i (s.reg i ^^^ (BitVec.ofNat 32 m &&& BitVec.ofNat 32 (swBits i)))

/-- Bits of one copy of a voted item flip (R361): the majority of the three copies goes on acting, also where it moves with them. -/
def State.voteFlip (s : State) (i c m : Nat) : State :=
  if c ≥ 3 ∨ voted i = false then s
  else
    let d (j : Nat) : Nat := tget 0 s.scrub.diffs (3 * i + j) ^^^ (if j = c then m % 2 ^ 32 else 0)
    let maj := (d 0 &&& d 1) ||| (d 0 &&& d 2) ||| (d 1 &&& d 2)
    let s1 := if maj = 0 then s else s.voteMoves i maj
    { s1 with scrub := { s1.scrub with
      diffs := [0, 1, 2].foldl (fun t j => tset 0 t (3 * i + j) (d j ^^^ maj)) s1.scrub.diffs } }

/-- MEMORY_BIT_FLIP (R358, R361): bits of a stored word flip: of a memory, of a frame with its check word, or of one voted copy. -/
def State.memoryFlip (s : State) (t : FlipTarget) : State :=
  match t with
  | .memory a m => if [Region.scratch 0, .dram, .iram, .vault, .retain, .sillage].contains (regionOf a) then s.flipBits a m else s
  | .frame f w m =>
    let ty := bits f 31 28
    if s.frameAddrOk f = false ∨ ¬ (ty = 0 ∨ ty = 1 ∨ ty = 5) ∨ w > 40 then s
    else
      let i := 64 * f + w
      { s.flipReg f w m with cfgFlip := tset 0 s.cfgFlip i (tget 0 s.cfgFlip i ^^^ m % 2 ^ 39) }
  | .voted i c m => s.voteFlip i c m

/-! ## The commands -/

/-- REGION_HOLD. -/
def execRegionHold (r : Fin 32) (s : State) : Host.Outcome State Fault Refusal := done s (s.regionHold r.val)
/-- PARTIAL_CHECK_DONE. -/
def execPartialCheckDone (s : State) : Host.Outcome State Fault Refusal := done s s.partialCheckDone
/-- REGION_RELEASE. -/
def execRegionRelease (r : Fin 32) (s : State) : Host.Outcome State Fault Refusal := done s (s.regionRelease r.val)
/-- ABANDON: a write of PR_CMD with OP 1. -/
def execAbandon (v : Word) (s : State) : Host.Outcome State Fault Refusal := done s (s.prCmd ((v &&& 0xFFFFFFF0) ||| 1))
/-- RELOAD: a write of PR_CMD with OP 2. -/
def execReload (v : Word) (s : State) : Host.Outcome State Fault Refusal := done s (s.prCmd ((v &&& 0xFFFFFFF0) ||| 2))
/-- SCRUB_VISIT. -/
def execScrubVisit (s : State) : Host.Outcome State Fault Refusal := done s s.scrubVisit
/-- VOTE_FIX. -/
def execVoteFix (s : State) : Host.Outcome State Fault Refusal := done s s.voteFix
/-- MEMORY_BIT_FLIP. -/
def execMemoryBitFlip (t : FlipTarget) (s : State) : Host.Outcome State Fault Refusal := done s (s.memoryFlip t)

end Sys2Proof.Machine
end

