-- ==== Sys2Proof/Machine/Power.lean ====
section
/-! DEFINITION. Supplies, resets, PLLs, device standby and the battery domain (R414 to R426, R435, R436). -/

namespace Sys2Proof.Machine

/-! ## The battery domain (R222, R380, R435, R436) -/

/-- The battery domain without any supply loses its contents, and without VDD the vault does too. -/
def State.battLoses (s : State) : State :=
  let inVault (a : Nat) : Bool := a / 0x10000 == 0x5000
  let s1 : State := if s.pwr.vdd then s
    else { s with mem := s.mem.filter (fun p => !inVault p.1), ecc := s.ecc.filter (fun p => !inVault (4 * p.1)) }
  let s2 := ({ s1 with pwr := { s1.pwr with vbat := false, battLost := true } } : State).lcWith
    (fun x => { x with keyRam := none, service := none })
  [SAFE_RTCSEC_at, SAFE_TAMPCFG_at, SAFE_TAMPSTAT_at, VAULT_CNT_at].foldl (fun s a => s.setReg a (rstWord a))
    (s2.lcShow.setFld VAULT_STAT_LASTCAUSE 0)

/-- BATTERY_DOMAIN_LOSS: VBAT is lost while AVDD is absent. -/
def State.battLoss (s : State) : State := if s.pwr.avdd ∨ s.pwr.vbat = false then s else s.battLoses

/-- BATTERY_DOMAIN_RETURN: a supply returns to a domain that had none; SAFE_RTCSEC counts from 0 again (R454). -/
def State.battReturn (s : State) : State :=
  if s.pwr.avdd ∨ s.pwr.vbat then s
  else
    [SAFE_RTCSEC_at, SAFE_TAMPCFG_at, SAFE_TAMPSTAT_at].foldl (fun s a => s.setReg a (rstWord a))
      { s with pwr := { s.pwr with vbat := true } }

/-! ## Power-on and resets (R415 to R417, R379) -/

/-- RAIL_FALL: rail 0 VDD, 1 VDD_SDS, 2 VDDA, 3 AVDD or 4 VDDA5 falls below its threshold. -/
def State.railFall (s : State) (rail : Nat) : State :=
  let s1 : State := { s with
    pwr := { s.pwr with
      railsUp := false, held := true, released := false, ioEnabled := false, phase := .run
      vdd := s.pwr.vdd && rail != 0, avdd := s.pwr.avdd && rail != 3 }
    loader := State.reset.loader
    snap := none }
  let s2 := (s1.setFld CLK_STAT_LOCK 0).cmpsClear.dacsOff
  if s2.pwr.avdd = false ∧ s2.pwr.vbat = false then s2.battLoses else s2

/-- What power-on keeps: fuses, identity, the battery domain, and the levels of the banks (R417); and the ring of fault records while VDD
has stayed up, since only its rise clears it (R381; DESIGN CHOICE, log 101, as R417 has a power-on clear it). -/
def keptAtPowerOn (vdd : Bool) (a : Nat) : Bool :=
  (vdd && (a == SAFE_FRSTAT_at || (decide (SAFE_FREC_at 0 0 ≤ a) && decide (a < SAFE_FREC_at 16 0)))) ||
  a == SAFE_TAMPCFG_at || a == SAFE_TAMPSTAT_at || a == SAFE_RTCSEC_at || a == VAULT_STAT_at || a == VAULT_CNT_at || a == CFG_LC_at ||
  a == CFG_FUSE_at || a == CFG_UID_LO_at || a == CFG_UID_HI_at || a == XBAR_BANKSTAT_at

/-- The core domain as its rail brings it up; Sillage RAM and the number of the next entry stay where VDD stayed up (`kept`). -/
def State.powered (s : State) (kept : Bool) : State :=
  { s with
    mem := if kept then s.mem else s.mem.filter (fun p => p.1 / 0x1000000 != 0x52)
    pwr := { s.pwr with railsUp := true, held := true, vdd := true, avdd := true }
    safe := { State.reset.safe with seq := if kept then s.safe.seq else 0 } }

/-- POWER_ON: the last rail has risen and the power-on reset hold has ended; loading waits for RESET_N (log 55). A tamper event that met
the main part without VDD writes its entry here (R380), which POWERON, of the later kind, follows (R381). -/
def State.powerOn (s : State) : State :=
  if s.pwr.railsUp then s
  else
    let s1 := if s.pwr.avdd = false ∧ s.pwr.vbat = false then s.setReg SAFE_RTCSEC_at 0 else s
    let s2 := (s1.clearAll (keptAtPowerOn s.pwr.vdd)).powered s.pwr.vdd
    let s3 := (s2.setFld SAFE_RSTCAUSE_CAUSE 1).findRing
    (if s.safe.tamperLate then s3.tamperEntry else s3).faultEntry 7 0 0 0

/-- RESET_N_ASSERT: the device is held in reset (R416); the entry RESETN, RSTCAUSE 2 and SILLAGE_PREV follow (R387). -/
def State.resetAssert (s : State) : State :=
  if s.pwr.railsUp = false ∨ (s.pwr.held = true ∧ s.safe.wdReset = false) then s
  else
    let s0 : State := { s with safe := { s.safe with ticks := 0, usec := none }, loader := State.reset.loader }
    let s1 := ((s0.faultEntry 8 0 0 0).setFld SAFE_RSTCAUSE_CAUSE 2).keepSillage
    { ((s1.setFld CLK_STAT_LOCK 0).cmpsClear.dacsOff) with
      pwr := { s1.pwr with held := true, released := false, ioEnabled := false, phase := .run }
      safe := { s1.safe with wdReset := false } }

/-- INTERNAL_RESET_RELEASE: the hold of a watchdog or RETIRE reset ends, and loading begins (R379). -/
def State.internalRelease (s : State) : State :=
  if s.pwr.held ∧ s.safe.wdReset = true ∧ s.pwr.railsUp then s.startLoad else s

/-! ## PLLs (R418, R421, R163) -/

/-- Whether a PLL has been started: 0 system, 1 core, 2 analog, 3 lane, 4 PCIe. -/
def State.pllStarted (s : State) (i : Nat) : Bool :=
  match i with
  | 0 => s.pwr.railsUp && !s.pwr.held
  | 4 => s.pwr.railsUp && !s.pcie.perst && decide (s.pwr.phase ≠ .standby ∨ s.fb CLK_STBY_PCIEKEEP)
  | _ => s.pwr.railsUp && !s.pwr.held && decide (s.pwr.phase ≠ .standby) &&
      (s.pwr.released || (decide (s.loader.phase = .release) && !s.loader.part))

/-- MOD_CLK starts anew: the converters take it as a change of frequency (R163, R421). -/
def State.modRestart (s : State) : State :=
  (List.range 32).foldl (fun s n =>
    let f := modDiv (n / 8)
    State.adcApply (s.setFld f ((s.fld f + 1) % 8)) s false s.view (s.routeK n) n) s

/-- PLL_LOCK: the system PLL, and the last of those that a wake starts, end the CLOCK condition (R371, R421, R426); the clocks of the core PLL come back at their first tick boundary after it (R18, R421). -/
def State.pllLock (s : State) (i : Nat) : State :=
  if s.pllStarted i = false ∨ s.locked i = true then s
  else
    let s0 := s.orBit CLK_STAT_LOCK i
    let s0 := if i = 0 then s0.clockBad 1 false else if s0.locked 1 && s0.locked 2 && s0.locked 3 then s0.clockBad 2 false else s0
    let s1 : State := { s0 with pwr := { s0.pwr with since := if i = 4 then s.pwr.since else s.tb.now } }
    if i = 2 ∧ s.pwr.released then State.passedOver s (State.clocksStart s ((List.range 4).foldl State.cmpReturns s1.modRestart))
    else State.passedOver s (if i = 1 then State.clocksStand s s1 else s1)

/-- PLL_UNLOCK: a running PLL loses lock (R421). -/
def State.pllUnlock (s : State) (i : Nat) : State :=
  if s.locked i = false then s
  else
    let s1 := (s.offBit CLK_STAT_LOCK i).setFld CLK_IRQ_STAT_UNLOCK 1
    match i with
    | 0 => ({ s1 with tb := { s1.tb with nowValid := false }, safe := { s1.safe with usec := none } } : State).clockBad 1 true
    | 1 => State.reclockAll s s1
    | 3 => s1.linkDown
    | _ => s1

/-! ## The PCIe link (R394) -/

/-- The PCIe link is up. -/
def State.linkUp_ (s : State) : Bool := s.fb PCIE_STAT_LINKUP && !s.pcie.perst

/-- The configuration header returns to reset: what PCIE_STAT shows of it, too. -/
def State.headerReset (s : State) : State :=
  let s1 := { s with pcie := { State.reset.pcie with perst := s.pcie.perst } }
  (((((s1.setFld PCIE_STAT_D3 0).setFld PCIE_STAT_BME 0).setFld PCIE_STAT_MSIEN 0).setFld PCIE_STAT_MSIGRANT 0).setFld
    PCIE_STAT_LINKUP 0).setFld PCIE_STAT_GEN2 0

/-- LINK_DOWN (R394): the header is reset, PCIE_WIN stays. -/
def State.pcieDown (s : State) : State := if s.linkUp_ then s.headerReset.setFld PCIE_IRQ_STAT_LINKDOWN 1 else s

/-! ## Device standby (R422 to R426) -/

/-- STANDBY_REQUEST: a write of CLK_STBY. -/
def State.standbyRequest (s : State) (v : Word) : State :=
  let s1 := s.setFld CLK_STBY_PCIEKEEP (bits v.toNat 1 1)
  if v.toNat / 2 ^ 16 ≠ 0x5342 ∨ v.toNat.testBit 0 = false ∨ s.pwr.released = false ∨ s.pwr.phase ≠ .run then s1
  else if s.attarState ≠ 0 ∨ s.fb PR_STAT_BUSY ∨ s.snap.isSome ∨ s.fld CLK_WAKECFG_EN = 0 then s1.setFld CLK_IRQ_STAT_STBYREF 1
  else { s1 with pwr := { s1.pwr with phase := .armed, standbyAt := s.effTick } }

/-- A converter stops for standby: its conversion is abandoned, its queued trigger discarded, a measurement aborted. -/
def State.adcStandby (s : State) (n : Nat) : State :=
  let s1 := match (s.adcOf n).cal with
    | some c => s.calCode n c.op 4
    | none => s
  s1.setAdc n { s1.adcOf n with run := false, queued := false, cal := none, borrowed := none }

/-- STANDBY_ENTRY (R423). An endpoint that powers down loses its link as R394 says, and the Ubvel link falls with its PLL (DEDUCED, log
89). -/
def State.standbyEntry (s : State) : State :=
  if s.pwr.phase ≠ .armed ∨ s.tb.tick.toNat < s.pwr.standbyAt.toNat then s
  else
    let s1 := (s.toArrival.stores.map (·.1)).foldl State.storeEmpty s.toArrival
    let s2 := (s1.eng.map (·.1)).foldl State.closeTick s1
    let s3 := (s2.eng.map (·.1)).foldl (fun s t => s.setEng t { s.engOf t with layout := [], baseDone := [] }) s2
    let s4 := (List.range 32).foldl State.adcStandby s3
    let s5 := (List.range 16).foldl (fun s k => (List.range 4).foldl (fun s c =>
      if s.fbit (CMP_WAKE_WAKEEN k) c ∨ s.fb (CMP_STAT_ON k c) = false then s else s.cmpOff k c) s) s4
    let s6 := (List.range 32).foldl State.dacForce s5.cmpLevels.pinsTrip
    let s7 := [1, 2, 3].foldl (fun s i => s.offBit CLK_STAT_LOCK i) s6
    let s8 := (if s7.fb CLK_STBY_PCIEKEEP then s7 else (s7.offBit CLK_STAT_LOCK 4).pcieDown).linkDown
    let s9 : State := { s8 with
      pwr := { s8.pwr with phase := .standby }
      safe := { s8.safe with wd := none } }
    State.reclockAll s8 s9

/-- WAKE (R425): sources 0 CMP, 1 PIN, 2 ALARM, 3 MP that have met their condition, and the comparators that did. -/
def State.wake (s : State) (src : BitVec 4) (cmps : BitVec 64) : State :=
  let met := (List.range 64).filter (fun n =>
    cmps.toNat.testBit n && s.fbit (CMP_WAKE_WAKEEN (n / 4)) (n % 4) && s.cmpOn (n / 4) (n % 4) &&
      (s.cmpOf n).r != s.fb (CMP_CFG_POL (n / 4) (n % 4)))
  let alarm := s.reg SAFE_RTCSEC_at == s.reg CLK_ALARM_at
  let m := (src.toNat &&& 0xA) + b2n (src.toNat.testBit 0 && !met.isEmpty) + 4 * b2n (src.toNat.testBit 2 && alarm)
  let e := m &&& s.fld CLK_WAKECFG_EN
  if s.pwr.phase ≠ .standby ∨ e = 0 then s
  else
    let s1 := met.foldl (fun s n => s.orBit (CMP_WAKE_WOKE (n / 4)) (n % 4)) s
    { s1.setFld CLK_WAKESTAT_SRC e with pwr := { s1.pwr with phase := .waking, since := s.tb.now } }

/-- Whether the PLLs that R426 starts are locked again: core, analog and lane; PCIe training goes its own way (DEDUCED, log 89). -/
def State.relocked (s : State) : Bool := s.locked 1 && s.locked 2 && s.locked 3

/-- WAKE_LOCK_TIMEOUT (R426). -/
def State.wakeTimeout (s : State) : State := if s.pwr.phase = .waking ∧ s.relocked = false then s.clockBad 2 true else s

/-- RESUME_BOUNDARY (R426, R192, R200): the boundary of the first tick whose edge lies at least 1 µs after the last lock. -/
def State.resume (s : State) : State :=
  if s.pwr.phase ≠ .waking ∨ s.relocked = false ∨ (s.tb.edge - s.pwr.since).toInt < 200 then s
  else
    let s0 := s.toArrival
    let s1 : State := State.reclockAll s0 { s0 with
      pwr := { s0.pwr with phase := .run, stands := s0.pwr.stands / 2 ^ 24 * 2 ^ 24 }
      tickCopy := (List.range 40).foldl (fun t i => tset 0 t i (s0.tb.tick - 1)) s0.tickCopy }
    let s2 := s1.cmpsBack
    let s3 := ((List.range 32).filter (fun n => s2.sectRuns (n / 2))).foldl State.dacBoundary s2
    let s4 := ((s3.pinsBoundary.setFld CLK_IRQ_STAT_WAKE 1).addSat CLK_WAKESTAT_WAKES 1)
    if s4.fb SAFE_WDCFG_EN then s4.wdStart else s4

/-! ## The commands -/

/-- POWER_ON. -/
def execPowerOn (s : State) : Host.Outcome State Fault Refusal := done s s.powerOn
/-- RAIL_FALL. -/
def execRailFall (rail : Fin 5) (s : State) : Host.Outcome State Fault Refusal := done s (s.railFall rail.val)
/-- RESET_N_ASSERT. -/
def execResetNAssert (s : State) : Host.Outcome State Fault Refusal := done s s.resetAssert
/-- INTERNAL_RESET_RELEASE. -/
def execInternalResetRelease (s : State) : Host.Outcome State Fault Refusal := done s s.internalRelease
/-- PLL_LOCK. -/
def execPllLock (i : Fin 5) (s : State) : Host.Outcome State Fault Refusal := done s (s.pllLock i.val)
/-- PLL_UNLOCK. -/
def execPllUnlock (i : Fin 5) (s : State) : Host.Outcome State Fault Refusal := done s (s.pllUnlock i.val)
/-- STANDBY_REQUEST. -/
def execStandbyRequest (v : Word) (s : State) : Host.Outcome State Fault Refusal := done s (s.standbyRequest v)
/-- STANDBY_ENTRY. -/
def execStandbyEntry (s : State) : Host.Outcome State Fault Refusal := done s s.standbyEntry
/-- WAKE. -/
def execWake (src : BitVec 4) (cmps : BitVec 64) (s : State) : Host.Outcome State Fault Refusal := done s (s.wake src cmps)
/-- WAKE_LOCK_TIMEOUT. -/
def execWakeLockTimeout (s : State) : Host.Outcome State Fault Refusal := done s s.wakeTimeout
/-- RESUME_BOUNDARY. -/
def execResumeBoundary (s : State) : Host.Outcome State Fault Refusal := done s s.resume
/-- BATTERY_DOMAIN_LOSS. -/
def execBatteryDomainLoss (s : State) : Host.Outcome State Fault Refusal := done s s.battLoss
/-- BATTERY_DOMAIN_RETURN. -/
def execBatteryDomainReturn (s : State) : Host.Outcome State Fault Refusal := done s s.battReturn

end Sys2Proof.Machine
end

