-- ==== Sys2Proof/Machine/Access.lean ====
section
/-! DEFINITION. The device bus: what a register reads as, what reads and writes of registers and memories do by requester (R7 to R9,
R19 to R26, R216, R218, R303, R352, R390), posted writes and global loads of the engines, and the words of a DMA channel. -/

namespace Sys2Proof.Machine

/-- The number `i` below `n` with a = base + stride·i. -/
def idx (a base n stride : Nat) : Option Nat :=
  if base ≤ a ∧ (a - base) % stride = 0 ∧ (a - base) / stride < n then some ((a - base) / stride) else none

/-- A row that holds no register. -/
def noRow : RegRow := ⟨0, [], 0, 0, 0, 0, 0, 0, 0, 0, 0⟩

/-- The row of the register at `a`; an address without one holds nothing (R9). -/
def rowOf (a : Nat) : RegRow := (findRow regRows a).getD noRow

/-- The bits that read as their value: all but WO and reserved ones (R7, R9). -/
def RegRow.readable (r : RegRow) : Word :=
  BitVec.ofNat 32 (r.rw ||| r.ro ||| r.w1c ||| r.rc ||| r.rwl ||| r.rws ||| r.w1s)

/-! ## What a register reads as -/

/-- SYS registers that show conditions (R18, R29, chapter 01). -/
def State.sysView (s : State) (a : Nat) : Option Word :=
  if a = SYS_STATUS_at then
    let runs := (List.range 16).foldl (fun n k => n + b2n (s.sectRuns k) * 2 ^ (16 + k)) 0
    let slip := b2n (s.fb SYS_STATUS_TICK_SLIP) * 16
    some (BitVec.ofNat 32 (runs + b2n (s.fld CLK_STAT_LOCK != 0x1F) * 32 + slip + b2n s.tripped * 8 + b2n s.pairStandby * 4 +
      b2n (s.fb CFG_STAT_ERR) * 2 + b2n (s.fb SYS_STATUS_CFG_DONE)))
  else if a = SYS_SPEED_at then some (BitVec.ofNat 32 (0x10 + s.part.grade % 8))
  else if a = SYS_IRQ_PEND_at then some (BitVec.ofNat 32 s.irqPend)
  else none

/-- Timebase registers: the set latched for the requester (R47), encoders, and levels of the action stores (chapter 02). -/
def State.tbView (s : State) (req a : Nat) : Option Word :=
  let x := (tget none s.snaps req).getD ⟨0, 0, 0, 0, 0⟩
  if a = TB_NOW_HI_at then some (x.now.extractLsb' 32 32)
  else if a = TB_TICK_LO_at then some (x.tick.setWidth 32)
  else if a = TB_TICK_HI_at then some (BitVec.ofNat 32 (x.tick.toNat / 2 ^ 32))
  else if a = TB_ANGLE_at then some (x.pos.setWidth 32)
  else if a = TB_REV_at then some (x.pos.extractLsb' 32 32)
  else if a = TB_SPEED_at then some x.speed
  else if a = TB_MSTAT_at then some x.mstat
  else match idx a (TB_ENC_POS_at 0) 4 0x20 with
  | some i => some (s.encOf i).angle
  | none => match idx a (TB_QSTAT_at 0) 16 0x20 with
  | some k =>
    let n := (s.storeOf k).inUse
    some (BitVec.ofNat 32 (max n (s.fld (TB_QSTAT_HIGH k)) * 2 ^ 16 + n))
  | none => none

/-- Allocator registers: queue, fault log, capacities and loads (R106, R116, R119). -/
def State.allocView (s : State) (a : Nat) : Option Word :=
  let f := (s.flog.head?).getD ⟨0, ⟨0, 0, 0, 0⟩⟩
  if a = ALLOC_STATUS_at then
    some (ALLOC_STATUS_QUEUED.put (ALLOC_STATUS_BUSY.put (s.reg a) (b2n (!s.aq.isEmpty))) s.aq.length)
  else if a = ALLOC_FLOG_STAT_at then some (BitVec.ofNat 32 s.flog.length)
  else if a = ALLOC_FLOG_HANDLE_at then some f.handle
  else if a = ALLOC_FLOG_CAUSE_at then some (BitVec.ofNat 32 (f.info.pc % 2 ^ 12 * 256 + f.info.cause))
  else if a = ALLOC_FLOG_ADDR_at then some f.info.addr
  else if a = ALLOC_FLOG_TICK_at then some f.info.tick
  else match idx a (ALLOC_SECTCYC_at 0) 16 4 with
  | some k => some (BitVec.ofNat 32 (s.tickCycles k))
  | none => match idx a (ALLOC_SECTLIM_at 0) 16 4 with
  | some k => some (BitVec.ofNat 32 (limitOf (s.tickCycles k)))
  | none => match idx a (ALLOC_ENGLOAD_at 0) 256 4 with
  | some t => some (BitVec.ofNat 32 (s.peakLoad t none))
  | none => none

/-- Registers of a converter: status, ring, and result records with the snapshot of the requester (R160, R161). -/
def State.adcView (s : State) (req n o : Nat) : Option Word :=
  let x := s.adcOf n
  if o = 0xC then
    some (BitVec.ofNat 32 (x.cur * 256 + b2n x.queued * 16 + b2n x.borrowed.isSome * 8 + b2n (x.cal.any (fun c => !c.waiting)) * 4 + b2n x.run * 2))
  else if o = 0x28 then
    let sync := decide (x.ring.length = s.segments n) && x.ring.all (fun r => !r.2.2)
    some (BitVec.ofNat 32 (s.fld (ADC_ASYNC_STAT_CLAMPS n) * 2 ^ 16 + b2n sync * 512 + x.ring.length))
  else if 0x200 ≤ o ∧ o < 0x300 then
    let e := (o - 0x200) / 16
    let r := tget recReset x.recs e
    let snap := match tget none x.snaps req with
      | some (e', r') => if e' = e then r' else recReset
      | none => recReset
    some (match o % 16 with
      | 4 => snap.time
      | 8 => BitVec.ofNat 32 (b2n snap.nocal * 2 ^ 23 + snap.calset % 8 * 2 ^ 20 + b2n snap.sync * 2 ^ 19 + b2n snap.refbad * 2 ^ 18 +
          b2n snap.ovr * 2 ^ 17 + r.tag % 256 * 256 + snap.tag % 256)
      | _ => r.value)
  else none

/-- Registers of a bay window that show conditions (R60, R160, R174, R230). -/
def State.bayView (s : State) (req k o : Nat) : Option Word :=
  if 0x4000 ≤ o ∧ o < 0x6000 then s.adcView req (2 * k + (o / 0x1000 - 4)) (o % 0x1000)
  else if o = 0x60A0 then
    some (BitVec.ofNat 32 ((List.range 4).foldl (fun n c => n + b2n (s.fb (CMP_STAT_L k c)) * 2 ^ c) 0 +
      (List.range 2).foldl (fun n w => n + b2n (s.fb (CMP_WIN_STAT_WL k w)) * 2 ^ (4 + w)) 0))
  else if o = 0xC0C0 then
    some (BitVec.ofNat 32 (s.fld (STM_CAP_STAT_OVF k) * 2 ^ 24 +
      (List.range 8).foldl (fun n u => n + b2n (s.capOf k u).edgeBit * 2 ^ (16 + u)) 0))
  else if o = 0xC0C4 then some (BitVec.ofNat 32 ((List.range 8).foldl (fun n u => n + (s.capOf k u).fifo.length * 2 ^ (3 * u)) 0))
  else if o = 0xD040 then some (BitVec.ofNat 32 (2 * b2n (s.fb (FAB_STAT_HELD k)) + b2n (s.fabRuns (k / 2))))
  else none

/-- Registers of the CAN block that show FIFOs and levels (R398, R400, R405). -/
def State.fieldView (s : State) (a : Nat) : Option Word :=
  if a < SPI_CFG_at 0 then
    let m := (a - CAN_CFG_at 0) / 0x200
    let o := (a - CAN_CFG_at 0) % 0x200
    if o = 0xC then
      some ((CAN_STAT_RXLEVEL m).put ((CAN_STAT_TXPEND m).put (s.reg a) (s.canOf m).tx.length) (s.canOf m).rx.length)
    else if 0x180 ≤ o ∧ o ≤ 0x1C8 then some (s.canRx m ((o - 0x180) / 4))
    else none
  else match idx a (SPI_STAT_at 0) 16 0x40 with
  | some m => some (s.spiStat m)
  | none => match idx a (I2C_STAT_at 0) 8 0x40 with
  | some m => some (s.i2cStat m)
  | none => match idx a (UART_STAT_at 0) 8 0x40 with
  | some m => some (s.uartStat m)
  | none => none

/-- Registers of the remaining blocks that show conditions. -/
def State.miscView (s : State) (a : Nat) : Option Word :=
  if a = ATTAR_PEEK_DATA_at then some s.peekData
  else if a = CFG_LC_at then some (CFG_LC_SVCMIN.put (s.reg a) s.serviceMinutes)
  else if a = PAIR_STAT_at then some (PAIR_STAT_READY.put (s.reg a) (b2n s.ready))
  else if a = PAIR_TXQ_at then some (PAIR_TXQ_LEVEL.put (s.reg a) s.txUnits)
  else if a = SAFE_STAT_at then some s.safeStat
  else if a = SAFE_WDSTAT_at then some (SAFE_WDSTAT_ELAPSED.put (s.reg a) (min s.wdElapsed 0xFFFF))
  else match idx a (XBAR_INSRC_at 0) 868 4 with
  | some i => some (s.insrc i)
  | none => match idx a (BL_STAT_at 0) 8 0x100 with
  | some l => some ((BL_STAT_RUN l).put (s.reg a) (b2n (s.fb (BL_STAT_RUN l) && s.lineSends l (s.reg (BL_CFG_at l)))))
  | none => match idx a (GPIO_IN_at 0) 11 0x20 with
  | some g => some (s.gpioIn g)
  | none =>
    if 0x40009000 ≤ a ∧ a < 0x40009800 ∧ 0xC0 ≤ a % 0x100 then some (s.dlyWord ((a - 0x40009000) / 0x100) ((a % 0x100 - 0xC0) / 4))
    else none

/-- The value that a register shows where the device computes it. -/
def State.computed (s : State) (req a : Nat) : Option Word :=
  if regionOf a = .bay then s.bayView req (a / 0x10000 % 16) (a % 0x10000)
  else match a % 0x1000000 / 0x1000 with
  | 0x0 => s.sysView a
  | 0x1 => s.tbView req a
  | 0x2 => s.allocView a
  | 0xF => s.fieldView a
  | _ => s.miscView a

/-- What the register at `a` reads as for requester `req` (R7, R9). -/
def State.regView (s : State) (req a : Nat) : Word := (s.computed req a).getD (s.reg a) &&& (rowOf a).readable &&& BitVec.ofNat 32 (swBits a)

/-! ## Reading -/

/-- What the RC fields of a register read as once they have been read: the highest level since then is at first the level of now
(R59, R308), every other RC field is 0. -/
def State.rcRest (s : State) (a : Nat) : Word :=
  if a = PAIR_TXQ_at then BitVec.ofNat 32 (s.txUnits * 2 ^ 16)
  else match idx a (TB_QSTAT_at 0) 16 0x20 with
  | some k => BitVec.ofNat 32 ((s.storeOf k).inUse * 2 ^ 16)
  | none => 0

/-- An RC read clears the RC fields of the register (R7, R8). -/
def State.rcClear (s : State) (a : Nat) : State :=
  if (rowOf a).rc = 0 then s
  else s.setReg a ((s.reg a &&& ~~~(BitVec.ofNat 32 (rowOf a).rc)) ||| (s.rcRest a &&& BitVec.ofNat 32 (rowOf a).rc))

/-- The reads that pop a FIFO or take a snapshot (R47, R60, R160, R401). -/
def State.popRead (s : State) (req a : Nat) : Option (State × Word) :=
  let k := a / 0x10000 % 16
  let o := a % 0x10000
  if a = TB_NOW_LO_at then some (s.latchTime req, s.stamp)
  else if regionOf a = .bay then
    if 0xC0A0 ≤ o ∧ o < 0xC0C0 then
      let r := s.popCapture k ((o - 0xC0A0) / 4)
      some (r.1, r.2.getD 0)
    else if 0x4000 ≤ o ∧ o < 0x6000 ∧ 0x200 ≤ o % 0x1000 ∧ o % 0x1000 < 0x300 ∧ o % 16 = 0 then
      some (s.resLoRead req (2 * k + (o / 0x1000 - 4)) ((o % 0x1000 - 0x200) / 16))
    else none
  else match idx a (SPI_RX_at 0) 16 0x40 with
  | some m => some (s.spiRx m)
  | none => match idx a (I2C_RX_at 0) 8 0x40 with
  | some m => some (s.i2cRx m)
  | none => match idx a (UART_RX_at 0) 8 0x40 with
  | some m => some (s.uartRx m)
  | none => none

/-- A read of the register at the word address `a` by requester `req`. -/
def State.regRead (s : State) (req a : Nat) : State × Word := (s.popRead req a).getD (s.rcClear a, s.regView req a)

/-! ## Writing -/

/-- Whether the RWL fields of a register are closed: those of SAFE and IST after LOCK (R384), those of the image at all times (R346). -/
def State.rwlClosed (s : State) (a : Nat) : Bool :=
  let page := a % 0x1000000 / 0x1000
  if page = 0xD ∨ page = 0xE then s.fb SAFE_STAT_LOCKED else true

/-- A write of the word `v` acts on each bit as its access code says (R7); the RWS fields go to the staged copy (R236). -/
def State.plainWrite (s : State) (a : Nat) (v : Word) : State :=
  let r := rowOf a
  let w := s.reg a
  let take := BitVec.ofNat 32 (if s.rwlClosed a then r.rw else r.rw ||| r.rwl)
  let w1 := (w &&& ~~~take) ||| (v &&& take)
  let w2 := (w1 &&& ~~~(v &&& BitVec.ofNat 32 r.w1c)) ||| (v &&& BitVec.ofNat 32 r.w1s)
  let s1 := if w2 = w then s else s.setReg a w2
  if r.rws = 0 then s1 else s1.stageWord a v

/-- A write of SYS_IRQ_EOI (R30): the groups named that are still pending send their vectors again. -/
def State.irqEoi (s : State) (v : Word) : State :=
  let again := v.toNat &&& s.irqPend &&& (s.reg SYS_MSI_ENABLE_at).toNat
  if again = 0 then s else s.sendMsi again

/-- A write into the request buffer `b` at the offset `o` (R105, R106). -/
def State.rbStore (s : State) (req b o a : Nat) (v : Word) : State :=
  if o = 0 then s.rbCmd req b (v.toNat % 16) (v.toNat.testBit 4)
  else if (rowOf a).rw ≠ 0 then s.rbWrite req b a v
  else if s.owns req b = false ∨ s.fb (ALLOC_RB_CMD_PEND b) = true then s.turnAway req b else s

/-- A write of SAFE_WDCFG: the watchdog starts where EN becomes 1 (R377). -/
def State.wdConfig (s : State) (v : Word) : State :=
  let s1 := s.plainWrite SAFE_WDCFG_at v
  if s.fb SAFE_WDCFG_EN = false ∧ s1.fb SAFE_WDCFG_EN = true then s1.wdStart else s1

/-- A write of CFG_DEADLINE: open until the first word of an attempt of the host (R337). -/
def State.deadlineWrite (s : State) (v : Word) : State :=
  let x := s.loader
  if s.fb CFG_STAT_LOADING ∧ x.source = .host ∧ (x.phase ≠ .sync ∨ x.buf ≠ []) then s else s.plainWrite CFG_DEADLINE_at v

/-- Writes to the registers of a bay window that act (chapters 02, 05 to 07, 09). -/
def State.bayWrite (s : State) (k o a : Nat) (v : Word) : State :=
  if o = 0x20 then s.rcalGo k v
  else if 0x4000 ≤ o ∧ o < 0x6000 ∧ o % 0x1000 = 8 then (if v.toNat.testBit 0 then s.adcSwtrig (2 * k + (o / 0x1000 - 4)) else s)
  else if 0x4000 ≤ o ∧ o < 0x6000 ∧ o % 0x1000 = 0x40 then s.calCmd (2 * k + (o / 0x1000 - 4)) v
  else if o = 0x60A0 then s.latchWrite k v
  else if o = 0x800C ∨ o = 0x900C then
    (if v.toNat.testBit 7 then (s.plainWrite a v).shortClear (2 * k + (o / 0x1000 - 8)) else s.plainWrite a v)
  else if 0xC040 ≤ o ∧ o < 0xC080 then s.pwmDuty k ((o - 0xC040) / 4) v
  else if o = 0xD020 then s.injWrite k v
  else if 0xD100 ≤ o ∧ o < 0xD200 then
    let j := (o - 0xD100) / 0x20
    if o % 0x20 = 0xC then s.dmaCtrl k j v
    else if o % 0x20 < 0xC ∧ (s.dmaBusy k j ∨ s.dmaArmed k j) then s
    else s.plainWrite a v
  else if 0xD200 ≤ o ∧ o < 0xD220 then s.mbxWrite k ((o - 0xD200) / 4) v
  else if o = 0xD244 then s.mbxRing k v
  else s.plainWrite a v

/-- Writes to the CAN block that act (R397, R401 to R403). -/
def State.fieldWrite (s : State) (a : Nat) (v : Word) : State :=
  match idx a (CAN_CMD_at 0) 4 0x200 with
  | some m => s.canCmd m v
  | none => match idx a (SPI_TX_at 0) 16 0x40 with
  | some m => s.spiTx m v
  | none => match idx a (I2C_CMD_at 0) 8 0x40 with
  | some m => s.i2cCmd m v
  | none => match idx a (UART_TX_at 0) 8 0x40 with
  | some m => s.uartTx m v
  | none => s.plainWrite a v

/-- Writes to GPIO words (R263, R303). -/
def State.gpioWrite (s : State) (a : Nat) (v : Word) : State :=
  let g := (a - GPIO_OUT_at 0) / 0x20
  if g ≥ 11 then s
  else match (a - GPIO_OUT_at 0) % 0x20 with
  | 0x00 => s.gpioStore a g v
  | 0x04 => s.gpioStrobe a g v (· ||| ·)
  | 0x08 => s.gpioStrobe a g v (fun w b => w &&& ~~~b)
  | 0x0C => s.gpioStrobe a g v (· ^^^ ·)
  | 0x10 => s.gpioStore a g v
  | _ => s

/-- Writes to the allocator that act (R105, R106, R119, R121). -/
def State.allocWrite (s : State) (req a : Nat) (v : Word) : State :=
  if a = ALLOC_RBFREE_at then s.rbFree v
  else if a = ALLOC_FLOG_POP_at then s.flogPop v
  else if ALLOC_RB_CMD_at 0 ≤ a ∧ a < ALLOC_RB_CMD_at 16 then s.rbStore req ((a - ALLOC_RB_CMD_at 0) / 0x80) (a % 0x80) a v
  else match idx a (ALLOC_ENGHOLD_at 0) 8 4 with
  | some w => s.engHold w v
  | none => s.plainWrite a v

/-- Writes to the safe plane that act (R371, R374, R377, R384). -/
def State.safeWrite (s : State) (a : Nat) (v : Word) : State :=
  if a = SAFE_CTRL_at then s.safeCtrl v
  else if a = SAFE_WDKICK_at then s.kick v
  else if a = SAFE_WDCFG_at then s.wdConfig v
  else if a = SAFE_SRCEN_at then (if s.fb SAFE_STAT_LOCKED then s else s.srcenWrite v)
  else if a = SAFE_CMPTRIP_at 0 ∨ a = SAFE_CMPTRIP_at 1 then (s.plainWrite a v).cmpLevels
  else s.plainWrite a v

/-- Writes to the loader and the life cycle that act (R337, R339, R343). -/
def State.cfgWrite (s : State) (a : Nat) (v : Word) : State :=
  if CFG_LOADWIN_at 0 ≤ a ∧ a < CFG_LOADWIN_at 512 then s.streamWordIn .host v
  else if a = CFG_CMD_at then s.cfgCmd v
  else if a = CFG_LCCMD_at then s.lcCmd v
  else if a = CFG_DEADLINE_at then s.deadlineWrite v
  else s.plainWrite a v

/-- A write of SCRUB_CFG writes its three copies (R361); with EN = 0 no pass is in progress (R357, R362). -/
def State.scrubConfig (s : State) (v : Word) : State :=
  let s1 := (s.plainWrite SCRUB_CFG_at v).voteWritten SCRUB_CFG_at
  if s1.fb SCRUB_CFG_EN then s1 else s1.setFld SCRUB_STAT_RUNNING 0

/-- Writes to the registers of the other blocks that act. -/
def State.miscWrite (s : State) (req a : Nat) (v : Word) : State :=
  if a = SYS_IRQ_EOI_at then s.irqEoi v
  else if a = TB_HPOST_CTRL_at then
    let s1 := s.plainWrite a v
    if v.toNat.testBit 4 then s1.hpostGo (s1.fld TB_HPOST_CTRL_SECT) else s1
  else if a = TB_HCANCEL_at then s.hcancel (bits v.toNat 31 16)
  else if a = ATTAR_CMD_at then s.attarCmd req (v.toNat % 16) (bits v.toNat 5 4) (v.toNat.testBit 8)
  else if a = XBAR_LOCK_at then s.xbarLock req v
  else if a = PAIR_CTRL_at then s.pairCtrl v
  else if a = PR_CMD_at then s.prCmd v
  else if a = SCRUB_CFG_at then s.scrubConfig v
  else if a = CLK_STBY_at then s.standbyRequest v
  else if a = RETAIN_CMD_at then s.retainCmd v
  else if a = SILLAGE_CTRL_at then s.sillageCtrl v
  else if a = SILLAGE_MARK_at then s.sillageMark req v
  else if a = VAULT_WIPE_at then s.wipeCommand req v
  else s.plainWrite a v

/-- A permitted write of the word `v` to the register address `a` by requester `req`. -/
def State.regWrite (s : State) (req a : Nat) (v : Word) : State :=
  if regionOf a = .bay then s.bayWrite (a / 0x10000 % 16) (a % 0x10000) a v
  else match a % 0x1000000 / 0x1000 with
  | 0x2 => s.allocWrite req a v
  | 0x8 => s.gpioWrite a v
  | 0xB => s.cfgWrite a v
  | 0xE => s.safeWrite a v
  | 0xF => s.fieldWrite a v
  | _ => s.miscWrite req a v

/-! ## Accesses of the device bus -/

/-- The conditions of R25 that an access meets: outside every region, refused size, not permitted. -/
def State.busError (s : State) (req a size : Nat) (write : Bool) : Bool × Bool × Bool :=
  if regionOf a = .unmapped then (true, false, false) else (false, badSize (regionOf a) a size, s.denied req a write)

/-- Whether the loader function keeps the host off an address: before the release it reaches only the CFG block (R390). -/
def State.loaderGate (s : State) (req a : Nat) : Bool := decide (req = 403) && s.fb PCIE_STAT_LOADER && decide (a / 0x1000 ≠ 0x4000B)

/-- An access error: recorded for the host and the maintenance port (R25, R26). -/
def State.busRefuse (s : State) (req a : Nat) (e : Bool × Bool × Bool) : State :=
  if req ≥ 403 then s.accessError req a e.1 e.2.1 e.2.2 else s

/-- What a read does once the device bus serves it: the value, and how it ended. -/
def State.readOp (s : State) (req a size : Nat) : State × Nat × Ended :=
  let e := s.busError req a size false
  if s.loaderGate req a then (s, 0, .fine)
  else if e.1 || e.2.1 || e.2.2 then (s.busRefuse req a e, 0, .refused)
  else if regionOf a = .regs ∨ regionOf a = .bay then
    let r := s.regRead req a
    (r.1, r.2.toNat, .fine)
  else
    let r := s.regionRead a size
    (r.1, r.2.1, if r.2.2 then .ecc else .fine)

/-- A permitted write to a memory: a standby discards its own, a primary mirrors its scratchpads, tile RAMs and actuator images
(R303); in an actuator image only the image words take writes (R279). `coll` tells that a write of different data on port A meets it:
the write is discarded and recorded, and completes normally for its requester (R213). -/
def State.busStore (s : State) (req a size v : Nat) (coll : Bool) : State :=
  match regionOf a with
  | .vault => s.regionWrite a size v
  | .retain => s.regionWrite a size v
  | r =>
    if r = .image ∧ a % 0x100 ≥ 8 then s
    else if s.pairStandby ∧ req ≠ 400 then s.localWrite
    else if coll ∧ meetsPortA a size then s.collide (normalView a) req
    else (s.regionWrite a size v).toPartner "WRITE" [a, size, v % 2 ^ (8 * size)]

/-- What a write does once the device bus serves it, and how it ended. -/
def State.writeOp (s : State) (req a size : Nat) (v : Word) (coll : Bool) : State × Ended :=
  let e := s.busError req a size true
  if s.loaderGate req a then (s, .fine)
  else if e.1 || e.2.1 || e.2.2 then (s.busRefuse req a e, .refused)
  else if regionOf a = .regs ∨ regionOf a = .bay then (s.regWrite req a v, .fine)
  else (s.busStore req a size v.toNat coll, .fine)

/-- The device bus serves requests: out of reset, on SYS_CLK, which stands still in device standby up to the wake edge (R423, R426). -/
def State.busRuns (s : State) : Bool := !s.pwr.held && decide (s.pwr.phase ≠ .standby)

/-! ## Turns on the device bus (R19, R20) -/

/-- Whether a global load of LE[t] stands before the request of requester `req` that asked at `at_`: it has left its engine (R76), is
not served yet, and asked earlier or in the same cycle with the lower index (R19). -/
def Engine.loadBefore (en : Engine) (t req : Nat) (at_ : BitVec 64) : Bool :=
  en.buf.isEmpty && en.gload.any (fun g => g.got.isNone && (decide (g.asked.toNat < at_.toNat) || (g.asked == at_ && decide (t < req))))

/-- The global loads that stand before a request are served first (R19): each keeps what it has read until its response. DESIGN CHOICE
(log 11): what a read does beside that (R7) comes with the response, since a load cut off before it has no effect (R65). -/
def State.loadsFirst (s : State) (req : Nat) (at_ : BitVec 64) : State :=
  s.eng.foldl (fun s p => match p.2.gload with
    | some g =>
      if p.2.loadBefore p.1 req at_ then
        let r := s.readOp p.1 g.addr g.size
        s.setEng p.1 { s.engOf p.1 with gload := some { g with got := some (r.2.1, r.2.2) } }
      else s
    | none => s) s

/-- A read over the device bus that asks now: the value, and how it ended. -/
def State.busRead (s : State) (req a size : Nat) : State × Nat × Ended := (s.loadsFirst req s.tb.now).readOp req a size

/-- A write over the device bus that asks now, and how it ended. -/
def State.busWrite (s : State) (req a size : Nat) (v : Word) (coll : Bool) : State × Ended :=
  (s.loadsFirst req s.tb.now).writeOp req a size v coll

/-! ## Engines on the bus (R76, R88) -/

/-- A posted write of LE[t] is refused on the device bus: the channel that made it faults with a protection violation (R25), and an
activation of it that still runs ends. -/
def State.postFault (s : State) (t : Nat) (w : PostedWrite) : State :=
  let i := 16 * t + w.slot
  let c := s.chanOf i
  let s1 := if c.unreported.isSome then s
    else s.setChan i { c with unreported := some ⟨5, w.pc % 4096, BitVec.ofNat 32 w.addr, (s.sectOf (t / 16)).ttick⟩ }
  match (s1.engOf t).act with
  | some a => if a.slot = w.slot then s1.setAct t (some { a with ending := some .fault, stage := [], hazard := .none }) else s1
  | none => s1

/-- The engine once the oldest of its posted writes has entered the crossing FIFO: with the last of them a load that waited behind them
leaves the engine (R76). -/
def Engine.accepted (en : Engine) (r : List PostedWrite) (now : BitVec 64) : Engine :=
  { en with buf := r, gload := if r.isEmpty then en.gload.map (fun g => { g with asked := now }) else en.gload }

/-- POSTED_WRITE_ACCEPT (R76): the oldest posted write of LE[t] enters the crossing FIFO, and completes after the requests that stand
before it (R19). -/
def State.postedAccept (s : State) (t : Nat) (coll : Bool) : State :=
  let en := s.engOf t
  match en.buf with
  | [] => s
  | w :: r =>
    if s.busRuns = false ∨ s.sectRuns (t / 16) = false then s
    else
      let x := (s.setEng t (en.accepted r s.tb.now)).busWrite t w.addr w.size w.data coll
      match x.2 with
      | .refused => x.1.postFault t w
      | _ => x.1

/-- GLOBAL_LOAD_RESPONSE: the data of the blocking load returns after `n` cycles, and not before both crossings and a service of one
SYS_CLK cycle have passed (R88), once the posted writes before it have been accepted and the loads before it served; an uncorrectable
word faults with DATAERR, an access that is no longer permitted with PROT. A load that has not completed by the end of the budget has no
effect (R65). -/
def State.loadResponse (s : State) (t n : Nat) : State :=
  let en := s.engOf t
  match en.gload, en.act with
  | some g, some a =>
    if en.buf ≠ [] ∨ s.busRuns = false ∨ s.sectRuns (t / 16) = false then s
    else
      let n := max n (5 + s.sectUp (t / 16) 5)
      if a.used + n > a.budget then s.exhaust t a
      else
        let r := (s.loadsFirst t g.asked).readOp t g.addr g.size
        let got := g.got.getD (r.2.1, r.2.2)
        let s1 := r.1.setEng t { r.1.engOf t with gload := none }
        let a1 := { a with pc := a.pc - 1, used := a.used + (n - 1) }
        match got.2 with
        | .ecc => s1.chanFault t 7 (BitVec.ofNat 32 g.addr) 0 a1
        | .refused => s1.chanFault t 5 (BitVec.ofNat 32 g.addr) 0 a1
        | .fine =>
          let w := extend g.size got.1 g.sx
          s1.unblock t n a (fun b => (b.setPtr g.ptr g.ptrNew).setVal g.rd w) w
  | _, _ => s

/-! ## DMA words (R218, R220) -/

/-- The address of word `i` of a DMA address register. -/
def dmaAddr (base i : Nat) (fixed : Bool) : Nat := if fixed then base else (base + 4 * i) % 2 ^ 32

/-- DMA_WORD: the word in flight of channel `j` of sector `k` completes; `coll` tells that its write to a scratchpad met a write of
different data on port A (R213). -/
def State.dmaWord (s : State) (k j : Nat) (coll : Bool) : State :=
  if s.dmaBusy k j = false ∨ s.sectRuns k = false ∨ s.busRuns = false then s
  else
    let req := 256 + 8 * k + j
    let i := s.fld (DMA_STAT_DONE k j)
    let dst := dmaAddr (s.fld (DMA_DST_DST k j)) i (s.fb (DMA_CTRL_DFIX k j))
    let r := s.busRead req (dmaAddr (s.fld (DMA_SRC_SRC k j)) i (s.fb (DMA_CTRL_SFIX k j))) 4
    match r.2.2 with
    | .refused => r.1.dmaEnd k j 4
    | .ecc => r.1.dmaEnd k j 3
    | .fine =>
      let e := r.1.busError req dst 4 true
      if e.1 || e.2.1 || e.2.2 then r.1.dmaEnd k j 4
      else if coll ∧ (regionOf dst = .scratch 0 ∨ regionOf dst = .scratch 3) ∧ r.1.pairStandby = false then
        (r.1.collide (normalView dst) req).dmaEnd k j 2
      else
        let s1 := (r.1.busWrite req dst 4 (BitVec.ofNat 32 r.2.1) false).1
        let s2 := s1.setFld (DMA_STAT_DONE k j) (i + 1)
        if i + 1 ≥ s.fld (DMA_COUNT_COUNT k j) then s2.dmaEnd k j 1
        else if tget false s.dmaAbort (8 * k + j) then s2.dmaEnd k j 5
        else s2

/-! ## The commands -/

/-- REGISTER_WRITE: a write of `size` bytes over the device bus; `coll` tells that it meets a write on port A (R213). -/
def execRegisterWrite (req : Fin 405) (a : Word) (size : Nat) (v : BusWord) (s : State) :
    Host.Outcome State Fault Refusal :=
  done s (if s.busRuns then (s.busWrite req.val a.toNat size v.v v.coll).1 else s)
/-- STAGED_WRITE: a word is written to a register with RWS fields (R7, R236): a write of the device bus like any other, whose RWS
fields go to the staged copy and whose other fields act. -/
def execStagedWrite (a : StagedAt) (v : Word) (s : State) : Host.Outcome State Fault Refusal :=
  done s (if s.busRuns then (s.busWrite a.req.val a.a.toNat 4 v false).1 else s)
/-- RC_REGISTER_READ: a read of `size` bytes over the device bus. -/
def execRcRegisterRead (req : Fin 405) (a : Word) (size : Nat) (s : State) : Host.Outcome State Fault Refusal :=
  done s (if s.busRuns then
      (s.busRead req.val a.toNat size).1.emit (.readData req.val a.toNat (BitVec.ofNat 32 (s.busRead req.val a.toNat size).2.1))
    else s)
/-- SYS_IRQ_EOI. -/
def execSysIrqEoi (v : Word) (s : State) : Host.Outcome State Fault Refusal := done s (s.irqEoi v)
/-- POSTED_WRITE_ACCEPT. -/
def execPostedWriteAccept (t : Accepted) (s : State) : Host.Outcome State Fault Refusal := done s (s.postedAccept t.t.val t.coll)
/-- GLOBAL_LOAD_RESPONSE. -/
def execGlobalLoadResponse (t : Fin 256) (n : Nat) (s : State) : Host.Outcome State Fault Refusal := done s (s.loadResponse t.val n)
/-- DMA_WORD. -/
def execDmaWord (k : Fin 16) (j : Fin 8) (coll : Bool) (s : State) : Host.Outcome State Fault Refusal :=
  done s (s.dmaWord k.val j.val coll)

end Sys2Proof.Machine
end

