-- ==== Sys2Proof/Machine/Host.lean ====
section
/-! DEFINITION. The PCIe endpoint and the maintenance port (R389 to R395, R409 to R413, R341, R337). -/

namespace Sys2Proof.Machine

/-! ## The endpoint -/

/-- The device address behind an offset of BAR0 (R391). -/
def State.barAddr (s : State) (x : Nat) : Nat :=
  (if x / 0x400000 = 15 then 0x40000000 else s.fld (PCIE_WIN_BASE (x / 0x400000)) * 0x400000) + x % 0x400000

/-- The accesses of a dword by its byte enables (R392): byte offset and size, in ascending order. -/
def lanesOf (be : Nat) : List (Nat × Nat) :=
  match be with
  | 0xF => [(0, 4)]
  | 0x3 => [(0, 2)]
  | 0xC => [(2, 2)]
  | _ => (bitList be 4).map (fun i => (i, 1))

/-- Whether the function decodes memory requests (R389). -/
def State.decodes (s : State) : Bool := s.linkUp_ && s.pcie.mse && !s.fb PCIE_STAT_D3

/-- UNSUPPORTED_REQUEST (R392): counted and answered with UR. -/
def State.unsupported (s : State) : State :=
  if s.linkUp_ then (s.addSat PCIE_CNT_UR 1).emit (.message "UR" []) else s

/-- One dword of a write (R392); `coll` tells that it meets a write on port A (R213). -/
def State.putDword (s : State) (x be : Nat) (v : Word) (coll : Bool) : State :=
  (lanesOf be).foldl (fun s p => (s.busWrite 403 (s.barAddr x + p.1) p.2 (v >>> (8 * p.1)) coll).1) s

/-- The dwords of a write in ascending address order; bit j of `colls` belongs to dword j. -/
def State.putDwords (s : State) (x colls : Nat) : List (Nat × Word) → State
  | [] => s
  | (be, v) :: r => (s.putDword x be v (colls.testBit 0)).putDwords (x + 4) (colls / 2) r

/-- PCIE_MEMORY_WRITE (R390, R392): a poisoned write is discarded whole; with memory decode off the request is unsupported. -/
def State.memoryWrite (s : State) (x : Nat) (dws : List (Nat × Word)) (poison : Bool) (colls : Nat) : State :=
  if s.decodes = false then s.unsupported
  else if poison then (s.addSat PCIE_CNT_POISONED 1).setFld PCIE_IRQ_STAT_POISON 1
  else if s.busRuns then s.putDwords x colls dws else s

/-- The dwords of a read (R392). -/
def State.getDwords (s : State) (x : Nat) : Nat → State × List Nat
  | 0 => (s, [])
  | n + 1 =>
    let r := s.busRead 403 (s.barAddr x) 4
    let q := r.1.getDwords (x + 4) n
    (q.1, r.2.1 :: q.2)

/-- PCIE_MEMORY_READ (R392): the completions carry the dwords in address order. -/
def State.memoryRead (s : State) (x n : Nat) : State :=
  if s.decodes = false then s.unsupported
  else if s.busRuns then (s.getDwords x n).1.emit (.message "CPLD" (s.getDwords x n).2) else s

/-- MSI_RELEASE (R393): the held messages leave, lowest vector first. -/
def State.msiRelease (s : State) : State :=
  if s.msiOpen then { s with outbox := s.outbox ++ s.msiHeld.map (fun v => Output.msi (v % s.pcie.grant)), msiHeld := [] } else s

/-- What PERST_N does to a host load in progress (R341): HOST begins the attempt again, HOSTF goes on with its flash. No code is named
for that failure: it carries a free one. -/
def State.perstLoad (s : State) : State :=
  if s.pwr.released = false ∧ s.loader.source = .host ∧ s.loader.phase ≠ .idle then
    if s.fld CFG_STAT_MODE = 4 then s.fresh.failHere (1 + s.free.toNat % 0x13)
    else s.attemptClear.attempt .host false
  else s

/-- PERST (R394): the endpoint, its header, the PCIE block and the held MSIs return to reset; the PCIe PLL stops. -/
def State.perstLow (s : State) : State :=
  if s.pcie.perst then s
  else
    let s1 : State := { s with
      pcie := { State.reset.pcie with perst := true }
      msiHeld := []
      regs := s.regs.filter (fun p => p.1 / 0x1000 != 0x40010) }
    (((s1.setB PCIE_STAT_LOADER (!s.pwr.released)).setFld PCIE_IRQ_STAT_PERST 1).offBit CLK_STAT_LOCK 4).perstLoad

/-- PERST_N_RELEASE (R390, R394): the PCIe PLL may lock and the endpoint trains. -/
def State.perstHigh (s : State) : State := { s with pcie := { s.pcie with perst := false } }

/-- PCIE_LINK_TRAINED (R390). -/
def State.pcieTrained (s : State) (gen2 : Bool) : State :=
  if s.pcie.perst = false ∧ s.locked 4 = true then (s.setFld PCIE_STAT_LINKUP 1).setB PCIE_STAT_GEN2 gen2 else s

/-- The dword `r` of the configuration header (R389, R391): Vendor and Device ID, the enables, the class code and the Revision ID, a
Type 0 header, BAR0 of 64 MB, and the 64-bit MSI capability of 8 vectors at the place that the part gives it. Where fields stand in a dword
is that of the PCI Express Base Specification 2.1, which R389 names (PRESUMED, log 100); other bits and dwords are free. -/
def State.header (s : State) (r : Nat) : Word :=
  if r = 0 then 0x82561F4C
  else if r = 1 then (s.free &&& 0xFFEFFFF9) ||| BitVec.ofNat 32 (0x100000 + 2 * b2n s.pcie.mse + 4 * b2n s.pcie.bme)
  else if r = 2 then BitVec.ofNat 32 (0x11800000 + s.fld SYS_REVISION_MAJOR)
  else if r = 3 then s.free &&& 0xFF00FFFF
  else if r = 4 then s.pcie.bar
  else if r = Config.msiDword.toNat then
    (s.free &&& 0xFF00FF00) ||| BitVec.ofNat 32 (0x860005 + 0x10000 * b2n s.pcie.msiEn + 0x100000 * s.fld PCIE_STAT_MSIGRANT)
  else s.free

/-- PCIE_CONFIG_REQUEST (R389): a read answers a dword of the header; otherwise Memory Space Enable, BAR0, Bus Master Enable, MSI Enable,
D3hot and the grant stand as the request leaves them. The first enabling of memory space starts the deadline of a host load (R337). -/
def State.configRequest (s : State) (h : HeaderAccess) (bme msiEn d3 : Bool) (grant : Nat) : State :=
  if s.linkUp_ = false then s
  else match h.read with
  | some r => s.fresh.emit (.message "CPL" [r.val, (s.header r.val).toNat])
  | none =>
    let mse := h.mse
    let s1 := { s with pcie := ⟨mse, bme, msiEn, 2 ^ grant, s.pcie.perst, h.bar &&& 0xFC000000⟩ }
    let s2 := (((s1.setB PCIE_STAT_D3 d3).setB PCIE_STAT_BME bme).setB PCIE_STAT_MSIEN msiEn).setFld PCIE_STAT_MSIGRANT grant
    if mse ∧ s.loader.source = .host ∧ s.loader.phase ≠ .idle ∧ s.pwr.released = false ∧ s.loader.deadline = none then
      { s2 with loader := { s2.loader with deadline := some s2.tb.now } }
    else s2

/-! ## The maintenance port -/

/-- The CRC of a request (R409): over CMD, ADDR and DATA, each least significant bit first. -/
def mpSum (cmd : Nat) (ws : List Word) : BitVec 8 := crc8 (lsbBits 8 cmd ++ ws.flatMap (fun w => lsbBits 32 w.toNat))

/-- The words of an answer (R409, R410): STATUS, DATA and their CRC. -/
def mpAnswer (status : Nat) (data : Word) : List Nat :=
  [status, data.toNat, (crc8 (lsbBits 4 status ++ lsbBits 32 data.toNat)).toNat]

/-- The answer to a request (R409, R410). -/
def State.mpReply (s : State) (status : Nat) (data : Word) : State := s.emit (.message "MP" (mpAnswer status data))

/-- Whether the device bus serves the port: up to the resume boundary a transaction ends with TIMEOUT (R425). -/
def State.mpRuns (s : State) : Bool := s.busRuns && s.awake

/-- The registers that the port reads on the path of R382. -/
def faultPath (a : Nat) : Bool := a == SAFE_FRSTAT_at || (decide (SAFE_FREC_at 0 0 ≤ a ∧ a < SAFE_FREC_at 16 0) && a % 4 == 0)

/-- READ (R382, R409 to R411). -/
def State.mpRead (s : State) (a : Nat) (good : Bool) : State :=
  if good = false then s.mpReply 3 0
  else if s.lc.state = 4 then s.mpReply 1 0
  else if faultPath a then s.mpReply 0 (s.regView 404 a)
  else if s.lc.state = 2 then s.mpReply 1 0
  else if s.mpRuns = false then s.mpReply 5 0
  else
    let r := s.busRead 404 a 4
    if r.2.2 = .refused then r.1.mpReply 2 0 else r.1.mpReply 0 (BitVec.ofNat 32 r.2.1)

/-- WRITE (R409 to R411). -/
def State.mpWrite (s : State) (a : Nat) (v : Word) (good coll : Bool) : State :=
  if good = false then s.mpReply 3 0
  else if s.lc.state = 4 ∨ s.lc.state = 2 then s.mpReply 1 0
  else if s.mpRuns = false then s.mpReply 5 0
  else
    let r := s.busWrite 404 a 4 v coll
    r.1.mpReply (if r.2 = .refused then 2 else 0) 0

/-- An engine command on slot `k` of LE[t] (R410, R411): `mask` holds the address bits that it uses; its answer is the state, the
status and the data. DESIGN CHOICE (log 88): where several statuses apply, CRC comes first, then DENIED, BADCMD, ROLE and TIMEOUT. -/
def State.mpEngine (s : State) (addr mask : Word) (good : Bool) (f : State → Nat → Nat → State × Nat × Word) : State :=
  let t := bits addr.toNat 19 12
  if good = false then s.mpReply 3 0
  else if s.lc.state = 4 ∨ s.lc.state = 2 ∨ (s.lc.state = 3 ∧ s.secure t = true) then s.mpReply 1 0
  else if addr &&& ~~~mask ≠ 0 then s.mpReply 7 0
  else if s.fld PAIR_STAT_ROLE ≠ 0 then s.mpReply 6 0
  else if s.mpRuns = false then s.mpReply 5 0
  else
    let r := f s t (bits addr.toNat 11 8)
    r.1.mpReply r.2.1 r.2.2

/-- HALT (R412). -/
def State.halt (s : State) (t k : Nat) : State × Nat × Word :=
  let c := s.slotOf t k
  if c.st.live = false ∨ c.stop.isSome then (s, 4, 0) else (s.setChan (16 * t + k) { c with halt := some 0 }, 0, 0)

/-- RESUME and STEP (R412). -/
def State.resumeChan (s : State) (step : Bool) (t k : Nat) : State × Nat × Word :=
  let c := s.slotOf t k
  if c.st = .free ∨ c.stop.isNone then (s, 4, 0) else (s.setChan (16 * t + k) { c with resume := some step }, 0, 0)

/-- BRKSET (R412): BRK is armed on every slot, and with PCEN the one PC breakpoint is set. -/
def State.brkSet (s : State) (v : Word) (t k : Nat) : State × Nat × Word :=
  let en := s.engOf t
  if (s.slotOf t k).st = .free then (s, 4, 0)
  else (s.setEng t { en with brk := true, bp := if v.toNat.testBit 31 then some (k, bits v.toNat 11 0) else en.bp }, 0, 0)

/-- BRKCLR (R412). -/
def State.brkClr (s : State) (t _k : Nat) : State × Nat × Word :=
  (s.setEng t { s.engOf t with brk := false, bp := none }, 0, 0)

/-- The value of register `r` of a stopped channel (R413); none where it is unlisted. BUDGET has no value without an activation: free.
CYC counts from the boundary of the current tick. -/
def State.debugReg (s : State) (t k r : Nat) : Option Word :=
  let c := s.slotOf t k
  let b := c.bank
  let a : Act := ⟨k, b.pc, 0, c.budget, 0, none, [], .none, false, false, none, [], 0, 0, 0⟩
  if r < 0x10 then some (b.val r)
  else if r = 0x10 then some (b.acc0.setWidth 32)
  else if r = 0x11 then some ((b.acc0.extractLsb' 32 16).signExtend 32)
  else if r = 0x12 then some (b.acc1.setWidth 32)
  else if r = 0x13 then some ((b.acc1.extractLsb' 32 16).signExtend 32)
  else if r = 0x14 then some (BitVec.ofNat 32 (b.pc % 4096))
  else if r = 0x23 then some (s.free &&& 0x7FFFF)
  else if r = 0x24 then some (BitVec.ofNat 32 (s.toSect (t / 16) ((s.tb.now - s.tb.edge).toNat - 64) % 2 ^ 19))
  else if r = 0x3F then some (BitVec.ofNat 32 (b2n c.stop.isSome + 2 * c.stop.getD 0))
  else if 0x20 ≤ r ∧ specialRead (r - 0x20) = true then some (Eff.special ⟨s, t, c, a⟩ (r - 0x20))
  else none

/-- RDREG (R412, R413). -/
def State.readDebug (s : State) (r t k : Nat) : State × Nat × Word :=
  match s.debugReg t k r with
  | none => (s, 7, 0)
  | some w =>
    if (s.slotOf t k).st = .free ∨ (s.slotOf t k).stop.isNone then (s, 4, 0) else (if r = 0x23 then s.fresh else s, 0, w)

/-- The bank after a write of register `r` (R413); none where it is unlisted or read-only. -/
def Bank.debugWrite (b : Bank) (r : Nat) (v : Word) : Option Bank :=
  if r < 0x10 then some (b.setVal r v)
  else if r = 0x10 then some { b with acc0 := b.acc0.extractLsb' 32 16 ++ v }
  else if r = 0x11 then some { b with acc0 := v.setWidth 16 ++ b.acc0.setWidth 32 }
  else if r = 0x12 then some { b with acc1 := b.acc1.extractLsb' 32 16 ++ v }
  else if r = 0x13 then some { b with acc1 := v.setWidth 16 ++ b.acc1.setWidth 32 }
  else if r = 0x14 then some { b with pc := v.toNat % 4096 }
  else if 0x20 ≤ r ∧ specialWrite (r - 0x20) = true then some (b.setSpecial (r - 0x20) v)
  else none

/-- WRREG (R412, R413). -/
def State.writeDebug (s : State) (r : Nat) (v : Word) (t k : Nat) : State × Nat × Word :=
  let c := s.slotOf t k
  match c.bank.debugWrite r v with
  | none => (s, 7, 0)
  | some b => if c.st = .free ∨ c.stop.isNone then (s, 4, 0) else (s.setChan (16 * t + k) { c with bank := b }, 0, 0)

/-! ## The commands -/

/-- PCIE_MEMORY_WRITE. -/
def execPcieMemoryWrite (off : BitVec 26) (dws : WriteDwords) (poison : Bool) (s : State) : Host.Outcome State Fault Refusal :=
  done s (s.memoryWrite off.toNat dws.dws poison dws.colls)
/-- PCIE_MEMORY_READ. -/
def execPcieMemoryRead (off : BitVec 26) (n : Nat) (s : State) : Host.Outcome State Fault Refusal := done s (s.memoryRead off.toNat n)
/-- UNSUPPORTED_REQUEST. -/
def execUnsupportedRequest (s : State) : Host.Outcome State Fault Refusal := done s s.unsupported
/-- MSI_RELEASE. -/
def execMsiRelease (s : State) : Host.Outcome State Fault Refusal := done s s.msiRelease
/-- PERST. -/
def execPerst (s : State) : Host.Outcome State Fault Refusal := done s s.perstLow
/-- PERST_N_RELEASE. -/
def execPerstNRelease (s : State) : Host.Outcome State Fault Refusal := done s s.perstHigh
/-- LINK_DOWN. -/
def execLinkDown (s : State) : Host.Outcome State Fault Refusal := done s s.pcieDown
/-- PCIE_LINK_TRAINED. -/
def execPcieLinkTrained (gen2 : Bool) (s : State) : Host.Outcome State Fault Refusal := done s (s.pcieTrained gen2)
/-- PCIE_CONFIG_REQUEST. -/
def execPcieConfigRequest (h : HeaderAccess) (bme msiEn d3 : Bool) (grant : Fin 4) (s : State) : Host.Outcome State Fault Refusal :=
  done s (s.configRequest h bme msiEn d3 grant.val)
/-- READ. -/
def execRead (addr : Word) (crc : BitVec 8) (s : State) : Host.Outcome State Fault Refusal := done s (s.mpRead addr.toNat (crc == mpSum 0x1 [addr]))
/-- WRITE. -/
def execWrite (addr : Word) (v : BusWord) (crc : BitVec 8) (s : State) : Host.Outcome State Fault Refusal :=
  done s (s.mpWrite addr.toNat v.v (crc == mpSum 2 [addr, v.v]) v.coll)
/-- HALT. -/
def execHalt (addr : Word) (crc : BitVec 8) (s : State) : Host.Outcome State Fault Refusal :=
  done s (s.mpEngine addr 0xFFF00 (crc == mpSum 0x10 [addr]) State.halt)
/-- RESUME. -/
def execResume (addr : Word) (crc : BitVec 8) (s : State) : Host.Outcome State Fault Refusal :=
  done s (s.mpEngine addr 0xFFF00 (crc == mpSum 0x11 [addr]) (fun s => s.resumeChan false))
/-- STEP. -/
def execStep (addr : Word) (crc : BitVec 8) (s : State) : Host.Outcome State Fault Refusal :=
  done s (s.mpEngine addr 0xFFF00 (crc == mpSum 0x12 [addr]) (fun s => s.resumeChan true))
/-- BRKSET. -/
def execBrkset (addr v : Word) (crc : BitVec 8) (s : State) : Host.Outcome State Fault Refusal :=
  done s (s.mpEngine addr 0xFFF00 (crc == mpSum 0x13 [addr, v]) (fun s => s.brkSet v))
/-- BRKCLR. -/
def execBrkclr (addr : Word) (crc : BitVec 8) (s : State) : Host.Outcome State Fault Refusal :=
  done s (s.mpEngine addr 0xFF000 (crc == mpSum 0x14 [addr]) State.brkClr)
/-- RDREG. -/
def execRdreg (addr : Word) (crc : BitVec 8) (s : State) : Host.Outcome State Fault Refusal :=
  done s (s.mpEngine addr 0xFFFFF (crc == mpSum 0x15 [addr]) (fun s => s.readDebug (bits addr.toNat 7 0)))
/-- WRREG. -/
def execWrreg (addr v : Word) (crc : BitVec 8) (s : State) : Host.Outcome State Fault Refusal :=
  done s (s.mpEngine addr 0xFFFFF (crc == mpSum 0x16 [addr, v]) (fun s => s.writeDebug (bits addr.toNat 7 0) v))
/-- MP_TIMEOUT (R409): the request has not completed in time. -/
def execMpTimeout (s : State) : Host.Outcome State Fault Refusal := done s (s.mpReply 5 0)

end Sys2Proof.Machine
end

