-- ==== Sys2Proof/Machine/Dispatch.lean ====
section
/-! DEFINITION. One arm for each command: one call of its meaning. -/

namespace Sys2Proof.Machine

/-- The effect of a command on everything but the queue. -/
def exec (i : Instr) (s : State) : Host.Outcome State Fault Refusal :=
  match i with
  | .tickEdge => Sys2Proof.Machine.execTickEdge s
  | .tickBoundary d => Sys2Proof.Machine.execTickBoundary d s
  | .registerWrite req a size v => Sys2Proof.Machine.execRegisterWrite req a size v s
  | .sysIrqEoi v => Sys2Proof.Machine.execSysIrqEoi v s
  | .eventDelivery e d => Sys2Proof.Machine.execEventDelivery e d s
  | .encoderEdge i1 k => Sys2Proof.Machine.execEncoderEdge i1 k s
  | .indexEdge i1 forward => Sys2Proof.Machine.execIndexEdge i1 forward s
  | .ssiRead i1 => Sys2Proof.Machine.execSsiRead i1 s
  | .ssiSample i1 data parity frame => Sys2Proof.Machine.execSsiSample i1 data parity frame s
  | .encoderTimeout i1 => Sys2Proof.Machine.execEncoderTimeout i1 s
  | .tbNowLoRead req => Sys2Proof.Machine.execTbNowLoRead req s
  | .hpostGo k => Sys2Proof.Machine.execHpostGo k s
  | .hcancel mask => Sys2Proof.Machine.execHcancel mask s
  | .hresultDone => Sys2Proof.Machine.execHresultDone s
  | .arm k => Sys2Proof.Machine.execArm k s
  | .fire k => Sys2Proof.Machine.execFire k s
  | .assembly l => Sys2Proof.Machine.execAssembly l s
  | .entryFree k => Sys2Proof.Machine.execEntryFree k s
  | .cancelArm k n => Sys2Proof.Machine.execCancelArm k n s
  | .pwmPeriodStart k j => Sys2Proof.Machine.execPwmPeriodStart k j s
  | .pwmDutyWrite k n v => Sys2Proof.Machine.execPwmDutyWrite k n v s
  | .captureEdge k u level n => Sys2Proof.Machine.execCaptureEdge k u level n s
  | .capDataRead req k u => Sys2Proof.Machine.execCapDataRead req k u s
  | .qdEdge k q e => Sys2Proof.Machine.execQdEdge k q e s
  | .qdPosWrite k q v => Sys2Proof.Machine.execQdPosWrite k q v s
  | .activationStart t => Sys2Proof.Machine.execActivationStart t s
  | .preempt t => Sys2Proof.Machine.execPreempt t s
  | .activationEnd t w => Sys2Proof.Machine.execActivationEnd t w s
  | .postedWriteAccept t => Sys2Proof.Machine.execPostedWriteAccept t s
  | .globalLoadResponse t n => Sys2Proof.Machine.execGlobalLoadResponse t n s
  | .faultReport t k => Sys2Proof.Machine.execFaultReport t k s
  | .channelRelease t k => Sys2Proof.Machine.execChannelRelease t k s
  | .illegal t => Sys2Proof.Machine.execIllegal t s
  | .add t => Sys2Proof.Machine.execAdd t s
  | .sub t => Sys2Proof.Machine.execSub t s
  | .adds t => Sys2Proof.Machine.execAdds t s
  | .subs t => Sys2Proof.Machine.execSubs t s
  | .and_ t => Sys2Proof.Machine.execAnd t s
  | .or_ t => Sys2Proof.Machine.execOr t s
  | .xor t => Sys2Proof.Machine.execXor t s
  | .andn t => Sys2Proof.Machine.execAndn t s
  | .shl t => Sys2Proof.Machine.execShl t s
  | .shr t => Sys2Proof.Machine.execShr t s
  | .sar t => Sys2Proof.Machine.execSar t s
  | .shls t => Sys2Proof.Machine.execShls t s
  | .min_ t => Sys2Proof.Machine.execMin t s
  | .max_ t => Sys2Proof.Machine.execMax t s
  | .abs t => Sys2Proof.Machine.execAbs t s
  | .neg t => Sys2Proof.Machine.execNeg t s
  | .mulq31 t => Sys2Proof.Machine.execMulq31 t s
  | .mulq16 t => Sys2Proof.Machine.execMulq16 t s
  | .mul t => Sys2Proof.Machine.execMul t s
  | .clamp t => Sys2Proof.Machine.execClamp t s
  | .mac t => Sys2Proof.Machine.execMac t s
  | .msu t => Sys2Proof.Machine.execMsu t s
  | .mpy t => Sys2Proof.Machine.execMpy t s
  | .rda t => Sys2Proof.Machine.execRda t s
  | .wra t => Sys2Proof.Machine.execWra t s
  | .clra t => Sys2Proof.Machine.execClra t s
  | .adda t => Sys2Proof.Machine.execAdda t s
  | .eq t => Sys2Proof.Machine.execEq t s
  | .ne t => Sys2Proof.Machine.execNe t s
  | .lt t => Sys2Proof.Machine.execLt t s
  | .le t => Sys2Proof.Machine.execLe t s
  | .ltu t => Sys2Proof.Machine.execLtu t s
  | .leu t => Sys2Proof.Machine.execLeu t s
  | .tst t => Sys2Proof.Machine.execTst t s
  | .sel t => Sys2Proof.Machine.execSel t s
  | .addi t => Sys2Proof.Machine.execAddi t s
  | .addsi t => Sys2Proof.Machine.execAddsi t s
  | .andi t => Sys2Proof.Machine.execAndi t s
  | .ori t => Sys2Proof.Machine.execOri t s
  | .xori t => Sys2Proof.Machine.execXori t s
  | .shi t => Sys2Proof.Machine.execShi t s
  | .cmpi t => Sys2Proof.Machine.execCmpi t s
  | .br t => Sys2Proof.Machine.execBr t s
  | .dbnz t => Sys2Proof.Machine.execDbnz t s
  | .li t => Sys2Proof.Machine.execLi t s
  | .lui t => Sys2Proof.Machine.execLui t s
  | .jmp t => Sys2Proof.Machine.execJmp t s
  | .call t => Sys2Proof.Machine.execCall t s
  | .ld t w => Sys2Proof.Machine.execLd t w s
  | .st t w => Sys2Proof.Machine.execSt t w s
  | .nop t => Sys2Proof.Machine.execNop t s
  | .eos t => Sys2Proof.Machine.execEos t s
  | .yield_ t => Sys2Proof.Machine.execYield t s
  | .brk t => Sys2Proof.Machine.execBrk t s
  | .jr t => Sys2Proof.Machine.execJr t s
  | .mfs t => Sys2Proof.Machine.execMfs t s
  | .mts t => Sys2Proof.Machine.execMts t s
  | .addp t => Sys2Proof.Machine.execAddp t s
  | .rdin t => Sys2Proof.Machine.execRdin t s
  | .rdint t => Sys2Proof.Machine.execRdint t s
  | .stout t => Sys2Proof.Machine.execStout t s
  | .post t w => Sys2Proof.Machine.execPost t w s
  | .cancel t => Sys2Proof.Machine.execCancel t s
  | .lut t => Sys2Proof.Machine.execLut t s
  | .rcps t => Sys2Proof.Machine.execRcps t s
  | .sqrs t => Sys2Proof.Machine.execSqrs t s
  | .claim req b => Sys2Proof.Machine.execClaim req b s
  | .rbRelease req b => Sys2Proof.Machine.execRelease req b s
  | .create req b staged => Sys2Proof.Machine.execCreate req b staged s
  | .destroy req b staged => Sys2Proof.Machine.execDestroy req b staged s
  | .modify req b staged => Sys2Proof.Machine.execModify req b staged s
  | .query req b staged => Sys2Proof.Machine.execQuery req b staged s
  | .requestDone => Sys2Proof.Machine.execRequestDone s
  | .allocRbfree v => Sys2Proof.Machine.execAllocRbfree v s
  | .flogPop v => Sys2Proof.Machine.execFlogPop v s
  | .engholdWrite w v => Sys2Proof.Machine.execEngholdWrite w v s
  | .rcalGo k v => Sys2Proof.Machine.execRcalGo k v s
  | .rcalDone k ron => Sys2Proof.Machine.execRcalDone k ron s
  | .ronstale k => Sys2Proof.Machine.execRonstale k s
  | .refOk k ok => Sys2Proof.Machine.execRefOk k ok s
  | .ampLimit k j on => Sys2Proof.Machine.execAmpLimit k j on s
  | .adcSwtrig n => Sys2Proof.Machine.execAdcSwtrig n s
  | .conversionEnd n d ovr refbad => Sys2Proof.Machine.execConversionEnd n d ovr refbad s
  | .resultWrite n => Sys2Proof.Machine.execResultWrite n s
  | .resultCopy n => Sys2Proof.Machine.execResultCopy n s
  | .adcResLoRead req n e => Sys2Proof.Machine.execAdcResLoRead req n e s
  | .calZero n v => Sys2Proof.Machine.execCalZero n v s
  | .calFull n v => Sys2Proof.Machine.execCalFull n v s
  | .calAbort n => Sys2Proof.Machine.execCalAbort n s
  | .calSave n v => Sys2Proof.Machine.execCalSave n v s
  | .calRestore n v => Sys2Proof.Machine.execCalRestore n v s
  | .comparatorCross k c above => Sys2Proof.Machine.execComparatorCross k c above s
  | .filterSample k c => Sys2Proof.Machine.execFilterSample k c s
  | .settlingHoldEnd k c => Sys2Proof.Machine.execSettlingHoldEnd k c s
  | .cmpLatchWrite k v => Sys2Proof.Machine.execCmpLatchWrite k v s
  | .latchClear k l => Sys2Proof.Machine.execLatchClear k l s
  | .rangeHoldEnd n => Sys2Proof.Machine.execRangeHoldEnd n s
  | .dacShort n limiting => Sys2Proof.Machine.execDacShort n limiting s
  | .shortClear n => Sys2Proof.Machine.execShortClear n s
  | .eccWriteback k => Sys2Proof.Machine.execEccWriteback k s
  | .dmaGo k j v => Sys2Proof.Machine.execDmaGo k j v s
  | .dmaAbort k j => Sys2Proof.Machine.execDmaAbort k j s
  | .dmaWord k j coll => Sys2Proof.Machine.execDmaWord k j coll s
  | .fabricSpRequest k we view word data coll => Sys2Proof.Machine.execFabricSpRequest k we view word data coll s
  | .fabricSpReturn k => Sys2Proof.Machine.execFabricSpReturn k s
  | .mbxTofabWrite k j v => Sys2Proof.Machine.execMbxTofabWrite k j v s
  | .mbxToAck k j => Sys2Proof.Machine.execMbxToAck k j s
  | .mbxFromWr k j v => Sys2Proof.Machine.execMbxFromWr k j v s
  | .mbxDoorbell k v => Sys2Proof.Machine.execMbxDoorbell k v s
  | .scrInjArm k v => Sys2Proof.Machine.execScrInjArm k v s
  | .vaultWipe req v => Sys2Proof.Machine.execVaultWipe req v s
  | .wipeDone => Sys2Proof.Machine.execWipeDone s
  | .openSession req => Sys2Proof.Machine.execOpen req s
  | .attarCheck req => Sys2Proof.Machine.execCheck req s
  | .checkDone => Sys2Proof.Machine.execCheckDone s
  | .attarApply req mode => Sys2Proof.Machine.execApply req mode s
  | .attarAbort req force => Sys2Proof.Machine.execAbort req force s
  | .stagedWrite a v => Sys2Proof.Machine.execStagedWrite a v s
  | .peek a => Sys2Proof.Machine.execPeek a s
  | .applyStrobe => Sys2Proof.Machine.execApplyStrobe s
  | .sessionTimeout => Sys2Proof.Machine.execSessionTimeout s
  | .gpioSet g v => Sys2Proof.Machine.execGpioSet g v s
  | .gpioClr g v => Sys2Proof.Machine.execGpioClr g v s
  | .gpioTgl g v => Sys2Proof.Machine.execGpioTgl g v s
  | .xbarLock req v => Sys2Proof.Machine.execXbarLock req v s
  | .lockTimeout => Sys2Proof.Machine.execLockTimeout s
  | .bankFail b => Sys2Proof.Machine.execBankFail b s
  | .bankReturn b level => Sys2Proof.Machine.execBankReturn b level s
  | .cycleStart l => Sys2Proof.Machine.execCycleStart l s
  | .returnReceive l f => Sys2Proof.Machine.execReturnReceive l f s
  | .nodeSymbolLock l k => Sys2Proof.Machine.execNodeSymbolLock l k s
  | .nodeLockLoss l k => Sys2Proof.Machine.execNodeLockLoss l k s
  | .nodeDataFrame l k f loop aux nfault => Sys2Proof.Machine.execNodeDataFrame l k f loop aux nfault s
  | .nodeTimedFrame l k f => Sys2Proof.Machine.execNodeTimedFrame l k f s
  | .nodeMark l k good down => Sys2Proof.Machine.execNodeMark l k good down s
  | .nodeFiring l k => Sys2Proof.Machine.execNodeFiring l k s
  | .nodePulseEnd l k => Sys2Proof.Machine.execNodePulseEnd l k s
  | .nodeTimeout l k => Sys2Proof.Machine.execNodeTimeout l k s
  | .nodeEpochRelease l k => Sys2Proof.Machine.execNodeEpochRelease l k s
  | .tickPacket good p => Sys2Proof.Machine.execTickPacket good p s
  | .logPacket good p => Sys2Proof.Machine.execLogPacket good p s
  | .writePacket good addr size v => Sys2Proof.Machine.execWritePacket good addr size v s
  | .sessionPacket good p => Sys2Proof.Machine.execSessionPacket good p s
  | .allocPacket good p => Sys2Proof.Machine.execAllocPacket good p s
  | .refreshPacket good p => Sys2Proof.Machine.execRefreshPacket good p s
  | .bulkPacket good p left => Sys2Proof.Machine.execBulkPacket good p left s
  | .statusPacket good p => Sys2Proof.Machine.execStatusPacket good p s
  | .helloPacket good p => Sys2Proof.Machine.execHelloPacket good p s
  | .helloSend => Sys2Proof.Machine.execHelloSend s
  | .replay t => Sys2Proof.Machine.execReplay t s
  | .heartbeatCheck => Sys2Proof.Machine.execHeartbeatCheck s
  | .takeover => Sys2Proof.Machine.execTakeover s
  | .aliveToggle => Sys2Proof.Machine.execAliveToggle s
  | .aliveInEdge => Sys2Proof.Machine.execAliveInEdge s
  | .partnerStatic => Sys2Proof.Machine.execPartnerStatic s
  | .seekTimeout => Sys2Proof.Machine.execSeekTimeout s
  | .syncTick now tick banks => Sys2Proof.Machine.execSyncTick now tick banks s
  | .joinComplete => Sys2Proof.Machine.execJoinComplete s
  | .resign v => Sys2Proof.Machine.execResign v s
  | .rejoin v => Sys2Proof.Machine.execRejoin v s
  | .epochSilenceEnd => Sys2Proof.Machine.execEpochSilenceEnd s
  | .powerOn => Sys2Proof.Machine.execPowerOn s
  | .railFall rail => Sys2Proof.Machine.execRailFall rail s
  | .resetNAssert => Sys2Proof.Machine.execResetNAssert s
  | .resetNRelease => Sys2Proof.Machine.execResetNRelease s
  | .syncWord w => Sys2Proof.Machine.execSyncWord w s
  | .auth h ws => Sys2Proof.Machine.execAuth h ws s
  | .authCheckDone keyOk sigOk => Sys2Proof.Machine.execAuthCheckDone keyOk sigOk s
  | .nopRecord h ws => Sys2Proof.Machine.execNopRecord h ws s
  | .regwr h ws => Sys2Proof.Machine.execRegwr h ws s
  | .frame h ws => Sys2Proof.Machine.execFrame h ws s
  | .checkRecord h ws => Sys2Proof.Machine.execCheckRecord h ws s
  | .rbegin h => Sys2Proof.Machine.execRbegin h s
  | .rend h => Sys2Proof.Machine.execRend h s
  | .keysel h plen => Sys2Proof.Machine.execKeysel h plen s
  | .keyselBlock tagOk => Sys2Proof.Machine.execKeyselBlock tagOk s
  | .passon h ws => Sys2Proof.Machine.execPasson h ws s
  | .endRecord h hashOk => Sys2Proof.Machine.execEnd h hashOk s
  | .configRelease us => Sys2Proof.Machine.execConfigRelease us s
  | .ioEnable => Sys2Proof.Machine.execIoEnable s
  | .cfgLoadwinWrite v => Sys2Proof.Machine.execCfgLoadwinWrite v s
  | .loadDeadline => Sys2Proof.Machine.execLoadDeadline s
  | .cfgRestart v => Sys2Proof.Machine.execRestart v s
  | .fuseImgkey v => Sys2Proof.Machine.execFuseImgkey v s
  | .fuseSvckey v => Sys2Proof.Machine.execFuseSvckey v s
  | .fuseAeskey v => Sys2Proof.Machine.execFuseAeskey v s
  | .keyram v => Sys2Proof.Machine.execKeyram v s
  | .advanceLc v => Sys2Proof.Machine.execAdvance v s
  | .service v => Sys2Proof.Machine.execService v s
  | .leaveService v => Sys2Proof.Machine.execLeave v s
  | .retire v => Sys2Proof.Machine.execRetire v s
  | .setminver v => Sys2Proof.Machine.execSetminver v s
  | .fuseAltboot v => Sys2Proof.Machine.execFuseAltboot v s
  | .lccmdDone ok => Sys2Proof.Machine.execLccmdDone ok s
  | .serviceExpiry => Sys2Proof.Machine.execServiceExpiry s
  | .regionHold r => Sys2Proof.Machine.execRegionHold r s
  | .partialCheckDone => Sys2Proof.Machine.execPartialCheckDone s
  | .regionRelease r => Sys2Proof.Machine.execRegionRelease r s
  | .abandon v => Sys2Proof.Machine.execAbandon v s
  | .reload v => Sys2Proof.Machine.execReload v s
  | .scrubVisit => Sys2Proof.Machine.execScrubVisit s
  | .voteFix => Sys2Proof.Machine.execVoteFix s
  | .istSignature t sig ok last => Sys2Proof.Machine.execIstSignature t sig ok last s
  | .spmarchWindow k b addr diff abandoned last => Sys2Proof.Machine.execSpmarchWindow k b addr diff abandoned last s
  | .trmarchWindow t addr diff abandoned last => Sys2Proof.Machine.execTrmarchWindow t addr diff abandoned last s
  | .istConversion kind unit arg d last => Sys2Proof.Machine.execIstConversion kind unit arg d last s
  | .linkWindow l last => Sys2Proof.Machine.execLinkWindow l last s
  | .istStarved kind => Sys2Proof.Machine.execIstStarved kind s
  | .trip v => Sys2Proof.Machine.execTrip v s
  | .tripInput i1 low => Sys2Proof.Machine.execTripInput i1 low s
  | .comparatorTrip n on => Sys2Proof.Machine.execComparatorTrip n on s
  | .vmon out => Sys2Proof.Machine.execVmon out s
  | .temp hot => Sys2Proof.Machine.execTemp hot s
  | .clockMonitor bad => Sys2Proof.Machine.execClockMonitor bad s
  | .tickWatchdog => Sys2Proof.Machine.execTickWatchdog s
  | .handoverTrip => Sys2Proof.Machine.execHandoverTrip s
  | .tripRelease v => Sys2Proof.Machine.execTripRelease v s
  | .safeLock v => Sys2Proof.Machine.execSafeLock v s
  | .kick v => Sys2Proof.Machine.execKick v s
  | .wdwarn => Sys2Proof.Machine.execWdwarn s
  | .watchdogExpiry => Sys2Proof.Machine.execWatchdogExpiry s
  | .internalResetRelease => Sys2Proof.Machine.execInternalResetRelease s
  | .tamperEvent e => Sys2Proof.Machine.execTamperEvent e s
  | .rtcSecond => Sys2Proof.Machine.execRtcSecond s
  | .sillageWrite => Sys2Proof.Machine.execSillageWrite s
  | .sillageFreeze => Sys2Proof.Machine.execSillageFreeze s
  | .sillageResume => Sys2Proof.Machine.execSillageResume s
  | .sillageClear => Sys2Proof.Machine.execSillageClear s
  | .sillageMark req v => Sys2Proof.Machine.execSillageMark req v s
  | .pcieMemoryWrite off dws poison => Sys2Proof.Machine.execPcieMemoryWrite off dws poison s
  | .pcieMemoryRead off n => Sys2Proof.Machine.execPcieMemoryRead off n s
  | .unsupportedRequest => Sys2Proof.Machine.execUnsupportedRequest s
  | .msiRelease => Sys2Proof.Machine.execMsiRelease s
  | .perst => Sys2Proof.Machine.execPerst s
  | .linkDown => Sys2Proof.Machine.execLinkDown s
  | .canPush m => Sys2Proof.Machine.execPush m s
  | .canAbort m => Sys2Proof.Machine.execCanAbort m s
  | .canRecover m => Sys2Proof.Machine.execRecover m s
  | .canPop m => Sys2Proof.Machine.execPop m s
  | .canRxFrame m id ctrl age data => Sys2Proof.Machine.execCanRxFrame m id ctrl age data s
  | .canTxDone m result => Sys2Proof.Machine.execCanTxDone m result s
  | .busoffRecovery m => Sys2Proof.Machine.execBusoffRecovery m s
  | .spiTx m v => Sys2Proof.Machine.execSpiTx m v s
  | .spiRx req m => Sys2Proof.Machine.execSpiRx req m s
  | .spiWordDone m data => Sys2Proof.Machine.execSpiWordDone m data s
  | .i2cCmd m v => Sys2Proof.Machine.execI2cCmd m v s
  | .i2cEntryDone m data result => Sys2Proof.Machine.execI2cEntryDone m data result s
  | .i2cRx req m => Sys2Proof.Machine.execI2cRx req m s
  | .i2cTimeout m => Sys2Proof.Machine.execI2cTimeout m s
  | .uartTx m v => Sys2Proof.Machine.execUartTx m v s
  | .uartRx req m => Sys2Proof.Machine.execUartRx req m s
  | .uartFrameSent m => Sys2Proof.Machine.execUartFrameSent m s
  | .uartFrameReceived m data break_ parity framing => Sys2Proof.Machine.execUartFrameReceived m data break_ parity framing s
  | .idcode => Sys2Proof.Machine.execIdcode s
  | .samplePreload cells => Sys2Proof.Machine.execSamplePreload cells s
  | .extest cells => Sys2Proof.Machine.execExtest cells s
  | .jtagClamp => Sys2Proof.Machine.execJtagClamp s
  | .highz => Sys2Proof.Machine.execHighz s
  | .bypass => Sys2Proof.Machine.execBypass s
  | .cfgload => Sys2Proof.Machine.execCfgload s
  | .cfgloadUpdate v => Sys2Proof.Machine.execCfgloadUpdate v s
  | .testLogicReset => Sys2Proof.Machine.execTestLogicReset s
  | .mpRead addr good => Sys2Proof.Machine.execRead addr good s
  | .mpWrite addr v good => Sys2Proof.Machine.execWrite addr v good s
  | .debugHalt addr good => Sys2Proof.Machine.execHalt addr good s
  | .debugResume addr good => Sys2Proof.Machine.execResume addr good s
  | .debugStep addr good => Sys2Proof.Machine.execStep addr good s
  | .brkset addr v good => Sys2Proof.Machine.execBrkset addr v good s
  | .brkclr addr good => Sys2Proof.Machine.execBrkclr addr good s
  | .rdreg addr good => Sys2Proof.Machine.execRdreg addr good s
  | .wrreg addr v good => Sys2Proof.Machine.execWrreg addr v good s
  | .mpTimeout => Sys2Proof.Machine.execMpTimeout s
  | .pllLock i1 => Sys2Proof.Machine.execPllLock i1 s
  | .pllUnlock i1 => Sys2Proof.Machine.execPllUnlock i1 s
  | .standbyRequest v => Sys2Proof.Machine.execStandbyRequest v s
  | .standbyEntry => Sys2Proof.Machine.execStandbyEntry s
  | .wake src cmps => Sys2Proof.Machine.execWake src cmps s
  | .wakeLockTimeout => Sys2Proof.Machine.execWakeLockTimeout s
  | .resumeBoundary => Sys2Proof.Machine.execResumeBoundary s
  | .powerFailWarning => Sys2Proof.Machine.execPowerFailWarning s
  | .snapshotDone => Sys2Proof.Machine.execSnapshotDone s
  | .snap v => Sys2Proof.Machine.execSnap v s
  | .erasesnap v => Sys2Proof.Machine.execErasesnap v s
  | .erasefault v => Sys2Proof.Machine.execErasefault v s
  | .mramRefresh => Sys2Proof.Machine.execMramRefresh s
  | .rcRegisterRead req a size => Sys2Proof.Machine.execRcRegisterRead req a size s
  | .virtualSourceWrap => Sys2Proof.Machine.execVirtualSourceWrap s
  | .fabOutChange k j value oe => Sys2Proof.Machine.execFabOutChange k j value oe s
  | .ubvelLinkDown => Sys2Proof.Machine.execUbvelLinkDown s
  | .ubvelLinkUp dly => Sys2Proof.Machine.execUbvelLinkUp dly s
  | .cfgClockTimeout => Sys2Proof.Machine.execCfgClockTimeout s
  | .memoryBitFlip t => Sys2Proof.Machine.execMemoryBitFlip t s
  | .pcieConfigRequest mse bme msiEn d3 grant => Sys2Proof.Machine.execPcieConfigRequest mse bme msiEn d3 grant s
  | .perstNRelease => Sys2Proof.Machine.execPerstNRelease s
  | .pcieLinkTrained gen2 => Sys2Proof.Machine.execPcieLinkTrained gen2 s
  | .uartCtsAssert m => Sys2Proof.Machine.execUartCtsAssert m s
  | .batteryDomainLoss => Sys2Proof.Machine.execBatteryDomainLoss s
  | .batteryDomainReturn => Sys2Proof.Machine.execBatteryDomainReturn s

end Sys2Proof.Machine
end

