-- ==== Sys2Proof/Machine/Step.lean ====
section
/-! DEFINITION. One step of the block: the command at the front of the queue, or one cycle of TB_CLK where none waits. -/

namespace Sys2Proof.Machine

/-- The state without the commands that wait. -/
def State.withQueue (s : State) (q : List Instr) : State := { s with pending := q }

/-- One step: the command at the front has its effect; on an empty queue one TB_CLK cycle passes (log 4). -/
def step (s : State) : Host.Outcome State Fault Refusal :=
  match s.pending with
  | [] => done s s.cycle
  | c :: q => exec c (s.withQueue q)

/-- The state with the command that a word spells put at the front of its queue. -/
def State.withFetchWord (s : State) (nbits w : Nat) : State :=
  match decodeTableWord nbits w with
  | some c => s.withQueue (c :: s.pending)
  | none => s

end Sys2Proof.Machine
end

