-- ==== Sys2Proof/Safety.lean ====
section
/-! DEFINITION. What a sound state is: the sparse parts in their canonical form, so that equal contents are equal data; and what a
command never touches. -/

namespace Sys2Proof.Machine

/-- The canonical form of the register file, the memories and their inverted bits: numbers strictly rising, and no entry equal to
what an unlisted number reads as. -/
def State.canonical (s : State) : Bool := twf rstWord s.regs && Memory.wf s.mem && twf (fun _ => (0 : Nat)) s.ecc

/-- What the commands of R343 leave of the life cycle: a fused state 0 to 4 but 3, SERVICE only over DEPLOYED, a MINVER of six bits, and a
command in progress that was permitted when it started. -/
def LifeCycle.sound (x : LifeCycle) : Bool :=
  decide (x.st ≤ 4 ∧ x.st ≠ 3 ∧ x.minver ≤ 63) && (x.service.isNone || x.st == 2) &&
    match x.busy with
    | none => true
    | some (op, g) => (op != 5 || decide (x.st ≤ 1)) && (op != 6 || x.st == 2) &&
        (op != 9 || decide (x.minver ≤ (g.getD 0 0).toNat ∧ (g.getD 0 0).toNat ≤ 63))

/-- What is fused stays fused: the state of the life cycle and MINVER only rise. -/
structure LifeCycle.Onward (x y : LifeCycle) : Prop where
  sound : y.sound = true
  st : x.st ≤ y.st
  minver : x.minver ≤ y.minver

/-- Two states with the same waiting commands and the same part, of which the second is canonical if the first is
and the life cycle goes onward: what every effect of a command keeps. -/
structure Kept (s t : State) : Prop where
  canon : s.canonical = true → t.canonical = true
  life : s.lc.sound = true → s.lc.Onward t.lc
  queue : t.pending = s.pending
  part : t.part = s.part

/-! ## An engine that issues -/

/-- The activation `a` of LE[t] issues the instruction `e` next: it runs and waits for nothing, the word at its PC has no inverted bit and
decodes to `e`, no breakpoint and no single step stands there. -/
structure Issues (s : State) (t : Nat) (e : EI) (a : Act) : Prop where
  act : s.issues t = some a
  pc : a.pc ≤ 4095
  clean : s.flipCount (instrAddr t a.pc) = 0
  word : decodeWord (s.word (instrAddr t a.pc)).toNat = some e
  bp : (s.engOf t).bp ≠ some (a.slot, a.pc)
  step : a.step = false

/-- The cycles that the instruction `e` may take: what R92 adds and its own. -/
def Act.has (a : Act) (e : EI) (cost : Nat) : Prop := a.used + hazardCycles a.hazard e + cost ≤ a.budget

/-- The bank of the channel that `a` activates. -/
def State.bankOf (s : State) (t : Nat) (a : Act) : Bank := (s.chanOf (16 * t + a.slot)).bank

/-- The activation after the instruction `e`: the next PC, the cycles used, one more instruction done. -/
def Act.after (a : Act) (e : EI) (cost pc : Nat) (h : Hazard) : Act :=
  { a with pc := pc, used := a.used + hazardCycles a.hazard e + cost, hazard := h, count := a.count + 1, skipBp := false }

/-- The engine goes on with the activation `a` after an instruction; it is no longer stalled. -/
def State.goesOn (s : State) (t : Nat) (a : Act) : State := s.setEng t { s.engOf t with act := some a, stalled := false }

/-- The state after an instruction that leaves the bank `b`. -/
def State.ran1 (s : State) (t : Nat) (a : Act) (b : Bank) : State :=
  (s.setChan (16 * t + a.slot) { s.chanOf (16 * t + a.slot) with bank := b }).goesOn t a

/-- The state after the instruction `e` of `cost` cycles that goes on at the next word. -/
def State.stepped (s : State) (t : Nat) (e : EI) (a : Act) (cost : Nat) (h : Hazard) (b : Bank) : State :=
  s.ran1 t (a.after e cost (a.pc + 1) h) b

end Sys2Proof.Machine
end

