-- ==== Sys2Proof/Certificates/Slice0/Obligations.lean ====
section
/-! DEFINITION. The statements for the provers: what the block and each of its commands does, and what every step keeps. -/

open Sys2Proof Sys2Proof.Machine

/-- A step takes the command at the front of the queue and runs it with the rest of the queue. -/
def Obligations.StepRunsTheFrontCommand : Prop :=
  ∀ (s : State) (c : Instr) (q : List Instr), step (s.withQueue (c :: q)) = exec c (s.withQueue q)

/-- On an empty queue a step passes one TB_CLK cycle (the model's choice, log 4), and TB_NOW counts by one. -/
def Obligations.EmptyQueuePassesOneCycle : Prop :=
  ∀ (s : State), s.pending = [] →
    (s.pwr.released = false → step s = .next (settle s s)) ∧
    (s.pwr.released = true → (s.tb.now + 1 - s.tb.edge).toNat < s.fld TB_TICKLEN_CYCLES →
      ∃ u, step s = .next u ∧ u.tb.now = s.tb.now + 1 ∧ u.tb.tick = s.tb.tick ∧ u.mem = s.mem)

/-- After reset every register holds its reset word, nothing runs or waits, and the state meets the invariants. -/
def Obligations.ResetHoldsTheSpecValues : Prop :=
  (∀ a, State.reset.reg a = rstWord a) ∧ State.reset.pending = [] ∧
  State.reset.fld TB_TICKLEN_CYCLES = 10000 ∧ State.reset.fld (TB_ENC_TIMEOUT_US 0) = 10000 ∧
  State.reset.reg SYS_IRQ_ENABLE_at = 0 ∧ State.reset.reg SYS_MSI_ENABLE_at = 0 ∧
  State.reset.tb.now = 0 ∧ State.reset.tb.tick = 0 ∧ State.reset.aq = [] ∧ State.reset.flog = [] ∧ State.reset.evq = [] ∧
  (∀ t, (State.reset.engOf t).act = none) ∧ (∀ k, (State.reset.storeOf k).armed = []) ∧
  (∀ a, State.reset.byte a = 0) ∧ State.reset.canonical = true ∧ State.reset.lc.sound = true

/-- Every step, whatever command runs, keeps the register file, the memories and their check bits in canonical form. -/
def Obligations.EveryStepKeepsTheCanonicalForm : Prop :=
  ∀ (s u : State), s.canonical = true → step s = .next u → u.canonical = true

/-- No step takes the fused life-cycle state or MINVER back, and SERVICE stands only over DEPLOYED. -/
def Obligations.TheLifeCycleNeverGoesBack : Prop :=
  ∀ (s u : State), s.lc.sound = true → step s = .next u → s.lc.Onward u.lc

/-- No command touches the commands that wait behind it or the identity of the part. -/
def Obligations.CommandsLeaveQueueAndPart : Prop :=
  ∀ (c : Instr) (s u : State), exec c s = .next u → u.pending = s.pending ∧ u.part = s.part

/-- Every command answers a next state in every state: none faults and none is refused. -/
def Obligations.EveryCommandAnswersANextState : Prop :=
  ∀ (c : Instr) (s : State), ∃ u, exec c s = .next u

/-- A permitted register access acts as the access codes say: RW takes, W1C clears, W1S sets, RC clears on the read. -/
def Obligations.RegisterAccessesActByTheirCodes : Prop :=
  ∀ (s : State) (req : Fin 405) (a v : Word) (coll : Bool),
    let s0 := s.loadsFirst req s.tb.now
    s.busRuns = true → s0.loaderGate req a.toNat = false → a.toNat % 4 = 0 → (regionOf a.toNat = .regs ∨ regionOf a.toNat = .bay) →
    let r := rowOf a.toNat
    let w := s.reg a.toNat
    (s0.denied req a.toNat true = false → exec (.registerWrite req a 4 ⟨v, coll⟩) s = .next (settle s (s0.regWrite req a.toNat v))) ∧
    (s0.denied req a.toNat true = false → regionOf a.toNat = .regs → a.toNat % 0x1000000 / 0x1000 = 9 → r.rws = 0 →
      ∃ u, exec (.registerWrite req a 4 ⟨v, coll⟩) s = .next u ∧
        u.reg a.toNat = ((((w &&& ~~~BitVec.ofNat 32 r.rw) ||| (v &&& BitVec.ofNat 32 r.rw)) &&& ~~~(v &&& BitVec.ofNat 32 r.w1c)) |||
          (v &&& BitVec.ofNat 32 r.w1s)) ∧
        (∀ b, b ≠ a.toNat → u.reg b = s.reg b) ∧ (∀ b, u.byte b = s.byte b)) ∧
    (s0.denied req a.toNat false = false → s0.popRead req a.toNat = none → ∃ u, exec (.rcRegisterRead req a 4) s = .next u ∧
      u.reg a.toNat = (w &&& ~~~BitVec.ofNat 32 r.rc) ||| (s.rcRest a.toNat &&& BitVec.ofNat 32 r.rc) ∧ (∀ b, b ≠ a.toNat → u.reg b = s.reg b) ∧ (∀ b, u.byte b = s.byte b) ∧
      Output.readData req a.toNat (s0.regView req a.toNat) ∈ u.outbox)

/-- The first access error is captured; a further one sets OVERFLOW and leaves the capture. -/
def Obligations.AccessErrorsAreCaptured : Prop :=
  ∀ (s : State) (req : Fin 405) (a v : Word) (size : Nat) (write coll : Bool) (c : Instr),
    let s0 := s.loadsFirst req s.tb.now
    s.busRuns = true → 403 ≤ req.val → s0.loaderGate req a.toNat = false →
    c = (if write then .registerWrite req a size ⟨v, coll⟩ else .rcRegisterRead req a size) →
    let e := s0.busError req a.toNat size write
    (e.1 || e.2.1 || e.2.2) = true →
    let any := s.fb SYS_ERRSTAT_UNMAPPED || s.fb SYS_ERRSTAT_SIZE || s.fb SYS_ERRSTAT_DENIED
    ∃ u, exec c s = .next u ∧
      u.fb SYS_ERRSTAT_UNMAPPED = (s.fb SYS_ERRSTAT_UNMAPPED || e.1) ∧ u.fb SYS_ERRSTAT_SIZE = (s.fb SYS_ERRSTAT_SIZE || e.2.1) ∧
      u.fb SYS_ERRSTAT_DENIED = (s.fb SYS_ERRSTAT_DENIED || e.2.2) ∧
      (any = false → u.fld SYS_ERRADDR_ADDR = a.toNat ∧ u.fld SYS_ERRSTAT_REQUESTER = req) ∧
      (any = true → u.fb SYS_ERRSTAT_OVERFLOW = true ∧ u.fld SYS_ERRADDR_ADDR = s.fld SYS_ERRADDR_ADDR ∧
        u.fld SYS_ERRSTAT_REQUESTER = s.fld SYS_ERRSTAT_REQUESTER)

/-- A bus write stores its word and no other byte; the bit views set and clear; a read answers the stored word. -/
def Obligations.MemoryAccessesReachTheirBytes : Prop :=
  ∀ (s : State) (req : Fin 405) (a v : Word) (size : Nat) (coll : Bool),
    let s0 := s.loadsFirst req s.tb.now
    s.busRuns = true → s0.loaderGate req a.toNat = false → s0.denied req a.toNat true = false → s0.denied req a.toNat false = false →
    let m := normalView a.toNat
    let mine := s.pairStandby = false ∨ req.val = 400
    (regionOf a.toNat = .scratch 0 → a.toNat % 4 = 0 → mine → coll = false → ∃ u, exec (.registerWrite req a 4 ⟨v, coll⟩) s = .next u ∧
      u.word m = v ∧ ∀ x, x < m ∨ m + 4 ≤ x → u.byte x = s.byte x) ∧
    (regionOf a.toNat = .scratch 0 → size = 1 ∨ size = 2 → a.toNat % size = 0 → mine → s.flipCount (m - m % 4) = 0 →
      ∃ u, exec (.registerWrite req a size ⟨v, coll⟩) s = .next u ∧ u.load m size = v.toNat % 2 ^ (8 * size) ∧
        ∀ x, x < m ∨ m + size ≤ x → u.byte x = s.byte x) ∧
    (regionOf a.toNat = .scratch 1 → a.toNat % 4 = 0 → mine → s.flipCount m = 0 → ∃ u, exec (.registerWrite req a 4 ⟨v, coll⟩) s = .next u ∧
      u.word m = s.word m ||| v ∧ ∀ x, x < m ∨ m + 4 ≤ x → u.byte x = s.byte x) ∧
    (regionOf a.toNat = .scratch 2 → a.toNat % 4 = 0 → mine → s.flipCount m = 0 → ∃ u, exec (.registerWrite req a 4 ⟨v, coll⟩) s = .next u ∧
      u.word m = s.word m &&& ~~~v ∧ ∀ x, x < m ∨ m + 4 ≤ x → u.byte x = s.byte x) ∧
    (regionOf a.toNat = .scratch 0 → a.toNat % 4 = 0 → s.pairStandby = true → req.val ≠ 400 →
      exec (.registerWrite req a 4 ⟨v, coll⟩) s = .next (settle s (s0.setFld PAIR_IRQ_STAT_LOCALWR 1))) ∧
    (regionOf a.toNat = .scratch 0 → a.toNat % 4 = 0 → mine → coll = true →
      exec (.registerWrite req a 4 ⟨v, coll⟩) s = .next (settle s (s0.collide m req))) ∧
    (regionOf a.toNat = .dram → a.toNat % 4 = 0 → 0x2000 ≤ a.toNat % 0x4000 → mine →
      ∃ u, exec (.registerWrite req a 4 ⟨v, coll⟩) s = .next u ∧ ∀ x, u.byte x = s.byte x) ∧
    (regionOf a.toNat = .scratch 0 → a.toNat % 4 = 0 → s.flipCount m = 0 →
      ∃ u, exec (.rcRegisterRead req a 4) s = .next u ∧ Output.readData req a.toNat (s.word m) ∈ u.outbox ∧
        (∀ x, u.byte x = s.byte x) ∧ ∀ b, regionOf b = .bay → u.reg b = s.reg b)

/-- A posted write is accepted in order, a blocking load returns its word, EOI sends again or holds. -/
def Obligations.PostedWritesLoadsAndRearms : Prop :=
  (∀ (s : State) (t : Fin 256) (w : PostedWrite) (r : List PostedWrite) (coll : Bool), (s.engOf t).buf = w :: r →
    let q := (s.setEng t ((s.engOf t).accepted r s.tb.now)).busWrite t w.addr w.size w.data coll
    let runs := s.busRuns && s.sectRuns (t / 16)
    (runs = true → q.2 ≠ .refused → exec (.postedWriteAccept ⟨t, coll⟩) s = .next (settle s q.1)) ∧
    (runs = true → q.2 = .refused → exec (.postedWriteAccept ⟨t, coll⟩) s = .next (settle s (q.1.postFault t w))) ∧
    (runs = false → exec (.postedWriteAccept ⟨t, coll⟩) s = .next (settle s s))) ∧
  (∀ (s : State) (t : Fin 256) (n : Nat) (g : GlobalLoad) (a : Act), s.busRuns = true → s.sectRuns (t / 16) = true →
    (s.engOf t).gload = some g → (s.engOf t).act = some a → (s.engOf t).buf = [] →
    let n' := max n (5 + s.sectUp (t / 16) 5)
    let q := (s.loadsFirst t g.asked).readOp t g.addr g.size
    let got := g.got.getD (q.2.1, q.2.2)
    let s1 := q.1.setEng t { q.1.engOf t with gload := none }
    let c := s1.chanOf (16 * t + a.slot)
    let w := extend g.size got.1 g.sx
    (a.budget < a.used + n' → exec (.globalLoadResponse t n) s = .next (settle s (s.setAct t (some { a with used := a.budget })))) ∧
    (a.used + n' ≤ a.budget → a.step = false → got.2 = .fine → exec (.globalLoadResponse t n) s = .next (settle s ((s1.setChan (16 * t + a.slot)
      { c with bank := (c.bank.setPtr g.ptr g.ptrNew).setVal g.rd w }).setAct t
        (some { a with used := a.used + n', words := a.words ++ [w], count := a.count + 1 })))) ∧
    (a.used + n' ≤ a.budget → got.2 ≠ .fine → exec (.globalLoadResponse t n) s = .next (settle s (s1.chanFault t (if got.2 = .ecc then 7 else 5)
      (BitVec.ofNat 32 g.addr) 0 { a with pc := a.pc - 1, used := a.used + (n' - 1) })))) ∧
  (∀ (s : State) (v : Word),
    let g := v.toNat &&& s.irqPend &&& (s.reg SYS_MSI_ENABLE_at).toNat
    (s.msiOpen = true → exec (.sysIrqEoi v) s = .next (settle s { s with outbox := s.outbox ++ (s.msiVectors g).map Output.msi })) ∧
    (s.msiOpen = false → exec (.sysIrqEoi v) s = .next (settle s { s with
      msiHeld := ((bitList g 32).map s.msiVector).foldl holdVector s.msiHeld })))

/-- Every instruction of the ALU group writes its result to rd, the sticky bit and its flag, and nothing else. -/
def Obligations.AluWritesItsResult : Prop :=
  ∀ (s : State) (t : Fin 256) (e : EI) (a : Act), Issues s t e a → a.has e 1 →
    let b := s.bankOf t a
    let x := b.val e.ra
    let y := b.val e.rb
    let out (r : AluRes) : Host.Outcome State Fault Refusal := .next (settle s (s.stepped t e a 1 .none (b.alu e r)))
    (e.op = .add → exec (.add t) s = out (plain (x + y))) ∧
    (e.op = .sub → exec (.sub t) s = out (plain (x - y))) ∧
    (e.op = .adds → exec (.adds t) s = out (sat32 (x.toInt + y.toInt))) ∧
    (e.op = .subs → exec (.subs t) s = out (sat32 (x.toInt - y.toInt))) ∧
    (e.op = .and_ → exec (.and_ t) s = out (plain (x &&& y))) ∧
    (e.op = .or_ → exec (.or_ t) s = out (plain (x ||| y))) ∧
    (e.op = .xor → exec (.xor t) s = out (plain (x ^^^ y))) ∧
    (e.op = .andn → exec (.andn t) s = out (plain (x &&& ~~~y))) ∧
    (e.op = .shl → exec (.shl t) s = out (plain (x <<< (y.toNat % 32)))) ∧
    (e.op = .shr → exec (.shr t) s = out (plain (x >>> (y.toNat % 32)))) ∧
    (e.op = .sar → exec (.sar t) s = out (plain (x.sshiftRight (y.toNat % 32)))) ∧
    (e.op = .shls → exec (.shls t) s = out (sat32 (x.toInt * 2 ^ (y.toNat % 32)))) ∧
    (e.op = .min_ → exec (.min_ t) s = out (plain (if x.toInt ≤ y.toInt then x else y))) ∧
    (e.op = .max_ → exec (.max_ t) s = out (plain (if x.toInt ≤ y.toInt then y else x))) ∧
    (e.op = .abs → exec (.abs t) s = out (sat32 x.toInt.natAbs)) ∧
    (e.op = .neg → exec (.neg t) s = out (sat32 (-x.toInt))) ∧
    (e.op = .mulq31 → exec (.mulq31 t) s = out (sat32 (rnd (x.toInt * y.toInt) 31))) ∧
    (e.op = .mulq16 → exec (.mulq16 t) s = out (sat32 (rnd (x.toInt * y.toInt) 16))) ∧
    (e.op = .mul → exec (.mul t) s = out (plain (x * y))) ∧
    (e.op = .clamp → exec (.clamp t) s = out (clampRes (b.val e.rd) x y))

/-- Immediate instructions, SEL, RCPS and SQRS write their result to rd and nothing else. -/
def Obligations.ImmediateWritesItsResult : Prop :=
  ∀ (s : State) (t : Fin 256) (e : EI) (a : Act), Issues s t e a →
    let b := s.bankOf t a
    let x := b.val e.ra
    let i := BitVec.ofInt 32 e.imm
    let out (n : Nat) (r : AluRes) : Host.Outcome State Fault Refusal := .next (settle s (s.stepped t e a n .none (b.alu e r)))
    (a.has e 1 →
      (e.op = .addi → exec (.addi t) s = out 1 (plain (x + i))) ∧
      (e.op = .addsi → exec (.addsi t) s = out 1 (sat32 (x.toInt + e.imm))) ∧
      (e.op = .andi → exec (.andi t) s = out 1 (plain (x &&& i))) ∧
      (e.op = .ori → exec (.ori t) s = out 1 (plain (x ||| i))) ∧
      (e.op = .xori → exec (.xori t) s = out 1 (plain (x ^^^ i))) ∧
      (e.op = .shi → exec (.shi t) s = out 1 (
        if e.sub = 0 then plain (x <<< e.imm.toNat) else if e.sub = 1 then plain (x >>> e.imm.toNat)
        else if e.sub = 2 then plain (x.sshiftRight e.imm.toNat) else sat32 (x.toInt * 2 ^ e.imm.toNat))) ∧
      (e.op = .li → exec (.li t) s = out 1 (plain i)) ∧
      (e.op = .lui → exec (.lui t) s = out 1 (plain (i <<< 12))) ∧
      (e.op = .sel → exec (.sel t) s =
        .next (settle s (s.stepped t e a 1 .none (b.setVal e.rd (if b.flag e.fl then x else b.val e.rb)))))) ∧
    (a.has e 2 →
      (e.op = .rcps → exec (.rcps t) s = out 2 (rcps x)) ∧
      (e.op = .sqrs → exec (.sqrs t) s = out 2 (sqrs x)))

/-- The accumulator group updates the chosen 48-bit accumulator with saturation, and RDA reads it rounded. -/
def Obligations.AccumulatorsAccumulate : Prop :=
  ∀ (s : State) (t : Fin 256) (e : EI) (a : Act), Issues s t e a → a.has e 1 →
    let b := s.bankOf t a
    let acc := (b.acc e.accOne).toInt
    let x := (b.val e.ra).toInt
    let p := rnd (x * (b.val e.rb).toInt) (accShift e.sub)
    let out (v : Int) : Host.Outcome State Fault Refusal :=
      .next (settle s (s.stepped t e a 1 (.acc e.accOne) (b.accum e (sat48 v))))
    (e.op = .mac → exec (.mac t) s = out (acc + p)) ∧
    (e.op = .msu → exec (.msu t) s = out (acc - p)) ∧
    (e.op = .mpy → exec (.mpy t) s = out p) ∧
    (e.op = .wra → exec (.wra t) s = out (x * 2 ^ e.accK)) ∧
    (e.op = .adda → exec (.adda t) s = out (acc + x * 2 ^ e.accK)) ∧
    (e.op = .clra → exec (.clra t) s = out 0) ∧
    (e.op = .rda → exec (.rda t) s = .next (settle s (s.stepped t e a 1 .none (b.alu e (sat32 (rnd acc e.accK))))))

/-- A compare writes the relation to its flag and nothing else. -/
def Obligations.ComparesWriteOneFlag : Prop :=
  ∀ (s : State) (t : Fin 256) (e : EI) (a : Act), Issues s t e a → a.has e 1 →
    let b := s.bankOf t a
    let x := b.val e.ra
    let y := b.val e.rb
    let i := BitVec.ofInt 32 e.imm
    let out (n : Nat) (c : Bool) : Host.Outcome State Fault Refusal := .next (settle s (s.stepped t e a 1 .none (b.setFlag n c)))
    (e.op = .eq → exec (.eq t) s = out e.fl (x == y)) ∧
    (e.op = .ne → exec (.ne t) s = out e.fl (x != y)) ∧
    (e.op = .lt → exec (.lt t) s = out e.fl (x.slt y)) ∧
    (e.op = .le → exec (.le t) s = out e.fl (x.sle y)) ∧
    (e.op = .ltu → exec (.ltu t) s = out e.fl (x.ult y)) ∧
    (e.op = .leu → exec (.leu t) s = out e.fl (x.ule y)) ∧
    (e.op = .tst → exec (.tst t) s = out e.fl (x &&& y != 0)) ∧
    (e.op = .cmpi → exec (.cmpi t) s = out (bits e.rd 3 2)
      (if e.sub = 0 then x == i else if e.sub = 1 then x.slt i else if e.sub = 2 then x.ult i else x.sle i))

/-- BR, DBNZ, JMP, CALL and JR go to their target in two cycles, or on to the next word in one. -/
def Obligations.TransfersSetThePc : Prop :=
  ∀ (s : State) (t : Fin 256) (e : EI) (a : Act), Issues s t e a →
    let b := s.bankOf t a
    let next : Int := ((a.pc + 1 : Nat) : Int)
    let c := if e.rd < 4 then b.flag e.rd else if e.rd < 8 then !b.flag (e.rd - 4) else true
    let goto (target : Int) (b : Bank) : Host.Outcome State Fault Refusal := .next (settle s (s.ran1 t (a.after e 2 target.toNat .none) b))
    let on (b : Bank) : Host.Outcome State Fault Refusal := .next (settle s (s.stepped t e a 1 .none b))
    let out : Host.Outcome State Fault Refusal := .next (settle s (s.chanFault t 3 0 (hazardCycles a.hazard e) a))
    (a.has e 2 →
      (e.op = .br → c = true → 0 ≤ next + e.imm → next + e.imm ≤ 4095 → exec (.br t) s = goto (next + e.imm) b) ∧
      (e.op = .dbnz → b.val e.rd ≠ 1 → 0 ≤ next + e.imm → next + e.imm ≤ 4095 →
        exec (.dbnz t) s = goto (next + e.imm) (b.setVal e.rd (b.val e.rd - 1))) ∧
      (e.op = .jmp → 0 ≤ e.imm → e.imm ≤ 4095 → exec (.jmp t) s = goto e.imm b) ∧
      (e.op = .call → 0 ≤ e.imm → e.imm ≤ 4095 → exec (.call t) s = goto e.imm (b.setVal 15 (BitVec.ofNat 32 (a.pc + 1)))) ∧
      (e.op = .jr → (b.val e.ra).toNat ≤ 4095 → exec (.jr t) s = goto (b.val e.ra).toNat b)) ∧
    (a.has e 1 →
      (e.op = .br → c = false → exec (.br t) s = on b) ∧
      (e.op = .dbnz → b.val e.rd = 1 → exec (.dbnz t) s = on (b.setVal e.rd 0)) ∧
      (e.op = .nop → exec (.nop t) s = on b) ∧
      (e.op = .br → c = true → ¬ (0 ≤ next + e.imm ∧ next + e.imm ≤ 4095) → exec (.br t) s = out) ∧
      (e.op = .dbnz → b.val e.rd ≠ 1 → ¬ (0 ≤ next + e.imm ∧ next + e.imm ≤ 4095) → exec (.dbnz t) s = out) ∧
      (e.op = .jmp → ¬ (0 ≤ e.imm ∧ e.imm ≤ 4095) → exec (.jmp t) s = out) ∧
      (e.op = .call → ¬ (0 ≤ e.imm ∧ e.imm ≤ 4095) → exec (.call t) s = out) ∧
      (e.op = .jr → (b.val e.ra).toNat > 4095 → exec (.jr t) s = out))

/-- LD and ST move the bytes at the computed address, in the own data RAM, a scratchpad or over the device bus. -/
def Obligations.LoadAndStoreReachTheDataRam : Prop :=
  ∀ (s : State) (t : Fin 256) (w : PortWait) (e : EI) (a : Act), Issues s t e a → a.has e 1 →
    let b := s.bankOf t a
    let i := 16 * t.val + a.slot
    let c := s.chanOf i
    let size := 2 ^ e.sz
    let addr := (e.address b).1
    let b1 := b.setPtr e.sub (e.address b).2
    let v := (b.val e.rd).toNat % 2 ^ (8 * size)
    let bad (s1 : State) (cause : Nat) : Host.Outcome State Fault Refusal :=
      .next (settle s (s1.chanFault t cause addr (hazardCycles a.hazard e) a))
    let on (s1 : State) (n : Nat) (bank : Bank) (ws : List Word) : Host.Outcome State Fault Refusal :=
      .next (settle s ((s1.setChan i { c with bank := bank }).goesOn t { a.after e n (a.pc + 1) .none with words := a.words ++ ws }))
    let aligned : Prop := addr.toNat % size = 0 ∨ rotateView addr.toNat = true
    (∀ m, addr.toNat % size = 0 → targetOf t a.slot addr.toNat = .own m →
      let r := s.memRead m size
      (e.op = .ld → r.2.2 = false → exec (.ld t w) s =
        .next (settle s (r.1.stepped t e a 1 (.loaded e.rd) (b1.setVal e.rd (extend size r.2.1 e.sx))))) ∧
      (e.op = .ld → r.2.2 = true → exec (.ld t w) s = bad r.1 7) ∧
      (e.op = .st → exec (.st t w) s =
        let s1 := s.memWrite 0 m size v
        .next (settle s ((if s1.joinRuns then s1.toPartner "WRITE" [m, size, v] else s1).stepped t e a 1 .none b1)))) ∧
    (∀ m, aligned → a.log = none → targetOf t a.slot addr.toNat = .scratch m →
      let bank := bankOfAddr m
      let wait := s.portWait m (t % 16) w
      let view := m / 0x1000000 % 4
      let r := (s.portServed bank (t % 16) w).memRead (normalView m) size
      let n := (if view = 1 ∨ view = 2 then 3 else 2) + wait
      let s1 := s.noteStore t (streamWord addr ++ streamWord (BitVec.ofNat 32 v))
      (e.op = .ld → a.has e (3 + wait) → r.2.2 = false →
        exec (.ld t w) s = on r.1 (3 + wait) (b1.setVal e.rd (extend size r.2.1 e.sx)) [extend size r.2.1 e.sx]) ∧
      (e.op = .ld → r.2.2 = true → exec (.ld t w) s = bad r.1 7) ∧
      (e.op = .st → a.has e n → exec (.st t w) s =
        on (((s1.portServed bank (t % 16) w).memWrite view (normalView m) size v).toPartner "WRITE" [m, size, v]) n b1 [])) ∧
    (∀ m, aligned → a.log = none → targetOf t a.slot addr.toNat = .global m →
      let s1 := s.noteStore t (streamWord addr ++ streamWord (BitVec.ofNat 32 v))
      let n := 1 + (if (s.engOf t).stalled then w.earlier else 0)
      (e.op = .ld → s.refused t a.slot addr.toNat size false = false → exec (.ld t w) s = .next (settle s
        (((s.setEng t { s.engOf t with gload := some ⟨m, size, e.sx, e.rd, e.sub, (e.address b).2, s.tb.now, none⟩ }).setChan i c).goesOn t
          { a with pc := a.pc + 1, used := a.used + hazardCycles a.hazard e, hazard := .none, skipBp := false }))) ∧
      (e.op = .st → s.refused t a.slot addr.toNat size true = false → a.has e n → (s.engOf t).buf.length < 4 → exec (.st t w) s =
        on (s1.setEng t { s1.engOf t with
          buf := (s1.engOf t).buf ++ [⟨m, size, BitVec.ofNat 32 v, a.slot, a.pc, s.tb.now⟩] }) n b1 []) ∧
      (e.op = .st → s.refused t a.slot addr.toNat size true = false → 4 ≤ (s.engOf t).buf.length → exec (.st t w) s =
        .next (settle s (s.setEng t { s.engOf t with stalled := true })))) ∧
    (addr.toNat % size ≠ 0 → rotateView addr.toNat = false →
      (e.op = .ld → exec (.ld t w) s = bad s 4) ∧ (e.op = .st → exec (.st t w) s = bad s 4)) ∧
    (aligned →
      (e.op = .ld → s.refused t a.slot addr.toNat size false = true → exec (.ld t w) s = bad s 5) ∧
      (e.op = .st → s.refused t a.slot addr.toNat size true = true → exec (.st t w) s = bad s 5))

/-- A write through the normal view stores exactly the addressed bytes, little-endian, and leaves every other byte. -/
def Obligations.MemoryWriteStoresItsBytes : Prop :=
  ∀ (s : State) (m size v : Nat), (size = 1 ∨ size = 2 ∨ size = 4) → m % size = 0 → s.flipCount (m - m % 4) = 0 →
    (∀ i, i < size → ((s.memWrite 0 m size v).byte (m + i)).toNat = v / 256 ^ i % 256) ∧
    (∀ x, x < m ∨ m + size ≤ x → (s.memWrite 0 m size v).byte x = s.byte x) ∧
    (s.memRead m size).2.1 = s.load m size

/-- ST changes no byte of memory outside the bytes at its address, and the other engine instructions change none. -/
def Obligations.StoreTouchesOnlyItsBytes : Prop :=
  ∀ (s u : State) (t : Fin 256) (w : PortWait) (n : Nat),
    (∀ e a, Issues s t e a → e.op = .st → exec (.st t w) s = .next u →
      let addr := (e.address (s.bankOf t a)).1.toNat
      (∀ m, targetOf t a.slot addr = .own m → ∀ x, x < m ∨ m + 2 ^ e.sz ≤ x → u.byte x = s.byte x) ∧
      (∀ m, targetOf t a.slot addr = .scratch m → ∀ x, x < normalView m - normalView m % 4 ∨ normalView m - normalView m % 4 + 4 ≤ x → u.byte x = s.byte x) ∧
      (∀ m, targetOf t a.slot addr = .global m → ∀ x, u.byte x = s.byte x)) ∧
    (∀ c ∈ [Instr.add t, .sub t, .adds t, .subs t, .and_ t, .or_ t, .xor t, .andn t, .shl t, .shr t, .sar t, .shls t, .min_ t, .max_ t,
        .abs t, .neg t, .mulq31 t, .mulq16 t, .mul t, .clamp t, .mac t, .msu t, .mpy t, .rda t, .wra t, .clra t, .adda t, .eq t, .ne t,
        .lt t, .le t, .ltu t, .leu t, .tst t, .sel t, .addi t, .addsi t, .andi t, .ori t, .xori t, .shi t, .cmpi t, .br t, .dbnz t, .li t,
        .lui t, .jmp t, .call t, .jr t, .nop t, .eos t, .yield_ t, .brk t, .mfs t, .mts t, .addp t, .rdint t, .stout t, .post t n, .cancel ⟨t, n⟩, .rdin t, .rcps t,
        .sqrs t, .illegal t], exec c s = .next u → ∀ x, u.byte x = s.byte x)

/-- MFS reads and MTS writes the special registers, ADDP steps a pointer, LUT interpolates. -/
def Obligations.SpecialRegistersMove : Prop :=
  ∀ (s : State) (t : Fin 256) (e : EI) (a : Act), Issues s t e a →
    let b := s.bankOf t a
    let c := s.chanOf (16 * t + a.slot)
    let f : Eff := ⟨s, t, c, { a with pc := a.pc + 1, hazard := .none, used := a.used + hazardCycles a.hazard e }⟩
    let p := (b.ptr e.sub).toNat
    let n := e.imm.toNat
    let x := (if e.fe then b.val e.ra ^^^ 0x80000000 else b.val e.ra).toNat
    (a.has e 1 →
      (e.op = .mfs → ¬ (2 ≤ e.sub ∧ e.sub ≤ 9) → exec (.mfs t) s =
        .next (settle s (s.stepped t e a 1 .none (b.setVal e.rd (f.special e.sub))))) ∧
      (e.op = .mfs → 2 ≤ e.sub → e.sub ≤ 9 → a.log = none → exec (.mfs t) s =
        .next (settle s ((s.setChan (16 * t + a.slot) { c with
          trig := if e.sub = 2 then 0 else c.trig, bank := b.setVal e.rd (f.special e.sub) }).goesOn t
            { a.after e 1 (a.pc + 1) .none with words := a.words ++ [f.special e.sub] }))) ∧
      (e.op = .mts → e.sub = 0 → exec (.mts t) s = .next (settle s (s.stepped t e a 1 .none (b.setStat (b.val e.ra))))) ∧
      (e.op = .mts → e.sub ≠ 0 → exec (.mts t) s =
        .next (settle s (s.stepped t e a 1 (.ptr (e.sub % 4)) (b.setSpecial e.sub (b.val e.ra))))) ∧
      (e.op = .addp → exec (.addp t) s =
        .next (settle s (s.stepped t e a 1 .none (b.setPtr e.sub (b.stepPtr e.sub e.imm)))))) ∧
    (a.has e 4 → e.op = .lut → p % 4 = 0 → 0x1000 ≤ p → p < 0x2000 → p + 4 * n - 1 < 0x2000 →
      let m := 0x20000000 + t * 0x4000 + p
      let i := lutIndex n x
      s.flipCount (m + 4 * i) = 0 → s.flipCount (m + 4 * (i + 1)) = 0 →
      exec (.lut t) s = .next (settle s (s.stepped t e a 4 .none
        (b.setVal e.rd (lutValue n x (s.word (m + 4 * i)) (s.word (m + 4 * (i + 1)))))))) ∧
    (a.has e 1 → e.op = .lut →
      let bad (s1 : State) (cause : Nat) (w : Word) : Host.Outcome State Fault Refusal :=
        .next (settle s (s1.chanFault t cause w (hazardCycles a.hazard e) a))
      (p % 4 ≠ 0 → exec (.lut t) s = bad s 4 (b.ptr e.sub)) ∧
      (p % 4 = 0 → ¬ (p + 4 * n - 1 < 0x100 ∨ (0x1000 ≤ p ∧ p + 4 * n - 1 < 0x2000)) → exec (.lut t) s = bad s 5 (b.ptr e.sub)) ∧
      (p % 4 = 0 → 0x1000 ≤ p → p + 4 * n - 1 < 0x2000 → ∀ m, targetOf t a.slot p = .own m →
        let r := s.readWord (m + 4 * lutIndex n x)
        r.2.2 = true → exec (.lut t) s = bad r.1 7 (BitVec.ofNat 32 (p + 4 * lutIndex n x))))

/-- RDIN reads the bound source in four cycles, RDINT its timestamp, STOUT stages a word. -/
def Obligations.BindingsReadAndStage : Prop :=
  ∀ (s : State) (t : Fin 256) (e : EI) (a : Act), Issues s t e a → a.log = none →
    let b := s.bankOf t a
    let i := 16 * t.val + a.slot
    let c := s.chanOf i
    let kind := (c.desc.inp e.sub).1
    let n := (c.desc.inp e.sub).2
    let bad : Host.Outcome State Fault Refusal := .next (settle s (s.chanFault t 6 0 (hazardCycles a.hazard e) a))
    let read (s1 : State) (c1 : Chan) (w : Word) (fresh : Bool) : Host.Outcome State Fault Refusal :=
      let b1 := b.setVal e.rd w
      .next (settle s ((s1.setChan i { c1 with bank := if e.fe then b1.setFlag e.fl fresh else b1 }).goesOn t
        { a.after e 4 (a.pc + 1) .none with
          words := if e.fe then a.words ++ [w] ++ [BitVec.ofNat 32 (b2n fresh)] else a.words ++ [w] }))
    (a.has e 4 → e.op = .rdin →
      (kind = 4 → let q := s.popCapture (t / 16) n
        exec (.rdin t) s = read q.1 c (q.2.getD 0) q.2.isSome) ∧
      (kind ≠ 0 → kind ≠ 4 →
        let q := s.source (t / 16) kind n
        let old := tget (0, false) c.fresh e.sub
        exec (.rdin t) s = read s (if q.2.2.1 then { c with
            fresh := tset (0, false) c.fresh e.sub (q.2.1, true), stamp := tset 0 c.stamp e.sub q.2.2.2 } else c)
          q.1 (q.2.2.1 && (!old.2 || old.1 != q.2.1)))) ∧
    (a.has e 1 →
      (e.op = .rdint → kind = 1 → exec (.rdint t) s =
        .next (settle s (s.ran1 t { a.after e 1 (a.pc + 1) .none with words := a.words ++ [tget 0 c.stamp e.sub] }
          (b.setVal e.rd (tget 0 c.stamp e.sub))))) ∧
      (e.op = .stout → (c.desc.out e.sub).1 ≠ 0 → (c.desc.out e.sub).1 ≠ 4 → exec (.stout t) s =
        .next (settle s (s.ran1 t { a.after e 1 (a.pc + 1) .none with stage := tput a.stage e.sub (b.val e.ra, e.fe) } b))) ∧
      (e.op = .rdin → kind = 0 → exec (.rdin t) s = bad) ∧
      (e.op = .rdint → kind ≠ 1 → exec (.rdint t) s = bad) ∧
      (e.op = .stout → ((c.desc.out e.sub).1 = 0 ∨ (c.desc.out e.sub).1 = 4) → exec (.stout t) s = bad))

/-- POST gives its entry to the action store and writes the answer to rd; CANCEL enters the store's FIFO behind the posts. -/
def Obligations.PostAndCancelReachTheStore : Prop :=
  ∀ (s : State) (t : Fin 256) (w : Nat) (e : EI) (a : Act), Issues s t e a →
    let b := s.bankOf t a
    let i := 16 * t.val + a.slot
    let c := s.chanOf i
    let x := s.storeOf (t / 16)
    let w3 := BitVec.ofNat 32 ((b.val (e.ra + 3)).toNat % 2 ^ 16 + (t.val % 16 * 2 ^ 28 + a.slot * 2 ^ 24))
    let act : Action := ⟨b.val e.ra, b.val (e.ra + 1), b.val (e.ra + 2), w3, 0, 0, .unjudged⟩
    let answers (s1 : State) (r : Word) : Host.Outcome State Fault Refusal :=
      .next (settle s ((s1.setChan i { c with bank := b.setVal e.rd r }).goesOn t
        { a.after e (2 + w) (a.pc + 1) .none with words := a.words ++ [r] }))
    (a.log = none → e.op = .post → a.has e (2 + w) →
      (s.badEntry act = true → exec (.post t w) s = answers s 2) ∧
      (s.badEntry act = false → c.desc.inRange act = true → 256 ≤ x.inUse →
        exec (.post t w) s = answers ((s.addSat (TB_QCNT_OTHER_FULL (t / 16)) 1).setFld TB_IRQ_STAT_FULL 1) 1) ∧
      (s.badEntry act = false → c.desc.inRange act = true → x.inUse < 256 →
        exec (.post t w) s = answers (((s.setStore (t / 16) { x with fifo := x.fifo ++ [.post act] }).setFld (TB_QSTAT_HIGH (t / 16))
          (max (s.fld (TB_QSTAT_HIGH (t / 16))) (x.inUse + 1))).notePost t
            ([act.w0, act.w1, act.w2, BitVec.ofNat 32 (w3.toNat % 2 ^ 16)].flatMap streamWord)) 0)) ∧
    (a.log = none → e.op = .post → a.has e 1 → s.badEntry act = false → c.desc.inRange act = false →
      exec (.post t w) s = .next (settle s (s.chanFault t 6 0 (hazardCycles a.hazard e) a))) ∧
    (a.log = none → e.op = .cancel → a.has e (1 + w) →
      let v := (b.val e.ra).toNat
      exec (.cancel ⟨t, w⟩) s = .next (settle s
        (let s1 := s.setStore (t / 16) { x with
          fifo := x.fifo ++ [QItem.cancel (bits v 31 16) (bits v 15 0) (some (t.val % 16 * 16 + a.slot)) (some t)] }
        let s2 := s1.setEng t { s1.engOf t with cancelRd := some e.rd }
        (s2.setChan i c).goesOn t { a with
          pc := a.pc + 1, used := a.used + hazardCycles a.hazard e + w, hazard := .none, skipBp := false }))) ∧
    (∀ v r, a.log = some (v :: r) → e.op = .cancel → a.has e 1 → exec (.cancel ⟨t, w⟩) s =
      .next (settle s (s.ran1 t { a.after e 1 (a.pc + 1) .none with log := some r } (b.setVal e.rd v))))

/-- Slots activate in layout order, end with EOS or YIELD, fault on an illegal word, and overrun when the budget ends. -/
def Obligations.ActivationsStartAndEnd : Prop :=
  ∀ (s : State) (t : Fin 256),
    (∀ x l, (s.engOf t).act = none → s.engineRuns t = true → s.live = true →
      takeSlice (fun k => (s.slotOf t k).mayRun) (s.engOf t).layout = (some x, l) → exec (.activationStart t) s =
        .next (settle s ((s.setEng t { s.engOf t with layout := l }).activate t x.slot (x.offset + 2) x.budget))) ∧
    (∀ e a, Issues s t e a → a.has e 1 →
      let b := s.bankOf t a
      let ending (how : Ending) : Host.Outcome State Fault Refusal :=
        .next (settle s (s.ran1 t { a.after e 1 (a.pc + 1) .none with ending := some how } b))
      (e.op = .eos → exec (.eos t) s = ending .eos) ∧ (e.op = .yield_ → exec (.yield_ t) s = ending .yield_) ∧
      (e.op = .brk → (s.engOf t).brk = false → exec (.brk t) s =
        .next (settle s (s.chanFault t 8 0 (hazardCycles a.hazard e) a))) ∧
      (e.op = .brk → (s.engOf t).brk = true → exec (.brk t) s = .next (settle s (s.debugStop t 1 a.pc a)))) ∧
    (∀ a, s.issues t = some a → a.pc ≤ 4095 → s.flipCount (instrAddr t a.pc) = 0 → (s.engOf t).bp ≠ some (a.slot, a.pc) →
      decodeWord (s.word (instrAddr t a.pc)).toNat = none → exec (.illegal t) s = .next (settle s (s.chanFault t 2 0 0 a))) ∧
    (∀ a how w, (s.engOf t).act = some a → a.ending = some how → how ≠ .fault → (s.engOf t).buf = [] → a.used + w ≤ a.budget →
      a.log = none → exec (.activationEnd t w) s = .next (settle s
        (let s1 := s.commit t a.slot a.stage
        let c := s1.chanOf (16 * t + a.slot)
        (s1.setChan (16 * t + a.slot) { c with
          ovrConsec := 0, preempted := false, resumed := how == .yield_, first := false,
          bank := { c.bank with pc := if how == .yield_ then a.pc else c.entry },
          halt := if a.step then some 3 else c.halt }).ran t (b2n (how == .yield_)) { a with used := a.used + w }))) ∧
    (∀ a w, (s.engOf t).act = some a → a.ending = some .fault → (s.engOf t).buf = [] → a.used + w ≤ a.budget →
      exec (.activationEnd t w) s = .next (settle s (s.ran t 3 { a with used := a.used + w }))) ∧
    (∀ a, (s.engOf t).act = some a → a.used = a.budget → a.ending = none → a.log = none → (s.engOf t).cancelRd = none →
      (s.engOf t).gload = none → ∃ u, exec (.preempt t) s = .next u ∧ (u.engOf t).act = none ∧ (u.engOf t).buf = [] ∧
        let c := s.chanOf (16 * t + a.slot)
        let d := u.chanOf (16 * t + a.slot)
        d.ovrTotal = min (c.ovrTotal + 1) 0xFFFF ∧ d.ovrConsec = min (c.ovrConsec + 1) 0xFF ∧ d.preempted = true ∧ d.bank.pc = c.entry ∧
        d.bank.v = c.bank.v ∧ u.fb ALLOC_IRQ_STAT_OVERRUN = true)

/-- A cancel at the head of the post FIFO removes the armed entries it hits and returns their number. -/
def Obligations.CancelsReturnTheirCount : Prop :=
  ∀ (s : State) (k : Fin 16) (n tag mask : Nat) (r : List QItem),
    (((s.storeOf k).fifo = .cancel tag mask none none :: r) → exec (.cancelArm k n) s = .next (settle s
      (let q := (s.setStore k { s.storeOf k with fifo := r }).cancelArmed k tag mask none
      { q.1 with hop := { q.1.hop with done := true, result := q.2 } }))) ∧
    (∀ o t a rd, (s.storeOf k).fifo = .cancel tag mask o (some t) :: r →
      let q := (s.setStore k { s.storeOf k with fifo := r }).cancelArmed k tag mask o
      (q.1.engOf t).act = some a → (q.1.engOf t).cancelRd = some rd →
      exec (.cancelArm k n) s = .next (settle s ((q.1.setEng t { q.1.engOf t with cancelRd := none }).unblock t
        (max n (5 + s.sectUp k 8)) a (fun b => b.setVal rd (BitVec.ofNat 32 q.2)) (BitVec.ofNat 32 q.2))))

/-- The CHECK of a handle is the exclusive or of its other three bytes and 0x5A. -/
def Obligations.HandlesCarryTheirCheck : Prop :=
  ∀ (i gen : Nat), i < 4096 → gen < 4096 →
    let h := handleOf i gen
    bits h 31 24 = bits h 23 16 ^^^ bits h 15 8 ^^^ bits h 7 0 ^^^ 0x5A ∧ bits h 11 0 = i ∧ bits h 23 12 = gen ∧ h < 2 ^ 32

/-- CLAIM takes a free buffer, its owner's request waits, another's write is FOREIGN, RELEASE and ALLOC_RBFREE free it. -/
def Obligations.RequestBuffersAreOwned : Prop :=
  ∀ (s : State) (req : Fin 405) (b : Fin 16) (staged : Bool),
    let own := s.fb (ALLOC_RB_CMD_OWNED b) = true ∧ s.fld (ALLOC_RB_CMD_OWNER b) = req
    let pend := s.fb (ALLOC_RB_CMD_PEND b)
    let queued (op : Nat) : State :=
      { (s.setFld (ALLOC_RB_CMD_DONE b) 0).setFld (ALLOC_RB_CMD_PEND b) 1 with aq := s.aq ++ [⟨b, op, staged⟩] }
    (pend = false → s.fb (ALLOC_RB_CMD_OWNED b) = false → exec (.claim req b) s =
      .next (settle s ((s.setFld (ALLOC_RB_CMD_OWNED b) 1).setFld (ALLOC_RB_CMD_OWNER b) req))) ∧
    (pend = false → s.fb (ALLOC_RB_CMD_OWNED b) = true → exec (.claim req b) s = .next (settle s s)) ∧
    (own → pend = false → exec (.create req b staged) s = .next (settle s (queued 1)) ∧
      exec (.destroy req b staged) s = .next (settle s (queued 2)) ∧ exec (.modify req b staged) s = .next (settle s (queued 3)) ∧
      exec (.query req b staged) s = .next (settle s (queued 4))) ∧
    (own → pend = true → exec (.create req b staged) s = .next (settle s (s.setFld ALLOC_STATUS_REENTRY 1))) ∧
    (¬ own → pend = false → exec (.create req b staged) s = .next (settle s (s.setFld ALLOC_STATUS_FOREIGN 1))) ∧
    (own → pend = false → exec (.rbRelease req b) s =
      .next (settle s ((s.setFld (ALLOC_RB_CMD_OWNED b) 0).setFld (ALLOC_RB_CMD_OWNER b) 0))) ∧
    (own → pend = true → exec (.rbRelease req b) s = .next (settle s { s with rb := tset false s.rb b true })) ∧
    (s.fb (ALLOC_RB_CMD_OWNED b) = true → pend = false → exec (.allocRbfree (BitVec.ofNat 32 (2 ^ b.val))) s =
      .next (settle s ((s.setFld (ALLOC_RB_CMD_OWNED b) 0).setFld (ALLOC_RB_CMD_OWNER b) 0))) ∧
    (s.fb (ALLOC_RB_CMD_OWNED b) = true → pend = true → exec (.allocRbfree (BitVec.ofNat 32 (2 ^ b.val))) s =
      .next (settle s (({ s with rb := tset false s.rb b true } : State).orBit ALLOC_RBFREE_FREE b)))

/-- REQUEST_DONE answers a refused request with its code, and performs an accepted CREATE, DESTROY, MODIFY or QUERY. -/
def Obligations.RequestsAreJudgedAndDone : Prop :=
  ∀ (s : State) (q : Request) (r : List Request), s.aq = q :: r → tget false s.rb q.buf = false →
    let s0 : State := { s with aq := r }
    let place := (s.reg (ALLOC_RB_PLACE_at q.buf)).toNat
    let i := place % 4096
    let c := s.chanOf i
    let d := s.readDesc q.buf
    let e := s.effTick
    let field := (s0.judge q).2
    let fin (x : State) (code res tick : Nat) : State :=
      (((((x.setFld (ALLOC_RB_CMD_CODE q.buf) code).setFld (ALLOC_RB_CMD_FIELD q.buf) field).setFld (ALLOC_RB_RESULT_RESULT q.buf)
        res).setFld (ALLOC_RB_TICK_TICK q.buf) tick).setFld (ALLOC_RB_CMD_DONE q.buf) 1).setFld (ALLOC_RB_CMD_PEND q.buf) 0
    ((s0.judge q).1 ≠ 0 → exec .requestDone s = .next (settle s (fin s0 (s0.judge q).1 0 0))) ∧
    ((s0.judge q).1 = 0 → q.staged = false →
      (∀ j, q.op = 1 → s0.pickSlot place = some j → d.mode.toNat.testBit 3 = false →
        let m := (startTick e d.start).getD e
        exec .requestDone s = .next (settle s (fin (s0.setSlot j { newChan (s.chanOf j).gen d .starting with startTick := some m }) 0
          (handleOf j (s.chanOf j).gen) (m.toNat % 2 ^ 32)))) ∧
      (q.op = 2 → c.st ≠ .stopping → exec .requestDone s = .next (settle s (fin (s0.setSlot i { c with
        st := .stopping, stopTick := some e, stop := none, kept := [], resume := none }) 0 0 (e.toNat % 2 ^ 32)))) ∧
      (q.op = 3 → exec .requestDone s = .next (settle s (fin (s0.setSlot i { c with
        mods := c.mods ++ [(e, c.desc.modified d)] }) 0 0 (e.toNat % 2 ^ 32)))) ∧
      (q.op = 4 → exec .requestDone s = .next (settle s (fin (s0.query q.buf i).1 0 (c.st.code + 16 * c.note + 64 * b2n c.gated) 0))))

/-- A fault report takes its channel to FAULTED with a log entry, a release ends it, holds and pops act. -/
def Obligations.FaultsEndChannels : Prop :=
  (∀ (s : State) (t : Fin 256) (k : Fin 16),
    let i := 16 * t.val + k.val
    let c := s.chanOf i
    (∀ f, c.unreported = some f → c.st ≠ .stopping → s.flog.length < 16 → ∃ u, exec (.faultReport t k) s = .next u ∧
      (u.chanOf i).st = .faulted ∧ (u.chanOf i).fault = some f ∧ (u.chanOf i).unreported = none ∧ (u.chanOf i).gen = c.gen ∧
      (u.chanOf i).releaseTick = some s.effTick ∧ u.flog = s.flog ++ [⟨BitVec.ofNat 32 (handleOf i c.gen), f⟩] ∧
      u.fb ALLOC_IRQ_STAT_FAULT = true) ∧
    let first := s.strobesFor (.sect (Fin.ofNat 16 (t.val / 16)))
    (first ≠ [] → exec (.channelRelease t k) s = .next (settle s s)) ∧
    (∀ m, first = [] → c.releaseTick = some m → m.toNat ≤ s.tb.tick.toNat → c.st ≠ .stopping → c.released = false →
      ∃ u, exec (.channelRelease t k) s = .next u ∧ (u.chanOf i).released = true ∧ (u.chanOf i).releaseTick = none ∧
        (u.chanOf i).defOut = [] ∧ (u.chanOf i).st = c.st) ∧
    (∀ m, first = [] → c.stopTick = some m → m.toNat ≤ s.tb.tick.toNat → c.st = .stopping →
      ∃ u, exec (.channelRelease t k) s = .next u ∧ u.chanOf i = { chanReset with gen := nextGen c.gen })) ∧
  (∀ (s : State) (v : Word),
    (v.getLsbD 0 = true → exec (.flogPop v) s = .next (settle s { s with flog := s.flog.drop 1 })) ∧
    (v.getLsbD 0 = false → exec (.flogPop v) s = .next (settle s s))) ∧
  (∀ (s : State) (w : Fin 8) (v : Word),
    ((∀ j < 512, (s.chanOf (512 * w.val + j)).st.admitted = false) → ∃ u, exec (.engholdWrite w v) s = .next u ∧
      u.reg (ALLOC_ENGHOLD_at w) = v ∧ u.fb ALLOC_STATUS_HOLDREF = s.fb ALLOC_STATUS_HOLDREF) ∧
    (∀ j : Fin 32, ∀ k : Fin 16, v.getLsbD j = true → (s.chanOf (512 * w.val + 16 * j.val + k.val)).st.admitted = true →
      ∃ u, exec (.engholdWrite w v) s = .next u ∧ u.fbit (ALLOC_ENGHOLD_HOLD w) j = false ∧ u.fb ALLOC_STATUS_HOLDREF = true))

/-- Edges move an encoder's count and exact angle, an SSI frame sets its angle, an index corrects it, a timeout stops it. -/
def Obligations.EncodersMoveTheirCount : Prop :=
  ∀ (s : State) (i : Fin 4),
    let e := s.encOf i
    let epr := s.fld (TB_ENC_EPR_EPR i)
    let m := s.fld (TB_ENC_CFG_MODE i)
    let on := s.pwr.released = true
    let fed := (s.fed (0xA0 + 3 * i) || s.fed (0xA1 + 3 * i)) = true
    let bad := (s.addSat (TB_ENC_STAT_ERR i) 1).setFld TB_IRQ_STAT_ENCERR 1
    (m = 1 → on → fed → s.tooClose i = false → e.cnt + 1 < epr → ∃ u, exec (.encoderEdge i .forward) s = .next u ∧
      (u.encOf i).cnt = e.cnt + 1 ∧ (u.encOf i).rev = e.rev ∧
      (u.encOf i).angle = BitVec.ofNat 32 ((e.cnt + 1) * 2 ^ 32 / epr) ∧ (u.encOf i).dir = false) ∧
    (m = 1 → on → fed → s.tooClose i = false → epr ≤ e.cnt + 1 → ∃ u, exec (.encoderEdge i .forward) s = .next u ∧
      (u.encOf i).cnt = 0 ∧ (u.encOf i).rev = e.rev + 1 ∧ (u.encOf i).angle = 0 ∧ (u.encOf i).dir = false) ∧
    (m = 1 → on → fed → s.tooClose i = false → e.cnt ≠ 0 → ∃ u, exec (.encoderEdge i .reverse) s = .next u ∧
      (u.encOf i).cnt = e.cnt - 1 ∧ (u.encOf i).rev = e.rev ∧
      (u.encOf i).angle = BitVec.ofNat 32 ((e.cnt - 1) * 2 ^ 32 / epr) ∧ (u.encOf i).dir = true) ∧
    (m = 1 → on → fed → s.tooClose i = false → e.cnt = 0 → ∃ u, exec (.encoderEdge i .reverse) s = .next u ∧
      (u.encOf i).cnt = epr - 1 ∧ (u.encOf i).rev = e.rev - 1 ∧ (u.encOf i).dir = true) ∧
    (∀ k, m = 1 → on → fed → s.tooClose i = true → k = .forward ∨ k = .reverse →
      exec (.encoderEdge i k) s = .next (settle s bad)) ∧
    (m = 1 → on → fed → exec (.encoderEdge i .illegal) s = .next (settle s bad)) ∧
    (∀ k, m ≠ 1 ∨ ¬ on ∨ ¬ fed → exec (.encoderEdge i k) s = .next (settle s s)) ∧
    (m = 1 → on → s.fed (0xA2 + 3 * i) = true → s.fb (TB_ENC_CFG_IDXEN i) = true → e.cnt ≠ s.fld (TB_ENC_IDX_COUNT i) →
      ∃ u, exec (.indexEdge i true) s = .next u ∧ (u.encOf i).cnt = s.fld (TB_ENC_IDX_COUNT i) ∧ u.fb TB_IRQ_STAT_IDX = true) ∧
    (m = 2 ∨ m = 3 → on → exec (.ssiRead i) s = .next (settle s (s.setEnc i { e with
      ssiStart := s.tb.now, ssiBusy := some (s.tb.now - BitVec.ofNat 64 (s.fld (TB_ENC_SSI_LATENCY i))) }))) ∧
    (∀ d p, e.ssiBusy ≠ none → exec (.ssiSample i d p false) s = .next (settle s
      (((s.setEnc i { e with ssiBusy := none }).addSat (TB_ENC_STAT_ERR i) 1).setFld TB_IRQ_STAT_ENCERR 1))) ∧
    (∀ d p, e.ssiBusy ≠ none → m = 2 → s.fb (TB_ENC_SSI_PARITY i) = false → ∃ u, exec (.ssiSample i d p true) s = .next u ∧
      let n := s.fld (TB_ENC_SSI_BITS i)
      (u.encOf i).angle = (if s.fed (0xA0 + 3 * i) then BitVec.ofNat 32 (d.toNat % 2 ^ n * 2 ^ (32 - n)) else 0) ∧
      (u.encOf i).ssiBusy = none ∧ (u.encOf i).ssiGood = true) ∧
    (m ≠ 0 → ∃ u, exec (.encoderTimeout i) s = .next u ∧ (u.encOf i).speed = 0 ∧ (u.encOf i).speedOk = false ∧
      (u.encOf i).stopped = true ∧ (s.src = i → u.tb.speedOk = false ∧ u.tb.stopped = true ∧ u.fb TB_IRQ_STAT_STOP = true))

/-- A time read latches its set; the host's post and cancel clear DONE, act on the store of the sector or report STOPPED, and HRESULT_DONE shows the result. -/
def Obligations.HostReadsPostsAndCancels : Prop :=
  ∀ (s : State) (k : Fin 16) (mask : BitVec 16) (req : Fin 405),
    let s0 := s.setFld TB_HPOST_CTRL_SECT k
    let s1 := s0.setFld TB_HRESULT_DONE 0
    let a : Action := ⟨s0.reg (TB_HPOST_W_at 0), s0.reg (TB_HPOST_W_at 1), s0.reg (TB_HPOST_W_at 2),
      BitVec.ofNat 32 ((s0.reg (TB_HPOST_W_at 3)).toNat % 2 ^ 16 + 2 ^ 23), 0, 0, .unjudged⟩
    let x := s1.storeOf k
    let runs := s0.sectRuns k = true
    let now : BitVec 64 := if s.tb.nowValid then s.tb.now else s.free ++ s.free
    exec (.tbNowLoRead req) s = .next (settle s (({ s with
      snaps := tset none s.snaps req (some ⟨now, s.tb.tick, s.P, s.tb.speed, s.mstat⟩) } : State).emit
        (.readData req TB_NOW_LO_at (now.setWidth 32)))) ∧
    (s.src = 4 → 0 < s.vspeed →
      let n := (2 ^ 48 - s.tb.v.toNat % 2 ^ 48 + s.vspeed.natAbs - 1) / s.vspeed.natAbs
      exec .virtualSourceWrap s = .next (settle s (if n ≤ s.toNextEdge then s.advance n else s))) ∧
    (s.src = 4 → s.vspeed < 0 →
      let n := s.tb.v.toNat % 2 ^ 48 / s.vspeed.natAbs + 1
      exec .virtualSourceWrap s = .next (settle s (if n ≤ s.toNextEdge then s.advance n else s))) ∧
    (s.src ≠ 4 ∨ s.vspeed = 0 → exec .virtualSourceWrap s = .next (settle s s)) ∧
    (s0.fb TB_HRESULT_DONE = true → runs → s1.badEntry a = true → exec (.hpostGo k) s =
      .next (settle s { s1 with hop := ⟨true, 2, false⟩ })) ∧
    (s0.fb TB_HRESULT_DONE = true → runs → s1.badEntry a = false → 256 ≤ x.inUse → exec (.hpostGo k) s =
      .next (settle s { (s1.addSat (TB_QCNT_OTHER_FULL k) 1).setFld TB_IRQ_STAT_FULL 1 with hop := ⟨true, 1, false⟩ })) ∧
    (s0.fb TB_HRESULT_DONE = true → runs → s1.badEntry a = false → x.inUse < 256 → exec (.hpostGo k) s =
      .next (settle s { (s1.setStore k { x with fifo := x.fifo ++ [.post a] }).setFld (TB_QSTAT_HIGH k)
        (max (s1.fld (TB_QSTAT_HIGH k)) (x.inUse + 1)) with hop := ⟨true, 0, false⟩ })) ∧
    (s0.fb TB_HRESULT_DONE = true → ¬ runs → exec (.hpostGo k) s = .next (settle s { s1 with hop := ⟨true, 3, true⟩ })) ∧
    (s0.fb TB_HRESULT_DONE = false → exec (.hpostGo k) s = .next (settle s s0)) ∧
    (s.fb TB_HRESULT_DONE = true →
      let c := s.fld TB_HPOST_CTRL_SECT
      let d := s.setFld TB_HRESULT_DONE 0
      (s.sectRuns c = true → exec (.hcancel mask) s = .next (settle s { d.setStore c { s.storeOf c with
        fifo := (s.storeOf c).fifo ++ [.cancel (bits (s.reg (TB_HPOST_W_at 2)).toNat 31 16) mask.toNat none none] } with
          hop := ⟨false, 0, false⟩ })) ∧
      (s.sectRuns c = false → exec (.hcancel mask) s = .next (settle s { d with hop := ⟨true, 0, true⟩ }))) ∧
    (s.fb TB_HRESULT_DONE = false → exec (.hcancel mask) s = .next (settle s s)) ∧
    (s.fb TB_HRESULT_DONE = false → s.hop.done = true → exec .hresultDone s = .next (settle s
      (((s.setFld TB_HRESULT_RESULT s.hop.result).setB TB_HRESULT_STOPPED s.hop.stopped).setFld TB_HRESULT_DONE 1))) ∧
    (s.fb TB_HRESULT_DONE = true ∨ s.hop.done = false → exec .hresultDone s = .next (settle s s))

/-- ARM judges a time entry against A + 32, FIRE drives the pin and frees the entry, ENTRY_FREE returns it. -/
def Obligations.ActionsArmFireAndFree : Prop :=
  ∀ (s : State) (k : Fin 16) (a : Action) (r : List QItem),
    let x := s.storeOf k
    let t := if a.kind = 0 then timeTarget s.tb.now a.w0 else fullTarget s.P (bits a.w1.toNat 15 0) a.w0
    let a1 : Action := { a with arm := s.tb.now, target := t }
    let late := (s.tb.now + 32 - t).toInt
    (x.fifo = .post a :: r → a.dest = 0 → a.kind = 0 → late ≤ 0 → exec (.arm k) s = .next (settle s
      (s.setStore k { x with fifo := r, armed := x.armed ++ [{ a1 with stand := .waiting }] }))) ∧
    (x.fifo = .post a :: r → a.dest = 0 → a.kind = 0 → 0 < late → a.lateFire = false → exec (.arm k) s = .next (settle s
      ((s.judgeLate k (if late > 32 then 1 else 2) false a1).setStore k { x with fifo := r, freed := x.freed + 1 }))) ∧
    (x.fifo = .post a :: r → a.dest = 0 → a.kind = 0 → 0 < late → a.lateFire = true → late ≤ (s.grace k : Int) →
      exec (.arm k) s = .next (settle s ((s.judgeLate k (if late > 32 then 1 else 2) true a1).setStore k { x with
        fifo := r, armed := x.armed ++ [{ a1 with stand := .due (s.tb.now + 32) (if late > 32 then 1 else 2) late.toNat }] }))) ∧
    (x.fifo = .post a :: r → a.dest = 0 → a.kind ≠ 0 → exec (.arm k) s = .next (settle s
      (s.setStore k { x with fifo := r, armed := x.armed ++ [{ a1 with stand := .unjudged }] }))) ∧
    (x.fifo = .post a :: r → a.dest ≠ 0 → exec (.arm k) s = .next (settle s
      (s.setStore k { x with fifo := r, armed := x.armed ++ [{ a1 with stand := .waiting }] }))) ∧
    (x.armed = [a] → a.fireAt = some s.tb.now → x.lastFire ≠ some s.tb.now → tget none s.actAt a.pin ≠ some s.tb.now →
      s.pinTaken k s.tb.now a.pin = false →
      let v : State := { s.setStore k { x with armed := [], freed := x.freed + 1, lastFire := some s.tb.now } with
        actOut := tset ⟨false, false⟩ s.actOut a.pin (driveAct (tget ⟨false, false⟩ s.actOut a.pin) a.value)
        actAt := tset none s.actAt a.pin (some s.tb.now) }
      (a.traced = false → exec (.fire k) s = .next (settle s v)) ∧
      (a.traced = true → ∀ c n, (match a.stand with | .due _ c n => (c, n) | _ => (0, 0)) = (c, n) →
        exec (.fire k) s = .next (settle s (v.trace 1 v.stamp (BitVec.ofNat 32 (c * 2 ^ 26 + a.pin))
          (BitVec.ofNat 32 (a.tag * 2 ^ 16 + k * 2 ^ 12 + a.owner * 2 ^ 4 + 8 * b2n a.host + a.value % 4))
          (BitVec.ofNat 32 n))))) ∧
    (s.nextDue k = none → exec (.fire k) s = .next (settle s s)) ∧
    (∀ u, s.nextDue k = some u →
      let n := (u - s.tb.now).toInt.toNat
      let s1 := s.advance n
      ∀ t b q, s1.nextPin k = some (t, b, q) → s.toNextEdge < n + (t - s1.tb.now).toNat ∨ s1.pinTaken k t b.pin = true →
      exec (.fire k) s = .next (settle s s)) ∧
    (s.sectRuns k = true → exec (.entryFree k) s = .next (settle s (s.setStore k { x with freed := x.freed - 1 }))) ∧
    (s.sectRuns k = false → exec (.entryFree k) s = .next (settle s s))

/-- A tick edge counts one tick at its edge, a boundary brings the tick to its domain, an event reaches its destination once. -/
def Obligations.TicksComeAtTheirEdge : Prop :=
  ∀ (s : State),
    (s.pwr.released = true →
      let s0 := s.strobeLate.missed
      let s1 := s0.toTickEdge
      let s2 : State := { s1 with safe := { s1.safe with ticks := s1.tickLo } }
      exec .tickEdge s = .next (settle s (if s2.awake then s2.strobe.pairEdge else s2)) ∧ s2.tb.tick = s.tb.tick + 1 ∧
      s2.tb.edge = s.tb.edge + BitVec.ofNat 64 (s0.fld TB_TICKLEN_CYCLES) ∧ s2.safe.ticks = (s.tb.tick + 1).setWidth 32) ∧
    (s.pwr.released = false → exec .tickEdge s = .next (settle s s)) ∧
    (∀ d w, s.boundaryDue d = false → exec (.tickBoundary ⟨d, w⟩) s = .next (settle s s)) ∧
    (∀ d w, s.boundaryDue d = true →
      let s1 := ((s.toArrival.clockResumes d).closeTicks d).stepCopy d
      tget 0 s1.tickCopy (Domain.num d) = s1.tb.tick ∧ exec (.tickBoundary ⟨d, w⟩) s = .next (settle s (match d with
        | .sect k => (if w then s1.orBit SYS_TICKSKEW_SKEW k else s1).sectBoundary k (.sect k)
        | .mod g => s1.modBoundary g (.mod g)
        | .pin => (s1.takeStrobes .pin).pinsBoundary.pinOutputs
        | .sys => (s1.takeStrobes .sys).deposeDue
        | d => s1.takeStrobes d))) ∧
    (∀ e d, s.evq.contains (e, d) = true ∨ s.eventOutside e = true → s.domRuns d = true →
      let s1 : State := { s with evq := s.evq.erase (e, d) }
      exec (.eventDelivery e d) s = .next (settle s (match d with
        | .sect k => (s1.chanEvent k e).dmaEvent k e
        | .mod g => (List.range 8).foldl (fun s j =>
            if s.fb (ADC_CFG_EN (8 * g + j)) = true ∧ s.fld (ADC_TRIG_SRC (8 * g + j)) = 2 ∧ s.fld (ADC_TRIG_EVENT (8 * g + j)) = e then
              s.adcTrigger (8 * g + j) else s) s1
        | _ => s1))) ∧
    (∀ e d, (s.evq.contains (e, d) = false ∧ s.eventOutside e = false) ∨ s.domRuns d = false →
      exec (.eventDelivery e d) s = .next (settle s s)) ∧
    (s.attar.target = none → exec .applyStrobe s = .next (settle s s)) ∧
    (∀ x, s.attar.target = some x → s.pwr.released = true → s.awake = true → s.attarState = 4 →
      (x.due s.toTickEdge.tb.tick s.toTickEdge.P = true → exec .applyStrobe s = .next (settle s s.tickEdge)) ∧
      (x.due s.toTickEdge.tb.tick s.toTickEdge.P = false → exec .applyStrobe s = .next (settle s s)))

/-- PWM periods take the shadow duty, captures store and pop timestamps, decoders count. -/
def Obligations.TimersCountAndCapture : Prop :=
  (∀ (s : State) (k : Fin 16) (j : Fin 8),
    (s.sectRuns k = true → s.fld (STM_PWM_CFG_MODE k j) = 1 ∨ s.fld (STM_PWM_CFG_MODE k j) = 2 →
      ∃ u, exec (.pwmPeriodStart k j) s = .next u ∧
        let p := u.pwmOf k j
        p.d0 = s.fld (STM_PWM_DUTY_DUTY k (2 * j)) ∧ p.d1 = s.fld (STM_PWM_DUTY_DUTY k (2 * j + 1)) ∧ p.start = s.tb.now ∧
        p.base = 0 ∧ p.hold0 = 0 ∧ p.hold1 = 0) ∧
    (s.sectRuns k = false ∨ s.fld (STM_PWM_CFG_MODE k j) = 0 ∨ s.fld (STM_PWM_CFG_MODE k j) = 3 → exec (.pwmPeriodStart k j) s = .next (settle s s))) ∧
  (∀ (s : State) (k n : Fin 16) (v : Word),
    let open_ := s.fb (BAY_STATUS_HELD k) = false
    (open_ → s.pairStandby = false → ∃ u, exec (.pwmDutyWrite k n v) s = .next u ∧ u.fld (STM_PWM_DUTY_DUTY k n) = v.toNat % 2 ^ 17 ∧
      u.pwm = s.pwm ∧ ∀ b, b ≠ STM_PWM_DUTY_at k n → b ≠ PAIR_TXQ_at → u.reg b = s.reg b) ∧
    (open_ → s.pairStandby = true → exec (.pwmDutyWrite k n v) s = .next (settle s (s.setFld PAIR_IRQ_STAT_LOCALWR 1))) ∧
    (¬ open_ → exec (.pwmDutyWrite k n v) s = .next (settle s (s.accessError 403 (STM_PWM_DUTY_at k n) false false true)))) ∧
  (∀ (s : State) (k : Fin 16) (u' : Fin 8) (level : Bool) (n : Nat),
    (s.capShows k u' level = false ∨ s.sectRuns k = false ∨ (s.capOf k u').level = level →
      exec (.captureEdge k u' level n) s = .next (settle s s)) ∧
    (s.capShows k u' level = true → s.sectRuns k = true → (s.capOf k u').level = !level →
    let c := s.capOf k u'
    let sel := s.fld (STM_CAP_CFG_EDGE k u')
    let hit := sel = 3 ∨ sel = (if level then 1 else 2)
    (hit → c.fifo.length < 4 → ∃ u, exec (.captureEdge k u' level n) s = .next u ∧
      u.capOf k u' = { c with level := level, fifo := c.fifo ++ [(s.capTime k n, level)] }) ∧
    (hit → 4 ≤ c.fifo.length → exec (.captureEdge k u' level n) s =
      .next (settle s ((s.setCap k u' { c with level := level }).orBit (STM_CAP_STAT_OVF k) u'))) ∧
    (¬ hit → exec (.captureEdge k u' level n) s = .next (settle s (s.setCap k u' { c with level := level }))))) ∧
  (∀ (s : State) (req : Fin 405) (k : Fin 16) (u' : Fin 8) (t : Word) (l : Bool) (r : List (Word × Bool)),
    ((s.capOf k u').fifo = (t, l) :: r → exec (.capDataRead req k u') s = .next (settle s
      ((s.setCap k u' { s.capOf k u' with fifo := r, edgeBit := l }).emit (.readData req (STM_CAP_DATA_at k u') t)))) ∧
    ((s.capOf k u').fifo = [] → exec (.capDataRead req k u') s = .next (settle s (s.emit (.readData req (STM_CAP_DATA_at k u') 0))))) ∧
  (∀ (s : State) (k : Fin 16) (q : Fin 2) (v : Word),
    let p := STM_QD_POS_at k q
    (s.fb (BAY_STATUS_HELD k) = false → exec (.qdPosWrite k q v) s = .next (settle s (s.setReg p v))) ∧
    (s.fb (BAY_STATUS_HELD k) = true → exec (.qdPosWrite k q v) s = .next (settle s (s.accessError 403 p false false true))) ∧
    (s.sectRuns k = true → s.fld (STM_QD_CFG_MODE k q) = 1 ∨ s.fld (STM_QD_CFG_MODE k q) = 2 →
      let i := 0xB0 + 3 * (2 * k.val + q.val)
      let close : Prop := ∃ t, tget none s.qdAt (2 * k + q) = some t ∧ s.toSect k (s.tb.now - t).toNat < s.fld (STM_QD_CFG_FILTER k q) + 2
      let at_ (w : Word) : State := { s.setReg p w with qdAt := tset none s.qdAt (2 * k + q) (some s.tb.now) }
      (s.fed i = true ∨ s.fed (i + 1) = true → ¬ close → exec (.qdEdge k q .forward) s = .next (settle s (at_ (s.reg p + 1))) ∧
        exec (.qdEdge k q .reverse) s = .next (settle s (at_ (s.reg p - 1)))) ∧
      (close ∨ (s.fed i = false ∧ s.fed (i + 1) = false) → exec (.qdEdge k q .forward) s = .next (settle s s) ∧
        exec (.qdEdge k q .reverse) s = .next (settle s s)) ∧
      exec (.qdEdge k q .illegal) s = .next (settle s s) ∧
      (s.fed (i + 2) = true → s.fb (STM_QD_CFG_IDXCLR k q) = true → exec (.qdEdge k q .indexForward) s = .next (settle s (s.setReg p 0)))))

/-- A switch measurement starts, is refused or ends with RON; REF_OK, RONSTALE and the amplifier limits follow. -/
def Obligations.BaysMeasureAndWatch : Prop :=
  ∀ (s : State) (k : Fin 16) (v : Word) (ron : Nat) (ok : Bool) (j : Fin 8),
    let s1 := (s.setFld (BAY_RCAL_CMD_TRACK k) (bits v.toNat 12 8)).setFld (BAY_RCAL_CMD_TERM k) (bits v.toNat 5 0)
    let s2 := s1.setReg (BAY_RCAL_RESULT_at k) 0
    let term := bits v.toNat 5 0
    let track := bits v.toNat 12 8
    let a := 2 * k.val
    let on := ok && (s.fb (BAY_CTRL_REFEN k) || s.baySw.refs.testBit k) && !s.baySw.before.testBit k
    let open_ := s.fb (BAY_STATUS_HELD k) = false
    (¬ open_ → exec (.rcalGo k v) s = .next (settle s (s.accessError 403 (BAY_RCAL_CMD_at k) false false true))) ∧
    (open_ → v.getLsbD 31 = true → s.fb (BAY_RCAL_CMD_BUSY k) = false → s2.rcalRefused k term track = false → exec (.rcalGo k v) s =
      .next (settle s (({ s2.setFld (BAY_RCAL_CMD_BUSY k) 1 with rcal := tset none s.rcal k (some ⟨term, track⟩) } : State).rcalBorrow k))) ∧
    (open_ → v.getLsbD 31 = true → s.fb (BAY_RCAL_CMD_BUSY k) = false → s2.rcalRefused k term track = true → exec (.rcalGo k v) s =
      .next (settle s ((s2.setFld (BAY_RCAL_RESULT_VALID k) 1).setFld (BAY_RCAL_RESULT_REFUSED k) 1))) ∧
    (open_ → v.getLsbD 31 = false ∨ s.fb (BAY_RCAL_CMD_BUSY k) = true → exec (.rcalGo k v) s = .next (settle s s1)) ∧
    (tget none s.rcal k ≠ none → (s.borrowedFor a 16 || s.lends a || s.borrowedFor (a + 1) 16 || s.lends (a + 1)) = true → ∃ u, exec (.rcalDone k ron) s = .next u ∧ tget none u.rcal k = none ∧
      u.fb (BAY_RCAL_CMD_BUSY k) = false ∧ u.fb (BAY_RCAL_RESULT_VALID k) = true ∧ u.fb (BAY_IRQ_STAT_RCALDONE k) = true ∧
      u.fld (BAY_RCAL_RESULT_RON k) = if ron > 65534 then 0xFFFF else ron) ∧
    (tget none s.rcal k = none ∨ (s.borrowedFor a 16 || s.lends a || s.borrowedFor (a + 1) 16 || s.lends (a + 1)) = false →
      exec (.rcalDone k ron) s = .next (settle s s)) ∧
    exec (.ronstale k) s = .next (settle s (s.setFld (BAY_STATUS_RONSTALE k) 1)) ∧
    (on = true → s.fb (BAY_STATUS_REF_OK k) = true → exec (.refOk k ok) s =
      .next (settle s ((s.setFld (BAY_STATUS_REF_OK k) 1).rcalBorrow k))) ∧
    (on = true → s.fb (BAY_STATUS_REF_OK k) = false → ∃ u, exec (.refOk k ok) s = .next u ∧ u.fb (BAY_STATUS_REF_OK k) = true ∧
      (u.adcOf a).lowAt = some (s.tb.now - 1) ∧ (u.adcOf (a + 1)).lowAt = some (s.tb.now - 1) ∧
      ∀ b, b ≠ BAY_STATUS_at k → u.reg b = s.reg b) ∧
    (on = false → ∃ u, exec (.refOk k ok) s = .next u ∧ u.fb (BAY_STATUS_REF_OK k) = false ∧
      u.adcOf a = { s.adcOf a with lowAt := some s.tb.now, borrowed := none } ∧
      u.adcOf (a + 1) = { s.adcOf (a + 1) with lowAt := some s.tb.now, borrowed := none } ∧
      ∀ b, b ≠ BAY_STATUS_at k → u.reg b = s.reg b) ∧
    (s.fb (BAY_AMP_CFG_MODE k j) = true → s.baySw.before.testBit k = false → s.fb (BAY_STATUS_HELD k) = false → s.fbit (BAY_STATUS_AMPLIM k) j = false → ∃ u, exec (.ampLimit k j true) s = .next u ∧
      u.fbit (BAY_STATUS_AMPLIM k) j = true ∧ u.fb (BAY_IRQ_STAT_AMPLIM k) = true) ∧
    (∃ u, exec (.ampLimit k j false) s = .next u ∧ u.fbit (BAY_STATUS_AMPLIM k) j = false ∧
      ∀ b, b ≠ BAY_STATUS_at k → u.reg b = s.reg b)

/-- A trigger starts a run of an idle converter, and meets a running one as POLICY says. -/
def Obligations.ConvertersRunByTheirTriggers : Prop :=
  ∀ (s : State) (n : Fin 32),
    let x := s.adcOf n
    let s0 := s.setAdc n { x with lastTrig := some s.tb.now }
    let held := s.fb (BAY_STATUS_HELD (n.val / 2)) = true
    let runs := s.modRuns (n.val / 8) = true
    (held → exec (.adcSwtrig n) s = .next (settle s (s.accessError 403 (ADC_SWTRIG_at n) false false true))) ∧
    (¬ held → ¬ runs → exec (.adcSwtrig n) s = .next (settle s (s.setAdc n { x with swWait := x.swWait + 1 }))) ∧
    (¬ held → runs → s.fb (ADC_CFG_EN n) = false → exec (.adcSwtrig n) s = .next (settle s s)) ∧
    (¬ held → runs → s.fb (ADC_CFG_EN n) = true → x.lastTrig = some s.tb.now → exec (.adcSwtrig n) s =
      .next (settle s (s.addSat (ADC_CNT_MISC_COINC n) 1))) ∧
    (¬ held → runs → s.fb (ADC_CFG_EN n) = true → x.lastTrig ≠ some s.tb.now → x.cal.any (fun c => !c.waiting) = true → exec (.adcSwtrig n) s =
      .next (settle s ((s0.addSat (ADC_CNT_TRIG_DROPPED n) 1).setFld (ADC_IRQ_STAT_DROP n) 1))) ∧
    (¬ held → runs → s.fb (ADC_CFG_EN n) = true → x.lastTrig ≠ some s.tb.now → x.cal.any (fun c => !c.waiting) = false →
      (x.run = false ∨ s.fld (ADC_CFG_POLICY n) = 2 → ∃ u, exec (.adcSwtrig n) s = .next u ∧ (u.adcOf n).run = true ∧ (u.adcOf n).cur = 0 ∧
        (u.adcOf n).len = s.fld (ADC_CFG_LEN n) + 1 ∧ (u.adcOf n).lastTrig = some s.tb.now ∧ (u.adcOf n).borrowed = none ∧
        (u.adcOf n).recs = x.recs) ∧
      (x.run = true → s.fld (ADC_CFG_POLICY n) = 0 ∨ s.fld (ADC_CFG_POLICY n) = 3 → exec (.adcSwtrig n) s =
        .next (settle s ((s0.addSat (ADC_CNT_TRIG_DROPPED n) 1).setFld (ADC_IRQ_STAT_DROP n) 1))) ∧
      (x.run = true → s.fld (ADC_CFG_POLICY n) = 1 → x.queued = false → exec (.adcSwtrig n) s =
        .next (settle s (s0.setAdc n { x with lastTrig := some s.tb.now, queued := true }))) ∧
      (x.run = true → s.fld (ADC_CFG_POLICY n) = 1 → x.queued = true → exec (.adcSwtrig n) s =
        .next (settle s ((s0.addSat (ADC_CNT_TRIG_QOVF n) 1).setFld (ADC_IRQ_STAT_DROP n) 1))))

/-- A conversion's code is limited, scaled and waits; its record is written as a unit, copied, and read with its snapshot. -/
def Obligations.ResultsReachTheirRecords : Prop :=
  ∀ (s : State) (n : Fin 32),
    let x := s.adcOf n
    let clock := s.modRuns (n.val / 8) = true
    (∀ d ovr refbad, clock → x.cal = none → x.run = true → s.fb (ADC_CFG_ASYNC n) = false → ∃ u, exec (.conversionEnd n d ovr refbad) s = .next u ∧
      (u.adcOf n).toWrite = x.toWrite ++ [⟨x.cur, rnd32 (max (-dLimit) (min d.toInt dLimit) * x.factor) 30,
        s.stamp + BitVec.ofInt 32 s.jitter, ovr || decide (dLimit < d.toInt.natAbs), refbad || s.refDip n, false⟩] ∧
      (x.cur + 1 < x.len → (u.adcOf n).cur = x.cur + 1 ∧ (u.adcOf n).run = true) ∧
      (x.len ≤ x.cur + 1 → x.queued = false → s.fb (ADC_CFG_CONT n) = false → (u.adcOf n).run = false)) ∧
    (∀ d ovr refbad, ¬ clock ∨ (x.cal = none ∧ x.run = false) → exec (.conversionEnd n d ovr refbad) s = .next (settle s s)) ∧
    (¬ clock ∨ x.toWrite = [] → exec (.resultWrite n) s = .next (settle s s)) ∧
    (x.toCopy = [] ∨ s.sectRuns (n.val / 2) = false → exec (.resultCopy n) s = .next (settle s s)) ∧
    (∀ p r, clock → x.toWrite = p :: r → ∃ u, exec (.resultWrite n) s = .next u ∧ (u.adcOf n).toWrite = r ∧
      let o := tget recReset (u.adcOf n).recs p.entry
      o.value = s.calibrated n p.entry p.d1 ∧ o.time = p.time ∧ o.tag = nextTag (tget recReset x.recs p.entry).tag ∧
      o.ovr = p.ovr ∧ o.refbad = p.refbad ∧ o.sync = p.sync ∧ (u.adcOf n).toCopy = x.toCopy ++ [(p.entry, o)] ∧
      (p.ovr = true → u.fb (ADC_IRQ_STAT_OVR n) = true) ∧ (p.refbad = true → u.fb (ADC_IRQ_STAT_REFBAD n) = true)) ∧
    (∀ e o r, x.toCopy = (e, o) :: r → s.sectRuns (n.val / 2) = true → exec (.resultCopy n) s =
      .next (settle s (s.setAdc n { x with toCopy := r, copies := tset recReset x.copies e o }))) ∧
    (∀ (req : Fin 405) (e : Fin 16), exec (.adcResLoRead req n e) s = .next (settle s
      ((s.setAdc n { x with snaps := tset none x.snaps req (some (e.val, tget recReset x.recs e)) }).emit
        (.readData req (ADC_RES_LO_at n e) (tget recReset x.recs e).value))))

/-- CAL_ZERO and CAL_FULL measure or answer a code, CAL_ABORT ends them, SAVE and RESTORE move a pair. -/
def Obligations.CalibrationsStartEndAndKeep : Prop :=
  ∀ (s : State) (n : Fin 32) (v : Word),
    let x := s.adcOf n
    let e := bits v.toNat 11 8
    let c := bits v.toNat 14 12
    let s1 := s.calFields n v
    let may := s.fb (ADC_CFG_EN n) = true ∧ s.fb (ADC_CFG_ASYNC n) = false
    let open_ := s.fb (BAY_STATUS_HELD (n.val / 2)) = false
    (¬ open_ → ∀ i ∈ [Instr.calZero n v, .calFull n v, .calSave n v, .calRestore n v, .calAbort n],
      exec i s = .next (settle s (s.accessError 403 (ADC_CAL_CMD_at n) false false true))) ∧
    (open_ → s.fb (ADC_CAL_CMD_BUSY n) = true → ∀ i ∈ [Instr.calZero n v, .calFull n v, .calSave n v, .calRestore n v],
      exec i s = .next (settle s s)) ∧
    (open_ → s.fb (ADC_CAL_CMD_BUSY n) = false →
      (e ≤ s.fld (ADC_CFG_LEN n) → may → x.run = false → ∃ u, exec (.calZero n v) s = .next u ∧
        (u.adcOf n).cal = some ⟨1, e, c, bits v.toNat 18 16, [], false, false, false⟩ ∧ (u.adcOf n).cur = e ∧
        u.fb (ADC_CAL_CMD_BUSY n) = true ∧ u.fb (ADC_CAL_STAT_ZVALID n) = false) ∧
      (e ≤ s.fld (ADC_CFG_LEN n) → may → x.run = true → ∃ u, exec (.calZero n v) s = .next u ∧
        (u.adcOf n).cal = some ⟨1, e, c, bits v.toNat 18 16, [], false, true, false⟩ ∧ (u.adcOf n).cur = x.cur ∧
        u.fb (ADC_CAL_CMD_BUSY n) = true ∧ u.fb (ADC_CAL_STAT_ZVALID n) = false) ∧
      (e ≤ s.fld (ADC_CFG_LEN n) → may → x.run = false → s.fb (ADC_CAL_STAT_ZVALID n) = true → s.fld (ADC_CAL_STAT_ZENTRY n) = e →
        s.fld (ADC_CAL_STAT_ZSET n) = c → ∃ u, exec (.calFull n v) s = .next u ∧
        (u.adcOf n).cal = some ⟨2, e, c, bits v.toNat 18 16, [], false, false, false⟩ ∧ (u.adcOf n).cur = e ∧
        u.fb (ADC_CAL_CMD_BUSY n) = true) ∧
      (e ≤ s.fld (ADC_CFG_LEN n) → may → s.fb (ADC_CAL_STAT_ZVALID n) = false → ∃ u, exec (.calFull n v) s = .next u ∧
        u.fld (ADC_CAL_STAT_CODE n) = 3 ∧ u.fb (ADC_CAL_CMD_BUSY n) = false ∧ u.fb (ADC_IRQ_STAT_CALREJ n) = true) ∧
      (s.fld (ADC_CFG_LEN n) < e → ∃ u, exec (.calZero n v) s = .next u ∧ u.fld (ADC_CAL_STAT_CODE n) = 1) ∧
      (e ≤ s.fld (ADC_CFG_LEN n) → ¬ may → ∃ u, exec (.calZero n v) s = .next u ∧ u.fld (ADC_CAL_STAT_CODE n) = 2) ∧
      exec (.calSave n v) s = .next (settle s ((s1.calSave n c).setFld (ADC_CAL_STAT_CODE n) 0)) ∧
      (s1.newerCopy n c = none → ∃ u, exec (.calRestore n v) s = .next u ∧ u.fld (ADC_CAL_STAT_CODE n) = 0x0A ∧
        u.fb (ADC_IRQ_STAT_RESTERR n) = true) ∧
      (∀ k, s1.newerCopy n c = some k → ∃ u, exec (.calRestore n v) s = .next u ∧ u.fld (ADC_CAL_STAT_CODE n) = 0 ∧
        u.reg (ADC_CALOFS_at n c) = (s.retainWords (calAddr n c k) 4).getD 0 0 ∧
        u.reg (ADC_CALGAIN_at n c) = (s.retainWords (calAddr n c k) 4).getD 1 0)) ∧
    (open_ → x.cal = none → exec (.calAbort n) s = .next (settle s s)) ∧
    (∀ m, open_ → x.cal = some m → ∃ u, exec (.calAbort n) s = .next u ∧ (u.adcOf n).cal = none ∧ u.fld (ADC_CAL_STAT_CODE n) = 4 ∧
      u.fb (ADC_CAL_CMD_BUSY n) = false)

/-- Comparators filter and latch, a clear leaves a latch whose cause stands; DACs end a range hold, fault on a short and recover. -/
def Obligations.ComparatorsLatchAndDacsRecover : Prop :=
  (∀ (s : State) (k : Fin 16) (c : Fin 4),
    let n := 4 * k.val + c.val
    let h := (s.cmpC k c :: (s.cmpOf n).hist).take (s.fld (CMP_FILT_M k c))
    let ones := (h.filter id).length
    let need := s.fld (CMP_FILT_N k c)
    let clock := s.modRuns (k.val / 4) = true
    (∀ above, s.cmpOn k c = true → clock → exec (.comparatorCross k c above) s = .next (settle s
      ((s.setCmp n { s.cmpOf n with r := above }).setB (CMP_STAT_CSYNC k c) (above != s.fb (CMP_CFG_POL k c))))) ∧
    (∀ above, s.cmpOn k c = true → ¬ clock → exec (.comparatorCross k c above) s =
      .next (settle s (s.setCmp n { s.cmpOf n with r := above }))) ∧
    (∀ above, s.cmpOn k c = false → exec (.comparatorCross k c above) s = .next (settle s s)) ∧
    (∀ pair, s.cmpOn k c = true → s.fb (CMP_STAT_HOLD k c) = false → clock → ∃ u, exec (.filterSample k ⟨c, pair⟩) s = .next u ∧
      (u.cmpOf n).hist = h ∧
      (need ≤ ones → u.fb (CMP_STAT_F k c) = true ∧ u.fb (CMP_STAT_L k c) = true) ∧
      (ones < need → need ≤ h.length - ones → u.fb (CMP_STAT_F k c) = false ∧ u.fb (CMP_STAT_L k c) = s.fb (CMP_STAT_L k c)) ∧
      (ones < need → h.length - ones < need → u.fb (CMP_STAT_F k c) = s.fb (CMP_STAT_F k c)) ∧
      (s.fb (CMP_WIN_CFG_EN k (c / 2)) = true → u.fld (CMP_WIN_STAT_STATE k (c / 2)) =
        winState (u.fb (CMP_STAT_F k (2 * (c / 2)))) (u.fb (CMP_STAT_F k (2 * (c / 2) + 1))))) ∧
    (s.cmpOn k c = true → s.fb (CMP_STAT_HOLD k c) = true → clock → exec (.filterSample k ⟨c, false⟩) s =
      .next (settle s (s.winEdge k (c / 2)))) ∧
    (∀ pair, s.cmpOn k c = false ∨ ¬ clock → exec (.filterSample k ⟨c, pair⟩) s = .next (settle s s)) ∧
    exec (.settlingHoldEnd k c) s = .next (settle s (s.setFld (CMP_STAT_HOLD k c) 0)) ∧
    (∀ v : Word, s.fb (BAY_STATUS_HELD k) = true → exec (.cmpLatchWrite k v) s =
      .next (settle s (s.accessError 403 (CMP_LATCH_at k) false false true))) ∧
    (∀ v : Word, s.fb (BAY_STATUS_HELD k) = false → exec (.cmpLatchWrite k v) s = .next (settle s { s with
      clearq := s.clearq ++ (bitList v.toNat 6).map (fun l => (k.val, l, false)) })) ∧
    (∀ q, s.clearq.find? (fun q => q.1 == k.val && q.2.1 == c.val) = some q → clock →
      exec (.latchClear k ⟨c.val, by omega⟩) s = .next (settle s
        (({ s with clearq := s.clearq.erase q } : State).setB (CMP_STAT_L k c) (s.fb (CMP_STAT_F k c))))) ∧
    (∀ (w : Fin 2) q, s.clearq.find? (fun q => q.1 == k.val && q.2.1 == 4 + w.val) = some q → clock →
      exec (.latchClear k ⟨4 + w.val, by omega⟩) s = .next (settle s
        (({ s with clearq := s.clearq.erase q } : State).setB (CMP_WIN_STAT_WL k w)
          (s.fb (CMP_WIN_CFG_EN k w) && s.fld (CMP_WIN_STAT_STATE k w) != 1)))) ∧
    (∀ l : Fin 6, s.clearq.find? (fun q => q.1 == k.val && q.2.1 == l.val) = none ∨ ¬ clock →
      exec (.latchClear k l) s = .next (settle s s))) ∧
  (∀ (s : State) (n : Fin 32) (flag : Bool),
    let st := s.fld (DAC_STAT_STATE n)
    let x := s.dacOf n
    (st = 3 → ∃ u, exec (.rangeHoldEnd n) s = .next u ∧ u.fld (DAC_STAT_STATE n) = 2 ∧ u.fld (DAC_CODE_CODE n) = x.pendCode % 2 ^ 14 ∧
      u.fb (DAC_STAT_GAINF n) = x.pendGain) ∧
    (st ≠ 3 → exec (.rangeHoldEnd n) s = .next (settle s s)) ∧
    (st = 2 ∨ st = 3 → exec (.dacShort n ⟨true, false⟩) s = .next (settle s (s.setFld (DAC_STAT_LIMITING n) 1))) ∧
    (st = 2 ∨ st = 3 → s.sectRuns (n.val / 2) = true → ∃ u, exec (.dacShort n ⟨true, true⟩) s = .next u ∧
      u.fb (DAC_STAT_SHORT n) = true ∧ u.fb (DAC_IRQ_STAT_SHORT n) = true ∧
      u.fld (DAC_CODE_CODE n) = (if st = 3 ∧ s.fb (DAC_CFG_FAULTPOL n) = true then x.pendCode % 2 ^ 14 else s.fld (DAC_CODE_CODE n)) ∧
      u.fld (DAC_STAT_STATE n) = (if s.fb (DAC_CFG_FAULTPOL n) then 4 else st) ∧
      u.fb (DAC_STAT_LIMITING n) = !s.fb (DAC_CFG_FAULTPOL n)) ∧
    (st = 2 ∨ st = 3 → s.sectRuns (n.val / 2) = false → exec (.dacShort n ⟨true, true⟩) s =
      .next (settle s ((s.setFld (DAC_STAT_LIMITING n) 1).setDac n { x with flagged := true }))) ∧
    (st ≠ 2 → st ≠ 3 → exec (.dacShort n ⟨true, flag⟩) s = .next (settle s s)) ∧
    exec (.dacShort n ⟨false, flag⟩) s = .next (settle s ((s.setFld (DAC_STAT_LIMITING n) 0).setDac n { x with flagged := false })) ∧
    let held := s.fb (BAY_STATUS_HELD (n.val / 2)) = true
    (held → exec (.shortClear n) s = .next (settle s (s.accessError 403 (DAC_STAT_at n) false false true))) ∧
    (¬ held → st = 4 → ∃ u, exec (.shortClear n) s = .next u ∧ u.fb (DAC_STAT_SHORT n) = false ∧ u.fld (DAC_STAT_STATE n) = 1 ∧
      u.fb (DAC_STAT_CODEVALID n) = false) ∧
    (¬ held → st ≠ 4 → exec (.shortClear n) s = .next (settle s (s.setFld (DAC_STAT_SHORT n) 0))))

/-- DMA_GO checks, arms or starts a channel; DMA_WORD moves a word; an abort ends it. -/
def Obligations.DmaChannelsMoveBlocks : Prop :=
  ∀ (s : State) (k : Fin 16) (j : Fin 8) (v : Word),
    let s1 := s.setReg (DMA_CTRL_at k j) (v &&& 0x03C001FF)
    let idle := s.fb (DMA_STAT_BUSY k j) = false ∧ s.fb (DMA_STAT_ARMED k j) = false
    let i := s.fld (DMA_STAT_DONE k j)
    let src := dmaAddr (s.fld (DMA_SRC_SRC k j)) i (s.fb (DMA_CTRL_SFIX k j))
    let dst := dmaAddr (s.fld (DMA_DST_DST k j)) i (s.fb (DMA_CTRL_DFIX k j))
    let req := 256 + 8 * k.val + j.val
    let runs := s.fb (DMA_STAT_BUSY k j) = true ∧ s.sectRuns k = true ∧ s.busRuns = true
    let open_ := s.fb (BAY_STATUS_HELD k) = false
    let s0 := s.loadsFirst req s.tb.now
    let ends (t u : State) (code : Nat) : Prop := u.fb (DMA_STAT_BUSY k j) = false ∧ u.fld (DMA_STAT_CODE k j) = code ∧
      u.fb (SCR_IRQ_STAT_DMAEND k) = true ∧ ∀ x, u.byte x = t.byte x
    (¬ open_ → exec (.dmaGo k j v) s = .next (settle s (s.accessError 403 (DMA_CTRL_at k j) false false true)) ∧
      exec (.dmaAbort k j) s = .next (settle s (s.accessError 403 (DMA_CTRL_at k j) false false true))) ∧
    (open_ → idle → s1.dmaBad k j = false → s1.fb (DMA_CTRL_TRIG k j) = false → exec (.dmaGo k j v) s = .next (settle s
      (((s1.setFld (DMA_STAT_BUSY k j) 1).setFld (DMA_STAT_ARMED k j) 0).setFld (DMA_STAT_DONE k j) 0))) ∧
    (open_ → idle → s1.dmaBad k j = false → s1.fb (DMA_CTRL_TRIG k j) = true → exec (.dmaGo k j v) s = .next (settle s
      { s1.setFld (DMA_STAT_ARMED k j) 1 with dmaTrig := tset none s1.dmaTrig (8 * k + j) (some (s1.fld (DMA_CTRL_EVENT k j))) })) ∧
    (open_ → idle → s1.dmaBad k j = true → ∃ u, exec (.dmaGo k j v) s = .next u ∧ ends s u 6) ∧
    (open_ → s.fb (DMA_STAT_BUSY k j) = true ∨ s.fb (DMA_STAT_ARMED k j) = true → v.getLsbD 30 = false → exec (.dmaGo k j v) s = .next (settle s s)) ∧
    (open_ → s.fb (DMA_STAT_BUSY k j) = true → exec (.dmaAbort k j) s = .next (settle s { s with
      dmaAbort := tset false s.dmaAbort (8 * k + j) true })) ∧
    (open_ → s.fb (DMA_STAT_BUSY k j) = false → s.fb (DMA_STAT_ARMED k j) = true → exec (.dmaAbort k j) s = .next (settle s
      { s.setFld (DMA_STAT_ARMED k j) 0 with dmaTrig := tset none s.dmaTrig (8 * k + j) none })) ∧
    (runs → regionOf src = .scratch 0 → src % 4 = 0 → s.denied req src false = false → s.flipCount src = 0 →
      regionOf dst = .scratch 0 → dst % 4 = 0 → s.denied req dst true = false → s.pairStandby = false → i < 65535 →
      ∃ u, exec (.dmaWord k j false) s = .next u ∧ u.word dst = s.word src ∧ (∀ x, x < dst ∨ dst + 4 ≤ x → u.byte x = s.byte x) ∧
        u.fld (DMA_STAT_DONE k j) = i + 1 ∧
        (i + 1 ≥ s.fld (DMA_COUNT_COUNT k j) → u.fld (DMA_STAT_CODE k j) = 1 ∧ u.fb (DMA_STAT_BUSY k j) = false) ∧
        (i + 1 < s.fld (DMA_COUNT_COUNT k j) → tget false s.dmaAbort (8 * k + j) = true → u.fld (DMA_STAT_CODE k j) = 5 ∧
          u.fb (DMA_STAT_BUSY k j) = false) ∧
        (i + 1 < s.fld (DMA_COUNT_COUNT k j) → tget false s.dmaAbort (8 * k + j) = false → u.fb (DMA_STAT_BUSY k j) = true)) ∧
    (runs → regionOf src = .scratch 0 → src % 4 = 0 → s.denied req src false = false → s.flipCount src = 0 →
      regionOf dst = .scratch 0 → dst % 4 = 0 → s.denied req dst true = false → s.pairStandby = false →
      ∃ u, exec (.dmaWord k j true) s = .next u ∧ u.fb (SCR_IRQ_STAT_COLL (eccSector dst)) = true ∧ u.fld (DMA_STAT_CODE k j) = 2 ∧
        u.fb (DMA_STAT_BUSY k j) = false ∧ ∀ x, u.byte x = s.byte x) ∧
    (∀ c, runs → regionOf src = .scratch 0 → src % 4 = 0 → s.denied req src false = false → 2 ≤ s.flipCount src →
      ∃ u, exec (.dmaWord k j c) s = .next u ∧ ends s u 3) ∧
    (s.fb (DMA_STAT_BUSY k j) = false ∨ s.sectRuns k = false ∨ s.busRuns = false → ∀ c, exec (.dmaWord k j c) s = .next (settle s s)) ∧
    (runs → s0.busError req src 4 false ≠ (false, false, false) → ∃ u, exec (.dmaWord k j false) s = .next u ∧ ends s u 4)

/-- The fabric's port reads and writes the scratchpad, the mailboxes pass words both ways, outputs change while the cells run. -/
def Obligations.FabricPortsAndMailboxesPass : Prop :=
  ∀ (s : State) (k : Fin 16) (j : Fin 8) (v : Word),
    let f := s.fabOf k
    let cells := s.fabricRuns k = true
    let outside := cells ∧ s.fabLoaded k = false
    let runs := outside ∧ s.sectRuns k = true
    let quiet := f.acks = [] ∧ f.froms = [] ∧ f.tos = [] ∧ f.rings = 0
    let open_ := s.fb (BAY_STATUS_HELD k) = false
    (∀ word : BitVec 16, runs → f.reqs = [] → f.rets.length < 4 → s.pairStandby = false →
      let a := 0x10000000 + k.val * 0x40000 + 4 * word.toNat
      (∃ u, exec (.fabricSpRequest k true 0 word v false) s = .next u ∧ u.word a = v ∧ ∀ x, x < a ∨ a + 4 ≤ x → u.byte x = s.byte x) ∧
      (∃ u, exec (.fabricSpRequest k true 0 word v true) s = .next u ∧ u.fb (SCR_IRQ_STAT_COLL k) = true ∧
        (s.fb (SCR_IRQ_STAT_COLL k) = false → u.fld (SCR_COLL_REQ_REQUESTER k) = 384 + k) ∧ ∀ x, u.byte x = s.byte x) ∧
      (s.flipCount a = 0 → ∃ u, exec (.fabricSpRequest k false 0 word v false) s = .next u ∧
        (u.fabOf k).rets = f.rets ++ [⟨s.word a, false⟩] ∧ ∀ x, u.byte x = s.byte x)) ∧
    (∀ we view word c, outside → s.sectRuns k = false → f.reqs.length + f.rets.length < 4 →
      exec (.fabricSpRequest k we view word v c) s =
        .next (settle s (s.setFab k { f with reqs := f.reqs ++ [⟨we, view.val, word.toNat, v⟩] }))) ∧
    (∀ we view word c, s.fabLoaded k = true → exec (.fabricSpRequest k we view word v c) s = .next (settle s (s.fabServeAll k c))) ∧
    (∀ r rest, cells → f.reqs = [] → f.rets = r :: rest → ∃ u, exec (.fabricSpReturn k) s = .next u ∧ (u.fabOf k).rets = rest ∧
      (u.fabOf k).reqs = [] ∧ (u.fabOf k).back = some r ∧ Output.message "SP_RDATA" [k, r.data.toNat, b2n r.err] ∈ u.outbox) ∧
    (¬ open_ → exec (.mbxTofabWrite k j v) s = .next (settle s (s.accessError 403 (MBX_TOFAB_at k j) false false true)) ∧
      exec (.mbxDoorbell k v) s = .next (settle s (s.accessError 403 (MBX_DOORBELL_at k) false false true))) ∧
    (open_ → s.sectRuns k = false → s.pairStandby = false → exec (.mbxTofabWrite k j v) s =
      .next (settle s (s.setFab k { f with tos := f.tos ++ [(j.val, v)] }))) ∧
    (open_ → s.sectRuns k = true → s.pairStandby = false →
      (s.fbit (MBX_STAT_TOFULL k) j = false → ∃ u, exec (.mbxTofabWrite k j v) s = .next u ∧ u.reg (MBX_TOFAB_at k j) = v ∧
        u.fbit (MBX_STAT_TOFULL k) j = true) ∧
      (s.fbit (MBX_STAT_TOFULL k) j = true → exec (.mbxTofabWrite k j v) s =
        .next (settle s ((s.setFld (MBX_STAT_TOOVF k) 1).setFld (SCR_IRQ_STAT_MBXOVF k) 1)))) ∧
    (open_ → s.pairStandby = true → exec (.mbxTofabWrite k j v) s = .next (settle s (s.setFld PAIR_IRQ_STAT_LOCALWR 1))) ∧
    (runs → quiet → ∃ u, exec (.mbxToAck k j) s = .next u ∧ u.fbit (MBX_STAT_TOFULL k) j = false ∧ u.fabOf k = f ∧
      (∀ i, i ≠ j.val → u.fbit (MBX_STAT_TOFULL k) i = s.fbit (MBX_STAT_TOFULL k) i) ∧ ∀ b, b ≠ MBX_STAT_at k → u.reg b = s.reg b) ∧
    (runs → quiet → s.fbit (MBX_STAT_FROMFULL k) j = false → ∃ u, exec (.mbxFromWr k j v) s = .next u ∧ u.reg (MBX_FROMFAB_at k j) = v ∧
      u.fbit (MBX_STAT_FROMFULL k) j = true ∧ u.fb (SCR_IRQ_STAT_MBXIN k) = true ∧ u.fabOf k = f) ∧
    (runs → quiet → s.fbit (MBX_STAT_FROMFULL k) j = true → ∃ u, exec (.mbxFromWr k j v) s = .next u ∧
      u.fb (MBX_STAT_FROMOVF k) = true ∧ u.fb (SCR_IRQ_STAT_MBXOVF k) = true ∧ u.reg (MBX_FROMFAB_at k j) = s.reg (MBX_FROMFAB_at k j)) ∧
    (outside → s.sectRuns k = false →
      exec (.mbxToAck k j) s = .next (settle s (s.setFab k { f with acks := f.acks ++ [j.val] })) ∧
      exec (.mbxFromWr k j v) s = .next (settle s (s.setFab k { f with froms := f.froms ++ [(j.val, v)] }))) ∧
    (s.fabLoaded k = true → exec (.mbxToAck k j) s = .next (settle s (s.mbxDrain k)) ∧
      exec (.mbxFromWr k j v) s = .next (settle s (s.mbxDrain k))) ∧
    (open_ → v.getLsbD 0 = true → exec (.mbxDoorbell k v) s = .next (settle s (s.setFab k
      (if s.sectRuns k then { f with bells := f.bells + 1 } else { f with rings := f.rings + 1 })))) ∧
    (open_ → v.getLsbD 0 = false → exec (.mbxDoorbell k v) s = .next (settle s s)) ∧
    (∀ (b : Fin 32) (value oe : Bool), outside → ∃ u, exec (.fabOutChange k b value oe) s = .next u ∧
      (u.fabOf k).out.getLsbD b = value ∧ (u.fabOf k).oe.getLsbD b = oe ∧
      ∀ i, i ≠ b.val → (u.fabOf k).out.getLsbD i = f.out.getLsbD i ∧ (u.fabOf k).oe.getLsbD i = f.oe.getLsbD i) ∧
    (∀ (b : Fin 32) (value oe : Bool), ¬ outside → exec (.fabOutChange k b value oe) s = .next (settle s s))

/-- Flips change the stored code word only, write-backs mend single errors, a wipe zeroes the vault. -/
def Obligations.StoredBitsFlipAndAreMended : Prop :=
  ∀ (s : State),
    (∀ a m, regionOf a = .scratch 0 ∨ regionOf a = .dram ∨ regionOf a = .iram ∨ regionOf a = .vault ∨ regionOf a = .sillage →
      ∃ u, exec (.memoryBitFlip (.memory a m)) s = .next u ∧ u.flips a = s.flips a ^^^ m % 2 ^ 39 ∧ (∀ x, u.byte x = s.byte x) ∧
        ∀ b, b / 4 ≠ a / 4 → u.flips b = s.flips b) ∧
    (∀ a m, regionOf a = .retain → ∃ u, exec (.memoryBitFlip (.memory a m)) s = .next u ∧
      u.flips (a - a % 8) = s.flips (a - a % 8) ^^^ m % 2 ^ 72 ∧ ∀ x, u.byte x = s.byte x) ∧
    (∀ i c m, voted i = true → c < 3 → (∀ j < 3, tget 0 s.scrub.diffs (3 * i + j) = 0) →
      ∃ u, exec (.memoryBitFlip (.voted i c m)) s = .next u ∧ (∀ b, u.reg b = s.reg b) ∧ u.scrub.place = s.scrub.place ∧
        tget 0 u.scrub.diffs (3 * i + c) = m % 2 ^ 32) ∧
    (∀ i c b m, voted i = true → 1 < i → c < 3 → b < 3 → b ≠ c → m < 2 ^ 32 → tget 0 s.scrub.diffs (3 * i + b) = m →
      (∀ j < 3, j ≠ b → tget 0 s.scrub.diffs (3 * i + j) = 0) → ∃ u, exec (.memoryBitFlip (.voted i c m)) s = .next u ∧
        u.reg i = s.reg i ^^^ (BitVec.ofNat 32 m &&& BitVec.ofNat 32 (swBits i))) ∧
    (∀ k : Fin 16, s.sectRuns k = false → exec (.eccWriteback k) s = .next (settle s s)) ∧
    (∀ (k : Fin 16) a, s.sectRuns k = true → s.wbq.find? (fun a => eccSector a == k.val) = some a → ∃ u, exec (.eccWriteback k) s = .next u ∧
      u.wbq = s.wbq.erase a ∧ (∀ x, u.byte x = s.byte x) ∧ u.flips a = 0) ∧
    (∀ (k : Fin 16) (v : Word), s.fb (BAY_STATUS_HELD k) = true → exec (.scrInjArm k v) s =
      .next (settle s (s.accessError 403 (SCR_INJ_at k) false false true))) ∧
    (∀ (k : Fin 16) (v : Word), s.fb (BAY_STATUS_HELD k) = false → exec (.scrInjArm k v) s = .next (settle s (s.setReg (SCR_INJ_at k) ((v &&& 0x00007F3F) ||| 0x80000000)))) ∧
    (∀ (req : Fin 405) (v : Word), s.denied req VAULT_WIPE_at true = false → v.toNat / 2 ^ 16 = 0xA5C3 → v.getLsbD 0 = true →
      exec (.vaultWipe req v) s = .next (settle s { s.setFld VAULT_STAT_WIPING 1 with wipe := some 3 })) ∧
    (∀ (req : Fin 405) (v : Word), s.denied req VAULT_WIPE_at true = false → v.toNat / 2 ^ 16 ≠ 0xA5C3 →
      exec (.vaultWipe req v) s = .next (settle s s)) ∧
    (∀ c, s.wipe = some c → c < 16 → ∃ u, exec .wipeDone s = .next u ∧ u.wipe = none ∧ u.fb VAULT_STAT_WIPING = false ∧
      u.fld VAULT_STAT_LASTCAUSE = c ∧ u.fld VAULT_WPROT_PAGES = 0 ∧
      u.fb VAULT_IRQ_STAT_WIPED = true ∧
      ((∀ x, x / 0x10000 = 0x5000 → u.byte x = 0) ∧ ∀ x, x / 0x10000 ≠ 0x5000 → u.byte x = s.byte x))

/-- OPEN starts a session, CHECK and CHECK_DONE judge it, APPLY arms it; every refusal answers its code. -/
def Obligations.SessionsOpenCheckAndArm : Prop :=
  ∀ (s : State) (req : Fin 405), 403 ≤ req.val →
    let st := s.fld ATTAR_STAT_STATE
    let own := s.fld ATTAR_STAT_OWNER = req
    let res (c : Nat) : State := s.setFld ATTAR_STAT_CMDRES c
    let os := s.sessionOffences
    (st = 0 → s.noService = false → exec (.openSession req) s = .next (settle s
      ((({ s with attar := ⟨[], [], none, false, s.tb.now⟩ } : State).setFld ATTAR_STAT_STATE 1).setFld ATTAR_STAT_OWNER req |>.setFld
        ATTAR_STAT_CMDRES 0))) ∧
    (st ≠ 0 → exec (.openSession req) s = .next (settle s (res 1))) ∧
    (st = 0 → s.noService = true → exec (.openSession req) s = .next (settle s (res 4))) ∧
    (st = 0 → exec (.attarCheck req) s = .next (settle s (res 2)) ∧ ∀ m, exec (.attarApply req m) s = .next (settle s (res 2))) ∧
    (st ≠ 0 → ¬ own → exec (.attarCheck req) s = .next (settle s (res 3)) ∧ ∀ m, exec (.attarApply req m) s = .next (settle s (res 3))) ∧
    (own → (st = 2 → exec (.attarCheck req) s = .next (settle s (res 5)) ∧ ∀ m, exec (.attarApply req m) s = .next (settle s (res 5))) ∧
      (st = 4 → exec (.attarCheck req) s = .next (settle s (res 7)) ∧ ∀ m, exec (.attarApply req m) s = .next (settle s (res 7)))) ∧
    (st = 1 ∨ st = 3 → own → exec (.attarCheck req) s = .next (settle s
      ((({ s with attar := { s.attar with dirty := false } } : State).setFld ATTAR_STAT_STATE 2).setFld ATTAR_STAT_CMDRES 0))) ∧
    (st = 2 → ∃ u, exec .checkDone s = .next u ∧ u.fld ATTAR_CHK_RESULT_COUNT = min os.length 255 ∧
      u.fb ATTAR_IRQ_STAT_CHKDONE = true ∧ u.fld ATTAR_STAT_STATE = (if os.isEmpty && !s.attar.dirty then 3 else 1)) ∧
    (st = 3 → own → s.clockStopped (s.takesPart s.attar.staged s.attar.reqs) = false → exec (.attarApply req 0) s = .next (settle s
      ((({ s with attar := { s.attar with target := some (.tick s.firstTick) } } : State).setFld ATTAR_STAT_STATE 4).setFld
        ATTAR_STAT_CMDRES 0))) ∧
    (st = 3 → own → s.clockStopped (s.takesPart s.attar.staged s.attar.reqs) = true → exec (.attarApply req 0) s =
      .next (settle s (res 0xA))) ∧
    (∀ (m : Fin 4) x c, st = 3 → own → s.applyTarget m = (x, c) →
      (c ≠ 0 → exec (.attarApply req m) s = .next (settle s (res c))) ∧
      (c = 0 → s.clockStopped (s.takesPart s.attar.staged s.attar.reqs) = false → exec (.attarApply req m) s = .next (settle s
        ((({ s with attar := { s.attar with target := some x } } : State).setFld ATTAR_STAT_STATE 4).setFld ATTAR_STAT_CMDRES 0)))) ∧
    (∀ m, st = 1 → own → exec (.attarApply req m) s = .next (settle s (res 6)))

/-- Staged writes wait in an open session, strays are recorded, PEEK shows them, ABORT and the timeout close without effect. -/
def Obligations.SessionsStagePeekAndClose : Prop :=
  ∀ (s : State) (req : Fin 405) (a v : Word),
    let st := s.fld ATTAR_STAT_STATE
    let closed (u : State) (how : Nat) : Prop := u.fld ATTAR_STAT_STATE = 0 ∧ u.attar.staged = [] ∧ u.attar.reqs = [] ∧
      u.fld ATTAR_STAT_LASTEND = how ∧ u.fb ATTAR_IRQ_STAT_CLOSED = true
    let r := rowOf a.toNat
    let s0 := s.loadsFirst req s.tb.now
    let may := s.busRuns = true ∧ s0.loaderGate req a.toNat = false ∧ a.toNat % 4 = 0 ∧ (regionOf a.toNat = .regs ∨ regionOf a.toNat = .bay) ∧
      s0.denied req a.toNat true = false
    let line := may ∧ regionOf a.toNat = .regs ∧ a.toNat % 0x1000000 / 0x1000 = 9
    (may → exec (.stagedWrite ⟨req, a⟩ v) s = .next (settle s (s0.regWrite req a.toNat v))) ∧
    (s.busRuns = false → exec (.stagedWrite ⟨req, a⟩ v) s = .next (settle s s)) ∧
    (line → st = 1 → rwsMask a.toNat ≠ 0 → ∃ u, exec (.stagedWrite ⟨req, a⟩ v) s = .next u ∧
      tget none u.attar.staged a.toNat = some (v &&& rwsMask a.toNat) ∧
      (u.reg a.toNat = (((s.reg a.toNat &&& ~~~BitVec.ofNat 32 r.rw) ||| (v &&& BitVec.ofNat 32 r.rw)) &&&
        ~~~(v &&& BitVec.ofNat 32 r.w1c)) ||| (v &&& BitVec.ofNat 32 r.w1s)) ∧
      (∀ b, b ≠ a.toNat → b ≠ PAIR_TXQ_at → u.reg b = s.reg b) ∧
      ∀ b, b ≠ a.toNat → tget none u.attar.staged b = tget none s.attar.staged b) ∧
    (line → st = 0 → rwsMask a.toNat ≠ 0 → ∃ u, exec (.stagedWrite ⟨req, a⟩ v) s = .next u ∧ u.fb ATTAR_STAT_STRAY = true ∧
      u.fb ATTAR_IRQ_STAT_STRAY = true ∧ u.fld ATTAR_STRAY_ADDR_ADDR =
        (if s.fb ATTAR_STAT_STRAY then s.fld ATTAR_STRAY_ADDR_ADDR else a.toNat) ∧ u.attar.staged = s.attar.staged) ∧
    (∀ w, st = 1 → tget none s.attar.staged a.toNat = some w → ∃ u, exec (.peek a) s = .next u ∧
      u.reg ATTAR_PEEK_ADDR_at = a ∧ u.reg ATTAR_PEEK_DATA_at = w &&& rwsMask a.toNat) ∧
    (st = 0 → ∃ u, exec (.peek a) s = .next u ∧ u.reg ATTAR_PEEK_DATA_at = 0) ∧
    (403 ≤ req.val → st = 1 → s.fld ATTAR_STAT_OWNER = req → ∃ u, exec (.attarAbort req false) s = .next u ∧ closed u 2 ∧
      u.fld ATTAR_STAT_CMDRES = 0) ∧
    (403 ≤ req.val → st = 1 → s.fld ATTAR_STAT_OWNER ≠ req → exec (.attarAbort req false) s =
      .next (settle s (s.setFld ATTAR_STAT_CMDRES 3))) ∧
    (403 ≤ req.val → st = 1 → s.fld ATTAR_STAT_OWNER ≠ req → ∃ u, exec (.attarAbort req true) s = .next u ∧ closed u 4) ∧
    (st = 1 → s.fld ATTAR_CFG_TIMEOUT ≠ 0 → 200000 * s.fld ATTAR_CFG_TIMEOUT ≤ (s.tb.now - s.attar.since).toNat →
      ∃ u, exec .sessionTimeout s = .next u ∧ closed u 3) ∧
    (s.fld ATTAR_CFG_TIMEOUT = 0 → exec .sessionTimeout s = .next (settle s s))

/-- GPIO_SET, CLR and TGL act on their bits, the lock takes two keyed writes in time, a failed bank is marked. -/
def Obligations.PinsAreWrittenAndLocked : Prop :=
  (∀ (s : State) (g : Fin 11) (v : Word),
    let out := GPIO_OUT_at g
    let w := s.reg out
    let m := s.sharedBits g
    let act := if s.pairStandby then v &&& ~~~m else v
    let frame (u : State) : Prop :=
      (∀ b, b ≠ out → b ≠ PAIR_IRQ_STAT_at → b ≠ PAIR_TXQ_at → u.reg b = s.reg b) ∧
      (s.pairStandby = true → v &&& m ≠ 0 → u.fb PAIR_IRQ_STAT_LOCALWR = true) ∧
      (v &&& m = 0 → u.reg PAIR_IRQ_STAT_at = s.reg PAIR_IRQ_STAT_at ∧ u.reg PAIR_TXQ_at = s.reg PAIR_TXQ_at)
    (∃ u, exec (.gpioSet g v) s = .next u ∧ u.reg out = w ||| act ∧ frame u) ∧
    (∃ u, exec (.gpioClr g v) s = .next u ∧ u.reg out = w &&& ~~~act ∧ frame u) ∧
    (∃ u, exec (.gpioTgl g v) s = .next u ∧ u.reg out = w ^^^ act ∧ frame u)) ∧
  (∀ (s : State) (req : Fin 405) (v : Word),
    let key := bits v.toNat 31 16
    let g := v.toNat % 2 ^ 16
    let err (s : State) : State := (s.setFld XBAR_STAT_LOCKERR 1).setFld XBAR_IRQ_STAT_LOCKERR 1
    let opened (s : State) : State := { s with pins := { s.pins with lockSeq := some (req.val, g, s.tb.now) } }
    let closed (s : State) : State := { s with pins := { s.pins with lockSeq := none } }
    let first := key = 0x6C6B ∧ g ≤ 10
    (req.val < 403 → exec (.xbarLock req v) s = .next (settle s s)) ∧
    (403 ≤ req.val → s.pins.lockSeq = none → (first → exec (.xbarLock req v) s = .next (settle s (opened s))) ∧
      (¬ first → exec (.xbarLock req v) s = .next (settle s (closed (err s))))) ∧
    (∀ r h t, 403 ≤ req.val → s.pins.lockSeq = some (r, h, t) → (s.tb.now - t).toNat ≤ 256 →
      (r = req → key = 0x9394 → g = h → exec (.xbarLock req v) s = .next (settle s (closed (s.setReg (XBAR_LOCKED_at g)
        (s.reg (XBAR_LOCKED_at g) ||| s.reg (XBAR_LOCKMASK_at g)))).invalidate)) ∧
      (first → exec (.xbarLock req v) s = .next (settle s (opened (err s)))) ∧
      (¬ first → ¬ (r = req ∧ key = 0x9394 ∧ g = h) → exec (.xbarLock req v) s = .next (settle s (closed (err s))))) ∧
    (∀ r h t, 403 ≤ req.val → s.pins.lockSeq = some (r, h, t) → 256 < (s.tb.now - t).toNat →
      (first → exec (.xbarLock req v) s = .next (settle s (opened (closed (err s))))) ∧
      (¬ first → exec (.xbarLock req v) s = .next (settle s (closed (err (closed (err s))))))) ∧
    (∀ r h t, s.pins.lockSeq = some (r, h, t) →
      (256 < (s.tb.now - t).toNat → exec .lockTimeout s = .next (settle s (closed (err s)))) ∧
      ((s.tb.now - t).toNat ≤ 256 → exec .lockTimeout s = .next (settle s s))) ∧
    (s.pins.lockSeq = none → exec .lockTimeout s = .next (settle s s))) ∧
  (∀ (s : State) (b : Fin 8) (level : Fin 4),
    let l := s.fld XBAR_BANKSTAT_LEVEL
    (bits l (2 * b.val + 1) (2 * b.val) ≠ 0 → ∃ u, exec (.bankFail b) s = .next u ∧
      bits (u.fld XBAR_BANKSTAT_LEVEL) (2 * b.val + 1) (2 * b.val) = 0 ∧ u.fb XBAR_IRQ_STAT_BANKFAIL = true ∧
      u.pins.bankOff.testBit b = true) ∧
    (bits l (2 * b.val + 1) (2 * b.val) = 0 → exec (.bankFail b) s = .next (settle s s)) ∧
    (∃ u, exec (.bankReturn b level) s = .next u ∧ bits (u.fld XBAR_BANKSTAT_LEVEL) (2 * b.val + 1) (2 * b.val) = level ∧
      u.pins.bankOff.testBit b = true))

/-- A cycle is assembled ahead, its frames leave at its start, a good return ends it, a higher epoch demotes. -/
def Obligations.LinesRunTheirCycles : Prop :=
  ∀ (s : State) (l : Fin 8), s.pwr.released = true → s.domRuns .line = true →
    let y := s.lineOf l
    let m := s.nextStart l
    let len := s.fld TB_TICKLEN_CYCLES
    let c := s.tb.edge + BitVec.ofNat 64 ((m - s.tb.tick).toNat * len)
    let a := (c - s.tb.now).toInt - s.fld TB_BLEAD_LEAD
    (y.asm.map (·.start) ≠ some m → a < ((s.tb.edge + BitVec.ofNat 64 len) - s.tb.now).toInt →
      exec (.assembly l) s = .next (settle s ((s.advance a.toNat).assemble l m c)) ∧
      ∃ x, (((s.advance a.toNat).assemble l m c).lineOf l).asm = some x ∧ x.start = m) ∧
    (∀ x, y.asm = some x → x.start = s.tb.tick → y.lastTick ≠ some s.tb.tick → y.cur = none →
      let k := if y.started then y.cycle + 1 else 0
      let d := s.outbox ++ [.message "TIMED" (l :: s.timedFrame x k), .message "MARK" [l, k.toNat]]
      (s.lineSends l x.cfg = true → ∃ u o, exec (.cycleStart l) s = .next u ∧ (u.lineOf l).cycle = k ∧ (u.lineOf l).cur = some x ∧
        (u.lineOf l).asm = none ∧ u.fld (BL_CYCLE_CYCLE l) = k.toNat ∧ u.fb (BL_STAT_RUN l) = true ∧
        u.outbox = d ++ .message "DATA" (l :: s.dataFrame l x k) :: o) ∧
      (s.lineSends l x.cfg = false →
        let counts := (BL_CFG_EN l).get x.cfg == 1 && !s.pairStandby
        exec (.cycleStart l) s = .next (settle s ((s.setFld (BL_STAT_RUN l) 0).setLine l { y with
          started := y.started || counts, cycle := if counts then k else y.cycle, lastTick := some s.tb.tick, asm := none,
          cur := none })))) ∧
    (let turn (f : LineReturn) : List Output := s.outbox ++ [.message "TURN_MARK" [l, s.free.toNat % 251],
        .message "TURN" (l :: b2n (!f.good) :: f.frame.bytes.map BitVec.toNat)];
      (∀ f, s.fb (BL_CFG_EN l) = true → s.pairStandby = false → s.fb (BL_STAT_DEMOTED l) = true → ∃ u o,
        exec (.returnReceive l f) s = .next u ∧ u.outbox = turn f ++ o ∧
        (u.lineOf l).demoted = (if f.good then max y.demoted f.epoch else y.demoted)) ∧
      (∀ f, s.fb (BL_CFG_EN l) = true → s.pairStandby = true → ∃ u o, exec (.returnReceive l f) s = .next u ∧
        u.outbox = turn f ++ o ∧ u.lines = s.lines ∧
        u.fld (BL_CYCLE_CYCLE l) = (if f.good then f.cycle.toNat else s.fld (BL_CYCLE_CYCLE l))) ∧
      (∀ f, s.fb (BL_CFG_EN l) = true → s.pairStandby = false → s.fb (BL_STAT_DEMOTED l) = false → f.good = true →
        f.epoch > s.fld BL_EPOCH_EPOCH → ∃ u o, exec (.returnReceive l f) s = .next u ∧ u.outbox = turn f ++ o)) ∧
    (∀ f, s.fb (BL_CFG_EN l) = true → s.pairStandby = false → s.fb (BL_STAT_DEMOTED l) = false → f.good = true →
      f.epoch > s.fld BL_EPOCH_EPOCH →
      ∃ u, exec (.returnReceive l f) s = .next u ∧ u.fb (BL_STAT_DEMOTED l) = true ∧ (u.lineOf l).cur = none ∧
        (u.lineOf l).demoted = f.epoch ∧ (s.fld PAIR_STAT_ROLE = 4 → u.pair.depose = true)) ∧
    (∀ f x, s.pairStandby = false → s.fb (BL_STAT_DEMOTED l) = false → y.cur = some x → f.good = true → f.cycle = y.cycle → f.epoch = s.fld BL_EPOCH_EPOCH → f.rtt < 2 ^ 16 → ∃ u, exec (.returnReceive l f) s = .next u ∧ u.fb (BL_STAT_RETOK l) = true ∧
        (u.lineOf l).cur = none ∧ (u.lineOf l).damaged = false) ∧
    (∀ f x, s.pairStandby = false → s.fb (BL_STAT_DEMOTED l) = false → y.cur = some x → f.good = false → exec (.returnReceive l f) s = .next (settle s (s.setLine l { y with damaged := true })))

/-- A node locks to HOLD, keeps good frames, runs and arms at a mark, fires, ends its pulses, and falls safe. -/
def Obligations.NodesFollowTheirFrames : Prop :=
  ∀ (s : State) (l : Fin 8) (k : Fin 32),
    let x := s.nodeOf l k
    let safe (u : State) (st : NodeState) : Prop := (u.nodeOf l k).st = st ∧ (u.nodeOf l k).outs = Config.nodeSafe l k ∧
      (u.nodeOf l k).armed = [] ∧ (u.nodeOf l k).pulses = []
    let goesOn (f : LineFrame) : List Output := if Config.nodeTerm l k then [] else
      [.message "NODE_FORWARD" (l :: k :: b2n (!f.good) :: f.bytes.map BitVec.toNat)]
    (x.st = .offline → ∃ u, exec (.nodeSymbolLock l k) s = .next u ∧ safe u .hold) ∧
    (∃ u, exec (.nodeLockLoss l k) s = .next u ∧ safe u .offline) ∧
    (x.st = .run → ∃ u, exec (.nodeTimeout l k) s = .next u ∧ safe u .hold) ∧
    (∀ f loop aux nf, x.st ≠ .offline → f.good = true → x.epoch ≤ f.epoch → f.safe = false → ∃ u,
      exec (.nodeDataFrame l k f loop aux nf) s = .next u ∧ (u.nodeOf l k).data = some f ∧ (u.nodeOf l k).epoch = f.epoch) ∧
    (∀ f loop aux nf, x.st = .run → f.good = true → x.epoch ≤ f.epoch → f.safe = true → ∃ u,
      exec (.nodeDataFrame l k f loop aux nf) s = .next u ∧ safe u .hold) ∧
    (∀ f, x.st ≠ .offline → f.good = true → x.epoch ≤ f.epoch → exec (.nodeTimedFrame l k f) s = .next (settle s
      (({ s with outbox := s.outbox ++ goesOn f } : State).setNode l k { x with epoch := f.epoch, timed := some f }))) ∧
    (∀ f, x.st ≠ .offline → f.good = false → exec (.nodeTimedFrame l k f) s = .next (settle s
      (({ s with outbox := s.outbox ++ goesOn f } : State).setNode l k { x with rxerr := min (x.rxerr + 1) 255, timed := none }))) ∧
    (∀ f loop aux nf, x.st ≠ .offline → f.good = false → x.wrap = false → Config.nodeTerm l k = false → ∃ u o,
      exec (.nodeDataFrame l k f loop aux nf) s = .next u ∧ u.outbox = s.outbox ++ goesOn f ++ o ∧ (u.nodeOf l k).data = none ∧
      (u.nodeOf l k).st = x.st) ∧
    (∀ d f, x.st = .hold → 2 ≤ x.ready → x.data = some f → ∃ u, exec (.nodeMark l k true d) s = .next u ∧ (u.nodeOf l k).st = .run ∧
      ((f.seg k).map (·.1) = some false ∨ f.seg k = none ∧ x.follow = false → (u.nodeOf l k).outs = 0)) ∧
    (∀ d f t, x.st = .run → x.data = some f → x.timed = some t → t.cycle = f.cycle + 1 → ∃ u, exec (.nodeMark l k true d) s = .next u ∧
      (u.nodeOf l k).armed = (t.recs.filter (fun w => bits w.toNat 31 27 == k.val || strobesAll (bits w.toNat 4 0))).filter
        (fun w => decide (bits w.toNat 20 5 ≤ f.clen)) ∧ (u.nodeOf l k).mark = s.tb.now ∧
      (∀ en i, f.seg k = some (true, en, i) → (u.nodeOf l k).outs = i) ∧ (f.seg k = none → (u.nodeOf l k).outs = if x.follow then x.image else x.outs)) ∧
    (∀ d, x.st ≠ .offline → ∃ u, exec (.nodeMark l k false d) s = .next u ∧ (u.nodeOf l k).data = none ∧
      (u.nodeOf l k).timed = none ∧ (u.nodeOf l k).armed = [] ∧ (u.nodeOf l k).st = x.st ∧ (u.nodeOf l k).outs = x.outs) ∧
    (∀ d, x.st = .run → x.data = none → ∃ u, exec (.nodeMark l k true d) s = .next u ∧ (u.nodeOf l k).armed = [] ∧
      (u.nodeOf l k).outs = if x.follow then x.image else x.outs) ∧
    (∀ w, x.st = .run → x.armed = [w] → exec (.nodeFiring l k) s = .next (settle s
      (let t := x.mark + BitVec.ofNat 64 (8 * bits w.toNat 20 5)
       s.setNode l k (({ (x.endPulses t).exec t w with armed := [] }).sign l k (x.endPulses t).outs)))) ∧
    (∀ t o, x.pulses = [(t, o)] → o < 64 → ∃ u, exec (.nodePulseEnd l k) s = .next u ∧ (u.nodeOf l k).pulses = [] ∧
      (u.nodeOf l k).outs.getLsbD o = false) ∧
    exec (.nodeEpochRelease l k) s = .next (settle s (s.setNode l k { x with epoch := 0 }))

/-- The link, the alive pins, heartbeats, takeover, resignation and joins move the pair's role as its rules say. -/
def Obligations.PairLinkAndRolesFollow : Prop :=
  ∀ (s : State),
    let role := s.fld PAIR_STAT_ROLE
    let p := s.pair
    (s.fld PAIR_CFG_EN ≠ 0 → s.fb PAIR_STAT_LINK = true → exec .ubvelLinkDown s =
      .next (settle s ((s.markQueue.setFld PAIR_STAT_LINK 0).setFld PAIR_IRQ_STAT_LINKDOWN 1))) ∧
    (∀ dly, s.fld PAIR_CFG_EN ≠ 0 → ∃ u, exec (.ubvelLinkUp dly) s = .next u ∧ u.fb PAIR_STAT_LINK = true ∧
      u.fld PAIR_LINKDLY_DLY = dly.toNat) ∧
    (role ≠ 0 → exec .aliveToggle s = .next (settle s { s with pair := { p with aliveOut := s.fit && !p.aliveOut } }) ∧
      exec .aliveInEdge s = .next (settle s (({ s with pair := { p with lastAlive := s.tb.now } } : State).setFld PAIR_STAT_ALIVEIN 1))) ∧
    (s.fb PAIR_STAT_ALIVEIN = true → 3800 ≤ (s.tb.now - p.lastAlive).toNat → ∃ u, exec .partnerStatic s = .next u ∧
      u.fb PAIR_STAT_ALIVEIN = false ∧ u.pair.since = s.tb.now ∧
      (s.fld PAIR_STAT_HBMISS < 3 → u.fld PAIR_STAT_ROLE = role) ∧
      (3 ≤ s.fld PAIR_STAT_HBMISS → role = 3 → p.lost = none → u.pair.lost = some s.tb.now ∧ u.fb PAIR_IRQ_STAT_PARTNERLOST = true) ∧
      (3 ≤ s.fld PAIR_STAT_HBMISS → role = 4 → u.fld PAIR_STAT_ROLE = 5 ∧ u.fb PAIR_IRQ_STAT_PARTNERLOST = true) ∧
      (3 ≤ s.fld PAIR_STAT_HBMISS → role = 2 → u.fld PAIR_STAT_ROLE = 1 ∧ u.fb PAIR_IRQ_STAT_PARTNERLOST = true)) ∧
    (role = 2 ∨ role = 3 ∨ role = 4 → p.judged ≠ some s.tb.tick → ∃ u, exec .heartbeatCheck s = .next u ∧ u.pair.judged = some s.tb.tick ∧
      (p.got = true → u.fld PAIR_STAT_HBMISS = s.fld PAIR_STAT_HBMISS) ∧
      (p.got = false → s.fld PAIR_STAT_HBMISS < 2 → u.fld PAIR_STAT_HBMISS = s.fld PAIR_STAT_HBMISS + 1 ∧ u.fld PAIR_STAT_ROLE = role)) ∧
    (∀ t, role = 3 → s.fit = true → p.lost = some t → 200 ≤ (s.tb.edge - t).toInt →
      (s.fb PAIR_CFG_STRICT = false ∨ s.ready = true → ∃ u, exec .takeover s = .next u ∧ u.fld PAIR_STAT_ROLE = 5 ∧ u.pair.lost = none ∧
        u.fb PAIR_IRQ_STAT_TAKEOVER = true) ∧
      (s.fb PAIR_CFG_STRICT = true → s.ready = false → ∃ u, exec .takeover s = .next u ∧ u.fld PAIR_STAT_ROLE = 1)) ∧
    (role = 1 → s.fb PAIR_STAT_ALIVEIN = false → 200000 * s.fld PAIR_CFG_SEEKTMO ≤ (s.tb.now - p.since).toNat →
      ∃ u, exec .seekTimeout s = .next u ∧ u.fld PAIR_STAT_ROLE = 5 ∧ (s.fld PAIR_PEPOCH_EPOCH < 0xFFFE →
        s.fld PAIR_PEPOCH_EPOCH < u.fld BL_EPOCH_EPOCH ∧ u.fld BL_EPOCH_EPOCH % 2 = s.fld PAIR_STAT_SIDE)) ∧
    (∀ v : Word, v.toNat / 2 ^ 16 = 0x6E6F → v.getLsbD 1 = false → role = 4 ∨ role = 5 → ∃ u, exec (.resign v) s = .next u ∧
      u.pair.resigned = true ∧ u.pair.depose = true ∧ u.fld PAIR_STAT_ROLE = role) ∧
    (∀ v : Word, v.toNat / 2 ^ 16 = 0x6E6F → role = 6 → ∃ u, exec (.rejoin v) s = .next u ∧ u.fld PAIR_STAT_ROLE = 1 ∧
      u.pair.resigned = false) ∧
    (∀ t, p.silent = some t → 240000000 ≤ (s.tb.now - t).toNat → ∃ u, exec .epochSilenceEnd s = .next u ∧ u.pair.silent = none ∧
      u.fld BL_EPOCH_EPOCH = 2 + s.fld PAIR_STAT_SIDE) ∧
    (role = 1 ∨ role = 6 → ∃ u o, exec .helloSend s = .next u ∧ u.pair.txSeq = p.txSeq + 1 ∧ u.regs = s.regs ∧
      u.outbox = s.outbox ++ .message "HELLO" (packetWords 9 p.txSeq.toNat
        [role, s.fld PAIR_STAT_SIDE, s.fld BL_EPOCH_EPOCH, (s.reg PAIR_IMGID_at).toNat]) :: o) ∧
    (role = 2 → p.synced ≠ none → 64 ≤ p.clean → ∃ u, exec .joinComplete s = .next u ∧ u.fld PAIR_STAT_ROLE = 3 ∧
      u.fb PAIR_IRQ_STAT_JOINED = true ∧ u.pair.joining = false)

/-- A standby takes the packets of its primary in their order of effect; a damaged mirrored write starts the join again. -/
def Obligations.PacketsMirrorThePrimary : Prop :=
  ∀ (s : State),
    let role := s.fld PAIR_STAT_ROLE
    let p := s.pair
    (∀ rx : PacketRx, s.fb PAIR_STAT_LINK = true → rx.crc = true → (∀ q, p.rxSeq = some q → q = rx.seq) →
      let got : State := ({ s with pair := { p with rxSeq := some (rx.seq + 1) } } : State).setFld PAIR_LINKDLY_DLY rx.dly.toNat
      let p := got.pair
      (∀ a v, role = 3 → regionOf a = .scratch 0 → a % 4 = 0 → ∃ u, exec (.writePacket rx a 4 ⟨v, false⟩) s = .next u ∧
        u.word a = (if s.sectRuns (a % 0x1000000 / 0x40000) then v else s.word a) ∧ ∀ x, x < a ∨ a + 4 ≤ x → u.byte x = s.byte x) ∧
      (∀ a v, role = 3 → regionOf a = .scratch 0 → s.sectRuns (a % 0x1000000 / 0x40000) = true → ∃ u, exec (.writePacket rx a 4 ⟨v, true⟩) s =
        .next u ∧ u.fb (SCR_IRQ_STAT_COLL (a % 0x1000000 / 0x40000)) = true ∧ ∀ x, u.byte x = s.byte x) ∧
      (∀ a v, role = 3 → exec (.sessionPacket rx (.stage a v)) s = .next (settle s { got with
        pair := { p with staged := tset none p.staged a (some v) } })) ∧
      (∀ op i ws, role = 3 → exec (.sessionPacket rx (.request op i ws)) s = .next (settle s { got with
        pair := { p with reqs := p.reqs ++ [(op, i, ws)] } })) ∧
      (∀ tick, role = 3 → ∃ u, exec (.sessionPacket rx (.ended 1 tick)) s = .next u ∧ u.pair.ended = true ∧ u.pair.reqs = [] ∧
        u.pair.staged = p.staged.filter (fun x => !engineSetting x.1) ∧
        u.pair.later = p.later ++ [(tick, p.staged.filter (fun x => engineSetting x.1))] ∧ u.pair.allocs = p.allocs ++ s.sessionAllocs tick) ∧
      (∀ how tick, role = 3 → how ≠ 1 → exec (.sessionPacket rx (.ended how tick)) s = .next (settle s { got with
        pair := { p with staged := [], reqs := [] } })) ∧
      (∀ q, role = 3 → exec (.allocPacket rx q) s = .next (settle s { got with pair := { p with allocs := p.allocs ++ [q] } })) ∧
      (∀ q, role = 3 → p.synced ≠ none → exec (.refreshPacket rx q) s = .next (settle s { got with pair := { p with refs := p.refs ++ [q] } })) ∧
      (∀ q, role = 3 → p.synced ≠ none → exec (.logPacket rx q) s =
        .next (settle s { got with pair := { p with logs := p.logs ++ [(q, s.tb.now)] } })) ∧
      (∀ q, role = 3 → q.overflow = true → ∃ u, exec (.tickPacket rx q) s = .next u ∧ u.fld PAIR_STAT_ROLE = 2 ∧
        u.fb PAIR_IRQ_STAT_DESYNC = true) ∧
      (∀ q, role = 3 → q.overflow = false → p.synced ≠ none → s.edgeOff q.tick q.now ≤ 8 → ∃ u, exec (.tickPacket rx q) s = .next u ∧
        u.pair.sums = p.sums ++ q.sums.map (fun x => (q.tick - 1, x.1, x.2)) ∧
        u.fld PAIR_STAT_HBMISS = 0 ∧ u.pair.got = (p.got || decide (q.tick = s.tb.tick)) ∧ u.fld PAIR_STAT_ROLE = 3) ∧
      (∀ q, role = 3 → q.overflow = false → p.synced ≠ none → 8 < s.edgeOff q.tick q.now → ∃ u, exec (.tickPacket rx q) s = .next u ∧
        u.fb PAIR_IRQ_STAT_ALIGNERR = true ∧ u.fld PAIR_STAT_ROLE = 2) ∧
      (∀ q, role = 4 ∨ role = 5 → s.fld BL_EPOCH_EPOCH < q.epoch → ∃ u, exec (.tickPacket rx q) s = .next u ∧ u.pair.depose = true) ∧
      (∀ q, role = 6 → q.epoch < 0x10000 → ∃ u, exec (.tickPacket rx q) s = .next u ∧ u.fld BL_EPOCH_EPOCH = q.epoch) ∧
      (∀ q, role = 5 → q.role = 3 → ∃ u, exec (.statusPacket rx q) s = .next u ∧ u.fld PAIR_STAT_ROLE = 4 ∧
        u.fld PAIR_STAT_PROLE = 3 ∧ u.fb PAIR_IRQ_STAT_JOINED = true) ∧
      (∀ q, role = 4 → q.role ≠ 3 → ∃ u, exec (.statusPacket rx q) s = .next u ∧ u.fld PAIR_STAT_ROLE = 5) ∧
      (∀ q, role = 1 → q.role = 4 → q.image = s.reg PAIR_IMGID_at → b2n q.side ≠ s.fld PAIR_STAT_SIDE →
        ∃ u, exec (.helloPacket rx q) s = .next u ∧ u.fld PAIR_STAT_ROLE = 2 ∧ u.pair.joining = !s.regionHeld) ∧
      (∀ a v left, role = 2 → p.joining = true → p.synced = none → exec (.bulkPacket rx (.register a v) left) s =
        .next (settle s (let t := got.setFld PAIR_JOINPROG_BYTES left
          t.setReg a ((t.reg a &&& ~~~copiedMask a) ||| (v &&& copiedMask a)))))) ∧
    (∀ rx : PacketRx, s.fb PAIR_STAT_LINK = true → rx.crc = false ∨ (∃ q, p.rxSeq = some q ∧ q ≠ rx.seq) →
      (∀ a n v c, role = 3 → ∃ u, exec (.writePacket rx a n ⟨v, c⟩) s = .next u ∧ u.fld PAIR_STAT_ROLE = 2 ∧
        u.fb PAIR_IRQ_STAT_DESYNC = true ∧ ∀ x, u.byte x = s.byte x) ∧
      (∀ q, role ≠ 0 → exec (.helloPacket rx q) s = .next (settle s (({ s with pair := { p with
        rxSeq := some ((if rx.crc then rx.seq else p.rxSeq.getD rx.seq) + 1) } } : State).addSat PAIR_CNT2_CRCERR 1))) ∧
      (∀ q, role = 3 → p.synced ≠ none → q.engine < 256 → ∃ u, exec (.logPacket rx q) s = .next u ∧
        u.fbit (PAIR_DIVERGE_ENG (q.engine / 32)) (q.engine % 32) = true ∧ u.pair.logs = p.logs)) ∧
    (∀ now tick, role = 2 → p.joining = true → p.synced = none → ∃ u, exec (.syncTick now tick []) s = .next u ∧
      u.tb.now = now ∧ u.tb.tick = tick ∧ u.tb.edge = now ∧ u.pair.synced = some tick) ∧
    (∀ (t : Fin 256) q a rest n, role = 2 ∨ role = 3 → p.synced = some n → (s.engOf t).act = none → s.engineRuns t = true →
      n.toNat ≤ (s.tb.tick - 2).toNat → p.logs.find? (fun q => q.1.tick == s.tb.tick - 2 && q.1.engine == t.val) = some q →
      q.1.acts = a :: rest →
      (s.logLate t (s.replayOffset t a.slot) q.2 = false → ∃ u b, exec (.replay t) s = .next u ∧ (u.engOf t).act = some b ∧
        b.slot = a.slot ∧ b.log = some a.words ∧ b.limit = a.count ∧ b.how = a.how) ∧
      (s.logLate t (s.replayOffset t a.slot) q.2 = true → ∃ u, exec (.replay t) s = .next u ∧
        u.fbit (PAIR_DIVERGE_ENG (t / 32)) (t % 32) = true ∧ u.fb PAIR_IRQ_STAT_DIVERGE = true))

/-- An enabled source trips the device with its cause, a release ends it, the watchdogs and the tamper events act. -/
def Obligations.SafePlaneTripsAndReleases : Prop :=
  ∀ (s : State),
    let trips (c : Instr) (i : Nat) : Prop := ∃ u, exec c s = .next u ∧ u.fb SAFE_STAT_TRIPPED = true ∧
      u.fb SAFE_IRQ_STAT_TRIP = true ∧ u.fld SAFE_CAUSE_CAUSE = 2 ^ i ∧ u.pins.tripped = true
    let key (v : Word) : Prop := v.toNat / 2 ^ 16 = 0x5346
    (s.fb SAFE_STAT_TRIPPED = false → s.fb SAFE_CFG_HANDOVER = false → s.fb SAFE_STAT_HANDOVER = false →
      (∀ v : Word, key v → bits v.toNat 3 1 = 0 → s.fbit SAFE_SRCEN_EN 0 = true → trips (.trip v) 0) ∧
      (∀ i : Fin 2, s.fbit SAFE_SRCEN_EN (1 + i.val) = true → trips (.tripInput i true) (1 + i.val)) ∧
      (∀ n : Fin 64, s.fbit SAFE_SRCEN_EN 3 = true → s.fbit (SAFE_CMPTRIP_MASK (n.val / 32)) (n.val % 32) = true →
        s.cmpOn (n.val / 4) (n.val % 4) = true → s.cmpC (n.val / 4) (n.val % 4) = true →
        trips (.comparatorTrip n true) 3) ∧
      (s.fbit SAFE_SRCEN_EN 9 = true → trips (.vmon true) 9) ∧ (s.fbit SAFE_SRCEN_EN 10 = true → trips (.temp true) 10) ∧
      (s.fbit SAFE_SRCEN_EN 8 = true → trips (.clockMonitor true) 8) ∧
      (s.fbit SAFE_SRCEN_EN 7 = true → s.fb SAFE_TICKWD_EN = true → s.pwr.released = true → s.awake = true →
        190 * max 100 (s.fld SAFE_TICKWD_US) ≤ (s.tb.now - s.tb.edge).toNat → trips .tickWatchdog 7) ∧
      (s.fbit SAFE_SRCEN_EN 6 = true → s.wdPassed (2 * s.wdWindow.2) = true → s.fld SAFE_WDCFG_ACTION = 0 → trips .watchdogExpiry 6)) ∧
    (∀ n : Fin 64, s.tripCmp n = true → s.cmpC (n.val / 4) (n.val % 4) = false → ∃ u, exec (.comparatorTrip n false) s = .next u ∧
      u.safe.cmps = (s.safe.cmps.filter (· != n.val)).filter s.tripCmp ∧ u.fbit SAFE_STAT_ACTIVE 3 = !u.safe.cmps.isEmpty) ∧
    (∃ u, exec (.clockMonitor false) s = .next u ∧ u.fbit SAFE_STAT_ACTIVE 8 = decide (s.safe.clock / 2 ≠ 0)) ∧
    (s.fb SAFE_STAT_HANDOVER = true → s.fb SAFE_STAT_TRIPPED = false → s.fld PAIR_STAT_ROLE = 6 → s.safe.hand < 2 ^ 14 →
      ∃ u, exec .handoverTrip s = .next u ∧ u.fb SAFE_STAT_TRIPPED = true ∧ u.fb SAFE_STAT_HANDOVER = false ∧
        u.fld SAFE_CAUSE_CAUSE = s.safe.hand) ∧
    (∀ v : Word, key v → v.getLsbD 0 = false → v.getLsbD 3 = false → s.fb SAFE_STAT_TRIPPED = true →
      let active := s.fld SAFE_STAT_ACTIVE &&& (s.fld SAFE_SRCEN_EN ||| 0x2000)
      (active = 0 → s.deviceCauses = 0 → ∃ u, exec (.tripRelease v) s = .next u ∧ u.fb SAFE_STAT_TRIPPED = false ∧
        u.fld SAFE_CAUSE_CAUSE = 0 ∧ u.fb SAFE_IRQ_STAT_RELEASED = true) ∧
      (active ≠ 0 → exec (.tripRelease v) s = .next (settle s (s.setFld SAFE_STAT_RELREF 1)))) ∧
    (∀ v : Word, key v → bits v.toNat 1 0 = 0 → exec (.safeLock v) s = .next (settle s (s.setFld SAFE_STAT_LOCKED 1))) ∧
    (∀ v : Word, s.fb SAFE_WDCFG_EN = false → exec (.kick v) s = .next (settle s s)) ∧
    (∀ v : Word, s.fb SAFE_WDCFG_EN = true → s.safe.wdStopped = false → v.toNat % 2 ^ 16 = s.fld SAFE_WDSTAT_NEXT →
      s.safe.wdKicked = false ∨ s.wdWindow.1 ≤ s.wdElapsed → ∃ u, exec (.kick v) s = .next u ∧ u.safe.wd = some s.tb.now ∧
        u.fld SAFE_WDSTAT_NEXT = if s.fld SAFE_WDSTAT_NEXT = 0x3C5A then 0xC3A5 else 0x3C5A) ∧
    (∀ v : Word, s.fb SAFE_WDCFG_EN = true → s.safe.wdStopped = false → v.toNat % 2 ^ 16 ≠ s.fld SAFE_WDSTAT_NEXT ∨
      (s.safe.wdKicked = true ∧ s.wdElapsed < s.wdWindow.1) → exec (.kick v) s = .next (settle s s.wdExpire)) ∧
    (∀ v : Word, s.fb SAFE_WDCFG_EN = true → s.safe.wdStopped = true → v.toNat % 2 ^ 16 ≠ s.fld SAFE_WDSTAT_NEXT →
      exec (.kick v) s = .next (settle s s)) ∧
    (s.wdPassed s.wdWindow.2 = true → exec .wdwarn s = .next (settle s (s.setFld SAFE_IRQ_STAT_WDWARN 1))) ∧
    (∀ e : Fin 6, s.tamperEnabled e = true → s.pwr.avdd = true ∨ s.pwr.vbat = true → ∃ u, exec (.tamperEvent e) s = .next u ∧
      u.fbit SAFE_TAMPSTAT_EVT e = true ∧ u.lc.keyRam = none ∧ u.wipe = some 1 ∧ u.fb VAULT_STAT_WIPING = true) ∧
    (s.pwr.avdd = true ∨ s.pwr.vbat = true → exec .rtcSecond s = .next (settle s (s.setReg SAFE_RTCSEC_at (s.reg SAFE_RTCSEC_at + 1))))

/-- The Sillage buffer writes its records in order; freeze, resume, clear and marks act. -/
def Obligations.SillageRecordsAndFreezes : Prop :=
  ∀ (s : State),
    let n := s.fld SILLAGE_STAT_WPTR
    (∀ ws r, s.fb SILLAGE_STAT_FROZEN = false → s.sil.fifo = (ws, false) :: r → s.sil.post = none → n < 32767 → ws.length = 4 →
      let a := 0x52000000 + 16 * n
      ∃ u, exec .sillageWrite s = .next u ∧ u.words a 4 = ws ∧ (∀ x, x < a ∨ a + 16 ≤ x → u.byte x = s.byte x) ∧ u.sil.fifo = r ∧
        u.fld SILLAGE_STAT_WPTR = n + 1) ∧
    (s.fb SILLAGE_STAT_FROZEN = false → exec .sillageFreeze s = .next (settle s
      { (s.setFld SILLAGE_STAT_FROZEN 1).setFld SILLAGE_IRQ_STAT_FROZEN 1 with sil := { s.sil with post := none } })) ∧
    (s.fb SILLAGE_STAT_FROZEN = true → exec .sillageFreeze s = .next (settle s s) ∧ exec .sillageWrite s = .next (settle s s)) ∧
    exec .sillageResume s = .next (settle s
      { (s.setFld SILLAGE_STAT_FROZEN 0).setFld SILLAGE_STAT_TRIGGERED 0 with sil := { s.sil with post := none } }) ∧
    exec .sillageClear s = .next (settle s ((s.setFld SILLAGE_STAT_WPTR 0).setFld SILLAGE_STAT_LAP 0)) ∧
    (∀ (req : Fin 405) (v : Word), s.fbit SILLAGE_CFG_SRCEN 7 = true → s.fb SILLAGE_STAT_FROZEN = false → s.sil.fifo.length < 256 →
      ∃ u e, exec (.sillageMark req v) s = .next u ∧ u.sil.fifo = s.sil.fifo ++ [e] ∧
        e.1.drop 1 = [BitVec.ofNat 32 req ||| 0x80000000, v, s.tickLo]) ∧
    (∀ (req : Fin 405) (v : Word), s.fbit SILLAGE_CFG_SRCEN 7 = false → exec (.sillageMark req v) s = .next (settle s s))

/-- A power-fail warning or SNAP starts a snapshot, its end makes it the newest, the erase commands zero their area. -/
def Obligations.SnapshotsAreTakenAndErased : Prop :=
  ∀ (s : State),
    let key (v : Word) : Prop := v.toNat / 2 ^ 16 = 0x5254
    let lc := s.fld CFG_LC_STATE
    let inside (x : Nat) : Prop := (0x51002000 ≤ x ∧ x < 0x51004000) ∨ (0x51004800 ≤ x ∧ x < 0x51004880)
    (s.pwr.vdd = false → exec .powerFailWarning s = .next (settle s s)) ∧
    (s.pwr.vdd = true → s.fb RETAIN_CFG_SNAPEN = false → exec .powerFailWarning s = .next (settle s
      ((s.setFld RETAIN_STAT_PFW 1).setFld RETAIN_IRQ_STAT_PFW 1))) ∧
    (s.pwr.vdd = true → s.fb RETAIN_CFG_SNAPEN = true → s.snap = none → ∃ u x, exec .powerFailWarning s = .next u ∧ u.snap = some x ∧ x.cause = 1 ∧
      u.pwr.snapStop = true ∧ u.fb RETAIN_STAT_BUSY = true ∧ u.fb RETAIN_IRQ_STAT_PFW = true) ∧
    (∀ v, key v → s.snap = none → ∃ u x, exec (.snap v) s = .next u ∧ u.snap = some x ∧ x.cause = 3 ∧ u.fb RETAIN_STAT_BUSY = true) ∧
    (∀ v x, key v → s.snap = some x → exec (.snap v) s = .next (settle s (s.setFld RETAIN_STAT_RESULT 3))) ∧
    (∀ x, s.snap = some x → x.cause = 3 → s.sectRuns (bits x.src.toNat 31 28) = false →
      exec .snapshotDone s = .next (settle s s)) ∧
    (∀ x, s.snap = some x → (x.cause = 3 → s.sectRuns (bits x.src.toNat 31 28) = true) → x.slot < 64 → ∃ u, exec .snapshotDone s = .next u ∧ u.snap = none ∧
      u.fb RETAIN_SNAPLAST_VALID = true ∧ u.fld RETAIN_SNAPLAST_SLOT = x.slot ∧ u.fld RETAIN_STAT_RESULT = 1 ∧
      u.fb RETAIN_STAT_BUSY = false ∧ u.fb RETAIN_IRQ_STAT_SNAPDONE = true ∧
      (s.safe.wdReset = true → u.pwr.held = true) ∧ (s.safe.wdReset = false → u.pwr.held = s.pwr.held)) ∧
    (∀ v, key v → ∃ u, exec (.erasesnap v) s = .next u ∧ (∀ x, 0x51004000 ≤ x → x < 0x51004800 → u.byte x = 0) ∧
      (∀ x, x < 0x51004000 ∨ 0x51004800 ≤ x → u.byte x = s.byte x) ∧ u.reg RETAIN_SNAPLAST_at = 0) ∧
    (∀ v, key v → lc = 0 ∨ lc = 1 ∨ lc = 3 → ∃ u, exec (.erasefault v) s = .next u ∧ (∀ x, inside x → u.byte x = 0) ∧
      (∀ x, ¬ inside x → u.byte x = s.byte x) ∧ u.fld RETAIN_STAT_FRPOS = 0) ∧
    (∀ v, key v → ¬ (lc = 0 ∨ lc = 1 ∨ lc = 3) → exec (.erasefault v) s = .next (settle s s)) ∧
    (s.fb RETAIN_CFG_AUTOREF = true → s.snap = none → s.awake = true → s.pwr.held = false → ∃ u, exec .mramRefresh s = .next u ∧ u.ist.page = (s.ist.page + 1) % 128 ∧
      ∀ x, u.byte x = s.byte x) ∧
    (s.snap ≠ none ∨ s.awake = false ∨ s.pwr.held = true → exec .mramRefresh s = .next (settle s s))

/-- A failed in-service test is repeated before it is a fault; the scrubber mends single errors and moves on. -/
def Obligations.TestsAndScrubbingFindFaults : Prop :=
  ∀ (s : State),
    let repeats (x : Nat × Nat × Nat) : Prop := s.ist.retry.contains x = true
    let clear (x : Nat × Nat × Nat) : List (Nat × Nat × Nat) := s.ist.retry.erase x
    let wait (x : Nat × Nat × Nat) : List (Nat × Nat × Nat) := s.ist.retry ++ [x]
    let fails (c : Instr) : Prop := ∃ u, exec c s = .next u ∧ u.fb IST_STAT_FCAP = true ∧ ∀ x, x / 0x1000000 ≠ 0x51 → u.byte x = s.byte x
    (∀ (t : Fin 256) sig, 
      let i := tget 0 s.ist.prog t
      let need := min 240 (Config.programCycles i) + 18
      (s.istOn 1 = true → s.istTile t = true → need ≤ s.sectLeft (t / 16) →
        (sig = Config.signature i → i < 15 → exec (.istSignature t sig () ()) s = .next (settle s { s with
          ist := { s.ist with retry := clear (1, t, i), prog := tset 0 s.ist.prog t (i + 1) } })) ∧
        (sig ≠ Config.signature i → ¬ repeats (1, t, i) → exec (.istSignature t sig () ()) s = .next (settle s { s with
          ist := { s.ist with retry := wait (1, t, i) } })) ∧
        (sig ≠ Config.signature i → repeats (1, t, i) → fails (.istSignature t sig () ()))) ∧
      (s.istOn 1 = false ∨ s.istTile t = false ∨ s.sectLeft (t / 16) < need →
        exec (.istSignature t sig () ()) s = .next (settle s s))) ∧
    (∀ (k : Fin 16) (b : Fin 8) w d, s.istOn 2 = true → s.istSkips 2 k = false →
      let m := s.marchOf false k
      let x := (2, 8 * k.val + b.val, m.target false)
      m.unit = b →
      (m.busy = false → ∃ u, exec (.spmarchWindow k b w d true ()) s = .next u ∧ u.marchOf false k = { m with busy := true } ∧
        ∀ a, u.byte a = s.byte a) ∧
      (m.busy = true → m.hit = true → exec (.spmarchWindow k b w d false ()) s =
        .next (settle s (s.setMarch false k (m.step false true)))) ∧
      (m.busy = true → m.hit = false →
        (∃ u, exec (.spmarchWindow k b w 0 false ()) s = .next u ∧ u.ist.retry = clear x ∧ ∀ a, u.byte a = s.byte a) ∧
        (d ≠ 0 → ¬ repeats x → ∃ u, exec (.spmarchWindow k b w d false ()) s = .next u ∧ u.ist.retry = wait x ∧
          u.marchOf false k = { m with busy := false } ∧ ∀ a, u.byte a = s.byte a) ∧
        (d ≠ 0 → repeats x → fails (.spmarchWindow k b w d false ())))) ∧
    (∀ (t : Fin 256) w d, s.istOn 3 = true → s.istSkips 3 (t / 16) = false →
      let k := t.val / 16
      let m := s.marchOf true k
      let x := (3, t.val, m.target true)
      m.unit = t.val % 16 →
      (m.busy = false → s.istTile t = true → 1536 ≤ s.sectLeft k → ∃ u, exec (.trmarchWindow t w d true ()) s = .next u ∧
        u.marchOf true k = { m with busy := true } ∧ ∀ a, u.byte a = s.byte a) ∧
      (m.busy = false → s.sectLeft k < 1536 → ∃ u, exec (.trmarchWindow t w d true ()) s = .next u ∧ (u.marchOf true k).busy = false) ∧
      (m.busy = true → m.hit = false →
        (∃ u, exec (.trmarchWindow t w 0 false ()) s = .next u ∧ u.ist.retry = clear x ∧ ∀ a, u.byte a = s.byte a) ∧
        (d ≠ 0 → repeats x → fails (.trmarchWindow t w d false ())))) ∧
    (∀ (kind : Fin 4) unit arg d n,
      let q := 4 + kind.val
      let k := istBay q unit
      let x := (q, unit, arg)
      s.pwr.released = true → s.awake = true → s.istSkips q k = false →
      (s.istConv q unit = some n → (s.bayTests k).run = none →
        (q = 6 ∧ arg = 0) ∨ (s.istOn q = true ∧ (s.istNext k).any (fun j => istNth k j == x) = true) →
        ∃ u, exec (.istConversion kind unit arg d true) s = .next u ∧ (u.adcOf n).borrowed = some q ∧
          (u.bayTests k).run = some ⟨q, unit, arg, n, false⟩) ∧
      (s.istConv q unit = none → exec (.istConversion kind unit arg d true) s = .next (settle s s)) ∧
      ((s.bayTests k).run = some ⟨q, unit, arg, n, false⟩ → s.borrowedFor n q = true → s.istOn q = true → q ≠ 6 →
        let e := s.istIdeal q unit arg
        ((d.toInt - e.1).natAbs ≤ e.2.natAbs → ∃ u, exec (.istConversion kind unit arg d false) s = .next u ∧
          u.ist.retry = clear x ∧ (u.bayTests k).run = none) ∧
        (e.2.natAbs < (d.toInt - e.1).natAbs → ¬ repeats x → ∃ u, exec (.istConversion kind unit arg d false) s = .next u ∧
          u.ist.retry = wait x ∧ (u.bayTests k).run = none))) ∧
    (∀ (k : Fin 16) d n, s.pwr.released = true → s.awake = true → s.istSkips 6 k = false →
      (s.bayTests k).run = some ⟨6, k, 0, n, false⟩ → s.borrowedFor n 6 = true →
      ∃ u, exec (.istConversion 2 k 0 d false) s = .next u ∧ u.fb (BAY_STATUS_RONSTALE k) = false ∧
      (1600 ≤ d.toNat → d.toNat ≤ 6400 → u.fld (BAY_RONREP_RON k) = d.toNat ∧ u.fb (BAY_STATUS_RONVALID k) = true) ∧
      (d.toNat < 1600 ∨ 6400 < d.toNat → u.fb (BAY_IRQ_STAT_RONRANGE k) = true)) ∧
    (∀ l : Fin 8, s.istOn 8 = true → s.fb (BL_CFG_EN l) = true →
      (tget 0 s.ist.link l ≤ s.fld IST_LINKLIM_LIMIT → ∃ u, exec (.linkWindow l ()) s = .next u ∧ tget 0 u.ist.link l = 0 ∧
        u.fb IST_STAT_FCAP = s.fb IST_STAT_FCAP ∧ ∀ a, u.byte a = s.byte a) ∧
      (s.fld IST_LINKLIM_LIMIT < tget 0 s.ist.link l → fails (.linkWindow l ()))) ∧
    (∀ kind : Fin 8,
      let due := s.fld IST_CFG_MAXPASS * 200000000 ≤ (s.tb.now - tget 0 s.ist.since (kind.val + 1)).toNat
      (s.istOn (kind.val + 1) = true → due → exec (.istStarved kind) s =
        .next (settle s ((s.orBit IST_STAT_STARVED kind).setFld IST_IRQ_STAT_STARVED 1))) ∧
      (s.istOn (kind.val + 1) = false ∨ ¬ due → exec (.istStarved kind) s = .next (settle s s))) ∧
    (s.pwr.released = true → s.awake = true → s.fb SCRUB_CFG_EN = true → 2672 ≤ s.scrub.place → s.scrub.place < 1051247 →
      (s.placeRegion s.scrub.place).any s.regionBusy = false → s.sectRuns ((s.scrub.place - 2672) / 65536) = true →
      let a := 0x21000000 + 4 * (s.scrub.place - 2672)
      (s.flipCount a = 0 → exec .scrubVisit s = .next (settle s (
        let t := (s.setFld SCRUB_STAT_RUNNING 1).voteWritten 0
        { t with scrub := { t.scrub with place := s.scrub.place + 1 } }))) ∧
      (s.flipCount a = 1 → ∃ u, exec .scrubVisit s = .next u ∧ u.flips a = 0 ∧ u.fb SCRUB_IRQ_STAT_CE = true ∧
        u.scrub.place = s.scrub.place + 1)) ∧
    (∀ i c m, voted i = true → c < 3 → (∀ j, j < 3 → tget 0 s.scrub.diffs (3 * i + j) = 0) → m < 2 ^ 32 →
      ∃ u, exec (.memoryBitFlip (.voted i c m)) s = .next u ∧ u.regs = s.regs ∧ u.scrub.place = s.scrub.place ∧
        u.scrub.start = s.scrub.start ∧ tget 0 u.scrub.diffs (3 * i + c) = m) ∧
    (∀ p r, s.scrub.diffs = p :: r → ∃ u, exec .voteFix s = .next u ∧ tget 0 u.scrub.diffs p.1 = 0 ∧ u.fb SCRUB_IRQ_STAT_VOTEFIX = true)

/-- Each record of a full image acts as its kind says, and a bad one ends the attempt with its error code. -/
def Obligations.TheLoaderParsesAnImage : Prop :=
  ∀ (s : State),
    let fails (c : Instr) (code : Nat) : Prop := ∃ u, exec c s = .next u ∧ u.fld CFG_STAT_ERRCODE = code ∧ u.fb CFG_IRQ_STAT_ERR = true
    let hd (h : Word) (kind sub n : Nat) : Prop := bits h.toNat 31 28 = kind ∧ bits h.toNat 27 20 = sub ∧ bits h.toNat 19 0 = n
    let runs (c : Instr) (l : Loader) : Prop := exec c s = .next (settle s { s with loader := l })
    let x := s.loader
    let has (l : Loader) (ws : List Word) : Loader := { l with read := ws.reverse ++ l.read }
    let past (l : Loader) (ws : List Word) : Loader :=
      { has l ws with pos := l.pos + 4 * ws.length, crc := crcWords l.crc ws, checked := false }
    let a (i : Nat) : Word := x.auth.getD i 0
    (x.part = false → x.source = .flash ∨ x.source = .chain →
      (x.phase = .sync → x.left = 0 →
        (∀ w, x.source = .flash → s.fld CFG_STAT_MODE = 0 → fails (.syncWord ⟨w, false⟩) 0x13) ∧
        (∀ t, t = true ∨ x.source ≠ .flash ∨ s.fld CFG_STAT_MODE ≠ 0 →
          runs (.syncWord ⟨0x5A5A4C38, t⟩) { has x [0x5A5A4C38] with phase := .auth, pos := 4 } ∧
          (x.source = .flash → fails (.syncWord ⟨0xFFFFFFFF, t⟩) 0x13) ∧
          (∀ w, w ≠ 0x5A5A4C38 → w ≠ 0xFFFFFFFF ∨ x.source = .chain → fails (.syncWord ⟨w, t⟩) 1))) ∧
      (x.phase = .auth → x.left = 0 → ∀ h ws,
        (hd h 7 0 16 → ws.length = 16 → runs (.auth h ws) { x with phase := .checks, auth := ws, pos := x.pos + 68, body := x.pos + 68, read := [] }) ∧
        (hd h 7 1 48 → ws.length = 48 → runs (.auth h ws) { x with phase := .checks, auth := ws, pos := x.pos + 196, body := x.pos + 196, read := [] }) ∧
        (¬ (hd h 7 0 16 ∨ hd h 7 1 48) → fails (.auth h ws) 2)) ∧
      (x.phase = .checks →
        let key := wordsAt x.auth 16 16
        let keyOk := hashIs s.lc.imgKey key = true
        let sigOk := ecdsaValid (sha256 (wordsAt x.auth 0 16)) key (wordsAt x.auth 32 16) = true
        let c : Instr := .authCheckDone () ()
        (a 1 ≠ s.reg SYS_ID_at → fails c 3) ∧
        (a 1 = s.reg SYS_ID_at → s.lc.state ≠ 0 →
          (x.auth.length ≠ 48 → fails c 6) ∧ (x.auth.length = 48 → ¬ keyOk → fails c 4) ∧
          (x.auth.length = 48 → keyOk → ¬ sigOk → fails c 5)) ∧
        (a 1 = s.reg SYS_ID_at → (x.auth.length = 48 ∧ keyOk ∧ sigOk) ∨ s.lc.state = 0 →
          (bits (a 3).toNat 5 0 < s.lc.minver → fails c 7) ∧
          (s.lc.minver ≤ bits (a 3).toNat 5 0 → ∃ u, exec c s = .next u ∧ u.loader = { x with phase := .body } ∧
            u.reg CFG_IMGID_at = a 2 ∧ u.fld CFG_SECVER_SECVER = bits (a 3).toNat 5 0 ∧
            u.fb CFG_STAT_SIGNED = decide (x.auth.length = 48)))) ∧
      (x.phase = .body → x.left = 0 → (a 4).toNat ≤ x.pos - x.body → ∀ h ws, bits h.toNat 31 28 = 0 → fails (.nopRecord h ws) 0x10) ∧
      (x.phase = .body → x.left = 0 → x.pos - x.body < (a 4).toNat → s.lc.state ≤ 1 →
        (∀ h ws, hd h 0 0 ws.length → runs (.nopRecord h ws) (past x (h :: ws))) ∧
        (x.region = none →
          (∀ (h p v : Word) (sub : Fin 2), hd h 1 sub 2 →
            let b := p.toNat
            (b % 4 ≠ 0 ∨ regwrTarget b = false → fails (.regwr h [p, v]) 0x0D) ∧
            (b % 4 = 0 → regwrTarget b = true → regionOf b = .regs ∨ regionOf b = .bay → b / 0x1000 ≠ 0x40011 →
              ∃ u, exec (.regwr h [p, v]) s = .next u ∧ u.reg b = (s.reg b &&& ~~~imageMask b) ||| (v &&& imageMask b) ∧
                (∀ y, y ≠ b → u.reg y = s.reg y) ∧ u.mem = s.mem ∧ u.loader.pos = x.pos + 12) ∧
            (b % 4 = 0 → b / 0x1000 = 0x40011 → ∃ u, exec (.regwr h [p, v]) s = .next u ∧ u.regs = s.regs ∧
              u.loader.clk = tput x.clk b v ∧ u.loader.pos = x.pos + 12) ∧
            (b % 4 = 0 → regwrTarget b = true → regionOf b ≠ .regs → regionOf b ≠ .bay → ∃ u, exec (.regwr h [p, v]) s = .next u ∧
              u.word b = (if takesNone b then s.word b else v) ∧ (∀ y, y < b ∨ b + 4 ≤ y → u.byte y = s.byte y) ∧
              (regionOf b ≠ .scratch 0 → (takesNone b = false → u.flips b = 0) ∧ ∀ y, y ≠ PAIR_TXQ_at → u.reg y = s.reg y))) ∧
          (∀ (h f : Word) (d : List Word) (c : Word), hd h 2 0 42 → d.length = 40 →
            (s.frameAddrOk f.toNat = false → fails (.frame h (f :: d ++ [c])) 0x0C) ∧
            (s.frameAddrOk f.toNat = true → (d.drop (frameUsed f.toNat)).all (· == 0) = true → s.vectorOk f.toNat d = true →
              (crc32 ((f :: d).flatMap wordBytes) ≠ c → fails (.frame h (f :: d ++ [c])) 0x0B) ∧
              (crc32 ((f :: d).flatMap wordBytes) = c → ∃ u, exec (.frame h (f :: d ++ [c])) s = .next u ∧
                u.loader.pos = x.pos + 172 ∧ u.loader.phase = .body ∧
                (bits f.toNat 31 28 = 3 → bits f.toNat 15 0 ≤ 50 →
                  u.words (0x20000000 + (16 * bits f.toNat 27 24 + bits f.toNat 23 16) * 0x4000 + 160 * bits f.toNat 15 0) 40 = d)))) ∧
          (∀ (h : Word) (r : Fin 32), hd h 4 r 0 →
            (s.fb (REG_DEF_EN r) = true → runs (.rbegin h) { past x [h] with region := some r.val, begun := x.begun + 1 }) ∧
            (s.fb (REG_DEF_EN r) = false → fails (.rbegin h) 2)) ∧
          (∀ h (sub : Fin 2), hd h 15 sub 0 →
            let hash := sha256 ((h :: x.read).reverse.flatMap wordBytes) = wordsAt x.auth 8 8
            let more := h.toNat.testBit 20
            (s.regionsOk = false → fails (.endRecord h ()) 0x0D) ∧
            (s.regionsOk = true → ¬ hash → fails (.endRecord h ()) 0x0F) ∧
            (s.regionsOk = true → hash → (a 4).toNat ≠ x.pos + 4 - x.body → fails (.endRecord h ()) 0x10) ∧
            (s.regionsOk = true → hash → (a 4).toNat = x.pos + 4 - x.body →
              let t := ({ s with loader := { has x [h] with
                phase := .release, more := more, pos := x.pos + 4, passOn := if more then some (x.source, x.pos + 4) else none
                passBuf := if more then x.buf else [], buf := if more then [] else x.buf } } : State).takeClocks
              exec (.endRecord h ()) s = .next (settle s (match t.releaseOffence with
                | none => t
                | some o => (t.setFld CFG_ACODE_CODE o.code).failAt 0x1C o.addr))))) ∧
        (∀ h v, hd h 3 0 1 →
          (x.crc ^^^ 0xFFFFFFFF = v → runs (.checkRecord h [v]) { has x [h, v] with pos := x.pos + 8, crc := 0xFFFFFFFF, checked := true }) ∧
          (x.crc ^^^ 0xFFFFFFFF ≠ v → fails (.checkRecord h [v]) 0x0E)) ∧
        (∀ (h : Word) (r : Fin 32), hd h 5 r 0 →
          (x.region = some r.val → runs (.rend h) { past x [h] with region := none }) ∧
          (x.region ≠ some r.val → fails (.rend h) 2)) ∧
        (∀ (h p : Word) (src : Nat), src = 1 ∨ src = 2 → hd h 6 src (1 + p.toNat / 4 + 4 * ((p.toNat + 4095) / 4096)) →
          p.toNat % 4 = 0 → 4 ≤ p.toNat →
          let key := if src = 1 then s.lc.aesKey else s.lc.keyRam
          (key = none → fails (.keysel h p) 9) ∧
          (key ≠ none → ∃ u, exec (.keysel h p) s = .next u ∧ u.loader.left = p.toNat ∧ u.loader.plain = [] ∧
            u.loader.blocks = (p.toNat + 4095) / 4096 ∧ u.loader.keySrc = src ∧ u.fld CFG_STAT_KEYSRC = src))) ∧
      (∀ b : CipherBlock,
        let n := if x.blocks = 1 then x.secLen - 4096 * ((x.secLen - 1) / 4096) else 4096
        x.phase = .body → x.blocks ≠ 0 → b.words.length = n / 4 + 4 →
        (s.sectionKey = none → fails (.keyselBlock b) (if b.begun then 0x0A else 9)) ∧
        (∀ key, s.sectionKey = some key →
          let open_ := gcmOpen (key.flatMap wordBytes) (wordsAt x.auth 5 2 ++ bytesOf 4 x.block) (wordsAt x.auth 2 2)
            (wordsAt b.words 0 (n / 4)) (wordsAt b.words (n / 4) 4)
          (open_ = none → fails (.keyselBlock b) 0x0A) ∧
          (∀ text, open_ = some text → runs (.keyselBlock b) { has x b.words with
            blocks := x.blocks - 1, block := x.block + 1, plain := x.plain ++ bytesWords text }))) ∧
      (x.phase = .release → s.locked 1 = false ∨ s.locked 2 = false ∨ s.locked 3 = false → fails .cfgClockTimeout 0x12)) ∧
    (∀ h ws src pos, x.phase ≠ .body → x.passOn = some (src, pos) → src = .flash ∨ src = .chain → bits h.toNat 31 28 = 8 →
      bits h.toNat 19 0 = ws.length →
      let sent := s.emit (.message "PASSON" ((ws.flatMap wordBytes).map BitVec.toNat))
      (bits h.toNat 27 20 = 0 → exec (.passon h ws) s = .next (settle s
        { sent with loader := { x with passOn := some (src, pos + 4 * (ws.length + 1)), passBuf := x.passBuf.drop (ws.length + 1) } })) ∧
      (bits h.toNat 27 20 = 1 → exec (.passon h ws) s = .next (settle s
        { sent with loader := { x with more := false, passOn := none, passBuf := [] } }))) ∧
    (∀ v, (∀ p, x.passOn = some p → p.1 ≠ .host) →
      (s.pwr.released = false → x.source = .host → x.phase ≠ .idle → x.phase ≠ .discard →
        runs (.cfgLoadwinWrite v) { x with buf := x.buf ++ [v] }) ∧
      (s.pwr.released = true → s.fb PR_STAT_BUSY = false → s.fb PR_STAT_DISCARD = false → ∃ u, exec (.cfgLoadwinWrite v) s = .next u ∧
        u.fb PR_STAT_BUSY = true ∧ u.loader.part = true ∧ u.loader.phase = .sync ∧ u.loader.buf = [v])) ∧
    (s.pwr.released = false → x.part = false → x.source = .host → x.phase ≠ .idle → x.deadline ≠ none → fails .loadDeadline 0x11) ∧
    (∀ v : Word, v.toNat / 2 ^ 16 = 0x4C44 → s.fld CFG_STAT_MODE = 3 → s.fb CFG_STAT_ERR = true → s.lc.st ≠ 4 →
      ∃ u, exec (.cfgRestart v) s = .next u ∧ u.loader.phase = .sync ∧ u.loader.source = .host ∧ u.loader.deadline = some s.tb.now ∧
        u.fb CFG_STAT_LOADING = true ∧ u.fb CFG_STAT_ERR = false)

/-- A permitted life-cycle command starts with its arguments, others are refused with their result, and its end has its effect. -/
def Obligations.LifeCycleCommandsRunOrAreRefused : Prop :=
  ∀ (s : State),
    let idle := (s.loader.phase = .idle ∨ s.loader.phase = .discard) ∧ s.fb PR_STAT_BUSY = false
    let commands (v : Word) : List (Nat × Instr) := [(1, .fuseImgkey v), (2, .fuseSvckey v), (3, .fuseAeskey v), (4, .keyram v), (5, .advanceLc v),
      (6, .service v), (7, .leaveService v), (8, .retire v), (9, .setminver v), (10, .fuseAltboot v)]
    let starts (op : Nat) : State := { s with lc := { s.lc with busy := some (op, s.args) } }.setFld CFG_LCCMD_BUSY 1
    (∀ v : Word, ∀ p ∈ commands v, s.lc.busy = none → idle → v.toNat / 2 ^ 16 = 0x4C43 →
      (s.lc.permits p.1 = false → ∃ u, exec p.2 s = .next u ∧ u.lc = s.lc ∧ u.fld CFG_LCCMD_RESULT = 2 ∧ u.fb CFG_LCCMD_BUSY = false ∧
        u.fb CFG_IRQ_STAT_LCDONE = true) ∧
      (s.lc.permits p.1 = true → p.1 ≠ 8 → (p.1 = 6 → s.fld CFG_LC_TRIES < 3) →
        (p.1 = 9 → s.lc.minver ≤ s.fld (CFG_ARG_ARG 0) ∧ s.fld (CFG_ARG_ARG 0) ≤ 63) → exec p.2 s = .next (settle s (starts p.1))) ∧
      (s.lc.permits p.1 = true → p.1 = 8 → exec p.2 s = .next (settle s ((starts 8).raiseTrip 0x2000).stopEngines))) ∧
    (∀ v : Word, ∀ p ∈ commands v, s.lc.busy = none → idle → v.toNat / 2 ^ 16 ≠ 0x4C43 → ∃ u, exec p.2 s = .next u ∧ u.lc = s.lc ∧
      u.fld CFG_LCCMD_RESULT = 3) ∧
    (∀ v : Word, ∀ p ∈ commands v, s.lc.busy ≠ none → exec p.2 s = .next (settle s
      (((s.lcRefuse p.1).clearArgs.setFld CFG_LCCMD_RESULT 1).setFld CFG_IRQ_STAT_LCDONE 1))) ∧
    (∀ v : Word, ∀ p ∈ commands v, s.lc.busy = none → ¬ idle → exec p.2 s = .next (settle s ((s.lcRefuse p.1).lcResult 1))) ∧
    (∀ op g, s.lc.busy = some (op, g) →
      let ends (ok : Bool) (code : Nat) (l : LifeCycle) : Prop := ∃ u, exec (.lccmdDone ok) s = .next u ∧ u.lc = l ∧
        u.fld CFG_LCCMD_RESULT = code ∧ u.fb CFG_LCCMD_BUSY = false ∧ u.fb CFG_IRQ_STAT_LCDONE = true ∧ ∀ i : Fin 64, u.reg (CFG_ARG_at i) = 0
      (op = 1 → ends true 0 { s.lc with imgKey := some (g.take 8), busy := none }) ∧
      (op = 2 → ends true 0 { s.lc with svcKey := some (g.take 8), busy := none }) ∧
      (op = 3 → ends true 0 { s.lc with aesKey := some (g.take 8), busy := none }) ∧
      (op = 4 → ∀ ok, ends ok 0 { s.lc with keyRam := some (g.take 8), busy := none }) ∧
      (op = 5 → ends true 0 { s.lc with st := s.lc.st + 1, busy := none } ∧ ∃ u, exec (.lccmdDone true) s = .next u ∧ u.wipe = some 2) ∧
      (op = 7 → ∀ ok, ends ok 0 { s.lc with service := none, busy := none }) ∧
      (op = 9 → ends true 0 { s.lc with minver := (g.getD 0 0).toNat, busy := none }) ∧
      (op = 10 → ends true 0 { s.lc with altboot := true, busy := none }) ∧
      (op = 6 → s.tokenOk g = true → ∀ ok, ends ok 0
        { s.lc with service := some (s.fld SAFE_RTCSEC_SEC + 60 * bits (g.getD 11 0).toNat 15 0), busy := none }) ∧
      (op = 6 → s.tokenOk g = false → ∀ ok, ends ok 4 { s.lc with busy := none }) ∧
      (op ≠ 4 → op ≠ 6 → op ≠ 7 → ends false 5 { s.lc with busy := none })) ∧
    (∀ t, s.lc.service = some t →
      (t ≤ s.fld SAFE_RTCSEC_SEC → ∃ u, exec .serviceExpiry s = .next u ∧ u.lc = { s.lc with service := none } ∧ u.wipe = some 2 ∧
        u.fld CFG_LC_STATE = ({ s.lc with service := none } : LifeCycle).state % 8) ∧
      (s.fld SAFE_RTCSEC_SEC < t → exec .serviceExpiry s = .next (settle s s)))

/-- CONFIG_RELEASE starts the device; a region is held and released at its boundaries; ABANDON and RELOAD act. -/
def Obligations.RegionsAreHeldLoadedAndReleased : Prop :=
  ∀ (s : State),
    let locked := s.locked 0 = true ∧ s.locked 1 = true ∧ s.locked 2 = true ∧ s.locked 3 = true
    let runs := s.pwr.released = true ∧ s.awake = true
    let key (v : Word) : Prop := v.toNat / 2 ^ 16 = 0x5052
    (∀ us, s.loader.phase = .release → s.loader.part = false → locked → ∃ u, exec (.configRelease us) s = .next u ∧
      u.pwr.released = true ∧ u.fb SYS_STATUS_CFG_DONE = true ∧ u.fb CFG_STAT_DONE = true ∧ u.fb CFG_STAT_LOADING = false ∧
      u.fb CFG_IRQ_STAT_DONE = true ∧ u.tb.tick = 0 ∧ u.tb.now = 0 ∧ u.loader.phase = .idle ∧ u.fld PAIR_PEPOCH_EPOCH = 0) ∧
    (∀ us, s.loader.phase ≠ .release → exec (.configRelease us) s = .next (settle s s)) ∧
    (s.pwr.released = true → s.fb CFG_STAT_HOLDING = true → s.loader.more = false → exec .ioEnable s = .next (settle s
      { (s.setFld CFG_STAT_HOLDING 0).setFld CFG_IRQ_STAT_IOEN 1 with pwr := { s.pwr with ioEnabled := true } })) ∧
    (s.fb CFG_STAT_HOLDING = false → exec .ioEnable s = .next (settle s s)) ∧
    (∀ (r : Fin 32) n code, runs → s.scrub.holds.find? (fun h => h.1 == r.val) = some (r.val, n, code) →
      (s.tb.tick.toNat < n.toNat → exec (.regionHold r) s = .next (settle s s)) ∧
      (n.toNat ≤ s.tb.tick.toNat → s.scrub.reloads = [] → code.getD 0 < 256 → ∃ u, exec (.regionHold r) s = .next u ∧ u.fb (REG_STAT_HELD r) = true ∧
        u.fld (REG_STAT_CODE r) = code.getD (s.fld (REG_STAT_CODE r)) ∧ u.fb SCRUB_IRQ_STAT_HELD = true ∧
        ∀ x, x / 0x1000000 = 0x20 ∨ x / 0x1000000 = 0x21 → s.covers r (x % 0x1000000 / 0x4000) = true → u.byte x = 0)) ∧
    (s.loader.part = true → s.loader.phase = .release → s.attarState ≠ 2 →
      let r := s.fld PR_STAT_REGION
      s.scrub.releases.any (fun x => x.1 == r) = false →
      (∀ n, n < 32 → s.coversSector r (n / 2) = true → (s.regionView r).fld (ADC_CFG_AUTOREST n) = 0) →
      (firstOffence (s.regionOffences r) = none → exec .partialCheckDone s = .next (settle s
        { s with scrub := { s.scrub with releases := s.scrub.releases ++ [(r, s.effTick)] } })) ∧
      (∀ o, firstOffence (s.regionOffences r) = some o → exec .partialCheckDone s = .next (settle s
        ((s.setFld (REG_STAT_ACODE r) o.code).partialError 0x19 o.addr)))) ∧
    (∀ (r : Fin 32) n, runs → s.scrub.releases.find? (fun x => x.1 == r.val) = some (r.val, n) →
      (s.tb.tick.toNat < n.toNat → exec (.regionRelease r) s = .next (settle s s)) ∧
      (n.toNat ≤ s.tb.tick.toNat → s.scrub.reloads = [] → ∃ u, exec (.regionRelease r) s = .next u ∧ u.fb (REG_STAT_HELD r) = false ∧
        u.fb (REG_STAT_LOADING r) = false ∧ u.fb PR_STAT_BUSY = false ∧ u.fb SCRUB_IRQ_STAT_PRDONE = true ∧ u.loader.phase = .idle)) ∧
    (∀ v, s.pwr.released = true → key v → s.fb PR_STAT_BUSY = true → s.scrub.reloads = [] → ∃ u, exec (.abandon v) s = .next u ∧
      u.fb PR_STAT_BUSY = false ∧ u.fld PR_STAT_CODE = 0x1A ∧ u.loader.phase = .idle ∧ u.fb SCRUB_IRQ_STAT_PRERR = true) ∧
    (∀ v : Word, s.pwr.released = true → key v →
      let r := bits v.toNat 12 8
      (s.fb (REG_DEF_EN r) = false → exec (.reload v) s = .next (settle s s)) ∧
      (s.fb (REG_DEF_EN r) = true → s.fb (REG_STAT_HELD r) = false → s.scrub.holds.any (fun h => h.1 == r) = false →
        exec (.reload v) s = .next (settle s { s with scrub := { s.scrub with
          reloads := r :: s.scrub.reloads.erase r, holds := s.scrub.holds ++ [(r, s.effTick, none)] } }))) ∧
    (∀ v, ¬ key v → exec (.reload v) s = .next (settle s s) ∧ exec (.abandon v) s = .next (settle s s))

/-- CAN, SPI, I2C and UART queues take and give their entries in order, and boundary scan selects its instruction. -/
def Obligations.FieldInterfacesMoveTheirEntries : Prop :=
  ∀ (s : State),
    (∀ m : Fin 4,
      let c := s.canOf m
      let f : CanFrame := ⟨s.reg (CAN_TXID_at m), s.reg (CAN_TXCTRL_at m), 0, (List.range 16).map (fun w => s.reg (CAN_TXDATA_at m w))⟩
      let on := s.pwr.released = true ∧ s.awake = true ∧ s.fb (CAN_CFG_EN m) = true ∧ s.fb (CAN_CFG_LOOP m) = false ∧
        s.fed (0x360 + m) = true
      (8 ≤ c.tx.length → exec (.canPush m) s = .next (settle s (s.setFld (CAN_IRQ_STAT_TXOVF m) 1))) ∧
      (c.tx.length < 8 → ∃ u, exec (.canPush m) s = .next u ∧ (u.canOf m).tx.map (·.1) = c.tx.map (·.1) ++ [f] ∧ (u.canOf m).rx = c.rx) ∧
      exec (.canAbort m) s = .next (settle s (s.setCan m { c with tx := c.tx.filter (·.2) })) ∧
      exec (.canPop m) s = .next (settle s (s.setCan m { c with rx := c.rx.drop 1 })) ∧
      (s.fld (CAN_STAT_STATE m) = 2 → exec (.canRecover m) s = .next (settle s (s.setCan m { c with recovering := true }))) ∧
      (s.fld (CAN_STAT_STATE m) ≠ 2 → exec (.canRecover m) s = .next (settle s s)) ∧
      (∀ id ctrl age data k, on → s.canFilter m id = some k →
        (c.rx.length < 32 → ∃ u g, exec (.canRxFrame m id ctrl age ⟨data, 0⟩) s = .next u ∧ (u.canOf m).rx = c.rx ++ [g] ∧ g.id = id ∧
          g.data = data.take 16 ∧ g.ctrl = (ctrl &&& 0x3F) ||| BitVec.ofNat 32 (2 ^ 31 + k * 256) ∧ u.fb (CAN_IRQ_STAT_RX m) = true) ∧
        (32 ≤ c.rx.length → ∃ u, exec (.canRxFrame m id ctrl age ⟨data, 0⟩) s = .next u ∧ (u.canOf m).rx = c.rx ∧
          u.fb (CAN_IRQ_STAT_RXOVF m) = true)) ∧
      (∀ id ctrl age data, on → s.canFilter m id = none → ∃ u, exec (.canRxFrame m id ctrl age ⟨data, 0⟩) s = .next u ∧ u.can = s.can) ∧
      (∀ id ctrl age data err, on → err ≠ 0 → ∃ u, exec (.canRxFrame m id ctrl age ⟨data, err⟩) s = .next u ∧ u.can = s.can ∧
        u.fld (CAN_STAT_REC m) = min 255 (s.fld (CAN_STAT_REC m) + err) ∧ u.fb (CAN_IRQ_STAT_ERR m) = true) ∧
      (∀ id ctrl age data err, ¬ on → exec (.canRxFrame m id ctrl age ⟨data, err⟩) s = .next (settle s s)) ∧
      (∀ j, s.canSends m = true → c.current = some j → s.fb (CAN_CFG_LOOP m) = false → s.fed (0x360 + m) = false → ∀ b : Fin 3, ∃ u,
        exec (.canTxDone m b) s = .next u ∧ u.fb (CAN_IRQ_STAT_ERR m) = true) ∧
      (∀ j, s.canSends m = true → c.current = some j → s.fb (CAN_CFG_LOOP m) = true ∨ s.fed (0x360 + m) = true →
        (∃ u, exec (.canTxDone m 0) s = .next u ∧ (u.canOf m).tx.map (·.1) = (c.tx.eraseIdx j).map (·.1) ∧ u.fb (CAN_IRQ_STAT_TXDONE m) = true) ∧
        (∃ u, exec (.canTxDone m 1) s = .next u ∧ (u.canOf m).tx.map (·.1) =
          (if s.fb (CAN_CFG_ONESHOT m) then c.tx.eraseIdx j else c.tx).map (·.1)) ∧
        (∃ u, exec (.canTxDone m 2) s = .next u ∧ u.fb (CAN_IRQ_STAT_ERR m) = true ∧
          (247 < s.fld (CAN_STAT_TEC m) → u.fld (CAN_STAT_STATE m) = 2 ∧ u.fb (CAN_IRQ_STAT_BUSOFF m) = true) ∧
          (s.fld (CAN_STAT_TEC m) ≤ 247 → u.fld (CAN_STAT_TEC m) = s.fld (CAN_STAT_TEC m) + 8))) ∧
      (s.pwr.released = true → s.awake = true → s.fb (CAN_CFG_EN m) = true → s.fld (CAN_STAT_STATE m) = 2 →
        s.fb (CAN_CFG_AUTOREC m) = true ∨ c.recovering = true → ∃ u, exec (.busoffRecovery m) s = .next u ∧
        u.fld (CAN_STAT_STATE m) = 0 ∧ u.fld (CAN_STAT_TEC m) = 0 ∧ u.fld (CAN_STAT_REC m) = 0) ∧
      (s.fb (CAN_CFG_EN m) = false ∨ s.awake = false ∨ s.fld (CAN_STAT_STATE m) ≠ 2 ∨ (s.fb (CAN_CFG_AUTOREC m) = false ∧ c.recovering = false) →
        exec (.busoffRecovery m) s = .next (settle s s))) ∧
    (∀ (m : Fin 16) (v : Word) (req : Fin 405),
      let x := s.spiOf m
      (8 ≤ x.tx.length → exec (.spiTx m v) s = .next (settle s (s.setFld (SPI_STAT_TXOVF m) 1))) ∧
      (x.tx.length < 8 → exec (.spiTx m v) s = .next (settle s (s.setSpi m
        { x with tx := x.tx ++ [v], busy := x.busy || (s.fb (SPI_CFG_EN m) && !s.fb (SPI_CFG_SLAVE m)) }))) ∧
      exec (.spiRx req m) s = .next (settle s ((s.setSpi m { x with rx := x.rx.drop 1 }).emit (.readData req (SPI_RX_at m) (x.rx.headD 0)))) ∧
      (s.spiMay m = true → x.rx.length < 8 → ∃ u, exec (.spiWordDone m v) s = .next u ∧ (u.spiOf m).tx = x.tx.drop 1 ∧
        (u.spiOf m).rx = x.rx ++ [if s.fed (0x310 + 3 * m) then BitVec.ofNat 32 (v.toNat % 2 ^ (s.fld (SPI_CFG_LEN m) + 1)) else 0] ∧
        (x.tx.length = 1 → u.fb (SPI_STAT_DONE m) = true) ∧ (x.tx = [] → u.fb (SPI_STAT_UNDERRUN m) = true)) ∧
      (s.spiMay m = false → exec (.spiWordDone m v) s = .next (settle s s)) ∧
      (s.spiMay m = true → 8 ≤ x.rx.length → ∃ u, exec (.spiWordDone m v) s = .next u ∧ (u.spiOf m).rx = x.rx ∧
        u.fb (SPI_STAT_RXOVF m) = true)) ∧
    (∀ (m : Fin 8) (v : Word) (d : BitVec 8) (req : Fin 405),
      let x := s.i2cOf m
      (16 ≤ x.tx.length → exec (.i2cCmd m v) s = .next (settle s s)) ∧
      (x.tx.length < 16 → exec (.i2cCmd m v) s = .next (settle s (s.setI2c m
        { x with tx := x.tx ++ [v &&& 0x7FF], busy := x.busy || s.fb (I2C_CFG_EN m) }))) ∧
      exec (.i2cRx req m) s = .next (settle s ((s.setI2c m { x with rx := x.rx.drop 1 }).emit (.readData req (I2C_RX_at m) (x.rx.headD 0)))) ∧
      (s.poolRuns = false ∨ s.fb (I2C_CFG_EN m) = false ∨ x.tx = [] → ∀ n, exec (.i2cEntryDone m d n) s = .next (settle s s)) ∧
      (∀ e r, s.poolRuns = true → s.fb (I2C_CFG_EN m) = true → x.tx = e :: r →
        let sda := s.fed (0x341 + 2 * m)
        (sda = true ∨ bits e.toNat 9 8 ≠ 0 → ∃ u, exec (.i2cEntryDone m d 0) s = .next u ∧ (u.i2cOf m).tx = r ∧ (u.i2cOf m).rx =
          (if (bits e.toNat 9 8 = 1 ∨ bits e.toNat 9 8 = 2) ∧ x.rx.length < 16 then x.rx ++ [if sda then d.setWidth 32 else 0xFF] else x.rx)) ∧
        (sda = false → bits e.toNat 9 8 = 0 → ∀ b : Fin 3, ∃ u, exec (.i2cEntryDone m d b) s = .next u ∧ (u.i2cOf m).tx = [] ∧
          u.fb (I2C_STAT_NACK m) = true) ∧
        (bits e.toNat 9 8 = 0 → ∃ u, exec (.i2cEntryDone m d 1) s = .next u ∧ (u.i2cOf m).tx = [] ∧ u.fb (I2C_STAT_NACK m) = true) ∧
        (sda = true → ∃ u, exec (.i2cEntryDone m d 2) s = .next u ∧ (u.i2cOf m).tx = [] ∧ u.fb (I2C_STAT_ARBLOST m) = true)) ∧
      (s.fed (0x340 + 2 * m) = false → exec (.i2cTimeout m) s = .next (settle s s)) ∧
      (∀ e r, s.poolRuns = true → x.busy = true → s.fed (0x340 + 2 * m) = true → x.tx = e :: r → exec (.i2cTimeout m) s = .next (settle s
        ((s.setI2c m { x with tx := r, busy := !r.isEmpty }).setFld (I2C_STAT_TIMEOUT m) 1)))) ∧
    (∀ (m : Fin 8) (v : Word) (d : BitVec 9) (b p f : Bool) (req : Fin 405),
      let x := s.uartOf m
      let w := BitVec.ofNat 32 (2 ^ 15 + b2n b * 2 ^ 14 + b2n p * 2 ^ 13 + b2n f * 2 ^ 12 + d.toNat % 2 ^ s.uartBits m)
      let en := s.poolRuns = true ∧ s.fb (UART_CFG_EN m) = true
      (16 ≤ x.tx.length → exec (.uartTx m v) s = .next (settle s (s.setFld (UART_STAT_TXOVF m) 1))) ∧
      (x.tx.length < 16 → exec (.uartTx m v) s = .next (settle s (s.setUart m { x with tx := x.tx ++ [v &&& 0x1FF], busy := x.busy || s.uartMay m }))) ∧
      exec (.uartRx req m) s = .next (settle s ((s.setUart m { x with rx := x.rx.drop 1 }).emit (.readData req (UART_RX_at m) (x.rx.headD 0)))) ∧
      (∀ e r, en → x.tx = e :: r → exec (.uartFrameSent m) s = .next (settle s
        ((s.emit (.message "UART" [m, e.toNat % 2 ^ s.uartBits m])).setUart m { x with tx := r, busy := !r.isEmpty && s.uartMay m }))) ∧
      (en → s.fed (0x350 + 2 * m) = true → x.rx.length < 16 → ∃ u, exec (.uartFrameReceived m d b p f) s = .next u ∧ (u.uartOf m).rx = x.rx ++ [w] ∧ (u.uartOf m).tx = x.tx ∧
        ((b || p || f) = true → u.fb (UART_STAT_ERR m) = true)) ∧
      (¬ en ∨ s.fed (0x350 + 2 * m) = false → exec (.uartFrameReceived m d b p f) s = .next (settle s s)) ∧
      (¬ en ∨ x.tx = [] → exec (.uartFrameSent m) s = .next (settle s s)) ∧
      (en → s.fed (0x350 + 2 * m) = true → 16 ≤ x.rx.length → exec (.uartFrameReceived m d b p f) s = .next (settle s (s.setFld (UART_STAT_RXOVF m) 1))) ∧
      (s.fed (0x351 + 2 * m) = false → exec (.uartCtsAssert m) s = .next (settle s s)) ∧
      (en → s.fed (0x351 + 2 * m) = true → s.fb (UART_CFG_FLOW m) = true → s.fb (UART_CFG_RS485 m) = false → x.tx ≠ [] → exec (.uartCtsAssert m) s = .next (settle s
        (s.setUart m { x with busy := true })))) ∧
    (let pads := if s.tap.pads % 4 = 0 then s.tap.pads else if s.pwr.released then 4 + s.tap.pads % 4 else 0
      let acts := ¬ (s.lc.state = 2 ∧ s.pwr.released = true)
      let plain (i : Nat) : State := { s with tap := { s.tap with ir := i, pads := pads } }
      let levels (t : State) : State := t.emit (.message "DR" ((List.range 352).map (fun p => b2n (t.padLevel p))))
      exec .testLogicReset s = .next (settle s (plain 1)) ∧ exec .bypass s = .next (settle s ((plain 0xFF).emit (.message "DR" [0]))) ∧
      exec .idcode s = .next (settle s ((plain 1).emit (.message "DR" [s.fld SYS_REVISION_MAJOR * 2 ^ 28 + 0x8256B67]))) ∧
      (∀ l, pads ≠ 0 → exec (.samplePreload l) s = .next (settle s (levels (plain 2)))) ∧
      (∀ l, pads = 0 → exec (.samplePreload l) s = .next (settle s { levels (plain 2) with
        tap := { s.tap with ir := 2, pads := 0, cells := cellTable l } })) ∧
      (acts → (∀ l, exec (.extest l) s = .next (settle s (levels { s with tap := { s.tap with ir := 3, pads := 1, cells := cellTable l } }))) ∧
        exec .jtagClamp s = .next (settle s { s with tap := { s.tap with ir := 4, pads := 2 } }) ∧
        exec .highz s = .next (settle s { s with tap := { s.tap with ir := 5, pads := 3 } })) ∧
      (¬ acts → (∀ l, exec (.extest l) s = .next (settle s ((plain 0xFF).emit (.message "DR" [0])))) ∧ exec .jtagClamp s = .next (settle s (plain 0xFF)) ∧
        exec .highz s = .next (settle s (plain 0xFF))) ∧
      exec .cfgload s = .next (settle s (plain (if s.lc.state = 4 then 0xFF else 0x20)).tapShow) ∧
      (∀ v, s.tap.ir = 0x20 → s.loader.passOn = none → s.pwr.released = false → s.loader.source = .jtag → s.loader.phase ≠ .idle → s.loader.phase ≠ .discard →
        4096 ≤ s.loader.buf.length → exec (.cfgloadUpdate v) s = .next (settle s (s.setFld CFG_STAT_LATEWR 1))) ∧
      (∀ v, s.tap.ir = 0x20 → s.loader.passOn = none → s.pwr.released = false → s.loader.source = .jtag → s.loader.phase ≠ .idle → s.loader.phase ≠ .discard →
        s.loader.buf.length < 4096 →
        exec (.cfgloadUpdate v) s = .next (settle s { s with loader := { s.loader with buf := s.loader.buf ++ [v] } })) ∧
      (∀ v, s.tap.ir ≠ 0x20 → exec (.cfgloadUpdate v) s = .next (settle s s)))

/-- The endpoint trains, decodes memory requests, holds and sends its messages, and resets its header. -/
def Obligations.ThePcieEndpointAnswersItsHost : Prop :=
  ∀ (s : State),
    let up := s.fb PCIE_STAT_LINKUP = true ∧ s.pcie.perst = false
    let decode := up ∧ s.pcie.mse = true ∧ s.fb PCIE_STAT_D3 = false
    let ur : State := (s.addSat PCIE_CNT_UR 1).emit (.message "UR" [])
    (∀ (off : BitVec 26) (v : Word), decode → s.busRuns = true →
      let a := (if off.toNat / 0x400000 = 15 then 0x40000000 else s.fld (PCIE_WIN_BASE (off.toNat / 0x400000)) * 0x400000) + off.toNat % 0x400000
      (∀ colls, exec (.pcieMemoryWrite off ⟨[(0xF, v)], colls⟩ false) s = .next (settle s (s.busWrite 403 a 4 v (colls.testBit 0)).1)) ∧
      exec (.pcieMemoryRead off 1) s = .next (settle s ((s.busRead 403 a 4).1.emit (.message "CPLD" [(s.busRead 403 a 4).2.1])))) ∧
    (∀ off dws colls n, decode → s.busRuns = true →
      exec (.pcieMemoryWrite off ⟨dws, colls⟩ false) s = .next (settle s (s.putDwords off.toNat colls dws)) ∧
      exec (.pcieMemoryRead off n) s = .next (settle s ((s.getDwords off.toNat n).1.emit (.message "CPLD" (s.getDwords off.toNat n).2)))) ∧
    (∀ off dws colls, decode → exec (.pcieMemoryWrite off ⟨dws, colls⟩ true) s = .next (settle s
      ((s.addSat PCIE_CNT_POISONED 1).setFld PCIE_IRQ_STAT_POISON 1))) ∧
    (∀ off dws n p colls, up → ¬ decode → exec (.pcieMemoryWrite off ⟨dws, colls⟩ p) s = .next (settle s ur) ∧
      exec (.pcieMemoryRead off n) s = .next (settle s ur)) ∧
    (up → exec .unsupportedRequest s = .next (settle s ur)) ∧ (¬ up → exec .unsupportedRequest s = .next (settle s s)) ∧
    (s.msiOpen = true → exec .msiRelease s = .next (settle s
      { s with outbox := s.outbox ++ s.msiHeld.map (fun v => Output.msi (v % s.pcie.grant)), msiHeld := [] })) ∧
    (s.msiOpen = false → exec .msiRelease s = .next (settle s s)) ∧
    (s.pcie.perst = false → s.pwr.released = true ∨ s.loader.source ≠ .host ∨ s.loader.phase = .idle → ∃ u, exec .perst s = .next u ∧ u.pcie.perst = true ∧ u.pcie.mse = false ∧
      u.pcie.bme = false ∧ u.fb PCIE_STAT_LINKUP = false ∧ u.fb PCIE_IRQ_STAT_PERST = true ∧ u.locked 4 = false ∧
      (∀ w : Fin 15, u.fld (PCIE_WIN_BASE w) = (PCIE_WIN_BASE w).get (rstWord (PCIE_WIN_at w)))) ∧
    (s.pcie.perst = true → exec .perst s = .next (settle s s)) ∧
    exec .perstNRelease s = .next (settle s { s with pcie := { s.pcie with perst := false } }) ∧
    (∀ g, s.pcie.perst = false → s.locked 4 = true → ∃ u, exec (.pcieLinkTrained g) s = .next u ∧ u.fb PCIE_STAT_LINKUP = true ∧
      u.fb PCIE_STAT_GEN2 = g) ∧
    (up → ∃ u, exec .linkDown s = .next u ∧ u.fb PCIE_STAT_LINKUP = false ∧ u.pcie.mse = false ∧ u.fb PCIE_IRQ_STAT_LINKDOWN = true ∧
      ∀ w : Fin 15, u.reg (PCIE_WIN_at w) = s.reg (PCIE_WIN_at w)) ∧
    (∀ h bme en d3 (g : Fin 4) (r : Fin 64), up → h.read = some r → exec (.pcieConfigRequest h bme en d3 g) s =
      .next (settle s (s.fresh.emit (.message "CPL" [r.val, (s.header r.val).toNat])))) ∧
    (s.header 0).toNat = 0x8256 * 2 ^ 16 + 0x1F4C ∧ bits (s.header 2).toNat 31 8 = 0x118000 ∧
    bits (s.header 2).toNat 7 0 = s.fld SYS_REVISION_MAJOR ∧ s.header 4 = s.pcie.bar ∧
    (∀ mse bar bme en d3 (g : Fin 4), up → ∃ u, exec (.pcieConfigRequest ⟨mse, bar, none⟩ bme en d3 g) s = .next u ∧
      u.pcie = ⟨mse, bme, en, 2 ^ g.val, false, bar &&& 0xFC000000⟩ ∧ u.fb PCIE_STAT_D3 = d3 ∧ u.fb PCIE_STAT_BME = bme ∧ u.fb PCIE_STAT_MSIEN = en ∧
      u.fld PCIE_STAT_MSIGRANT = g ∧
      (mse = true → s.loader.source = .host → s.loader.phase ≠ .idle → s.pwr.released = false → s.loader.deadline = none →
        u.loader.deadline = some s.tb.now)) ∧
    (∀ h bme en d3 g, ¬ up → exec (.pcieConfigRequest h bme en d3 g) s = .next (settle s s))

/-- The port's commands are permitted and denied by the life-cycle state and the secure mark as R411 says. -/
def Obligations.MaintenancePortKeepsTheLifeCycle : Prop :=
  ∀ (s : State) (a v : Word), s.lc.state ≤ 4 →
    let st := s.lc.state
    let sec := s.secure (bits a.toNat 19 12) = true
    let denied (c : Instr) : Prop := exec c s = .next (settle s (s.emit (.message "MP" (mpAnswer 1 0))))
    let permitted (c : Instr) : Prop := ∃ (t : State) (code : Nat) (d : Word), exec c s = .next (settle s (t.emit (.message "MP" (mpAnswer code d)))) ∧ code ≠ 1
    let record := a.toNat = SAFE_FRSTAT_at ∨ (a.toNat % 4 = 0 ∧ ∃ (e : Fin 16) (w : Fin 8), a.toNat = SAFE_FREC_at e w)
    let read : Instr := .mpRead a (mpSum 1 [a])
    let write (c : Bool) : Instr := .mpWrite a ⟨v, c⟩ (mpSum 2 [a, v])
    let engineCommands : List Instr := [.debugHalt a (mpSum 0x10 [a]), .debugResume a (mpSum 0x11 [a]), .debugStep a (mpSum 0x12 [a]),
      .brkset a v (mpSum 0x13 [a, v]), .brkclr a (mpSum 0x14 [a]), .rdreg a (mpSum 0x15 [a]), .wrreg a v (mpSum 0x16 [a, v])]
    (st ≤ 1 ∨ st = 3 → permitted read ∧ ∀ c, permitted (write c)) ∧
    (st ≤ 1 ∨ (st = 3 ∧ ¬ sec) → ∀ c ∈ engineCommands, permitted c) ∧
    (st = 3 → sec → ∀ c ∈ engineCommands, denied c) ∧
    (st = 2 → (record → permitted read) ∧ (¬ record → denied read) ∧ (∀ c, denied (write c)) ∧
      ∀ c ∈ engineCommands, denied c) ∧
    (st = 4 → denied read ∧ (∀ c, denied (write c)) ∧ ∀ c ∈ engineCommands, denied c)

/-- The port reads and writes as requester 404, stops and resumes channels, and reads and writes a stopped channel's registers. -/
def Obligations.MaintenancePortActs : Prop :=
  ∀ (s : State) (a v : Word),
    let replies (t : State) (code : Nat) (d : Word) : Host.Outcome State Fault Refusal := .next (settle s (t.emit (.message "MP" (mpAnswer code d))))
    let t := bits a.toNat 19 12
    let k := bits a.toNat 11 8
    let c := s.slotOf t k
    exec .mpTimeout s = replies s 5 0 ∧
    (∀ crc, (crc ≠ mpSum 1 [a] → exec (.mpRead a crc) s = replies s 3 0) ∧ (crc ≠ mpSum 2 [a, v] → ∀ c, exec (.mpWrite a ⟨v, c⟩ crc) s = replies s 3 0) ∧
      (crc ≠ mpSum 0x10 [a] → exec (.debugHalt a crc) s = replies s 3 0) ∧ (crc ≠ mpSum 0x16 [a, v] → exec (.wrreg a v crc) s = replies s 3 0)) ∧
    (s.lc.state = 0 → s.mpRuns = false → faultPath a.toNat = false → exec (.mpRead a (mpSum 1 [a])) s = replies s 5 0 ∧
      ∀ c, exec (.mpWrite a ⟨v, c⟩ (mpSum 2 [a, v])) s = replies s 5 0) ∧
    (faultPath a.toNat = true → s.lc.state ≠ 4 → exec (.mpRead a (mpSum 1 [a])) s = replies s 0 (s.regView 404 a.toNat)) ∧
    (s.lc.state = 0 → s.mpRuns = true →
      (faultPath a.toNat = false →
        ((s.busRead 404 a.toNat 4).2.2 ≠ .refused → exec (.mpRead a (mpSum 1 [a])) s =
          replies (s.busRead 404 a.toNat 4).1 0 (BitVec.ofNat 32 (s.busRead 404 a.toNat 4).2.1)) ∧
        ((s.busRead 404 a.toNat 4).2.2 = .refused → exec (.mpRead a (mpSum 1 [a])) s = replies (s.busRead 404 a.toNat 4).1 2 0)) ∧
      (∀ c, (s.busWrite 404 a.toNat 4 v c).2 ≠ .refused → exec (.mpWrite a ⟨v, c⟩ (mpSum 2 [a, v])) s = replies (s.busWrite 404 a.toNat 4 v c).1 0 0) ∧
      (∀ c, (s.busWrite 404 a.toNat 4 v c).2 = .refused → exec (.mpWrite a ⟨v, c⟩ (mpSum 2 [a, v])) s = replies (s.busWrite 404 a.toNat 4 v c).1 2 0) ∧
      (a &&& ~~~(0xFFF00 : Word) ≠ 0 → exec (.debugHalt a (mpSum 0x10 [a])) s = replies s 7 0) ∧
      (s.fld PAIR_STAT_ROLE = 0 →
        (a &&& ~~~(0xFFF00 : Word) = 0 →
          (c.st.live = true → c.stop = none → exec (.debugHalt a (mpSum 0x10 [a])) s = replies (s.setChan (16 * t + k) { c with halt := some 0 }) 0 0) ∧
          (c.st.live = false ∨ c.stop ≠ none → exec (.debugHalt a (mpSum 0x10 [a])) s = replies s 4 0) ∧
          (c.st ≠ .free → c.stop ≠ none → exec (.debugResume a (mpSum 0x11 [a])) s = replies (s.setChan (16 * t + k) { c with resume := some false }) 0 0 ∧
            exec (.debugStep a (mpSum 0x12 [a])) s = replies (s.setChan (16 * t + k) { c with resume := some true }) 0 0) ∧
          (c.st = .free ∨ c.stop = none → exec (.debugResume a (mpSum 0x11 [a])) s = replies s 4 0 ∧ exec (.debugStep a (mpSum 0x12 [a])) s = replies s 4 0) ∧
          (c.st ≠ .free → exec (.brkset a v (mpSum 0x13 [a, v])) s = replies (s.setEng t { s.engOf t with
            brk := true, bp := if v.toNat.testBit 31 then some (k, bits v.toNat 11 0) else (s.engOf t).bp }) 0 0)) ∧
        (a &&& ~~~(0xFF000 : Word) = 0 → exec (.brkclr a (mpSum 0x14 [a])) s = replies (s.setEng t { s.engOf t with brk := false, bp := none }) 0 0) ∧
        (a &&& ~~~(0xFFFFF : Word) = 0 →
          let r := bits a.toNat 7 0
          let stopped := c.st ≠ .free ∧ c.stop ≠ none
          (stopped → r < 0x10 → exec (.rdreg a (mpSum 0x15 [a])) s = replies s 0 (c.bank.val r) ∧
            exec (.wrreg a v (mpSum 0x16 [a, v])) s = replies (s.setChan (16 * t + k) { c with bank := c.bank.setVal r v }) 0 0) ∧
          (∀ w, s.debugReg t k r = some w → (stopped → exec (.rdreg a (mpSum 0x15 [a])) s = replies (if r = 0x23 then s.fresh else s) 0 w) ∧
            (¬ stopped → exec (.rdreg a (mpSum 0x15 [a])) s = replies s 4 0)) ∧
          (s.debugReg t k r = none → exec (.rdreg a (mpSum 0x15 [a])) s = replies s 7 0) ∧
          (∀ b, c.bank.debugWrite r v = some b → (stopped → exec (.wrreg a v (mpSum 0x16 [a, v])) s =
            replies (s.setChan (16 * t + k) { c with bank := b }) 0 0) ∧ (¬ stopped → exec (.wrreg a v (mpSum 0x16 [a, v])) s = replies s 4 0)) ∧
          (c.bank.debugWrite r v = none → exec (.wrreg a v (mpSum 0x16 [a, v])) s = replies s 7 0))))

/-- Supplies, resets, PLLs and device standby act as their events say. -/
def Obligations.SuppliesResetsAndStandbyAct : Prop :=
  ∀ (s : State),
    let loads (c : Instr) : Prop := ∃ u, exec c s = .next u ∧ u.loader.phase = .sync ∧ u.loader.source = modeSource s.part.modePins ∧
      u.pwr.held = false ∧ u.fld CFG_STAT_MODE = s.part.modePins ∧ u.fb CFG_STAT_LOADING = true
    (s.pwr.railsUp = false → ∃ u, exec .powerOn s = .next u ∧ u.pwr.railsUp = true ∧ u.pwr.held = true ∧ u.fld SAFE_RSTCAUSE_CAUSE = 1) ∧
    (s.pwr.railsUp = true → exec .powerOn s = .next (settle s s)) ∧
    (∀ r : Fin 5, ∃ u, exec (.railFall r) s = .next u ∧ u.pwr.railsUp = false ∧ u.pwr.held = true ∧ u.pwr.released = false ∧
      ∀ i : Fin 5, u.locked i = false) ∧
    (s.pwr.railsUp = true → s.pwr.held = false → ∃ u, exec .resetNAssert s = .next u ∧ u.pwr.held = true ∧ u.pwr.released = false ∧
      u.fld SAFE_RSTCAUSE_CAUSE = 2) ∧
    (s.pwr.held = true → s.pwr.railsUp = true → s.lc.st ≠ 4 → s.part.modePins ≤ 4 →
      loads .resetNRelease ∧ (s.safe.wdReset = true → loads .internalResetRelease)) ∧
    (s.pwr.held = false → exec .resetNRelease s = .next (settle s s) ∧ exec .internalResetRelease s = .next (settle s s)) ∧
    (∀ i : Fin 5, s.pllStarted i = true → s.locked i = false → ∃ u, exec (.pllLock i) s = .next u ∧ u.locked i = true) ∧
    (∀ i : Fin 5, s.pllStarted i = false ∨ s.locked i = true → exec (.pllLock i) s = .next (settle s s)) ∧
    (∀ i : Fin 5, s.locked i = true → ∃ u, exec (.pllUnlock i) s = .next u ∧ u.locked i = false ∧ u.fb CLK_IRQ_STAT_UNLOCK = true ∧
      (i = 0 → u.tb.nowValid = false)) ∧
    (∀ i : Fin 5, s.locked i = false → exec (.pllUnlock i) s = .next (settle s s)) ∧
    (∀ v : Word, v.toNat / 2 ^ 16 ≠ 0x5342 ∨ v.getLsbD 0 = false ∨ s.pwr.released = false ∨ s.pwr.phase ≠ .run →
      exec (.standbyRequest v) s = .next (settle s (s.setFld CLK_STBY_PCIEKEEP (bits v.toNat 1 1)))) ∧
    (∀ v : Word, v.toNat / 2 ^ 16 = 0x5342 → v.getLsbD 0 = true → s.pwr.released = true → s.pwr.phase = .run →
      let t := s.setFld CLK_STBY_PCIEKEEP (bits v.toNat 1 1)
      (s.attarState ≠ 0 ∨ s.fb PR_STAT_BUSY = true ∨ s.snap ≠ none ∨ s.fld CLK_WAKECFG_EN = 0 →
        exec (.standbyRequest v) s = .next (settle s (t.setFld CLK_IRQ_STAT_STBYREF 1))) ∧
      (s.attarState = 0 → s.fb PR_STAT_BUSY = false → s.snap = none → s.fld CLK_WAKECFG_EN ≠ 0 →
        exec (.standbyRequest v) s = .next (settle s { t with pwr := { s.pwr with phase := .armed, standbyAt := s.effTick } }))) ∧
    (s.pwr.phase = .armed → s.pwr.standbyAt.toNat ≤ s.tb.tick.toNat → ∃ u, exec .standbyEntry s = .next u ∧ u.pwr.phase = .standby ∧
      u.locked 1 = false ∧ u.locked 2 = false ∧ u.locked 3 = false) ∧
    (s.pwr.phase ≠ .armed ∨ s.tb.tick.toNat < s.pwr.standbyAt.toNat → exec .standbyEntry s = .next (settle s s)) ∧
    (∀ (c : BitVec 64),
      let met (n : Nat) : Prop := c.getLsbD n = true ∧ s.fbit (CMP_WAKE_WAKEEN (n / 4)) (n % 4) = true ∧ s.cmpOn (n / 4) (n % 4) = true ∧
        (s.cmpOf n).r ≠ s.fb (CMP_CFG_POL (n / 4) (n % 4))
      let wakes (i : Nat) : Prop := ∃ u, exec (.wake (BitVec.ofNat 4 (2 ^ i)) c) s = .next u ∧ u.pwr.phase = .waking ∧
        u.pwr.since = s.tb.now ∧ u.fld CLK_WAKESTAT_SRC = 2 ^ i ∧
        ∀ n, n < 64 → (u.fbit (CMP_WAKE_WOKE (n / 4)) (n % 4) = true ↔ s.fbit (CMP_WAKE_WOKE (n / 4)) (n % 4) = true ∨ met n)
      s.pwr.phase = .standby →
        (∀ i, i = 1 ∨ i = 3 → s.fbit CLK_WAKECFG_EN i = true → wakes i) ∧
        (s.fbit CLK_WAKECFG_EN 0 = true → (∃ n, n < 64 ∧ met n) → wakes 0) ∧
        (s.fbit CLK_WAKECFG_EN 2 = true → s.reg SAFE_RTCSEC_at = s.reg CLK_ALARM_at → wakes 2)) ∧
    (∀ src c, s.pwr.phase ≠ .standby ∨ src.toNat &&& s.fld CLK_WAKECFG_EN = 0 → exec (.wake src c) s = .next (settle s s)) ∧
    (s.pwr.phase = .waking → s.relocked = false → exec .wakeLockTimeout s = .next (settle s (s.clockBad 2 true))) ∧
    (s.pwr.phase ≠ .waking ∨ s.relocked = true → exec .wakeLockTimeout s = .next (settle s s)) ∧
    (s.pwr.phase ≠ .waking ∨ s.relocked = false ∨ (s.tb.edge - s.pwr.since).toInt < 200 →
      exec .resumeBoundary s = .next (settle s s)) ∧
    (s.pwr.phase = .waking → s.relocked = true → 200 ≤ (s.tb.edge - s.pwr.since).toInt → ∃ u, exec .resumeBoundary s = .next u ∧
      u.pwr.phase = .run ∧ u.fb CLK_IRQ_STAT_WAKE = true) ∧
    (s.pwr.avdd = false → s.pwr.vbat = true → ∃ u, exec .batteryDomainLoss s = .next u ∧ u.lc.keyRam = none ∧ u.lc.service = none ∧
      u.pwr.vbat = false ∧ u.pwr.battLost = true ∧ u.reg SAFE_RTCSEC_at = rstWord SAFE_RTCSEC_at) ∧
    (s.pwr.avdd = true ∨ s.pwr.vbat = false → exec .batteryDomainLoss s = .next (settle s s)) ∧
    (s.pwr.avdd = false → s.pwr.vbat = false → ∃ u, exec .batteryDomainReturn s = .next u ∧ u.pwr.vbat = true ∧
      u.reg SAFE_RTCSEC_at = rstWord SAFE_RTCSEC_at)
end

