-- ==== Sys2Proof/Laws/Access.lean ====
section
/-! SUPPORT. What serving the loads that stand before a request of the device bus leaves: the provers cite this instead of unfolding
`loadsFirst`. -/

namespace Sys2Proof.Machine

/-- Serving the loads before a request changes nothing but the engines, which keep what they have read. -/
theorem State.loadsFirst_same (s : State) (req : Nat) (at_ : BitVec 64) : ∃ e, s.loadsFirst req at_ = { s with eng := e } := by
  have key : ∀ (l : List (Nat × Engine)) (x : State), (∃ e, x = { s with eng := e }) → ∃ e, l.foldl (fun s p => match p.2.gload with
      | some g =>
        if p.2.loadBefore p.1 req at_ then
          let r := s.readOp p.1 g.addr g.size
          s.setEng p.1 { s.engOf p.1 with gload := some { g with got := some (r.2.1, r.2.2) } }
        else s
      | none => s) x = { s with eng := e } := by
    intro l
    induction l with
    | nil => exact fun x h => h
    | cons p l ih =>
      intro x ⟨e, h⟩
      refine ih _ ?_
      dsimp only
      split
      · split
        · subst h
          exact ⟨_, rfl⟩
        · exact ⟨e, h⟩
      · exact ⟨e, h⟩
  exact key s.eng s ⟨s.eng, rfl⟩

/-- No register changes. -/
@[simp] theorem State.loadsFirst_reg (s : State) (req : Nat) (at_ : BitVec 64) (a : Nat) : (s.loadsFirst req at_).reg a = s.reg a := by
  obtain ⟨e, h⟩ := s.loadsFirst_same req at_
  rw [h]
  rfl

/-- No byte of memory changes. -/
@[simp] theorem State.loadsFirst_byte (s : State) (req : Nat) (at_ : BitVec 64) (a : Nat) : (s.loadsFirst req at_).byte a = s.byte a := by
  obtain ⟨e, h⟩ := s.loadsFirst_same req at_
  rw [h]
  rfl

/-- Where no load stands before the request, nothing changes. -/
theorem State.loadsFirst_none (s : State) (req : Nat) (at_ : BitVec 64) (h : s.eng.all (fun p => !p.2.loadBefore p.1 req at_) = true) :
    s.loadsFirst req at_ = s := by
  have key : ∀ (l : List (Nat × Engine)), l.all (fun p => !p.2.loadBefore p.1 req at_) = true → l.foldl (fun s p => match p.2.gload with
      | some g =>
        if p.2.loadBefore p.1 req at_ then
          let r := s.readOp p.1 g.addr g.size
          s.setEng p.1 { s.engOf p.1 with gload := some { g with got := some (r.2.1, r.2.2) } }
        else s
      | none => s) s = s := by
    intro l
    induction l with
    | nil => exact fun _ => rfl
    | cons p l ih =>
      intro h
      simp only [List.all_cons, Bool.and_eq_true, Bool.not_eq_true'] at h
      simp only [List.foldl_cons, h.1]
      have q := ih (by simpa using h.2)
      cases p.2.gload <;> simpa using q
  exact key s.eng h

end Sys2Proof.Machine
end

