-- ==== Sys2Proof/Laws/Table.lean ====
section
/-! SUPPORT. The laws of sparse tables: a read after a write, a write elsewhere, and the canonical form that every operation keeps. -/

namespace Sys2Proof.Machine

variable {α : Type}

@[simp] theorem tget_tput_same (d : α) (t : Table α) (k : Nat) (v : α) : tget d (tput t k v) k = v := by
  induction t with
  | nil => simp [tput, tget]
  | cons p r ih =>
    obtain ⟨j, w⟩ := p
    simp only [tput]
    split
    · simp only [tget]; split
      · omega
      · exact ih
    · split <;> simp [tget]

theorem tget_tput_other (d : α) (t : Table α) (k m : Nat) (v : α) (h : m ≠ k) : tget d (tput t k v) m = tget d t m := by
  induction t with
  | nil => simp [tput, tget, Ne.symm h]
  | cons p r ih =>
    obtain ⟨j, w⟩ := p
    simp only [tput]
    split
    · simp only [tget, ih]
    · split
      · subst_vars; simp [tget, Ne.symm h]
      · simp [tget, Ne.symm h]

@[simp] theorem tget_tdel_same (d : α) (t : Table α) (k : Nat) : tget d (tdel t k) k = d := by
  induction t with
  | nil => rfl
  | cons p r ih =>
    obtain ⟨j, w⟩ := p
    simp only [tdel]
    split
    · exact ih
    · simp only [tget]; split
      · contradiction
      · exact ih

theorem tget_tdel_other (d : α) (t : Table α) (k m : Nat) (h : m ≠ k) : tget d (tdel t k) m = tget d t m := by
  induction t with
  | nil => rfl
  | cons p r ih =>
    obtain ⟨j, w⟩ := p
    simp only [tdel]
    split
    · subst_vars; simp [tget, Ne.symm h, ih]
    · simp only [tget, ih]

@[simp] theorem tget_tset_same [DecidableEq α] (d : α) (t : Table α) (k : Nat) (v : α) : tget d (tset d t k v) k = v := by
  unfold tset; split
  · simp [*]
  · simp

theorem tget_tset_other [DecidableEq α] (d e : α) (t : Table α) (k m : Nat) (v : α) (h : m ≠ k) :
    tget d (tset e t k v) m = tget d t m := by
  unfold tset; split
  · exact tget_tdel_other d t k m h
  · exact tget_tput_other d t k m v h

theorem tabove_mono {m n : Nat} (h : n ≤ m) {t : Table α} (a : tabove m t = true) : tabove n t = true := by
  induction t with
  | nil => rfl
  | cons p r ih =>
    simp only [tabove, Bool.and_eq_true, decide_eq_true_eq] at *
    exact ⟨by omega, ih a.2⟩

theorem tabove_tdel (m k : Nat) {t : Table α} (a : tabove m t = true) : tabove m (tdel t k) = true := by
  induction t with
  | nil => rfl
  | cons p r ih =>
    simp only [tabove, Bool.and_eq_true] at a
    simp only [tdel]
    split
    · exact ih a.2
    · simp only [tabove, Bool.and_eq_true]; exact ⟨a.1, ih a.2⟩

theorem tabove_tput (m k : Nat) (v : α) (h : m < k) {t : Table α} (a : tabove m t = true) : tabove m (tput t k v) = true := by
  induction t with
  | nil => simp [tput, tabove, h]
  | cons p r ih =>
    simp only [tabove, Bool.and_eq_true, decide_eq_true_eq] at a
    simp only [tput]
    split
    · simp [tabove, a.1, ih a.2]
    · split
      · simp [tabove, h, a.2]
      · simp [tabove, h, a.1, a.2]

theorem tabove_filter (m : Nat) (f : Nat × α → Bool) {t : Table α} (a : tabove m t = true) : tabove m (t.filter f) = true := by
  induction t with
  | nil => rfl
  | cons p r ih =>
    simp only [tabove, Bool.and_eq_true] at a
    simp only [List.filter]
    split
    · simp only [tabove, Bool.and_eq_true]; exact ⟨a.1, ih a.2⟩
    · exact ih a.2

variable [DecidableEq α]

theorem twf_tdel (d : Nat → α) (k : Nat) {t : Table α} (w : twf d t = true) : twf d (tdel t k) = true := by
  induction t with
  | nil => rfl
  | cons p r ih =>
    simp only [twf, Bool.and_eq_true] at w
    simp only [tdel]
    split
    · exact ih w.2.2
    · simp only [twf, Bool.and_eq_true]; exact ⟨w.1, tabove_tdel _ _ w.2.1, ih w.2.2⟩

theorem twf_tput (d : Nat → α) (k : Nat) (v : α) (h : v ≠ d k) {t : Table α} (w : twf d t = true) : twf d (tput t k v) = true := by
  induction t with
  | nil => simp [tput, twf, tabove, h]
  | cons p r ih =>
    simp only [twf, Bool.and_eq_true, decide_eq_true_eq] at w
    simp only [tput]
    split
    · next lt =>
      simp only [twf, Bool.and_eq_true, decide_eq_true_eq]; exact ⟨w.1, tabove_tput _ _ _ lt w.2.1, ih w.2.2⟩
    · split
      · next e =>
        simp only [twf, Bool.and_eq_true, decide_eq_true_eq]; exact ⟨h, e ▸ w.2.1, w.2.2⟩
      · next n e =>
        simp only [twf, tabove, Bool.and_eq_true, decide_eq_true_eq]
        exact ⟨h, ⟨by omega, tabove_mono (by omega) w.2.1⟩, w.1, w.2.1, w.2.2⟩

/-- Every write keeps the canonical form. -/
theorem twf_tset (d : Nat → α) (k : Nat) (v : α) {t : Table α} (w : twf d t = true) : twf d (tset (d k) t k v) = true := by
  unfold tset; split
  · exact twf_tdel d k w
  · next h => exact twf_tput d k v h w

theorem twf_filter (d : Nat → α) (f : Nat × α → Bool) {t : Table α} (w : twf d t = true) : twf d (t.filter f) = true := by
  induction t with
  | nil => rfl
  | cons p r ih =>
    simp only [twf, Bool.and_eq_true] at w
    simp only [List.filter]
    split
    · simp only [twf, Bool.and_eq_true]; exact ⟨w.1, tabove_filter _ _ w.2.1, ih w.2.2⟩
    · exact ih w.2.2

end Sys2Proof.Machine
end

