-- ==== Sys2Proof/Laws/State.lean ====
section
/-! SUPPORT. What each update of the state leaves of every field, and what a register, a field and a byte read after a write. -/

namespace Sys2Proof.Machine

variable (s : State)

@[simp] theorem State.setReg_pending (a : Nat) (w : Word) : (s.setReg a w).pending = s.pending := rfl
@[simp] theorem State.setReg_outbox (a : Nat) (w : Word) : (s.setReg a w).outbox = s.outbox := rfl
@[simp] theorem State.setReg_freeCtr (a : Nat) (w : Word) : (s.setReg a w).freeCtr = s.freeCtr := rfl
@[simp] theorem State.setReg_part (a : Nat) (w : Word) : (s.setReg a w).part = s.part := rfl
@[simp] theorem State.setReg_mem (a : Nat) (w : Word) : (s.setReg a w).mem = s.mem := rfl
@[simp] theorem State.setReg_ecc (a : Nat) (w : Word) : (s.setReg a w).ecc = s.ecc := rfl
@[simp] theorem State.setReg_evq (a : Nat) (w : Word) : (s.setReg a w).evq = s.evq := rfl
@[simp] theorem State.setReg_msiHeld (a : Nat) (w : Word) : (s.setReg a w).msiHeld = s.msiHeld := rfl
@[simp] theorem State.setReg_tickCopy (a : Nat) (w : Word) : (s.setReg a w).tickCopy = s.tickCopy := rfl
@[simp] theorem State.setReg_tb (a : Nat) (w : Word) : (s.setReg a w).tb = s.tb := rfl
@[simp] theorem State.setReg_enc (a : Nat) (w : Word) : (s.setReg a w).enc = s.enc := rfl
@[simp] theorem State.setReg_snaps (a : Nat) (w : Word) : (s.setReg a w).snaps = s.snaps := rfl
@[simp] theorem State.setReg_hop (a : Nat) (w : Word) : (s.setReg a w).hop = s.hop := rfl
@[simp] theorem State.setReg_stores (a : Nat) (w : Word) : (s.setReg a w).stores = s.stores := rfl
@[simp] theorem State.setReg_pwm (a : Nat) (w : Word) : (s.setReg a w).pwm = s.pwm := rfl
@[simp] theorem State.setReg_cap (a : Nat) (w : Word) : (s.setReg a w).cap = s.cap := rfl
@[simp] theorem State.setReg_qdAt (a : Nat) (w : Word) : (s.setReg a w).qdAt = s.qdAt := rfl
@[simp] theorem State.setReg_sect (a : Nat) (w : Word) : (s.setReg a w).sect = s.sect := rfl
@[simp] theorem State.setReg_tickVals (a : Nat) (w : Word) : (s.setReg a w).tickVals = s.tickVals := rfl
@[simp] theorem State.setReg_rr (a : Nat) (w : Word) : (s.setReg a w).rr = s.rr := rfl
@[simp] theorem State.setReg_rrAsk (a : Nat) (w : Word) : (s.setReg a w).rrAsk = s.rrAsk := rfl
@[simp] theorem State.setReg_eng (a : Nat) (w : Word) : (s.setReg a w).eng = s.eng := rfl
@[simp] theorem State.setReg_chans (a : Nat) (w : Word) : (s.setReg a w).chans = s.chans := rfl
@[simp] theorem State.setReg_rb (a : Nat) (w : Word) : (s.setReg a w).rb = s.rb := rfl
@[simp] theorem State.setReg_aq (a : Nat) (w : Word) : (s.setReg a w).aq = s.aq := rfl
@[simp] theorem State.setReg_flog (a : Nat) (w : Word) : (s.setReg a w).flog = s.flog := rfl
@[simp] theorem State.setReg_baySw (a : Nat) (w : Word) : (s.setReg a w).baySw = s.baySw := rfl
@[simp] theorem State.setReg_rcal (a : Nat) (w : Word) : (s.setReg a w).rcal = s.rcal := rfl
@[simp] theorem State.setReg_adc (a : Nat) (w : Word) : (s.setReg a w).adc = s.adc := rfl
@[simp] theorem State.setReg_cmp (a : Nat) (w : Word) : (s.setReg a w).cmp = s.cmp := rfl
@[simp] theorem State.setReg_dac (a : Nat) (w : Word) : (s.setReg a w).dac = s.dac := rfl
@[simp] theorem State.setReg_fab (a : Nat) (w : Word) : (s.setReg a w).fab = s.fab := rfl
@[simp] theorem State.setReg_ffs (a : Nat) (w : Word) : (s.setReg a w).ffs = s.ffs := rfl
@[simp] theorem State.setReg_dmaTrig (a : Nat) (w : Word) : (s.setReg a w).dmaTrig = s.dmaTrig := rfl
@[simp] theorem State.setReg_wipe (a : Nat) (w : Word) : (s.setReg a w).wipe = s.wipe := rfl
@[simp] theorem State.setReg_attar (a : Nat) (w : Word) : (s.setReg a w).attar = s.attar := rfl
@[simp] theorem State.setReg_strobes (a : Nat) (w : Word) : (s.setReg a w).strobes = s.strobes := rfl
@[simp] theorem State.setReg_pwr (a : Nat) (w : Word) : (s.setReg a w).pwr = s.pwr := rfl
@[simp] theorem State.setReg_pcie (a : Nat) (w : Word) : (s.setReg a w).pcie = s.pcie := rfl
@[simp] theorem State.setReg_sil (a : Nat) (w : Word) : (s.setReg a w).sil = s.sil := rfl
@[simp] theorem State.setReg_actOut (a : Nat) (w : Word) : (s.setReg a w).actOut = s.actOut := rfl
@[simp] theorem State.setReg_actAt (a : Nat) (w : Word) : (s.setReg a w).actAt = s.actAt := rfl
@[simp] theorem State.setReg_chOut (a : Nat) (w : Word) : (s.setReg a w).chOut = s.chOut := rfl
@[simp] theorem State.setReg_pinDef (a : Nat) (w : Word) : (s.setReg a w).pinDef = s.pinDef := rfl
@[simp] theorem State.setReg_pinRel (a : Nat) (w : Word) : (s.setReg a w).pinRel = s.pinRel := rfl
@[simp] theorem State.setReg_clearq (a : Nat) (w : Word) : (s.setReg a w).clearq = s.clearq := rfl
@[simp] theorem State.setReg_wbq (a : Nat) (w : Word) : (s.setReg a w).wbq = s.wbq := rfl
@[simp] theorem State.setReg_pins (a : Nat) (w : Word) : (s.setReg a w).pins = s.pins := rfl
@[simp] theorem State.setReg_keep (a : Nat) (w : Word) : (s.setReg a w).keep = s.keep := rfl
@[simp] theorem State.setReg_dmaAbort (a : Nat) (w : Word) : (s.setReg a w).dmaAbort = s.dmaAbort := rfl
@[simp] theorem State.setReg_lines (a : Nat) (w : Word) : (s.setReg a w).lines = s.lines := rfl
@[simp] theorem State.setReg_nodes (a : Nat) (w : Word) : (s.setReg a w).nodes = s.nodes := rfl
@[simp] theorem State.setReg_pair (a : Nat) (w : Word) : (s.setReg a w).pair = s.pair := rfl
@[simp] theorem State.setReg_lc (a : Nat) (w : Word) : (s.setReg a w).lc = s.lc := rfl
@[simp] theorem State.setReg_loader (a : Nat) (w : Word) : (s.setReg a w).loader = s.loader := rfl
@[simp] theorem State.setReg_cfgmem (a : Nat) (w : Word) : (s.setReg a w).cfgmem = s.cfgmem := rfl
@[simp] theorem State.setReg_cfgFlip (a : Nat) (w : Word) : (s.setReg a w).cfgFlip = s.cfgFlip := rfl
@[simp] theorem State.setReg_scrub (a : Nat) (w : Word) : (s.setReg a w).scrub = s.scrub := rfl
@[simp] theorem State.setReg_safe (a : Nat) (w : Word) : (s.setReg a w).safe = s.safe := rfl
@[simp] theorem State.setReg_ist (a : Nat) (w : Word) : (s.setReg a w).ist = s.ist := rfl
@[simp] theorem State.setReg_snap (a : Nat) (w : Word) : (s.setReg a w).snap = s.snap := rfl
@[simp] theorem State.setReg_can (a : Nat) (w : Word) : (s.setReg a w).can = s.can := rfl
@[simp] theorem State.setReg_spi (a : Nat) (w : Word) : (s.setReg a w).spi = s.spi := rfl
@[simp] theorem State.setReg_i2c (a : Nat) (w : Word) : (s.setReg a w).i2c = s.i2c := rfl
@[simp] theorem State.setReg_uart (a : Nat) (w : Word) : (s.setReg a w).uart = s.uart := rfl
@[simp] theorem State.setReg_tap (a : Nat) (w : Word) : (s.setReg a w).tap = s.tap := rfl

@[simp] theorem State.setFld_pending (f : RF) (v : Nat) : (s.setFld f v).pending = s.pending := rfl
@[simp] theorem State.setFld_outbox (f : RF) (v : Nat) : (s.setFld f v).outbox = s.outbox := rfl
@[simp] theorem State.setFld_freeCtr (f : RF) (v : Nat) : (s.setFld f v).freeCtr = s.freeCtr := rfl
@[simp] theorem State.setFld_part (f : RF) (v : Nat) : (s.setFld f v).part = s.part := rfl
@[simp] theorem State.setFld_mem (f : RF) (v : Nat) : (s.setFld f v).mem = s.mem := rfl
@[simp] theorem State.setFld_ecc (f : RF) (v : Nat) : (s.setFld f v).ecc = s.ecc := rfl
@[simp] theorem State.setFld_evq (f : RF) (v : Nat) : (s.setFld f v).evq = s.evq := rfl
@[simp] theorem State.setFld_msiHeld (f : RF) (v : Nat) : (s.setFld f v).msiHeld = s.msiHeld := rfl
@[simp] theorem State.setFld_tickCopy (f : RF) (v : Nat) : (s.setFld f v).tickCopy = s.tickCopy := rfl
@[simp] theorem State.setFld_tb (f : RF) (v : Nat) : (s.setFld f v).tb = s.tb := rfl
@[simp] theorem State.setFld_enc (f : RF) (v : Nat) : (s.setFld f v).enc = s.enc := rfl
@[simp] theorem State.setFld_snaps (f : RF) (v : Nat) : (s.setFld f v).snaps = s.snaps := rfl
@[simp] theorem State.setFld_hop (f : RF) (v : Nat) : (s.setFld f v).hop = s.hop := rfl
@[simp] theorem State.setFld_stores (f : RF) (v : Nat) : (s.setFld f v).stores = s.stores := rfl
@[simp] theorem State.setFld_pwm (f : RF) (v : Nat) : (s.setFld f v).pwm = s.pwm := rfl
@[simp] theorem State.setFld_cap (f : RF) (v : Nat) : (s.setFld f v).cap = s.cap := rfl
@[simp] theorem State.setFld_qdAt (f : RF) (v : Nat) : (s.setFld f v).qdAt = s.qdAt := rfl
@[simp] theorem State.setFld_sect (f : RF) (v : Nat) : (s.setFld f v).sect = s.sect := rfl
@[simp] theorem State.setFld_tickVals (f : RF) (v : Nat) : (s.setFld f v).tickVals = s.tickVals := rfl
@[simp] theorem State.setFld_rr (f : RF) (v : Nat) : (s.setFld f v).rr = s.rr := rfl
@[simp] theorem State.setFld_rrAsk (f : RF) (v : Nat) : (s.setFld f v).rrAsk = s.rrAsk := rfl
@[simp] theorem State.setFld_eng (f : RF) (v : Nat) : (s.setFld f v).eng = s.eng := rfl
@[simp] theorem State.setFld_chans (f : RF) (v : Nat) : (s.setFld f v).chans = s.chans := rfl
@[simp] theorem State.setFld_rb (f : RF) (v : Nat) : (s.setFld f v).rb = s.rb := rfl
@[simp] theorem State.setFld_aq (f : RF) (v : Nat) : (s.setFld f v).aq = s.aq := rfl
@[simp] theorem State.setFld_flog (f : RF) (v : Nat) : (s.setFld f v).flog = s.flog := rfl
@[simp] theorem State.setFld_baySw (f : RF) (v : Nat) : (s.setFld f v).baySw = s.baySw := rfl
@[simp] theorem State.setFld_rcal (f : RF) (v : Nat) : (s.setFld f v).rcal = s.rcal := rfl
@[simp] theorem State.setFld_adc (f : RF) (v : Nat) : (s.setFld f v).adc = s.adc := rfl
@[simp] theorem State.setFld_cmp (f : RF) (v : Nat) : (s.setFld f v).cmp = s.cmp := rfl
@[simp] theorem State.setFld_dac (f : RF) (v : Nat) : (s.setFld f v).dac = s.dac := rfl
@[simp] theorem State.setFld_fab (f : RF) (v : Nat) : (s.setFld f v).fab = s.fab := rfl
@[simp] theorem State.setFld_ffs (f : RF) (v : Nat) : (s.setFld f v).ffs = s.ffs := rfl
@[simp] theorem State.setFld_dmaTrig (f : RF) (v : Nat) : (s.setFld f v).dmaTrig = s.dmaTrig := rfl
@[simp] theorem State.setFld_wipe (f : RF) (v : Nat) : (s.setFld f v).wipe = s.wipe := rfl
@[simp] theorem State.setFld_attar (f : RF) (v : Nat) : (s.setFld f v).attar = s.attar := rfl
@[simp] theorem State.setFld_strobes (f : RF) (v : Nat) : (s.setFld f v).strobes = s.strobes := rfl
@[simp] theorem State.setFld_pwr (f : RF) (v : Nat) : (s.setFld f v).pwr = s.pwr := rfl
@[simp] theorem State.setFld_pcie (f : RF) (v : Nat) : (s.setFld f v).pcie = s.pcie := rfl
@[simp] theorem State.setFld_sil (f : RF) (v : Nat) : (s.setFld f v).sil = s.sil := rfl
@[simp] theorem State.setFld_actOut (f : RF) (v : Nat) : (s.setFld f v).actOut = s.actOut := rfl
@[simp] theorem State.setFld_actAt (f : RF) (v : Nat) : (s.setFld f v).actAt = s.actAt := rfl
@[simp] theorem State.setFld_chOut (f : RF) (v : Nat) : (s.setFld f v).chOut = s.chOut := rfl
@[simp] theorem State.setFld_pinDef (f : RF) (v : Nat) : (s.setFld f v).pinDef = s.pinDef := rfl
@[simp] theorem State.setFld_pinRel (f : RF) (v : Nat) : (s.setFld f v).pinRel = s.pinRel := rfl
@[simp] theorem State.setFld_clearq (f : RF) (v : Nat) : (s.setFld f v).clearq = s.clearq := rfl
@[simp] theorem State.setFld_wbq (f : RF) (v : Nat) : (s.setFld f v).wbq = s.wbq := rfl
@[simp] theorem State.setFld_pins (f : RF) (v : Nat) : (s.setFld f v).pins = s.pins := rfl
@[simp] theorem State.setFld_keep (f : RF) (v : Nat) : (s.setFld f v).keep = s.keep := rfl
@[simp] theorem State.setFld_dmaAbort (f : RF) (v : Nat) : (s.setFld f v).dmaAbort = s.dmaAbort := rfl
@[simp] theorem State.setFld_lines (f : RF) (v : Nat) : (s.setFld f v).lines = s.lines := rfl
@[simp] theorem State.setFld_nodes (f : RF) (v : Nat) : (s.setFld f v).nodes = s.nodes := rfl
@[simp] theorem State.setFld_pair (f : RF) (v : Nat) : (s.setFld f v).pair = s.pair := rfl
@[simp] theorem State.setFld_lc (f : RF) (v : Nat) : (s.setFld f v).lc = s.lc := rfl
@[simp] theorem State.setFld_loader (f : RF) (v : Nat) : (s.setFld f v).loader = s.loader := rfl
@[simp] theorem State.setFld_cfgmem (f : RF) (v : Nat) : (s.setFld f v).cfgmem = s.cfgmem := rfl
@[simp] theorem State.setFld_cfgFlip (f : RF) (v : Nat) : (s.setFld f v).cfgFlip = s.cfgFlip := rfl
@[simp] theorem State.setFld_scrub (f : RF) (v : Nat) : (s.setFld f v).scrub = s.scrub := rfl
@[simp] theorem State.setFld_safe (f : RF) (v : Nat) : (s.setFld f v).safe = s.safe := rfl
@[simp] theorem State.setFld_ist (f : RF) (v : Nat) : (s.setFld f v).ist = s.ist := rfl
@[simp] theorem State.setFld_snap (f : RF) (v : Nat) : (s.setFld f v).snap = s.snap := rfl
@[simp] theorem State.setFld_can (f : RF) (v : Nat) : (s.setFld f v).can = s.can := rfl
@[simp] theorem State.setFld_spi (f : RF) (v : Nat) : (s.setFld f v).spi = s.spi := rfl
@[simp] theorem State.setFld_i2c (f : RF) (v : Nat) : (s.setFld f v).i2c = s.i2c := rfl
@[simp] theorem State.setFld_uart (f : RF) (v : Nat) : (s.setFld f v).uart = s.uart := rfl
@[simp] theorem State.setFld_tap (f : RF) (v : Nat) : (s.setFld f v).tap = s.tap := rfl

@[simp] theorem State.setB_pending (f : RF) (b : Bool) : (s.setB f b).pending = s.pending := rfl
@[simp] theorem State.setB_outbox (f : RF) (b : Bool) : (s.setB f b).outbox = s.outbox := rfl
@[simp] theorem State.setB_freeCtr (f : RF) (b : Bool) : (s.setB f b).freeCtr = s.freeCtr := rfl
@[simp] theorem State.setB_part (f : RF) (b : Bool) : (s.setB f b).part = s.part := rfl
@[simp] theorem State.setB_mem (f : RF) (b : Bool) : (s.setB f b).mem = s.mem := rfl
@[simp] theorem State.setB_ecc (f : RF) (b : Bool) : (s.setB f b).ecc = s.ecc := rfl
@[simp] theorem State.setB_evq (f : RF) (b : Bool) : (s.setB f b).evq = s.evq := rfl
@[simp] theorem State.setB_msiHeld (f : RF) (b : Bool) : (s.setB f b).msiHeld = s.msiHeld := rfl
@[simp] theorem State.setB_tickCopy (f : RF) (b : Bool) : (s.setB f b).tickCopy = s.tickCopy := rfl
@[simp] theorem State.setB_tb (f : RF) (b : Bool) : (s.setB f b).tb = s.tb := rfl
@[simp] theorem State.setB_enc (f : RF) (b : Bool) : (s.setB f b).enc = s.enc := rfl
@[simp] theorem State.setB_snaps (f : RF) (b : Bool) : (s.setB f b).snaps = s.snaps := rfl
@[simp] theorem State.setB_hop (f : RF) (b : Bool) : (s.setB f b).hop = s.hop := rfl
@[simp] theorem State.setB_stores (f : RF) (b : Bool) : (s.setB f b).stores = s.stores := rfl
@[simp] theorem State.setB_pwm (f : RF) (b : Bool) : (s.setB f b).pwm = s.pwm := rfl
@[simp] theorem State.setB_cap (f : RF) (b : Bool) : (s.setB f b).cap = s.cap := rfl
@[simp] theorem State.setB_qdAt (f : RF) (b : Bool) : (s.setB f b).qdAt = s.qdAt := rfl
@[simp] theorem State.setB_sect (f : RF) (b : Bool) : (s.setB f b).sect = s.sect := rfl
@[simp] theorem State.setB_tickVals (f : RF) (b : Bool) : (s.setB f b).tickVals = s.tickVals := rfl
@[simp] theorem State.setB_rr (f : RF) (b : Bool) : (s.setB f b).rr = s.rr := rfl
@[simp] theorem State.setB_rrAsk (f : RF) (b : Bool) : (s.setB f b).rrAsk = s.rrAsk := rfl
@[simp] theorem State.setB_eng (f : RF) (b : Bool) : (s.setB f b).eng = s.eng := rfl
@[simp] theorem State.setB_chans (f : RF) (b : Bool) : (s.setB f b).chans = s.chans := rfl
@[simp] theorem State.setB_rb (f : RF) (b : Bool) : (s.setB f b).rb = s.rb := rfl
@[simp] theorem State.setB_aq (f : RF) (b : Bool) : (s.setB f b).aq = s.aq := rfl
@[simp] theorem State.setB_flog (f : RF) (b : Bool) : (s.setB f b).flog = s.flog := rfl
@[simp] theorem State.setB_baySw (f : RF) (b : Bool) : (s.setB f b).baySw = s.baySw := rfl
@[simp] theorem State.setB_rcal (f : RF) (b : Bool) : (s.setB f b).rcal = s.rcal := rfl
@[simp] theorem State.setB_adc (f : RF) (b : Bool) : (s.setB f b).adc = s.adc := rfl
@[simp] theorem State.setB_cmp (f : RF) (b : Bool) : (s.setB f b).cmp = s.cmp := rfl
@[simp] theorem State.setB_dac (f : RF) (b : Bool) : (s.setB f b).dac = s.dac := rfl
@[simp] theorem State.setB_fab (f : RF) (b : Bool) : (s.setB f b).fab = s.fab := rfl
@[simp] theorem State.setB_ffs (f : RF) (b : Bool) : (s.setB f b).ffs = s.ffs := rfl
@[simp] theorem State.setB_dmaTrig (f : RF) (b : Bool) : (s.setB f b).dmaTrig = s.dmaTrig := rfl
@[simp] theorem State.setB_wipe (f : RF) (b : Bool) : (s.setB f b).wipe = s.wipe := rfl
@[simp] theorem State.setB_attar (f : RF) (b : Bool) : (s.setB f b).attar = s.attar := rfl
@[simp] theorem State.setB_strobes (f : RF) (b : Bool) : (s.setB f b).strobes = s.strobes := rfl
@[simp] theorem State.setB_pwr (f : RF) (b : Bool) : (s.setB f b).pwr = s.pwr := rfl
@[simp] theorem State.setB_pcie (f : RF) (b : Bool) : (s.setB f b).pcie = s.pcie := rfl
@[simp] theorem State.setB_sil (f : RF) (b : Bool) : (s.setB f b).sil = s.sil := rfl
@[simp] theorem State.setB_actOut (f : RF) (b : Bool) : (s.setB f b).actOut = s.actOut := rfl
@[simp] theorem State.setB_actAt (f : RF) (b : Bool) : (s.setB f b).actAt = s.actAt := rfl
@[simp] theorem State.setB_chOut (f : RF) (b : Bool) : (s.setB f b).chOut = s.chOut := rfl
@[simp] theorem State.setB_pinDef (f : RF) (b : Bool) : (s.setB f b).pinDef = s.pinDef := rfl
@[simp] theorem State.setB_pinRel (f : RF) (b : Bool) : (s.setB f b).pinRel = s.pinRel := rfl
@[simp] theorem State.setB_clearq (f : RF) (b : Bool) : (s.setB f b).clearq = s.clearq := rfl
@[simp] theorem State.setB_wbq (f : RF) (b : Bool) : (s.setB f b).wbq = s.wbq := rfl
@[simp] theorem State.setB_pins (f : RF) (b : Bool) : (s.setB f b).pins = s.pins := rfl
@[simp] theorem State.setB_keep (f : RF) (b : Bool) : (s.setB f b).keep = s.keep := rfl
@[simp] theorem State.setB_dmaAbort (f : RF) (b : Bool) : (s.setB f b).dmaAbort = s.dmaAbort := rfl
@[simp] theorem State.setB_lines (f : RF) (b : Bool) : (s.setB f b).lines = s.lines := rfl
@[simp] theorem State.setB_nodes (f : RF) (b : Bool) : (s.setB f b).nodes = s.nodes := rfl
@[simp] theorem State.setB_pair (f : RF) (b : Bool) : (s.setB f b).pair = s.pair := rfl
@[simp] theorem State.setB_lc (f : RF) (b : Bool) : (s.setB f b).lc = s.lc := rfl
@[simp] theorem State.setB_loader (f : RF) (b : Bool) : (s.setB f b).loader = s.loader := rfl
@[simp] theorem State.setB_cfgmem (f : RF) (b : Bool) : (s.setB f b).cfgmem = s.cfgmem := rfl
@[simp] theorem State.setB_cfgFlip (f : RF) (b : Bool) : (s.setB f b).cfgFlip = s.cfgFlip := rfl
@[simp] theorem State.setB_scrub (f : RF) (b : Bool) : (s.setB f b).scrub = s.scrub := rfl
@[simp] theorem State.setB_safe (f : RF) (b : Bool) : (s.setB f b).safe = s.safe := rfl
@[simp] theorem State.setB_ist (f : RF) (b : Bool) : (s.setB f b).ist = s.ist := rfl
@[simp] theorem State.setB_snap (f : RF) (b : Bool) : (s.setB f b).snap = s.snap := rfl
@[simp] theorem State.setB_can (f : RF) (b : Bool) : (s.setB f b).can = s.can := rfl
@[simp] theorem State.setB_spi (f : RF) (b : Bool) : (s.setB f b).spi = s.spi := rfl
@[simp] theorem State.setB_i2c (f : RF) (b : Bool) : (s.setB f b).i2c = s.i2c := rfl
@[simp] theorem State.setB_uart (f : RF) (b : Bool) : (s.setB f b).uart = s.uart := rfl
@[simp] theorem State.setB_tap (f : RF) (b : Bool) : (s.setB f b).tap = s.tap := rfl

@[simp] theorem State.lcWith_pending (f : LifeCycle → LifeCycle) : (s.lcWith f).pending = s.pending := rfl
@[simp] theorem State.lcWith_outbox (f : LifeCycle → LifeCycle) : (s.lcWith f).outbox = s.outbox := rfl
@[simp] theorem State.lcWith_freeCtr (f : LifeCycle → LifeCycle) : (s.lcWith f).freeCtr = s.freeCtr := rfl
@[simp] theorem State.lcWith_part (f : LifeCycle → LifeCycle) : (s.lcWith f).part = s.part := rfl
@[simp] theorem State.lcWith_regs (f : LifeCycle → LifeCycle) : (s.lcWith f).regs = s.regs := rfl
@[simp] theorem State.lcWith_mem (f : LifeCycle → LifeCycle) : (s.lcWith f).mem = s.mem := rfl
@[simp] theorem State.lcWith_ecc (f : LifeCycle → LifeCycle) : (s.lcWith f).ecc = s.ecc := rfl
@[simp] theorem State.lcWith_evq (f : LifeCycle → LifeCycle) : (s.lcWith f).evq = s.evq := rfl
@[simp] theorem State.lcWith_msiHeld (f : LifeCycle → LifeCycle) : (s.lcWith f).msiHeld = s.msiHeld := rfl
@[simp] theorem State.lcWith_tickCopy (f : LifeCycle → LifeCycle) : (s.lcWith f).tickCopy = s.tickCopy := rfl
@[simp] theorem State.lcWith_tb (f : LifeCycle → LifeCycle) : (s.lcWith f).tb = s.tb := rfl
@[simp] theorem State.lcWith_enc (f : LifeCycle → LifeCycle) : (s.lcWith f).enc = s.enc := rfl
@[simp] theorem State.lcWith_snaps (f : LifeCycle → LifeCycle) : (s.lcWith f).snaps = s.snaps := rfl
@[simp] theorem State.lcWith_hop (f : LifeCycle → LifeCycle) : (s.lcWith f).hop = s.hop := rfl
@[simp] theorem State.lcWith_stores (f : LifeCycle → LifeCycle) : (s.lcWith f).stores = s.stores := rfl
@[simp] theorem State.lcWith_pwm (f : LifeCycle → LifeCycle) : (s.lcWith f).pwm = s.pwm := rfl
@[simp] theorem State.lcWith_cap (f : LifeCycle → LifeCycle) : (s.lcWith f).cap = s.cap := rfl
@[simp] theorem State.lcWith_qdAt (f : LifeCycle → LifeCycle) : (s.lcWith f).qdAt = s.qdAt := rfl
@[simp] theorem State.lcWith_sect (f : LifeCycle → LifeCycle) : (s.lcWith f).sect = s.sect := rfl
@[simp] theorem State.lcWith_tickVals (f : LifeCycle → LifeCycle) : (s.lcWith f).tickVals = s.tickVals := rfl
@[simp] theorem State.lcWith_rr (f : LifeCycle → LifeCycle) : (s.lcWith f).rr = s.rr := rfl
@[simp] theorem State.lcWith_rrAsk (f : LifeCycle → LifeCycle) : (s.lcWith f).rrAsk = s.rrAsk := rfl
@[simp] theorem State.lcWith_eng (f : LifeCycle → LifeCycle) : (s.lcWith f).eng = s.eng := rfl
@[simp] theorem State.lcWith_chans (f : LifeCycle → LifeCycle) : (s.lcWith f).chans = s.chans := rfl
@[simp] theorem State.lcWith_rb (f : LifeCycle → LifeCycle) : (s.lcWith f).rb = s.rb := rfl
@[simp] theorem State.lcWith_aq (f : LifeCycle → LifeCycle) : (s.lcWith f).aq = s.aq := rfl
@[simp] theorem State.lcWith_flog (f : LifeCycle → LifeCycle) : (s.lcWith f).flog = s.flog := rfl
@[simp] theorem State.lcWith_baySw (f : LifeCycle → LifeCycle) : (s.lcWith f).baySw = s.baySw := rfl
@[simp] theorem State.lcWith_rcal (f : LifeCycle → LifeCycle) : (s.lcWith f).rcal = s.rcal := rfl
@[simp] theorem State.lcWith_adc (f : LifeCycle → LifeCycle) : (s.lcWith f).adc = s.adc := rfl
@[simp] theorem State.lcWith_cmp (f : LifeCycle → LifeCycle) : (s.lcWith f).cmp = s.cmp := rfl
@[simp] theorem State.lcWith_dac (f : LifeCycle → LifeCycle) : (s.lcWith f).dac = s.dac := rfl
@[simp] theorem State.lcWith_fab (f : LifeCycle → LifeCycle) : (s.lcWith f).fab = s.fab := rfl
@[simp] theorem State.lcWith_ffs (f : LifeCycle → LifeCycle) : (s.lcWith f).ffs = s.ffs := rfl
@[simp] theorem State.lcWith_dmaTrig (f : LifeCycle → LifeCycle) : (s.lcWith f).dmaTrig = s.dmaTrig := rfl
@[simp] theorem State.lcWith_wipe (f : LifeCycle → LifeCycle) : (s.lcWith f).wipe = s.wipe := rfl
@[simp] theorem State.lcWith_attar (f : LifeCycle → LifeCycle) : (s.lcWith f).attar = s.attar := rfl
@[simp] theorem State.lcWith_strobes (f : LifeCycle → LifeCycle) : (s.lcWith f).strobes = s.strobes := rfl
@[simp] theorem State.lcWith_pwr (f : LifeCycle → LifeCycle) : (s.lcWith f).pwr = s.pwr := rfl
@[simp] theorem State.lcWith_pcie (f : LifeCycle → LifeCycle) : (s.lcWith f).pcie = s.pcie := rfl
@[simp] theorem State.lcWith_sil (f : LifeCycle → LifeCycle) : (s.lcWith f).sil = s.sil := rfl
@[simp] theorem State.lcWith_actOut (f : LifeCycle → LifeCycle) : (s.lcWith f).actOut = s.actOut := rfl
@[simp] theorem State.lcWith_actAt (f : LifeCycle → LifeCycle) : (s.lcWith f).actAt = s.actAt := rfl
@[simp] theorem State.lcWith_chOut (f : LifeCycle → LifeCycle) : (s.lcWith f).chOut = s.chOut := rfl
@[simp] theorem State.lcWith_pinDef (f : LifeCycle → LifeCycle) : (s.lcWith f).pinDef = s.pinDef := rfl
@[simp] theorem State.lcWith_pinRel (f : LifeCycle → LifeCycle) : (s.lcWith f).pinRel = s.pinRel := rfl
@[simp] theorem State.lcWith_clearq (f : LifeCycle → LifeCycle) : (s.lcWith f).clearq = s.clearq := rfl
@[simp] theorem State.lcWith_wbq (f : LifeCycle → LifeCycle) : (s.lcWith f).wbq = s.wbq := rfl
@[simp] theorem State.lcWith_pins (f : LifeCycle → LifeCycle) : (s.lcWith f).pins = s.pins := rfl
@[simp] theorem State.lcWith_keep (f : LifeCycle → LifeCycle) : (s.lcWith f).keep = s.keep := rfl
@[simp] theorem State.lcWith_dmaAbort (f : LifeCycle → LifeCycle) : (s.lcWith f).dmaAbort = s.dmaAbort := rfl
@[simp] theorem State.lcWith_lines (f : LifeCycle → LifeCycle) : (s.lcWith f).lines = s.lines := rfl
@[simp] theorem State.lcWith_nodes (f : LifeCycle → LifeCycle) : (s.lcWith f).nodes = s.nodes := rfl
@[simp] theorem State.lcWith_pair (f : LifeCycle → LifeCycle) : (s.lcWith f).pair = s.pair := rfl
@[simp] theorem State.lcWith_loader (f : LifeCycle → LifeCycle) : (s.lcWith f).loader = s.loader := rfl
@[simp] theorem State.lcWith_cfgmem (f : LifeCycle → LifeCycle) : (s.lcWith f).cfgmem = s.cfgmem := rfl
@[simp] theorem State.lcWith_cfgFlip (f : LifeCycle → LifeCycle) : (s.lcWith f).cfgFlip = s.cfgFlip := rfl
@[simp] theorem State.lcWith_scrub (f : LifeCycle → LifeCycle) : (s.lcWith f).scrub = s.scrub := rfl
@[simp] theorem State.lcWith_safe (f : LifeCycle → LifeCycle) : (s.lcWith f).safe = s.safe := rfl
@[simp] theorem State.lcWith_ist (f : LifeCycle → LifeCycle) : (s.lcWith f).ist = s.ist := rfl
@[simp] theorem State.lcWith_snap (f : LifeCycle → LifeCycle) : (s.lcWith f).snap = s.snap := rfl
@[simp] theorem State.lcWith_can (f : LifeCycle → LifeCycle) : (s.lcWith f).can = s.can := rfl
@[simp] theorem State.lcWith_spi (f : LifeCycle → LifeCycle) : (s.lcWith f).spi = s.spi := rfl
@[simp] theorem State.lcWith_i2c (f : LifeCycle → LifeCycle) : (s.lcWith f).i2c = s.i2c := rfl
@[simp] theorem State.lcWith_uart (f : LifeCycle → LifeCycle) : (s.lcWith f).uart = s.uart := rfl
@[simp] theorem State.lcWith_tap (f : LifeCycle → LifeCycle) : (s.lcWith f).tap = s.tap := rfl

@[simp] theorem State.fresh_pending : (s.fresh).pending = s.pending := rfl
@[simp] theorem State.fresh_outbox : (s.fresh).outbox = s.outbox := rfl
@[simp] theorem State.fresh_part : (s.fresh).part = s.part := rfl
@[simp] theorem State.fresh_regs : (s.fresh).regs = s.regs := rfl
@[simp] theorem State.fresh_mem : (s.fresh).mem = s.mem := rfl
@[simp] theorem State.fresh_ecc : (s.fresh).ecc = s.ecc := rfl
@[simp] theorem State.fresh_evq : (s.fresh).evq = s.evq := rfl
@[simp] theorem State.fresh_msiHeld : (s.fresh).msiHeld = s.msiHeld := rfl
@[simp] theorem State.fresh_tickCopy : (s.fresh).tickCopy = s.tickCopy := rfl
@[simp] theorem State.fresh_tb : (s.fresh).tb = s.tb := rfl
@[simp] theorem State.fresh_enc : (s.fresh).enc = s.enc := rfl
@[simp] theorem State.fresh_snaps : (s.fresh).snaps = s.snaps := rfl
@[simp] theorem State.fresh_hop : (s.fresh).hop = s.hop := rfl
@[simp] theorem State.fresh_stores : (s.fresh).stores = s.stores := rfl
@[simp] theorem State.fresh_pwm : (s.fresh).pwm = s.pwm := rfl
@[simp] theorem State.fresh_cap : (s.fresh).cap = s.cap := rfl
@[simp] theorem State.fresh_qdAt : (s.fresh).qdAt = s.qdAt := rfl
@[simp] theorem State.fresh_sect : (s.fresh).sect = s.sect := rfl
@[simp] theorem State.fresh_tickVals : (s.fresh).tickVals = s.tickVals := rfl
@[simp] theorem State.fresh_rr : (s.fresh).rr = s.rr := rfl
@[simp] theorem State.fresh_rrAsk : (s.fresh).rrAsk = s.rrAsk := rfl
@[simp] theorem State.fresh_eng : (s.fresh).eng = s.eng := rfl
@[simp] theorem State.fresh_chans : (s.fresh).chans = s.chans := rfl
@[simp] theorem State.fresh_rb : (s.fresh).rb = s.rb := rfl
@[simp] theorem State.fresh_aq : (s.fresh).aq = s.aq := rfl
@[simp] theorem State.fresh_flog : (s.fresh).flog = s.flog := rfl
@[simp] theorem State.fresh_baySw : (s.fresh).baySw = s.baySw := rfl
@[simp] theorem State.fresh_rcal : (s.fresh).rcal = s.rcal := rfl
@[simp] theorem State.fresh_adc : (s.fresh).adc = s.adc := rfl
@[simp] theorem State.fresh_cmp : (s.fresh).cmp = s.cmp := rfl
@[simp] theorem State.fresh_dac : (s.fresh).dac = s.dac := rfl
@[simp] theorem State.fresh_fab : (s.fresh).fab = s.fab := rfl
@[simp] theorem State.fresh_ffs : (s.fresh).ffs = s.ffs := rfl
@[simp] theorem State.fresh_dmaTrig : (s.fresh).dmaTrig = s.dmaTrig := rfl
@[simp] theorem State.fresh_wipe : (s.fresh).wipe = s.wipe := rfl
@[simp] theorem State.fresh_attar : (s.fresh).attar = s.attar := rfl
@[simp] theorem State.fresh_strobes : (s.fresh).strobes = s.strobes := rfl
@[simp] theorem State.fresh_pwr : (s.fresh).pwr = s.pwr := rfl
@[simp] theorem State.fresh_pcie : (s.fresh).pcie = s.pcie := rfl
@[simp] theorem State.fresh_sil : (s.fresh).sil = s.sil := rfl
@[simp] theorem State.fresh_actOut : (s.fresh).actOut = s.actOut := rfl
@[simp] theorem State.fresh_actAt : (s.fresh).actAt = s.actAt := rfl
@[simp] theorem State.fresh_chOut : (s.fresh).chOut = s.chOut := rfl
@[simp] theorem State.fresh_pinDef : (s.fresh).pinDef = s.pinDef := rfl
@[simp] theorem State.fresh_pinRel : (s.fresh).pinRel = s.pinRel := rfl
@[simp] theorem State.fresh_clearq : (s.fresh).clearq = s.clearq := rfl
@[simp] theorem State.fresh_wbq : (s.fresh).wbq = s.wbq := rfl
@[simp] theorem State.fresh_pins : (s.fresh).pins = s.pins := rfl
@[simp] theorem State.fresh_keep : (s.fresh).keep = s.keep := rfl
@[simp] theorem State.fresh_dmaAbort : (s.fresh).dmaAbort = s.dmaAbort := rfl
@[simp] theorem State.fresh_lines : (s.fresh).lines = s.lines := rfl
@[simp] theorem State.fresh_nodes : (s.fresh).nodes = s.nodes := rfl
@[simp] theorem State.fresh_pair : (s.fresh).pair = s.pair := rfl
@[simp] theorem State.fresh_lc : (s.fresh).lc = s.lc := rfl
@[simp] theorem State.fresh_loader : (s.fresh).loader = s.loader := rfl
@[simp] theorem State.fresh_cfgmem : (s.fresh).cfgmem = s.cfgmem := rfl
@[simp] theorem State.fresh_cfgFlip : (s.fresh).cfgFlip = s.cfgFlip := rfl
@[simp] theorem State.fresh_scrub : (s.fresh).scrub = s.scrub := rfl
@[simp] theorem State.fresh_safe : (s.fresh).safe = s.safe := rfl
@[simp] theorem State.fresh_ist : (s.fresh).ist = s.ist := rfl
@[simp] theorem State.fresh_snap : (s.fresh).snap = s.snap := rfl
@[simp] theorem State.fresh_can : (s.fresh).can = s.can := rfl
@[simp] theorem State.fresh_spi : (s.fresh).spi = s.spi := rfl
@[simp] theorem State.fresh_i2c : (s.fresh).i2c = s.i2c := rfl
@[simp] theorem State.fresh_uart : (s.fresh).uart = s.uart := rfl
@[simp] theorem State.fresh_tap : (s.fresh).tap = s.tap := rfl

@[simp] theorem State.emit_pending (o : Output) : (s.emit o).pending = s.pending := rfl
@[simp] theorem State.emit_freeCtr (o : Output) : (s.emit o).freeCtr = s.freeCtr := rfl
@[simp] theorem State.emit_part (o : Output) : (s.emit o).part = s.part := rfl
@[simp] theorem State.emit_regs (o : Output) : (s.emit o).regs = s.regs := rfl
@[simp] theorem State.emit_mem (o : Output) : (s.emit o).mem = s.mem := rfl
@[simp] theorem State.emit_ecc (o : Output) : (s.emit o).ecc = s.ecc := rfl
@[simp] theorem State.emit_evq (o : Output) : (s.emit o).evq = s.evq := rfl
@[simp] theorem State.emit_msiHeld (o : Output) : (s.emit o).msiHeld = s.msiHeld := rfl
@[simp] theorem State.emit_tickCopy (o : Output) : (s.emit o).tickCopy = s.tickCopy := rfl
@[simp] theorem State.emit_tb (o : Output) : (s.emit o).tb = s.tb := rfl
@[simp] theorem State.emit_enc (o : Output) : (s.emit o).enc = s.enc := rfl
@[simp] theorem State.emit_snaps (o : Output) : (s.emit o).snaps = s.snaps := rfl
@[simp] theorem State.emit_hop (o : Output) : (s.emit o).hop = s.hop := rfl
@[simp] theorem State.emit_stores (o : Output) : (s.emit o).stores = s.stores := rfl
@[simp] theorem State.emit_pwm (o : Output) : (s.emit o).pwm = s.pwm := rfl
@[simp] theorem State.emit_cap (o : Output) : (s.emit o).cap = s.cap := rfl
@[simp] theorem State.emit_qdAt (o : Output) : (s.emit o).qdAt = s.qdAt := rfl
@[simp] theorem State.emit_sect (o : Output) : (s.emit o).sect = s.sect := rfl
@[simp] theorem State.emit_tickVals (o : Output) : (s.emit o).tickVals = s.tickVals := rfl
@[simp] theorem State.emit_rr (o : Output) : (s.emit o).rr = s.rr := rfl
@[simp] theorem State.emit_rrAsk (o : Output) : (s.emit o).rrAsk = s.rrAsk := rfl
@[simp] theorem State.emit_eng (o : Output) : (s.emit o).eng = s.eng := rfl
@[simp] theorem State.emit_chans (o : Output) : (s.emit o).chans = s.chans := rfl
@[simp] theorem State.emit_rb (o : Output) : (s.emit o).rb = s.rb := rfl
@[simp] theorem State.emit_aq (o : Output) : (s.emit o).aq = s.aq := rfl
@[simp] theorem State.emit_flog (o : Output) : (s.emit o).flog = s.flog := rfl
@[simp] theorem State.emit_baySw (o : Output) : (s.emit o).baySw = s.baySw := rfl
@[simp] theorem State.emit_rcal (o : Output) : (s.emit o).rcal = s.rcal := rfl
@[simp] theorem State.emit_adc (o : Output) : (s.emit o).adc = s.adc := rfl
@[simp] theorem State.emit_cmp (o : Output) : (s.emit o).cmp = s.cmp := rfl
@[simp] theorem State.emit_dac (o : Output) : (s.emit o).dac = s.dac := rfl
@[simp] theorem State.emit_fab (o : Output) : (s.emit o).fab = s.fab := rfl
@[simp] theorem State.emit_ffs (o : Output) : (s.emit o).ffs = s.ffs := rfl
@[simp] theorem State.emit_dmaTrig (o : Output) : (s.emit o).dmaTrig = s.dmaTrig := rfl
@[simp] theorem State.emit_wipe (o : Output) : (s.emit o).wipe = s.wipe := rfl
@[simp] theorem State.emit_attar (o : Output) : (s.emit o).attar = s.attar := rfl
@[simp] theorem State.emit_strobes (o : Output) : (s.emit o).strobes = s.strobes := rfl
@[simp] theorem State.emit_pwr (o : Output) : (s.emit o).pwr = s.pwr := rfl
@[simp] theorem State.emit_pcie (o : Output) : (s.emit o).pcie = s.pcie := rfl
@[simp] theorem State.emit_sil (o : Output) : (s.emit o).sil = s.sil := rfl
@[simp] theorem State.emit_actOut (o : Output) : (s.emit o).actOut = s.actOut := rfl
@[simp] theorem State.emit_actAt (o : Output) : (s.emit o).actAt = s.actAt := rfl
@[simp] theorem State.emit_chOut (o : Output) : (s.emit o).chOut = s.chOut := rfl
@[simp] theorem State.emit_pinDef (o : Output) : (s.emit o).pinDef = s.pinDef := rfl
@[simp] theorem State.emit_pinRel (o : Output) : (s.emit o).pinRel = s.pinRel := rfl
@[simp] theorem State.emit_clearq (o : Output) : (s.emit o).clearq = s.clearq := rfl
@[simp] theorem State.emit_wbq (o : Output) : (s.emit o).wbq = s.wbq := rfl
@[simp] theorem State.emit_pins (o : Output) : (s.emit o).pins = s.pins := rfl
@[simp] theorem State.emit_keep (o : Output) : (s.emit o).keep = s.keep := rfl
@[simp] theorem State.emit_dmaAbort (o : Output) : (s.emit o).dmaAbort = s.dmaAbort := rfl
@[simp] theorem State.emit_lines (o : Output) : (s.emit o).lines = s.lines := rfl
@[simp] theorem State.emit_nodes (o : Output) : (s.emit o).nodes = s.nodes := rfl
@[simp] theorem State.emit_pair (o : Output) : (s.emit o).pair = s.pair := rfl
@[simp] theorem State.emit_lc (o : Output) : (s.emit o).lc = s.lc := rfl
@[simp] theorem State.emit_loader (o : Output) : (s.emit o).loader = s.loader := rfl
@[simp] theorem State.emit_cfgmem (o : Output) : (s.emit o).cfgmem = s.cfgmem := rfl
@[simp] theorem State.emit_cfgFlip (o : Output) : (s.emit o).cfgFlip = s.cfgFlip := rfl
@[simp] theorem State.emit_scrub (o : Output) : (s.emit o).scrub = s.scrub := rfl
@[simp] theorem State.emit_safe (o : Output) : (s.emit o).safe = s.safe := rfl
@[simp] theorem State.emit_ist (o : Output) : (s.emit o).ist = s.ist := rfl
@[simp] theorem State.emit_snap (o : Output) : (s.emit o).snap = s.snap := rfl
@[simp] theorem State.emit_can (o : Output) : (s.emit o).can = s.can := rfl
@[simp] theorem State.emit_spi (o : Output) : (s.emit o).spi = s.spi := rfl
@[simp] theorem State.emit_i2c (o : Output) : (s.emit o).i2c = s.i2c := rfl
@[simp] theorem State.emit_uart (o : Output) : (s.emit o).uart = s.uart := rfl
@[simp] theorem State.emit_tap (o : Output) : (s.emit o).tap = s.tap := rfl

@[simp] theorem State.setByte_pending (a : Nat) (b : Byte) : (s.setByte a b).pending = s.pending := rfl
@[simp] theorem State.setByte_outbox (a : Nat) (b : Byte) : (s.setByte a b).outbox = s.outbox := rfl
@[simp] theorem State.setByte_freeCtr (a : Nat) (b : Byte) : (s.setByte a b).freeCtr = s.freeCtr := rfl
@[simp] theorem State.setByte_part (a : Nat) (b : Byte) : (s.setByte a b).part = s.part := rfl
@[simp] theorem State.setByte_regs (a : Nat) (b : Byte) : (s.setByte a b).regs = s.regs := rfl
@[simp] theorem State.setByte_ecc (a : Nat) (b : Byte) : (s.setByte a b).ecc = s.ecc := rfl
@[simp] theorem State.setByte_evq (a : Nat) (b : Byte) : (s.setByte a b).evq = s.evq := rfl
@[simp] theorem State.setByte_msiHeld (a : Nat) (b : Byte) : (s.setByte a b).msiHeld = s.msiHeld := rfl
@[simp] theorem State.setByte_tickCopy (a : Nat) (b : Byte) : (s.setByte a b).tickCopy = s.tickCopy := rfl
@[simp] theorem State.setByte_tb (a : Nat) (b : Byte) : (s.setByte a b).tb = s.tb := rfl
@[simp] theorem State.setByte_enc (a : Nat) (b : Byte) : (s.setByte a b).enc = s.enc := rfl
@[simp] theorem State.setByte_snaps (a : Nat) (b : Byte) : (s.setByte a b).snaps = s.snaps := rfl
@[simp] theorem State.setByte_hop (a : Nat) (b : Byte) : (s.setByte a b).hop = s.hop := rfl
@[simp] theorem State.setByte_stores (a : Nat) (b : Byte) : (s.setByte a b).stores = s.stores := rfl
@[simp] theorem State.setByte_pwm (a : Nat) (b : Byte) : (s.setByte a b).pwm = s.pwm := rfl
@[simp] theorem State.setByte_cap (a : Nat) (b : Byte) : (s.setByte a b).cap = s.cap := rfl
@[simp] theorem State.setByte_qdAt (a : Nat) (b : Byte) : (s.setByte a b).qdAt = s.qdAt := rfl
@[simp] theorem State.setByte_sect (a : Nat) (b : Byte) : (s.setByte a b).sect = s.sect := rfl
@[simp] theorem State.setByte_tickVals (a : Nat) (b : Byte) : (s.setByte a b).tickVals = s.tickVals := rfl
@[simp] theorem State.setByte_rr (a : Nat) (b : Byte) : (s.setByte a b).rr = s.rr := rfl
@[simp] theorem State.setByte_rrAsk (a : Nat) (b : Byte) : (s.setByte a b).rrAsk = s.rrAsk := rfl
@[simp] theorem State.setByte_eng (a : Nat) (b : Byte) : (s.setByte a b).eng = s.eng := rfl
@[simp] theorem State.setByte_chans (a : Nat) (b : Byte) : (s.setByte a b).chans = s.chans := rfl
@[simp] theorem State.setByte_rb (a : Nat) (b : Byte) : (s.setByte a b).rb = s.rb := rfl
@[simp] theorem State.setByte_aq (a : Nat) (b : Byte) : (s.setByte a b).aq = s.aq := rfl
@[simp] theorem State.setByte_flog (a : Nat) (b : Byte) : (s.setByte a b).flog = s.flog := rfl
@[simp] theorem State.setByte_baySw (a : Nat) (b : Byte) : (s.setByte a b).baySw = s.baySw := rfl
@[simp] theorem State.setByte_rcal (a : Nat) (b : Byte) : (s.setByte a b).rcal = s.rcal := rfl
@[simp] theorem State.setByte_adc (a : Nat) (b : Byte) : (s.setByte a b).adc = s.adc := rfl
@[simp] theorem State.setByte_cmp (a : Nat) (b : Byte) : (s.setByte a b).cmp = s.cmp := rfl
@[simp] theorem State.setByte_dac (a : Nat) (b : Byte) : (s.setByte a b).dac = s.dac := rfl
@[simp] theorem State.setByte_fab (a : Nat) (b : Byte) : (s.setByte a b).fab = s.fab := rfl
@[simp] theorem State.setByte_ffs (a : Nat) (b : Byte) : (s.setByte a b).ffs = s.ffs := rfl
@[simp] theorem State.setByte_dmaTrig (a : Nat) (b : Byte) : (s.setByte a b).dmaTrig = s.dmaTrig := rfl
@[simp] theorem State.setByte_wipe (a : Nat) (b : Byte) : (s.setByte a b).wipe = s.wipe := rfl
@[simp] theorem State.setByte_attar (a : Nat) (b : Byte) : (s.setByte a b).attar = s.attar := rfl
@[simp] theorem State.setByte_strobes (a : Nat) (b : Byte) : (s.setByte a b).strobes = s.strobes := rfl
@[simp] theorem State.setByte_pwr (a : Nat) (b : Byte) : (s.setByte a b).pwr = s.pwr := rfl
@[simp] theorem State.setByte_pcie (a : Nat) (b : Byte) : (s.setByte a b).pcie = s.pcie := rfl
@[simp] theorem State.setByte_sil (a : Nat) (b : Byte) : (s.setByte a b).sil = s.sil := rfl
@[simp] theorem State.setByte_actOut (a : Nat) (b : Byte) : (s.setByte a b).actOut = s.actOut := rfl
@[simp] theorem State.setByte_actAt (a : Nat) (b : Byte) : (s.setByte a b).actAt = s.actAt := rfl
@[simp] theorem State.setByte_chOut (a : Nat) (b : Byte) : (s.setByte a b).chOut = s.chOut := rfl
@[simp] theorem State.setByte_pinDef (a : Nat) (b : Byte) : (s.setByte a b).pinDef = s.pinDef := rfl
@[simp] theorem State.setByte_pinRel (a : Nat) (b : Byte) : (s.setByte a b).pinRel = s.pinRel := rfl
@[simp] theorem State.setByte_clearq (a : Nat) (b : Byte) : (s.setByte a b).clearq = s.clearq := rfl
@[simp] theorem State.setByte_wbq (a : Nat) (b : Byte) : (s.setByte a b).wbq = s.wbq := rfl
@[simp] theorem State.setByte_pins (a : Nat) (b : Byte) : (s.setByte a b).pins = s.pins := rfl
@[simp] theorem State.setByte_keep (a : Nat) (b : Byte) : (s.setByte a b).keep = s.keep := rfl
@[simp] theorem State.setByte_dmaAbort (a : Nat) (b : Byte) : (s.setByte a b).dmaAbort = s.dmaAbort := rfl
@[simp] theorem State.setByte_lines (a : Nat) (b : Byte) : (s.setByte a b).lines = s.lines := rfl
@[simp] theorem State.setByte_nodes (a : Nat) (b : Byte) : (s.setByte a b).nodes = s.nodes := rfl
@[simp] theorem State.setByte_pair (a : Nat) (b : Byte) : (s.setByte a b).pair = s.pair := rfl
@[simp] theorem State.setByte_lc (a : Nat) (b : Byte) : (s.setByte a b).lc = s.lc := rfl
@[simp] theorem State.setByte_loader (a : Nat) (b : Byte) : (s.setByte a b).loader = s.loader := rfl
@[simp] theorem State.setByte_cfgmem (a : Nat) (b : Byte) : (s.setByte a b).cfgmem = s.cfgmem := rfl
@[simp] theorem State.setByte_cfgFlip (a : Nat) (b : Byte) : (s.setByte a b).cfgFlip = s.cfgFlip := rfl
@[simp] theorem State.setByte_scrub (a : Nat) (b : Byte) : (s.setByte a b).scrub = s.scrub := rfl
@[simp] theorem State.setByte_safe (a : Nat) (b : Byte) : (s.setByte a b).safe = s.safe := rfl
@[simp] theorem State.setByte_ist (a : Nat) (b : Byte) : (s.setByte a b).ist = s.ist := rfl
@[simp] theorem State.setByte_snap (a : Nat) (b : Byte) : (s.setByte a b).snap = s.snap := rfl
@[simp] theorem State.setByte_can (a : Nat) (b : Byte) : (s.setByte a b).can = s.can := rfl
@[simp] theorem State.setByte_spi (a : Nat) (b : Byte) : (s.setByte a b).spi = s.spi := rfl
@[simp] theorem State.setByte_i2c (a : Nat) (b : Byte) : (s.setByte a b).i2c = s.i2c := rfl
@[simp] theorem State.setByte_uart (a : Nat) (b : Byte) : (s.setByte a b).uart = s.uart := rfl
@[simp] theorem State.setByte_tap (a : Nat) (b : Byte) : (s.setByte a b).tap = s.tap := rfl

@[simp] theorem State.setFlips_pending (a m : Nat) : (s.setFlips a m).pending = s.pending := rfl
@[simp] theorem State.setFlips_outbox (a m : Nat) : (s.setFlips a m).outbox = s.outbox := rfl
@[simp] theorem State.setFlips_freeCtr (a m : Nat) : (s.setFlips a m).freeCtr = s.freeCtr := rfl
@[simp] theorem State.setFlips_part (a m : Nat) : (s.setFlips a m).part = s.part := rfl
@[simp] theorem State.setFlips_regs (a m : Nat) : (s.setFlips a m).regs = s.regs := rfl
@[simp] theorem State.setFlips_mem (a m : Nat) : (s.setFlips a m).mem = s.mem := rfl
@[simp] theorem State.setFlips_evq (a m : Nat) : (s.setFlips a m).evq = s.evq := rfl
@[simp] theorem State.setFlips_msiHeld (a m : Nat) : (s.setFlips a m).msiHeld = s.msiHeld := rfl
@[simp] theorem State.setFlips_tickCopy (a m : Nat) : (s.setFlips a m).tickCopy = s.tickCopy := rfl
@[simp] theorem State.setFlips_tb (a m : Nat) : (s.setFlips a m).tb = s.tb := rfl
@[simp] theorem State.setFlips_enc (a m : Nat) : (s.setFlips a m).enc = s.enc := rfl
@[simp] theorem State.setFlips_snaps (a m : Nat) : (s.setFlips a m).snaps = s.snaps := rfl
@[simp] theorem State.setFlips_hop (a m : Nat) : (s.setFlips a m).hop = s.hop := rfl
@[simp] theorem State.setFlips_stores (a m : Nat) : (s.setFlips a m).stores = s.stores := rfl
@[simp] theorem State.setFlips_pwm (a m : Nat) : (s.setFlips a m).pwm = s.pwm := rfl
@[simp] theorem State.setFlips_cap (a m : Nat) : (s.setFlips a m).cap = s.cap := rfl
@[simp] theorem State.setFlips_qdAt (a m : Nat) : (s.setFlips a m).qdAt = s.qdAt := rfl
@[simp] theorem State.setFlips_sect (a m : Nat) : (s.setFlips a m).sect = s.sect := rfl
@[simp] theorem State.setFlips_tickVals (a m : Nat) : (s.setFlips a m).tickVals = s.tickVals := rfl
@[simp] theorem State.setFlips_rr (a m : Nat) : (s.setFlips a m).rr = s.rr := rfl
@[simp] theorem State.setFlips_rrAsk (a m : Nat) : (s.setFlips a m).rrAsk = s.rrAsk := rfl
@[simp] theorem State.setFlips_eng (a m : Nat) : (s.setFlips a m).eng = s.eng := rfl
@[simp] theorem State.setFlips_chans (a m : Nat) : (s.setFlips a m).chans = s.chans := rfl
@[simp] theorem State.setFlips_rb (a m : Nat) : (s.setFlips a m).rb = s.rb := rfl
@[simp] theorem State.setFlips_aq (a m : Nat) : (s.setFlips a m).aq = s.aq := rfl
@[simp] theorem State.setFlips_flog (a m : Nat) : (s.setFlips a m).flog = s.flog := rfl
@[simp] theorem State.setFlips_baySw (a m : Nat) : (s.setFlips a m).baySw = s.baySw := rfl
@[simp] theorem State.setFlips_rcal (a m : Nat) : (s.setFlips a m).rcal = s.rcal := rfl
@[simp] theorem State.setFlips_adc (a m : Nat) : (s.setFlips a m).adc = s.adc := rfl
@[simp] theorem State.setFlips_cmp (a m : Nat) : (s.setFlips a m).cmp = s.cmp := rfl
@[simp] theorem State.setFlips_dac (a m : Nat) : (s.setFlips a m).dac = s.dac := rfl
@[simp] theorem State.setFlips_fab (a m : Nat) : (s.setFlips a m).fab = s.fab := rfl
@[simp] theorem State.setFlips_ffs (a m : Nat) : (s.setFlips a m).ffs = s.ffs := rfl
@[simp] theorem State.setFlips_dmaTrig (a m : Nat) : (s.setFlips a m).dmaTrig = s.dmaTrig := rfl
@[simp] theorem State.setFlips_wipe (a m : Nat) : (s.setFlips a m).wipe = s.wipe := rfl
@[simp] theorem State.setFlips_attar (a m : Nat) : (s.setFlips a m).attar = s.attar := rfl
@[simp] theorem State.setFlips_strobes (a m : Nat) : (s.setFlips a m).strobes = s.strobes := rfl
@[simp] theorem State.setFlips_pwr (a m : Nat) : (s.setFlips a m).pwr = s.pwr := rfl
@[simp] theorem State.setFlips_pcie (a m : Nat) : (s.setFlips a m).pcie = s.pcie := rfl
@[simp] theorem State.setFlips_sil (a m : Nat) : (s.setFlips a m).sil = s.sil := rfl
@[simp] theorem State.setFlips_actOut (a m : Nat) : (s.setFlips a m).actOut = s.actOut := rfl
@[simp] theorem State.setFlips_actAt (a m : Nat) : (s.setFlips a m).actAt = s.actAt := rfl
@[simp] theorem State.setFlips_chOut (a m : Nat) : (s.setFlips a m).chOut = s.chOut := rfl
@[simp] theorem State.setFlips_pinDef (a m : Nat) : (s.setFlips a m).pinDef = s.pinDef := rfl
@[simp] theorem State.setFlips_pinRel (a m : Nat) : (s.setFlips a m).pinRel = s.pinRel := rfl
@[simp] theorem State.setFlips_clearq (a m : Nat) : (s.setFlips a m).clearq = s.clearq := rfl
@[simp] theorem State.setFlips_wbq (a m : Nat) : (s.setFlips a m).wbq = s.wbq := rfl
@[simp] theorem State.setFlips_pins (a m : Nat) : (s.setFlips a m).pins = s.pins := rfl
@[simp] theorem State.setFlips_keep (a m : Nat) : (s.setFlips a m).keep = s.keep := rfl
@[simp] theorem State.setFlips_dmaAbort (a m : Nat) : (s.setFlips a m).dmaAbort = s.dmaAbort := rfl
@[simp] theorem State.setFlips_lines (a m : Nat) : (s.setFlips a m).lines = s.lines := rfl
@[simp] theorem State.setFlips_nodes (a m : Nat) : (s.setFlips a m).nodes = s.nodes := rfl
@[simp] theorem State.setFlips_pair (a m : Nat) : (s.setFlips a m).pair = s.pair := rfl
@[simp] theorem State.setFlips_lc (a m : Nat) : (s.setFlips a m).lc = s.lc := rfl
@[simp] theorem State.setFlips_loader (a m : Nat) : (s.setFlips a m).loader = s.loader := rfl
@[simp] theorem State.setFlips_cfgmem (a m : Nat) : (s.setFlips a m).cfgmem = s.cfgmem := rfl
@[simp] theorem State.setFlips_cfgFlip (a m : Nat) : (s.setFlips a m).cfgFlip = s.cfgFlip := rfl
@[simp] theorem State.setFlips_scrub (a m : Nat) : (s.setFlips a m).scrub = s.scrub := rfl
@[simp] theorem State.setFlips_safe (a m : Nat) : (s.setFlips a m).safe = s.safe := rfl
@[simp] theorem State.setFlips_ist (a m : Nat) : (s.setFlips a m).ist = s.ist := rfl
@[simp] theorem State.setFlips_snap (a m : Nat) : (s.setFlips a m).snap = s.snap := rfl
@[simp] theorem State.setFlips_can (a m : Nat) : (s.setFlips a m).can = s.can := rfl
@[simp] theorem State.setFlips_spi (a m : Nat) : (s.setFlips a m).spi = s.spi := rfl
@[simp] theorem State.setFlips_i2c (a m : Nat) : (s.setFlips a m).i2c = s.i2c := rfl
@[simp] theorem State.setFlips_uart (a m : Nat) : (s.setFlips a m).uart = s.uart := rfl
@[simp] theorem State.setFlips_tap (a m : Nat) : (s.setFlips a m).tap = s.tap := rfl

@[simp] theorem State.setStore_pending (k : Nat) (x : Store) : (s.setStore k x).pending = s.pending := rfl
@[simp] theorem State.setStore_outbox (k : Nat) (x : Store) : (s.setStore k x).outbox = s.outbox := rfl
@[simp] theorem State.setStore_freeCtr (k : Nat) (x : Store) : (s.setStore k x).freeCtr = s.freeCtr := rfl
@[simp] theorem State.setStore_part (k : Nat) (x : Store) : (s.setStore k x).part = s.part := rfl
@[simp] theorem State.setStore_regs (k : Nat) (x : Store) : (s.setStore k x).regs = s.regs := rfl
@[simp] theorem State.setStore_mem (k : Nat) (x : Store) : (s.setStore k x).mem = s.mem := rfl
@[simp] theorem State.setStore_ecc (k : Nat) (x : Store) : (s.setStore k x).ecc = s.ecc := rfl
@[simp] theorem State.setStore_evq (k : Nat) (x : Store) : (s.setStore k x).evq = s.evq := rfl
@[simp] theorem State.setStore_msiHeld (k : Nat) (x : Store) : (s.setStore k x).msiHeld = s.msiHeld := rfl
@[simp] theorem State.setStore_tickCopy (k : Nat) (x : Store) : (s.setStore k x).tickCopy = s.tickCopy := rfl
@[simp] theorem State.setStore_tb (k : Nat) (x : Store) : (s.setStore k x).tb = s.tb := rfl
@[simp] theorem State.setStore_enc (k : Nat) (x : Store) : (s.setStore k x).enc = s.enc := rfl
@[simp] theorem State.setStore_snaps (k : Nat) (x : Store) : (s.setStore k x).snaps = s.snaps := rfl
@[simp] theorem State.setStore_hop (k : Nat) (x : Store) : (s.setStore k x).hop = s.hop := rfl
@[simp] theorem State.setStore_pwm (k : Nat) (x : Store) : (s.setStore k x).pwm = s.pwm := rfl
@[simp] theorem State.setStore_cap (k : Nat) (x : Store) : (s.setStore k x).cap = s.cap := rfl
@[simp] theorem State.setStore_qdAt (k : Nat) (x : Store) : (s.setStore k x).qdAt = s.qdAt := rfl
@[simp] theorem State.setStore_sect (k : Nat) (x : Store) : (s.setStore k x).sect = s.sect := rfl
@[simp] theorem State.setStore_tickVals (k : Nat) (x : Store) : (s.setStore k x).tickVals = s.tickVals := rfl
@[simp] theorem State.setStore_rr (k : Nat) (x : Store) : (s.setStore k x).rr = s.rr := rfl
@[simp] theorem State.setStore_rrAsk (k : Nat) (x : Store) : (s.setStore k x).rrAsk = s.rrAsk := rfl
@[simp] theorem State.setStore_eng (k : Nat) (x : Store) : (s.setStore k x).eng = s.eng := rfl
@[simp] theorem State.setStore_chans (k : Nat) (x : Store) : (s.setStore k x).chans = s.chans := rfl
@[simp] theorem State.setStore_rb (k : Nat) (x : Store) : (s.setStore k x).rb = s.rb := rfl
@[simp] theorem State.setStore_aq (k : Nat) (x : Store) : (s.setStore k x).aq = s.aq := rfl
@[simp] theorem State.setStore_flog (k : Nat) (x : Store) : (s.setStore k x).flog = s.flog := rfl
@[simp] theorem State.setStore_baySw (k : Nat) (x : Store) : (s.setStore k x).baySw = s.baySw := rfl
@[simp] theorem State.setStore_rcal (k : Nat) (x : Store) : (s.setStore k x).rcal = s.rcal := rfl
@[simp] theorem State.setStore_adc (k : Nat) (x : Store) : (s.setStore k x).adc = s.adc := rfl
@[simp] theorem State.setStore_cmp (k : Nat) (x : Store) : (s.setStore k x).cmp = s.cmp := rfl
@[simp] theorem State.setStore_dac (k : Nat) (x : Store) : (s.setStore k x).dac = s.dac := rfl
@[simp] theorem State.setStore_fab (k : Nat) (x : Store) : (s.setStore k x).fab = s.fab := rfl
@[simp] theorem State.setStore_ffs (k : Nat) (x : Store) : (s.setStore k x).ffs = s.ffs := rfl
@[simp] theorem State.setStore_dmaTrig (k : Nat) (x : Store) : (s.setStore k x).dmaTrig = s.dmaTrig := rfl
@[simp] theorem State.setStore_wipe (k : Nat) (x : Store) : (s.setStore k x).wipe = s.wipe := rfl
@[simp] theorem State.setStore_attar (k : Nat) (x : Store) : (s.setStore k x).attar = s.attar := rfl
@[simp] theorem State.setStore_strobes (k : Nat) (x : Store) : (s.setStore k x).strobes = s.strobes := rfl
@[simp] theorem State.setStore_pwr (k : Nat) (x : Store) : (s.setStore k x).pwr = s.pwr := rfl
@[simp] theorem State.setStore_pcie (k : Nat) (x : Store) : (s.setStore k x).pcie = s.pcie := rfl
@[simp] theorem State.setStore_sil (k : Nat) (x : Store) : (s.setStore k x).sil = s.sil := rfl
@[simp] theorem State.setStore_actOut (k : Nat) (x : Store) : (s.setStore k x).actOut = s.actOut := rfl
@[simp] theorem State.setStore_actAt (k : Nat) (x : Store) : (s.setStore k x).actAt = s.actAt := rfl
@[simp] theorem State.setStore_chOut (k : Nat) (x : Store) : (s.setStore k x).chOut = s.chOut := rfl
@[simp] theorem State.setStore_pinDef (k : Nat) (x : Store) : (s.setStore k x).pinDef = s.pinDef := rfl
@[simp] theorem State.setStore_pinRel (k : Nat) (x : Store) : (s.setStore k x).pinRel = s.pinRel := rfl
@[simp] theorem State.setStore_clearq (k : Nat) (x : Store) : (s.setStore k x).clearq = s.clearq := rfl
@[simp] theorem State.setStore_wbq (k : Nat) (x : Store) : (s.setStore k x).wbq = s.wbq := rfl
@[simp] theorem State.setStore_pins (k : Nat) (x : Store) : (s.setStore k x).pins = s.pins := rfl
@[simp] theorem State.setStore_keep (k : Nat) (x : Store) : (s.setStore k x).keep = s.keep := rfl
@[simp] theorem State.setStore_dmaAbort (k : Nat) (x : Store) : (s.setStore k x).dmaAbort = s.dmaAbort := rfl
@[simp] theorem State.setStore_lines (k : Nat) (x : Store) : (s.setStore k x).lines = s.lines := rfl
@[simp] theorem State.setStore_nodes (k : Nat) (x : Store) : (s.setStore k x).nodes = s.nodes := rfl
@[simp] theorem State.setStore_pair (k : Nat) (x : Store) : (s.setStore k x).pair = s.pair := rfl
@[simp] theorem State.setStore_lc (k : Nat) (x : Store) : (s.setStore k x).lc = s.lc := rfl
@[simp] theorem State.setStore_loader (k : Nat) (x : Store) : (s.setStore k x).loader = s.loader := rfl
@[simp] theorem State.setStore_cfgmem (k : Nat) (x : Store) : (s.setStore k x).cfgmem = s.cfgmem := rfl
@[simp] theorem State.setStore_cfgFlip (k : Nat) (x : Store) : (s.setStore k x).cfgFlip = s.cfgFlip := rfl
@[simp] theorem State.setStore_scrub (k : Nat) (x : Store) : (s.setStore k x).scrub = s.scrub := rfl
@[simp] theorem State.setStore_safe (k : Nat) (x : Store) : (s.setStore k x).safe = s.safe := rfl
@[simp] theorem State.setStore_ist (k : Nat) (x : Store) : (s.setStore k x).ist = s.ist := rfl
@[simp] theorem State.setStore_snap (k : Nat) (x : Store) : (s.setStore k x).snap = s.snap := rfl
@[simp] theorem State.setStore_can (k : Nat) (x : Store) : (s.setStore k x).can = s.can := rfl
@[simp] theorem State.setStore_spi (k : Nat) (x : Store) : (s.setStore k x).spi = s.spi := rfl
@[simp] theorem State.setStore_i2c (k : Nat) (x : Store) : (s.setStore k x).i2c = s.i2c := rfl
@[simp] theorem State.setStore_uart (k : Nat) (x : Store) : (s.setStore k x).uart = s.uart := rfl
@[simp] theorem State.setStore_tap (k : Nat) (x : Store) : (s.setStore k x).tap = s.tap := rfl

@[simp] theorem State.setEng_pending (t : Nat) (e : Engine) : (s.setEng t e).pending = s.pending := rfl
@[simp] theorem State.setEng_outbox (t : Nat) (e : Engine) : (s.setEng t e).outbox = s.outbox := rfl
@[simp] theorem State.setEng_freeCtr (t : Nat) (e : Engine) : (s.setEng t e).freeCtr = s.freeCtr := rfl
@[simp] theorem State.setEng_part (t : Nat) (e : Engine) : (s.setEng t e).part = s.part := rfl
@[simp] theorem State.setEng_regs (t : Nat) (e : Engine) : (s.setEng t e).regs = s.regs := rfl
@[simp] theorem State.setEng_mem (t : Nat) (e : Engine) : (s.setEng t e).mem = s.mem := rfl
@[simp] theorem State.setEng_ecc (t : Nat) (e : Engine) : (s.setEng t e).ecc = s.ecc := rfl
@[simp] theorem State.setEng_evq (t : Nat) (e : Engine) : (s.setEng t e).evq = s.evq := rfl
@[simp] theorem State.setEng_msiHeld (t : Nat) (e : Engine) : (s.setEng t e).msiHeld = s.msiHeld := rfl
@[simp] theorem State.setEng_tickCopy (t : Nat) (e : Engine) : (s.setEng t e).tickCopy = s.tickCopy := rfl
@[simp] theorem State.setEng_tb (t : Nat) (e : Engine) : (s.setEng t e).tb = s.tb := rfl
@[simp] theorem State.setEng_enc (t : Nat) (e : Engine) : (s.setEng t e).enc = s.enc := rfl
@[simp] theorem State.setEng_snaps (t : Nat) (e : Engine) : (s.setEng t e).snaps = s.snaps := rfl
@[simp] theorem State.setEng_hop (t : Nat) (e : Engine) : (s.setEng t e).hop = s.hop := rfl
@[simp] theorem State.setEng_stores (t : Nat) (e : Engine) : (s.setEng t e).stores = s.stores := rfl
@[simp] theorem State.setEng_pwm (t : Nat) (e : Engine) : (s.setEng t e).pwm = s.pwm := rfl
@[simp] theorem State.setEng_cap (t : Nat) (e : Engine) : (s.setEng t e).cap = s.cap := rfl
@[simp] theorem State.setEng_qdAt (t : Nat) (e : Engine) : (s.setEng t e).qdAt = s.qdAt := rfl
@[simp] theorem State.setEng_sect (t : Nat) (e : Engine) : (s.setEng t e).sect = s.sect := rfl
@[simp] theorem State.setEng_tickVals (t : Nat) (e : Engine) : (s.setEng t e).tickVals = s.tickVals := rfl
@[simp] theorem State.setEng_rr (t : Nat) (e : Engine) : (s.setEng t e).rr = s.rr := rfl
@[simp] theorem State.setEng_rrAsk (t : Nat) (e : Engine) : (s.setEng t e).rrAsk = s.rrAsk := rfl
@[simp] theorem State.setEng_chans (t : Nat) (e : Engine) : (s.setEng t e).chans = s.chans := rfl
@[simp] theorem State.setEng_rb (t : Nat) (e : Engine) : (s.setEng t e).rb = s.rb := rfl
@[simp] theorem State.setEng_aq (t : Nat) (e : Engine) : (s.setEng t e).aq = s.aq := rfl
@[simp] theorem State.setEng_flog (t : Nat) (e : Engine) : (s.setEng t e).flog = s.flog := rfl
@[simp] theorem State.setEng_baySw (t : Nat) (e : Engine) : (s.setEng t e).baySw = s.baySw := rfl
@[simp] theorem State.setEng_rcal (t : Nat) (e : Engine) : (s.setEng t e).rcal = s.rcal := rfl
@[simp] theorem State.setEng_adc (t : Nat) (e : Engine) : (s.setEng t e).adc = s.adc := rfl
@[simp] theorem State.setEng_cmp (t : Nat) (e : Engine) : (s.setEng t e).cmp = s.cmp := rfl
@[simp] theorem State.setEng_dac (t : Nat) (e : Engine) : (s.setEng t e).dac = s.dac := rfl
@[simp] theorem State.setEng_fab (t : Nat) (e : Engine) : (s.setEng t e).fab = s.fab := rfl
@[simp] theorem State.setEng_ffs (t : Nat) (e : Engine) : (s.setEng t e).ffs = s.ffs := rfl
@[simp] theorem State.setEng_dmaTrig (t : Nat) (e : Engine) : (s.setEng t e).dmaTrig = s.dmaTrig := rfl
@[simp] theorem State.setEng_wipe (t : Nat) (e : Engine) : (s.setEng t e).wipe = s.wipe := rfl
@[simp] theorem State.setEng_attar (t : Nat) (e : Engine) : (s.setEng t e).attar = s.attar := rfl
@[simp] theorem State.setEng_strobes (t : Nat) (e : Engine) : (s.setEng t e).strobes = s.strobes := rfl
@[simp] theorem State.setEng_pwr (t : Nat) (e : Engine) : (s.setEng t e).pwr = s.pwr := rfl
@[simp] theorem State.setEng_pcie (t : Nat) (e : Engine) : (s.setEng t e).pcie = s.pcie := rfl
@[simp] theorem State.setEng_sil (t : Nat) (e : Engine) : (s.setEng t e).sil = s.sil := rfl
@[simp] theorem State.setEng_actOut (t : Nat) (e : Engine) : (s.setEng t e).actOut = s.actOut := rfl
@[simp] theorem State.setEng_actAt (t : Nat) (e : Engine) : (s.setEng t e).actAt = s.actAt := rfl
@[simp] theorem State.setEng_chOut (t : Nat) (e : Engine) : (s.setEng t e).chOut = s.chOut := rfl
@[simp] theorem State.setEng_pinDef (t : Nat) (e : Engine) : (s.setEng t e).pinDef = s.pinDef := rfl
@[simp] theorem State.setEng_pinRel (t : Nat) (e : Engine) : (s.setEng t e).pinRel = s.pinRel := rfl
@[simp] theorem State.setEng_clearq (t : Nat) (e : Engine) : (s.setEng t e).clearq = s.clearq := rfl
@[simp] theorem State.setEng_wbq (t : Nat) (e : Engine) : (s.setEng t e).wbq = s.wbq := rfl
@[simp] theorem State.setEng_pins (t : Nat) (e : Engine) : (s.setEng t e).pins = s.pins := rfl
@[simp] theorem State.setEng_keep (t : Nat) (e : Engine) : (s.setEng t e).keep = s.keep := rfl
@[simp] theorem State.setEng_dmaAbort (t : Nat) (e : Engine) : (s.setEng t e).dmaAbort = s.dmaAbort := rfl
@[simp] theorem State.setEng_lines (t : Nat) (e : Engine) : (s.setEng t e).lines = s.lines := rfl
@[simp] theorem State.setEng_nodes (t : Nat) (e : Engine) : (s.setEng t e).nodes = s.nodes := rfl
@[simp] theorem State.setEng_pair (t : Nat) (e : Engine) : (s.setEng t e).pair = s.pair := rfl
@[simp] theorem State.setEng_lc (t : Nat) (e : Engine) : (s.setEng t e).lc = s.lc := rfl
@[simp] theorem State.setEng_loader (t : Nat) (e : Engine) : (s.setEng t e).loader = s.loader := rfl
@[simp] theorem State.setEng_cfgmem (t : Nat) (e : Engine) : (s.setEng t e).cfgmem = s.cfgmem := rfl
@[simp] theorem State.setEng_cfgFlip (t : Nat) (e : Engine) : (s.setEng t e).cfgFlip = s.cfgFlip := rfl
@[simp] theorem State.setEng_scrub (t : Nat) (e : Engine) : (s.setEng t e).scrub = s.scrub := rfl
@[simp] theorem State.setEng_safe (t : Nat) (e : Engine) : (s.setEng t e).safe = s.safe := rfl
@[simp] theorem State.setEng_ist (t : Nat) (e : Engine) : (s.setEng t e).ist = s.ist := rfl
@[simp] theorem State.setEng_snap (t : Nat) (e : Engine) : (s.setEng t e).snap = s.snap := rfl
@[simp] theorem State.setEng_can (t : Nat) (e : Engine) : (s.setEng t e).can = s.can := rfl
@[simp] theorem State.setEng_spi (t : Nat) (e : Engine) : (s.setEng t e).spi = s.spi := rfl
@[simp] theorem State.setEng_i2c (t : Nat) (e : Engine) : (s.setEng t e).i2c = s.i2c := rfl
@[simp] theorem State.setEng_uart (t : Nat) (e : Engine) : (s.setEng t e).uart = s.uart := rfl
@[simp] theorem State.setEng_tap (t : Nat) (e : Engine) : (s.setEng t e).tap = s.tap := rfl

@[simp] theorem State.setChan_pending (i : Nat) (c : Chan) : (s.setChan i c).pending = s.pending := rfl
@[simp] theorem State.setChan_outbox (i : Nat) (c : Chan) : (s.setChan i c).outbox = s.outbox := rfl
@[simp] theorem State.setChan_freeCtr (i : Nat) (c : Chan) : (s.setChan i c).freeCtr = s.freeCtr := rfl
@[simp] theorem State.setChan_part (i : Nat) (c : Chan) : (s.setChan i c).part = s.part := rfl
@[simp] theorem State.setChan_regs (i : Nat) (c : Chan) : (s.setChan i c).regs = s.regs := rfl
@[simp] theorem State.setChan_mem (i : Nat) (c : Chan) : (s.setChan i c).mem = s.mem := rfl
@[simp] theorem State.setChan_ecc (i : Nat) (c : Chan) : (s.setChan i c).ecc = s.ecc := rfl
@[simp] theorem State.setChan_evq (i : Nat) (c : Chan) : (s.setChan i c).evq = s.evq := rfl
@[simp] theorem State.setChan_msiHeld (i : Nat) (c : Chan) : (s.setChan i c).msiHeld = s.msiHeld := rfl
@[simp] theorem State.setChan_tickCopy (i : Nat) (c : Chan) : (s.setChan i c).tickCopy = s.tickCopy := rfl
@[simp] theorem State.setChan_tb (i : Nat) (c : Chan) : (s.setChan i c).tb = s.tb := rfl
@[simp] theorem State.setChan_enc (i : Nat) (c : Chan) : (s.setChan i c).enc = s.enc := rfl
@[simp] theorem State.setChan_snaps (i : Nat) (c : Chan) : (s.setChan i c).snaps = s.snaps := rfl
@[simp] theorem State.setChan_hop (i : Nat) (c : Chan) : (s.setChan i c).hop = s.hop := rfl
@[simp] theorem State.setChan_stores (i : Nat) (c : Chan) : (s.setChan i c).stores = s.stores := rfl
@[simp] theorem State.setChan_pwm (i : Nat) (c : Chan) : (s.setChan i c).pwm = s.pwm := rfl
@[simp] theorem State.setChan_cap (i : Nat) (c : Chan) : (s.setChan i c).cap = s.cap := rfl
@[simp] theorem State.setChan_qdAt (i : Nat) (c : Chan) : (s.setChan i c).qdAt = s.qdAt := rfl
@[simp] theorem State.setChan_sect (i : Nat) (c : Chan) : (s.setChan i c).sect = s.sect := rfl
@[simp] theorem State.setChan_tickVals (i : Nat) (c : Chan) : (s.setChan i c).tickVals = s.tickVals := rfl
@[simp] theorem State.setChan_rr (i : Nat) (c : Chan) : (s.setChan i c).rr = s.rr := rfl
@[simp] theorem State.setChan_rrAsk (i : Nat) (c : Chan) : (s.setChan i c).rrAsk = s.rrAsk := rfl
@[simp] theorem State.setChan_eng (i : Nat) (c : Chan) : (s.setChan i c).eng = s.eng := rfl
@[simp] theorem State.setChan_rb (i : Nat) (c : Chan) : (s.setChan i c).rb = s.rb := rfl
@[simp] theorem State.setChan_aq (i : Nat) (c : Chan) : (s.setChan i c).aq = s.aq := rfl
@[simp] theorem State.setChan_flog (i : Nat) (c : Chan) : (s.setChan i c).flog = s.flog := rfl
@[simp] theorem State.setChan_baySw (i : Nat) (c : Chan) : (s.setChan i c).baySw = s.baySw := rfl
@[simp] theorem State.setChan_rcal (i : Nat) (c : Chan) : (s.setChan i c).rcal = s.rcal := rfl
@[simp] theorem State.setChan_adc (i : Nat) (c : Chan) : (s.setChan i c).adc = s.adc := rfl
@[simp] theorem State.setChan_cmp (i : Nat) (c : Chan) : (s.setChan i c).cmp = s.cmp := rfl
@[simp] theorem State.setChan_dac (i : Nat) (c : Chan) : (s.setChan i c).dac = s.dac := rfl
@[simp] theorem State.setChan_fab (i : Nat) (c : Chan) : (s.setChan i c).fab = s.fab := rfl
@[simp] theorem State.setChan_ffs (i : Nat) (c : Chan) : (s.setChan i c).ffs = s.ffs := rfl
@[simp] theorem State.setChan_dmaTrig (i : Nat) (c : Chan) : (s.setChan i c).dmaTrig = s.dmaTrig := rfl
@[simp] theorem State.setChan_wipe (i : Nat) (c : Chan) : (s.setChan i c).wipe = s.wipe := rfl
@[simp] theorem State.setChan_attar (i : Nat) (c : Chan) : (s.setChan i c).attar = s.attar := rfl
@[simp] theorem State.setChan_strobes (i : Nat) (c : Chan) : (s.setChan i c).strobes = s.strobes := rfl
@[simp] theorem State.setChan_pwr (i : Nat) (c : Chan) : (s.setChan i c).pwr = s.pwr := rfl
@[simp] theorem State.setChan_pcie (i : Nat) (c : Chan) : (s.setChan i c).pcie = s.pcie := rfl
@[simp] theorem State.setChan_sil (i : Nat) (c : Chan) : (s.setChan i c).sil = s.sil := rfl
@[simp] theorem State.setChan_actOut (i : Nat) (c : Chan) : (s.setChan i c).actOut = s.actOut := rfl
@[simp] theorem State.setChan_actAt (i : Nat) (c : Chan) : (s.setChan i c).actAt = s.actAt := rfl
@[simp] theorem State.setChan_chOut (i : Nat) (c : Chan) : (s.setChan i c).chOut = s.chOut := rfl
@[simp] theorem State.setChan_pinDef (i : Nat) (c : Chan) : (s.setChan i c).pinDef = s.pinDef := rfl
@[simp] theorem State.setChan_pinRel (i : Nat) (c : Chan) : (s.setChan i c).pinRel = s.pinRel := rfl
@[simp] theorem State.setChan_clearq (i : Nat) (c : Chan) : (s.setChan i c).clearq = s.clearq := rfl
@[simp] theorem State.setChan_wbq (i : Nat) (c : Chan) : (s.setChan i c).wbq = s.wbq := rfl
@[simp] theorem State.setChan_pins (i : Nat) (c : Chan) : (s.setChan i c).pins = s.pins := rfl
@[simp] theorem State.setChan_keep (i : Nat) (c : Chan) : (s.setChan i c).keep = s.keep := rfl
@[simp] theorem State.setChan_dmaAbort (i : Nat) (c : Chan) : (s.setChan i c).dmaAbort = s.dmaAbort := rfl
@[simp] theorem State.setChan_lines (i : Nat) (c : Chan) : (s.setChan i c).lines = s.lines := rfl
@[simp] theorem State.setChan_nodes (i : Nat) (c : Chan) : (s.setChan i c).nodes = s.nodes := rfl
@[simp] theorem State.setChan_pair (i : Nat) (c : Chan) : (s.setChan i c).pair = s.pair := rfl
@[simp] theorem State.setChan_lc (i : Nat) (c : Chan) : (s.setChan i c).lc = s.lc := rfl
@[simp] theorem State.setChan_loader (i : Nat) (c : Chan) : (s.setChan i c).loader = s.loader := rfl
@[simp] theorem State.setChan_cfgmem (i : Nat) (c : Chan) : (s.setChan i c).cfgmem = s.cfgmem := rfl
@[simp] theorem State.setChan_cfgFlip (i : Nat) (c : Chan) : (s.setChan i c).cfgFlip = s.cfgFlip := rfl
@[simp] theorem State.setChan_scrub (i : Nat) (c : Chan) : (s.setChan i c).scrub = s.scrub := rfl
@[simp] theorem State.setChan_safe (i : Nat) (c : Chan) : (s.setChan i c).safe = s.safe := rfl
@[simp] theorem State.setChan_ist (i : Nat) (c : Chan) : (s.setChan i c).ist = s.ist := rfl
@[simp] theorem State.setChan_snap (i : Nat) (c : Chan) : (s.setChan i c).snap = s.snap := rfl
@[simp] theorem State.setChan_can (i : Nat) (c : Chan) : (s.setChan i c).can = s.can := rfl
@[simp] theorem State.setChan_spi (i : Nat) (c : Chan) : (s.setChan i c).spi = s.spi := rfl
@[simp] theorem State.setChan_i2c (i : Nat) (c : Chan) : (s.setChan i c).i2c = s.i2c := rfl
@[simp] theorem State.setChan_uart (i : Nat) (c : Chan) : (s.setChan i c).uart = s.uart := rfl
@[simp] theorem State.setChan_tap (i : Nat) (c : Chan) : (s.setChan i c).tap = s.tap := rfl

@[simp] theorem State.setAdc_pending (n : Nat) (x : Adc) : (s.setAdc n x).pending = s.pending := rfl
@[simp] theorem State.setAdc_outbox (n : Nat) (x : Adc) : (s.setAdc n x).outbox = s.outbox := rfl
@[simp] theorem State.setAdc_freeCtr (n : Nat) (x : Adc) : (s.setAdc n x).freeCtr = s.freeCtr := rfl
@[simp] theorem State.setAdc_part (n : Nat) (x : Adc) : (s.setAdc n x).part = s.part := rfl
@[simp] theorem State.setAdc_regs (n : Nat) (x : Adc) : (s.setAdc n x).regs = s.regs := rfl
@[simp] theorem State.setAdc_mem (n : Nat) (x : Adc) : (s.setAdc n x).mem = s.mem := rfl
@[simp] theorem State.setAdc_ecc (n : Nat) (x : Adc) : (s.setAdc n x).ecc = s.ecc := rfl
@[simp] theorem State.setAdc_evq (n : Nat) (x : Adc) : (s.setAdc n x).evq = s.evq := rfl
@[simp] theorem State.setAdc_msiHeld (n : Nat) (x : Adc) : (s.setAdc n x).msiHeld = s.msiHeld := rfl
@[simp] theorem State.setAdc_tickCopy (n : Nat) (x : Adc) : (s.setAdc n x).tickCopy = s.tickCopy := rfl
@[simp] theorem State.setAdc_tb (n : Nat) (x : Adc) : (s.setAdc n x).tb = s.tb := rfl
@[simp] theorem State.setAdc_enc (n : Nat) (x : Adc) : (s.setAdc n x).enc = s.enc := rfl
@[simp] theorem State.setAdc_snaps (n : Nat) (x : Adc) : (s.setAdc n x).snaps = s.snaps := rfl
@[simp] theorem State.setAdc_hop (n : Nat) (x : Adc) : (s.setAdc n x).hop = s.hop := rfl
@[simp] theorem State.setAdc_stores (n : Nat) (x : Adc) : (s.setAdc n x).stores = s.stores := rfl
@[simp] theorem State.setAdc_pwm (n : Nat) (x : Adc) : (s.setAdc n x).pwm = s.pwm := rfl
@[simp] theorem State.setAdc_cap (n : Nat) (x : Adc) : (s.setAdc n x).cap = s.cap := rfl
@[simp] theorem State.setAdc_qdAt (n : Nat) (x : Adc) : (s.setAdc n x).qdAt = s.qdAt := rfl
@[simp] theorem State.setAdc_sect (n : Nat) (x : Adc) : (s.setAdc n x).sect = s.sect := rfl
@[simp] theorem State.setAdc_tickVals (n : Nat) (x : Adc) : (s.setAdc n x).tickVals = s.tickVals := rfl
@[simp] theorem State.setAdc_rr (n : Nat) (x : Adc) : (s.setAdc n x).rr = s.rr := rfl
@[simp] theorem State.setAdc_rrAsk (n : Nat) (x : Adc) : (s.setAdc n x).rrAsk = s.rrAsk := rfl
@[simp] theorem State.setAdc_eng (n : Nat) (x : Adc) : (s.setAdc n x).eng = s.eng := rfl
@[simp] theorem State.setAdc_chans (n : Nat) (x : Adc) : (s.setAdc n x).chans = s.chans := rfl
@[simp] theorem State.setAdc_rb (n : Nat) (x : Adc) : (s.setAdc n x).rb = s.rb := rfl
@[simp] theorem State.setAdc_aq (n : Nat) (x : Adc) : (s.setAdc n x).aq = s.aq := rfl
@[simp] theorem State.setAdc_flog (n : Nat) (x : Adc) : (s.setAdc n x).flog = s.flog := rfl
@[simp] theorem State.setAdc_baySw (n : Nat) (x : Adc) : (s.setAdc n x).baySw = s.baySw := rfl
@[simp] theorem State.setAdc_rcal (n : Nat) (x : Adc) : (s.setAdc n x).rcal = s.rcal := rfl
@[simp] theorem State.setAdc_cmp (n : Nat) (x : Adc) : (s.setAdc n x).cmp = s.cmp := rfl
@[simp] theorem State.setAdc_dac (n : Nat) (x : Adc) : (s.setAdc n x).dac = s.dac := rfl
@[simp] theorem State.setAdc_fab (n : Nat) (x : Adc) : (s.setAdc n x).fab = s.fab := rfl
@[simp] theorem State.setAdc_ffs (n : Nat) (x : Adc) : (s.setAdc n x).ffs = s.ffs := rfl
@[simp] theorem State.setAdc_dmaTrig (n : Nat) (x : Adc) : (s.setAdc n x).dmaTrig = s.dmaTrig := rfl
@[simp] theorem State.setAdc_wipe (n : Nat) (x : Adc) : (s.setAdc n x).wipe = s.wipe := rfl
@[simp] theorem State.setAdc_attar (n : Nat) (x : Adc) : (s.setAdc n x).attar = s.attar := rfl
@[simp] theorem State.setAdc_strobes (n : Nat) (x : Adc) : (s.setAdc n x).strobes = s.strobes := rfl
@[simp] theorem State.setAdc_pwr (n : Nat) (x : Adc) : (s.setAdc n x).pwr = s.pwr := rfl
@[simp] theorem State.setAdc_pcie (n : Nat) (x : Adc) : (s.setAdc n x).pcie = s.pcie := rfl
@[simp] theorem State.setAdc_sil (n : Nat) (x : Adc) : (s.setAdc n x).sil = s.sil := rfl
@[simp] theorem State.setAdc_actOut (n : Nat) (x : Adc) : (s.setAdc n x).actOut = s.actOut := rfl
@[simp] theorem State.setAdc_actAt (n : Nat) (x : Adc) : (s.setAdc n x).actAt = s.actAt := rfl
@[simp] theorem State.setAdc_chOut (n : Nat) (x : Adc) : (s.setAdc n x).chOut = s.chOut := rfl
@[simp] theorem State.setAdc_pinDef (n : Nat) (x : Adc) : (s.setAdc n x).pinDef = s.pinDef := rfl
@[simp] theorem State.setAdc_pinRel (n : Nat) (x : Adc) : (s.setAdc n x).pinRel = s.pinRel := rfl
@[simp] theorem State.setAdc_clearq (n : Nat) (x : Adc) : (s.setAdc n x).clearq = s.clearq := rfl
@[simp] theorem State.setAdc_wbq (n : Nat) (x : Adc) : (s.setAdc n x).wbq = s.wbq := rfl
@[simp] theorem State.setAdc_pins (n : Nat) (x : Adc) : (s.setAdc n x).pins = s.pins := rfl
@[simp] theorem State.setAdc_keep (n : Nat) (x : Adc) : (s.setAdc n x).keep = s.keep := rfl
@[simp] theorem State.setAdc_dmaAbort (n : Nat) (x : Adc) : (s.setAdc n x).dmaAbort = s.dmaAbort := rfl
@[simp] theorem State.setAdc_lines (n : Nat) (x : Adc) : (s.setAdc n x).lines = s.lines := rfl
@[simp] theorem State.setAdc_nodes (n : Nat) (x : Adc) : (s.setAdc n x).nodes = s.nodes := rfl
@[simp] theorem State.setAdc_pair (n : Nat) (x : Adc) : (s.setAdc n x).pair = s.pair := rfl
@[simp] theorem State.setAdc_lc (n : Nat) (x : Adc) : (s.setAdc n x).lc = s.lc := rfl
@[simp] theorem State.setAdc_loader (n : Nat) (x : Adc) : (s.setAdc n x).loader = s.loader := rfl
@[simp] theorem State.setAdc_cfgmem (n : Nat) (x : Adc) : (s.setAdc n x).cfgmem = s.cfgmem := rfl
@[simp] theorem State.setAdc_cfgFlip (n : Nat) (x : Adc) : (s.setAdc n x).cfgFlip = s.cfgFlip := rfl
@[simp] theorem State.setAdc_scrub (n : Nat) (x : Adc) : (s.setAdc n x).scrub = s.scrub := rfl
@[simp] theorem State.setAdc_safe (n : Nat) (x : Adc) : (s.setAdc n x).safe = s.safe := rfl
@[simp] theorem State.setAdc_ist (n : Nat) (x : Adc) : (s.setAdc n x).ist = s.ist := rfl
@[simp] theorem State.setAdc_snap (n : Nat) (x : Adc) : (s.setAdc n x).snap = s.snap := rfl
@[simp] theorem State.setAdc_can (n : Nat) (x : Adc) : (s.setAdc n x).can = s.can := rfl
@[simp] theorem State.setAdc_spi (n : Nat) (x : Adc) : (s.setAdc n x).spi = s.spi := rfl
@[simp] theorem State.setAdc_i2c (n : Nat) (x : Adc) : (s.setAdc n x).i2c = s.i2c := rfl
@[simp] theorem State.setAdc_uart (n : Nat) (x : Adc) : (s.setAdc n x).uart = s.uart := rfl
@[simp] theorem State.setAdc_tap (n : Nat) (x : Adc) : (s.setAdc n x).tap = s.tap := rfl

@[simp] theorem State.setCmp_pending (n : Nat) (x : Cmp) : (s.setCmp n x).pending = s.pending := rfl
@[simp] theorem State.setCmp_outbox (n : Nat) (x : Cmp) : (s.setCmp n x).outbox = s.outbox := rfl
@[simp] theorem State.setCmp_freeCtr (n : Nat) (x : Cmp) : (s.setCmp n x).freeCtr = s.freeCtr := rfl
@[simp] theorem State.setCmp_part (n : Nat) (x : Cmp) : (s.setCmp n x).part = s.part := rfl
@[simp] theorem State.setCmp_regs (n : Nat) (x : Cmp) : (s.setCmp n x).regs = s.regs := rfl
@[simp] theorem State.setCmp_mem (n : Nat) (x : Cmp) : (s.setCmp n x).mem = s.mem := rfl
@[simp] theorem State.setCmp_ecc (n : Nat) (x : Cmp) : (s.setCmp n x).ecc = s.ecc := rfl
@[simp] theorem State.setCmp_evq (n : Nat) (x : Cmp) : (s.setCmp n x).evq = s.evq := rfl
@[simp] theorem State.setCmp_msiHeld (n : Nat) (x : Cmp) : (s.setCmp n x).msiHeld = s.msiHeld := rfl
@[simp] theorem State.setCmp_tickCopy (n : Nat) (x : Cmp) : (s.setCmp n x).tickCopy = s.tickCopy := rfl
@[simp] theorem State.setCmp_tb (n : Nat) (x : Cmp) : (s.setCmp n x).tb = s.tb := rfl
@[simp] theorem State.setCmp_enc (n : Nat) (x : Cmp) : (s.setCmp n x).enc = s.enc := rfl
@[simp] theorem State.setCmp_snaps (n : Nat) (x : Cmp) : (s.setCmp n x).snaps = s.snaps := rfl
@[simp] theorem State.setCmp_hop (n : Nat) (x : Cmp) : (s.setCmp n x).hop = s.hop := rfl
@[simp] theorem State.setCmp_stores (n : Nat) (x : Cmp) : (s.setCmp n x).stores = s.stores := rfl
@[simp] theorem State.setCmp_pwm (n : Nat) (x : Cmp) : (s.setCmp n x).pwm = s.pwm := rfl
@[simp] theorem State.setCmp_cap (n : Nat) (x : Cmp) : (s.setCmp n x).cap = s.cap := rfl
@[simp] theorem State.setCmp_qdAt (n : Nat) (x : Cmp) : (s.setCmp n x).qdAt = s.qdAt := rfl
@[simp] theorem State.setCmp_sect (n : Nat) (x : Cmp) : (s.setCmp n x).sect = s.sect := rfl
@[simp] theorem State.setCmp_tickVals (n : Nat) (x : Cmp) : (s.setCmp n x).tickVals = s.tickVals := rfl
@[simp] theorem State.setCmp_rr (n : Nat) (x : Cmp) : (s.setCmp n x).rr = s.rr := rfl
@[simp] theorem State.setCmp_rrAsk (n : Nat) (x : Cmp) : (s.setCmp n x).rrAsk = s.rrAsk := rfl
@[simp] theorem State.setCmp_eng (n : Nat) (x : Cmp) : (s.setCmp n x).eng = s.eng := rfl
@[simp] theorem State.setCmp_chans (n : Nat) (x : Cmp) : (s.setCmp n x).chans = s.chans := rfl
@[simp] theorem State.setCmp_rb (n : Nat) (x : Cmp) : (s.setCmp n x).rb = s.rb := rfl
@[simp] theorem State.setCmp_aq (n : Nat) (x : Cmp) : (s.setCmp n x).aq = s.aq := rfl
@[simp] theorem State.setCmp_flog (n : Nat) (x : Cmp) : (s.setCmp n x).flog = s.flog := rfl
@[simp] theorem State.setCmp_baySw (n : Nat) (x : Cmp) : (s.setCmp n x).baySw = s.baySw := rfl
@[simp] theorem State.setCmp_rcal (n : Nat) (x : Cmp) : (s.setCmp n x).rcal = s.rcal := rfl
@[simp] theorem State.setCmp_adc (n : Nat) (x : Cmp) : (s.setCmp n x).adc = s.adc := rfl
@[simp] theorem State.setCmp_dac (n : Nat) (x : Cmp) : (s.setCmp n x).dac = s.dac := rfl
@[simp] theorem State.setCmp_fab (n : Nat) (x : Cmp) : (s.setCmp n x).fab = s.fab := rfl
@[simp] theorem State.setCmp_ffs (n : Nat) (x : Cmp) : (s.setCmp n x).ffs = s.ffs := rfl
@[simp] theorem State.setCmp_dmaTrig (n : Nat) (x : Cmp) : (s.setCmp n x).dmaTrig = s.dmaTrig := rfl
@[simp] theorem State.setCmp_wipe (n : Nat) (x : Cmp) : (s.setCmp n x).wipe = s.wipe := rfl
@[simp] theorem State.setCmp_attar (n : Nat) (x : Cmp) : (s.setCmp n x).attar = s.attar := rfl
@[simp] theorem State.setCmp_strobes (n : Nat) (x : Cmp) : (s.setCmp n x).strobes = s.strobes := rfl
@[simp] theorem State.setCmp_pwr (n : Nat) (x : Cmp) : (s.setCmp n x).pwr = s.pwr := rfl
@[simp] theorem State.setCmp_pcie (n : Nat) (x : Cmp) : (s.setCmp n x).pcie = s.pcie := rfl
@[simp] theorem State.setCmp_sil (n : Nat) (x : Cmp) : (s.setCmp n x).sil = s.sil := rfl
@[simp] theorem State.setCmp_actOut (n : Nat) (x : Cmp) : (s.setCmp n x).actOut = s.actOut := rfl
@[simp] theorem State.setCmp_actAt (n : Nat) (x : Cmp) : (s.setCmp n x).actAt = s.actAt := rfl
@[simp] theorem State.setCmp_chOut (n : Nat) (x : Cmp) : (s.setCmp n x).chOut = s.chOut := rfl
@[simp] theorem State.setCmp_pinDef (n : Nat) (x : Cmp) : (s.setCmp n x).pinDef = s.pinDef := rfl
@[simp] theorem State.setCmp_pinRel (n : Nat) (x : Cmp) : (s.setCmp n x).pinRel = s.pinRel := rfl
@[simp] theorem State.setCmp_clearq (n : Nat) (x : Cmp) : (s.setCmp n x).clearq = s.clearq := rfl
@[simp] theorem State.setCmp_wbq (n : Nat) (x : Cmp) : (s.setCmp n x).wbq = s.wbq := rfl
@[simp] theorem State.setCmp_pins (n : Nat) (x : Cmp) : (s.setCmp n x).pins = s.pins := rfl
@[simp] theorem State.setCmp_keep (n : Nat) (x : Cmp) : (s.setCmp n x).keep = s.keep := rfl
@[simp] theorem State.setCmp_dmaAbort (n : Nat) (x : Cmp) : (s.setCmp n x).dmaAbort = s.dmaAbort := rfl
@[simp] theorem State.setCmp_lines (n : Nat) (x : Cmp) : (s.setCmp n x).lines = s.lines := rfl
@[simp] theorem State.setCmp_nodes (n : Nat) (x : Cmp) : (s.setCmp n x).nodes = s.nodes := rfl
@[simp] theorem State.setCmp_pair (n : Nat) (x : Cmp) : (s.setCmp n x).pair = s.pair := rfl
@[simp] theorem State.setCmp_lc (n : Nat) (x : Cmp) : (s.setCmp n x).lc = s.lc := rfl
@[simp] theorem State.setCmp_loader (n : Nat) (x : Cmp) : (s.setCmp n x).loader = s.loader := rfl
@[simp] theorem State.setCmp_cfgmem (n : Nat) (x : Cmp) : (s.setCmp n x).cfgmem = s.cfgmem := rfl
@[simp] theorem State.setCmp_cfgFlip (n : Nat) (x : Cmp) : (s.setCmp n x).cfgFlip = s.cfgFlip := rfl
@[simp] theorem State.setCmp_scrub (n : Nat) (x : Cmp) : (s.setCmp n x).scrub = s.scrub := rfl
@[simp] theorem State.setCmp_safe (n : Nat) (x : Cmp) : (s.setCmp n x).safe = s.safe := rfl
@[simp] theorem State.setCmp_ist (n : Nat) (x : Cmp) : (s.setCmp n x).ist = s.ist := rfl
@[simp] theorem State.setCmp_snap (n : Nat) (x : Cmp) : (s.setCmp n x).snap = s.snap := rfl
@[simp] theorem State.setCmp_can (n : Nat) (x : Cmp) : (s.setCmp n x).can = s.can := rfl
@[simp] theorem State.setCmp_spi (n : Nat) (x : Cmp) : (s.setCmp n x).spi = s.spi := rfl
@[simp] theorem State.setCmp_i2c (n : Nat) (x : Cmp) : (s.setCmp n x).i2c = s.i2c := rfl
@[simp] theorem State.setCmp_uart (n : Nat) (x : Cmp) : (s.setCmp n x).uart = s.uart := rfl
@[simp] theorem State.setCmp_tap (n : Nat) (x : Cmp) : (s.setCmp n x).tap = s.tap := rfl

@[simp] theorem State.setDac_pending (n : Nat) (x : Dac) : (s.setDac n x).pending = s.pending := rfl
@[simp] theorem State.setDac_outbox (n : Nat) (x : Dac) : (s.setDac n x).outbox = s.outbox := rfl
@[simp] theorem State.setDac_freeCtr (n : Nat) (x : Dac) : (s.setDac n x).freeCtr = s.freeCtr := rfl
@[simp] theorem State.setDac_part (n : Nat) (x : Dac) : (s.setDac n x).part = s.part := rfl
@[simp] theorem State.setDac_regs (n : Nat) (x : Dac) : (s.setDac n x).regs = s.regs := rfl
@[simp] theorem State.setDac_mem (n : Nat) (x : Dac) : (s.setDac n x).mem = s.mem := rfl
@[simp] theorem State.setDac_ecc (n : Nat) (x : Dac) : (s.setDac n x).ecc = s.ecc := rfl
@[simp] theorem State.setDac_evq (n : Nat) (x : Dac) : (s.setDac n x).evq = s.evq := rfl
@[simp] theorem State.setDac_msiHeld (n : Nat) (x : Dac) : (s.setDac n x).msiHeld = s.msiHeld := rfl
@[simp] theorem State.setDac_tickCopy (n : Nat) (x : Dac) : (s.setDac n x).tickCopy = s.tickCopy := rfl
@[simp] theorem State.setDac_tb (n : Nat) (x : Dac) : (s.setDac n x).tb = s.tb := rfl
@[simp] theorem State.setDac_enc (n : Nat) (x : Dac) : (s.setDac n x).enc = s.enc := rfl
@[simp] theorem State.setDac_snaps (n : Nat) (x : Dac) : (s.setDac n x).snaps = s.snaps := rfl
@[simp] theorem State.setDac_hop (n : Nat) (x : Dac) : (s.setDac n x).hop = s.hop := rfl
@[simp] theorem State.setDac_stores (n : Nat) (x : Dac) : (s.setDac n x).stores = s.stores := rfl
@[simp] theorem State.setDac_pwm (n : Nat) (x : Dac) : (s.setDac n x).pwm = s.pwm := rfl
@[simp] theorem State.setDac_cap (n : Nat) (x : Dac) : (s.setDac n x).cap = s.cap := rfl
@[simp] theorem State.setDac_qdAt (n : Nat) (x : Dac) : (s.setDac n x).qdAt = s.qdAt := rfl
@[simp] theorem State.setDac_sect (n : Nat) (x : Dac) : (s.setDac n x).sect = s.sect := rfl
@[simp] theorem State.setDac_tickVals (n : Nat) (x : Dac) : (s.setDac n x).tickVals = s.tickVals := rfl
@[simp] theorem State.setDac_rr (n : Nat) (x : Dac) : (s.setDac n x).rr = s.rr := rfl
@[simp] theorem State.setDac_rrAsk (n : Nat) (x : Dac) : (s.setDac n x).rrAsk = s.rrAsk := rfl
@[simp] theorem State.setDac_eng (n : Nat) (x : Dac) : (s.setDac n x).eng = s.eng := rfl
@[simp] theorem State.setDac_chans (n : Nat) (x : Dac) : (s.setDac n x).chans = s.chans := rfl
@[simp] theorem State.setDac_rb (n : Nat) (x : Dac) : (s.setDac n x).rb = s.rb := rfl
@[simp] theorem State.setDac_aq (n : Nat) (x : Dac) : (s.setDac n x).aq = s.aq := rfl
@[simp] theorem State.setDac_flog (n : Nat) (x : Dac) : (s.setDac n x).flog = s.flog := rfl
@[simp] theorem State.setDac_baySw (n : Nat) (x : Dac) : (s.setDac n x).baySw = s.baySw := rfl
@[simp] theorem State.setDac_rcal (n : Nat) (x : Dac) : (s.setDac n x).rcal = s.rcal := rfl
@[simp] theorem State.setDac_adc (n : Nat) (x : Dac) : (s.setDac n x).adc = s.adc := rfl
@[simp] theorem State.setDac_cmp (n : Nat) (x : Dac) : (s.setDac n x).cmp = s.cmp := rfl
@[simp] theorem State.setDac_fab (n : Nat) (x : Dac) : (s.setDac n x).fab = s.fab := rfl
@[simp] theorem State.setDac_ffs (n : Nat) (x : Dac) : (s.setDac n x).ffs = s.ffs := rfl
@[simp] theorem State.setDac_dmaTrig (n : Nat) (x : Dac) : (s.setDac n x).dmaTrig = s.dmaTrig := rfl
@[simp] theorem State.setDac_wipe (n : Nat) (x : Dac) : (s.setDac n x).wipe = s.wipe := rfl
@[simp] theorem State.setDac_attar (n : Nat) (x : Dac) : (s.setDac n x).attar = s.attar := rfl
@[simp] theorem State.setDac_strobes (n : Nat) (x : Dac) : (s.setDac n x).strobes = s.strobes := rfl
@[simp] theorem State.setDac_pwr (n : Nat) (x : Dac) : (s.setDac n x).pwr = s.pwr := rfl
@[simp] theorem State.setDac_pcie (n : Nat) (x : Dac) : (s.setDac n x).pcie = s.pcie := rfl
@[simp] theorem State.setDac_sil (n : Nat) (x : Dac) : (s.setDac n x).sil = s.sil := rfl
@[simp] theorem State.setDac_actOut (n : Nat) (x : Dac) : (s.setDac n x).actOut = s.actOut := rfl
@[simp] theorem State.setDac_actAt (n : Nat) (x : Dac) : (s.setDac n x).actAt = s.actAt := rfl
@[simp] theorem State.setDac_chOut (n : Nat) (x : Dac) : (s.setDac n x).chOut = s.chOut := rfl
@[simp] theorem State.setDac_pinDef (n : Nat) (x : Dac) : (s.setDac n x).pinDef = s.pinDef := rfl
@[simp] theorem State.setDac_pinRel (n : Nat) (x : Dac) : (s.setDac n x).pinRel = s.pinRel := rfl
@[simp] theorem State.setDac_clearq (n : Nat) (x : Dac) : (s.setDac n x).clearq = s.clearq := rfl
@[simp] theorem State.setDac_wbq (n : Nat) (x : Dac) : (s.setDac n x).wbq = s.wbq := rfl
@[simp] theorem State.setDac_pins (n : Nat) (x : Dac) : (s.setDac n x).pins = s.pins := rfl
@[simp] theorem State.setDac_keep (n : Nat) (x : Dac) : (s.setDac n x).keep = s.keep := rfl
@[simp] theorem State.setDac_dmaAbort (n : Nat) (x : Dac) : (s.setDac n x).dmaAbort = s.dmaAbort := rfl
@[simp] theorem State.setDac_lines (n : Nat) (x : Dac) : (s.setDac n x).lines = s.lines := rfl
@[simp] theorem State.setDac_nodes (n : Nat) (x : Dac) : (s.setDac n x).nodes = s.nodes := rfl
@[simp] theorem State.setDac_pair (n : Nat) (x : Dac) : (s.setDac n x).pair = s.pair := rfl
@[simp] theorem State.setDac_lc (n : Nat) (x : Dac) : (s.setDac n x).lc = s.lc := rfl
@[simp] theorem State.setDac_loader (n : Nat) (x : Dac) : (s.setDac n x).loader = s.loader := rfl
@[simp] theorem State.setDac_cfgmem (n : Nat) (x : Dac) : (s.setDac n x).cfgmem = s.cfgmem := rfl
@[simp] theorem State.setDac_cfgFlip (n : Nat) (x : Dac) : (s.setDac n x).cfgFlip = s.cfgFlip := rfl
@[simp] theorem State.setDac_scrub (n : Nat) (x : Dac) : (s.setDac n x).scrub = s.scrub := rfl
@[simp] theorem State.setDac_safe (n : Nat) (x : Dac) : (s.setDac n x).safe = s.safe := rfl
@[simp] theorem State.setDac_ist (n : Nat) (x : Dac) : (s.setDac n x).ist = s.ist := rfl
@[simp] theorem State.setDac_snap (n : Nat) (x : Dac) : (s.setDac n x).snap = s.snap := rfl
@[simp] theorem State.setDac_can (n : Nat) (x : Dac) : (s.setDac n x).can = s.can := rfl
@[simp] theorem State.setDac_spi (n : Nat) (x : Dac) : (s.setDac n x).spi = s.spi := rfl
@[simp] theorem State.setDac_i2c (n : Nat) (x : Dac) : (s.setDac n x).i2c = s.i2c := rfl
@[simp] theorem State.setDac_uart (n : Nat) (x : Dac) : (s.setDac n x).uart = s.uart := rfl
@[simp] theorem State.setDac_tap (n : Nat) (x : Dac) : (s.setDac n x).tap = s.tap := rfl

@[simp] theorem State.setEnc_pending (i : Nat) (e : Encoder) : (s.setEnc i e).pending = s.pending := rfl
@[simp] theorem State.setEnc_outbox (i : Nat) (e : Encoder) : (s.setEnc i e).outbox = s.outbox := rfl
@[simp] theorem State.setEnc_freeCtr (i : Nat) (e : Encoder) : (s.setEnc i e).freeCtr = s.freeCtr := rfl
@[simp] theorem State.setEnc_part (i : Nat) (e : Encoder) : (s.setEnc i e).part = s.part := rfl
@[simp] theorem State.setEnc_regs (i : Nat) (e : Encoder) : (s.setEnc i e).regs = s.regs := rfl
@[simp] theorem State.setEnc_mem (i : Nat) (e : Encoder) : (s.setEnc i e).mem = s.mem := rfl
@[simp] theorem State.setEnc_ecc (i : Nat) (e : Encoder) : (s.setEnc i e).ecc = s.ecc := rfl
@[simp] theorem State.setEnc_evq (i : Nat) (e : Encoder) : (s.setEnc i e).evq = s.evq := rfl
@[simp] theorem State.setEnc_msiHeld (i : Nat) (e : Encoder) : (s.setEnc i e).msiHeld = s.msiHeld := rfl
@[simp] theorem State.setEnc_tickCopy (i : Nat) (e : Encoder) : (s.setEnc i e).tickCopy = s.tickCopy := rfl
@[simp] theorem State.setEnc_tb (i : Nat) (e : Encoder) : (s.setEnc i e).tb = s.tb := rfl
@[simp] theorem State.setEnc_snaps (i : Nat) (e : Encoder) : (s.setEnc i e).snaps = s.snaps := rfl
@[simp] theorem State.setEnc_hop (i : Nat) (e : Encoder) : (s.setEnc i e).hop = s.hop := rfl
@[simp] theorem State.setEnc_stores (i : Nat) (e : Encoder) : (s.setEnc i e).stores = s.stores := rfl
@[simp] theorem State.setEnc_pwm (i : Nat) (e : Encoder) : (s.setEnc i e).pwm = s.pwm := rfl
@[simp] theorem State.setEnc_cap (i : Nat) (e : Encoder) : (s.setEnc i e).cap = s.cap := rfl
@[simp] theorem State.setEnc_qdAt (i : Nat) (e : Encoder) : (s.setEnc i e).qdAt = s.qdAt := rfl
@[simp] theorem State.setEnc_sect (i : Nat) (e : Encoder) : (s.setEnc i e).sect = s.sect := rfl
@[simp] theorem State.setEnc_tickVals (i : Nat) (e : Encoder) : (s.setEnc i e).tickVals = s.tickVals := rfl
@[simp] theorem State.setEnc_rr (i : Nat) (e : Encoder) : (s.setEnc i e).rr = s.rr := rfl
@[simp] theorem State.setEnc_rrAsk (i : Nat) (e : Encoder) : (s.setEnc i e).rrAsk = s.rrAsk := rfl
@[simp] theorem State.setEnc_eng (i : Nat) (e : Encoder) : (s.setEnc i e).eng = s.eng := rfl
@[simp] theorem State.setEnc_chans (i : Nat) (e : Encoder) : (s.setEnc i e).chans = s.chans := rfl
@[simp] theorem State.setEnc_rb (i : Nat) (e : Encoder) : (s.setEnc i e).rb = s.rb := rfl
@[simp] theorem State.setEnc_aq (i : Nat) (e : Encoder) : (s.setEnc i e).aq = s.aq := rfl
@[simp] theorem State.setEnc_flog (i : Nat) (e : Encoder) : (s.setEnc i e).flog = s.flog := rfl
@[simp] theorem State.setEnc_baySw (i : Nat) (e : Encoder) : (s.setEnc i e).baySw = s.baySw := rfl
@[simp] theorem State.setEnc_rcal (i : Nat) (e : Encoder) : (s.setEnc i e).rcal = s.rcal := rfl
@[simp] theorem State.setEnc_adc (i : Nat) (e : Encoder) : (s.setEnc i e).adc = s.adc := rfl
@[simp] theorem State.setEnc_cmp (i : Nat) (e : Encoder) : (s.setEnc i e).cmp = s.cmp := rfl
@[simp] theorem State.setEnc_dac (i : Nat) (e : Encoder) : (s.setEnc i e).dac = s.dac := rfl
@[simp] theorem State.setEnc_fab (i : Nat) (e : Encoder) : (s.setEnc i e).fab = s.fab := rfl
@[simp] theorem State.setEnc_ffs (i : Nat) (e : Encoder) : (s.setEnc i e).ffs = s.ffs := rfl
@[simp] theorem State.setEnc_dmaTrig (i : Nat) (e : Encoder) : (s.setEnc i e).dmaTrig = s.dmaTrig := rfl
@[simp] theorem State.setEnc_wipe (i : Nat) (e : Encoder) : (s.setEnc i e).wipe = s.wipe := rfl
@[simp] theorem State.setEnc_attar (i : Nat) (e : Encoder) : (s.setEnc i e).attar = s.attar := rfl
@[simp] theorem State.setEnc_strobes (i : Nat) (e : Encoder) : (s.setEnc i e).strobes = s.strobes := rfl
@[simp] theorem State.setEnc_pwr (i : Nat) (e : Encoder) : (s.setEnc i e).pwr = s.pwr := rfl
@[simp] theorem State.setEnc_pcie (i : Nat) (e : Encoder) : (s.setEnc i e).pcie = s.pcie := rfl
@[simp] theorem State.setEnc_sil (i : Nat) (e : Encoder) : (s.setEnc i e).sil = s.sil := rfl
@[simp] theorem State.setEnc_actOut (i : Nat) (e : Encoder) : (s.setEnc i e).actOut = s.actOut := rfl
@[simp] theorem State.setEnc_actAt (i : Nat) (e : Encoder) : (s.setEnc i e).actAt = s.actAt := rfl
@[simp] theorem State.setEnc_chOut (i : Nat) (e : Encoder) : (s.setEnc i e).chOut = s.chOut := rfl
@[simp] theorem State.setEnc_pinDef (i : Nat) (e : Encoder) : (s.setEnc i e).pinDef = s.pinDef := rfl
@[simp] theorem State.setEnc_pinRel (i : Nat) (e : Encoder) : (s.setEnc i e).pinRel = s.pinRel := rfl
@[simp] theorem State.setEnc_clearq (i : Nat) (e : Encoder) : (s.setEnc i e).clearq = s.clearq := rfl
@[simp] theorem State.setEnc_wbq (i : Nat) (e : Encoder) : (s.setEnc i e).wbq = s.wbq := rfl
@[simp] theorem State.setEnc_pins (i : Nat) (e : Encoder) : (s.setEnc i e).pins = s.pins := rfl
@[simp] theorem State.setEnc_keep (i : Nat) (e : Encoder) : (s.setEnc i e).keep = s.keep := rfl
@[simp] theorem State.setEnc_dmaAbort (i : Nat) (e : Encoder) : (s.setEnc i e).dmaAbort = s.dmaAbort := rfl
@[simp] theorem State.setEnc_lines (i : Nat) (e : Encoder) : (s.setEnc i e).lines = s.lines := rfl
@[simp] theorem State.setEnc_nodes (i : Nat) (e : Encoder) : (s.setEnc i e).nodes = s.nodes := rfl
@[simp] theorem State.setEnc_pair (i : Nat) (e : Encoder) : (s.setEnc i e).pair = s.pair := rfl
@[simp] theorem State.setEnc_lc (i : Nat) (e : Encoder) : (s.setEnc i e).lc = s.lc := rfl
@[simp] theorem State.setEnc_loader (i : Nat) (e : Encoder) : (s.setEnc i e).loader = s.loader := rfl
@[simp] theorem State.setEnc_cfgmem (i : Nat) (e : Encoder) : (s.setEnc i e).cfgmem = s.cfgmem := rfl
@[simp] theorem State.setEnc_cfgFlip (i : Nat) (e : Encoder) : (s.setEnc i e).cfgFlip = s.cfgFlip := rfl
@[simp] theorem State.setEnc_scrub (i : Nat) (e : Encoder) : (s.setEnc i e).scrub = s.scrub := rfl
@[simp] theorem State.setEnc_safe (i : Nat) (e : Encoder) : (s.setEnc i e).safe = s.safe := rfl
@[simp] theorem State.setEnc_ist (i : Nat) (e : Encoder) : (s.setEnc i e).ist = s.ist := rfl
@[simp] theorem State.setEnc_snap (i : Nat) (e : Encoder) : (s.setEnc i e).snap = s.snap := rfl
@[simp] theorem State.setEnc_can (i : Nat) (e : Encoder) : (s.setEnc i e).can = s.can := rfl
@[simp] theorem State.setEnc_spi (i : Nat) (e : Encoder) : (s.setEnc i e).spi = s.spi := rfl
@[simp] theorem State.setEnc_i2c (i : Nat) (e : Encoder) : (s.setEnc i e).i2c = s.i2c := rfl
@[simp] theorem State.setEnc_uart (i : Nat) (e : Encoder) : (s.setEnc i e).uart = s.uart := rfl
@[simp] theorem State.setEnc_tap (i : Nat) (e : Encoder) : (s.setEnc i e).tap = s.tap := rfl

@[simp] theorem State.setCap_pending (k u : Nat) (c : Capture) : (s.setCap k u c).pending = s.pending := rfl
@[simp] theorem State.setCap_outbox (k u : Nat) (c : Capture) : (s.setCap k u c).outbox = s.outbox := rfl
@[simp] theorem State.setCap_freeCtr (k u : Nat) (c : Capture) : (s.setCap k u c).freeCtr = s.freeCtr := rfl
@[simp] theorem State.setCap_part (k u : Nat) (c : Capture) : (s.setCap k u c).part = s.part := rfl
@[simp] theorem State.setCap_regs (k u : Nat) (c : Capture) : (s.setCap k u c).regs = s.regs := rfl
@[simp] theorem State.setCap_mem (k u : Nat) (c : Capture) : (s.setCap k u c).mem = s.mem := rfl
@[simp] theorem State.setCap_ecc (k u : Nat) (c : Capture) : (s.setCap k u c).ecc = s.ecc := rfl
@[simp] theorem State.setCap_evq (k u : Nat) (c : Capture) : (s.setCap k u c).evq = s.evq := rfl
@[simp] theorem State.setCap_msiHeld (k u : Nat) (c : Capture) : (s.setCap k u c).msiHeld = s.msiHeld := rfl
@[simp] theorem State.setCap_tickCopy (k u : Nat) (c : Capture) : (s.setCap k u c).tickCopy = s.tickCopy := rfl
@[simp] theorem State.setCap_tb (k u : Nat) (c : Capture) : (s.setCap k u c).tb = s.tb := rfl
@[simp] theorem State.setCap_enc (k u : Nat) (c : Capture) : (s.setCap k u c).enc = s.enc := rfl
@[simp] theorem State.setCap_snaps (k u : Nat) (c : Capture) : (s.setCap k u c).snaps = s.snaps := rfl
@[simp] theorem State.setCap_hop (k u : Nat) (c : Capture) : (s.setCap k u c).hop = s.hop := rfl
@[simp] theorem State.setCap_stores (k u : Nat) (c : Capture) : (s.setCap k u c).stores = s.stores := rfl
@[simp] theorem State.setCap_pwm (k u : Nat) (c : Capture) : (s.setCap k u c).pwm = s.pwm := rfl
@[simp] theorem State.setCap_qdAt (k u : Nat) (c : Capture) : (s.setCap k u c).qdAt = s.qdAt := rfl
@[simp] theorem State.setCap_sect (k u : Nat) (c : Capture) : (s.setCap k u c).sect = s.sect := rfl
@[simp] theorem State.setCap_tickVals (k u : Nat) (c : Capture) : (s.setCap k u c).tickVals = s.tickVals := rfl
@[simp] theorem State.setCap_rr (k u : Nat) (c : Capture) : (s.setCap k u c).rr = s.rr := rfl
@[simp] theorem State.setCap_rrAsk (k u : Nat) (c : Capture) : (s.setCap k u c).rrAsk = s.rrAsk := rfl
@[simp] theorem State.setCap_eng (k u : Nat) (c : Capture) : (s.setCap k u c).eng = s.eng := rfl
@[simp] theorem State.setCap_chans (k u : Nat) (c : Capture) : (s.setCap k u c).chans = s.chans := rfl
@[simp] theorem State.setCap_rb (k u : Nat) (c : Capture) : (s.setCap k u c).rb = s.rb := rfl
@[simp] theorem State.setCap_aq (k u : Nat) (c : Capture) : (s.setCap k u c).aq = s.aq := rfl
@[simp] theorem State.setCap_flog (k u : Nat) (c : Capture) : (s.setCap k u c).flog = s.flog := rfl
@[simp] theorem State.setCap_baySw (k u : Nat) (c : Capture) : (s.setCap k u c).baySw = s.baySw := rfl
@[simp] theorem State.setCap_rcal (k u : Nat) (c : Capture) : (s.setCap k u c).rcal = s.rcal := rfl
@[simp] theorem State.setCap_adc (k u : Nat) (c : Capture) : (s.setCap k u c).adc = s.adc := rfl
@[simp] theorem State.setCap_cmp (k u : Nat) (c : Capture) : (s.setCap k u c).cmp = s.cmp := rfl
@[simp] theorem State.setCap_dac (k u : Nat) (c : Capture) : (s.setCap k u c).dac = s.dac := rfl
@[simp] theorem State.setCap_fab (k u : Nat) (c : Capture) : (s.setCap k u c).fab = s.fab := rfl
@[simp] theorem State.setCap_ffs (k u : Nat) (c : Capture) : (s.setCap k u c).ffs = s.ffs := rfl
@[simp] theorem State.setCap_dmaTrig (k u : Nat) (c : Capture) : (s.setCap k u c).dmaTrig = s.dmaTrig := rfl
@[simp] theorem State.setCap_wipe (k u : Nat) (c : Capture) : (s.setCap k u c).wipe = s.wipe := rfl
@[simp] theorem State.setCap_attar (k u : Nat) (c : Capture) : (s.setCap k u c).attar = s.attar := rfl
@[simp] theorem State.setCap_strobes (k u : Nat) (c : Capture) : (s.setCap k u c).strobes = s.strobes := rfl
@[simp] theorem State.setCap_pwr (k u : Nat) (c : Capture) : (s.setCap k u c).pwr = s.pwr := rfl
@[simp] theorem State.setCap_pcie (k u : Nat) (c : Capture) : (s.setCap k u c).pcie = s.pcie := rfl
@[simp] theorem State.setCap_sil (k u : Nat) (c : Capture) : (s.setCap k u c).sil = s.sil := rfl
@[simp] theorem State.setCap_actOut (k u : Nat) (c : Capture) : (s.setCap k u c).actOut = s.actOut := rfl
@[simp] theorem State.setCap_actAt (k u : Nat) (c : Capture) : (s.setCap k u c).actAt = s.actAt := rfl
@[simp] theorem State.setCap_chOut (k u : Nat) (c : Capture) : (s.setCap k u c).chOut = s.chOut := rfl
@[simp] theorem State.setCap_pinDef (k u : Nat) (c : Capture) : (s.setCap k u c).pinDef = s.pinDef := rfl
@[simp] theorem State.setCap_pinRel (k u : Nat) (c : Capture) : (s.setCap k u c).pinRel = s.pinRel := rfl
@[simp] theorem State.setCap_clearq (k u : Nat) (c : Capture) : (s.setCap k u c).clearq = s.clearq := rfl
@[simp] theorem State.setCap_wbq (k u : Nat) (c : Capture) : (s.setCap k u c).wbq = s.wbq := rfl
@[simp] theorem State.setCap_pins (k u : Nat) (c : Capture) : (s.setCap k u c).pins = s.pins := rfl
@[simp] theorem State.setCap_keep (k u : Nat) (c : Capture) : (s.setCap k u c).keep = s.keep := rfl
@[simp] theorem State.setCap_dmaAbort (k u : Nat) (c : Capture) : (s.setCap k u c).dmaAbort = s.dmaAbort := rfl
@[simp] theorem State.setCap_lines (k u : Nat) (c : Capture) : (s.setCap k u c).lines = s.lines := rfl
@[simp] theorem State.setCap_nodes (k u : Nat) (c : Capture) : (s.setCap k u c).nodes = s.nodes := rfl
@[simp] theorem State.setCap_pair (k u : Nat) (c : Capture) : (s.setCap k u c).pair = s.pair := rfl
@[simp] theorem State.setCap_lc (k u : Nat) (c : Capture) : (s.setCap k u c).lc = s.lc := rfl
@[simp] theorem State.setCap_loader (k u : Nat) (c : Capture) : (s.setCap k u c).loader = s.loader := rfl
@[simp] theorem State.setCap_cfgmem (k u : Nat) (c : Capture) : (s.setCap k u c).cfgmem = s.cfgmem := rfl
@[simp] theorem State.setCap_cfgFlip (k u : Nat) (c : Capture) : (s.setCap k u c).cfgFlip = s.cfgFlip := rfl
@[simp] theorem State.setCap_scrub (k u : Nat) (c : Capture) : (s.setCap k u c).scrub = s.scrub := rfl
@[simp] theorem State.setCap_safe (k u : Nat) (c : Capture) : (s.setCap k u c).safe = s.safe := rfl
@[simp] theorem State.setCap_ist (k u : Nat) (c : Capture) : (s.setCap k u c).ist = s.ist := rfl
@[simp] theorem State.setCap_snap (k u : Nat) (c : Capture) : (s.setCap k u c).snap = s.snap := rfl
@[simp] theorem State.setCap_can (k u : Nat) (c : Capture) : (s.setCap k u c).can = s.can := rfl
@[simp] theorem State.setCap_spi (k u : Nat) (c : Capture) : (s.setCap k u c).spi = s.spi := rfl
@[simp] theorem State.setCap_i2c (k u : Nat) (c : Capture) : (s.setCap k u c).i2c = s.i2c := rfl
@[simp] theorem State.setCap_uart (k u : Nat) (c : Capture) : (s.setCap k u c).uart = s.uart := rfl
@[simp] theorem State.setCap_tap (k u : Nat) (c : Capture) : (s.setCap k u c).tap = s.tap := rfl

@[simp] theorem State.setLine_pending (l : Nat) (x : Line) : (s.setLine l x).pending = s.pending := rfl
@[simp] theorem State.setLine_outbox (l : Nat) (x : Line) : (s.setLine l x).outbox = s.outbox := rfl
@[simp] theorem State.setLine_freeCtr (l : Nat) (x : Line) : (s.setLine l x).freeCtr = s.freeCtr := rfl
@[simp] theorem State.setLine_part (l : Nat) (x : Line) : (s.setLine l x).part = s.part := rfl
@[simp] theorem State.setLine_regs (l : Nat) (x : Line) : (s.setLine l x).regs = s.regs := rfl
@[simp] theorem State.setLine_mem (l : Nat) (x : Line) : (s.setLine l x).mem = s.mem := rfl
@[simp] theorem State.setLine_ecc (l : Nat) (x : Line) : (s.setLine l x).ecc = s.ecc := rfl
@[simp] theorem State.setLine_evq (l : Nat) (x : Line) : (s.setLine l x).evq = s.evq := rfl
@[simp] theorem State.setLine_msiHeld (l : Nat) (x : Line) : (s.setLine l x).msiHeld = s.msiHeld := rfl
@[simp] theorem State.setLine_tickCopy (l : Nat) (x : Line) : (s.setLine l x).tickCopy = s.tickCopy := rfl
@[simp] theorem State.setLine_tb (l : Nat) (x : Line) : (s.setLine l x).tb = s.tb := rfl
@[simp] theorem State.setLine_enc (l : Nat) (x : Line) : (s.setLine l x).enc = s.enc := rfl
@[simp] theorem State.setLine_snaps (l : Nat) (x : Line) : (s.setLine l x).snaps = s.snaps := rfl
@[simp] theorem State.setLine_hop (l : Nat) (x : Line) : (s.setLine l x).hop = s.hop := rfl
@[simp] theorem State.setLine_stores (l : Nat) (x : Line) : (s.setLine l x).stores = s.stores := rfl
@[simp] theorem State.setLine_pwm (l : Nat) (x : Line) : (s.setLine l x).pwm = s.pwm := rfl
@[simp] theorem State.setLine_cap (l : Nat) (x : Line) : (s.setLine l x).cap = s.cap := rfl
@[simp] theorem State.setLine_qdAt (l : Nat) (x : Line) : (s.setLine l x).qdAt = s.qdAt := rfl
@[simp] theorem State.setLine_sect (l : Nat) (x : Line) : (s.setLine l x).sect = s.sect := rfl
@[simp] theorem State.setLine_tickVals (l : Nat) (x : Line) : (s.setLine l x).tickVals = s.tickVals := rfl
@[simp] theorem State.setLine_rr (l : Nat) (x : Line) : (s.setLine l x).rr = s.rr := rfl
@[simp] theorem State.setLine_rrAsk (l : Nat) (x : Line) : (s.setLine l x).rrAsk = s.rrAsk := rfl
@[simp] theorem State.setLine_eng (l : Nat) (x : Line) : (s.setLine l x).eng = s.eng := rfl
@[simp] theorem State.setLine_chans (l : Nat) (x : Line) : (s.setLine l x).chans = s.chans := rfl
@[simp] theorem State.setLine_rb (l : Nat) (x : Line) : (s.setLine l x).rb = s.rb := rfl
@[simp] theorem State.setLine_aq (l : Nat) (x : Line) : (s.setLine l x).aq = s.aq := rfl
@[simp] theorem State.setLine_flog (l : Nat) (x : Line) : (s.setLine l x).flog = s.flog := rfl
@[simp] theorem State.setLine_baySw (l : Nat) (x : Line) : (s.setLine l x).baySw = s.baySw := rfl
@[simp] theorem State.setLine_rcal (l : Nat) (x : Line) : (s.setLine l x).rcal = s.rcal := rfl
@[simp] theorem State.setLine_adc (l : Nat) (x : Line) : (s.setLine l x).adc = s.adc := rfl
@[simp] theorem State.setLine_cmp (l : Nat) (x : Line) : (s.setLine l x).cmp = s.cmp := rfl
@[simp] theorem State.setLine_dac (l : Nat) (x : Line) : (s.setLine l x).dac = s.dac := rfl
@[simp] theorem State.setLine_fab (l : Nat) (x : Line) : (s.setLine l x).fab = s.fab := rfl
@[simp] theorem State.setLine_ffs (l : Nat) (x : Line) : (s.setLine l x).ffs = s.ffs := rfl
@[simp] theorem State.setLine_dmaTrig (l : Nat) (x : Line) : (s.setLine l x).dmaTrig = s.dmaTrig := rfl
@[simp] theorem State.setLine_wipe (l : Nat) (x : Line) : (s.setLine l x).wipe = s.wipe := rfl
@[simp] theorem State.setLine_attar (l : Nat) (x : Line) : (s.setLine l x).attar = s.attar := rfl
@[simp] theorem State.setLine_strobes (l : Nat) (x : Line) : (s.setLine l x).strobes = s.strobes := rfl
@[simp] theorem State.setLine_pwr (l : Nat) (x : Line) : (s.setLine l x).pwr = s.pwr := rfl
@[simp] theorem State.setLine_pcie (l : Nat) (x : Line) : (s.setLine l x).pcie = s.pcie := rfl
@[simp] theorem State.setLine_sil (l : Nat) (x : Line) : (s.setLine l x).sil = s.sil := rfl
@[simp] theorem State.setLine_actOut (l : Nat) (x : Line) : (s.setLine l x).actOut = s.actOut := rfl
@[simp] theorem State.setLine_actAt (l : Nat) (x : Line) : (s.setLine l x).actAt = s.actAt := rfl
@[simp] theorem State.setLine_chOut (l : Nat) (x : Line) : (s.setLine l x).chOut = s.chOut := rfl
@[simp] theorem State.setLine_pinDef (l : Nat) (x : Line) : (s.setLine l x).pinDef = s.pinDef := rfl
@[simp] theorem State.setLine_pinRel (l : Nat) (x : Line) : (s.setLine l x).pinRel = s.pinRel := rfl
@[simp] theorem State.setLine_clearq (l : Nat) (x : Line) : (s.setLine l x).clearq = s.clearq := rfl
@[simp] theorem State.setLine_wbq (l : Nat) (x : Line) : (s.setLine l x).wbq = s.wbq := rfl
@[simp] theorem State.setLine_pins (l : Nat) (x : Line) : (s.setLine l x).pins = s.pins := rfl
@[simp] theorem State.setLine_keep (l : Nat) (x : Line) : (s.setLine l x).keep = s.keep := rfl
@[simp] theorem State.setLine_dmaAbort (l : Nat) (x : Line) : (s.setLine l x).dmaAbort = s.dmaAbort := rfl
@[simp] theorem State.setLine_nodes (l : Nat) (x : Line) : (s.setLine l x).nodes = s.nodes := rfl
@[simp] theorem State.setLine_pair (l : Nat) (x : Line) : (s.setLine l x).pair = s.pair := rfl
@[simp] theorem State.setLine_lc (l : Nat) (x : Line) : (s.setLine l x).lc = s.lc := rfl
@[simp] theorem State.setLine_loader (l : Nat) (x : Line) : (s.setLine l x).loader = s.loader := rfl
@[simp] theorem State.setLine_cfgmem (l : Nat) (x : Line) : (s.setLine l x).cfgmem = s.cfgmem := rfl
@[simp] theorem State.setLine_cfgFlip (l : Nat) (x : Line) : (s.setLine l x).cfgFlip = s.cfgFlip := rfl
@[simp] theorem State.setLine_scrub (l : Nat) (x : Line) : (s.setLine l x).scrub = s.scrub := rfl
@[simp] theorem State.setLine_safe (l : Nat) (x : Line) : (s.setLine l x).safe = s.safe := rfl
@[simp] theorem State.setLine_ist (l : Nat) (x : Line) : (s.setLine l x).ist = s.ist := rfl
@[simp] theorem State.setLine_snap (l : Nat) (x : Line) : (s.setLine l x).snap = s.snap := rfl
@[simp] theorem State.setLine_can (l : Nat) (x : Line) : (s.setLine l x).can = s.can := rfl
@[simp] theorem State.setLine_spi (l : Nat) (x : Line) : (s.setLine l x).spi = s.spi := rfl
@[simp] theorem State.setLine_i2c (l : Nat) (x : Line) : (s.setLine l x).i2c = s.i2c := rfl
@[simp] theorem State.setLine_uart (l : Nat) (x : Line) : (s.setLine l x).uart = s.uart := rfl
@[simp] theorem State.setLine_tap (l : Nat) (x : Line) : (s.setLine l x).tap = s.tap := rfl

@[simp] theorem State.setNode_pending (l k : Nat) (x : Node) : (s.setNode l k x).pending = s.pending := rfl
@[simp] theorem State.setNode_outbox (l k : Nat) (x : Node) : (s.setNode l k x).outbox = s.outbox := rfl
@[simp] theorem State.setNode_freeCtr (l k : Nat) (x : Node) : (s.setNode l k x).freeCtr = s.freeCtr := rfl
@[simp] theorem State.setNode_part (l k : Nat) (x : Node) : (s.setNode l k x).part = s.part := rfl
@[simp] theorem State.setNode_regs (l k : Nat) (x : Node) : (s.setNode l k x).regs = s.regs := rfl
@[simp] theorem State.setNode_mem (l k : Nat) (x : Node) : (s.setNode l k x).mem = s.mem := rfl
@[simp] theorem State.setNode_ecc (l k : Nat) (x : Node) : (s.setNode l k x).ecc = s.ecc := rfl
@[simp] theorem State.setNode_evq (l k : Nat) (x : Node) : (s.setNode l k x).evq = s.evq := rfl
@[simp] theorem State.setNode_msiHeld (l k : Nat) (x : Node) : (s.setNode l k x).msiHeld = s.msiHeld := rfl
@[simp] theorem State.setNode_tickCopy (l k : Nat) (x : Node) : (s.setNode l k x).tickCopy = s.tickCopy := rfl
@[simp] theorem State.setNode_tb (l k : Nat) (x : Node) : (s.setNode l k x).tb = s.tb := rfl
@[simp] theorem State.setNode_enc (l k : Nat) (x : Node) : (s.setNode l k x).enc = s.enc := rfl
@[simp] theorem State.setNode_snaps (l k : Nat) (x : Node) : (s.setNode l k x).snaps = s.snaps := rfl
@[simp] theorem State.setNode_hop (l k : Nat) (x : Node) : (s.setNode l k x).hop = s.hop := rfl
@[simp] theorem State.setNode_stores (l k : Nat) (x : Node) : (s.setNode l k x).stores = s.stores := rfl
@[simp] theorem State.setNode_pwm (l k : Nat) (x : Node) : (s.setNode l k x).pwm = s.pwm := rfl
@[simp] theorem State.setNode_cap (l k : Nat) (x : Node) : (s.setNode l k x).cap = s.cap := rfl
@[simp] theorem State.setNode_qdAt (l k : Nat) (x : Node) : (s.setNode l k x).qdAt = s.qdAt := rfl
@[simp] theorem State.setNode_sect (l k : Nat) (x : Node) : (s.setNode l k x).sect = s.sect := rfl
@[simp] theorem State.setNode_tickVals (l k : Nat) (x : Node) : (s.setNode l k x).tickVals = s.tickVals := rfl
@[simp] theorem State.setNode_rr (l k : Nat) (x : Node) : (s.setNode l k x).rr = s.rr := rfl
@[simp] theorem State.setNode_rrAsk (l k : Nat) (x : Node) : (s.setNode l k x).rrAsk = s.rrAsk := rfl
@[simp] theorem State.setNode_eng (l k : Nat) (x : Node) : (s.setNode l k x).eng = s.eng := rfl
@[simp] theorem State.setNode_chans (l k : Nat) (x : Node) : (s.setNode l k x).chans = s.chans := rfl
@[simp] theorem State.setNode_rb (l k : Nat) (x : Node) : (s.setNode l k x).rb = s.rb := rfl
@[simp] theorem State.setNode_aq (l k : Nat) (x : Node) : (s.setNode l k x).aq = s.aq := rfl
@[simp] theorem State.setNode_flog (l k : Nat) (x : Node) : (s.setNode l k x).flog = s.flog := rfl
@[simp] theorem State.setNode_baySw (l k : Nat) (x : Node) : (s.setNode l k x).baySw = s.baySw := rfl
@[simp] theorem State.setNode_rcal (l k : Nat) (x : Node) : (s.setNode l k x).rcal = s.rcal := rfl
@[simp] theorem State.setNode_adc (l k : Nat) (x : Node) : (s.setNode l k x).adc = s.adc := rfl
@[simp] theorem State.setNode_cmp (l k : Nat) (x : Node) : (s.setNode l k x).cmp = s.cmp := rfl
@[simp] theorem State.setNode_dac (l k : Nat) (x : Node) : (s.setNode l k x).dac = s.dac := rfl
@[simp] theorem State.setNode_fab (l k : Nat) (x : Node) : (s.setNode l k x).fab = s.fab := rfl
@[simp] theorem State.setNode_ffs (l k : Nat) (x : Node) : (s.setNode l k x).ffs = s.ffs := rfl
@[simp] theorem State.setNode_dmaTrig (l k : Nat) (x : Node) : (s.setNode l k x).dmaTrig = s.dmaTrig := rfl
@[simp] theorem State.setNode_wipe (l k : Nat) (x : Node) : (s.setNode l k x).wipe = s.wipe := rfl
@[simp] theorem State.setNode_attar (l k : Nat) (x : Node) : (s.setNode l k x).attar = s.attar := rfl
@[simp] theorem State.setNode_strobes (l k : Nat) (x : Node) : (s.setNode l k x).strobes = s.strobes := rfl
@[simp] theorem State.setNode_pwr (l k : Nat) (x : Node) : (s.setNode l k x).pwr = s.pwr := rfl
@[simp] theorem State.setNode_pcie (l k : Nat) (x : Node) : (s.setNode l k x).pcie = s.pcie := rfl
@[simp] theorem State.setNode_sil (l k : Nat) (x : Node) : (s.setNode l k x).sil = s.sil := rfl
@[simp] theorem State.setNode_actOut (l k : Nat) (x : Node) : (s.setNode l k x).actOut = s.actOut := rfl
@[simp] theorem State.setNode_actAt (l k : Nat) (x : Node) : (s.setNode l k x).actAt = s.actAt := rfl
@[simp] theorem State.setNode_chOut (l k : Nat) (x : Node) : (s.setNode l k x).chOut = s.chOut := rfl
@[simp] theorem State.setNode_pinDef (l k : Nat) (x : Node) : (s.setNode l k x).pinDef = s.pinDef := rfl
@[simp] theorem State.setNode_pinRel (l k : Nat) (x : Node) : (s.setNode l k x).pinRel = s.pinRel := rfl
@[simp] theorem State.setNode_clearq (l k : Nat) (x : Node) : (s.setNode l k x).clearq = s.clearq := rfl
@[simp] theorem State.setNode_wbq (l k : Nat) (x : Node) : (s.setNode l k x).wbq = s.wbq := rfl
@[simp] theorem State.setNode_pins (l k : Nat) (x : Node) : (s.setNode l k x).pins = s.pins := rfl
@[simp] theorem State.setNode_keep (l k : Nat) (x : Node) : (s.setNode l k x).keep = s.keep := rfl
@[simp] theorem State.setNode_dmaAbort (l k : Nat) (x : Node) : (s.setNode l k x).dmaAbort = s.dmaAbort := rfl
@[simp] theorem State.setNode_lines (l k : Nat) (x : Node) : (s.setNode l k x).lines = s.lines := rfl
@[simp] theorem State.setNode_pair (l k : Nat) (x : Node) : (s.setNode l k x).pair = s.pair := rfl
@[simp] theorem State.setNode_lc (l k : Nat) (x : Node) : (s.setNode l k x).lc = s.lc := rfl
@[simp] theorem State.setNode_loader (l k : Nat) (x : Node) : (s.setNode l k x).loader = s.loader := rfl
@[simp] theorem State.setNode_cfgmem (l k : Nat) (x : Node) : (s.setNode l k x).cfgmem = s.cfgmem := rfl
@[simp] theorem State.setNode_cfgFlip (l k : Nat) (x : Node) : (s.setNode l k x).cfgFlip = s.cfgFlip := rfl
@[simp] theorem State.setNode_scrub (l k : Nat) (x : Node) : (s.setNode l k x).scrub = s.scrub := rfl
@[simp] theorem State.setNode_safe (l k : Nat) (x : Node) : (s.setNode l k x).safe = s.safe := rfl
@[simp] theorem State.setNode_ist (l k : Nat) (x : Node) : (s.setNode l k x).ist = s.ist := rfl
@[simp] theorem State.setNode_snap (l k : Nat) (x : Node) : (s.setNode l k x).snap = s.snap := rfl
@[simp] theorem State.setNode_can (l k : Nat) (x : Node) : (s.setNode l k x).can = s.can := rfl
@[simp] theorem State.setNode_spi (l k : Nat) (x : Node) : (s.setNode l k x).spi = s.spi := rfl
@[simp] theorem State.setNode_i2c (l k : Nat) (x : Node) : (s.setNode l k x).i2c = s.i2c := rfl
@[simp] theorem State.setNode_uart (l k : Nat) (x : Node) : (s.setNode l k x).uart = s.uart := rfl
@[simp] theorem State.setNode_tap (l k : Nat) (x : Node) : (s.setNode l k x).tap = s.tap := rfl

@[simp] theorem State.withPair_pending (f : Pair → Pair) : (s.withPair f).pending = s.pending := rfl
@[simp] theorem State.withPair_outbox (f : Pair → Pair) : (s.withPair f).outbox = s.outbox := rfl
@[simp] theorem State.withPair_freeCtr (f : Pair → Pair) : (s.withPair f).freeCtr = s.freeCtr := rfl
@[simp] theorem State.withPair_part (f : Pair → Pair) : (s.withPair f).part = s.part := rfl
@[simp] theorem State.withPair_regs (f : Pair → Pair) : (s.withPair f).regs = s.regs := rfl
@[simp] theorem State.withPair_mem (f : Pair → Pair) : (s.withPair f).mem = s.mem := rfl
@[simp] theorem State.withPair_ecc (f : Pair → Pair) : (s.withPair f).ecc = s.ecc := rfl
@[simp] theorem State.withPair_evq (f : Pair → Pair) : (s.withPair f).evq = s.evq := rfl
@[simp] theorem State.withPair_msiHeld (f : Pair → Pair) : (s.withPair f).msiHeld = s.msiHeld := rfl
@[simp] theorem State.withPair_tickCopy (f : Pair → Pair) : (s.withPair f).tickCopy = s.tickCopy := rfl
@[simp] theorem State.withPair_tb (f : Pair → Pair) : (s.withPair f).tb = s.tb := rfl
@[simp] theorem State.withPair_enc (f : Pair → Pair) : (s.withPair f).enc = s.enc := rfl
@[simp] theorem State.withPair_snaps (f : Pair → Pair) : (s.withPair f).snaps = s.snaps := rfl
@[simp] theorem State.withPair_hop (f : Pair → Pair) : (s.withPair f).hop = s.hop := rfl
@[simp] theorem State.withPair_stores (f : Pair → Pair) : (s.withPair f).stores = s.stores := rfl
@[simp] theorem State.withPair_pwm (f : Pair → Pair) : (s.withPair f).pwm = s.pwm := rfl
@[simp] theorem State.withPair_cap (f : Pair → Pair) : (s.withPair f).cap = s.cap := rfl
@[simp] theorem State.withPair_qdAt (f : Pair → Pair) : (s.withPair f).qdAt = s.qdAt := rfl
@[simp] theorem State.withPair_sect (f : Pair → Pair) : (s.withPair f).sect = s.sect := rfl
@[simp] theorem State.withPair_tickVals (f : Pair → Pair) : (s.withPair f).tickVals = s.tickVals := rfl
@[simp] theorem State.withPair_rr (f : Pair → Pair) : (s.withPair f).rr = s.rr := rfl
@[simp] theorem State.withPair_rrAsk (f : Pair → Pair) : (s.withPair f).rrAsk = s.rrAsk := rfl
@[simp] theorem State.withPair_eng (f : Pair → Pair) : (s.withPair f).eng = s.eng := rfl
@[simp] theorem State.withPair_chans (f : Pair → Pair) : (s.withPair f).chans = s.chans := rfl
@[simp] theorem State.withPair_rb (f : Pair → Pair) : (s.withPair f).rb = s.rb := rfl
@[simp] theorem State.withPair_aq (f : Pair → Pair) : (s.withPair f).aq = s.aq := rfl
@[simp] theorem State.withPair_flog (f : Pair → Pair) : (s.withPair f).flog = s.flog := rfl
@[simp] theorem State.withPair_baySw (f : Pair → Pair) : (s.withPair f).baySw = s.baySw := rfl
@[simp] theorem State.withPair_rcal (f : Pair → Pair) : (s.withPair f).rcal = s.rcal := rfl
@[simp] theorem State.withPair_adc (f : Pair → Pair) : (s.withPair f).adc = s.adc := rfl
@[simp] theorem State.withPair_cmp (f : Pair → Pair) : (s.withPair f).cmp = s.cmp := rfl
@[simp] theorem State.withPair_dac (f : Pair → Pair) : (s.withPair f).dac = s.dac := rfl
@[simp] theorem State.withPair_fab (f : Pair → Pair) : (s.withPair f).fab = s.fab := rfl
@[simp] theorem State.withPair_ffs (f : Pair → Pair) : (s.withPair f).ffs = s.ffs := rfl
@[simp] theorem State.withPair_dmaTrig (f : Pair → Pair) : (s.withPair f).dmaTrig = s.dmaTrig := rfl
@[simp] theorem State.withPair_wipe (f : Pair → Pair) : (s.withPair f).wipe = s.wipe := rfl
@[simp] theorem State.withPair_attar (f : Pair → Pair) : (s.withPair f).attar = s.attar := rfl
@[simp] theorem State.withPair_strobes (f : Pair → Pair) : (s.withPair f).strobes = s.strobes := rfl
@[simp] theorem State.withPair_pwr (f : Pair → Pair) : (s.withPair f).pwr = s.pwr := rfl
@[simp] theorem State.withPair_pcie (f : Pair → Pair) : (s.withPair f).pcie = s.pcie := rfl
@[simp] theorem State.withPair_sil (f : Pair → Pair) : (s.withPair f).sil = s.sil := rfl
@[simp] theorem State.withPair_actOut (f : Pair → Pair) : (s.withPair f).actOut = s.actOut := rfl
@[simp] theorem State.withPair_actAt (f : Pair → Pair) : (s.withPair f).actAt = s.actAt := rfl
@[simp] theorem State.withPair_chOut (f : Pair → Pair) : (s.withPair f).chOut = s.chOut := rfl
@[simp] theorem State.withPair_pinDef (f : Pair → Pair) : (s.withPair f).pinDef = s.pinDef := rfl
@[simp] theorem State.withPair_pinRel (f : Pair → Pair) : (s.withPair f).pinRel = s.pinRel := rfl
@[simp] theorem State.withPair_clearq (f : Pair → Pair) : (s.withPair f).clearq = s.clearq := rfl
@[simp] theorem State.withPair_wbq (f : Pair → Pair) : (s.withPair f).wbq = s.wbq := rfl
@[simp] theorem State.withPair_pins (f : Pair → Pair) : (s.withPair f).pins = s.pins := rfl
@[simp] theorem State.withPair_keep (f : Pair → Pair) : (s.withPair f).keep = s.keep := rfl
@[simp] theorem State.withPair_dmaAbort (f : Pair → Pair) : (s.withPair f).dmaAbort = s.dmaAbort := rfl
@[simp] theorem State.withPair_lines (f : Pair → Pair) : (s.withPair f).lines = s.lines := rfl
@[simp] theorem State.withPair_nodes (f : Pair → Pair) : (s.withPair f).nodes = s.nodes := rfl
@[simp] theorem State.withPair_lc (f : Pair → Pair) : (s.withPair f).lc = s.lc := rfl
@[simp] theorem State.withPair_loader (f : Pair → Pair) : (s.withPair f).loader = s.loader := rfl
@[simp] theorem State.withPair_cfgmem (f : Pair → Pair) : (s.withPair f).cfgmem = s.cfgmem := rfl
@[simp] theorem State.withPair_cfgFlip (f : Pair → Pair) : (s.withPair f).cfgFlip = s.cfgFlip := rfl
@[simp] theorem State.withPair_scrub (f : Pair → Pair) : (s.withPair f).scrub = s.scrub := rfl
@[simp] theorem State.withPair_safe (f : Pair → Pair) : (s.withPair f).safe = s.safe := rfl
@[simp] theorem State.withPair_ist (f : Pair → Pair) : (s.withPair f).ist = s.ist := rfl
@[simp] theorem State.withPair_snap (f : Pair → Pair) : (s.withPair f).snap = s.snap := rfl
@[simp] theorem State.withPair_can (f : Pair → Pair) : (s.withPair f).can = s.can := rfl
@[simp] theorem State.withPair_spi (f : Pair → Pair) : (s.withPair f).spi = s.spi := rfl
@[simp] theorem State.withPair_i2c (f : Pair → Pair) : (s.withPair f).i2c = s.i2c := rfl
@[simp] theorem State.withPair_uart (f : Pair → Pair) : (s.withPair f).uart = s.uart := rfl
@[simp] theorem State.withPair_tap (f : Pair → Pair) : (s.withPair f).tap = s.tap := rfl

@[simp] theorem State.withLoader_pending (f : Loader → Loader) : (s.withLoader f).pending = s.pending := rfl
@[simp] theorem State.withLoader_outbox (f : Loader → Loader) : (s.withLoader f).outbox = s.outbox := rfl
@[simp] theorem State.withLoader_freeCtr (f : Loader → Loader) : (s.withLoader f).freeCtr = s.freeCtr := rfl
@[simp] theorem State.withLoader_part (f : Loader → Loader) : (s.withLoader f).part = s.part := rfl
@[simp] theorem State.withLoader_regs (f : Loader → Loader) : (s.withLoader f).regs = s.regs := rfl
@[simp] theorem State.withLoader_mem (f : Loader → Loader) : (s.withLoader f).mem = s.mem := rfl
@[simp] theorem State.withLoader_ecc (f : Loader → Loader) : (s.withLoader f).ecc = s.ecc := rfl
@[simp] theorem State.withLoader_evq (f : Loader → Loader) : (s.withLoader f).evq = s.evq := rfl
@[simp] theorem State.withLoader_msiHeld (f : Loader → Loader) : (s.withLoader f).msiHeld = s.msiHeld := rfl
@[simp] theorem State.withLoader_tickCopy (f : Loader → Loader) : (s.withLoader f).tickCopy = s.tickCopy := rfl
@[simp] theorem State.withLoader_tb (f : Loader → Loader) : (s.withLoader f).tb = s.tb := rfl
@[simp] theorem State.withLoader_enc (f : Loader → Loader) : (s.withLoader f).enc = s.enc := rfl
@[simp] theorem State.withLoader_snaps (f : Loader → Loader) : (s.withLoader f).snaps = s.snaps := rfl
@[simp] theorem State.withLoader_hop (f : Loader → Loader) : (s.withLoader f).hop = s.hop := rfl
@[simp] theorem State.withLoader_stores (f : Loader → Loader) : (s.withLoader f).stores = s.stores := rfl
@[simp] theorem State.withLoader_pwm (f : Loader → Loader) : (s.withLoader f).pwm = s.pwm := rfl
@[simp] theorem State.withLoader_cap (f : Loader → Loader) : (s.withLoader f).cap = s.cap := rfl
@[simp] theorem State.withLoader_qdAt (f : Loader → Loader) : (s.withLoader f).qdAt = s.qdAt := rfl
@[simp] theorem State.withLoader_sect (f : Loader → Loader) : (s.withLoader f).sect = s.sect := rfl
@[simp] theorem State.withLoader_tickVals (f : Loader → Loader) : (s.withLoader f).tickVals = s.tickVals := rfl
@[simp] theorem State.withLoader_rr (f : Loader → Loader) : (s.withLoader f).rr = s.rr := rfl
@[simp] theorem State.withLoader_rrAsk (f : Loader → Loader) : (s.withLoader f).rrAsk = s.rrAsk := rfl
@[simp] theorem State.withLoader_eng (f : Loader → Loader) : (s.withLoader f).eng = s.eng := rfl
@[simp] theorem State.withLoader_chans (f : Loader → Loader) : (s.withLoader f).chans = s.chans := rfl
@[simp] theorem State.withLoader_rb (f : Loader → Loader) : (s.withLoader f).rb = s.rb := rfl
@[simp] theorem State.withLoader_aq (f : Loader → Loader) : (s.withLoader f).aq = s.aq := rfl
@[simp] theorem State.withLoader_flog (f : Loader → Loader) : (s.withLoader f).flog = s.flog := rfl
@[simp] theorem State.withLoader_baySw (f : Loader → Loader) : (s.withLoader f).baySw = s.baySw := rfl
@[simp] theorem State.withLoader_rcal (f : Loader → Loader) : (s.withLoader f).rcal = s.rcal := rfl
@[simp] theorem State.withLoader_adc (f : Loader → Loader) : (s.withLoader f).adc = s.adc := rfl
@[simp] theorem State.withLoader_cmp (f : Loader → Loader) : (s.withLoader f).cmp = s.cmp := rfl
@[simp] theorem State.withLoader_dac (f : Loader → Loader) : (s.withLoader f).dac = s.dac := rfl
@[simp] theorem State.withLoader_fab (f : Loader → Loader) : (s.withLoader f).fab = s.fab := rfl
@[simp] theorem State.withLoader_ffs (f : Loader → Loader) : (s.withLoader f).ffs = s.ffs := rfl
@[simp] theorem State.withLoader_dmaTrig (f : Loader → Loader) : (s.withLoader f).dmaTrig = s.dmaTrig := rfl
@[simp] theorem State.withLoader_wipe (f : Loader → Loader) : (s.withLoader f).wipe = s.wipe := rfl
@[simp] theorem State.withLoader_attar (f : Loader → Loader) : (s.withLoader f).attar = s.attar := rfl
@[simp] theorem State.withLoader_strobes (f : Loader → Loader) : (s.withLoader f).strobes = s.strobes := rfl
@[simp] theorem State.withLoader_pwr (f : Loader → Loader) : (s.withLoader f).pwr = s.pwr := rfl
@[simp] theorem State.withLoader_pcie (f : Loader → Loader) : (s.withLoader f).pcie = s.pcie := rfl
@[simp] theorem State.withLoader_sil (f : Loader → Loader) : (s.withLoader f).sil = s.sil := rfl
@[simp] theorem State.withLoader_actOut (f : Loader → Loader) : (s.withLoader f).actOut = s.actOut := rfl
@[simp] theorem State.withLoader_actAt (f : Loader → Loader) : (s.withLoader f).actAt = s.actAt := rfl
@[simp] theorem State.withLoader_chOut (f : Loader → Loader) : (s.withLoader f).chOut = s.chOut := rfl
@[simp] theorem State.withLoader_pinDef (f : Loader → Loader) : (s.withLoader f).pinDef = s.pinDef := rfl
@[simp] theorem State.withLoader_pinRel (f : Loader → Loader) : (s.withLoader f).pinRel = s.pinRel := rfl
@[simp] theorem State.withLoader_clearq (f : Loader → Loader) : (s.withLoader f).clearq = s.clearq := rfl
@[simp] theorem State.withLoader_wbq (f : Loader → Loader) : (s.withLoader f).wbq = s.wbq := rfl
@[simp] theorem State.withLoader_pins (f : Loader → Loader) : (s.withLoader f).pins = s.pins := rfl
@[simp] theorem State.withLoader_keep (f : Loader → Loader) : (s.withLoader f).keep = s.keep := rfl
@[simp] theorem State.withLoader_dmaAbort (f : Loader → Loader) : (s.withLoader f).dmaAbort = s.dmaAbort := rfl
@[simp] theorem State.withLoader_lines (f : Loader → Loader) : (s.withLoader f).lines = s.lines := rfl
@[simp] theorem State.withLoader_nodes (f : Loader → Loader) : (s.withLoader f).nodes = s.nodes := rfl
@[simp] theorem State.withLoader_pair (f : Loader → Loader) : (s.withLoader f).pair = s.pair := rfl
@[simp] theorem State.withLoader_lc (f : Loader → Loader) : (s.withLoader f).lc = s.lc := rfl
@[simp] theorem State.withLoader_cfgmem (f : Loader → Loader) : (s.withLoader f).cfgmem = s.cfgmem := rfl
@[simp] theorem State.withLoader_cfgFlip (f : Loader → Loader) : (s.withLoader f).cfgFlip = s.cfgFlip := rfl
@[simp] theorem State.withLoader_scrub (f : Loader → Loader) : (s.withLoader f).scrub = s.scrub := rfl
@[simp] theorem State.withLoader_safe (f : Loader → Loader) : (s.withLoader f).safe = s.safe := rfl
@[simp] theorem State.withLoader_ist (f : Loader → Loader) : (s.withLoader f).ist = s.ist := rfl
@[simp] theorem State.withLoader_snap (f : Loader → Loader) : (s.withLoader f).snap = s.snap := rfl
@[simp] theorem State.withLoader_can (f : Loader → Loader) : (s.withLoader f).can = s.can := rfl
@[simp] theorem State.withLoader_spi (f : Loader → Loader) : (s.withLoader f).spi = s.spi := rfl
@[simp] theorem State.withLoader_i2c (f : Loader → Loader) : (s.withLoader f).i2c = s.i2c := rfl
@[simp] theorem State.withLoader_uart (f : Loader → Loader) : (s.withLoader f).uart = s.uart := rfl
@[simp] theorem State.withLoader_tap (f : Loader → Loader) : (s.withLoader f).tap = s.tap := rfl

@[simp] theorem State.withQueue_outbox (q : List Instr) : (s.withQueue q).outbox = s.outbox := rfl
@[simp] theorem State.withQueue_freeCtr (q : List Instr) : (s.withQueue q).freeCtr = s.freeCtr := rfl
@[simp] theorem State.withQueue_part (q : List Instr) : (s.withQueue q).part = s.part := rfl
@[simp] theorem State.withQueue_regs (q : List Instr) : (s.withQueue q).regs = s.regs := rfl
@[simp] theorem State.withQueue_mem (q : List Instr) : (s.withQueue q).mem = s.mem := rfl
@[simp] theorem State.withQueue_ecc (q : List Instr) : (s.withQueue q).ecc = s.ecc := rfl
@[simp] theorem State.withQueue_evq (q : List Instr) : (s.withQueue q).evq = s.evq := rfl
@[simp] theorem State.withQueue_msiHeld (q : List Instr) : (s.withQueue q).msiHeld = s.msiHeld := rfl
@[simp] theorem State.withQueue_tickCopy (q : List Instr) : (s.withQueue q).tickCopy = s.tickCopy := rfl
@[simp] theorem State.withQueue_tb (q : List Instr) : (s.withQueue q).tb = s.tb := rfl
@[simp] theorem State.withQueue_enc (q : List Instr) : (s.withQueue q).enc = s.enc := rfl
@[simp] theorem State.withQueue_snaps (q : List Instr) : (s.withQueue q).snaps = s.snaps := rfl
@[simp] theorem State.withQueue_hop (q : List Instr) : (s.withQueue q).hop = s.hop := rfl
@[simp] theorem State.withQueue_stores (q : List Instr) : (s.withQueue q).stores = s.stores := rfl
@[simp] theorem State.withQueue_pwm (q : List Instr) : (s.withQueue q).pwm = s.pwm := rfl
@[simp] theorem State.withQueue_cap (q : List Instr) : (s.withQueue q).cap = s.cap := rfl
@[simp] theorem State.withQueue_qdAt (q : List Instr) : (s.withQueue q).qdAt = s.qdAt := rfl
@[simp] theorem State.withQueue_sect (q : List Instr) : (s.withQueue q).sect = s.sect := rfl
@[simp] theorem State.withQueue_tickVals (q : List Instr) : (s.withQueue q).tickVals = s.tickVals := rfl
@[simp] theorem State.withQueue_rr (q : List Instr) : (s.withQueue q).rr = s.rr := rfl
@[simp] theorem State.withQueue_rrAsk (q : List Instr) : (s.withQueue q).rrAsk = s.rrAsk := rfl
@[simp] theorem State.withQueue_eng (q : List Instr) : (s.withQueue q).eng = s.eng := rfl
@[simp] theorem State.withQueue_chans (q : List Instr) : (s.withQueue q).chans = s.chans := rfl
@[simp] theorem State.withQueue_rb (q : List Instr) : (s.withQueue q).rb = s.rb := rfl
@[simp] theorem State.withQueue_aq (q : List Instr) : (s.withQueue q).aq = s.aq := rfl
@[simp] theorem State.withQueue_flog (q : List Instr) : (s.withQueue q).flog = s.flog := rfl
@[simp] theorem State.withQueue_baySw (q : List Instr) : (s.withQueue q).baySw = s.baySw := rfl
@[simp] theorem State.withQueue_rcal (q : List Instr) : (s.withQueue q).rcal = s.rcal := rfl
@[simp] theorem State.withQueue_adc (q : List Instr) : (s.withQueue q).adc = s.adc := rfl
@[simp] theorem State.withQueue_cmp (q : List Instr) : (s.withQueue q).cmp = s.cmp := rfl
@[simp] theorem State.withQueue_dac (q : List Instr) : (s.withQueue q).dac = s.dac := rfl
@[simp] theorem State.withQueue_fab (q : List Instr) : (s.withQueue q).fab = s.fab := rfl
@[simp] theorem State.withQueue_ffs (q : List Instr) : (s.withQueue q).ffs = s.ffs := rfl
@[simp] theorem State.withQueue_dmaTrig (q : List Instr) : (s.withQueue q).dmaTrig = s.dmaTrig := rfl
@[simp] theorem State.withQueue_wipe (q : List Instr) : (s.withQueue q).wipe = s.wipe := rfl
@[simp] theorem State.withQueue_attar (q : List Instr) : (s.withQueue q).attar = s.attar := rfl
@[simp] theorem State.withQueue_strobes (q : List Instr) : (s.withQueue q).strobes = s.strobes := rfl
@[simp] theorem State.withQueue_pwr (q : List Instr) : (s.withQueue q).pwr = s.pwr := rfl
@[simp] theorem State.withQueue_pcie (q : List Instr) : (s.withQueue q).pcie = s.pcie := rfl
@[simp] theorem State.withQueue_sil (q : List Instr) : (s.withQueue q).sil = s.sil := rfl
@[simp] theorem State.withQueue_actOut (q : List Instr) : (s.withQueue q).actOut = s.actOut := rfl
@[simp] theorem State.withQueue_actAt (q : List Instr) : (s.withQueue q).actAt = s.actAt := rfl
@[simp] theorem State.withQueue_chOut (q : List Instr) : (s.withQueue q).chOut = s.chOut := rfl
@[simp] theorem State.withQueue_pinDef (q : List Instr) : (s.withQueue q).pinDef = s.pinDef := rfl
@[simp] theorem State.withQueue_pinRel (q : List Instr) : (s.withQueue q).pinRel = s.pinRel := rfl
@[simp] theorem State.withQueue_clearq (q : List Instr) : (s.withQueue q).clearq = s.clearq := rfl
@[simp] theorem State.withQueue_wbq (q : List Instr) : (s.withQueue q).wbq = s.wbq := rfl
@[simp] theorem State.withQueue_pins (q : List Instr) : (s.withQueue q).pins = s.pins := rfl
@[simp] theorem State.withQueue_keep (q : List Instr) : (s.withQueue q).keep = s.keep := rfl
@[simp] theorem State.withQueue_dmaAbort (q : List Instr) : (s.withQueue q).dmaAbort = s.dmaAbort := rfl
@[simp] theorem State.withQueue_lines (q : List Instr) : (s.withQueue q).lines = s.lines := rfl
@[simp] theorem State.withQueue_nodes (q : List Instr) : (s.withQueue q).nodes = s.nodes := rfl
@[simp] theorem State.withQueue_pair (q : List Instr) : (s.withQueue q).pair = s.pair := rfl
@[simp] theorem State.withQueue_lc (q : List Instr) : (s.withQueue q).lc = s.lc := rfl
@[simp] theorem State.withQueue_loader (q : List Instr) : (s.withQueue q).loader = s.loader := rfl
@[simp] theorem State.withQueue_cfgmem (q : List Instr) : (s.withQueue q).cfgmem = s.cfgmem := rfl
@[simp] theorem State.withQueue_cfgFlip (q : List Instr) : (s.withQueue q).cfgFlip = s.cfgFlip := rfl
@[simp] theorem State.withQueue_scrub (q : List Instr) : (s.withQueue q).scrub = s.scrub := rfl
@[simp] theorem State.withQueue_safe (q : List Instr) : (s.withQueue q).safe = s.safe := rfl
@[simp] theorem State.withQueue_ist (q : List Instr) : (s.withQueue q).ist = s.ist := rfl
@[simp] theorem State.withQueue_snap (q : List Instr) : (s.withQueue q).snap = s.snap := rfl
@[simp] theorem State.withQueue_can (q : List Instr) : (s.withQueue q).can = s.can := rfl
@[simp] theorem State.withQueue_spi (q : List Instr) : (s.withQueue q).spi = s.spi := rfl
@[simp] theorem State.withQueue_i2c (q : List Instr) : (s.withQueue q).i2c = s.i2c := rfl
@[simp] theorem State.withQueue_uart (q : List Instr) : (s.withQueue q).uart = s.uart := rfl
@[simp] theorem State.withQueue_tap (q : List Instr) : (s.withQueue q).tap = s.tap := rfl

@[simp] theorem State.lcWith_lc (f : LifeCycle → LifeCycle) : (s.lcWith f).lc = f s.lc := rfl
@[simp] theorem State.emit_outbox (o : Output) : (s.emit o).outbox = s.outbox ++ [o] := rfl
@[simp] theorem State.fresh_freeCtr : s.fresh.freeCtr = s.freeCtr + 1 := rfl
@[simp] theorem State.withPair_pair (f : Pair → Pair) : (s.withPair f).pair = f s.pair := rfl
@[simp] theorem State.withLoader_loader (f : Loader → Loader) : (s.withLoader f).loader = f s.loader := rfl
@[simp] theorem State.withQueue_pending (q : List Instr) : (s.withQueue q).pending = q := rfl
@[simp] theorem State.reg_setReg_same (a : Nat) (w : Word) : (s.setReg a w).reg a = w := tget_tset_same _ _ _ _
theorem State.reg_setReg_other (a b : Nat) (w : Word) (h : b ≠ a) : (s.setReg a w).reg b = s.reg b := tget_tset_other _ _ _ _ _ _ h
@[simp] theorem State.byte_setByte_same (a : Nat) (b : Byte) : (s.setByte a b).byte a = b := tget_tset_same _ _ _ _
theorem State.byte_setByte_other (a c : Nat) (b : Byte) (h : c ≠ a) : (s.setByte a b).byte c = s.byte c := tget_tset_other _ _ _ _ _ _ h
@[simp] theorem State.engOf_setEng_same (t : Nat) (e : Engine) : (s.setEng t e).engOf t = e := tget_tset_same _ _ _ _
@[simp] theorem State.chanOf_setChan_same (i : Nat) (c : Chan) : (s.setChan i c).chanOf i = c := tget_tset_same _ _ _ _

/-- Beside the command's own effect only messages leave or wait (R30, R393), keepers follow their pads (R258), and the counter of the
free values moves on. -/
theorem settle_eq (t : State) : ∃ o m k, settle s t = { t with outbox := o, msiHeld := m, keep := k, freeCtr := t.freeCtr + 1 } := by
  unfold settle State.sendMsi State.fresh
  split
  · exact ⟨t.outbox, t.msiHeld, t.keepPads.keep, rfl⟩
  · split
    · exact ⟨_, t.msiHeld, t.keepPads.keep, rfl⟩
    · exact ⟨t.outbox, _, t.keepPads.keep, rfl⟩

@[simp] theorem settle_pending (t : State) : (settle s t).pending = t.pending := by
  obtain ⟨o, m, k, e⟩ := settle_eq s t; rw [e]
@[simp] theorem settle_freeCtr (t : State) : (settle s t).freeCtr = t.freeCtr + 1 := by
  obtain ⟨o, m, k, e⟩ := settle_eq s t; rw [e]
@[simp] theorem settle_part (t : State) : (settle s t).part = t.part := by
  obtain ⟨o, m, k, e⟩ := settle_eq s t; rw [e]
@[simp] theorem settle_regs (t : State) : (settle s t).regs = t.regs := by
  obtain ⟨o, m, k, e⟩ := settle_eq s t; rw [e]
@[simp] theorem settle_mem (t : State) : (settle s t).mem = t.mem := by
  obtain ⟨o, m, k, e⟩ := settle_eq s t; rw [e]
@[simp] theorem settle_ecc (t : State) : (settle s t).ecc = t.ecc := by
  obtain ⟨o, m, k, e⟩ := settle_eq s t; rw [e]
@[simp] theorem settle_evq (t : State) : (settle s t).evq = t.evq := by
  obtain ⟨o, m, k, e⟩ := settle_eq s t; rw [e]
@[simp] theorem settle_tickCopy (t : State) : (settle s t).tickCopy = t.tickCopy := by
  obtain ⟨o, m, k, e⟩ := settle_eq s t; rw [e]
@[simp] theorem settle_tb (t : State) : (settle s t).tb = t.tb := by
  obtain ⟨o, m, k, e⟩ := settle_eq s t; rw [e]
@[simp] theorem settle_enc (t : State) : (settle s t).enc = t.enc := by
  obtain ⟨o, m, k, e⟩ := settle_eq s t; rw [e]
@[simp] theorem settle_snaps (t : State) : (settle s t).snaps = t.snaps := by
  obtain ⟨o, m, k, e⟩ := settle_eq s t; rw [e]
@[simp] theorem settle_hop (t : State) : (settle s t).hop = t.hop := by
  obtain ⟨o, m, k, e⟩ := settle_eq s t; rw [e]
@[simp] theorem settle_stores (t : State) : (settle s t).stores = t.stores := by
  obtain ⟨o, m, k, e⟩ := settle_eq s t; rw [e]
@[simp] theorem settle_pwm (t : State) : (settle s t).pwm = t.pwm := by
  obtain ⟨o, m, k, e⟩ := settle_eq s t; rw [e]
@[simp] theorem settle_cap (t : State) : (settle s t).cap = t.cap := by
  obtain ⟨o, m, k, e⟩ := settle_eq s t; rw [e]
@[simp] theorem settle_qdAt (t : State) : (settle s t).qdAt = t.qdAt := by
  obtain ⟨o, m, k, e⟩ := settle_eq s t; rw [e]
@[simp] theorem settle_sect (t : State) : (settle s t).sect = t.sect := by
  obtain ⟨o, m, k, e⟩ := settle_eq s t; rw [e]
@[simp] theorem settle_tickVals (t : State) : (settle s t).tickVals = t.tickVals := by
  obtain ⟨o, m, k, e⟩ := settle_eq s t; rw [e]
@[simp] theorem settle_rr (t : State) : (settle s t).rr = t.rr := by
  obtain ⟨o, m, k, e⟩ := settle_eq s t; rw [e]
@[simp] theorem settle_rrAsk (t : State) : (settle s t).rrAsk = t.rrAsk := by
  obtain ⟨o, m, k, e⟩ := settle_eq s t; rw [e]
@[simp] theorem settle_eng (t : State) : (settle s t).eng = t.eng := by
  obtain ⟨o, m, k, e⟩ := settle_eq s t; rw [e]
@[simp] theorem settle_chans (t : State) : (settle s t).chans = t.chans := by
  obtain ⟨o, m, k, e⟩ := settle_eq s t; rw [e]
@[simp] theorem settle_rb (t : State) : (settle s t).rb = t.rb := by
  obtain ⟨o, m, k, e⟩ := settle_eq s t; rw [e]
@[simp] theorem settle_aq (t : State) : (settle s t).aq = t.aq := by
  obtain ⟨o, m, k, e⟩ := settle_eq s t; rw [e]
@[simp] theorem settle_flog (t : State) : (settle s t).flog = t.flog := by
  obtain ⟨o, m, k, e⟩ := settle_eq s t; rw [e]
@[simp] theorem settle_baySw (t : State) : (settle s t).baySw = t.baySw := by
  obtain ⟨o, m, k, e⟩ := settle_eq s t; rw [e]
@[simp] theorem settle_rcal (t : State) : (settle s t).rcal = t.rcal := by
  obtain ⟨o, m, k, e⟩ := settle_eq s t; rw [e]
@[simp] theorem settle_adc (t : State) : (settle s t).adc = t.adc := by
  obtain ⟨o, m, k, e⟩ := settle_eq s t; rw [e]
@[simp] theorem settle_cmp (t : State) : (settle s t).cmp = t.cmp := by
  obtain ⟨o, m, k, e⟩ := settle_eq s t; rw [e]
@[simp] theorem settle_dac (t : State) : (settle s t).dac = t.dac := by
  obtain ⟨o, m, k, e⟩ := settle_eq s t; rw [e]
@[simp] theorem settle_fab (t : State) : (settle s t).fab = t.fab := by
  obtain ⟨o, m, k, e⟩ := settle_eq s t; rw [e]
@[simp] theorem settle_ffs (t : State) : (settle s t).ffs = t.ffs := by
  obtain ⟨o, m, k, e⟩ := settle_eq s t; rw [e]
@[simp] theorem settle_dmaTrig (t : State) : (settle s t).dmaTrig = t.dmaTrig := by
  obtain ⟨o, m, k, e⟩ := settle_eq s t; rw [e]
@[simp] theorem settle_wipe (t : State) : (settle s t).wipe = t.wipe := by
  obtain ⟨o, m, k, e⟩ := settle_eq s t; rw [e]
@[simp] theorem settle_attar (t : State) : (settle s t).attar = t.attar := by
  obtain ⟨o, m, k, e⟩ := settle_eq s t; rw [e]
@[simp] theorem settle_strobes (t : State) : (settle s t).strobes = t.strobes := by
  obtain ⟨o, m, k, e⟩ := settle_eq s t; rw [e]
@[simp] theorem settle_pwr (t : State) : (settle s t).pwr = t.pwr := by
  obtain ⟨o, m, k, e⟩ := settle_eq s t; rw [e]
@[simp] theorem settle_pcie (t : State) : (settle s t).pcie = t.pcie := by
  obtain ⟨o, m, k, e⟩ := settle_eq s t; rw [e]
@[simp] theorem settle_sil (t : State) : (settle s t).sil = t.sil := by
  obtain ⟨o, m, k, e⟩ := settle_eq s t; rw [e]
@[simp] theorem settle_actOut (t : State) : (settle s t).actOut = t.actOut := by
  obtain ⟨o, m, k, e⟩ := settle_eq s t; rw [e]
@[simp] theorem settle_actAt (t : State) : (settle s t).actAt = t.actAt := by
  obtain ⟨o, m, k, e⟩ := settle_eq s t; rw [e]
@[simp] theorem settle_chOut (t : State) : (settle s t).chOut = t.chOut := by
  obtain ⟨o, m, k, e⟩ := settle_eq s t; rw [e]
@[simp] theorem settle_pinDef (t : State) : (settle s t).pinDef = t.pinDef := by
  obtain ⟨o, m, k, e⟩ := settle_eq s t; rw [e]
@[simp] theorem settle_pinRel (t : State) : (settle s t).pinRel = t.pinRel := by
  obtain ⟨o, m, k, e⟩ := settle_eq s t; rw [e]
@[simp] theorem settle_clearq (t : State) : (settle s t).clearq = t.clearq := by
  obtain ⟨o, m, k, e⟩ := settle_eq s t; rw [e]
@[simp] theorem settle_wbq (t : State) : (settle s t).wbq = t.wbq := by
  obtain ⟨o, m, k, e⟩ := settle_eq s t; rw [e]
@[simp] theorem settle_pins (t : State) : (settle s t).pins = t.pins := by
  obtain ⟨o, m, k, e⟩ := settle_eq s t; rw [e]
@[simp] theorem settle_dmaAbort (t : State) : (settle s t).dmaAbort = t.dmaAbort := by
  obtain ⟨o, m, k, e⟩ := settle_eq s t; rw [e]
@[simp] theorem settle_lines (t : State) : (settle s t).lines = t.lines := by
  obtain ⟨o, m, k, e⟩ := settle_eq s t; rw [e]
@[simp] theorem settle_nodes (t : State) : (settle s t).nodes = t.nodes := by
  obtain ⟨o, m, k, e⟩ := settle_eq s t; rw [e]
@[simp] theorem settle_pair (t : State) : (settle s t).pair = t.pair := by
  obtain ⟨o, m, k, e⟩ := settle_eq s t; rw [e]
@[simp] theorem settle_lc (t : State) : (settle s t).lc = t.lc := by
  obtain ⟨o, m, k, e⟩ := settle_eq s t; rw [e]
@[simp] theorem settle_loader (t : State) : (settle s t).loader = t.loader := by
  obtain ⟨o, m, k, e⟩ := settle_eq s t; rw [e]
@[simp] theorem settle_cfgmem (t : State) : (settle s t).cfgmem = t.cfgmem := by
  obtain ⟨o, m, k, e⟩ := settle_eq s t; rw [e]
@[simp] theorem settle_cfgFlip (t : State) : (settle s t).cfgFlip = t.cfgFlip := by
  obtain ⟨o, m, k, e⟩ := settle_eq s t; rw [e]
@[simp] theorem settle_scrub (t : State) : (settle s t).scrub = t.scrub := by
  obtain ⟨o, m, k, e⟩ := settle_eq s t; rw [e]
@[simp] theorem settle_safe (t : State) : (settle s t).safe = t.safe := by
  obtain ⟨o, m, k, e⟩ := settle_eq s t; rw [e]
@[simp] theorem settle_ist (t : State) : (settle s t).ist = t.ist := by
  obtain ⟨o, m, k, e⟩ := settle_eq s t; rw [e]
@[simp] theorem settle_snap (t : State) : (settle s t).snap = t.snap := by
  obtain ⟨o, m, k, e⟩ := settle_eq s t; rw [e]
@[simp] theorem settle_can (t : State) : (settle s t).can = t.can := by
  obtain ⟨o, m, k, e⟩ := settle_eq s t; rw [e]
@[simp] theorem settle_spi (t : State) : (settle s t).spi = t.spi := by
  obtain ⟨o, m, k, e⟩ := settle_eq s t; rw [e]
@[simp] theorem settle_i2c (t : State) : (settle s t).i2c = t.i2c := by
  obtain ⟨o, m, k, e⟩ := settle_eq s t; rw [e]
@[simp] theorem settle_uart (t : State) : (settle s t).uart = t.uart := by
  obtain ⟨o, m, k, e⟩ := settle_eq s t; rw [e]
@[simp] theorem settle_tap (t : State) : (settle s t).tap = t.tap := by
  obtain ⟨o, m, k, e⟩ := settle_eq s t; rw [e]

/-- A field of another register is what it was. -/
theorem State.fld_setFld_other (f g : RF) (v : Nat) (h : g.addr ≠ f.addr) : (s.setFld f v).fld g = s.fld g := by
  unfold State.fld State.setFld; rw [State.reg_setReg_other _ _ _ _ h]

/-- A byte outside the stored ones is what it was. -/
theorem State.byte_store_other (a n v c : Nat) (h : c < a ∨ a + n ≤ c) : (s.store a n v).byte c = s.byte c := by
  induction n generalizing s a v with
  | zero => rfl
  | succ n ih =>
    show (((s.setByte a (BitVec.ofNat 8 v)).store (a + 1) n (v / 256))).byte c = s.byte c
    rw [ih _ _ _ (by omega), State.byte_setByte_other _ _ _ _ (by omega)]

/-- A stored number is read again. -/
theorem State.load_store (a n v : Nat) : (s.store a n v).load a n = v % 256 ^ n := by
  induction n generalizing s a v with
  | zero => simp [State.load, Nat.mod_one]
  | succ n ih =>
    show (((s.setByte a (BitVec.ofNat 8 v)).store (a + 1) n (v / 256)).byte a).toNat +
      256 * ((s.setByte a (BitVec.ofNat 8 v)).store (a + 1) n (v / 256)).load (a + 1) n = v % 256 ^ (n + 1)
    rw [ih, State.byte_store_other _ _ _ _ _ (by omega), State.byte_setByte_same, BitVec.toNat_ofNat, show (256 : Nat) ^ (n + 1) = 256 * 256 ^ n from
      Nat.pow_succ', Nat.mod_mul]

/-- What the register file reads after a field is stored: the stored value cut to the field's width. -/
theorem RF.get_put (f : RF) (w : Word) (v : Nat) (h : f.lo ≤ f.hi) (h2 : f.hi < 32) : f.get (f.put w v) = v % 2 ^ (f.hi + 1 - f.lo) := by
  have hm : ∀ i, f.mask.getLsbD (f.lo + i) = (decide (f.lo + i < 32) && decide (i < f.hi + 1 - f.lo)) := fun i => by
    unfold RF.mask
    rw [BitVec.getLsbD_ofNat, Nat.testBit_mul_two_pow, Nat.testBit_two_pow_sub_one]
    simp
  apply Nat.eq_of_testBit_eq
  intro i
  unfold RF.get RF.put bits
  rw [Nat.testBit_mod_two_pow, Nat.testBit_div_two_pow, Nat.testBit_mod_two_pow, Nat.add_comm i f.lo, BitVec.testBit_toNat, BitVec.getLsbD_or,
    BitVec.getLsbD_and, BitVec.getLsbD_not, hm, BitVec.getLsbD_ofNat, Nat.testBit_mul_two_pow, Nat.testBit_mod_two_pow]
  by_cases h3 : i < f.hi + 1 - f.lo
  · have h4 : f.lo + i < 32 := by omega
    simp [h3, h4]
  · simp [h3]

end Sys2Proof.Machine
end

