-- ==== Sys2Proof/Laws/Engine.lean ====
section
/-! SUPPORT. What the issue of an instruction does, once for every instruction: the provers cite these instead of unfolding `issue`. -/

namespace Sys2Proof.Machine

/-- A clean word is read as stored. -/
theorem State.readWord_clean (s : State) (a : Nat) (h : s.flipCount a = 0) : s.readWord a = (s, s.word a, false) := by
  simp [State.readWord, h]

/-- What an instruction works on when it issues. -/
def effOf (s : State) (t : Nat) (e : EI) (a : Act) : Eff :=
  ⟨s, t, s.chanOf (16 * t + a.slot), { a with pc := a.pc + 1, hazard := .none, used := a.used + hazardCycles a.hazard e }⟩

/-- An engine that issues `e` retires what `e` does. -/
theorem State.issue_eq {s : State} {t : Nat} {e : EI} {a : Act} (h : Issues s t e a) (f : a.has e 1) (sem : EI → Eff → Res) :
    s.issue t e.op sem = s.retire t (hazardCycles a.hazard e) a (sem e (effOf s t e a)) := by
  unfold State.issue
  rw [h.act]
  simp only [State.readWord_clean _ _ h.clean, h.word, h.bp, false_and, if_false]
  have p := h.pc
  unfold Act.has at f
  rw [if_neg (by omega), if_neg (by simp), if_neg (by simp), if_neg (by omega)]
  rfl

/-- While an instruction can issue, no load and no cancel is awaited. -/
theorem State.issues_calm {s : State} {t : Nat} {a : Act} (h : s.issues t = some a) :
    (s.engOf t).gload = none ∧ (s.engOf t).cancelRd = none ∧ (s.engOf t).act = some a ∧ a.ending = none := by
  unfold State.issues at h
  dsimp only at h
  split at h
  · cases h
  · next b e =>
    split at h
    · cases h
    · next n =>
      cases h
      simp only [not_or, Option.not_isSome_iff_eq_none] at n
      exact ⟨n.2.2.1, n.2.2.2.1, e, n.2.1⟩

/-- An instruction that completes within its budget and leaves the engine as it found it. -/
theorem State.retire_ok {s : State} {t x : Nat} {a : Act} {f : Eff} {cost : Nat} {kept : Option (State × Nat)} (st : a.step = false)
    (fit : a.used + x + cost ≤ a.budget) (hg : (f.s.engOf t).gload = none) (hc : (f.s.engOf t).cancelRd = none) :
    s.retire t x a (.ok f cost kept) = (f.s.setChan (16 * t + a.slot) f.c).setEng t { f.s.engOf t with
      act := some { f.a with used := a.used + x + cost, count := a.count + 1, skipBp := false }, stalled := false } := by
  unfold State.retire
  simp only [hg, hc, st]
  rw [if_neg (by omega)]
  simp only [Option.isSome_none, Bool.or_self, Bool.not_false, b2n, if_true, Bool.false_eq_true, false_and, if_false]
  have q : (f.s.setChan (16 * t + a.slot) f.c).engOf t = f.s.engOf t := rfl
  simp only [q, hg, hc]

/-- The same for an instruction that only replaces the bank and the activation. -/
theorem State.issue_bank {s : State} {t : Nat} {e : EI} {a : Act} (h : Issues s t e a) {cost : Nat} (fit : a.has e cost) (c : 1 ≤ cost)
    {sem : EI → Eff → Res} {b : Bank} {a' : Act} {kept : Option (State × Nat)} (sl : a'.slot = a.slot)
    (hs : sem e (effOf s t e a) = .ok { (effOf s t e a).withBank b with a := a' } cost kept) :
    s.issue t e.op sem = s.ran1 t { a' with used := a.used + hazardCycles a.hazard e + cost, count := a.count + 1, skipBp := false } b := by
  have q := State.issues_calm h.act
  rw [State.issue_eq h (by unfold Act.has at *; omega), hs, State.retire_ok h.step fit q.1 q.2.1]
  simp only [State.ran1, sl]
  rfl

end Sys2Proof.Machine
end

