-- ==== Sys2Proof/Laws/Kept.lean ====
section
/-! SUPPORT. How `Kept` is shown: it composes, a change of other fields keeps it, and so do folds, tuples and options of states that
keep it. -/

namespace Sys2Proof.Machine

theorem Kept.refl (s : State) : Kept s s := ⟨id, fun h => ⟨h, Nat.le_refl _, Nat.le_refl _⟩, rfl, rfl⟩

theorem Kept.trans {r s t : State} (h : Kept r s) (g : Kept s t) : Kept r t :=
  ⟨fun c => g.canon (h.canon c), fun c => ⟨(g.life (h.life c).sound).sound, (h.life c).st.trans (g.life (h.life c).sound).st,
    (h.life c).minver.trans (g.life (h.life c).sound).minver⟩, g.queue.trans h.queue, g.part.trans h.part⟩

theorem canonical_iff (s : State) : s.canonical = true ↔
    twf rstWord s.regs = true ∧ twf (fun _ => (0 : Byte)) s.mem = true ∧ twf (fun _ => (0 : Nat)) s.ecc = true := by
  simp [State.canonical, Memory.wf, and_assoc]

/-- A state made from one that is kept, with tables that stay canonical. -/
theorem Kept.parts {r x t : State} (h : Kept r x) (hr : twf rstWord x.regs = true → twf rstWord t.regs = true)
    (hm : twf (fun _ => (0 : Byte)) x.mem = true → twf (fun _ => (0 : Byte)) t.mem = true)
    (he : twf (fun _ => (0 : Nat)) x.ecc = true → twf (fun _ => (0 : Nat)) t.ecc = true)
    (hl : t.lc = x.lc) (hq : t.pending = x.pending) (hp : t.part = x.part) : Kept r t := by
  refine h.trans ⟨fun c => ?_, fun c => by rw [hl]; exact ⟨c, Nat.le_refl _, Nat.le_refl _⟩, hq, hp⟩
  rw [canonical_iff] at *
  exact ⟨hr c.1, hm c.2.1, he c.2.2⟩

/-- A change of other fields. -/
theorem Kept.upd {r x t : State} (h : Kept r x) (hr : t.regs = x.regs) (hm : t.mem = x.mem) (he : t.ecc = x.ecc)
    (hl : t.lc = x.lc) (hq : t.pending = x.pending) (hp : t.part = x.part) : Kept r t :=
  h.parts (hr ▸ id) (hm ▸ id) (he ▸ id) hl hq hp

theorem LifeCycle.onward_loses {x y : LifeCycle} (hs : y.st = x.st) (hm : y.minver = x.minver) (hv : y.service = x.service ∨ y.service = none)
    (hb : y.busy = x.busy ∨ y.busy = none) (c : x.sound = true) : x.Onward y := by
  refine ⟨?_, hs ▸ Nat.le_refl _, hm ▸ Nat.le_refl _⟩
  unfold LifeCycle.sound at *
  rw [hs, hm]
  simp only [Bool.and_eq_true] at c ⊢
  refine ⟨⟨c.1.1, ?_⟩, ?_⟩
  · rcases hv with e | e <;> rw [e]
    · exact c.1.2
    · rfl
  · rcases hb with e | e <;> rw [e]
    · exact c.2

theorem LifeCycle.busy_sound {x : LifeCycle} {op : Nat} {g : List Word} (c : x.sound = true) (e : x.busy = some (op, g)) :
    (x.st ≤ 4 ∧ x.st ≠ 3 ∧ x.minver ≤ 63) ∧ (x.service.isSome = true → x.st = 2) ∧ (op = 5 → x.st ≤ 1) ∧ (op = 6 → x.st = 2) ∧
      (op = 9 → x.minver ≤ (g.getD 0 0).toNat ∧ (g.getD 0 0).toNat ≤ 63) := by
  unfold LifeCycle.sound at c
  rw [e] at c
  simp only [Bool.and_eq_true, decide_eq_true_eq, Bool.or_eq_true, bne_iff_ne, beq_iff_eq] at c
  refine ⟨c.1.1, fun h => ?_, fun h => ?_, fun h => ?_, fun h => ?_⟩
  · rcases c.1.2 with k | k
    · simp_all
    · exact k
  · exact c.2.1.1.resolve_left (fun k => k h)
  · exact c.2.1.2.resolve_left (fun k => k h)
  · exact c.2.2.resolve_left (fun k => k h)

/-- A change of the life cycle that goes onward. -/
theorem Kept.lives {r x : State} (h : Kept r x) (y : LifeCycle) (hl : x.lc.sound = true → x.lc.Onward y) : Kept r { x with lc := y } :=
  h.trans ⟨id, hl, rfl, rfl⟩

/-- A state whose tables, queue and part are those of a kept one, whatever its other fields. -/
theorem Kept.lit {r x : State} (h : Kept r x) {outbox' : List Output} {freeCtr' : Nat} {evq' : List (Nat × Domain)} {msiHeld' : List Nat} {tickCopy' : Table (BitVec 48)} {tb' : Timebase} {enc' : Table Encoder} {snaps' : Table (Option TimeSet)} {hop' : HostOp} {stores' : Table Store} {pwm' : Table PwmPair} {cap' : Table Capture} {qdAt' : Table (Option (BitVec 64))} {sect' : Table SectTick} {tickVals' : SectTick} {rr' : Table Nat} {rrAsk' : Table (Nat × List Nat)} {eng' : Table Engine} {chans' : Table Chan} {rb' : Table Bool} {aq' : List Request} {flog' : List FaultEntry} {baySw' : BaySwitches} {rcal' : Table (Option RCal)} {adc' : Table Adc} {cmp' : Table Cmp} {dac' : Table Dac} {fab' : Table Fabric} {ffs' : Table (Option Bool)} {dmaTrig' : Table (Option Nat)} {wipe' : Option Nat} {attar' : Attar} {strobes' : List Strobe} {pwr' : Power} {pcie' : Pcie} {sil' : Sillage} {actOut' : Table Signal} {actAt' : Table (Option (BitVec 64))} {chOut' : Table Signal} {pinDef' : Table (Word × BitVec 48 × Nat)} {pinRel' : Table Nat} {clearq' : List (Nat × Nat × Bool)} {wbq' : List Nat} {pins' : Pins} {keep' : Table (Option Bool)} {dmaAbort' : Table Bool} {lines' : Table Line} {nodes' : Table Node} {pair' : Pair} {loader' : Loader} {cfgmem' : Table Word} {cfgFlip' : Table Nat} {scrub' : Scrub} {safe' : Safe} {ist' : Ist} {snap' : Option Snapshot} {can' : Table Can} {spi' : Table Serial} {i2c' : Table Serial} {uart' : Table Serial} {tap' : Tap} :
    Kept r { x with
      outbox := outbox'
      freeCtr := freeCtr'
      evq := evq'
      msiHeld := msiHeld'
      tickCopy := tickCopy'
      tb := tb'
      enc := enc'
      snaps := snaps'
      hop := hop'
      stores := stores'
      pwm := pwm'
      cap := cap'
      qdAt := qdAt'
      sect := sect'
      tickVals := tickVals'
      rr := rr'
      rrAsk := rrAsk'
      eng := eng'
      chans := chans'
      rb := rb'
      aq := aq'
      flog := flog'
      baySw := baySw'
      rcal := rcal'
      adc := adc'
      cmp := cmp'
      dac := dac'
      fab := fab'
      ffs := ffs'
      dmaTrig := dmaTrig'
      wipe := wipe'
      attar := attar'
      strobes := strobes'
      pwr := pwr'
      pcie := pcie'
      sil := sil'
      actOut := actOut'
      actAt := actAt'
      chOut := chOut'
      pinDef := pinDef'
      pinRel := pinRel'
      clearq := clearq'
      wbq := wbq'
      pins := pins'
      keep := keep'
      dmaAbort := dmaAbort'
      lines := lines'
      nodes := nodes'
      pair := pair'
      loader := loader'
      cfgmem := cfgmem'
      cfgFlip := cfgFlip'
      scrub := scrub'
      safe := safe'
      ist := ist'
      snap := snap'
      can := can'
      spi := spi'
      i2c := i2c'
      uart := uart'
      tap := tap' } :=
  h.trans ⟨id, fun c => ⟨c, Nat.le_refl _, Nat.le_refl _⟩, rfl, rfl⟩

theorem Kept.foldl {β : Type} {r : State} {f : State → β → State} (hf : ∀ s x, Kept r s → Kept r (f s x)) (l : List β) {s : State}
    (h : Kept r s) : Kept r (l.foldl f s) := by
  induction l generalizing s with
  | nil => exact h
  | cons x l ih => exact ih (hf s x h)

theorem Kept.foldlFst {β γ : Type} {r : State} {f : State × γ → β → State × γ} (hf : ∀ p x, Kept r p.1 → Kept r (f p x).1) (l : List β)
    {p : State × γ} (h : Kept r p.1) : Kept r (l.foldl f p).1 := by
  induction l generalizing p with
  | nil => exact h
  | cons x l ih => exact ih (hf p x h)

theorem Kept.fst {γ : Type} {r t : State} {p : State × γ} {w : γ} (e : p = (t, w)) (h : Kept r p.1) : Kept r t := by
  subst e; exact h

theorem Kept.some {r t : State} {o : Option State} (e : o = Option.some t) (h : ∀ t, o = Option.some t → Kept r t) : Kept r t := h t e

theorem Kept.ite {r : State} {c : Prop} [Decidable c] {a b : State} (ha : Kept r a) (hb : Kept r b) : Kept r (if c then a else b) := by
  split <;> assumption

/-- An instruction's result keeps its state. -/
def Res.Keeps (r : State) : Res → Prop
  | .ok f _ k => Kept r f.s ∧ ∀ p, k = Option.some p → Kept r p.1
  | .stop => True
  | .fault _ _ => True
  | .bad s _ => Kept r s
  | .wait => True

theorem Res.keeps_ok {r : State} {f : Eff} {c : Nat} (h : Kept r f.s) : (Res.ok f c none).Keeps r :=
  ⟨h, fun _ e => nomatch e⟩

theorem Res.keeps_bad {r s : State} {a : Word} (h : Kept r s) : (Res.bad s a).Keeps r := h

theorem Res.keeps_some {r : State} {f : Eff} {c : Nat} {p : State × Nat} (h : Kept r f.s) (g : Kept r p.1) :
    (Res.ok f c (some p)).Keeps r :=
  ⟨h, fun _ e => by cases e; exact g⟩

theorem State.setReg_kept {r s : State} (h : Kept r s) (a : Nat) (w : Word) : Kept r (s.setReg a w) :=
  h.parts (twf_tset rstWord a w) id id rfl rfl rfl

theorem State.setByte_kept {r s : State} (h : Kept r s) (a : Nat) (b : Byte) : Kept r (s.setByte a b) :=
  h.parts id (twf_tset (fun _ => (0 : Byte)) a b) id rfl rfl rfl

theorem State.setFlips_kept {r s : State} (h : Kept r s) (a m : Nat) : Kept r (s.setFlips a m) :=
  h.parts id id (twf_tset (fun _ => (0 : Nat)) (a / 4) m) rfl rfl rfl

theorem State.store_kept {r s : State} (h : Kept r s) (a n v : Nat) : Kept r (s.store a n v) := by
  induction n generalizing s a v with
  | zero => exact h
  | succ n ih => exact ih (State.setByte_kept h _ _) _ _

theorem State.setWord_kept {r s : State} (h : Kept r s) (a : Nat) (w : Word) : Kept r (s.setWord a w) := State.store_kept h _ _ _

theorem State.setWords_kept {r s : State} (h : Kept r s) (a : Nat) (ws : List Word) : Kept r (s.setWords a ws) := by
  induction ws generalizing s a with
  | nil => exact h
  | cons w ws ih => exact ih (State.setWord_kept h _ _) _

end Sys2Proof.Machine
end

