-- ==== Sys2Proof/Laws/KeptOps.lean ====
section
/-! SUPPORT. What the operations of Machine/Ops.lean keep. -/

set_option linter.unusedTactic false
set_option linter.unreachableTactic false
set_option linter.unusedVariables false

namespace Sys2Proof.Machine

theorem State.lcWith_kept {r s : State} (h : Kept r s) (f : LifeCycle → LifeCycle) (hf : s.lc.sound = true → s.lc.Onward (f s.lc)) :
    Kept r (s.lcWith f) := h.lives _ hf

theorem State.setFld_kept {r s : State} (h : Kept r s) (f : RF) (v : Nat) : Kept r (State.setFld s f v) := by
  unfold State.setFld
  repeat' (first | with_reducible exact h | with_reducible assumption | with_reducible apply State.setReg_kept)

theorem State.setB_kept {r s : State} (h : Kept r s) (f : RF) (b : Bool) : Kept r (State.setB s f b) := by
  unfold State.setB
  repeat' (first | with_reducible exact h | with_reducible assumption | with_reducible apply State.setFld_kept)

theorem State.addSat_kept {r s : State} (h : Kept r s) (f : RF) (n : Nat) : Kept r (State.addSat s f n) := by
  unfold State.addSat
  repeat' (first | with_reducible exact h | with_reducible assumption | with_reducible apply State.setFld_kept)

theorem State.orBit_kept {r s : State} (h : Kept r s) (f : RF) (i : Nat) : Kept r (State.orBit s f i) := by
  unfold State.orBit
  repeat' (first | with_reducible exact h | with_reducible assumption | with_reducible apply State.setFld_kept)

theorem State.offBit_kept {r s : State} (h : Kept r s) (f : RF) (i : Nat) : Kept r (State.offBit s f i) := by
  unfold State.offBit
  repeat' (first | with_reducible exact h | with_reducible assumption | with_reducible apply State.setFld_kept)

theorem State.putBit_kept {r s : State} (h : Kept r s) (f : RF) (i : Nat) (b : Bool) : Kept r (State.putBit s f i b) := by
  unfold State.putBit
  repeat' (first | with_reducible exact h | with_reducible assumption | with_reducible apply State.orBit_kept | with_reducible apply State.offBit_kept | with_reducible apply Kept.ite | split)

theorem State.fresh_kept {r s : State} (h : Kept r s) : Kept r (State.fresh s) := by
  unfold State.fresh
  repeat' (first | with_reducible exact h | with_reducible assumption | fail_if_no_progress (with_reducible apply Kept.lit))

theorem State.emit_kept {r s : State} (h : Kept r s) (o : Output) : Kept r (State.emit s o) := by
  unfold State.emit
  repeat' (first | with_reducible exact h | with_reducible assumption | fail_if_no_progress (with_reducible apply Kept.lit))

theorem State.setEnc_kept {r s : State} (h : Kept r s) (i : Nat) (e : Encoder) : Kept r (State.setEnc s i e) := by
  unfold State.setEnc
  repeat' (first | with_reducible exact h | with_reducible assumption | fail_if_no_progress (with_reducible apply Kept.lit))

theorem State.setStore_kept {r s : State} (h : Kept r s) (k : Nat) (x : Store) : Kept r (State.setStore s k x) := by
  unfold State.setStore
  repeat' (first | with_reducible exact h | with_reducible assumption | fail_if_no_progress (with_reducible apply Kept.lit))

theorem State.setEng_kept {r s : State} (h : Kept r s) (t : Nat) (e : Engine) : Kept r (State.setEng s t e) := by
  unfold State.setEng
  repeat' (first | with_reducible exact h | with_reducible assumption | fail_if_no_progress (with_reducible apply Kept.lit))

theorem State.setChan_kept {r s : State} (h : Kept r s) (i : Nat) (c : Chan) : Kept r (State.setChan s i c) := by
  unfold State.setChan
  repeat' (first | with_reducible exact h | with_reducible assumption | fail_if_no_progress (with_reducible apply Kept.lit))

theorem State.setAdc_kept {r s : State} (h : Kept r s) (n : Nat) (x : Adc) : Kept r (State.setAdc s n x) := by
  unfold State.setAdc
  repeat' (first | with_reducible exact h | with_reducible assumption | fail_if_no_progress (with_reducible apply Kept.lit))

theorem State.setCmp_kept {r s : State} (h : Kept r s) (n : Nat) (x : Cmp) : Kept r (State.setCmp s n x) := by
  unfold State.setCmp
  repeat' (first | with_reducible exact h | with_reducible assumption | fail_if_no_progress (with_reducible apply Kept.lit))

theorem State.setDac_kept {r s : State} (h : Kept r s) (n : Nat) (x : Dac) : Kept r (State.setDac s n x) := by
  unfold State.setDac
  repeat' (first | with_reducible exact h | with_reducible assumption | fail_if_no_progress (with_reducible apply Kept.lit))

theorem State.setFab_kept {r s : State} (h : Kept r s) (k : Nat) (x : Fabric) : Kept r (State.setFab s k x) := by
  unfold State.setFab
  repeat' (first | with_reducible exact h | with_reducible assumption | fail_if_no_progress (with_reducible apply Kept.lit))

theorem State.invalidate_kept {r s : State} (h : Kept r s) : Kept r (State.invalidate s) := by
  unfold State.invalidate
  try dsimp only
  repeat' (first | with_reducible exact h | with_reducible assumption | with_reducible apply State.setFld_kept | with_reducible refine fun _ _ => ?_ | with_reducible refine Kept.fst (by assumption) ?_ | with_reducible apply Kept.ite | split | fail_if_no_progress (with_reducible apply Kept.lit))

theorem State.trace_kept {r s : State} (h : Kept r s) (kind : Nat) (time : Word) (w1 : Word) (w2 : Word) (w3 : Word) : Kept r (State.trace s kind time w1 w2 w3) := by
  unfold State.trace
  try dsimp only
  repeat' (first | with_reducible exact h | with_reducible assumption | with_reducible apply State.fresh_kept | with_reducible apply State.addSat_kept | with_reducible apply State.setFld_kept | with_reducible apply Kept.ite | split | fail_if_no_progress (with_reducible apply Kept.lit))

theorem State.eventLost_kept {r s : State} (h : Kept r s) (e : Nat) : Kept r (State.eventLost s e) := by
  unfold State.eventLost
  repeat' (first | with_reducible exact h | with_reducible assumption | with_reducible apply State.addSat_kept | with_reducible apply State.setFld_kept | with_reducible apply Kept.ite | split)

theorem State.firePulse_kept {r s : State} (h : Kept r s) (e : Nat) (d : Domain) : Kept r (State.firePulse s e d) := by
  unfold State.firePulse
  try dsimp only
  repeat' (first | with_reducible exact h | with_reducible assumption | with_reducible apply State.eventLost_kept | with_reducible refine fun _ _ => ?_ | with_reducible apply Kept.ite | split | fail_if_no_progress (with_reducible apply Kept.lit))

theorem State.fire_kept {r s : State} (h : Kept r s) (e : Nat) : Kept r (State.fire s e) := by
  unfold State.fire
  try dsimp only
  repeat' (first | with_reducible exact h | with_reducible assumption | with_reducible apply State.firePulse_kept | with_reducible refine fun _ _ => ?_ | with_reducible refine Kept.foldl (fun _ _ _ => ?_) _ ?_ | with_reducible apply Kept.ite | split | fail_if_no_progress (dsimp only))

theorem State.sendPackets_kept {r s : State} (h : Kept r s) (kind : String) (ws : List Nat) : Kept r (State.sendPackets s kind ws) := by
  unfold State.sendPackets
  try dsimp only
  repeat' (first | with_reducible exact h | with_reducible assumption | with_reducible apply State.emit_kept | with_reducible refine fun _ _ => ?_ | with_reducible refine Kept.foldl (fun _ _ _ => ?_) _ ?_ | fail_if_no_progress (dsimp only) | fail_if_no_progress (with_reducible apply Kept.lit))

theorem State.queuePacket_kept {r s : State} (h : Kept r s) (kind : String) (ws : List Nat) : Kept r (State.queuePacket s kind ws) := by
  unfold State.queuePacket
  try dsimp only
  repeat' (first | with_reducible exact h | with_reducible assumption | with_reducible apply State.sendPackets_kept | with_reducible apply State.setFld_kept | with_reducible apply Kept.ite | split | fail_if_no_progress (with_reducible apply Kept.lit))

theorem State.toPartner_kept {r s : State} (h : Kept r s) (kind : String) (ws : List Nat) : Kept r (State.toPartner s kind ws) := by
  unfold State.toPartner
  repeat' (first | with_reducible exact h | with_reducible assumption | with_reducible apply State.queuePacket_kept | with_reducible apply Kept.ite | split)

theorem State.localWrite_kept {r s : State} (h : Kept r s) : Kept r (State.localWrite s) := by
  unfold State.localWrite
  repeat' (first | with_reducible exact h | with_reducible assumption | with_reducible apply State.setFld_kept)

theorem State.diverge_kept {r s : State} (h : Kept r s) (t : Nat) : Kept r (State.diverge s t) := by
  unfold State.diverge
  try dsimp only
  repeat' (first | with_reducible exact h | with_reducible assumption | with_reducible apply State.orBit_kept | with_reducible apply State.setFld_kept | with_reducible refine fun _ _ => ?_ | fail_if_no_progress (with_reducible apply Kept.lit))

theorem State.asyncLost_kept {r s : State} (h : Kept r s) : Kept r (State.asyncLost s) := by
  unfold State.asyncLost
  try dsimp only
  repeat' (first | with_reducible exact h | with_reducible assumption | with_reducible apply State.setAdc_kept | with_reducible apply State.setFld_kept | with_reducible refine fun _ _ => ?_ | with_reducible refine Kept.foldl (fun _ _ _ => ?_) _ ?_ | with_reducible apply Kept.ite | split | fail_if_no_progress (dsimp only) | fail_if_no_progress (with_reducible apply Kept.lit))

theorem asyncCheck_kept {r s : State} (h : Kept r s) (old : State) : Kept r (asyncCheck old s) := by
  unfold asyncCheck
  repeat' (first | with_reducible exact h | with_reducible assumption | with_reducible apply State.asyncLost_kept | with_reducible apply Kept.ite | split)

theorem State.accessError_kept {r s : State} (h : Kept r s) (req : Nat) (a : Nat) (unmapped : Bool) (size : Bool) (denied : Bool) : Kept r (State.accessError s req a unmapped size denied) := by
  unfold State.accessError
  try dsimp only
  repeat' (first | with_reducible exact h | with_reducible assumption | with_reducible apply State.setFld_kept | with_reducible apply Kept.ite | split)

theorem State.bayGate_kept {r s : State} (h : Kept r s) (k a : Nat) (f : State → State) (hf : ∀ x, Kept r x → Kept r (f x)) :
    Kept r (s.bayGate k a f) := by
  unfold State.bayGate; split
  · exact State.accessError_kept h _ _ _ _ _
  · exact hf _ h

theorem State.sendMsi_kept {r s : State} (h : Kept r s) (groups : Nat) : Kept r (State.sendMsi s groups) := by
  unfold State.sendMsi
  repeat' (first | with_reducible exact h | with_reducible assumption | with_reducible refine Kept.foldl (fun _ _ _ => ?_) _ ?_ | with_reducible apply Kept.ite | split | fail_if_no_progress (dsimp only) | fail_if_no_progress (with_reducible apply Kept.lit))

end Sys2Proof.Machine
end

