-- ==== Sys2Proof/Laws/KeptPads.lean ====
section
/-! SUPPORT. What the operations of Machine/Pads.lean keep. -/

set_option linter.unusedTactic false
set_option linter.unreachableTactic false
set_option linter.unusedVariables false

namespace Sys2Proof.Machine

theorem State.setSpi_kept {r s : State} (h : Kept r s) (m : Nat) (x : Serial) : Kept r (State.setSpi s m x) := by
  unfold State.setSpi
  repeat' (first | with_reducible exact h | with_reducible assumption | fail_if_no_progress (with_reducible apply Kept.lit))

theorem State.setI2c_kept {r s : State} (h : Kept r s) (m : Nat) (x : Serial) : Kept r (State.setI2c s m x) := by
  unfold State.setI2c
  repeat' (first | with_reducible exact h | with_reducible assumption | fail_if_no_progress (with_reducible apply Kept.lit))

theorem State.setUart_kept {r s : State} (h : Kept r s) (m : Nat) (x : Serial) : Kept r (State.setUart s m x) := by
  unfold State.setUart
  repeat' (first | with_reducible exact h | with_reducible assumption | fail_if_no_progress (with_reducible apply Kept.lit))

theorem State.keepPads_kept {r s : State} (h : Kept r s) : Kept r (State.keepPads s) := by
  unfold State.keepPads
  try dsimp only
  repeat' (first | with_reducible exact h | with_reducible assumption | with_reducible refine fun _ _ => ?_ | with_reducible refine Kept.foldl (fun _ _ _ => ?_) _ ?_ | with_reducible refine Kept.fst (by assumption) ?_ | split | fail_if_no_progress (dsimp only) | fail_if_no_progress (with_reducible apply Kept.lit))

theorem State.poolStart_kept {r s : State} (h : Kept r s) : Kept r (State.poolStart s) := by
  unfold State.poolStart
  try dsimp only
  repeat' (first | with_reducible exact h | with_reducible assumption | with_reducible apply State.setSpi_kept | with_reducible apply State.setI2c_kept | with_reducible apply State.setUart_kept | with_reducible refine fun _ _ => ?_ | with_reducible refine Kept.foldl (fun _ _ _ => ?_) _ ?_ | fail_if_no_progress (dsimp only) | fail_if_no_progress (with_reducible apply Kept.lit))

theorem settle_keeps (s : State) {t : State} (h : Kept s t) : Kept s (settle s t) := by
  have k : Kept s t.keepPads.fresh := State.fresh_kept (State.keepPads_kept h)
  unfold settle; split
  · exact k
  · exact State.sendMsi_kept k _

end Sys2Proof.Machine
end

