-- ==== Sys2Proof/Laws/KeptTimers.lean ====
section
/-! SUPPORT. What the operations of Machine/Timers.lean keep. -/

set_option linter.unusedTactic false
set_option linter.unreachableTactic false
set_option linter.unusedVariables false

namespace Sys2Proof.Machine

theorem State.reclock_kept {r s : State} (h : Kept r s) (old : State) (k : Nat) : Kept r (State.reclock old s k) := by
  unfold State.reclock
  try dsimp only
  repeat' (first | with_reducible exact h | with_reducible assumption | with_reducible refine fun _ _ => ?_ | with_reducible refine Kept.foldl (fun _ _ _ => ?_) _ ?_ | with_reducible apply Kept.ite | split | fail_if_no_progress (dsimp only) | fail_if_no_progress (with_reducible apply Kept.lit))

theorem State.reclockAll_kept {r s : State} (h : Kept r s) (old : State) : Kept r (State.reclockAll old s) := by
  unfold State.reclockAll
  try dsimp only
  repeat' (first | with_reducible exact h | with_reducible assumption | with_reducible apply State.reclock_kept | with_reducible refine fun _ _ => ?_ | with_reducible refine Kept.foldl (fun _ _ _ => ?_) _ ?_ | fail_if_no_progress (dsimp only))

theorem State.pwmStart_kept {r s : State} (h : Kept r s) (old : State) (k : Nat) (j : Nat) (restart : Bool) : Kept r (State.pwmStart old s k j restart) := by
  unfold State.pwmStart
  try dsimp only
  repeat' (first | with_reducible exact h | with_reducible assumption | with_reducible apply Kept.ite | split | fail_if_no_progress (with_reducible apply Kept.lit))

theorem State.pwmClears_kept {r s : State} (h : Kept r s) (k : Nat) (j : Nat) : Kept r (State.pwmClears s k j) := by
  unfold State.pwmClears
  try dsimp only
  repeat' (first | with_reducible exact h | with_reducible assumption | with_reducible apply State.addSat_kept | with_reducible refine fun _ _ => ?_ | with_reducible refine Kept.foldl (fun _ _ _ => ?_) _ ?_ | with_reducible apply Kept.ite | split | fail_if_no_progress (dsimp only) | fail_if_no_progress (with_reducible apply Kept.lit))

theorem State.pwmPeriod_kept {r s : State} (h : Kept r s) (k : Nat) (j : Nat) : Kept r (State.pwmPeriod s k j) := by
  unfold State.pwmPeriod
  repeat' (first | with_reducible exact h | with_reducible assumption | with_reducible apply State.pwmStart_kept | with_reducible apply State.pwmClears_kept | with_reducible apply Kept.ite | split)

theorem State.setCap_kept {r s : State} (h : Kept r s) (k : Nat) (u : Nat) (c : Capture) : Kept r (State.setCap s k u c) := by
  unfold State.setCap
  repeat' (first | with_reducible exact h | with_reducible assumption | fail_if_no_progress (with_reducible apply Kept.lit))

theorem State.captureEdge_kept {r s : State} (h : Kept r s) (k : Nat) (u : Nat) (level : Bool) (n : Nat) : Kept r (State.captureEdge s k u level n) := by
  unfold State.captureEdge
  try dsimp only
  repeat' (first | with_reducible exact h | with_reducible assumption | with_reducible apply State.setCap_kept | with_reducible apply State.orBit_kept | with_reducible apply State.fire_kept | with_reducible apply Kept.ite | split | fail_if_no_progress (with_reducible apply Kept.lit))

theorem State.popCapture_kept {r s : State} (h : Kept r s) (k : Nat) (u : Nat) : Kept r (State.popCapture s k u).1 := by
  unfold State.popCapture
  try dsimp only
  repeat' (first | with_reducible exact h | with_reducible assumption | with_reducible apply State.setCap_kept | with_reducible refine Kept.fst (by assumption) ?_ | split | fail_if_no_progress (dsimp only) | fail_if_no_progress (with_reducible apply Kept.lit))

theorem State.qdStep_kept {r s : State} (h : Kept r s) (k : Nat) (q : Nat) (pos : Word) : Kept r (State.qdStep s k q pos) := by
  unfold State.qdStep
  repeat' (first | with_reducible exact h | with_reducible assumption | with_reducible apply State.setReg_kept | with_reducible apply Kept.ite | split | fail_if_no_progress (with_reducible apply Kept.lit))

theorem State.qdEdge_kept {r s : State} (h : Kept r s) (k : Nat) (q : Nat) (e : EdgeKind) : Kept r (State.qdEdge s k q e) := by
  unfold State.qdEdge
  try dsimp only
  repeat' (first | with_reducible exact h | with_reducible assumption | with_reducible apply State.qdStep_kept | with_reducible apply State.setReg_kept | with_reducible refine Kept.fst (by assumption) ?_ | with_reducible apply Kept.ite | split | fail_if_no_progress (with_reducible apply Kept.lit))

theorem execPwmPeriodStart_kept (s : State) (k : Fin 16) (j : Fin 8) : ∀ t', execPwmPeriodStart k j s = .next t' → Kept s t' := by
  intro _ e; cases e; refine settle_keeps _ ?_
  repeat' (first | with_reducible exact Kept.refl _ | with_reducible apply State.pwmPeriod_kept)

theorem State.pwmDuty_kept {r s : State} (h : Kept r s) (k : Nat) (n : Nat) (v : Word) : Kept r (State.pwmDuty s k n v) := by
  unfold State.pwmDuty
  repeat' (first | with_reducible exact h | with_reducible assumption | with_reducible apply State.localWrite_kept | with_reducible apply State.setFld_kept | with_reducible apply State.toPartner_kept | with_reducible apply Kept.ite | split)

theorem execPwmDutyWrite_kept (s : State) (k : Fin 16) (n : Fin 16) (v : Word) : ∀ t', execPwmDutyWrite k n v s = .next t' → Kept s t' := by
  intro _ e; cases e; refine settle_keeps _ ?_
  repeat' (first | with_reducible exact Kept.refl _ | with_reducible apply State.bayGate_kept | with_reducible apply State.pwmDuty_kept | with_reducible assumption | with_reducible refine fun _ _ _ _ => ?_ | with_reducible refine fun _ _ _ => ?_ | with_reducible refine fun _ _ => ?_ | fail_if_no_progress (dsimp only))

theorem execCapDataRead_kept (s : State) (req : Fin 405) (k : Fin 16) (u : Fin 8) : ∀ t', execCapDataRead req k u s = .next t' → Kept s t' := by
  intro _ e; cases e; refine settle_keeps _ ?_
  repeat' (first | with_reducible exact Kept.refl _ | with_reducible apply State.popCapture_kept | with_reducible apply State.emit_kept)

theorem execQdEdge_kept (s : State) (k : Fin 16) (q : Fin 2) (e : EdgeKind) : ∀ t', execQdEdge k q e s = .next t' → Kept s t' := by
  intro _ e; cases e; refine settle_keeps _ ?_
  repeat' (first | with_reducible exact Kept.refl _ | with_reducible apply State.qdEdge_kept)

theorem execQdPosWrite_kept (s : State) (k : Fin 16) (q : Fin 2) (v : Word) : ∀ t', execQdPosWrite k q v s = .next t' → Kept s t' := by
  intro _ e; cases e; refine settle_keeps _ ?_
  repeat' (first | with_reducible exact Kept.refl _ | with_reducible apply State.bayGate_kept | with_reducible apply State.setReg_kept | with_reducible assumption | with_reducible refine fun _ _ _ _ => ?_ | with_reducible refine fun _ _ _ => ?_ | with_reducible refine fun _ _ => ?_ | fail_if_no_progress (dsimp only))

end Sys2Proof.Machine
end

