-- ==== Sys2Proof/Laws/KeptPins.lean ====
section
/-! SUPPORT. What the operations of Machine/Pins.lean keep. -/

set_option linter.unusedTactic false
set_option linter.unreachableTactic false
set_option linter.unusedVariables false

namespace Sys2Proof.Machine

theorem State.setChOut_kept {r s : State} (h : Kept r s) (p : Nat) (v : Nat) : Kept r (State.setChOut s p v) := by
  unfold State.setChOut
  try dsimp only
  repeat' (first | with_reducible exact h | with_reducible assumption | with_reducible refine Kept.fst (by assumption) ?_ | split | fail_if_no_progress (with_reducible apply Kept.lit))

theorem State.pinsTrip_kept {r s : State} (h : Kept r s) : Kept r (State.pinsTrip s) := by
  unfold State.pinsTrip
  try dsimp only
  repeat' (first | with_reducible exact h | with_reducible assumption | with_reducible refine fun _ _ => ?_ | with_reducible refine Kept.foldl (fun _ _ _ => ?_) _ ?_ | fail_if_no_progress (dsimp only) | fail_if_no_progress (with_reducible apply Kept.lit))

theorem State.findConflicts_kept {r s : State} (h : Kept r s) : Kept r (State.findConflicts s) := by
  unfold State.findConflicts
  try dsimp only
  repeat' (first | with_reducible exact h | with_reducible assumption | with_reducible apply State.setFld_kept | with_reducible apply State.setB_kept | with_reducible refine fun _ _ => ?_ | with_reducible refine Kept.foldl (fun _ _ _ => ?_) _ ?_ | with_reducible apply Kept.ite | split | fail_if_no_progress (dsimp only))

theorem State.pinsBoundary_kept {r s : State} (h : Kept r s) : Kept r (State.pinsBoundary s) := by
  unfold State.pinsBoundary
  try dsimp only
  repeat' (first | with_reducible exact h | with_reducible assumption | with_reducible refine fun _ _ => ?_ | with_reducible refine Kept.foldl (fun _ _ _ => ?_) _ ?_ | with_reducible apply Kept.ite | split | fail_if_no_progress (dsimp only) | fail_if_no_progress (with_reducible apply Kept.lit))

theorem State.pinsApply_kept {r s : State} (h : Kept r s) (old : State) (ps : List Nat) : Kept r (State.pinsApply old s ps) := by
  unfold State.pinsApply
  try dsimp only
  repeat' (first | with_reducible exact h | with_reducible assumption | with_reducible refine fun _ _ => ?_ | with_reducible refine Kept.foldl (fun _ _ _ => ?_) _ ?_ | fail_if_no_progress (dsimp only) | fail_if_no_progress (with_reducible apply Kept.lit))

theorem State.gpioOp_kept {r s : State} (h : Kept r s) (g : Nat) (f : Word → Word) : Kept r (State.gpioOp s g f) := by
  unfold State.gpioOp
  repeat' (first | with_reducible exact h | with_reducible assumption | with_reducible apply State.setReg_kept)

theorem State.gpioStrobe_kept {r s : State} (h : Kept r s) (a : Nat) (g : Nat) (v : Word) (f : Word → Word → Word) : Kept r (State.gpioStrobe s a g v f) := by
  unfold State.gpioStrobe
  try dsimp only
  repeat' (first | with_reducible exact h | with_reducible assumption | with_reducible apply State.gpioOp_kept | with_reducible apply State.localWrite_kept | with_reducible apply State.toPartner_kept | with_reducible refine fun _ _ => ?_ | with_reducible apply Kept.ite | split)

theorem State.gpioStore_kept {r s : State} (h : Kept r s) (a : Nat) (g : Nat) (v : Word) : Kept r (State.gpioStore s a g v) := by
  unfold State.gpioStore
  try dsimp only
  repeat' (first | with_reducible exact h | with_reducible assumption | with_reducible apply State.setReg_kept | with_reducible apply State.localWrite_kept | with_reducible apply State.toPartner_kept | with_reducible apply Kept.ite | split)

theorem State.lockErr_kept {r s : State} (h : Kept r s) : Kept r (State.lockErr s) := by
  unfold State.lockErr
  repeat' (first | with_reducible exact h | with_reducible assumption | with_reducible apply State.setFld_kept)

theorem State.lockTimeout_kept {r s : State} (h : Kept r s) : Kept r (State.lockTimeout s) := by
  unfold State.lockTimeout
  try dsimp only
  repeat' (first | with_reducible exact h | with_reducible assumption | with_reducible apply State.lockErr_kept | with_reducible refine Kept.fst (by assumption) ?_ | with_reducible apply Kept.ite | split | fail_if_no_progress (with_reducible apply Kept.lit))

theorem State.xbarLock_kept {r s : State} (h : Kept r s) (req : Nat) (v : Word) : Kept r (State.xbarLock s req v) := by
  unfold State.xbarLock
  try dsimp only
  repeat' (first | with_reducible exact h | with_reducible assumption | with_reducible apply State.lockTimeout_kept | with_reducible apply State.setReg_kept | with_reducible apply State.invalidate_kept | with_reducible apply State.lockErr_kept | with_reducible refine Kept.fst (by assumption) ?_ | with_reducible apply Kept.ite | split | fail_if_no_progress (with_reducible apply Kept.lit))

theorem State.bankFail_kept {r s : State} (h : Kept r s) (b : Nat) : Kept r (State.bankFail s b) := by
  unfold State.bankFail
  try dsimp only
  repeat' (first | with_reducible exact h | with_reducible assumption | with_reducible apply State.setFld_kept | with_reducible apply Kept.ite | split | fail_if_no_progress (with_reducible apply Kept.lit))

theorem State.bankReturn_kept {r s : State} (h : Kept r s) (b : Nat) (level : Nat) : Kept r (State.bankReturn s b level) := by
  unfold State.bankReturn
  try dsimp only
  repeat' (first | with_reducible exact h | with_reducible assumption | with_reducible apply State.setFld_kept | fail_if_no_progress (with_reducible apply Kept.lit))

theorem State.fabOut_kept {r s : State} (h : Kept r s) (k : Nat) (j : Nat) (value : Bool) (oe : Bool) : Kept r (State.fabOut s k j value oe) := by
  unfold State.fabOut
  try dsimp only
  repeat' (first | with_reducible exact h | with_reducible assumption | with_reducible apply State.setFab_kept | with_reducible apply Kept.ite | split | fail_if_no_progress (with_reducible apply Kept.lit))

theorem execGpioSet_kept (s : State) (g : Fin 11) (v : Word) : ∀ t', execGpioSet g v s = .next t' → Kept s t' := by
  intro _ e; cases e; refine settle_keeps _ ?_
  repeat' (first | with_reducible exact Kept.refl _ | with_reducible apply State.gpioStrobe_kept)

theorem execGpioClr_kept (s : State) (g : Fin 11) (v : Word) : ∀ t', execGpioClr g v s = .next t' → Kept s t' := by
  intro _ e; cases e; refine settle_keeps _ ?_
  repeat' (first | with_reducible exact Kept.refl _ | with_reducible apply State.gpioStrobe_kept | with_reducible assumption | with_reducible refine fun _ _ _ _ => ?_ | with_reducible refine fun _ _ _ => ?_ | with_reducible refine fun _ _ => ?_ | fail_if_no_progress (dsimp only))

theorem execGpioTgl_kept (s : State) (g : Fin 11) (v : Word) : ∀ t', execGpioTgl g v s = .next t' → Kept s t' := by
  intro _ e; cases e; refine settle_keeps _ ?_
  repeat' (first | with_reducible exact Kept.refl _ | with_reducible apply State.gpioStrobe_kept)

theorem execXbarLock_kept (s : State) (req : Fin 405) (v : Word) : ∀ t', execXbarLock req v s = .next t' → Kept s t' := by
  intro _ e; cases e; refine settle_keeps _ ?_
  repeat' (first | with_reducible exact Kept.refl _ | with_reducible apply State.xbarLock_kept)

theorem execLockTimeout_kept (s : State) : ∀ t', execLockTimeout s = .next t' → Kept s t' := by
  intro _ e; cases e; refine settle_keeps _ ?_
  repeat' (first | with_reducible exact Kept.refl _ | with_reducible apply State.lockTimeout_kept)

theorem execBankFail_kept (s : State) (b : Fin 8) : ∀ t', execBankFail b s = .next t' → Kept s t' := by
  intro _ e; cases e; refine settle_keeps _ ?_
  repeat' (first | with_reducible exact Kept.refl _ | with_reducible apply State.bankFail_kept)

theorem execBankReturn_kept (s : State) (b : Fin 8) (level : Fin 4) : ∀ t', execBankReturn b level s = .next t' → Kept s t' := by
  intro _ e; cases e; refine settle_keeps _ ?_
  repeat' (first | with_reducible exact Kept.refl _ | with_reducible apply State.bankReturn_kept)

theorem execFabOutChange_kept (s : State) (k : Fin 16) (j : Fin 32) (value : Bool) (oe : Bool) : ∀ t', execFabOutChange k j value oe s = .next t' → Kept s t' := by
  intro _ e; cases e; refine settle_keeps _ ?_
  repeat' (first | with_reducible exact Kept.refl _ | with_reducible apply State.fabOut_kept)

end Sys2Proof.Machine
end

