-- ==== Sys2Proof/Laws/KeptFabric.lean ====
section
/-! SUPPORT. What the operations of Machine/Fabric.lean keep. -/

set_option linter.unusedTactic false
set_option linter.unreachableTactic false
set_option linter.unusedVariables false

namespace Sys2Proof.Machine

theorem State.fabInit_kept {r s : State} (h : Kept r s) (k : Nat) : Kept r (State.fabInit s k) := by
  unfold State.fabInit
  try dsimp only
  repeat' (first | with_reducible exact h | with_reducible assumption | with_reducible refine fun _ _ => ?_ | with_reducible refine Kept.foldl (fun _ _ _ => ?_) _ ?_ | with_reducible apply Kept.ite | split | fail_if_no_progress (dsimp only) | fail_if_no_progress (with_reducible apply Kept.lit))

theorem State.fabPorts_kept {r s : State} (h : Kept r s) (k : Nat) (outs : CellOuts) : Kept r (State.fabPorts s k outs) := by
  unfold State.fabPorts
  try dsimp only
  repeat' (first | with_reducible exact h | with_reducible assumption | with_reducible apply State.setFab_kept | with_reducible apply State.fire_kept | with_reducible refine fun _ _ => ?_ | with_reducible refine Kept.foldl (fun _ _ _ => ?_) _ ?_ | with_reducible apply Kept.ite | split | fail_if_no_progress (dsimp only) | fail_if_no_progress (with_reducible apply Kept.lit))

theorem State.fabDrive_kept {r s : State} (h : Kept r s) (k : Nat) : Kept r (State.fabDrive s k) := by
  unfold State.fabDrive
  try dsimp only
  repeat' (first | with_reducible exact h | with_reducible assumption | with_reducible apply State.setFab_kept | fail_if_no_progress (with_reducible apply Kept.lit))

theorem State.fabEdge_kept {r s : State} (h : Kept r s) (k : Nat) : Kept r (State.fabEdge s k) := by
  unfold State.fabEdge
  try dsimp only
  repeat' (first | with_reducible exact h | with_reducible assumption | with_reducible apply State.fabPorts_kept | with_reducible apply State.fabDrive_kept | with_reducible refine fun _ _ => ?_ | with_reducible refine Kept.foldl (fun _ _ _ => ?_) _ ?_ | fail_if_no_progress (dsimp only) | fail_if_no_progress (with_reducible apply Kept.lit))

theorem State.fabEdges_kept {r s : State} (h : Kept r s) (k n : Nat) : Kept r (s.fabEdges k n) := by
  induction n generalizing s with
  | zero => exact h
  | succ n ih => exact ih (State.fabEdge_kept h k)

theorem State.fabAdvance_kept {r s : State} (h : Kept r s) (n : Nat) : Kept r (State.fabAdvance s n) := by
  unfold State.fabAdvance
  try dsimp only
  repeat' (first | with_reducible exact h | with_reducible assumption | with_reducible apply State.fabEdges_kept | with_reducible refine fun _ _ => ?_ | with_reducible refine Kept.foldl (fun _ _ _ => ?_) _ ?_ | with_reducible apply Kept.ite | split | fail_if_no_progress (dsimp only))

end Sys2Proof.Machine
end

