-- ==== Sys2Proof/Laws/KeptTimebase.lean ====
section
/-! SUPPORT. What the operations of Machine/Timebase.lean keep. -/

set_option linter.unusedTactic false
set_option linter.unreachableTactic false
set_option linter.unusedVariables false

namespace Sys2Proof.Machine

theorem State.judgeLate_kept {r s : State} (h : Kept r s) (k : Nat) (cls : Nat) (fires : Bool) (a : Action) : Kept r (State.judgeLate s k cls fires a) := by
  unfold State.judgeLate
  try dsimp only
  repeat' (first | with_reducible exact h | with_reducible assumption | with_reducible apply State.addSat_kept | with_reducible apply State.setFld_kept | with_reducible apply State.setB_kept | with_reducible refine Kept.fst (by assumption) ?_ | with_reducible apply Kept.ite | split | fail_if_no_progress (with_reducible apply Kept.lit))

theorem State.overCycles_kept {r s : State} (h : Kept r s) (k : Nat) (n : Nat) (p0 : BitVec 80) (p1 : BitVec 80) (a : Action) : Kept r (State.overCycles s k n p0 p1 a).1 := by
  unfold State.overCycles
  try dsimp only
  repeat' (first | with_reducible exact h | with_reducible assumption | with_reducible apply State.judgeLate_kept | with_reducible refine Kept.fst (by assumption) ?_ | with_reducible apply Kept.ite | split | fail_if_no_progress (dsimp only) | fail_if_no_progress (with_reducible apply Kept.lit))

theorem State.storeCycles_kept {r s : State} (h : Kept r s) (k : Nat) (n : Nat) (p0 : BitVec 80) (p1 : BitVec 80) : Kept r (State.storeCycles s k n p0 p1) := by
  unfold State.storeCycles
  try dsimp only
  repeat' (first | with_reducible exact h | with_reducible assumption | with_reducible apply State.overCycles_kept | with_reducible apply State.setStore_kept | with_reducible refine fun _ _ => ?_ | with_reducible refine Kept.foldl (fun _ _ _ => ?_) _ ?_ | with_reducible refine Kept.foldlFst (fun _ _ _ => ?_) _ ?_ | with_reducible refine Kept.fst (by assumption) ?_ | split | fail_if_no_progress (dsimp only) | fail_if_no_progress (with_reducible apply Kept.lit))

theorem State.advance_kept {r s : State} (h : Kept r s) (n : Nat) : Kept r (State.advance s n) := by
  unfold State.advance
  try dsimp only
  repeat' (first | with_reducible exact h | with_reducible assumption | with_reducible apply State.fabAdvance_kept | with_reducible apply State.storeCycles_kept | with_reducible apply State.fire_kept | with_reducible refine fun _ _ => ?_ | with_reducible refine Kept.foldl (fun _ _ _ => ?_) _ ?_ | with_reducible apply Kept.ite | split | fail_if_no_progress (dsimp only) | fail_if_no_progress (with_reducible apply Kept.lit))

theorem State.moveP_kept {r s : State} (h : Kept r s) (p1 : BitVec 80) (jump : Bool) : Kept r (State.moveP s p1 jump) := by
  unfold State.moveP
  try dsimp only
  repeat' (first | with_reducible exact h | with_reducible assumption | with_reducible apply State.addSat_kept | with_reducible apply State.setStore_kept | with_reducible apply State.asyncLost_kept | with_reducible apply State.fire_kept | with_reducible refine fun _ _ => ?_ | with_reducible refine Kept.foldl (fun _ _ _ => ?_) _ ?_ | with_reducible refine Kept.fst (by assumption) ?_ | with_reducible apply Kept.ite | split | fail_if_no_progress (dsimp only) | fail_if_no_progress (with_reducible apply Kept.lit))

theorem State.masterEdge_kept {r s : State} (h : Kept r s) (i : Nat) (reversed : Bool) : Kept r (State.masterEdge s i reversed) := by
  unfold State.masterEdge
  try dsimp only
  repeat' (first | with_reducible exact h | with_reducible assumption | with_reducible apply State.setFld_kept | with_reducible apply State.moveP_kept | with_reducible apply Kept.ite | split | fail_if_no_progress (with_reducible apply Kept.lit))

theorem State.countQerr_kept {r s : State} (h : Kept r s) (i : Nat) : Kept r (State.countQerr s i) := by
  unfold State.countQerr
  repeat' (first | with_reducible exact h | with_reducible assumption | with_reducible apply State.addSat_kept | with_reducible apply State.setFld_kept)

theorem State.encoderEdge_kept {r s : State} (h : Kept r s) (i : Nat) (k : EdgeKind) : Kept r (State.encoderEdge s i k) := by
  unfold State.encoderEdge
  try dsimp only
  repeat' (first | with_reducible exact h | with_reducible assumption | with_reducible apply State.countQerr_kept | with_reducible apply State.setEnc_kept | with_reducible apply State.masterEdge_kept | with_reducible refine Kept.fst (by assumption) ?_ | with_reducible apply Kept.ite | split | fail_if_no_progress (with_reducible apply Kept.lit))

theorem State.indexEdge_kept {r s : State} (h : Kept r s) (i : Nat) (forward : Bool) : Kept r (State.indexEdge s i forward) := by
  unfold State.indexEdge
  try dsimp only
  repeat' (first | with_reducible exact h | with_reducible assumption | with_reducible apply State.fire_kept | with_reducible apply State.setEnc_kept | with_reducible apply State.addSat_kept | with_reducible apply State.setFld_kept | with_reducible apply State.moveP_kept | with_reducible refine fun _ _ => ?_ | with_reducible apply Kept.ite | split | fail_if_no_progress (with_reducible apply Kept.lit))

theorem State.ssiRead_kept {r s : State} (h : Kept r s) (i : Nat) : Kept r (State.ssiRead s i) := by
  unfold State.ssiRead
  try dsimp only
  repeat' (first | with_reducible exact h | with_reducible assumption | with_reducible apply State.setEnc_kept | with_reducible apply Kept.ite | split | fail_if_no_progress (with_reducible apply Kept.lit))

theorem State.ssiSample_kept {r s : State} (h : Kept r s) (i : Nat) (data0 : Word) (parity0 : Bool) (frame : Bool) : Kept r (State.ssiSample s i data0 parity0 frame) := by
  unfold State.ssiSample
  try dsimp only
  repeat' (first | with_reducible exact h | with_reducible assumption | with_reducible apply State.setEnc_kept | with_reducible apply State.countQerr_kept | with_reducible apply State.masterEdge_kept | with_reducible refine Kept.fst (by assumption) ?_ | with_reducible apply Kept.ite | split | fail_if_no_progress (with_reducible apply Kept.lit))

theorem State.encoderTimeout_kept {r s : State} (h : Kept r s) (i : Nat) : Kept r (State.encoderTimeout s i) := by
  unfold State.encoderTimeout
  try dsimp only
  repeat' (first | with_reducible exact h | with_reducible assumption | with_reducible apply State.setEnc_kept | with_reducible apply State.setFld_kept | with_reducible apply Kept.ite | split | fail_if_no_progress (with_reducible apply Kept.lit))

theorem State.masterEstimate_kept {r s : State} (h : Kept r s) : Kept r (State.masterEstimate s) := by
  unfold State.masterEstimate
  try dsimp only
  repeat' (first | with_reducible exact h | with_reducible assumption | with_reducible apply State.setFld_kept | with_reducible apply Kept.ite | split | fail_if_no_progress (with_reducible apply Kept.lit))

theorem State.masterInit_kept {r s : State} (h : Kept r s) : Kept r (State.masterInit s) := by
  unfold State.masterInit
  try dsimp only
  repeat' (first | with_reducible exact h | with_reducible assumption | with_reducible apply State.masterEstimate_kept | with_reducible refine Kept.fst (by assumption) ?_ | split | fail_if_no_progress (with_reducible apply Kept.lit))

theorem State.masterApply_kept {r s : State} (h : Kept r s) (old : State) : Kept r (State.masterApply old s) := by
  unfold State.masterApply
  try dsimp only
  repeat' (first | with_reducible exact h | with_reducible assumption | with_reducible apply State.moveP_kept | with_reducible apply State.masterEstimate_kept | with_reducible apply State.setFld_kept | with_reducible refine Kept.fst (by assumption) ?_ | with_reducible apply Kept.ite | split | fail_if_no_progress (with_reducible apply Kept.lit))

theorem State.virtualWrap_kept {r s : State} (h : Kept r s) : Kept r (State.virtualWrap s) := by
  unfold State.virtualWrap
  repeat' (first | with_reducible exact h | with_reducible assumption | with_reducible apply State.advance_kept | with_reducible apply Kept.ite | split)

theorem State.latchTime_kept {r s : State} (h : Kept r s) (req : Nat) : Kept r (State.latchTime s req) := by
  unfold State.latchTime
  repeat' (first | with_reducible exact h | with_reducible assumption | fail_if_no_progress (with_reducible apply Kept.lit))

theorem State.post_kept {r s : State} (h : Kept r s) (k : Nat) (a : Action) : Kept r (State.post s k a).1 := by
  unfold State.post
  try dsimp only
  repeat' (first | with_reducible exact h | with_reducible assumption | with_reducible apply State.addSat_kept | with_reducible apply State.setFld_kept | with_reducible apply State.setStore_kept | with_reducible apply Kept.ite | split | fail_if_no_progress (dsimp only) | fail_if_no_progress (with_reducible apply Kept.lit))

theorem State.cancelArmed_kept {r s : State} (h : Kept r s) (k : Nat) (tag : Nat) (mask : Nat) (owner : Option Nat) : Kept r (State.cancelArmed s k tag mask owner).1 := by
  unfold State.cancelArmed
  try dsimp only
  repeat' (first | with_reducible exact h | with_reducible assumption | with_reducible apply State.setStore_kept | with_reducible refine fun _ _ => ?_ | fail_if_no_progress (dsimp only) | fail_if_no_progress (with_reducible apply Kept.lit))

theorem State.cancelOwned_kept {r s : State} (h : Kept r s) (k : Nat) (owner : Nat) : Kept r (State.cancelOwned s k owner) := by
  unfold State.cancelOwned
  try dsimp only
  repeat' (first | with_reducible exact h | with_reducible assumption | with_reducible apply State.cancelArmed_kept | with_reducible apply State.post_kept | with_reducible apply State.setStore_kept | with_reducible refine fun _ _ => ?_ | with_reducible refine Kept.fst (by assumption) ?_ | split | fail_if_no_progress (with_reducible apply Kept.lit))

theorem State.storeEmpty_kept {r s : State} (h : Kept r s) (k : Nat) : Kept r (State.storeEmpty s k) := by
  unfold State.storeEmpty
  try dsimp only
  repeat' (first | with_reducible exact h | with_reducible assumption | with_reducible apply State.post_kept | with_reducible apply State.setStore_kept | with_reducible apply State.cancelArmed_kept | with_reducible refine fun _ _ => ?_ | with_reducible refine Kept.foldl (fun _ _ _ => ?_) _ ?_ | with_reducible refine Kept.fst (by assumption) ?_ | split | fail_if_no_progress (dsimp only) | fail_if_no_progress (with_reducible apply Kept.lit))

theorem State.hpostGo_kept {r s : State} (h : Kept r s) (k : Nat) : Kept r (State.hpostGo s k) := by
  unfold State.hpostGo
  try dsimp only
  repeat' (first | with_reducible exact h | with_reducible assumption | with_reducible apply State.setFld_kept | with_reducible apply State.post_kept | with_reducible refine Kept.fst (by assumption) ?_ | with_reducible apply Kept.ite | split | fail_if_no_progress (with_reducible apply Kept.lit))

theorem State.hcancel_kept {r s : State} (h : Kept r s) (mask : Nat) : Kept r (State.hcancel s mask) := by
  unfold State.hcancel
  try dsimp only
  repeat' (first | with_reducible exact h | with_reducible assumption | with_reducible apply State.setFld_kept | with_reducible apply State.setStore_kept | with_reducible apply Kept.ite | split | fail_if_no_progress (with_reducible apply Kept.lit))

theorem State.hresultDone_kept {r s : State} (h : Kept r s) : Kept r (State.hresultDone s) := by
  unfold State.hresultDone
  repeat' (first | with_reducible exact h | with_reducible assumption | with_reducible apply State.setFld_kept | with_reducible apply State.setB_kept | with_reducible apply Kept.ite | split)

theorem State.arm_kept {r s : State} (h : Kept r s) (k : Nat) : Kept r (State.arm s k) := by
  unfold State.arm
  try dsimp only
  repeat' (first | with_reducible exact h | with_reducible assumption | with_reducible apply State.post_kept | with_reducible apply State.setStore_kept | with_reducible apply State.judgeLate_kept | with_reducible refine Kept.fst (by assumption) ?_ | with_reducible apply Kept.ite | split | fail_if_no_progress (with_reducible apply Kept.lit))

theorem State.firePin_kept {r s : State} (h : Kept r s) (k : Nat) (a : Action) (rest : List Action) : Kept r (State.firePin s k a rest) := by
  unfold State.firePin
  try dsimp only
  repeat' (first | with_reducible exact h | with_reducible assumption | with_reducible apply State.setStore_kept | with_reducible apply State.trace_kept | with_reducible refine Kept.fst (by assumption) ?_ | with_reducible apply Kept.ite | split | fail_if_no_progress (with_reducible apply Kept.lit))

theorem State.fireNext_kept {r s : State} (h : Kept r s) (k : Nat) : Kept r (State.fireNext s k) := by
  unfold State.fireNext
  try dsimp only
  repeat' (first | with_reducible exact h | with_reducible assumption | with_reducible apply State.advance_kept | with_reducible apply State.firePin_kept | with_reducible refine Kept.fst (by assumption) ?_ | with_reducible apply Kept.ite | split | fail_if_no_progress (with_reducible apply Kept.lit))

theorem State.entryFree_kept {r s : State} (h : Kept r s) (k : Nat) : Kept r (State.entryFree s k) := by
  unfold State.entryFree
  try dsimp only
  repeat' (first | with_reducible exact h | with_reducible assumption | with_reducible apply State.setStore_kept | with_reducible apply Kept.ite | split | fail_if_no_progress (with_reducible apply Kept.lit))

theorem State.sendTick_kept {r s : State} (h : Kept r s) : Kept r (State.sendTick s) := by
  unfold State.sendTick
  repeat' (first | with_reducible exact h | with_reducible assumption | with_reducible apply Kept.ite | split | fail_if_no_progress (with_reducible apply Kept.lit))

theorem State.toTickEdge_kept {r s : State} (h : Kept r s) : Kept r (State.toTickEdge s) := by
  unfold State.toTickEdge
  try dsimp only
  repeat' (first | with_reducible exact h | with_reducible assumption | with_reducible apply State.advance_kept | with_reducible apply State.sendTick_kept | with_reducible apply Kept.ite | split | fail_if_no_progress (with_reducible apply Kept.lit))

theorem execEncoderEdge_kept (s : State) (i : Fin 4) (k : EdgeKind) : ∀ t', execEncoderEdge i k s = .next t' → Kept s t' := by
  intro _ e; cases e; refine settle_keeps _ ?_
  repeat' (first | with_reducible exact Kept.refl _ | with_reducible apply asyncCheck_kept | with_reducible apply State.encoderEdge_kept)

theorem execIndexEdge_kept (s : State) (i : Fin 4) (forward : Bool) : ∀ t', execIndexEdge i forward s = .next t' → Kept s t' := by
  intro _ e; cases e; refine settle_keeps _ ?_
  repeat' (first | with_reducible exact Kept.refl _ | with_reducible apply asyncCheck_kept | with_reducible apply State.indexEdge_kept)

theorem execSsiRead_kept (s : State) (i : Fin 4) : ∀ t', execSsiRead i s = .next t' → Kept s t' := by
  intro _ e; cases e; refine settle_keeps _ ?_
  repeat' (first | with_reducible exact Kept.refl _ | with_reducible apply State.ssiRead_kept)

theorem execSsiSample_kept (s : State) (i : Fin 4) (data : Word) (parity : Bool) (frame : Bool) : ∀ t', execSsiSample i data parity frame s = .next t' → Kept s t' := by
  intro _ e; cases e; refine settle_keeps _ ?_
  repeat' (first | with_reducible exact Kept.refl _ | with_reducible apply asyncCheck_kept | with_reducible apply State.ssiSample_kept)

theorem execEncoderTimeout_kept (s : State) (i : Fin 4) : ∀ t', execEncoderTimeout i s = .next t' → Kept s t' := by
  intro _ e; cases e; refine settle_keeps _ ?_
  repeat' (first | with_reducible exact Kept.refl _ | with_reducible apply asyncCheck_kept | with_reducible apply State.encoderTimeout_kept)

theorem execVirtualSourceWrap_kept (s : State) : ∀ t', execVirtualSourceWrap s = .next t' → Kept s t' := by
  intro _ e; cases e; refine settle_keeps _ ?_
  repeat' (first | with_reducible exact Kept.refl _ | with_reducible apply State.virtualWrap_kept)

theorem execTbNowLoRead_kept (s : State) (req : Fin 405) : ∀ t', execTbNowLoRead req s = .next t' → Kept s t' := by
  intro _ e; cases e; refine settle_keeps _ ?_
  repeat' (first | with_reducible exact Kept.refl _ | with_reducible apply State.latchTime_kept | with_reducible apply State.emit_kept)

theorem execHpostGo_kept (s : State) (k : Fin 16) : ∀ t', execHpostGo k s = .next t' → Kept s t' := by
  intro _ e; cases e; refine settle_keeps _ ?_
  repeat' (first | with_reducible exact Kept.refl _ | with_reducible apply State.hpostGo_kept)

theorem execHcancel_kept (s : State) (mask : BitVec 16) : ∀ t', execHcancel mask s = .next t' → Kept s t' := by
  intro _ e; cases e; refine settle_keeps _ ?_
  repeat' (first | with_reducible exact Kept.refl _ | with_reducible apply State.hcancel_kept)

theorem execHresultDone_kept (s : State) : ∀ t', execHresultDone s = .next t' → Kept s t' := by
  intro _ e; cases e; refine settle_keeps _ ?_
  repeat' (first | with_reducible exact Kept.refl _ | with_reducible apply State.hresultDone_kept)

theorem execArm_kept (s : State) (k : Fin 16) : ∀ t', execArm k s = .next t' → Kept s t' := by
  intro _ e; cases e; refine settle_keeps _ ?_
  repeat' (first | with_reducible exact Kept.refl _ | with_reducible apply State.arm_kept)

theorem execFire_kept (s : State) (k : Fin 16) : ∀ t', execFire k s = .next t' → Kept s t' := by
  intro _ e; cases e; refine settle_keeps _ ?_
  repeat' (first | with_reducible exact Kept.refl _ | with_reducible apply State.fireNext_kept)

theorem execEntryFree_kept (s : State) (k : Fin 16) : ∀ t', execEntryFree k s = .next t' → Kept s t' := by
  intro _ e; cases e; refine settle_keeps _ ?_
  repeat' (first | with_reducible exact Kept.refl _ | with_reducible apply State.entryFree_kept)

end Sys2Proof.Machine
end

