-- ==== Sys2Proof/Laws/KeptMemory.lean ====
section
/-! SUPPORT. What the operations of Machine/Memory.lean keep. -/

set_option linter.unusedTactic false
set_option linter.unreachableTactic false
set_option linter.unusedVariables false

namespace Sys2Proof.Machine

theorem State.noteCe_kept {r s : State} (h : Kept r s) (a : Nat) : Kept r (State.noteCe s a) := by
  unfold State.noteCe
  try dsimp only
  repeat' (first | with_reducible exact h | with_reducible assumption | with_reducible apply State.addSat_kept | with_reducible apply State.setFld_kept | with_reducible apply Kept.ite | split | fail_if_no_progress (with_reducible apply Kept.lit))

theorem State.noteUe_kept {r s : State} (h : Kept r s) (a : Nat) : Kept r (State.noteUe s a) := by
  unfold State.noteUe
  try dsimp only
  repeat' (first | with_reducible exact h | with_reducible assumption | with_reducible apply State.setFld_kept | with_reducible apply State.addSat_kept | with_reducible apply Kept.ite | split)

theorem State.readWord_kept {r s : State} (h : Kept r s) (a : Nat) : Kept r (State.readWord s a).1 := by
  unfold State.readWord
  try dsimp only
  repeat' (first | with_reducible exact h | with_reducible assumption | with_reducible apply State.noteCe_kept | with_reducible apply State.noteUe_kept | with_reducible refine Kept.fst (by assumption) ?_ | split | fail_if_no_progress (dsimp only) | fail_if_no_progress (with_reducible apply Kept.lit))

theorem State.inject_kept {r s : State} (h : Kept r s) (k : Nat) (a : Nat) : Kept r (State.inject s k a) := by
  unfold State.inject
  try dsimp only
  repeat' (first | with_reducible exact h | with_reducible assumption | with_reducible apply State.setFlips_kept | with_reducible apply State.setFld_kept | with_reducible apply Kept.ite | split)

theorem State.writeWord_kept {r s : State} (h : Kept r s) (a : Nat) (w : Word) : Kept r (State.writeWord s a w) := by
  unfold State.writeWord
  try dsimp only
  repeat' (first | with_reducible exact h | with_reducible assumption | with_reducible apply State.setWord_kept | with_reducible apply State.setFlips_kept | with_reducible apply State.inject_kept | with_reducible apply Kept.ite | split | fail_if_no_progress (with_reducible apply Kept.lit))

theorem State.mergeWord_kept {r s : State} (h : Kept r s) (a : Nat) (f : Word → Word) : Kept r (State.mergeWord s a f) := by
  unfold State.mergeWord
  try dsimp only
  repeat' (first | with_reducible exact h | with_reducible assumption | with_reducible apply State.readWord_kept | with_reducible apply State.setWord_kept | with_reducible apply State.setFlips_kept | with_reducible refine Kept.fst (by assumption) ?_ | with_reducible apply Kept.ite | split | fail_if_no_progress (with_reducible apply Kept.lit))

theorem State.setMarch_kept {r s : State} (h : Kept r s) (tile : Bool) (k : Nat) (m : March) : Kept r (State.setMarch s tile k m) := by
  unfold State.setMarch
  repeat' (first | with_reducible exact h | with_reducible assumption | with_reducible apply Kept.ite | split | fail_if_no_progress (with_reducible apply Kept.lit))

theorem State.touch_kept {r s : State} (h : Kept r s) (a : Nat) : Kept r (State.touch s a) := by
  unfold State.touch
  try dsimp only
  repeat' (first | with_reducible exact h | with_reducible assumption | with_reducible apply State.setMarch_kept | with_reducible apply State.addSat_kept | with_reducible refine Kept.fst (by assumption) ?_ | with_reducible apply Kept.ite | split | fail_if_no_progress (with_reducible apply Kept.lit))

theorem State.memWrite_kept {r s0 : State} (h : Kept r s0) (view : Nat) (a : Nat) (size : Nat) (v : Nat) : Kept r (State.memWrite s0 view a size v) := by
  unfold State.memWrite
  try dsimp only
  repeat' (first | with_reducible exact h | with_reducible assumption | with_reducible apply State.touch_kept | with_reducible apply State.mergeWord_kept | with_reducible apply State.writeWord_kept | with_reducible refine fun _ _ => ?_ | with_reducible refine Kept.fst (by assumption) ?_ | with_reducible apply Kept.ite | split | fail_if_no_progress (with_reducible apply Kept.lit))

theorem State.memRead_kept {r s : State} (h : Kept r s) (a : Nat) (size : Nat) : Kept r (State.memRead s a size).1 := by
  unfold State.memRead
  try dsimp only
  repeat' (first | with_reducible exact h | with_reducible assumption | with_reducible apply State.touch_kept | with_reducible apply State.readWord_kept | with_reducible refine Kept.fst (by assumption) ?_ | split | fail_if_no_progress (dsimp only) | fail_if_no_progress (with_reducible apply Kept.lit))

theorem State.retainRead_kept {r s : State} (h : Kept r s) (a : Nat) (size : Nat) : Kept r (State.retainRead s a size).1 := by
  unfold State.retainRead
  try dsimp only
  repeat' (first | with_reducible exact h | with_reducible assumption | with_reducible apply State.addSat_kept | with_reducible apply State.setFld_kept | with_reducible refine Kept.fst (by assumption) ?_ | split | fail_if_no_progress (dsimp only) | fail_if_no_progress (with_reducible apply Kept.lit))

theorem State.retainWrite_kept {r s : State} (h : Kept r s) (a : Nat) (size : Nat) (v : Nat) : Kept r (State.retainWrite s a size v) := by
  unfold State.retainWrite
  repeat' (first | with_reducible exact h | with_reducible assumption | with_reducible apply State.store_kept | with_reducible apply State.setFlips_kept)

theorem State.retainPut_kept {r s : State} (h : Kept r s) (a : Nat) (l : List Word) : Kept r (s.retainPut a l) := by
  induction l generalizing s a with
  | nil => exact h
  | cons w l ih => exact ih (State.retainWrite_kept h _ _ _) _

theorem State.regionRead_kept {r s : State} (h : Kept r s) (a : Nat) (size : Nat) : Kept r (State.regionRead s a size).1 := by
  unfold State.regionRead
  repeat' (first | with_reducible exact h | with_reducible assumption | with_reducible apply State.retainRead_kept | with_reducible apply State.memRead_kept | with_reducible apply Kept.ite | split | fail_if_no_progress (dsimp only))

theorem State.regionWrite_kept {r s : State} (h : Kept r s) (a : Nat) (size : Nat) (v : Nat) : Kept r (State.regionWrite s a size v) := by
  unfold State.regionWrite
  repeat' (first | with_reducible exact h | with_reducible assumption | with_reducible apply State.retainWrite_kept | with_reducible apply State.memWrite_kept | with_reducible apply Kept.ite | split)

theorem State.eccWriteback_kept {r s : State} (h : Kept r s) (k : Nat) : Kept r (State.eccWriteback s k) := by
  unfold State.eccWriteback
  try dsimp only
  repeat' (first | with_reducible exact h | with_reducible assumption | with_reducible apply State.setFlips_kept | with_reducible refine fun _ _ => ?_ | with_reducible refine Kept.fst (by assumption) ?_ | with_reducible apply Kept.ite | split | fail_if_no_progress (with_reducible apply Kept.lit))

theorem State.flipBits_kept {r s : State} (h : Kept r s) (a : Nat) (m : Nat) : Kept r (State.flipBits s a m) := by
  unfold State.flipBits
  repeat' (first | with_reducible exact h | with_reducible assumption | with_reducible apply State.setFlips_kept | with_reducible apply Kept.ite | split)

theorem execEccWriteback_kept (s : State) (k : Fin 16) : ∀ t', execEccWriteback k s = .next t' → Kept s t' := by
  intro _ e; cases e; refine settle_keeps _ ?_
  repeat' (first | with_reducible exact Kept.refl _ | with_reducible apply State.eccWriteback_kept)

end Sys2Proof.Machine
end

