-- ==== Sys2Proof/Laws/KeptDac.lean ====
section
/-! SUPPORT. What the operations of Machine/Dac.lean keep. -/

set_option linter.unusedTactic false
set_option linter.unreachableTactic false
set_option linter.unusedVariables false

namespace Sys2Proof.Machine

theorem State.dacClampNote_kept {r s : State} (h : Kept r s) (n : Nat) (code : Nat) : Kept r (State.dacClampNote s n code) := by
  unfold State.dacClampNote
  repeat' (first | with_reducible exact h | with_reducible assumption | with_reducible apply State.addSat_kept | with_reducible apply State.setFld_kept | with_reducible apply Kept.ite | split)

theorem State.loopBreak_kept {r s : State} (h : Kept r s) (n : Nat) : Kept r (State.loopBreak s n) := by
  unfold State.loopBreak
  try dsimp only
  repeat' (first | with_reducible exact h | with_reducible assumption | with_reducible refine Kept.fst (by assumption) ?_ | with_reducible apply Kept.ite | split | fail_if_no_progress (with_reducible apply Kept.lit))

theorem State.putCode_kept {r s : State} (h : Kept r s) (n : Nat) (code : Nat) : Kept r (State.putCode s n code) := by
  unfold State.putCode
  repeat' (first | with_reducible exact h | with_reducible assumption | with_reducible apply State.loopBreak_kept | with_reducible apply State.setFld_kept | with_reducible apply Kept.ite | split)

theorem State.dacClamp_kept {r s : State} (h : Kept r s) (n : Nat) : Kept r (State.dacClamp s n) := by
  unfold State.dacClamp
  repeat' (first | with_reducible exact h | with_reducible assumption | with_reducible apply State.dacClampNote_kept | with_reducible apply State.putCode_kept)

theorem State.dacTo_kept {r s : State} (h : Kept r s) (n : Nat) (st : Nat) : Kept r (State.dacTo s n st) := by
  unfold State.dacTo
  try dsimp only
  repeat' (first | with_reducible exact h | with_reducible assumption | with_reducible apply State.loopBreak_kept | with_reducible apply State.setFld_kept | with_reducible apply State.setDac_kept | with_reducible apply Kept.ite | split | fail_if_no_progress (with_reducible apply Kept.lit))

theorem State.dacEndHold_kept {r s : State} (h : Kept r s) (n : Nat) : Kept r (State.dacEndHold s n) := by
  unfold State.dacEndHold
  repeat' (first | with_reducible exact h | with_reducible assumption | with_reducible apply State.putCode_kept | with_reducible apply State.setB_kept)

theorem State.dacCommit_kept {r s : State} (h : Kept r s) (n : Nat) (code : Nat) : Kept r (State.dacCommit s n code) := by
  unfold State.dacCommit
  try dsimp only
  repeat' (first | with_reducible exact h | with_reducible assumption | with_reducible apply State.dacClampNote_kept | with_reducible apply State.setDac_kept | with_reducible apply State.putCode_kept | with_reducible apply State.dacTo_kept | with_reducible apply State.setFld_kept | with_reducible apply Kept.ite | split | fail_if_no_progress (with_reducible apply Kept.lit))

theorem State.dacRelease_kept {r s : State} (h : Kept r s) (n : Nat) (w : Word) : Kept r (State.dacRelease s n w) := by
  unfold State.dacRelease
  try dsimp only
  repeat' (first | with_reducible exact h | with_reducible assumption | with_reducible apply State.dacEndHold_kept | with_reducible apply State.dacTo_kept | with_reducible apply State.dacCommit_kept | with_reducible apply Kept.ite | split)

theorem State.dacForce_kept {r s : State} (h : Kept r s) (n : Nat) : Kept r (State.dacForce s n) := by
  unfold State.dacForce
  try dsimp only
  repeat' (first | with_reducible exact h | with_reducible assumption | with_reducible apply State.setDac_kept | with_reducible apply State.dacEndHold_kept | with_reducible apply State.dacTo_kept | with_reducible apply State.setFld_kept | with_reducible apply Kept.ite | split | fail_if_no_progress (with_reducible apply Kept.lit))

theorem State.dacsOff_kept {r s : State} (h : Kept r s) : Kept r (State.dacsOff s) := by
  unfold State.dacsOff
  try dsimp only
  repeat' (first | with_reducible exact h | with_reducible assumption | with_reducible apply State.dacTo_kept | with_reducible apply State.setFld_kept | with_reducible refine fun _ _ => ?_ | with_reducible refine Kept.foldl (fun _ _ _ => ?_) _ ?_ | fail_if_no_progress (dsimp only))

theorem State.dacResume_kept {r s : State} (h : Kept r s) (n : Nat) (resume : Bool) : Kept r (State.dacResume s n resume) := by
  unfold State.dacResume
  repeat' (first | with_reducible exact h | with_reducible assumption | with_reducible apply State.dacTo_kept | with_reducible apply State.setFld_kept | with_reducible apply Kept.ite | split)

theorem State.dacApply_kept {r s0 : State} (h : Kept r s0) (old : State) (n : Nat) (wrote : Bool) : Kept r (State.dacApply old s0 n wrote) := by
  unfold State.dacApply
  try dsimp only
  repeat' (first | with_reducible exact h | with_reducible assumption | with_reducible apply State.loopBreak_kept | with_reducible apply State.dacClamp_kept | with_reducible apply State.dacTo_kept | with_reducible apply State.setFld_kept | with_reducible apply State.setB_kept | with_reducible apply State.dacForce_kept | with_reducible apply State.dacClampNote_kept | with_reducible apply State.setDac_kept | with_reducible apply State.dacCommit_kept | with_reducible apply Kept.ite | split | fail_if_no_progress (with_reducible apply Kept.lit))

theorem State.shortSets_kept {r s : State} (h : Kept r s) (n : Nat) : Kept r (State.shortSets s n) := by
  unfold State.shortSets
  try dsimp only
  repeat' (first | with_reducible exact h | with_reducible assumption | with_reducible apply State.setDac_kept | with_reducible apply State.setFld_kept | with_reducible apply State.addSat_kept | with_reducible apply State.dacEndHold_kept | with_reducible apply State.dacTo_kept | with_reducible apply Kept.ite | split | fail_if_no_progress (with_reducible apply Kept.lit))

theorem State.dacBoundary_kept {r s : State} (h : Kept r s) (n : Nat) : Kept r (State.dacBoundary s n) := by
  unfold State.dacBoundary
  try dsimp only
  repeat' (first | with_reducible exact h | with_reducible assumption | with_reducible apply State.shortSets_kept | with_reducible apply State.setDac_kept | with_reducible apply State.dacResume_kept | with_reducible apply Kept.ite | split | fail_if_no_progress (with_reducible apply Kept.lit))

theorem State.rangeHoldEnd_kept {r s : State} (h : Kept r s) (n : Nat) : Kept r (State.rangeHoldEnd s n) := by
  unfold State.rangeHoldEnd
  repeat' (first | with_reducible exact h | with_reducible assumption | with_reducible apply State.dacEndHold_kept | with_reducible apply State.dacTo_kept | with_reducible apply Kept.ite | split)

theorem State.dacShort_kept {r s : State} (h : Kept r s) (n : Nat) (limiting : Bool) (flag : Bool) : Kept r (State.dacShort s n limiting flag) := by
  unfold State.dacShort
  try dsimp only
  repeat' (first | with_reducible exact h | with_reducible assumption | with_reducible apply State.setFld_kept | with_reducible apply State.setDac_kept | with_reducible apply State.shortSets_kept | with_reducible apply Kept.ite | split | fail_if_no_progress (with_reducible apply Kept.lit))

theorem State.shortClear_kept {r s : State} (h : Kept r s) (n : Nat) : Kept r (State.shortClear s n) := by
  unfold State.shortClear
  try dsimp only
  repeat' (first | with_reducible exact h | with_reducible assumption | with_reducible apply State.setFld_kept | with_reducible apply State.dacTo_kept | with_reducible apply Kept.ite | split)

theorem execRangeHoldEnd_kept (s : State) (n : Fin 32) : ∀ t', execRangeHoldEnd n s = .next t' → Kept s t' := by
  intro _ e; cases e; refine settle_keeps _ ?_
  repeat' (first | with_reducible exact Kept.refl _ | with_reducible apply State.rangeHoldEnd_kept)

theorem execDacShort_kept (s : State) (n : Fin 32) (limiting : Limiter) : ∀ t', execDacShort n limiting s = .next t' → Kept s t' := by
  intro _ e; cases e; refine settle_keeps _ ?_
  repeat' (first | with_reducible exact Kept.refl _ | with_reducible apply State.dacShort_kept)

theorem execShortClear_kept (s : State) (n : Fin 32) : ∀ t', execShortClear n s = .next t' → Kept s t' := by
  intro _ e; cases e; refine settle_keeps _ ?_
  repeat' (first | with_reducible exact Kept.refl _ | with_reducible apply State.bayGate_kept | with_reducible apply State.shortClear_kept | with_reducible assumption | with_reducible refine fun _ _ _ _ => ?_ | with_reducible refine fun _ _ _ => ?_ | with_reducible refine fun _ _ => ?_ | fail_if_no_progress (dsimp only))

end Sys2Proof.Machine
end

