-- ==== Sys2Proof/Laws/KeptEngine.lean ====
section
/-! SUPPORT. What the operations of Machine/Engine.lean keep. -/

set_option linter.unusedTactic false
set_option linter.unreachableTactic false
set_option linter.unusedVariables false

namespace Sys2Proof.Machine

theorem Eff.withBank_kept {r : State} {f : Eff} (b : Bank) (h : Kept r f.s) : Kept r (Eff.withBank f b).s := by
  unfold Eff.withBank
  repeat' (first | with_reducible exact h | with_reducible assumption | fail_if_no_progress (with_reducible apply Kept.lit))

theorem Eff.put_kept {r0 : State} {f : Eff} (r : Nat) (w : Word) (h : Kept r0 f.s) : Kept r0 (Eff.put f r w).s := by
  unfold Eff.put
  repeat' (first | with_reducible exact h | with_reducible assumption | with_reducible apply Eff.withBank_kept)

theorem Eff.ext_kept {r : State} {f : Eff} (w : Word) (h : Kept r f.s) : Kept r (Eff.ext f w).1.s := by
  unfold Eff.ext
  try dsimp only
  repeat' (first | with_reducible exact h | with_reducible assumption | with_reducible refine Kept.fst (by assumption) ?_ | split | fail_if_no_progress (dsimp only) | fail_if_no_progress (with_reducible apply Kept.lit))

theorem Eff.alu_kept {r0 : State} {f : Eff} (e : EI) (r : AluRes) (h : Kept r0 f.s) : Kept r0 (Eff.alu f e r).s := by
  unfold Eff.alu
  repeat' (first | with_reducible exact h | with_reducible assumption | with_reducible apply Eff.withBank_kept)

theorem semAlu_kept {r : State} (g : Word → Word → Word → AluRes) (e : EI) {f : Eff} (h : Kept r f.s) : (semAlu g e f).Keeps r := by
  unfold semAlu
  try dsimp only
  repeat' (first | trivial | with_reducible refine Res.keeps_ok ?_ | with_reducible refine Res.keeps_bad ?_ | with_reducible refine Res.keeps_some ?_ ?_ | with_reducible exact h | with_reducible assumption | with_reducible apply Eff.alu_kept)

theorem semImm_kept {r : State} (g : Word → Int → AluRes) (e : EI) {f : Eff} (h : Kept r f.s) : (semImm g e f).Keeps r := by
  unfold semImm
  repeat' (first | trivial | with_reducible refine Res.keeps_ok ?_ | with_reducible refine Res.keeps_bad ?_ | with_reducible refine Res.keeps_some ?_ ?_ | with_reducible exact h | with_reducible assumption | with_reducible apply Eff.alu_kept)

theorem semCmp_kept {r : State} (g : Word → Word → Bool) (e : EI) {f : Eff} (h : Kept r f.s) : (semCmp g e f).Keeps r := by
  unfold semCmp
  try dsimp only
  repeat' (first | trivial | with_reducible refine Res.keeps_ok ?_ | with_reducible refine Res.keeps_bad ?_ | with_reducible refine Res.keeps_some ?_ ?_ | with_reducible exact h | with_reducible assumption | with_reducible apply Eff.withBank_kept)

theorem semAcc_kept {r : State} (g : Int → Word → Word → Int) (e : EI) {f : Eff} (h : Kept r f.s) : (semAcc g e f).Keeps r := by
  unfold semAcc
  try dsimp only
  repeat' (first | trivial | with_reducible refine Res.keeps_ok ?_ | with_reducible refine Res.keeps_bad ?_ | with_reducible refine Res.keeps_some ?_ ?_ | with_reducible exact h | with_reducible assumption | with_reducible apply Eff.withBank_kept | fail_if_no_progress (with_reducible apply Kept.lit))

theorem semRda_kept {r : State} (e : EI) {f : Eff} (h : Kept r f.s) : (semRda e f).Keeps r := by
  unfold semRda
  repeat' (first | trivial | with_reducible refine Res.keeps_ok ?_ | with_reducible refine Res.keeps_bad ?_ | with_reducible refine Res.keeps_some ?_ ?_ | with_reducible exact h | with_reducible assumption | with_reducible apply Eff.alu_kept)

theorem semSel_kept {r : State} (e : EI) {f : Eff} (h : Kept r f.s) : (semSel e f).Keeps r := by
  unfold semSel
  try dsimp only
  repeat' (first | trivial | with_reducible refine Res.keeps_ok ?_ | with_reducible refine Res.keeps_bad ?_ | with_reducible refine Res.keeps_some ?_ ?_ | with_reducible exact h | with_reducible assumption | with_reducible apply Eff.put_kept | with_reducible apply Kept.ite | split)

theorem semCmpi_kept {r : State} (e : EI) {f : Eff} (h : Kept r f.s) : (semCmpi e f).Keeps r := by
  unfold semCmpi
  try dsimp only
  repeat' (first | trivial | with_reducible refine Res.keeps_ok ?_ | with_reducible refine Res.keeps_bad ?_ | with_reducible refine Res.keeps_some ?_ ?_ | with_reducible exact h | with_reducible assumption | with_reducible apply Eff.withBank_kept | with_reducible refine Kept.fst (by assumption) ?_ | split | fail_if_no_progress (with_reducible apply Kept.lit))

theorem Eff.jump_kept {r : State} {f : Eff} (target : Int) (h : Kept r f.s) : (Eff.jump f target).Keeps r := by
  unfold Eff.jump
  repeat' (first | trivial | with_reducible refine Res.keeps_ok ?_ | with_reducible refine Res.keeps_bad ?_ | with_reducible refine Res.keeps_some ?_ ?_ | with_reducible exact h | with_reducible assumption | with_reducible apply Kept.ite | split | fail_if_no_progress (with_reducible apply Kept.lit))

theorem semBr_kept {r : State} (e : EI) {f : Eff} (h : Kept r f.s) : (semBr e f).Keeps r := by
  unfold semBr
  try dsimp only
  repeat' (first | trivial | with_reducible refine Res.keeps_ok ?_ | with_reducible refine Res.keeps_bad ?_ | with_reducible refine Res.keeps_some ?_ ?_ | with_reducible exact h | with_reducible assumption | with_reducible apply Eff.jump_kept | with_reducible apply Kept.ite | split)

theorem semDbnz_kept {r : State} (e : EI) {f : Eff} (h : Kept r f.s) : (semDbnz e f).Keeps r := by
  unfold semDbnz
  try dsimp only
  repeat' (first | trivial | with_reducible refine Res.keeps_ok ?_ | with_reducible refine Res.keeps_bad ?_ | with_reducible refine Res.keeps_some ?_ ?_ | with_reducible exact h | with_reducible assumption | with_reducible apply Eff.put_kept | with_reducible apply Eff.jump_kept | with_reducible apply Kept.ite | split)

theorem semJmp_kept {r : State} (e : EI) {f : Eff} (h : Kept r f.s) : (semJmp e f).Keeps r := by
  unfold semJmp
  repeat' (first | trivial | with_reducible refine Res.keeps_ok ?_ | with_reducible refine Res.keeps_bad ?_ | with_reducible refine Res.keeps_some ?_ ?_ | with_reducible exact h | with_reducible assumption | with_reducible apply Eff.jump_kept)

theorem semCall_kept {r : State} (e : EI) {f : Eff} (h : Kept r f.s) : (semCall e f).Keeps r := by
  unfold semCall
  repeat' (first | trivial | with_reducible refine Res.keeps_ok ?_ | with_reducible refine Res.keeps_bad ?_ | with_reducible refine Res.keeps_some ?_ ?_ | with_reducible exact h | with_reducible assumption | with_reducible apply Eff.put_kept | with_reducible apply Eff.jump_kept)

theorem semJr_kept {r : State} (e : EI) {f : Eff} (h : Kept r f.s) : (semJr e f).Keeps r := by
  unfold semJr
  repeat' (first | trivial | with_reducible refine Res.keeps_ok ?_ | with_reducible refine Res.keeps_bad ?_ | with_reducible refine Res.keeps_some ?_ ?_ | with_reducible exact h | with_reducible assumption | with_reducible apply Eff.jump_kept)

theorem State.portServed_kept {r s : State} (h : Kept r s) (bank : Nat) (p : Nat) (w : PortWait) : Kept r (State.portServed s bank p w) := by
  unfold State.portServed
  try dsimp only
  repeat' (first | with_reducible exact h | with_reducible assumption | with_reducible apply Kept.ite | split | fail_if_no_progress (with_reducible apply Kept.lit))

theorem semLd_kept {r : State} (w : PortWait) (e : EI) {f : Eff} (h : Kept r f.s) : (semLd w e f).Keeps r := by
  unfold semLd
  try dsimp only
  repeat' (first | trivial | with_reducible refine Res.keeps_ok ?_ | with_reducible refine Res.keeps_bad ?_ | with_reducible refine Res.keeps_some ?_ ?_ | with_reducible exact h | with_reducible assumption | with_reducible apply State.memRead_kept | with_reducible apply Eff.withBank_kept | with_reducible apply State.portServed_kept | with_reducible apply Eff.ext_kept | with_reducible apply State.regionRead_kept | with_reducible apply State.setEng_kept | with_reducible refine Kept.fst (by assumption) ?_ | with_reducible apply Kept.ite | split | fail_if_no_progress (with_reducible apply Kept.lit))

theorem State.notePost_kept {r s : State} (h : Kept r s) (t : Nat) (bs : List Byte) : Kept r (State.notePost s t bs) := by
  unfold State.notePost
  repeat' (first | with_reducible exact h | with_reducible assumption | with_reducible apply State.setEng_kept | fail_if_no_progress (with_reducible apply Kept.lit))

theorem State.noteStore_kept {r s : State} (h : Kept r s) (t : Nat) (bs : List Byte) : Kept r (State.noteStore s t bs) := by
  unfold State.noteStore
  repeat' (first | with_reducible exact h | with_reducible assumption | with_reducible apply State.setEng_kept | fail_if_no_progress (with_reducible apply Kept.lit))

theorem semSt_kept {r : State} (w : PortWait) (e : EI) {f : Eff} (h : Kept r f.s) : (semSt w e f).Keeps r := by
  unfold semSt
  try dsimp only
  repeat' (first | trivial | with_reducible refine Res.keeps_ok ?_ | with_reducible refine Res.keeps_bad ?_ | with_reducible refine Res.keeps_some ?_ ?_ | with_reducible exact h | with_reducible assumption | with_reducible apply Eff.withBank_kept | with_reducible apply State.memWrite_kept | with_reducible apply State.toPartner_kept | with_reducible apply State.noteStore_kept | with_reducible apply State.portServed_kept | with_reducible apply State.setEng_kept | with_reducible refine Kept.fst (by assumption) ?_ | with_reducible apply Kept.ite | split | fail_if_no_progress (with_reducible apply Kept.lit))

theorem State.entryAt_kept {r s : State} (h : Kept r s) (m : Nat) (i : Nat) : Kept r (State.entryAt s m i).1 := by
  unfold State.entryAt
  try dsimp only
  repeat' (first | with_reducible exact h | with_reducible assumption | with_reducible apply State.readWord_kept | with_reducible apply Kept.ite | split | fail_if_no_progress (dsimp only))

theorem semLut_kept {r : State} (e : EI) {f : Eff} (h : Kept r f.s) : (semLut e f).Keeps r := by
  unfold semLut
  try dsimp only
  repeat' (first | trivial | with_reducible refine Res.keeps_ok ?_ | with_reducible refine Res.keeps_bad ?_ | with_reducible refine Res.keeps_some ?_ ?_ | with_reducible exact h | with_reducible assumption | with_reducible apply State.entryAt_kept | with_reducible apply Eff.put_kept | with_reducible refine Kept.fst (by assumption) ?_ | with_reducible apply Kept.ite | split | fail_if_no_progress (with_reducible apply Kept.lit))

theorem semAddp_kept {r : State} (e : EI) {f : Eff} (h : Kept r f.s) : (semAddp e f).Keeps r := by
  unfold semAddp
  repeat' (first | trivial | with_reducible refine Res.keeps_ok ?_ | with_reducible refine Res.keeps_bad ?_ | with_reducible refine Res.keeps_some ?_ ?_ | with_reducible exact h | with_reducible assumption | with_reducible apply Eff.withBank_kept)

theorem semMfs_kept {r : State} (e : EI) {f : Eff} (h : Kept r f.s) : (semMfs e f).Keeps r := by
  unfold semMfs
  try dsimp only
  repeat' (first | trivial | with_reducible refine Res.keeps_ok ?_ | with_reducible refine Res.keeps_bad ?_ | with_reducible refine Res.keeps_some ?_ ?_ | with_reducible exact h | with_reducible assumption | with_reducible apply Eff.ext_kept | with_reducible apply Eff.put_kept | with_reducible refine Kept.fst (by assumption) ?_ | with_reducible apply Kept.ite | split | fail_if_no_progress (with_reducible apply Kept.lit))

theorem semMts_kept {r : State} (e : EI) {f : Eff} (h : Kept r f.s) : (semMts e f).Keeps r := by
  unfold semMts
  try dsimp only
  repeat' (first | trivial | with_reducible refine Res.keeps_ok ?_ | with_reducible refine Res.keeps_bad ?_ | with_reducible refine Res.keeps_some ?_ ?_ | with_reducible exact h | with_reducible assumption | with_reducible apply Eff.withBank_kept | with_reducible apply Kept.ite | split | fail_if_no_progress (with_reducible apply Kept.lit))

theorem semRdin_kept {r : State} (e : EI) {f : Eff} (h : Kept r f.s) : (semRdin e f).Keeps r := by
  unfold semRdin
  try dsimp only
  repeat' (first | trivial | with_reducible refine Res.keeps_ok ?_ | with_reducible refine Res.keeps_bad ?_ | with_reducible refine Res.keeps_some ?_ ?_ | with_reducible exact h | with_reducible assumption | with_reducible apply State.fresh_kept | with_reducible apply Eff.ext_kept | with_reducible apply Eff.withBank_kept | with_reducible apply State.popCapture_kept | with_reducible refine Kept.fst (by assumption) ?_ | with_reducible apply Kept.ite | split | fail_if_no_progress (with_reducible apply Kept.lit))

theorem semRdint_kept {r : State} (e : EI) {f : Eff} (h : Kept r f.s) : (semRdint e f).Keeps r := by
  unfold semRdint
  try dsimp only
  repeat' (first | trivial | with_reducible refine Res.keeps_ok ?_ | with_reducible refine Res.keeps_bad ?_ | with_reducible refine Res.keeps_some ?_ ?_ | with_reducible exact h | with_reducible assumption | with_reducible apply Eff.ext_kept | with_reducible apply Eff.put_kept | with_reducible refine Kept.fst (by assumption) ?_ | with_reducible apply Kept.ite | split)

theorem semStout_kept {r : State} (e : EI) {f : Eff} (h : Kept r f.s) : (semStout e f).Keeps r := by
  unfold semStout
  try dsimp only
  repeat' (first | trivial | with_reducible refine Res.keeps_ok ?_ | with_reducible refine Res.keeps_bad ?_ | with_reducible refine Res.keeps_some ?_ ?_ | with_reducible exact h | with_reducible assumption | with_reducible refine Kept.fst (by assumption) ?_ | with_reducible apply Kept.ite | split | fail_if_no_progress (with_reducible apply Kept.lit))

theorem semPost_kept {r : State} (w : Nat) (e : EI) {f : Eff} (h : Kept r f.s) : (semPost w e f).Keeps r := by
  unfold semPost
  try dsimp only
  repeat' (first | trivial | with_reducible refine Res.keeps_ok ?_ | with_reducible refine Res.keeps_bad ?_ | with_reducible refine Res.keeps_some ?_ ?_ | with_reducible exact h | with_reducible assumption | with_reducible apply Eff.put_kept | with_reducible apply Eff.ext_kept | with_reducible apply State.post_kept | with_reducible apply State.notePost_kept | with_reducible refine Kept.fst (by assumption) ?_ | with_reducible apply Kept.ite | split | fail_if_no_progress (with_reducible apply Kept.lit))

theorem semCancel_kept {r : State} (w : Nat) (e : EI) {f : Eff} (h : Kept r f.s) : (semCancel w e f).Keeps r := by
  unfold semCancel
  try dsimp only
  repeat' (first | trivial | with_reducible refine Res.keeps_ok ?_ | with_reducible refine Res.keeps_bad ?_ | with_reducible refine Res.keeps_some ?_ ?_ | with_reducible exact h | with_reducible assumption | with_reducible apply Eff.ext_kept | with_reducible apply Eff.put_kept | with_reducible apply State.setStore_kept | with_reducible apply State.setEng_kept | with_reducible refine Kept.fst (by assumption) ?_ | with_reducible apply Kept.ite | split | fail_if_no_progress (with_reducible apply Kept.lit))

theorem semEnd_kept {r : State} (how : Ending) (u1 : EI) {f : Eff} (h : Kept r f.s) : (semEnd how u1 f).Keeps r := by
  unfold semEnd
  repeat' (first | trivial | with_reducible refine Res.keeps_ok ?_ | with_reducible refine Res.keeps_bad ?_ | with_reducible refine Res.keeps_some ?_ ?_ | with_reducible exact h | with_reducible assumption | fail_if_no_progress (with_reducible apply Kept.lit))

theorem semBrk_kept {r : State} (u0 : EI) {f : Eff} (h : Kept r f.s) : (semBrk u0 f).Keeps r := by
  unfold semBrk
  repeat' (first | trivial | with_reducible refine Res.keeps_ok ?_ | with_reducible refine Res.keeps_bad ?_ | with_reducible refine Res.keeps_some ?_ ?_ | with_reducible exact h | with_reducible assumption | with_reducible apply Kept.ite | split)

theorem semNop_kept {r : State} (u0 : EI) {f : Eff} (h : Kept r f.s) : (semNop u0 f).Keeps r := by
  unfold semNop
  repeat' (first | trivial | with_reducible refine Res.keeps_ok ?_ | with_reducible refine Res.keeps_bad ?_ | with_reducible refine Res.keeps_some ?_ ?_ | with_reducible exact h | with_reducible assumption)

theorem twoCycles_kept {r : State} (g : EI → Eff → Res) (e : EI) {f : Eff} (hg : (g e f).Keeps r) : (twoCycles g e f).Keeps r := by
  unfold twoCycles; split
  · next eq => rw [eq] at hg; exact ⟨hg.1, fun _ k => hg.2 _ k⟩
  · exact hg

theorem semOf_kept {r : State} (op : EOp) (e : EI) {f : Eff} (h : Kept r f.s) : (semOf op e f).Keeps r := by
  unfold semOf
  try dsimp only
  repeat' (first | trivial | with_reducible refine Res.keeps_ok ?_ | with_reducible refine Res.keeps_bad ?_ | with_reducible refine Res.keeps_some ?_ ?_ | with_reducible exact h | with_reducible assumption | with_reducible apply semNop_kept | with_reducible apply semLd_kept | with_reducible apply semSt_kept | with_reducible apply State.post_kept | with_reducible apply semPost_kept | with_reducible apply semCancel_kept | with_reducible apply semAlu_kept | with_reducible apply semAcc_kept | with_reducible apply semRda_kept | with_reducible apply semCmp_kept | with_reducible apply semSel_kept | with_reducible apply semImm_kept | with_reducible apply semCmpi_kept | with_reducible apply semBr_kept | with_reducible apply semDbnz_kept | with_reducible apply semJmp_kept | with_reducible apply semCall_kept | with_reducible apply semEnd_kept | with_reducible apply semBrk_kept | with_reducible apply semJr_kept | with_reducible apply semMfs_kept | with_reducible apply semMts_kept | with_reducible apply semAddp_kept | with_reducible apply semRdin_kept | with_reducible apply semRdint_kept | with_reducible apply semStout_kept | with_reducible apply semLut_kept | with_reducible apply twoCycles_kept | with_reducible refine fun _ _ => ?_ | with_reducible refine Kept.fst (by assumption) ?_ | with_reducible apply Kept.ite | split | fail_if_no_progress (with_reducible apply Kept.lit))

theorem State.setAct_kept {r s : State} (h : Kept r s) (t : Nat) (a : Option Act) : Kept r (State.setAct s t a) := by
  unfold State.setAct
  repeat' (first | with_reducible exact h | with_reducible assumption | with_reducible apply State.setEng_kept | fail_if_no_progress (with_reducible apply Kept.lit))

theorem State.ran_kept {r s : State} (h : Kept r s) (t : Nat) (how : Nat) (a : Act) : Kept r (State.ran s t how a) := by
  unfold State.ran
  try dsimp only
  repeat' (first | with_reducible exact h | with_reducible assumption | with_reducible apply State.setEng_kept | with_reducible apply Kept.ite | split | fail_if_no_progress (with_reducible apply Kept.lit))

theorem State.debugStop_kept {r s : State} (h : Kept r s) (t : Nat) (reason : Nat) (pc : Nat) (a : Act) : Kept r (State.debugStop s t reason pc a) := by
  unfold State.debugStop
  try dsimp only
  repeat' (first | with_reducible exact h | with_reducible assumption | with_reducible apply State.setChan_kept | with_reducible apply State.ran_kept | fail_if_no_progress (with_reducible apply Kept.lit))

theorem State.chanFault_kept {r s : State} (h : Kept r s) (t : Nat) (cause : Nat) (addr : Word) (x : Nat) (a : Act) : Kept r (State.chanFault s t cause addr x a) := by
  unfold State.chanFault
  try dsimp only
  repeat' (first | with_reducible exact h | with_reducible assumption | with_reducible apply State.diverge_kept | with_reducible apply State.setAct_kept | with_reducible apply State.setChan_kept | with_reducible apply Kept.ite | split | fail_if_no_progress (with_reducible apply Kept.lit))

theorem State.exhaust_kept {r s : State} (h : Kept r s) (t : Nat) (a : Act) : Kept r (State.exhaust s t a) := by
  unfold State.exhaust
  repeat' (first | with_reducible exact h | with_reducible assumption | with_reducible apply State.setAct_kept | fail_if_no_progress (with_reducible apply Kept.lit))

theorem State.retire_kept {r s : State} (h : Kept r s) (t x : Nat) (a : Act) (q : Res) (hq : q.Keeps r) : Kept r (s.retire t x a q) := by
  unfold State.retire
  cases q with
  | fault c a' => exact State.chanFault_kept h _ _ _ _ _
  | bad s1 a' => exact State.chanFault_kept hq _ _ _ _ _
  | wait => exact State.setEng_kept h _ _
  | stop => exact State.debugStop_kept h _ _ _ _
  | ok f cost kept =>
    obtain ⟨h1, h2⟩ := hq
    dsimp only
    split
    · split
      · split
        · exact State.exhaust_kept (h2 _ rfl) _ _
        · exact State.exhaust_kept h _ _
      · exact State.exhaust_kept h _ _
    · have k := State.setEng_kept (State.setChan_kept h1 (16 * t + a.slot) f.c)
      exact Kept.ite (State.debugStop_kept (k _ _) _ _ _ _) (k _ _)

theorem State.issue_kept {r s : State} (h : Kept r s) (t : Nat) (op : EOp) (sem : EI → Eff → Res)
    (hs : ∀ e f, Kept r f.s → (sem e f).Keeps r) : Kept r (s.issue t op sem) := by
  unfold State.issue
  repeat' (first | with_reducible assumption | with_reducible apply State.chanFault_kept | with_reducible apply State.debugStop_kept | with_reducible apply State.exhaust_kept | with_reducible apply State.retire_kept | with_reducible apply hs | with_reducible refine Kept.fst (by assumption) ?_ | with_reducible apply State.readWord_kept | split | (show Kept r (ite _ _ _)))

theorem State.activate_kept {r s : State} (h : Kept r s) (t : Nat) (k : Nat) (offset : Nat) (budget : Nat) : Kept r (State.activate s t k offset budget) := by
  unfold State.activate
  try dsimp only
  repeat' (first | with_reducible exact h | with_reducible assumption | with_reducible apply State.setChan_kept | with_reducible apply State.setAct_kept | with_reducible apply State.debugStop_kept | with_reducible refine Kept.fst (by assumption) ?_ | with_reducible apply Kept.ite | split | fail_if_no_progress (with_reducible apply Kept.lit))

theorem State.takeBase_kept {r s : State} (h : Kept r s) (t : Nat) (l : List Nat) : Kept r (s.takeBase t l) := by
  induction l generalizing s with
  | nil => exact h
  | cons k l ih =>
    unfold State.takeBase
    dsimp only
    split
    · split
      · exact State.activate_kept (State.setEng_kept (State.setEng_kept h _ _) _ _) _ _ _ _
      · exact ih (State.setFld_kept (State.setChan_kept (State.setEng_kept h _ _) _ _) _ _)
    · exact ih h

theorem State.startNext_kept {r s : State} (h : Kept r s) (t : Nat) : Kept r (State.startNext s t) := by
  unfold State.startNext
  try dsimp only
  repeat' (first | with_reducible exact h | with_reducible assumption | with_reducible apply State.setEng_kept | with_reducible apply State.activate_kept | with_reducible apply State.takeBase_kept | with_reducible refine fun _ _ => ?_ | with_reducible refine Kept.foldl (fun _ _ _ => ?_) _ ?_ | with_reducible refine Kept.fst (by assumption) ?_ | with_reducible apply Kept.ite | split | fail_if_no_progress (dsimp only) | fail_if_no_progress (with_reducible apply Kept.lit))

theorem State.drive_kept {r s : State} (h : Kept r s) (k : Nat) (kind : Nat) (n : Nat) (w : Word) : Kept r (State.drive s k kind n w) := by
  unfold State.drive
  try dsimp only
  repeat' (first | with_reducible exact h | with_reducible assumption | with_reducible apply State.dacCommit_kept | with_reducible apply State.setFld_kept | with_reducible apply State.setChOut_kept | with_reducible refine Kept.fst (by assumption) ?_ | split | fail_if_no_progress (with_reducible apply Kept.lit))

theorem State.defer_kept {r s : State} (h : Kept r s) (i : Nat) (b : Nat) (w : Word) : Kept r (State.defer s i b w) := by
  unfold State.defer
  try dsimp only
  repeat' (first | with_reducible exact h | with_reducible assumption | with_reducible apply State.setChOut_kept | with_reducible apply State.setChan_kept | with_reducible apply Kept.ite | split | fail_if_no_progress (with_reducible apply Kept.lit))

theorem State.commit_kept {r s : State} (h : Kept r s) (t : Nat) (k : Nat) (stage : Table (Word × Bool)) : Kept r (State.commit s t k stage) := by
  unfold State.commit
  try dsimp only
  repeat' (first | with_reducible exact h | with_reducible assumption | with_reducible apply State.defer_kept | with_reducible apply State.drive_kept | with_reducible refine fun _ _ => ?_ | with_reducible refine Kept.foldl (fun _ _ _ => ?_) _ ?_ | with_reducible refine Kept.fst (by assumption) ?_ | with_reducible apply Kept.ite | split | fail_if_no_progress (dsimp only))

theorem State.forgetCancel_kept {r s : State} (h : Kept r s) (t : Nat) : Kept r (State.forgetCancel s t) := by
  unfold State.forgetCancel
  try dsimp only
  repeat' (first | with_reducible exact h | with_reducible assumption | with_reducible apply State.setStore_kept | with_reducible refine fun _ _ => ?_ | with_reducible refine Kept.fst (by assumption) ?_ | with_reducible apply Kept.ite | split | fail_if_no_progress (with_reducible apply Kept.lit))

theorem State.preempt_kept {r s : State} (h : Kept r s) (t : Nat) : Kept r (State.preempt s t) := by
  unfold State.preempt
  try dsimp only
  repeat' (first | with_reducible exact h | with_reducible assumption | with_reducible apply State.ran_kept | with_reducible apply State.setChan_kept | with_reducible apply State.diverge_kept | with_reducible apply State.forgetCancel_kept | with_reducible apply State.setEng_kept | with_reducible apply State.setFld_kept | with_reducible refine Kept.fst (by assumption) ?_ | with_reducible apply Kept.ite | split | fail_if_no_progress (with_reducible apply Kept.lit))

theorem State.activationEnd_kept {r s : State} (h : Kept r s) (t : Nat) (w : Nat) : Kept r (State.activationEnd s t w) := by
  unfold State.activationEnd
  try dsimp only
  repeat' (first | with_reducible exact h | with_reducible assumption | with_reducible apply State.ran_kept | with_reducible apply State.diverge_kept | with_reducible apply State.setAct_kept | with_reducible apply State.commit_kept | with_reducible apply State.setChan_kept | with_reducible refine Kept.fst (by assumption) ?_ | with_reducible apply Kept.ite | split | fail_if_no_progress (with_reducible apply Kept.lit))

theorem State.unblock_kept {r s : State} (h : Kept r s) (t : Nat) (n : Nat) (a : Act) (g : Bank → Bank) (v : Word) : Kept r (State.unblock s t n a g v) := by
  unfold State.unblock
  try dsimp only
  repeat' (first | with_reducible exact h | with_reducible assumption | with_reducible apply State.exhaust_kept | with_reducible apply State.setChan_kept | with_reducible apply State.setAct_kept | with_reducible apply State.debugStop_kept | with_reducible apply Kept.ite | split | fail_if_no_progress (with_reducible apply Kept.lit))

theorem State.cancelArm_kept {r s : State} (h : Kept r s) (k : Nat) (n : Nat) : Kept r (State.cancelArm s k n) := by
  unfold State.cancelArm
  try dsimp only
  repeat' (first | with_reducible exact h | with_reducible assumption | with_reducible apply State.setStore_kept | with_reducible apply State.cancelArmed_kept | with_reducible apply State.setEng_kept | with_reducible apply State.unblock_kept | with_reducible refine fun _ _ => ?_ | with_reducible refine Kept.fst (by assumption) ?_ | split | fail_if_no_progress (with_reducible apply Kept.lit))

theorem execCancelArm_kept (s : State) (k : Fin 16) (n : Nat) : ∀ t', execCancelArm k n s = .next t' → Kept s t' := by
  intro _ e; cases e; refine settle_keeps _ ?_
  repeat' (first | with_reducible exact Kept.refl _ | with_reducible apply State.cancelArm_kept)

theorem execActivationStart_kept (s : State) (t : Fin 256) : ∀ t', execActivationStart t s = .next t' → Kept s t' := by
  intro _ e; cases e; refine settle_keeps _ ?_
  repeat' (first | with_reducible exact Kept.refl _ | with_reducible apply State.startNext_kept)

theorem execPreempt_kept (s : State) (t : Fin 256) : ∀ t', execPreempt t s = .next t' → Kept s t' := by
  intro _ e; cases e; refine settle_keeps _ ?_
  repeat' (first | with_reducible exact Kept.refl _ | with_reducible apply State.preempt_kept)

theorem execActivationEnd_kept (s : State) (t : Fin 256) (w : Nat) : ∀ t', execActivationEnd t w s = .next t' → Kept s t' := by
  intro _ e; cases e; refine settle_keeps _ ?_
  repeat' (first | with_reducible exact Kept.refl _ | with_reducible apply State.activationEnd_kept)

theorem execIllegal_kept (s : State) (t : Fin 256) : ∀ t', execIllegal t s = .next t' → Kept s t' := by
  intro _ e; cases e; refine settle_keeps _ ?_
  repeat' (first | with_reducible exact Kept.refl _ | with_reducible apply State.issue_kept | with_reducible apply semNop_kept)

theorem execAdd_kept (s : State) (t : Fin 256) : ∀ t', execAdd t s = .next t' → Kept s t' := by
  intro _ e; cases e; refine settle_keeps _ ?_
  repeat' (first | with_reducible exact Kept.refl _ | with_reducible apply State.issue_kept | with_reducible apply semOf_kept)

theorem execSub_kept (s : State) (t : Fin 256) : ∀ t', execSub t s = .next t' → Kept s t' := by
  intro _ e; cases e; refine settle_keeps _ ?_
  repeat' (first | with_reducible exact Kept.refl _ | with_reducible apply State.issue_kept | with_reducible apply semOf_kept)

theorem execAdds_kept (s : State) (t : Fin 256) : ∀ t', execAdds t s = .next t' → Kept s t' := by
  intro _ e; cases e; refine settle_keeps _ ?_
  repeat' (first | with_reducible exact Kept.refl _ | with_reducible apply State.issue_kept | with_reducible apply semOf_kept)

theorem execSubs_kept (s : State) (t : Fin 256) : ∀ t', execSubs t s = .next t' → Kept s t' := by
  intro _ e; cases e; refine settle_keeps _ ?_
  repeat' (first | with_reducible exact Kept.refl _ | with_reducible apply State.issue_kept | with_reducible apply semOf_kept)

theorem execAnd_kept (s : State) (t : Fin 256) : ∀ t', execAnd t s = .next t' → Kept s t' := by
  intro _ e; cases e; refine settle_keeps _ ?_
  repeat' (first | with_reducible exact Kept.refl _ | with_reducible apply State.issue_kept | with_reducible apply semOf_kept)

theorem execOr_kept (s : State) (t : Fin 256) : ∀ t', execOr t s = .next t' → Kept s t' := by
  intro _ e; cases e; refine settle_keeps _ ?_
  repeat' (first | with_reducible exact Kept.refl _ | with_reducible apply State.issue_kept | with_reducible apply semOf_kept)

theorem execXor_kept (s : State) (t : Fin 256) : ∀ t', execXor t s = .next t' → Kept s t' := by
  intro _ e; cases e; refine settle_keeps _ ?_
  repeat' (first | with_reducible exact Kept.refl _ | with_reducible apply State.issue_kept | with_reducible apply semOf_kept)

theorem execAndn_kept (s : State) (t : Fin 256) : ∀ t', execAndn t s = .next t' → Kept s t' := by
  intro _ e; cases e; refine settle_keeps _ ?_
  repeat' (first | with_reducible exact Kept.refl _ | with_reducible apply State.issue_kept | with_reducible apply semOf_kept)

theorem execShl_kept (s : State) (t : Fin 256) : ∀ t', execShl t s = .next t' → Kept s t' := by
  intro _ e; cases e; refine settle_keeps _ ?_
  repeat' (first | with_reducible exact Kept.refl _ | with_reducible apply State.issue_kept | with_reducible apply semOf_kept)

theorem execShr_kept (s : State) (t : Fin 256) : ∀ t', execShr t s = .next t' → Kept s t' := by
  intro _ e; cases e; refine settle_keeps _ ?_
  repeat' (first | with_reducible exact Kept.refl _ | with_reducible apply State.issue_kept | with_reducible apply semOf_kept)

theorem execSar_kept (s : State) (t : Fin 256) : ∀ t', execSar t s = .next t' → Kept s t' := by
  intro _ e; cases e; refine settle_keeps _ ?_
  repeat' (first | with_reducible exact Kept.refl _ | with_reducible apply State.issue_kept | with_reducible apply semOf_kept)

theorem execShls_kept (s : State) (t : Fin 256) : ∀ t', execShls t s = .next t' → Kept s t' := by
  intro _ e; cases e; refine settle_keeps _ ?_
  repeat' (first | with_reducible exact Kept.refl _ | with_reducible apply State.issue_kept | with_reducible apply semOf_kept)

theorem execMin_kept (s : State) (t : Fin 256) : ∀ t', execMin t s = .next t' → Kept s t' := by
  intro _ e; cases e; refine settle_keeps _ ?_
  repeat' (first | with_reducible exact Kept.refl _ | with_reducible apply State.issue_kept | with_reducible apply semOf_kept)

theorem execMax_kept (s : State) (t : Fin 256) : ∀ t', execMax t s = .next t' → Kept s t' := by
  intro _ e; cases e; refine settle_keeps _ ?_
  repeat' (first | with_reducible exact Kept.refl _ | with_reducible apply State.issue_kept | with_reducible apply semOf_kept)

theorem execAbs_kept (s : State) (t : Fin 256) : ∀ t', execAbs t s = .next t' → Kept s t' := by
  intro _ e; cases e; refine settle_keeps _ ?_
  repeat' (first | with_reducible exact Kept.refl _ | with_reducible apply State.issue_kept | with_reducible apply semOf_kept)

theorem execNeg_kept (s : State) (t : Fin 256) : ∀ t', execNeg t s = .next t' → Kept s t' := by
  intro _ e; cases e; refine settle_keeps _ ?_
  repeat' (first | with_reducible exact Kept.refl _ | with_reducible apply State.issue_kept | with_reducible apply semOf_kept)

theorem execMulq31_kept (s : State) (t : Fin 256) : ∀ t', execMulq31 t s = .next t' → Kept s t' := by
  intro _ e; cases e; refine settle_keeps _ ?_
  repeat' (first | with_reducible exact Kept.refl _ | with_reducible apply State.issue_kept | with_reducible apply semOf_kept)

theorem execMulq16_kept (s : State) (t : Fin 256) : ∀ t', execMulq16 t s = .next t' → Kept s t' := by
  intro _ e; cases e; refine settle_keeps _ ?_
  repeat' (first | with_reducible exact Kept.refl _ | with_reducible apply State.issue_kept | with_reducible apply semOf_kept)

theorem execMul_kept (s : State) (t : Fin 256) : ∀ t', execMul t s = .next t' → Kept s t' := by
  intro _ e; cases e; refine settle_keeps _ ?_
  repeat' (first | with_reducible exact Kept.refl _ | with_reducible apply State.issue_kept | with_reducible apply semOf_kept)

theorem execClamp_kept (s : State) (t : Fin 256) : ∀ t', execClamp t s = .next t' → Kept s t' := by
  intro _ e; cases e; refine settle_keeps _ ?_
  repeat' (first | with_reducible exact Kept.refl _ | with_reducible apply State.issue_kept | with_reducible apply semOf_kept)

theorem execMac_kept (s : State) (t : Fin 256) : ∀ t', execMac t s = .next t' → Kept s t' := by
  intro _ e; cases e; refine settle_keeps _ ?_
  repeat' (first | with_reducible exact Kept.refl _ | with_reducible apply State.issue_kept | with_reducible apply semOf_kept)

theorem execMsu_kept (s : State) (t : Fin 256) : ∀ t', execMsu t s = .next t' → Kept s t' := by
  intro _ e; cases e; refine settle_keeps _ ?_
  repeat' (first | with_reducible exact Kept.refl _ | with_reducible apply State.issue_kept | with_reducible apply semOf_kept)

theorem execMpy_kept (s : State) (t : Fin 256) : ∀ t', execMpy t s = .next t' → Kept s t' := by
  intro _ e; cases e; refine settle_keeps _ ?_
  repeat' (first | with_reducible exact Kept.refl _ | with_reducible apply State.issue_kept | with_reducible apply semOf_kept)

theorem execRda_kept (s : State) (t : Fin 256) : ∀ t', execRda t s = .next t' → Kept s t' := by
  intro _ e; cases e; refine settle_keeps _ ?_
  repeat' (first | with_reducible exact Kept.refl _ | with_reducible apply State.issue_kept | with_reducible apply semOf_kept)

theorem execWra_kept (s : State) (t : Fin 256) : ∀ t', execWra t s = .next t' → Kept s t' := by
  intro _ e; cases e; refine settle_keeps _ ?_
  repeat' (first | with_reducible exact Kept.refl _ | with_reducible apply State.issue_kept | with_reducible apply semOf_kept)

theorem execClra_kept (s : State) (t : Fin 256) : ∀ t', execClra t s = .next t' → Kept s t' := by
  intro _ e; cases e; refine settle_keeps _ ?_
  repeat' (first | with_reducible exact Kept.refl _ | with_reducible apply State.issue_kept | with_reducible apply semOf_kept)

theorem execAdda_kept (s : State) (t : Fin 256) : ∀ t', execAdda t s = .next t' → Kept s t' := by
  intro _ e; cases e; refine settle_keeps _ ?_
  repeat' (first | with_reducible exact Kept.refl _ | with_reducible apply State.issue_kept | with_reducible apply semOf_kept)

theorem execEq_kept (s : State) (t : Fin 256) : ∀ t', execEq t s = .next t' → Kept s t' := by
  intro _ e; cases e; refine settle_keeps _ ?_
  repeat' (first | with_reducible exact Kept.refl _ | with_reducible apply State.issue_kept | with_reducible apply semOf_kept)

theorem execNe_kept (s : State) (t : Fin 256) : ∀ t', execNe t s = .next t' → Kept s t' := by
  intro _ e; cases e; refine settle_keeps _ ?_
  repeat' (first | with_reducible exact Kept.refl _ | with_reducible apply State.issue_kept | with_reducible apply semOf_kept)

theorem execLt_kept (s : State) (t : Fin 256) : ∀ t', execLt t s = .next t' → Kept s t' := by
  intro _ e; cases e; refine settle_keeps _ ?_
  repeat' (first | with_reducible exact Kept.refl _ | with_reducible apply State.issue_kept | with_reducible apply semOf_kept)

theorem execLe_kept (s : State) (t : Fin 256) : ∀ t', execLe t s = .next t' → Kept s t' := by
  intro _ e; cases e; refine settle_keeps _ ?_
  repeat' (first | with_reducible exact Kept.refl _ | with_reducible apply State.issue_kept | with_reducible apply semOf_kept)

theorem execLtu_kept (s : State) (t : Fin 256) : ∀ t', execLtu t s = .next t' → Kept s t' := by
  intro _ e; cases e; refine settle_keeps _ ?_
  repeat' (first | with_reducible exact Kept.refl _ | with_reducible apply State.issue_kept | with_reducible apply semOf_kept)

theorem execLeu_kept (s : State) (t : Fin 256) : ∀ t', execLeu t s = .next t' → Kept s t' := by
  intro _ e; cases e; refine settle_keeps _ ?_
  repeat' (first | with_reducible exact Kept.refl _ | with_reducible apply State.issue_kept | with_reducible apply semOf_kept)

theorem execTst_kept (s : State) (t : Fin 256) : ∀ t', execTst t s = .next t' → Kept s t' := by
  intro _ e; cases e; refine settle_keeps _ ?_
  repeat' (first | with_reducible exact Kept.refl _ | with_reducible apply State.issue_kept | with_reducible apply semOf_kept)

theorem execSel_kept (s : State) (t : Fin 256) : ∀ t', execSel t s = .next t' → Kept s t' := by
  intro _ e; cases e; refine settle_keeps _ ?_
  repeat' (first | with_reducible exact Kept.refl _ | with_reducible apply State.issue_kept | with_reducible apply semOf_kept)

theorem execAddi_kept (s : State) (t : Fin 256) : ∀ t', execAddi t s = .next t' → Kept s t' := by
  intro _ e; cases e; refine settle_keeps _ ?_
  repeat' (first | with_reducible exact Kept.refl _ | with_reducible apply State.issue_kept | with_reducible apply semOf_kept)

theorem execAddsi_kept (s : State) (t : Fin 256) : ∀ t', execAddsi t s = .next t' → Kept s t' := by
  intro _ e; cases e; refine settle_keeps _ ?_
  repeat' (first | with_reducible exact Kept.refl _ | with_reducible apply State.issue_kept | with_reducible apply semOf_kept)

theorem execAndi_kept (s : State) (t : Fin 256) : ∀ t', execAndi t s = .next t' → Kept s t' := by
  intro _ e; cases e; refine settle_keeps _ ?_
  repeat' (first | with_reducible exact Kept.refl _ | with_reducible apply State.issue_kept | with_reducible apply semOf_kept)

theorem execOri_kept (s : State) (t : Fin 256) : ∀ t', execOri t s = .next t' → Kept s t' := by
  intro _ e; cases e; refine settle_keeps _ ?_
  repeat' (first | with_reducible exact Kept.refl _ | with_reducible apply State.issue_kept | with_reducible apply semOf_kept)

theorem execXori_kept (s : State) (t : Fin 256) : ∀ t', execXori t s = .next t' → Kept s t' := by
  intro _ e; cases e; refine settle_keeps _ ?_
  repeat' (first | with_reducible exact Kept.refl _ | with_reducible apply State.issue_kept | with_reducible apply semOf_kept)

theorem execShi_kept (s : State) (t : Fin 256) : ∀ t', execShi t s = .next t' → Kept s t' := by
  intro _ e; cases e; refine settle_keeps _ ?_
  repeat' (first | with_reducible exact Kept.refl _ | with_reducible apply State.issue_kept | with_reducible apply semOf_kept)

theorem execCmpi_kept (s : State) (t : Fin 256) : ∀ t', execCmpi t s = .next t' → Kept s t' := by
  intro _ e; cases e; refine settle_keeps _ ?_
  repeat' (first | with_reducible exact Kept.refl _ | with_reducible apply State.issue_kept | with_reducible apply semOf_kept)

theorem execBr_kept (s : State) (t : Fin 256) : ∀ t', execBr t s = .next t' → Kept s t' := by
  intro _ e; cases e; refine settle_keeps _ ?_
  repeat' (first | with_reducible exact Kept.refl _ | with_reducible apply State.issue_kept | with_reducible apply semOf_kept)

theorem execDbnz_kept (s : State) (t : Fin 256) : ∀ t', execDbnz t s = .next t' → Kept s t' := by
  intro _ e; cases e; refine settle_keeps _ ?_
  repeat' (first | with_reducible exact Kept.refl _ | with_reducible apply State.issue_kept | with_reducible apply semOf_kept)

theorem execLi_kept (s : State) (t : Fin 256) : ∀ t', execLi t s = .next t' → Kept s t' := by
  intro _ e; cases e; refine settle_keeps _ ?_
  repeat' (first | with_reducible exact Kept.refl _ | with_reducible apply State.issue_kept | with_reducible apply semOf_kept)

theorem execLui_kept (s : State) (t : Fin 256) : ∀ t', execLui t s = .next t' → Kept s t' := by
  intro _ e; cases e; refine settle_keeps _ ?_
  repeat' (first | with_reducible exact Kept.refl _ | with_reducible apply State.issue_kept | with_reducible apply semOf_kept)

theorem execJmp_kept (s : State) (t : Fin 256) : ∀ t', execJmp t s = .next t' → Kept s t' := by
  intro _ e; cases e; refine settle_keeps _ ?_
  repeat' (first | with_reducible exact Kept.refl _ | with_reducible apply State.issue_kept | with_reducible apply semOf_kept)

theorem execCall_kept (s : State) (t : Fin 256) : ∀ t', execCall t s = .next t' → Kept s t' := by
  intro _ e; cases e; refine settle_keeps _ ?_
  repeat' (first | with_reducible exact Kept.refl _ | with_reducible apply State.issue_kept | with_reducible apply semOf_kept)

theorem execLd_kept (s : State) (t : Fin 256) (w : PortWait) : ∀ t', execLd t w s = .next t' → Kept s t' := by
  intro _ e; cases e; refine settle_keeps _ ?_
  repeat' (first | with_reducible exact Kept.refl _ | with_reducible apply State.issue_kept | with_reducible apply semLd_kept)

theorem execSt_kept (s : State) (t : Fin 256) (w : PortWait) : ∀ t', execSt t w s = .next t' → Kept s t' := by
  intro _ e; cases e; refine settle_keeps _ ?_
  repeat' (first | with_reducible exact Kept.refl _ | with_reducible apply State.issue_kept | with_reducible apply semSt_kept)

theorem execNop_kept (s : State) (t : Fin 256) : ∀ t', execNop t s = .next t' → Kept s t' := by
  intro _ e; cases e; refine settle_keeps _ ?_
  repeat' (first | with_reducible exact Kept.refl _ | with_reducible apply State.issue_kept | with_reducible apply semOf_kept)

theorem execEos_kept (s : State) (t : Fin 256) : ∀ t', execEos t s = .next t' → Kept s t' := by
  intro _ e; cases e; refine settle_keeps _ ?_
  repeat' (first | with_reducible exact Kept.refl _ | with_reducible apply State.issue_kept | with_reducible apply semOf_kept)

theorem execYield_kept (s : State) (t : Fin 256) : ∀ t', execYield t s = .next t' → Kept s t' := by
  intro _ e; cases e; refine settle_keeps _ ?_
  repeat' (first | with_reducible exact Kept.refl _ | with_reducible apply State.issue_kept | with_reducible apply semOf_kept)

theorem execBrk_kept (s : State) (t : Fin 256) : ∀ t', execBrk t s = .next t' → Kept s t' := by
  intro _ e; cases e; refine settle_keeps _ ?_
  repeat' (first | with_reducible exact Kept.refl _ | with_reducible apply State.issue_kept | with_reducible apply semOf_kept)

theorem execJr_kept (s : State) (t : Fin 256) : ∀ t', execJr t s = .next t' → Kept s t' := by
  intro _ e; cases e; refine settle_keeps _ ?_
  repeat' (first | with_reducible exact Kept.refl _ | with_reducible apply State.issue_kept | with_reducible apply semOf_kept)

theorem execMfs_kept (s : State) (t : Fin 256) : ∀ t', execMfs t s = .next t' → Kept s t' := by
  intro _ e; cases e; refine settle_keeps _ ?_
  repeat' (first | with_reducible exact Kept.refl _ | with_reducible apply State.issue_kept | with_reducible apply semOf_kept)

theorem execMts_kept (s : State) (t : Fin 256) : ∀ t', execMts t s = .next t' → Kept s t' := by
  intro _ e; cases e; refine settle_keeps _ ?_
  repeat' (first | with_reducible exact Kept.refl _ | with_reducible apply State.issue_kept | with_reducible apply semOf_kept)

theorem execAddp_kept (s : State) (t : Fin 256) : ∀ t', execAddp t s = .next t' → Kept s t' := by
  intro _ e; cases e; refine settle_keeps _ ?_
  repeat' (first | with_reducible exact Kept.refl _ | with_reducible apply State.issue_kept | with_reducible apply semOf_kept)

theorem execRdin_kept (s : State) (t : Fin 256) : ∀ t', execRdin t s = .next t' → Kept s t' := by
  intro _ e; cases e; refine settle_keeps _ ?_
  repeat' (first | with_reducible exact Kept.refl _ | with_reducible apply State.issue_kept | with_reducible apply semOf_kept)

theorem execRdint_kept (s : State) (t : Fin 256) : ∀ t', execRdint t s = .next t' → Kept s t' := by
  intro _ e; cases e; refine settle_keeps _ ?_
  repeat' (first | with_reducible exact Kept.refl _ | with_reducible apply State.issue_kept | with_reducible apply semOf_kept)

theorem execStout_kept (s : State) (t : Fin 256) : ∀ t', execStout t s = .next t' → Kept s t' := by
  intro _ e; cases e; refine settle_keeps _ ?_
  repeat' (first | with_reducible exact Kept.refl _ | with_reducible apply State.issue_kept | with_reducible apply semOf_kept)

theorem execPost_kept (s : State) (t : Fin 256) (w : Nat) : ∀ t', execPost t w s = .next t' → Kept s t' := by
  intro _ e; cases e; refine settle_keeps _ ?_
  repeat' (first | with_reducible exact Kept.refl _ | with_reducible apply State.issue_kept | with_reducible apply State.post_kept | with_reducible apply semPost_kept)

theorem execCancel_kept (s : State) (t : SlotWait) : ∀ t', execCancel t s = .next t' → Kept s t' := by
  intro _ e; cases e; refine settle_keeps _ ?_
  repeat' (first | with_reducible exact Kept.refl _ | with_reducible apply State.issue_kept | with_reducible apply semCancel_kept)

theorem execLut_kept (s : State) (t : Fin 256) : ∀ t', execLut t s = .next t' → Kept s t' := by
  intro _ e; cases e; refine settle_keeps _ ?_
  repeat' (first | with_reducible exact Kept.refl _ | with_reducible apply State.issue_kept | with_reducible apply semOf_kept)

theorem execRcps_kept (s : State) (t : Fin 256) : ∀ t', execRcps t s = .next t' → Kept s t' := by
  intro _ e; cases e; refine settle_keeps _ ?_
  repeat' (first | with_reducible exact Kept.refl _ | with_reducible apply State.issue_kept | with_reducible apply semOf_kept)

theorem execSqrs_kept (s : State) (t : Fin 256) : ∀ t', execSqrs t s = .next t' → Kept s t' := by
  intro _ e; cases e; refine settle_keeps _ ?_
  repeat' (first | with_reducible exact Kept.refl _ | with_reducible apply State.issue_kept | with_reducible apply semOf_kept)

end Sys2Proof.Machine
end

