-- ==== Sys2Proof/Laws/KeptAlloc.lean ====
section
/-! SUPPORT. What the operations of Machine/Alloc.lean keep. -/

set_option linter.unusedTactic false
set_option linter.unreachableTactic false
set_option linter.unusedVariables false

namespace Sys2Proof.Machine

theorem State.setSlot_kept {r s : State} (h : Kept r s) (i : Nat) (c : Chan) : Kept r (State.setSlot s i c) := by
  unfold State.setSlot
  repeat' (first | with_reducible exact h | with_reducible assumption | with_reducible apply State.setChan_kept | with_reducible apply State.toPartner_kept)

theorem State.freeSlot_kept {r s : State} (h : Kept r s) (i : Nat) : Kept r (State.freeSlot s i) := by
  unfold State.freeSlot
  repeat' (first | with_reducible exact h | with_reducible assumption | with_reducible apply State.setSlot_kept | fail_if_no_progress (with_reducible apply Kept.lit))

theorem State.clearWindow_kept {r s : State} (h : Kept r s) (i : Nat) : Kept r (State.clearWindow s i) := by
  unfold State.clearWindow
  try dsimp only
  repeat' (first | with_reducible exact h | with_reducible assumption | with_reducible apply State.writeWord_kept | with_reducible apply State.toPartner_kept | with_reducible refine fun _ _ => ?_ | with_reducible refine Kept.foldl (fun _ _ _ => ?_) _ ?_ | fail_if_no_progress (dsimp only))

theorem State.stage_kept {r s : State} (h : Kept r s) (op : Nat) (i : Nat) (d : Desc) : Kept r (State.stage s op i d) := by
  unfold State.stage
  try dsimp only
  repeat' (first | with_reducible exact h | with_reducible assumption | with_reducible apply State.toPartner_kept | with_reducible apply State.invalidate_kept | fail_if_no_progress (with_reducible apply Kept.lit))

theorem State.create_kept {r s : State} (h : Kept r s) (i : Nat) (d : Desc) (staged : Bool) : Kept r (State.create s i d staged).1 := by
  unfold State.create
  try dsimp only
  repeat' (first | with_reducible exact h | with_reducible assumption | with_reducible apply State.clearWindow_kept | with_reducible apply State.setSlot_kept | with_reducible apply State.stage_kept | with_reducible apply Kept.ite | split | fail_if_no_progress (dsimp only) | fail_if_no_progress (with_reducible apply Kept.lit))

theorem State.destroy_kept {r s : State} (h : Kept r s) (i : Nat) (staged : Bool) : Kept r (State.destroy s i staged).1 := by
  unfold State.destroy
  try dsimp only
  repeat' (first | with_reducible exact h | with_reducible assumption | with_reducible apply State.stage_kept | with_reducible apply State.setSlot_kept | with_reducible apply Kept.ite | split | fail_if_no_progress (dsimp only) | fail_if_no_progress (with_reducible apply Kept.lit))

theorem State.modify_kept {r s : State} (h : Kept r s) (i : Nat) (d : Desc) (staged : Bool) : Kept r (State.modify s i d staged).1 := by
  unfold State.modify
  try dsimp only
  repeat' (first | with_reducible exact h | with_reducible assumption | with_reducible apply State.stage_kept | with_reducible apply State.setSlot_kept | with_reducible apply Kept.ite | split | fail_if_no_progress (dsimp only) | fail_if_no_progress (with_reducible apply Kept.lit))

theorem State.query_kept {r s : State} (h : Kept r s) (b : Nat) (i : Nat) : Kept r (State.query s b i).1 := by
  unfold State.query
  try dsimp only
  repeat' (first | with_reducible exact h | with_reducible assumption | with_reducible apply State.setFld_kept | with_reducible apply State.setReg_kept | with_reducible refine fun _ _ => ?_ | with_reducible refine Kept.fst (by assumption) ?_ | with_reducible apply Kept.ite | split | fail_if_no_progress (dsimp only) | fail_if_no_progress (with_reducible apply Kept.lit))

theorem State.perform_kept {r s : State} (h : Kept r s) (q : Request) : Kept r (State.perform s q).1 := by
  unfold State.perform
  try dsimp only
  repeat' (first | with_reducible exact h | with_reducible assumption | with_reducible apply State.create_kept | with_reducible apply State.destroy_kept | with_reducible apply State.modify_kept | with_reducible apply State.query_kept | with_reducible refine Kept.fst (by assumption) ?_ | split | fail_if_no_progress (dsimp only) | fail_if_no_progress (with_reducible apply Kept.lit))

theorem State.freeBuffer_kept {r s : State} (h : Kept r s) (b : Nat) : Kept r (State.freeBuffer s b) := by
  unfold State.freeBuffer
  repeat' (first | with_reducible exact h | with_reducible assumption | with_reducible apply State.setFld_kept)

theorem State.releaseBuffer_kept {r s : State} (h : Kept r s) (b : Nat) : Kept r (State.releaseBuffer s b) := by
  unfold State.releaseBuffer
  repeat' (first | with_reducible exact h | with_reducible assumption | with_reducible apply State.freeBuffer_kept | with_reducible apply Kept.ite | split | fail_if_no_progress (with_reducible apply Kept.lit))

theorem State.requestDone_kept {r s : State} (h : Kept r s) : Kept r (State.requestDone s) := by
  unfold State.requestDone
  try dsimp only
  repeat' (first | with_reducible exact h | with_reducible assumption | with_reducible apply State.perform_kept | with_reducible apply State.setFld_kept | with_reducible apply State.freeBuffer_kept | with_reducible apply State.offBit_kept | with_reducible refine Kept.fst (by assumption) ?_ | with_reducible apply Kept.ite | split | fail_if_no_progress (with_reducible apply Kept.lit))

theorem State.turnAway_kept {r s : State} (h : Kept r s) (req : Nat) (b : Nat) : Kept r (State.turnAway s req b) := by
  unfold State.turnAway
  try dsimp only
  repeat' (first | with_reducible exact h | with_reducible assumption | with_reducible apply State.setFld_kept | with_reducible apply Kept.ite | split)

theorem State.rbCmd_kept {r s : State} (h : Kept r s) (req : Nat) (b : Nat) (op : Nat) (staged : Bool) : Kept r (State.rbCmd s req b op staged) := by
  unfold State.rbCmd
  repeat' (first | with_reducible exact h | with_reducible assumption | with_reducible apply State.setFld_kept | with_reducible apply State.turnAway_kept | with_reducible apply State.releaseBuffer_kept | with_reducible apply Kept.ite | split | fail_if_no_progress (with_reducible apply Kept.lit))

theorem State.rbWrite_kept {r s : State} (h : Kept r s) (req : Nat) (b : Nat) (a : Nat) (v : Word) : Kept r (State.rbWrite s req b a v) := by
  unfold State.rbWrite
  repeat' (first | with_reducible exact h | with_reducible assumption | with_reducible apply State.turnAway_kept | with_reducible apply State.setReg_kept | with_reducible apply Kept.ite | split)

theorem State.takeFault_kept {r s : State} (h : Kept r s) (i : Nat) (f : FaultInfo) (at_ : BitVec 48) : Kept r (State.takeFault s i f at_) := by
  unfold State.takeFault
  try dsimp only
  repeat' (first | with_reducible exact h | with_reducible assumption | with_reducible apply State.setFld_kept | with_reducible apply State.trace_kept | with_reducible apply State.setChan_kept | with_reducible apply State.setSlot_kept | with_reducible apply Kept.ite | split | fail_if_no_progress (with_reducible apply Kept.lit))

theorem State.faultReport_kept {r s : State} (h : Kept r s) (t : Nat) (k : Nat) : Kept r (State.faultReport s t k) := by
  unfold State.faultReport
  try dsimp only
  repeat' (first | with_reducible exact h | with_reducible assumption | with_reducible apply State.takeFault_kept | with_reducible refine Kept.fst (by assumption) ?_ | split | fail_if_no_progress (with_reducible apply Kept.lit))

theorem State.releaseOut_kept {r s : State} (h : Kept r s) (k : Nat) (kind : Nat) (n : Nat) (w : Word) : Kept r (State.releaseOut s k kind n w) := by
  unfold State.releaseOut
  try dsimp only
  repeat' (first | with_reducible exact h | with_reducible assumption | with_reducible apply State.dacRelease_kept | with_reducible apply State.setChOut_kept | with_reducible apply State.drive_kept | with_reducible refine Kept.fst (by assumption) ?_ | with_reducible apply Kept.ite | split | fail_if_no_progress (with_reducible apply Kept.lit))

theorem State.releaseChan_kept {r s : State} (h : Kept r s) (i : Nat) : Kept r (State.releaseChan s i) := by
  unfold State.releaseChan
  try dsimp only
  repeat' (first | with_reducible exact h | with_reducible assumption | with_reducible apply State.releaseOut_kept | with_reducible apply State.cancelOwned_kept | with_reducible apply State.setChan_kept | with_reducible refine fun _ _ => ?_ | with_reducible refine Kept.foldl (fun _ _ _ => ?_) _ ?_ | with_reducible apply Kept.ite | split | fail_if_no_progress (dsimp only) | fail_if_no_progress (with_reducible apply Kept.lit))

theorem State.releaseDue_kept {r s : State} (h : Kept r s) (i : Nat) (n : BitVec 48) : Kept r (State.releaseDue s i n) := by
  unfold State.releaseDue
  try dsimp only
  repeat' (first | with_reducible exact h | with_reducible assumption | with_reducible apply State.releaseChan_kept | with_reducible apply State.freeSlot_kept | with_reducible apply Kept.ite | split)

theorem State.pinOutputs_kept {r s : State} (h : Kept r s) : Kept r (State.pinOutputs s) := by
  unfold State.pinOutputs
  try dsimp only
  repeat' (first | with_reducible exact h | with_reducible assumption | with_reducible apply State.setChOut_kept | with_reducible refine fun _ _ => ?_ | with_reducible refine Kept.foldl (fun _ _ _ => ?_) _ ?_ | with_reducible refine Kept.foldlFst (fun _ _ _ => ?_) _ ?_ | fail_if_no_progress (dsimp only) | fail_if_no_progress (with_reducible apply Kept.lit))

theorem State.slotChanges_kept {r s : State} (h : Kept r s) (i : Nat) (n : BitVec 48) : Kept r (State.slotChanges s i n) := by
  unfold State.slotChanges
  try dsimp only
  repeat' (first | with_reducible exact h | with_reducible assumption | with_reducible apply State.setSlot_kept | with_reducible apply Kept.ite | split | fail_if_no_progress (with_reducible apply Kept.lit))

theorem State.layoutSlot_kept {r s : State} (h : Kept r s) (t : Nat) (k : Nat) (n : Nat) (off : Nat) : Kept r (State.layoutSlot s t k n off).1 := by
  unfold State.layoutSlot
  try dsimp only
  repeat' (first | with_reducible exact h | with_reducible assumption | with_reducible apply State.setChan_kept | with_reducible apply State.setFld_kept | with_reducible apply Kept.ite | split | fail_if_no_progress (dsimp only) | fail_if_no_progress (with_reducible apply Kept.lit))

theorem State.layoutTick_kept {r s : State} (h : Kept r s) (t : Nat) (n : Nat) : Kept r (State.layoutTick s t n) := by
  unfold State.layoutTick
  try dsimp only
  repeat' (first | with_reducible exact h | with_reducible assumption | with_reducible apply State.layoutSlot_kept | with_reducible apply State.setEng_kept | with_reducible refine fun _ _ => ?_ | with_reducible refine Kept.foldl (fun _ _ _ => ?_) _ ?_ | with_reducible refine Kept.foldlFst (fun _ _ _ => ?_) _ ?_ | with_reducible refine Kept.fst (by assumption) ?_ | split | fail_if_no_progress (dsimp only) | fail_if_no_progress (with_reducible apply Kept.lit))

theorem State.loadRefresh_kept {r s : State} (h : Kept r s) (p : RefreshPacket) : Kept r (State.loadRefresh s p) := by
  unfold State.loadRefresh
  repeat' (first | with_reducible exact h | with_reducible assumption | with_reducible apply State.setChan_kept | with_reducible apply State.setWords_kept | fail_if_no_progress (with_reducible apply Kept.lit))

theorem State.takeRefresh_kept {r s : State} (h : Kept r s) (p : RefreshPacket) : Kept r (State.takeRefresh s p) := by
  unfold State.takeRefresh
  try dsimp only
  repeat' (first | with_reducible exact h | with_reducible assumption | with_reducible apply State.addSat_kept | with_reducible apply State.loadRefresh_kept | with_reducible apply Kept.ite | split | fail_if_no_progress (with_reducible apply Kept.lit))

theorem State.takeRefreshes_kept {r0 s : State} (h : Kept r0 s) (t : Nat) (r : BitVec 48) : Kept r0 (State.takeRefreshes s t r) := by
  unfold State.takeRefreshes
  try dsimp only
  repeat' (first | with_reducible exact h | with_reducible assumption | with_reducible apply State.takeRefresh_kept | with_reducible refine fun _ _ => ?_ | with_reducible refine Kept.foldl (fun _ _ _ => ?_) _ ?_ | fail_if_no_progress (dsimp only) | fail_if_no_progress (with_reducible apply Kept.lit))

theorem State.replayClose_kept {r0 s : State} (h : Kept r0 s) (t : Nat) (r : BitVec 48) : Kept r0 (State.replayClose s t r) := by
  unfold State.replayClose
  try dsimp only
  repeat' (first | with_reducible exact h | with_reducible assumption | with_reducible apply State.diverge_kept | with_reducible apply State.ran_kept | with_reducible apply State.offBit_kept | with_reducible apply State.takeRefreshes_kept | with_reducible refine fun _ _ => ?_ | with_reducible refine Kept.fst (by assumption) ?_ | with_reducible apply Kept.ite | split | fail_if_no_progress (with_reducible apply Kept.lit))

theorem State.sendRefresh_kept {r s : State} (h : Kept r s) (t : Nat) (n : BitVec 48) : Kept r (State.sendRefresh s t n) := by
  unfold State.sendRefresh
  try dsimp only
  repeat' (first | with_reducible exact h | with_reducible assumption | with_reducible apply State.toPartner_kept | with_reducible refine fun _ _ => ?_ | with_reducible refine Kept.foldl (fun _ _ _ => ?_) _ ?_ | with_reducible apply Kept.ite | split | fail_if_no_progress (dsimp only) | fail_if_no_progress (with_reducible apply Kept.lit))

theorem State.closeAct_kept {r s : State} (h : Kept r s) (t : Nat) : Kept r (State.closeAct s t) := by
  unfold State.closeAct
  try dsimp only
  repeat' (first | with_reducible exact h | with_reducible assumption | with_reducible apply State.setAct_kept | with_reducible apply State.preempt_kept | with_reducible apply State.activationEnd_kept | with_reducible refine Kept.fst (by assumption) ?_ | with_reducible apply Kept.ite | split | fail_if_no_progress (with_reducible apply Kept.lit))

theorem State.closeTick_kept {r s : State} (h : Kept r s) (t : Nat) : Kept r (State.closeTick s t) := by
  unfold State.closeTick
  try dsimp only
  repeat' (first | with_reducible exact h | with_reducible assumption | with_reducible apply State.closeAct_kept | with_reducible apply State.ran_kept | with_reducible apply State.toPartner_kept | with_reducible apply State.sendRefresh_kept | with_reducible apply State.replayClose_kept | with_reducible apply State.setEng_kept | with_reducible refine fun _ _ => ?_ | with_reducible apply Kept.ite | split | fail_if_no_progress (with_reducible apply Kept.lit))

theorem execFaultReport_kept (s : State) (t : Fin 256) (k : Fin 16) : ∀ t', execFaultReport t k s = .next t' → Kept s t' := by
  intro _ e; cases e; refine settle_keeps _ ?_
  repeat' (first | with_reducible exact Kept.refl _ | with_reducible apply State.faultReport_kept)

theorem State.channelRelease_kept {r s : State} (h : Kept r s) (i : Nat) : Kept r (State.channelRelease s i) := by
  unfold State.channelRelease
  repeat' (first | with_reducible exact h | with_reducible assumption | with_reducible apply State.releaseDue_kept | with_reducible apply Kept.ite | split)

theorem execChannelRelease_kept (s : State) (t : Fin 256) (k : Fin 16) : ∀ t', execChannelRelease t k s = .next t' → Kept s t' := by
  intro _ e; cases e; refine settle_keeps _ ?_
  repeat' (first | with_reducible exact Kept.refl _ | with_reducible apply State.channelRelease_kept)

theorem execClaim_kept (s : State) (req : Fin 405) (b : Fin 16) : ∀ t', execClaim req b s = .next t' → Kept s t' := by
  intro _ e; cases e; refine settle_keeps _ ?_
  repeat' (first | with_reducible exact Kept.refl _ | with_reducible apply State.rbCmd_kept)

theorem execRelease_kept (s : State) (req : Fin 405) (b : Fin 16) : ∀ t', execRelease req b s = .next t' → Kept s t' := by
  intro _ e; cases e; refine settle_keeps _ ?_
  repeat' (first | with_reducible exact Kept.refl _ | with_reducible apply State.rbCmd_kept)

theorem execCreate_kept (s : State) (req : Fin 405) (b : Fin 16) (staged : Bool) : ∀ t', execCreate req b staged s = .next t' → Kept s t' := by
  intro _ e; cases e; refine settle_keeps _ ?_
  repeat' (first | with_reducible exact Kept.refl _ | with_reducible apply State.rbCmd_kept)

theorem execDestroy_kept (s : State) (req : Fin 405) (b : Fin 16) (staged : Bool) : ∀ t', execDestroy req b staged s = .next t' → Kept s t' := by
  intro _ e; cases e; refine settle_keeps _ ?_
  repeat' (first | with_reducible exact Kept.refl _ | with_reducible apply State.rbCmd_kept)

theorem execModify_kept (s : State) (req : Fin 405) (b : Fin 16) (staged : Bool) : ∀ t', execModify req b staged s = .next t' → Kept s t' := by
  intro _ e; cases e; refine settle_keeps _ ?_
  repeat' (first | with_reducible exact Kept.refl _ | with_reducible apply State.rbCmd_kept)

theorem execQuery_kept (s : State) (req : Fin 405) (b : Fin 16) (staged : Bool) : ∀ t', execQuery req b staged s = .next t' → Kept s t' := by
  intro _ e; cases e; refine settle_keeps _ ?_
  repeat' (first | with_reducible exact Kept.refl _ | with_reducible apply State.rbCmd_kept)

theorem execRequestDone_kept (s : State) : ∀ t', execRequestDone s = .next t' → Kept s t' := by
  intro _ e; cases e; refine settle_keeps _ ?_
  repeat' (first | with_reducible exact Kept.refl _ | with_reducible apply State.requestDone_kept)

theorem State.rbFree_kept {r s : State} (h : Kept r s) (v : Word) : Kept r (State.rbFree s v) := by
  unfold State.rbFree
  try dsimp only
  repeat' (first | with_reducible exact h | with_reducible assumption | with_reducible apply State.releaseBuffer_kept | with_reducible apply State.orBit_kept | with_reducible refine fun _ _ => ?_ | with_reducible refine Kept.foldl (fun _ _ _ => ?_) _ ?_ | with_reducible apply Kept.ite | split | fail_if_no_progress (dsimp only))

theorem execAllocRbfree_kept (s : State) (v : Word) : ∀ t', execAllocRbfree v s = .next t' → Kept s t' := by
  intro _ e; cases e; refine settle_keeps _ ?_
  repeat' (first | with_reducible exact Kept.refl _ | with_reducible apply State.rbFree_kept)

theorem State.flogPop_kept {r s : State} (h : Kept r s) (v : Word) : Kept r (State.flogPop s v) := by
  unfold State.flogPop
  repeat' (first | with_reducible exact h | with_reducible assumption | with_reducible apply Kept.ite | split | fail_if_no_progress (with_reducible apply Kept.lit))

theorem execFlogPop_kept (s : State) (v : Word) : ∀ t', execFlogPop v s = .next t' → Kept s t' := by
  intro _ e; cases e; refine settle_keeps _ ?_
  repeat' (first | with_reducible exact Kept.refl _ | with_reducible apply State.flogPop_kept)

theorem State.engHold_kept {r s : State} (h : Kept r s) (w : Nat) (v : Word) : Kept r (State.engHold s w v) := by
  unfold State.engHold
  try dsimp only
  repeat' (first | with_reducible exact h | with_reducible assumption | with_reducible apply State.offBit_kept | with_reducible apply State.setFld_kept | with_reducible apply State.orBit_kept | with_reducible refine fun _ _ => ?_ | with_reducible refine Kept.foldl (fun _ _ _ => ?_) _ ?_ | with_reducible apply Kept.ite | split | fail_if_no_progress (dsimp only))

theorem execEngholdWrite_kept (s : State) (w : Fin 8) (v : Word) : ∀ t', execEngholdWrite w v s = .next t' → Kept s t' := by
  intro _ e; cases e; refine settle_keeps _ ?_
  repeat' (first | with_reducible exact Kept.refl _ | with_reducible apply State.engHold_kept)

end Sys2Proof.Machine
end

