-- ==== Sys2Proof/Laws/KeptBay.lean ====
section
/-! SUPPORT. What the operations of Machine/Bay.lean keep. -/

set_option linter.unusedTactic false
set_option linter.unreachableTactic false
set_option linter.unusedVariables false

namespace Sys2Proof.Machine

theorem State.setRoutesBy_kept {r s : State} (h : Kept r s) (v : View) (addrs : List Nat) (k : Nat) : Kept r (State.setRoutesBy s v addrs k) := by
  unfold State.setRoutesBy
  try dsimp only
  repeat' (first | with_reducible exact h | with_reducible assumption | with_reducible apply State.setReg_kept | with_reducible refine fun _ _ => ?_ | with_reducible refine Kept.foldl (fun _ _ _ => ?_) _ ?_ | fail_if_no_progress (dsimp only))

theorem State.setRoutes_kept {r s : State} (h : Kept r s) (k : Nat) : Kept r (State.setRoutes s k) := by
  unfold State.setRoutes
  repeat' (first | with_reducible exact h | with_reducible assumption | with_reducible apply State.setRoutesBy_kept)

theorem State.ronResult_kept {r s : State} (h : Kept r s) (k : Nat) (ron : Nat) : Kept r (State.ronResult s k ron) := by
  unfold State.ronResult
  repeat' (first | with_reducible exact h | with_reducible assumption | with_reducible apply State.setFld_kept | with_reducible apply Kept.ite | split)

theorem State.ampLimit_kept {r s : State} (h : Kept r s) (k : Nat) (j : Nat) (on : Bool) : Kept r (State.ampLimit s k j on) := by
  unfold State.ampLimit
  try dsimp only
  repeat' (first | with_reducible exact h | with_reducible assumption | with_reducible apply State.orBit_kept | with_reducible apply State.setFld_kept | with_reducible apply State.offBit_kept | with_reducible apply Kept.ite | split)

theorem State.xtLost_kept {r s : State} (h : Kept r s) (k : Nat) : Kept r (State.xtLost s k) := by
  unfold State.xtLost
  try dsimp only
  repeat' (first | with_reducible exact h | with_reducible assumption | with_reducible apply State.setFld_kept | with_reducible refine fun _ _ => ?_ | with_reducible apply Kept.ite | split)

theorem State.tripSwitches_kept {r s : State} (h : Kept r s) : Kept r (State.tripSwitches s) := by
  unfold State.tripSwitches
  try dsimp only
  repeat' (first | with_reducible exact h | with_reducible assumption | with_reducible apply State.setFld_kept | with_reducible refine fun _ _ => ?_ | with_reducible refine Kept.foldl (fun _ _ _ => ?_) _ ?_ | fail_if_no_progress (dsimp only))

theorem State.bayBoundary_kept {r s : State} (h : Kept r s) (k : Nat) : Kept r (State.bayBoundary s k) := by
  unfold State.bayBoundary
  try dsimp only
  repeat' (first | with_reducible exact h | with_reducible assumption | with_reducible apply State.setFld_kept | with_reducible apply Kept.ite | split | fail_if_no_progress (with_reducible apply Kept.lit))

theorem execRonstale_kept (s : State) (k : Fin 16) : ∀ t', execRonstale k s = .next t' → Kept s t' := by
  intro _ e; cases e; refine settle_keeps _ ?_
  repeat' (first | with_reducible exact Kept.refl _ | with_reducible apply State.setFld_kept)

theorem execAmpLimit_kept (s : State) (k : Fin 16) (j : Fin 8) (on : Bool) : ∀ t', execAmpLimit k j on s = .next t' → Kept s t' := by
  intro _ e; cases e; refine settle_keeps _ ?_
  repeat' (first | with_reducible exact Kept.refl _ | with_reducible apply State.ampLimit_kept)

end Sys2Proof.Machine
end

