-- ==== Sys2Proof/Laws/KeptAdc.lean ====
section
/-! SUPPORT. What the operations of Machine/Adc.lean keep. -/

set_option linter.unusedTactic false
set_option linter.unreachableTactic false
set_option linter.unusedVariables false

namespace Sys2Proof.Machine

theorem State.startConvBy_kept {r s : State} (h : Kept r s) (v : View) (kk : Nat) (n : Nat) : Kept r (State.startConvBy s v kk n) := by
  unfold State.startConvBy
  try dsimp only
  repeat' (first | with_reducible exact h | with_reducible assumption | with_reducible apply State.addSat_kept | with_reducible apply State.setAdc_kept | with_reducible apply Kept.ite | split | fail_if_no_progress (with_reducible apply Kept.lit))

theorem State.startConv_kept {r s : State} (h : Kept r s) (n : Nat) : Kept r (State.startConv s n) := by
  unfold State.startConv
  repeat' (first | with_reducible exact h | with_reducible assumption | with_reducible apply State.startConvBy_kept)

theorem State.startRun_kept {r s : State} (h : Kept r s) (n : Nat) : Kept r (State.startRun s n) := by
  unfold State.startRun
  repeat' (first | with_reducible exact h | with_reducible assumption | with_reducible apply State.setAdc_kept | with_reducible apply State.startConv_kept | fail_if_no_progress (with_reducible apply Kept.lit))

theorem State.goOn_kept {r s : State} (h : Kept r s) (n : Nat) : Kept r (State.goOn s n) := by
  unfold State.goOn
  try dsimp only
  repeat' (first | with_reducible exact h | with_reducible assumption | with_reducible apply State.startRun_kept | with_reducible apply State.setAdc_kept | fail_if_no_progress (with_reducible apply Kept.lit))

theorem State.adcDrop_kept {r s : State} (h : Kept r s) (n : Nat) : Kept r (State.adcDrop s n) := by
  unfold State.adcDrop
  repeat' (first | with_reducible exact h | with_reducible assumption | with_reducible apply State.addSat_kept | with_reducible apply State.setFld_kept)

theorem State.adcTrigger_kept {r s : State} (h : Kept r s) (n : Nat) : Kept r (State.adcTrigger s n) := by
  unfold State.adcTrigger
  try dsimp only
  repeat' (first | with_reducible exact h | with_reducible assumption | with_reducible apply State.addSat_kept | with_reducible apply State.setAdc_kept | with_reducible apply State.adcDrop_kept | with_reducible apply State.startRun_kept | with_reducible apply State.setFld_kept | with_reducible refine Kept.fst (by assumption) ?_ | with_reducible apply Kept.ite | split | fail_if_no_progress (with_reducible apply Kept.lit))

theorem State.adcSwtrig_kept {r s : State} (h : Kept r s) (n : Nat) : Kept r (State.adcSwtrig s n) := by
  unfold State.adcSwtrig
  repeat' (first | with_reducible exact h | with_reducible assumption | with_reducible apply State.adcTrigger_kept | with_reducible apply State.setAdc_kept | with_reducible apply Kept.ite | split | fail_if_no_progress (with_reducible apply Kept.lit))

theorem State.adcSwArrive_kept {r s : State} (h : Kept r s) (n : Nat) : Kept r (State.adcSwArrive s n) := by
  unfold State.adcSwArrive
  try dsimp only
  repeat' (first | with_reducible exact h | with_reducible assumption | with_reducible apply State.setAdc_kept | with_reducible apply State.adcTrigger_kept | with_reducible refine fun _ _ => ?_ | with_reducible refine Kept.foldl (fun _ _ _ => ?_) _ ?_ | with_reducible apply Kept.ite | split | fail_if_no_progress (dsimp only) | fail_if_no_progress (with_reducible apply Kept.lit))

theorem State.rcalBorrow_kept {r s : State} (h : Kept r s) (k : Nat) : Kept r (State.rcalBorrow s k) := by
  unfold State.rcalBorrow
  try dsimp only
  repeat' (first | with_reducible exact h | with_reducible assumption | with_reducible apply State.setAdc_kept | with_reducible refine Kept.fst (by assumption) ?_ | with_reducible apply Kept.ite | split | fail_if_no_progress (with_reducible apply Kept.lit))

theorem State.endLoan_kept {r s : State} (h : Kept r s) (n : Nat) : Kept r (State.endLoan s n) := by
  unfold State.endLoan
  repeat' (first | with_reducible exact h | with_reducible assumption | with_reducible apply State.setAdc_kept | fail_if_no_progress (with_reducible apply Kept.lit))

theorem State.refOk_kept {r s : State} (h : Kept r s) (k : Nat) (ok : Bool) : Kept r (State.refOk s k ok) := by
  unfold State.refOk
  try dsimp only
  repeat' (first | with_reducible exact h | with_reducible assumption | with_reducible apply State.setB_kept | with_reducible apply State.setAdc_kept | with_reducible apply State.rcalBorrow_kept | with_reducible apply State.endLoan_kept | with_reducible refine fun _ _ => ?_ | with_reducible refine Kept.foldl (fun _ _ _ => ?_) _ ?_ | with_reducible apply Kept.ite | split | fail_if_no_progress (dsimp only) | fail_if_no_progress (with_reducible apply Kept.lit))

theorem State.rcalGo_kept {r s : State} (h : Kept r s) (k : Nat) (v : Word) : Kept r (State.rcalGo s k v) := by
  unfold State.rcalGo
  try dsimp only
  repeat' (first | with_reducible exact h | with_reducible assumption | with_reducible apply State.setFld_kept | with_reducible apply State.setReg_kept | with_reducible apply State.rcalBorrow_kept | with_reducible apply Kept.ite | split | fail_if_no_progress (with_reducible apply Kept.lit))

theorem State.rcalEnd_kept {r s : State} (h : Kept r s) (k : Nat) (ron : Option Nat) : Kept r (State.rcalEnd s k ron) := by
  unfold State.rcalEnd
  try dsimp only
  repeat' (first | with_reducible exact h | with_reducible assumption | with_reducible apply State.setAdc_kept | with_reducible apply State.setFld_kept | with_reducible refine fun _ _ => ?_ | with_reducible refine Kept.foldl (fun _ _ _ => ?_) _ ?_ | with_reducible refine Kept.fst (by assumption) ?_ | with_reducible apply Kept.ite | split | fail_if_no_progress (dsimp only) | fail_if_no_progress (with_reducible apply Kept.lit))

theorem State.rcalDone_kept {r s : State} (h : Kept r s) (k : Nat) (ron : Nat) : Kept r (State.rcalDone s k ron) := by
  unfold State.rcalDone
  try dsimp only
  repeat' (first | with_reducible exact h | with_reducible assumption | with_reducible apply State.rcalEnd_kept | with_reducible refine fun _ _ => ?_ | with_reducible apply Kept.ite | split)

theorem State.istMeets_kept {r s : State} (h : Kept r s) (k : Nat) : Kept r (State.istMeets s k) := by
  unfold State.istMeets
  try dsimp only
  repeat' (first | with_reducible exact h | with_reducible assumption | with_reducible refine fun _ _ => ?_ | with_reducible refine Kept.fst (by assumption) ?_ | with_reducible apply Kept.ite | split | fail_if_no_progress (with_reducible apply Kept.lit))

theorem State.rcalApply_kept {r s0 : State} (h : Kept r s0) (k : Nat) : Kept r (State.rcalApply s0 k) := by
  unfold State.rcalApply
  try dsimp only
  repeat' (first | with_reducible exact h | with_reducible assumption | with_reducible apply State.istMeets_kept | with_reducible apply State.rcalEnd_kept | with_reducible refine Kept.fst (by assumption) ?_ | with_reducible apply Kept.ite | split | fail_if_no_progress (with_reducible apply Kept.lit))

theorem State.asyncEnd_kept {r s : State} (h : Kept r s) (n : Nat) (d1 : Int) : Kept r (State.asyncEnd s n d1).1 := by
  unfold State.asyncEnd
  try dsimp only
  repeat' (first | with_reducible exact h | with_reducible assumption | with_reducible apply State.setAdc_kept | with_reducible refine fun _ _ => ?_ | with_reducible apply Kept.ite | split | fail_if_no_progress (dsimp only) | fail_if_no_progress (with_reducible apply Kept.lit))

theorem State.afterEnd_kept {r s : State} (h : Kept r s) (n : Nat) : Kept r (State.afterEnd s n) := by
  unfold State.afterEnd
  try dsimp only
  repeat' (first | with_reducible exact h | with_reducible assumption | with_reducible apply State.setAdc_kept | with_reducible apply State.startConv_kept | with_reducible apply State.startRun_kept | with_reducible apply State.goOn_kept | with_reducible apply State.rcalBorrow_kept | with_reducible refine Kept.fst (by assumption) ?_ | with_reducible apply Kept.ite | split | fail_if_no_progress (with_reducible apply Kept.lit))

theorem State.calCode_kept {r s : State} (h : Kept r s) (n : Nat) (op : Nat) (code : Nat) : Kept r (State.calCode s n op code) := by
  unfold State.calCode
  try dsimp only
  repeat' (first | with_reducible exact h | with_reducible assumption | with_reducible apply State.setFld_kept | with_reducible apply State.setAdc_kept | with_reducible apply Kept.ite | split | fail_if_no_progress (with_reducible apply Kept.lit))

theorem State.writePair_kept {r s : State} (h : Kept r s) (n : Nat) (c : Nat) (ofs : Word) (gain : Word) : Kept r (State.writePair s n c ofs gain) := by
  unfold State.writePair
  try dsimp only
  repeat' (first | with_reducible exact h | with_reducible assumption | with_reducible apply State.setReg_kept | with_reducible refine fun _ _ => ?_ | with_reducible apply Kept.ite | split | fail_if_no_progress (with_reducible apply Kept.lit))

theorem State.putPair_kept {r s : State} (h : Kept r s) (n : Nat) (c : Nat) (ofs : Word) (gain : Word) : Kept r (State.putPair s n c ofs gain) := by
  unfold State.putPair
  try dsimp only
  repeat' (first | with_reducible exact h | with_reducible assumption | with_reducible apply State.writePair_kept | with_reducible refine fun _ _ => ?_ | with_reducible apply Kept.ite | split | fail_if_no_progress (with_reducible apply Kept.lit))

theorem State.calFinish_kept {r s : State} (h : Kept r s) (n : Nat) (c : CalMeas) : Kept r (State.calFinish s n c) := by
  unfold State.calFinish
  try dsimp only
  repeat' (first | with_reducible exact h | with_reducible assumption | with_reducible apply State.setReg_kept | with_reducible apply State.calCode_kept | with_reducible apply State.setFld_kept | with_reducible apply State.putPair_kept | with_reducible refine Kept.foldl (fun _ _ _ => ?_) _ ?_ | with_reducible apply Kept.ite | split | fail_if_no_progress (dsimp only))

theorem State.afterCal_kept {r s : State} (h : Kept r s) (n : Nat) (cont : Bool) : Kept r (State.afterCal s n cont) := by
  unfold State.afterCal
  try dsimp only
  repeat' (first | with_reducible exact h | with_reducible assumption | with_reducible apply State.setAdc_kept | with_reducible apply State.startRun_kept | with_reducible apply State.rcalBorrow_kept | with_reducible apply Kept.ite | split | fail_if_no_progress (with_reducible apply Kept.lit))

theorem State.convEnd_kept {r s : State} (h : Kept r s) (n : Nat) (d : Word) (ovr : Bool) (refbad : Bool) : Kept r (State.convEnd s n d ovr refbad) := by
  unfold State.convEnd
  try dsimp only
  repeat' (first | with_reducible exact h | with_reducible assumption | with_reducible apply State.setAdc_kept | with_reducible apply State.startConv_kept | with_reducible apply State.calFinish_kept | with_reducible apply State.afterCal_kept | with_reducible apply State.asyncEnd_kept | with_reducible apply State.fresh_kept | with_reducible apply State.afterEnd_kept | with_reducible refine Kept.fst (by assumption) ?_ | with_reducible apply Kept.ite | split | fail_if_no_progress (with_reducible apply Kept.lit))

theorem State.resultWrite_kept {r s : State} (h : Kept r s) (n : Nat) : Kept r (State.resultWrite s n) := by
  unfold State.resultWrite
  try dsimp only
  repeat' (first | with_reducible exact h | with_reducible assumption | with_reducible apply State.setAdc_kept | with_reducible apply State.setFld_kept | with_reducible apply State.fire_kept | with_reducible refine Kept.fst (by assumption) ?_ | with_reducible apply Kept.ite | split | fail_if_no_progress (with_reducible apply Kept.lit))

theorem State.resultCopy_kept {r s : State} (h : Kept r s) (n : Nat) : Kept r (State.resultCopy s n) := by
  unfold State.resultCopy
  try dsimp only
  repeat' (first | with_reducible exact h | with_reducible assumption | with_reducible apply State.setAdc_kept | with_reducible refine Kept.fst (by assumption) ?_ | with_reducible apply Kept.ite | split | fail_if_no_progress (with_reducible apply Kept.lit))

theorem State.resLoRead_kept {r s : State} (h : Kept r s) (req : Nat) (n : Nat) (e : Nat) : Kept r (State.resLoRead s req n e).1 := by
  unfold State.resLoRead
  try dsimp only
  repeat' (first | with_reducible exact h | with_reducible assumption | with_reducible apply State.setAdc_kept | fail_if_no_progress (dsimp only) | fail_if_no_progress (with_reducible apply Kept.lit))

theorem State.calFields_kept {r s : State} (h : Kept r s) (n : Nat) (v : Word) : Kept r (State.calFields s n v) := by
  unfold State.calFields
  repeat' (first | with_reducible exact h | with_reducible assumption | with_reducible apply State.setFld_kept)

theorem State.calStart_kept {r s : State} (h : Kept r s) (n : Nat) (op : Nat) (v : Word) : Kept r (State.calStart s n op v) := by
  unfold State.calStart
  try dsimp only
  repeat' (first | with_reducible exact h | with_reducible assumption | with_reducible apply State.calFields_kept | with_reducible apply State.setFld_kept | with_reducible apply State.calCode_kept | with_reducible apply State.setAdc_kept | with_reducible apply State.startConv_kept | with_reducible apply Kept.ite | split | fail_if_no_progress (with_reducible apply Kept.lit))

theorem State.calAbort_kept {r s : State} (h : Kept r s) (n : Nat) : Kept r (State.calAbort s n) := by
  unfold State.calAbort
  try dsimp only
  repeat' (first | with_reducible exact h | with_reducible assumption | with_reducible apply State.calCode_kept | with_reducible apply State.afterCal_kept | with_reducible refine Kept.fst (by assumption) ?_ | split | fail_if_no_progress (with_reducible apply Kept.lit))

theorem State.calSave_kept {r s : State} (h : Kept r s) (n : Nat) (c : Nat) : Kept r (State.calSave s n c) := by
  unfold State.calSave
  try dsimp only
  repeat' (first | with_reducible exact h | with_reducible assumption | with_reducible apply State.retainPut_kept | with_reducible refine Kept.fst (by assumption) ?_ | split | fail_if_no_progress (with_reducible apply Kept.lit))

theorem State.calLoad_kept {r s : State} (h : Kept r s) (n : Nat) (c : Nat) : Kept r (State.calLoad s n c).1 := by
  unfold State.calLoad
  try dsimp only
  repeat' (first | with_reducible exact h | with_reducible assumption | with_reducible apply State.writePair_kept | with_reducible apply State.setFld_kept | with_reducible refine Kept.fst (by assumption) ?_ | split | fail_if_no_progress (dsimp only) | fail_if_no_progress (with_reducible apply Kept.lit))

theorem State.calStore_kept {r s : State} (h : Kept r s) (n : Nat) (op : Nat) (v : Word) : Kept r (State.calStore s n op v) := by
  unfold State.calStore
  try dsimp only
  repeat' (first | with_reducible exact h | with_reducible assumption | with_reducible apply State.calFields_kept | with_reducible apply State.calSave_kept | with_reducible apply State.setFld_kept | with_reducible apply State.calLoad_kept | with_reducible refine Kept.fst (by assumption) ?_ | with_reducible apply Kept.ite | split)

theorem State.calCmd_kept {r s : State} (h : Kept r s) (n : Nat) (v : Word) : Kept r (State.calCmd s n v) := by
  unfold State.calCmd
  try dsimp only
  repeat' (first | with_reducible exact h | with_reducible assumption | with_reducible apply State.calFields_kept | with_reducible apply State.calStart_kept | with_reducible apply State.calAbort_kept | with_reducible apply State.calStore_kept | with_reducible apply State.setFld_kept | with_reducible refine Kept.fst (by assumption) ?_ | with_reducible apply Kept.ite | split | fail_if_no_progress (with_reducible apply Kept.lit))

theorem State.dropQueued_kept {r s : State} (h : Kept r s) (n : Nat) : Kept r (State.dropQueued s n) := by
  unfold State.dropQueued
  try dsimp only
  repeat' (first | with_reducible exact h | with_reducible assumption | with_reducible apply State.setAdc_kept | with_reducible apply State.adcDrop_kept | with_reducible apply Kept.ite | split | fail_if_no_progress (with_reducible apply Kept.lit))

theorem State.adcApply_kept {r s : State} (h : Kept r s) (old : State) (moved : Bool) (v : View) (kk : Nat) (n : Nat) : Kept r (State.adcApply old s moved v kk n) := by
  unfold State.adcApply
  try dsimp only
  repeat' (first | with_reducible exact h | with_reducible assumption | with_reducible apply State.calCode_kept | with_reducible apply State.setFld_kept | with_reducible apply State.dropQueued_kept | with_reducible apply State.setAdc_kept | with_reducible apply State.endLoan_kept | with_reducible apply State.startRun_kept | with_reducible apply State.addSat_kept | with_reducible apply State.startConvBy_kept | with_reducible apply State.afterCal_kept | with_reducible refine Kept.fst (by assumption) ?_ | with_reducible apply Kept.ite | split | fail_if_no_progress (with_reducible apply Kept.lit))

theorem State.adcHold_kept {r s : State} (h : Kept r s) (n : Nat) : Kept r (State.adcHold s n) := by
  unfold State.adcHold
  try dsimp only
  repeat' (first | with_reducible exact h | with_reducible assumption | with_reducible apply State.calCode_kept | with_reducible apply State.setFld_kept | with_reducible apply State.setAdc_kept | with_reducible refine Kept.fst (by assumption) ?_ | split | fail_if_no_progress (with_reducible apply Kept.lit))

theorem State.adcClear_kept {r s : State} (h : Kept r s) (n : Nat) : Kept r (State.adcClear s n) := by
  unfold State.adcClear
  repeat' (first | with_reducible exact h | with_reducible assumption | with_reducible apply State.setAdc_kept | fail_if_no_progress (with_reducible apply Kept.lit))

theorem execRcalGo_kept (s : State) (k : Fin 16) (v : Word) : ∀ t', execRcalGo k v s = .next t' → Kept s t' := by
  intro _ e; cases e; refine settle_keeps _ ?_
  repeat' (first | with_reducible exact Kept.refl _ | with_reducible apply State.bayGate_kept | with_reducible apply State.rcalGo_kept | with_reducible assumption | with_reducible refine fun _ _ _ _ => ?_ | with_reducible refine fun _ _ _ => ?_ | with_reducible refine fun _ _ => ?_ | fail_if_no_progress (dsimp only))

theorem execRcalDone_kept (s : State) (k : Fin 16) (ron : Nat) : ∀ t', execRcalDone k ron s = .next t' → Kept s t' := by
  intro _ e; cases e; refine settle_keeps _ ?_
  repeat' (first | with_reducible exact Kept.refl _ | with_reducible apply State.rcalDone_kept)

theorem execRefOk_kept (s : State) (k : Fin 16) (ok : Bool) : ∀ t', execRefOk k ok s = .next t' → Kept s t' := by
  intro _ e; cases e; refine settle_keeps _ ?_
  repeat' (first | with_reducible exact Kept.refl _ | with_reducible apply State.refOk_kept)

theorem execAdcSwtrig_kept (s : State) (n : Fin 32) : ∀ t', execAdcSwtrig n s = .next t' → Kept s t' := by
  intro _ e; cases e; refine settle_keeps _ ?_
  repeat' (first | with_reducible exact Kept.refl _ | with_reducible apply State.bayGate_kept | with_reducible apply State.adcSwtrig_kept | with_reducible assumption | with_reducible refine fun _ _ _ _ => ?_ | with_reducible refine fun _ _ _ => ?_ | with_reducible refine fun _ _ => ?_ | fail_if_no_progress (dsimp only))

theorem execConversionEnd_kept (s : State) (n : Fin 32) (d : Word) (ovr : Bool) (refbad : Bool) : ∀ t', execConversionEnd n d ovr refbad s = .next t' → Kept s t' := by
  intro _ e; cases e; refine settle_keeps _ ?_
  repeat' (first | with_reducible exact Kept.refl _ | with_reducible apply State.convEnd_kept)

theorem execResultWrite_kept (s : State) (n : Fin 32) : ∀ t', execResultWrite n s = .next t' → Kept s t' := by
  intro _ e; cases e; refine settle_keeps _ ?_
  repeat' (first | with_reducible exact Kept.refl _ | with_reducible apply State.resultWrite_kept)

theorem execResultCopy_kept (s : State) (n : Fin 32) : ∀ t', execResultCopy n s = .next t' → Kept s t' := by
  intro _ e; cases e; refine settle_keeps _ ?_
  repeat' (first | with_reducible exact Kept.refl _ | with_reducible apply State.resultCopy_kept)

theorem execAdcResLoRead_kept (s : State) (req : Fin 405) (n : Fin 32) (e : Fin 16) : ∀ t', execAdcResLoRead req n e s = .next t' → Kept s t' := by
  intro _ e; cases e; refine settle_keeps _ ?_
  repeat' (first | with_reducible exact Kept.refl _ | with_reducible apply State.resLoRead_kept | with_reducible apply State.emit_kept)

theorem execCalZero_kept (s : State) (n : Fin 32) (v : Word) : ∀ t', execCalZero n v s = .next t' → Kept s t' := by
  intro _ e; cases e; refine settle_keeps _ ?_
  repeat' (first | with_reducible exact Kept.refl _ | with_reducible apply State.bayGate_kept | with_reducible apply State.calStart_kept | with_reducible assumption | with_reducible refine fun _ _ _ _ => ?_ | with_reducible refine fun _ _ _ => ?_ | with_reducible refine fun _ _ => ?_ | fail_if_no_progress (dsimp only))

theorem execCalFull_kept (s : State) (n : Fin 32) (v : Word) : ∀ t', execCalFull n v s = .next t' → Kept s t' := by
  intro _ e; cases e; refine settle_keeps _ ?_
  repeat' (first | with_reducible exact Kept.refl _ | with_reducible apply State.bayGate_kept | with_reducible apply State.calStart_kept | with_reducible assumption | with_reducible refine fun _ _ _ _ => ?_ | with_reducible refine fun _ _ _ => ?_ | with_reducible refine fun _ _ => ?_ | fail_if_no_progress (dsimp only))

theorem execCalAbort_kept (s : State) (n : Fin 32) : ∀ t', execCalAbort n s = .next t' → Kept s t' := by
  intro _ e; cases e; refine settle_keeps _ ?_
  repeat' (first | with_reducible exact Kept.refl _ | with_reducible apply State.bayGate_kept | with_reducible apply State.calAbort_kept | with_reducible assumption | with_reducible refine fun _ _ _ _ => ?_ | with_reducible refine fun _ _ _ => ?_ | with_reducible refine fun _ _ => ?_ | fail_if_no_progress (dsimp only))

theorem execCalSave_kept (s : State) (n : Fin 32) (v : Word) : ∀ t', execCalSave n v s = .next t' → Kept s t' := by
  intro _ e; cases e; refine settle_keeps _ ?_
  repeat' (first | with_reducible exact Kept.refl _ | with_reducible apply State.bayGate_kept | with_reducible apply State.calStore_kept | with_reducible assumption | with_reducible refine fun _ _ _ _ => ?_ | with_reducible refine fun _ _ _ => ?_ | with_reducible refine fun _ _ => ?_ | fail_if_no_progress (dsimp only))

theorem execCalRestore_kept (s : State) (n : Fin 32) (v : Word) : ∀ t', execCalRestore n v s = .next t' → Kept s t' := by
  intro _ e; cases e; refine settle_keeps _ ?_
  repeat' (first | with_reducible exact Kept.refl _ | with_reducible apply State.bayGate_kept | with_reducible apply State.calStore_kept | with_reducible assumption | with_reducible refine fun _ _ _ _ => ?_ | with_reducible refine fun _ _ _ => ?_ | with_reducible refine fun _ _ => ?_ | fail_if_no_progress (dsimp only))

end Sys2Proof.Machine
end

