-- ==== Sys2Proof/Laws/KeptCompare.lean ====
section
/-! SUPPORT. What the operations of Machine/Compare.lean keep. -/

set_option linter.unusedTactic false
set_option linter.unreachableTactic false
set_option linter.unusedVariables false

namespace Sys2Proof.Machine

theorem State.winEdge_kept {r s : State} (h : Kept r s) (k : Nat) (w : Nat) : Kept r (State.winEdge s k w) := by
  unfold State.winEdge
  try dsimp only
  repeat' (first | with_reducible exact h | with_reducible assumption | with_reducible apply State.setFld_kept | with_reducible apply State.orBit_kept | with_reducible apply State.fire_kept | with_reducible apply Kept.ite | split)

theorem State.putF_kept {r s : State} (h : Kept r s) (k : Nat) (c : Nat) (f : Bool) : Kept r (State.putF s k c f) := by
  unfold State.putF
  try dsimp only
  repeat' (first | with_reducible exact h | with_reducible assumption | with_reducible apply State.setB_kept | with_reducible apply State.addSat_kept | with_reducible apply Kept.ite | split)

theorem State.edgeF_kept {r s : State} (h : Kept r s) (k : Nat) (c : Nat) (f : Bool) : Kept r (State.edgeF s k c f) := by
  unfold State.edgeF
  try dsimp only
  repeat' (first | with_reducible exact h | with_reducible assumption | with_reducible apply State.putF_kept | with_reducible apply State.setFld_kept | with_reducible apply State.orBit_kept | with_reducible apply State.fire_kept | with_reducible refine Kept.fst (by assumption) ?_ | with_reducible apply Kept.ite | split | fail_if_no_progress (with_reducible apply Kept.lit))

theorem State.cmpSync_kept {r s : State} (h : Kept r s) (k : Nat) (c : Nat) : Kept r (State.cmpSync s k c) := by
  unfold State.cmpSync
  repeat' (first | with_reducible exact h | with_reducible assumption | with_reducible apply State.setB_kept | with_reducible apply Kept.ite | split)

theorem State.cmpCross_kept {r s : State} (h : Kept r s) (k : Nat) (c : Nat) (above : Bool) : Kept r (State.cmpCross s k c above) := by
  unfold State.cmpCross
  try dsimp only
  repeat' (first | with_reducible exact h | with_reducible assumption | with_reducible apply State.setCmp_kept | with_reducible apply State.cmpSync_kept | with_reducible apply Kept.ite | split | fail_if_no_progress (with_reducible apply Kept.lit))

theorem State.sampleF_kept {r s : State} (h : Kept r s) (k : Nat) (c : Nat) : Kept r (State.sampleF s k c) := by
  unfold State.sampleF
  try dsimp only
  repeat' (first | with_reducible exact h | with_reducible assumption | with_reducible apply State.cmpSync_kept | with_reducible apply State.setCmp_kept | with_reducible apply State.edgeF_kept | with_reducible apply Kept.ite | split | fail_if_no_progress (with_reducible apply Kept.lit))

theorem State.filterSample_kept {r s : State} (h : Kept r s) (k : Nat) (c : Nat) (pair : Bool) : Kept r (State.filterSample s k c pair) := by
  unfold State.filterSample
  repeat' (first | with_reducible exact h | with_reducible assumption | with_reducible apply State.sampleF_kept | with_reducible apply State.winEdge_kept | with_reducible apply Kept.ite | split)

theorem State.cmpEnable_kept {r s : State} (h : Kept r s) (k : Nat) (c : Nat) : Kept r (State.cmpEnable s k c) := by
  unfold State.cmpEnable
  try dsimp only
  repeat' (first | with_reducible exact h | with_reducible assumption | with_reducible apply State.setCmp_kept | with_reducible apply State.putF_kept | with_reducible apply State.setB_kept | with_reducible apply State.setFld_kept)

theorem State.cmpOff_kept {r s : State} (h : Kept r s) (k : Nat) (c : Nat) : Kept r (State.cmpOff s k c) := by
  unfold State.cmpOff
  repeat' (first | with_reducible exact h | with_reducible assumption | with_reducible apply State.setCmp_kept | with_reducible apply State.putF_kept | with_reducible apply State.setReg_kept)

theorem State.cmpsClear_kept {r s : State} (h : Kept r s) : Kept r (State.cmpsClear s) := by
  unfold State.cmpsClear
  try dsimp only
  repeat' (first | with_reducible exact h | with_reducible assumption | with_reducible apply State.setReg_kept | with_reducible apply State.setFld_kept | with_reducible refine fun _ _ => ?_ | with_reducible refine Kept.foldl (fun _ _ _ => ?_) _ ?_ | fail_if_no_progress (dsimp only) | fail_if_no_progress (with_reducible apply Kept.lit))

theorem State.cmpReturn_kept {r s : State} (h : Kept r s) (k : Nat) (c : Nat) : Kept r (State.cmpReturn s k c) := by
  unfold State.cmpReturn
  try dsimp only
  repeat' (first | with_reducible exact h | with_reducible assumption | with_reducible apply State.setCmp_kept | with_reducible apply State.setB_kept | with_reducible apply State.edgeF_kept | with_reducible apply State.setFld_kept | with_reducible apply State.cmpEnable_kept | with_reducible apply Kept.ite | split | fail_if_no_progress (with_reducible apply Kept.lit))

theorem State.cmpReturns_kept {r s : State} (h : Kept r s) (g : Nat) : Kept r (State.cmpReturns s g) := by
  unfold State.cmpReturns
  try dsimp only
  repeat' (first | with_reducible exact h | with_reducible assumption | with_reducible apply State.cmpReturn_kept | with_reducible apply State.winEdge_kept | with_reducible refine fun _ _ => ?_ | with_reducible refine Kept.foldl (fun _ _ _ => ?_) _ ?_ | with_reducible apply Kept.ite | split | fail_if_no_progress (dsimp only))

theorem State.cmpsBack_kept {r s : State} (h : Kept r s) : Kept r (State.cmpsBack s) := by
  unfold State.cmpsBack
  try dsimp only
  repeat' (first | with_reducible exact h | with_reducible assumption | with_reducible apply State.setCmp_kept | with_reducible apply State.cmpReturns_kept | with_reducible refine fun _ _ => ?_ | with_reducible refine Kept.foldl (fun _ _ _ => ?_) _ ?_ | with_reducible apply Kept.ite | split | fail_if_no_progress (dsimp only) | fail_if_no_progress (with_reducible apply Kept.lit))

theorem State.cmpApply_kept {r s : State} (h : Kept r s) (old : State) (k : Nat) (c : Nat) : Kept r (State.cmpApply old s k c) := by
  unfold State.cmpApply
  try dsimp only
  repeat' (first | with_reducible exact h | with_reducible assumption | with_reducible apply State.cmpOff_kept | with_reducible apply State.cmpEnable_kept | with_reducible apply State.setFld_kept | with_reducible apply State.setCmp_kept | with_reducible apply Kept.ite | split | fail_if_no_progress (with_reducible apply Kept.lit))

theorem State.winApply_kept {r s : State} (h : Kept r s) (k : Nat) (w : Nat) : Kept r (State.winApply s k w) := by
  unfold State.winApply
  repeat' (first | with_reducible exact h | with_reducible assumption | with_reducible apply State.winEdge_kept | with_reducible apply State.setFld_kept | with_reducible apply Kept.ite | split)

theorem State.clearLatch_kept {r s : State} (h : Kept r s) (k : Nat) (l : Nat) : Kept r (State.clearLatch s k l) := by
  unfold State.clearLatch
  try dsimp only
  repeat' (first | with_reducible exact h | with_reducible assumption | with_reducible apply State.setB_kept | with_reducible apply Kept.ite | split)

theorem State.tickClears_kept {r s : State} (h : Kept r s) (k : Nat) : Kept r (State.tickClears s k) := by
  unfold State.tickClears
  try dsimp only
  repeat' (first | with_reducible exact h | with_reducible assumption | with_reducible apply State.clearLatch_kept | with_reducible refine fun _ _ => ?_ | with_reducible refine Kept.foldl (fun _ _ _ => ?_) _ ?_ | with_reducible apply Kept.ite | split | fail_if_no_progress (dsimp only))

theorem State.latchWrite_kept {r s : State} (h : Kept r s) (k : Nat) (v : Word) : Kept r (State.latchWrite s k v) := by
  unfold State.latchWrite
  try dsimp only
  repeat' (first | with_reducible exact h | with_reducible assumption | with_reducible refine fun _ _ => ?_ | fail_if_no_progress (with_reducible apply Kept.lit))

theorem State.latchClear_kept {r s : State} (h : Kept r s) (k : Nat) (l : Nat) : Kept r (State.latchClear s k l) := by
  unfold State.latchClear
  try dsimp only
  repeat' (first | with_reducible exact h | with_reducible assumption | with_reducible apply State.clearLatch_kept | with_reducible refine fun _ _ => ?_ | with_reducible refine Kept.fst (by assumption) ?_ | with_reducible apply Kept.ite | split | fail_if_no_progress (with_reducible apply Kept.lit))

theorem execComparatorCross_kept (s : State) (k : Fin 16) (c : Fin 4) (above : Bool) : ∀ t', execComparatorCross k c above s = .next t' → Kept s t' := by
  intro _ e; cases e; refine settle_keeps _ ?_
  repeat' (first | with_reducible exact Kept.refl _ | with_reducible apply State.cmpCross_kept)

theorem execFilterSample_kept (s : State) (k : Fin 16) (c : WindowSample) : ∀ t', execFilterSample k c s = .next t' → Kept s t' := by
  intro _ e; cases e; refine settle_keeps _ ?_
  repeat' (first | with_reducible exact Kept.refl _ | with_reducible apply State.filterSample_kept)

theorem execSettlingHoldEnd_kept (s : State) (k : Fin 16) (c : Fin 4) : ∀ t', execSettlingHoldEnd k c s = .next t' → Kept s t' := by
  intro _ e; cases e; refine settle_keeps _ ?_
  repeat' (first | with_reducible exact Kept.refl _ | with_reducible apply State.setFld_kept)

theorem execCmpLatchWrite_kept (s : State) (k : Fin 16) (v : Word) : ∀ t', execCmpLatchWrite k v s = .next t' → Kept s t' := by
  intro _ e; cases e; refine settle_keeps _ ?_
  repeat' (first | with_reducible exact Kept.refl _ | with_reducible apply State.bayGate_kept | with_reducible apply State.latchWrite_kept | with_reducible assumption | with_reducible refine fun _ _ _ _ => ?_ | with_reducible refine fun _ _ _ => ?_ | with_reducible refine fun _ _ => ?_ | fail_if_no_progress (dsimp only))

theorem execLatchClear_kept (s : State) (k : Fin 16) (l : Fin 6) : ∀ t', execLatchClear k l s = .next t' → Kept s t' := by
  intro _ e; cases e; refine settle_keeps _ ?_
  repeat' (first | with_reducible exact Kept.refl _ | with_reducible apply State.latchClear_kept)

end Sys2Proof.Machine
end

