-- ==== Sys2Proof/Laws/KeptSector.lean ====
section
/-! SUPPORT. What the operations of Machine/Sector.lean keep. -/

set_option linter.unusedTactic false
set_option linter.unreachableTactic false
set_option linter.unusedVariables false

namespace Sys2Proof.Machine

theorem State.collide_kept {r s : State} (h : Kept r s) (a : Nat) (req : Nat) : Kept r (State.collide s a req) := by
  unfold State.collide
  try dsimp only
  repeat' (first | with_reducible exact h | with_reducible assumption | with_reducible apply State.setFld_kept | with_reducible apply Kept.ite | split)

theorem State.dmaEnd_kept {r s : State} (h : Kept r s) (k : Nat) (j : Nat) (code : Nat) : Kept r (State.dmaEnd s k j code) := by
  unfold State.dmaEnd
  try dsimp only
  repeat' (first | with_reducible exact h | with_reducible assumption | with_reducible apply State.setFld_kept | with_reducible apply State.setB_kept | with_reducible apply Kept.ite | split | fail_if_no_progress (with_reducible apply Kept.lit))

theorem State.dmaStart_kept {r s : State} (h : Kept r s) (k : Nat) (j : Nat) : Kept r (State.dmaStart s k j) := by
  unfold State.dmaStart
  repeat' (first | with_reducible exact h | with_reducible assumption | with_reducible apply State.setFld_kept)

theorem State.dmaGo_kept {r s : State} (h : Kept r s) (k : Nat) (j : Nat) : Kept r (State.dmaGo s k j) := by
  unfold State.dmaGo
  repeat' (first | with_reducible exact h | with_reducible assumption | with_reducible apply State.setFld_kept | with_reducible apply State.dmaEnd_kept | with_reducible apply State.dmaStart_kept | with_reducible apply Kept.ite | split | fail_if_no_progress (with_reducible apply Kept.lit))

theorem State.dmaStop_kept {r s : State} (h : Kept r s) (k : Nat) (j : Nat) : Kept r (State.dmaStop s k j) := by
  unfold State.dmaStop
  repeat' (first | with_reducible exact h | with_reducible assumption | with_reducible apply State.setFld_kept | with_reducible apply Kept.ite | split | fail_if_no_progress (with_reducible apply Kept.lit))

theorem State.dmaCtrl_kept {r s : State} (h : Kept r s) (k : Nat) (j : Nat) (v : Word) : Kept r (State.dmaCtrl s k j v) := by
  unfold State.dmaCtrl
  try dsimp only
  repeat' (first | with_reducible exact h | with_reducible assumption | with_reducible apply State.dmaStop_kept | with_reducible apply State.setReg_kept | with_reducible apply State.dmaGo_kept | with_reducible apply Kept.ite | split)

theorem State.dmaEvent_kept {r s : State} (h : Kept r s) (k : Nat) (e : Nat) : Kept r (State.dmaEvent s k e) := by
  unfold State.dmaEvent
  try dsimp only
  repeat' (first | with_reducible exact h | with_reducible assumption | with_reducible apply State.setFld_kept | with_reducible apply State.dmaStart_kept | with_reducible refine fun _ _ => ?_ | with_reducible refine Kept.foldl (fun _ _ _ => ?_) _ ?_ | with_reducible apply Kept.ite | split | fail_if_no_progress (dsimp only))

theorem State.fabServe_kept {r s : State} (h : Kept r s) (k : Nat) (coll : Bool) (q : FabReq) : Kept r (State.fabServe s k coll q) := by
  unfold State.fabServe
  try dsimp only
  repeat' (first | with_reducible exact h | with_reducible assumption | with_reducible apply State.setFab_kept | with_reducible apply State.localWrite_kept | with_reducible apply State.collide_kept | with_reducible apply State.memWrite_kept | with_reducible apply State.toPartner_kept | with_reducible apply State.touch_kept | with_reducible apply State.readWord_kept | with_reducible refine Kept.fst (by assumption) ?_ | with_reducible apply Kept.ite | split | fail_if_no_progress (with_reducible apply Kept.lit))

theorem State.fabServeAll_kept {r s : State} (h : Kept r s) (k : Nat) (coll : Bool) : Kept r (State.fabServeAll s k coll) := by
  unfold State.fabServeAll
  try dsimp only
  repeat' (first | with_reducible exact h | with_reducible assumption | with_reducible apply State.fabServe_kept | with_reducible apply State.setFab_kept | with_reducible refine fun _ _ => ?_ | with_reducible refine Kept.foldl (fun _ _ _ => ?_) _ ?_ | with_reducible apply Kept.ite | split | fail_if_no_progress (dsimp only) | fail_if_no_progress (with_reducible apply Kept.lit))

theorem State.fabRequest_kept {r s : State} (h : Kept r s) (k : Nat) (q : FabReq) (coll : Bool) : Kept r (State.fabRequest s k q coll) := by
  unfold State.fabRequest
  try dsimp only
  repeat' (first | with_reducible exact h | with_reducible assumption | with_reducible apply State.fabServeAll_kept | with_reducible apply State.setFab_kept | with_reducible apply Kept.ite | split | fail_if_no_progress (with_reducible apply Kept.lit))

theorem State.fabReturn_kept {r s : State} (h : Kept r s) (k : Nat) : Kept r (State.fabReturn s k) := by
  unfold State.fabReturn
  try dsimp only
  repeat' (first | with_reducible exact h | with_reducible assumption | with_reducible apply State.fabServeAll_kept | with_reducible apply State.setFab_kept | with_reducible apply State.emit_kept | with_reducible refine Kept.fst (by assumption) ?_ | with_reducible apply Kept.ite | split | fail_if_no_progress (with_reducible apply Kept.lit))

theorem State.mbxTofab_kept {r s : State} (h : Kept r s) (k : Nat) (j : Nat) (v : Word) : Kept r (State.mbxTofab s k j v) := by
  unfold State.mbxTofab
  repeat' (first | with_reducible exact h | with_reducible assumption | with_reducible apply State.setFab_kept | with_reducible apply State.setFld_kept | with_reducible apply State.setReg_kept | with_reducible apply State.orBit_kept | with_reducible apply State.toPartner_kept | with_reducible apply Kept.ite | split | fail_if_no_progress (with_reducible apply Kept.lit))

theorem State.mbxWrite_kept {r s : State} (h : Kept r s) (k : Nat) (j : Nat) (v : Word) : Kept r (State.mbxWrite s k j v) := by
  unfold State.mbxWrite
  repeat' (first | with_reducible exact h | with_reducible assumption | with_reducible apply State.localWrite_kept | with_reducible apply State.mbxTofab_kept | with_reducible apply Kept.ite | split)

theorem State.mbxPut_kept {r s : State} (h : Kept r s) (k : Nat) (j : Nat) (v : Word) : Kept r (State.mbxPut s k j v) := by
  unfold State.mbxPut
  repeat' (first | with_reducible exact h | with_reducible assumption | with_reducible apply State.setFld_kept | with_reducible apply State.setReg_kept | with_reducible apply State.orBit_kept | with_reducible apply Kept.ite | split)

theorem State.mbxDrain_kept {r s : State} (h : Kept r s) (k : Nat) : Kept r (State.mbxDrain s k) := by
  unfold State.mbxDrain
  try dsimp only
  repeat' (first | with_reducible exact h | with_reducible assumption | with_reducible apply State.setFab_kept | with_reducible apply State.mbxPut_kept | with_reducible apply State.offBit_kept | with_reducible apply State.mbxTofab_kept | with_reducible refine fun _ _ => ?_ | with_reducible refine Kept.foldl (fun _ _ _ => ?_) _ ?_ | with_reducible apply Kept.ite | split | fail_if_no_progress (dsimp only) | fail_if_no_progress (with_reducible apply Kept.lit))

theorem State.mbxAck_kept {r s : State} (h : Kept r s) (k : Nat) (j : Nat) : Kept r (State.mbxAck s k j) := by
  unfold State.mbxAck
  repeat' (first | with_reducible exact h | with_reducible assumption | with_reducible apply State.mbxDrain_kept | with_reducible apply State.setFab_kept | with_reducible apply Kept.ite | split | fail_if_no_progress (with_reducible apply Kept.lit))

theorem State.mbxFrom_kept {r s : State} (h : Kept r s) (k : Nat) (j : Nat) (v : Word) : Kept r (State.mbxFrom s k j v) := by
  unfold State.mbxFrom
  repeat' (first | with_reducible exact h | with_reducible assumption | with_reducible apply State.mbxDrain_kept | with_reducible apply State.setFab_kept | with_reducible apply Kept.ite | split | fail_if_no_progress (with_reducible apply Kept.lit))

theorem State.mbxRing_kept {r s : State} (h : Kept r s) (k : Nat) (v : Word) : Kept r (State.mbxRing s k v) := by
  unfold State.mbxRing
  try dsimp only
  repeat' (first | with_reducible exact h | with_reducible assumption | with_reducible apply State.setFab_kept | with_reducible apply Kept.ite | split | fail_if_no_progress (with_reducible apply Kept.lit))

theorem State.fabClear_kept {r s : State} (h : Kept r s) (k : Nat) : Kept r (State.fabClear s k) := by
  unfold State.fabClear
  try dsimp only
  repeat' (first | with_reducible exact h | with_reducible assumption | with_reducible apply State.setReg_kept | with_reducible apply State.setFab_kept | with_reducible refine fun _ _ => ?_ | with_reducible refine Kept.foldl (fun _ _ _ => ?_) _ ?_ | fail_if_no_progress (dsimp only) | fail_if_no_progress (with_reducible apply Kept.lit))

theorem State.injWrite_kept {r s : State} (h : Kept r s) (k : Nat) (v : Word) : Kept r (State.injWrite s k v) := by
  unfold State.injWrite
  repeat' (first | with_reducible exact h | with_reducible assumption | with_reducible apply State.setReg_kept)

theorem State.vaultWipe_kept {r s : State} (h : Kept r s) (cause : Nat) : Kept r (State.vaultWipe s cause) := by
  unfold State.vaultWipe
  repeat' (first | with_reducible exact h | with_reducible assumption | with_reducible apply State.setFld_kept | fail_if_no_progress (with_reducible apply Kept.lit))

theorem State.wipeCommand_kept {r s : State} (h : Kept r s) (req : Nat) (v : Word) : Kept r (State.wipeCommand s req v) := by
  unfold State.wipeCommand
  repeat' (first | with_reducible exact h | with_reducible assumption | with_reducible apply State.accessError_kept | with_reducible apply State.vaultWipe_kept | with_reducible apply Kept.ite | split)

theorem State.wipeDone_kept {r s : State} (h : Kept r s) : Kept r s.wipeDone := by
  unfold State.wipeDone
  dsimp only
  split
  · exact h
  · refine State.setFld_kept (State.setFld_kept (State.addSat_kept (State.setFld_kept (State.setFld_kept ?_ _ _) _ _) _ _) _ _) _ _
    exact h.parts id (twf_filter _ _) (twf_filter _ _) rfl rfl rfl

theorem execDmaGo_kept (s : State) (k : Fin 16) (j : Fin 8) (v : Word) : ∀ t', execDmaGo k j v s = .next t' → Kept s t' := by
  intro _ e; cases e; refine settle_keeps _ ?_
  repeat' (first | with_reducible exact Kept.refl _ | with_reducible apply State.bayGate_kept | with_reducible apply State.dmaCtrl_kept | with_reducible assumption | with_reducible refine fun _ _ _ _ => ?_ | with_reducible refine fun _ _ _ => ?_ | with_reducible refine fun _ _ => ?_ | fail_if_no_progress (dsimp only))

theorem execDmaAbort_kept (s : State) (k : Fin 16) (j : Fin 8) : ∀ t', execDmaAbort k j s = .next t' → Kept s t' := by
  intro _ e; cases e; refine settle_keeps _ ?_
  repeat' (first | with_reducible exact Kept.refl _ | with_reducible apply State.bayGate_kept | with_reducible apply State.dmaStop_kept | with_reducible assumption | with_reducible refine fun _ _ _ _ => ?_ | with_reducible refine fun _ _ _ => ?_ | with_reducible refine fun _ _ => ?_ | fail_if_no_progress (dsimp only))

theorem execFabricSpRequest_kept (s : State) (k : Fin 16) (we : Bool) (view : Fin 4) (word : BitVec 16) (data : Word) (coll : Bool) : ∀ t', execFabricSpRequest k we view word data coll s = .next t' → Kept s t' := by
  intro _ e; cases e; refine settle_keeps _ ?_
  repeat' (first | with_reducible exact Kept.refl _ | with_reducible apply State.fabRequest_kept)

theorem execFabricSpReturn_kept (s : State) (k : Fin 16) : ∀ t', execFabricSpReturn k s = .next t' → Kept s t' := by
  intro _ e; cases e; refine settle_keeps _ ?_
  repeat' (first | with_reducible exact Kept.refl _ | with_reducible apply State.fabReturn_kept)

theorem execMbxTofabWrite_kept (s : State) (k : Fin 16) (j : Fin 8) (v : Word) : ∀ t', execMbxTofabWrite k j v s = .next t' → Kept s t' := by
  intro _ e; cases e; refine settle_keeps _ ?_
  repeat' (first | with_reducible exact Kept.refl _ | with_reducible apply State.bayGate_kept | with_reducible apply State.mbxWrite_kept | with_reducible assumption | with_reducible refine fun _ _ _ _ => ?_ | with_reducible refine fun _ _ _ => ?_ | with_reducible refine fun _ _ => ?_ | fail_if_no_progress (dsimp only))

theorem execMbxToAck_kept (s : State) (k : Fin 16) (j : Fin 8) : ∀ t', execMbxToAck k j s = .next t' → Kept s t' := by
  intro _ e; cases e; refine settle_keeps _ ?_
  repeat' (first | with_reducible exact Kept.refl _ | with_reducible apply State.mbxAck_kept)

theorem execMbxFromWr_kept (s : State) (k : Fin 16) (j : Fin 8) (v : Word) : ∀ t', execMbxFromWr k j v s = .next t' → Kept s t' := by
  intro _ e; cases e; refine settle_keeps _ ?_
  repeat' (first | with_reducible exact Kept.refl _ | with_reducible apply State.mbxFrom_kept)

theorem execMbxDoorbell_kept (s : State) (k : Fin 16) (v : Word) : ∀ t', execMbxDoorbell k v s = .next t' → Kept s t' := by
  intro _ e; cases e; refine settle_keeps _ ?_
  repeat' (first | with_reducible exact Kept.refl _ | with_reducible apply State.bayGate_kept | with_reducible apply State.mbxRing_kept | with_reducible assumption | with_reducible refine fun _ _ _ _ => ?_ | with_reducible refine fun _ _ _ => ?_ | with_reducible refine fun _ _ => ?_ | fail_if_no_progress (dsimp only))

theorem execScrInjArm_kept (s : State) (k : Fin 16) (v : Word) : ∀ t', execScrInjArm k v s = .next t' → Kept s t' := by
  intro _ e; cases e; refine settle_keeps _ ?_
  repeat' (first | with_reducible exact Kept.refl _ | with_reducible apply State.bayGate_kept | with_reducible apply State.injWrite_kept | with_reducible assumption | with_reducible refine fun _ _ _ _ => ?_ | with_reducible refine fun _ _ _ => ?_ | with_reducible refine fun _ _ => ?_ | fail_if_no_progress (dsimp only))

theorem execVaultWipe_kept (s : State) (req : Fin 405) (v : Word) : ∀ t', execVaultWipe req v s = .next t' → Kept s t' := by
  intro _ e; cases e; refine settle_keeps _ ?_
  repeat' (first | with_reducible exact Kept.refl _ | with_reducible apply State.wipeCommand_kept)

theorem execWipeDone_kept (s : State) : ∀ t', execWipeDone s = .next t' → Kept s t' := by
  intro _ e; cases e; refine settle_keeps _ ?_
  repeat' (first | with_reducible exact Kept.refl _ | with_reducible apply State.wipeDone_kept)

end Sys2Proof.Machine
end

