-- ==== Sys2Proof/Laws/KeptAttar.lean ====
section
/-! SUPPORT. What the operations of Machine/Attar.lean keep. -/

set_option linter.unusedTactic false
set_option linter.unreachableTactic false
set_option linter.unusedVariables false

namespace Sys2Proof.Machine

theorem State.cmdRes_kept {r s : State} (h : Kept r s) (c : Nat) : Kept r (State.cmdRes s c) := by
  unfold State.cmdRes
  repeat' (first | with_reducible exact h | with_reducible assumption | with_reducible apply State.setFld_kept)

theorem State.stageWord_kept {r s : State} (h : Kept r s) (a : Nat) (v : Word) : Kept r (State.stageWord s a v) := by
  unfold State.stageWord
  try dsimp only
  repeat' (first | with_reducible exact h | with_reducible assumption | with_reducible apply State.invalidate_kept | with_reducible apply State.toPartner_kept | with_reducible apply State.setFld_kept | with_reducible apply Kept.ite | split | fail_if_no_progress (with_reducible apply Kept.lit))

theorem State.closeSession_kept {r s : State} (h : Kept r s) (how : Nat) : Kept r (State.closeSession s how) := by
  unfold State.closeSession
  repeat' (first | with_reducible exact h | with_reducible assumption | with_reducible apply State.setFld_kept | with_reducible apply State.toPartner_kept | fail_if_no_progress (with_reducible apply Kept.lit))

theorem State.dropStaged_kept {r s : State} (h : Kept r s) : Kept r (State.dropStaged s) := by
  unfold State.dropStaged
  try dsimp only
  repeat' (first | with_reducible exact h | with_reducible assumption | with_reducible apply State.freeSlot_kept | with_reducible refine fun _ _ => ?_ | with_reducible refine Kept.foldl (fun _ _ _ => ?_) _ ?_ | with_reducible apply Kept.ite | split | fail_if_no_progress (dsimp only))

theorem State.endSession_kept {r s : State} (h : Kept r s) (how : Nat) : Kept r (State.endSession s how) := by
  unfold State.endSession
  repeat' (first | with_reducible exact h | with_reducible assumption | with_reducible apply State.dropStaged_kept | with_reducible apply State.closeSession_kept | with_reducible apply State.setFld_kept | with_reducible apply State.addSat_kept)

theorem State.attarOpen_kept {r s : State} (h : Kept r s) (req : Nat) : Kept r (State.attarOpen s req) := by
  unfold State.attarOpen
  repeat' (first | with_reducible exact h | with_reducible assumption | with_reducible apply State.cmdRes_kept | with_reducible apply State.setFld_kept | with_reducible apply Kept.ite | split | fail_if_no_progress (with_reducible apply Kept.lit))

theorem State.attarCheck_kept {r s : State} (h : Kept r s) : Kept r (State.attarCheck s) := by
  unfold State.attarCheck
  try dsimp only
  repeat' (first | with_reducible exact h | with_reducible assumption | with_reducible apply State.cmdRes_kept | with_reducible apply State.setFld_kept | with_reducible refine Kept.fst (by assumption) ?_ | split | fail_if_no_progress (with_reducible apply Kept.lit))

theorem State.attarApply_kept {r s : State} (h : Kept r s) (mode : Nat) : Kept r (State.attarApply s mode) := by
  unfold State.attarApply
  try dsimp only
  repeat' (first | with_reducible exact h | with_reducible assumption | with_reducible apply State.cmdRes_kept | with_reducible apply State.setFld_kept | with_reducible refine Kept.fst (by assumption) ?_ | with_reducible apply Kept.ite | split | fail_if_no_progress (with_reducible apply Kept.lit))

theorem State.attarAbort_kept {r s : State} (h : Kept r s) (how : Nat) : Kept r (State.attarAbort s how) := by
  unfold State.attarAbort
  repeat' (first | with_reducible exact h | with_reducible assumption | with_reducible apply State.cmdRes_kept | with_reducible apply State.endSession_kept | with_reducible apply Kept.ite | split)

theorem State.asOwner_kept {r s : State} (h : Kept r s) (req : Nat) (f : State → State) (hf : ∀ s, Kept r s → Kept r (f s)) : Kept r (s.asOwner req f) := by
  unfold State.asOwner
  split
  · exact State.cmdRes_kept h _
  · split
    · exact State.cmdRes_kept h _
    · exact hf _ h

theorem State.attarCmd_kept {r s : State} (h : Kept r s) (req : Nat) (op : Nat) (mode : Nat) (force : Bool) : Kept r (State.attarCmd s req op mode force) := by
  unfold State.attarCmd
  try dsimp only
  repeat' (first | with_reducible exact h | with_reducible assumption | with_reducible apply State.attarOpen_kept | with_reducible apply State.asOwner_kept | with_reducible apply State.attarCheck_kept | with_reducible apply State.attarApply_kept | with_reducible apply State.attarAbort_kept | with_reducible apply State.cmdRes_kept | with_reducible refine fun _ _ => ?_ | with_reducible refine Kept.fst (by assumption) ?_ | with_reducible apply Kept.ite | split | fail_if_no_progress (with_reducible apply Kept.lit))

theorem State.checkDone_kept {r s : State} (h : Kept r s) : Kept r (State.checkDone s) := by
  unfold State.checkDone
  try dsimp only
  repeat' (first | with_reducible exact h | with_reducible assumption | with_reducible apply State.setFld_kept | with_reducible apply Kept.ite | split | fail_if_no_progress (with_reducible apply Kept.lit))

theorem State.sessionTimeout_kept {r s : State} (h : Kept r s) : Kept r (State.sessionTimeout s) := by
  unfold State.sessionTimeout
  try dsimp only
  repeat' (first | with_reducible exact h | with_reducible assumption | with_reducible apply State.endSession_kept | with_reducible apply Kept.ite | split)

theorem State.strobe_kept {r s : State} (h : Kept r s) : Kept r (State.strobe s) := by
  unfold State.strobe
  try dsimp only
  repeat' (first | with_reducible exact h | with_reducible assumption | with_reducible apply State.setFld_kept | with_reducible refine Kept.fst (by assumption) ?_ | with_reducible apply Kept.ite | split | fail_if_no_progress (with_reducible apply Kept.lit))

theorem State.strobeLate_kept {r s : State} (h : Kept r s) : Kept r (State.strobeLate s) := by
  unfold State.strobeLate
  try dsimp only
  repeat' (first | with_reducible exact h | with_reducible assumption | with_reducible apply State.setFld_kept | with_reducible refine fun _ _ => ?_ | with_reducible apply Kept.ite | split)

theorem State.takeWord_kept {r s : State} (h : Kept r s) (d : Domain) (a : Nat) (w : Word) : Kept r (State.takeWord s d a w) := by
  unfold State.takeWord
  try dsimp only
  repeat' (first | with_reducible exact h | with_reducible assumption | with_reducible apply State.setFld_kept | with_reducible apply State.setReg_kept | with_reducible refine fun _ _ => ?_ | with_reducible refine Kept.foldl (fun _ _ _ => ?_) _ ?_ | with_reducible refine Kept.fst (by assumption) ?_ | with_reducible apply Kept.ite | split | fail_if_no_progress (dsimp only) | fail_if_no_progress (with_reducible apply Kept.lit))

theorem State.applyReq_kept {r s : State} (h : Kept r s) (n : BitVec 48) (q : StagedReq) : Kept r (State.applyReq s n q) := by
  unfold State.applyReq
  try dsimp only
  repeat' (first | with_reducible exact h | with_reducible assumption | with_reducible apply State.setSlot_kept | with_reducible apply State.setFld_kept | with_reducible refine Kept.fst (by assumption) ?_ | with_reducible apply Kept.ite | split | fail_if_no_progress (with_reducible apply Kept.lit))

theorem execOpen_kept (s : State) (req : Fin 405) : ∀ t', execOpen req s = .next t' → Kept s t' := by
  intro _ e; cases e; refine settle_keeps _ ?_
  repeat' (first | with_reducible exact Kept.refl _ | with_reducible apply State.attarCmd_kept)

theorem execCheck_kept (s : State) (req : Fin 405) : ∀ t', execCheck req s = .next t' → Kept s t' := by
  intro _ e; cases e; refine settle_keeps _ ?_
  repeat' (first | with_reducible exact Kept.refl _ | with_reducible apply State.attarCmd_kept)

theorem execCheckDone_kept (s : State) : ∀ t', execCheckDone s = .next t' → Kept s t' := by
  intro _ e; cases e; refine settle_keeps _ ?_
  repeat' (first | with_reducible exact Kept.refl _ | with_reducible apply State.checkDone_kept)

theorem execApply_kept (s : State) (req : Fin 405) (mode : Fin 4) : ∀ t', execApply req mode s = .next t' → Kept s t' := by
  intro _ e; cases e; refine settle_keeps _ ?_
  repeat' (first | with_reducible exact Kept.refl _ | with_reducible apply State.attarCmd_kept)

theorem execAbort_kept (s : State) (req : Fin 405) (force : Bool) : ∀ t', execAbort req force s = .next t' → Kept s t' := by
  intro _ e; cases e; refine settle_keeps _ ?_
  repeat' (first | with_reducible exact Kept.refl _ | with_reducible apply State.attarCmd_kept)

theorem execPeek_kept (s : State) (a : Word) : ∀ t', execPeek a s = .next t' → Kept s t' := by
  intro _ e; cases e; refine settle_keeps _ ?_
  repeat' (first | with_reducible exact Kept.refl _ | with_reducible apply State.setReg_kept)

theorem execSessionTimeout_kept (s : State) : ∀ t', execSessionTimeout s = .next t' → Kept s t' := by
  intro _ e; cases e; refine settle_keeps _ ?_
  repeat' (first | with_reducible exact Kept.refl _ | with_reducible apply State.sessionTimeout_kept)

end Sys2Proof.Machine
end

