-- ==== Sys2Proof/Laws/KeptLines.lean ====
section
/-! SUPPORT. What the operations of Machine/Lines.lean keep. -/

set_option linter.unusedTactic false
set_option linter.unreachableTactic false
set_option linter.unusedVariables false

namespace Sys2Proof.Machine

theorem State.setLine_kept {r s : State} (h : Kept r s) (l : Nat) (x : Line) : Kept r (State.setLine s l x) := by
  unfold State.setLine
  repeat' (first | with_reducible exact h | with_reducible assumption | fail_if_no_progress (with_reducible apply Kept.lit))

theorem State.placeRec_kept {r s : State} (h : Kept r s) (k : Nat) (cls : Nat) (a : Action) (win : BitVec 64) (off : Nat) (x : LineCycle) : Kept r (State.placeRec s k cls a win off x).1 := by
  unfold State.placeRec
  try dsimp only
  repeat' (first | with_reducible exact h | with_reducible assumption | with_reducible apply State.trace_kept | with_reducible apply Kept.ite | split | fail_if_no_progress (dsimp only) | fail_if_no_progress (with_reducible apply Kept.lit))

theorem State.placeOne_kept {r s : State} (h : Kept r s) (l : Nat) (k : Nat) (c : BitVec 64) (en : Bool) (y : Line) (x : LineCycle) (a : Action) : Kept r (State.placeOne s l k c en y x a).1 := by
  unfold State.placeOne
  try dsimp only
  repeat' (first | with_reducible exact h | with_reducible assumption | with_reducible apply State.addSat_kept | with_reducible apply State.setFld_kept | with_reducible apply State.placeRec_kept | with_reducible apply State.arm_kept | with_reducible apply State.judgeLate_kept | with_reducible refine fun _ _ => ?_ | with_reducible refine Kept.fst (by assumption) ?_ | with_reducible apply Kept.ite | split | fail_if_no_progress (dsimp only) | fail_if_no_progress (with_reducible apply Kept.lit))

theorem State.placeSector_kept {r s : State} (h : Kept r s) (l : Nat) (k : Nat) (c : BitVec 64) (en : Bool) (y : Line) (x : LineCycle) : Kept r (State.placeSector s l k c en y x).1 := by
  unfold State.placeSector
  try dsimp only
  repeat' (first | with_reducible exact h | with_reducible assumption | with_reducible apply State.placeOne_kept | with_reducible apply State.setStore_kept | with_reducible refine fun _ _ => ?_ | with_reducible refine Kept.foldl (fun _ _ _ => ?_) _ ?_ | with_reducible refine Kept.foldlFst (fun _ _ _ => ?_) _ ?_ | with_reducible refine Kept.fst (by assumption) ?_ | with_reducible apply Kept.ite | split | fail_if_no_progress (dsimp only) | fail_if_no_progress (with_reducible apply Kept.lit))

theorem State.assemble_kept {r s : State} (h : Kept r s) (l : Nat) (m : BitVec 48) (c : BitVec 64) : Kept r (State.assemble s l m c) := by
  unfold State.assemble
  try dsimp only
  repeat' (first | with_reducible exact h | with_reducible assumption | with_reducible apply State.placeSector_kept | with_reducible apply State.setLine_kept | with_reducible refine fun _ _ => ?_ | with_reducible refine Kept.foldl (fun _ _ _ => ?_) _ ?_ | with_reducible refine Kept.foldlFst (fun _ _ _ => ?_) _ ?_ | fail_if_no_progress (dsimp only) | fail_if_no_progress (with_reducible apply Kept.lit))

theorem State.assembly_kept {r s : State} (h : Kept r s) (l : Nat) : Kept r (State.assembly s l) := by
  unfold State.assembly
  try dsimp only
  repeat' (first | with_reducible exact h | with_reducible assumption | with_reducible apply State.advance_kept | with_reducible apply State.assemble_kept | with_reducible apply Kept.ite | split)

theorem State.nodeStale_kept {r s : State} (h : Kept r s) (l : Nat) (limit : Nat) (k : Nat) : Kept r (State.nodeStale s l limit k) := by
  unfold State.nodeStale
  try dsimp only
  repeat' (first | with_reducible exact h | with_reducible assumption | with_reducible apply State.setLine_kept | with_reducible apply State.orBit_kept | with_reducible apply State.setFld_kept | with_reducible apply Kept.ite | split | fail_if_no_progress (with_reducible apply Kept.lit))

theorem State.allStale_kept {r s : State} (h : Kept r s) (l : Nat) (x : LineCycle) : Kept r (State.allStale s l x) := by
  unfold State.allStale
  try dsimp only
  repeat' (first | with_reducible exact h | with_reducible assumption | with_reducible apply State.nodeStale_kept | with_reducible apply State.setReg_kept | with_reducible refine fun _ _ => ?_ | with_reducible refine Kept.foldl (fun _ _ _ => ?_) _ ?_ | fail_if_no_progress (dsimp only))

theorem State.noReturn_kept {r s : State} (h : Kept r s) (l : Nat) (x : LineCycle) : Kept r (State.noReturn s l x) := by
  unfold State.noReturn
  try dsimp only
  repeat' (first | with_reducible exact h | with_reducible assumption | with_reducible apply State.allStale_kept | with_reducible apply State.addSat_kept | with_reducible apply State.setFld_kept | with_reducible apply State.setLine_kept | with_reducible apply State.fire_kept | with_reducible apply Kept.ite | split | fail_if_no_progress (with_reducible apply Kept.lit))

theorem State.nodeFresh_kept {r s : State} (h : Kept r s) (l : Nat) (x : LineCycle) (c : BitVec 32) (rtt : Nat) (f : SegReturn) : Kept r (State.nodeFresh s l x c rtt f) := by
  unfold State.nodeFresh
  try dsimp only
  repeat' (first | with_reducible exact h | with_reducible assumption | with_reducible apply State.setWord_kept | with_reducible apply Eff.jump_kept | with_reducible apply State.setLine_kept | with_reducible apply State.offBit_kept | with_reducible apply State.setFld_kept | with_reducible apply State.putBit_kept | with_reducible apply State.trace_kept | with_reducible refine fun _ _ => ?_ | with_reducible refine Kept.foldl (fun _ _ _ => ?_) _ ?_ | with_reducible apply Kept.ite | split | fail_if_no_progress (dsimp only) | fail_if_no_progress (with_reducible apply Kept.lit))

theorem State.goodReturn_kept {r s : State} (h : Kept r s) (l : Nat) (x : LineCycle) (f : LineReturn) : Kept r (State.goodReturn s l x f) := by
  unfold State.goodReturn
  try dsimp only
  repeat' (first | with_reducible exact h | with_reducible assumption | with_reducible apply State.nodeFresh_kept | with_reducible apply State.nodeStale_kept | with_reducible apply State.setReg_kept | with_reducible apply State.setFld_kept | with_reducible apply State.setLine_kept | with_reducible apply State.fire_kept | with_reducible refine fun _ _ => ?_ | with_reducible refine Kept.foldl (fun _ _ _ => ?_) _ ?_ | with_reducible refine Kept.fst (by assumption) ?_ | split | fail_if_no_progress (dsimp only) | fail_if_no_progress (with_reducible apply Kept.lit))

theorem State.seeEpoch_kept {r s : State} (h : Kept r s) (e : Nat) : Kept r (State.seeEpoch s e) := by
  unfold State.seeEpoch
  repeat' (first | with_reducible exact h | with_reducible assumption | with_reducible apply State.setFld_kept)

theorem State.deposed_kept {r s : State} (h : Kept r s) : Kept r (State.deposed s) := by
  unfold State.deposed
  repeat' (first | with_reducible exact h | with_reducible assumption | with_reducible apply Kept.ite | split | fail_if_no_progress (with_reducible apply Kept.lit))

theorem State.turnRound_kept {r s : State} (h : Kept r s) (l : Nat) (f : LineFrame) : Kept r (State.turnRound s l f) := by
  unfold State.turnRound
  repeat' (first | with_reducible exact h | with_reducible assumption | with_reducible apply State.emit_kept | with_reducible apply State.fresh_kept)

theorem State.returnReceive_kept {r s : State} (h : Kept r s) (l : Nat) (f : LineReturn) : Kept r (State.returnReceive s l f) := by
  unfold State.returnReceive
  try dsimp only
  repeat' (first | with_reducible exact h | with_reducible assumption | with_reducible apply State.seeEpoch_kept | with_reducible apply State.setLine_kept | with_reducible apply State.turnRound_kept | with_reducible apply State.setFld_kept | with_reducible apply State.deposed_kept | with_reducible apply State.goodReturn_kept | with_reducible refine Kept.fst (by assumption) ?_ | with_reducible apply Kept.ite | split | fail_if_no_progress (with_reducible apply Kept.lit))

theorem State.beginCycle_kept {r s : State} (h : Kept r s) (l : Nat) (x : LineCycle) : Kept r (State.beginCycle s l x) := by
  unfold State.beginCycle
  try dsimp only
  repeat' (first | with_reducible exact h | with_reducible assumption | with_reducible apply State.emit_kept | with_reducible apply State.setFld_kept | with_reducible apply State.setB_kept | with_reducible apply State.setLine_kept | with_reducible apply Kept.ite | split | fail_if_no_progress (with_reducible apply Kept.lit))

theorem State.cycleStart_kept {r s : State} (h : Kept r s) (l : Nat) : Kept r (State.cycleStart s l) := by
  unfold State.cycleStart
  try dsimp only
  repeat' (first | with_reducible exact h | with_reducible assumption | with_reducible apply State.noReturn_kept | with_reducible apply State.assemble_kept | with_reducible apply State.beginCycle_kept | with_reducible refine Kept.fst (by assumption) ?_ | with_reducible apply Kept.ite | split | fail_if_no_progress (with_reducible apply Kept.lit))

theorem State.lineApply_kept {r s : State} (h : Kept r s) (old : State) (l : Nat) : Kept r (State.lineApply old s l) := by
  unfold State.lineApply
  try dsimp only
  repeat' (first | with_reducible exact h | with_reducible assumption | with_reducible apply State.setLine_kept | with_reducible apply State.setFld_kept | with_reducible apply Kept.ite | split | fail_if_no_progress (with_reducible apply Kept.lit))

theorem State.setEpoch_kept {r s : State} (h : Kept r s) (e : Nat) : Kept r (State.setEpoch s e) := by
  unfold State.setEpoch
  try dsimp only
  repeat' (first | with_reducible exact h | with_reducible assumption | with_reducible apply State.setFld_kept | with_reducible refine fun _ _ => ?_ | with_reducible refine Kept.foldl (fun _ _ _ => ?_) _ ?_ | with_reducible apply Kept.ite | split | fail_if_no_progress (dsimp only))

theorem State.setNode_kept {r s : State} (h : Kept r s) (l : Nat) (k : Nat) (x : Node) : Kept r (State.setNode s l k x) := by
  unfold State.setNode
  repeat' (first | with_reducible exact h | with_reducible assumption | fail_if_no_progress (with_reducible apply Kept.lit))

theorem State.nodeSends_kept {r s : State} (h : Kept r s) (l : Nat) (k : Nat) (data : Bool) (f : LineFrame) (bytes : List Nat) : Kept r (State.nodeSends s l k data f bytes) :=
  Kept.lit h

theorem State.nodeData_kept {r s : State} (h : Kept r s) (l : Nat) (k : Nat) (f : LineFrame) (loop : Nat) (aux : Nat) (nfault : Nat) : Kept r (State.nodeData s l k f loop aux nfault) := by
  unfold State.nodeData
  try dsimp only
  repeat' (first | with_reducible exact h | with_reducible assumption | with_reducible apply State.setNode_kept | with_reducible apply State.nodeSends_kept | with_reducible refine fun _ _ => ?_ | with_reducible refine Kept.fst (by assumption) ?_ | with_reducible apply Kept.ite | split | fail_if_no_progress (with_reducible apply Kept.lit))

theorem State.nodeTimed_kept {r s : State} (h : Kept r s) (l : Nat) (k : Nat) (f : LineFrame) : Kept r (State.nodeTimed s l k f) := by
  unfold State.nodeTimed
  try dsimp only
  repeat' (first | with_reducible exact h | with_reducible assumption | with_reducible apply State.setNode_kept | with_reducible apply State.nodeSends_kept | with_reducible apply Kept.ite | split | fail_if_no_progress (with_reducible apply Kept.lit))

theorem State.nodeMarks_kept {r s : State} (h : Kept r s) (l : Nat) (k : Nat) : Kept r (State.nodeMarks s l k) :=
  Kept.lit h

theorem State.nodeMark_kept {r s : State} (h : Kept r s) (l : Nat) (k : Nat) (good : Bool) (down : Bool) : Kept r (State.nodeMark s l k good down) := by
  unfold State.nodeMark
  try dsimp only
  repeat' (first | with_reducible exact h | with_reducible assumption | with_reducible apply State.setNode_kept | with_reducible apply State.nodeMarks_kept | with_reducible apply State.arm_kept | with_reducible refine Kept.fst (by assumption) ?_ | with_reducible apply Kept.ite | split | fail_if_no_progress (with_reducible apply Kept.lit))

theorem State.nodeFiring_kept {r s : State} (h : Kept r s) (l : Nat) (k : Nat) : Kept r (State.nodeFiring s l k) := by
  unfold State.nodeFiring
  try dsimp only
  repeat' (first | with_reducible exact h | with_reducible assumption | with_reducible apply State.setNode_kept | with_reducible refine fun _ _ => ?_ | with_reducible refine Kept.foldl (fun _ _ _ => ?_) _ ?_ | with_reducible refine Kept.fst (by assumption) ?_ | with_reducible apply Kept.ite | split | fail_if_no_progress (dsimp only) | fail_if_no_progress (with_reducible apply Kept.lit))

theorem State.nodePulseEnd_kept {r s : State} (h : Kept r s) (l : Nat) (k : Nat) : Kept r (State.nodePulseEnd s l k) := by
  unfold State.nodePulseEnd
  try dsimp only
  repeat' (first | with_reducible exact h | with_reducible assumption | with_reducible apply State.setNode_kept | with_reducible refine fun _ _ => ?_ | with_reducible refine Kept.foldl (fun _ _ _ => ?_) _ ?_ | with_reducible refine Kept.fst (by assumption) ?_ | with_reducible apply Kept.ite | split | fail_if_no_progress (dsimp only) | fail_if_no_progress (with_reducible apply Kept.lit))

theorem State.nodeLock_kept {r s : State} (h : Kept r s) (l : Nat) (k : Nat) : Kept r (State.nodeLock s l k) := by
  unfold State.nodeLock
  try dsimp only
  repeat' (first | with_reducible exact h | with_reducible assumption | with_reducible apply State.setNode_kept | with_reducible apply Kept.ite | split)

theorem State.nodeLost_kept {r s : State} (h : Kept r s) (l : Nat) (k : Nat) : Kept r (State.nodeLost s l k) := by
  unfold State.nodeLost
  repeat' (first | with_reducible exact h | with_reducible assumption | with_reducible apply State.setNode_kept | fail_if_no_progress (with_reducible apply Kept.lit))

theorem State.nodeTimeout_kept {r s : State} (h : Kept r s) (l : Nat) (k : Nat) : Kept r (State.nodeTimeout s l k) := by
  unfold State.nodeTimeout
  try dsimp only
  repeat' (first | with_reducible exact h | with_reducible assumption | with_reducible apply State.setNode_kept | with_reducible apply Kept.ite | split)

theorem State.nodeRelease_kept {r s : State} (h : Kept r s) (l : Nat) (k : Nat) : Kept r (State.nodeRelease s l k) := by
  unfold State.nodeRelease
  repeat' (first | with_reducible exact h | with_reducible assumption | with_reducible apply State.setNode_kept | fail_if_no_progress (with_reducible apply Kept.lit))

theorem execAssembly_kept (s : State) (l : Fin 8) : ∀ t', execAssembly l s = .next t' → Kept s t' := by
  intro _ e; cases e; refine settle_keeps _ ?_
  repeat' (first | with_reducible exact Kept.refl _ | with_reducible apply State.assembly_kept)

theorem execCycleStart_kept (s : State) (l : Fin 8) : ∀ t', execCycleStart l s = .next t' → Kept s t' := by
  intro _ e; cases e; refine settle_keeps _ ?_
  repeat' (first | with_reducible exact Kept.refl _ | with_reducible apply State.cycleStart_kept)

theorem execReturnReceive_kept (s : State) (l : Fin 8) (f : LineReturn) : ∀ t', execReturnReceive l f s = .next t' → Kept s t' := by
  intro _ e; cases e; refine settle_keeps _ ?_
  repeat' (first | with_reducible exact Kept.refl _ | with_reducible apply State.returnReceive_kept)

theorem execNodeSymbolLock_kept (s : State) (l : Fin 8) (k : Fin 32) : ∀ t', execNodeSymbolLock l k s = .next t' → Kept s t' := by
  intro _ e; cases e; refine settle_keeps _ ?_
  repeat' (first | with_reducible exact Kept.refl _ | with_reducible apply State.nodeLock_kept)

theorem execNodeLockLoss_kept (s : State) (l : Fin 8) (k : Fin 32) : ∀ t', execNodeLockLoss l k s = .next t' → Kept s t' := by
  intro _ e; cases e; refine settle_keeps _ ?_
  repeat' (first | with_reducible exact Kept.refl _ | with_reducible apply State.nodeLost_kept)

theorem execNodeDataFrame_kept (s : State) (l : Fin 8) (k : Fin 32) (f : LineFrame) (loop : Nat) (aux : Nat) (nfault : Nat) : ∀ t', execNodeDataFrame l k f loop aux nfault s = .next t' → Kept s t' := by
  intro _ e; cases e; refine settle_keeps _ ?_
  repeat' (first | with_reducible exact Kept.refl _ | with_reducible apply State.nodeData_kept)

theorem execNodeTimedFrame_kept (s : State) (l : Fin 8) (k : Fin 32) (f : LineFrame) : ∀ t', execNodeTimedFrame l k f s = .next t' → Kept s t' := by
  intro _ e; cases e; refine settle_keeps _ ?_
  repeat' (first | with_reducible exact Kept.refl _ | with_reducible apply State.nodeTimed_kept)

theorem execNodeMark_kept (s : State) (l : Fin 8) (k : Fin 32) (good : Bool) (down : Bool) : ∀ t', execNodeMark l k good down s = .next t' → Kept s t' := by
  intro _ e; cases e; refine settle_keeps _ ?_
  repeat' (first | with_reducible exact Kept.refl _ | with_reducible apply State.nodeMark_kept)

theorem execNodeFiring_kept (s : State) (l : Fin 8) (k : Fin 32) : ∀ t', execNodeFiring l k s = .next t' → Kept s t' := by
  intro _ e; cases e; refine settle_keeps _ ?_
  repeat' (first | with_reducible exact Kept.refl _ | with_reducible apply State.nodeFiring_kept)

theorem execNodePulseEnd_kept (s : State) (l : Fin 8) (k : Fin 32) : ∀ t', execNodePulseEnd l k s = .next t' → Kept s t' := by
  intro _ e; cases e; refine settle_keeps _ ?_
  repeat' (first | with_reducible exact Kept.refl _ | with_reducible apply State.nodePulseEnd_kept)

theorem execNodeTimeout_kept (s : State) (l : Fin 8) (k : Fin 32) : ∀ t', execNodeTimeout l k s = .next t' → Kept s t' := by
  intro _ e; cases e; refine settle_keeps _ ?_
  repeat' (first | with_reducible exact Kept.refl _ | with_reducible apply State.nodeTimeout_kept)

theorem execNodeEpochRelease_kept (s : State) (l : Fin 8) (k : Fin 32) : ∀ t', execNodeEpochRelease l k s = .next t' → Kept s t' := by
  intro _ e; cases e; refine settle_keeps _ ?_
  repeat' (first | with_reducible exact Kept.refl _ | with_reducible apply State.nodeRelease_kept)

end Sys2Proof.Machine
end

