-- ==== Sys2Proof/Laws/KeptPair.lean ====
section
/-! SUPPORT. What the operations of Machine/Pair.lean keep. -/

set_option linter.unusedTactic false
set_option linter.unreachableTactic false
set_option linter.unusedVariables false

namespace Sys2Proof.Machine

theorem State.withPair_kept {r s : State} (h : Kept r s) (f : Pair → Pair) : Kept r (State.withPair s f) := by
  unfold State.withPair
  repeat' (first | with_reducible exact h | with_reducible assumption | fail_if_no_progress (with_reducible apply Kept.lit))

theorem State.dropAlive_kept {r s : State} (h : Kept r s) : Kept r (State.dropAlive s) := by
  unfold State.dropAlive
  try dsimp only
  repeat' (first | with_reducible exact h | with_reducible assumption | with_reducible apply State.withPair_kept | with_reducible refine fun _ _ => ?_ | with_reducible apply Kept.ite | split | fail_if_no_progress (with_reducible apply Kept.lit))

theorem State.setRole_kept {r0 s : State} (h : Kept r0 s) (r : Nat) : Kept r0 (State.setRole s r) := by
  unfold State.setRole
  try dsimp only
  repeat' (first | with_reducible exact h | with_reducible assumption | with_reducible apply State.setFld_kept | with_reducible apply State.dacForce_kept | with_reducible refine Kept.foldl (fun _ _ _ => ?_) _ ?_ | with_reducible apply Kept.ite | split | fail_if_no_progress (dsimp only) | fail_if_no_progress (with_reducible apply Kept.lit))

theorem State.stopReplay_kept {r s : State} (h : Kept r s) : Kept r (State.stopReplay s) := by
  unfold State.stopReplay
  try dsimp only
  repeat' (first | with_reducible exact h | with_reducible assumption | with_reducible apply State.setEng_kept | with_reducible refine fun _ _ => ?_ | with_reducible refine Kept.foldl (fun _ _ _ => ?_) _ ?_ | with_reducible refine Kept.fst (by assumption) ?_ | with_reducible apply Kept.ite | split | fail_if_no_progress (dsimp only) | fail_if_no_progress (with_reducible apply Kept.lit))

theorem State.dropChans_kept {r s : State} (h : Kept r s) : Kept r (State.dropChans s) := by
  unfold State.dropChans
  try dsimp only
  repeat' (first | with_reducible exact h | with_reducible assumption | with_reducible apply State.cancelOwned_kept | with_reducible apply State.freeSlot_kept | with_reducible refine fun _ _ => ?_ | with_reducible refine Kept.foldl (fun _ _ _ => ?_) _ ?_ | with_reducible apply Kept.ite | split | fail_if_no_progress (dsimp only) | fail_if_no_progress (with_reducible apply Kept.lit))

theorem State.enterSeek_kept {r s : State} (h : Kept r s) : Kept r (State.enterSeek s) := by
  unfold State.enterSeek
  try dsimp only
  repeat' (first | with_reducible exact h | with_reducible assumption | with_reducible apply State.stopReplay_kept | with_reducible apply State.dropChans_kept | with_reducible apply State.withPair_kept | with_reducible apply State.setRole_kept | with_reducible refine fun _ _ => ?_ | fail_if_no_progress (with_reducible apply Kept.lit))

theorem State.joinRole_kept {r s : State} (h : Kept r s) : Kept r (State.joinRole s) := by
  unfold State.joinRole
  try dsimp only
  repeat' (first | with_reducible exact h | with_reducible assumption | with_reducible apply State.stopReplay_kept | with_reducible apply State.withPair_kept | with_reducible apply State.setRole_kept | with_reducible refine fun _ _ => ?_ | fail_if_no_progress (with_reducible apply Kept.lit))

theorem State.startJoin_kept {r s : State} (h : Kept r s) : Kept r (State.startJoin s) := by
  unfold State.startJoin
  try dsimp only
  repeat' (first | with_reducible exact h | with_reducible assumption | with_reducible apply State.storeEmpty_kept | with_reducible apply State.dropChans_kept | with_reducible apply State.joinRole_kept | with_reducible refine fun _ _ => ?_ | with_reducible refine Kept.foldl (fun _ _ _ => ?_) _ ?_ | fail_if_no_progress (dsimp only) | fail_if_no_progress (with_reducible apply Kept.lit))

theorem State.desync_kept {r s : State} (h : Kept r s) : Kept r (State.desync s) := by
  unfold State.desync
  try dsimp only
  repeat' (first | with_reducible exact h | with_reducible assumption | with_reducible apply State.setFld_kept | with_reducible apply State.addSat_kept | with_reducible apply State.startJoin_kept | with_reducible apply State.stopReplay_kept | with_reducible apply State.withPair_kept | with_reducible apply State.setRole_kept | with_reducible refine fun _ _ => ?_ | with_reducible apply Kept.ite | split | fail_if_no_progress (with_reducible apply Kept.lit))

theorem State.takeEpoch_kept {r s : State} (h : Kept r s) : Kept r (State.takeEpoch s) := by
  unfold State.takeEpoch
  try dsimp only
  repeat' (first | with_reducible exact h | with_reducible assumption | with_reducible apply State.withPair_kept | with_reducible apply State.setEpoch_kept | with_reducible refine fun _ _ => ?_ | with_reducible apply Kept.ite | split | fail_if_no_progress (with_reducible apply Kept.lit))

theorem State.silenceEnd_kept {r s : State} (h : Kept r s) : Kept r (State.silenceEnd s) := by
  unfold State.silenceEnd
  try dsimp only
  repeat' (first | with_reducible exact h | with_reducible assumption | with_reducible apply State.withPair_kept | with_reducible apply State.setEpoch_kept | with_reducible refine fun _ _ => ?_ | with_reducible refine Kept.fst (by assumption) ?_ | with_reducible apply Kept.ite | split | fail_if_no_progress (with_reducible apply Kept.lit))

theorem State.enterLone_kept {r s : State} (h : Kept r s) : Kept r (State.enterLone s) := by
  unfold State.enterLone
  try dsimp only
  repeat' (first | with_reducible exact h | with_reducible assumption | with_reducible apply State.dropChans_kept | with_reducible apply State.withPair_kept | with_reducible apply State.takeEpoch_kept | with_reducible apply State.setRole_kept | with_reducible refine fun _ _ => ?_ | fail_if_no_progress (with_reducible apply Kept.lit))

theorem State.arrive_kept {r s : State} (h : Kept r s) (rx : PacketRx) (take : Bool → State → State)
    (ht : ∀ b x, Kept r x → Kept r (take b x)) : Kept r (State.arrive s rx take) := by
  unfold State.arrive
  dsimp only
  repeat' (first | with_reducible exact h | with_reducible assumption | with_reducible apply ht | with_reducible apply State.withPair_kept | with_reducible apply State.setFld_kept | with_reducible apply State.addSat_kept | with_reducible apply State.startJoin_kept | with_reducible apply Kept.ite | split | fail_if_no_progress (with_reducible apply Kept.lit))

theorem State.damagedMirror_kept {r s : State} (h : Kept r s) : Kept r (State.damagedMirror s) := by
  unfold State.damagedMirror
  repeat' (first | with_reducible exact h | with_reducible assumption | with_reducible apply State.desync_kept | with_reducible apply Kept.ite | split)

theorem State.mirrorStore_kept {r s : State} (h : Kept r s) (a : Nat) (size : Nat) (v : Nat) (coll : Bool) : Kept r (State.mirrorStore s a size v coll) := by
  unfold State.mirrorStore
  try dsimp only
  repeat' (first | with_reducible exact h | with_reducible assumption | with_reducible apply State.collide_kept | with_reducible apply State.regionWrite_kept | with_reducible refine Kept.fst (by assumption) ?_ | with_reducible apply Kept.ite | split | fail_if_no_progress (with_reducible apply Kept.lit))

theorem State.mirrorWrite_kept {r s : State} (h : Kept r s) (a : Nat) (size : Nat) (v : Word) (coll : Bool) : Kept r (State.mirrorWrite s a size v coll) := by
  unfold State.mirrorWrite
  try dsimp only
  repeat' (first | with_reducible exact h | with_reducible assumption | with_reducible apply State.mirrorStore_kept | with_reducible apply State.gpioOp_kept | with_reducible apply State.setReg_kept | with_reducible apply State.mbxTofab_kept | with_reducible apply State.setFld_kept | with_reducible refine Kept.fst (by assumption) ?_ | with_reducible apply Kept.ite | split | fail_if_no_progress (with_reducible apply Kept.lit))

theorem State.writePacket_kept {r s : State} (h : Kept r s) (good : Bool) (a : Nat) (size : Nat) (v : Word) (coll : Bool) : Kept r (State.writePacket s good a size v coll) := by
  unfold State.writePacket
  repeat' (first | with_reducible exact h | with_reducible assumption | with_reducible apply State.damagedMirror_kept | with_reducible apply State.mirrorWrite_kept | with_reducible apply Kept.ite | split)

theorem State.sessionPacket_kept {r s : State} (h : Kept r s) (good : Bool) (p : SessionPacket) : Kept r (State.sessionPacket s good p) := by
  unfold State.sessionPacket
  try dsimp only
  repeat' (first | with_reducible exact h | with_reducible assumption | with_reducible apply State.damagedMirror_kept | with_reducible apply State.stage_kept | with_reducible apply State.withPair_kept | with_reducible refine fun _ _ => ?_ | with_reducible refine Kept.fst (by assumption) ?_ | with_reducible apply Kept.ite | split | fail_if_no_progress (with_reducible apply Kept.lit))

theorem State.strobeNow_kept {r s : State} (h : Kept r s) (regs : Table (Option Word)) : Kept r (State.strobeNow s regs) := by
  unfold State.strobeNow
  repeat' (first | with_reducible exact h | with_reducible assumption | fail_if_no_progress (with_reducible apply Kept.lit))

theorem State.slotTakes_kept {r s : State} (h : Kept r s) (p : AllocPacket) : Kept r (State.slotTakes s p) := by
  unfold State.slotTakes
  try dsimp only
  repeat' (first | with_reducible exact h | with_reducible assumption | with_reducible apply State.setChan_kept | with_reducible refine Kept.fst (by assumption) ?_ | with_reducible apply Kept.ite | split | fail_if_no_progress (with_reducible apply Kept.lit))

theorem State.allocPacket_kept {r s : State} (h : Kept r s) (good : Bool) (p : AllocPacket) : Kept r (State.allocPacket s good p) := by
  unfold State.allocPacket
  try dsimp only
  repeat' (first | with_reducible exact h | with_reducible assumption | with_reducible apply State.damagedMirror_kept | with_reducible apply State.withPair_kept | with_reducible refine fun _ _ => ?_ | with_reducible apply Kept.ite | split | fail_if_no_progress (with_reducible apply Kept.lit))

theorem State.takeAllocs_kept {r s : State} (h : Kept r s) (due : AllocPacket → Bool) : Kept r (State.takeAllocs s due) := by
  unfold State.takeAllocs
  try dsimp only
  repeat' (first | with_reducible exact h | with_reducible assumption | with_reducible apply State.slotTakes_kept | with_reducible apply State.withPair_kept | with_reducible refine fun _ _ => ?_ | with_reducible refine Kept.foldl (fun _ _ _ => ?_) _ ?_ | fail_if_no_progress (dsimp only) | fail_if_no_progress (with_reducible apply Kept.lit))

theorem State.allocsDue_kept {r s : State} (h : Kept r s) (m : BitVec 48) : Kept r (State.allocsDue s m) := by
  unfold State.allocsDue
  try dsimp only
  repeat' (first | with_reducible exact h | with_reducible assumption | with_reducible apply State.takeAllocs_kept | with_reducible refine fun _ _ => ?_)

theorem State.refreshPacket_kept {r s : State} (h : Kept r s) (good : Bool) (p : RefreshPacket) : Kept r (State.refreshPacket s good p) := by
  unfold State.refreshPacket
  try dsimp only
  repeat' (first | with_reducible exact h | with_reducible assumption | with_reducible apply State.withPair_kept | with_reducible refine fun _ _ => ?_ | with_reducible apply Kept.ite | split | fail_if_no_progress (with_reducible apply Kept.lit))

theorem State.mirrorWords_kept {r s : State} (h : Kept r s) (a : Nat) (ws : List Word) : Kept r (State.mirrorWords s a ws) := by
  unfold State.mirrorWords
  try dsimp only
  repeat' (first | with_reducible exact h | with_reducible assumption | with_reducible apply State.setWord_kept | with_reducible apply State.mirrorStore_kept | with_reducible refine fun _ _ => ?_ | with_reducible refine Kept.foldl (fun _ _ _ => ?_) _ ?_ | with_reducible apply Kept.ite | split | fail_if_no_progress (dsimp only))

theorem State.bulkPacket_kept {r s : State} (h : Kept r s) (good : Bool) (p : BulkItem) (left : Nat) : Kept r (State.bulkPacket s good p left) := by
  unfold State.bulkPacket
  try dsimp only
  repeat' (first | with_reducible exact h | with_reducible assumption | with_reducible apply State.startJoin_kept | with_reducible apply State.setFld_kept | with_reducible apply State.mirrorWords_kept | with_reducible apply State.setReg_kept | with_reducible apply State.withPair_kept | with_reducible apply State.post_kept | with_reducible refine fun _ _ => ?_ | with_reducible refine Kept.fst (by assumption) ?_ | with_reducible apply Kept.ite | split | fail_if_no_progress (with_reducible apply Kept.lit))

theorem State.syncTick_kept {r s : State} (h : Kept r s) (now : BitVec 64) (tick : BitVec 48) (banks : List RefreshPacket) : Kept r (State.syncTick s now tick banks) := by
  unfold State.syncTick
  try dsimp only
  repeat' (first | with_reducible exact h | with_reducible assumption | with_reducible apply State.loadRefresh_kept | with_reducible apply State.sendTick_kept | with_reducible apply State.takeAllocs_kept | with_reducible apply State.withPair_kept | with_reducible refine fun _ _ => ?_ | with_reducible refine Kept.foldl (fun _ _ _ => ?_) _ ?_ | with_reducible apply Kept.ite | split | fail_if_no_progress (dsimp only) | fail_if_no_progress (with_reducible apply Kept.lit))

theorem State.joinComplete_kept {r s : State} (h : Kept r s) : Kept r (State.joinComplete s) := by
  unfold State.joinComplete
  try dsimp only
  repeat' (first | with_reducible exact h | with_reducible assumption | with_reducible apply State.withPair_kept | with_reducible apply State.setRole_kept | with_reducible apply State.setFld_kept | with_reducible apply State.addSat_kept | with_reducible refine fun _ _ => ?_ | with_reducible apply Kept.ite | split | fail_if_no_progress (with_reducible apply Kept.lit))

theorem State.heartbeat_kept {r s : State} (h : Kept r s) (own : Bool) : Kept r (State.heartbeat s own) := by
  unfold State.heartbeat
  try dsimp only
  repeat' (first | with_reducible exact h | with_reducible assumption | with_reducible apply State.setFld_kept | with_reducible apply State.withPair_kept | with_reducible refine fun _ _ => ?_ | fail_if_no_progress (with_reducible apply Kept.lit))

theorem State.seekMeets_kept {r s : State} (h : Kept r s) (role : Nat) (side : Bool) (image : Word) : Kept r (State.seekMeets s role side image) := by
  unfold State.seekMeets
  try dsimp only
  repeat' (first | with_reducible exact h | with_reducible assumption | with_reducible apply State.setFld_kept | with_reducible apply State.startJoin_kept | with_reducible apply State.enterLone_kept | with_reducible refine Kept.fst (by assumption) ?_ | with_reducible apply Kept.ite | split)

theorem State.divergeAll_kept {r s : State} (h : Kept r s) (ts : List Nat) : Kept r (State.divergeAll s ts) := by
  unfold State.divergeAll
  repeat' (first | with_reducible exact h | with_reducible assumption | with_reducible apply State.diverge_kept | with_reducible refine Kept.foldl (fun _ _ _ => ?_) _ ?_ | fail_if_no_progress (dsimp only))

theorem State.tickPacket_kept {r s : State} (h : Kept r s) (good : Bool) (p : TickPacket) : Kept r (State.tickPacket s good p) := by
  unfold State.tickPacket
  try dsimp only
  repeat' (first | with_reducible exact h | with_reducible assumption | with_reducible apply State.divergeAll_kept | with_reducible apply State.seeEpoch_kept | with_reducible apply State.setEpoch_kept | with_reducible apply State.seekMeets_kept | with_reducible apply State.deposed_kept | with_reducible apply State.heartbeat_kept | with_reducible apply State.desync_kept | with_reducible apply State.withPair_kept | with_reducible apply State.setFld_kept | with_reducible refine fun _ _ => ?_ | with_reducible refine Kept.fst (by assumption) ?_ | with_reducible apply Kept.ite | split | fail_if_no_progress (with_reducible apply Kept.lit))

theorem State.logPacket_kept {r s : State} (h : Kept r s) (good : Bool) (p : LogPacket) : Kept r (State.logPacket s good p) := by
  unfold State.logPacket
  try dsimp only
  repeat' (first | with_reducible exact h | with_reducible assumption | with_reducible apply State.diverge_kept | with_reducible apply State.withPair_kept | with_reducible refine fun _ _ => ?_ | with_reducible apply Kept.ite | split | fail_if_no_progress (with_reducible apply Kept.lit))

theorem State.partnerLeft_kept {r s : State} (h : Kept r s) (lost : Bool) : Kept r (State.partnerLeft s lost) := by
  unfold State.partnerLeft
  try dsimp only
  repeat' (first | with_reducible exact h | with_reducible assumption | with_reducible apply State.withPair_kept | with_reducible apply State.setRole_kept | with_reducible apply State.setFld_kept | with_reducible refine fun _ _ => ?_ | with_reducible apply Kept.ite | split | fail_if_no_progress (with_reducible apply Kept.lit))

theorem State.statusPacket_kept {r s : State} (h : Kept r s) (good : Bool) (p : StatusPacket) : Kept r (State.statusPacket s good p) := by
  unfold State.statusPacket
  try dsimp only
  repeat' (first | with_reducible exact h | with_reducible assumption | with_reducible apply State.setFld_kept | with_reducible apply State.withPair_kept | with_reducible apply State.heartbeat_kept | with_reducible apply State.partnerLeft_kept | with_reducible apply State.setRole_kept | with_reducible apply State.addSat_kept | with_reducible refine fun _ _ => ?_ | with_reducible apply Kept.ite | split | fail_if_no_progress (with_reducible apply Kept.lit))

theorem State.helloPacket_kept {r s : State} (h : Kept r s) (good : Bool) (p : HelloPacket) : Kept r (State.helloPacket s good p) := by
  unfold State.helloPacket
  try dsimp only
  repeat' (first | with_reducible exact h | with_reducible assumption | with_reducible apply State.seeEpoch_kept | with_reducible apply State.setFld_kept | with_reducible apply State.seekMeets_kept | with_reducible apply State.partnerLeft_kept | with_reducible apply Kept.ite | split)

theorem State.helloSend_kept {r s : State} (h : Kept r s) : Kept r (State.helloSend s) := by
  unfold State.helloSend
  repeat' (first | with_reducible exact h | with_reducible assumption | with_reducible apply State.sendPackets_kept | with_reducible apply Kept.ite | split)

theorem State.lossCheck_kept {r s : State} (h : Kept r s) : Kept r (State.lossCheck s) := by
  unfold State.lossCheck
  try dsimp only
  repeat' (first | with_reducible exact h | with_reducible assumption | with_reducible apply State.enterSeek_kept | with_reducible apply State.setFld_kept | with_reducible apply State.withPair_kept | with_reducible apply State.partnerLeft_kept | with_reducible refine fun _ _ => ?_ | with_reducible refine Kept.fst (by assumption) ?_ | with_reducible apply Kept.ite | split | fail_if_no_progress (with_reducible apply Kept.lit))

theorem State.heartbeatCheck_kept {r s : State} (h : Kept r s) : Kept r (State.heartbeatCheck s) := by
  unfold State.heartbeatCheck
  try dsimp only
  repeat' (first | with_reducible exact h | with_reducible assumption | with_reducible apply State.advance_kept | with_reducible apply State.withPair_kept | with_reducible apply State.addSat_kept | with_reducible apply State.lossCheck_kept | with_reducible refine fun _ _ => ?_ | with_reducible apply Kept.ite | split | fail_if_no_progress (with_reducible apply Kept.lit))

theorem State.aliveToggle_kept {r s : State} (h : Kept r s) : Kept r (State.aliveToggle s) := by
  unfold State.aliveToggle
  try dsimp only
  repeat' (first | with_reducible exact h | with_reducible assumption | with_reducible apply State.withPair_kept | with_reducible refine fun _ _ => ?_ | fail_if_no_progress (with_reducible apply Kept.lit))

theorem State.aliveIn_kept {r s : State} (h : Kept r s) : Kept r (State.aliveIn s) := by
  unfold State.aliveIn
  try dsimp only
  repeat' (first | with_reducible exact h | with_reducible assumption | with_reducible apply State.withPair_kept | with_reducible apply State.setFld_kept | with_reducible refine fun _ _ => ?_ | fail_if_no_progress (with_reducible apply Kept.lit))

theorem State.partnerStatic_kept {r s : State} (h : Kept r s) : Kept r (State.partnerStatic s) := by
  unfold State.partnerStatic
  try dsimp only
  repeat' (first | with_reducible exact h | with_reducible assumption | with_reducible apply State.withPair_kept | with_reducible apply State.setFld_kept | with_reducible apply State.lossCheck_kept | with_reducible refine fun _ _ => ?_ | with_reducible apply Kept.ite | split | fail_if_no_progress (with_reducible apply Kept.lit))

theorem State.seekTimeout_kept {r s : State} (h : Kept r s) : Kept r (State.seekTimeout s) := by
  unfold State.seekTimeout
  repeat' (first | with_reducible exact h | with_reducible assumption | with_reducible apply State.enterLone_kept | with_reducible apply Kept.ite | split)

theorem State.replayAct_kept {r s : State} (h : Kept r s) (p : LogPacket × BitVec 64) (a : LogAct) (rest : List LogAct) (late : Bool) : Kept r (State.replayAct s p a rest late) := by
  unfold State.replayAct
  try dsimp only
  repeat' (first | with_reducible exact h | with_reducible assumption | with_reducible apply State.withPair_kept | with_reducible apply State.setChan_kept | with_reducible apply State.diverge_kept | with_reducible apply State.setAct_kept | with_reducible apply State.preempt_kept | with_reducible refine fun _ _ => ?_ | with_reducible apply Kept.ite | split | fail_if_no_progress (with_reducible apply Kept.lit))

theorem State.replay_kept {r s : State} (h : Kept r s) (t : Nat) : Kept r (State.replay s t) := by
  unfold State.replay
  try dsimp only
  repeat' (first | with_reducible exact h | with_reducible assumption | with_reducible apply State.replayAct_kept | with_reducible refine fun _ _ => ?_ | with_reducible refine Kept.fst (by assumption) ?_ | with_reducible apply Kept.ite | split | fail_if_no_progress (with_reducible apply Kept.lit))

theorem State.clearInputs_kept {r s : State} (h : Kept r s) : Kept r (State.clearInputs s) := by
  unfold State.clearInputs
  try dsimp only
  repeat' (first | with_reducible exact h | with_reducible assumption | with_reducible apply State.setChan_kept | with_reducible apply State.fresh_kept | with_reducible apply State.setCap_kept | with_reducible refine fun _ _ => ?_ | with_reducible refine Kept.foldl (fun _ _ _ => ?_) _ ?_ | with_reducible apply Kept.ite | split | fail_if_no_progress (dsimp only) | fail_if_no_progress (with_reducible apply Kept.lit))

theorem State.firstFrame_kept {r s : State} (h : Kept r s) (l : Nat) : Kept r (State.firstFrame s l) := by
  unfold State.firstFrame
  try dsimp only
  repeat' (first | with_reducible exact h | with_reducible assumption | with_reducible apply State.assemble_kept | with_reducible apply Kept.ite | split)

theorem State.takeLines_kept {r s : State} (h : Kept r s) : Kept r (State.takeLines s) := by
  unfold State.takeLines
  try dsimp only
  repeat' (first | with_reducible exact h | with_reducible assumption | with_reducible apply State.firstFrame_kept | with_reducible apply State.addSat_kept | with_reducible apply State.setLine_kept | with_reducible refine fun _ _ => ?_ | with_reducible refine Kept.foldl (fun _ _ _ => ?_) _ ?_ | with_reducible refine Kept.fst (by assumption) ?_ | with_reducible apply Kept.ite | split | fail_if_no_progress (dsimp only) | fail_if_no_progress (with_reducible apply Kept.lit))

theorem State.replayStep_kept {r0 s : State} (h : Kept r0 s) (t : Nat) (r : BitVec 48) : Kept r0 (State.replayStep s t r) := by
  unfold State.replayStep
  try dsimp only
  repeat' (first | with_reducible exact h | with_reducible assumption | with_reducible apply State.activationEnd_kept | with_reducible apply State.readWord_kept | with_reducible apply State.issue_kept | with_reducible apply semOf_kept | with_reducible apply State.preempt_kept | with_reducible apply State.replayAct_kept | with_reducible refine fun _ _ => ?_ | with_reducible refine Kept.fst (by assumption) ?_ | with_reducible apply Kept.ite | split | fail_if_no_progress (with_reducible apply Kept.lit))

theorem State.replaySteps_kept {r s : State} (h : Kept r s) (t : Nat) (b : BitVec 48) (n : Nat) : Kept r (State.replaySteps t b n s) := by
  induction n generalizing s with
  | zero => exact h
  | succ n ih => exact ih (State.replayStep_kept h t b)

theorem State.replayTick_kept {r0 s : State} (h : Kept r0 s) (r : BitVec 48) : Kept r0 (State.replayTick s r) := by
  unfold State.replayTick
  try dsimp only
  repeat' (first | with_reducible exact h | with_reducible assumption | with_reducible apply State.allocsDue_kept | with_reducible apply State.replaySteps_kept | with_reducible apply State.takeRefreshes_kept | with_reducible refine fun _ _ => ?_ | with_reducible refine Kept.foldl (fun _ _ _ => ?_) _ ?_ | fail_if_no_progress (dsimp only))

theorem State.sessionFlush_kept {r s : State} (h : Kept r s) : Kept r (State.sessionFlush s) := by
  unfold State.sessionFlush
  try dsimp only
  repeat' (first | with_reducible exact h | with_reducible assumption | with_reducible apply State.strobeNow_kept | with_reducible refine fun _ _ => ?_ | with_reducible refine Kept.foldl (fun _ _ _ => ?_) _ ?_ | with_reducible apply Kept.ite | split | fail_if_no_progress (dsimp only))

theorem State.endReplay_kept {r s : State} (h : Kept r s) : Kept r (State.endReplay s) := by
  unfold State.endReplay
  try dsimp only
  repeat' (first | with_reducible exact h | with_reducible assumption | with_reducible apply State.replayTick_kept | with_reducible apply State.takeAllocs_kept | with_reducible apply State.sessionFlush_kept | with_reducible apply State.stopReplay_kept | with_reducible refine fun _ _ => ?_ | with_reducible refine Kept.foldl (fun _ _ _ => ?_) _ ?_ | fail_if_no_progress (dsimp only) | fail_if_no_progress (with_reducible apply Kept.lit))

theorem State.takeover_kept {r s : State} (h : Kept r s) : Kept r (State.takeover s) := by
  unfold State.takeover
  try dsimp only
  repeat' (first | with_reducible exact h | with_reducible assumption | with_reducible apply State.enterSeek_kept | with_reducible apply State.endReplay_kept | with_reducible apply State.withPair_kept | with_reducible apply State.setRole_kept | with_reducible apply State.clearInputs_kept | with_reducible apply State.takeEpoch_kept | with_reducible apply State.takeLines_kept | with_reducible apply State.fire_kept | with_reducible apply State.setFld_kept | with_reducible apply State.addSat_kept | with_reducible refine fun _ _ => ?_ | with_reducible refine Kept.fst (by assumption) ?_ | with_reducible apply Kept.ite | split | fail_if_no_progress (with_reducible apply Kept.lit))

theorem State.pairCtrl_kept {r s : State} (h : Kept r s) (v : Word) : Kept r (State.pairCtrl s v) := by
  unfold State.pairCtrl
  try dsimp only
  repeat' (first | with_reducible exact h | with_reducible assumption | with_reducible apply State.withPair_kept | with_reducible apply State.dropAlive_kept | with_reducible apply State.deposed_kept | with_reducible apply State.enterSeek_kept | with_reducible apply State.startJoin_kept | with_reducible refine fun _ _ => ?_ | with_reducible apply Kept.ite | split | fail_if_no_progress (with_reducible apply Kept.lit))

theorem State.deposeDue_kept {r s : State} (h : Kept r s) : Kept r (State.deposeDue s) := by
  unfold State.deposeDue
  try dsimp only
  repeat' (first | with_reducible exact h | with_reducible assumption | with_reducible apply State.withPair_kept | with_reducible apply State.setRole_kept | with_reducible apply State.setFld_kept | with_reducible apply State.dropAlive_kept | with_reducible refine fun _ _ => ?_ | with_reducible apply Kept.ite | split | fail_if_no_progress (with_reducible apply Kept.lit))

theorem State.markQueue_kept {r s : State} (h : Kept r s) : Kept r (State.markQueue s) := by
  unfold State.markQueue
  try dsimp only
  repeat' (first | with_reducible exact h | with_reducible assumption | with_reducible apply State.withPair_kept | with_reducible refine fun _ _ => ?_ | fail_if_no_progress (with_reducible apply Kept.lit))

theorem State.linkDown_kept {r s : State} (h : Kept r s) : Kept r (State.linkDown s) := by
  unfold State.linkDown
  repeat' (first | with_reducible exact h | with_reducible assumption | with_reducible apply State.markQueue_kept | with_reducible apply State.setFld_kept | with_reducible apply Kept.ite | split)

theorem State.linkUp_kept {r s : State} (h : Kept r s) (dly : Nat) : Kept r (State.linkUp s dly) := by
  unfold State.linkUp
  try dsimp only
  repeat' (first | with_reducible exact h | with_reducible assumption | with_reducible apply State.markQueue_kept | with_reducible apply State.setFld_kept | with_reducible apply State.withPair_kept | with_reducible apply State.startJoin_kept | with_reducible refine fun _ _ => ?_ | with_reducible apply Kept.ite | split | fail_if_no_progress (with_reducible apply Kept.lit))

theorem State.joinFreed_kept {r s : State} (h : Kept r s) : Kept r (State.joinFreed s) := by
  unfold State.joinFreed
  repeat' (first | with_reducible exact h | with_reducible assumption | with_reducible apply State.startJoin_kept | with_reducible apply Kept.ite | split)

theorem State.bulkRest_kept {r s : State} (h : Kept r s) : Kept r (State.bulkRest s) := by
  unfold State.bulkRest
  try dsimp only
  repeat' (first | with_reducible exact h | with_reducible assumption | with_reducible apply State.sendPackets_kept | with_reducible refine fun _ _ => ?_ | with_reducible refine Kept.foldl (fun _ _ _ => ?_) _ ?_ | fail_if_no_progress (dsimp only))

theorem State.sendBulk_kept {r s : State} (h : Kept r s) : Kept r (State.sendBulk s) := by
  unfold State.sendBulk
  try dsimp only
  repeat' (first | with_reducible exact h | with_reducible assumption | with_reducible apply State.withPair_kept | with_reducible apply State.bulkRest_kept | with_reducible apply State.sendPackets_kept | with_reducible apply State.setFld_kept | with_reducible refine fun _ _ => ?_ | with_reducible refine Kept.foldl (fun _ _ _ => ?_) _ ?_ | with_reducible apply Kept.ite | split | fail_if_no_progress (dsimp only) | fail_if_no_progress (with_reducible apply Kept.lit))

theorem State.ageEdge_kept {r s : State} (h : Kept r s) : Kept r (State.ageEdge s) := by
  unfold State.ageEdge
  try dsimp only
  repeat' (first | with_reducible exact h | with_reducible assumption | with_reducible apply State.withPair_kept | with_reducible apply State.setFld_kept | with_reducible refine fun _ _ => ?_ | with_reducible refine Kept.fst (by assumption) ?_ | with_reducible apply Kept.ite | split | fail_if_no_progress (with_reducible apply Kept.lit))

theorem State.sessionEdge_kept {r s : State} (h : Kept r s) : Kept r (State.sessionEdge s) := by
  unfold State.sessionEdge
  try dsimp only
  repeat' (first | with_reducible exact h | with_reducible assumption | with_reducible apply State.withPair_kept | with_reducible apply State.strobeNow_kept | with_reducible refine fun _ _ => ?_ | with_reducible refine Kept.foldl (fun _ _ _ => ?_) _ ?_ | with_reducible refine Kept.foldlFst (fun _ _ _ => ?_) _ ?_ | with_reducible apply Kept.ite | split | fail_if_no_progress (dsimp only) | fail_if_no_progress (with_reducible apply Kept.lit))

theorem State.pairSends_kept {r s : State} (h : Kept r s) : Kept r (State.pairSends s) := by
  unfold State.pairSends
  try dsimp only
  repeat' (first | with_reducible exact h | with_reducible assumption | with_reducible apply State.sendPackets_kept | with_reducible apply State.withPair_kept | with_reducible apply State.sendBulk_kept | with_reducible refine fun _ _ => ?_ | with_reducible apply Kept.ite | split | fail_if_no_progress (with_reducible apply Kept.lit))

theorem State.pairEdge_kept {r s : State} (h : Kept r s) : Kept r (State.pairEdge s) := by
  unfold State.pairEdge
  try dsimp only
  repeat' (first | with_reducible exact h | with_reducible assumption | with_reducible apply State.withPair_kept | with_reducible apply State.ageEdge_kept | with_reducible apply State.pairSends_kept | with_reducible apply State.allocsDue_kept | with_reducible apply State.sessionEdge_kept | with_reducible apply State.desync_kept | with_reducible refine fun _ _ => ?_ | with_reducible apply Kept.ite | split | fail_if_no_progress (with_reducible apply Kept.lit))

theorem execTickPacket_kept (s : State) (rx : PacketRx) (p : TickPacket) : ∀ t', execTickPacket rx p s = .next t' → Kept s t' := by
  intro _ e; cases e; refine settle_keeps _ ?_
  repeat' (first | with_reducible exact Kept.refl _ | with_reducible apply State.arrive_kept | with_reducible apply State.tickPacket_kept | with_reducible assumption | with_reducible refine fun _ _ _ _ => ?_ | with_reducible refine fun _ _ _ => ?_ | with_reducible refine fun _ _ => ?_ | fail_if_no_progress (dsimp only))

theorem execLogPacket_kept (s : State) (rx : PacketRx) (p : LogPacket) : ∀ t', execLogPacket rx p s = .next t' → Kept s t' := by
  intro _ e; cases e; refine settle_keeps _ ?_
  repeat' (first | with_reducible exact Kept.refl _ | with_reducible apply State.arrive_kept | with_reducible apply State.logPacket_kept | with_reducible assumption | with_reducible refine fun _ _ _ _ => ?_ | with_reducible refine fun _ _ _ => ?_ | with_reducible refine fun _ _ => ?_ | fail_if_no_progress (dsimp only))

theorem execWritePacket_kept (s : State) (rx : PacketRx) (a : Nat) (size : Nat) (v : BusWord) : ∀ t', execWritePacket rx a size v s = .next t' → Kept s t' := by
  intro _ e; cases e; refine settle_keeps _ ?_
  repeat' (first | with_reducible exact Kept.refl _ | with_reducible apply State.arrive_kept | with_reducible apply State.writePacket_kept | with_reducible assumption | with_reducible refine fun _ _ _ _ => ?_ | with_reducible refine fun _ _ _ => ?_ | with_reducible refine fun _ _ => ?_ | fail_if_no_progress (dsimp only))

theorem execSessionPacket_kept (s : State) (rx : PacketRx) (p : SessionPacket) : ∀ t', execSessionPacket rx p s = .next t' → Kept s t' := by
  intro _ e; cases e; refine settle_keeps _ ?_
  repeat' (first | with_reducible exact Kept.refl _ | with_reducible apply State.arrive_kept | with_reducible apply State.sessionPacket_kept | with_reducible assumption | with_reducible refine fun _ _ _ _ => ?_ | with_reducible refine fun _ _ _ => ?_ | with_reducible refine fun _ _ => ?_ | fail_if_no_progress (dsimp only))

theorem execAllocPacket_kept (s : State) (rx : PacketRx) (p : AllocPacket) : ∀ t', execAllocPacket rx p s = .next t' → Kept s t' := by
  intro _ e; cases e; refine settle_keeps _ ?_
  repeat' (first | with_reducible exact Kept.refl _ | with_reducible apply State.arrive_kept | with_reducible apply State.allocPacket_kept | with_reducible assumption | with_reducible refine fun _ _ _ _ => ?_ | with_reducible refine fun _ _ _ => ?_ | with_reducible refine fun _ _ => ?_ | fail_if_no_progress (dsimp only))

theorem execRefreshPacket_kept (s : State) (rx : PacketRx) (p : RefreshPacket) : ∀ t', execRefreshPacket rx p s = .next t' → Kept s t' := by
  intro _ e; cases e; refine settle_keeps _ ?_
  repeat' (first | with_reducible exact Kept.refl _ | with_reducible apply State.arrive_kept | with_reducible apply State.refreshPacket_kept | with_reducible assumption | with_reducible refine fun _ _ _ _ => ?_ | with_reducible refine fun _ _ _ => ?_ | with_reducible refine fun _ _ => ?_ | fail_if_no_progress (dsimp only))

theorem execBulkPacket_kept (s : State) (rx : PacketRx) (p : BulkItem) (left : Nat) : ∀ t', execBulkPacket rx p left s = .next t' → Kept s t' := by
  intro _ e; cases e; refine settle_keeps _ ?_
  repeat' (first | with_reducible exact Kept.refl _ | with_reducible apply State.arrive_kept | with_reducible apply State.bulkPacket_kept | with_reducible assumption | with_reducible refine fun _ _ _ _ => ?_ | with_reducible refine fun _ _ _ => ?_ | with_reducible refine fun _ _ => ?_ | fail_if_no_progress (dsimp only))

theorem execStatusPacket_kept (s : State) (rx : PacketRx) (p : StatusPacket) : ∀ t', execStatusPacket rx p s = .next t' → Kept s t' := by
  intro _ e; cases e; refine settle_keeps _ ?_
  repeat' (first | with_reducible exact Kept.refl _ | with_reducible apply State.arrive_kept | with_reducible apply State.statusPacket_kept | with_reducible assumption | with_reducible refine fun _ _ _ _ => ?_ | with_reducible refine fun _ _ _ => ?_ | with_reducible refine fun _ _ => ?_ | fail_if_no_progress (dsimp only))

theorem execHelloPacket_kept (s : State) (rx : PacketRx) (p : HelloPacket) : ∀ t', execHelloPacket rx p s = .next t' → Kept s t' := by
  intro _ e; cases e; refine settle_keeps _ ?_
  repeat' (first | with_reducible exact Kept.refl _ | with_reducible apply State.arrive_kept | with_reducible apply State.helloPacket_kept | with_reducible assumption | with_reducible refine fun _ _ _ _ => ?_ | with_reducible refine fun _ _ _ => ?_ | with_reducible refine fun _ _ => ?_ | fail_if_no_progress (dsimp only))

theorem execHelloSend_kept (s : State) : ∀ t', execHelloSend s = .next t' → Kept s t' := by
  intro _ e; cases e; refine settle_keeps _ ?_
  repeat' (first | with_reducible exact Kept.refl _ | with_reducible apply State.helloSend_kept)

theorem execReplay_kept (s : State) (t : Fin 256) : ∀ t', execReplay t s = .next t' → Kept s t' := by
  intro _ e; cases e; refine settle_keeps _ ?_
  repeat' (first | with_reducible exact Kept.refl _ | with_reducible apply State.replay_kept)

theorem execHeartbeatCheck_kept (s : State) : ∀ t', execHeartbeatCheck s = .next t' → Kept s t' := by
  intro _ e; cases e; refine settle_keeps _ ?_
  repeat' (first | with_reducible exact Kept.refl _ | with_reducible apply State.heartbeatCheck_kept)

theorem execTakeover_kept (s : State) : ∀ t', execTakeover s = .next t' → Kept s t' := by
  intro _ e; cases e; refine settle_keeps _ ?_
  repeat' (first | with_reducible exact Kept.refl _ | with_reducible apply State.takeover_kept)

theorem execAliveToggle_kept (s : State) : ∀ t', execAliveToggle s = .next t' → Kept s t' := by
  intro _ e; cases e; refine settle_keeps _ ?_
  repeat' (first | with_reducible exact Kept.refl _ | with_reducible apply State.aliveToggle_kept)

theorem execAliveInEdge_kept (s : State) : ∀ t', execAliveInEdge s = .next t' → Kept s t' := by
  intro _ e; cases e; refine settle_keeps _ ?_
  repeat' (first | with_reducible exact Kept.refl _ | with_reducible apply State.aliveIn_kept)

theorem execPartnerStatic_kept (s : State) : ∀ t', execPartnerStatic s = .next t' → Kept s t' := by
  intro _ e; cases e; refine settle_keeps _ ?_
  repeat' (first | with_reducible exact Kept.refl _ | with_reducible apply State.partnerStatic_kept)

theorem execSeekTimeout_kept (s : State) : ∀ t', execSeekTimeout s = .next t' → Kept s t' := by
  intro _ e; cases e; refine settle_keeps _ ?_
  repeat' (first | with_reducible exact Kept.refl _ | with_reducible apply State.seekTimeout_kept)

theorem execSyncTick_kept (s : State) (now : BitVec 64) (tick : BitVec 48) (banks : List RefreshPacket) : ∀ t', execSyncTick now tick banks s = .next t' → Kept s t' := by
  intro _ e; cases e; refine settle_keeps _ ?_
  repeat' (first | with_reducible exact Kept.refl _ | with_reducible apply State.syncTick_kept)

theorem execJoinComplete_kept (s : State) : ∀ t', execJoinComplete s = .next t' → Kept s t' := by
  intro _ e; cases e; refine settle_keeps _ ?_
  repeat' (first | with_reducible exact Kept.refl _ | with_reducible apply State.joinComplete_kept)

theorem execResign_kept (s : State) (v : Word) : ∀ t', execResign v s = .next t' → Kept s t' := by
  intro _ e; cases e; refine settle_keeps _ ?_
  repeat' (first | with_reducible exact Kept.refl _ | with_reducible apply State.pairCtrl_kept)

theorem execRejoin_kept (s : State) (v : Word) : ∀ t', execRejoin v s = .next t' → Kept s t' := by
  intro _ e; cases e; refine settle_keeps _ ?_
  repeat' (first | with_reducible exact Kept.refl _ | with_reducible apply State.pairCtrl_kept)

theorem execEpochSilenceEnd_kept (s : State) : ∀ t', execEpochSilenceEnd s = .next t' → Kept s t' := by
  intro _ e; cases e; refine settle_keeps _ ?_
  repeat' (first | with_reducible exact Kept.refl _ | with_reducible apply State.silenceEnd_kept)

theorem execUbvelLinkDown_kept (s : State) : ∀ t', execUbvelLinkDown s = .next t' → Kept s t' := by
  intro _ e; cases e; refine settle_keeps _ ?_
  repeat' (first | with_reducible exact Kept.refl _ | with_reducible apply State.linkDown_kept)

theorem execUbvelLinkUp_kept (s : State) (dly : BitVec 16) : ∀ t', execUbvelLinkUp dly s = .next t' → Kept s t' := by
  intro _ e; cases e; refine settle_keeps _ ?_
  repeat' (first | with_reducible exact Kept.refl _ | with_reducible apply State.linkUp_kept)

end Sys2Proof.Machine
end

