-- ==== Sys2Proof/Laws/KeptSafe.lean ====
section
/-! SUPPORT. What the operations of Machine/Safe.lean keep. -/

set_option linter.unusedTactic false
set_option linter.unreachableTactic false
set_option linter.unusedVariables false

namespace Sys2Proof.Machine

theorem State.retainEntry_kept {r s : State} (h : Kept r s) (ws : List Word) : Kept r (State.retainEntry s ws) := by
  unfold State.retainEntry
  try dsimp only
  repeat' (first | with_reducible exact h | with_reducible assumption | with_reducible apply State.addSat_kept | with_reducible apply State.setFld_kept | with_reducible apply State.retainPut_kept | with_reducible refine fun _ _ => ?_ | with_reducible apply Kept.ite | split | fail_if_no_progress (with_reducible apply Kept.lit))

theorem State.faultEntry_kept {r s : State} (h : Kept r s) (kind : Nat) (cls : Nat) (source : Nat) (detail : Nat) : Kept r (State.faultEntry s kind cls source detail) := by
  unfold State.faultEntry
  try dsimp only
  repeat' (first | with_reducible exact h | with_reducible assumption | with_reducible apply State.fresh_kept | with_reducible apply State.setReg_kept | with_reducible apply State.setFld_kept | with_reducible apply State.retainEntry_kept | with_reducible apply State.trace_kept | with_reducible refine fun _ _ => ?_ | with_reducible refine Kept.foldl (fun _ _ _ => ?_) _ ?_ | with_reducible apply Kept.ite | split | fail_if_no_progress (dsimp only) | fail_if_no_progress (with_reducible apply Kept.lit))

theorem State.sillageFreeze_kept {r s : State} (h : Kept r s) : Kept r (State.sillageFreeze s) := by
  unfold State.sillageFreeze
  repeat' (first | with_reducible exact h | with_reducible assumption | with_reducible apply State.setFld_kept | with_reducible apply State.post_kept | fail_if_no_progress (with_reducible apply Kept.lit))

theorem State.sillageTrigger_kept {r s : State} (h : Kept r s) : Kept r (State.sillageTrigger s) := by
  unfold State.sillageTrigger
  repeat' (first | with_reducible exact h | with_reducible assumption | with_reducible apply State.sillageFreeze_kept | with_reducible apply State.post_kept | with_reducible apply Kept.ite | split | fail_if_no_progress (with_reducible apply Kept.lit))

theorem State.sillageWrite_kept {r s : State} (h : Kept r s) : Kept r (State.sillageWrite s) := by
  unfold State.sillageWrite
  try dsimp only
  repeat' (first | with_reducible exact h | with_reducible assumption | with_reducible apply State.setWord_kept | with_reducible apply State.setFlips_kept | with_reducible apply State.setFld_kept | with_reducible apply State.sillageTrigger_kept | with_reducible apply State.post_kept | with_reducible apply State.sillageFreeze_kept | with_reducible refine fun _ _ => ?_ | with_reducible refine Kept.foldl (fun _ _ _ => ?_) _ ?_ | with_reducible refine Kept.fst (by assumption) ?_ | with_reducible apply Kept.ite | split | fail_if_no_progress (dsimp only) | fail_if_no_progress (with_reducible apply Kept.lit))

theorem State.sillageCtrl_kept {r s : State} (h : Kept r s) (v : Word) : Kept r (State.sillageCtrl s v) := by
  unfold State.sillageCtrl
  try dsimp only
  repeat' (first | with_reducible exact h | with_reducible assumption | with_reducible apply State.sillageFreeze_kept | with_reducible apply State.setFld_kept | with_reducible apply State.post_kept | with_reducible apply Kept.ite | split | fail_if_no_progress (with_reducible apply Kept.lit))

theorem State.sillageMark_kept {r s : State} (h : Kept r s) (req : Nat) (v : Word) : Kept r (State.sillageMark s req v) := by
  unfold State.sillageMark
  repeat' (first | with_reducible exact h | with_reducible assumption | with_reducible apply State.trace_kept)

theorem State.classNow_kept {r s : State} (h : Kept r s) : Kept r (State.classNow s) := by
  unfold State.classNow
  repeat' (first | with_reducible exact h | with_reducible assumption | with_reducible apply State.setB_kept | with_reducible apply State.dropAlive_kept)

theorem State.joinTrip_kept {r s : State} (h : Kept r s) (m : Nat) : Kept r (State.joinTrip s m) := by
  unfold State.joinTrip
  try dsimp only
  repeat' (first | with_reducible exact h | with_reducible assumption | with_reducible apply State.setFld_kept | with_reducible apply State.classNow_kept | with_reducible apply State.faultEntry_kept)

theorem State.tripNow_kept {r s : State} (h : Kept r s) (m : Nat) : Kept r (State.tripNow s m) := by
  unfold State.tripNow
  try dsimp only
  repeat' (first | with_reducible exact h | with_reducible assumption | with_reducible apply State.pinsTrip_kept | with_reducible apply State.tripSwitches_kept | with_reducible apply State.setFld_kept | with_reducible apply State.dacForce_kept | with_reducible apply State.joinTrip_kept | with_reducible apply State.sillageTrigger_kept | with_reducible refine Kept.foldl (fun _ _ _ => ?_) _ ?_ | with_reducible apply Kept.ite | split | fail_if_no_progress (dsimp only))

theorem State.raiseWith_kept {r s : State} (h : Kept r s) (m : Nat) (entry : State → State) (he : ∀ x, Kept r x → Kept r (entry x)) :
    Kept r (s.raiseWith m entry) := by
  unfold State.raiseWith
  dsimp only
  repeat' (first | with_reducible exact h | with_reducible assumption | with_reducible apply he | with_reducible apply State.faultEntry_kept | with_reducible apply State.deposed_kept | with_reducible apply State.withPair_kept | with_reducible apply State.setFld_kept | with_reducible apply State.classNow_kept | with_reducible apply State.joinTrip_kept | with_reducible apply State.tripNow_kept | with_reducible apply Kept.ite | split | fail_if_no_progress (with_reducible apply Kept.lit))

theorem State.raiseTrip_kept {r s : State} (h : Kept r s) (m : Nat) : Kept r (s.raiseTrip m) :=
  State.raiseWith_kept h m id (fun _ hx => hx)

theorem State.handoverTrip_kept {r s : State} (h : Kept r s) : Kept r (State.handoverTrip s) := by
  unfold State.handoverTrip
  try dsimp only
  repeat' (first | with_reducible exact h | with_reducible assumption | with_reducible apply State.setFld_kept | with_reducible apply State.joinTrip_kept | with_reducible apply State.tripNow_kept | with_reducible apply Kept.ite | split | fail_if_no_progress (with_reducible apply Kept.lit))

theorem State.level_kept {r s : State} (h : Kept r s) (i : Nat) (on : Bool) : Kept r (State.level s i on) := by
  unfold State.level
  try dsimp only
  repeat' (first | with_reducible exact h | with_reducible assumption | with_reducible apply State.putBit_kept | with_reducible apply State.raiseTrip_kept | with_reducible apply Kept.ite | split)

theorem State.srcenWrite_kept {r s : State} (h : Kept r s) (v : Word) : Kept r (State.srcenWrite s v) := by
  unfold State.srcenWrite
  try dsimp only
  repeat' (first | with_reducible exact h | with_reducible assumption | with_reducible apply State.setFld_kept | with_reducible apply State.raiseTrip_kept | with_reducible apply Kept.ite | split)

theorem State.tripRelease_kept {r s : State} (h : Kept r s) (force : Bool) (edge : Bool) : Kept r (State.tripRelease s force edge) := by
  unfold State.tripRelease
  try dsimp only
  repeat' (first | with_reducible exact h | with_reducible assumption | with_reducible apply State.setFld_kept | with_reducible apply State.faultEntry_kept | with_reducible apply Kept.ite | split)

theorem State.safeCtrl_kept {r s : State} (h : Kept r s) (v : Word) : Kept r (State.safeCtrl s v) := by
  unfold State.safeCtrl
  try dsimp only
  repeat' (first | with_reducible exact h | with_reducible assumption | with_reducible apply State.setFld_kept | with_reducible apply State.tripRelease_kept | with_reducible apply State.raiseTrip_kept | with_reducible apply Kept.ite | split)

theorem State.findSnap_kept {r s : State} (h : Kept r s) : Kept r (State.findSnap s) := by
  unfold State.findSnap
  try dsimp only
  repeat' (first | with_reducible exact h | with_reducible assumption | with_reducible apply State.setReg_kept | with_reducible apply State.setFld_kept | with_reducible refine Kept.fst (by assumption) ?_ | split | fail_if_no_progress (with_reducible apply Kept.lit))

theorem State.stopEngines_kept {r s : State} (h : Kept r s) : Kept r (State.stopEngines s) := by
  unfold State.stopEngines
  try dsimp only
  repeat' (first | with_reducible exact h | with_reducible assumption | with_reducible apply State.setEng_kept | with_reducible refine fun _ _ => ?_ | with_reducible refine Kept.foldl (fun _ _ _ => ?_) _ ?_ | fail_if_no_progress (dsimp only) | fail_if_no_progress (with_reducible apply Kept.lit))

theorem State.snapStart_kept {r s : State} (h : Kept r s) (cause : Nat) : Kept r (State.snapStart s cause) := by
  unfold State.snapStart
  try dsimp only
  repeat' (first | with_reducible exact h | with_reducible assumption | with_reducible apply State.retainPut_kept | with_reducible apply State.setFld_kept | with_reducible refine fun _ _ => ?_ | with_reducible refine Kept.foldl (fun _ _ _ => ?_) _ ?_ | with_reducible apply Kept.ite | split | fail_if_no_progress (dsimp only) | fail_if_no_progress (with_reducible apply Kept.lit))

theorem State.keepSillage_kept {r s : State} (h : Kept r s) : Kept r (State.keepSillage s) := by
  unfold State.keepSillage
  repeat' (first | with_reducible exact h | with_reducible assumption | with_reducible apply State.setReg_kept)

theorem State.findRing_kept {r s : State} (h : Kept r s) : Kept r (State.findRing s) := by
  unfold State.findRing
  try dsimp only
  repeat' (first | with_reducible exact h | with_reducible assumption | with_reducible apply State.setFld_kept | with_reducible refine fun _ _ => ?_ | with_reducible refine Kept.foldl (fun _ _ _ => ?_) _ ?_ | with_reducible refine Kept.foldlFst (fun _ _ _ => ?_) _ ?_ | with_reducible apply Kept.ite | split | fail_if_no_progress (dsimp only) | fail_if_no_progress (with_reducible apply Kept.lit))

theorem State.internalHold_kept {r s0 : State} (h : Kept r s0) : Kept r (State.internalHold s0) := by
  unfold State.internalHold
  try dsimp only
  repeat' (first | with_reducible exact h | with_reducible assumption | with_reducible apply State.setFld_kept | with_reducible apply State.keepSillage_kept | with_reducible apply State.cmpsClear_kept | with_reducible apply State.dacsOff_kept | fail_if_no_progress (with_reducible apply Kept.lit))

theorem State.wdResetHold_kept {r s : State} (h : Kept r s) : Kept r (State.wdResetHold s) := by
  unfold State.wdResetHold
  repeat' (first | with_reducible exact h | with_reducible assumption | with_reducible apply State.faultEntry_kept | with_reducible apply State.setFld_kept | with_reducible apply State.internalHold_kept)

theorem State.spanWords_kept {r s : State} (h : Kept r s) (src : Word) : Kept r (State.spanWords s src).1 := by
  unfold State.spanWords
  try dsimp only
  repeat' (first | with_reducible exact h | with_reducible assumption | with_reducible apply State.touch_kept | with_reducible apply State.readWord_kept | with_reducible refine fun _ _ => ?_ | with_reducible refine Kept.foldl (fun _ _ _ => ?_) _ ?_ | with_reducible refine Kept.foldlFst (fun _ _ _ => ?_) _ ?_ | with_reducible refine Kept.fst (by assumption) ?_ | split | fail_if_no_progress (dsimp only) | fail_if_no_progress (with_reducible apply Kept.lit))

theorem State.snapPut_kept {r s : State} (h : Kept r s) (slot : Nat) (ws : List Word) : Kept r (State.snapPut s slot ws) := by
  unfold State.snapPut
  try dsimp only
  repeat' (first | with_reducible exact h | with_reducible assumption | with_reducible apply State.retainPut_kept | with_reducible refine fun _ _ => ?_ | with_reducible refine Kept.foldl (fun _ _ _ => ?_) _ ?_ | fail_if_no_progress (dsimp only))

theorem State.snapWrite_kept {r s : State} (h : Kept r s) (x : Snapshot) : Kept r (State.snapWrite s x) := by
  unfold State.snapWrite
  try dsimp only
  repeat' (first | with_reducible exact h | with_reducible assumption | with_reducible apply State.spanWords_kept | with_reducible apply State.snapPut_kept | with_reducible apply State.retainPut_kept | with_reducible apply State.setFld_kept | with_reducible apply State.addSat_kept | with_reducible refine Kept.fst (by assumption) ?_ | split | fail_if_no_progress (with_reducible apply Kept.lit))

theorem State.snapDone_kept {r s : State} (h : Kept r s) : Kept r (State.snapDone s) := by
  unfold State.snapDone
  try dsimp only
  repeat' (first | with_reducible exact h | with_reducible assumption | with_reducible apply State.snapWrite_kept | with_reducible apply State.wdResetHold_kept | with_reducible refine Kept.fst (by assumption) ?_ | with_reducible apply Kept.ite | split | fail_if_no_progress (with_reducible apply Kept.lit))

theorem State.retainCmd_kept {r s : State} (h : Kept r s) (v : Word) : Kept r (s.retainCmd v) := by
  unfold State.retainCmd
  dsimp only
  split
  · exact h
  · split
    · split
      · exact State.setFld_kept h _ _
      · exact State.snapStart_kept h _
    · exact State.setReg_kept (Kept.foldl (fun _ _ g => State.retainPut_kept g _ _) _ h) _ _
    · split
      · exact (State.setFld_kept h RETAIN_STAT_FRPOS 0).parts id (twf_filter _ _) (twf_filter _ _) rfl rfl rfl
      · exact h
    · exact h

theorem State.powerFail_kept {r s : State} (h : Kept r s) : Kept r (State.powerFail s) := by
  unfold State.powerFail
  try dsimp only
  repeat' (first | with_reducible exact h | with_reducible assumption | with_reducible apply State.setFld_kept | with_reducible apply State.stopEngines_kept | with_reducible apply State.snapStart_kept | with_reducible refine Kept.fst (by assumption) ?_ | with_reducible apply Kept.ite | split | fail_if_no_progress (with_reducible apply Kept.lit))

theorem State.mramRefresh_kept {r s : State} (h : Kept r s) : Kept r (State.mramRefresh s) := by
  unfold State.mramRefresh
  try dsimp only
  repeat' (first | with_reducible exact h | with_reducible assumption | with_reducible apply State.retainRead_kept | with_reducible apply State.setFlips_kept | with_reducible refine fun _ _ => ?_ | with_reducible refine Kept.foldl (fun _ _ _ => ?_) _ ?_ | with_reducible apply Kept.ite | split | fail_if_no_progress (dsimp only) | fail_if_no_progress (with_reducible apply Kept.lit))

theorem State.wdStart_kept {r s : State} (h : Kept r s) : Kept r (State.wdStart s) := by
  unfold State.wdStart
  repeat' (first | with_reducible exact h | with_reducible assumption | fail_if_no_progress (with_reducible apply Kept.lit))

theorem State.watchdogReset_kept {r s : State} (h : Kept r s) : Kept r (State.watchdogReset s) := by
  unfold State.watchdogReset
  try dsimp only
  repeat' (first | with_reducible exact h | with_reducible assumption | with_reducible apply State.setFld_kept | with_reducible apply State.stopEngines_kept | with_reducible apply State.snapStart_kept | with_reducible apply State.wdResetHold_kept | with_reducible refine Kept.fst (by assumption) ?_ | with_reducible apply Kept.ite | split | fail_if_no_progress (with_reducible apply Kept.lit))

theorem State.wdExpire_kept {r s : State} (h : Kept r s) : Kept r (State.wdExpire s) := by
  unfold State.wdExpire
  try dsimp only
  repeat' (first | with_reducible exact h | with_reducible assumption | with_reducible apply State.raiseTrip_kept | with_reducible apply State.watchdogReset_kept | with_reducible apply Kept.ite | split | fail_if_no_progress (with_reducible apply Kept.lit))

theorem State.kick_kept {r s : State} (h : Kept r s) (v : Word) : Kept r (State.kick s v) := by
  unfold State.kick
  try dsimp only
  repeat' (first | with_reducible exact h | with_reducible assumption | with_reducible apply State.wdStart_kept | with_reducible apply State.setFld_kept | with_reducible apply State.wdExpire_kept | with_reducible apply Kept.ite | split | fail_if_no_progress (with_reducible apply Kept.lit))

theorem State.wdWarn_kept {r s : State} (h : Kept r s) : Kept r (State.wdWarn s) := by
  unfold State.wdWarn
  repeat' (first | with_reducible exact h | with_reducible assumption | with_reducible apply State.setFld_kept | with_reducible apply Kept.ite | split)

theorem State.watchdogExpiry_kept {r s : State} (h : Kept r s) : Kept r (State.watchdogExpiry s) := by
  unfold State.watchdogExpiry
  repeat' (first | with_reducible exact h | with_reducible assumption | with_reducible apply State.wdExpire_kept | with_reducible apply Kept.ite | split)

theorem State.tickWatchdog_kept {r s : State} (h : Kept r s) : Kept r (State.tickWatchdog s) := by
  unfold State.tickWatchdog
  try dsimp only
  repeat' (first | with_reducible exact h | with_reducible assumption | with_reducible apply State.raiseTrip_kept | with_reducible apply Kept.ite | split)

theorem State.cmpLevels_kept {r s : State} (h : Kept r s) : Kept r (State.cmpLevels s) := by
  unfold State.cmpLevels
  try dsimp only
  repeat' (first | with_reducible exact h | with_reducible assumption | with_reducible apply State.putBit_kept | fail_if_no_progress (with_reducible apply Kept.lit))

theorem State.cmpTrip_kept {r s : State} (h : Kept r s) (n : Nat) (on : Bool) : Kept r (State.cmpTrip s n on) := by
  unfold State.cmpTrip
  try dsimp only
  repeat' (first | with_reducible exact h | with_reducible assumption | with_reducible apply State.cmpLevels_kept | with_reducible apply State.raiseTrip_kept | with_reducible apply Kept.ite | split | fail_if_no_progress (with_reducible apply Kept.lit))

theorem State.clockBad_kept {r s : State} (h : Kept r s) (i : Nat) (on : Bool) : Kept r (State.clockBad s i on) := by
  unfold State.clockBad
  try dsimp only
  repeat' (first | with_reducible exact h | with_reducible assumption | with_reducible apply State.putBit_kept | with_reducible apply State.raiseTrip_kept | with_reducible apply Kept.ite | split | fail_if_no_progress (with_reducible apply Kept.lit))

theorem State.tamperEntry_kept {r s : State} (h : Kept r s) : Kept r (State.tamperEntry s) := by
  unfold State.tamperEntry
  repeat' (first | with_reducible exact h | with_reducible assumption | with_reducible apply State.faultEntry_kept)

theorem State.tamperMain_kept {r s : State} (h : Kept r s) : Kept r s.tamperMain := by
  unfold State.tamperMain
  dsimp only
  have e : ∀ x, Kept r x → Kept r x.tamperEntry := fun _ hx => State.tamperEntry_kept hx
  split
  · exact e _ (State.setFld_kept h _ _)
  · exact State.raiseWith_kept (Kept.lit (State.setFld_kept h _ _)) _ _ e

theorem State.tamper_kept {r s : State} (h : Kept r s) (e : Nat) : Kept r (s.tamper e) := by
  unfold State.tamper
  refine Kept.ite h ?_
  have k1 := State.vaultWipe_kept (State.orBit_kept h SAFE_TAMPSTAT_EVT e) 1
  have k2 := State.lcWith_kept (State.setFld_kept k1 CFG_FUSE_KEYRAMOK 0) (fun x => { x with keyRam := none })
    (LifeCycle.onward_loses rfl rfl (.inl rfl) (.inl rfl))
  exact Kept.ite (State.tamperMain_kept k2) (Kept.lit k2)

theorem State.rtcSecond_kept {r s : State} (h : Kept r s) : Kept r (State.rtcSecond s) := by
  unfold State.rtcSecond
  repeat' (first | with_reducible exact h | with_reducible assumption | with_reducible apply State.setReg_kept | with_reducible apply Kept.ite | split)

theorem State.istFault_kept {r s : State} (h : Kept r s) (kind unit addr : Nat) (data : Word) : Kept r (s.istFault kind unit addr data) := by
  unfold State.istFault
  dsimp only
  have k : ∀ x : State, Kept r x → Kept r ((x.faultEntry 5 0 kind unit).trace 7 (x.faultEntry 5 0 kind unit).stamp
      (BitVec.ofNat 32 (kind * 2 ^ 24 + unit)) (BitVec.ofNat 32 addr) data) :=
    fun _ hx => State.trace_kept (State.faultEntry_kept hx _ _ _ _) _ _ _ _ _
  repeat' (first | with_reducible exact h | with_reducible assumption | with_reducible apply State.raiseWith_kept | with_reducible apply State.setFld_kept | with_reducible apply State.setReg_kept | with_reducible apply State.addSat_kept | with_reducible refine fun _ _ => ?_ | with_reducible apply State.trace_kept | with_reducible apply State.faultEntry_kept | with_reducible apply Kept.ite | split)

theorem State.istPass_kept {r s : State} (h : Kept r s) (kind : Nat) : Kept r (State.istPass s kind) := by
  unfold State.istPass
  try dsimp only
  repeat' (first | with_reducible exact h | with_reducible assumption | with_reducible apply State.offBit_kept | with_reducible apply State.setFld_kept | with_reducible refine fun _ _ => ?_ | with_reducible refine Kept.foldl (fun _ _ _ => ?_) _ ?_ | with_reducible apply Kept.ite | split | fail_if_no_progress (dsimp only) | fail_if_no_progress (with_reducible apply Kept.lit))

theorem State.istCover_kept {r s : State} (h : Kept r s) (kind : Nat) (u : Nat) : Kept r (State.istCover s kind u) := by
  unfold State.istCover
  try dsimp only
  repeat' (first | with_reducible exact h | with_reducible assumption | with_reducible apply State.istPass_kept | with_reducible refine fun _ _ => ?_ | with_reducible apply Kept.ite | split | fail_if_no_progress (with_reducible apply Kept.lit))

theorem State.istResult_kept {r s : State} (h : Kept r s) (key : Nat × Nat × Nat) (addr : Nat) (data : Word) (ok : Bool) : Kept r (State.istResult s key addr data ok) := by
  unfold State.istResult
  try dsimp only
  repeat' (first | with_reducible exact h | with_reducible assumption | with_reducible apply State.istFault_kept | with_reducible apply Kept.ite | split | fail_if_no_progress (with_reducible apply Kept.lit))

theorem State.istSignature_kept {r s : State} (h : Kept r s) (t : Nat) (sig : Word) : Kept r (State.istSignature s t sig) := by
  unfold State.istSignature
  try dsimp only
  repeat' (first | with_reducible exact h | with_reducible assumption | with_reducible apply State.istResult_kept | with_reducible apply State.istCover_kept | with_reducible apply Kept.ite | split | fail_if_no_progress (with_reducible apply Kept.lit))

theorem State.marchAt_kept {r s : State} (h : Kept r s) (tile : Bool) (k : Nat) (m : March) : Kept r (State.marchAt s tile k m) := by
  unfold State.marchAt
  try dsimp only
  repeat' (first | with_reducible exact h | with_reducible assumption | with_reducible apply State.setMarch_kept | with_reducible apply State.istCover_kept | with_reducible apply Kept.ite | split)

theorem State.marchStart_kept {r s : State} (h : Kept r s) (tile : Bool) (k : Nat) (u : Nat) : Kept r (State.marchStart s tile k u) := by
  unfold State.marchStart
  try dsimp only
  repeat' (first | with_reducible exact h | with_reducible assumption | with_reducible apply State.marchAt_kept | with_reducible apply State.setMarch_kept | with_reducible apply Kept.ite | split | fail_if_no_progress (with_reducible apply Kept.lit))

theorem State.marchEnd_kept {r s : State} (h : Kept r s) (tile : Bool) (k : Nat) (u : Nat) (word : Nat) (diff : BitVec 39) : Kept r (State.marchEnd s tile k u word diff) := by
  unfold State.marchEnd
  try dsimp only
  repeat' (first | with_reducible exact h | with_reducible assumption | with_reducible apply State.marchAt_kept | with_reducible apply State.istResult_kept | with_reducible apply State.setMarch_kept | with_reducible apply Kept.ite | split | fail_if_no_progress (with_reducible apply Kept.lit))

theorem State.march_kept {r s : State} (h : Kept r s) (tile : Bool) (k : Nat) (u : Nat) (word : Nat) (diff : BitVec 39) (starts : Bool) : Kept r (State.march s tile k u word diff starts) := by
  unfold State.march
  repeat' (first | with_reducible exact h | with_reducible assumption | with_reducible apply State.setMarch_kept | with_reducible apply State.marchStart_kept | with_reducible apply State.marchEnd_kept | with_reducible apply Kept.ite | split | fail_if_no_progress (with_reducible apply Kept.lit))

theorem State.setBayTests_kept {r s : State} (h : Kept r s) (k : Nat) (b : BayTests) : Kept r (State.setBayTests s k b) := by
  unfold State.setBayTests
  repeat' (first | with_reducible exact h | with_reducible assumption | fail_if_no_progress (with_reducible apply Kept.lit))

theorem State.istGoOn_kept {r s : State} (h : Kept r s) (k : Nat) (p : Nat) : Kept r (State.istGoOn s k p) := by
  unfold State.istGoOn
  try dsimp only
  repeat' (first | with_reducible exact h | with_reducible assumption | with_reducible apply State.setBayTests_kept | with_reducible apply State.istCover_kept | with_reducible refine fun _ _ => ?_ | with_reducible refine Kept.foldl (fun _ _ _ => ?_) _ ?_ | with_reducible apply Kept.ite | split | fail_if_no_progress (dsimp only) | fail_if_no_progress (with_reducible apply Kept.lit))

theorem State.istBegin_kept {r s : State} (h : Kept r s) (kind : Nat) (unit : Nat) (arg : Nat) : Kept r (State.istBegin s kind unit arg) := by
  unfold State.istBegin
  try dsimp only
  repeat' (first | with_reducible exact h | with_reducible assumption | with_reducible apply State.setAdc_kept | with_reducible apply State.setBayTests_kept | with_reducible refine fun _ _ => ?_ | with_reducible refine Kept.fst (by assumption) ?_ | with_reducible apply Kept.ite | split | fail_if_no_progress (with_reducible apply Kept.lit))

theorem State.istJudge_kept {r0 s : State} (h : Kept r0 s) (r : Loan) (d : Word) : Kept r0 (State.istJudge s r d) := by
  unfold State.istJudge
  try dsimp only
  repeat' (first | with_reducible exact h | with_reducible assumption | with_reducible apply State.ronResult_kept | with_reducible apply State.istResult_kept | with_reducible apply State.istGoOn_kept | with_reducible refine fun _ _ => ?_ | with_reducible refine Kept.fst (by assumption) ?_ | with_reducible apply Kept.ite | split | fail_if_no_progress (with_reducible apply Kept.lit))

theorem State.istEnd_kept {r s : State} (h : Kept r s) (kind : Nat) (unit : Nat) (arg : Nat) (d : Word) : Kept r (State.istEnd s kind unit arg d) := by
  unfold State.istEnd
  try dsimp only
  repeat' (first | with_reducible exact h | with_reducible assumption | with_reducible apply State.setBayTests_kept | with_reducible apply State.setAdc_kept | with_reducible apply State.istJudge_kept | with_reducible apply State.rcalBorrow_kept | with_reducible refine Kept.fst (by assumption) ?_ | with_reducible apply Kept.ite | split | fail_if_no_progress (with_reducible apply Kept.lit))

theorem State.istDrop_kept {r s : State} (h : Kept r s) (k : Nat) : Kept r (State.istDrop s k) := by
  unfold State.istDrop
  try dsimp only
  repeat' (first | with_reducible exact h | with_reducible assumption | with_reducible apply State.endLoan_kept | with_reducible apply State.setBayTests_kept | with_reducible refine Kept.fst (by assumption) ?_ | with_reducible apply Kept.ite | split | fail_if_no_progress (with_reducible apply Kept.lit))

theorem State.istConversion_kept {r s : State} (h : Kept r s) (kind : Nat) (unit : Nat) (arg : Nat) (d : Word) (starts : Bool) : Kept r (State.istConversion s kind unit arg d starts) := by
  unfold State.istConversion
  try dsimp only
  repeat' (first | with_reducible exact h | with_reducible assumption | with_reducible apply State.istDrop_kept | with_reducible apply State.istBegin_kept | with_reducible apply State.istEnd_kept | with_reducible apply Kept.ite | split)

theorem State.linkWindow_kept {r s : State} (h : Kept r s) (l : Nat) : Kept r (State.linkWindow s l) := by
  unfold State.linkWindow
  try dsimp only
  repeat' (first | with_reducible exact h | with_reducible assumption | with_reducible apply State.istFault_kept | with_reducible apply State.istCover_kept | with_reducible apply Kept.ite | split | fail_if_no_progress (with_reducible apply Kept.lit))

theorem State.istStarved_kept {r s : State} (h : Kept r s) (kind : Nat) : Kept r (State.istStarved s kind) := by
  unfold State.istStarved
  repeat' (first | with_reducible exact h | with_reducible assumption | with_reducible apply State.orBit_kept | with_reducible apply State.setFld_kept | with_reducible apply Kept.ite | split)

theorem execIstSignature_kept (s : State) (t : Fin 256) (sig : Word) (u2 : Unit) (u3 : Unit) : ∀ t', execIstSignature t sig u2 u3 s = .next t' → Kept s t' := by
  intro _ e; cases e; refine settle_keeps _ ?_
  repeat' (first | with_reducible exact Kept.refl _ | with_reducible apply State.istSignature_kept)

theorem execSpmarchWindow_kept (s : State) (k : Fin 16) (b : Fin 8) (word : Fin 64) (diff : BitVec 39) (starts : Bool) (u5 : Unit) : ∀ t', execSpmarchWindow k b word diff starts u5 s = .next t' → Kept s t' := by
  intro _ e; cases e; refine settle_keeps _ ?_
  repeat' (first | with_reducible exact Kept.refl _ | with_reducible apply State.march_kept)

theorem execTrmarchWindow_kept (s : State) (t : Fin 256) (word : Fin 64) (diff : BitVec 39) (starts : Bool) (u4 : Unit) : ∀ t', execTrmarchWindow t word diff starts u4 s = .next t' → Kept s t' := by
  intro _ e; cases e; refine settle_keeps _ ?_
  repeat' (first | with_reducible exact Kept.refl _ | with_reducible apply State.march_kept)

theorem execIstConversion_kept (s : State) (kind : Fin 4) (unit : Nat) (arg : Nat) (d : Word) (starts : Bool) : ∀ t', execIstConversion kind unit arg d starts s = .next t' → Kept s t' := by
  intro _ e; cases e; refine settle_keeps _ ?_
  repeat' (first | with_reducible exact Kept.refl _ | with_reducible apply State.istConversion_kept)

theorem execLinkWindow_kept (s : State) (l : Fin 8) (u1 : Unit) : ∀ t', execLinkWindow l u1 s = .next t' → Kept s t' := by
  intro _ e; cases e; refine settle_keeps _ ?_
  repeat' (first | with_reducible exact Kept.refl _ | with_reducible apply State.linkWindow_kept)

theorem execIstStarved_kept (s : State) (kind : Fin 8) : ∀ t', execIstStarved kind s = .next t' → Kept s t' := by
  intro _ e; cases e; refine settle_keeps _ ?_
  repeat' (first | with_reducible exact Kept.refl _ | with_reducible apply State.istStarved_kept)

theorem execTrip_kept (s : State) (v : Word) : ∀ t', execTrip v s = .next t' → Kept s t' := by
  intro _ e; cases e; refine settle_keeps _ ?_
  repeat' (first | with_reducible exact Kept.refl _ | with_reducible apply State.safeCtrl_kept)

theorem execTripInput_kept (s : State) (i : Fin 2) (low : Bool) : ∀ t', execTripInput i low s = .next t' → Kept s t' := by
  intro _ e; cases e; refine settle_keeps _ ?_
  repeat' (first | with_reducible exact Kept.refl _ | with_reducible apply State.level_kept)

theorem execComparatorTrip_kept (s : State) (n : Fin 64) (on : Bool) : ∀ t', execComparatorTrip n on s = .next t' → Kept s t' := by
  intro _ e; cases e; refine settle_keeps _ ?_
  repeat' (first | with_reducible exact Kept.refl _ | with_reducible apply State.cmpTrip_kept)

theorem execVmon_kept (s : State) (out : Bool) : ∀ t', execVmon out s = .next t' → Kept s t' := by
  intro _ e; cases e; refine settle_keeps _ ?_
  repeat' (first | with_reducible exact Kept.refl _ | with_reducible apply State.level_kept)

theorem execTemp_kept (s : State) (hot : Bool) : ∀ t', execTemp hot s = .next t' → Kept s t' := by
  intro _ e; cases e; refine settle_keeps _ ?_
  repeat' (first | with_reducible exact Kept.refl _ | with_reducible apply State.level_kept)

theorem execClockMonitor_kept (s : State) (bad : Bool) : ∀ t', execClockMonitor bad s = .next t' → Kept s t' := by
  intro _ e; cases e; refine settle_keeps _ ?_
  repeat' (first | with_reducible exact Kept.refl _ | with_reducible apply State.clockBad_kept)

theorem execTickWatchdog_kept (s : State) : ∀ t', execTickWatchdog s = .next t' → Kept s t' := by
  intro _ e; cases e; refine settle_keeps _ ?_
  repeat' (first | with_reducible exact Kept.refl _ | with_reducible apply State.tickWatchdog_kept)

theorem execHandoverTrip_kept (s : State) : ∀ t', execHandoverTrip s = .next t' → Kept s t' := by
  intro _ e; cases e; refine settle_keeps _ ?_
  repeat' (first | with_reducible exact Kept.refl _ | with_reducible apply State.handoverTrip_kept)

theorem execTripRelease_kept (s : State) (v : Word) : ∀ t', execTripRelease v s = .next t' → Kept s t' := by
  intro _ e; cases e; refine settle_keeps _ ?_
  repeat' (first | with_reducible exact Kept.refl _ | with_reducible apply State.safeCtrl_kept)

theorem execSafeLock_kept (s : State) (v : Word) : ∀ t', execSafeLock v s = .next t' → Kept s t' := by
  intro _ e; cases e; refine settle_keeps _ ?_
  repeat' (first | with_reducible exact Kept.refl _ | with_reducible apply State.safeCtrl_kept)

theorem execKick_kept (s : State) (v : Word) : ∀ t', execKick v s = .next t' → Kept s t' := by
  intro _ e; cases e; refine settle_keeps _ ?_
  repeat' (first | with_reducible exact Kept.refl _ | with_reducible apply State.kick_kept)

theorem execWdwarn_kept (s : State) : ∀ t', execWdwarn s = .next t' → Kept s t' := by
  intro _ e; cases e; refine settle_keeps _ ?_
  repeat' (first | with_reducible exact Kept.refl _ | with_reducible apply State.wdWarn_kept)

theorem execWatchdogExpiry_kept (s : State) : ∀ t', execWatchdogExpiry s = .next t' → Kept s t' := by
  intro _ e; cases e; refine settle_keeps _ ?_
  repeat' (first | with_reducible exact Kept.refl _ | with_reducible apply State.watchdogExpiry_kept)

theorem execTamperEvent_kept (s : State) (e : Fin 6) : ∀ t', execTamperEvent e s = .next t' → Kept s t' := by
  intro _ e; cases e; refine settle_keeps _ ?_
  repeat' (first | with_reducible exact Kept.refl _ | with_reducible apply State.tamper_kept)

theorem execRtcSecond_kept (s : State) : ∀ t', execRtcSecond s = .next t' → Kept s t' := by
  intro _ e; cases e; refine settle_keeps _ ?_
  repeat' (first | with_reducible exact Kept.refl _ | with_reducible apply State.rtcSecond_kept)

theorem execSillageWrite_kept (s : State) : ∀ t', execSillageWrite s = .next t' → Kept s t' := by
  intro _ e; cases e; refine settle_keeps _ ?_
  repeat' (first | with_reducible exact Kept.refl _ | with_reducible apply State.sillageWrite_kept)

theorem execSillageFreeze_kept (s : State) : ∀ t', execSillageFreeze s = .next t' → Kept s t' := by
  intro _ e; cases e; refine settle_keeps _ ?_
  repeat' (first | with_reducible exact Kept.refl _ | with_reducible apply State.sillageCtrl_kept)

theorem execSillageResume_kept (s : State) : ∀ t', execSillageResume s = .next t' → Kept s t' := by
  intro _ e; cases e; refine settle_keeps _ ?_
  repeat' (first | with_reducible exact Kept.refl _ | with_reducible apply State.sillageCtrl_kept)

theorem execSillageClear_kept (s : State) : ∀ t', execSillageClear s = .next t' → Kept s t' := by
  intro _ e; cases e; refine settle_keeps _ ?_
  repeat' (first | with_reducible exact Kept.refl _ | with_reducible apply State.sillageCtrl_kept)

theorem execSillageMark_kept (s : State) (req : Fin 405) (v : Word) : ∀ t', execSillageMark req v s = .next t' → Kept s t' := by
  intro _ e; cases e; refine settle_keeps _ ?_
  repeat' (first | with_reducible exact Kept.refl _ | with_reducible apply State.sillageMark_kept)

theorem execSnapshotDone_kept (s : State) : ∀ t', execSnapshotDone s = .next t' → Kept s t' := by
  intro _ e; cases e; refine settle_keeps _ ?_
  repeat' (first | with_reducible exact Kept.refl _ | with_reducible apply State.snapDone_kept)

theorem execSnap_kept (s : State) (v : Word) : ∀ t', execSnap v s = .next t' → Kept s t' := by
  intro _ e; cases e; refine settle_keeps _ ?_
  repeat' (first | with_reducible exact Kept.refl _ | with_reducible apply State.retainCmd_kept)

theorem execErasesnap_kept (s : State) (v : Word) : ∀ t', execErasesnap v s = .next t' → Kept s t' := by
  intro _ e; cases e; refine settle_keeps _ ?_
  repeat' (first | with_reducible exact Kept.refl _ | with_reducible apply State.retainCmd_kept)

theorem execErasefault_kept (s : State) (v : Word) : ∀ t', execErasefault v s = .next t' → Kept s t' := by
  intro _ e; cases e; refine settle_keeps _ ?_
  repeat' (first | with_reducible exact Kept.refl _ | with_reducible apply State.retainCmd_kept)

theorem execMramRefresh_kept (s : State) : ∀ t', execMramRefresh s = .next t' → Kept s t' := by
  intro _ e; cases e; refine settle_keeps _ ?_
  repeat' (first | with_reducible exact Kept.refl _ | with_reducible apply State.mramRefresh_kept)

theorem execPowerFailWarning_kept (s : State) : ∀ t', execPowerFailWarning s = .next t' → Kept s t' := by
  intro _ e; cases e; refine settle_keeps _ ?_
  repeat' (first | with_reducible exact Kept.refl _ | with_reducible apply State.powerFail_kept)

end Sys2Proof.Machine
end

