-- ==== Sys2Proof/Laws/KeptLoader.lean ====
section
/-! SUPPORT. What the operations of Machine/Loader.lean keep. -/

set_option linter.unusedTactic false
set_option linter.unreachableTactic false
set_option linter.unusedVariables false

namespace Sys2Proof.Machine

theorem State.gradeClocks_kept {r s : State} (h : Kept r s) : Kept r (State.gradeClocks s) := by
  unfold State.gradeClocks
  try dsimp only
  repeat' (first | with_reducible exact h | with_reducible assumption | with_reducible apply State.setFld_kept | with_reducible refine fun _ _ => ?_ | with_reducible refine Kept.foldl (fun _ _ _ => ?_) _ ?_ | with_reducible apply Kept.ite | split | fail_if_no_progress (dsimp only))

theorem State.imageCleared_kept {r s : State} (h : Kept r s) : Kept r (State.imageCleared s) := by
  unfold State.imageCleared
  try dsimp only
  repeat' (first | with_reducible exact h | with_reducible assumption | with_reducible apply State.setReg_kept | with_reducible refine fun _ _ => ?_ | with_reducible refine Kept.foldl (fun _ _ _ => ?_) _ ?_ | with_reducible apply Kept.ite | split | fail_if_no_progress (dsimp only))

theorem State.clearAll_kept {r s : State} (h : Kept r s) (keep : Nat → Bool) : Kept r (s.clearAll keep) := by
  unfold State.clearAll
  apply State.gradeClocks_kept
  exact h.parts (twf_filter _ _) (twf_filter _ _) (twf_filter _ _) rfl rfl rfl

theorem State.lcShow_kept {r s : State} (h : Kept r s) : Kept r (State.lcShow s) := by
  unfold State.lcShow
  try dsimp only
  repeat' (first | with_reducible exact h | with_reducible assumption | with_reducible apply State.setFld_kept | with_reducible apply State.setB_kept)

theorem State.lcChanged_kept {r s : State} (h : Kept r s) : Kept r (State.lcChanged s) := by
  unfold State.lcChanged
  repeat' (first | with_reducible exact h | with_reducible assumption | with_reducible apply State.lcShow_kept | with_reducible apply State.vaultWipe_kept | with_reducible apply State.faultEntry_kept)

theorem State.newNonce_kept {r s : State} (h : Kept r s) : Kept r (State.newNonce s) := by
  unfold State.newNonce
  try dsimp only
  repeat' (first | with_reducible exact h | with_reducible assumption | with_reducible apply State.setReg_kept | with_reducible apply State.fresh_kept | with_reducible refine fun _ _ => ?_ | with_reducible refine Kept.foldl (fun _ _ _ => ?_) _ ?_ | fail_if_no_progress (dsimp only))

theorem State.finalFailure_kept {r s : State} (h : Kept r s) : Kept r (State.finalFailure s) := by
  unfold State.finalFailure
  repeat' (first | with_reducible exact h | with_reducible assumption | with_reducible apply State.setFld_kept | fail_if_no_progress (with_reducible apply Kept.lit))

theorem State.flashRead_kept {r s : State} (h : Kept r s) (offset : Nat) : Kept r (State.flashRead s offset) := by
  unfold State.flashRead
  repeat' (first | with_reducible exact h | with_reducible assumption | with_reducible apply State.emit_kept)

theorem State.attempt_kept {r s : State} (h : Kept r s) (src : LoadSource) (alt : Bool) : Kept r (State.attempt s src alt) := by
  unfold State.attempt
  try dsimp only
  repeat' (first | with_reducible exact h | with_reducible assumption | with_reducible apply State.setFld_kept | with_reducible apply State.setB_kept | with_reducible apply State.flashRead_kept | with_reducible apply Kept.ite | split | fail_if_no_progress (with_reducible apply Kept.lit))

theorem State.attemptClear_kept {r s : State} (h : Kept r s) : Kept r (State.attemptClear s) := by
  unfold State.attemptClear
  repeat' (first | with_reducible exact h | with_reducible assumption | with_reducible apply State.clearAll_kept | with_reducible apply State.imageCleared_kept | with_reducible apply State.setFld_kept)

theorem State.loadError_kept {r s : State} (h : Kept r s) (code : Nat) (pos : Nat) : Kept r (State.loadError s code pos) := by
  unfold State.loadError
  try dsimp only
  repeat' (first | with_reducible exact h | with_reducible assumption | with_reducible apply State.setFld_kept | with_reducible apply State.faultEntry_kept | with_reducible apply State.attemptClear_kept | with_reducible apply State.finalFailure_kept | with_reducible apply State.attempt_kept | with_reducible apply Kept.ite | split)

theorem State.startLoad_kept {r s : State} (h : Kept r s) : Kept r s.startLoad := by
  unfold State.startLoad
  have shown : ∀ x : State, Kept r x → Kept r (if x.lc.service.isSome then (x.lcWith (fun x => { x with service := none })).lcChanged
      else x.lcShow) := fun x g =>
    Kept.ite (State.lcChanged_kept (State.lcWith_kept g _ (LifeCycle.onward_loses rfl rfl (.inr rfl) (.inl rfl)))) (State.lcShow_kept g)
  have batt : ∀ x : State, Kept r x → Kept r (if x.pwr.battLost then { x.vaultWipe 4 with pwr := { x.pwr with battLost := false } } else x) :=
    fun x g => Kept.ite (Kept.lit (State.vaultWipe_kept g 4)) g
  have last : ∀ x : State, Kept r x → Kept r (if x.lc.st = 4 then (x.setFld CFG_STAT_LOADING 1).loadError 0x15 0
      else if s.part.modePins = 5 ∨ s.part.modePins = 6 then (x.setFld CFG_STAT_LOADING 1).loadError 0x14 0
      else x.attempt (modeSource s.part.modePins) false) := fun x g =>
    Kept.ite (State.loadError_kept (State.setFld_kept g _ _) _ _)
      (Kept.ite (State.loadError_kept (State.setFld_kept g _ _) _ _) (State.attempt_kept g _ _))
  refine last _ (State.findRing_kept (State.findSnap_kept (State.newNonce_kept (batt _ (shown _ ?_)))))
  refine State.setReg_kept (State.setReg_kept (State.setB_kept (State.setFld_kept (State.setFld_kept (State.lcWith_kept (Kept.lit (State.clearAll_kept h keptAlways)) _
    (LifeCycle.onward_loses rfl rfl (.inl rfl) (.inr rfl))) _ _) _ _) _ _) _ _) _ _

theorem State.resetRelease_kept {r s : State} (h : Kept r s) : Kept r (State.resetRelease s) := by
  unfold State.resetRelease
  repeat' (first | with_reducible exact h | with_reducible assumption | with_reducible apply State.startLoad_kept | with_reducible apply Kept.ite | split)

theorem State.reloadBegins_kept {r0 s : State} (h : Kept r0 s) (r : Nat) : Kept r0 (State.reloadBegins s r) := by
  unfold State.reloadBegins
  try dsimp only
  repeat' (first | with_reducible exact h | with_reducible assumption | with_reducible apply State.setFld_kept | with_reducible apply State.flashRead_kept | fail_if_no_progress (with_reducible apply Kept.lit))

theorem State.reloadFails_kept {r0 s : State} (h : Kept r0 s) (r : Nat) : Kept r0 (State.reloadFails s r) := by
  unfold State.reloadFails
  try dsimp only
  repeat' (first | with_reducible exact h | with_reducible assumption | with_reducible apply State.setFld_kept)

theorem State.startReload_kept {r s : State} (h : Kept r s) : Kept r (State.startReload s) := by
  unfold State.startReload
  try dsimp only
  repeat' (first | with_reducible exact h | with_reducible assumption | with_reducible apply State.reloadFails_kept | with_reducible apply State.reloadBegins_kept | with_reducible refine fun _ _ => ?_ | with_reducible refine Kept.foldl (fun _ _ _ => ?_) _ ?_ | with_reducible refine Kept.fst (by assumption) ?_ | with_reducible apply Kept.ite | split | fail_if_no_progress (dsimp only) | fail_if_no_progress (with_reducible apply Kept.lit))

theorem State.partialError_kept {r s : State} (h : Kept r s) (code : Nat) (pos : Nat) : Kept r (State.partialError s code pos) := by
  unfold State.partialError
  try dsimp only
  repeat' (first | with_reducible exact h | with_reducible assumption | with_reducible apply State.setFld_kept | with_reducible apply State.reloadBegins_kept | with_reducible apply State.startReload_kept | with_reducible apply Kept.ite | split | fail_if_no_progress (with_reducible apply Kept.lit))

theorem State.failAt_kept {r s : State} (h : Kept r s) (code : Nat) (pos : Nat) : Kept r (State.failAt s code pos) := by
  unfold State.failAt
  repeat' (first | with_reducible exact h | with_reducible assumption | with_reducible apply State.partialError_kept | with_reducible apply State.loadError_kept | with_reducible apply Kept.ite | split)

theorem State.failHere_kept {r s : State} (h : Kept r s) (code : Nat) : Kept r (State.failHere s code) := by
  unfold State.failHere
  repeat' (first | with_reducible exact h | with_reducible assumption | with_reducible apply State.failAt_kept)

theorem State.withLoader_kept {r s : State} (h : Kept r s) (f : Loader → Loader) : Kept r (State.withLoader s f) := by
  unfold State.withLoader
  repeat' (first | with_reducible exact h | with_reducible assumption | fail_if_no_progress (with_reducible apply Kept.lit))

theorem State.take_kept {r s : State} (h : Kept r s) (ws : List Word) : ∀ t, s.take ws = some t → Kept r t := by
  intro t e
  unfold State.take at e
  split at e
  · cases e
  · cases e; exact State.withLoader_kept h _

theorem State.supply_kept {r s : State} (h : Kept r s) (ws : List Word) : ∀ t, s.supply ws = some t → Kept r t := by
  intro t e
  unfold State.supply at e
  split at e
  · exact State.take_kept h _ _ e
  · split at e
    · cases e; exact Kept.lit h
    · cases e

theorem State.syncWord_kept {r s : State} (h : Kept r s) (w : Word) (sfdp : Bool) : Kept r (State.syncWord s w sfdp) := by
  unfold State.syncWord
  try dsimp only
  repeat' (first | with_reducible exact h | with_reducible assumption | with_reducible refine State.supply_kept ?_ _ _ (by assumption) | with_reducible apply State.failAt_kept | with_reducible apply State.withLoader_kept | with_reducible refine fun _ _ => ?_ | with_reducible refine Kept.fst (by assumption) ?_ | with_reducible refine Kept.some (by assumption) ?_ | with_reducible apply Kept.ite | split | fail_if_no_progress (with_reducible apply Kept.lit))

theorem State.authRecord_kept {r s : State} (h0 : Kept r s) (h : Word) (ws : List Word) : Kept r (State.authRecord s h ws) := by
  unfold State.authRecord
  try dsimp only
  repeat' (first | with_reducible exact h0 | with_reducible assumption | with_reducible refine State.supply_kept ?_ _ _ (by assumption) | with_reducible apply State.failAt_kept | with_reducible apply State.withLoader_kept | with_reducible refine fun _ _ => ?_ | with_reducible refine Kept.fst (by assumption) ?_ | with_reducible refine Kept.some (by assumption) ?_ | with_reducible apply Kept.ite | split | fail_if_no_progress (with_reducible apply Kept.lit))

theorem State.authDone_kept {r s : State} (h : Kept r s) : Kept r (State.authDone s) := by
  unfold State.authDone
  try dsimp only
  repeat' (first | with_reducible exact h | with_reducible assumption | with_reducible apply State.failAt_kept | with_reducible apply State.withLoader_kept | with_reducible apply State.setReg_kept | with_reducible apply State.setFld_kept | with_reducible apply State.setB_kept | with_reducible refine fun _ _ => ?_ | with_reducible apply Kept.ite | split | fail_if_no_progress (with_reducible apply Kept.lit))

theorem State.passRecord_kept {r s : State} (h : Kept r s) (ws : List Word) (crc : BitVec 32) (check : Bool) : Kept r (State.passRecord s ws crc check) := by
  unfold State.passRecord
  try dsimp only
  repeat' (first | with_reducible exact h | with_reducible assumption | with_reducible apply State.withLoader_kept | with_reducible refine fun _ _ => ?_ | with_reducible apply Kept.ite | split | fail_if_no_progress (with_reducible apply Kept.lit))

theorem State.takePass_kept {r s : State} (h : Kept r s) (ws : List Word) : ∀ t, s.takePass ws = some t → Kept r t := by
  intro t e
  unfold State.takePass at e
  split at e
  · cases e
  · split at e
    · cases e
    · cases e; exact State.withLoader_kept h _

theorem State.passFails_kept {r s : State} (h : Kept r s) : Kept r (State.passFails s) := by
  unfold State.passFails
  try dsimp only
  repeat' (first | with_reducible exact h | with_reducible assumption | with_reducible apply State.setFld_kept | with_reducible apply State.withLoader_kept | with_reducible apply State.loadError_kept | with_reducible refine fun _ _ => ?_ | with_reducible apply Kept.ite | split | fail_if_no_progress (with_reducible apply Kept.lit))

theorem State.behindEnd_kept {r s : State} (h0 : Kept r s) (h : Word) : Kept r (State.behindEnd s h) := by
  unfold State.behindEnd
  repeat' (first | with_reducible exact h0 | with_reducible assumption | with_reducible refine State.takePass_kept ?_ _ _ (by assumption) | with_reducible apply State.passFails_kept | with_reducible apply Kept.ite | split)

theorem State.record_kept {r s : State} (hk : Kept r s) (kind : Nat) (h : Word) (ws : List Word) (f : State → State) (hf : ∀ s, Kept r s → Kept r (f s)) : Kept r (s.record kind h ws f) := by
  unfold State.record
  dsimp only
  split
  · exact State.behindEnd_kept hk _
  · split
    · exact hk
    · split
      · split
        · exact State.failHere_kept hk _
        · split
          · exact State.failHere_kept hk _
          · exact hk
      · split
        · exact hk
        · split
          · exact hk
          · next e => exact hf _ (State.supply_kept hk _ _ e)

theorem State.plainRecord_kept {r s : State} (h0 : Kept r s) (h : Word) (ws : List Word) : Kept r (State.plainRecord s h ws) := by
  unfold State.plainRecord
  repeat' (first | with_reducible exact h0 | with_reducible assumption | with_reducible apply State.passRecord_kept)

theorem State.rewriteFrame_kept {r s : State} (h : Kept r s) (a : Nat) : Kept r (State.rewriteFrame s a) := by
  unfold State.rewriteFrame
  try dsimp only
  repeat' (first | with_reducible exact h | with_reducible assumption | with_reducible refine fun _ _ => ?_ | fail_if_no_progress (with_reducible apply Kept.lit))

theorem State.voteWritten_kept {r s : State} (h : Kept r s) (item : Nat) : Kept r (State.voteWritten s item) := by
  unfold State.voteWritten
  try dsimp only
  repeat' (first | with_reducible exact h | with_reducible assumption | with_reducible refine fun _ _ => ?_ | fail_if_no_progress (with_reducible apply Kept.lit))

theorem State.imageReg_kept {r s : State} (h : Kept r s) (a : Nat) (v : Word) : Kept r (State.imageReg s a v) := by
  unfold State.imageReg
  try dsimp only
  repeat' (first | with_reducible exact h | with_reducible assumption | with_reducible apply State.voteWritten_kept | with_reducible apply State.withLoader_kept | with_reducible apply State.setReg_kept | with_reducible apply State.rewriteFrame_kept | with_reducible refine fun _ _ => ?_ | with_reducible apply Kept.ite | split | fail_if_no_progress (with_reducible apply Kept.lit))

theorem State.imageWord_kept {r s : State} (h : Kept r s) (a : Nat) (v : Word) : Kept r (State.imageWord s a v) := by
  unfold State.imageWord
  try dsimp only
  repeat' (first | with_reducible exact h | with_reducible assumption | with_reducible apply State.imageReg_kept | with_reducible apply State.writeWord_kept | with_reducible apply State.toPartner_kept | with_reducible refine Kept.fst (by assumption) ?_ | with_reducible apply Kept.ite | split | fail_if_no_progress (with_reducible apply Kept.lit))

theorem State.regwrWords_kept {r s : State} (h : Kept r s) (fixed : Bool) (a : Nat) (l : List Word) : Kept r (s.regwrWords fixed a l).1 := by
  induction l generalizing s a with
  | nil => exact h
  | cons v l ih =>
    unfold State.regwrWords
    dsimp only
    repeat' split
    all_goals first | exact h | exact ih (State.imageWord_kept h _ _) _

theorem State.frameWord_kept {r s : State} (h : Kept r s) (f : Nat) (i : Nat) (w : Word) : Kept r (State.frameWord s f i w) := by
  unfold State.frameWord
  try dsimp only
  repeat' (first | with_reducible exact h | with_reducible assumption | with_reducible apply State.imageWord_kept | with_reducible apply State.imageReg_kept | with_reducible refine Kept.fst (by assumption) ?_ | split | fail_if_no_progress (with_reducible apply Kept.lit))

theorem State.frames_kept {r s : State} (h : Kept r s) (f n : Nat) (ws : List Word) : Kept r (s.frames f n ws).1 := by
  induction n generalizing s f ws with
  | zero => exact h
  | succ n ih =>
    unfold State.frames
    dsimp only
    repeat' split
    all_goals first | exact h | exact ih (Kept.lit (Kept.foldl (fun _ _ g => State.frameWord_kept g _ _ _) _ h)) _ _

theorem State.regwr_kept {r s : State} (h0 : Kept r s) (h : Word) (ws : List Word) : Kept r (State.regwr s h ws) := by
  unfold State.regwr
  try dsimp only
  repeat' (first | with_reducible exact h0 | with_reducible assumption | with_reducible apply State.record_kept | with_reducible apply State.failHere_kept | with_reducible apply State.failAt_kept | with_reducible apply State.regwrWords_kept | with_reducible apply State.plainRecord_kept | with_reducible refine fun _ _ => ?_ | with_reducible refine Kept.fst (by assumption) ?_ | with_reducible apply Kept.ite | split | fail_if_no_progress (with_reducible apply Kept.lit))

theorem State.frameRecord_kept {r s : State} (h0 : Kept r s) (h : Word) (ws : List Word) : Kept r (State.frameRecord s h ws) := by
  unfold State.frameRecord
  try dsimp only
  repeat' (first | with_reducible exact h0 | with_reducible assumption | with_reducible apply State.record_kept | with_reducible apply State.failHere_kept | with_reducible apply State.frames_kept | with_reducible apply State.plainRecord_kept | with_reducible apply State.failAt_kept | with_reducible refine fun _ _ => ?_ | with_reducible refine Kept.fst (by assumption) ?_ | with_reducible apply Kept.ite | split | fail_if_no_progress (with_reducible apply Kept.lit))

theorem State.nopRecord_kept {r s : State} (h0 : Kept r s) (h : Word) (ws : List Word) : Kept r (State.nopRecord s h ws) := by
  unfold State.nopRecord
  try dsimp only
  repeat' (first | with_reducible exact h0 | with_reducible assumption | with_reducible apply State.record_kept | with_reducible apply State.plainRecord_kept | with_reducible refine fun _ _ => ?_)

theorem State.checkRecord_kept {r s : State} (h0 : Kept r s) (h : Word) (ws : List Word) : Kept r (State.checkRecord s h ws) := by
  unfold State.checkRecord
  try dsimp only
  repeat' (first | with_reducible exact h0 | with_reducible assumption | with_reducible apply State.record_kept | with_reducible apply State.passRecord_kept | with_reducible apply State.failHere_kept | with_reducible refine fun _ _ => ?_ | with_reducible apply Kept.ite | split)

theorem State.holdRegion_kept {r0 s : State} (h : Kept r0 s) (r : Nat) (code : Option Nat) : Kept r0 (State.holdRegion s r code) := by
  unfold State.holdRegion
  try dsimp only
  repeat' (first | with_reducible exact h | with_reducible assumption | with_reducible refine fun _ _ => ?_ | with_reducible apply Kept.ite | split | fail_if_no_progress (with_reducible apply Kept.lit))

theorem State.rbegin_kept {r s : State} (h0 : Kept r s) (h : Word) : Kept r (State.rbegin s h) := by
  unfold State.rbegin
  try dsimp only
  repeat' (first | with_reducible exact h0 | with_reducible assumption | with_reducible apply State.record_kept | with_reducible apply State.failHere_kept | with_reducible apply State.plainRecord_kept | with_reducible apply State.withLoader_kept | with_reducible apply State.setFld_kept | with_reducible apply State.holdRegion_kept | with_reducible refine fun _ _ => ?_ | with_reducible apply Kept.ite | split | fail_if_no_progress (with_reducible apply Kept.lit))

theorem State.rend_kept {r s : State} (h0 : Kept r s) (h : Word) : Kept r (State.rend s h) := by
  unfold State.rend
  try dsimp only
  repeat' (first | with_reducible exact h0 | with_reducible assumption | with_reducible apply State.record_kept | with_reducible apply State.failHere_kept | with_reducible apply State.plainRecord_kept | with_reducible apply State.withLoader_kept | with_reducible refine fun _ _ => ?_ | with_reducible apply Kept.ite | split | fail_if_no_progress (with_reducible apply Kept.lit))

theorem State.keysel_kept {r s : State} (h0 : Kept r s) (h : Word) (plen : Word) : Kept r (State.keysel s h plen) := by
  unfold State.keysel
  try dsimp only
  repeat' (first | with_reducible exact h0 | with_reducible assumption | with_reducible apply State.behindEnd_kept | with_reducible apply State.failHere_kept | with_reducible refine State.supply_kept ?_ _ _ (by assumption) | with_reducible apply State.setFld_kept | with_reducible apply State.withLoader_kept | with_reducible refine fun _ _ => ?_ | with_reducible refine Kept.fst (by assumption) ?_ | with_reducible refine Kept.some (by assumption) ?_ | with_reducible apply Kept.ite | split | fail_if_no_progress (with_reducible apply Kept.lit))

theorem State.keyselBlock_kept {r s : State} (h : Kept r s) (b : CipherBlock) : Kept r (State.keyselBlock s b) := by
  unfold State.keyselBlock
  try dsimp only
  repeat' (first | with_reducible exact h | with_reducible assumption | with_reducible refine State.take_kept ?_ _ _ (by assumption) | with_reducible apply State.failAt_kept | with_reducible apply State.withLoader_kept | with_reducible refine fun _ _ => ?_ | with_reducible refine Kept.fst (by assumption) ?_ | with_reducible apply Kept.ite | split | fail_if_no_progress (with_reducible apply Kept.lit))

theorem State.takeClocks_kept {r s : State} (h : Kept r s) : Kept r (State.takeClocks s) := by
  unfold State.takeClocks
  try dsimp only
  repeat' (first | with_reducible exact h | with_reducible assumption | with_reducible apply State.setReg_kept | with_reducible apply State.withLoader_kept | with_reducible refine fun _ _ => ?_ | with_reducible refine Kept.foldl (fun _ _ _ => ?_) _ ?_ | fail_if_no_progress (dsimp only) | fail_if_no_progress (with_reducible apply Kept.lit))

theorem State.endRecord_kept {r s : State} (h0 : Kept r s) (h : Word) : Kept r (State.endRecord s h) := by
  unfold State.endRecord
  try dsimp only
  repeat' (first | with_reducible exact h0 | with_reducible assumption | with_reducible apply State.record_kept | with_reducible apply State.failAt_kept | with_reducible apply State.withLoader_kept | with_reducible apply State.takeClocks_kept | with_reducible apply State.setFld_kept | with_reducible refine fun _ _ => ?_ | with_reducible refine Kept.fst (by assumption) ?_ | with_reducible apply Kept.ite | split | fail_if_no_progress (with_reducible apply Kept.lit))

theorem State.passon_kept {r s : State} (h0 : Kept r s) (h : Word) (ws : List Word) : Kept r (State.passon s h ws) := by
  unfold State.passon
  try dsimp only
  repeat' (first | with_reducible exact h0 | with_reducible assumption | with_reducible refine State.supply_kept ?_ _ _ (by assumption) | with_reducible apply State.failHere_kept | with_reducible refine State.takePass_kept ?_ _ _ (by assumption) | with_reducible apply State.passFails_kept | with_reducible apply State.emit_kept | with_reducible apply State.withLoader_kept | with_reducible refine fun _ _ => ?_ | with_reducible refine Kept.fst (by assumption) ?_ | with_reducible refine Kept.some (by assumption) ?_ | with_reducible apply Kept.ite | split | fail_if_no_progress (with_reducible apply Kept.lit))

theorem State.restores_kept {r s : State} (h : Kept r s) (ns : List Nat) : Kept r (State.restores s ns) := by
  unfold State.restores
  try dsimp only
  repeat' (first | with_reducible exact h | with_reducible assumption | with_reducible apply State.calLoad_kept | with_reducible refine fun _ _ => ?_ | with_reducible refine Kept.foldl (fun _ _ _ => ?_) _ ?_ | with_reducible apply Kept.ite | split | fail_if_no_progress (dsimp only))

theorem State.enableIo_kept {r s : State} (h : Kept r s) : Kept r (State.enableIo s) := by
  unfold State.enableIo
  repeat' (first | with_reducible exact h | with_reducible assumption | with_reducible apply State.setFld_kept | fail_if_no_progress (with_reducible apply Kept.lit))

theorem State.configRelease_kept {r s : State} (h : Kept r s) (us : Word) : Kept r (State.configRelease s us) := by
  unfold State.configRelease
  try dsimp only
  repeat' (first | with_reducible exact h | with_reducible assumption | with_reducible apply State.restores_kept | with_reducible apply State.setFld_kept | with_reducible apply State.setReg_kept | with_reducible apply State.setRole_kept | with_reducible apply State.enableIo_kept | with_reducible apply State.wdStart_kept | with_reducible apply State.withLoader_kept | with_reducible apply State.masterInit_kept | with_reducible apply State.sendTick_kept | with_reducible refine fun _ _ => ?_ | with_reducible refine Kept.foldl (fun _ _ _ => ?_) _ ?_ | with_reducible apply Kept.ite | split | fail_if_no_progress (dsimp only) | fail_if_no_progress (with_reducible apply Kept.lit))

theorem State.ioEnable_kept {r s : State} (h : Kept r s) : Kept r (State.ioEnable s) := by
  unfold State.ioEnable
  repeat' (first | with_reducible exact h | with_reducible assumption | with_reducible apply State.enableIo_kept | with_reducible apply Kept.ite | split)

theorem State.streamWordIn_kept {r s : State} (h : Kept r s) (src : LoadSource) (v : Word) : Kept r (State.streamWordIn s src v) := by
  unfold State.streamWordIn
  try dsimp only
  repeat' (first | with_reducible exact h | with_reducible assumption | with_reducible apply State.setFld_kept | with_reducible apply Eff.put_kept | with_reducible apply State.withLoader_kept | with_reducible apply State.attempt_kept | with_reducible refine fun _ _ => ?_ | with_reducible apply Kept.ite | split | fail_if_no_progress (with_reducible apply Kept.lit))

theorem State.loadDeadline_kept {r s : State} (h : Kept r s) : Kept r (State.loadDeadline s) := by
  unfold State.loadDeadline
  repeat' (first | with_reducible exact h | with_reducible assumption | with_reducible apply State.failHere_kept | with_reducible apply Kept.ite | split)

theorem State.clockTimeout_kept {r s : State} (h : Kept r s) : Kept r (State.clockTimeout s) := by
  unfold State.clockTimeout
  repeat' (first | with_reducible exact h | with_reducible assumption | with_reducible apply State.failHere_kept | with_reducible apply Kept.ite | split)

theorem State.cfgCmd_kept {r s : State} (h : Kept r s) (v : Word) : Kept r (State.cfgCmd s v) := by
  unfold State.cfgCmd
  try dsimp only
  repeat' (first | with_reducible exact h | with_reducible assumption | with_reducible apply State.attempt_kept | with_reducible apply State.setFld_kept | with_reducible apply State.withLoader_kept | with_reducible refine fun _ _ => ?_ | with_reducible apply Kept.ite | split | fail_if_no_progress (with_reducible apply Kept.lit))

theorem State.clearArgs_kept {r s : State} (h : Kept r s) : Kept r (State.clearArgs s) := by
  unfold State.clearArgs
  try dsimp only
  repeat' (first | with_reducible exact h | with_reducible assumption | with_reducible apply State.setReg_kept | with_reducible refine fun _ _ => ?_ | with_reducible refine Kept.foldl (fun _ _ _ => ?_) _ ?_ | fail_if_no_progress (dsimp only))

theorem State.lcResult_kept {r s : State} (h : Kept r s) (code : Nat) : Kept r (State.lcResult s code) := by
  unfold State.lcResult
  repeat' (first | with_reducible exact h | with_reducible assumption | with_reducible apply State.clearArgs_kept | with_reducible apply State.setFld_kept)

theorem State.lcRefuse_kept {r s : State} (h : Kept r s) (op : Nat) : Kept r (State.lcRefuse s op) := by
  unfold State.lcRefuse
  repeat' (first | with_reducible exact h | with_reducible assumption | with_reducible apply State.newNonce_kept | with_reducible apply Kept.ite | split)

theorem State.args_first (s : State) : (s.args.getD 0 0).toNat = s.fld (CFG_ARG_ARG 0) := by
  have e : s.args.getD 0 0 = s.reg (CFG_ARG_at 0) := rfl
  rw [e]
  have l := (s.reg (CFG_ARG_at 0)).isLt
  unfold State.fld RF.get
  simp only [bits]
  omega

theorem State.lcCmd_kept {r s : State} (h : Kept r s) (v : Word) : Kept r (s.lcCmd v) := by
  have key : s.lc.permits (v.toNat % 16) = true →
      ¬ (v.toNat % 16 = 9 ∧ (s.fld (CFG_ARG_ARG 0) > 63 ∨ s.fld (CFG_ARG_ARG 0) < s.lc.minver)) →
      Kept r (s.lcWith (fun x => { x with busy := some (v.toNat % 16, s.args) })) := by
    intro hp hv
    refine State.lcWith_kept h _ (fun c => ⟨?_, Nat.le_refl _, Nat.le_refl _⟩)
    generalize v.toNat % 16 = op at *
    rw [← State.args_first] at hv
    unfold LifeCycle.sound at *
    simp only [Bool.and_eq_true] at c ⊢
    refine ⟨c.1, ⟨⟨?_, ?_⟩, ?_⟩⟩
    · by_cases o : op = 5
      · subst o
        simp [LifeCycle.permits, LifeCycle.state] at hp ⊢
        split at hp <;> omega
      · simp [o]
    · by_cases o : op = 6
      · subst o
        simp [LifeCycle.permits, LifeCycle.state] at hp ⊢
        have := hp.1
        split at this <;> omega
      · simp [o]
    · by_cases o : op = 9
      · subst o
        simp at hv ⊢
        omega
      · simp [o]
  unfold State.lcCmd
  extract_lets op arg
  have l : Kept r (s.lcRefuse op) := State.lcRefuse_kept h _
  refine Kept.ite (State.setFld_kept (State.setFld_kept (State.clearArgs_kept l) _ _) _ _) (Kept.ite (State.lcResult_kept l _) (Kept.ite (State.lcResult_kept l _) ?_))
  split
  · exact State.lcResult_kept l _
  · next hp =>
    refine Kept.ite (State.lcResult_kept l _) ?_
    split
    · exact State.lcResult_kept h _
    · next hv =>
      have k := State.setFld_kept (key (by simpa using hp) hv) CFG_LCCMD_BUSY 1
      exact Kept.ite (State.stopEngines_kept (State.raiseTrip_kept k _)) k

theorem State.lcAfter_kept {r s : State} (h : Kept r s) (op : Nat) : Kept r (State.lcAfter s op) := by
  unfold State.lcAfter
  try dsimp only
  repeat' (first | with_reducible exact h | with_reducible assumption | with_reducible apply State.lcChanged_kept | with_reducible apply State.newNonce_kept | with_reducible apply State.setFld_kept | with_reducible apply State.internalHold_kept | with_reducible apply State.lcShow_kept | with_reducible refine Kept.fst (by assumption) ?_ | split | fail_if_no_progress (with_reducible apply Kept.lit))

theorem LifeCycle.act_onward {x : LifeCycle} {op : Nat} {g : List Word} (t : Nat) (e : x.busy = some (op, g)) (c : x.sound = true) :
    x.Onward { x.act op g t with busy := none } := by
  have b := LifeCycle.busy_sound c e
  have same : ∀ y : LifeCycle, y.st = x.st → y.minver = x.minver → (y.service = x.service ∨ y.service = none) →
      x.Onward { y with busy := none } := fun y h1 h2 h3 => LifeCycle.onward_loses h1 h2 h3 (.inr rfl) c
  have calm : x.st ≠ 2 → x.service.isNone = true := fun h => by
    cases w : x.service with
    | none => rfl
    | some _ => exact absurd (b.2.1 (by rw [w]; rfl)) h
  unfold LifeCycle.act
  split
  · exact same _ rfl rfl (.inl rfl)
  · exact same _ rfl rfl (.inl rfl)
  · exact same _ rfl rfl (.inl rfl)
  · exact same _ rfl rfl (.inl rfl)
  · have l := b.2.2.1 rfl
    exact ⟨by simp [LifeCycle.sound, calm (by omega)]; omega, Nat.le_succ _, Nat.le_refl _⟩
  · exact ⟨by simp [LifeCycle.sound, b.2.2.2.1 rfl, b.1.2.2], Nat.le_refl _, Nat.le_refl _⟩
  · exact same _ rfl rfl (.inr rfl)
  · exact ⟨by simp [LifeCycle.sound, b.1.2.2], b.1.1, Nat.le_refl _⟩
  · have l := b.2.2.2.2 rfl
    refine ⟨?_, Nat.le_refl _, l.1⟩
    simp only [LifeCycle.sound, Bool.and_true, Bool.and_eq_true, decide_eq_true_eq, Bool.or_eq_true, beq_iff_eq]
    refine ⟨⟨b.1.1, b.1.2.1, l.2⟩, ?_⟩
    by_cases w : x.st = 2
    · exact .inr w
    · exact .inl (calm w)
  · exact same _ rfl rfl (.inl rfl)

theorem State.lcDone_kept {r s : State} (h : Kept r s) (ok : Bool) : Kept r (s.lcDone ok) := by
  unfold State.lcDone
  split
  · exact h
  · next e =>
    have idle := State.lcWith_kept h (fun x => { x with busy := none }) (LifeCycle.onward_loses rfl rfl (.inl rfl) (.inr rfl))
    exact Kept.ite (State.lcResult_kept (State.lcAfter_kept (State.lcWith_kept h _ (LifeCycle.act_onward _ e)) _) _)
      (Kept.ite (State.lcResult_kept (State.newNonce_kept (State.addSat_kept idle _ _)) _) (State.lcResult_kept idle _))

theorem State.serviceExpiry_kept {r s : State} (h : Kept r s) : Kept r s.serviceExpiry := by
  unfold State.serviceExpiry
  split
  · exact Kept.ite (State.lcChanged_kept (State.lcWith_kept h _ (LifeCycle.onward_loses rfl rfl (.inr rfl) (.inl rfl)))) h
  · exact h

theorem State.lcOp_kept {r s : State} (h : Kept r s) (op : Nat) (v : Word) : Kept r (State.lcOp s op v) := by
  unfold State.lcOp
  repeat' (first | with_reducible exact h | with_reducible assumption | with_reducible apply State.lcCmd_kept)

theorem execResetNRelease_kept (s : State) : ∀ t', execResetNRelease s = .next t' → Kept s t' := by
  intro _ e; cases e; refine settle_keeps _ ?_
  repeat' (first | with_reducible exact Kept.refl _ | with_reducible apply State.resetRelease_kept)

theorem execSyncWord_kept (s : State) (w : FirstWord) : ∀ t', execSyncWord w s = .next t' → Kept s t' := by
  intro _ e; cases e; refine settle_keeps _ ?_
  repeat' (first | with_reducible exact Kept.refl _ | with_reducible apply State.syncWord_kept)

theorem execAuth_kept (s : State) (h : Word) (ws : List Word) : ∀ t', execAuth h ws s = .next t' → Kept s t' := by
  intro _ e; cases e; refine settle_keeps _ ?_
  repeat' (first | with_reducible exact Kept.refl _ | with_reducible apply State.authRecord_kept)

theorem execAuthCheckDone_kept (s : State) (u0 : Unit) (u1 : Unit) : ∀ t', execAuthCheckDone u0 u1 s = .next t' → Kept s t' := by
  intro _ e; cases e; refine settle_keeps _ ?_
  repeat' (first | with_reducible exact Kept.refl _ | with_reducible apply State.authDone_kept)

theorem execNopRecord_kept (s : State) (h : Word) (ws : List Word) : ∀ t', execNopRecord h ws s = .next t' → Kept s t' := by
  intro _ e; cases e; refine settle_keeps _ ?_
  repeat' (first | with_reducible exact Kept.refl _ | with_reducible apply State.nopRecord_kept)

theorem execRegwr_kept (s : State) (h : Word) (ws : List Word) : ∀ t', execRegwr h ws s = .next t' → Kept s t' := by
  intro _ e; cases e; refine settle_keeps _ ?_
  repeat' (first | with_reducible exact Kept.refl _ | with_reducible apply State.regwr_kept)

theorem execFrame_kept (s : State) (h : Word) (ws : List Word) : ∀ t', execFrame h ws s = .next t' → Kept s t' := by
  intro _ e; cases e; refine settle_keeps _ ?_
  repeat' (first | with_reducible exact Kept.refl _ | with_reducible apply State.frameRecord_kept)

theorem execCheckRecord_kept (s : State) (h : Word) (ws : List Word) : ∀ t', execCheckRecord h ws s = .next t' → Kept s t' := by
  intro _ e; cases e; refine settle_keeps _ ?_
  repeat' (first | with_reducible exact Kept.refl _ | with_reducible apply State.checkRecord_kept)

theorem execRbegin_kept (s : State) (h : Word) : ∀ t', execRbegin h s = .next t' → Kept s t' := by
  intro _ e; cases e; refine settle_keeps _ ?_
  repeat' (first | with_reducible exact Kept.refl _ | with_reducible apply State.rbegin_kept)

theorem execRend_kept (s : State) (h : Word) : ∀ t', execRend h s = .next t' → Kept s t' := by
  intro _ e; cases e; refine settle_keeps _ ?_
  repeat' (first | with_reducible exact Kept.refl _ | with_reducible apply State.rend_kept)

theorem execKeysel_kept (s : State) (h : Word) (plen : Word) : ∀ t', execKeysel h plen s = .next t' → Kept s t' := by
  intro _ e; cases e; refine settle_keeps _ ?_
  repeat' (first | with_reducible exact Kept.refl _ | with_reducible apply State.keysel_kept)

theorem execKeyselBlock_kept (s : State) (b : CipherBlock) : ∀ t', execKeyselBlock b s = .next t' → Kept s t' := by
  intro _ e; cases e; refine settle_keeps _ ?_
  repeat' (first | with_reducible exact Kept.refl _ | with_reducible apply State.keyselBlock_kept)

theorem execPasson_kept (s : State) (h : Word) (ws : List Word) : ∀ t', execPasson h ws s = .next t' → Kept s t' := by
  intro _ e; cases e; refine settle_keeps _ ?_
  repeat' (first | with_reducible exact Kept.refl _ | with_reducible apply State.passon_kept)

theorem execEnd_kept (s : State) (h : Word) (u1 : Unit) : ∀ t', execEnd h u1 s = .next t' → Kept s t' := by
  intro _ e; cases e; refine settle_keeps _ ?_
  repeat' (first | with_reducible exact Kept.refl _ | with_reducible apply State.endRecord_kept)

theorem execConfigRelease_kept (s : State) (us : Word) : ∀ t', execConfigRelease us s = .next t' → Kept s t' := by
  intro _ e; cases e; refine settle_keeps _ ?_
  repeat' (first | with_reducible exact Kept.refl _ | with_reducible apply State.configRelease_kept)

theorem execIoEnable_kept (s : State) : ∀ t', execIoEnable s = .next t' → Kept s t' := by
  intro _ e; cases e; refine settle_keeps _ ?_
  repeat' (first | with_reducible exact Kept.refl _ | with_reducible apply State.ioEnable_kept)

theorem execCfgLoadwinWrite_kept (s : State) (v : Word) : ∀ t', execCfgLoadwinWrite v s = .next t' → Kept s t' := by
  intro _ e; cases e; refine settle_keeps _ ?_
  repeat' (first | with_reducible exact Kept.refl _ | with_reducible apply State.streamWordIn_kept)

theorem execLoadDeadline_kept (s : State) : ∀ t', execLoadDeadline s = .next t' → Kept s t' := by
  intro _ e; cases e; refine settle_keeps _ ?_
  repeat' (first | with_reducible exact Kept.refl _ | with_reducible apply State.loadDeadline_kept)

theorem execRestart_kept (s : State) (v : Word) : ∀ t', execRestart v s = .next t' → Kept s t' := by
  intro _ e; cases e; refine settle_keeps _ ?_
  repeat' (first | with_reducible exact Kept.refl _ | with_reducible apply State.cfgCmd_kept)

theorem execFuseImgkey_kept (s : State) (v : Word) : ∀ t', execFuseImgkey v s = .next t' → Kept s t' := by
  intro _ e; cases e; refine settle_keeps _ ?_
  repeat' (first | with_reducible exact Kept.refl _ | with_reducible apply State.lcOp_kept)

theorem execFuseSvckey_kept (s : State) (v : Word) : ∀ t', execFuseSvckey v s = .next t' → Kept s t' := by
  intro _ e; cases e; refine settle_keeps _ ?_
  repeat' (first | with_reducible exact Kept.refl _ | with_reducible apply State.lcOp_kept)

theorem execFuseAeskey_kept (s : State) (v : Word) : ∀ t', execFuseAeskey v s = .next t' → Kept s t' := by
  intro _ e; cases e; refine settle_keeps _ ?_
  repeat' (first | with_reducible exact Kept.refl _ | with_reducible apply State.lcOp_kept)

theorem execKeyram_kept (s : State) (v : Word) : ∀ t', execKeyram v s = .next t' → Kept s t' := by
  intro _ e; cases e; refine settle_keeps _ ?_
  repeat' (first | with_reducible exact Kept.refl _ | with_reducible apply State.lcOp_kept)

theorem execAdvance_kept (s : State) (v : Word) : ∀ t', execAdvance v s = .next t' → Kept s t' := by
  intro _ e; cases e; refine settle_keeps _ ?_
  repeat' (first | with_reducible exact Kept.refl _ | with_reducible apply State.lcOp_kept)

theorem execService_kept (s : State) (v : Word) : ∀ t', execService v s = .next t' → Kept s t' := by
  intro _ e; cases e; refine settle_keeps _ ?_
  repeat' (first | with_reducible exact Kept.refl _ | with_reducible apply State.lcOp_kept)

theorem execLeave_kept (s : State) (v : Word) : ∀ t', execLeave v s = .next t' → Kept s t' := by
  intro _ e; cases e; refine settle_keeps _ ?_
  repeat' (first | with_reducible exact Kept.refl _ | with_reducible apply State.lcOp_kept)

theorem execRetire_kept (s : State) (v : Word) : ∀ t', execRetire v s = .next t' → Kept s t' := by
  intro _ e; cases e; refine settle_keeps _ ?_
  repeat' (first | with_reducible exact Kept.refl _ | with_reducible apply State.lcOp_kept)

theorem execSetminver_kept (s : State) (v : Word) : ∀ t', execSetminver v s = .next t' → Kept s t' := by
  intro _ e; cases e; refine settle_keeps _ ?_
  repeat' (first | with_reducible exact Kept.refl _ | with_reducible apply State.lcOp_kept)

theorem execFuseAltboot_kept (s : State) (v : Word) : ∀ t', execFuseAltboot v s = .next t' → Kept s t' := by
  intro _ e; cases e; refine settle_keeps _ ?_
  repeat' (first | with_reducible exact Kept.refl _ | with_reducible apply State.lcOp_kept)

theorem execLccmdDone_kept (s : State) (ok : Bool) : ∀ t', execLccmdDone ok s = .next t' → Kept s t' := by
  intro _ e; cases e; refine settle_keeps _ ?_
  repeat' (first | with_reducible exact Kept.refl _ | with_reducible apply State.lcDone_kept)

theorem execServiceExpiry_kept (s : State) : ∀ t', execServiceExpiry s = .next t' → Kept s t' := by
  intro _ e; cases e; refine settle_keeps _ ?_
  repeat' (first | with_reducible exact Kept.refl _ | with_reducible apply State.serviceExpiry_kept)

theorem execCfgClockTimeout_kept (s : State) : ∀ t', execCfgClockTimeout s = .next t' → Kept s t' := by
  intro _ e; cases e; refine settle_keeps _ ?_
  repeat' (first | with_reducible exact Kept.refl _ | with_reducible apply State.clockTimeout_kept)

end Sys2Proof.Machine
end

