-- ==== Sys2Proof/Laws/KeptBoundary.lean ====
section
/-! SUPPORT. What the operations of Machine/Boundary.lean keep. -/

set_option linter.unusedTactic false
set_option linter.unreachableTactic false
set_option linter.unusedVariables false

namespace Sys2Proof.Machine

theorem State.capApply_kept {r s : State} (h : Kept r s) (old : State) (k : Nat) : Kept r (State.capApply old s k) := by
  unfold State.capApply
  try dsimp only
  repeat' (first | with_reducible exact h | with_reducible assumption | with_reducible apply State.setCap_kept | with_reducible apply State.level_kept | with_reducible refine fun _ _ => ?_ | with_reducible refine Kept.foldl (fun _ _ _ => ?_) _ ?_ | with_reducible apply Kept.ite | split | fail_if_no_progress (dsimp only) | fail_if_no_progress (with_reducible apply Kept.lit))

theorem State.pwmApply_kept {r s : State} (h : Kept r s) (old : State) (k : Nat) : Kept r (State.pwmApply old s k) := by
  unfold State.pwmApply
  try dsimp only
  repeat' (first | with_reducible exact h | with_reducible assumption | with_reducible apply State.pwmStart_kept | with_reducible apply State.pwmClears_kept | with_reducible refine fun _ _ => ?_ | with_reducible refine Kept.foldl (fun _ _ _ => ?_) _ ?_ | with_reducible apply Kept.ite | split | fail_if_no_progress (dsimp only))

theorem State.bayApply_kept {r s : State} (h : Kept r s) (old : State) (k : Nat) (x : Strobe) : Kept r (State.bayApply old s k x) := by
  unfold State.bayApply
  try dsimp only
  repeat' (first | with_reducible exact h | with_reducible assumption | with_reducible apply State.setRoutesBy_kept | with_reducible apply State.rcalApply_kept | with_reducible apply State.refOk_kept | with_reducible apply State.capApply_kept | with_reducible apply State.pwmApply_kept | with_reducible apply State.dacApply_kept | with_reducible refine fun _ _ => ?_ | with_reducible refine Kept.foldl (fun _ _ _ => ?_) _ ?_ | with_reducible apply Kept.ite | split | fail_if_no_progress (dsimp only))

theorem State.sectApply_kept {r s : State} (h : Kept r s) (old : State) (k : Nat) (x : Strobe) : Kept r (State.sectApply old s k x) := by
  unfold State.sectApply
  try dsimp only
  repeat' (first | with_reducible exact h | with_reducible assumption | with_reducible apply State.bayApply_kept | with_reducible apply State.applyReq_kept | with_reducible refine fun _ _ => ?_ | with_reducible refine Kept.foldl (fun _ _ _ => ?_) _ ?_ | with_reducible apply Kept.ite | split | fail_if_no_progress (dsimp only))

theorem State.modApply_kept {r s : State} (h : Kept r s) (old : State) (g : Nat) (x : Strobe) : Kept r (State.modApply old s g x) := by
  unfold State.modApply
  try dsimp only
  repeat' (first | with_reducible exact h | with_reducible assumption | with_reducible apply State.adcApply_kept | with_reducible apply State.cmpApply_kept | with_reducible apply State.winApply_kept | with_reducible apply State.cmpLevels_kept | with_reducible refine fun _ _ => ?_ | with_reducible refine Kept.foldl (fun _ _ _ => ?_) _ ?_ | with_reducible apply Kept.ite | split | fail_if_no_progress (dsimp only))

theorem State.clocksStart_kept {r s : State} (h : Kept r s) (old : State) : Kept r (State.clocksStart old s) := by
  unfold State.clocksStart
  try dsimp only
  repeat' (first | with_reducible exact h | with_reducible assumption | with_reducible apply State.shortSets_kept | with_reducible apply State.mbxDrain_kept | with_reducible apply State.reclockAll_kept | with_reducible apply State.cmpSync_kept | with_reducible apply State.adcSwArrive_kept | with_reducible refine fun _ _ => ?_ | with_reducible refine Kept.foldl (fun _ _ _ => ?_) _ ?_ | with_reducible apply Kept.ite | split | fail_if_no_progress (dsimp only))

theorem State.clocksStand_kept {r s : State} (h : Kept r s) (old : State) : Kept r (State.clocksStand old s) := by
  unfold State.clocksStand
  try dsimp only
  repeat' (first | with_reducible exact h | with_reducible assumption | with_reducible apply State.reclockAll_kept | with_reducible refine fun _ _ => ?_ | with_reducible refine Kept.foldl (fun _ _ _ => ?_) _ ?_ | with_reducible apply Kept.ite | split | fail_if_no_progress (dsimp only) | fail_if_no_progress (with_reducible apply Kept.lit))

theorem State.modFreq_kept {r s : State} (h : Kept r s) (old : State) (g : Nat) : Kept r (State.modFreq old s g) := by
  unfold State.modFreq
  try dsimp only
  repeat' (first | with_reducible exact h | with_reducible assumption | with_reducible apply State.adcApply_kept | with_reducible refine fun _ _ => ?_ | with_reducible refine Kept.foldl (fun _ _ _ => ?_) _ ?_ | with_reducible apply Kept.ite | split | fail_if_no_progress (dsimp only))

theorem State.applied_kept {r s : State} (h : Kept r s) (x : Strobe) : Kept r (State.applied s x) := by
  unfold State.applied
  try dsimp only
  repeat' (first | with_reducible exact h | with_reducible assumption | with_reducible apply State.closeSession_kept | with_reducible apply State.setFld_kept | with_reducible apply State.addSat_kept | with_reducible apply State.trace_kept)

theorem State.takeStrobe_kept {r s0 : State} (h : Kept r s0) (d : Domain) (x : Strobe) : Kept r (State.takeStrobe s0 d x) := by
  unfold State.takeStrobe
  try dsimp only
  repeat' (first | with_reducible exact h | with_reducible assumption | with_reducible apply State.reclockAll_kept | with_reducible apply State.takeWord_kept | with_reducible apply State.rewriteFrame_kept | with_reducible apply State.sectApply_kept | with_reducible apply State.modApply_kept | with_reducible apply asyncCheck_kept | with_reducible apply State.masterApply_kept | with_reducible apply State.pinsApply_kept | with_reducible apply State.findConflicts_kept | with_reducible apply State.lineApply_kept | with_reducible apply State.clocksStart_kept | with_reducible apply State.clocksStand_kept | with_reducible apply State.modFreq_kept | with_reducible apply State.poolStart_kept | with_reducible apply State.applied_kept | with_reducible refine fun _ _ => ?_ | with_reducible refine Kept.foldl (fun _ _ _ => ?_) _ ?_ | with_reducible refine Kept.fst (by assumption) ?_ | with_reducible apply Kept.ite | split | fail_if_no_progress (dsimp only) | fail_if_no_progress (with_reducible apply Kept.lit))

theorem State.takeStrobes_kept {r s : State} (h : Kept r s) (d : Domain) : Kept r (State.takeStrobes s d) := by
  unfold State.takeStrobes
  try dsimp only
  repeat' (first | with_reducible exact h | with_reducible assumption | with_reducible apply State.takeStrobe_kept | with_reducible refine fun _ _ => ?_ | with_reducible refine Kept.foldl (fun _ _ _ => ?_) _ ?_ | with_reducible apply Kept.ite | split | fail_if_no_progress (dsimp only) | fail_if_no_progress (with_reducible apply Kept.lit))

theorem State.layoutNow_kept {r s : State} (h : Kept r s) (t : Nat) : Kept r (State.layoutNow s t) := by
  unfold State.layoutNow
  try dsimp only
  repeat' (first | with_reducible exact h | with_reducible assumption | with_reducible apply State.setEng_kept | with_reducible apply State.layoutTick_kept | with_reducible apply Kept.ite | split | fail_if_no_progress (with_reducible apply Kept.lit))

theorem State.slotOutputs_kept {r s : State} (h : Kept r s) (i : Nat) (taken : List Strobe) : Kept r (State.slotOutputs s i taken) := by
  unfold State.slotOutputs
  try dsimp only
  repeat' (first | with_reducible exact h | with_reducible assumption | with_reducible apply State.releaseDue_kept | with_reducible apply State.addSat_kept | with_reducible apply State.setFld_kept | with_reducible apply State.drive_kept | with_reducible apply State.setChan_kept | with_reducible refine fun _ _ => ?_ | with_reducible refine Kept.foldl (fun _ _ _ => ?_) _ ?_ | with_reducible apply Kept.ite | split | fail_if_no_progress (dsimp only) | fail_if_no_progress (with_reducible apply Kept.lit))

theorem State.pwmSync_kept {r s : State} (h : Kept r s) (old : State) (k : Nat) : Kept r (State.pwmSync old s k) := by
  unfold State.pwmSync
  try dsimp only
  repeat' (first | with_reducible exact h | with_reducible assumption | with_reducible apply State.pwmStart_kept | with_reducible apply State.pwmClears_kept | with_reducible refine fun _ _ => ?_ | with_reducible refine Kept.foldl (fun _ _ _ => ?_) _ ?_ | with_reducible apply Kept.ite | split | fail_if_no_progress (dsimp only))

theorem State.sectBoundary_kept {r s0 : State} (h : Kept r s0) (k : Nat) (d : Domain) : Kept r (State.sectBoundary s0 k d) := by
  unfold State.sectBoundary
  try dsimp only
  repeat' (first | with_reducible exact h | with_reducible assumption | with_reducible apply State.setMarch_kept | with_reducible apply State.slotChanges_kept | with_reducible apply State.takeStrobes_kept | with_reducible apply State.pwmSync_kept | with_reducible apply State.layoutNow_kept | with_reducible apply State.slotOutputs_kept | with_reducible apply State.dacBoundary_kept | with_reducible apply State.bayBoundary_kept | with_reducible apply State.mbxDrain_kept | with_reducible apply State.fabServeAll_kept | with_reducible refine fun _ _ => ?_ | with_reducible refine Kept.foldl (fun _ _ _ => ?_) _ ?_ | with_reducible apply Kept.ite | split | fail_if_no_progress (dsimp only) | fail_if_no_progress (with_reducible apply Kept.lit))

theorem State.modBoundary_kept {r s : State} (h : Kept r s) (g : Nat) (d : Domain) : Kept r (State.modBoundary s g d) := by
  unfold State.modBoundary
  try dsimp only
  repeat' (first | with_reducible exact h | with_reducible assumption | with_reducible apply State.takeStrobes_kept | with_reducible apply State.cmpReturns_kept | with_reducible apply State.adcTrigger_kept | with_reducible apply State.tickClears_kept | with_reducible refine fun _ _ => ?_ | with_reducible refine Kept.foldl (fun _ _ _ => ?_) _ ?_ | with_reducible apply Kept.ite | split | fail_if_no_progress (dsimp only))

theorem State.stepCopy_kept {r s : State} (h : Kept r s) (d : Domain) : Kept r (State.stepCopy s d) := by
  unfold State.stepCopy
  try dsimp only
  repeat' (first | with_reducible exact h | with_reducible assumption | with_reducible apply State.setFld_kept | with_reducible apply Kept.ite | split | fail_if_no_progress (with_reducible apply Kept.lit))

theorem State.toArrival_kept {r s : State} (h : Kept r s) : Kept r (State.toArrival s) := by
  unfold State.toArrival
  try dsimp only
  repeat' (first | with_reducible exact h | with_reducible assumption | with_reducible apply State.advance_kept | with_reducible apply Kept.ite | split)

theorem State.passedOver_kept {r s : State} (h : Kept r s) (old : State) : Kept r (State.passedOver old s) := by
  unfold State.passedOver
  try dsimp only
  repeat' (first | with_reducible exact h | with_reducible assumption | with_reducible apply State.orBit_kept | with_reducible apply State.setFld_kept | with_reducible refine fun _ _ => ?_ | with_reducible refine Kept.foldl (fun _ _ _ => ?_) _ ?_ | with_reducible refine Kept.fst (by assumption) ?_ | with_reducible apply Kept.ite | split | fail_if_no_progress (dsimp only) | fail_if_no_progress (with_reducible apply Kept.lit))

theorem State.clockResumes_kept {r s : State} (h : Kept r s) (d : Domain) : Kept r (State.clockResumes s d) := by
  unfold State.clockResumes
  try dsimp only
  repeat' (first | with_reducible exact h | with_reducible assumption | with_reducible apply State.clocksStart_kept | with_reducible apply State.fabInit_kept | with_reducible refine Kept.fst (by assumption) ?_ | with_reducible apply Kept.ite | split | fail_if_no_progress (with_reducible apply Kept.lit))

theorem State.closeTicks_kept {r s : State} (h : Kept r s) (d : Domain) : Kept r (State.closeTicks s d) := by
  unfold State.closeTicks
  try dsimp only
  repeat' (first | with_reducible exact h | with_reducible assumption | with_reducible apply State.closeTick_kept | with_reducible refine fun _ _ => ?_ | with_reducible refine Kept.foldl (fun _ _ _ => ?_) _ ?_ | with_reducible refine Kept.fst (by assumption) ?_ | split | fail_if_no_progress (dsimp only) | fail_if_no_progress (with_reducible apply Kept.lit))

theorem State.tickBoundary_kept {r s : State} (h : Kept r s) (d : Domain) (skew : Bool) : Kept r (State.tickBoundary s d skew) := by
  unfold State.tickBoundary
  try dsimp only
  repeat' (first | with_reducible exact h | with_reducible assumption | with_reducible apply State.toArrival_kept | with_reducible apply State.clockResumes_kept | with_reducible apply State.closeTicks_kept | with_reducible apply State.stepCopy_kept | with_reducible apply State.orBit_kept | with_reducible apply State.sectBoundary_kept | with_reducible apply State.modBoundary_kept | with_reducible apply State.takeStrobes_kept | with_reducible apply State.pinsBoundary_kept | with_reducible apply State.pinOutputs_kept | with_reducible apply State.deposeDue_kept | with_reducible refine Kept.fst (by assumption) ?_ | with_reducible apply Kept.ite | split | fail_if_no_progress (with_reducible apply Kept.lit))

theorem State.missed_kept {r s : State} (h : Kept r s) : Kept r (State.missed s) := by
  unfold State.missed
  try dsimp only
  repeat' (first | with_reducible exact h | with_reducible assumption | with_reducible apply State.orBit_kept | with_reducible refine fun _ _ => ?_ | with_reducible refine Kept.foldl (fun _ _ _ => ?_) _ ?_ | with_reducible apply Kept.ite | split | fail_if_no_progress (dsimp only) | fail_if_no_progress (with_reducible apply Kept.lit))

theorem State.tickEdge_kept {r s : State} (h : Kept r s) : Kept r (State.tickEdge s) := by
  unfold State.tickEdge
  try dsimp only
  repeat' (first | with_reducible exact h | with_reducible assumption | with_reducible apply State.strobeLate_kept | with_reducible apply State.missed_kept | with_reducible apply State.toTickEdge_kept | with_reducible apply State.strobe_kept | with_reducible apply State.pairEdge_kept | with_reducible apply Kept.ite | split | fail_if_no_progress (with_reducible apply Kept.lit))

theorem State.applyStrobe_kept {r s : State} (h : Kept r s) : Kept r (State.applyStrobe s) := by
  unfold State.applyStrobe
  try dsimp only
  repeat' (first | with_reducible exact h | with_reducible assumption | with_reducible apply State.toTickEdge_kept | with_reducible apply State.tickEdge_kept | with_reducible refine Kept.fst (by assumption) ?_ | with_reducible apply Kept.ite | split | fail_if_no_progress (with_reducible apply Kept.lit))

theorem State.cycle_kept {r s : State} (h : Kept r s) : Kept r (State.cycle s) := by
  unfold State.cycle
  repeat' (first | with_reducible exact h | with_reducible assumption | with_reducible apply State.tickEdge_kept | with_reducible apply State.advance_kept | with_reducible apply Kept.ite | split)

theorem State.chanEvent_kept {r s : State} (h : Kept r s) (k : Nat) (e : Nat) : Kept r (State.chanEvent s k e) := by
  unfold State.chanEvent
  try dsimp only
  repeat' (first | with_reducible exact h | with_reducible assumption | with_reducible apply State.setChan_kept | with_reducible refine fun _ _ => ?_ | with_reducible refine Kept.foldl (fun _ _ _ => ?_) _ ?_ | with_reducible apply Kept.ite | split | fail_if_no_progress (dsimp only) | fail_if_no_progress (with_reducible apply Kept.lit))

theorem State.eventDelivery_kept {r s : State} (h : Kept r s) (e : Nat) (d : Domain) : Kept r (State.eventDelivery s e d) := by
  unfold State.eventDelivery
  try dsimp only
  repeat' (first | with_reducible exact h | with_reducible assumption | with_reducible apply State.chanEvent_kept | with_reducible apply State.dmaEvent_kept | with_reducible apply State.adcTrigger_kept | with_reducible refine fun _ _ => ?_ | with_reducible refine Kept.foldl (fun _ _ _ => ?_) _ ?_ | with_reducible refine Kept.fst (by assumption) ?_ | with_reducible apply Kept.ite | split | fail_if_no_progress (dsimp only) | fail_if_no_progress (with_reducible apply Kept.lit))

theorem execTickEdge_kept (s : State) : ∀ t', execTickEdge s = .next t' → Kept s t' := by
  intro _ e; cases e; refine settle_keeps _ ?_
  repeat' (first | with_reducible exact Kept.refl _ | with_reducible apply State.tickEdge_kept)

theorem execTickBoundary_kept (s : State) (d : Arrival) : ∀ t', execTickBoundary d s = .next t' → Kept s t' := by
  intro _ e; cases e; refine settle_keeps _ ?_
  repeat' (first | with_reducible exact Kept.refl _ | with_reducible apply State.tickBoundary_kept)

theorem execCaptureEdge_kept (s : State) (k : Fin 16) (u : Fin 8) (level : Bool) (n : Nat) : ∀ t', execCaptureEdge k u level n s = .next t' → Kept s t' := by
  intro _ e; cases e; refine settle_keeps _ ?_
  repeat' (first | with_reducible exact Kept.refl _ | with_reducible apply State.level_kept | with_reducible apply State.captureEdge_kept | with_reducible apply Kept.ite | split)

theorem execApplyStrobe_kept (s : State) : ∀ t', execApplyStrobe s = .next t' → Kept s t' := by
  intro _ e; cases e; refine settle_keeps _ ?_
  repeat' (first | with_reducible exact Kept.refl _ | with_reducible apply State.applyStrobe_kept)

theorem execEventDelivery_kept (s : State) (e : Nat) (d : Domain) : ∀ t', execEventDelivery e d s = .next t' → Kept s t' := by
  intro _ e; cases e; refine settle_keeps _ ?_
  repeat' (first | with_reducible exact Kept.refl _ | with_reducible apply State.eventDelivery_kept)

end Sys2Proof.Machine
end

