-- ==== Sys2Proof/Laws/KeptRegion.lean ====
section
/-! SUPPORT. What the operations of Machine/Region.lean keep. -/

set_option linter.unusedTactic false
set_option linter.unreachableTactic false
set_option linter.unusedVariables false

namespace Sys2Proof.Machine

theorem State.chanHeld_kept {r s : State} (h : Kept r s) (i : Nat) : Kept r (State.chanHeld s i) := by
  unfold State.chanHeld
  try dsimp only
  repeat' (first | with_reducible exact h | with_reducible assumption | with_reducible apply State.takeFault_kept | with_reducible apply State.setSlot_kept | with_reducible apply State.releaseChan_kept | with_reducible apply Kept.ite | split | fail_if_no_progress (with_reducible apply Kept.lit))

theorem State.chanDue_kept {r s : State} (h : Kept r s) (i : Nat) : Kept r (State.chanDue s i) := by
  unfold State.chanDue
  repeat' (first | with_reducible exact h | with_reducible assumption | with_reducible apply State.slotChanges_kept | with_reducible apply State.releaseDue_kept)

theorem State.engineHeld_kept {r s : State} (h : Kept r s) (t : Nat) : Kept r (State.engineHeld s t) := by
  unfold State.engineHeld
  try dsimp only
  repeat' (first | with_reducible exact h | with_reducible assumption | with_reducible apply State.closeAct_kept | with_reducible apply State.setEng_kept | with_reducible apply Kept.ite | split | fail_if_no_progress (with_reducible apply Kept.lit))

theorem State.clearTiles_kept {r0 s : State} (h : Kept r0 s) (r : Nat) : Kept r0 (s.clearTiles r) :=
  h.parts id (twf_filter _ _) (twf_filter _ _) rfl rfl rfl

theorem State.istHeld_kept {r s : State} (h : Kept r s) (k : Nat) : Kept r (State.istHeld s k) := by
  unfold State.istHeld
  repeat' (first | with_reducible exact h | with_reducible assumption | fail_if_no_progress (with_reducible apply Kept.lit))

theorem State.sectorCleared_kept {r s : State} (h : Kept r s) (k : Nat) : Kept r (s.sectorCleared k) :=
  h.parts (twf_filter _ _) id id rfl rfl rfl

theorem State.sectorHeld_kept {r s : State} (h : Kept r s) (k : Nat) : Kept r (s.sectorHeld k) := by
  have h1 : Kept r (([2 * k, 2 * k + 1].foldl State.adcHold s).istHeld k) :=
    State.istHeld_kept (Kept.foldl (fun _ _ g => State.adcHold_kept g _) _ h) k
  have h2 := State.sectorCleared_kept h1 k
  unfold State.sectorHeld
  extract_lets ended forced s1 s2 s3
  have h3 : Kept r s2 := Kept.foldl (fun _ _ g => State.setFld_kept (State.dmaEnd_kept g _ _ _) _ _) _ h2
  have h4 : Kept r s3 := Kept.foldl (fun _ _ g => State.setFld_kept g _ _) _ h3
  exact State.setB_kept (State.setB_kept (State.setFld_kept (State.setFld_kept h4 _ _) _ _) _ _) _ _

theorem State.padsHeld_kept {r0 s : State} (h : Kept r0 s) (r : Nat) : Kept r0 (State.padsHeld s r) := by
  unfold State.padsHeld
  try dsimp only
  repeat' (first | with_reducible exact h | with_reducible assumption | with_reducible refine fun _ _ => ?_ | with_reducible refine Kept.foldl (fun _ _ _ => ?_) _ ?_ | fail_if_no_progress (dsimp only) | fail_if_no_progress (with_reducible apply Kept.lit))

theorem State.neighbours_kept {r s : State} (h : Kept r s) (k : Nat) : Kept r (State.neighbours s k) := by
  unfold State.neighbours
  try dsimp only
  repeat' (first | with_reducible exact h | with_reducible assumption | with_reducible apply State.xtLost_kept | with_reducible apply Kept.ite | split)

theorem State.regionHold_kept {r0 s : State} (h : Kept r0 s) (r : Nat) : Kept r0 (State.regionHold s r) := by
  unfold State.regionHold
  try dsimp only
  repeat' (first | with_reducible exact h | with_reducible assumption | with_reducible apply State.toArrival_kept | with_reducible apply State.padsHeld_kept | with_reducible apply State.engineHeld_kept | with_reducible apply State.chanDue_kept | with_reducible apply State.chanHeld_kept | with_reducible apply State.setFld_kept | with_reducible apply State.sectorHeld_kept | with_reducible apply State.clearTiles_kept | with_reducible apply State.neighbours_kept | with_reducible apply State.invalidate_kept | with_reducible apply State.desync_kept | with_reducible apply State.startReload_kept | with_reducible refine fun _ _ => ?_ | with_reducible refine Kept.foldl (fun _ _ _ => ?_) _ ?_ | with_reducible refine Kept.fst (by assumption) ?_ | with_reducible apply Kept.ite | split | fail_if_no_progress (dsimp only) | fail_if_no_progress (with_reducible apply Kept.lit))

theorem State.calCollect_kept {r s : State} (h : Kept r s) (n : Nat) (c : Nat) : Kept r (State.calCollect s n c) := by
  unfold State.calCollect
  try dsimp only
  repeat' (first | with_reducible exact h | with_reducible assumption | with_reducible apply State.setFld_kept | with_reducible apply State.withLoader_kept | with_reducible refine fun _ _ => ?_ | with_reducible refine Kept.fst (by assumption) ?_ | split | fail_if_no_progress (with_reducible apply Kept.lit))

theorem State.partialCheckDone_kept {r s : State} (h : Kept r s) : Kept r (State.partialCheckDone s) := by
  unfold State.partialCheckDone
  try dsimp only
  repeat' (first | with_reducible exact h | with_reducible assumption | with_reducible apply State.calCollect_kept | with_reducible apply State.setFld_kept | with_reducible apply State.partialError_kept | with_reducible refine fun _ _ => ?_ | with_reducible refine Kept.foldl (fun _ _ _ => ?_) _ ?_ | with_reducible refine Kept.fst (by assumption) ?_ | with_reducible apply Kept.ite | split | fail_if_no_progress (dsimp only) | fail_if_no_progress (with_reducible apply Kept.lit))

theorem State.regionRelease_kept {r0 s : State} (h : Kept r0 s) (r : Nat) : Kept r0 (State.regionRelease s r) := by
  unfold State.regionRelease
  try dsimp only
  repeat' (first | with_reducible exact h | with_reducible assumption | with_reducible apply State.toArrival_kept | with_reducible apply State.setFld_kept | with_reducible apply State.adcClear_kept | with_reducible apply State.setReg_kept | with_reducible apply State.takeStrobe_kept | with_reducible apply State.refOk_kept | with_reducible apply State.invalidate_kept | with_reducible apply State.joinFreed_kept | with_reducible apply State.startReload_kept | with_reducible refine fun _ _ => ?_ | with_reducible refine Kept.foldl (fun _ _ _ => ?_) _ ?_ | with_reducible refine Kept.fst (by assumption) ?_ | with_reducible apply Kept.ite | split | fail_if_no_progress (dsimp only) | fail_if_no_progress (with_reducible apply Kept.lit))

theorem State.abandon_kept {r s : State} (h : Kept r s) : Kept r (State.abandon s) := by
  unfold State.abandon
  try dsimp only
  repeat' (first | with_reducible exact h | with_reducible assumption | with_reducible apply State.partialError_kept | with_reducible apply State.setFld_kept | with_reducible apply State.withLoader_kept | with_reducible refine fun _ _ => ?_ | with_reducible apply Kept.ite | split | fail_if_no_progress (with_reducible apply Kept.lit))

theorem State.requestReload_kept {r0 s : State} (h : Kept r0 s) (r : Nat) : Kept r0 (State.requestReload s r) := by
  unfold State.requestReload
  try dsimp only
  repeat' (first | with_reducible exact h | with_reducible assumption | with_reducible apply State.startReload_kept | with_reducible apply State.holdRegion_kept | with_reducible apply Kept.ite | split | fail_if_no_progress (with_reducible apply Kept.lit))

theorem State.prCmd_kept {r s : State} (h : Kept r s) (v : Word) : Kept r (State.prCmd s v) := by
  unfold State.prCmd
  try dsimp only
  repeat' (first | with_reducible exact h | with_reducible assumption | with_reducible apply State.abandon_kept | with_reducible apply State.requestReload_kept | with_reducible refine Kept.fst (by assumption) ?_ | with_reducible apply Kept.ite | split | fail_if_no_progress (with_reducible apply Kept.lit))

theorem State.scrubCe_kept {r s : State} (h : Kept r s) : Kept r (State.scrubCe s) := by
  unfold State.scrubCe
  repeat' (first | with_reducible exact h | with_reducible assumption | with_reducible apply State.addSat_kept | with_reducible apply State.setFld_kept)

theorem State.scrubUe_kept {r s : State} (h : Kept r s) (kind : Nat) (addr : Nat) (region : Option Nat) : Kept r (State.scrubUe s kind addr region) := by
  unfold State.scrubUe
  try dsimp only
  repeat' (first | with_reducible exact h | with_reducible assumption | with_reducible apply State.setReg_kept | with_reducible apply State.setFld_kept | with_reducible apply State.addSat_kept | with_reducible apply State.raiseWith_kept | with_reducible apply State.faultEntry_kept | with_reducible apply State.holdRegion_kept | with_reducible refine fun _ _ => ?_ | with_reducible refine Kept.fst (by assumption) ?_ | with_reducible apply Kept.ite | split | fail_if_no_progress (with_reducible apply Kept.lit))

theorem State.flipReg_kept {r s : State} (h : Kept r s) (f : Nat) (w : Nat) (m : Nat) : Kept r (State.flipReg s f w m) := by
  unfold State.flipReg
  try dsimp only
  repeat' (first | with_reducible exact h | with_reducible assumption | with_reducible apply State.setReg_kept | with_reducible apply State.setRoutes_kept | with_reducible refine Kept.foldl (fun _ _ _ => ?_) _ ?_ | with_reducible refine Kept.fst (by assumption) ?_ | with_reducible apply Kept.ite | split | fail_if_no_progress (dsimp only) | fail_if_no_progress (with_reducible apply Kept.lit))

theorem State.visitFrame_kept {r s : State} (h : Kept r s) (f : Nat) : Kept r (State.visitFrame s f) := by
  unfold State.visitFrame
  try dsimp only
  repeat' (first | with_reducible exact h | with_reducible assumption | with_reducible apply State.flipReg_kept | with_reducible apply State.scrubCe_kept | with_reducible apply State.scrubUe_kept | with_reducible refine fun _ _ => ?_ | with_reducible refine Kept.foldl (fun _ _ _ => ?_) _ ?_ | with_reducible refine Kept.foldlFst (fun _ _ _ => ?_) _ ?_ | with_reducible apply Kept.ite | split | fail_if_no_progress (dsimp only) | fail_if_no_progress (with_reducible apply Kept.lit))

theorem State.visitInstr_kept {r s : State} (h : Kept r s) (i : Nat) : Kept r (State.visitInstr s i) := by
  unfold State.visitInstr
  try dsimp only
  repeat' (first | with_reducible exact h | with_reducible assumption | with_reducible apply State.setFlips_kept | with_reducible apply State.scrubCe_kept | with_reducible apply State.scrubUe_kept | with_reducible refine Kept.fst (by assumption) ?_ | split | fail_if_no_progress (with_reducible apply Kept.lit))

theorem State.passEnds_kept {r s : State} (h : Kept r s) : Kept r (State.passEnds s) := by
  unfold State.passEnds
  try dsimp only
  repeat' (first | with_reducible exact h | with_reducible assumption | with_reducible apply State.setFld_kept | with_reducible apply Kept.ite | split)

theorem State.scrubVisit_kept {r s : State} (h : Kept r s) : Kept r (State.scrubVisit s) := by
  unfold State.scrubVisit
  try dsimp only
  repeat' (first | with_reducible exact h | with_reducible assumption | with_reducible apply State.setFld_kept | with_reducible apply State.voteWritten_kept | with_reducible apply State.visitFrame_kept | with_reducible apply State.visitInstr_kept | with_reducible apply State.passEnds_kept | with_reducible apply Kept.ite | split | fail_if_no_progress (with_reducible apply Kept.lit))

theorem State.voteFix_kept {r s : State} (h : Kept r s) : Kept r (State.voteFix s) := by
  unfold State.voteFix
  try dsimp only
  repeat' (first | with_reducible exact h | with_reducible assumption | with_reducible apply State.addSat_kept | with_reducible apply State.setFld_kept | with_reducible refine Kept.fst (by assumption) ?_ | split | fail_if_no_progress (with_reducible apply Kept.lit))

theorem State.voteMoves_kept {r s : State} (h : Kept r s) (i : Nat) (m : Nat) : Kept r (State.voteMoves s i m) := by
  unfold State.voteMoves
  try dsimp only
  repeat' (first | with_reducible exact h | with_reducible assumption | with_reducible apply State.setReg_kept | with_reducible refine Kept.fst (by assumption) ?_ | split | fail_if_no_progress (with_reducible apply Kept.lit))

theorem State.voteFlip_kept {r s : State} (h : Kept r s) (i : Nat) (c : Nat) (m : Nat) : Kept r (State.voteFlip s i c m) := by
  unfold State.voteFlip
  try dsimp only
  repeat' (first | with_reducible exact h | with_reducible assumption | with_reducible apply State.voteMoves_kept | with_reducible refine fun _ _ => ?_ | with_reducible refine Kept.foldl (fun _ _ _ => ?_) _ ?_ | with_reducible apply Kept.ite | split | fail_if_no_progress (dsimp only) | fail_if_no_progress (with_reducible apply Kept.lit))

theorem State.memoryFlip_kept {r s : State} (h : Kept r s) (t : FlipTarget) : Kept r (State.memoryFlip s t) := by
  unfold State.memoryFlip
  try dsimp only
  repeat' (first | with_reducible exact h | with_reducible assumption | with_reducible apply State.flipBits_kept | with_reducible apply State.flipReg_kept | with_reducible apply State.voteFlip_kept | with_reducible refine Kept.fst (by assumption) ?_ | with_reducible apply Kept.ite | split | fail_if_no_progress (with_reducible apply Kept.lit))

theorem execRegionHold_kept (s : State) (r : Fin 32) : ∀ t', execRegionHold r s = .next t' → Kept s t' := by
  intro _ e; cases e; refine settle_keeps _ ?_
  repeat' (first | with_reducible exact Kept.refl _ | with_reducible apply State.regionHold_kept)

theorem execPartialCheckDone_kept (s : State) : ∀ t', execPartialCheckDone s = .next t' → Kept s t' := by
  intro _ e; cases e; refine settle_keeps _ ?_
  repeat' (first | with_reducible exact Kept.refl _ | with_reducible apply State.partialCheckDone_kept)

theorem execRegionRelease_kept (s : State) (r : Fin 32) : ∀ t', execRegionRelease r s = .next t' → Kept s t' := by
  intro _ e; cases e; refine settle_keeps _ ?_
  repeat' (first | with_reducible exact Kept.refl _ | with_reducible apply State.regionRelease_kept)

theorem execAbandon_kept (s : State) (v : Word) : ∀ t', execAbandon v s = .next t' → Kept s t' := by
  intro _ e; cases e; refine settle_keeps _ ?_
  repeat' (first | with_reducible exact Kept.refl _ | with_reducible apply State.prCmd_kept)

theorem execReload_kept (s : State) (v : Word) : ∀ t', execReload v s = .next t' → Kept s t' := by
  intro _ e; cases e; refine settle_keeps _ ?_
  repeat' (first | with_reducible exact Kept.refl _ | with_reducible apply State.prCmd_kept)

theorem execScrubVisit_kept (s : State) : ∀ t', execScrubVisit s = .next t' → Kept s t' := by
  intro _ e; cases e; refine settle_keeps _ ?_
  repeat' (first | with_reducible exact Kept.refl _ | with_reducible apply State.scrubVisit_kept)

theorem execVoteFix_kept (s : State) : ∀ t', execVoteFix s = .next t' → Kept s t' := by
  intro _ e; cases e; refine settle_keeps _ ?_
  repeat' (first | with_reducible exact Kept.refl _ | with_reducible apply State.voteFix_kept)

theorem execMemoryBitFlip_kept (s : State) (t : FlipTarget) : ∀ t', execMemoryBitFlip t s = .next t' → Kept s t' := by
  intro _ e; cases e; refine settle_keeps _ ?_
  repeat' (first | with_reducible exact Kept.refl _ | with_reducible apply State.memoryFlip_kept)

end Sys2Proof.Machine
end

