-- ==== Sys2Proof/Laws/KeptField.lean ====
section
/-! SUPPORT. What the operations of Machine/Field.lean keep. -/

set_option linter.unusedTactic false
set_option linter.unreachableTactic false
set_option linter.unusedVariables false

namespace Sys2Proof.Machine

theorem State.setCan_kept {r s : State} (h : Kept r s) (m : Nat) (c : Can) : Kept r (State.setCan s m c) := by
  unfold State.setCan
  repeat' (first | with_reducible exact h | with_reducible assumption | fail_if_no_progress (with_reducible apply Kept.lit))

theorem State.canStart_kept {r s : State} (h : Kept r s) (m : Nat) : Kept r (State.canStart s m) := by
  unfold State.canStart
  try dsimp only
  repeat' (first | with_reducible exact h | with_reducible assumption | with_reducible apply State.setCan_kept | with_reducible refine fun _ _ => ?_ | with_reducible refine Kept.fst (by assumption) ?_ | with_reducible apply Kept.ite | split | fail_if_no_progress (with_reducible apply Kept.lit))

theorem State.canPush_kept {r s : State} (h : Kept r s) (m : Nat) : Kept r (State.canPush s m) := by
  unfold State.canPush
  try dsimp only
  repeat' (first | with_reducible exact h | with_reducible assumption | with_reducible apply State.setFld_kept | with_reducible apply State.setCan_kept | with_reducible apply State.canStart_kept | with_reducible refine fun _ _ => ?_ | with_reducible apply Kept.ite | split | fail_if_no_progress (with_reducible apply Kept.lit))

theorem State.canAbort_kept {r s : State} (h : Kept r s) (m : Nat) : Kept r (State.canAbort s m) := by
  unfold State.canAbort
  repeat' (first | with_reducible exact h | with_reducible assumption | with_reducible apply State.setCan_kept | fail_if_no_progress (with_reducible apply Kept.lit))

theorem State.canRecover_kept {r s : State} (h : Kept r s) (m : Nat) : Kept r (State.canRecover s m) := by
  unfold State.canRecover
  repeat' (first | with_reducible exact h | with_reducible assumption | with_reducible apply State.setCan_kept | with_reducible apply Kept.ite | split | fail_if_no_progress (with_reducible apply Kept.lit))

theorem State.canPop_kept {r s : State} (h : Kept r s) (m : Nat) : Kept r (State.canPop s m) := by
  unfold State.canPop
  repeat' (first | with_reducible exact h | with_reducible assumption | with_reducible apply State.setCan_kept | fail_if_no_progress (with_reducible apply Kept.lit))

theorem State.canCmd_kept {r s : State} (h : Kept r s) (m : Nat) (v : Word) : Kept r (State.canCmd s m v) := by
  unfold State.canCmd
  try dsimp only
  repeat' (first | with_reducible exact h | with_reducible assumption | with_reducible apply State.canAbort_kept | with_reducible apply State.canPush_kept | with_reducible apply State.canPop_kept | with_reducible apply State.canRecover_kept | with_reducible apply Kept.ite | split)

theorem State.canRecDown_kept {r s : State} (h : Kept r s) (m : Nat) : Kept r (State.canRecDown s m) := by
  unfold State.canRecDown
  try dsimp only
  repeat' (first | with_reducible exact h | with_reducible assumption | with_reducible apply State.setFld_kept | with_reducible apply Kept.ite | split)

theorem State.canState_kept {r s : State} (h : Kept r s) (m : Nat) : Kept r (State.canState s m) := by
  unfold State.canState
  try dsimp only
  repeat' (first | with_reducible exact h | with_reducible assumption | with_reducible apply State.setB_kept | with_reducible apply State.setFld_kept | with_reducible apply Kept.ite | split)

theorem State.canAccept_kept {r s : State} (h : Kept r s) (m : Nat) (id : Word) (ctrl : Word) (time : Word) (data : List Word) : Kept r (State.canAccept s m id ctrl time data) := by
  unfold State.canAccept
  try dsimp only
  repeat' (first | with_reducible exact h | with_reducible assumption | with_reducible apply State.addSat_kept | with_reducible apply State.setFld_kept | with_reducible refine State.take_kept ?_ _ _ (by assumption) | with_reducible apply State.setCan_kept | with_reducible refine Kept.fst (by assumption) ?_ | with_reducible apply Kept.ite | split | fail_if_no_progress (with_reducible apply Kept.lit))

theorem State.canReceive_kept {r s : State} (h : Kept r s) (m : Nat) (id : Word) (ctrl : Word) (age : Nat) (data : List Word) (err : Nat) : Kept r (State.canReceive s m id ctrl age data err) := by
  unfold State.canReceive
  try dsimp only
  repeat' (first | with_reducible exact h | with_reducible assumption | with_reducible apply State.canRecDown_kept | with_reducible apply State.canState_kept | with_reducible apply State.fresh_kept | with_reducible apply State.canAccept_kept | with_reducible apply State.setFld_kept | with_reducible apply State.addSat_kept | with_reducible apply Kept.ite | split)

theorem State.canDone_kept {r s : State} (h : Kept r s) (m : Nat) (bus : Nat) : Kept r (State.canDone s m bus) := by
  unfold State.canDone
  try dsimp only
  repeat' (first | with_reducible exact h | with_reducible assumption | with_reducible apply State.setCan_kept | with_reducible apply State.emit_kept | with_reducible apply State.canRecDown_kept | with_reducible apply State.fresh_kept | with_reducible apply State.canAccept_kept | with_reducible apply State.setFld_kept | with_reducible apply State.canState_kept | with_reducible apply State.canStart_kept | with_reducible apply State.addSat_kept | with_reducible refine fun _ _ => ?_ | with_reducible refine Kept.fst (by assumption) ?_ | with_reducible apply Kept.ite | split | fail_if_no_progress (with_reducible apply Kept.lit))

theorem State.canBusOn_kept {r s : State} (h : Kept r s) (m : Nat) : Kept r (State.canBusOn s m) := by
  unfold State.canBusOn
  repeat' (first | with_reducible exact h | with_reducible assumption | with_reducible apply State.setFld_kept | with_reducible apply State.setCan_kept | with_reducible apply State.canStart_kept | with_reducible apply Kept.ite | split | fail_if_no_progress (with_reducible apply Kept.lit))

theorem State.spiTx_kept {r s : State} (h : Kept r s) (m : Nat) (v : Word) : Kept r (State.spiTx s m v) := by
  unfold State.spiTx
  try dsimp only
  repeat' (first | with_reducible exact h | with_reducible assumption | with_reducible apply State.setFld_kept | with_reducible apply State.setSpi_kept | with_reducible apply Kept.ite | split | fail_if_no_progress (with_reducible apply Kept.lit))

theorem State.spiDone_kept {r s : State} (h : Kept r s) (m : Nat) (data : Word) : Kept r (State.spiDone s m data) := by
  unfold State.spiDone
  try dsimp only
  repeat' (first | with_reducible exact h | with_reducible assumption | with_reducible apply State.setFld_kept | with_reducible apply State.emit_kept | with_reducible apply State.setSpi_kept | with_reducible apply Kept.ite | split)

theorem State.spiRx_kept {r s : State} (h : Kept r s) (m : Nat) : Kept r (State.spiRx s m).1 := by
  unfold State.spiRx
  try dsimp only
  repeat' (first | with_reducible exact h | with_reducible assumption | with_reducible apply State.setSpi_kept | fail_if_no_progress (dsimp only) | fail_if_no_progress (with_reducible apply Kept.lit))

theorem State.i2cCmd_kept {r s : State} (h : Kept r s) (m : Nat) (v : Word) : Kept r (State.i2cCmd s m v) := by
  unfold State.i2cCmd
  try dsimp only
  repeat' (first | with_reducible exact h | with_reducible assumption | with_reducible apply State.setI2c_kept | with_reducible apply Kept.ite | split | fail_if_no_progress (with_reducible apply Kept.lit))

theorem State.i2cDone_kept {r s : State} (h : Kept r s) (m : Nat) (data : BitVec 8) (bus : Nat) : Kept r (State.i2cDone s m data bus) := by
  unfold State.i2cDone
  try dsimp only
  repeat' (first | with_reducible exact h | with_reducible assumption | with_reducible apply State.emit_kept | with_reducible apply State.setI2c_kept | with_reducible apply State.setFld_kept | with_reducible refine Kept.fst (by assumption) ?_ | with_reducible apply Kept.ite | split | fail_if_no_progress (with_reducible apply Kept.lit))

theorem State.i2cTimeout_kept {r s : State} (h : Kept r s) (m : Nat) : Kept r (State.i2cTimeout s m) := by
  unfold State.i2cTimeout
  try dsimp only
  repeat' (first | with_reducible exact h | with_reducible assumption | with_reducible apply State.setI2c_kept | with_reducible apply State.setFld_kept | with_reducible refine Kept.fst (by assumption) ?_ | with_reducible apply Kept.ite | split | fail_if_no_progress (with_reducible apply Kept.lit))

theorem State.i2cRx_kept {r s : State} (h : Kept r s) (m : Nat) : Kept r (State.i2cRx s m).1 := by
  unfold State.i2cRx
  try dsimp only
  repeat' (first | with_reducible exact h | with_reducible assumption | with_reducible apply State.setI2c_kept | fail_if_no_progress (dsimp only) | fail_if_no_progress (with_reducible apply Kept.lit))

theorem State.uartTx_kept {r s : State} (h : Kept r s) (m : Nat) (v : Word) : Kept r (State.uartTx s m v) := by
  unfold State.uartTx
  try dsimp only
  repeat' (first | with_reducible exact h | with_reducible assumption | with_reducible apply State.setFld_kept | with_reducible apply State.setUart_kept | with_reducible apply Kept.ite | split | fail_if_no_progress (with_reducible apply Kept.lit))

theorem State.uartCts_kept {r s : State} (h : Kept r s) (m : Nat) : Kept r (State.uartCts s m) := by
  unfold State.uartCts
  try dsimp only
  repeat' (first | with_reducible exact h | with_reducible assumption | with_reducible apply State.setUart_kept | with_reducible apply Kept.ite | split | fail_if_no_progress (with_reducible apply Kept.lit))

theorem State.uartSent_kept {r s : State} (h : Kept r s) (m : Nat) : Kept r (State.uartSent s m) := by
  unfold State.uartSent
  try dsimp only
  repeat' (first | with_reducible exact h | with_reducible assumption | with_reducible apply State.emit_kept | with_reducible apply State.setUart_kept | with_reducible refine Kept.fst (by assumption) ?_ | with_reducible apply Kept.ite | split | fail_if_no_progress (with_reducible apply Kept.lit))

theorem State.uartReceived_kept {r s : State} (h : Kept r s) (m : Nat) (data : BitVec 9) (brk : Bool) (pe : Bool) (fe : Bool) : Kept r (State.uartReceived s m data brk pe fe) := by
  unfold State.uartReceived
  try dsimp only
  repeat' (first | with_reducible exact h | with_reducible assumption | with_reducible apply State.setFld_kept | with_reducible apply State.setUart_kept | with_reducible apply Kept.ite | split | fail_if_no_progress (with_reducible apply Kept.lit))

theorem State.uartRx_kept {r s : State} (h : Kept r s) (m : Nat) : Kept r (State.uartRx s m).1 := by
  unfold State.uartRx
  try dsimp only
  repeat' (first | with_reducible exact h | with_reducible assumption | with_reducible apply State.setUart_kept | fail_if_no_progress (dsimp only) | fail_if_no_progress (with_reducible apply Kept.lit))

theorem State.tapPlain_kept {r s : State} (h : Kept r s) (ir : Nat) : Kept r (State.tapPlain s ir) := by
  unfold State.tapPlain
  try dsimp only
  repeat' (first | with_reducible exact h | with_reducible assumption | with_reducible apply Kept.ite | split | fail_if_no_progress (with_reducible apply Kept.lit))

theorem State.tapShow_kept {r s : State} (h : Kept r s) : Kept r (State.tapShow s) := by
  unfold State.tapShow
  repeat' (first | with_reducible exact h | with_reducible assumption | with_reducible apply State.emit_kept)

theorem State.tapTake_kept {r s : State} (h : Kept r s) (ir : Nat) (how : Nat) (cells : Option (Table Signal)) : Kept r (State.tapTake s ir how cells) := by
  unfold State.tapTake
  repeat' (first | with_reducible exact h | with_reducible assumption | with_reducible apply State.tapPlain_kept | with_reducible apply Kept.ite | split | fail_if_no_progress (with_reducible apply Kept.lit))

theorem State.tapLoad_kept {r s : State} (h : Kept r s) : Kept r (State.tapLoad s) := by
  unfold State.tapLoad
  repeat' (first | with_reducible exact h | with_reducible assumption | with_reducible apply State.tapPlain_kept | with_reducible apply Kept.ite | split)

theorem State.tapUpdate_kept {r s : State} (h : Kept r s) (v : Word) : Kept r (State.tapUpdate s v) := by
  unfold State.tapUpdate
  repeat' (first | with_reducible exact h | with_reducible assumption | with_reducible apply State.streamWordIn_kept | with_reducible apply Kept.ite | split)

theorem execPush_kept (s : State) (m : Fin 4) : ∀ t', execPush m s = .next t' → Kept s t' := by
  intro _ e; cases e; refine settle_keeps _ ?_
  repeat' (first | with_reducible exact Kept.refl _ | with_reducible apply State.canPush_kept)

theorem execCanAbort_kept (s : State) (m : Fin 4) : ∀ t', execCanAbort m s = .next t' → Kept s t' := by
  intro _ e; cases e; refine settle_keeps _ ?_
  repeat' (first | with_reducible exact Kept.refl _ | with_reducible apply State.canAbort_kept)

theorem execRecover_kept (s : State) (m : Fin 4) : ∀ t', execRecover m s = .next t' → Kept s t' := by
  intro _ e; cases e; refine settle_keeps _ ?_
  repeat' (first | with_reducible exact Kept.refl _ | with_reducible apply State.canRecover_kept)

theorem execPop_kept (s : State) (m : Fin 4) : ∀ t', execPop m s = .next t' → Kept s t' := by
  intro _ e; cases e; refine settle_keeps _ ?_
  repeat' (first | with_reducible exact Kept.refl _ | with_reducible apply State.canPop_kept)

theorem execCanRxFrame_kept (s : State) (m : Fin 4) (id : Word) (ctrl : Word) (age : Nat) (data : RxData) : ∀ t', execCanRxFrame m id ctrl age data s = .next t' → Kept s t' := by
  intro _ e; cases e; refine settle_keeps _ ?_
  repeat' (first | with_reducible exact Kept.refl _ | with_reducible apply State.canReceive_kept)

theorem execCanTxDone_kept (s : State) (m : Fin 4) (result : Fin 3) : ∀ t', execCanTxDone m result s = .next t' → Kept s t' := by
  intro _ e; cases e; refine settle_keeps _ ?_
  repeat' (first | with_reducible exact Kept.refl _ | with_reducible apply State.canDone_kept)

theorem execBusoffRecovery_kept (s : State) (m : Fin 4) : ∀ t', execBusoffRecovery m s = .next t' → Kept s t' := by
  intro _ e; cases e; refine settle_keeps _ ?_
  repeat' (first | with_reducible exact Kept.refl _ | with_reducible apply State.canBusOn_kept)

theorem execSpiTx_kept (s : State) (m : Fin 16) (v : Word) : ∀ t', execSpiTx m v s = .next t' → Kept s t' := by
  intro _ e; cases e; refine settle_keeps _ ?_
  repeat' (first | with_reducible exact Kept.refl _ | with_reducible apply State.spiTx_kept)

theorem execSpiRx_kept (s : State) (req : Fin 405) (m : Fin 16) : ∀ t', execSpiRx req m s = .next t' → Kept s t' := by
  intro _ e; cases e; refine settle_keeps _ ?_
  repeat' (first | with_reducible exact Kept.refl _ | with_reducible apply State.spiRx_kept | with_reducible apply State.emit_kept)

theorem execSpiWordDone_kept (s : State) (m : Fin 16) (data : Word) : ∀ t', execSpiWordDone m data s = .next t' → Kept s t' := by
  intro _ e; cases e; refine settle_keeps _ ?_
  repeat' (first | with_reducible exact Kept.refl _ | with_reducible apply State.spiDone_kept)

theorem execI2cCmd_kept (s : State) (m : Fin 8) (v : Word) : ∀ t', execI2cCmd m v s = .next t' → Kept s t' := by
  intro _ e; cases e; refine settle_keeps _ ?_
  repeat' (first | with_reducible exact Kept.refl _ | with_reducible apply State.i2cCmd_kept)

theorem execI2cEntryDone_kept (s : State) (m : Fin 8) (data : BitVec 8) (result : Fin 3) : ∀ t', execI2cEntryDone m data result s = .next t' → Kept s t' := by
  intro _ e; cases e; refine settle_keeps _ ?_
  repeat' (first | with_reducible exact Kept.refl _ | with_reducible apply State.i2cDone_kept)

theorem execI2cRx_kept (s : State) (req : Fin 405) (m : Fin 8) : ∀ t', execI2cRx req m s = .next t' → Kept s t' := by
  intro _ e; cases e; refine settle_keeps _ ?_
  repeat' (first | with_reducible exact Kept.refl _ | with_reducible apply State.i2cRx_kept | with_reducible apply State.emit_kept)

theorem execI2cTimeout_kept (s : State) (m : Fin 8) : ∀ t', execI2cTimeout m s = .next t' → Kept s t' := by
  intro _ e; cases e; refine settle_keeps _ ?_
  repeat' (first | with_reducible exact Kept.refl _ | with_reducible apply State.i2cTimeout_kept)

theorem execUartTx_kept (s : State) (m : Fin 8) (v : Word) : ∀ t', execUartTx m v s = .next t' → Kept s t' := by
  intro _ e; cases e; refine settle_keeps _ ?_
  repeat' (first | with_reducible exact Kept.refl _ | with_reducible apply State.uartTx_kept)

theorem execUartRx_kept (s : State) (req : Fin 405) (m : Fin 8) : ∀ t', execUartRx req m s = .next t' → Kept s t' := by
  intro _ e; cases e; refine settle_keeps _ ?_
  repeat' (first | with_reducible exact Kept.refl _ | with_reducible apply State.uartRx_kept | with_reducible apply State.emit_kept)

theorem execUartFrameSent_kept (s : State) (m : Fin 8) : ∀ t', execUartFrameSent m s = .next t' → Kept s t' := by
  intro _ e; cases e; refine settle_keeps _ ?_
  repeat' (first | with_reducible exact Kept.refl _ | with_reducible apply State.uartSent_kept)

theorem execUartFrameReceived_kept (s : State) (m : Fin 8) (data : BitVec 9) (break_ : Bool) (parity : Bool) (framing : Bool) : ∀ t', execUartFrameReceived m data break_ parity framing s = .next t' → Kept s t' := by
  intro _ e; cases e; refine settle_keeps _ ?_
  repeat' (first | with_reducible exact Kept.refl _ | with_reducible apply State.uartReceived_kept)

theorem execUartCtsAssert_kept (s : State) (m : Fin 8) : ∀ t', execUartCtsAssert m s = .next t' → Kept s t' := by
  intro _ e; cases e; refine settle_keeps _ ?_
  repeat' (first | with_reducible exact Kept.refl _ | with_reducible apply State.uartCts_kept)

theorem execIdcode_kept (s : State) : ∀ t', execIdcode s = .next t' → Kept s t' := by
  intro _ e; cases e; refine settle_keeps _ ?_
  repeat' (first | with_reducible exact Kept.refl _ | with_reducible apply State.tapPlain_kept | with_reducible apply State.tapShow_kept)

theorem execSamplePreload_kept (s : State) (cells : List (Nat × Bool × Bool)) : ∀ t', execSamplePreload cells s = .next t' → Kept s t' := by
  intro _ e; cases e; refine settle_keeps _ ?_
  repeat' (first | with_reducible exact Kept.refl _ | with_reducible apply State.tapPlain_kept | with_reducible apply State.tapShow_kept | with_reducible apply Kept.ite | split | fail_if_no_progress (with_reducible apply Kept.lit))

theorem execExtest_kept (s : State) (cells : List (Nat × Bool × Bool)) : ∀ t', execExtest cells s = .next t' → Kept s t' := by
  intro _ e; cases e; refine settle_keeps _ ?_
  repeat' (first | with_reducible exact Kept.refl _ | with_reducible apply State.tapTake_kept | with_reducible apply State.tapShow_kept)

theorem execJtagClamp_kept (s : State) : ∀ t', execJtagClamp s = .next t' → Kept s t' := by
  intro _ e; cases e; refine settle_keeps _ ?_
  repeat' (first | with_reducible exact Kept.refl _ | with_reducible apply State.tapTake_kept)

theorem execHighz_kept (s : State) : ∀ t', execHighz s = .next t' → Kept s t' := by
  intro _ e; cases e; refine settle_keeps _ ?_
  repeat' (first | with_reducible exact Kept.refl _ | with_reducible apply State.tapTake_kept)

theorem execBypass_kept (s : State) : ∀ t', execBypass s = .next t' → Kept s t' := by
  intro _ e; cases e; refine settle_keeps _ ?_
  repeat' (first | with_reducible exact Kept.refl _ | with_reducible apply State.tapPlain_kept | with_reducible apply State.tapShow_kept)

theorem execCfgload_kept (s : State) : ∀ t', execCfgload s = .next t' → Kept s t' := by
  intro _ e; cases e; refine settle_keeps _ ?_
  repeat' (first | with_reducible exact Kept.refl _ | with_reducible apply State.tapLoad_kept | with_reducible apply State.tapShow_kept)

theorem execCfgloadUpdate_kept (s : State) (v : Word) : ∀ t', execCfgloadUpdate v s = .next t' → Kept s t' := by
  intro _ e; cases e; refine settle_keeps _ ?_
  repeat' (first | with_reducible exact Kept.refl _ | with_reducible apply State.tapUpdate_kept)

theorem execTestLogicReset_kept (s : State) : ∀ t', execTestLogicReset s = .next t' → Kept s t' := by
  intro _ e; cases e; refine settle_keeps _ ?_
  repeat' (first | with_reducible exact Kept.refl _ | with_reducible apply State.tapPlain_kept)

end Sys2Proof.Machine
end

