-- ==== Sys2Proof/Laws/KeptPower.lean ====
section
/-! SUPPORT. What the operations of Machine/Power.lean keep. -/

set_option linter.unusedTactic false
set_option linter.unreachableTactic false
set_option linter.unusedVariables false

namespace Sys2Proof.Machine

theorem State.battLoses_kept {r s : State} (h : Kept r s) : Kept r s.battLoses := by
  unfold State.battLoses
  refine Kept.foldl (fun _ _ g => State.setReg_kept g _ _) _ (State.setFld_kept (State.lcShow_kept (State.lcWith_kept (Kept.lit ?_) _
    (LifeCycle.onward_loses rfl rfl (.inr rfl) (.inl rfl)))) _ _)
  exact Kept.ite h (h.parts id (twf_filter _ _) (twf_filter _ _) rfl rfl rfl)

theorem State.battLoss_kept {r s : State} (h : Kept r s) : Kept r (State.battLoss s) := by
  unfold State.battLoss
  repeat' (first | with_reducible exact h | with_reducible assumption | with_reducible apply State.battLoses_kept | with_reducible apply Kept.ite | split)

theorem State.battReturn_kept {r s : State} (h : Kept r s) : Kept r (State.battReturn s) := by
  unfold State.battReturn
  try dsimp only
  repeat' (first | with_reducible exact h | with_reducible assumption | with_reducible apply State.setReg_kept | with_reducible refine fun _ _ => ?_ | with_reducible refine Kept.foldl (fun _ _ _ => ?_) _ ?_ | with_reducible apply Kept.ite | split | fail_if_no_progress (dsimp only) | fail_if_no_progress (with_reducible apply Kept.lit))

theorem State.railFall_kept {r s : State} (h : Kept r s) (rail : Nat) : Kept r (State.railFall s rail) := by
  unfold State.railFall
  try dsimp only
  repeat' (first | with_reducible exact h | with_reducible assumption | with_reducible apply State.setFld_kept | with_reducible apply State.cmpsClear_kept | with_reducible apply State.dacsOff_kept | with_reducible apply State.battLoses_kept | with_reducible apply Kept.ite | split | fail_if_no_progress (with_reducible apply Kept.lit))

theorem State.powered_kept {r s : State} (h : Kept r s) (kept : Bool) : Kept r (s.powered kept) := by
  refine h.parts id (fun w => ?_) id rfl rfl rfl
  unfold State.powered
  dsimp only
  split
  · exact w
  · exact twf_filter _ _ w

theorem State.powerOn_kept {r s : State} (h : Kept r s) : Kept r (State.powerOn s) := by
  unfold State.powerOn
  try dsimp only
  repeat' (first | with_reducible exact h | with_reducible assumption | with_reducible apply State.setReg_kept | with_reducible apply State.clearAll_kept | with_reducible apply State.powered_kept | with_reducible apply State.setFld_kept | with_reducible apply State.findRing_kept | with_reducible apply State.tamperEntry_kept | with_reducible apply State.faultEntry_kept | with_reducible apply Kept.ite | split)

theorem State.resetAssert_kept {r s : State} (h : Kept r s) : Kept r (State.resetAssert s) := by
  unfold State.resetAssert
  try dsimp only
  repeat' (first | with_reducible exact h | with_reducible assumption | with_reducible apply State.faultEntry_kept | with_reducible apply State.setFld_kept | with_reducible apply State.keepSillage_kept | with_reducible apply State.cmpsClear_kept | with_reducible apply State.dacsOff_kept | with_reducible apply Kept.ite | split | fail_if_no_progress (with_reducible apply Kept.lit))

theorem State.internalRelease_kept {r s : State} (h : Kept r s) : Kept r (State.internalRelease s) := by
  unfold State.internalRelease
  repeat' (first | with_reducible exact h | with_reducible assumption | with_reducible apply State.startLoad_kept | with_reducible apply Kept.ite | split)

theorem State.modRestart_kept {r s : State} (h : Kept r s) : Kept r (State.modRestart s) := by
  unfold State.modRestart
  try dsimp only
  repeat' (first | with_reducible exact h | with_reducible assumption | with_reducible apply State.adcApply_kept | with_reducible apply State.setFld_kept | with_reducible refine fun _ _ => ?_ | with_reducible refine Kept.foldl (fun _ _ _ => ?_) _ ?_ | fail_if_no_progress (dsimp only))

theorem State.pllLock_kept {r s : State} (h : Kept r s) (i : Nat) : Kept r (State.pllLock s i) := by
  unfold State.pllLock
  try dsimp only
  repeat' (first | with_reducible exact h | with_reducible assumption | with_reducible apply State.orBit_kept | with_reducible apply State.clockBad_kept | with_reducible apply State.passedOver_kept | with_reducible apply State.clocksStart_kept | with_reducible apply State.cmpReturns_kept | with_reducible apply State.modRestart_kept | with_reducible apply State.clocksStand_kept | with_reducible refine Kept.foldl (fun _ _ _ => ?_) _ ?_ | with_reducible apply Kept.ite | split | fail_if_no_progress (dsimp only) | fail_if_no_progress (with_reducible apply Kept.lit))

theorem State.pllUnlock_kept {r s : State} (h : Kept r s) (i : Nat) : Kept r (State.pllUnlock s i) := by
  unfold State.pllUnlock
  try dsimp only
  repeat' (first | with_reducible exact h | with_reducible assumption | with_reducible apply State.offBit_kept | with_reducible apply State.setFld_kept | with_reducible apply State.clockBad_kept | with_reducible apply State.reclockAll_kept | with_reducible apply State.linkDown_kept | with_reducible refine Kept.fst (by assumption) ?_ | with_reducible apply Kept.ite | split | fail_if_no_progress (with_reducible apply Kept.lit))

theorem State.headerReset_kept {r s : State} (h : Kept r s) : Kept r (State.headerReset s) := by
  unfold State.headerReset
  try dsimp only
  repeat' (first | with_reducible exact h | with_reducible assumption | with_reducible apply State.setFld_kept | fail_if_no_progress (with_reducible apply Kept.lit))

theorem State.pcieDown_kept {r s : State} (h : Kept r s) : Kept r (State.pcieDown s) := by
  unfold State.pcieDown
  repeat' (first | with_reducible exact h | with_reducible assumption | with_reducible apply State.headerReset_kept | with_reducible apply State.setFld_kept | with_reducible apply Kept.ite | split)

theorem State.standbyRequest_kept {r s : State} (h : Kept r s) (v : Word) : Kept r (State.standbyRequest s v) := by
  unfold State.standbyRequest
  try dsimp only
  repeat' (first | with_reducible exact h | with_reducible assumption | with_reducible apply State.setFld_kept | with_reducible apply Kept.ite | split | fail_if_no_progress (with_reducible apply Kept.lit))

theorem State.adcStandby_kept {r s : State} (h : Kept r s) (n : Nat) : Kept r (State.adcStandby s n) := by
  unfold State.adcStandby
  try dsimp only
  repeat' (first | with_reducible exact h | with_reducible assumption | with_reducible apply State.calCode_kept | with_reducible apply State.setAdc_kept | with_reducible refine Kept.fst (by assumption) ?_ | split | fail_if_no_progress (with_reducible apply Kept.lit))

theorem State.standbyEntry_kept {r s : State} (h : Kept r s) : Kept r (State.standbyEntry s) := by
  unfold State.standbyEntry
  try dsimp only
  repeat' (first | with_reducible exact h | with_reducible assumption | with_reducible apply State.toArrival_kept | with_reducible apply State.storeEmpty_kept | with_reducible apply State.closeTick_kept | with_reducible apply State.setEng_kept | with_reducible apply State.adcStandby_kept | with_reducible apply State.cmpOff_kept | with_reducible apply State.dacForce_kept | with_reducible apply State.cmpLevels_kept | with_reducible apply State.pinsTrip_kept | with_reducible apply State.offBit_kept | with_reducible apply State.pcieDown_kept | with_reducible apply State.linkDown_kept | with_reducible apply State.reclockAll_kept | with_reducible refine fun _ _ => ?_ | with_reducible refine Kept.foldl (fun _ _ _ => ?_) _ ?_ | with_reducible apply Kept.ite | split | fail_if_no_progress (dsimp only) | fail_if_no_progress (with_reducible apply Kept.lit))

theorem State.wake_kept {r s : State} (h : Kept r s) (src : BitVec 4) (cmps : BitVec 64) : Kept r (State.wake s src cmps) := by
  unfold State.wake
  try dsimp only
  repeat' (first | with_reducible exact h | with_reducible assumption | with_reducible apply State.orBit_kept | with_reducible apply State.setFld_kept | with_reducible refine fun _ _ => ?_ | with_reducible refine Kept.foldl (fun _ _ _ => ?_) _ ?_ | with_reducible apply Kept.ite | split | fail_if_no_progress (dsimp only) | fail_if_no_progress (with_reducible apply Kept.lit))

theorem State.wakeTimeout_kept {r s : State} (h : Kept r s) : Kept r (State.wakeTimeout s) := by
  unfold State.wakeTimeout
  repeat' (first | with_reducible exact h | with_reducible assumption | with_reducible apply State.clockBad_kept | with_reducible apply Kept.ite | split)

theorem State.resume_kept {r s : State} (h : Kept r s) : Kept r (State.resume s) := by
  unfold State.resume
  try dsimp only
  repeat' (first | with_reducible exact h | with_reducible assumption | with_reducible apply State.toArrival_kept | with_reducible apply State.reclockAll_kept | with_reducible apply State.cmpsBack_kept | with_reducible apply State.dacBoundary_kept | with_reducible apply State.pinsBoundary_kept | with_reducible apply State.setFld_kept | with_reducible apply State.addSat_kept | with_reducible apply State.wdStart_kept | with_reducible refine fun _ _ => ?_ | with_reducible refine Kept.foldl (fun _ _ _ => ?_) _ ?_ | with_reducible apply Kept.ite | split | fail_if_no_progress (dsimp only) | fail_if_no_progress (with_reducible apply Kept.lit))

theorem execPowerOn_kept (s : State) : ∀ t', execPowerOn s = .next t' → Kept s t' := by
  intro _ e; cases e; refine settle_keeps _ ?_
  repeat' (first | with_reducible exact Kept.refl _ | with_reducible apply State.powerOn_kept)

theorem execRailFall_kept (s : State) (rail : Fin 5) : ∀ t', execRailFall rail s = .next t' → Kept s t' := by
  intro _ e; cases e; refine settle_keeps _ ?_
  repeat' (first | with_reducible exact Kept.refl _ | with_reducible apply State.railFall_kept)

theorem execResetNAssert_kept (s : State) : ∀ t', execResetNAssert s = .next t' → Kept s t' := by
  intro _ e; cases e; refine settle_keeps _ ?_
  repeat' (first | with_reducible exact Kept.refl _ | with_reducible apply State.resetAssert_kept)

theorem execInternalResetRelease_kept (s : State) : ∀ t', execInternalResetRelease s = .next t' → Kept s t' := by
  intro _ e; cases e; refine settle_keeps _ ?_
  repeat' (first | with_reducible exact Kept.refl _ | with_reducible apply State.internalRelease_kept)

theorem execPllLock_kept (s : State) (i : Fin 5) : ∀ t', execPllLock i s = .next t' → Kept s t' := by
  intro _ e; cases e; refine settle_keeps _ ?_
  repeat' (first | with_reducible exact Kept.refl _ | with_reducible apply State.pllLock_kept)

theorem execPllUnlock_kept (s : State) (i : Fin 5) : ∀ t', execPllUnlock i s = .next t' → Kept s t' := by
  intro _ e; cases e; refine settle_keeps _ ?_
  repeat' (first | with_reducible exact Kept.refl _ | with_reducible apply State.pllUnlock_kept)

theorem execStandbyRequest_kept (s : State) (v : Word) : ∀ t', execStandbyRequest v s = .next t' → Kept s t' := by
  intro _ e; cases e; refine settle_keeps _ ?_
  repeat' (first | with_reducible exact Kept.refl _ | with_reducible apply State.standbyRequest_kept)

theorem execStandbyEntry_kept (s : State) : ∀ t', execStandbyEntry s = .next t' → Kept s t' := by
  intro _ e; cases e; refine settle_keeps _ ?_
  repeat' (first | with_reducible exact Kept.refl _ | with_reducible apply State.standbyEntry_kept)

theorem execWake_kept (s : State) (src : BitVec 4) (cmps : BitVec 64) : ∀ t', execWake src cmps s = .next t' → Kept s t' := by
  intro _ e; cases e; refine settle_keeps _ ?_
  repeat' (first | with_reducible exact Kept.refl _ | with_reducible apply State.wake_kept)

theorem execWakeLockTimeout_kept (s : State) : ∀ t', execWakeLockTimeout s = .next t' → Kept s t' := by
  intro _ e; cases e; refine settle_keeps _ ?_
  repeat' (first | with_reducible exact Kept.refl _ | with_reducible apply State.wakeTimeout_kept)

theorem execResumeBoundary_kept (s : State) : ∀ t', execResumeBoundary s = .next t' → Kept s t' := by
  intro _ e; cases e; refine settle_keeps _ ?_
  repeat' (first | with_reducible exact Kept.refl _ | with_reducible apply State.resume_kept)

theorem execBatteryDomainLoss_kept (s : State) : ∀ t', execBatteryDomainLoss s = .next t' → Kept s t' := by
  intro _ e; cases e; refine settle_keeps _ ?_
  repeat' (first | with_reducible exact Kept.refl _ | with_reducible apply State.battLoss_kept)

theorem execBatteryDomainReturn_kept (s : State) : ∀ t', execBatteryDomainReturn s = .next t' → Kept s t' := by
  intro _ e; cases e; refine settle_keeps _ ?_
  repeat' (first | with_reducible exact Kept.refl _ | with_reducible apply State.battReturn_kept)

end Sys2Proof.Machine
end

