-- ==== Sys2Proof/Laws/KeptAccess.lean ====
section
/-! SUPPORT. What the operations of Machine/Access.lean keep. -/

set_option linter.unusedTactic false
set_option linter.unreachableTactic false
set_option linter.unusedVariables false

namespace Sys2Proof.Machine

theorem State.rcClear_kept {r s : State} (h : Kept r s) (a : Nat) : Kept r (State.rcClear s a) := by
  unfold State.rcClear
  repeat' (first | with_reducible exact h | with_reducible assumption | with_reducible apply State.setReg_kept | with_reducible apply Kept.ite | split)

theorem State.popRead_kept {r s : State} (h : Kept r s) (req a : Nat) : ∀ p, s.popRead req a = some p → Kept r p.1 := by
  intro p e
  unfold State.popRead at e
  dsimp only at e
  repeat' split at e
  all_goals first | cases e | skip
  all_goals first | with_reducible apply State.latchTime_kept | with_reducible apply State.popCapture_kept | with_reducible apply State.resLoRead_kept | with_reducible apply State.spiRx_kept | with_reducible apply State.i2cRx_kept | with_reducible apply State.uartRx_kept | skip
  all_goals exact h

theorem State.regRead_kept {r s : State} (h : Kept r s) (req a : Nat) : Kept r (s.regRead req a).1 := by
  unfold State.regRead
  cases e : s.popRead req a with
  | none => exact State.rcClear_kept h _
  | some p => exact State.popRead_kept h _ _ _ e

theorem State.plainWrite_kept {r s : State} (h : Kept r s) (a : Nat) (v : Word) : Kept r (State.plainWrite s a v) := by
  unfold State.plainWrite
  try dsimp only
  repeat' (first | with_reducible exact h | with_reducible assumption | with_reducible refine State.take_kept ?_ _ _ (by assumption) | with_reducible apply State.setReg_kept | with_reducible apply State.stageWord_kept | with_reducible apply Kept.ite | split)

theorem State.irqEoi_kept {r s : State} (h : Kept r s) (v : Word) : Kept r (State.irqEoi s v) := by
  unfold State.irqEoi
  try dsimp only
  repeat' (first | with_reducible exact h | with_reducible assumption | with_reducible apply State.sendMsi_kept | with_reducible apply Kept.ite | split)

theorem State.rbStore_kept {r s : State} (h : Kept r s) (req : Nat) (b : Nat) (o : Nat) (a : Nat) (v : Word) : Kept r (State.rbStore s req b o a v) := by
  unfold State.rbStore
  repeat' (first | with_reducible exact h | with_reducible assumption | with_reducible apply State.rbCmd_kept | with_reducible apply State.rbWrite_kept | with_reducible apply State.turnAway_kept | with_reducible apply Kept.ite | split)

theorem State.wdConfig_kept {r s : State} (h : Kept r s) (v : Word) : Kept r (State.wdConfig s v) := by
  unfold State.wdConfig
  try dsimp only
  repeat' (first | with_reducible exact h | with_reducible assumption | with_reducible apply State.plainWrite_kept | with_reducible apply State.wdStart_kept | with_reducible apply Kept.ite | split)

theorem State.deadlineWrite_kept {r s : State} (h : Kept r s) (v : Word) : Kept r (State.deadlineWrite s v) := by
  unfold State.deadlineWrite
  try dsimp only
  repeat' (first | with_reducible exact h | with_reducible assumption | with_reducible apply State.plainWrite_kept | with_reducible apply Kept.ite | split)

theorem State.bayWrite_kept {r s : State} (h : Kept r s) (k : Nat) (o : Nat) (a : Nat) (v : Word) : Kept r (State.bayWrite s k o a v) := by
  unfold State.bayWrite
  try dsimp only
  repeat' (first | with_reducible exact h | with_reducible assumption | with_reducible apply State.rcalGo_kept | with_reducible apply State.adcSwtrig_kept | with_reducible apply State.calCmd_kept | with_reducible apply State.latchWrite_kept | with_reducible apply State.plainWrite_kept | with_reducible apply State.shortClear_kept | with_reducible apply State.pwmDuty_kept | with_reducible apply State.injWrite_kept | with_reducible apply State.dmaCtrl_kept | with_reducible apply State.mbxWrite_kept | with_reducible apply State.mbxRing_kept | with_reducible apply Kept.ite | split)

theorem State.fieldWrite_kept {r s : State} (h : Kept r s) (a : Nat) (v : Word) : Kept r (State.fieldWrite s a v) := by
  unfold State.fieldWrite
  try dsimp only
  repeat' (first | with_reducible exact h | with_reducible assumption | with_reducible apply State.canCmd_kept | with_reducible apply State.spiTx_kept | with_reducible apply State.i2cCmd_kept | with_reducible apply State.uartTx_kept | with_reducible apply State.plainWrite_kept | with_reducible refine Kept.fst (by assumption) ?_ | split | fail_if_no_progress (with_reducible apply Kept.lit))

theorem State.gpioWrite_kept {r s : State} (h : Kept r s) (a : Nat) (v : Word) : Kept r (State.gpioWrite s a v) := by
  unfold State.gpioWrite
  try dsimp only
  repeat' (first | with_reducible exact h | with_reducible assumption | with_reducible apply State.gpioStore_kept | with_reducible apply State.gpioStrobe_kept | with_reducible refine fun _ _ => ?_ | with_reducible refine Kept.fst (by assumption) ?_ | with_reducible apply Kept.ite | split | fail_if_no_progress (with_reducible apply Kept.lit))

theorem State.allocWrite_kept {r s : State} (h : Kept r s) (req : Nat) (a : Nat) (v : Word) : Kept r (State.allocWrite s req a v) := by
  unfold State.allocWrite
  try dsimp only
  repeat' (first | with_reducible exact h | with_reducible assumption | with_reducible apply State.rbFree_kept | with_reducible apply State.flogPop_kept | with_reducible apply State.rbStore_kept | with_reducible apply State.engHold_kept | with_reducible apply State.plainWrite_kept | with_reducible refine Kept.fst (by assumption) ?_ | with_reducible apply Kept.ite | split | fail_if_no_progress (with_reducible apply Kept.lit))

theorem State.safeWrite_kept {r s : State} (h : Kept r s) (a : Nat) (v : Word) : Kept r (State.safeWrite s a v) := by
  unfold State.safeWrite
  repeat' (first | with_reducible exact h | with_reducible assumption | with_reducible apply State.safeCtrl_kept | with_reducible apply State.kick_kept | with_reducible apply State.wdConfig_kept | with_reducible apply State.srcenWrite_kept | with_reducible apply State.plainWrite_kept | with_reducible apply State.cmpLevels_kept | with_reducible apply Kept.ite | split)

theorem State.cfgWrite_kept {r s : State} (h : Kept r s) (a : Nat) (v : Word) : Kept r (State.cfgWrite s a v) := by
  unfold State.cfgWrite
  repeat' (first | with_reducible exact h | with_reducible assumption | with_reducible apply State.streamWordIn_kept | with_reducible apply State.cfgCmd_kept | with_reducible apply State.lcCmd_kept | with_reducible apply State.deadlineWrite_kept | with_reducible apply State.plainWrite_kept | with_reducible apply Kept.ite | split)

theorem State.scrubConfig_kept {r s : State} (h : Kept r s) (v : Word) : Kept r (State.scrubConfig s v) := by
  unfold State.scrubConfig
  try dsimp only
  repeat' (first | with_reducible exact h | with_reducible assumption | with_reducible apply State.plainWrite_kept | with_reducible apply State.voteWritten_kept | with_reducible apply State.setFld_kept | with_reducible apply Kept.ite | split)

theorem State.miscWrite_kept {r s : State} (h : Kept r s) (req : Nat) (a : Nat) (v : Word) : Kept r (State.miscWrite s req a v) := by
  unfold State.miscWrite
  try dsimp only
  repeat' (first | with_reducible exact h | with_reducible assumption | with_reducible apply State.irqEoi_kept | with_reducible apply State.plainWrite_kept | with_reducible apply State.hpostGo_kept | with_reducible apply State.hcancel_kept | with_reducible apply State.attarCmd_kept | with_reducible apply State.xbarLock_kept | with_reducible apply State.pairCtrl_kept | with_reducible apply State.prCmd_kept | with_reducible apply State.scrubConfig_kept | with_reducible apply State.standbyRequest_kept | with_reducible apply State.retainCmd_kept | with_reducible apply State.sillageCtrl_kept | with_reducible apply State.sillageMark_kept | with_reducible apply State.wipeCommand_kept | with_reducible apply Kept.ite | split)

theorem State.regWrite_kept {r s : State} (h : Kept r s) (req : Nat) (a : Nat) (v : Word) : Kept r (State.regWrite s req a v) := by
  unfold State.regWrite
  try dsimp only
  repeat' (first | with_reducible exact h | with_reducible assumption | with_reducible apply State.bayWrite_kept | with_reducible apply State.allocWrite_kept | with_reducible apply State.gpioWrite_kept | with_reducible apply State.cfgWrite_kept | with_reducible apply State.safeWrite_kept | with_reducible apply State.fieldWrite_kept | with_reducible apply State.miscWrite_kept | with_reducible refine Kept.fst (by assumption) ?_ | with_reducible apply Kept.ite | split | fail_if_no_progress (with_reducible apply Kept.lit))

theorem State.busRefuse_kept {r s : State} (h : Kept r s) (req : Nat) (a : Nat) (e : Bool × Bool × Bool) : Kept r (State.busRefuse s req a e) := by
  unfold State.busRefuse
  repeat' (first | with_reducible exact h | with_reducible assumption | with_reducible apply State.accessError_kept | with_reducible apply Kept.ite | split)

theorem State.readOp_kept {r s : State} (h : Kept r s) (req : Nat) (a : Nat) (size : Nat) : Kept r (State.readOp s req a size).1 := by
  unfold State.readOp
  try dsimp only
  repeat' (first | with_reducible exact h | with_reducible assumption | with_reducible apply State.busRefuse_kept | with_reducible apply State.regRead_kept | with_reducible apply State.regionRead_kept | with_reducible apply Kept.ite | split | fail_if_no_progress (dsimp only))

theorem State.busStore_kept {r s : State} (h : Kept r s) (req : Nat) (a : Nat) (size : Nat) (v : Nat) (coll : Bool) : Kept r (State.busStore s req a size v coll) := by
  unfold State.busStore
  try dsimp only
  repeat' (first | with_reducible exact h | with_reducible assumption | with_reducible apply State.regionWrite_kept | with_reducible apply State.localWrite_kept | with_reducible apply State.collide_kept | with_reducible apply State.toPartner_kept | with_reducible refine Kept.fst (by assumption) ?_ | with_reducible apply Kept.ite | split | fail_if_no_progress (with_reducible apply Kept.lit))

theorem State.writeOp_kept {r s : State} (h : Kept r s) (req : Nat) (a : Nat) (size : Nat) (v : Word) (coll : Bool) : Kept r (State.writeOp s req a size v coll).1 := by
  unfold State.writeOp
  try dsimp only
  repeat' (first | with_reducible exact h | with_reducible assumption | with_reducible apply State.busRefuse_kept | with_reducible apply State.regWrite_kept | with_reducible apply State.busStore_kept | with_reducible apply Kept.ite | split | fail_if_no_progress (dsimp only))

theorem State.loadsFirst_kept {r s : State} (h : Kept r s) (req : Nat) (at_ : BitVec 64) : Kept r (State.loadsFirst s req at_) := by
  unfold State.loadsFirst
  try dsimp only
  repeat' (first | with_reducible exact h | with_reducible assumption | with_reducible apply State.readOp_kept | with_reducible apply State.setEng_kept | with_reducible refine fun _ _ => ?_ | with_reducible refine Kept.foldl (fun _ _ _ => ?_) _ ?_ | with_reducible refine Kept.fst (by assumption) ?_ | with_reducible apply Kept.ite | split | fail_if_no_progress (dsimp only) | fail_if_no_progress (with_reducible apply Kept.lit))

theorem State.busRead_kept {r s : State} (h : Kept r s) (req : Nat) (a : Nat) (size : Nat) : Kept r (State.busRead s req a size).1 := by
  unfold State.busRead
  repeat' (first | with_reducible exact h | with_reducible assumption | with_reducible apply State.loadsFirst_kept | with_reducible apply State.readOp_kept | fail_if_no_progress (dsimp only))

theorem State.busWrite_kept {r s : State} (h : Kept r s) (req : Nat) (a : Nat) (size : Nat) (v : Word) (coll : Bool) : Kept r (State.busWrite s req a size v coll).1 := by
  unfold State.busWrite
  repeat' (first | with_reducible exact h | with_reducible assumption | with_reducible apply State.loadsFirst_kept | with_reducible apply State.writeOp_kept | fail_if_no_progress (dsimp only))

theorem State.postFault_kept {r s : State} (h : Kept r s) (t : Nat) (w : PostedWrite) : Kept r (State.postFault s t w) := by
  unfold State.postFault
  try dsimp only
  repeat' (first | with_reducible exact h | with_reducible assumption | with_reducible apply State.setChan_kept | with_reducible apply State.setAct_kept | with_reducible apply State.stage_kept | with_reducible refine Kept.fst (by assumption) ?_ | with_reducible apply Kept.ite | split | fail_if_no_progress (with_reducible apply Kept.lit))

theorem State.postedAccept_kept {r s : State} (h : Kept r s) (t : Nat) (coll : Bool) : Kept r (State.postedAccept s t coll) := by
  unfold State.postedAccept
  try dsimp only
  repeat' (first | with_reducible exact h | with_reducible assumption | with_reducible apply State.setEng_kept | with_reducible apply State.busWrite_kept | with_reducible apply State.postFault_kept | with_reducible refine Kept.fst (by assumption) ?_ | with_reducible apply Kept.ite | split | fail_if_no_progress (with_reducible apply Kept.lit))

theorem State.loadResponse_kept {r s : State} (h : Kept r s) (t : Nat) (n : Nat) : Kept r (State.loadResponse s t n) := by
  unfold State.loadResponse
  try dsimp only
  repeat' (first | with_reducible exact h | with_reducible assumption | with_reducible apply State.exhaust_kept | with_reducible apply State.loadsFirst_kept | with_reducible apply State.readOp_kept | with_reducible apply State.setEng_kept | with_reducible apply State.chanFault_kept | with_reducible apply State.unblock_kept | with_reducible refine fun _ _ => ?_ | with_reducible refine Kept.fst (by assumption) ?_ | with_reducible apply Kept.ite | split | fail_if_no_progress (with_reducible apply Kept.lit))

theorem State.dmaWord_kept {r s : State} (h : Kept r s) (k : Nat) (j : Nat) (coll : Bool) : Kept r (State.dmaWord s k j coll) := by
  unfold State.dmaWord
  try dsimp only
  repeat' (first | with_reducible exact h | with_reducible assumption | with_reducible apply State.busRead_kept | with_reducible apply State.dmaEnd_kept | with_reducible apply State.collide_kept | with_reducible apply State.busWrite_kept | with_reducible apply State.setFld_kept | with_reducible refine Kept.fst (by assumption) ?_ | with_reducible apply Kept.ite | split | fail_if_no_progress (with_reducible apply Kept.lit))

theorem execRegisterWrite_kept (s : State) (req : Fin 405) (a : Word) (size : Nat) (v : BusWord) : ∀ t', execRegisterWrite req a size v s = .next t' → Kept s t' := by
  intro _ e; cases e; refine settle_keeps _ ?_
  repeat' (first | with_reducible exact Kept.refl _ | with_reducible apply State.busWrite_kept | with_reducible apply Kept.ite | split)

theorem execStagedWrite_kept (s : State) (a : StagedAt) (v : Word) : ∀ t', execStagedWrite a v s = .next t' → Kept s t' := by
  intro _ e; cases e; refine settle_keeps _ ?_
  repeat' (first | with_reducible exact Kept.refl _ | with_reducible apply State.busWrite_kept | with_reducible apply Kept.ite | split)

theorem execRcRegisterRead_kept (s : State) (req : Fin 405) (a : Word) (size : Nat) : ∀ t', execRcRegisterRead req a size s = .next t' → Kept s t' := by
  intro _ e; cases e; refine settle_keeps _ ?_
  repeat' (first | with_reducible exact Kept.refl _ | with_reducible apply State.busRead_kept | with_reducible apply State.emit_kept | with_reducible apply Kept.ite | split)

theorem execSysIrqEoi_kept (s : State) (v : Word) : ∀ t', execSysIrqEoi v s = .next t' → Kept s t' := by
  intro _ e; cases e; refine settle_keeps _ ?_
  repeat' (first | with_reducible exact Kept.refl _ | with_reducible apply State.irqEoi_kept)

theorem execPostedWriteAccept_kept (s : State) (t : Accepted) : ∀ t', execPostedWriteAccept t s = .next t' → Kept s t' := by
  intro _ e; cases e; refine settle_keeps _ ?_
  repeat' (first | with_reducible exact Kept.refl _ | with_reducible apply State.postedAccept_kept)

theorem execGlobalLoadResponse_kept (s : State) (t : Fin 256) (n : Nat) : ∀ t', execGlobalLoadResponse t n s = .next t' → Kept s t' := by
  intro _ e; cases e; refine settle_keeps _ ?_
  repeat' (first | with_reducible exact Kept.refl _ | with_reducible apply State.loadResponse_kept)

theorem execDmaWord_kept (s : State) (k : Fin 16) (j : Fin 8) (coll : Bool) : ∀ t', execDmaWord k j coll s = .next t' → Kept s t' := by
  intro _ e; cases e; refine settle_keeps _ ?_
  repeat' (first | with_reducible exact Kept.refl _ | with_reducible apply State.dmaWord_kept)

end Sys2Proof.Machine
end

