-- ==== Sys2Proof/Laws/KeptHost.lean ====
section
/-! SUPPORT. What the operations of Machine/Host.lean keep. -/

set_option linter.unusedTactic false
set_option linter.unreachableTactic false
set_option linter.unusedVariables false

namespace Sys2Proof.Machine

theorem State.unsupported_kept {r s : State} (h : Kept r s) : Kept r (State.unsupported s) := by
  unfold State.unsupported
  repeat' (first | with_reducible exact h | with_reducible assumption | with_reducible apply State.addSat_kept | with_reducible apply State.emit_kept | with_reducible apply Kept.ite | split)

theorem State.putDword_kept {r s : State} (h : Kept r s) (x : Nat) (be : Nat) (v : Word) (coll : Bool) : Kept r (State.putDword s x be v coll) := by
  unfold State.putDword
  try dsimp only
  repeat' (first | with_reducible exact h | with_reducible assumption | with_reducible apply State.busWrite_kept | with_reducible refine fun _ _ => ?_ | with_reducible refine Kept.foldl (fun _ _ _ => ?_) _ ?_ | fail_if_no_progress (dsimp only))

theorem State.putDwords_kept {r s : State} (h : Kept r s) (x colls : Nat) (l : List (Nat × Word)) : Kept r (s.putDwords x colls l) := by
  induction l generalizing s x colls with
  | nil => exact h
  | cons p l ih => exact ih (State.putDword_kept h _ _ _ _) _ _

theorem State.memoryWrite_kept {r s : State} (h : Kept r s) (x : Nat) (dws : List (Nat × Word)) (poison : Bool) (colls : Nat) : Kept r (State.memoryWrite s x dws poison colls) := by
  unfold State.memoryWrite
  repeat' (first | with_reducible exact h | with_reducible assumption | with_reducible apply State.unsupported_kept | with_reducible apply State.addSat_kept | with_reducible apply State.setFld_kept | with_reducible apply State.putDwords_kept | with_reducible apply Kept.ite | split)

theorem State.getDwords_kept {r s : State} (h : Kept r s) (x n : Nat) : Kept r (s.getDwords x n).1 := by
  induction n generalizing s x with
  | zero => exact h
  | succ n ih => exact ih (State.busRead_kept h _ _ _) _

theorem State.memoryRead_kept {r s : State} (h : Kept r s) (x : Nat) (n : Nat) : Kept r (State.memoryRead s x n) := by
  unfold State.memoryRead
  repeat' (first | with_reducible exact h | with_reducible assumption | with_reducible apply State.unsupported_kept | with_reducible apply State.getDwords_kept | with_reducible apply State.emit_kept | with_reducible apply Kept.ite | split)

theorem State.msiRelease_kept {r s : State} (h : Kept r s) : Kept r (State.msiRelease s) := by
  unfold State.msiRelease
  try dsimp only
  repeat' (first | with_reducible exact h | with_reducible assumption | with_reducible refine fun _ _ => ?_ | with_reducible apply Kept.ite | split | fail_if_no_progress (with_reducible apply Kept.lit))

theorem State.perstLoad_kept {r s : State} (h : Kept r s) : Kept r (State.perstLoad s) := by
  unfold State.perstLoad
  repeat' (first | with_reducible exact h | with_reducible assumption | with_reducible apply State.fresh_kept | with_reducible apply State.failHere_kept | with_reducible apply State.attemptClear_kept | with_reducible apply State.attempt_kept | with_reducible apply Kept.ite | split)

theorem State.perstLow_kept {r s : State} (h : Kept r s) : Kept r s.perstLow := by
  unfold State.perstLow
  refine Kept.ite h ?_
  refine State.perstLoad_kept (State.offBit_kept (State.setFld_kept (State.setB_kept ?_ _ _) _ _) _ _)
  exact h.parts (twf_filter _ _) id id rfl rfl rfl

theorem State.perstHigh_kept {r s : State} (h : Kept r s) : Kept r (State.perstHigh s) := by
  unfold State.perstHigh
  repeat' (first | with_reducible exact h | with_reducible assumption | fail_if_no_progress (with_reducible apply Kept.lit))

theorem State.pcieTrained_kept {r s : State} (h : Kept r s) (gen2 : Bool) : Kept r (State.pcieTrained s gen2) := by
  unfold State.pcieTrained
  repeat' (first | with_reducible exact h | with_reducible assumption | with_reducible apply State.setFld_kept | with_reducible apply State.setB_kept | with_reducible apply Kept.ite | split)

theorem State.configRequest_kept {r s : State} (h0 : Kept r s) (h : HeaderAccess) (bme : Bool) (msiEn : Bool) (d3 : Bool) (grant : Nat) : Kept r (State.configRequest s h bme msiEn d3 grant) := by
  unfold State.configRequest
  try dsimp only
  repeat' (first | with_reducible exact h0 | with_reducible assumption | with_reducible apply State.fresh_kept | with_reducible apply State.emit_kept | with_reducible apply State.setB_kept | with_reducible apply State.setFld_kept | with_reducible refine Kept.fst (by assumption) ?_ | with_reducible apply Kept.ite | split | fail_if_no_progress (with_reducible apply Kept.lit))

theorem State.mpReply_kept {r s : State} (h : Kept r s) (status : Nat) (data : Word) : Kept r (State.mpReply s status data) := by
  unfold State.mpReply
  repeat' (first | with_reducible exact h | with_reducible assumption | with_reducible apply State.emit_kept)

theorem State.mpRead_kept {r s : State} (h : Kept r s) (a : Nat) (good : Bool) : Kept r (State.mpRead s a good) := by
  unfold State.mpRead
  try dsimp only
  repeat' (first | with_reducible exact h | with_reducible assumption | with_reducible apply State.mpReply_kept | with_reducible apply State.busRead_kept | with_reducible apply Kept.ite | split)

theorem State.mpWrite_kept {r s : State} (h : Kept r s) (a : Nat) (v : Word) (good : Bool) (coll : Bool) : Kept r (State.mpWrite s a v good coll) := by
  unfold State.mpWrite
  try dsimp only
  repeat' (first | with_reducible exact h | with_reducible assumption | with_reducible apply State.mpReply_kept | with_reducible apply State.busWrite_kept | with_reducible apply Kept.ite | split)

theorem State.mpEngine_kept {r s : State} (h : Kept r s) (addr mask : Word) (good : Bool) (f : State → Nat → Nat → State × Nat × Word)
    (hf : ∀ s t k, Kept r s → Kept r (f s t k).1) : Kept r (s.mpEngine addr mask good f) := by
  unfold State.mpEngine
  dsimp only
  repeat' (first | with_reducible exact h | with_reducible apply State.mpReply_kept | with_reducible apply hf | with_reducible apply Kept.ite)

theorem State.halt_kept {r s : State} (h : Kept r s) (t : Nat) (k : Nat) : Kept r (State.halt s t k).1 := by
  unfold State.halt
  try dsimp only
  repeat' (first | with_reducible exact h | with_reducible assumption | with_reducible apply State.setChan_kept | with_reducible apply Kept.ite | split | fail_if_no_progress (dsimp only) | fail_if_no_progress (with_reducible apply Kept.lit))

theorem State.resumeChan_kept {r s : State} (h : Kept r s) (step : Bool) (t : Nat) (k : Nat) : Kept r (State.resumeChan s step t k).1 := by
  unfold State.resumeChan
  try dsimp only
  repeat' (first | with_reducible exact h | with_reducible assumption | with_reducible apply State.setChan_kept | with_reducible apply State.resume_kept | with_reducible apply Kept.ite | split | fail_if_no_progress (dsimp only) | fail_if_no_progress (with_reducible apply Kept.lit))

theorem State.brkSet_kept {r s : State} (h : Kept r s) (v : Word) (t : Nat) (k : Nat) : Kept r (State.brkSet s v t k).1 := by
  unfold State.brkSet
  try dsimp only
  repeat' (first | with_reducible exact h | with_reducible assumption | with_reducible apply State.setEng_kept | with_reducible apply Kept.ite | split | fail_if_no_progress (dsimp only) | fail_if_no_progress (with_reducible apply Kept.lit))

theorem State.brkClr_kept {r s : State} (h : Kept r s) (t : Nat) (_k : Nat) : Kept r (State.brkClr s t _k).1 := by
  unfold State.brkClr
  repeat' (first | with_reducible exact h | with_reducible assumption | with_reducible apply State.setEng_kept | fail_if_no_progress (dsimp only) | fail_if_no_progress (with_reducible apply Kept.lit))

theorem State.readDebug_kept {r0 s : State} (h : Kept r0 s) (r : Nat) (t : Nat) (k : Nat) : Kept r0 (State.readDebug s r t k).1 := by
  unfold State.readDebug
  try dsimp only
  repeat' (first | with_reducible exact h | with_reducible assumption | with_reducible apply State.fresh_kept | with_reducible refine Kept.fst (by assumption) ?_ | with_reducible apply Kept.ite | split | fail_if_no_progress (dsimp only) | fail_if_no_progress (with_reducible apply Kept.lit))

theorem State.writeDebug_kept {r0 s : State} (h : Kept r0 s) (r : Nat) (v : Word) (t : Nat) (k : Nat) : Kept r0 (State.writeDebug s r v t k).1 := by
  unfold State.writeDebug
  try dsimp only
  repeat' (first | with_reducible exact h | with_reducible assumption | with_reducible apply State.setChan_kept | with_reducible refine Kept.fst (by assumption) ?_ | with_reducible apply Kept.ite | split | fail_if_no_progress (dsimp only) | fail_if_no_progress (with_reducible apply Kept.lit))

theorem execPcieMemoryWrite_kept (s : State) (off : BitVec 26) (dws : WriteDwords) (poison : Bool) : ∀ t', execPcieMemoryWrite off dws poison s = .next t' → Kept s t' := by
  intro _ e; cases e; refine settle_keeps _ ?_
  repeat' (first | with_reducible exact Kept.refl _ | with_reducible apply State.memoryWrite_kept)

theorem execPcieMemoryRead_kept (s : State) (off : BitVec 26) (n : Nat) : ∀ t', execPcieMemoryRead off n s = .next t' → Kept s t' := by
  intro _ e; cases e; refine settle_keeps _ ?_
  repeat' (first | with_reducible exact Kept.refl _ | with_reducible apply State.memoryRead_kept)

theorem execUnsupportedRequest_kept (s : State) : ∀ t', execUnsupportedRequest s = .next t' → Kept s t' := by
  intro _ e; cases e; refine settle_keeps _ ?_
  repeat' (first | with_reducible exact Kept.refl _ | with_reducible apply State.unsupported_kept)

theorem execMsiRelease_kept (s : State) : ∀ t', execMsiRelease s = .next t' → Kept s t' := by
  intro _ e; cases e; refine settle_keeps _ ?_
  repeat' (first | with_reducible exact Kept.refl _ | with_reducible apply State.msiRelease_kept)

theorem execPerst_kept (s : State) : ∀ t', execPerst s = .next t' → Kept s t' := by
  intro _ e; cases e; refine settle_keeps _ ?_
  repeat' (first | with_reducible exact Kept.refl _ | with_reducible apply State.perstLow_kept)

theorem execPerstNRelease_kept (s : State) : ∀ t', execPerstNRelease s = .next t' → Kept s t' := by
  intro _ e; cases e; refine settle_keeps _ ?_
  repeat' (first | with_reducible exact Kept.refl _ | with_reducible apply State.perstHigh_kept)

theorem execLinkDown_kept (s : State) : ∀ t', execLinkDown s = .next t' → Kept s t' := by
  intro _ e; cases e; refine settle_keeps _ ?_
  repeat' (first | with_reducible exact Kept.refl _ | with_reducible apply State.pcieDown_kept)

theorem execPcieLinkTrained_kept (s : State) (gen2 : Bool) : ∀ t', execPcieLinkTrained gen2 s = .next t' → Kept s t' := by
  intro _ e; cases e; refine settle_keeps _ ?_
  repeat' (first | with_reducible exact Kept.refl _ | with_reducible apply State.pcieTrained_kept)

theorem execPcieConfigRequest_kept (s : State) (h : HeaderAccess) (bme : Bool) (msiEn : Bool) (d3 : Bool) (grant : Fin 4) : ∀ t', execPcieConfigRequest h bme msiEn d3 grant s = .next t' → Kept s t' := by
  intro _ e; cases e; refine settle_keeps _ ?_
  repeat' (first | with_reducible exact Kept.refl _ | with_reducible apply State.configRequest_kept)

theorem execRead_kept (s : State) (addr : Word) (crc : BitVec 8) : ∀ t', execRead addr crc s = .next t' → Kept s t' := by
  intro _ e; cases e; refine settle_keeps _ ?_
  repeat' (first | with_reducible exact Kept.refl _ | with_reducible apply State.mpRead_kept)

theorem execWrite_kept (s : State) (addr : Word) (v : BusWord) (crc : BitVec 8) : ∀ t', execWrite addr v crc s = .next t' → Kept s t' := by
  intro _ e; cases e; refine settle_keeps _ ?_
  repeat' (first | with_reducible exact Kept.refl _ | with_reducible apply State.mpWrite_kept)

theorem execHalt_kept (s : State) (addr : Word) (crc : BitVec 8) : ∀ t', execHalt addr crc s = .next t' → Kept s t' := by
  intro _ e; cases e; refine settle_keeps _ ?_
  repeat' (first | with_reducible exact Kept.refl _ | with_reducible apply State.mpEngine_kept | with_reducible apply State.halt_kept | with_reducible assumption | with_reducible refine fun _ _ _ _ => ?_ | with_reducible refine fun _ _ _ => ?_ | with_reducible refine fun _ _ => ?_ | fail_if_no_progress (dsimp only))

theorem execResume_kept (s : State) (addr : Word) (crc : BitVec 8) : ∀ t', execResume addr crc s = .next t' → Kept s t' := by
  intro _ e; cases e; refine settle_keeps _ ?_
  repeat' (first | with_reducible exact Kept.refl _ | with_reducible apply State.mpEngine_kept | with_reducible apply State.resumeChan_kept | with_reducible assumption | with_reducible refine fun _ _ _ _ => ?_ | with_reducible refine fun _ _ _ => ?_ | with_reducible refine fun _ _ => ?_ | fail_if_no_progress (dsimp only))

theorem execStep_kept (s : State) (addr : Word) (crc : BitVec 8) : ∀ t', execStep addr crc s = .next t' → Kept s t' := by
  intro _ e; cases e; refine settle_keeps _ ?_
  repeat' (first | with_reducible exact Kept.refl _ | with_reducible apply State.mpEngine_kept | with_reducible apply State.resumeChan_kept | with_reducible assumption | with_reducible refine fun _ _ _ _ => ?_ | with_reducible refine fun _ _ _ => ?_ | with_reducible refine fun _ _ => ?_ | fail_if_no_progress (dsimp only))

theorem execBrkset_kept (s : State) (addr : Word) (v : Word) (crc : BitVec 8) : ∀ t', execBrkset addr v crc s = .next t' → Kept s t' := by
  intro _ e; cases e; refine settle_keeps _ ?_
  repeat' (first | with_reducible exact Kept.refl _ | with_reducible apply State.mpEngine_kept | with_reducible apply State.brkSet_kept | with_reducible assumption | with_reducible refine fun _ _ _ _ => ?_ | with_reducible refine fun _ _ _ => ?_ | with_reducible refine fun _ _ => ?_ | fail_if_no_progress (dsimp only))

theorem execBrkclr_kept (s : State) (addr : Word) (crc : BitVec 8) : ∀ t', execBrkclr addr crc s = .next t' → Kept s t' := by
  intro _ e; cases e; refine settle_keeps _ ?_
  repeat' (first | with_reducible exact Kept.refl _ | with_reducible apply State.mpEngine_kept | with_reducible apply State.brkClr_kept | with_reducible assumption | with_reducible refine fun _ _ _ _ => ?_ | with_reducible refine fun _ _ _ => ?_ | with_reducible refine fun _ _ => ?_ | fail_if_no_progress (dsimp only))

theorem execRdreg_kept (s : State) (addr : Word) (crc : BitVec 8) : ∀ t', execRdreg addr crc s = .next t' → Kept s t' := by
  intro _ e; cases e; refine settle_keeps _ ?_
  repeat' (first | with_reducible exact Kept.refl _ | with_reducible apply State.mpEngine_kept | with_reducible apply State.readDebug_kept | with_reducible assumption | with_reducible refine fun _ _ _ _ => ?_ | with_reducible refine fun _ _ _ => ?_ | with_reducible refine fun _ _ => ?_ | fail_if_no_progress (dsimp only))

theorem execWrreg_kept (s : State) (addr : Word) (v : Word) (crc : BitVec 8) : ∀ t', execWrreg addr v crc s = .next t' → Kept s t' := by
  intro _ e; cases e; refine settle_keeps _ ?_
  repeat' (first | with_reducible exact Kept.refl _ | with_reducible apply State.mpEngine_kept | with_reducible apply State.writeDebug_kept | with_reducible assumption | with_reducible refine fun _ _ _ _ => ?_ | with_reducible refine fun _ _ _ => ?_ | with_reducible refine fun _ _ => ?_ | fail_if_no_progress (dsimp only))

theorem execMpTimeout_kept (s : State) : ∀ t', execMpTimeout s = .next t' → Kept s t' := by
  intro _ e; cases e; refine settle_keeps _ ?_
  repeat' (first | with_reducible exact Kept.refl _ | with_reducible apply State.mpReply_kept)

end Sys2Proof.Machine
end

