-- ==== Sys2Proof/WellFormed.lean ====
section
/-! DEFINITION. Which commands can arise: the accesses of the device bus have a width of 1, 2 or 4 bytes (R24), and a request of the
host is made of whole dwords with four byte enables, a read of at most 512 bytes (R389, R392). -/

namespace Sys2Proof

/-- A width that an access can have (R24). -/
def okSize (n : Nat) : Bool := n == 1 || n == 2 || n == 4

/-- Whether a command can arise. -/
def Instr.wellFormed (i : Instr) : Bool :=
  match i with
  | .tickEdge => true
  | .tickBoundary _ => true
  | .registerWrite _ _ size _ => okSize size
  | .sysIrqEoi _ => true
  | .eventDelivery _ _ => true
  | .encoderEdge _ _ => true
  | .indexEdge _ _ => true
  | .ssiRead _ => true
  | .ssiSample _ _ _ _ => true
  | .encoderTimeout _ => true
  | .tbNowLoRead _ => true
  | .hpostGo _ => true
  | .hcancel _ => true
  | .hresultDone => true
  | .arm _ => true
  | .fire _ => true
  | .assembly _ => true
  | .entryFree _ => true
  | .cancelArm _ _ => true
  | .pwmPeriodStart _ _ => true
  | .pwmDutyWrite _ _ _ => true
  | .captureEdge _ _ _ _ => true
  | .capDataRead _ _ _ => true
  | .qdEdge _ _ _ => true
  | .qdPosWrite _ _ _ => true
  | .activationStart _ => true
  | .preempt _ => true
  | .activationEnd _ _ => true
  | .postedWriteAccept _ => true
  | .globalLoadResponse _ _ => true
  | .faultReport _ _ => true
  | .channelRelease _ _ => true
  | .illegal _ => true
  | .add _ => true
  | .sub _ => true
  | .adds _ => true
  | .subs _ => true
  | .and_ _ => true
  | .or_ _ => true
  | .xor _ => true
  | .andn _ => true
  | .shl _ => true
  | .shr _ => true
  | .sar _ => true
  | .shls _ => true
  | .min_ _ => true
  | .max_ _ => true
  | .abs _ => true
  | .neg _ => true
  | .mulq31 _ => true
  | .mulq16 _ => true
  | .mul _ => true
  | .clamp _ => true
  | .mac _ => true
  | .msu _ => true
  | .mpy _ => true
  | .rda _ => true
  | .wra _ => true
  | .clra _ => true
  | .adda _ => true
  | .eq _ => true
  | .ne _ => true
  | .lt _ => true
  | .le _ => true
  | .ltu _ => true
  | .leu _ => true
  | .tst _ => true
  | .sel _ => true
  | .addi _ => true
  | .addsi _ => true
  | .andi _ => true
  | .ori _ => true
  | .xori _ => true
  | .shi _ => true
  | .cmpi _ => true
  | .br _ => true
  | .dbnz _ => true
  | .li _ => true
  | .lui _ => true
  | .jmp _ => true
  | .call _ => true
  | .ld _ _ => true
  | .st _ _ => true
  | .nop _ => true
  | .eos _ => true
  | .yield_ _ => true
  | .brk _ => true
  | .jr _ => true
  | .mfs _ => true
  | .mts _ => true
  | .addp _ => true
  | .rdin _ => true
  | .rdint _ => true
  | .stout _ => true
  | .post _ _ => true
  | .cancel _ => true
  | .lut _ => true
  | .rcps _ => true
  | .sqrs _ => true
  | .claim _ _ => true
  | .rbRelease _ _ => true
  | .create _ _ _ => true
  | .destroy _ _ _ => true
  | .modify _ _ _ => true
  | .query _ _ _ => true
  | .requestDone => true
  | .allocRbfree _ => true
  | .flogPop _ => true
  | .engholdWrite _ _ => true
  | .rcalGo _ _ => true
  | .rcalDone _ _ => true
  | .ronstale _ => true
  | .refOk _ _ => true
  | .ampLimit _ _ _ => true
  | .adcSwtrig _ => true
  | .conversionEnd _ _ _ _ => true
  | .resultWrite _ => true
  | .resultCopy _ => true
  | .adcResLoRead _ _ _ => true
  | .calZero _ _ => true
  | .calFull _ _ => true
  | .calAbort _ => true
  | .calSave _ _ => true
  | .calRestore _ _ => true
  | .comparatorCross _ _ _ => true
  | .filterSample _ _ => true
  | .settlingHoldEnd _ _ => true
  | .cmpLatchWrite _ _ => true
  | .latchClear _ _ => true
  | .rangeHoldEnd _ => true
  | .dacShort _ _ => true
  | .shortClear _ => true
  | .eccWriteback _ => true
  | .dmaGo _ _ _ => true
  | .dmaAbort _ _ => true
  | .dmaWord _ _ _ => true
  | .fabricSpRequest _ _ _ _ _ _ => true
  | .fabricSpReturn _ => true
  | .mbxTofabWrite _ _ _ => true
  | .mbxToAck _ _ => true
  | .mbxFromWr _ _ _ => true
  | .mbxDoorbell _ _ => true
  | .scrInjArm _ _ => true
  | .vaultWipe _ _ => true
  | .wipeDone => true
  | .openSession _ => true
  | .attarCheck _ => true
  | .checkDone => true
  | .attarApply _ _ => true
  | .attarAbort _ _ => true
  | .stagedWrite _ _ => true
  | .peek _ => true
  | .applyStrobe => true
  | .sessionTimeout => true
  | .gpioSet _ _ => true
  | .gpioClr _ _ => true
  | .gpioTgl _ _ => true
  | .xbarLock _ _ => true
  | .lockTimeout => true
  | .bankFail _ => true
  | .bankReturn _ _ => true
  | .cycleStart _ => true
  | .returnReceive _ _ => true
  | .nodeSymbolLock _ _ => true
  | .nodeLockLoss _ _ => true
  | .nodeDataFrame _ _ _ _ _ _ => true
  | .nodeTimedFrame _ _ _ => true
  | .nodeMark _ _ _ _ => true
  | .nodeFiring _ _ => true
  | .nodePulseEnd _ _ => true
  | .nodeTimeout _ _ => true
  | .nodeEpochRelease _ _ => true
  | .tickPacket _ _ => true
  | .logPacket _ _ => true
  | .writePacket _ _ size _ => okSize size
  | .sessionPacket _ _ => true
  | .allocPacket _ _ => true
  | .refreshPacket _ _ => true
  | .bulkPacket _ _ _ => true
  | .statusPacket _ _ => true
  | .helloPacket _ _ => true
  | .helloSend => true
  | .replay _ => true
  | .heartbeatCheck => true
  | .takeover => true
  | .aliveToggle => true
  | .aliveInEdge => true
  | .partnerStatic => true
  | .seekTimeout => true
  | .syncTick _ _ _ => true
  | .joinComplete => true
  | .resign _ => true
  | .rejoin _ => true
  | .epochSilenceEnd => true
  | .powerOn => true
  | .railFall _ => true
  | .resetNAssert => true
  | .resetNRelease => true
  | .syncWord _ => true
  | .auth _ _ => true
  | .authCheckDone _ _ => true
  | .nopRecord _ _ => true
  | .regwr _ _ => true
  | .frame _ _ => true
  | .checkRecord _ _ => true
  | .rbegin _ => true
  | .rend _ => true
  | .keysel _ _ => true
  | .keyselBlock _ => true
  | .passon _ _ => true
  | .endRecord _ _ => true
  | .configRelease _ => true
  | .ioEnable => true
  | .cfgLoadwinWrite _ => true
  | .loadDeadline => true
  | .cfgRestart _ => true
  | .fuseImgkey _ => true
  | .fuseSvckey _ => true
  | .fuseAeskey _ => true
  | .keyram _ => true
  | .advanceLc _ => true
  | .service _ => true
  | .leaveService _ => true
  | .retire _ => true
  | .setminver _ => true
  | .fuseAltboot _ => true
  | .lccmdDone _ => true
  | .serviceExpiry => true
  | .regionHold _ => true
  | .partialCheckDone => true
  | .regionRelease _ => true
  | .abandon _ => true
  | .reload _ => true
  | .scrubVisit => true
  | .voteFix => true
  | .istSignature _ _ _ _ => true
  | .spmarchWindow _ _ _ _ _ _ => true
  | .trmarchWindow _ _ _ _ _ => true
  | .istConversion _ _ _ _ _ => true
  | .linkWindow _ _ => true
  | .istStarved _ => true
  | .trip _ => true
  | .tripInput _ _ => true
  | .comparatorTrip _ _ => true
  | .vmon _ => true
  | .temp _ => true
  | .clockMonitor _ => true
  | .tickWatchdog => true
  | .handoverTrip => true
  | .tripRelease _ => true
  | .safeLock _ => true
  | .kick _ => true
  | .wdwarn => true
  | .watchdogExpiry => true
  | .internalResetRelease => true
  | .tamperEvent _ => true
  | .rtcSecond => true
  | .sillageWrite => true
  | .sillageFreeze => true
  | .sillageResume => true
  | .sillageClear => true
  | .sillageMark _ _ => true
  | .pcieMemoryWrite off dws _ => decide (off.toNat % 4 = 0) && dws.dws.all (fun p => decide (p.1 < 16))
  | .pcieMemoryRead off n => decide (off.toNat % 4 = 0 ∧ 0 < n ∧ n ≤ 128)
  | .unsupportedRequest => true
  | .msiRelease => true
  | .perst => true
  | .linkDown => true
  | .canPush _ => true
  | .canAbort _ => true
  | .canRecover _ => true
  | .canPop _ => true
  | .canRxFrame _ _ _ _ _ => true
  | .canTxDone _ _ => true
  | .busoffRecovery _ => true
  | .spiTx _ _ => true
  | .spiRx _ _ => true
  | .spiWordDone _ _ => true
  | .i2cCmd _ _ => true
  | .i2cEntryDone _ _ _ => true
  | .i2cRx _ _ => true
  | .i2cTimeout _ => true
  | .uartTx _ _ => true
  | .uartRx _ _ => true
  | .uartFrameSent _ => true
  | .uartFrameReceived _ _ _ _ _ => true
  | .idcode => true
  | .samplePreload _ => true
  | .extest _ => true
  | .jtagClamp => true
  | .highz => true
  | .bypass => true
  | .cfgload => true
  | .cfgloadUpdate _ => true
  | .testLogicReset => true
  | .mpRead _ _ => true
  | .mpWrite _ _ _ => true
  | .debugHalt _ _ => true
  | .debugResume _ _ => true
  | .debugStep _ _ => true
  | .brkset _ _ _ => true
  | .brkclr _ _ => true
  | .rdreg _ _ => true
  | .wrreg _ _ _ => true
  | .mpTimeout => true
  | .pllLock _ => true
  | .pllUnlock _ => true
  | .standbyRequest _ => true
  | .standbyEntry => true
  | .wake _ _ => true
  | .wakeLockTimeout => true
  | .resumeBoundary => true
  | .powerFailWarning => true
  | .snapshotDone => true
  | .snap _ => true
  | .erasesnap _ => true
  | .erasefault _ => true
  | .mramRefresh => true
  | .rcRegisterRead _ _ size => okSize size
  | .virtualSourceWrap => true
  | .fabOutChange _ _ _ _ => true
  | .ubvelLinkDown => true
  | .ubvelLinkUp _ => true
  | .cfgClockTimeout => true
  | .memoryBitFlip _ => true
  | .pcieConfigRequest _ _ _ _ _ => true
  | .perstNRelease => true
  | .pcieLinkTrained _ => true
  | .uartCtsAssert _ => true
  | .batteryDomainLoss => true
  | .batteryDomainReturn => true

end Sys2Proof
end

