-- ==== Sys2Proof/Tests/Slice0.lean ====
section
/-! SUPPORT. The model's own tests, by evaluation: ill-formed commands are refused; and for each statement, clause by clause, a state and
operands that meet its hypotheses together, where no free value stands in the way with what the command then does. -/

namespace Sys2Proof.Tests

set_option Elab.async false

open Sys2Proof.Machine

/-- Every entry holds. -/
def checks (l : List Bool) : Bool := l.all id

/-- The command answers a next state that meets `p`. -/
def gives (c : Instr) (s : State) (p : State → Bool) : Bool :=
  match exec c s with
  | .next u => p u
  | _ => false

/-- The command answers `t`, settled. -/
def same (c : Instr) (s t : State) : Bool := gives c s (fun u => u == settle s t)

/-- A device after its release with every PLL locked. -/
def run : State :=
  (({ State.reset with pwr := { State.reset.pwr with railsUp := true, held := false, released := true, ioEnabled := true }, baySw := ⟨0, 0, 0, 0⟩ } : State).setReg CLK_STAT_at 0x1F).setFld PCIE_STAT_LOADER 0

/-- Sets registers. -/
def sets (s : State) (l : List (RF × Nat)) : State := l.foldl (fun s p => s.setFld p.1 p.2) s

/-- Pin 4 feeds input `i`. -/
def feed (s : State) (i : Nat) : State := sets { s with pins := { s.pins with routed := true } } [(XBAR_BANKSTAT_LEVEL, 0x5555), (XBAR_SEL_INSEL 4, i)]

/-- A packet with a right CRC. -/
def rx0 : PacketRx := ⟨true, 0, 5⟩

/-- An activation of slot 0 of LE[0] at PC 0. -/
def act0 : Act := ⟨0, 0, 0, 100, 0, none, [], .none, false, false, none, [], 0, 0, 0⟩

/-- LE[0] about to issue the word `w`, with values of its registers. -/
def engineAt (w : Word) (v : List (Nat × Word)) : State :=
  let s := (run.setWord 0x21000000 w).setEng 0 { engReset with act := some act0 }
  s.setChan 0 { chanReset with st := .running, bank := { bankReset 0 with v := v } }

/-- The premises of the statements about instructions: LE[0] issues `op` and has `cost` cycles. -/
def issuesAt (s : State) (op : EOp) (cost : Nat) : Bool :=
  match s.issues 0, decodeWord (s.word (instrAddr 0 0)).toNat with
  | some a, some e => decide (e.op = op ∧ a.pc = 0 ∧ s.flipCount (instrAddr 0 0) = 0 ∧ (s.engOf 0).bp ≠ some (a.slot, a.pc) ∧ a.step = false ∧
      a.used + hazardCycles a.hazard e + cost ≤ a.budget ∧ a.log = none)
  | _, _ => false

/-- The value register `r` of slot 0 of LE[0]. -/
def val0 (s : State) (r : Nat) : Word := (s.chanOf 0).bank.val r

/-- The word `w` issues as `op`, and its command leaves `x` in register `r` and the PC at `pc`. -/
def runs (w : Word) (v : List (Nat × Word)) (c : Instr) (op : EOp) (cost r : Nat) (x : Word) (pc : Nat) : Bool :=
  issuesAt (engineAt w v) op cost &&
    gives c (engineAt w v) (fun u => val0 u r == x && ((u.engOf 0).act.map (·.pc) == some pc))

/-! ## Well-formed commands -/

theorem test_illformed_width : checks [!(Instr.registerWrite 403 0x10000000 3 ⟨0, false⟩).wellFormed,
    (Instr.registerWrite 403 0x10000000 2 ⟨0, false⟩).wellFormed, !(Instr.rcRegisterRead 403 0x10000000 8).wellFormed,
    (Instr.rcRegisterRead 403 0x10000000 4).wellFormed, !(Instr.writePacket rx0 0x10000000 0 ⟨0, false⟩).wellFormed,
    (Instr.writePacket rx0 0x10000000 1 ⟨0, true⟩).wellFormed] = true := by decide

theorem test_illformed_requests : checks [!(Instr.pcieMemoryWrite 0 ⟨[(16, 0)], 0⟩ false).wellFormed,
    (Instr.pcieMemoryWrite 0 ⟨[(15, 0)], 0⟩ false).wellFormed, !(Instr.pcieMemoryWrite 2 ⟨[(15, 0)], 0⟩ false).wellFormed,
    !(Instr.pcieMemoryRead 0 129).wellFormed, (Instr.pcieMemoryRead 0 128).wellFormed, !(Instr.pcieMemoryRead 0 0).wellFormed] = true := by
  decide

/-! ## The machine and the bus -/

theorem witness_EmptyQueuePassesOneCycle : checks [
    run.pending = [] ∧ run.pwr.released ∧ (run.tb.now + 1 - run.tb.edge).toNat < run.fld TB_TICKLEN_CYCLES,
    State.reset.pending = [] ∧ State.reset.pwr.released = false,
    match step run with | .next u => u.tb.now == 1 | _ => false] = true := by decide +kernel

theorem witness_EveryStepKeepsTheCanonicalForm : checks [State.reset.canonical, State.reset.lc.sound,
    match step (run.withQueue [.gpioSet 0 1]) with | .next u => u.canonical && u.lc.sound && u.pending == [] | _ => false] = true := by
  decide +kernel

theorem witness_TheLifeCycleNeverGoesBack : checks [State.reset.lc.sound,
    match step (State.reset.withQueue [.idcode]) with | .next u => u.lc.sound && u.lc.st == 0 | _ => false] = true := by
  decide +kernel

theorem witness_CommandsLeaveQueueAndPart :
    gives .testLogicReset (run.withQueue [.idcode]) (fun u => u.pending == [.idcode] && u.part == run.part) = true := by decide +kernel

theorem witness_RegisterAccessesActByTheirCodes : checks [
    run.busRuns ∧ run.loaderGate 403 0x40009024 = false ∧ regionOf 0x40009024 = .regs ∧ run.denied 403 0x40009024 true = false ∧
      (rowOf 0x40009024).rws = 0,
    gives (.registerWrite 403 0x40009024 4 ⟨0xFFFFFFFF, false⟩) run (fun u => u.reg 0x40009024 == 0x3F),
    gives (.registerWrite 403 0x40009020 4 ⟨1, false⟩) (run.setReg 0x40009020 3) (fun u => u.reg 0x40009020 == 2),
    run.denied 403 0x40000014 false = false ∧ run.popRead 403 0x40000014 = none,
    run.denied 403 0x40009018 false = false ∧ run.popRead 403 0x40009018 = none,
    gives (.rcRegisterRead 403 0x40009018 4) (run.setReg 0x40009018 5) (fun u => u.reg 0x40009018 == 0 && u.outbox == [.readData 403 0x40009018 5])]
    = true := by decide +kernel

theorem witness_AccessErrorsAreCaptured :
    let e := run.busError 403 0x14000000 4 true
    checks [
    run.busRuns ∧ run.loaderGate 403 0x14000000 = false ∧ (e.1 || e.2.1 || e.2.2),
    !(run.fb SYS_ERRSTAT_UNMAPPED || run.fb SYS_ERRSTAT_SIZE || run.fb SYS_ERRSTAT_DENIED),
    (sets run [(SYS_ERRSTAT_SIZE, 1)]).fb SYS_ERRSTAT_SIZE,
    gives (.registerWrite 403 0x14000000 4 ⟨0, false⟩) run (fun u => u.fb SYS_ERRSTAT_UNMAPPED && u.fld SYS_ERRADDR_ADDR == 0x14000000)] = true := by
  decide +kernel

theorem witness_MemoryAccessesReachTheirBytes :
    let sb := sets run [(PAIR_STAT_ROLE, 3)]
    let gate (s : State) (req a : Nat) : Bool := s.busRuns && !s.loaderGate req a && !s.denied req a true && !s.denied req a false
    checks [
    gate run 403 0x10000000 ∧ regionOf 0x10000000 = .scratch 0 ∧ run.pairStandby = false ∧ run.flipCount 0x10000000 = 0,
    gives (.registerWrite 403 0x10000000 4 ⟨0x01020304, false⟩) run (fun u => u.byte 0x10000000 == 4 && u.byte 0x10000003 == 1),
    gate run 403 0x103FFFFF ∧ regionOf 0x103FFFFF = .scratch 0,
    gives (.registerWrite 403 0x103FFFFF 1 ⟨0x85, false⟩) run (fun u => u.byte 0x103FFFFF == 0x85),
    gate run 403 0x11000000 ∧ regionOf 0x11000000 = .scratch 1, gate run 403 0x12000000 ∧ regionOf 0x12000000 = .scratch 2,
    gives (.registerWrite 403 0x12000004 4 ⟨5, false⟩) (run.setWord 0x10000004 0xF) (fun u => u.word 0x10000004 == 0xA),
    gate sb 403 0x10000000 ∧ sb.pairStandby, gives (.registerWrite 403 0x10000000 4 ⟨5, false⟩) sb (fun u =>
      u.word 0x10000000 == 0 && u.fb PAIR_IRQ_STAT_LOCALWR),
    gives (.registerWrite 403 0x10000000 4 ⟨5, true⟩) run (fun u => u.word 0x10000000 == 0 && u.fb (SCR_IRQ_STAT_COLL 0)),
    gate run 403 0x20002000 ∧ regionOf 0x20002000 = .dram] = true := by decide +kernel

theorem witness_PostedWritesLoadsAndRearms :
    let s := run.setEng 3 { engReset with buf := [⟨0x10000000, 4, 7, 0, 5, 0⟩] }
    let sleep : State := { s with pwr := { s.pwr with phase := .standby } }
    let ld (a : Nat) : State := run.setEng 3 { engReset with act := some act0, gload := some ⟨a, 4, false, 5, 0, 0, 0, none⟩ }
    let open_ : State := { run with pcie := ⟨true, true, true, 1, false, 0⟩ }
    checks [
    (s.engOf 3).buf ≠ [] ∧ s.busRuns ∧ s.sectRuns 0, sleep.busRuns = false,
    gives (.globalLoadResponse 3 200) (ld 0x10000000) (fun u => (u.engOf 3).act.map (·.used) == some 100),
    gives (.postedWriteAccept ⟨3, false⟩) (run.setEng 3 { engReset with buf := [⟨0x14000000, 4, 7, 1, 9, 0⟩] }) (fun u =>
      (u.chanOf 49).unreported.map (fun f => (f.cause, f.pc)) == some (5, 9)),
    (run.busWrite 3 0x14000000 4 7 false).2 = .refused, (run.busWrite 3 0x10000000 4 7 false).2 ≠ .refused,
    gives (.postedWriteAccept ⟨3, false⟩) s (fun u => u.word 0x10000000 == 7 && (u.engOf 3).buf == []),
    ((ld 0x10000000).busRead 3 0x10000000 4).2.2 = .fine, ((ld 0x14000000).busRead 3 0x14000000 4).2.2 = .refused,
    gives (.globalLoadResponse 3 20) (ld 0x10000000) (fun u => (u.engOf 3).gload.isNone && ((u.engOf 3).act.map (·.used) == some 20)),
    gives (.globalLoadResponse 3 0) (ld 0x14000000) (fun u => (u.chanOf 48).unreported.map (·.cause) == some 5),
    open_.msiOpen, run.msiOpen = false, same (.sysIrqEoi 1) open_ open_] = true := by decide +kernel

/-! ## Engine instructions: each word is written out from the formats of R77 -/

/-- Format A. -/
def fmtA (major rd ra rb fn fl sub : Nat) : Word :=
  BitVec.ofNat 32 (major * 2 ^ 26 + rd * 2 ^ 22 + ra * 2 ^ 18 + rb * 2 ^ 14 + fn * 2 ^ 8 + fl * 2 ^ 6 + sub)
/-- Format B. -/
def fmtB (major rd ra z : Nat) : Word := BitVec.ofNat 32 (major * 2 ^ 26 + rd * 2 ^ 22 + ra * 2 ^ 18 + z)
/-- Format C. -/
def fmtC (major rd z : Nat) : Word := BitVec.ofNat 32 (major * 2 ^ 26 + rd * 2 ^ 22 + z)
/-- Format M. -/
def fmtM (major rd p sz pm sx imm : Nat) : Word :=
  BitVec.ofNat 32 (major * 2 ^ 26 + rd * 2 ^ 22 + p * 2 ^ 20 + sz * 2 ^ 18 + pm * 2 ^ 16 + sx * 2 ^ 15 + imm)
/-- The extended group. -/
def fmtX (fn rd ra rb i : Nat) : Word := BitVec.ofNat 32 (0x3F * 2 ^ 26 + fn * 2 ^ 20 + rd * 2 ^ 16 + ra * 2 ^ 12 + rb * 2 ^ 8 + i)

/-- An ALU word with its operands and result in R3. -/
def alu (fn : Nat) (c : Instr) (op : EOp) (x y r : Word) : Bool :=
  runs (fmtA 1 3 1 2 fn 0 0) [(1, x), (2, y), (3, 9)] c op 1 3 r 1

theorem witness_AluWritesItsResult : checks [
    alu 0 (.add 0) .add 0xFFFFFFFF 2 1, alu 1 (.sub 0) .sub 1 2 0xFFFFFFFF, alu 2 (.adds 0) .adds 0x7FFFFFFF 1 0x7FFFFFFF,
    alu 3 (.subs 0) .subs 0x80000000 1 0x80000000, alu 4 (.and_ 0) .and_ 0xC 0xA 8, alu 5 (.or_ 0) .or_ 0xC 0xA 0xE,
    alu 6 (.xor 0) .xor 0xC 0xA 6, alu 7 (.andn 0) .andn 0xC 0xA 4, alu 8 (.shl 0) .shl 1 33 2, alu 9 (.shr 0) .shr 0x80000000 31 1,
    alu 10 (.sar 0) .sar 0x80000000 31 0xFFFFFFFF, alu 11 (.shls 0) .shls 0x40000000 1 0x7FFFFFFF,
    alu 12 (.min_ 0) .min_ 0xFFFFFFFF 1 0xFFFFFFFF, alu 13 (.max_ 0) .max_ 0xFFFFFFFF 1 1,
    runs (fmtA 1 3 1 0 14 0 0) [(1, 0x80000000)] (.abs 0) .abs 1 3 0x7FFFFFFF 1,
    runs (fmtA 1 3 1 0 15 0 0) [(1, 1)] (.neg 0) .neg 1 3 0xFFFFFFFF 1,
    alu 16 (.mulq31 0) .mulq31 0x80000000 0x80000000 0x7FFFFFFF, alu 17 (.mulq16 0) .mulq16 0x10000 0x30000 0x30000,
    alu 18 (.mul 0) .mul 0x10001 0x10000 0x10000, alu 20 (.clamp 0) .clamp 1 5 5] = true := by decide +kernel

theorem witness_ImmediateWritesItsResult : checks [
    runs (fmtB 8 3 1 0x3FFF) [(1, 5)] (.addi 0) .addi 1 3 4 1, runs (fmtB 9 3 1 0x2000) [(1, 0x80000000)] (.addsi 0) .addsi 1 3 0x80000000 1,
    runs (fmtB 10 3 1 0x3FFF) [(1, 0xFFFFFFFF)] (.andi 0) .andi 1 3 0x3FFF 1, runs (fmtB 11 3 1 0x2000) [(1, 1)] (.ori 0) .ori 1 3 0x2001 1,
    runs (fmtB 12 3 1 1) [(1, 3)] (.xori 0) .xori 1 3 2 1, runs (fmtB 13 3 1 31) [(1, 1)] (.shi 0) .shi 1 3 0x80000000 1,
    runs (fmtB 13 3 1 (0x1000 + 31)) [(1, 0x80000000)] (.shi 0) .shi 1 3 1 1,
    runs (fmtB 13 3 1 (0x2000 + 31)) [(1, 0x80000000)] (.shi 0) .shi 1 3 0xFFFFFFFF 1,
    runs (fmtB 13 3 1 (0x3000 + 1)) [(1, 0x40000000)] (.shi 0) .shi 1 3 0x7FFFFFFF 1,
    runs (fmtC 0x18 3 0xFFFFF) [] (.li 0) .li 1 3 0xFFFFFFFF 1, runs (fmtC 0x19 3 0xFFFFF) [] (.lui 0) .lui 1 3 0xFFFFF000 1,
    runs (fmtA 4 3 1 2 0 0 0) [(1, 5), (2, 6)] (.sel 0) .sel 1 3 6 1,
    issuesAt (engineAt (fmtX 0x19 3 1 0 0) [(1, 0x10000)]) .rcps 2, issuesAt (engineAt (fmtX 0x1A 3 1 0 0) [(1, 0x40000000)]) .sqrs 2]
    = true := by decide +kernel

/-- An accumulator word. -/
def accAt (fn ra rb rd : Nat) (c : Instr) (op : EOp) (a0 : BitVec 48) : Bool :=
  let s := engineAt (fmtA 2 rd ra rb fn 0 0) [(1, 3), (2, 5)]
  issuesAt s op 1 && gives c s (fun u => (u.chanOf 0).bank.acc0 == a0 && ((u.engOf 0).act.map (·.pc) == some 1))

theorem witness_AccumulatorsAccumulate : checks [
    accAt 0 1 2 0 (.mac 0) .mac 15, accAt 1 1 2 0 (.msu 0) .msu (-15), accAt 2 1 2 0 (.mpy 0) .mpy 15, accAt 3 0 0 3 (.rda 0) .rda 0,
    accAt 4 1 0 0 (.wra 0) .wra 3, accAt 5 0 0 0 (.clra 0) .clra 0, accAt 6 1 0 0 (.adda 0) .adda 3] = true := by decide +kernel

/-- A compare whose flag 2 becomes `f`. -/
def cmpAt (w : Word) (x y : Word) (c : Instr) (op : EOp) (f : Bool) : Bool :=
  let s := engineAt w [(1, x), (2, y)]
  issuesAt s op 1 && gives c s (fun u => (u.chanOf 0).bank.flag 2 == f && ((u.engOf 0).act.map (·.pc) == some 1))

theorem witness_ComparesWriteOneFlag : checks [
    cmpAt (fmtA 3 0 1 2 0 2 0) 5 5 (.eq 0) .eq true, cmpAt (fmtA 3 0 1 2 1 2 0) 5 5 (.ne 0) .ne false,
    cmpAt (fmtA 3 0 1 2 2 2 0) 0xFFFFFFFF 0 (.lt 0) .lt true, cmpAt (fmtA 3 0 1 2 3 2 0) 1 1 (.le 0) .le true,
    cmpAt (fmtA 3 0 1 2 4 2 0) 0xFFFFFFFF 0 (.ltu 0) .ltu false, cmpAt (fmtA 3 0 1 2 5 2 0) 0 0 (.leu 0) .leu true,
    cmpAt (fmtA 3 0 1 2 6 2 0) 6 1 (.tst 0) .tst false, cmpAt (fmtB 0x0E 8 1 0x3FFF) 0xFFFFFFFF 0 (.cmpi 0) .cmpi true,
    cmpAt (fmtB 0x0E 9 1 0) 0xFFFFFFFF 0 (.cmpi 0) .cmpi true] = true := by decide +kernel

/-- A word that faults its channel. -/
def faultsAt (w : Word) (v : List (Nat × Word)) (c : Instr) (op : EOp) (cost cause : Nat) : Bool :=
  issuesAt (engineAt w v) op cost && gives c (engineAt w v) (fun u => (u.chanOf 0).unreported.map (·.cause) == some cause)

theorem witness_TransfersSetThePc : checks [
    runs (fmtB 0x10 8 0 4094) [] (.br 0) .br 2 1 0 4095, runs (fmtB 0x10 0 0 7) [] (.br 0) .br 1 1 0 1,
    faultsAt (fmtB 0x10 8 0 4095) [] (.br 0) .br 1 3, faultsAt (fmtB 0x10 8 0 0x3FFE) [] (.br 0) .br 1 3,
    runs (fmtB 0x11 3 0 7) [(3, 2)] (.dbnz 0) .dbnz 2 3 1 8, runs (fmtB 0x11 3 0 7) [(3, 1)] (.dbnz 0) .dbnz 1 3 0 1,
    faultsAt (fmtB 0x11 3 0 0x3FFE) [(3, 2)] (.dbnz 0) .dbnz 1 3,
    runs (fmtC 0x1A 0 4095) [] (.jmp 0) .jmp 2 1 0 4095, faultsAt (fmtC 0x1A 0 4096) [] (.jmp 0) .jmp 1 3,
    runs (fmtC 0x1B 0 9) [] (.call 0) .call 2 15 1 9, faultsAt (fmtC 0x1B 0 4096) [] (.call 0) .call 1 3,
    runs (fmtX 4 0 1 0 0) [(1, 4095)] (.jr 0) .jr 2 1 4095 4095, faultsAt (fmtX 4 0 1 0 0) [(1, 4096)] (.jr 0) .jr 1 3,
    runs (fmtX 0 0 0 0 0) [] (.nop 0) .nop 1 1 0 1] = true := by decide +kernel

/-- LE[0] with pointer 0 at `p`. -/
def ptrAt (w : Word) (v : List (Nat × Word)) (p : Word) : State :=
  let s := engineAt w v
  s.setChan 0 { s.chanOf 0 with bank := { (s.chanOf 0).bank with p := [(0, p)] } }

theorem witness_LoadAndStoreReachTheDataRam :
    let at_ (w : Word) (p : Word) (op : EOp) : Bool := issuesAt (ptrAt w [(3, 0x01020304)] p) op 1
    let bad (p : Word) : State := (ptrAt (fmtM 0x20 3 0 2 0 0 0) [] p).setFlips (0x20000000 + p.toNat) 3
    let glob (ld : Bool) : State := ptrAt (fmtM (if ld then 0x20 else 0x21) 3 0 2 0 0 0) [(3, 7)] 0x10040000
    checks [
    at_ (fmtM 0x20 3 0 2 0 0 0) 0x1FFC .ld ∧ targetOf 0 0 0x1FFC = .own 0x20001FFC,
    gives (.ld 0 ⟨0, []⟩) ((ptrAt (fmtM 0x20 3 0 2 0 0 0) [] 0x1FFC).setWord 0x20001FFC 0x55) (fun u => val0 u 3 == 0x55),
    at_ (fmtM 0x21 3 0 0 0 0 1) 0xFE .st ∧ targetOf 0 0 0xFF = .own 0x200000FF,
    gives (.st 0 ⟨0, []⟩) (ptrAt (fmtM 0x21 3 0 0 0 0 1) [(3, 0x01020304)] 0xFE) (fun u => u.byte 0x200000FF == 4 && u.byte 0x200000FE == 0),
    at_ (fmtM 0x20 3 0 1 0 0 0) 0x1001 .ld ∧ rotateView 0x1001 = false,
    gives (.ld 0 ⟨0, []⟩) (ptrAt (fmtM 0x20 3 0 1 0 0 0) [] 0x1001) (fun u => (u.chanOf 0).unreported.map (·.cause) == some 4),
    at_ (fmtM 0x21 3 0 2 0 0 0) 0x100 .st ∧ targetOf 0 0 0x100 = .violation,
    gives (.st 0 ⟨0, []⟩) (ptrAt (fmtM 0x21 3 0 2 0 0 0) [] 0x100) (fun u => (u.chanOf 0).unreported.map (·.cause) == some 5),
    gives (.ld 0 ⟨0, []⟩) (bad 0x1000) (fun u => ((u.chanOf 0).unreported.map (·.cause) == some 7) && u.fb (SCR_IRQ_STAT_UE 0)),
    at_ (fmtM 0x20 3 0 2 0 0 0) 0x10000000 .ld ∧ targetOf 0 0 0x10000000 = .scratch 0x10000000 ∧
      (ptrAt (fmtM 0x20 3 0 2 0 0 0) [] 0x10000000).portWait 0 0 ⟨1, [5]⟩ = 1,
    ({ run with rr := [(0, 4)] } : State).portWait 0 0 ⟨0, [5]⟩ = 1,
    gives (.ld 0 ⟨1, []⟩) (ptrAt (fmtM 0x20 3 0 2 0 0 0) [] 0x10000000) (fun u => (u.engOf 0).act.map (·.used) == some 4),
    gives (.st 0 ⟨0, []⟩) (ptrAt (fmtM 0x21 3 0 2 0 0 0) [(3, 9)] 0x13000001) (fun u =>
      u.word 0x10000000 == 0x900 && ((u.engOf 0).act.map (·.used) == some 2)),
    targetOf 0 0 0x40000000 = .global 0x40000000 ∧ (glob false).refused 0 0 0x40000004 4 false = false,
    gives (.ld 0 ⟨0, []⟩) (glob true) (fun u => (u.engOf 0).gload.isSome),
    gives (.st 0 ⟨0, []⟩) (glob false) (fun u => ((u.engOf 0).buf.length == 1) && ((u.engOf 0).act.map (·.used) == some 1)),
    gives (.st 0 ⟨0, []⟩) ((glob false).setEng 0 { engReset with act := some act0, buf := List.replicate 4 ⟨0x10040000, 4, 0, 0, 0, 0⟩ })
      (fun u => (u.engOf 0).stalled && ((u.engOf 0).act.map (·.pc) == some 0)),
    gives (.st 0 ⟨2, []⟩) ((glob false).setEng 0 { engReset with act := some act0, stalled := true })
      (fun u => (u.engOf 0).stalled == false && ((u.engOf 0).act.map (·.used) == some 3))] = true := by decide +kernel

theorem witness_StoreTouchesOnlyItsBytes :
    let own := ptrAt (fmtM 0x21 3 0 0 0 0 1) [(3, 0x01020304)] 0xFE
    let global := ptrAt (fmtM 0x21 3 0 2 0 0 0) [(3, 7)] 0x40000000
    checks [
    issuesAt own .st 1 ∧ targetOf 0 0 0xFF = .own 0x200000FF,
    gives (.st 0 ⟨0, []⟩) own (fun u => u.byte 0x200000FF == 4 && u.byte 0x20000100 == 0 && u.byte 0x200000FE == 0),
    issuesAt global .st 1 ∧ targetOf 0 0 0x40000000 = .global 0x40000000, gives (.st 0 ⟨0, []⟩) global (fun u => u.mem == global.mem),
    gives (.add 0) (engineAt 0 []) (fun u => u.byte 0x20000000 == 0)] = true := by decide +kernel

theorem witness_MemoryWriteStoresItsBytes :
    let w := run.memWrite 0 0x10000002 2 0x1234
    checks [0x10000002 % 2 = 0 ∧ run.flipCount 0x10000000 = 0, w.word 0x10000000 == 0x12340000, (w.memRead 0x10000002 2).2.1 == 0x1234]
    = true := by decide +kernel

theorem witness_SpecialRegistersMove :
    let lut := (ptrAt (fmtX 0x18 3 1 0 1) [(1, 0)] 0x1000).setWord 0x20001000 7
    checks [
    issuesAt (engineAt (fmtX 8 3 0 0 1) []) .mfs 1, issuesAt (engineAt (fmtX 8 3 0 0 2) []) .mfs 1,
    issuesAt (engineAt (fmtX 8 3 0 0 9) []) .mfs 1, issuesAt (engineAt (fmtX 9 0 1 0 0) [(1, 0xF)]) .mts 1,
    issuesAt (engineAt (fmtX 9 0 1 0 0x1B) []) .mts 1, issuesAt (engineAt (fmtX 10 0 0 0 4) []) .addp 1,
    gives (.mts 0) (engineAt (fmtX 9 0 1 0 0x10) [(1, 0x1234)]) (fun u => ((u.chanOf 0).bank.ptr 0) == 0x1234),
    gives (.addp 0) (ptrAt (fmtX 10 0 0 0 0xFC) [] 0x1000) (fun u => ((u.chanOf 0).bank.ptr 0) == 0xFFC),
    issuesAt (ptrAt (fmtX 0x18 3 1 0 1) [(1, 0)] 0x1002) .lut 1, issuesAt (ptrAt (fmtX 0x18 3 1 0 1) [(1, 0)] 0x100) .lut 1,
    gives (.lut 0) (ptrAt (fmtX 0x18 3 1 0 1) [(1, 0)] 0x1002) (fun u => (u.chanOf 0).unreported.map (·.cause) == some 4),
    gives (.lut 0) (ptrAt (fmtX 0x18 3 1 0 1) [(1, 0)] 0x100) (fun u => (u.chanOf 0).unreported.map (·.cause) == some 5),
    gives (.lut 0) (lut.setFlips 0x20001000 3) (fun u => ((u.chanOf 0).unreported.map (·.cause) == some 7) && u.fb (SCR_IRQ_STAT_UE 0)),
    issuesAt lut .lut 4 ∧ lut.flipCount 0x20001000 = 0, gives (.lut 0) lut (fun u => val0 u 3 == 7)] = true := by decide +kernel

/-- LE[0] with a channel of these bindings. -/
def boundAt (w : Word) (v : List (Nat × Word)) (d : Desc) : State :=
  let s := engineAt w v
  s.setChan 0 { s.chanOf 0 with desc := d }

theorem witness_BindingsReadAndStage :
    let d : Desc := { descReset with ins := [0x1005_6003, 0x4000, 0, 0], outs := [0x1000, 0, 0, 0] }
    let cap := (boundAt (fmtX 0x10 3 0 0 2) [] d).setCap 0 0 ⟨[(77, true)], false, false⟩
    checks [
    d.inp 2 = (4, 0), gives (.rdin 0) cap (fun u => val0 u 3 == 77 && (u.capOf 0 0).fifo == []),
    gives (.rdin 0) (boundAt (fmtX 0x10 3 0 0 0) [] d) (fun u => val0 u 3 == 0 && ((u.engOf 0).act.map (·.used) == some 4)),
    issuesAt (boundAt (fmtX 0x10 3 0 0 0) [] d) .rdin 4 ∧ d.inp 0 = (6, 3), d.inp 1 = (1, 5) ∧ issuesAt (boundAt (fmtX 0x11 3 0 0 1) [] d) .rdint 1,
    d.out 0 = (1, 0) ∧ issuesAt (boundAt (fmtX 0x12 0 1 0 0) [(1, 5)] d) .stout 1,
    gives (.stout 0) (boundAt (fmtX 0x12 0 1 0 0) [(1, 5)] d) (fun u => (u.engOf 0).act.map (·.stage) == some [(0, (5, false))]),
    d.inp 3 = (0, 0) ∧ faultsAt (fmtX 0x10 3 0 0 2) [] (.rdin 0) .rdin 1 6, faultsAt (fmtX 0x11 3 0 0 0) [] (.rdint 0) .rdint 1 6,
    faultsAt (fmtX 0x12 0 1 0 1) [] (.stout 0) .stout 1 6] = true := by decide +kernel

theorem witness_PostAndCancelReachTheStore :
    let entry (pin : Word) : List (Nat × Word) := [(4, 1000), (5, 0), (6, pin), (7, 1)]
    let wrong := engineAt (fmtX 0x14 3 4 0 0) (entry 0x1FF)
    let d : Desc := { descReset with outs := [0x4000, 0, 0, 0], rel := [0x01FF0000, 0, 0, 0, 0, 0, 0, 0] }
    let full := (boundAt (fmtX 0x14 3 4 0 0) (entry 5) d).setStore 0 { storeReset with freed := 256 }
    let can := engineAt (fmtX 0x15 3 4 0 0) [(4, 0x00010001)]
    let a : Action := ⟨1000, 0, 5, 1, 0, 0, .unjudged⟩
    checks [
    issuesAt wrong .post 2 ∧ wrong.badEntry ⟨1000, 0, 0x1FF, 1, 0, 0, .unjudged⟩, gives (.post 0 0) wrong (fun u => val0 u 3 == 2),
    issuesAt full .post 2 ∧ full.badEntry a = false ∧ (full.chanOf 0).desc.inRange a ∧ (full.post 0 a).2 ≠ 0,
    (full.chanOf 0).desc.inRange a,
    gives (.post 0 1) (boundAt (fmtX 0x14 3 4 0 0) (entry 5) d) (fun u => val0 u 3 == 0 && ((u.storeOf 0).fifo.length == 1) &&
      ((u.engOf 0).act.map (·.used) == some 3)),
    gives (.post 0 0) full (fun u => val0 u 3 == 1 && u.fb (TB_IRQ_STAT_FULL)),
    (engineAt (fmtX 0x14 3 4 0 0) (entry 5)).badEntry a = false, faultsAt (fmtX 0x14 3 4 0 0) (entry 5) (.post 0 0) .post 1 6,
    gives (.cancel ⟨0, 0⟩) (can.setEng 0 { engReset with act := some { act0 with log := some [2], limit := 5 } }) (fun u => val0 u 3 == 2),
    issuesAt can .cancel 3, gives (.cancel ⟨0, 2⟩) can (fun u => (u.storeOf 0).fifo.length == 1 && (u.engOf 0).cancelRd == some 3)] = true := by
  decide +kernel

theorem witness_ActivationsStartAndEnd :
    let x : Slice := ⟨0, 0, 50, true, false⟩
    let start := (run.setEng 0 { engReset with layout := [x] }).setChan 0 { chanReset with st := .running }
    let brk := (engineAt (fmtX 3 0 0 0 0) []).setEng 0 { engReset with act := some act0, brk := true }
    let ended := run.setEng 0 { engReset with act := some { act0 with ending := some .eos } }
    let spent := run.setEng 0 { engReset with act := some { act0 with used := 100 } }
    checks [
    start.engineRuns 0 ∧ start.live ∧ (takeSlice (fun k => (start.slotOf 0 k).mayRun) (start.engOf 0).layout).1 = some x,
    gives (.activationStart 0) start (fun u => (u.engOf 0).act.isSome),
    issuesAt (engineAt (fmtX 1 0 0 0 0) []) .eos 1, issuesAt (engineAt (fmtX 2 0 0 0 0) []) .yield_ 1,
    faultsAt (fmtX 3 0 0 0 0) [] (.brk 0) .brk 1 8, issuesAt brk .brk 1 ∧ (brk.engOf 0).brk,
    gives (.brk 0) brk (fun u => (u.chanOf 0).stop == some 1),
    decodeWord ((engineAt 0 []).word 0x21000000).toNat = none ∧ (engineAt 0 []).issues 0 = some act0,
    gives (.illegal 0) (engineAt 0 []) (fun u => (u.chanOf 0).unreported.map (·.cause) == some 2),
    (ended.engOf 0).buf = [] ∧ (ended.engOf 0).act.map (·.ending) = some (some .eos), gives (.activationEnd 0 0) ended (fun u => (u.engOf 0).act.isNone),
    (spent.engOf 0).cancelRd = none ∧ (spent.engOf 0).act.map (·.used) = some 100,
    gives (.preempt 0) spent (fun u => (u.chanOf 0).ovrTotal == 1 && u.fb ALLOC_IRQ_STAT_OVERRUN)] = true := by decide +kernel

theorem witness_CancelsReturnTheirCount :
    let a : Action := ⟨1000, 0, 0x00010005, 1, 0, 1000, .waiting⟩
    let host := run.setStore 0 { storeReset with fifo := [.cancel 1 0xFFFF none none], armed := [a] }
    let eng := (run.setStore 0 { storeReset with fifo := [.cancel 1 0xFFFF (some 0) (some 0)], armed := [a] }).setEng 0
      { engReset with act := some act0, cancelRd := some 3 }
    checks [(host.storeOf 0).fifo ≠ [], gives (.cancelArm 0 0) host (fun u => u.hop.done && (u.hop.result == 1) && (u.storeOf 0).armed == []),
    (eng.engOf 0).cancelRd = some 3, gives (.cancelArm 0 0) eng (fun u => val0 u 3 == 1)] = true := by decide +kernel

/-! ## Channels and requests -/

theorem witness_HandlesCarryTheirCheck : checks [bits (handleOf 0xFFF 0xFFF) 31 24 = 0xFF ^^^ 0xFF ^^^ 0xFF ^^^ 0x5A,
    bits (handleOf 0 1) 31 24 = 0x00 ^^^ 0x10 ^^^ 0x00 ^^^ 0x5A] = true := by decide +kernel

theorem witness_RequestBuffersAreOwned :
    let own := sets run [(ALLOC_RB_CMD_OWNED 15, 1), (ALLOC_RB_CMD_OWNER 15, 403)]
    let wait := sets own [(ALLOC_RB_CMD_PEND 15, 1)]
    checks [
    run.fb (ALLOC_RB_CMD_PEND 15) = false ∧ run.fb (ALLOC_RB_CMD_OWNED 15) = false,
    same (.claim 403 15) run (sets run [(ALLOC_RB_CMD_OWNED 15, 1), (ALLOC_RB_CMD_OWNER 15, 403)]),
    own.fb (ALLOC_RB_CMD_OWNED 15) ∧ own.fld (ALLOC_RB_CMD_OWNER 15) = 403 ∧ own.fb (ALLOC_RB_CMD_PEND 15) = false,
    same (.claim 404 15) own own, gives (.create 403 15 false) own (fun u => u.aq == [⟨15, 1, false⟩] && u.fb (ALLOC_RB_CMD_PEND 15)),
    gives (.query 403 15 true) own (fun u => u.aq == [⟨15, 4, true⟩]), gives (.destroy 403 15 false) own (fun u => u.aq == [⟨15, 2, false⟩]),
    gives (.modify 403 15 false) own (fun u => u.aq == [⟨15, 3, false⟩]),
    wait.fb (ALLOC_RB_CMD_PEND 15), gives (.create 403 15 false) wait (fun u => u.fb ALLOC_STATUS_REENTRY),
    gives (.create 404 15 false) own (fun u => u.fb ALLOC_STATUS_FOREIGN),
    gives (.rbRelease 403 15) own (fun u => !u.fb (ALLOC_RB_CMD_OWNED 15)), gives (.rbRelease 403 15) wait (fun u => tget false u.rb 15),
    gives (.allocRbfree 0x8000) own (fun u => !u.fb (ALLOC_RB_CMD_OWNED 15)),
    gives (.allocRbfree 0x8000) wait (fun u => tget false u.rb 15 && u.fbit ALLOC_RBFREE_FREE 15)] = true := by decide +kernel

theorem witness_RequestsAreJudgedAndDone :
    let ask (op place : Nat) (st : ChanState) : State :=
      (sets { run with aq := [⟨0, op, false⟩] } [(ALLOC_RB_PLACE_WORD 0, place), (ALLOC_RB_MODE_WORD 0, 0x102), (ALLOC_RB_BUDGET_WORD 0, 100),
        (ALLOC_RB_TRIGGER_WORD 0, 0x1FF)]).setChan 0xFFF { chanReset with st := st }
    let h := handleOf 0xFFF 1
    let ok (s : State) (q : Request) : Bool := s.aq == [q] && !tget false s.rb q.buf && ({ s with aq := [] } : State).judge q == (0, 0)
    checks [
    (({ ask 9 0 .free with aq := [] } : State).judge ⟨0, 9, false⟩).1 ≠ 0, gives .requestDone (ask 9 0 .free) (fun u => u.fld (ALLOC_RB_CMD_CODE 0) == 1),
    ok (ask 1 0xFFF .free) ⟨0, 1, false⟩ ∧ (ask 1 0xFFF .free).pickSlot 0xFFF = some 0xFFF ∧
      ((ask 1 0xFFF .free).readDesc 0).mode.toNat.testBit 3 = false,
    gives .requestDone (ask 1 0xFFF .free) (fun u => (u.chanOf 0xFFF).st == .starting && (u.fld (ALLOC_RB_RESULT_RESULT 0) == h)),
    ok (ask 2 h .running) ⟨0, 2, false⟩, gives .requestDone (ask 2 h .running) (fun u => (u.chanOf 0xFFF).st == .stopping && u.aq == []),
    ok (ask 3 h .running) ⟨0, 3, false⟩, gives .requestDone (ask 3 h .running) (fun u => (u.chanOf 0xFFF).mods.length == 1),
    ok (ask 4 h .faulted) ⟨0, 4, false⟩, gives .requestDone (ask 4 h .faulted) (fun u => u.fb (ALLOC_RB_CMD_DONE 0))] = true := by decide +kernel

theorem witness_FaultsEndChannels :
    let f : FaultInfo := ⟨5, 0, 0, 0⟩
    let s := run.setChan 4095 { chanReset with st := .running, unreported := some f }
    let r := run.setChan 4095 { chanReset with st := .faulted, releaseTick := some 0 }
    let d := run.setChan 4095 { chanReset with st := .stopping, stopTick := some 0 }
    checks [
    (s.chanOf 4095).unreported = some f ∧ s.flog.length < 16,
    gives (.faultReport 255 15) s (fun u => (u.chanOf 4095).st == .faulted && u.flog.length == 1 && u.fb ALLOC_IRQ_STAT_FAULT),
    (r.chanOf 4095).releaseTick = some 0 ∧ (r.chanOf 4095).released = false, gives (.channelRelease 255 15) r (fun u => (u.chanOf 4095).released),
    gives (.channelRelease 255 15) d (fun u => u.chanOf 4095 == { chanReset with gen := 2 }),
    same (.flogPop 1) { run with flog := [⟨1, f⟩] } run, same (.flogPop 2) run run,
    gives (.engholdWrite 7 0xFFFFFFFF) run (fun u => u.reg (ALLOC_ENGHOLD_at 7) == 0xFFFFFFFF),
    gives (.engholdWrite 7 0x80000000) s (fun u => u.reg (ALLOC_ENGHOLD_at 7) == 0 && u.fb ALLOC_STATUS_HOLDREF)] = true := by decide +kernel

/-! ## Timebase and timers -/

theorem witness_EncodersMoveTheirCount :
    let q := feed (sets run [(TB_ENC_CFG_MODE 3, 1), (TB_ENC_EPR_EPR 3, 1024)]) 0xA9
    let at_ (n : Nat) : State := q.setEnc 3 { encReset with cnt := n }
    let idx := feed (at_ 5) 0xAB |> fun s => sets s [(TB_ENC_CFG_IDXEN 3, 1)]
    let ssi := (feed (sets run [(TB_ENC_CFG_MODE 3, 2), (TB_ENC_SSI_BITS 3, 12)]) 0xA9).setEnc 3 { encReset with ssiBusy := some 0 }
    checks [
    q.fld (TB_ENC_CFG_MODE 3) = 1 ∧ q.fld (TB_ENC_EPR_EPR 3) = 1024,
    gives (.encoderEdge 3 .forward) (at_ 1022) (fun u => (u.encOf 3).cnt == 1023),
    gives (.encoderEdge 3 .forward) (at_ 1023) (fun u => (u.encOf 3).cnt == 0 && (u.encOf 3).rev == 1),
    gives (.encoderEdge 3 .reverse) (at_ 1) (fun u => (u.encOf 3).cnt == 0 && (u.encOf 3).dir),
    gives (.encoderEdge 3 .reverse) (at_ 0) (fun u => (u.encOf 3).cnt == 1023 && (u.encOf 3).rev == 0xFFFFFFFF),
    q.fed 0xA9 ∧ q.tooClose 3 = false ∧ run.fed 0xA9 = false, idx.fed 0xAB ∧ ssi.fed 0xA9,
    (q.setEnc 3 { encReset with lastEdge := some 0 }).tooClose 3,
    gives (.encoderEdge 3 .forward) (q.setEnc 3 { encReset with lastEdge := some 0 }) (fun u => u.fld (TB_ENC_STAT_ERR 3) == 1 && (u.encOf 3).cnt == 0),
    gives (.encoderEdge 3 .illegal) q (fun u => u.fb TB_IRQ_STAT_ENCERR),
    idx.fb (TB_ENC_CFG_IDXEN 3) ∧ (idx.encOf 3).cnt ≠ idx.fld (TB_ENC_IDX_COUNT 3), gives (.indexEdge 3 true) idx (fun u => u.fb TB_IRQ_STAT_IDX),
    ssi.fld (TB_ENC_CFG_MODE 3) = 2 ∧ (ssi.encOf 3).ssiBusy ≠ none ∧ ssi.fb (TB_ENC_SSI_PARITY 3) = false,
    gives (.ssiRead 3) ssi (fun u => (u.encOf 3).ssiBusy.isSome), gives (.ssiSample 3 0 false false) ssi (fun u => u.fb TB_IRQ_STAT_ENCERR),
    gives (.ssiSample 3 0x800 false true) ssi (fun u => (u.encOf 3).angle == 0x80000000),
    gives (.encoderTimeout 3) (sets q [(TB_MASTER_SRC, 3)]) (fun u => (u.encOf 3).stopped && u.tb.stopped)] = true := by decide +kernel

theorem witness_HostReadsPostsAndCancels :
    let d := sets run [(TB_HRESULT_DONE, 1)]
    let stop : State := { d with pwr := { d.pwr with released := false } }
    let v (w : Word) : State := (sets run [(TB_MASTER_SRC, 4)]).setReg TB_VSPEED_at w
    checks [
    gives (.tbNowLoRead 403) run (fun u => u.outbox == [.readData 403 TB_NOW_LO_at 0]),
    (v 5).src = 4 ∧ 0 < (v 5).vspeed, (v 0xFFFFFFFB).vspeed < 0,
    d.fb TB_HRESULT_DONE ∧ d.sectRuns 15, gives (.hpostGo 15) d (fun u => !u.fb TB_HRESULT_DONE && (u.storeOf 15).fifo.length == 1),
    stop.sectRuns 15 = false, gives (.hpostGo 15) stop (fun u => u.hop.stopped),
    (sets run [(TB_HRESULT_DONE, 0)]).fb TB_HRESULT_DONE = false,
    (d.badEntry ⟨0, 0, 0, 0x800000, 0, 0, .unjudged⟩) = false,
    gives (.hpostGo 15) (d.setReg (TB_HPOST_W_at 2) 0x1FF) (fun u => u.hop == ⟨true, 2, false⟩),
    gives (.hpostGo 15) (d.setStore 15 { storeReset with freed := 256 }) (fun u => u.hop == ⟨true, 1, false⟩ && u.fb TB_IRQ_STAT_FULL),
    gives .virtualSourceWrap (v 5) (fun u => u.tb.now == 0),
    gives .virtualSourceWrap { v 0x7FFFFFFF with tb := { (v 0x7FFFFFFF).tb with v := 0xFFFFFFFFFFFF } } (fun u => u.tb.now == 1),
    same .hresultDone d d,
    gives (.hcancel 0xFFFF) d (fun u => (u.storeOf 0).fifo.length == 1), gives (.hcancel 0xFFFF) stop (fun u => u.hop.stopped),
    same (.hcancel 0) (sets run [(TB_HRESULT_DONE, 0)]) (sets run [(TB_HRESULT_DONE, 0)]),
    gives .hresultDone { sets run [(TB_HRESULT_DONE, 0)] with hop := ⟨true, 2, false⟩ } (fun u => u.fld TB_HRESULT_RESULT == 2)] = true := by
  decide +kernel

theorem witness_ActionsArmFireAndFree :
    let a (w0 w1 w2 : Word) : Action := ⟨w0, w1, w2, 1, 0, 0, .unjudged⟩
    let q (x : Action) : State := run.setStore 15 { storeReset with fifo := [.post x] }
    let wait (n : BitVec 64) : State := run.setStore 15 { storeReset with armed := [{ a 0 0 5 with stand := .waiting, target := n }] }
    let late (n : BitVec 64) (w1 : Word) : State := { q (a 0 w1 5) with tb := { run.tb with now := n } }
    checks [
    (a 32 0 5).kind = 0 ∧ (a 32 0 5).dest = 0, gives (.arm 15) (q (a 32 0 5)) (fun u => (u.storeOf 15).armed.length == 1),
    (a 31 0 5).lateFire = false, gives (.arm 15) (q (a 31 0 5)) (fun u => (u.storeOf 15).armed == [] && (u.storeOf 15).freed == 1),
    (a 31 0x20000000 5).lateFire ∧ (1 : Int) ≤ (sets run [(TB_QCFG_GRACE 15, 1)]).grace 15,
    gives (.arm 15) (sets (q (a 31 0x20000000 5)) [(TB_QCFG_GRACE 15, 1)]) (fun u => (u.storeOf 15).armed.length == 1),
    (a 0 0x40000000 5).kind = 1, gives (.arm 15) (q (a 0 0x40000000 5)) (fun u => ((u.storeOf 15).armed.map (·.stand)) == [.unjudged]),
    (a 0 0 0x4000).dest = 1, gives (.arm 15) (q (a 0 0 0x4000)) (fun u => ((u.storeOf 15).armed.map (·.stand)) == [.waiting]),
    gives (.arm 15) (late 0x1000 0) (fun u => (u.storeOf 15).freed == 1),
    gives (.fire 15) (wait 0) (fun u => (u.storeOf 15).freed == 1), ((wait 0).storeOf 15).armed.map (·.fireAt) = [some 0] ∧
      (wait 0).pinTaken 15 0 5 = false,
    earliest (run.storeOf 15).armed = none, same (.fire 15) run run, same (.fire 15) (wait 20000) (wait 20000),
    same (.fire 15) ((wait 0).setStore 3 { storeReset with armed := [{ a 0 0 5 with stand := .waiting }] })
      ((wait 0).setStore 3 { storeReset with armed := [{ a 0 0 5 with stand := .waiting }] }),
    gives (.entryFree 15) (run.setStore 15 { storeReset with freed := 1 }) (fun u => (u.storeOf 15).freed == 0)] = true := by decide +kernel

theorem witness_TicksComeAtTheirEdge :
    let t (d : Domain) : State := { run with tb := { run.tb with tick := 1 }, tickCopy := [(Domain.num d, 0)] }
    let ev (d : Domain) : State := { run with evq := [(7, d)] }
    let ap (n : BitVec 48) : State := sets { run with attar := ⟨[], [], some (.tick n), false, 0⟩ } [(ATTAR_STAT_STATE, 4)]
    checks [
    gives .tickEdge run (fun u => u.tb.tick == 1), State.reset.pwr.released = false,
    (t (.sect 15)).boundaryDue (.sect 15), (t (.mod 3)).boundaryDue (.mod 3), (t .pin).boundaryDue .pin, (t .sys).boundaryDue .sys, (t .tb).boundaryDue .tb,
    run.boundaryDue .tb = false, gives (.tickBoundary ⟨(.sect 15), true⟩) (t (.sect 15)) (fun u => u.fbit SYS_TICKSKEW_SKEW 15),
    gives (.tickBoundary ⟨.pin, false⟩) (t .pin) (fun u => tget 0 u.tickCopy (Domain.num .pin) == 1),
    (ev .tb).evq.contains (7, .tb) ∧ (ev .tb).domRuns .tb, gives (.eventDelivery 7 .tb) (ev .tb) (fun u => u.evq == []),
    (ev (.sect 15)).sectRuns 15, gives (.eventDelivery 7 (.sect 15)) (ev (.sect 15)) (fun u => u.evq == []), run.evq.contains (7, .tb) = false ∧ run.eventOutside 7 = false, (feed run 0x00A).eventOutside 0x14A = (feed run 0x00A).fed 0x00A,
    run.attar.target = none, (ap 1).attarState = 4 ∧ (ap 1).toTickEdge.tb.tick = 1, gives .applyStrobe (ap 1) (fun u => u.tb.tick == 1)] = true := by
  decide +kernel

theorem witness_TimersCountAndCapture :
    let m := sets run [(STM_PWM_CFG_MODE 15 7, 1), (STM_PWM_DUTY_DUTY 15 14, 9)]
    let cin (n : Nat) : State := feed (sets run [(STM_CAP_CFG_EDGE 15 7, n), (STM_CAP_CFG_SRC 15 7, 4)]) 0x9F
    let c (l : List (Word × Bool)) : State := (cin 3).setCap 15 7 ⟨l, false, false⟩
    let q := feed (sets run [(STM_QD_CFG_MODE 15 1, 1), (STM_QD_CFG_IDXCLR 15 1, 1)]) 0x10D
    let sb := sets run [(PAIR_STAT_ROLE, 3)]
    checks [
    m.sectRuns 15 ∧ m.fld (STM_PWM_CFG_MODE 15 7) = 1, gives (.pwmPeriodStart 15 7) m (fun u => (u.pwmOf 15 7).d0 == 9),
    run.fld (STM_PWM_CFG_MODE 15 7) = 0, run.pairStandby = false, gives (.pwmDutyWrite 15 15 0xFFFFFFFF) run (fun u => u.fld (STM_PWM_DUTY_DUTY 15 15) == 0x1FFFF),
    sb.pairStandby, (c []).sectRuns 15 ∧ ((c []).capOf 15 7).level = !true, gives (.captureEdge 15 7 true 5) (c []) (fun u => (u.capOf 15 7).fifo.length == 1),
    gives (.captureEdge 15 7 true 5) (c (List.replicate 4 (0, true))) (fun u => u.fbit (STM_CAP_STAT_OVF 15) 7 && (u.capOf 15 7).level && (u.capOf 15 7).fifo.length == 4),
    gives (.captureEdge 15 7 true 5) (cin 2) (fun u => (u.capOf 15 7).fifo == [] && (u.capOf 15 7).level),
    gives (.capDataRead 403 15 7) (c [(5, true)]) (fun u => (u.capOf 15 7).fifo == [] && u.outbox.length == 1), (run.capOf 15 7).fifo = [],
    gives (.qdEdge 15 1 .reverse) q (fun u => u.reg (STM_QD_POS_at 15 1) == 0xFFFFFFFF), q.fed 0x10D ∧ q.fed 0x10E = false,
    gives (.qdEdge 15 1 .indexForward) (feed (q.setReg (STM_QD_POS_at 15 1) 9) 0x10F) (fun u => u.reg (STM_QD_POS_at 15 1) == 0),
    (c []).capShows 15 7 true ∧ (cin 3).capShows 15 7 false, same (.captureEdge 15 7 true 5) run run,
    q.fb (STM_QD_CFG_IDXCLR 15 1)] = true := by decide +kernel

/-! ## Bays, converters, comparators, DACs -/

theorem witness_BaysMeasureAndWatch :
    let v : Word := 0x80000008
    let g (s : State) : State := ((s.setFld (BAY_RCAL_CMD_TRACK 15) 0).setFld (BAY_RCAL_CMD_TERM 15) 8).setReg (BAY_RCAL_RESULT_at 15) 0
    let busy : State := { sets run [(BAY_RCAL_CMD_BUSY 15, 1), (BAY_STATUS_REF_OK 15, 1)] with rcal := [(15, some ⟨8, 0⟩)] }
    let amp := sets run [(BAY_AMP_CFG_MODE 15 7, 1)]
    let heldBay := sets run [(BAY_STATUS_HELD 15, 1)]
    let lent := (sets busy [(BAY_STATUS_REF_OK 15, 0)]).setAdc 31 { adcReset with borrowed := some 16 }
    let ref0 := sets run [(BAY_CTRL_REFEN 15, 1), (BAY_STATUS_REF_OK 15, 1)]
    checks [
    v.getLsbD 31 ∧ run.fb (BAY_RCAL_CMD_BUSY 15) = false ∧ (g run).rcalRefused 15 8 0 = false,
    gives (.rcalGo 15 v) run (fun u => u.fb (BAY_RCAL_CMD_BUSY 15)), (g run).rcalRefused 15 0 0,
    gives (.rcalGo 15 0x80000000) run (fun u => u.fb (BAY_RCAL_RESULT_REFUSED 15)), busy.fb (BAY_RCAL_CMD_BUSY 15) ∧ tget none busy.rcal 15 ≠ none,
    (busy.lends 30 || busy.lends 31), run.rcal = [], same (.rcalDone 15 7) run run,
    same (.rcalDone 15 7) (sets busy [(BAY_STATUS_REF_OK 15, 0)]) (sets busy [(BAY_STATUS_REF_OK 15, 0)]),
    lent.lends 31 = false ∧ lent.borrowedFor 31 16, gives (.rcalDone 15 7) lent (fun u => u.fld (BAY_RCAL_RESULT_RON 15) == 7 && (u.adcOf 31).borrowed == none),
    heldBay.fb (BAY_STATUS_HELD 15), gives (.rcalGo 15 v) heldBay (fun u => u.fb SYS_ERRSTAT_DENIED && !u.fb (BAY_RCAL_CMD_BUSY 15)),
    gives (.refOk 15 false) (ref0.setAdc 31 { adcReset with borrowed := some 16 }) (fun u => !u.fb (BAY_STATUS_REF_OK 15) && (u.adcOf 31).borrowed == none),
    ref0.fb (BAY_STATUS_REF_OK 15), same (.refOk 15 true) ref0 (ref0.rcalBorrow 15),
    gives (.refOk 15 true) (sets run [(BAY_CTRL_REFEN 15, 1)]) (fun u => u.fb (BAY_STATUS_REF_OK 15)),
    gives (.refOk 15 true) (sets run [(BAY_CTRL_REFEN 15, 0)]) (fun u => !u.fb (BAY_STATUS_REF_OK 15) && (u.adcOf 31).lowAt == some u.tb.now),
    gives (.rcalDone 15 65535) busy (fun u => u.fld (BAY_RCAL_RESULT_RON 15) == 0xFFFF && !u.fb (BAY_RCAL_CMD_BUSY 15)),
    gives (.rcalDone 15 65534) busy (fun u => u.fld (BAY_RCAL_RESULT_RON 15) == 65534),
    gives (.ronstale 15) run (fun u => u.fb (BAY_STATUS_RONSTALE 15)), (sets run [(BAY_CTRL_REFEN 15, 1)]).fb (BAY_CTRL_REFEN 15),
    (sets run [(BAY_CTRL_REFEN 15, 0)]).fb (BAY_CTRL_REFEN 15) = false,
    amp.baySw.before.testBit 15 = false ∧ amp.fb (BAY_STATUS_HELD 15) = false ∧ amp.fb (BAY_AMP_CFG_MODE 15 7) ∧ amp.fbit (BAY_STATUS_AMPLIM 15) 7 = false, gives (.ampLimit 15 7 true) amp (fun u => u.fbit (BAY_STATUS_AMPLIM 15) 7),
    gives (.ampLimit 15 7 false) (amp.orBit (BAY_STATUS_AMPLIM 15) 7) (fun u => !u.fbit (BAY_STATUS_AMPLIM 15) 7)] = true := by decide +kernel

theorem witness_ConvertersRunByTheirTriggers :
    let on := sets run [(ADC_CFG_EN 31, 1)]
    let busy (p : Nat) (q : Bool) : State := (sets on [(ADC_CFG_POLICY 31, p)]).setAdc 31 { adcReset with run := true, queued := q }
    checks [
    (sets on [(BAY_STATUS_HELD 15, 1)]).fb (BAY_STATUS_HELD 15), gives (.adcSwtrig 31) (sets on [(BAY_STATUS_HELD 15, 1)]) (fun u => u.fb SYS_ERRSTAT_DENIED && !(u.adcOf 31).run),
    (sets on [(modDiv 3, 4)]).modRuns 3 = false ∧ on.modRuns 3, gives (.adcSwtrig 31) (sets on [(modDiv 3, 4)]) (fun u => (u.adcOf 31).swWait == 1 && !(u.adcOf 31).run),
    (sets run [(ADC_CFG_EN 31, 0)]).fb (ADC_CFG_EN 31) = false, on.fb (ADC_CFG_EN 31) ∧ (on.adcOf 31).lastTrig ≠ some on.tb.now ∧ (on.adcOf 31).cal = none,
    gives (.adcSwtrig 31) (on.setAdc 31 { adcReset with lastTrig := some 0 }) (fun u => u.fld (ADC_CNT_MISC_COINC 31) == 1),
    gives (.adcSwtrig 31) on (fun u => (u.adcOf 31).run), (busy 2 false).fld (ADC_CFG_POLICY 31) = 2,
    gives (.adcSwtrig 31) (busy 2 false) (fun u => (u.adcOf 31).cur == 0 && (u.adcOf 31).run),
    gives (.adcSwtrig 31) (on.setAdc 31 { adcReset with cal := some ⟨1, 0, 0, 0, [], false, false, false⟩ }) (fun u =>
      (u.fld (ADC_CNT_TRIG_DROPPED 31) == 1) && !(u.adcOf 31).run),
    gives (.adcSwtrig 31) (busy 0 false) (fun u => u.fb (ADC_IRQ_STAT_DROP 31) && u.fld (ADC_CNT_TRIG_DROPPED 31) == 1),
    gives (.adcSwtrig 31) (busy 1 false) (fun u => (u.adcOf 31).queued),
    gives (.adcSwtrig 31) (busy 1 true) (fun u => u.fld (ADC_CNT_TRIG_QOVF 31) == 1)] = true := by decide +kernel

theorem witness_ResultsReachTheirRecords :
    let r : State := (sets run [(ADC_CFG_ASYNC 31, 0)]).setAdc 31 { adcReset with run := true }
    let long : State := run.setAdc 31 { adcReset with run := true, len := 2 }
    let w : State := run.setAdc 31 { adcReset with toWrite := [⟨15, 5, 7, true, false, false⟩] }
    let c : State := run.setAdc 31 { adcReset with toCopy := [(15, { recReset with value := 9 })] }
    checks [
    (r.adcOf 31).cal = none ∧ (r.adcOf 31).run ∧ r.fb (ADC_CFG_ASYNC 31) = false ∧ (r.adcOf 31).len ≤ (r.adcOf 31).cur + 1 ∧ (r.adcOf 31).queued = false ∧
      r.fb (ADC_CFG_CONT 31) = false, (sets r [(modDiv 3, 4)]).modRuns 3 = false, same (.conversionEnd 31 5 false false) (sets r [(modDiv 3, 4)]) (sets r [(modDiv 3, 4)]),
    (long.adcOf 31).cur + 1 < (long.adcOf 31).len, r.modRuns 3,
    same (.conversionEnd 31 5 false false) run run, same (.resultWrite 31) run run, same (.resultCopy 31) run run,
    (w.adcOf 31).toWrite ≠ [], gives (.resultWrite 31) w (fun u => (u.adcOf 31).toWrite == [] && u.fb (ADC_IRQ_STAT_OVR 31)),
    c.sectRuns 15 ∧ (c.adcOf 31).toCopy ≠ [], gives (.resultCopy 31) c (fun u => (tget recReset (u.adcOf 31).copies 15).value == 9),
    gives (.adcResLoRead 403 31 15) run (fun u => u.outbox == [.readData 403 (ADC_RES_LO_at 31 15) 0])] = true := by decide +kernel

theorem witness_CalibrationsStartEndAndKeep :
    let on := sets run [(ADC_CFG_EN 31, 1), (ADC_CFG_LEN 31, 15)]
    let z := sets on [(ADC_CAL_STAT_ZVALID 31, 1), (ADC_CAL_STAT_ZENTRY 31, 15), (ADC_CAL_STAT_ZSET 31, 7)]
    let v : Word := 0x7F00
    let m : CalMeas := ⟨1, 0, 0, 0, [], false, false, false⟩
    let saved : State := (run.calFields 31 v).calSave 31 7
    checks [
    gives (.calFull 31 v) (sets z [(BAY_STATUS_HELD 15, 1)]) (fun u => u.fb SYS_ERRSTAT_DENIED && (u.adcOf 31).cal.isNone), run.fb (BAY_STATUS_HELD 15) = false,
    (sets run [(ADC_CAL_CMD_BUSY 31, 1)]).fb (ADC_CAL_CMD_BUSY 31), run.fb (ADC_CAL_CMD_BUSY 31) = false,
    bits v.toNat 11 8 ≤ on.fld (ADC_CFG_LEN 31) ∧ on.fb (ADC_CFG_EN 31) ∧ on.fb (ADC_CFG_ASYNC 31) = false ∧ (on.adcOf 31).run = false,
    gives (.calZero 31 v) on (fun u => u.fb (ADC_CAL_CMD_BUSY 31) && (u.adcOf 31).cal.isSome),
    gives (.calZero 31 v) (on.setAdc 31 { adcReset with run := true }) (fun u => (u.adcOf 31).cal.any (fun c => c.waiting)),
    on.fb (ADC_CAL_STAT_ZVALID 31) = false,
    z.fb (ADC_CAL_STAT_ZVALID 31) ∧ z.fld (ADC_CAL_STAT_ZENTRY 31) = 15 ∧ z.fld (ADC_CAL_STAT_ZSET 31) = 7,
    gives (.calFull 31 v) z (fun u => u.fb (ADC_CAL_CMD_BUSY 31)), gives (.calFull 31 v) on (fun u => u.fld (ADC_CAL_STAT_CODE 31) == 3),
    (sets on [(ADC_CFG_LEN 31, 14)]).fld (ADC_CFG_LEN 31) < bits v.toNat 11 8,
    gives (.calZero 31 v) (sets on [(ADC_CFG_LEN 31, 14)]) (fun u => u.fld (ADC_CAL_STAT_CODE 31) == 1),
    gives (.calZero 31 v) (sets on [(ADC_CFG_EN 31, 0)]) (fun u => u.fld (ADC_CAL_STAT_CODE 31) == 2),
    (run.calFields 31 v).newerCopy 31 7 = none, gives (.calRestore 31 v) run (fun u => u.fld (ADC_CAL_STAT_CODE 31) == 0x0A),
    (saved.calFields 31 v).newerCopy 31 7 ≠ none, gives (.calRestore 31 v) saved (fun u => u.fld (ADC_CAL_STAT_CODE 31) == 0),
    gives (.calAbort 31) (run.setAdc 31 { adcReset with cal := some m }) (fun u => u.fld (ADC_CAL_STAT_CODE 31) == 4)] = true := by decide +kernel

theorem witness_ComparatorsLatchAndDacsRecover :
    let on := sets run [(CMP_CFG_MODE 15 3, 1), (CMP_FILT_M 15 3, 3), (CMP_FILT_N 15 3, 2), (CMP_STAT_CSYNC 15 3, 1), (CMP_STAT_ON 15 3, 1)]
    let one := on.setCmp 63 ⟨true, [true, false], false⟩
    let few := (sets on [(CMP_STAT_CSYNC 15 3, 0)]).setCmp 63 ⟨false, [false, true], false⟩
    let tie := (sets on [(CMP_FILT_M 15 3, 2)]).setCmp 63 ⟨true, [false], false⟩
    let stopped := sets on [(modDiv 3, 4)]
    checks [
    on.cmpOn 15 3 ∧ on.modRuns 3 ∧ on.fb (CMP_STAT_HOLD 15 3) = false, gives (.comparatorCross 15 3 true) on (fun u => (u.cmpOf 63).r),
    run.cmpOn 15 3 = false, same (.comparatorCross 15 3 true) run run, stopped.modRuns 3 = false,
    gives (.comparatorCross 15 3 true) (sets stopped [(CMP_STAT_CSYNC 15 3, 0)]) (fun u => (u.cmpOf 63).r && !u.fb (CMP_STAT_CSYNC 15 3)),
    gives (.comparatorCross 15 3 true) (sets on [(CMP_STAT_CSYNC 15 3, 0)]) (fun u => u.fb (CMP_STAT_CSYNC 15 3)), same (.filterSample 15 ⟨3, true⟩) run run,
    same (.filterSample 15 ⟨3, false⟩) stopped stopped, (sets run [(BAY_STATUS_HELD 15, 1)]).fb (BAY_STATUS_HELD 15),
    gives (.cmpLatchWrite 15 0x3F) (sets run [(BAY_STATUS_HELD 15, 1)]) (fun u => u.fb SYS_ERRSTAT_DENIED && u.clearq == []),
    gives (.latchClear 15 3) { stopped with clearq := [(15, 3, false)] } (fun u => u.clearq == [(15, 3, false)]),
    gives (.settlingHoldEnd 15 3) (sets on [(CMP_STAT_HOLD 15 3, 1)]) (fun u => !u.fb (CMP_STAT_HOLD 15 3)),
    gives (.latchClear 15 5) { sets run [(CMP_WIN_CFG_EN 15 1, 1), (CMP_WIN_STAT_WL 15 1, 1)] with clearq := [(15, 5, false)] }
      (fun u => u.fb (CMP_WIN_STAT_WL 15 1) && u.clearq == []), same (.latchClear 15 0) run run,
    gives (.filterSample 15 ⟨3, false⟩) one (fun u => u.fb (CMP_STAT_F 15 3) && u.fb (CMP_STAT_L 15 3)),
    gives (.filterSample 15 ⟨3, false⟩) few (fun u => !u.fb (CMP_STAT_F 15 3)), gives (.filterSample 15 ⟨3, false⟩) tie (fun u => !u.fb (CMP_STAT_F 15 3)),
    (sets on [(CMP_STAT_HOLD 15 3, 1)]).fb (CMP_STAT_HOLD 15 3), same (.filterSample 15 ⟨3, false⟩) (sets on [(CMP_STAT_HOLD 15 3, 1)]) (sets on [(CMP_STAT_HOLD 15 3, 1)]),
    gives (.filterSample 15 ⟨3, false⟩) (sets one [(CMP_WIN_CFG_EN 15 1, 1), (CMP_STAT_F 15 2, 0)]) (fun u => u.fld (CMP_WIN_STAT_STATE 15 1) == winState false true),
    gives (.cmpLatchWrite 15 0x3F) run (fun u => u.clearq.length == 6),
    gives (.latchClear 15 3) { sets on [(CMP_STAT_L 15 3, 1)] with clearq := [(15, 3, false)] } (fun u => !u.fb (CMP_STAT_L 15 3) && u.clearq == [])] = true := by
  decide +kernel

theorem witness_ComparatorsLatchAndDacsRecover_dacs :
    let dac (n : Nat) : State := sets run [(DAC_STAT_STATE 31, n)]
    checks [
    (dac 3).fld (DAC_STAT_STATE 31) = 3, gives (.rangeHoldEnd 31) ((dac 3).setDac 31 ⟨77, true, false, false⟩) (fun u =>
      u.fld (DAC_STAT_STATE 31) == 2 && u.fld (DAC_CODE_CODE 31) == 77 && u.fb (DAC_STAT_GAINF 31)),
    run.fld (DAC_STAT_STATE 31) ≠ 3 ∧ run.fld (DAC_STAT_STATE 31) ≠ 2,
    gives (.dacShort 31 ⟨true, true⟩) (sets (dac 2) [(DAC_CFG_FAULTPOL 31, 1)]) (fun u => u.fld (DAC_STAT_STATE 31) == 4 && u.fb (DAC_STAT_SHORT 31)),
    same (.dacShort 31 ⟨true, true⟩) run run, (run.sectRuns 15),
    gives (.dacShort 31 ⟨true, false⟩) (dac 2) (fun u => u.fb (DAC_STAT_LIMITING 31) && !u.fb (DAC_STAT_SHORT 31)),
    gives (.dacShort 31 ⟨true, true⟩) ((dac 3).setReg CLK_STAT_at 0) (fun u => (u.dacOf 31).flagged && !u.fb (DAC_STAT_SHORT 31)),
    gives (.dacShort 31 ⟨true, true⟩) (sets (dac 2) [(DAC_CFG_FAULTPOL 31, 0)]) (fun u => u.fld (DAC_STAT_STATE 31) == 2 && u.fb (DAC_STAT_LIMITING 31)),
    gives (.dacShort 31 ⟨false, false⟩) run (fun u => !u.fb (DAC_STAT_LIMITING 31)),
    gives (.shortClear 31) (sets (dac 4) [(BAY_STATUS_HELD 15, 1)]) (fun u => u.fb SYS_ERRSTAT_DENIED && u.fld (DAC_STAT_STATE 31) == 4), gives (.shortClear 31) (dac 4) (fun u => u.fld (DAC_STAT_STATE 31) == 1), gives (.shortClear 31) (dac 2) (fun u => !u.fb (DAC_STAT_SHORT 31))] = true := by
  decide +kernel

/-! ## DMA, fabric, stored bits -/

theorem witness_DmaChannelsMoveBlocks :
    let set (l : List (RF × Nat)) : State := sets run ([(DMA_SRC_SRC 15 7, 0x103C0000 / 4), (DMA_DST_DST 15 7, 0x103C0100 / 4), (DMA_COUNT_COUNT 15 7, 2)] ++ l)
    let ready := ((set []).setReg (DMA_SRC_at 15 7) 0x103C0000).setReg (DMA_DST_at 15 7) 0x103C0100
    let busy := (sets ready [(DMA_STAT_BUSY 15 7, 1)]).setWord 0x103C0000 0x77
    let bad := (sets busy []).setReg (DMA_SRC_at 15 7) 0x14000000
    checks [
    run.fb (DMA_STAT_BUSY 15 7) = false ∧ run.fb (DMA_STAT_ARMED 15 7) = false, (ready.setReg (DMA_CTRL_at 15 7) 0).dmaBad 15 7 = false,
    gives (.dmaGo 15 7 0x80000000) ready (fun u => u.fb (DMA_STAT_BUSY 15 7)),
    ((run.setReg (DMA_SRC_at 15 7) 0x14000000).setReg (DMA_CTRL_at 15 7) 0).dmaBad 15 7,
    gives (.dmaGo 15 7 0) (run.setReg (DMA_SRC_at 15 7) 0x14000000) (fun u => u.fld (DMA_STAT_CODE 15 7) == 6),
    busy.fb (DMA_STAT_BUSY 15 7) ∧ busy.sectRuns 15, same (.dmaGo 15 7 0) busy busy, gives (.dmaAbort 15 7) busy (fun u => tget false u.dmaAbort 127),
    gives (.dmaGo 15 7 0x01000000) ready (fun u => u.fb (DMA_STAT_ARMED 15 7)), busy.pairStandby = false ∧ busy.fld (DMA_STAT_DONE 15 7) < 65535,
    gives (.dmaWord 15 7 true) busy (fun u => (u.fld (DMA_STAT_CODE 15 7) == 2) && u.fb (SCR_IRQ_STAT_COLL 15) && (u.word 0x103C0100 == 0)),
    gives (.dmaWord 15 7 false) (busy.flipBits 0x103C0000 3) (fun u => u.fld (DMA_STAT_CODE 15 7) == 3), same (.dmaWord 15 7 false) run run,
    gives (.dmaAbort 15 7) (sets run [(DMA_STAT_ARMED 15 7, 1)]) (fun u => !u.fb (DMA_STAT_ARMED 15 7)),
    busy.denied 383 0x103C0000 false = false ∧ busy.denied 383 0x103C0100 true = false ∧ busy.flipCount 0x103C0000 = 0,
    gives (.dmaWord 15 7 false) busy (fun u => u.word 0x103C0100 == 0x77 && u.fld (DMA_STAT_DONE 15 7) == 1 && u.fb (DMA_STAT_BUSY 15 7)),
    gives (.dmaWord 15 7 false) (sets busy [(DMA_STAT_DONE 15 7, 1)]) (fun u => u.fld (DMA_STAT_CODE 15 7) == 1),
    gives (.dmaWord 15 7 false) { busy with dmaAbort := [(127, true)] } (fun u => u.fld (DMA_STAT_CODE 15 7) == 5),
    bad.busError 383 0x14000000 4 false ≠ (false, false, false), gives (.dmaWord 15 7 false) bad (fun u => u.fld (DMA_STAT_CODE 15 7) == 4)] = true := by
  decide +kernel

theorem witness_FabricPortsAndMailboxesPass :
    let sb := sets run [(PAIR_STAT_ROLE, 3)]
    let still := sets run [(CLK_SECT_SDIV 15, 0)]
    let full : State := { run with cfgmem := [(15 * 2 ^ 30, 1)] }
    let f := run.setFab 15 ⟨[], [⟨5, false⟩], 0, 0, 0, [], [], none, [], 0⟩
    checks [
    run.fabRuns 7 ∧ run.fb (FAB_STAT_HELD 15) = false ∧ run.sectRuns 15 ∧ (run.fabOf 15).reqs = [] ∧ run.pairStandby = false,
    gives (.fabricSpRequest 15 true 0 0xFFFF 9 false) run (fun u => u.word 0x103FFFFC == 9),
    gives (.fabricSpRequest 15 false 0 0xFFFF 0 false) run (fun u => (u.fabOf 15).rets == [⟨0, false⟩]),
    (run.fabOf 15).acks = [] ∧ (run.fabOf 15).froms = [] ∧ run.fabLoaded 15 = false ∧ (run.fabOf 15).rets.length < 4,
    gives (.fabricSpRequest 15 true 0 0xFFFF 9 true) run (fun u => u.fb (SCR_IRQ_STAT_COLL 15) && u.fld (SCR_COLL_REQ_REQUESTER 15) == 399),
    gives (.fabricSpReturn 15) f (fun u => (u.fabOf 15).rets == [] && (u.fabOf 15).back == some ⟨5, false⟩),
    still.sectRuns 15 = false ∧ still.fabRuns 7 ∧ still.fabLoaded 15 = false,
    gives (.fabricSpRequest 15 true 0 0xFFFF 9 false) still (fun u => (u.fabOf 15).reqs.length == 1),
    gives (.mbxToAck 15 7) still (fun u => (u.fabOf 15).acks == [7]), gives (.mbxFromWr 15 7 9) still (fun u => (u.fabOf 15).froms == [(7, 9)]),
    same (.mbxDoorbell 15 2) run run, full.fabLoaded 15, same (.mbxToAck 15 7) full (full.mbxDrain 15), same (.fabOutChange 15 31 true true) full full, run.fbit (MBX_STAT_TOFULL 15) 7 = false,
    gives (.mbxTofabWrite 15 7 9) run (fun u => u.fbit (MBX_STAT_TOFULL 15) 7),
    gives (.mbxTofabWrite 15 7 9) (run.orBit (MBX_STAT_TOFULL 15) 7) (fun u => u.fb (MBX_STAT_TOOVF 15)), sb.pairStandby,
    gives (.mbxToAck 15 7) (run.orBit (MBX_STAT_TOFULL 15) 7) (fun u => !u.fbit (MBX_STAT_TOFULL 15) 7),
    gives (.mbxFromWr 15 7 9) run (fun u => u.reg (MBX_FROMFAB_at 15 7) == 9 && u.fbit (MBX_STAT_FROMFULL 15) 7),
    gives (.mbxFromWr 15 7 9) (run.orBit (MBX_STAT_FROMFULL 15) 7) (fun u => u.fb (MBX_STAT_FROMOVF 15)),
    gives (.mbxDoorbell 15 1) run (fun u => (u.fabOf 15).bells == 1),
    gives (.fabOutChange 15 31 true true) run (fun u => (u.fabOf 15).out == 0x80000000 && (u.fabOf 15).oe == 0x80000000),
    State.reset.fabRuns 7 = false] = true := by decide +kernel

theorem witness_StoredBitsFlipAndAreMended :
    let a := 0x103FFFFC
    let one : State := { run.flipBits a 1 with wbq := [a] }
    let two : State := { run.flipBits a 3 with wbq := [a] }
    let dev := sets run [(CFG_LC_STATE, 1)]
    let wipe : State := ({ run with wipe := some 3 } : State).setWord 0x50000000 5
    checks [
    regionOf 0x51000008 = .retain, gives (.memoryBitFlip (.memory 0x5100000C 1)) run (fun u => u.flips 0x51000008 == 1), 
    voted 1, (2 : Nat) < 3, gives (.memoryBitFlip (.voted (REG_DEF_at 31) 1 5)) run (fun u => tget 0 u.scrub.diffs (3 * REG_DEF_at 31 + 1) == 5 && u.reg (REG_DEF_at 31) == run.reg (REG_DEF_at 31)),
    voted (REG_DEF_at 31) ∧ 1 < REG_DEF_at 31, gives (.memoryBitFlip (.voted (REG_DEF_at 31) 1 5)) { run with scrub := { run.scrub with diffs := [(3 * REG_DEF_at 31, 5)] } } (fun u => u.reg (REG_DEF_at 31) == run.reg (REG_DEF_at 31) ^^^ (5 &&& BitVec.ofNat 32 (swBits (REG_DEF_at 31)))),
    regionOf a = .scratch 0, gives (.memoryBitFlip (.memory a 1)) run (fun u => u.flips a == 1), regionOf 0x5000FFFC = .vault,
    one.wbq.find? (fun a => eccSector a == 15) = some a ∧ one.flipCount a = 1, gives (.eccWriteback 15) one (fun u => u.flips a == 0 && u.wbq == []),
    two.flipCount a ≠ 1, gives (.eccWriteback 15) two (fun u => u.flips a == 0), one.sectRuns 15,
    (sets one [(CLK_SECT_SDIV 15, 0)]).sectRuns 15 = false, same (.eccWriteback 15) (sets one [(CLK_SECT_SDIV 15, 0)]) (sets one [(CLK_SECT_SDIV 15, 0)]),
    gives (.scrInjArm 15 0xFFFFFFFF) (sets run [(BAY_STATUS_HELD 15, 1)]) (fun u => u.fb SYS_ERRSTAT_DENIED && u.reg (SCR_INJ_at 15) == run.reg (SCR_INJ_at 15)),
    gives (.scrInjArm 15 0xFFFFFFFF) run (fun u => u.reg (SCR_INJ_at 15) == 0x80007F3F), dev.denied 403 VAULT_WIPE_at true = false,
    gives (.vaultWipe 403 0xA5C30001) dev (fun u => u.wipe == some 3), same (.vaultWipe 403 0xA5C20001) dev dev,
    gives .wipeDone wipe (fun u => u.word 0x50000000 == 0 && u.fld VAULT_STAT_LASTCAUSE == 3)] = true := by decide +kernel

/-! ## Staged commit, pins -/

theorem witness_SessionsOpenCheckAndArm :
    let at_ (st owner : Nat) : State := sets run [(ATTAR_STAT_STATE, st), (ATTAR_STAT_OWNER, owner)]
    let sb := sets run [(PAIR_STAT_ROLE, 3)]
    let clk : State := { (at_ 3 404).setReg CLK_STAT_at 0x19 with attar := ⟨[(ADC_CFG_at 0, some 1)], [], none, false, 0⟩ }
    checks [
    run.fld ATTAR_STAT_STATE = 0 ∧ run.pairStandby = false, gives (.openSession 404) run (fun u => u.attarState == 1 && u.fld ATTAR_STAT_OWNER == 404),
    gives (.openSession 404) (at_ 4 404) (fun u => u.fld ATTAR_STAT_CMDRES == 1), sb.pairStandby,
    gives (.openSession 404) sb (fun u => u.fld ATTAR_STAT_CMDRES == 4), gives (.attarCheck 404) run (fun u => u.fld ATTAR_STAT_CMDRES == 2),
    gives (.attarApply 404 0) (at_ 3 403) (fun u => u.fld ATTAR_STAT_CMDRES == 3), gives (.attarCheck 404) (at_ 1 404) (fun u => u.attarState == 2),
    (at_ 2 404).fld ATTAR_STAT_STATE = 2,
    (at_ 3 404).clockStopped ((at_ 3 404).takesPart [] []) = false, gives (.attarApply 404 0) (at_ 3 404) (fun u => u.attarState == 4),
    clk.clockStopped (clk.takesPart clk.attar.staged clk.attar.reqs), gives (.attarApply 404 0) clk (fun u => u.fld ATTAR_STAT_CMDRES == 0xA),
    gives (.attarApply 404 0) (at_ 1 404) (fun u => u.fld ATTAR_STAT_CMDRES == 6)] = true := by decide +kernel

theorem witness_SessionsStagePeekAndClose :
    let a : Word := BitVec.ofNat 32 (ADC_CFG_at 31)
    let at_ (st : Nat) : State := sets run [(ATTAR_STAT_STATE, st), (ATTAR_STAT_OWNER, 404)]
    let held : State := { at_ 1 with attar := ⟨[(ADC_CFG_at 31, some 1)], [], none, false, 0⟩ }
    let old : State := { sets (at_ 1) [(ATTAR_CFG_TIMEOUT, 1)] with tb := { run.tb with now := 200000 } }
    checks [
    run.awake ∧ run.loaderGate 404 a.toNat = false ∧ regionOf a.toNat = .bay ∧ run.denied 404 a.toNat true = false,
    run.denied 404 (BL_CFG_at 7) true = false ∧ rwsMask (BL_CFG_at 7) ≠ 0 ∧ BL_CFG_at 7 % 0x1000000 / 0x1000 = 9,
    gives (.stagedWrite ⟨404, (BitVec.ofNat 32 (BL_CFG_at 7))⟩ 1) (at_ 1) (fun u => tget none u.attar.staged (BL_CFG_at 7) == some 1),
    gives (.stagedWrite ⟨404, (BitVec.ofNat 32 (BL_CFG_at 7))⟩ 1) (at_ 0) (fun u => u.fb ATTAR_STAT_STRAY && u.fld ATTAR_STRAY_ADDR_ADDR == BL_CFG_at 7),
    rwsMask a.toNat ≠ 0, gives (.stagedWrite ⟨404, a⟩ 1) (at_ 1) (fun u => tget none u.attar.staged a.toNat == some 1),
    gives (.stagedWrite ⟨404, a⟩ 1) (at_ 0) (fun u => u.fb ATTAR_STAT_STRAY && u.fld ATTAR_STRAY_ADDR_ADDR == a.toNat), rwsMask 0x40000000 = 0,
    gives (.peek a) held (fun u => u.reg ATTAR_PEEK_DATA_at == 1), gives (.peek a) (at_ 0) (fun u => u.reg ATTAR_PEEK_DATA_at == 0),
    gives (.attarAbort 404 false) held (fun u => u.attarState == 0 && u.attar.staged == [] && u.fld ATTAR_STAT_LASTEND == 2),
    gives (.attarAbort 403 false) held (fun u => u.fld ATTAR_STAT_CMDRES == 3), gives (.attarAbort 403 true) held (fun u => u.fld ATTAR_STAT_LASTEND == 4),
    old.fld ATTAR_CFG_TIMEOUT ≠ 0 ∧ 200000 * old.fld ATTAR_CFG_TIMEOUT ≤ (old.tb.now - old.attar.since).toNat,
    gives .sessionTimeout old (fun u => u.attarState == 0 && u.fld ATTAR_STAT_LASTEND == 3), (sets run [(ATTAR_CFG_TIMEOUT, 0)]).fld ATTAR_CFG_TIMEOUT = 0] = true := by
  decide +kernel

theorem witness_PinsAreWrittenAndLocked :
    let out := run.setReg (GPIO_OUT_at 10) 0xF0
    let shared := sets run [(PAIR_STAT_ROLE, 3), (XBAR_PAD_SHARED 351, 1)]
    let seq : State := { run.setReg (XBAR_LOCKMASK_at 10) 5 with pins := { run.pins with lockSeq := some (404, 10, 0) } }
    let bank := sets run [(XBAR_BANKSTAT_LEVEL, 0xC000)]
    checks [
    shared.sharedBits 10 ≠ 0 ∧ shared.pairStandby, gives (.gpioSet 10 0xFFFFFFFF) shared (fun u =>
      u.reg (GPIO_OUT_at 10) == ~~~shared.sharedBits 10 && u.fb PAIR_IRQ_STAT_LOCALWR),
    gives (.xbarLock 404 0x9394000A) { seq with tb := { seq.tb with now := 256 } } (fun u => u.reg (XBAR_LOCKED_at 10) == 5),
    gives (.xbarLock 404 0x9394000A) { seq with tb := { seq.tb with now := 257 } } (fun u => u.reg (XBAR_LOCKED_at 10) == 0 && u.fb XBAR_STAT_LOCKERR),
    gives (.xbarLock 404 0x6C6B0009) seq (fun u => u.pins.lockSeq == some (404, 9, 0) && u.fb XBAR_STAT_LOCKERR),
    same .lockTimeout run run, same .lockTimeout { seq with tb := { seq.tb with now := 256 } } { seq with tb := { seq.tb with now := 256 } },
    same (.xbarLock 3 0x6C6B000A) run run,
    out.pairStandby = false, gives (.gpioSet 10 0x0F) out (fun u => u.reg (GPIO_OUT_at 10) == 0xFF), gives (.gpioClr 10 0x10) out (fun u => u.reg (GPIO_OUT_at 10) == 0xE0),
    gives (.gpioTgl 10 0xFF) out (fun u => u.reg (GPIO_OUT_at 10) == 0x0F), run.pins.lockSeq = none,
    gives (.xbarLock 404 0x6C6B000A) run (fun u => u.pins.lockSeq == some (404, 10, 0)), gives (.xbarLock 404 0x6C6B000B) run (fun u => u.fb XBAR_STAT_LOCKERR),
    gives (.xbarLock 404 0x9394000A) seq (fun u => u.reg (XBAR_LOCKED_at 10) == 5 && u.pins.lockSeq.isNone), gives .lockTimeout { seq with tb := { seq.tb with now := 257 } } (fun u => u.fb XBAR_STAT_LOCKERR),
    bits (bank.fld XBAR_BANKSTAT_LEVEL) 15 14 ≠ 0, gives (.bankFail 7) bank (fun u => u.fb XBAR_IRQ_STAT_BANKFAIL && u.fld XBAR_BANKSTAT_LEVEL == 0),
    bits ((sets run [(XBAR_BANKSTAT_LEVEL, 0)]).fld XBAR_BANKSTAT_LEVEL) 15 14 = 0,
    gives (.bankReturn 7 3) (sets run [(XBAR_BANKSTAT_LEVEL, 0)]) (fun u => u.fld XBAR_BANKSTAT_LEVEL == 0xC000)] = true := by decide +kernel

/-! ## Lines and nodes -/

/-- A frame with its CRC and EOF. -/
def framed (bs : List Nat) : LineFrame := ⟨(withCrc bs).map (BitVec.ofNat 8), true⟩

/-- A data frame of cycle 7 with CLEN 100, TMO 8, and with these segments of 18 bytes. -/
def dataOf (safe epoch : Nat) (segs : List Nat) : LineFrame :=
  framed ([0xD1, safe] ++ leBytes 2 epoch ++ [7, 0, 0, 0, 100, 0, segs.length / 18, 0, 8, 0] ++ List.replicate 16 0 ++ segs)

theorem witness_LinesRunTheirCycles :
    let near : State := { sets run [(BL_CFG_TICKS 7, 0), (BL_CFG_PHASE 7, 0), (BL_CFG_EN 7, 1)] with
      tb := { run.tb with now := 9000, edge := 0 }, pins := { run.pins with on := true } }
    let c : BitVec 64 := near.tb.edge + BitVec.ofNat 64 ((near.nextStart 7 - near.tb.tick).toNat * near.fld TB_TICKLEN_CYCLES)
    let cfg := near.reg (BL_CFG_at 7)
    let x : LineCycle := ⟨0, cfg, 0, [], [], 0, []⟩
    let asm := near.setLine 7 { lineReset with asm := some x }
    let dem := sets near [(BL_STAT_DEMOTED 7, 1)]
    let cur := near.setLine 7 { lineReset with cur := some x, cycle := 7 }
    let sby := sets near [(PAIR_STAT_ROLE, 3)]
    checks [
    near.pwr.released ∧ near.domRuns .line ∧ (c - near.tb.now).toInt - near.fld TB_BLEAD_LEAD <
      ((near.tb.edge + BitVec.ofNat 64 (near.fld TB_TICKLEN_CYCLES)) - near.tb.now).toInt ∧ (near.lineOf 7).asm.isNone,
    gives (.assembly 7) near (fun u => ((u.lineOf 7).asm.map (·.start)) == some 1),
    (asm.lineOf 7).asm = some x ∧ x.start = asm.tb.tick ∧ (asm.lineOf 7).lastTick ≠ some asm.tb.tick ∧ asm.lineSends 7 cfg,
    gives (.cycleStart 7) asm (fun u => u.fb (BL_STAT_RUN 7) && (u.lineOf 7).cur.isSome && (u.lineOf 7).asm.isNone), asm.lineSends 7 0 = false,
    same (.cycleStart 7) (asm.setLine 7 { lineReset with asm := some { x with cfg := 0 } })
      (asm.setLine 7 { lineReset with lastTick := some 0 }),
    dem.fb (BL_STAT_DEMOTED 7), gives (.cycleStart 7) (dem.setLine 7 { lineReset with asm := some x }) (fun u =>
      (u.lineOf 7).started && u.outbox == []),
    gives (.returnReceive 7 ⟨dataOf 0 9 [], 0⟩) dem (fun u => (u.lineOf 7).demoted == 9 && u.outbox.length == 2),
    sby.fb (BL_CFG_EN 7) ∧ sby.pairStandby, gives (.returnReceive 7 ⟨dataOf 0 9 [], 0⟩) sby (fun u => u.fld (BL_CYCLE_CYCLE 7) == 7 && u.outbox.length == 2),
    cur.fb (BL_STAT_DEMOTED 7) = false ∧ cur.fb (BL_CFG_EN 7) ∧ cur.pairStandby = false ∧ (cur.lineOf 7).cur = some x,
    gives (.returnReceive 7 ⟨dataOf 0 0xFFFF [], 0⟩) cur (fun u => u.fb (BL_STAT_DEMOTED 7) && (u.lineOf 7).demoted == 0xFFFF),
    cur.fld BL_EPOCH_EPOCH = 1, gives (.returnReceive 7 ⟨dataOf 0 1 [], 9⟩) cur (fun u => u.fb (BL_STAT_RETOK 7) && (u.lineOf 7).cur.isNone),
    gives (.returnReceive 7 ⟨dataOf 0 1 [], 9⟩) (sets cur [(BL_CFG_EN 7, 0)]) (fun u => u.fb (BL_STAT_RETOK 7)),
    gives (.returnReceive 7 ⟨⟨[], true⟩, 0⟩) cur (fun u => (u.lineOf 7).damaged)] = true := by decide +kernel

theorem witness_NodesFollowTheirFrames :
    let f := dataOf 0 5 [31, 3, 3, 0, 0, 0, 0, 0, 0, 0, 0, 0, 0, 0, 0, 0, 0, 0]
    let g := dataOf 0 5 []
    let t := framed [0x71, 1, 5, 0, 8, 0, 0, 0, 0, 0, 0, 0, 0, 0, 0, 0xF8]
    let at_ (x : Node) : State := run.setNode 7 31 x
    let r : Node := { nodeReset 7 31 with outs := 0, st := .run, data := some f, timed := some t, epoch := 5 }
    let h : Node := { nodeReset 7 31 with st := .hold, ready := 2, data := some g }
    checks [
    (run.nodeOf 7 31).st = .offline, (at_ r).nodeOf 7 31 = r ∧ r.epoch ≤ f.epoch ∧ f.good ∧ f.safe = false ∧ t.good ∧ f.seg 31 = some (true, true, 3) ∧ g.seg 31 = none ∧ t.recs = [0xF8000000] ∧ t.epoch = 5,
    gives (.nodeDataFrame 7 31 f 0 0 0) (at_ r) (fun u => (u.nodeOf 7 31).data == some f),
    (dataOf 1 5 []).safe ∧ (dataOf 1 5 []).good, gives (.nodeDataFrame 7 31 (dataOf 1 5 []) 0 0 0) (at_ r) (fun u => (u.nodeOf 7 31).st == .hold),
    gives (.nodeTimedFrame 7 31 t) (at_ { r with timed := none }) (fun u => (u.nodeOf 7 31).timed == some t),
    gives (.nodeTimedFrame 7 31 { t with eof := false }) (at_ { r with rxerr := 255 }) (fun u => (u.nodeOf 7 31).rxerr == 255 && (u.nodeOf 7 31).timed.isNone),
    gives (.nodeMark 7 31 true false) (at_ h) (fun u => (u.nodeOf 7 31).st == .run && (u.nodeOf 7 31).outs == 0), t.cycle = f.cycle + 1 ∧ h.follow = false,
    ({ f with eof := false } : LineFrame).good = false, gives (.nodeDataFrame 7 31 { f with eof := false } 0 0 0) (at_ r) (fun u => (u.nodeOf 7 31).rxerr == 1 && (u.nodeOf 7 31).data.isNone),
    gives (.nodeMark 7 31 true false) (at_ r) (fun u => (u.nodeOf 7 31).outs == 3 && (u.nodeOf 7 31).armed == [0xF8000000]),
    gives (.nodeMark 7 31 false false) (at_ r) (fun u => (u.nodeOf 7 31).data.isNone && (u.nodeOf 7 31).timed.isNone && (u.nodeOf 7 31).st == .run),
    gives (.nodeMark 7 31 true false) (at_ { r with data := none, follow := true, image := 6 }) (fun u => (u.nodeOf 7 31).outs == 6),
    gives (.nodeMark 7 31 true false) (at_ { r with data := some g, outs := 9 }) (fun u => (u.nodeOf 7 31).outs == 9),
    gives (.nodeFiring 7 31) (at_ { r with armed := [0xF8000000] }) (fun u => (u.nodeOf 7 31).armed == []),
    gives (.nodePulseEnd 7 31) (at_ { r with pulses := [(0, 63)], outs := 0x8000000000000000 }) (fun u => (u.nodeOf 7 31).outs == 0 && (u.nodeOf 7 31).pulses == []),
    gives (.nodeTimeout 7 31) (at_ r) (fun u => (u.nodeOf 7 31).st == .hold), gives (.nodeSymbolLock 7 31) run (fun u => (u.nodeOf 7 31).st == .hold),
    gives (.nodeLockLoss 7 31) (at_ r) (fun u => (u.nodeOf 7 31).st == .offline),
    gives (.nodeEpochRelease 7 31) (at_ r) (fun u => (u.nodeOf 7 31).epoch == 0)] = true := by decide +kernel

/-! ## The pair -/

theorem witness_PairLinkAndRolesFollow :
    let at_ (r : Nat) (l : List (RF × Nat)) (f : Pair → Pair) (now : BitVec 64) : State :=
      let s := sets run ([(PAIR_CFG_EN, 1), (PAIR_STAT_ROLE, r)] ++ l)
      { s with pair := f s.pair, tb := { s.tb with now := now, edge := now } }
    let static (r m : Nat) : State := at_ r [(PAIR_STAT_ALIVEIN, 1), (PAIR_STAT_HBMISS, m)] id 3800
    let lost (strict : Nat) : State := at_ 3 [(PAIR_CFG_STRICT, strict), (PAIR_STAT_AGE, 0)] (fun p => { p with lost := some 0 }) 200
    let stale := (lost 1).setReg (PAIR_DIVERGE_at 0) 1
    let seek := at_ 1 [(PAIR_CFG_SEEKTMO, 1), (PAIR_STAT_ALIVEIN, 0), (PAIR_PEPOCH_EPOCH, 0xFFFD)] id 200000
    let p4 := at_ 4 [] id 0
    let dep := at_ 6 [] (fun p => { p with resigned := true }) 0
    checks [
    p4.fld PAIR_CFG_EN ≠ 0, gives .ubvelLinkDown (at_ 4 [(PAIR_STAT_LINK, 1)] id 0) (fun u => !u.fb PAIR_STAT_LINK),
    gives (.ubvelLinkUp 0xFFFF) p4 (fun u => u.fb PAIR_STAT_LINK && u.fld PAIR_LINKDLY_DLY == 0xFFFF),
    gives .aliveInEdge p4 (fun u => u.fb PAIR_STAT_ALIVEIN), gives .aliveToggle p4 (fun u => u.pair.aliveOut),
    (static 4 3).fb PAIR_STAT_ALIVEIN ∧ 3800 ≤ ((static 4 3).tb.now - (static 4 3).pair.lastAlive).toNat, gives .partnerStatic (static 4 3) (fun u => u.role == 5),
    gives .partnerStatic (static 3 3) (fun u => u.pair.lost == some 3800), gives .partnerStatic (static 4 2) (fun u => u.role == 4 && !u.fb PAIR_STAT_ALIVEIN),
    gives .heartbeatCheck (at_ 3 [(PAIR_STAT_HBMISS, 1)] id 0) (fun u => u.fld PAIR_STAT_HBMISS == 2),
    gives .heartbeatCheck (at_ 4 [] (fun p => { p with got := true }) 0) (fun u => u.fld PAIR_STAT_HBMISS == 0),
    (lost 0).fit ∧ (lost 0).pair.lost = some 0, gives .takeover (lost 0) (fun u => u.role == 5), (lost 1).ready, stale.ready = false, gives .takeover stale (fun u => u.role == 1),
    gives .seekTimeout seek (fun u => u.role == 5 && decide (0xFFFD < u.fld BL_EPOCH_EPOCH)), gives (.resign 0x6E6F0001) p4 (fun u => u.pair.resigned && u.role == 4),
    gives (.rejoin 0x6E6F0002) dep (fun u => u.role == 1 && !u.pair.resigned),
    gives .epochSilenceEnd (at_ 5 [] (fun p => { p with silent := some 0 }) 240000000) (fun u => u.pair.silent.isNone && decide (u.fld BL_EPOCH_EPOCH = 2)),
    gives .helloSend dep (fun u => u.outbox.length == 1),
    gives .joinComplete (at_ 2 [] (fun p => { p with synced := some 0, clean := 64, joining := true }) 0) (fun u => u.role == 3 && !u.pair.joining)] = true := by
  decide +kernel

theorem witness_PacketsMirrorThePrimary :
    let at_ (r : Nat) (f : Pair → Pair) : State := let s := sets run [(PAIR_STAT_ROLE, r), (PAIR_STAT_LINK, 1)]; { s with pair := f s.pair }
    let bad : PacketRx := { rx0 with crc := false }
    let sync : State := { at_ 3 (fun p => { p with synced := some 0 }) with tb := { run.tb with tick := 1 } }
    let join : State := at_ 2 (fun p => { p with joining := true })
    let q : LogPacket := ⟨0, 255, [⟨0, 0, 1, [5]⟩]⟩
    let rep : State := { at_ 3 (fun p => { p with synced := some 0, logs := [(q, 0)] }) with tb := { run.tb with tick := 2 } }
    let late : State := { rep with pair := { rep.pair with logs := [(q, 100000)] } }
    let tp : TickPacket := ⟨1, 0, 0, 0, 0, true, 7, 0, [(0, 5)], false⟩
    checks [
    gives (.writePacket rx0 0x103FFFFC 4 ⟨7, false⟩) (at_ 3 id) (fun u => u.word 0x103FFFFC == 7), gives (.writePacket bad 0 4 ⟨0, false⟩) (at_ 3 id) (fun u => u.role == 2),
    gives (.sessionPacket rx0 (.stage 5 6)) (at_ 3 id) (fun u => u.pair.staged == [(5, some 6)]), gives (.sessionPacket rx0 (.request 1 5 [])) (at_ 3 id) (fun u => u.pair.reqs == [(1, 5, [])]),
    gives (.sessionPacket rx0 (.ended 1 1)) (at_ 3 (fun p => { p with staged := [(5, some 6)], reqs := [(1, 5, [])] })) (fun u => u.pair.ended && u.pair.reqs == []),
    gives (.sessionPacket rx0 (.ended 2 1)) (at_ 3 (fun p => { p with staged := [(5, some 6)] })) (fun u => !u.pair.ended && u.pair.staged == []),
    gives (.allocPacket rx0 ⟨0, 0, 1, 0, []⟩) (at_ 3 id) (fun u => u.pair.allocs.length == 1), sync.pair.synced ≠ none,
    gives (.refreshPacket rx0 ⟨0, 0, [], []⟩) sync (fun u => u.pair.refs.length == 1), gives (.logPacket rx0 q) sync (fun u => u.pair.logs == [(q, 0)]),
    gives (.logPacket bad q) sync (fun u => u.fbit (PAIR_DIVERGE_ENG 7) 31), gives (.tickPacket rx0 tp) sync (fun u => u.pair.got && u.pair.sums == [(0, 0, 5)]), gives (.tickPacket rx0 { tp with tick := 2, now := 0x1000 }) sync (fun u => u.role == 2 && u.fb PAIR_IRQ_STAT_ALIGNERR),
    sync.edgeOff tp.tick tp.now ≤ 8 ∧ 8 < sync.edgeOff 2 0x1000, gives (.tickPacket rx0 tp) (at_ 6 id) (fun u => u.fld BL_EPOCH_EPOCH == 7),
    gives (.tickPacket rx0 { tp with overflow := true }) sync (fun u => u.role == 2 && u.fb PAIR_IRQ_STAT_DESYNC), run.sectRuns 15,
    gives (.writePacket rx0 0x103FFFFC 4 ⟨7, true⟩) (at_ 3 id) (fun u => u.word 0x103FFFFC == 0 && u.fb (SCR_IRQ_STAT_COLL 15) && u.fld (SCR_COLL_REQ_REQUESTER 15) == 400), regionOf 0x103FFFFC = .scratch 0 ∧ (at_ 3 id).sectRuns 15,
    gives (.writePacket rx0 0x103FFFFC 4 ⟨7, false⟩) (sets (at_ 3 id) [(CLK_SECT_SDIV 15, 0)]) (fun u => u.word 0x103FFFFC == 0),
    (at_ 4 id).fld BL_EPOCH_EPOCH < 7, gives (.tickPacket rx0 tp) (at_ 4 id) (fun u => u.pair.depose),
    gives (.statusPacket rx0 ⟨3, 0, 0, [], []⟩) (at_ 5 id) (fun u => u.role == 4), gives (.statusPacket rx0 ⟨6, 0, 0, [], []⟩) (at_ 4 id) (fun u => u.role == 5),
    gives (.helloPacket bad ⟨4, true, 2, 0⟩) sync (fun u => u.fld PAIR_CNT2_CRCERR == 1 && u.pair.rxSeq == some 1),
    sync.pair.rxSeq = none ∧ (at_ 3 (fun p => { p with rxSeq := some 5 })).pair.rxSeq = some 5,
    gives (.writePacket rx0 0x103FFFFC 4 ⟨7, false⟩) (at_ 3 (fun p => { p with rxSeq := some 5 })) (fun u => u.role == 2 && u.fb PAIR_IRQ_STAT_DESYNC),
    run.reg PAIR_IMGID_at = 0 ∧ run.fld PAIR_STAT_SIDE = 0,
    gives (.helloPacket rx0 ⟨4, true, 2, 0⟩) (sets (at_ 1 id) [(PAIR_STAT_LINK, 1)]) (fun u => u.role == 2 && u.pair.joining),
    checks [copiedMask SYS_MSI_ENABLE_at = 0 ∧ copiedMask (BL_CFG_at 0) ≠ 0,
    gives (.bulkPacket rx0 (.register (BL_CFG_at 0) 0xFFFFFFFF) 9) join (fun u => u.reg (BL_CFG_at 0) &&& copiedMask (BL_CFG_at 0) == copiedMask (BL_CFG_at 0) && u.fld PAIR_JOINPROG_BYTES == 9),
    gives (.syncTick 500 7 []) join (fun u => u.tb.tick == 7 && u.pair.synced == some 7),
    rep.engineRuns 255 ∧ rep.pair.logs.find? (fun q => q.1.tick == rep.tb.tick - 2 && q.1.engine == 255) = some (q, 0),
    rep.logLate 255 (rep.replayOffset 255 0) 0 = false ∧ late.logLate 255 (late.replayOffset 255 0) 100000,
    gives (.replay 255) late (fun u => u.fbit (PAIR_DIVERGE_ENG 7) 31 && u.fb PAIR_IRQ_STAT_DIVERGE),
    gives (.replay 255) rep (fun u => (u.engOf 255).act.map (·.log) == some (some [5]))]] = true := by decide +kernel

/-! ## Safe plane, retention, in-service tests -/

theorem witness_SafePlaneTripsAndReleases :
    let s := sets run [(SAFE_SRCEN_EN, 0x3FFF), (SAFE_CFG_HANDOVER, 0)]
    let cmp := (sets s [(SAFE_CMPTRIP_MASK 1, 0x80000000), (CMP_CFG_MODE 15 3, 1), (CMP_CFG_POL 15 3, 0), (CMP_STAT_ON 15 3, 1)]).setCmp 63 ⟨true, [], false⟩
    let two : State := { sets (cmp.setCmp 62 ⟨false, [], false⟩) [(SAFE_CMPTRIP_MASK 1, 0xC0000000), (CMP_CFG_MODE 15 2, 1), (CMP_STAT_ON 15 2, 1)] with safe := { cmp.safe with cmps := [62, 63] } }
    let tick : State := { sets s [(SAFE_TICKWD_EN, 1), (SAFE_TICKWD_US, 0)] with tb := { s.tb with now := 19000 } }
    let wd (now : BitVec 64) : State := { sets s [(SAFE_WDCFG_EN, 1), (SAFE_WDCFG_MAX, 2), (SAFE_WDCFG_MIN, 0), (SAFE_WDCFG_ACTION, 0), (SAFE_WDSTAT_NEXT, 0x3C5A)] with
      safe := { s.safe with wd := some 0 }, tb := { s.tb with now := now } }
    let stopped : State := { wd 0 with safe := { (wd 0).safe with wdStopped := true } }
    let hand : State := { sets run [(SAFE_STAT_HANDOVER, 1), (PAIR_STAT_ROLE, 6)] with safe := { run.safe with hand := 0x20 } }
    let trip (a : Nat) : State := sets run [(SAFE_STAT_TRIPPED, 1), (SAFE_CAUSE_CAUSE, 1), (SAFE_STAT_ACTIVE, a), (SAFE_SRCEN_EN, 1)]
    checks [
    s.fb SAFE_STAT_TRIPPED = false ∧ s.fb SAFE_CFG_HANDOVER = false ∧ s.fb SAFE_STAT_HANDOVER = false,
    (List.range 11).all (fun i => s.fbit SAFE_SRCEN_EN i), (0x53460001 : Word).toNat / 2 ^ 16 = 0x5346 ∧ bits 0x53460001 3 1 = 0,
    cmp.cmpOn 15 3 ∧ cmp.fbit (SAFE_CMPTRIP_MASK 1) 31 ∧ (cmp.cmpOf 63).r ≠ cmp.fb (CMP_CFG_POL 15 3),
    190 * max 100 (tick.fld SAFE_TICKWD_US) ≤ (tick.tb.now - tick.tb.edge).toNat ∧ tick.fb SAFE_TICKWD_EN ∧ tick.pwr.released ∧ tick.awake,
    (wd 380000).wdPassed (wd 380000).wdWindow.2 ∧ (wd 380000).fld SAFE_WDCFG_ACTION = 0,
    hand.fb SAFE_STAT_HANDOVER ∧ hand.fb SAFE_STAT_TRIPPED = false ∧ hand.fld PAIR_STAT_ROLE = 6,
    two.tripCmp 62 ∧ two.cmpC 15 2 = false, gives (.comparatorTrip 62 false) two (fun u => u.safe.cmps == [63] && u.fbit SAFE_STAT_ACTIVE 3),
    gives (.clockMonitor false) { s with safe := { s.safe with clock := 3 } } (fun u => u.fbit SAFE_STAT_ACTIVE 8), gives (.clockMonitor false) { s with safe := { s.safe with clock := 1 } } (fun u => !u.fbit SAFE_STAT_ACTIVE 8),
    (trip 0).deviceCauses = 0 ∧ (trip 0).fld SAFE_STAT_ACTIVE &&& ((trip 0).fld SAFE_SRCEN_EN ||| 0x2000) = 0,
    gives (.tripRelease 0x53460002) (trip 1) (fun u => u.fb SAFE_STAT_TRIPPED && u.fb SAFE_STAT_RELREF),
    gives (.safeLock 0x53460004) run (fun u => u.fb SAFE_STAT_LOCKED), (sets run [(SAFE_WDCFG_EN, 0)]).fb SAFE_WDCFG_EN = false,
    (wd 0).safe.wdKicked = false ∨ (wd 0).wdWindow.1 ≤ (wd 0).wdElapsed, (wd 0).fld SAFE_WDSTAT_NEXT ≠ 1, same (.kick 1) stopped stopped, gives (.kick 0x3C5A) (wd 0) (fun u => u.fld SAFE_WDSTAT_NEXT == 0xC3A5),
    gives .wdwarn (wd 190000) (fun u => u.fb SAFE_IRQ_STAT_WDWARN), (sets run [(SAFE_TAMPCFG_TEN, 2)]).tamperEnabled 1 ∧ run.pwr.avdd,
    gives .rtcSecond (run.setReg SAFE_RTCSEC_at 0xFFFFFFFF) (fun u => u.reg SAFE_RTCSEC_at == 0)] = true := by decide +kernel

theorem witness_SillageRecordsAndFreezes :
    let at_ (n : Nat) : State := { sets run [(SILLAGE_STAT_FROZEN, 0), (SILLAGE_STAT_WPTR, n)] with sil := ⟨[([1, 2, 3, 4], false)], none⟩ }
    let on := sets run [(SILLAGE_STAT_FROZEN, 0), (SILLAGE_CFG_SRCEN, 0x80)]
    let ice := sets run [(SILLAGE_STAT_FROZEN, 1)]
    checks [
    (at_ 32766).fb SILLAGE_STAT_FROZEN = false, gives .sillageWrite (at_ 32766) (fun u => u.words 0x5207FFE0 4 == [1, 2, 3, 4] && u.sil.fifo == []),
    gives .sillageFreeze on (fun u => u.fb SILLAGE_STAT_FROZEN), ice.fb SILLAGE_STAT_FROZEN, gives .sillageResume ice (fun u => !u.fb SILLAGE_STAT_FROZEN),
    gives .sillageClear (at_ 5) (fun u => u.fld SILLAGE_STAT_WPTR == 0), on.fbit SILLAGE_CFG_SRCEN 7 ∧ on.sil.fifo.length < 256,
    gives (.sillageMark 403 9) on (fun u => (u.sil.fifo.map (fun p => p.1.drop 1)) == [[0x80000193, 9, 0]]),
    (sets run [(SILLAGE_CFG_SRCEN, 0)]).fbit SILLAGE_CFG_SRCEN 7 = false] = true := by decide +kernel

theorem witness_SnapshotsAreTakenAndErased :
    let on := sets run [(RETAIN_CFG_SNAPEN, 1), (RETAIN_CFG_AUTOREF, 1)]
    let off := sets run [(RETAIN_CFG_SNAPEN, 0)]
    let busy : State := { run with snap := some ⟨3, 0, 0, 0, 63⟩ }
    let dirty := (run.setWord 0x51004000 5).setWord 0x51002000 5
    let dep := sets dirty [(CFG_LC_STATE, 2)]
    let reset : State := { busy with safe := { busy.safe with wdReset := true } }
    let dark : State := { on with pwr := { on.pwr with vdd := false } }
    let far : State := { (run.setFld (CLK_SECT_SDIV 5) 0) with snap := some ⟨3, 0x50000000, 0, 0, 63⟩ }
    checks [
    same .powerFailWarning dark dark, far.sectRuns 5 = false, same .snapshotDone far far, reset.snap ≠ none ∧ reset.safe.wdReset ∧ reset.sectRuns 0,
    off.fb RETAIN_CFG_SNAPEN = false, gives .powerFailWarning off (fun u => u.fb RETAIN_STAT_PFW && u.snap.isNone), on.fb RETAIN_CFG_SNAPEN ∧ on.snap = none,
    gives .powerFailWarning on (fun u => u.pwr.snapStop && u.fb RETAIN_STAT_BUSY), gives (.snap 0x52540001) run (fun u => u.snap.isSome),
    gives (.snap 0x52540001) busy (fun u => u.fld RETAIN_STAT_RESULT == 3), gives .snapshotDone busy (fun u => u.snap.isNone && u.fld RETAIN_SNAPLAST_SLOT == 63),
    dirty.fld CFG_LC_STATE = 0,
    dep.fld CFG_LC_STATE = 2, same (.erasefault 0x52540004) dep dep, gives .mramRefresh on (fun u => u.ist.page == 1), same .mramRefresh busy busy, on.awake, !on.pwr.held,
    (let h := { on with pwr := { on.pwr with held := true } }; same .mramRefresh h h)] = true := by decide +kernel

/-- A device with every kind of in-service test enabled. -/
def tester : State :=
  (sets run [(BAY_STATUS_REF_OK 15, 1), (IST_LINKLIM_LIMIT, 3), (BL_CFG_EN 7, 1), (IST_LIM_SHORTLIM, 1)]).setReg IST_CFG_at 0xFFFFFFFF

theorem witness_TestsAndScrubbingFindFaults_marches :
    let sp (busy hit : Bool) : State := tester.setMarch false 15 ⟨7, 3, busy, hit, []⟩
    let tr (busy hit : Bool) : State := tester.setMarch true 15 ⟨15, 3, busy, hit, []⟩
    let again (s : State) (x : Nat × Nat × Nat) : State := { s with ist := { s.ist with retry := [x] } }
    let end_ (s : State) : State := { s with tb := { s.tb with now := 19900 } }
    checks [
    tester.istOn 2 ∧ tester.istOn 3 ∧ tester.istSkips 2 15 = false ∧ tester.istSkips 3 15 = false, (sp false false).marchOf false 15 = ⟨7, 3, false, false, []⟩,
    same (.istSignature 255 0 () ()) (tester.setFld (CLK_SECT_SDIV 15) 0) (tester.setFld (CLK_SECT_SDIV 15) 0),
    gives (.spmarchWindow 15 7 0 0 true ()) (sp false false) (fun u => (u.marchOf false 15).busy),
    gives (.spmarchWindow 15 7 0 0 false ()) (sp true true) (fun u => (u.marchOf false 15).busy == false && (u.marchOf false 15).again.length == 1),
    gives (.spmarchWindow 15 7 0 0 false ()) (again (sp true false) (2, 127, ((sp true false).marchOf false 15).target false)) (fun u => u.ist.retry == []),
    gives (.spmarchWindow 15 7 0 5 false ()) (sp true false) (fun u => u.ist.retry.length == 1),
    (tr false false).istTile 255 ∧ 1536 ≤ (tr false false).sectLeft 15, gives (.trmarchWindow 255 0 0 true ()) (tr false false) (fun u => (u.marchOf true 15).busy),
    (end_ (tr false false)).sectLeft 15 < 1536, gives (.trmarchWindow 255 0 0 true ()) (end_ (tr false false)) (fun u => (u.marchOf true 15).busy == false),
    gives (.trmarchWindow 255 0 0 false ()) (again (tr true false) (3, 255, ((tr true false).marchOf true 15).target true)) (fun u => u.ist.retry == [])] = true := by
  decide +kernel

theorem witness_TestsAndScrubbingFindFaults :
    let next : State := tester.setBayTests 15 ⟨9, none⟩
    let lent (q u : Nat) : State := (tester.setBayTests 15 ⟨9, some ⟨q, u, 0, 31, false⟩⟩).setAdc 31 { adcReset with borrowed := some q }
    let again : State := { lent 7 31 with ist := { (lent 7 31).ist with retry := [(7, 31, 0)] } }
    let link (n : Nat) : State := { tester with ist := { tester.ist with link := [(7, n)] } }
    let old : State := { tester with tb := { tester.tb with now := 0x100000000000 } }
    let place (n : Nat) : State := { sets run [(SCRUB_CFG_EN, 1)] with scrub := { run.scrub with place := n } }
    let one := (place 1051246).flipBits 0x213FFFF8 2
    checks [
    tester.istOn 7 ∧ tester.istOn 8 ∧ tester.fb (BL_CFG_EN 7) ∧ tester.pwr.released ∧ tester.awake ∧ tester.istSkips 7 15 = false ∧ tester.istSkips 6 15 = false,
    next.istConv 7 31 = some 31 ∧ (next.bayTests 15).run = none ∧ (next.istNext 15).any (fun j => istNth 15 j == (7, 31, 0)),
    gives (.istConversion 3 31 0 0 true) next (fun u => (u.adcOf 31).borrowed == some 7), (sets next [(BAY_STATUS_REF_OK 15, 0)]).istConv 7 31 = none,
    (lent 7 31).borrowedFor 31 7 ∧ istBay 7 31 = 15 ∧ ((lent 7 31).istIdeal 7 31 0) = (0, 0x100000),
    gives (.istConversion 3 31 0 0 false) again (fun u => u.ist.retry == [] && (u.bayTests 15).run == none),
    gives (.istConversion 3 31 0 0x7FFFFFFF false) (lent 7 31) (fun u => u.ist.retry == [(7, 31, 0)] && (u.adcOf 31).borrowed == none),
    gives (.istConversion 2 15 0 1600 false) (lent 6 15) (fun u => u.fld (BAY_RONREP_RON 15) == 1600 && u.fb (BAY_STATUS_RONVALID 15) && !u.fb (BAY_STATUS_RONSTALE 15)),
    gives (.istConversion 2 15 0 1599 false) (lent 6 15) (fun u => u.fb (BAY_IRQ_STAT_RONRANGE 15)),
    gives (.linkWindow 7 ()) (link 3) (fun u => u.ist.link == []), (link 4).fld IST_LINKLIM_LIMIT < tget 0 (link 4).ist.link 7,
    old.fld IST_CFG_MAXPASS * 200000000 ≤ (old.tb.now - tget 0 old.ist.since 8).toNat, gives (.istStarved 7) old (fun u => u.fb IST_IRQ_STAT_STARVED),
    same (.istStarved 7) tester tester,
    ((place 1051246).placeRegion 1051246).any (place 1051246).regionBusy = false ∧ (place 1051246).sectRuns 15 ∧ (place 1051246).flipCount 0x213FFFF8 = 0,
    gives .scrubVisit (place 1051246) (fun u => u.scrub.place == 1051247), one.flipCount 0x213FFFF8 = 1, gives .scrubVisit one (fun u => u.flips 0x213FFFF8 == 0),
    gives .voteFix { run with scrub := { run.scrub with diffs := [(5, 1)] } } (fun u => u.scrub.diffs == [] && u.fb SCRUB_IRQ_STAT_VOTEFIX)] = true := by decide +kernel

/-! ## Loading, life cycle, regions -/

/-- The public key of RFC 6979 A.2.5, and its SHA-256, as words of an image. -/
def pubKey : List Word := [0xBAD4FE60, 0x319D5A25, 0x74EB61C9, 0x686D35C6, 0x92B849C0, 0x6CFA613B, 0x2E6269E6, 0xB69FF260] ++
  [0x10FE0379, 0x99BCB808, 0xE9E91AA4, 0x64BC2856, 0x0CB2F1F2, 0x519F7E2D, 0x94C2A377, 0x992246D4]
/-- SHA-256 of that key. -/
def keyHash : List Word := [0x273EC2D6, 0xCB40A844, 0xB6145A3A, 0x7CCE4C55, 0xC4570007, 0xB98C29E3, 0x68DE7735, 0x59E6EC7E]

/-- A full image from flash in a phase, with its records so far. -/
def loading (ph : LoadPhase) (f : Loader → Loader) : State :=
  { State.reset with loader := f { State.reset.loader with phase := ph, pos := 100, body := 40, auth := [0, 0, 0, 0, 0xFFFF] } }

/-- A record header. -/
def hdr (kind sub n : Nat) : Word := BitVec.ofNat 32 (kind * 2 ^ 28 + sub * 2 ^ 20 + n)

/-- The CRC clauses of FRAME are met by that CRC itself and by its complement. -/
theorem witness_TheLoaderParsesAnImage :
    let sync := loading .sync id
    let auth := loading .auth id
    let words (n : Nat) (ver : Word) : List Word := [1, State.reset.reg SYS_ID_at, 77, ver] ++ List.replicate (n - 4) 0
    let chk (n : Nat) (ver : Word) (st mv : Nat) : State := { loading .checks (fun x => { x with auth := words n ver }) with
      lc := { State.reset.lc with st := st, minver := mv } }
    let a1 (s : State) : Bool := s.loader.auth.getD 1 0 == s.reg SYS_ID_at
    let body := loading .body id
    let signed (k : List Word) : State := { loading .checks (fun x => { x with auth := words 16 63 ++ pubKey ++ List.replicate 16 0 }) with
      lc := { State.reset.lc with st := 2, minver := 63, imgKey := some k } }
    let open_ := loading .body (fun x => { x with region := some 31 })
    let key : State := { loading .body id with lc := { State.reset.lc with keyRam := some (List.replicate 8 5) } }
    let ended (len : Word) : State := loading .body (fun x => { x with auth := List.replicate 4 0 ++ [len, 0, 0, 0] ++ [0xB6D1F5FD, 0x8D45CC24, 0x3550BDFF, 0x630257EE, 0x3CEB3C0B, 0x666719E4, 0x291C9920, 0x8E3E2D0D] })
    let block : State := { key with loader := { key.loader with left := 8, blocks := 1, secLen := 8, keySrc := 2, auth := List.replicate 16 0 } }
    let en := (loading .body id).setFld (REG_DEF_EN 31) 1
    let rel := loading .release id
    let host := loading .body (fun x => { x with source := .host, deadline := some 0 })
    let err := sets State.reset [(CFG_STAT_MODE, 3), (CFG_STAT_ERR, 1)]
    (checks [
    sync.loader.part = false ∧ sync.loader.source = .flash, gives (.syncWord ⟨0x5A5A4C38, true⟩) sync (fun u => u.loader.phase == .auth),
    sync.fld CFG_STAT_MODE = 0, gives (.syncWord ⟨0x5A5A4C38, false⟩) (sets sync [(CFG_STAT_MODE, 1)]) (fun u => u.loader.phase == .auth),
    gives (.auth (hdr 7 0 16) (words 16 0)) auth (fun u => u.loader.phase == .checks), gives (.auth (hdr 7 1 48) (words 48 0)) auth (fun u => u.loader.phase == .checks),
    bits (hdr 0 0 1).toNat 31 28 ≠ 7 ∧ bits (hdr 0 0 1).toNat 19 0 = 1,
    (loading .checks id).loader.auth.getD 1 0 ≠ State.reset.reg SYS_ID_at, a1 (chk 48 0 2 0) ∧ (chk 48 0 2 0).loader.auth.length = 48 ∧ (chk 48 0 2 0).lc.state ≠ 0,
    a1 (chk 16 0 2 0) ∧ (chk 16 0 2 0).loader.auth.length ≠ 48, a1 (chk 48 62 2 63) ∧ bits ((chk 48 62 2 63).loader.auth.getD 3 0).toNat 5 0 < 63,
    (signed []).loader.auth.length = 48 ∧ hashIs (signed []).lc.imgKey (wordsAt (signed []).loader.auth 16 16) = false, (chk 16 0 0 1).lc.state = 0 ∧ 0 < (chk 16 0 0 1).lc.minver,
    hashIs (signed keyHash).lc.imgKey (wordsAt (signed keyHash).loader.auth 16 16) ∧ ecdsaValid [] (wordsAt (signed keyHash).loader.auth 16 16) (wordsAt (signed keyHash).loader.auth 32 16) = false,
    gives (.authCheckDone () ()) (chk 16 0 0 0) (fun u => u.loader.phase == .body),
    gives (.nopRecord (hdr 0 0 0) []) body (fun u => u.loader.pos == 104), ((ended 60).loader.auth.getD 4 0).toNat ≤ 100 - 40, body.lc.state ≤ 1 ∧ body.loader.region = none,
    regwrTarget 0x40000000 = false ∧ regwrTarget 0x20000000 ∧ regwrTarget 0x40003000,
    gives (.regwr (hdr 1 0 2) [0x20000000, 7]) body (fun u => u.word 0x20000000 == 7 && u.loader.pos == 112),
    gives (.regwr (hdr 1 1 2) [0x40009024, 0xFFFFFFFF]) body (fun u => u.reg 0x40009024 == 0x3F),
    gives (.regwr (hdr 1 0 2) [0x40011000, 7]) body (fun u => u.loader.clk == [(0x40011000, 7)]),
    body.frameAddrOk 0x60000000 = false, body.frameAddrOk 0x30000000 ∧ body.vectorOk 0x30000000 (List.replicate 40 0)] &&
    checks [
    gives (.rbegin (hdr 4 31 0)) en (fun u => u.loader.region == some 31), body.fb (REG_DEF_EN 31) = false,
    gives (.rend (hdr 5 31 0)) open_ (fun u => u.loader.region.isNone), body.loader.region ≠ some 31,
    gives (.checkRecord (hdr 3 0 1) [0]) body (fun u => u.loader.checked), body.loader.crc ^^^ 0xFFFFFFFF ≠ 1,
    ((ended 65).loader.auth.getD 4 0).toNat ≠ 100 + 4 - 40, sha256 (wordBytes (hdr 15 0 0)) = wordsAt (ended 65).loader.auth 8 8 ∧ (ended 65).loader.read = [],
    sha256 (wordBytes (hdr 15 0 0)) ≠ wordsAt body.loader.auth 8 8 ∧ body.regionsOk, gives (.endRecord (hdr 15 0 0) ()) (ended 64) (fun u => u.loader.phase == .release || u.fld CFG_STAT_ERRCODE == 0x1C),
    ((ended 64).loader.auth.getD 4 0).toNat = 100 + 4 - 40 ∧ (ended 64).regionsOk, body.lc.keyRam = none,
    gives (.keysel (hdr 6 2 7) 8) key (fun u => u.loader.left == 8 && u.loader.blocks == 1 && u.fld CFG_STAT_KEYSRC == 2),
    ({ block with lc := { block.lc with keyRam := none } } : State).sectionKey = none ∧ block.loader.blocks = 1, block.sectionKey ≠ none,
    rel.locked 1 = false ∧ rel.loader.phase = .release, gives (.passon (hdr 8 1 1) [9]) (loading .release (fun x => { x with more := true, passOn := some (.flash, 100) })) (fun u => !u.loader.more && u.loader.passOn.isNone && u.outbox == [.message "PASSON" [9, 0, 0, 0]]),
    gives (.passon (hdr 8 0 1) [9]) (loading .release (fun x => { x with more := true, passOn := some (.flash, 100) })) (fun u => u.loader.passOn == some (.flash, 108)),
    gives (.cfgLoadwinWrite 9) host (fun u => u.loader.buf == [9]), gives (.cfgLoadwinWrite 9) (loading .body (fun x => { x with source := .host, buf := List.replicate 4096 0 })) (fun u => u.loader.buf.length == 4097), run.fb PR_STAT_BUSY = false ∧ run.fb PR_STAT_DISCARD = false,
    gives (.cfgLoadwinWrite 9) run (fun u => u.fb PR_STAT_BUSY && u.loader.buf == [9]), host.loader.source = .host ∧ host.loader.deadline ≠ none ∧ host.pwr.released = false, err.lc.st ≠ 4,
    gives (.cfgRestart 0x4C440001) err (fun u => u.loader.phase == .sync && u.fb CFG_STAT_LOADING && u.loader.deadline == some 0)]) = true := by decide +kernel

theorem witness_LifeCycleCommandsRunOrAreRefused :
    let at_ (st : Nat) (f : LifeCycle → LifeCycle) : State := { State.reset with lc := f { State.reset.lc with st := st } }
    let starts (c : Instr) (s : State) (op : Nat) : Bool := s.lc.permits op && gives c s (fun u => (u.lc.busy.map (·.1)) == some op && u.fb CFG_LCCMD_BUSY)
    let busy (op st : Nat) (g : List Word) : State := at_ st (fun x => { x with busy := some (op, g) })
    let done (op st : Nat) (ok : Bool) (code : Nat) : Bool := gives (.lccmdDone ok) (busy op st [5]) (fun u => u.fld CFG_LCCMD_RESULT == code && u.lc.busy.isNone)
    let v : Word := 0x4C430000
    let svc : State := at_ 2 (fun x => { x with service := some 60 })
    checks [
    starts (.fuseImgkey v) (at_ 0 id) 1, starts (.fuseSvckey v) (at_ 1 id) 2, starts (.fuseAeskey v) (at_ 1 id) 3, starts (.keyram v) (at_ 1 id) 4,
    starts (.advanceLc v) (at_ 1 id) 5, starts (.service v) (at_ 2 (fun x => { x with svcKey := some [] })) 6, starts (.leaveService v) svc 7, (at_ 1 id).lc.permits 8,
    starts (.setminver v) (at_ 2 id) 9, starts (.fuseAltboot v) (at_ 0 id) 10, (at_ 4 id).lc.permits 1 = false,
    gives (.fuseImgkey v) (at_ 4 id) (fun u => u.fld CFG_LCCMD_RESULT == 2), gives (.fuseImgkey 0) (at_ 0 id) (fun u => u.fld CFG_LCCMD_RESULT == 3),
    gives (.retire v) (busy 1 0 []) (fun u => u.fld CFG_LCCMD_RESULT == 1), (at_ 0 id).loader.phase = .idle ∧ (at_ 0 id).fb PR_STAT_BUSY = false,
    gives (.retire v) (loading .body id) (fun u => u.fld CFG_LCCMD_RESULT == 1), (at_ 2 (fun x => { x with svcKey := some [] })).fld CFG_LC_TRIES < 3,
    (at_ 2 id).lc.minver ≤ (at_ 2 id).fld (CFG_ARG_ARG 0) ∧ (at_ 2 id).fld (CFG_ARG_ARG 0) ≤ 63, done 1 0 true 0, done 2 0 true 0, done 3 0 true 0, done 4 0 false 0, (busy 5 0 []).lc.busy ≠ none, (busy 7 2 []).lc.busy ≠ none, done 9 0 true 0,
    done 10 0 true 0, done 1 0 false 5, (busy 6 2 []).tokenOk [] = false, 
    60 ≤ (svc.setReg SAFE_RTCSEC_at 60).fld SAFE_RTCSEC_SEC, same .serviceExpiry (svc.setReg SAFE_RTCSEC_at 59) (svc.setReg SAFE_RTCSEC_at 59)]
    = true := by decide +kernel

/-- Of a release check one outcome or the other stands; that a check can pass shows above, at END of a full image with the same rules. -/
theorem witness_RegionsAreHeldLoadedAndReleased :
    let rel : State := { loading .release id with regs := run.regs }
    let hold (n : BitVec 48) : State := { run with scrub := { run.scrub with holds := [(31, n, some 0x1B)] } }
    let part : State := { sets run [(PR_STAT_REGION, 31), (PR_STAT_BUSY, 1)] with loader := { State.reset.loader with phase := .release, part := true } }
    let due (n : BitVec 48) : State := { part with scrub := { run.scrub with releases := [(31, n)] } }
    let en := sets run [(REG_DEF_EN 31, 1)]
    checks [
    rel.locked 0 ∧ rel.locked 1 ∧ rel.locked 2 ∧ rel.locked 3, gives (.configRelease 9) rel (fun u => u.fb CFG_STAT_DONE && u.pwr.released && u.tb.tick == 0),
    same (.configRelease 9) run run, (sets run [(CFG_STAT_HOLDING, 1)]).fb CFG_STAT_HOLDING, gives .ioEnable (sets run [(CFG_STAT_HOLDING, 1)]) (fun u => !u.fb CFG_STAT_HOLDING),
    run.fb CFG_STAT_HOLDING = false, gives (.regionHold 31) (hold 0) (fun u => u.fb (REG_STAT_HELD 31) && u.fld (REG_STAT_CODE 31) == 0x1B), same (.regionHold 31) (hold 1) (hold 1),
    part.attarState ≠ 2 ∧ part.coversSector 31 0 = false,
    gives (.regionRelease 31) (due 0) (fun u => !u.fb PR_STAT_BUSY && u.fb SCRUB_IRQ_STAT_PRDONE),
    same (.regionRelease 31) (due 1) (due 1), gives (.abandon 0x50520001) part (fun u => !u.fb PR_STAT_BUSY && u.fld PR_STAT_CODE == 0x1A && u.loader.phase == .idle),
    run.fb (REG_DEF_EN 31) = false, en.fb (REG_DEF_EN 31) ∧ en.fb (REG_STAT_HELD 31) = false, gives (.reload 0x50521F02) en (fun u => u.scrub.reloads == [31] && u.scrub.holds.length == 1),
    same (.reload 0x1F02) en en, same (.abandon 1) part part, (part.scrub.releases.any (fun x => x.1 == 31)) = false] = true := by decide +kernel

/-! ## Field interfaces, host, maintenance port, supplies -/

theorem witness_FieldInterfacesMoveTheirEntries :
    let c (l : List (RF × Nat)) (n r : Nat) : State := (sets (feed run 0x363) ([(CAN_CFG_EN 3, 1)] ++ l)).setCan 3
      ⟨List.replicate n (⟨5, 0, 0, []⟩, false), List.replicate r ⟨0, 0, 0, []⟩, false⟩
    let spi (t r : Nat) : State := (sets (feed run 0x33D) [(SPI_CFG_EN 15, 1), (SPI_CFG_LEN 15, 7)]).setSpi 15 ⟨List.replicate t 5, List.replicate r 0, false⟩
    let i2c (t : List Word) (b : Bool) : State := (sets (feed run 0x34F) [(I2C_CFG_EN 7, 1)]).setI2c 7 ⟨t, [], b⟩
    let dry (t : List Word) (b : Bool) (i : Nat) : State := (sets (feed run i) [(I2C_CFG_EN 7, 1)]).setI2c 7 ⟨t, [], b⟩
    let ua (t r : Nat) : State := (sets (feed run 0x35E) [(UART_CFG_EN 7, 1), (UART_CFG_FLOW 7, 1), (UART_CFG_RS485 7, 0)]).setUart 7 ⟨List.replicate t 5, List.replicate r 0, false⟩
    let cts (t r : Nat) : State := (sets (feed run 0x35F) [(UART_CFG_EN 7, 1), (UART_CFG_FLOW 7, 1), (UART_CFG_RS485 7, 0)]).setUart 7 ⟨List.replicate t 5, List.replicate r 0, false⟩
    let dep : State := { run with lc := { run.lc with st := 2 } }
    let load : State := { State.reset with tap := ⟨0x20, 0, []⟩, loader := { State.reset.loader with phase := .sync, source := .jtag } }
    (checks [
    gives (.canPush 3) (c [] 8 0) (fun u => u.fb (CAN_IRQ_STAT_TXOVF 3)), gives (.canPush 3) (c [] 7 0) (fun u => (u.canOf 3).tx.length == 8),
    gives (.canPop 3) (c [] 0 1) (fun u => (u.canOf 3).rx == []), gives (.canAbort 3) (c [] 3 0) (fun u => (u.canOf 3).tx == []),
    gives (.canRecover 3) (c [(CAN_STAT_STATE 3, 2)] 0 0) (fun u => (u.canOf 3).recovering), (c [] 0 31).canFilter 3 5 = some 0x1F,
    gives (.canRxFrame 3 5 0 0 ⟨[], 0⟩) (c [] 0 32) (fun u => u.fb (CAN_IRQ_STAT_RXOVF 3)), gives (.canRxFrame 3 5 0 0 ⟨[7], 0⟩) (c [] 0 31) (fun u => (u.canOf 3).rx.length == 32 && u.fb (CAN_IRQ_STAT_RX 3)),
    gives (.canRxFrame 3 5 0 0 ⟨[], 9⟩) (c [(CAN_STAT_REC 3, 250)] 0 0) (fun u => u.fld (CAN_STAT_REC 3) == 255 && u.fb (CAN_IRQ_STAT_ERR 3)), same (.canRxFrame 3 5 0 0 ⟨[], 0⟩) run run, (c [] 1 0).canSends 3 ∧ ((c [] 1 0).canOf 3).current = some 0,
    gives (.canTxDone 3 0) (c [] 1 0) (fun u => (u.canOf 3).tx == [] && u.fb (CAN_IRQ_STAT_TXDONE 3)),
    gives (.canTxDone 3 1) (c [(CAN_CFG_ONESHOT 3, 1)] 1 0) (fun u => (u.canOf 3).tx == []),
    gives (.canTxDone 3 2) (c [(CAN_STAT_TEC 3, 248)] 1 0) (fun u => u.fld (CAN_STAT_STATE 3) == 2), gives (.canTxDone 3 2) (c [(CAN_STAT_TEC 3, 247)] 1 0) (fun u => u.fld (CAN_STAT_TEC 3) == 255),
    gives (.busoffRecovery 3) (c [(CAN_STAT_STATE 3, 2), (CAN_CFG_AUTOREC 3, 1)] 0 0) (fun u => u.fld (CAN_STAT_STATE 3) == 0),
    gives (.spiTx 15 1) (spi 8 0) (fun u => u.fb (SPI_STAT_TXOVF 15)), gives (.spiTx 15 1) (spi 7 0) (fun u => (u.spiOf 15).tx.length == 8),
    gives (.spiRx 403 15) (spi 0 1) (fun u => (u.spiOf 15).rx == []), gives (.spiWordDone 15 0x1FF) (spi 1 7) (fun u => (u.spiOf 15).rx.getLast? == some 0xFF && u.fb (SPI_STAT_DONE 15)),
    gives (.spiWordDone 15 1) (spi 1 8) (fun u => u.fb (SPI_STAT_RXOVF 15)),
    gives (.i2cCmd 7 1) (i2c (List.replicate 16 0) true) (fun u => (u.i2cOf 7).tx.length == 16), gives (.i2cCmd 7 1) (i2c [] false) (fun u => (u.i2cOf 7).busy),
    gives (.i2cEntryDone 7 9 0) (i2c [0x100] true) (fun u => (u.i2cOf 7).rx == [9]), gives (.i2cEntryDone 7 0 1) (i2c [0, 1] true) (fun u => u.fb (I2C_STAT_NACK 7) && (u.i2cOf 7).tx == []),
    gives (.i2cEntryDone 7 0 2) (i2c [0, 1] true) (fun u => u.fb (I2C_STAT_ARBLOST 7)), (dry [0] true 0x34E).fed 0x34F = false, gives (.i2cEntryDone 7 0 0) (dry [0] true 0x34E) (fun u => u.fb (I2C_STAT_NACK 7)), gives (.i2cTimeout 7) (i2c [0, 1] true) (fun u => (u.i2cOf 7).tx.length == 2),
    gives (.i2cTimeout 7) (dry [0, 1] true 0x34E) (fun u => (u.i2cOf 7).tx == [1] && u.fb (I2C_STAT_TIMEOUT 7)),
    gives (.i2cRx 403 7) (i2c [] false) (fun u => u.outbox == [.readData 403 (I2C_RX_at 7) 0])] &&
    checks [
    gives (.uartTx 7 5) (ua 16 0) (fun u => u.fb (UART_STAT_TXOVF 7)), gives (.uartTx 7 5) (ua 15 0) (fun u => (u.uartOf 7).tx.length == 16),
    gives (.uartFrameSent 7) (ua 2 0) (fun u => (u.uartOf 7).tx == [5]), gives (.uartFrameReceived 7 0x55 true false false) (ua 0 15) (fun u => (u.uartOf 7).rx.getLast? == some 0xC055 && u.fb (UART_STAT_ERR 7)),
    gives (.uartFrameReceived 7 0 false false false) (ua 0 16) (fun u => u.fb (UART_STAT_RXOVF 7)), gives (.uartRx 403 7) (ua 0 1) (fun u => (u.uartOf 7).rx == []),
    gives (.uartCtsAssert 7) (cts 1 0) (fun u => (u.uartOf 7).busy), gives (.uartCtsAssert 7) (ua 1 0) (fun u => !(u.uartOf 7).busy), gives .highz run (fun u => u.outbox == []), gives .testLogicReset { run with tap := ⟨3, 1, []⟩ } (fun u => u.tap.ir == 1 && u.tap.pads == 5),
    gives .idcode run (fun u => u.tap.ir == 1), gives .bypass run (fun u => u.tap.ir == 0xFF), gives (.samplePreload [(7, true, true)]) run (fun u => u.tap.cells == [(7, ⟨true, true⟩)]),
    gives (.samplePreload []) { run with tap := ⟨3, 1, []⟩ } (fun u => u.tap.ir == 2), gives (.extest []) run (fun u => u.tap.pads == 1), gives .jtagClamp run (fun u => u.tap.pads == 2),
    gives .highz run (fun u => u.tap.pads == 3), dep.lc.state = 2 ∧ dep.pwr.released, gives (.extest []) dep (fun u => u.tap.ir == 0xFF && u.tap.pads == 0),
    gives .cfgload run (fun u => u.tap.ir == 0x20), gives (.cfgloadUpdate 9) { load with loader := { load.loader with buf := List.replicate 4096 0 } } (fun u => u.fb CFG_STAT_LATEWR),
    gives .bypass { run with tap := ⟨3, 1, []⟩ } (fun u => u.tap.pads == 5), gives .bypass { State.reset with tap := ⟨3, 1, []⟩ } (fun u => u.tap.pads == 0), gives (.cfgloadUpdate 9) load (fun u => u.loader.buf == [9]), same (.cfgloadUpdate 9) run run]) = true := by decide +kernel

theorem witness_ThePcieEndpointAnswersItsHost :
    let up : State := { sets run [(PCIE_STAT_LINKUP, 1)] with pcie := ⟨true, true, true, 1, false, 0⟩, msiHeld := [3, 5] }
    let host : State := { sets State.reset [(PCIE_STAT_LINKUP, 1)] with loader := { State.reset.loader with phase := .sync, source := .host } }
    checks [
    up.decodes ∧ up.awake, gives (.pcieMemoryWrite 0 ⟨[(0xF, 9)], 0⟩ false) up (fun u => u.word 0x10000000 == 9),
    gives (.pcieMemoryRead 0x3C00000 1) up (fun u => u.outbox == [.message "CPLD" [(run.reg 0x40000000).toNat]]), gives (.pcieMemoryWrite 0 ⟨[], 0⟩ true) up (fun u => u.fb PCIE_IRQ_STAT_POISON),
    host.decodes = false, gives (.pcieMemoryRead 0 1) host (fun u => u.fld PCIE_CNT_UR == 1), gives .unsupportedRequest up (fun u => u.fld PCIE_CNT_UR == 1), same .unsupportedRequest run run,
    up.msiOpen, gives .msiRelease up (fun u => u.msiHeld == [] && u.outbox == [.msi 0, .msi 0]), run.msiOpen = false, gives .perst up (fun u => u.pcie.perst && !u.locked 4 && u.msiHeld == []),
    gives .perstNRelease { run with pcie := ⟨false, false, false, 1, true, 0⟩ } (fun u => !u.pcie.perst), run.locked 4 ∧ run.pcie.perst = false,
    gives (.pcieLinkTrained true) run (fun u => u.fb PCIE_STAT_LINKUP && u.fb PCIE_STAT_GEN2), gives .linkDown up (fun u => !u.fb PCIE_STAT_LINKUP && u.fb PCIE_IRQ_STAT_LINKDOWN),
    gives (.pcieConfigRequest ⟨true, 0xFFFFFFFF, none⟩ true true false 3) up (fun u => u.pcie.grant == 8 && u.fld PCIE_STAT_MSIGRANT == 3 && u.pcie.bar == 0xFC000000),
    gives (.pcieConfigRequest ⟨true, 0, some 0⟩ true true false 3) up (fun u => u.outbox == [.message "CPL" [0, 0x82561F4C]]), gives (.pcieConfigRequest ⟨true, 0, some 4⟩ true true false 3) up (fun u => u.outbox == [.message "CPL" [4, 0]]),
    gives (.pcieConfigRequest ⟨true, 0, none⟩ false false false 0) host (fun u => u.loader.deadline == some 0), same (.pcieConfigRequest ⟨true, 0, none⟩ false false false 0) run run, up.busRuns] = true := by decide +kernel

theorem witness_MaintenancePortKeepsTheLifeCycle :
    let at_ (st : Nat) (v : Option Nat) : State := { run with lc := { run.lc with st := st, service := v } }
    let sec : State := (at_ 2 (some 9)).setReg (CFG_SECENG_at 7) 0x80000000
    let a : Word := 0xFF000
    let replies (c : Instr) (s : State) (p : Nat → Bool) : Bool := gives c s (fun u => match u.outbox with | [.message "MP" [st, _, _]] => p st | _ => false)
    checks [
    (at_ 0 none).lc.state = 0, replies (.mpRead SAFE_FRSTAT_at (mpSum 1 [SAFE_FRSTAT_at])) (at_ 0 none) (· != 1), replies (.debugHalt a (mpSum 16 [a])) (at_ 1 none) (· != 1), sec.lc.state = 3 ∧ sec.secure 255,
    replies (.debugHalt a (mpSum 16 [a])) sec (· == 1), replies (.debugHalt 0 (mpSum 16 [0])) sec (· != 1), replies (.mpRead (BitVec.ofNat 32 (SAFE_FREC_at 15 7)) (mpSum 1 [(BitVec.ofNat 32 (SAFE_FREC_at 15 7))])) (at_ 2 none) (· != 1),
    replies (.mpRead 0x40000000 (mpSum 1 [0x40000000])) (at_ 2 none) (· == 1), replies (.mpWrite 0 ⟨0, false⟩ (mpSum 2 [0, 0])) (at_ 2 none) (· == 1), replies (.rdreg a (mpSum 21 [a])) (at_ 2 none) (· == 1),
    replies (.mpRead SAFE_FRSTAT_at (mpSum 1 [SAFE_FRSTAT_at])) (at_ 4 none) (· == 1)] = true := by decide +kernel

theorem witness_MaintenancePortActs :
    let a : Word := 0xFFF00
    let live := run.setChan 4095 { chanReset with st := .running }
    let stop := run.setChan 4095 { chanReset with st := .running, stop := some 0 }
    let replies (c : Instr) (s : State) (code : Nat) (d : Word) : Bool := gives c s (fun u => u.outbox.getLast? == some (.message "MP" (mpAnswer code d)))
    checks [
    run.lc.state = 0 ∧ run.mpRuns ∧ run.fld PAIR_STAT_ROLE = 0 ∧ faultPath 0x40000000 = false ∧ (run.busRead 404 0x40000000 4).2.2 ≠ .refused,
    replies (.mpRead 0x40000000 (mpSum 1 [0x40000000])) run 0 (run.reg 0x40000000), (run.busRead 404 0x14000000 4).2.2 = .refused, replies (.mpRead 0x14000000 (mpSum 1 [0x14000000])) run 2 0,
    replies (.mpWrite 0x10000000 ⟨5, false⟩ (mpSum 2 [0x10000000, 5])) run 0 0, replies .mpTimeout run 5 0, replies (.mpRead 0 (mpSum 1 [1])) run 3 0, replies (.debugHalt 1 (mpSum 16 [1])) run 7 0, (live.slotOf 255 15).st.live,
    replies (.debugHalt a (mpSum 16 [a])) live 0 0, replies (.debugHalt a (mpSum 16 [a])) run 4 0, replies (.debugResume a (mpSum 17 [a])) stop 0 0, gives (.debugStep a (mpSum 18 [a])) stop (fun u => (u.chanOf 4095).resume == some true),
    State.reset.mpRuns = false ∧ faultPath (SAFE_FREC_at 15 7), replies (.mpRead 0x40000000 (mpSum 1 [0x40000000])) State.reset 5 0,
    replies (.debugResume a (mpSum 17 [a])) live 4 0, gives (.brkset a 0x80000007 (mpSum 0x13 [a, 0x80000007])) live (fun u => (u.engOf 255).bp == some (15, 7) && (u.engOf 255).brk),
    gives (.brkclr 0xFF000 (mpSum 20 [0xFF000])) live (fun u => (u.engOf 255).bp.isNone), replies (.rdreg 0xFFF0F (mpSum 21 [0xFFF0F])) stop 0 0,
    gives (.wrreg 0xFFF0F 9 (mpSum 0x16 [0xFFF0F, 9])) stop (fun u => (u.chanOf 4095).bank.val 15 == 9)] = true := by decide +kernel

theorem witness_SuppliesResetsAndStandbyAct :
    let off : State := { State.reset with pwr := { State.reset.pwr with railsUp := false } }
    let up : State := { State.reset with pwr := { State.reset.pwr with railsUp := true } }
    let wd : State := { up with safe := { State.reset.safe with wdReset := true } }
    let can (l : List (RF × Nat)) : State := sets run ([(CLK_WAKECFG_EN, 0xA)] ++ l)
    let ph (p : StandbyPhase) (s : State) : State := { s with pwr := { s.pwr with phase := p } }
    let cmp (e : Nat) : State := (sets run [(CLK_WAKECFG_EN, e), (CMP_CFG_MODE 15 3, 1), (CMP_STAT_ON 15 3, 1), (CMP_WAKE_WAKEEN 15, 8)]).setCmp 63 ⟨true, [], false⟩
    let woke : State := { ph .waking run with tb := { run.tb with now := 300, edge := 200 } }
    let batt : State := { run with pwr := { run.pwr with avdd := false, vbat := true }, lc := { run.lc with keyRam := some [] } }
    let none_ : State := { run with pwr := { run.pwr with avdd := false, vbat := false } }
    checks [
    off.pwr.railsUp = false,
    gives (.railFall 4) run (fun u => u.pwr.held && !u.locked 0 && !u.pwr.released), run.pwr.railsUp ∧ run.pwr.held = false,
    up.pwr.held ∧ up.pwr.railsUp ∧ up.lc.st ≠ 4 ∧ up.part.modePins ≤ 4,
    wd.safe.wdReset ∧ wd.pwr.held ∧ wd.pwr.railsUp,
    (run.offBit CLK_STAT_LOCK 1).pllStarted 1 ∧ (run.offBit CLK_STAT_LOCK 1).locked 1 = false, gives (.pllLock 1) (run.offBit CLK_STAT_LOCK 1) (fun u => u.locked 1),
    State.reset.pllStarted 1 = false, run.locked 0, run.locked 3,
    gives (.pllUnlock 4) run (fun u => !u.locked 4), (can []).attarState = 0 ∧ (can []).fb PR_STAT_BUSY = false ∧ (can []).snap = none ∧ (can []).pwr.phase = .run,
    gives (.standbyRequest 0x53420001) (can []) (fun u => u.pwr.phase == .armed), gives (.standbyRequest 0x53420001) (can [(PR_STAT_BUSY, 1)]) (fun u => u.fb CLK_IRQ_STAT_STBYREF),
    gives .standbyEntry (ph .armed run) (fun u => u.pwr.phase == .standby && !u.locked 1 && !u.locked 3), gives (.wake 8 0) (ph .standby (can [])) (fun u => u.pwr.phase == .waking),
    (ph .waking State.reset).relocked = false, same .resumeBoundary (ph .waking run) (ph .waking run), same .standbyEntry { ph .armed run with pwr := { (ph .armed run).pwr with standbyAt := 7 } } { ph .armed run with pwr := { (ph .armed run).pwr with standbyAt := 7 } },
    gives (.wake 1 0x8000000000000000) (ph .standby (cmp 1)) (fun u => u.pwr.phase == .waking && u.fbit (CMP_WAKE_WOKE 15) 3), same (.wake 1 1) (ph .standby (cmp 1)) (ph .standby (cmp 1)),
    gives (.wake 4 0) (ph .standby (sets run [(CLK_WAKECFG_EN, 4)])) (fun u => u.fld CLK_WAKESTAT_SRC == 4),
    woke.relocked ∧ 200 ≤ (woke.tb.edge - woke.pwr.since).toInt, gives .resumeBoundary woke (fun u => u.pwr.phase == .run && u.fb CLK_IRQ_STAT_WAKE),
    gives .batteryDomainLoss batt (fun u => u.lc.keyRam.isNone && u.pwr.battLost), run.pwr.avdd, gives .batteryDomainReturn none_ (fun u => u.pwr.vbat)] = true := by decide +kernel

/-! ## Single checks -/

/-- SHA-256 of "abc" is that of FIPS 180-4. -/
theorem test_sha256 : sha256 [0x61, 0x62, 0x63] = bytesOf 32 0xba7816bf8f01cfea414140de5dae2223b00361a396177a9cb410ff61f20015ad := by
  decide +kernel

/-- A signature made outside the model over words 0 to 15 of AUTH, with the private key of RFC 6979 A.2.5. -/
theorem witness_TheLoaderParsesAnImage_signed :
    let auth : List Word := [1, State.reset.reg SYS_ID_at, 77, 63] ++ List.replicate 12 0 ++ pubKey ++
      [0xD1E4CB5E, 0x440A33A6, 0x95EFF7C8, 0x65F14B1D, 0x21B7C6E6, 0x85A9ADEF, 0x1B6641FB, 0x6CFDE7C6] ++
      [0x1F600C4A, 0x40BF0DBE, 0x81CB3CB9, 0xED203D12, 0xBE7C935E, 0x44871B2A, 0xBB4F9654, 0xB86B9BBE]
    gives (.authCheckDone () ()) { loading .checks (fun x => { x with auth := auth }) with
      lc := { State.reset.lc with st := 2, minver := 63, imgKey := some keyHash } } (fun u =>
        u.loader.phase == .body && u.reg CFG_IMGID_at == 77 && u.fld CFG_SECVER_SECVER == 63 && u.fb CFG_STAT_SIGNED) = true := by decide +kernel

/-- A block of two words enciphered outside the model. -/
theorem witness_TheLoaderParsesAnImage_block :
    gives (.keyselBlock ⟨[0x19AC5C7D, 0x70FE223D, 0xA2986196, 0x37EAA699, 0x11E47413, 0xF2E21543], true⟩)
      { loading .body (fun x => { x with left := 8, blocks := 1, secLen := 8, keySrc := 2, auth := List.replicate 16 0 }) with
        lc := { State.reset.lc with keyRam := some (List.replicate 8 5) } }
      (fun u => u.loader.plain == [1, 2] && u.loader.blocks == 0) = true := by decide +kernel

/-- A token signed outside the model with the private key of RFC 6979 A.2.5. -/
theorem witness_LifeCycleCommandsRunOrAreRefused_token :
    let token : List Word := List.replicate 10 0 ++ [State.reset.reg SYS_ID_at, 3] ++ pubKey ++
      [0xD1E4CB5E, 0x440A33A6, 0x95EFF7C8, 0x65F14B1D, 0x21B7C6E6, 0x85A9ADEF, 0x1B6641FB, 0x6CFDE7C6] ++
      [0xEAE7C7D4, 0x5617EFA9, 0x55A4290D, 0x89154CFE, 0xCCB10A7C, 0xFA4B5431, 0x7A83D204, 0x28801B61]
    ({ State.reset with lc := { State.reset.lc with st := 2, svcKey := some keyHash } } : State).tokenOk token = true := by decide +kernel

theorem witness_TestsAndScrubbingFindFaults_signature : tester.istOn 1 = true ∧ tester.istTile 255 = true ∧
    min 240 (Config.programCycles (tget 0 tester.ist.prog 255)) + 18 ≤ tester.sectLeft 15 ∧ tget 0 tester.ist.prog 255 < 15 ∧
    ~~~Config.signature 0 ≠ Config.signature 0 :=
  ⟨by decide +kernel, by decide +kernel, Nat.le_trans (Nat.add_le_add_right (Nat.min_le_left _ _) 18) (by decide +kernel), by decide +kernel,
    fun h => by simpa using congrArg (fun x : Word => x.getLsbD 0) h⟩


end Sys2Proof.Tests
end

section
/-! PROOFS. Every command answers a next state. -/

namespace Sys2Proof.Machine

/-- Settles O7: every arm of `exec` ends its command with `done`, which answers a next state. -/
theorem everyCommandAnswersANextState : Obligations.EveryCommandAnswersANextState := by
  intro c s
  cases c <;> exact ⟨_, rfl⟩

end Sys2Proof.Machine
end

section
/-! PROOFS. Reads of fields after writes, what the end of a command leaves, and what a message to the partner leaves. -/

namespace Sys2Proof.Machine

/-! ### Fields -/

/-- Storing a field leaves the fields of other bits of the same word. -/
theorem RF.get_put_disjoint (f g : RF) (w : Word) (v : Nat) (h : g.hi < f.lo ∨ f.hi < g.lo) (h2 : g.lo ≤ g.hi) :
    g.get (f.put w v) = g.get w := by
  have clear : ∀ x, x < 2 ^ (f.hi + 1 - f.lo) → ∀ i, i < g.hi + 1 - g.lo →
      (BitVec.ofNat 32 (x * 2 ^ f.lo)).getLsbD (g.lo + i) = false := fun x hx i hi => by
    rw [BitVec.getLsbD_ofNat, Nat.testBit_mul_two_pow]
    by_cases hl : f.lo ≤ g.lo + i
    · rw [Nat.testBit_lt_two_pow (hx.trans_le (Nat.pow_le_pow_right Nat.two_pos (by omega)))]
      simp
    · simp [hl]
  apply Nat.eq_of_testBit_eq
  intro i
  unfold RF.get RF.put RF.mask bits
  simp only [Nat.testBit_mod_two_pow, Nat.testBit_div_two_pow, Nat.add_comm i g.lo, BitVec.testBit_toNat, BitVec.getLsbD_or,
    BitVec.getLsbD_and, BitVec.getLsbD_not]
  by_cases hi : i < g.hi + 1 - g.lo
  · rw [clear _ (by have := Nat.two_pow_pos (f.hi + 1 - f.lo); omega) i hi, clear _ (Nat.mod_lt _ (Nat.two_pow_pos _)) i hi]
    by_cases h32 : g.lo + i < 32
    · simp [h32]
    · simp [BitVec.getLsbD_of_ge _ _ (Nat.le_of_not_lt h32)]
  · simp [hi]

variable (s : State)

/-- A stored field reads as the stored value, cut to its width. -/
theorem State.fld_setFld_same (f : RF) (v : Nat) (h : f.lo ≤ f.hi ∧ f.hi < 32) : (s.setFld f v).fld f = v % 2 ^ (f.hi + 1 - f.lo) := by
  unfold State.fld State.setFld
  rw [State.reg_setReg_same, RF.get_put _ _ _ h.1 h.2]

/-- A field of another register, or of other bits of the same one, is what it was. -/
theorem State.fld_setFld_apart (f g : RF) (v : Nat) (h : g.addr ≠ f.addr ∨ g.lo ≤ g.hi ∧ (g.hi < f.lo ∨ f.hi < g.lo)) :
    (s.setFld f v).fld g = s.fld g := by
  by_cases ha : g.addr = f.addr
  · obtain ⟨hg, hd⟩ := h.resolve_left (fun n => n ha)
    unfold State.fld State.setFld
    rw [ha, State.reg_setReg_same, RF.get_put_disjoint _ _ _ _ hd hg]
  · exact s.fld_setFld_other f g v ha

theorem State.fld_setReg_other (f : RF) (a : Nat) (w : Word) (h : f.addr ≠ a) : (s.setReg a w).fld f = s.fld f := by
  unfold State.fld; rw [State.reg_setReg_other _ _ _ _ h]

/-- A field that is its whole register reads as the register's word. -/
theorem RF.get_whole (a : Nat) (w : Word) : (RF.mk a 31 0).get w = w.toNat := by
  unfold RF.get bits
  simpa using Nat.mod_eq_of_lt w.isLt

/-! ### The end of a command -/

@[simp] theorem settle_reg (t : State) (a : Nat) : (settle s t).reg a = t.reg a := by
  unfold State.reg; rw [settle_regs]

@[simp] theorem settle_fld (t : State) (f : RF) : (settle s t).fld f = t.fld f := by
  unfold State.fld; rw [settle_reg]

@[simp] theorem settle_fb (t : State) (f : RF) : (settle s t).fb f = t.fb f := by
  unfold State.fb; rw [settle_fld]

@[simp] theorem settle_byte (t : State) (a : Nat) : (settle s t).byte a = t.byte a := by
  unfold State.byte; rw [settle_mem]

/-- What a command sends has left the device when it ends. -/
theorem mem_outbox_settle {t : State} {o : Output} (h : o ∈ t.outbox) : o ∈ (settle s t).outbox := by
  have kept : t.keepPads.fresh.outbox = t.outbox := rfl
  unfold settle State.sendMsi
  split
  · exact kept ▸ h
  · split
    · exact List.mem_append_left _ (kept ▸ h)
    · exact kept ▸ h

/-! ### What a message to the partner leaves (R295, R308) -/

theorem State.sendPackets_same (kind : String) (ws : List Nat) : ∃ o p, s.sendPackets kind ws = { s with outbox := o, pair := p } := by
  unfold State.sendPackets
  refine List.foldlRecOn (motive := fun (x : State) => ∃ o p, x = { s with outbox := o, pair := p }) _ _ ⟨s.outbox, s.pair, rfl⟩ ?_
  rintro x ⟨o, p, rfl⟩ i -
  exact ⟨_, _, rfl⟩

/-- A message to the partner changes what has left the device, the pair, and the register that shows the transmit queue. -/
theorem State.toPartner_same (kind : String) (ws : List Nat) : ∃ o p r, s.toPartner kind ws = { s with outbox := o, pair := p, regs := r } ∧
    ∀ b, b ≠ PAIR_TXQ_at → tget (rstWord b) r b = s.reg b := by
  have unchanged : ∃ o p r, s = { s with outbox := o, pair := p, regs := r } ∧ ∀ b, b ≠ PAIR_TXQ_at → tget (rstWord b) r b = s.reg b :=
    ⟨s.outbox, s.pair, s.regs, rfl, fun _ _ => rfl⟩
  unfold State.toPartner
  split
  · unfold State.queuePacket
    dsimp only
    split
    · exact ⟨s.outbox, _, s.regs, rfl, fun _ _ => rfl⟩
    · obtain ⟨o, p, e⟩ := State.sendPackets_same
        { s with pair := { s.pair with txq := s.txLevel + packetSize ws, txAt := s.tb.now } } kind ws
      rw [e]
      exact ⟨o, p, _, rfl, fun b hb => tget_tset_other _ _ _ _ _ _ hb⟩
  · exact unchanged

theorem State.toPartner_reg (kind : String) (ws : List Nat) (b : Nat) (h : b ≠ PAIR_TXQ_at) : (s.toPartner kind ws).reg b = s.reg b := by
  obtain ⟨o, p, r, e, hr⟩ := s.toPartner_same kind ws
  rw [e]; exact hr b h

theorem State.toPartner_fld (kind : String) (ws : List Nat) (f : RF) (h : f.addr ≠ PAIR_TXQ_at) : (s.toPartner kind ws).fld f = s.fld f := by
  unfold State.fld; rw [State.toPartner_reg _ _ _ _ h]

@[simp] theorem State.toPartner_mem (kind : String) (ws : List Nat) : (s.toPartner kind ws).mem = s.mem := by
  obtain ⟨o, p, r, e, -⟩ := s.toPartner_same kind ws
  rw [e]

@[simp] theorem State.toPartner_attar (kind : String) (ws : List Nat) : (s.toPartner kind ws).attar = s.attar := by
  obtain ⟨o, p, r, e, -⟩ := s.toPartner_same kind ws
  rw [e]

end Sys2Proof.Machine
end

section
/-! PROOFS. Bytes and words of memory: what an aligned access of an error-free word stores and answers (O18). -/

namespace Sys2Proof.Machine

variable (s : State)

/-! ### Bytes, numbers and words of memory (R5) -/

/-- A number is read from its bytes alone. -/
theorem State.load_congr (t : State) (a n : Nat) (h : ∀ i, i < n → s.byte (a + i) = t.byte (a + i)) : s.load a n = t.load a n := by
  induction n generalizing a with
  | zero => rfl
  | succ n ih =>
    have first : s.byte a = t.byte a := h 0 (by omega)
    have rest : s.load (a + 1) n = t.load (a + 1) n := ih _ fun i hi => by
      have e := h (i + 1) (by omega)
      rwa [show a + (i + 1) = a + 1 + i by omega] at e
    simp only [State.load, first, rest]

theorem State.load_lt (a n : Nat) : s.load a n < 256 ^ n := by
  induction n generalizing a with
  | zero => simp [State.load]
  | succ n ih =>
    have rest := ih (a + 1)
    have first := (s.byte a).isLt
    simp only [State.load, Nat.pow_succ]
    omega

/-- The bytes of a number above its lowest `k` are the number that starts `k` bytes up. -/
theorem State.load_div (a k n : Nat) : s.load a (k + n) / 256 ^ k = s.load (a + k) n := by
  induction k generalizing a with
  | zero => simp
  | succ k ih =>
    have first := (s.byte a).isLt
    rw [show k + 1 + n = k + n + 1 by omega, State.load, Nat.pow_succ', ← Nat.div_div_eq_div_mul,
      show ((s.byte a).toNat + 256 * s.load (a + 1) (k + n)) / 256 = s.load (a + 1) (k + n) by omega, ih]
    congr 1; omega

/-- The lowest `k` bytes of a number are the number that ends after them. -/
theorem State.load_mod (a k n : Nat) : s.load a (k + n) % 256 ^ k = s.load a k := by
  induction k generalizing a with
  | zero => simp [State.load, Nat.mod_one]
  | succ k ih =>
    have first := (s.byte a).isLt
    rw [show k + 1 + n = k + n + 1 by omega, State.load, Nat.pow_succ', Nat.mod_mul,
      show ((s.byte a).toNat + 256 * s.load (a + 1) (k + n)) / 256 = s.load (a + 1) (k + n) by omega, ih,
      show ((s.byte a).toNat + 256 * s.load (a + 1) (k + n)) % 256 = (s.byte a).toNat by omega, State.load]

/-- `n` bytes inside a number of `k + n + r` bytes. -/
theorem State.load_part (a k n r : Nat) : s.load a (k + (n + r)) / 256 ^ k % 256 ^ n = s.load (a + k) n := by
  rw [State.load_div, State.load_mod]

/-- A byte that a number is stored in. -/
theorem State.byte_store_same (a n v i : Nat) (h : i < n) : (s.store a n v).byte (a + i) = BitVec.ofNat 8 (v / 256 ^ i) := by
  induction n generalizing s a v i with
  | zero => omega
  | succ n ih =>
    show ((s.setByte a (BitVec.ofNat 8 v)).store (a + 1) n (v / 256)).byte (a + i) = _
    cases i with
    | zero =>
      rw [State.byte_store_other _ _ _ _ _ (by omega)]
      simp
    | succ i =>
      rw [show a + (i + 1) = a + 1 + i by omega, ih _ _ _ _ (by omega), Nat.div_div_eq_div_mul, Nat.pow_succ']

/-- The word at an address is what has been written there. -/
theorem State.word_setWord (a : Nat) (w : Word) : (s.setWord a w).word a = w := by
  unfold State.word State.setWord
  rw [State.load_store, Nat.mod_eq_of_lt (show w.toNat < 256 ^ 4 from w.isLt), BitVec.ofNat_toNat, BitVec.setWidth_eq]

theorem State.toNat_word (a : Nat) : (s.word a).toNat = s.load a 4 := by
  simpa [State.word] using Nat.mod_eq_of_lt (s.load_lt a 4)

/-- A byte of a word of memory. -/
theorem State.word_byte (a i : Nat) (h : i < 4) : (s.word a).extractLsb' (8 * i) 8 = s.byte (a + i) := by
  apply BitVec.eq_of_toNat_eq
  have part : s.load a 4 / 256 ^ i % 256 ^ 1 = s.load (a + i) 1 := by
    rw [show (4 : Nat) = i + (1 + (3 - i)) by omega, State.load_part]
  rw [BitVec.extractLsb'_toNat, State.toNat_word, Nat.shiftRight_eq_div_pow, Nat.pow_mul]
  simpa [State.load] using part

/-- A byte of a word that has been written. -/
theorem State.byte_setWord_same (a i : Nat) (w : Word) (h : i < 4) : (s.setWord a w).byte (a + i) = w.extractLsb' (8 * i) 8 := by
  rw [← State.word_byte _ _ _ h, State.word_setWord]

theorem State.byte_setWord_other (a x : Nat) (w : Word) (h : x < a ∨ a + 4 ≤ x) : (s.setWord a w).byte x = s.byte x :=
  s.byte_store_other a 4 _ x h

/-- A byte of a word whose lanes `k` to `k + size - 1` have taken the bytes of `v` (R214). -/
theorem lanes_byte (w : Word) (k size v i : Nat) (hi : i < 4) :
    ((w &&& ~~~laneMask k size) ||| BitVec.ofNat 32 (v % 2 ^ (8 * size) * 2 ^ (8 * k))).extractLsb' (8 * i) 8 =
      if k ≤ i ∧ i < k + size then BitVec.ofNat 8 (v / 256 ^ (i - k)) else w.extractLsb' (8 * i) 8 := by
  apply BitVec.eq_of_getLsbD_eq
  intro j hj
  have mask : (laneMask k size).getLsbD (8 * i + j) = decide (k ≤ i ∧ i < k + size) := by
    unfold laneMask
    rw [BitVec.getLsbD_ofNat, Nat.testBit_mul_two_pow, Nat.testBit_two_pow_sub_one, Bool.eq_iff_iff]
    simp only [Bool.and_eq_true, decide_eq_true_eq]
    omega
  have value : (BitVec.ofNat 32 (v % 2 ^ (8 * size) * 2 ^ (8 * k))).getLsbD (8 * i + j) =
      (decide (k ≤ i ∧ i < k + size) && v.testBit (8 * (i - k) + j)) := by
    rw [BitVec.getLsbD_ofNat, Nat.testBit_mul_two_pow, Nat.testBit_mod_two_pow]
    by_cases hin : k ≤ i ∧ i < k + size
    · rw [show 8 * i + j - 8 * k = 8 * (i - k) + j by omega]
      simp [hin, show 8 * i + j < 32 by omega, show 8 * k ≤ 8 * i + j by omega, show 8 * (i - k) + j < 8 * size by omega]
    · rw [decide_eq_false hin, Bool.false_and, Bool.and_eq_false_iff, Bool.and_eq_false_iff, Bool.and_eq_false_iff]
      simp only [decide_eq_false_iff_not]
      omega
  have byte : (BitVec.ofNat 8 (v / 256 ^ (i - k))).getLsbD j = v.testBit (8 * (i - k) + j) := by
    rw [BitVec.getLsbD_ofNat, show (256 : Nat) ^ (i - k) = 2 ^ (8 * (i - k)) by rw [Nat.pow_mul], Nat.testBit_div_two_pow,
      Nat.add_comm]
    simp [hj]
  rw [BitVec.getLsbD_extractLsb', BitVec.getLsbD_or, BitVec.getLsbD_and, BitVec.getLsbD_not, mask, value]
  by_cases hin : k ≤ i ∧ i < k + size
  · rw [if_pos hin, byte]
    simp [hin, hj]
  · rw [if_neg hin, BitVec.getLsbD_extractLsb']
    simp [hin, hj, show 8 * i + j < 32 by omega]

/-! ### Accesses of words with no inverted bit (R209, R210) -/

/-- An access that meets a window under test changes the tester and its register of counts. -/
theorem State.touch_same (a : Nat) : ∃ i r, s.touch a = { s with ist := i, regs := r } ∧
    ∀ b, b ≠ IST_CNT_at → tget (rstWord b) r b = s.reg b := by
  have unchanged : ∃ i r, s = { s with ist := i, regs := r } ∧ ∀ b, b ≠ IST_CNT_at → tget (rstWord b) r b = s.reg b :=
    ⟨s.ist, s.regs, rfl, fun _ _ => rfl⟩
  unfold State.touch
  split
  · next tile k _ =>
    split
    · exact unchanged
    · cases tile <;> exact ⟨_, _, rfl, fun b hb => tget_tset_other _ _ _ _ _ _ hb⟩
  · exact unchanged

@[simp] theorem State.touch_mem (a : Nat) : (s.touch a).mem = s.mem := by
  obtain ⟨i, r, e, -⟩ := s.touch_same a
  rw [e]

@[simp] theorem State.touch_ecc (a : Nat) : (s.touch a).ecc = s.ecc := by
  obtain ⟨i, r, e, -⟩ := s.touch_same a
  rw [e]

theorem State.touch_reg (a b : Nat) (h : b ≠ IST_CNT_at) : (s.touch a).reg b = s.reg b := by
  obtain ⟨i, r, e, hr⟩ := s.touch_same a
  rw [e]; exact hr b h

variable {s}

theorem State.byte_of_mem {t : State} (h : t.mem = s.mem) (x : Nat) : t.byte x = s.byte x := by
  unfold State.byte; rw [h]

theorem State.load_of_mem {t : State} (h : t.mem = s.mem) (a n : Nat) : t.load a n = s.load a n :=
  t.load_congr s a n fun _ _ => State.byte_of_mem h _

theorem State.word_of_mem {t : State} (h : t.mem = s.mem) (a : Nat) : t.word a = s.word a := by
  unfold State.word; rw [State.load_of_mem h]

theorem State.setWord_of_mem {t : State} (h : t.mem = s.mem) (a : Nat) (w : Word) : (t.setWord a w).mem = (s.setWord a w).mem := by
  simp only [State.setWord, State.store, State.setByte, h]

theorem State.flipCount_of_ecc {t : State} (h : t.ecc = s.ecc) (a : Nat) : t.flipCount a = s.flipCount a := by
  unfold State.flipCount State.flips; rw [h]

theorem State.readWord_good {a : Nat} (h : s.flipCount a = 0) : s.readWord a = (s, s.word a, false) := by
  unfold State.readWord; rw [h]; rfl

theorem State.mergeWord_mem {a : Nat} (f : Word → Word) (h : s.flipCount a = 0) :
    (s.mergeWord a f).mem = (s.setWord a (f (s.word a))).mem := by
  unfold State.mergeWord
  rw [State.readWord_good h]
  rfl

/-- A read-modify-write of an error-free word behind an access that may meet a window under test. -/
theorem State.mergeWord_touch_mem {a : Nat} (b : Nat) (f : Word → Word) (h : s.flipCount a = 0) :
    ((s.touch b).mergeWord a f).mem = (s.setWord a (f (s.word a))).mem := by
  rw [State.mergeWord_mem _ (by rwa [State.flipCount_of_ecc (s.touch_ecc b)]), State.setWord_of_mem (s.touch_mem b),
    State.word_of_mem (s.touch_mem b)]

theorem State.writeWord_mem (a : Nat) (w : Word) : (s.writeWord a w).mem = (s.setWord a w).mem := by
  unfold State.writeWord State.inject
  dsimp only
  split
  · split <;> rfl
  · rfl

/-- An access of one word, as `memWrite` makes it on the touched state: its memory is that of the word written. -/
theorem State.memWrite_word_mem (m v : Nat) (h : m % 4 = 0) : (s.memWrite 0 m 4 v).mem = (s.setWord m (BitVec.ofNat 32 v)).mem := by
  unfold State.memWrite
  simp only [h, if_true, Nat.sub_zero]
  rw [State.writeWord_mem, State.setWord_of_mem (s.touch_mem m)]

/-- A byte or halfword write of an error-free word puts the bytes into their lanes. -/
theorem State.memWrite_part_mem (m size v : Nat) (hs : size ≠ 4) (hf : s.flipCount (m - m % 4) = 0) :
    (s.memWrite 0 m size v).mem = (s.setWord (m - m % 4)
      ((s.word (m - m % 4) &&& ~~~laneMask (m % 4) size) ||| BitVec.ofNat 32 (v % 2 ^ (8 * size) * 2 ^ (8 * (m % 4))))).mem := by
  unfold State.memWrite
  simp only [hs, if_false]
  exact State.mergeWord_touch_mem m _ hf

/-- A state whose memory is that of a written word reads the word there and every other byte as before. -/
theorem State.wrote_word {u : State} {a : Nat} {w : Word} (h : u.mem = (s.setWord a w).mem) :
    u.word a = w ∧ ∀ x, x < a ∨ a + 4 ≤ x → u.byte x = s.byte x :=
  ⟨(State.word_of_mem h a).trans (s.word_setWord a w), fun x hx => (State.byte_of_mem h x).trans (s.byte_setWord_other a x w hx)⟩

/-- A word whose lanes `k` to `k + size - 1` carry the bytes of `v`, and whose others are those of memory, stores those bytes. -/
theorem State.setWord_lanes_byte {a k size v : Nat} {w : Word} (hk : k + size ≤ 4) (hw : ∀ i, i < 4 → w.extractLsb' (8 * i) 8 =
    if k ≤ i ∧ i < k + size then BitVec.ofNat 8 (v / 256 ^ (i - k)) else s.byte (a + i)) (x : Nat) :
    (s.setWord a w).byte x = (s.store (a + k) size v).byte x := by
  by_cases hx : x < a ∨ a + 4 ≤ x
  · rw [State.byte_setWord_other _ _ _ _ hx, State.byte_store_other _ _ _ _ _ (by omega)]
  · obtain ⟨i, rfl⟩ : ∃ i, x = a + i := ⟨x - a, by omega⟩
    rw [State.byte_setWord_same _ _ _ _ (by omega), hw i (by omega)]
    split
    · next hin => rw [show a + i = a + k + (i - k) by omega, State.byte_store_same _ _ _ _ _ (by omega)]
    · next hout => rw [State.byte_store_other _ _ _ _ _ (by omega)]

/-- A write through the normal view stores exactly the addressed bytes (R5, R214). -/
theorem State.memWrite_byte {m size : Nat} (v : Nat) (hs : size = 1 ∨ size = 2 ∨ size = 4) (ha : m % size = 0)
    (hf : size = 4 ∨ s.flipCount (m - m % 4) = 0) (x : Nat) : (s.memWrite 0 m size v).byte x = (s.store m size v).byte x := by
  by_cases h4 : size = 4
  · subst h4
    rw [State.byte_of_mem (s.memWrite_word_mem m v ha)]
    refine State.setWord_lanes_byte (k := 0) (Nat.le_refl _) (fun i hi => ?_) x
    have cut : BitVec.ofNat 32 (v % 2 ^ 32) = BitVec.ofNat 32 v := BitVec.eq_of_toNat_eq (by simp)
    rw [← cut]
    simpa [hi] using lanes_byte 0 0 4 v i hi
  · have inside : m % 4 + size ≤ 4 := by rcases hs with rfl | rfl | rfl <;> omega
    have lanes := State.setWord_lanes_byte (s := s) (a := m - m % 4) (v := v) inside (fun i hi => (lanes_byte _ _ _ _ i hi).trans
      (by rw [State.word_byte _ _ _ hi])) x
    rw [State.byte_of_mem (s.memWrite_part_mem m size v h4 (hf.resolve_left h4)), lanes, Nat.sub_add_cancel (Nat.mod_le m 4)]

/-- A word rotated right by `r` shows its bits from `r` up at the bottom. -/
theorem rotateRight_mod (w : Word) (r n : Nat) (h : r + n ≤ 32) : (w.rotateRight r).toNat % 2 ^ n = w.toNat / 2 ^ r % 2 ^ n := by
  apply Nat.eq_of_testBit_eq
  intro i
  rw [Nat.testBit_mod_two_pow, Nat.testBit_mod_two_pow, Nat.testBit_div_two_pow, BitVec.testBit_toNat, BitVec.testBit_toNat]
  by_cases hi : i < n
  · rw [BitVec.getLsbD_rotateRight, Nat.mod_eq_of_lt (by omega : r < 32), decide_eq_true (by omega : i < 32 - r), cond_true,
      Nat.add_comm]
  · simp [hi]

/-- An aligned read of an error-free word answers the bytes at its address (R5, R214). -/
theorem State.memRead_value {m size : Nat} (hs : size = 1 ∨ size = 2 ∨ size = 4) (ha : m % size = 0) (hf : s.flipCount (m - m % 4) = 0) :
    (s.memRead m size).2.1 = s.load m size := by
  have inside : m % 4 + size ≤ 4 := by rcases hs with rfl | rfl | rfl <;> omega
  have part := s.load_part (m - m % 4) (m % 4) size (4 - m % 4 - size)
  rw [Nat.sub_add_cancel (Nat.mod_le m 4), show m % 4 + (size + (4 - m % 4 - size)) = 4 by omega] at part
  unfold State.memRead
  dsimp only
  rw [State.readWord_good (by rwa [State.flipCount_of_ecc (s.touch_ecc m)]), State.word_of_mem (s.touch_mem m)]
  dsimp only
  rw [rotateRight_mod _ _ _ (by omega), State.toNat_word, Nat.pow_mul, Nat.pow_mul]
  exact part

/-- A read of an error-free word changes what an access of a window under test changes, and no more. -/
theorem State.memRead_state {m : Nat} (size : Nat) (hf : s.flipCount (m - m % 4) = 0) : (s.memRead m size).1 = s.touch m := by
  unfold State.memRead
  dsimp only
  rw [State.readWord_good (by rwa [State.flipCount_of_ecc (s.touch_ecc m)])]

/-- Settles O18: the bytes after a write are those of storing the number, and a read of an error-free word is its part of the word. -/
theorem memoryWriteStoresItsBytes : Obligations.MemoryWriteStoresItsBytes := by
  intro s m size v hs ha hf
  refine ⟨fun i hi => ?_, fun x hx => ?_, State.memRead_value hs ha hf⟩
  · rw [State.memWrite_byte v hs ha (.inr hf), State.byte_store_same _ _ _ _ _ hi, BitVec.toNat_ofNat]
  · rw [State.memWrite_byte v hs ha (.inr hf), State.byte_store_other _ _ _ _ _ hx]

end Sys2Proof.Machine
end

section
/-! PROOFS. Request buffers: what each command does to a buffer, by its owner and its pending request (O26). -/

namespace Sys2Proof.Machine

variable {s : State} {req b : Nat}

/-! ### Request buffers (R105, R106) -/

theorem State.owns_iff : s.owns req b = true ↔ s.fb (ALLOC_RB_CMD_OWNED b) = true ∧ s.fld (ALLOC_RB_CMD_OWNER b) = req := by
  simp [State.owns]

/-- CLAIM with no request pending takes a free buffer and leaves an owned one. -/
theorem State.rbCmd_claim (hp : s.fb (ALLOC_RB_CMD_PEND b) = false) (staged : Bool) : s.rbCmd req b 0xE staged =
    if s.fb (ALLOC_RB_CMD_OWNED b) then s else (s.setFld (ALLOC_RB_CMD_OWNED b) 1).setFld (ALLOC_RB_CMD_OWNER b) req := by
  simp [State.rbCmd, hp]

/-- An operation of the owner waits for the allocator: DONE falls, PEND rises, and the request joins the queue. -/
theorem State.rbCmd_request {op : Nat} (hop : op < 0xE) (ho : s.owns req b = true) (hp : s.fb (ALLOC_RB_CMD_PEND b) = false) (staged : Bool) :
    s.rbCmd req b op staged = { (s.setFld (ALLOC_RB_CMD_DONE b) 0).setFld (ALLOC_RB_CMD_PEND b) 1 with aq := s.aq ++ [⟨b, op, staged⟩] } := by
  simp [State.rbCmd, ho, hp, show op ≠ 0xE by omega, show op ≠ 0xF by omega]

/-- An operation of the owner on a buffer with a request pending is turned away as REENTRY. -/
theorem State.rbCmd_reentry {op : Nat} (hop : op < 0xE) (ho : s.owns req b = true) (hp : s.fb (ALLOC_RB_CMD_PEND b) = true) (staged : Bool) :
    s.rbCmd req b op staged = s.setFld ALLOC_STATUS_REENTRY 1 := by
  simp [State.rbCmd, State.turnAway, ho, hp, show op ≠ 0xE by omega, show op ≠ 0xF by omega]

/-- Any command but CLAIM by another requester is turned away as FOREIGN. -/
theorem State.rbCmd_foreign {op : Nat} (hop : op ≠ 0xE) (ho : s.owns req b = false) (hp : s.fb (ALLOC_RB_CMD_PEND b) = false) (staged : Bool) :
    s.rbCmd req b op staged = s.setFld ALLOC_STATUS_FOREIGN 1 := by
  simp [State.rbCmd, State.turnAway, ho, hp, hop]

theorem State.rbCmd_release (ho : s.owns req b = true) (staged : Bool) : s.rbCmd req b 0xF staged = s.releaseBuffer b := by
  simp [State.rbCmd, ho]

theorem State.releaseBuffer_idle (hp : s.fb (ALLOC_RB_CMD_PEND b) = false) :
    s.releaseBuffer b = (s.setFld (ALLOC_RB_CMD_OWNED b) 0).setFld (ALLOC_RB_CMD_OWNER b) 0 := by
  simp [State.releaseBuffer, State.freeBuffer, hp]

theorem State.releaseBuffer_pending (hp : s.fb (ALLOC_RB_CMD_PEND b) = true) :
    s.releaseBuffer b = { s with rb := tset false s.rb b true } := by
  simp [State.releaseBuffer, hp]

theorem bitList_one_bit : ∀ b : Fin 16, bitList (BitVec.ofNat 32 (2 ^ b.val)).toNat 16 = [b.val] := by decide

/-- ALLOC_RBFREE with one bit set frees that buffer where it has an owner; the bit rises while a request is pending. -/
theorem State.rbFree_one (b : Fin 16) (ho : s.fb (ALLOC_RB_CMD_OWNED b) = true) : s.rbFree (BitVec.ofNat 32 (2 ^ b.val)) =
    if s.fb (ALLOC_RB_CMD_PEND b) then (s.releaseBuffer b).orBit ALLOC_RBFREE_FREE b else s.releaseBuffer b := by
  unfold State.rbFree
  rw [bitList_one_bit]
  simp only [List.foldl, ho, if_true]

/-- Settles O26: each command on a buffer is one branch of `rbCmd`, decided by its owner and its pending request. -/
theorem requestBuffersAreOwned : Obligations.RequestBuffersAreOwned := by
  intro s req b staged own pend queued
  have owns : own → s.owns req b = true := State.owns_iff.mpr
  have disowns : ¬ own → s.owns req b = false := fun h => Bool.eq_false_iff.mpr fun e => h (State.owns_iff.mp e)
  have claim (hp : pend = false) : exec (.claim req b) s = .next (settle s _) := congrArg (done s) (State.rbCmd_claim hp false)
  have request {op : Nat} (hop : op < 0xE) (ho : own) (hp : pend = false) : done s (s.rbCmd req b op staged) = .next (settle s (queued op)) :=
    congrArg (done s) (State.rbCmd_request hop (owns ho) hp staged)
  have free (ho : s.fb (ALLOC_RB_CMD_OWNED b) = true) : exec (.allocRbfree (BitVec.ofNat 32 (2 ^ b.val))) s = .next (settle s _) :=
    congrArg (done s) (State.rbFree_one b ho)
  have release (ho : own) : exec (.rbRelease req b) s = .next (settle s (s.releaseBuffer b)) :=
    congrArg (done s) (State.rbCmd_release (owns ho) false)
  refine ⟨fun hp ho => ?_, fun hp ho => ?_, fun ho hp => ⟨?_, ?_, ?_, ?_⟩, fun ho hp => ?_, fun ho hp => ?_, fun ho hp => ?_,
    fun ho hp => ?_, fun ho hp => ?_, fun ho hp => ?_⟩
  · rw [claim hp, ho]; rfl
  · rw [claim hp, ho]; rfl
  · exact request (by decide) ho hp
  · exact request (by decide) ho hp
  · exact request (by decide) ho hp
  · exact request (by decide) ho hp
  · exact congrArg (done s) (State.rbCmd_reentry (by decide) (owns ho) hp staged)
  · exact congrArg (done s) (State.rbCmd_foreign (by decide) (disowns ho) hp staged)
  · rw [release ho, State.releaseBuffer_idle hp]
  · rw [release ho, State.releaseBuffer_pending hp]
  · rw [free ho, if_neg (by rw [show s.fb _ = false from hp]; exact Bool.false_ne_true), State.releaseBuffer_idle hp]
  · rw [free ho, if_pos hp, State.releaseBuffer_pending hp]

end Sys2Proof.Machine
end

section
/-! PROOFS. Accesses of the device bus: permitted ones, and those of scratchpads and data RAMs (O10). -/

namespace Sys2Proof.Machine

variable {s : State} {req a : Nat}

/-! ### Serving the loads before a request leaves all but the engines -/

@[simp] theorem State.loadsFirst_fld (at_ : BitVec 64) (f : RF) : (s.loadsFirst req at_).fld f = s.fld f := by
  unfold State.fld; rw [State.loadsFirst_reg]

@[simp] theorem State.loadsFirst_pairStandby (at_ : BitVec 64) : (s.loadsFirst req at_).pairStandby = s.pairStandby := by
  unfold State.pairStandby; rw [State.loadsFirst_fld]

@[simp] theorem State.loadsFirst_mem (at_ : BitVec 64) : (s.loadsFirst req at_).mem = s.mem := by
  obtain ⟨e, h⟩ := s.loadsFirst_same req at_
  rw [h]

@[simp] theorem State.loadsFirst_ecc (at_ : BitVec 64) : (s.loadsFirst req at_).ecc = s.ecc := by
  obtain ⟨e, h⟩ := s.loadsFirst_same req at_
  rw [h]

@[simp] theorem State.loadsFirst_attar (at_ : BitVec 64) : (s.loadsFirst req at_).attar = s.attar := by
  obtain ⟨e, h⟩ := s.loadsFirst_same req at_
  rw [h]

@[simp] theorem State.loadsFirst_rcRest (at_ : BitVec 64) (b : Nat) : (s.loadsFirst req at_).rcRest b = s.rcRest b := by
  obtain ⟨e, h⟩ := s.loadsFirst_same req at_
  rw [h]
  rfl

/-! ### Permitted accesses of the device bus (R24, R25) -/

/-- An access that is in a region, of a width and alignment that the region takes, and permitted, meets no error. -/
theorem State.busError_none {size : Nat} {write : Bool} (hr : regionOf a ≠ .unmapped) (hs : badSize (regionOf a) a size = false)
    (hd : s.denied req a write = false) : s.busError req a size write = (false, false, false) := by
  unfold State.busError
  rw [if_neg hr, hs, hd]

theorem badSize_register (hr : regionOf a = .regs ∨ regionOf a = .bay) (ha : a % 4 = 0) : badSize (regionOf a) a 4 = false := by
  rcases hr with h | h <;> simp [badSize, h, ha]

theorem State.writeOp_register (v : Word) (coll : Bool) (hg : s.loaderGate req a = false) (ha : a % 4 = 0)
    (hr : regionOf a = .regs ∨ regionOf a = .bay) (hd : s.denied req a true = false) :
    s.writeOp req a 4 v coll = (s.regWrite req a v, .fine) := by
  have mapped : regionOf a ≠ .unmapped := by rcases hr with h | h <;> simp [h]
  unfold State.writeOp
  simp only [State.busError_none mapped (badSize_register hr ha) hd, hg, hr, if_true, Bool.or_self, Bool.false_eq_true, if_false]

theorem State.readOp_register (hg : s.loaderGate req a = false) (ha : a % 4 = 0)
    (hr : regionOf a = .regs ∨ regionOf a = .bay) (hd : s.denied req a false = false) :
    s.readOp req a 4 = ((s.regRead req a).1, (s.regRead req a).2.toNat, .fine) := by
  have mapped : regionOf a ≠ .unmapped := by rcases hr with h | h <;> simp [h]
  unfold State.readOp
  simp only [State.busError_none mapped (badSize_register hr ha) hd, hg, hr, if_true, Bool.or_self, Bool.false_eq_true, if_false]

/-! ### Scratchpads and data RAMs on the device bus (R208, R213 to R215, R303) -/

section
variable {size : Nat} {view : Nat}

/-- A scratchpad in a view that takes aligned accesses alone, or a data RAM. -/
def Region.sectorRam (r : Region) : Prop := r = .scratch 0 ∨ r = .scratch 1 ∨ r = .scratch 2 ∨ r = .dram

theorem Region.sectorRam.not_register {r : Region} (h : r.sectorRam) : r ≠ .unmapped ∧ ¬ (r = .regs ∨ r = .bay) ∧ r ≠ .image := by
  rcases h with rfl | rfl | rfl | rfl <;> decide

theorem badSize_sectorRam (hr : (regionOf a).sectorRam) (hs : size = 1 ∨ size = 2 ∨ size = 4) (ha : a % size = 0) :
    badSize (regionOf a) a size = false := by
  rcases hr with h | h | h | h <;> rcases hs with rfl | rfl | rfl <;> simp [badSize, h, ha]

theorem State.writeOp_sectorRam (v : Word) (coll : Bool) (hg : s.loaderGate req a = false) (hs : size = 1 ∨ size = 2 ∨ size = 4)
    (ha : a % size = 0) (hr : (regionOf a).sectorRam) (hd : s.denied req a true = false) :
    s.writeOp req a size v coll = (s.busStore req a size v.toNat coll, .fine) := by
  obtain ⟨mapped, memory, -⟩ := hr.not_register
  unfold State.writeOp
  simp only [State.busError_none mapped (badSize_sectorRam hr hs ha) hd, hg, memory, Bool.or_self, Bool.false_eq_true, if_false]

theorem State.readOp_sectorRam (hg : s.loaderGate req a = false) (hs : size = 1 ∨ size = 2 ∨ size = 4)
    (ha : a % size = 0) (hr : (regionOf a).sectorRam) (hd : s.denied req a false = false) :
    s.readOp req a size = ((s.regionRead a size).1, (s.regionRead a size).2.1, if (s.regionRead a size).2.2 then .ecc else .fine) := by
  obtain ⟨mapped, memory, -⟩ := hr.not_register
  unfold State.readOp
  simp only [State.busError_none mapped (badSize_sectorRam hr hs ha) hd, hg, memory, Bool.or_self, Bool.false_eq_true, if_false]

/-- What a permitted write of a scratchpad or a data RAM does: a standby discards its own, one that meets a write on port A is
recorded, any other reaches the memory and the partner. -/
theorem State.busStore_sectorRam (v : Nat) (coll : Bool) (hr : (regionOf a).sectorRam) : s.busStore req a size v coll =
    if s.pairStandby ∧ req ≠ 400 then s.setFld PAIR_IRQ_STAT_LOCALWR 1
    else if coll ∧ meetsPortA a size then s.collide (normalView a) req
    else (s.regionWrite a size v).toPartner "WRITE" [a, size, v % 2 ^ (8 * size)] := by
  rcases hr with h | h | h | h <;> simp only [State.busStore, h, reduceCtorEq, false_and, if_false, State.localWrite]

theorem State.busStore_taken (v : Nat) {coll : Bool} (hr : (regionOf a).sectorRam) (hm : s.pairStandby = false ∨ req = 400)
    (hc : coll = false ∨ meetsPortA a size = false) :
    s.busStore req a size v coll = (s.regionWrite a size v).toPartner "WRITE" [a, size, v % 2 ^ (8 * size)] := by
  rw [State.busStore_sectorRam v coll hr, if_neg, if_neg]
  · rcases hc with h | h <;> simp [h]
  · rcases hm with h | h <;> simp [h]

theorem State.regionWrite_scratch (v : Nat) (h : regionOf a = .scratch view) :
    s.regionWrite a size v = s.memWrite view (normalView a) size v := by
  simp [State.regionWrite, takesNone, reservedRam, cellOf, h]

theorem State.regionRead_scratch (h : regionOf a = .scratch view) : s.regionRead a size = s.memRead (normalView a) size := by
  simp [State.regionRead, reservedRam, cellOf, h]

/-- The reserved half of a data RAM's stride ignores writes (R9, R23). -/
theorem State.regionWrite_reserved (v : Nat) (h : regionOf a = .dram) (hu : 0x2000 ≤ a % 0x4000) : s.regionWrite a size v = s := by
  simp [State.regionWrite, takesNone, reservedRam, h, hu]

theorem normalView_aligned (hs : size = 1 ∨ size = 2 ∨ size = 4) (ha : a % size = 0) : normalView a % size = 0 := by
  unfold normalView
  rcases hs with rfl | rfl | rfl <;> omega

/-- A whole word as the value of an access of four bytes. -/
theorem word_as_value (v : Word) : BitVec.ofNat 32 (v.toNat % 2 ^ (8 * 4) * 2 ^ (8 * 0)) = v := by
  rw [Nat.mod_eq_of_lt v.isLt, Nat.mul_zero, Nat.pow_zero, Nat.mul_one, BitVec.ofNat_toNat, BitVec.setWidth_eq]

/-- A whole-word write of an error-free word through the bit-set view stores its OR with the value (R215). -/
theorem State.memWrite_set_mem {m : Nat} (v : Word) (ha : m % 4 = 0) (hf : s.flipCount m = 0) :
    (s.memWrite 1 m 4 v.toNat).mem = (s.setWord m (s.word m ||| v)).mem := by
  unfold State.memWrite
  simp only [ha, Nat.sub_zero, word_as_value]
  exact State.mergeWord_touch_mem m _ hf

/-- A whole-word write of an error-free word through the bit-clear view stores its AND with the value's complement (R215). -/
theorem State.memWrite_clear_mem {m : Nat} (v : Word) (ha : m % 4 = 0) (hf : s.flipCount m = 0) :
    (s.memWrite 2 m 4 v.toNat).mem = (s.setWord m (s.word m &&& ~~~v)).mem := by
  unfold State.memWrite
  simp only [ha, Nat.sub_zero, word_as_value]
  exact State.mergeWord_touch_mem m _ hf

end

/-! ### The commands of the device bus while it runs -/

theorem exec_registerWrite_running (req : Fin 405) (a v : Word) (size : Nat) (coll : Bool) (h : s.busRuns = true) :
    exec (.registerWrite req a size ⟨v, coll⟩) s =
      .next (settle s ((s.loadsFirst req s.tb.now).writeOp req a.toNat size v coll).1) := by
  show done s _ = _
  rw [if_pos h]; rfl

theorem exec_rcRegisterRead_running (req : Fin 405) (a : Word) (size : Nat) (h : s.busRuns = true) :
    exec (.rcRegisterRead req a size) s = .next (settle s (((s.loadsFirst req s.tb.now).readOp req a.toNat size).1.emit
      (.readData req a.toNat (BitVec.ofNat 32 ((s.loadsFirst req s.tb.now).readOp req a.toNat size).2.1)))) := by
  show done s _ = _
  rw [if_pos h]; rfl

/-- A permitted write of a scratchpad or a data RAM that is not discarded leaves the memory that `regionWrite` makes. -/
theorem exec_registerWrite_sectorRam {req : Fin 405} {a v : Word} {size : Nat} {coll : Bool} (hb : s.busRuns = true)
    (hg : (s.loadsFirst req s.tb.now).loaderGate req a.toNat = false) (hd : (s.loadsFirst req s.tb.now).denied req a.toNat true = false)
    (hs : size = 1 ∨ size = 2 ∨ size = 4) (ha : a.toNat % size = 0) (hr : (regionOf a.toNat).sectorRam)
    (hm : s.pairStandby = false ∨ req.val = 400) (hc : coll = false ∨ meetsPortA a.toNat size = false) :
    ∃ u, exec (.registerWrite req a size ⟨v, coll⟩) s = .next u ∧
      u.mem = ((s.loadsFirst req s.tb.now).regionWrite a.toNat size v.toNat).mem := by
  refine ⟨_, exec_registerWrite_running req a v size coll hb, ?_⟩
  rw [settle_mem, State.writeOp_sectorRam v coll hg hs ha hr hd, State.busStore_taken _ hr (by rwa [State.loadsFirst_pairStandby]) hc,
    State.toPartner_mem]

/-- A permitted aligned read of an error-free word of a scratchpad answers the word, and changes no more than an access of a window
under test does. -/
theorem exec_rcRegisterRead_scratch {req : Fin 405} {a : Word} (hb : s.busRuns = true)
    (hg : (s.loadsFirst req s.tb.now).loaderGate req a.toNat = false) (hd : (s.loadsFirst req s.tb.now).denied req a.toNat false = false)
    (ha : a.toNat % 4 = 0) (hr : regionOf a.toNat = .scratch 0) (hf : s.flipCount (normalView a.toNat) = 0) :
    exec (.rcRegisterRead req a 4) s = .next (settle s (((s.loadsFirst req s.tb.now).touch (normalView a.toNat)).emit
      (.readData req a.toNat (s.word (normalView a.toNat))))) := by
  have ram : (regionOf a.toNat).sectorRam := .inl hr
  have aligned : normalView a.toNat % 4 = 0 := normalView_aligned (.inr (.inr rfl)) ha
  have good : (s.loadsFirst req s.tb.now).flipCount (normalView a.toNat - normalView a.toNat % 4) = 0 := by
    rwa [aligned, Nat.sub_zero, State.flipCount_of_ecc (State.loadsFirst_ecc _)]
  rw [exec_rcRegisterRead_running req a 4 hb, State.readOp_sectorRam hg (.inr (.inr rfl)) ha ram hd, State.regionRead_scratch hr]
  dsimp only
  rw [State.memRead_state 4 good, State.memRead_value (.inr (.inr rfl)) aligned good, State.load_of_mem (State.loadsFirst_mem _)]
  rfl

/-- Settles O10: each access is the write or read of its memory, which serving the loads before it has not changed. -/
theorem memoryAccessesReachTheirBytes : Obligations.MemoryAccessesReachTheirBytes := by
  intro s req a v size coll s0 hb hg hw hd m mine
  have mem0 : s0.mem = s.mem := State.loadsFirst_mem _
  have flips0 (x : Nat) : s0.flipCount x = s.flipCount x := State.flipCount_of_ecc (State.loadsFirst_ecc _) x
  have four : (4 : Nat) = 1 ∨ (4 : Nat) = 2 ∨ (4 : Nat) = 4 := .inr (.inr rfl)
  have aligned (ha : a.toNat % 4 = 0) : m % 4 = 0 := normalView_aligned four ha
  refine ⟨fun hr ha hm hc => ?wholeWord, fun hr hs ha hm hf => ?partWord, fun hr ha hm hf => ?bitSet, fun hr ha hm hf => ?bitClear,
    fun hr ha hp hq => ?standby,
    fun hr ha hm hc => ?collision, fun hr ha hu hm => ?reserved, fun hr ha hf => ?read⟩
  case wholeWord =>
    obtain ⟨u, he, hu⟩ := exec_registerWrite_sectorRam (v := v) hb hg hw four ha (.inl hr) hm (.inl hc)
    rw [State.regionWrite_scratch _ hr, State.memWrite_word_mem _ _ (aligned ha), BitVec.ofNat_toNat, BitVec.setWidth_eq,
      State.setWord_of_mem mem0] at hu
    exact ⟨u, he, State.wrote_word hu⟩
  case partWord =>
    have hs3 : size = 1 ∨ size = 2 ∨ size = 4 := hs.imp_right .inl
    obtain ⟨u, he, hu⟩ := exec_registerWrite_sectorRam (v := v) (coll := coll) hb hg hw hs3 ha (.inl hr) hm
      (.inr (by rcases hs with rfl | rfl <;> rfl))
    rw [State.regionWrite_scratch _ hr] at hu
    have bytes (x : Nat) : u.byte x = (s0.store m size v.toNat).byte x := (State.byte_of_mem hu x).trans
      (State.memWrite_byte _ hs3 (normalView_aligned hs3 ha) (.inr (by rwa [flips0])) x)
    refine ⟨u, he, ?_, fun x hx => ?_⟩
    · rw [u.load_congr _ m size fun i _ => bytes (m + i), State.load_store, Nat.pow_mul]
    · rw [bytes, State.byte_store_other _ _ _ _ _ hx, State.loadsFirst_byte]
  case bitSet =>
    obtain ⟨u, he, hu⟩ := exec_registerWrite_sectorRam (v := v) (coll := coll) hb hg hw four ha (.inr (.inl hr)) hm
      (.inr (by simp [meetsPortA, hr]))
    rw [State.regionWrite_scratch _ hr, State.memWrite_set_mem _ (aligned ha) (by rwa [flips0]),
      State.setWord_of_mem mem0, State.word_of_mem mem0] at hu
    exact ⟨u, he, State.wrote_word hu⟩
  case bitClear =>
    obtain ⟨u, he, hu⟩ := exec_registerWrite_sectorRam (v := v) (coll := coll) hb hg hw four ha (.inr (.inr (.inl hr))) hm
      (.inr (by simp [meetsPortA, hr]))
    rw [State.regionWrite_scratch _ hr, State.memWrite_clear_mem _ (aligned ha) (by rwa [flips0]),
      State.setWord_of_mem mem0, State.word_of_mem mem0] at hu
    exact ⟨u, he, State.wrote_word hu⟩
  case standby =>
    rw [exec_registerWrite_running req a v 4 coll hb, State.writeOp_sectorRam v coll hg four ha (.inl hr) hw,
      State.busStore_sectorRam _ _ (.inl hr), if_pos ⟨(State.loadsFirst_pairStandby _).trans hp, hq⟩]
  case collision =>
    have met : meetsPortA a.toNat 4 = true := by simp [meetsPortA, hr]
    rw [exec_registerWrite_running req a v 4 coll hb, State.writeOp_sectorRam v coll hg four ha (.inl hr) hw,
      State.busStore_sectorRam _ _ (.inl hr), if_neg, if_pos ⟨hc, met⟩]
    rintro ⟨hp, hq⟩
    rw [State.loadsFirst_pairStandby] at hp
    exact hm.elim (fun h => by simp [h] at hp) hq
  case reserved =>
    obtain ⟨u, he, hu'⟩ := exec_registerWrite_sectorRam (v := v) (coll := coll) hb hg hw four ha (.inr (.inr (.inr hr))) hm
      (.inr (by simp [meetsPortA, hr]))
    rw [State.regionWrite_reserved _ hr hu, mem0] at hu'
    exact ⟨u, he, State.byte_of_mem hu'⟩
  case read =>
    have sent := List.mem_append_right (s0.touch m).outbox (List.mem_singleton_self (Output.readData req a.toNat (s.word m)))
    refine ⟨_, exec_rcRegisterRead_scratch hb hg hd ha hr hf, mem_outbox_settle s sent, fun x => ?_, fun b hb' => ?_⟩
    · rw [settle_byte]
      exact State.byte_of_mem ((State.touch_mem _ _).trans mem0) x
    · have other : b ≠ IST_CNT_at := by rintro rfl; exact absurd hb' (by decide)
      rw [settle_reg]
      exact (State.touch_reg _ _ _ other).trans (State.loadsFirst_reg _ _ _ _)

end Sys2Proof.Machine
end

section
/-! PROOFS. Registers of the lines on the device bus: writes by their access codes, reads that pop nothing (O8). -/

namespace Sys2Proof.Machine

variable {s : State} {req : Nat} {a : Nat}

/-! ### Registers of the lines' page -/

/-- A register address in the page of the lines. -/
def inLinePage (a : Nat) : Prop := a % 0x1000000 / 0x1000 = 9

theorem inLinePage.ne {b : Nat} (h : inLinePage a) (hb : b % 0x1000000 / 0x1000 ≠ 9) : a ≠ b := by
  rintro rfl; exact hb h

/-- The registers outside the blocks with writes of their own at which a write is a command. -/
def commandRegs : List Nat :=
  [SYS_IRQ_EOI_at, TB_HPOST_CTRL_at, TB_HCANCEL_at, ATTAR_CMD_at, XBAR_LOCK_at, PAIR_CTRL_at, PR_CMD_at, SCRUB_CFG_at, CLK_STBY_at,
    RETAIN_CMD_at, SILLAGE_CTRL_at, SILLAGE_MARK_at, VAULT_WIPE_at]

theorem inLinePage.not_command (h : inLinePage a) : ∀ b ∈ commandRegs, a ≠ b := fun b hb =>
  h.ne ((by decide : ∀ b ∈ commandRegs, b % 0x1000000 / 0x1000 ≠ 9) b hb)

/-- No register of the page acts beyond its access codes. -/
theorem State.regWrite_line (v : Word) (hr : regionOf a = .regs) (h : inLinePage a) : s.regWrite req a v = s.plainWrite a v := by
  have misc : s.regWrite req a v = s.miscWrite req a v := by
    unfold State.regWrite
    rw [if_neg (by rw [hr]; decide), show a % 0x1000000 / 0x1000 = 9 from h]
    rfl
  have command := h.not_command
  rw [misc]
  unfold State.miscWrite
  simp only [commandRegs, List.forall_mem_cons, List.not_mem_nil, false_implies, implies_true, and_true] at command
  simp only [command, if_false]

/-- The word of a register after a write of `v`: its RW bits take the value, its W1C bits written 1 fall, its W1S bits rise (R7). -/
def RegRow.coded (r : RegRow) (w v : Word) : Word :=
  (((w &&& ~~~BitVec.ofNat 32 r.rw) ||| (v &&& BitVec.ofNat 32 r.rw)) &&& ~~~(v &&& BitVec.ofNat 32 r.w1c)) ||| (v &&& BitVec.ofNat 32 r.w1s)

/-- The state after the fields of a register that are not staged have acted. -/
def State.actCoded (s : State) (a : Nat) (v : Word) : State :=
  if (rowOf a).coded (s.reg a) v = s.reg a then s else s.setReg a ((rowOf a).coded (s.reg a) v)

/-- A write of a register of the lines acts by its access codes, and its RWS fields are staged (R7, R236). -/
theorem State.plainWrite_line (v : Word) (h : inLinePage a) : s.plainWrite a v =
    if (rowOf a).rws = 0 then s.actCoded a v else (s.actCoded a v).stageWord a v := by
  have closed : s.rwlClosed a = true := by
    unfold State.rwlClosed
    rw [show a % 0x1000000 / 0x1000 = 9 from h]
    rfl
  unfold State.plainWrite
  rw [closed]
  rfl

theorem State.actCoded_reg_same (v : Word) : (s.actCoded a v).reg a = (rowOf a).coded (s.reg a) v := by
  unfold State.actCoded
  split
  · next h => exact h.symm
  · exact State.reg_setReg_same _ _ _

theorem State.actCoded_reg_other (v : Word) {b : Nat} (h : b ≠ a) : (s.actCoded a v).reg b = s.reg b := by
  unfold State.actCoded
  split
  · rfl
  · exact State.reg_setReg_other _ _ _ _ h

theorem State.actCoded_fld_other (v : Word) {f : RF} (h : f.addr ≠ a) : (s.actCoded a v).fld f = s.fld f := by
  unfold State.fld; rw [State.actCoded_reg_other v h]

theorem State.actCoded_mem (v : Word) : (s.actCoded a v).mem = s.mem := by
  unfold State.actCoded; split <;> rfl

theorem State.actCoded_attar (v : Word) : (s.actCoded a v).attar = s.attar := by
  unfold State.actCoded; split <;> rfl

/-! ### Reads that pop nothing (R7, R8) -/

/-- An RC read leaves in the register's RC fields what they read as from then on. -/
theorem State.rcClear_reg_same : (s.rcClear a).reg a =
    (s.reg a &&& ~~~BitVec.ofNat 32 (rowOf a).rc) ||| (s.rcRest a &&& BitVec.ofNat 32 (rowOf a).rc) := by
  unfold State.rcClear
  split
  · next h =>
    rw [h, show ~~~BitVec.ofNat 32 0 = BitVec.allOnes 32 from rfl, BitVec.and_allOnes]
    simp
  · exact State.reg_setReg_same _ _ _

theorem State.rcClear_reg_other {b : Nat} (h : b ≠ a) : (s.rcClear a).reg b = s.reg b := by
  unfold State.rcClear
  split
  · rfl
  · exact State.reg_setReg_other _ _ _ _ h

theorem State.rcClear_mem : (s.rcClear a).mem = s.mem := by
  unfold State.rcClear; split <;> rfl

theorem State.regRead_plain (h : s.popRead req a = none) : s.regRead req a = (s.rcClear a, s.regView req a) := by
  unfold State.regRead; rw [h]; rfl

/-- Settles O8: on the lines' page no register is a command, so a write acts by the access codes; a read clears the RC bits. -/
theorem registerAccessesActByTheirCodes : Obligations.RegisterAccessesActByTheirCodes := by
  intro s req a v coll s0 hb hg ha hr r w
  have write (hd : s0.denied req a.toNat true = false) :
      exec (.registerWrite req a 4 ⟨v, coll⟩) s = .next (settle s (s0.regWrite req a.toNat v)) := by
    rw [exec_registerWrite_running req a v 4 coll hb, State.writeOp_register v coll hg ha hr hd]
  refine ⟨write, fun hd hregs hpage hrws => ⟨_, write hd, ?_⟩, fun hd hp => ?_⟩
  · have acts : s0.regWrite req a.toNat v = s0.actCoded a.toNat v := by
      rw [State.regWrite_line v hregs hpage, State.plainWrite_line v hpage, if_pos hrws]
    rw [acts]
    refine ⟨?_, fun b hne => ?_, fun b => ?_⟩
    · rw [settle_reg, State.actCoded_reg_same, State.loadsFirst_reg]; rfl
    · rw [settle_reg, State.actCoded_reg_other v hne, State.loadsFirst_reg]
    · rw [settle_byte, State.byte_of_mem (State.actCoded_mem v), State.loadsFirst_byte]
  · have read := exec_rcRegisterRead_running req a 4 hb
    rw [State.readOp_register hg ha hr hd, State.regRead_plain hp] at read
    refine ⟨_, read, ?_, fun b hne => ?_, fun b => ?_, mem_outbox_settle s (List.mem_append_right _ ?_)⟩
    · rw [settle_reg]
      exact State.rcClear_reg_same.trans (by rw [State.loadsFirst_reg, State.loadsFirst_rcRest])
    · rw [settle_reg]
      exact (State.rcClear_reg_other hne).trans (State.loadsFirst_reg _ _ _ _)
    · rw [settle_byte]
      exact (State.byte_of_mem State.rcClear_mem b).trans (State.loadsFirst_byte _ _ _ _)
    · dsimp only
      rw [BitVec.ofNat_toNat, BitVec.setWidth_eq]
      exact List.mem_singleton_self _

end Sys2Proof.Machine
end

section
/-! PROOFS. Sessions: staging, PEEK, ABORT and the timeout (O43). -/

namespace Sys2Proof.Machine

variable {s : State} {req : Nat} {a : Nat}

/-! ### Staging (R236) -/

/-- A register with staged bits has them in its row. -/
theorem rowOf_rws_ne_zero (h : rwsMask a ≠ 0) : (rowOf a).rws ≠ 0 := by
  intro z
  apply h
  unfold rwsMask
  unfold rowOf at z
  cases e : findRow regRows a with
  | none => simp
  | some r =>
    rw [e] at z
    simp [show r.rws = 0 from z]

theorem State.invalidate_open (h : s.fld ATTAR_STAT_STATE = 1) : s.invalidate = s := by
  unfold State.invalidate; rw [h]; rfl

/-- A staged write in an OPEN session keeps the masked word and is told to the partner. -/
theorem State.stageWord_open (v : Word) (h : s.fld ATTAR_STAT_STATE = 1) (hm : rwsMask a ≠ 0) : s.stageWord a v =
    ({ s with attar := { s.attar with staged := tset none s.attar.staged a (some (v &&& rwsMask a)) } } : State).toPartner
      "SESSION" [1, a, (v &&& rwsMask a).toNat] := by
  have inside : 1 ≤ s.attarState ∧ s.attarState ≤ 3 := by simp [State.attarState, h]
  unfold State.stageWord
  rw [if_neg hm, if_pos inside, State.invalidate_open]
  exact h

theorem State.stageWord_open_staged (v : Word) (h : s.fld ATTAR_STAT_STATE = 1) (hm : rwsMask a ≠ 0) :
    (s.stageWord a v).attar.staged = tset none s.attar.staged a (some (v &&& rwsMask a)) := by
  rw [State.stageWord_open v h hm, State.toPartner_attar]

theorem State.stageWord_open_reg (v : Word) (h : s.fld ATTAR_STAT_STATE = 1) (hm : rwsMask a ≠ 0) {b : Nat} (hb : b ≠ PAIR_TXQ_at) :
    (s.stageWord a v).reg b = s.reg b := by
  rw [State.stageWord_open v h hm, State.toPartner_reg _ _ _ _ hb]
  rfl

/-- A staged write outside a session has no effect and is recorded as a stray. -/
theorem State.stageWord_stray (v : Word) (h : s.fld ATTAR_STAT_STATE = 0) (hm : rwsMask a ≠ 0) : s.stageWord a v =
    ((if s.fb ATTAR_STAT_STRAY then s else s.setFld ATTAR_STRAY_ADDR_ADDR a).setFld ATTAR_STAT_STRAY 1).setFld ATTAR_IRQ_STAT_STRAY 1 := by
  have outside : ¬ (1 ≤ s.attarState ∧ s.attarState ≤ 3) := by simp [State.attarState, h]
  unfold State.stageWord
  rw [if_neg hm, if_neg outside]

/-- A one-bit cause that is set reads as set. -/
theorem State.fb_setFld_one (f : RF) (h : f.lo ≤ f.hi ∧ f.hi < 32) : (s.setFld f 1).fb f = true := by
  have wide : 1 < 2 ^ (f.hi + 1 - f.lo) := Nat.one_lt_two_pow (by omega)
  unfold State.fb
  rw [State.fld_setFld_same _ _ _ h, Nat.mod_eq_of_lt wide]
  rfl

theorem State.fb_setFld_apart (f g : RF) (v : Nat) (h : g.addr ≠ f.addr ∨ g.lo ≤ g.hi ∧ (g.hi < f.lo ∨ f.hi < g.lo)) :
    (s.setFld f v).fb g = s.fb g := by
  unfold State.fb; rw [State.fld_setFld_apart _ _ _ _ h]

/-- The stray's address is captured where none was captured before. -/
theorem State.stray_captured (ha : a < 2 ^ 32) (f : Bool) : State.fld (((if f then s else s.setFld ATTAR_STRAY_ADDR_ADDR a).setFld
    ATTAR_STAT_STRAY 1).setFld ATTAR_IRQ_STAT_STRAY 1) ATTAR_STRAY_ADDR_ADDR = if f then s.fld ATTAR_STRAY_ADDR_ADDR else a := by
  rw [State.fld_setFld_apart _ _ _ _ (by decide), State.fld_setFld_apart _ _ _ _ (by decide)]
  cases f with
  | true => rfl
  | false => exact (State.fld_setFld_same _ _ _ (by decide)).trans (Nat.mod_eq_of_lt ha)

/-! ### Closing (R247) -/

/-- The session has closed without effect: STATE 0, nothing staged, LASTEND tells how, and the CLOSED cause is set. -/
def State.Closed (u : State) (how : Nat) : Prop :=
  u.fld ATTAR_STAT_STATE = 0 ∧ u.attar.staged = [] ∧ u.attar.reqs = [] ∧ u.fld ATTAR_STAT_LASTEND = how ∧ u.fb ATTAR_IRQ_STAT_CLOSED = true

theorem State.Closed.settled {how : Nat} (h : s.Closed how) (r : State) : (settle r s).Closed how := by
  unfold State.Closed at *
  rwa [settle_fld, settle_attar, settle_fld, settle_fb]

theorem State.Closed.answered {how : Nat} (h : s.Closed how) (c : Nat) : (s.cmdRes c).Closed how := by
  unfold State.Closed State.cmdRes at *
  rwa [State.fld_setFld_apart _ _ _ _ (by decide), State.setFld_attar, State.fld_setFld_apart _ _ _ _ (by decide),
    State.fb_setFld_apart _ _ _ (by decide)]

theorem State.closeSession_fields {how : Nat} (h : how < 16) : (s.closeSession how).fld ATTAR_STAT_STATE = 0 ∧
    (s.closeSession how).attar = ⟨[], [], none, false, 0⟩ ∧ (s.closeSession how).fld ATTAR_STAT_LASTEND = how := by
  unfold State.closeSession
  rw [State.toPartner_fld _ _ _ _ (by decide), State.toPartner_fld _ _ _ _ (by decide), State.toPartner_attar]
  refine ⟨?_, rfl, ?_⟩
  · rw [State.fld_setFld_apart _ _ _ _ (by decide), State.fld_setFld_apart _ _ _ _ (by decide), State.fld_setFld_same _ _ _ (by decide)]
    rfl
  · rw [State.fld_setFld_same _ _ _ (by decide)]
    exact Nat.mod_eq_of_lt h

theorem State.endSession_closed {how : Nat} (h : how < 16) : (s.endSession how).Closed how := by
  obtain ⟨hstate, hattar, hend⟩ := State.closeSession_fields (s := s.dropStaged) h
  unfold State.endSession State.addSat State.Closed
  rw [State.setFld_attar, State.setFld_attar, hattar, State.fld_setFld_apart _ _ _ _ (by decide),
    State.fld_setFld_apart _ _ _ _ (by decide), State.fld_setFld_apart _ ATTAR_CNT_ABORTS ATTAR_STAT_LASTEND _ (by decide),
    State.fld_setFld_apart _ _ ATTAR_STAT_LASTEND _ (by decide), State.fb_setFld_apart _ _ _ (by decide)]
  exact ⟨hstate, rfl, rfl, hend, State.fb_setFld_one _ (by decide)⟩

/-- An ABORT of an OPEN session closes it. -/
theorem State.attarAbort_open (how : Nat) (h : s.fld ATTAR_STAT_STATE = 1) : s.attarAbort how = (s.endSession how).cmdRes 0 := by
  unfold State.attarAbort State.attarState
  rw [h, if_neg]
  simp

theorem State.asOwner_owner (f : State → State) (h : s.fld ATTAR_STAT_STATE = 1) (ho : s.fld ATTAR_STAT_OWNER = req) :
    s.asOwner req f = f s := by
  simp [State.asOwner, State.attarState, h, ho]

theorem State.asOwner_other (f : State → State) (h : s.fld ATTAR_STAT_STATE = 1) (ho : s.fld ATTAR_STAT_OWNER ≠ req) :
    s.asOwner req f = s.cmdRes 3 := by
  simp [State.asOwner, State.attarState, h, ho]

/-- ABORT by the host or the maintenance port: FORCE closes a session of another owner (R234, R247). -/
theorem State.attarCmd_abort (force : Bool) (hq : 403 ≤ req) (h : s.fld ATTAR_STAT_STATE = 1) : s.attarCmd req 4 0 force =
    if force = true ∧ s.fld ATTAR_STAT_OWNER ≠ req then s.attarAbort 4 else s.asOwner req (fun s => s.attarAbort 2) := by
  simp [State.attarCmd, State.attarState, h, show ¬ req < 403 by omega]

/-- The session timeout closes an OPEN session once TIMEOUT ms have passed. -/
theorem State.sessionTimeout_open (h : s.fld ATTAR_STAT_STATE = 1) (ht : s.fld ATTAR_CFG_TIMEOUT ≠ 0)
    (hl : 200000 * s.fld ATTAR_CFG_TIMEOUT ≤ (s.tb.now - s.attar.since).toNat) : s.sessionTimeout = s.endSession 3 := by
  unfold State.sessionTimeout State.attarState
  dsimp only
  rw [if_pos ⟨by omega, by omega, ht, hl⟩]

theorem State.sessionTimeout_off (h : s.fld ATTAR_CFG_TIMEOUT = 0) : s.sessionTimeout = s := by
  simp [State.sessionTimeout, h]

/-! ### PEEK (R237) -/

theorem State.peekData_closed (h : s.fld ATTAR_STAT_STATE = 0) : s.peekData = 0 := by
  simp [State.peekData, State.attarState, h]

/-- In a session PEEK shows the staged bits of a register whose written mark is set. -/
theorem State.peekData_staged {w : Word} (h : s.fld ATTAR_STAT_STATE ≠ 0) (ha : s.fld ATTAR_PEEK_ADDR_ADDR = a)
    (hw : tget none s.attar.staged a = some w) : s.peekData = w &&& rwsMask a := by
  have staged : s.stagedView a = (w &&& rwsMask a) ||| (s.reg a &&& ~~~rwsMask a) := by
    unfold State.stagedView; rw [hw]
  unfold State.peekData State.attarState
  dsimp only
  rw [if_neg h, ha, staged]
  ext i
  simp only [BitVec.getElem_and, BitVec.getElem_or, BitVec.getElem_not]
  cases w[i] <;> cases (rwsMask a)[i] <;> simp

/-- The registers after a PEEK. -/
theorem exec_peek_regs (a : Word) : ∃ u, exec (.peek a) s = .next u ∧ u.reg ATTAR_PEEK_ADDR_at = a ∧
    u.reg ATTAR_PEEK_DATA_at = (s.setReg ATTAR_PEEK_ADDR_at a).peekData := by
  refine ⟨_, rfl, ?_, ?_⟩
  · rw [settle_reg, State.reg_setReg_other _ _ _ _ (by decide), State.reg_setReg_same]
  · rw [settle_reg, State.reg_setReg_same]

/-! ### STAGED_WRITE -/

/-- A permitted staged write is the write that its register defines. -/
theorem exec_stagedWrite_permitted {req : Fin 405} {a v : Word} (hb : s.busRuns = true)
    (hg : (s.loadsFirst req s.tb.now).loaderGate req a.toNat = false) (ha : a.toNat % 4 = 0)
    (hr : regionOf a.toNat = .regs ∨ regionOf a.toNat = .bay) (hd : (s.loadsFirst req s.tb.now).denied req a.toNat true = false) :
    exec (.stagedWrite ⟨req, a⟩ v) s = .next (settle s ((s.loadsFirst req s.tb.now).regWrite req a.toNat v)) := by
  have bus : exec (.stagedWrite ⟨req, a⟩ v) s = .next (settle s ((s.loadsFirst req s.tb.now).writeOp req a.toNat 4 v false).1) := by
    show done s _ = _
    rw [if_pos hb]; rfl
  rw [bus, State.writeOp_register v false hg ha hr hd]

/-- A permitted write of a staged register of the lines: its other fields act, and then its staged fields. -/
theorem State.regWrite_line_staged (v : Word) (hr : regionOf a = .regs) (hp : inLinePage a) (hm : rwsMask a ≠ 0) :
    s.regWrite req a v = (s.actCoded a v).stageWord a v := by
  rw [State.regWrite_line v hr hp, State.plainWrite_line v hp, if_neg (rowOf_rws_ne_zero hm)]

/-- Settles O43: a staged write of the lines acts by its codes and is then staged or recorded as a stray; closing sets its fields. -/
theorem sessionsStagePeekAndClose : Obligations.SessionsStagePeekAndClose := by
  intro s req a v st closed r s0 may line
  have write : may → exec (.stagedWrite ⟨req, a⟩ v) s = .next (settle s (s0.regWrite req a.toNat v)) :=
    fun ⟨hb, hg, ha, hr, hd⟩ => exec_stagedWrite_permitted hb hg ha hr hd
  have state0 (hp : inLinePage a.toNat) : (s0.actCoded a.toNat v).fld ATTAR_STAT_STATE = st :=
    (State.actCoded_fld_other v (hp.ne (by decide)).symm).trans (State.loadsFirst_fld _ _)
  have attar0 : (s0.actCoded a.toNat v).attar = s.attar := (State.actCoded_attar v).trans (State.loadsFirst_attar _)
  have abort (force : Bool) : exec (.attarAbort req force) s = .next (settle s (s.attarCmd req 4 0 force)) := rfl
  refine ⟨write, fun hb => ?still, fun ⟨hmay, hregs, hpage⟩ hst hm => ⟨_, write hmay, ?staged⟩,
    fun ⟨hmay, hregs, hpage⟩ hst hm => ⟨_, write hmay, ?stray⟩, fun w hst hw => ?peekStaged, fun hst => ?peekClosed,
    fun hq hst ho => ⟨_, abort false, ?abortOwner⟩, fun hq hst ho => ?abortOther, fun hq hst ho => ⟨_, abort true, ?abortForced⟩,
    fun hst ht hl => ⟨_, rfl, ?timeout⟩, fun ht => ?timeoutOff⟩
  case still =>
    show done s _ = _
    rw [if_neg (by simp [hb])]; rfl
  case staged =>
    have page : inLinePage a.toNat := hpage
    have isOpen := (state0 page).trans hst
    rw [State.regWrite_line_staged v hregs page hm]
    refine ⟨?_, ?_, fun b hne hnt => ?_, fun b hne => ?_⟩
    · rw [settle_attar, State.stageWord_open_staged v isOpen hm, tget_tset_same]
    · rw [settle_reg, State.stageWord_open_reg v isOpen hm (page.ne (by decide)), State.actCoded_reg_same, State.loadsFirst_reg]
      rfl
    · rw [settle_reg, State.stageWord_open_reg v isOpen hm hnt, State.actCoded_reg_other v hne, State.loadsFirst_reg]
    · rw [settle_attar, State.stageWord_open_staged v isOpen hm, tget_tset_other _ _ _ _ _ _ hne, attar0]
  case stray =>
    have page : inLinePage a.toNat := hpage
    have other (f : RF) (h : f.addr % 0x1000000 / 0x1000 ≠ 9) : (s0.actCoded a.toNat v).fld f = s.fld f :=
      (State.actCoded_fld_other v (page.ne h).symm).trans (State.loadsFirst_fld _ _)
    rw [State.regWrite_line_staged v hregs page hm, State.stageWord_stray v ((state0 page).trans hst) hm]
    refine ⟨?_, ?_, ?_, ?_⟩
    · rw [settle_fb, State.fb_setFld_apart _ _ _ (by decide), State.fb_setFld_one _ (by decide)]
    · rw [settle_fb, State.fb_setFld_one _ (by decide)]
    · rw [settle_fld, State.stray_captured a.isLt, other _ (by decide)]
      unfold State.fb
      rw [other _ (by decide)]
    · rw [settle_attar, State.setFld_attar, State.setFld_attar, apply_ite State.attar, State.setFld_attar, ite_self, attar0]
  case peekStaged =>
    obtain ⟨u, he, haddr, hdata⟩ := exec_peek_regs (s := s) a
    refine ⟨u, he, haddr, hdata.trans (State.peekData_staged ?_ ?_ hw)⟩
    · rw [State.fld_setReg_other _ _ _ _ (by decide)]
      exact ne_of_eq_of_ne hst Nat.one_ne_zero
    · exact (RF.get_whole _ _).trans (by rw [State.reg_setReg_same])
  case peekClosed =>
    obtain ⟨u, he, -, hdata⟩ := exec_peek_regs (s := s) a
    exact ⟨u, he, hdata.trans (State.peekData_closed ((State.fld_setReg_other _ _ _ _ (by decide)).trans hst))⟩
  case abortOwner =>
    rw [State.attarCmd_abort false hq hst, if_neg (by simp), State.asOwner_owner _ hst ho, State.attarAbort_open 2 hst]
    exact ⟨((State.endSession_closed (by decide)).answered 0).settled s, (settle_fld _ _ _).trans (State.fld_setFld_same _ _ _ (by decide))⟩
  case abortOther =>
    rw [abort, State.attarCmd_abort false hq hst, if_neg (by simp), State.asOwner_other _ hst ho]
    rfl
  case abortForced =>
    rw [State.attarCmd_abort true hq hst, if_pos ⟨rfl, ho⟩, State.attarAbort_open 4 hst]
    exact ((State.endSession_closed (by decide)).answered 0).settled s
  case timeout =>
    rw [State.sessionTimeout_open hst ht hl]
    exact (State.endSession_closed (by decide)).settled s
  case timeoutOff =>
    exact congrArg (done s) (State.sessionTimeout_off ht)

end Sys2Proof.Machine
end

section
/-! PROOFS. The state right after reset (O3). -/

namespace Sys2Proof.Machine

/-- A register that nothing has written holds the reset word of its table. -/
theorem State.reset_reg (a : Nat) : State.reset.reg a = rstWord a := rfl

theorem State.reset_fld (f : RF) : State.reset.fld f = f.get (rstWord f.addr) := rfl

/-- Nothing is stored at reset, so the tables are canonical. -/
theorem State.reset_canonical : State.reset.canonical = true := rfl

theorem State.reset_lc_sound : State.reset.lc.sound = true := rfl

/-- Settles O3: the register file is empty, so each register reads its reset word; the other parts are empty or 0. -/
theorem resetHoldsTheSpecValues : Obligations.ResetHoldsTheSpecValues := by
  have tickLength : State.reset.fld TB_TICKLEN_CYCLES = 10000 := by rw [State.reset_fld]; decide +kernel
  have encTimeout : State.reset.fld (TB_ENC_TIMEOUT_US 0) = 10000 := by rw [State.reset_fld]; decide +kernel
  have irqEnable : State.reset.reg SYS_IRQ_ENABLE_at = 0 := by rw [State.reset_reg]; decide +kernel
  have msiEnable : State.reset.reg SYS_MSI_ENABLE_at = 0 := by rw [State.reset_reg]; decide +kernel
  exact ⟨State.reset_reg, rfl, tickLength, encTimeout, irqEnable, msiEnable, rfl, rfl, rfl, rfl, rfl, fun _ => rfl, fun _ => rfl,
    fun _ => rfl, State.reset_canonical, State.reset_lc_sound⟩

end Sys2Proof.Machine
end

section
/-! PROOFS. Access errors of the host and the maintenance port: what is recorded and what is captured (O9). -/

namespace Sys2Proof.Machine

variable {s : State}

theorem State.fld_setFld_fits {f : RF} {v : Nat} (h : f.lo ≤ f.hi ∧ f.hi < 32) (hv : v < 2 ^ (f.hi + 1 - f.lo)) :
    (s.setFld f v).fld f = v := by
  rw [State.fld_setFld_same _ _ _ h, Nat.mod_eq_of_lt hv]

/-- A cause that is met is set; one that is not stays as it was. -/
def State.raise (s : State) (f : RF) (met : Bool) : State := if met then s.setFld f 1 else s

theorem State.raise_fb_same (f : RF) (met : Bool) (h : f.lo ≤ f.hi ∧ f.hi < 32) : (s.raise f met).fb f = (s.fb f || met) := by
  cases met with
  | true => rw [Bool.or_true]; exact State.fb_setFld_one f h
  | false => rw [Bool.or_false]; rfl

theorem State.raise_fld_apart {f g : RF} (met : Bool) (h : g.addr ≠ f.addr ∨ g.lo ≤ g.hi ∧ (g.hi < f.lo ∨ f.hi < g.lo)) :
    (s.raise f met).fld g = s.fld g := by
  cases met with
  | true => exact State.fld_setFld_apart _ _ _ _ h
  | false => rfl

theorem State.raise_fb_apart {f g : RF} (met : Bool) (h : g.addr ≠ f.addr ∨ g.lo ≤ g.hi ∧ (g.hi < f.lo ∨ f.hi < g.lo)) :
    (s.raise f met).fb g = s.fb g := by
  unfold State.fb; rw [State.raise_fld_apart _ h]

/-- An error is standing: one of the three causes is set. -/
def State.errorStands (s : State) : Bool := s.fb SYS_ERRSTAT_UNMAPPED || s.fb SYS_ERRSTAT_SIZE || s.fb SYS_ERRSTAT_DENIED

/-- The capture of an access error: the first one's address and requester, or OVERFLOW (R26). -/
def State.captureError (s : State) (req a : Nat) : State :=
  if s.errorStands then s.setFld SYS_ERRSTAT_OVERFLOW 1 else (s.setFld SYS_ERRSTAT_REQUESTER req).setFld SYS_ERRADDR_ADDR a

theorem State.captureError_first (req a : Nat) (h : s.errorStands = false) :
    s.captureError req a = (s.setFld SYS_ERRSTAT_REQUESTER req).setFld SYS_ERRADDR_ADDR a := by
  unfold State.captureError
  rw [h]; rfl

theorem State.captureError_further (req a : Nat) (h : s.errorStands = true) : s.captureError req a = s.setFld SYS_ERRSTAT_OVERFLOW 1 := by
  unfold State.captureError
  rw [if_pos h]

/-- An access error is captured, and then its causes are raised. -/
theorem State.accessError_eq (req a : Nat) (unmapped size denied : Bool) : s.accessError req a unmapped size denied =
    (((s.captureError req a).raise SYS_ERRSTAT_UNMAPPED unmapped).raise SYS_ERRSTAT_SIZE size).raise SYS_ERRSTAT_DENIED denied := by
  unfold State.accessError State.captureError State.errorStands
  cases s.fb SYS_ERRSTAT_UNMAPPED || s.fb SYS_ERRSTAT_SIZE || s.fb SYS_ERRSTAT_DENIED <;> rfl

/-- The capture leaves the causes. -/
theorem State.captureError_fb (req a : Nat) {f : RF} (h : f.addr ≠ SYS_ERRADDR_at) (lo : f.lo ≤ f.hi) (hi : f.hi < 3) :
    (s.captureError req a).fb f = s.fb f := by
  cases e : s.errorStands with
  | true => rw [State.captureError_further req a e, State.fb_setFld_apart _ _ _ (.inr ⟨lo, .inl hi⟩)]
  | false =>
    rw [State.captureError_first req a e, State.fb_setFld_apart _ _ _ (.inl h),
      State.fb_setFld_apart _ _ _ (.inr ⟨lo, .inl (Nat.lt_trans hi (by decide))⟩)]

/-- What the causes leave of a field: all fields but the three of the causes. -/
theorem State.accessError_fld (req a : Nat) (unmapped size denied : Bool) {g : RF}
    (h : g.addr ≠ SYS_ERRSTAT_at ∨ g.lo ≤ g.hi ∧ 2 < g.lo) :
    (s.accessError req a unmapped size denied).fld g = (s.captureError req a).fld g := by
  have apart (lo hi : Nat) (hf : hi ≤ 2) : g.addr ≠ SYS_ERRSTAT_at ∨ g.lo ≤ g.hi ∧ (g.hi < lo ∨ hi < g.lo) :=
    h.imp_right fun ⟨ordered, above⟩ => ⟨ordered, .inr (by omega)⟩
  rw [State.accessError_eq, State.raise_fld_apart _ (apart _ _ (by decide)), State.raise_fld_apart _ (apart _ _ (by decide)),
    State.raise_fld_apart _ (apart _ _ (by decide))]

/-- The causes after an access error: those before and those met. -/
theorem State.accessError_causes (req a : Nat) (unmapped size denied : Bool) :
    (s.accessError req a unmapped size denied).fb SYS_ERRSTAT_UNMAPPED = (s.fb SYS_ERRSTAT_UNMAPPED || unmapped) ∧
    (s.accessError req a unmapped size denied).fb SYS_ERRSTAT_SIZE = (s.fb SYS_ERRSTAT_SIZE || size) ∧
    (s.accessError req a unmapped size denied).fb SYS_ERRSTAT_DENIED = (s.fb SYS_ERRSTAT_DENIED || denied) := by
  rw [State.accessError_eq]
  refine ⟨?_, ?_, ?_⟩
  · rw [State.raise_fb_apart _ (by decide), State.raise_fb_apart _ (by decide), State.raise_fb_same _ _ (by decide),
      State.captureError_fb _ _ (by decide) (by decide) (by decide)]
  · rw [State.raise_fb_apart _ (by decide), State.raise_fb_same _ _ (by decide), State.raise_fb_apart _ (by decide),
      State.captureError_fb _ _ (by decide) (by decide) (by decide)]
  · rw [State.raise_fb_same _ _ (by decide), State.raise_fb_apart _ (by decide), State.raise_fb_apart _ (by decide),
      State.captureError_fb _ _ (by decide) (by decide) (by decide)]

/-- The first access error is captured with its address and its requester. -/
theorem State.accessError_first {req a : Nat} (unmapped size denied : Bool) (h : s.errorStands = false) (hq : req < 2 ^ 9) (ha : a < 2 ^ 32) :
    (s.accessError req a unmapped size denied).fld SYS_ERRADDR_ADDR = a ∧
    (s.accessError req a unmapped size denied).fld SYS_ERRSTAT_REQUESTER = req := by
  rw [State.accessError_fld _ _ _ _ _ (by decide), State.accessError_fld _ _ _ _ _ (by decide), State.captureError_first req a h]
  refine ⟨State.fld_setFld_fits (by decide) ha, ?_⟩
  rw [State.fld_setFld_apart _ _ _ _ (by decide)]
  exact State.fld_setFld_fits (by decide) hq

/-- A further access error sets OVERFLOW and leaves the capture. -/
theorem State.accessError_further (req a : Nat) (unmapped size denied : Bool) (h : s.errorStands = true) :
    (s.accessError req a unmapped size denied).fb SYS_ERRSTAT_OVERFLOW = true ∧
    (s.accessError req a unmapped size denied).fld SYS_ERRADDR_ADDR = s.fld SYS_ERRADDR_ADDR ∧
    (s.accessError req a unmapped size denied).fld SYS_ERRSTAT_REQUESTER = s.fld SYS_ERRSTAT_REQUESTER := by
  unfold State.fb
  rw [State.accessError_fld _ _ _ _ _ (by decide), State.accessError_fld _ _ _ _ _ (by decide),
    State.accessError_fld _ _ _ _ _ (by decide), State.captureError_further req a h]
  exact ⟨State.fb_setFld_one _ (by decide), State.fld_setFld_apart _ _ _ _ (by decide), State.fld_setFld_apart _ _ _ _ (by decide)⟩

/-- A refused write of the host or the maintenance port records its access error and nothing else. -/
theorem State.writeOp_refused {req a size : Nat} (v : Word) (coll : Bool) (hq : 403 ≤ req) (hg : s.loaderGate req a = false)
    (he : let e := s.busError req a size true; (e.1 || e.2.1 || e.2.2) = true) : (s.writeOp req a size v coll).1 =
      let e := s.busError req a size true; s.accessError req a e.1 e.2.1 e.2.2 := by
  dsimp only at he ⊢
  unfold State.writeOp State.busRefuse
  dsimp only
  rw [hg, if_neg Bool.false_ne_true, if_pos he, if_pos hq]

/-- A refused read of the host or the maintenance port records its access error and nothing else. -/
theorem State.readOp_refused {req a size : Nat} (hq : 403 ≤ req) (hg : s.loaderGate req a = false)
    (he : let e := s.busError req a size false; (e.1 || e.2.1 || e.2.2) = true) : (s.readOp req a size).1 =
      let e := s.busError req a size false; s.accessError req a e.1 e.2.1 e.2.2 := by
  dsimp only at he ⊢
  unfold State.readOp State.busRefuse
  dsimp only
  rw [hg, if_neg Bool.false_ne_true, if_pos he, if_pos hq]

/-- A refused access of the host or the maintenance port leaves the registers as recording its error does. -/
theorem exec_access_refused {req : Fin 405} {a v : Word} {size : Nat} {write coll : Bool} (hb : s.busRuns = true) (hq : 403 ≤ req.val)
    (hg : (s.loadsFirst req s.tb.now).loaderGate req a.toNat = false) :
    let e := (s.loadsFirst req s.tb.now).busError req a.toNat size write
    (e.1 || e.2.1 || e.2.2) = true →
    ∃ u, exec (if write then .registerWrite req a size ⟨v, coll⟩ else .rcRegisterRead req a size) s = .next u ∧
      u.regs = ((s.loadsFirst req s.tb.now).accessError req a.toNat e.1 e.2.1 e.2.2).regs := by
  intro e he
  cases write with
  | true =>
    refine ⟨_, exec_registerWrite_running req a v size coll hb, ?_⟩
    rw [settle_regs, State.writeOp_refused v coll hq hg he]
  | false =>
    refine ⟨_, exec_rcRegisterRead_running req a size hb, ?_⟩
    rw [settle_regs, State.emit_regs, State.readOp_refused hq hg he]

theorem State.fld_of_regs {t : State} (h : t.regs = s.regs) (f : RF) : t.fld f = s.fld f := by
  unfold State.fld State.reg; rw [h]

theorem State.fb_of_regs {t : State} (h : t.regs = s.regs) (f : RF) : t.fb f = s.fb f := by
  unfold State.fb; rw [State.fld_of_regs h]

theorem State.loadsFirst_fb (req : Nat) (at_ : BitVec 64) (f : RF) : (s.loadsFirst req at_).fb f = s.fb f := by
  unfold State.fb; rw [State.loadsFirst_fld]

/-- Settles O9: a refused access records its error as `accessError` does; serving the loads before it has changed no register. -/
theorem accessErrorsAreCaptured : Obligations.AccessErrorsAreCaptured := by
  intro s req a v size write coll c s0 hb hq hg hc e he any
  obtain ⟨u, hu, regs⟩ := exec_access_refused (v := v) (coll := coll) hb hq hg he
  have stands : s0.errorStands = any := by
    unfold State.errorStands
    rw [State.loadsFirst_fb, State.loadsFirst_fb, State.loadsFirst_fb]
  obtain ⟨unmapped, badSize, denied⟩ := State.accessError_causes (s := s0) req a.toNat e.1 e.2.1 e.2.2
  rw [State.loadsFirst_fb] at unmapped badSize denied
  have fld := State.fld_of_regs regs
  have fb := State.fb_of_regs regs
  refine ⟨u, hc ▸ hu, (fb _).trans unmapped, (fb _).trans badSize, (fb _).trans denied, fun first => ?_, fun further => ?_⟩
  · rw [fld, fld]
    exact State.accessError_first _ _ _ (stands.trans first) (Nat.lt_trans req.isLt (by decide)) a.isLt
  · obtain ⟨overflow, addr, requester⟩ := State.accessError_further (s := s0) req a.toNat e.1 e.2.1 e.2.2 (stands.trans further)
    rw [State.loadsFirst_fld] at addr requester
    exact ⟨(fb _).trans overflow, (fld _).trans addr, (fld _).trans requester⟩

end Sys2Proof.Machine
end

section
/-! PROOFS. Engines on the device bus: posted writes and blocking loads; interrupts sent again (O11). -/

namespace Sys2Proof.Machine

variable {s : State} {t : Nat}

/-! ### Posted writes (R19, R76) -/

/-- While the bus and the sector run, the oldest posted write is written in its turn; a refused one faults its channel. -/
theorem State.postedAccept_running {w : PostedWrite} {r : List PostedWrite} (coll : Bool) (hw : (s.engOf t).buf = w :: r)
    (hb : s.busRuns = true) (hs : s.sectRuns (t / 16) = true) :
    let q := (s.setEng t ((s.engOf t).accepted r s.tb.now)).busWrite t w.addr w.size w.data coll
    s.postedAccept t coll = if q.2 = .refused then q.1.postFault t w else q.1 := by
  intro q
  unfold State.postedAccept
  dsimp only
  rw [hw]
  dsimp only
  rw [if_neg (by simp [hb, hs])]
  split
  · next refused => exact (if_pos refused).symm
  · next taken => exact (if_neg taken).symm

/-- While the bus or the sector stands, posted writes wait. -/
theorem State.postedAccept_standing (coll : Bool) (h : s.busRuns = false ∨ s.sectRuns (t / 16) = false) : s.postedAccept t coll = s := by
  unfold State.postedAccept
  dsimp only
  split
  · rfl
  · rw [if_pos h]

/-! ### Blocking loads (R65, R88) -/

/-- The activation `a` of LE[t] waits for the load `g`, which nothing holds back: the bus and the sector run, and no posted write stands
before it. -/
structure State.AwaitsLoad (s : State) (t : Nat) (g : GlobalLoad) (a : Act) : Prop where
  bus : s.busRuns = true
  sector : s.sectRuns (t / 16) = true
  load : (s.engOf t).gload = some g
  act : (s.engOf t).act = some a
  drained : (s.engOf t).buf = []

/-- The cycles charged for a load that returns after `n` cycles: no fewer than both crossings and one SYS_CLK cycle (R88). -/
def State.loadCycles (s : State) (t n : Nat) : Nat := max n (5 + s.sectUp (t / 16) 5)

/-- The load's read in its turn, behind the loads that asked before it (R19). -/
def State.loadRead (s : State) (t : Nat) (g : GlobalLoad) : State × Nat × Ended := (s.loadsFirst t g.asked).readOp t g.addr g.size

/-- What the load has read: already, before a later request, or in its turn. -/
def State.loadGot (s : State) (t : Nat) (g : GlobalLoad) : Nat × Ended := g.got.getD ((s.loadRead t g).2.1, (s.loadRead t g).2.2)

/-- The state behind the load's read, with LE[t] no longer waiting for it. -/
def State.loadBack (s : State) (t : Nat) (g : GlobalLoad) : State :=
  (s.loadRead t g).1.setEng t { (s.loadRead t g).1.engOf t with gload := none }

section
variable {n : Nat} {g : GlobalLoad} {a : Act} (h : s.AwaitsLoad t g a)
include h

/-- The response of a load that nothing holds back: too late for the budget, a fault, or its word. -/
theorem State.loadResponse_eq : s.loadResponse t n =
    if a.used + s.loadCycles t n > a.budget then s.exhaust t a
    else
      let a1 := { a with pc := a.pc - 1, used := a.used + (s.loadCycles t n - 1) }
      match (s.loadGot t g).2 with
      | .ecc => (s.loadBack t g).chanFault t 7 (BitVec.ofNat 32 g.addr) 0 a1
      | .refused => (s.loadBack t g).chanFault t 5 (BitVec.ofNat 32 g.addr) 0 a1
      | .fine =>
        let w := extend g.size (s.loadGot t g).1 g.sx
        (s.loadBack t g).unblock t (s.loadCycles t n) a (fun b => (b.setPtr g.ptr g.ptrNew).setVal g.rd w) w := by
  unfold State.loadResponse
  dsimp only
  rw [h.load, h.act]
  dsimp only
  rw [if_neg (by simp [h.bus, h.sector, h.drained])]
  rfl

theorem State.loadResponse_late (late : a.budget < a.used + s.loadCycles t n) :
    s.loadResponse t n = s.setAct t (some { a with used := a.budget }) := by
  rw [State.loadResponse_eq h, if_pos late]
  rfl

theorem State.loadResponse_bad (fits : a.used + s.loadCycles t n ≤ a.budget) (bad : (s.loadGot t g).2 ≠ .fine) :
    s.loadResponse t n = (s.loadBack t g).chanFault t (if (s.loadGot t g).2 = .ecc then 7 else 5) (BitVec.ofNat 32 g.addr) 0
      { a with pc := a.pc - 1, used := a.used + (s.loadCycles t n - 1) } := by
  rw [State.loadResponse_eq h, if_neg (Nat.not_lt.mpr fits)]
  cases e : (s.loadGot t g).2 with
  | fine => exact absurd e bad
  | refused => rfl
  | ecc => rfl

theorem State.loadResponse_fine (fits : a.used + s.loadCycles t n ≤ a.budget) (run : a.step = false) (fine : (s.loadGot t g).2 = .fine) :
    let w := extend g.size (s.loadGot t g).1 g.sx
    let c := (s.loadBack t g).chanOf (16 * t + a.slot)
    s.loadResponse t n = ((s.loadBack t g).setChan (16 * t + a.slot) { c with bank := (c.bank.setPtr g.ptr g.ptrNew).setVal g.rd w }).setAct t
      (some { a with used := a.used + s.loadCycles t n, words := a.words ++ [w], count := a.count + 1 }) := by
  intro w c
  rw [State.loadResponse_eq h, if_neg (Nat.not_lt.mpr fits), fine]
  dsimp only
  unfold State.unblock
  dsimp only
  rw [if_neg (Nat.not_lt.mpr fits), if_neg (by simp [run])]

end

/-! ### SYS_IRQ_EOI (R30, R31, R393) -/

/-- The vectors of no group change nothing. -/
theorem State.sendMsi_none : s.sendMsi 0 = s := by
  have sent : s.msiVectors 0 = [] := rfl
  unfold State.sendMsi
  rw [sent, List.map_nil, List.append_nil]
  exact ite_self _

theorem State.irqEoi_eq (v : Word) : s.irqEoi v = s.sendMsi (v.toNat &&& s.irqPend &&& (s.reg SYS_MSI_ENABLE_at).toNat) := by
  unfold State.irqEoi
  dsimp only
  split
  · next nobody => rw [nobody, State.sendMsi_none]
  · rfl

/-- Settles O11: posted writes by the turn of the bus, loads by the budget and by what they have read, EOI by what the endpoint may send. -/
theorem postedWritesLoadsAndRearms : Obligations.PostedWritesLoadsAndRearms := by
  refine ⟨fun s t w r coll hw => ?posted, fun s t n g a hb hs hg ha hd => ?loads, fun s v => ?eoi⟩
  case posted =>
    have accept (u : State) (e : s.postedAccept t coll = u) : exec (.postedWriteAccept ⟨t, coll⟩) s = .next (settle s u) :=
      congrArg (done s) e
    have running (h : (s.busRuns && s.sectRuns (t / 16)) = true) :=
      State.postedAccept_running coll hw (Bool.and_eq_true_iff.mp h).1 (Bool.and_eq_true_iff.mp h).2
    refine ⟨fun h taken => accept _ ?_, fun h refused => accept _ ?_, fun h => accept _ ?_⟩
    · rw [running h, if_neg taken]
    · rw [running h, if_pos refused]
    · exact State.postedAccept_standing coll (Bool.and_eq_false_iff.mp h)
  case loads =>
    have awaits : s.AwaitsLoad t g a := ⟨hb, hs, hg, ha, hd⟩
    refine ⟨fun late => ?_, fun fits run fine => ?_, fun fits bad => ?_⟩
    · exact congrArg (done s) (State.loadResponse_late awaits late)
    · exact congrArg (done s) (State.loadResponse_fine awaits fits run fine)
    · exact congrArg (done s) (State.loadResponse_bad awaits fits bad)
  case eoi =>
    have eoi : exec (.sysIrqEoi v) s = .next (settle s (s.irqEoi v)) := rfl
    refine ⟨fun isOpen => ?_, fun closed => ?_⟩
    · rw [eoi, State.irqEoi_eq, State.sendMsi, if_pos isOpen]
    · rw [eoi, State.irqEoi_eq, State.sendMsi, if_neg (by simp [closed])]

end Sys2Proof.Machine
end

section
/-! PROOFS. LD and ST: where the computed address leads, and what the access leaves (O17). -/

namespace Sys2Proof.Machine

variable {s : State} {t m : Nat} {e : EI} {a : Act} {w : PortWait} {aw p : Word} {f : Eff}

/-! ### What an access of a scratchpad or a data RAM leaves -/

/-- A state that differs from `s` in what memories hold alone: their words, check bits, error registers and windows under test. -/
def State.MemoryOnly (s u : State) : Prop :=
  ∃ r m e q i, u = { s with regs := r, mem := m, ecc := e, wbq := q, ist := i }

theorem State.MemoryOnly.refl (s : State) : s.MemoryOnly s := ⟨_, _, _, _, _, rfl⟩

theorem State.MemoryOnly.trans {u v : State} (h : s.MemoryOnly u) (g : u.MemoryOnly v) : s.MemoryOnly v := by
  obtain ⟨r, m, e, q, i, rfl⟩ := h
  obtain ⟨r', m', e', q', i', rfl⟩ := g
  exact ⟨r', m', e', q', i', rfl⟩

theorem State.MemoryOnly.eng {u : State} (h : s.MemoryOnly u) : u.eng = s.eng := by
  obtain ⟨r, m, e, q, i, rfl⟩ := h
  rfl

theorem State.MemoryOnly.chans {u : State} (h : s.MemoryOnly u) : u.chans = s.chans := by
  obtain ⟨r, m, e, q, i, rfl⟩ := h
  rfl

theorem State.touch_memoryOnly (x : Nat) : s.MemoryOnly (s.touch x) := by
  obtain ⟨i, r, e, -⟩ := s.touch_same x
  exact ⟨r, _, _, _, i, e⟩

theorem State.setFld_memoryOnly (g : RF) (v : Nat) : s.MemoryOnly (s.setFld g v) := ⟨_, _, _, _, _, rfl⟩

theorem State.addSat_memoryOnly (g : RF) (n : Nat) : s.MemoryOnly (s.addSat g n) := State.setFld_memoryOnly _ _

/-- Words that wait for their write-back. -/
theorem State.wbq_memoryOnly (q : List Nat) : s.MemoryOnly { s with wbq := q } := ⟨_, _, _, _, _, rfl⟩

theorem State.noteCe_memoryOnly (x : Nat) : s.MemoryOnly (s.noteCe x) := by
  have counted (k : Nat) := (State.addSat_memoryOnly (s := s) (SCR_ECC_CNT_CE k) 1).trans (State.setFld_memoryOnly (SCR_IRQ_STAT_CE k) 1)
  unfold State.noteCe
  dsimp only
  split
  · exact .refl s
  · split
    · exact (counted _).trans (State.wbq_memoryOnly _)
    · exact counted _

theorem State.noteUe_memoryOnly (x : Nat) : s.MemoryOnly (s.noteUe x) := by
  have counted (u : State) (k : Nat) := (State.addSat_memoryOnly (s := u) (SCR_ECC_CNT_UE k) 1).trans (State.setFld_memoryOnly (SCR_IRQ_STAT_UE k) 1)
  unfold State.noteUe
  dsimp only
  split
  · exact .refl s
  · split
    · exact counted _ _
    · exact (State.setFld_memoryOnly _ _).trans (counted _ _)

theorem State.readWord_memoryOnly (x : Nat) : s.MemoryOnly (s.readWord x).1 := by
  unfold State.readWord
  split
  · exact .refl s
  · exact State.noteCe_memoryOnly x
  · exact State.noteUe_memoryOnly x

theorem State.store_memoryOnly (x n v : Nat) : s.MemoryOnly (s.store x n v) := by
  induction n generalizing s x v with
  | zero => exact .refl s
  | succ n ih => exact State.MemoryOnly.trans ⟨_, _, _, _, _, rfl⟩ (ih _ _)

theorem State.setWord_memoryOnly (x : Nat) (v : Word) : s.MemoryOnly (s.setWord x v) := State.store_memoryOnly x 4 v.toNat

theorem State.setFlips_memoryOnly (x v : Nat) : s.MemoryOnly (s.setFlips x v) := ⟨_, _, _, _, _, rfl⟩

/-- A word stored with new check bits, which no write-back waits for any more. -/
theorem State.restore_memoryOnly (x : Nat) (v : Word) :
    s.MemoryOnly (({ s with wbq := s.wbq.erase x } : State).setWord x v |>.setFlips x 0) :=
  (State.wbq_memoryOnly _).trans ((State.setWord_memoryOnly x v).trans (State.setFlips_memoryOnly x 0))

theorem State.inject_memoryOnly (k x : Nat) : s.MemoryOnly (s.inject k x) := by
  unfold State.inject
  split
  · exact (State.setFlips_memoryOnly _ _).trans (State.setFld_memoryOnly _ _)
  · exact .refl s

theorem State.writeWord_memoryOnly (x : Nat) (v : Word) : s.MemoryOnly (s.writeWord x v) := by
  unfold State.writeWord
  dsimp only
  split
  · exact (State.restore_memoryOnly x v).trans (State.inject_memoryOnly _ _)
  · exact State.restore_memoryOnly x v

theorem State.mergeWord_memoryOnly (x : Nat) (g : Word → Word) : s.MemoryOnly (s.mergeWord x g) := by
  have read := State.readWord_memoryOnly (s := s) x
  unfold State.mergeWord
  generalize s.readWord x = r at read ⊢
  obtain ⟨s1, v, bad⟩ := r
  dsimp only at read ⊢
  split
  · exact read
  · exact read.trans (State.restore_memoryOnly x _)

theorem State.memRead_memoryOnly (x size : Nat) : s.MemoryOnly (s.memRead x size).1 := by
  have state : (s.memRead x size).1 = ((s.touch x).readWord (x - x % 4)).1 := rfl
  rw [state]
  exact (State.touch_memoryOnly x).trans (State.readWord_memoryOnly _)

theorem State.memWrite_memoryOnly (view x size v : Nat) : s.MemoryOnly (s.memWrite view x size v) := by
  refine (State.touch_memoryOnly x).trans ?_
  unfold State.memWrite
  dsimp only
  split
  · exact State.mergeWord_memoryOnly _ _
  · exact State.mergeWord_memoryOnly _ _
  · split
    · exact State.writeWord_memoryOnly _ _
    · exact State.mergeWord_memoryOnly _ _
  · split
    · exact State.writeWord_memoryOnly _ _
    · exact State.mergeWord_memoryOnly _ _

@[simp] theorem State.toPartner_eng (kind : String) (ws : List Nat) : (s.toPartner kind ws).eng = s.eng := by
  obtain ⟨o, p, r, e, -⟩ := s.toPartner_same kind ws
  rw [e]

@[simp] theorem State.toPartner_chans (kind : String) (ws : List Nat) : (s.toPartner kind ws).chans = s.chans := by
  obtain ⟨o, p, r, e, -⟩ := s.toPartner_same kind ws
  rw [e]

theorem State.engOf_of_eng {u : State} (h : u.eng = s.eng) (t : Nat) : u.engOf t = s.engOf t := by
  unfold State.engOf; rw [h]

theorem State.chanOf_of_chans {u : State} (h : u.chans = s.chans) (i : Nat) : u.chanOf i = s.chanOf i := by
  unfold State.chanOf; rw [h]

theorem State.noteStore_engOf_same (bs : List Byte) : (s.noteStore t bs).engOf t = { s.engOf t with outs := (s.engOf t).outs ++ bs } :=
  State.engOf_setEng_same _ _ _

/-! ### Where an access leads (R73, R74, R86) -/

/-- The address of an access is one that its view takes. -/
def EI.takes (e : EI) (x : Nat) : Prop := x % 2 ^ e.sz = 0 ∨ rotateView x = true

theorem EI.takes.passes {x : Nat} (h : e.takes x) : ¬ (x % 2 ^ e.sz ≠ 0 ∧ rotateView x = false) :=
  fun ⟨odd, plain⟩ => h.elim odd (fun rotate => by simp [rotate] at plain)

theorem State.refused_own {k x size : Nat} (write : Bool) (h : targetOf t k x = .own m) : s.refused t k x size write = false := by
  unfold State.refused; rw [h]

theorem State.refused_scratch {k x size : Nat} (write : Bool) (h : targetOf t k x = .scratch m) : s.refused t k x size write = false := by
  unfold State.refused; rw [h]

/-- A live activation logs what it takes from outside its tile (R302). -/
theorem Eff.ext_live (v : Word) (h : f.a.log = none) : f.ext v = ({ f with a := { f.a with words := f.a.words ++ [v] } }, v) := by
  unfold Eff.ext; rw [h]

theorem Eff.replay_live (h : f.a.log = none) : f.replay = false := by
  unfold Eff.replay; rw [h]; rfl

/-! ### What LD does, by its target -/

section
variable (hx : e.address f.c.bank = (aw, p))
include hx

theorem semLd_misaligned (h : aw.toNat % 2 ^ e.sz ≠ 0) (hv : rotateView aw.toNat = false) : semLd w e f = .fault 4 aw := by
  unfold semLd
  rw [hx]
  exact if_pos ⟨h, hv⟩

theorem semSt_misaligned (h : aw.toNat % 2 ^ e.sz ≠ 0) (hv : rotateView aw.toNat = false) : semSt w e f = .fault 4 aw := by
  unfold semSt
  rw [hx]
  exact if_pos ⟨h, hv⟩

variable (ha : e.takes aw.toNat)
include ha

theorem semLd_refused (h : f.s.refused f.t f.slot aw.toNat (2 ^ e.sz) false = true) : semLd w e f = .fault 5 aw := by
  unfold semLd
  rw [hx]
  dsimp only
  rw [if_neg ha.passes, if_pos h]

theorem semSt_refused (h : f.s.refused f.t f.slot aw.toNat (2 ^ e.sz) true = true) : semSt w e f = .fault 5 aw := by
  unfold semSt
  rw [hx]
  dsimp only
  rw [if_neg ha.passes, if_pos h]

/-- LD of the own data RAM. -/
theorem semLd_own (ht : targetOf f.t f.slot aw.toNat = .own m) :
    let r := f.s.memRead m (2 ^ e.sz)
    semLd w e f = if r.2.2 then .bad r.1 aw else .ok ⟨r.1, f.t,
      { f.c with bank := (f.c.bank.setPtr e.sub p).setVal e.rd (extend (2 ^ e.sz) r.2.1 e.sx) }, { f.a with hazard := .loaded e.rd }⟩ 1 none := by
  intro r
  unfold semLd
  rw [hx]
  dsimp only
  rw [if_neg ha.passes, State.refused_own false ht, if_neg Bool.false_ne_true, ht]
  rfl

theorem semLd_own_good (ht : targetOf f.t f.slot aw.toNat = .own m) (good : (f.s.memRead m (2 ^ e.sz)).2.2 = false) :
    semLd w e f = .ok ⟨(f.s.memRead m (2 ^ e.sz)).1, f.t,
      { f.c with bank := (f.c.bank.setPtr e.sub p).setVal e.rd (extend (2 ^ e.sz) (f.s.memRead m (2 ^ e.sz)).2.1 e.sx) },
      { f.a with hazard := .loaded e.rd }⟩ 1 none := by
  rw [semLd_own hx ha ht, good]; rfl

theorem semLd_own_bad (ht : targetOf f.t f.slot aw.toNat = .own m) (bad : (f.s.memRead m (2 ^ e.sz)).2.2 = true) :
    semLd w e f = .bad (f.s.memRead m (2 ^ e.sz)).1 aw := by
  rw [semLd_own hx ha ht, bad]; rfl

/-- LD of the own sector's scratchpad by a live activation. -/
theorem semLd_scratch (live : f.a.log = none) (ht : targetOf f.t f.slot aw.toNat = .scratch m) :
    let r := (f.s.portServed (bankOfAddr m) (f.t % 16) w).memRead (normalView m) (2 ^ e.sz)
    let v := extend (2 ^ e.sz) r.2.1 e.sx
    semLd w e f = if r.2.2 then .bad r.1 aw else .ok ⟨r.1, f.t,
      { f.c with bank := (f.c.bank.setPtr e.sub p).setVal e.rd v }, { f.a with words := f.a.words ++ [v] }⟩
      (3 + f.s.portWait m (f.t % 16) w) none := by
  intro r v
  unfold semLd
  rw [hx]
  dsimp only
  rw [if_neg ha.passes, State.refused_scratch false ht, if_neg Bool.false_ne_true, ht]
  dsimp only
  rw [Eff.replay_live live, Eff.ext_live _ (by exact live)]
  simp only [and_true]
  rfl

theorem semLd_scratch_good (live : f.a.log = none) (ht : targetOf f.t f.slot aw.toNat = .scratch m) :
    let r := (f.s.portServed (bankOfAddr m) (f.t % 16) w).memRead (normalView m) (2 ^ e.sz)
    let v := extend (2 ^ e.sz) r.2.1 e.sx
    r.2.2 = false → semLd w e f = .ok ⟨r.1, f.t, { f.c with bank := (f.c.bank.setPtr e.sub p).setVal e.rd v },
      { f.a with words := f.a.words ++ [v] }⟩ (3 + f.s.portWait m (f.t % 16) w) none := by
  intro r v good
  rw [semLd_scratch hx ha live ht, good]; rfl

theorem semLd_scratch_bad (live : f.a.log = none) (ht : targetOf f.t f.slot aw.toNat = .scratch m) :
    let r := (f.s.portServed (bankOfAddr m) (f.t % 16) w).memRead (normalView m) (2 ^ e.sz)
    r.2.2 = true → semLd w e f = .bad r.1 aw := by
  intro r bad
  rw [semLd_scratch hx ha live ht, bad]; rfl

/-- LD over the device bus by a live activation: the load leaves the engine and its answer is awaited. -/
theorem semLd_global (live : f.a.log = none) (ht : targetOf f.t f.slot aw.toNat = .global m)
    (hp : f.s.refused f.t f.slot aw.toNat (2 ^ e.sz) false = false) : semLd w e f =
      .ok { f with s := f.s.setEng f.t { f.s.engOf f.t with gload := some ⟨m, 2 ^ e.sz, e.sx, e.rd, e.sub, p, f.s.tb.now, none⟩ } } 0 none := by
  unfold semLd
  rw [hx]
  dsimp only
  rw [if_neg ha.passes, hp, if_neg Bool.false_ne_true, ht]
  dsimp only
  rw [live]

/-! ### What ST does, by its target -/

/-- ST to the own data RAM. -/
theorem semSt_own (ht : targetOf f.t f.slot aw.toNat = .own m) :
    let v := (f.c.bank.val e.rd).toNat % 2 ^ (8 * 2 ^ e.sz)
    let s1 := f.s.memWrite 0 m (2 ^ e.sz) v
    semSt w e f = .ok ⟨if s1.joinRuns then s1.toPartner "WRITE" [m, 2 ^ e.sz, v] else s1, f.t,
      { f.c with bank := f.c.bank.setPtr e.sub p }, f.a⟩ 1 none := by
  intro v s1
  unfold semSt
  rw [hx]
  dsimp only
  rw [if_neg ha.passes, State.refused_own true ht, if_neg Bool.false_ne_true, ht]
  rfl

/-- ST to the own sector's scratchpad by a live activation. -/
theorem semSt_scratch (live : f.a.log = none) (ht : targetOf f.t f.slot aw.toNat = .scratch m) :
    let v := (f.c.bank.val e.rd).toNat % 2 ^ (8 * 2 ^ e.sz)
    let view := m / 0x1000000 % 4
    let s1 := f.s.noteStore f.t (streamWord aw ++ streamWord (BitVec.ofNat 32 v))
    semSt w e f = .ok
      ⟨((s1.portServed (bankOfAddr m) (f.t % 16) w).memWrite view (normalView m) (2 ^ e.sz) v).toPartner "WRITE" [m, 2 ^ e.sz, v], f.t,
        { f.c with bank := f.c.bank.setPtr e.sub p }, f.a⟩
      ((if view = 1 ∨ view = 2 then 3 else 2) + f.s.portWait m (f.t % 16) w) none := by
  intro v view s1
  unfold semSt
  rw [hx]
  dsimp only
  rw [if_neg ha.passes, State.refused_scratch true ht, if_neg Bool.false_ne_true, ht]
  dsimp only
  rw [Eff.replay_live live]
  rfl

section
variable (live : f.a.log = none) (ht : targetOf f.t f.slot aw.toNat = .global m)
  (hp : f.s.refused f.t f.slot aw.toNat (2 ^ e.sz) true = false)
include live ht hp

/-- ST over the device bus by a live activation, while the posted-write buffer has room: it takes the write. -/
theorem semSt_global_room (room : (f.s.engOf f.t).buf.length < 4) :
    let v := (f.c.bank.val e.rd).toNat % 2 ^ (8 * 2 ^ e.sz)
    let s1 := f.s.noteStore f.t (streamWord aw ++ streamWord (BitVec.ofNat 32 v))
    semSt w e f = .ok
      ⟨s1.setEng f.t { s1.engOf f.t with
        buf := (s1.engOf f.t).buf ++ [⟨m, 2 ^ e.sz, BitVec.ofNat 32 v, f.slot, f.a.pc - 1, f.s.tb.now⟩] }, f.t,
        { f.c with bank := f.c.bank.setPtr e.sub p }, f.a⟩ (1 + (if (f.s.engOf f.t).stalled then w.earlier else 0)) none := by
  intro v s1
  have stalled : (s1.engOf f.t).stalled = (f.s.engOf f.t).stalled := by rw [State.noteStore_engOf_same]
  rw [← stalled]
  unfold semSt
  rw [hx]
  dsimp only
  rw [if_neg ha.passes, hp, if_neg Bool.false_ne_true, ht]
  dsimp only
  rw [Eff.replay_live live, if_neg Bool.false_ne_true, if_neg (Nat.not_le.mpr room)]
  rfl

/-- ST over the device bus that finds the posted-write buffer full does not issue. -/
theorem semSt_global_full (full : 4 ≤ (f.s.engOf f.t).buf.length) : semSt w e f = .wait := by
  unfold semSt
  rw [hx]
  dsimp only
  rw [if_neg ha.passes, hp, if_neg Bool.false_ne_true, ht]
  dsimp only
  rw [Eff.replay_live live, if_neg Bool.false_ne_true, if_pos full]

end

end

/-! ### What the engine keeps of it -/

section
variable (h : Issues s t e a) {sem : EI → Eff → Res}
include h

/-- An instruction that leaves the state `u`, the bank `b` and the activation `a'`, with no load and no cancel awaited. -/
theorem State.issue_done {cost : Nat} {u : State} {b : Bank} {a' : Act} (fit : a.has e cost) (c : 1 ≤ cost)
    (hs : sem e (effOf s t e a) = .ok ⟨u, t, { s.chanOf (16 * t + a.slot) with bank := b }, a'⟩ cost none)
    (hg : (u.engOf t).gload = none) (hc : (u.engOf t).cancelRd = none) :
    s.issue t e.op sem = (u.setChan (16 * t + a.slot) { s.chanOf (16 * t + a.slot) with bank := b }).goesOn t
      { a' with used := a.used + hazardCycles a.hazard e + cost, count := a.count + 1, skipBp := false } := by
  have first : a.has e 1 := by unfold Act.has at *; omega
  rw [State.issue_eq h first, hs, State.retire_ok h.step fit hg hc]
  rfl

/-- The same where the engines and the slots stay as they were, and nothing is logged. -/
theorem State.issue_stepped {cost : Nat} {u : State} {b : Bank} {hz : Hazard} (fit : a.has e cost) (c : 1 ≤ cost)
    (hs : sem e (effOf s t e a) =
      .ok ⟨u, t, { s.chanOf (16 * t + a.slot) with bank := b }, { (effOf s t e a).a with hazard := hz }⟩ cost none)
    (eng : u.eng = s.eng) (chans : u.chans = s.chans) : s.issue t e.op sem = u.stepped t e a cost hz b := by
  obtain ⟨noLoad, noCancel, -, -⟩ := State.issues_calm h.act
  rw [State.issue_done h fit c hs (by rw [State.engOf_of_eng eng, noLoad]) (by rw [State.engOf_of_eng eng, noCancel])]
  unfold State.stepped State.ran1
  rw [State.chanOf_of_chans chans]
  rfl

/-- An instruction that logs the words `ws`, with no load and no cancel awaited. -/
theorem State.issue_logs {cost : Nat} {u : State} {b : Bank} {ws : List Word} (fit : a.has e cost) (c : 1 ≤ cost)
    (hs : sem e (effOf s t e a) =
      .ok ⟨u, t, { s.chanOf (16 * t + a.slot) with bank := b }, { (effOf s t e a).a with words := a.words ++ ws }⟩ cost none)
    (hg : (u.engOf t).gload = none) (hc : (u.engOf t).cancelRd = none) :
    s.issue t e.op sem = (u.setChan (16 * t + a.slot) { s.chanOf (16 * t + a.slot) with bank := b }).goesOn t
      { a.after e cost (a.pc + 1) .none with words := a.words ++ ws } :=
  State.issue_done h fit c hs hg hc

variable (first : a.has e 1)
include first

theorem State.issue_fault {cause : Nat} {x : Word} (hs : sem e (effOf s t e a) = .fault cause x) :
    s.issue t e.op sem = s.chanFault t cause x (hazardCycles a.hazard e) a := by
  rw [State.issue_eq h first, hs]; rfl

theorem State.issue_bad {u : State} {x : Word} (hs : sem e (effOf s t e a) = .bad u x) :
    s.issue t e.op sem = u.chanFault t 7 x (hazardCycles a.hazard e) a := by
  rw [State.issue_eq h first, hs]; rfl

theorem State.issue_wait (hs : sem e (effOf s t e a) = .wait) :
    s.issue t e.op sem = s.setEng t { s.engOf t with stalled := true } := by
  rw [State.issue_eq h first, hs]; rfl

/-- A load that has left the engine: it waits, and the instruction is not yet counted. -/
theorem State.issue_loads {g : GlobalLoad}
    (hs : sem e (effOf s t e a) = .ok { effOf s t e a with s := s.setEng t { s.engOf t with gload := some g } } 0 none) :
    s.issue t e.op sem = ((s.setEng t { s.engOf t with gload := some g }).setChan (16 * t + a.slot) (s.chanOf (16 * t + a.slot))).goesOn t
      { a with pc := a.pc + 1, used := a.used + hazardCycles a.hazard e, hazard := .none, skipBp := false } := by
  have within : ¬ a.used + hazardCycles a.hazard e + 0 > a.budget := by unfold Act.has at first; omega
  have awaited : ((s.setEng t { s.engOf t with gload := some g }).engOf t).gload = some g := by rw [State.engOf_setEng_same]
  rw [State.issue_eq h first, hs]
  unfold State.retire
  dsimp only
  rw [if_neg within, if_neg (fun ⟨stepped, _⟩ => by simp [h.step] at stepped), awaited]
  rfl

end

/-- What the next instruction leaves is what the engine keeps of its meaning. -/
theorem exec_ld_of_issue {t : Fin 256} {u : State} (op : e.op = .ld) (h : s.issue t e.op (semLd w) = u) :
    exec (.ld t w) s = .next (settle s u) := by
  rw [op] at h
  exact congrArg (done s) h

theorem exec_st_of_issue {t : Fin 256} {u : State} (op : e.op = .st) (h : s.issue t e.op (semSt w) = u) :
    exec (.st t w) s = .next (settle s u) := by
  rw [op] at h
  exact congrArg (done s) h

/-- Settles O17: each clause is the meaning of LD or ST at its target, and what the engine keeps of it. -/
theorem loadAndStoreReachTheDataRam : Obligations.LoadAndStoreReachTheDataRam := by
  intro s t w e a h first b i c size addr b1 v bad on aligned
  have hx : e.address (effOf s t e a).c.bank = (addr, (e.address b).2) := rfl
  obtain ⟨noLoad, noCancel, -, -⟩ := State.issues_calm h.act
  refine ⟨fun m even ht => ?own, fun m ha live ht => ?scratch, fun m ha live ht => ?global, fun odd plain => ?misaligned, fun ha => ?refused⟩
  case own =>
    have ha : e.takes addr.toNat := .inl even
    have read := State.memRead_memoryOnly (s := s) m size
    have wrote := State.memWrite_memoryOnly (s := s) 0 m size v
    refine ⟨fun op good => exec_ld_of_issue op ?_, fun op broken => exec_ld_of_issue op ?_, fun op => exec_st_of_issue op ?_⟩
    · exact State.issue_stepped h first (Nat.le_refl 1) (semLd_own_good hx ha ht good) read.eng read.chans
    · exact State.issue_bad h first (semLd_own_bad hx ha ht broken)
    · refine State.issue_stepped h first (Nat.le_refl 1) (semSt_own hx ha ht) ?_ ?_
      · rw [apply_ite State.eng, State.toPartner_eng, ite_self]
        exact wrote.eng
      · rw [apply_ite State.chans, State.toPartner_chans, ite_self]
        exact wrote.chans
  case scratch =>
    intro bank wait view r n s1
    have read : r.1.eng = s.eng := (State.memRead_memoryOnly _ _).eng
    have stored : (((s1.portServed bank (t % 16) w).memWrite view (normalView m) size v).toPartner "WRITE" [m, size, v]).engOf t = s1.engOf t :=
      State.engOf_of_eng ((State.toPartner_eng _ _).trans (State.memWrite_memoryOnly _ _ _ _).eng) t
    have noted := stored.trans (State.noteStore_engOf_same _)
    refine ⟨fun op fit good => exec_ld_of_issue op ?_, fun op broken => exec_ld_of_issue op ?_, fun op fit => exec_st_of_issue op ?_⟩
    · exact State.issue_logs h fit (by omega) (semLd_scratch_good hx ha live ht good) (by rw [State.engOf_of_eng read, noLoad])
        (by rw [State.engOf_of_eng read, noCancel])
    · exact State.issue_bad h first (semLd_scratch_bad hx ha live ht broken)
    · have cost : 1 ≤ n := by
        show 1 ≤ (if view = 1 ∨ view = 2 then 3 else 2) + wait
        split <;> omega
      refine State.issue_logs h fit cost ?_ (by rw [noted]; exact noLoad) (by rw [noted]; exact noCancel)
      rw [List.append_nil]
      exact semSt_scratch hx ha live ht
  case global =>
    intro s1 n
    have noted : s1.engOf t = _ := State.noteStore_engOf_same _
    refine ⟨fun op permitted => exec_ld_of_issue op ?_, fun op permitted fit room => exec_st_of_issue op ?_,
      fun op permitted full => exec_st_of_issue op ?_⟩
    · exact State.issue_loads h first (semLd_global hx ha live ht permitted)
    · refine State.issue_logs h fit (by omega) ?_ (by rw [State.engOf_setEng_same, noted]; exact noLoad)
        (by rw [State.engOf_setEng_same, noted]; exact noCancel)
      rw [List.append_nil]
      exact semSt_global_room hx ha live ht permitted room
    · exact State.issue_wait h first (semSt_global_full hx ha live ht permitted full)
  case misaligned =>
    exact ⟨fun op => exec_ld_of_issue op (State.issue_fault h first (semLd_misaligned hx odd plain)),
      fun op => exec_st_of_issue op (State.issue_fault h first (semSt_misaligned hx odd plain))⟩
  case refused =>
    exact ⟨fun op denied => exec_ld_of_issue op (State.issue_fault h first (semLd_refused hx ha denied)),
      fun op denied => exec_st_of_issue op (State.issue_fault h first (semSt_refused hx ha denied))⟩

end Sys2Proof.Machine
end

section
/-! PROOFS. Time that passes: what it leaves, and that an entry whose firing instant is known keeps it. -/

namespace Sys2Proof.Machine

variable {s : State} {k n : Nat} {a : Action} {p0 p1 : BitVec 80}

/-! ### Events and edges of the fabric (R33, R226) -/

/-- A state that differs from `s` in registers, pulses in flight and the fabric alone. -/
def State.FabricOnly (s u : State) : Prop := ∃ r q f b, u = { s with regs := r, evq := q, fab := f, ffs := b }

theorem State.FabricOnly.refl (s : State) : s.FabricOnly s := ⟨_, _, _, _, rfl⟩

theorem State.FabricOnly.trans {u v : State} (h : s.FabricOnly u) (g : u.FabricOnly v) : s.FabricOnly v := by
  obtain ⟨r, q, f, b, rfl⟩ := h
  obtain ⟨r', q', f', b', rfl⟩ := g
  exact ⟨r', q', f', b', rfl⟩

theorem State.FabricOnly.foldl {β : Type} {g : State → β → State} (hg : ∀ (u : State) x, u.FabricOnly (g u x)) (l : List β) (s : State) :
    s.FabricOnly (l.foldl g s) :=
  List.foldlRecOn l g (.refl s) fun u h x _ => h.trans (hg u x)

theorem State.FabricOnly.stores {u : State} (h : s.FabricOnly u) : u.stores = s.stores := by
  obtain ⟨r, q, f, b, rfl⟩ := h
  rfl

theorem State.FabricOnly.setFld (f : RF) (v : Nat) : s.FabricOnly (s.setFld f v) := ⟨_, _, _, _, rfl⟩

theorem State.FabricOnly.addSat (f : RF) (v : Nat) : s.FabricOnly (s.addSat f v) := .setFld _ _

theorem State.FabricOnly.setB (f : RF) (b : Bool) : s.FabricOnly (s.setB f b) := .setFld _ _

theorem State.FabricOnly.setFab (x : Fabric) : s.FabricOnly (s.setFab k x) := ⟨_, _, _, _, rfl⟩

theorem State.firePulse_fabricOnly (e : Nat) (d : Domain) : s.FabricOnly (s.firePulse e d) := by
  unfold State.firePulse State.eventLost
  split
  · split
    · exact .trans (.addSat _ _) (.setFld _ _)
    · split
      · exact .trans (.addSat _ _) (.setFld _ _)
      · exact .refl s
  · exact ⟨_, _, _, _, rfl⟩

theorem State.fire_fabricOnly (e : Nat) : s.FabricOnly (s.fire e) := by
  unfold State.fire
  dsimp only
  split
  · exact .refl s
  · exact .foldl (fun u d => State.firePulse_fabricOnly e d) _ s

theorem State.fabPorts_fabricOnly (outs : CellOuts) : s.FabricOnly (s.fabPorts k outs) := by
  unfold State.fabPorts
  dsimp only
  refine .trans (.setFab _) (.foldl (fun u e => ?_) _ _)
  split
  · exact State.fire_fabricOnly _
  · exact .refl u

theorem State.fabEdge_fabricOnly : s.FabricOnly (s.fabEdge k) := by
  have clocked (u : State) (t : Table (Option Bool)) : u.FabricOnly { u with ffs := t } := ⟨_, _, _, _, rfl⟩
  exact (State.fabPorts_fabricOnly _).trans ((clocked _ _).trans (.setFab _))

theorem State.fabEdges_fabricOnly : s.FabricOnly (s.fabEdges k n) := by
  induction n generalizing s with
  | zero => exact .refl s
  | succ n ih => exact State.fabEdge_fabricOnly.trans ih

theorem State.fabAdvance_fabricOnly (n : Nat) : s.FabricOnly (s.fabAdvance n) := by
  unfold State.fabAdvance
  refine .foldl (fun u k => ?_) _ s
  split
  · exact State.fabEdges_fabricOnly
  · exact .refl u

/-! ### Entries of the action stores -/

theorem State.storeOf_of_stores {u : State} (h : u.stores = s.stores) (k : Nat) : u.storeOf k = s.storeOf k := by
  unfold State.storeOf; rw [h]

@[simp] theorem State.storeOf_setStore_same (x : Store) : (s.setStore k x).storeOf k = x := tget_tset_same _ _ _ _

theorem State.storeOf_setStore_other {j : Nat} (x : Store) (h : k ≠ j) : (s.setStore j x).storeOf k = s.storeOf k :=
  tget_tset_other _ _ _ _ _ _ h

/-- A late entry is counted and logged in registers (R52). -/
theorem State.judgeLate_fabricOnly (cls : Nat) (fires : Bool) : s.FabricOnly (s.judgeLate k cls fires a) := by
  have logged (u : State) : u.FabricOnly (((((u.setFld (TB_QLOG_LOG_VALID k) 1).setFld (TB_QLOG_CLASS k) (cls - 1)).setB (TB_QLOG_FIRED k)
      fires).setB (TB_QLOG_HOST k) a.host).setFld (TB_QLOG_OWNER k) a.owner |>.setFld (TB_QLOG_TAG k) a.tag) :=
    .trans (.setFld _ _) (.trans (.setFld _ _) (.trans (.setB _ _) (.trans (.setB _ _) (.trans (.setFld _ _) (.setFld _ _)))))
  have dropped (u : State) : u.FabricOnly (if fires then u else u.setFld TB_IRQ_STAT_DROP 1) := by
    split
    · exact .refl u
    · exact .setFld _ _
  unfold State.judgeLate
  dsimp only
  refine .trans ?_ ((dropped _).trans (logged _))
  split <;> exact .addSat _ _

/-- An entry over some cycles is at most judged, and dropped or kept. -/
theorem State.overCycles_fabricOnly : s.FabricOnly (s.overCycles k n p0 p1 a).1 := by
  unfold State.overCycles
  dsimp only
  split
  · exact .refl s
  · split
    · exact .refl s
    · split <;> exact .refl s
    · split
      · exact .refl s
      · split
        · split
          · exact .refl s
          · split <;> exact State.judgeLate_fabricOnly _ _
        · split
          · exact .refl s
          · split <;> exact .refl s

/-- An entry whose firing instant is known keeps it while time passes. -/
theorem State.overCycles_fixed (h : a.fireAt.isSome) : s.overCycles k n p0 p1 a = (s, some a) := by
  unfold Action.fireAt at h
  unfold State.overCycles
  split at h
  · exact absurd h Bool.false_ne_true
  · split
    · rfl
    · next angle =>
      split at h
      · rfl
      · simp [show a.kind ≠ 0 from fun z => angle (.inr z)] at h
      · exact absurd h Bool.false_ne_true

/-- One entry of a store over some cycles: the state behind it, and the entries that stay. -/
def overStep (k n : Nat) (p0 p1 : BitVec 80) (acc : State × List Action) (a : Action) : State × List Action :=
  ((acc.1.overCycles k n p0 p1 a).1, acc.2 ++ (acc.1.overCycles k n p0 p1 a).2.toList)

theorem State.storeCycles_eq_overStep : s.storeCycles k n p0 p1 =
    let r := (s.storeOf k).armed.foldl (overStep k n p0 p1) (s, [])
    r.1.setStore k { s.storeOf k with armed := r.2, freed := (s.storeOf k).freed + ((s.storeOf k).armed.length - r.2.length) } := by
  unfold State.storeCycles
  rw [List.foldl_ext _ (overStep k n p0 p1) _ ?step]
  case step =>
    intro acc a _
    unfold overStep
    generalize acc.1.overCycles k n p0 p1 a = r
    obtain ⟨u, _ | b⟩ := r
    · exact congrArg (Prod.mk u) (List.append_nil _).symm
    · rfl

/-- Where every entry knows its firing instant, the store stays as it is. -/
theorem State.storeCycles_fixed (h : ∀ b ∈ (s.storeOf k).armed, b.fireAt.isSome) :
    s.storeCycles k n p0 p1 = s.setStore k (s.storeOf k) := by
  have keep : ∀ (l done : List Action), (∀ b ∈ l, b.fireAt.isSome) → l.foldl (overStep k n p0 p1) (s, done) = (s, done ++ l) := by
    intro l
    induction l with
    | nil => intro done _; rw [List.append_nil]; rfl
    | cons b l ih =>
      intro done fixed
      obtain ⟨first, rest⟩ := List.forall_mem_cons.mp fixed
      have step : overStep k n p0 p1 (s, done) b = (s, done ++ [b]) := by
        unfold overStep
        rw [State.overCycles_fixed first]
        rfl
      rw [List.foldl_cons, step, ih _ rest, List.append_assoc]
      rfl
  rw [State.storeCycles_eq_overStep, keep _ [] h]
  simp only [List.nil_append, Nat.sub_self, Nat.add_zero]

/-- The entries of sector `k` over some cycles touch registers and that sector's store alone. -/
theorem State.storeCycles_eq : ∃ u x, s.FabricOnly u ∧ s.storeCycles k n p0 p1 = u.setStore k x := by
  refine ⟨_, _, ?_, State.storeCycles_eq_overStep⟩
  exact List.foldlRecOn (motive := fun (acc : State × List Action) => s.FabricOnly acc.1) _ _ (.refl s) fun acc h b _ =>
    h.trans State.overCycles_fabricOnly

theorem State.storeCycles_storeOf_other {j : Nat} (h : k ≠ j) : (s.storeCycles j n p0 p1).storeOf k = s.storeOf k := by
  obtain ⟨u, x, only, e⟩ := State.storeCycles_eq (s := s) (k := j) (n := n) (p0 := p0) (p1 := p1)
  rw [e, State.storeOf_setStore_other _ h, State.storeOf_of_stores only.stores]

/-! ### Time that passes (R34, R35) -/

/-- A state that differs from `s` as time that passes makes it: TB_NOW, V, P, the stores, pulses in flight, the fabric, registers. -/
def State.TimeOnly (s u : State) : Prop :=
  ∃ r q f b st now v pos, u = { s with regs := r, evq := q, fab := f, ffs := b, stores := st, tb := { s.tb with now := now, v := v, pos := pos } }

theorem State.TimeOnly.refl (s : State) : s.TimeOnly s := ⟨_, _, _, _, _, _, _, _, rfl⟩

theorem State.TimeOnly.trans {u v : State} (h : s.TimeOnly u) (g : u.TimeOnly v) : s.TimeOnly v := by
  obtain ⟨r, q, f, b, st, now, v, pos, rfl⟩ := h
  obtain ⟨r', q', f', b', st', now', v', pos', rfl⟩ := g
  exact ⟨r', q', f', b', st', now', v', pos', rfl⟩

theorem State.FabricOnly.timeOnly {u : State} (h : s.FabricOnly u) : s.TimeOnly u := by
  obtain ⟨r, q, f, b, rfl⟩ := h
  exact ⟨r, q, f, b, _, _, _, _, rfl⟩

theorem State.TimeOnly.foldl {β : Type} {g : State → β → State} (hg : ∀ (u : State) x, u.TimeOnly (g u x)) (l : List β) (s : State) :
    s.TimeOnly (l.foldl g s) :=
  List.foldlRecOn l g (.refl s) fun u h x _ => h.trans (hg u x)

theorem State.storeCycles_timeOnly : s.TimeOnly (s.storeCycles k n p0 p1) := by
  obtain ⟨u, x, only, e⟩ := State.storeCycles_eq (s := s) (k := k) (n := n) (p0 := p0) (p1 := p1)
  rw [e]
  exact only.timeOnly.trans ⟨_, _, _, _, _, _, _, _, rfl⟩

theorem State.advance_timeOnly (n : Nat) : s.TimeOnly (s.advance n) := by
  have clocked (u : State) (now : BitVec 64) (v pos : BitVec 80) : u.TimeOnly { u with tb := { u.tb with now := now, v := v, pos := pos } } :=
    ⟨_, _, _, _, _, _, _, _, rfl⟩
  have stored (l : List Nat) (u : State) := State.TimeOnly.foldl
    (fun u k => State.storeCycles_timeOnly (s := u) (k := k) (n := n) (p0 := s.tb.pos) (p1 := s.posAfter n)) l u
  unfold State.advance
  dsimp only
  split
  · exact .refl s
  · split
    · exact (State.fabAdvance_fabricOnly n).timeOnly.trans ((stored _ _).trans ((clocked _ _ _ _).trans (State.fire_fabricOnly _).timeOnly))
    · exact (State.fabAdvance_fabricOnly n).timeOnly.trans ((stored _ _).trans (clocked _ _ _ _))

/-- A store whose entries all know their firing instants is the same after any time. -/
theorem State.advance_storeOf_fixed (n : Nat) (h : ∀ b ∈ (s.storeOf k).armed, b.fireAt.isSome) : (s.advance n).storeOf k = s.storeOf k := by
  have cycles (l : List Nat) (u : State) (hu : u.storeOf k = s.storeOf k) :
      (l.foldl (fun u j => u.storeCycles j n s.tb.pos (s.posAfter n)) u).storeOf k = s.storeOf k := by
    refine List.foldlRecOn (motive := fun (u : State) => u.storeOf k = s.storeOf k) l _ hu fun u hu j _ => ?_
    by_cases same : k = j
    · subst same
      rw [State.storeCycles_fixed (by rwa [hu]), State.storeOf_setStore_same, hu]
    · rw [State.storeCycles_storeOf_other same, hu]
  have fabric := State.storeOf_of_stores (State.fabAdvance_fabricOnly (s := s) n).stores k
  unfold State.advance
  dsimp only
  split
  · rfl
  · split
    · rw [State.storeOf_of_stores (State.fire_fabricOnly _).stores]
      exact cycles _ _ fabric
    · exact cycles _ _ fabric

theorem State.advance_zero : s.advance 0 = s := by
  unfold State.advance
  rw [if_pos (.inr rfl)]

end Sys2Proof.Machine
end

section
/-! PROOFS. The action stores: arming, firing, and the return of a freed entry (O31). -/

namespace Sys2Proof.Machine

variable {s : State} {k : Nat} {a : Action} {r : List QItem}

/-! ### Arming (R49, R51, R52) -/

/-- The target of an entry as it is armed now: an instant, or a position (R49). -/
def State.targetNow (s : State) (a : Action) : BitVec 64 :=
  if a.kind = 0 then timeTarget s.tb.now a.w0 else fullTarget s.P (bits a.w1.toNat 15 0) a.w0

/-- The entry with its arming edge and its target. -/
def State.armedNow (s : State) (a : Action) : Action := { a with arm := s.tb.now, target := s.targetNow a }

/-- By how much the target of a time entry is before A + 32. -/
def State.lateBy (s : State) (a : Action) : Int := (s.tb.now + 32 - s.targetNow a).toInt

/-- The class of a late entry: 1 late, 2 close (R52). -/
def State.lateClass (s : State) (a : Action) : Nat := if s.lateBy a > 32 then 1 else 2

section
variable (hq : (s.storeOf k).fifo = .post a :: r)
include hq

theorem State.arm_barchan (hd : a.dest ≠ 0) : s.arm k = s.setStore k { s.storeOf k with
    fifo := r, armed := (s.storeOf k).armed ++ [{ s.armedNow a with stand := .waiting }] } := by
  unfold State.arm
  dsimp only
  rw [hq]
  dsimp only
  rw [if_neg (fun h => hd h.1), if_neg hd]
  rfl

variable (hd : a.dest = 0)
include hd

theorem State.arm_angle (hk : a.kind ≠ 0) : s.arm k = s.setStore k { s.storeOf k with
    fifo := r, armed := (s.storeOf k).armed ++ [{ s.armedNow a with stand := .unjudged }] } := by
  unfold State.arm
  dsimp only
  rw [hq]
  dsimp only
  rw [if_neg (fun h => hk h.2), if_pos hd]
  rfl

variable (hk : a.kind = 0)
include hk

theorem State.arm_inTime (early : s.lateBy a ≤ 0) : s.arm k = s.setStore k { s.storeOf k with
    fifo := r, armed := (s.storeOf k).armed ++ [{ s.armedNow a with stand := .waiting }] } := by
  unfold State.arm
  dsimp only
  rw [hq]
  dsimp only
  rw [if_pos ⟨hd, hk⟩]
  exact if_pos early

theorem State.arm_late (late : 0 < s.lateBy a) : s.arm k =
    if a.lateFire = true ∧ s.lateBy a ≤ (s.grace k : Int) then
      (s.judgeLate k (s.lateClass a) true (s.armedNow a)).setStore k { s.storeOf k with
        fifo := r,
        armed := (s.storeOf k).armed ++ [{ s.armedNow a with stand := .due (s.tb.now + 32) (s.lateClass a) (s.lateBy a).toNat }] }
    else (s.judgeLate k (s.lateClass a) false (s.armedNow a)).setStore k { s.storeOf k with fifo := r, freed := (s.storeOf k).freed + 1 } := by
  unfold State.arm
  dsimp only
  rw [hq]
  dsimp only
  rw [if_pos ⟨hd, hk⟩]
  exact if_neg (Int.not_le.mpr late)

end

/-! ### Firing (R54) -/

theorem earliest_one (a : Action) : earliest [a] = a.fireAt := rfl

/-- An entry whose firing instant is known is due at it, whatever time passes up to the next tick edge. -/
theorem State.nextDue_one {u : BitVec 64} (hx : (s.storeOf k).armed = [a]) (ha : a.fireAt = some u) : s.nextDue k = some u := by
  have fixed : ∀ b ∈ (s.storeOf k).armed, b.fireAt.isSome := by
    rw [hx]
    intro b hb
    rw [List.mem_singleton.mp hb, ha]
    rfl
  unfold State.nextDue
  rw [State.advance_storeOf_fixed _ fixed, hx, earliest_one, ha]

/-- The one entry of a store that is due now fires now, where neither its sector nor its pin has fired in this cycle. -/
theorem State.nextPin_one (hx : (s.storeOf k).armed = [a]) (ha : a.fireAt = some s.tb.now) (hl : (s.storeOf k).lastFire ≠ some s.tb.now)
    (hp : tget none s.actAt a.pin ≠ some s.tb.now) : s.nextPin k = some (s.tb.now, a, []) := by
  have taken : takeDue s.tb.now [a] = some (a, []) := if_pos ha
  unfold State.nextPin
  rw [hx, earliest_one, ha]
  dsimp only
  rw [taken]
  dsimp only
  rw [if_neg (Nat.lt_irrefl _), if_neg hl, if_neg hp]

/-- FIRE with one entry that is due now, and whose pin no lower sector drives. -/
theorem State.fireNext_now (hx : (s.storeOf k).armed = [a]) (ha : a.fireAt = some s.tb.now) (hl : (s.storeOf k).lastFire ≠ some s.tb.now)
    (hp : tget none s.actAt a.pin ≠ some s.tb.now) (free : s.pinTaken k s.tb.now a.pin = false) : s.fireNext k = s.firePin k a [] := by
  have next := State.nextPin_one hx ha hl hp
  have now : (s.tb.now - s.tb.now).toInt.toNat = 0 := by simp
  have here : (s.tb.now - s.tb.now).toNat = 0 := by simp
  unfold State.fireNext
  rw [State.nextDue_one hx ha]
  dsimp only
  rw [now, State.advance_zero, next]
  dsimp only
  rw [here, free, if_neg (by simp), State.advance_zero, next]

/-- FIRE where nothing falls due up to the next tick edge. -/
theorem State.fireNext_none (h : s.nextDue k = none) : s.fireNext k = s := by
  unfold State.fireNext; rw [h]

/-- FIRE of an entry beyond the next tick edge, or of one whose pin a lower sector drives in its cycle. -/
theorem State.fireNext_held {u t : BitVec 64} {b : Action} {q : List Action} (h : s.nextDue k = some u) :
    let n := (u - s.tb.now).toInt.toNat
    let s1 := s.advance n
    s1.nextPin k = some (t, b, q) → (s.toNextEdge < n + (t - s1.tb.now).toNat ∨ s1.pinTaken k t b.pin = true) → s.fireNext k = s := by
  intro n s1 next held
  unfold State.fireNext
  rw [h]
  dsimp only
  rw [next]
  exact if_pos held

/-- The state after the firing of an entry, without its trace record: ACT_OUT driven, the entry freed. -/
def State.fired (s : State) (k : Nat) (a : Action) : State :=
  { s.setStore k { s.storeOf k with armed := [], freed := (s.storeOf k).freed + 1, lastFire := some s.tb.now } with
    actOut := tset ⟨false, false⟩ s.actOut a.pin (driveAct (tget ⟨false, false⟩ s.actOut a.pin) a.value)
    actAt := tset none s.actAt a.pin (some s.tb.now) }

theorem State.firePin_untraced (h : a.traced = false) : s.firePin k a [] = s.fired k a := by
  unfold State.firePin
  dsimp only
  rw [h]
  rfl

/-- The class and the lateness that the trace record of a firing shows (R385). -/
def Action.lateness (a : Action) : Nat × Nat :=
  match a.stand with
  | .due _ c l => (c, l)
  | _ => (0, 0)

/-- A traced firing is recorded with its class, pin, tag, sector, owner, value and lateness. -/
theorem State.firePin_traced (h : a.traced = true) : s.firePin k a [] = (s.fired k a).trace 1 (s.fired k a).stamp
    (BitVec.ofNat 32 (a.lateness.1 * 2 ^ 26 + a.pin))
    (BitVec.ofNat 32 (a.tag * 2 ^ 16 + k * 2 ^ 12 + a.owner * 2 ^ 4 + 8 * b2n a.host + a.value % 4)) (BitVec.ofNat 32 a.lateness.2) :=
  if_pos h

/-- Settles O31: ARM by the kind of the entry and its lateness, FIRE by what falls due, ENTRY_FREE by the sector's clock. -/
theorem actionsArmFireAndFree : Obligations.ActionsArmFireAndFree := by
  intro s k a r x t a1 late
  refine ⟨fun hq hd hk early => ?_, fun hq hd hk later drops => ?_, fun hq hd hk later fires within => ?_, fun hq hd hk => ?_,
    fun hq hd => ?_, ?fires, fun idle => ?_, ?held, fun runs => ?_, fun stands => ?_⟩
  · exact congrArg (done s) (State.arm_inTime hq hd hk early)
  · exact congrArg (done s) ((State.arm_late hq hd hk later).trans (if_neg (fun h => by simp [drops] at h)))
  · exact congrArg (done s) ((State.arm_late hq hd hk later).trans (if_pos ⟨fires, within⟩))
  · exact congrArg (done s) (State.arm_angle hq hd hk)
  · exact congrArg (done s) (State.arm_barchan hq hd)
  case fires =>
    intro hx ha hl hp free v
    have fire := State.fireNext_now hx ha hl hp free
    refine ⟨fun plain => congrArg (done s) (fire.trans (State.firePin_untraced plain)), fun traced c n stands => ?_⟩
    have lateness : a.lateness = (c, n) := stands
    have traceRecord := State.firePin_traced (s := s) (k := k) traced
    rw [lateness] at traceRecord
    exact congrArg (done s) (fire.trans traceRecord)
  · exact congrArg (done s) (State.fireNext_none idle)
  case held =>
    intro u due n s1 t b q next held
    exact congrArg (done s) (State.fireNext_held due next held)
  · exact congrArg (done s) (if_pos runs)
  · exact congrArg (done s) (if_neg (by simp [stands]))

end Sys2Proof.Machine
end

section
/-! PROOFS. Ticks at their edge and at the boundary of each domain, events at their destination, the strobe of an apply (O32). -/

namespace Sys2Proof.Machine

variable {s : State} {d : Domain} {e : Nat}

/-! ### The tick edge (R35) -/

theorem State.TimeOnly.tick {u : State} (h : s.TimeOnly u) : u.tb.tick = s.tb.tick := by
  obtain ⟨r, q, f, b, st, now, v, pos, rfl⟩ := h
  rfl

/-- What a tick edge finds late or missed changes registers and the copies of stopped domains alone. -/
theorem State.missed_same : ∃ r c, s.missed = { s with regs := r, tickCopy := c } := by
  unfold State.missed
  split
  · exact ⟨_, _, rfl⟩
  · refine List.foldlRecOn (motive := fun (u : State) => ∃ r c, u = { s with regs := r, tickCopy := c }) _ _ ?_ ?_
    · refine List.foldlRecOn (motive := fun (u : State) => ∃ r c, u = { s with regs := r, tickCopy := c }) _ _ ⟨_, _, rfl⟩ ?_
      rintro u ⟨r, c, rfl⟩ k -
      split <;> exact ⟨_, _, rfl⟩
    · rintro u ⟨r, c, rfl⟩ d -
      split <;> exact ⟨_, _, rfl⟩

theorem State.strobeLate_same : ∃ r, s.strobeLate = { s with regs := r } := by
  unfold State.strobeLate
  split <;> exact ⟨_, rfl⟩

/-- What precedes the edge leaves the time and the supplies. -/
theorem State.strobeLate_missed_same : s.strobeLate.missed.tb = s.tb ∧ s.strobeLate.missed.pwr = s.pwr := by
  obtain ⟨r, c, e⟩ := State.missed_same (s := s.strobeLate)
  obtain ⟨r', e'⟩ := State.strobeLate_same (s := s)
  rw [e, e']
  exact ⟨rfl, rfl⟩

/-- While released, time passes to the edge TICKLEN cycles after the last one, where the tick counter is one more. -/
theorem State.toTickEdge_released (h : s.pwr.released = true) : s.toTickEdge.tb.tick = s.tb.tick + 1 ∧
    s.toTickEdge.tb.edge = s.tb.edge + BitVec.ofNat 64 (s.fld TB_TICKLEN_CYCLES) := by
  unfold State.toTickEdge
  rw [if_neg (by simp [h])]
  exact ⟨congrArg (· + 1) (State.advance_timeOnly _).tick, rfl⟩

theorem State.tickEdge_released (h : s.pwr.released = true) :
    let s1 := s.strobeLate.missed.toTickEdge
    let s2 : State := { s1 with safe := { s1.safe with ticks := s1.tickLo } }
    s.tickEdge = if s2.awake then s2.strobe.pairEdge else s2 :=
  if_neg (by simp [h])

theorem State.tickEdge_held (h : s.pwr.released = false) : s.tickEdge = s := if_pos h

/-! ### The boundary of a domain (R14, R17) -/

/-- A domain's copy of the tick counter follows the counter. -/
theorem State.stepCopy_copy : tget 0 (s.stepCopy d).tickCopy (Domain.num d) = (s.stepCopy d).tb.tick := by
  have stepped : tget 0 (tset 0 s.tickCopy (Domain.num d) s.tb.tick) (Domain.num d) = s.tb.tick := tget_tset_same _ _ _ _
  unfold State.stepCopy
  dsimp only
  split <;> exact stepped

/-- A domain that has nothing to do at this tick is left as it is. -/
theorem State.tickBoundary_idle (w : Bool) (h : s.boundaryDue d = false) : s.tickBoundary d w = s := if_pos h

/-! ### The apply strobe (R244) -/

theorem State.applyStrobe_none (h : s.attar.target = none) : s.applyStrobe = s := by
  unfold State.applyStrobe; rw [h]

/-- The strobe of an armed apply is the tick edge of its tick. -/
theorem State.applyStrobe_armed {x : ApplyAt} (h : s.attar.target = some x) (hr : s.pwr.released = true) (ha : s.awake = true)
    (hs : s.attarState = 4) : s.applyStrobe = if x.due s.toTickEdge.tb.tick s.toTickEdge.P then s.tickEdge else s := by
  unfold State.applyStrobe
  rw [h]
  simp only [hr, ha, hs, true_and]

/-- Settles O32: what passes before the edge leaves the tick counter; each boundary, event and strobe is its branch of the operation. -/
theorem ticksComeAtTheirEdge : Obligations.TicksComeAtTheirEdge := by
  intro s
  refine ⟨?edge, fun held => congrArg (done s) (State.tickEdge_held held), fun d w idle => congrArg (done s) (State.tickBoundary_idle w idle),
    ?boundary, ?event, ?noEvent, fun unarmed => congrArg (done s) (State.applyStrobe_none unarmed), ?strobe⟩
  case edge =>
    intro released s0 s1 s2
    obtain ⟨tb, pwr⟩ := State.strobeLate_missed_same (s := s)
    obtain ⟨tick, edge⟩ := State.toTickEdge_released (s := s0) (by rw [pwr]; exact released)
    rw [tb] at tick edge
    exact ⟨congrArg (done s) (State.tickEdge_released released), tick, edge, congrArg (BitVec.setWidth 32) tick⟩
  case boundary =>
    intro d w due s1
    have acts : ¬ s.boundaryDue d = false := by simp [due]
    refine ⟨State.stepCopy_copy, congrArg (done s) ((if_neg acts).trans ?_)⟩
    cases d <;> rfl
  case event =>
    intro e d raised runs s1
    have reaches : ¬ ((s.evq.contains (e, d) = false ∧ s.eventOutside e = false) ∨ s.domRuns d = false) := by
      rintro (⟨quiet, inside⟩ | stands)
      · exact raised.elim (fun h => Bool.noConfusion (h.symm.trans quiet)) (fun h => Bool.noConfusion (h.symm.trans inside))
      · exact Bool.noConfusion (runs.symm.trans stands)
    refine congrArg (done s) ((if_neg reaches).trans ?_)
    cases d <;> rfl
  case noEvent =>
    intro e d nothing
    exact congrArg (done s) (if_pos nothing)
  case strobe =>
    intro x armed released awake session
    have strobe := State.applyStrobe_armed armed released awake session
    refine ⟨fun due => congrArg (done s) ?_, fun early => congrArg (done s) ?_⟩
    · rw [strobe, if_pos due]
    · rw [strobe, if_neg (by simp [early])]

end Sys2Proof.Machine
end

section
/-! PROOFS. A cancel at the head of the post FIFO (O24). -/

namespace Sys2Proof.Machine

variable {s : State} {k n tag mask : Nat} {o : Option Nat} {r : List QItem}

/-- What a cancel that leaves the post FIFO takes out of the armed entries (R57). -/
def State.cancelServed (s : State) (k tag mask : Nat) (o : Option Nat) (r : List QItem) : State × Nat :=
  (s.setStore k { s.storeOf k with fifo := r }).cancelArmed k tag mask o

/-- The count of a cancel of the host waits for TB_HRESULT (R453). -/
theorem State.cancelArm_host (hq : (s.storeOf k).fifo = .cancel tag mask none none :: r) :
    s.cancelArm k n = { (s.cancelServed k tag mask none r).1 with
      hop := { (s.cancelServed k tag mask none r).1.hop with done := true, result := (s.cancelServed k tag mask none r).2 } } := by
  unfold State.cancelArm
  dsimp only
  rw [hq]
  rfl

/-- The count of an engine's cancel returns to the register that waits for it (R98). -/
theorem State.cancelArm_engine {t rd : Nat} {a : Act} (hq : (s.storeOf k).fifo = .cancel tag mask o (some t) :: r)
    (ha : ((s.cancelServed k tag mask o r).1.engOf t).act = some a)
    (hc : ((s.cancelServed k tag mask o r).1.engOf t).cancelRd = some rd) :
    let q := s.cancelServed k tag mask o r
    s.cancelArm k n = (q.1.setEng t { q.1.engOf t with cancelRd := none }).unblock t (max n (5 + s.sectUp k 8)) a
      (fun b => b.setVal rd (BitVec.ofNat 32 q.2)) (BitVec.ofNat 32 q.2) := by
  unfold State.cancelServed at *
  unfold State.cancelArm
  dsimp only
  rw [hq]
  dsimp only
  rw [ha, hc]

/-- Settles O24: by who waits for the count, the host or an engine. -/
theorem cancelsReturnTheirCount : Obligations.CancelsReturnTheirCount := by
  intro s k n tag mask r
  exact ⟨fun hq => congrArg (done s) (State.cancelArm_host hq),
    fun o t a rd hq ha hc => congrArg (done s) (State.cancelArm_engine hq ha hc)⟩

end Sys2Proof.Machine
end

section
/-! PROOFS. One TB_CLK cycle on an empty queue, and what passing cycles leave of the timebase (O2). -/

namespace Sys2Proof.Machine

variable {s : State} {n : Nat}

theorem State.FabricOnly.tb {u : State} (h : s.FabricOnly u) : u.tb = s.tb := by
  obtain ⟨r, q, f, b, rfl⟩ := h
  rfl

theorem State.TimeOnly.mem {u : State} (h : s.TimeOnly u) : u.mem = s.mem := by
  obtain ⟨r, q, f, b, st, now, v, pos, rfl⟩ := h
  rfl

/-- The entries of a store over some cycles leave the timebase. -/
theorem State.storeCycles_tb (k : Nat) (p0 p1 : BitVec 80) : (s.storeCycles k n p0 p1).tb = s.tb := by
  obtain ⟨u, x, only, e⟩ := State.storeCycles_eq (s := s) (k := k) (n := n) (p0 := p0) (p1 := p1)
  rw [e]
  exact only.tb

/-- TB_NOW counts the cycles that pass once the configuration is released (R34). -/
theorem State.advance_now (h : s.pwr.released = true) : (s.advance n).tb.now = s.tb.now + BitVec.ofNat 64 n := by
  have stores (l : List Nat) (u : State) : (l.foldl (fun u k => u.storeCycles k n s.tb.pos (s.posAfter n)) u).tb = u.tb :=
    List.foldlRecOn (motive := fun (v : State) => v.tb = u.tb) l _ rfl fun _ hv _ _ => (State.storeCycles_tb _ _ _).trans hv
  have before (l : List Nat) := (stores l (s.fabAdvance n)).trans (State.fabAdvance_fabricOnly n).tb
  unfold State.advance
  split
  · next still =>
    obtain rfl : n = 0 := still.resolve_left (by simp [h])
    exact (BitVec.add_zero _).symm
  · dsimp only
    split
    · rw [(State.fire_fabricOnly _).tb, before]
    · rw [before]

/-- Nothing passes before the configuration is released. -/
theorem State.cycle_held (h : s.pwr.released = false) : s.cycle = s := if_pos h

/-- A cycle before the next tick edge is one cycle that passes. -/
theorem State.cycle_between (h : s.pwr.released = true) (early : (s.tb.now + 1 - s.tb.edge).toNat < s.fld TB_TICKLEN_CYCLES) :
    s.cycle = s.advance 1 := by
  unfold State.cycle
  rw [if_neg (by simp [h]), if_neg (Nat.not_le.mpr early)]

theorem step_empty (h : s.pending = []) : step s = done s s.cycle := by
  unfold step
  rw [h]

/-- Settles O2: the step is one cycle, which counts TB_NOW and leaves the tick counter and the memory. -/
theorem emptyQueuePassesOneCycle : Obligations.EmptyQueuePassesOneCycle := by
  intro s empty
  refine ⟨fun held => ?_, fun released early => ⟨_, step_empty empty, ?_⟩⟩
  · rw [step_empty empty, State.cycle_held held]; rfl
  · have passed := State.advance_timeOnly (s := s) 1
    rw [State.cycle_between released early, settle_tb, settle_mem]
    exact ⟨State.advance_now released, passed.tick, passed.mem⟩

end Sys2Proof.Machine
end

section
/-! PROOFS. Time sets, the virtual source, and the posts and cancels of the host (O30). -/

namespace Sys2Proof.Machine

variable {s : State} {k : Nat} {a : Action}

/-! ### The virtual source (R45) -/

/-- The virtual source wraps where its boundary is not beyond the next tick edge. -/
theorem State.virtualWrap_moving (hs : s.src = 4) (hv : s.vspeed ≠ 0) :
    s.virtualWrap = if s.wrapCycles ≤ s.toNextEdge then s.advance s.wrapCycles else s := by
  unfold State.virtualWrap
  simp only [hs, hv, true_and, ne_eq, not_false_eq_true]

theorem State.virtualWrap_still (h : s.src ≠ 4 ∨ s.vspeed = 0) : s.virtualWrap = s :=
  if_neg fun ⟨src, moves, _⟩ => h.elim (fun other => other src) moves

theorem State.wrapCycles_forward (h : 0 < s.vspeed) :
    s.wrapCycles = (2 ^ 48 - s.tb.v.toNat % 2 ^ 48 + s.vspeed.natAbs - 1) / s.vspeed.natAbs := if_pos h

theorem State.wrapCycles_reverse (h : s.vspeed < 0) : s.wrapCycles = s.tb.v.toNat % 2 ^ 48 / s.vspeed.natAbs + 1 :=
  if_neg (by omega)

/-! ### Posts (R50) -/

theorem State.post_bad (h : s.badEntry a = true) : s.post k a = (s, 2) := if_pos h

theorem State.post_full (h : s.badEntry a = false) (full : 256 ≤ (s.storeOf k).inUse) :
    s.post k a = ((s.addSat (TB_QCNT_OTHER_FULL k) 1).setFld TB_IRQ_STAT_FULL 1, 1) := by
  unfold State.post
  rw [if_neg (by simp [h])]
  exact if_pos full

theorem State.post_room (h : s.badEntry a = false) (room : (s.storeOf k).inUse < 256) :
    s.post k a = ((s.setStore k { s.storeOf k with fifo := (s.storeOf k).fifo ++ [.post a] }).setFld (TB_QSTAT_HIGH k)
      (max (s.fld (TB_QSTAT_HIGH k)) ((s.storeOf k).inUse + 1)), 0) := by
  unfold State.post
  rw [if_neg (by simp [h])]
  exact if_neg (Nat.not_le.mpr room)

/-! ### The host's operations (R452, R453) -/

/-- The entry that the words of TB_HPOST_W spell, as the host's. -/
def State.hostEntry (s : State) : Action := ⟨s.reg (TB_HPOST_W_at 0), s.reg (TB_HPOST_W_at 1), s.reg (TB_HPOST_W_at 2),
  BitVec.ofNat 32 ((s.reg (TB_HPOST_W_at 3)).toNat % 2 ^ 16 + 2 ^ 23), 0, 0, .unjudged⟩

section
variable (free : (s.setFld TB_HPOST_CTRL_SECT k).fb TB_HRESULT_DONE = true)
include free

/-- A GO write to a sector whose clock runs posts the host's entry and keeps the answer. -/
theorem State.hpostGo_posts {p : State × Nat} (runs : (s.setFld TB_HPOST_CTRL_SECT k).sectRuns k = true)
    (hp : ((s.setFld TB_HPOST_CTRL_SECT k).setFld TB_HRESULT_DONE 0).post k (s.setFld TB_HPOST_CTRL_SECT k).hostEntry = p) :
    s.hpostGo k = { p.1 with hop := ⟨true, p.2, false⟩ } := by
  subst hp
  unfold State.hpostGo
  dsimp only
  rw [if_neg (by simp [free]), if_neg (by simp [runs])]
  rfl

theorem State.hpostGo_stopped (stopped : (s.setFld TB_HPOST_CTRL_SECT k).sectRuns k = false) :
    s.hpostGo k = { (s.setFld TB_HPOST_CTRL_SECT k).setFld TB_HRESULT_DONE 0 with hop := ⟨true, 3, true⟩ } := by
  unfold State.hpostGo
  dsimp only
  rw [if_neg (by simp [free]), if_pos stopped]

end

theorem State.hpostGo_busy (busy : (s.setFld TB_HPOST_CTRL_SECT k).fb TB_HRESULT_DONE = false) :
    s.hpostGo k = s.setFld TB_HPOST_CTRL_SECT k := if_pos busy

section
variable {mask : Nat} (free : s.fb TB_HRESULT_DONE = true)
include free

theorem State.hcancel_running (runs : s.sectRuns (s.fld TB_HPOST_CTRL_SECT) = true) :
    let c := s.fld TB_HPOST_CTRL_SECT
    s.hcancel mask = { (s.setFld TB_HRESULT_DONE 0).setStore c { s.storeOf c with
      fifo := (s.storeOf c).fifo ++ [.cancel (bits (s.reg (TB_HPOST_W_at 2)).toNat 31 16) mask none none] } with
        hop := ⟨false, 0, false⟩ } := by
  unfold State.hcancel
  rw [if_neg (by simp [free])]
  exact if_neg (by simp [runs])

theorem State.hcancel_stopped (stopped : s.sectRuns (s.fld TB_HPOST_CTRL_SECT) = false) :
    s.hcancel mask = { s.setFld TB_HRESULT_DONE 0 with hop := ⟨true, 0, true⟩ } := by
  unfold State.hcancel
  rw [if_neg (by simp [free])]
  exact if_pos stopped

end

theorem State.hcancel_busy {mask : Nat} (busy : s.fb TB_HRESULT_DONE = false) : s.hcancel mask = s := if_pos busy

/-- A result that waits is shown. -/
theorem State.hresultDone_waiting (busy : s.fb TB_HRESULT_DONE = false) (ended : s.hop.done = true) :
    s.hresultDone = ((s.setFld TB_HRESULT_RESULT s.hop.result).setB TB_HRESULT_STOPPED s.hop.stopped).setFld TB_HRESULT_DONE 1 :=
  if_neg (by simp [busy, ended])

theorem State.hresultDone_none (h : s.fb TB_HRESULT_DONE = true ∨ s.hop.done = false) : s.hresultDone = s := if_pos h

/-- Settles O30: each clause is one branch of the operation, decided by DONE, by the sector's clock and by the store. -/
theorem hostReadsPostsAndCancels : Obligations.HostReadsPostsAndCancels := by
  intro s k mask req s0 s1 a x runs now
  have wraps {n : Nat} (hs : s.src = 4) (hv : s.vspeed ≠ 0) (hn : s.wrapCycles = n) :
      exec .virtualSourceWrap s = .next (settle s (if n ≤ s.toNextEdge then s.advance n else s)) :=
    hn ▸ congrArg (done s) (State.virtualWrap_moving hs hv)
  refine ⟨rfl, fun hs hv => wraps hs (by omega) (State.wrapCycles_forward hv),
    fun hs hv => wraps hs (by omega) (State.wrapCycles_reverse hv),
    fun still => congrArg (done s) (State.virtualWrap_still still), fun free go bad => ?bad, fun free go good full => ?full,
    fun free go good room => ?room, fun free stopped => ?stopped, fun busy => congrArg (done s) (State.hpostGo_busy busy),
    fun free => ⟨fun go => congrArg (done s) (State.hcancel_running free go),
      fun stopped => congrArg (done s) (State.hcancel_stopped free stopped)⟩,
    fun busy => congrArg (done s) (State.hcancel_busy busy), fun busy ended => congrArg (done s) (State.hresultDone_waiting busy ended),
    fun nothing => congrArg (done s) (State.hresultDone_none nothing)⟩
  case bad => exact congrArg (done s) (State.hpostGo_posts free go (State.post_bad bad))
  case full => exact congrArg (done s) (State.hpostGo_posts free go (State.post_full good full))
  case room => exact congrArg (done s) (State.hpostGo_posts free go (State.post_room good room))
  case stopped => exact congrArg (done s) (State.hpostGo_stopped free (Bool.eq_false_iff.mpr stopped))

end Sys2Proof.Machine
end

section
/-! PROOFS. POST and CANCEL: what reaches the action store, and what the engine keeps (O22). -/

namespace Sys2Proof.Machine

variable {s : State} {t w : Nat} {e : EI} {a : Act} {f : Eff}

/-! ### What POST does (R50, R96, R97) -/

/-- The entry that POST spells from four registers, with the channel as its owner (R48). -/
def Eff.entry (f : Eff) (e : EI) : Action :=
  let b := f.c.bank
  ⟨b.val e.ra, b.val (e.ra + 1), b.val (e.ra + 2),
    BitVec.ofNat 32 ((b.val (e.ra + 3)).toNat % 2 ^ 16 + (f.t % 16 * 2 ^ 28 + f.slot * 2 ^ 24)), 0, 0, .unjudged⟩

/-- The answer of a live POST: rd and the LOG take it, one cycle after the post has left the state `f.s`. -/
def Eff.answer (f : Eff) (w rd : Nat) (r : Word) : Res :=
  .ok ⟨f.s, f.t, { f.c with bank := f.c.bank.setVal rd r }, { f.a with words := f.a.words ++ [r] }⟩ (2 + w) (some (f.s, 1 + w))

/-- The words of an entry in the checksum stream of the activation (R304). -/
def Action.stream (x : Action) : List Byte := [x.w0, x.w1, x.w2, BitVec.ofNat 32 (x.w3.toNat % 2 ^ 16)].flatMap streamWord

section
variable (live : f.a.log = none)
include live

theorem semPost_bad (bad : f.s.badEntry (f.entry e) = true) : semPost w e f = f.answer w e.rd 2 := by
  unfold Eff.entry at bad
  unfold semPost
  dsimp only
  rw [Eff.replay_live live, if_neg Bool.false_ne_true, if_pos bad, Eff.ext_live _ live]
  rfl

variable (good : f.s.badEntry (f.entry e) = false)
include good

theorem semPost_unbound (out : f.c.desc.inRange (f.entry e) = false) : semPost w e f = .fault 6 0 := by
  unfold Eff.entry at good out
  unfold semPost
  dsimp only
  rw [Eff.replay_live live, if_neg Bool.false_ne_true, if_neg (by rw [good]; decide), if_pos out]

/-- A post within a range binding reaches the store, whose result is the answer. -/
theorem semPost_bound (bound : f.c.desc.inRange (f.entry e) = true) {u : State} {r : Nat} (hp : f.s.post f.sect (f.entry e) = (u, r)) :
    semPost w e f = Eff.answer { f with s := if r = 0 then u.notePost f.t (f.entry e).stream else u } w e.rd (BitVec.ofNat 32 r) := by
  unfold Eff.entry at good bound hp
  unfold semPost
  dsimp only
  rw [Eff.replay_live live, if_neg Bool.false_ne_true, if_neg (by rw [good]; decide), if_neg (by rw [bound]; decide), hp]
  dsimp only
  rw [Eff.ext_live _ (by exact live)]
  rfl

theorem semPost_full (bound : f.c.desc.inRange (f.entry e) = true) (full : 256 ≤ (f.s.storeOf f.sect).inUse) :
    semPost w e f = Eff.answer { f with s := (f.s.addSat (TB_QCNT_OTHER_FULL f.sect) 1).setFld TB_IRQ_STAT_FULL 1 } w e.rd 1 :=
  semPost_bound live good bound (State.post_full good full)

/-- The store of a sector with an entry at the end of its post FIFO, and its high-water mark. -/
def State.queued (s : State) (k : Nat) (x : Action) : State :=
  (s.setStore k { s.storeOf k with fifo := (s.storeOf k).fifo ++ [.post x] }).setFld (TB_QSTAT_HIGH k)
    (max (s.fld (TB_QSTAT_HIGH k)) ((s.storeOf k).inUse + 1))

theorem semPost_room (bound : f.c.desc.inRange (f.entry e) = true) (room : (f.s.storeOf f.sect).inUse < 256) : semPost w e f =
    Eff.answer { f with s := (f.s.queued f.sect (f.entry e)).notePost f.t (f.entry e).stream } w e.rd 0 :=
  semPost_bound live good bound (State.post_room good room)

end

theorem State.notePost_engOf_same (bs : List Byte) : (s.notePost t bs).engOf t = { s.engOf t with posts := (s.engOf t).posts ++ bs } :=
  State.engOf_setEng_same _ _ _

/-! ### What CANCEL does (R57, R97, R98) -/

/-- A live CANCEL whose cycle of service lies within the budget enters the post FIFO, and the engine waits for its count. -/
theorem semCancel_live (live : f.a.log = none) (fit : f.a.used + 1 + w ≤ f.a.budget) :
    let v := (f.c.bank.val e.ra).toNat
    let x := f.s.storeOf f.sect
    let s1 := f.s.setStore f.sect { x with
      fifo := x.fifo ++ [.cancel (bits v 31 16) (bits v 15 0) (some (f.t % 16 * 16 + f.slot)) (some f.t)] }
    semCancel w e f = .ok { f with s := s1.setEng f.t { s1.engOf f.t with cancelRd := some e.rd } } w none := by
  unfold semCancel
  rw [Eff.replay_live live, if_neg Bool.false_ne_true, if_neg (Nat.not_lt.mpr fit)]

/-- In a replay the count comes from the LOG (R302). -/
theorem semCancel_replay {v : Word} {r : List Word} (hl : f.a.log = some (v :: r)) : semCancel w e f =
    .ok ⟨f.s, f.t, { f.c with bank := f.c.bank.setVal e.rd v }, { f.a with log := some r }⟩ 1 none := by
  unfold semCancel Eff.replay Eff.ext
  rw [hl]
  rfl

/-! ### What the engine keeps of it -/

section
variable (h : Issues s t e a) {sem : EI → Eff → Res}
include h

/-- An answer within the budget is written and logged. -/
theorem State.issue_answer {u : State} {r : Word} (fit : a.has e (2 + w))
    (hs : sem e (effOf s t e a) = Eff.answer { effOf s t e a with s := u } w e.rd r)
    (hg : (u.engOf t).gload = none) (hc : (u.engOf t).cancelRd = none) :
    s.issue t e.op sem = (u.setChan (16 * t + a.slot) { s.chanOf (16 * t + a.slot) with bank := (s.bankOf t a).setVal e.rd r }).goesOn t
      { a.after e (2 + w) (a.pc + 1) .none with words := a.words ++ [r] } := by
  rw [State.issue_eq h (by unfold Act.has at *; omega), hs]
  exact State.retire_ok h.step fit hg hc

/-- An instruction that leaves the engine waiting for a count is not yet counted. -/
theorem State.issue_awaits {u : State} (fit : a.has e w) (first : a.has e 1)
    (hs : sem e (effOf s t e a) = .ok { effOf s t e a with s := u } w none) (hc : (u.engOf t).cancelRd.isSome = true) :
    s.issue t e.op sem = (u.setChan (16 * t + a.slot) (s.chanOf (16 * t + a.slot))).goesOn t
      { a with pc := a.pc + 1, used := a.used + hazardCycles a.hazard e + w, hazard := .none, skipBp := false } := by
  rw [State.issue_eq h first, hs]
  unfold State.retire
  dsimp only
  rw [if_neg (Nat.not_lt.mpr fit), if_neg (fun ⟨stepped, _⟩ => by simp [h.step] at stepped), hc, Bool.or_true]
  rfl

end

/-- Settles O22: POST by its entry, its range bindings and the store, CANCEL by whether the activation is a replay. -/
theorem postAndCancelReachTheStore : Obligations.PostAndCancelReachTheStore := by
  intro s t w e a h b i c x w3 act answers
  obtain ⟨noLoad, noCancel, -, -⟩ := State.issues_calm h.act
  have post {u : State} (op : e.op = .post) (hu : s.issue t e.op (semPost w) = u) : exec (.post t w) s = .next (settle s u) := by
    rw [op] at hu
    exact congrArg (done s) hu
  have cancel {u : State} (op : e.op = .cancel) (hu : s.issue t e.op (semCancel w) = u) :
      exec (.cancel ⟨t, w⟩) s = .next (settle s u) := by
    rw [op] at hu
    exact congrArg (done s) hu
  refine ⟨fun live op fit => ⟨fun bad => ?_, fun good bound full => ?_, fun good bound room => ?_⟩, fun live op fit good out => ?_,
    fun live op fit => ?_, fun v r replay op fit => ?_⟩
  · exact post op (State.issue_answer h fit (semPost_bad live bad) noLoad noCancel)
  · exact post op (State.issue_answer h fit (semPost_full live good bound full) noLoad noCancel)
  · have noted : ((s.queued (t / 16) act).notePost t act.stream).engOf t = _ := State.notePost_engOf_same _
    exact post op (State.issue_answer h fit (semPost_room live good bound room)
      ((congrArg Engine.gload noted).trans noLoad) ((congrArg Engine.cancelRd noted).trans noCancel))
  · exact post op (State.issue_fault h fit (semPost_unbound live good out))
  · have within : (effOf s t e a).a.used + 1 + w ≤ (effOf s t e a).a.budget := by
      rw [Nat.add_assoc]
      exact fit
    have first : a.has e 1 := by unfold Act.has at *; omega
    refine cancel op (State.issue_awaits h (by unfold Act.has at *; omega) first (semCancel_live live within) ?_)
    rw [State.engOf_setEng_same]
    rfl
  · exact cancel op (State.issue_bank h fit (Nat.le_refl 1) (a' := { (effOf s t e a).a with log := some r }) rfl (semCancel_replay replay))

end Sys2Proof.Machine
end

section
/-! PROOFS. Encoders: edges, indices, SSI frames and the timeout (O29). -/

namespace Sys2Proof.Machine

variable {s : State} {i : Nat}

/-! ### What a move of the master position leaves (R46, R53, R167) -/

@[simp] theorem State.encOf_setEnc_same (x : Encoder) : (s.setEnc i x).encOf i = x := tget_tset_same _ _ _ _

theorem State.encOf_of_enc {u : State} (h : u.enc = s.enc) (i : Nat) : u.encOf i = s.encOf i := by
  unfold State.encOf; rw [h]

/-- What `u` keeps of `s`: the encoders and the causes of the timebase's interrupt. -/
structure State.EncodersStay (s u : State) : Prop where
  enc : u.enc = s.enc
  causes : u.reg TB_IRQ_STAT_at = s.reg TB_IRQ_STAT_at

theorem State.EncodersStay.refl (s : State) : s.EncodersStay s := ⟨rfl, rfl⟩

theorem State.EncodersStay.trans {u v : State} (h : s.EncodersStay u) (g : u.EncodersStay v) : s.EncodersStay v :=
  ⟨g.enc.trans h.enc, g.causes.trans h.causes⟩

theorem State.EncodersStay.foldl {g : State → Nat → State} (hg : ∀ (u : State) k, u.EncodersStay (g u k)) (l : List Nat) (s : State) :
    s.EncodersStay (l.foldl g s) :=
  List.foldlRecOn l g (.refl s) fun u h k _ => h.trans (hg u k)

theorem State.EncodersStay.setFld {f : RF} (v : Nat) (h : TB_IRQ_STAT_at ≠ f.addr) : s.EncodersStay (s.setFld f v) :=
  ⟨rfl, State.reg_setReg_other _ _ _ _ h⟩

theorem State.EncodersStay.cause {u : State} (h : s.EncodersStay u) {f : RF} (hf : f.addr = TB_IRQ_STAT_at) : u.fb f = s.fb f := by
  unfold State.fb State.fld; rw [hf, h.causes]

theorem causes_ne_converter (n : Nat) : TB_IRQ_STAT_at ≠ ADC_IRQ_STAT_at n := by
  unfold TB_IRQ_STAT_at ADC_IRQ_STAT_at
  omega

theorem causes_ne_counter (k : Nat) : TB_IRQ_STAT_at ≠ TB_QCNT_OTHER_at k := by
  unfold TB_IRQ_STAT_at TB_QCNT_OTHER_at
  omega

/-- A pulse of an event that no comparator or window raises changes nothing but the pulses in flight (R33). -/
theorem State.firePulse_evq {e : Nat} (d : Domain) (h : 0x60 ≤ e) : ∃ q, s.firePulse e d = { s with evq := q } := by
  unfold State.firePulse
  split
  · exact ⟨s.evq, (if_neg (by omega)).trans (if_neg (by omega))⟩
  · exact ⟨_, rfl⟩

theorem State.fire_evq {e : Nat} (h : 0x60 ≤ e) : ∃ q, s.fire e = { s with evq := q } := by
  unfold State.fire
  dsimp only
  split
  · exact ⟨s.evq, rfl⟩
  · refine List.foldlRecOn (motive := fun (u : State) => ∃ q, u = { s with evq := q }) _ _ ⟨s.evq, rfl⟩ ?_
    rintro u ⟨q, rfl⟩ d -
    exact State.firePulse_evq d h

theorem State.fire_encodersStay {e : Nat} (h : 0x60 ≤ e) : s.EncodersStay (s.fire e) := by
  obtain ⟨q, hq⟩ := State.fire_evq (s := s) h
  rw [hq]
  exact ⟨rfl, rfl⟩

/-- A loss of synchronisation changes converters and their causes alone (R167). -/
theorem State.asyncLost_encodersStay : s.EncodersStay s.asyncLost := by
  refine .foldl (fun u n => ?_) _ s
  split
  · exact .trans (u := u.setAdc n _) ⟨rfl, rfl⟩ (.setFld _ (causes_ne_converter n))
  · exact .refl u

theorem State.asyncLost_tb : s.asyncLost.tb = s.tb := by
  refine List.foldlRecOn (motive := fun (u : State) => u.tb = s.tb) _ _ rfl fun u hu n _ => ?_
  split <;> exact hu

/-- What a command that may end the synchronisation leaves behind its own effect. -/
theorem asyncCheck_encodersStay (old : State) : s.EncodersStay (asyncCheck old s) := by
  unfold asyncCheck
  split
  · exact State.asyncLost_encodersStay
  · exact .refl s

theorem asyncCheck_tb (old : State) : (asyncCheck old s).tb = s.tb := by
  unfold asyncCheck
  split
  · exact State.asyncLost_tb
  · rfl

/-- Where the estimate of the master is as before, synchronisation goes on. -/
theorem asyncCheck_same {u : State} (h : u.tb = s.tb) : asyncCheck s u = u := by
  unfold asyncCheck
  rw [h]
  exact if_neg (by simp)

theorem State.moveP_encodersStay (p : BitVec 80) (jump : Bool) : s.EncodersStay (s.moveP p jump) := by
  have counted (u : State) (k n : Nat) : u.EncodersStay (if jump = true then u.addSat (TB_QCNT_OTHER_JUMPED k) n else u) := by
    split
    · exact .setFld _ (causes_ne_counter k)
    · exact .refl u
  have lost (u : State) : u.EncodersStay (if jump = true then u.asyncLost else u) := by
    split
    · exact State.asyncLost_encodersStay
    · exact .refl u
  have stored (u : State) (k : Nat) (x : Store) : u.EncodersStay (u.setStore k x) := ⟨rfl, rfl⟩
  have placed (u : State) : u.EncodersStay { u with tb := { u.tb with pos := p } } := ⟨rfl, rfl⟩
  unfold State.moveP
  dsimp only
  generalize e : List.foldl _ s _ = u
  have stores : s.EncodersStay u := e ▸ .foldl (fun u k => (counted u k _).trans (stored _ k _)) _ s
  have moved := stores.trans ((placed u).trans (lost _))
  split
  · exact moved.trans (State.fire_encodersStay (by decide))
  · exact moved

/-- What the master takes over from its source leaves the encoders. -/
theorem State.masterEdge_enc (reversed : Bool) : (s.masterEdge i reversed).enc = s.enc := by
  unfold State.masterEdge
  split
  · rfl
  · dsimp only
    rw [(State.moveP_encodersStay _ _).enc]
    split <;> rfl

/-! ### Edges of A and B (R37, R38) -/

/-- The angle of a position is its lower half. -/
theorem position_angle (rev angle : BitVec 32) : (rev ++ angle).setWidth 32 = angle := by
  rw [BitVec.setWidth_append]
  simp

/-- Encoder `i` counts the changes of A and B that pins bring it. -/
structure State.CountsEdges (s : State) (i : Nat) : Prop where
  mode : s.fld (TB_ENC_CFG_MODE i) = 1
  released : s.pwr.released = true
  fed : (s.fed (0xA0 + 3 * i) || s.fed (0xA1 + 3 * i)) = true

/-- An accepted edge brings encoder `i` to the edge count `cnt` of the revolution `rev`, in a direction. -/
def State.stepTo (s : State) (i cnt : Nat) (rev : BitVec 32) (dir : Bool) : State :=
  let r := s.encEdge i cnt (rev ++ BitVec.ofNat 32 (edgeAngle cnt (s.fld (TB_ENC_EPR_EPR i)))) dir s.tb.now
  (s.setEnc i r.1).masterEdge i r.2

/-- Where the edge brings the encoder is not changed by what else it does. -/
theorem State.stepTo_encOf (cnt : Nat) (rev : BitVec 32) (dir : Bool) :
    let u := settle s (asyncCheck s (s.stepTo i cnt rev dir))
    (u.encOf i).cnt = cnt ∧ (u.encOf i).rev = rev ∧
      (u.encOf i).angle = BitVec.ofNat 32 (edgeAngle cnt (s.fld (TB_ENC_EPR_EPR i))) ∧ (u.encOf i).dir = dir := by
  intro u
  have kept : u.enc = _ := (settle_enc _ _).trans ((asyncCheck_encodersStay s).enc.trans (State.masterEdge_enc _))
  rw [State.encOf_of_enc kept, State.encOf_setEnc_same]
  exact ⟨rfl, BitVec.extractLsb'_append_eq_left, position_angle _ _, rfl⟩

section
variable (h : s.CountsEdges i)
include h

theorem State.encoderEdge_illegal : s.encoderEdge i .illegal = s.countQerr i := by
  obtain ⟨mode, released, fed⟩ := h
  unfold State.encoderEdge
  simp only [mode, released, fed, ne_eq, not_true_eq_false, Bool.true_eq_false, or_self, reduceCtorEq, and_false, if_false]

theorem State.encoderEdge_close {k : EdgeKind} (close : s.tooClose i = true) (hk : k = .forward ∨ k = .reverse) :
    s.encoderEdge i k = s.countQerr i := by
  obtain ⟨mode, released, fed⟩ := h
  unfold State.encoderEdge
  dsimp only
  rw [if_neg (by simp [mode, released, fed]), if_pos ⟨close, hk⟩]

variable (apart : s.tooClose i = false)
include apart

/-- A forward edge counts up, and at the last count it begins the next revolution. -/
theorem State.encoderEdge_forward : s.encoderEdge i .forward =
    if s.fld (TB_ENC_EPR_EPR i) ≤ (s.encOf i).cnt + 1 then s.stepTo i 0 ((s.encOf i).rev + 1) false
    else s.stepTo i ((s.encOf i).cnt + 1) (s.encOf i).rev false := by
  obtain ⟨mode, released, fed⟩ := h
  unfold State.encoderEdge
  dsimp only
  rw [if_neg (by simp [mode, released, fed]), if_neg (by simp [apart])]
  rfl

/-- A reverse edge counts down, and at count 0 it ends the revolution before. -/
theorem State.encoderEdge_reverse : s.encoderEdge i .reverse =
    if (s.encOf i).cnt = 0 then s.stepTo i (s.fld (TB_ENC_EPR_EPR i) - 1) ((s.encOf i).rev - 1) true
    else s.stepTo i ((s.encOf i).cnt - 1) (s.encOf i).rev true := by
  obtain ⟨mode, released, fed⟩ := h
  unfold State.encoderEdge
  dsimp only
  rw [if_neg (by simp [mode, released, fed]), if_neg (by simp [apart])]
  rfl

end

theorem State.encoderEdge_none {k : EdgeKind} (h : s.fld (TB_ENC_CFG_MODE i) ≠ 1 ∨ s.pwr.released ≠ true ∨
    (s.fed (0xA0 + 3 * i) || s.fed (0xA1 + 3 * i)) ≠ true) : s.encoderEdge i k = s :=
  if_pos (by simpa only [Bool.eq_false_iff] using h)

/-! ### The index (R44) -/

/-- A forward index whose count differs stores the count of the index and sets IDX. -/
theorem State.indexEdge_corrects (mode : s.fld (TB_ENC_CFG_MODE i) = 1) (released : s.pwr.released = true)
    (fed : s.fed (0xA2 + 3 * i) = true) (on : s.fb (TB_ENC_CFG_IDXEN i) = true) (differs : (s.encOf i).cnt ≠ s.fld (TB_ENC_IDX_COUNT i)) :
    ((s.indexEdge i true).encOf i).cnt = s.fld (TB_ENC_IDX_COUNT i) ∧ (s.indexEdge i true).fb TB_IRQ_STAT_IDX = true := by
  obtain ⟨q, hq⟩ := State.fire_evq (s := s) (e := 0x120 + i) (by omega)
  unfold State.indexEdge
  rw [if_neg (by simp [mode, released, fed]), hq]
  dsimp only
  have meets : (true && State.fb { s with evq := q } (TB_ENC_CFG_IDXEN i) &&
      decide ((State.encOf { s with evq := q } i).cnt ≠ State.fld { s with evq := q } (TB_ENC_IDX_COUNT i))) = true := by
    rw [Bool.true_and, Bool.and_eq_true, decide_eq_true_eq]
    exact ⟨on, differs⟩
  rw [if_pos meets]
  split
  · rw [State.encOf_of_enc (State.moveP_encodersStay _ _).enc, (State.moveP_encodersStay _ _).cause rfl]
    exact ⟨congrArg Encoder.cnt (State.encOf_setEnc_same _), State.fb_setFld_one _ (by decide)⟩
  · exact ⟨congrArg Encoder.cnt (State.encOf_setEnc_same _), State.fb_setFld_one _ (by decide)⟩

/-! ### SSI frames (R39) -/

theorem State.ssiRead_starts (mode : s.fld (TB_ENC_CFG_MODE i) = 2 ∨ s.fld (TB_ENC_CFG_MODE i) = 3) (released : s.pwr.released = true) :
    s.ssiRead i = s.setEnc i { s.encOf i with
      ssiStart := s.tb.now, ssiBusy := some (s.tb.now - BitVec.ofNat 64 (s.fld (TB_ENC_SSI_LATENCY i))) } := if_pos ⟨mode, released⟩

section
variable {at_ : BitVec 64} (busy : (s.encOf i).ssiBusy = some at_) (d : Word) (p : Bool)
include busy

/-- A frame with a framing error ends the read and counts. -/
theorem State.ssiSample_framing : s.ssiSample i d p false = (s.setEnc i { s.encOf i with ssiBusy := none }).countQerr i := by
  unfold State.ssiSample
  dsimp only
  rw [busy]
  exact if_pos (.inl rfl)

/-- A good frame of a binary encoder without parity ends the read and brings its angle, in some revolution and direction. -/
theorem State.ssiSample_good (mode : s.fld (TB_ENC_CFG_MODE i) = 2) (plain : s.fb (TB_ENC_SSI_PARITY i) = false) :
    let n := s.fld (TB_ENC_SSI_BITS i)
    let angle := BitVec.ofNat 32 ((if s.fed (0xA0 + 3 * i) then d else 0).toNat % 2 ^ n * 2 ^ (32 - n))
    let s0 := s.setEnc i { s.encOf i with ssiBusy := none }
    ∃ (rev : BitVec 32) (dir reversed : Bool), s.ssiSample i d p true =
      (s0.setEnc i { (s0.encEdge i (s.encOf i).cnt (rev ++ angle) dir at_).1 with ssiGood := true }).masterEdge i reversed := by
  intro n angle s0
  unfold State.ssiSample
  dsimp only
  rw [busy]
  dsimp only
  rw [if_neg (by simp [plain]), mode]
  exact ⟨_, _, _, rfl⟩

end

/-! ### The timeout (R43) -/

/-- What a timeout leaves of its encoder. -/
def Encoder.timedOut (e : Encoder) : Encoder := { e with hist := [], speed := 0, speedOk := false, stopped := true }

theorem State.encoderTimeout_on (mode : s.fld (TB_ENC_CFG_MODE i) ≠ 0) : s.encoderTimeout i =
    let s1 := s.setEnc i (s.encOf i).timedOut
    if s.src = i then { s1 with tb := { s1.tb with speed := 0, speedOk := false, stopped := true } }.setFld TB_IRQ_STAT_STOP 1 else s1 :=
  if_neg mode

theorem State.encoderTimeout_encOf (mode : s.fld (TB_ENC_CFG_MODE i) ≠ 0) : (s.encoderTimeout i).encOf i = (s.encOf i).timedOut := by
  rw [State.encoderTimeout_on mode]
  dsimp only
  split
  · exact State.encOf_setEnc_same _
  · exact State.encOf_setEnc_same _

/-- Settles O29: where an accepted edge, an index or a frame brings the encoder, and that a move of the master leaves it there. -/
theorem encodersMoveTheirCount : Obligations.EncodersMoveTheirCount := by
  intro s i e epr m on fed bad
  have counts (hm : m = 1) (ho : on) (hf : fed) : s.CountsEdges i := ⟨hm, ho, hf⟩
  have edge {k : EdgeKind} {u : State} (h : s.encoderEdge i k = u) : exec (.encoderEdge i k) s = .next (settle s (asyncCheck s u)) :=
    congrArg (fun u => done s (asyncCheck s u)) h
  have qerr {k : EdgeKind} (h : s.encoderEdge i k = s.countQerr i) : exec (.encoderEdge i k) s = .next (settle s bad) :=
    (edge h).trans (congrArg (done s) (asyncCheck_same rfl))
  have checked (u : State) : (settle s (asyncCheck s u)).encOf i = u.encOf i :=
    State.encOf_of_enc ((settle_enc _ _).trans (asyncCheck_encodersStay s).enc) i
  have steps {k : EdgeKind} {cnt : Nat} {rev : BitVec 32} {dir : Bool} (h : s.encoderEdge i k = s.stepTo i cnt rev dir) :
      ∃ u, exec (.encoderEdge i k) s = .next u ∧ (u.encOf i).cnt = cnt ∧ (u.encOf i).rev = rev ∧
        (u.encOf i).angle = BitVec.ofNat 32 (edgeAngle cnt epr) ∧ (u.encOf i).dir = dir := ⟨_, edge h, State.stepTo_encOf cnt rev dir⟩
  refine ⟨fun hm ho hf apart below => steps ((State.encoderEdge_forward (counts hm ho hf) apart).trans (if_neg (Nat.not_le.mpr below))),
    fun hm ho hf apart last => ?wraps,
    fun hm ho hf apart above => steps ((State.encoderEdge_reverse (counts hm ho hf) apart).trans (if_neg above)),
    fun hm ho hf apart zero => ?wrapsBack,
    fun k hm ho hf close hk => qerr (State.encoderEdge_close (counts hm ho hf) close hk),
    fun hm ho hf => qerr (State.encoderEdge_illegal (counts hm ho hf)),
    fun k still => (edge (State.encoderEdge_none still)).trans (congrArg (done s) (asyncCheck_same rfl)),
    fun hm ho hf en differs => ⟨_, rfl, ?index⟩, fun hm ho => congrArg (done s) (State.ssiRead_starts hm ho),
    fun d p busy => ?framing, fun d p busy hm plain => ⟨_, rfl, ?frame⟩, fun hm => ⟨_, rfl, ?timeout⟩⟩
  case wraps =>
    obtain ⟨u, he, cnt, rev, angle, dir⟩ := steps ((State.encoderEdge_forward (counts hm ho hf) apart).trans (if_pos last))
    have zero : edgeAngle 0 epr = 0 := by simp [edgeAngle]
    exact ⟨u, he, cnt, rev, angle.trans (congrArg (BitVec.ofNat 32) zero), dir⟩
  case wrapsBack =>
    obtain ⟨u, he, cnt, rev, -, dir⟩ := steps ((State.encoderEdge_reverse (counts hm ho hf) apart).trans (if_pos zero))
    exact ⟨u, he, cnt, rev, dir⟩
  case index =>
    obtain ⟨cnt, idx⟩ := State.indexEdge_corrects hm ho hf en differs
    rw [checked, settle_fb, (asyncCheck_encodersStay s).cause rfl]
    exact ⟨cnt, idx⟩
  case framing =>
    obtain ⟨at_, hat⟩ := Option.ne_none_iff_exists'.mp busy
    exact congrArg (done s) ((congrArg (asyncCheck s) (State.ssiSample_framing hat d p)).trans (asyncCheck_same rfl))
  case frame =>
    obtain ⟨at_, hat⟩ := Option.ne_none_iff_exists'.mp busy
    obtain ⟨rev, dir, reversed, sample⟩ := State.ssiSample_good hat d p hm plain
    rw [checked, sample, State.encOf_of_enc (State.masterEdge_enc _), State.encOf_setEnc_same]
    refine ⟨(position_angle _ _).trans ?_, congrArg Encoder.ssiBusy (State.encOf_setEnc_same _), rfl⟩
    cases s.fed (0xA0 + 3 * i) <;> simp
  case timeout =>
    rw [checked, State.encoderTimeout_encOf hm, settle_tb, asyncCheck_tb, settle_fb, (asyncCheck_encodersStay s).cause rfl]
    refine ⟨rfl, rfl, rfl, fun master => ?_⟩
    rw [State.encoderTimeout_on hm, if_pos master]
    exact ⟨rfl, rfl, State.fb_setFld_one _ (by decide)⟩

end Sys2Proof.Machine
end

section
/-! PROOFS. Sector timers: PWM periods and duties, captures, and quadrature decoders (O33). -/

namespace Sys2Proof.Machine

variable {s : State} {k j : Nat}

/-! ### PWM (R61) -/

/-- The clears that a period start sends leave the pairs. -/
@[simp] theorem State.pwmClears_pwm : (s.pwmClears k j).pwm = s.pwm := by
  refine List.foldlRecOn (motive := fun (u : State) => u.pwm = s.pwm) _ _ rfl fun u hu l _ => ?_
  dsimp only
  split_ifs <;> exact hu

theorem State.pwmPeriod_off (h : s.sectRuns k = false ∨ s.fld (STM_PWM_CFG_MODE k j) = 0 ∨ s.fld (STM_PWM_CFG_MODE k j) = 3) :
    s.pwmPeriod k j = s := if_pos h

/-- A period start of a pair that is on takes the duties and the instant; it holds no side low. -/
theorem State.pwmPeriod_on (runs : s.sectRuns k = true) (mode : s.fld (STM_PWM_CFG_MODE k j) = 1 ∨ s.fld (STM_PWM_CFG_MODE k j) = 2) :
    let p := (s.pwmPeriod k j).pwmOf k j
    p.d0 = s.fld (STM_PWM_DUTY_DUTY k (2 * j)) ∧ p.d1 = s.fld (STM_PWM_DUTY_DUTY k (2 * j + 1)) ∧ p.start = s.tb.now ∧
      p.base = 0 ∧ p.hold0 = 0 ∧ p.hold1 = 0 := by
  have on : ¬ (s.sectRuns k = false ∨ s.fld (STM_PWM_CFG_MODE k j) = 0 ∨ s.fld (STM_PWM_CFG_MODE k j) = 3) := by
    rw [runs]; simp only [Bool.true_eq_false, false_or]; omega
  unfold State.pwmPeriod State.pwmOf
  rw [if_neg on, State.pwmClears_pwm]
  unfold State.pwmStart
  dsimp only
  rw [if_neg (by simp), tget_tset_same]
  exact ⟨rfl, rfl, rfl, rfl, rfl, rfl⟩

@[simp] theorem State.toPartner_pwm (kind : String) (ws : List Nat) : (s.toPartner kind ws).pwm = s.pwm := by
  obtain ⟨o, p, r, e, -⟩ := s.toPartner_same kind ws
  rw [e]

/-- A duty written on a device that is no standby loads the shadow duty alone. -/
theorem State.pwmDuty_loads (n : Nat) (v : Word) (live : s.pairStandby = false) (other : STM_PWM_DUTY_at k n ≠ PAIR_TXQ_at) :
    (s.pwmDuty k n v).fld (STM_PWM_DUTY_DUTY k n) = v.toNat % 2 ^ 17 ∧ (s.pwmDuty k n v).pwm = s.pwm ∧
      ∀ b, b ≠ STM_PWM_DUTY_at k n → b ≠ PAIR_TXQ_at → (s.pwmDuty k n v).reg b = s.reg b := by
  unfold State.pwmDuty
  rw [if_neg (by simp [live])]
  refine ⟨?_, State.toPartner_pwm _ _, fun b hb hq => ?_⟩
  · rw [State.toPartner_fld _ _ _ _ other, State.fld_setFld_same _ _ _ ⟨Nat.zero_le 16, (by decide : 16 < 32)⟩]
    simp [bits]
  · rw [State.toPartner_reg _ _ _ _ hq]
    exact State.reg_setReg_other _ _ _ _ hb

theorem State.pwmDuty_standby (n : Nat) (v : Word) (standby : s.pairStandby = true) :
    s.pwmDuty k n v = s.setFld PAIR_IRQ_STAT_LOCALWR 1 := if_pos standby

/-! ### Writes in a bay window (R352) -/

theorem State.bayGate_open (a : Nat) (f : State → State) (h : s.fb (BAY_STATUS_HELD k) = false) : s.bayGate k a f = f s :=
  if_neg (by simp [h])

theorem State.bayGate_held (a : Nat) (f : State → State) (h : s.fb (BAY_STATUS_HELD k) = true) :
    s.bayGate k a f = s.accessError 403 a false false true := if_pos h

/-! ### Captures (R62) -/

@[simp] theorem State.capOf_setCap_same (u : Nat) (c : Capture) : (s.setCap k u c).capOf k u = c := tget_tset_same _ _ _ _

section
variable {u : Nat} {level : Bool}

/-- The edge selection of a capture unit takes an edge to the level. -/
def State.takesEdge (s : State) (k u : Nat) (level : Bool) : Prop :=
  s.fld (STM_CAP_CFG_EDGE k u) = 3 ∨ s.fld (STM_CAP_CFG_EDGE k u) = if level then 1 else 2

theorem State.takesEdge_iff : s.takesEdge k u level ↔ s.fld (STM_CAP_CFG_EDGE k u) = 3 ∨
    s.fld (STM_CAP_CFG_EDGE k u) = 1 ∧ level = true ∨ s.fld (STM_CAP_CFG_EDGE k u) = 2 ∧ level = false := by
  unfold State.takesEdge
  cases level <;> simp

theorem State.captureEdge_none (n : Nat) (h : s.sectRuns k = false ∨ (s.capOf k u).level = level) : s.captureEdge k u level n = s :=
  if_pos h

variable (n : Nat) (runs : s.sectRuns k = true) (moved : (s.capOf k u).level = !level)
include runs moved

theorem State.capture_not_idle : ¬ (s.sectRuns k = false ∨ (s.capOf k u).level = level) := by
  rw [runs, moved]; cases level <;> decide

theorem State.captureEdge_stores (hit : s.takesEdge k u level) (room : (s.capOf k u).fifo.length < 4) : s.captureEdge k u level n =
    (s.setCap k u { s.capOf k u with level := level, fifo := (s.capOf k u).fifo ++ [(s.capTime k n, level)] }).fire (0x80 + 8 * k + u) := by
  unfold State.captureEdge
  dsimp only
  rw [if_neg (State.capture_not_idle runs moved), if_pos (State.takesEdge_iff.mp hit), if_neg (Nat.not_le.mpr room)]

theorem State.captureEdge_full (hit : s.takesEdge k u level) (full : 4 ≤ (s.capOf k u).fifo.length) :
    s.captureEdge k u level n = (s.setCap k u { s.capOf k u with level := level }).orBit (STM_CAP_STAT_OVF k) u := by
  unfold State.captureEdge
  dsimp only
  rw [if_neg (State.capture_not_idle runs moved), if_pos (State.takesEdge_iff.mp hit), if_pos full]

theorem State.captureEdge_unselected (miss : ¬ s.takesEdge k u level) :
    s.captureEdge k u level n = s.setCap k u { s.capOf k u with level := level } := by
  unfold State.captureEdge
  dsimp only
  rw [if_neg (State.capture_not_idle runs moved), if_neg (fun h => miss (State.takesEdge_iff.mpr h))]

end

theorem State.popCapture_empty {u : Nat} (h : (s.capOf k u).fifo = []) : s.popCapture k u = (s, none) := by
  unfold State.popCapture; rw [h]

theorem State.popCapture_oldest {u : Nat} {t : Word} {l : Bool} {r : List (Word × Bool)} (h : (s.capOf k u).fifo = (t, l) :: r) :
    s.popCapture k u = (s.setCap k u { s.capOf k u with fifo := r, edgeBit := l }, some t) := by
  unfold State.popCapture; rw [h]

/-! ### Quadrature decoders (R60, R63) -/

section
variable {q : Nat}

/-- An edge comes too close to the last accepted one of the decoder. -/
theorem State.qdTooClose_iff : s.qdTooClose k q = true ↔ ∃ t, tget none s.qdAt (2 * k + q) = some t ∧
    s.toSect k (s.tb.now - t).toNat < s.fld (STM_QD_CFG_FILTER k q) + 2 := by
  unfold State.qdTooClose
  cases tget none s.qdAt (2 * k + q) <;> simp

variable (runs : s.sectRuns k = true) (mode : s.fld (STM_QD_CFG_MODE k q) = 1 ∨ s.fld (STM_QD_CFG_MODE k q) = 2)
include runs mode

theorem State.qd_not_idle : ¬ (s.sectRuns k = false ∨ s.fld (STM_QD_CFG_MODE k q) ≠ 1 ∧ s.fld (STM_QD_CFG_MODE k q) ≠ 2) := by
  rw [runs]; simp only [Bool.true_eq_false, false_or]; omega

theorem State.qdEdge_forward : s.qdEdge k q .forward =
    if s.fed (0xB0 + 3 * (2 * k + q)) || s.fed (0xB0 + 3 * (2 * k + q) + 1) then s.qdStep k q (s.reg (STM_QD_POS_at k q) + 1) else s :=
  if_neg (State.qd_not_idle runs mode)

theorem State.qdEdge_reverse : s.qdEdge k q .reverse =
    if s.fed (0xB0 + 3 * (2 * k + q)) || s.fed (0xB0 + 3 * (2 * k + q) + 1) then s.qdStep k q (s.reg (STM_QD_POS_at k q) - 1) else s :=
  if_neg (State.qd_not_idle runs mode)

theorem State.qdEdge_illegal : s.qdEdge k q .illegal = s := if_neg (State.qd_not_idle runs mode)

/-- A forward index clears the count where a pin feeds it and it is enabled. -/
theorem State.qdEdge_index : s.qdEdge k q .indexForward =
    if s.fed (0xB0 + 3 * (2 * k + q) + 2) && s.fb (STM_QD_CFG_IDXCLR k q) then s.setReg (STM_QD_POS_at k q) 0 else s :=
  if_neg (State.qd_not_idle runs mode)

end

theorem State.qdStep_close {q : Nat} (w : Word) (h : s.qdTooClose k q = true) : s.qdStep k q w = s := if_pos h

theorem State.qdStep_apart {q : Nat} (w : Word) (h : s.qdTooClose k q = false) : s.qdStep k q w =
    { s.setReg (STM_QD_POS_at k q) w with qdAt := tset none s.qdAt (2 * k + q) (some s.tb.now) } := if_neg (by simp [h])

/-- Settles O33: each clause is one branch of the operation of the pair, the capture unit or the decoder. -/
theorem timersCountAndCapture : Obligations.TimersCountAndCapture := by
  refine ⟨fun s k j => ⟨fun runs mode => ⟨_, rfl, ?period⟩, fun off => congrArg (done s) (State.pwmPeriod_off off)⟩,
    fun s k n v => ?duty, fun s k u level n => ?capture, fun s req k u t l r => ⟨fun oldest => ?popped, fun empty => ?nothing⟩,
    fun s k q v => ?decoder⟩
  case period =>
    unfold State.pwmOf
    rw [settle_pwm]
    exact State.pwmPeriod_on runs mode
  case duty =>
    intro open_
    have written {u : State} (h : s.bayGate k (STM_PWM_DUTY_at k n) (fun s => s.pwmDuty k n v) = u) :
        exec (.pwmDutyWrite k n v) s = .next (settle s u) := congrArg (done s) h
    refine ⟨fun ho live => ⟨_, written (State.bayGate_open _ _ ho), ?_⟩,
      fun ho standby => written ((State.bayGate_open _ _ ho).trans (State.pwmDuty_standby _ _ standby)),
      fun held => written (State.bayGate_held _ _ (by simpa [open_] using held))⟩
    rw [settle_fld, settle_pwm]
    simp only [settle_reg]
    exact State.pwmDuty_loads n v live (by unfold STM_PWM_DUTY_at PAIR_TXQ_at; omega)
  case capture =>
    have shown {u' : State} (hs : s.capShows k u level = true) (h : s.captureEdge k u level n = u') :
        exec (.captureEdge k u level n) s = .next (settle s u') := congrArg (done s) ((if_pos hs).trans h)
    refine ⟨fun still => ?_, fun hs runs moved => ⟨
      fun hit room => ⟨_, shown hs (State.captureEdge_stores n runs moved hit room), ?_⟩,
      fun hit full => shown hs (State.captureEdge_full n runs moved hit full),
      fun miss => shown hs (State.captureEdge_unselected n runs moved miss)⟩⟩
    · refine congrArg (done s) ?_
      cases hs : s.capShows k u level with
      | false => exact if_neg Bool.false_ne_true
      | true => exact (if_pos rfl).trans (State.captureEdge_none n (still.resolve_left (by simp [hs])))
    · obtain ⟨q, hq⟩ := State.fire_evq (s := s.setCap k u _) (e := 0x80 + 8 * k + u) (by omega)
      rw [hq]
      unfold State.capOf
      rw [settle_cap]
      exact State.capOf_setCap_same _ _
  case popped =>
    show done s _ = _
    rw [State.popCapture_oldest oldest]
    rfl
  case nothing =>
    show done s _ = _
    rw [State.popCapture_empty empty]
    rfl
  case decoder =>
    intro p
    refine ⟨fun ho => congrArg (done s) (State.bayGate_open _ _ ho), fun held => congrArg (done s) (State.bayGate_held _ _ held),
      fun runs mode => ?_⟩
    intro i close at_
    have edge {e : EdgeKind} {u : State} (h : s.qdEdge k q e = u) : exec (.qdEdge k q e) s = .next (settle s u) := congrArg (done s) h
    have forward := State.qdEdge_forward runs mode
    have reverse := State.qdEdge_reverse runs mode
    have apart (h : ¬ close) : s.qdTooClose k q = false := Bool.eq_false_iff.mpr fun e => h (State.qdTooClose_iff.mp e)
    refine ⟨fun fed far => ?_, fun none => ?_, edge (State.qdEdge_illegal runs mode), fun fed clears => ?_⟩
    · have feeds : (s.fed i || s.fed (i + 1)) = true := by simpa using fed
      exact ⟨edge (forward.trans ((if_pos feeds).trans (State.qdStep_apart _ (apart far)))),
        edge (reverse.trans ((if_pos feeds).trans (State.qdStep_apart _ (apart far))))⟩
    · have stays (w : Word) : (if s.fed i || s.fed (i + 1) then s.qdStep k q w else s) = s := by
        rcases none with near | ⟨first, second⟩
        · rw [State.qdStep_close _ (State.qdTooClose_iff.mpr near), ite_self]
        · simp [first, second]
      exact ⟨edge (forward.trans (stays _)), edge (reverse.trans (stays _))⟩
    · exact edge ((State.qdEdge_index runs mode).trans (if_pos (by simp [i, fed, clears])))

end Sys2Proof.Machine
end

section
/-! PROOFS. Lines: assembly, cycle starts and returns (O45). -/

namespace Sys2Proof.Machine

variable {s : State} {l : Nat} {x : LineCycle}

@[simp] theorem State.lineOf_setLine_same (y : Line) : (s.setLine l y).lineOf l = y := tget_tset_same _ _ _ _

theorem State.lineOf_of_lines {u : State} (h : u.lines = s.lines) (l : Nat) : u.lineOf l = s.lineOf l := by
  unfold State.lineOf; rw [h]

/-- What a command sends comes before the messages of its interrupts. -/
theorem settle_outbox (t : State) : ∃ o, (settle s t).outbox = t.outbox ++ o := by
  have kept : t.keepPads.fresh.outbox = t.outbox := rfl
  unfold settle State.sendMsi
  split
  · exact ⟨[], by rw [List.append_nil, kept]⟩
  · split
    · exact ⟨_, congrArg (· ++ _) kept⟩
    · exact ⟨[], by rw [List.append_nil]; exact kept⟩

/-- LINE_CLK runs only while the device is awake (R423). -/
theorem State.awake_of_line (h : s.domRuns .line = true) : s.awake = true := (Bool.and_eq_true_iff.mp h).1

/-! ### Assembly (R55) -/

/-- An entry that meets an assembly leaves the tick of the cycle that is assembled, whether it is placed, refused, dropped or stays. -/
theorem State.placeOne_start (k : Nat) (c : BitVec 64) (en : Bool) (y : Line) (a : Action) :
    (s.placeOne l k c en y x a).2.1.start = x.start := by
  have either {g : Prop} [Decidable g] {p q : State × LineCycle × Bool} (hp : p.2.1.start = x.start) (hq : q.2.1.start = x.start) :
      (if g then p else q).2.1.start = x.start := by
    split
    · exact hp
    · exact hq
  unfold State.placeOne
  cases s.predict a with
  | none => exact either rfl rfl
  | some _ =>
    refine either rfl (either rfl (either rfl (either rfl (either ?inTime ?late))))
    case inTime => exact either rfl rfl
    case late => exact either (either rfl rfl) rfl

theorem State.placeSector_start (k : Nat) (c : BitVec 64) (en : Bool) (y : Line) : (s.placeSector l k c en y x).2.start = x.start := by
  refine List.foldlRecOn (motive := fun (acc : State × LineCycle × List Action) => acc.2.1.start = x.start) _ _ rfl fun acc h a _ => ?_
  have placed := State.placeOne_start (s := acc.1) (l := l) (x := acc.2.1) k c en y a
  generalize acc.1.placeOne l k c en y acc.2.1 a = r at placed
  exact placed.trans h

/-- The line then holds the assembled cycle of the tick it was assembled for. -/
theorem State.assemble_asm (m : BitVec 48) (c : BitVec 64) : ∃ x, ((s.assemble l m c).lineOf l).asm = some x ∧ x.start = m := by
  refine ⟨_, congrArg Line.asm (State.lineOf_setLine_same _), ?_⟩
  exact List.foldlRecOn (motive := fun (acc : State × LineCycle) => acc.2.start = m) _ _ rfl fun acc h k _ =>
    (State.placeSector_start _ _ _ _).trans h

/-- Time passes to the assembly of the next cycle start, where no tick edge lies between and the cycle is not assembled yet. -/
theorem State.assembly_due (released : s.pwr.released = true) (awake : s.awake = true) :
    let m := s.nextStart l
    let len := s.fld TB_TICKLEN_CYCLES
    let c := s.tb.edge + BitVec.ofNat 64 ((m - s.tb.tick).toNat * len)
    let a := (c - s.tb.now).toInt - s.fld TB_BLEAD_LEAD
    (s.lineOf l).asm.map (·.start) ≠ some m → a < ((s.tb.edge + BitVec.ofNat 64 len) - s.tb.now).toInt →
      s.assembly l = (s.advance a.toNat).assemble l m c := by
  intro m len c a fresh before
  refine if_neg ?_
  rintro (held | asleep | assembled | late)
  · simp [released] at held
  · simp [awake] at asleep
  · exact fresh assembled
  · exact absurd before (not_lt.mpr late)

/-! ### Cycle starts (R272, R273) -/

section
variable (hx : (s.lineOf l).asm = some x)
include hx

/-- An assembled cycle begins at its tick, once, where no return of the cycle before is missing. -/
theorem State.cycleStart_assembled (released : s.pwr.released = true) (awake : s.awake = true) (start : x.start = s.tb.tick)
    (once : (s.lineOf l).lastTick ≠ some s.tb.tick) (returned : (s.lineOf l).cur = none) : s.cycleStart l = s.beginCycle l x := by
  unfold State.cycleStart
  simp only [hx, start, released, awake, once, returned, beq_self_eq_true, Bool.true_eq_false, or_self, if_false, Option.isSome_some,
    if_true]

end

/-- The number of the cycle that begins. -/
def Line.nextCycle (y : Line) : BitVec 32 := if y.started then y.cycle + 1 else 0

/-- What a line that may send leaves: its cycle counted and awaited, the number of the MARK, RUN, and three messages. -/
theorem State.beginCycle_sends (sends : s.lineSends l x.cfg = true) :
    let u := s.beginCycle l x
    let k := (s.lineOf l).nextCycle
    (u.lineOf l).cycle = k ∧ (u.lineOf l).cur = some x ∧ (u.lineOf l).asm = none ∧ u.fld (BL_CYCLE_CYCLE l) = k.toNat ∧
      u.fb (BL_STAT_RUN l) = true ∧ u.outbox = s.outbox ++ [.message "TIMED" (l :: s.timedFrame x k), .message "MARK" [l, k.toNat]] ++
        [.message "DATA" (l :: s.dataFrame l x k)] := by
  intro u k
  have begun : u = _ := if_pos sends
  have line {β : Type} (g : Line → β) : g (u.lineOf l) = _ := (congrArg (fun u => g (State.lineOf u l)) begun).trans
    (congrArg g (State.lineOf_setLine_same _))
  have status (f : RF) (hf : f.addr ≠ BL_STAT_at l) (t : State) (v : Nat) (b : Bool) :
      ((t.setFld (BL_STAT_RUN l) v).setB (BL_STAT_SAFE l) b).fld f = t.fld f :=
    (State.fld_setFld_other _ _ _ _ hf).trans (State.fld_setFld_other _ _ _ _ hf)
  have apart : BL_CYCLE_at l ≠ BL_STAT_at l := by
    unfold BL_CYCLE_at BL_STAT_at
    omega
  have fits : k.toNat < 2 ^ 32 := k.isLt
  refine ⟨line Line.cycle, line Line.cur, line Line.asm, ?_, ?_, ?_⟩
  · rw [begun, State.fld_of_regs (State.setLine_regs _ _ _), status _ apart]
    exact State.fld_setFld_fits ⟨Nat.zero_le 31, (by decide : 31 < 32)⟩ fits
  · rw [begun, State.fb_of_regs (State.setLine_regs _ _ _)]
    refine (State.fb_setFld_apart _ _ _ (.inr ⟨Nat.le_refl 0, .inl (by decide : 0 < 1)⟩)).trans ?_
    exact State.fb_setFld_one _ ⟨Nat.le_refl 0, (by decide : 0 < 32)⟩
  · rw [begun, List.append_assoc]
    exact (List.append_assoc _ _ _).trans (List.append_assoc _ _ _)

theorem State.beginCycle_silent (silent : s.lineSends l x.cfg = false) :
    let y := s.lineOf l
    let counts := (BL_CFG_EN l).get x.cfg == 1 && !s.pairStandby
    s.beginCycle l x = (s.setFld (BL_STAT_RUN l) 0).setLine l { y with
      started := y.started || counts, cycle := if counts then y.nextCycle else y.cycle, lastTick := some s.tb.tick, asm := none,
      cur := none } := if_neg (by simp [silent])

/-! ### Returns (R284, R287, R307, R311, R313) -/

section
variable {f : LineReturn}

/-- The state that has seen the epoch of a good return. -/
def State.seen (s : State) (f : LineReturn) : State := if f.good then s.seeEpoch f.epoch else s

theorem State.seen_eq : (if f.good then s.seeEpoch f.epoch else s) = s.seen f := rfl

theorem State.seen_same : ∃ r, s.seen f = { s with regs := r } := by
  unfold State.seen
  split
  · exact ⟨_, rfl⟩
  · exact ⟨s.regs, rfl⟩

@[simp] theorem State.seen_lines : (s.seen f).lines = s.lines := by
  obtain ⟨r, e⟩ := State.seen_same (s := s) (f := f)
  rw [e]

theorem State.seen_lineOf (l : Nat) : (s.seen f).lineOf l = s.lineOf l := State.lineOf_of_lines State.seen_lines l

theorem State.seen_fld {g : RF} (h : g.addr ≠ PAIR_PEPOCH_at) : (s.seen f).fld g = s.fld g := by
  unfold State.seen
  split
  · exact State.fld_setFld_other _ _ _ _ h
  · rfl

theorem State.seen_fb {g : RF} (h : g.addr ≠ PAIR_PEPOCH_at) : (s.seen f).fb g = s.fb g := by
  unfold State.fb; rw [State.seen_fld h]

@[simp] theorem State.seen_pairStandby : (s.seen f).pairStandby = s.pairStandby := by
  unfold State.pairStandby; rw [State.seen_fld (by decide)]

/-- The registers of the lines stand below that of the epoch. -/
theorem lineRegs_ne_epoch (hl : l < 8) :
    BL_CFG_at l ≠ PAIR_PEPOCH_at ∧ BL_STAT_at l ≠ PAIR_PEPOCH_at ∧ BL_CYCLE_at l ≠ PAIR_PEPOCH_at := by
  unfold BL_CFG_at BL_STAT_at BL_CYCLE_at PAIR_PEPOCH_at
  omega

/-- The two messages of a frame that is turned round. -/
def State.turned (s : State) (l : Nat) (f : LineFrame) : List Output :=
  s.outbox ++ [.message "TURN_MARK" [l, s.free.toNat % 251], .message "TURN" (l :: b2n (!f.good) :: f.bytes.map BitVec.toNat)]

theorem State.turnRound_outbox (g : LineFrame) : (s.turnRound l g).outbox = s.turned l g := List.append_assoc _ _ _

theorem State.seen_turned (g : LineFrame) : (s.seen f).turned l g = s.turned l g := by
  obtain ⟨r, e⟩ := State.seen_same (s := s) (f := f)
  rw [e]
  rfl

/-- LINE_CLK runs, and the line takes the return: it is enabled, or it awaits one. -/
structure State.TakesReturn (s : State) (l : Nat) : Prop where
  line : l < 8
  released : s.pwr.released = true
  clock : s.domRuns .line = true
  awaits : s.fb (BL_CFG_EN l) = true ∨ (s.lineOf l).cur ≠ none

variable (h : s.TakesReturn l)
include h

/-- What a return does, by the role of the device, the line's demotion, and the frame. -/
theorem State.returnReceive_eq : s.returnReceive l f =
    if s.fb (BL_STAT_DEMOTED l) = true ∧ s.pairStandby = false then
      (if f.good then (s.seen f).setLine l { s.lineOf l with demoted := max (s.lineOf l).demoted f.epoch } else s.seen f).turnRound l
        f.frame
    else if s.pairStandby then
      (if f.good then (s.seen f).setFld (BL_CYCLE_CYCLE l) f.cycle.toNat else s.seen f).turnRound l f.frame
    else if f.good = true ∧ f.epoch > s.fld BL_EPOCH_EPOCH then
      (((((s.seen f).setFld (BL_STAT_DEMOTED l) 1).setFld (BL_IRQ_STAT_DEMOTED l) 1).setLine l
        { s.lineOf l with demoted := f.epoch, cur := none }).turnRound l f.frame).deposed
    else match (s.lineOf l).cur with
    | none => s.seen f
    | some x =>
      if f.good = false then (s.seen f).setLine l { s.lineOf l with damaged := true }
      else if f.cycle = (s.lineOf l).cycle ∧ f.epoch = s.fld BL_EPOCH_EPOCH then (s.seen f).goodReturn l x f
      else s.seen f := by
  obtain ⟨hl, released, clock, awaits⟩ := h
  have takes : ¬ (s.fb (BL_CFG_EN l) = false ∧ (s.lineOf l).cur = none) := fun ⟨off, idle⟩ =>
    awaits.elim (fun on => by simp [on] at off) (fun waits => waits idle)
  obtain ⟨cfg, stat, -⟩ := lineRegs_ne_epoch hl
  unfold State.returnReceive
  rw [if_neg (by simp [released, clock])]
  dsimp only
  rw [State.seen_eq, State.seen_fb cfg, State.seen_fb stat, State.seen_pairStandby, State.seen_lineOf, State.seen_fld (by decide)]
  exact if_neg takes

/-- A demoted line turns round what it receives, and knows the highest epoch of a good frame (R287). -/
theorem State.returnReceive_demoted (demoted : s.fb (BL_STAT_DEMOTED l) = true) (live : s.pairStandby = false) :
    (s.returnReceive l f).outbox = s.turned l f.frame ∧ ((s.returnReceive l f).lineOf l).demoted =
      if f.good then max (s.lineOf l).demoted f.epoch else (s.lineOf l).demoted := by
  rw [State.returnReceive_eq h, if_pos ⟨demoted, live⟩, State.turnRound_outbox]
  split
  · exact ⟨State.seen_turned _, congrArg Line.demoted (State.lineOf_setLine_same _)⟩
  · exact ⟨State.seen_turned _, congrArg Line.demoted (State.seen_lineOf l)⟩

/-- A standby turns round what it receives, and takes the number of a good cycle (R307). -/
theorem State.returnReceive_standby (standby : s.pairStandby = true) :
    (s.returnReceive l f).outbox = s.turned l f.frame ∧ (s.returnReceive l f).lines = s.lines ∧
      (s.returnReceive l f).fld (BL_CYCLE_CYCLE l) = if f.good then f.cycle.toNat else s.fld (BL_CYCLE_CYCLE l) := by
  rw [State.returnReceive_eq h, if_neg (by simp [standby]), if_pos standby, State.turnRound_outbox]
  split
  · have fits : f.cycle.toNat < 2 ^ 32 := f.cycle.isLt
    exact ⟨State.seen_turned _, State.seen_lines, State.fld_setFld_fits ⟨Nat.zero_le 31, (by decide : 31 < 32)⟩ fits⟩
  · exact ⟨State.seen_turned _, State.seen_lines, State.seen_fld (lineRegs_ne_epoch h.line).2.2⟩

/-- A line that a higher epoch demotes: it awaits nothing, and what demotes it is turned round (R287, R313). -/
def State.demotedBy (s : State) (l : Nat) (f : LineReturn) : State :=
  ((((s.seen f).setFld (BL_STAT_DEMOTED l) 1).setFld (BL_IRQ_STAT_DEMOTED l) 1).setLine l
    { s.lineOf l with demoted := f.epoch, cur := none }).turnRound l f.frame

section
variable (owner : s.fb (BL_STAT_DEMOTED l) = false) (live : s.pairStandby = false)
include owner live

theorem State.returnReceive_higher (good : f.good = true) (epoch : f.epoch > s.fld BL_EPOCH_EPOCH) :
    s.returnReceive l f = (s.demotedBy l f).deposed := by
  rw [State.returnReceive_eq h, if_neg (by simp [owner]), if_neg (by simp [live])]
  exact if_pos ⟨good, epoch⟩

variable (hx : (s.lineOf l).cur = some x)
include hx

theorem State.returnReceive_good (good : f.good = true) (cycle : f.cycle = (s.lineOf l).cycle) (epoch : f.epoch = s.fld BL_EPOCH_EPOCH) :
    s.returnReceive l f = (s.seen f).goodReturn l x f := by
  rw [State.returnReceive_eq h, if_neg (by simp [owner]), if_neg (by simp [live]), if_neg (by simp [epoch]), hx]
  dsimp only
  rw [if_neg (by simp [good]), if_pos ⟨cycle, epoch⟩]

theorem State.returnReceive_damaged (bad : f.good = false) :
    s.returnReceive l f = s.setLine l { s.lineOf l with damaged := true } := by
  have unseen : s.seen f = s := if_neg (by simp [bad])
  rw [State.returnReceive_eq h, if_neg (by simp [owner]), if_neg (by simp [live]), if_neg (by simp [bad]), hx]
  dsimp only
  rw [if_pos bad, unseen]

end

end

theorem State.fire_regs {e : Nat} (h : 0x60 ≤ e) : (s.fire e).regs = s.regs := by
  obtain ⟨q, hq⟩ := State.fire_evq (s := s) h
  rw [hq]

theorem State.fire_lines {e : Nat} (h : 0x60 ≤ e) : (s.fire e).lines = s.lines := by
  obtain ⟨q, hq⟩ := State.fire_evq (s := s) h
  rw [hq]

/-- A good return ends the cycle that awaits it (R284). -/
theorem State.goodReturn_ends (f : LineReturn) : let u := s.goodReturn l x f
    u.fb (BL_STAT_RETOK l) = true ∧ (u.lineOf l).cur = none ∧ (u.lineOf l).damaged = false := by
  intro u
  unfold u State.goodReturn
  dsimp only
  generalize List.foldl _ _ _ = t
  rw [State.fb_of_regs (State.fire_regs (by omega)), State.fb_of_regs (State.setLine_regs _ _ _),
    State.lineOf_of_lines (State.fire_lines (by omega)), State.lineOf_setLine_same]
  exact ⟨State.fb_setFld_one _ ⟨Nat.le_refl 2, (by decide : 2 < 32)⟩, rfl, rfl⟩

@[simp] theorem State.deposed_outbox : s.deposed.outbox = s.outbox := by
  unfold State.deposed; split <;> rfl

@[simp] theorem State.deposed_lines : s.deposed.lines = s.lines := by
  unfold State.deposed; split <;> rfl

@[simp] theorem State.deposed_regs : s.deposed.regs = s.regs := by
  unfold State.deposed; split <;> rfl

theorem State.demotedBy_outbox (f : LineReturn) : (s.demotedBy l f).outbox = s.turned l f.frame :=
  (State.turnRound_outbox _).trans (State.seen_turned _)

theorem State.demotedBy_lineOf (f : LineReturn) : (s.demotedBy l f).lineOf l = { s.lineOf l with demoted := f.epoch, cur := none } :=
  State.lineOf_setLine_same _

theorem State.demotedBy_flag (f : LineReturn) : (s.demotedBy l f).fb (BL_STAT_DEMOTED l) = true := by
  refine (State.fb_setFld_apart _ _ _ (.inl ?_)).trans (State.fb_setFld_one _ ⟨Nat.le_refl 3, (by decide : 3 < 32)⟩)
  show BL_STAT_at l ≠ BL_IRQ_STAT_at l
  unfold BL_STAT_at BL_IRQ_STAT_at
  omega

theorem State.demotedBy_role (f : LineReturn) : (s.demotedBy l f).fld PAIR_STAT_ROLE = s.fld PAIR_STAT_ROLE := by
  have apart : PAIR_STAT_at ≠ BL_IRQ_STAT_at l ∧ PAIR_STAT_at ≠ BL_STAT_at l := by
    unfold PAIR_STAT_at BL_IRQ_STAT_at BL_STAT_at
    omega
  exact (State.fld_setFld_other _ _ _ _ apart.1).trans ((State.fld_setFld_other _ _ _ _ apart.2).trans (State.seen_fld (by decide)))

/-- A PRIMARY is deposed at its next tick boundary (R313). -/
theorem State.deposed_primary (primary : s.fld PAIR_STAT_ROLE = 4) : s.deposed.pair.depose = true := by
  unfold State.deposed
  rw [if_pos (.inl primary)]

/-- Settles O45: assembly, cycle starts and returns, each by its branch of the line's operation. -/
theorem linesRunTheirCycles : Obligations.LinesRunTheirCycles := by
  intro s l released clock y m len c a
  have awake := State.awake_of_line clock
  have received {f : LineReturn} {u : State} (h : s.returnReceive l f = u) : exec (.returnReceive l f) s = .next (settle s u) :=
    congrArg (done s) h
  have takes (en : s.fb (BL_CFG_EN l) = true) : s.TakesReturn l := ⟨l.isLt, released, clock, .inl en⟩
  have takesOwn {x : LineCycle} (hx : y.cur = some x) : s.TakesReturn l := ⟨l.isLt, released, clock, .inr (by simp [y, hx])⟩
  refine ⟨fun fresh before => ⟨?_, State.assemble_asm _ _⟩, ?begins, ?turned, ?demotes, ?good, ?damaged⟩
  · exact congrArg (done s) (State.assembly_due released awake fresh before)
  case begins =>
    intro x hx start once returned k d
    have begun := State.cycleStart_assembled hx released awake start once returned
    refine ⟨fun sends => ?_, fun silent => congrArg (done s) (begun.trans (State.beginCycle_silent silent))⟩
    obtain ⟨o, ho⟩ := settle_outbox (s := s) (s.beginCycle l x)
    obtain ⟨cycle, cur, asm, number, run, outbox⟩ := State.beginCycle_sends sends
    refine ⟨_, o, congrArg (done s) begun, ?_⟩
    rw [State.lineOf_of_lines (settle_lines _ _), settle_fld, settle_fb, ho, outbox, List.append_assoc]
    exact ⟨cycle, cur, asm, number, run, rfl⟩
  case turned =>
    intro turn
    refine ⟨fun f en live demoted => ?_, fun f en standby => ?_, fun f en live owner good epoch => ?_⟩
    · obtain ⟨o, ho⟩ := settle_outbox (s := s) (s.returnReceive l f)
      obtain ⟨outbox, seen⟩ := State.returnReceive_demoted (f := f) (takes en) demoted live
      refine ⟨_, o, received rfl, ho.trans (congrArg (· ++ o) outbox), ?_⟩
      rw [State.lineOf_of_lines (settle_lines _ _)]
      exact seen
    · obtain ⟨o, ho⟩ := settle_outbox (s := s) (s.returnReceive l f)
      obtain ⟨outbox, lines, number⟩ := State.returnReceive_standby (f := f) (takes en) standby
      exact ⟨_, o, received rfl, ho.trans (congrArg (· ++ o) outbox), (settle_lines _ _).trans lines, (settle_fld _ _ _).trans number⟩
    · obtain ⟨o, ho⟩ := settle_outbox (s := s) (s.demotedBy l f).deposed
      exact ⟨_, o, received (State.returnReceive_higher (takes en) owner live good epoch),
        ho.trans (congrArg (· ++ o) (State.deposed_outbox.trans (State.demotedBy_outbox f)))⟩
  case demotes =>
    intro f en live owner good epoch
    refine ⟨_, received (State.returnReceive_higher (takes en) owner live good epoch), ?_⟩
    rw [settle_fb, State.fb_of_regs State.deposed_regs, State.lineOf_of_lines (settle_lines _ _), State.lineOf_of_lines State.deposed_lines,
      settle_pair, State.demotedBy_lineOf]
    exact ⟨State.demotedBy_flag f, rfl, rfl, fun primary => State.deposed_primary ((State.demotedBy_role f).trans primary)⟩
  case good =>
    intro f x live owner hx good cycle epoch _
    refine ⟨_, received (State.returnReceive_good (takesOwn hx) owner live hx good cycle epoch), ?_⟩
    rw [settle_fb, State.lineOf_of_lines (settle_lines _ _)]
    exact State.goodReturn_ends f
  case damaged =>
    intro f x live owner hx bad
    exact received (State.returnReceive_damaged (takesOwn hx) owner live hx bad)

end Sys2Proof.Machine
end

section
/-! PROOFS. Instructions that compute: results of the ALU, immediates, accumulators, compares and transfers (O12 to O16). -/

namespace Sys2Proof.Machine

variable {s : State} {t : Nat} {e : EI} {a : Act} {o : EOp} {sem : EI → Eff → Res}

/-! ### A command that issues the next instruction -/

/-- The command that names the next instruction leaves what its issue leaves. -/
theorem done_of_issue {u : State} (op : e.op = o) (h : s.issue t e.op sem = u) : done s (s.issue t o sem) = .next (settle s u) := by
  rw [op] at h
  exact congrArg (done s) h

section
variable (h : Issues s t e a)
include h

/-- An instruction that leaves a bank and a hazard, and goes on at the next word. -/
theorem done_stepped {cost : Nat} {hz : Hazard} {b : Bank} (fit : a.has e cost) (c : 1 ≤ cost) (op : e.op = o)
    (hs : sem e (effOf s t e a) =
      .ok ⟨s, t, { s.chanOf (16 * t + a.slot) with bank := b }, { (effOf s t e a).a with hazard := hz }⟩ cost none) :
    done s (s.issue t o sem) = .next (settle s (s.stepped t e a cost hz b)) :=
  done_of_issue op (State.issue_stepped h fit c hs rfl rfl)

/-- An instruction that faults. -/
theorem done_fault {cause : Nat} {x : Word} (first : a.has e 1) (op : e.op = o) (hs : sem e (effOf s t e a) = .fault cause x) :
    done s (s.issue t o sem) = .next (settle s (s.chanFault t cause x (hazardCycles a.hazard e) a)) :=
  done_of_issue op (State.issue_fault h first hs)

end

/-! ### Results (R78 to R84) -/

/-- Settles O12: each instruction of the group is the meaning `semAlu` of its function of the three registers. -/
theorem aluWritesItsResult : Obligations.AluWritesItsResult := by
  intro s t e a h fit b x y out
  have result {o : EOp} {r : AluRes} (op : e.op = o) (hs : semOf o e (effOf s t e a) = .ok ((effOf s t e a).alu e r) 1 none) :
      done s (s.issue t o (semOf o)) = out r := done_stepped h fit (Nat.le_refl 1) op hs
  and_intros
  all_goals exact fun op => result op rfl

/-- SHI by its kind: 0 left, 1 right, 2 arithmetic, 3 left with saturation (R78). -/
theorem shiRes_eq (k : Nat) (x : Word) (n : Nat) : shiRes k x n =
    if k = 0 then plain (x <<< n) else if k = 1 then plain (x >>> n) else if k = 2 then plain (x.sshiftRight n)
    else sat32 (x.toInt * 2 ^ n) := by
  match k with
  | 0 | 1 | 2 => rfl
  | _ + 3 => rfl

/-- Settles O13: the immediate group is `semImm` of its functions; RCPS and SQRS are results of the ALU that take two cycles. -/
theorem immediateWritesItsResult : Obligations.ImmediateWritesItsResult := by
  intro s t e a h b x i out
  refine ⟨fun fit => ?_, fun fit => ⟨fun op => ?_, fun op => ?_⟩⟩
  · have result {o : EOp} {r : AluRes} (op : e.op = o) (hs : semOf o e (effOf s t e a) = .ok ((effOf s t e a).alu e r) 1 none) :
        done s (s.issue t o (semOf o)) = out 1 r := done_stepped h fit (Nat.le_refl 1) op hs
    refine ⟨?_, ?_, ?_, ?_, ?_, fun op => result op (by rw [← shiRes_eq]; rfl), ?_, ?_,
      fun op => done_stepped h fit (Nat.le_refl 1) op rfl⟩ <;> exact fun op => result op rfl
  · exact done_stepped h fit (by decide) op rfl
  · exact done_stepped h fit (by decide) op rfl

/-- Settles O14: each write of an accumulator is `semAcc` of its function of the accumulator and the two registers. -/
theorem accumulatorsAccumulate : Obligations.AccumulatorsAccumulate := by
  intro s t e a h fit b acc x p out
  have result {o : EOp} {v : Int} (op : e.op = o) (hs : semOf o e (effOf s t e a) =
      .ok ⟨s, t, { s.chanOf (16 * t + a.slot) with bank := b.accum e (sat48 v) }, { (effOf s t e a).a with hazard := .acc e.accOne }⟩ 1 none) :
      done s (s.issue t o (semOf o)) = out v := done_stepped h fit (Nat.le_refl 1) op hs
  refine ⟨?_, ?_, ?_, ?_, ?_, ?_, fun op => done_stepped h fit (Nat.le_refl 1) op rfl⟩ <;> exact fun op => result op rfl

/-- CMPI by its kind: 0 equal, 1 less, 2 less unsigned, 3 less or equal (R78, R84). -/
theorem semCmpi_eq (f : Eff) : semCmpi e f =
    let x := f.c.bank.val e.ra
    let i := BitVec.ofInt 32 e.imm
    .ok (f.withBank (f.c.bank.setFlag (bits e.rd 3 2)
      (if e.sub = 0 then x == i else if e.sub = 1 then x.slt i else if e.sub = 2 then x.ult i else x.sle i))) 1 none := by
  unfold semCmpi
  match e.sub with
  | 0 | 1 | 2 => rfl
  | _ + 3 => rfl

/-- Settles O15: each compare is `semCmp` of its relation; CMPI chooses the relation by its kind. -/
theorem comparesWriteOneFlag : Obligations.ComparesWriteOneFlag := by
  intro s t e a h fit b x y i out
  have result {o : EOp} {n : Nat} {c : Bool} (op : e.op = o)
      (hs : semOf o e (effOf s t e a) = .ok ((effOf s t e a).withBank (b.setFlag n c)) 1 none) :
      done s (s.issue t o (semOf o)) = out n c := done_stepped h fit (Nat.le_refl 1) op hs
  refine ⟨?_, ?_, ?_, ?_, ?_, ?_, ?_, fun op => result op (semCmpi_eq _)⟩ <;> exact fun op => result op rfl

/-! ### Transfers (R85) -/

theorem Eff.jump_inside (f : Eff) {target : Int} (h : 0 ≤ target) (h' : target ≤ 4095) :
    f.jump target = .ok { f with a := { f.a with pc := target.toNat } } 2 none := if_pos ⟨h, h'⟩

theorem Eff.jump_outside (f : Eff) {target : Int} (h : ¬ (0 ≤ target ∧ target ≤ 4095)) : f.jump target = .fault 3 0 := if_neg h

/-- The condition that the rd field of BR names: a flag, a flag inverted, or none (R85). -/
def EI.condition (e : EI) (b : Bank) : Bool := if e.rd < 4 then b.flag e.rd else if e.rd < 8 then !b.flag (e.rd - 4) else true

theorem semBr_taken (f : Eff) (hc : e.condition f.c.bank = true) : semBr e f = f.jump (f.a.pc + e.imm) := if_pos hc

theorem semBr_passed (f : Eff) (hc : e.condition f.c.bank = false) : semBr e f = .ok f 1 none :=
  if_neg (Bool.eq_false_iff.mp hc)

/-- DBNZ of a register that does not count to 0 jumps. -/
theorem semDbnz_taken (f : Eff) (hv : f.c.bank.val e.rd ≠ 1) :
    semDbnz e f = (f.put e.rd (f.c.bank.val e.rd - 1)).jump (f.a.pc + e.imm) :=
  if_neg fun z => hv (sub_eq_zero.mp z)

theorem semDbnz_passed (f : Eff) (hv : f.c.bank.val e.rd = 1) : semDbnz e f = .ok (f.put e.rd 0) 1 none := by
  have zero : f.c.bank.val e.rd - 1 = 0 := sub_eq_zero.mpr hv
  unfold semDbnz
  rw [zero]
  exact if_pos rfl

/-- An instruction that leaves the bank `b` and jumps to a word of the program. -/
theorem done_jump (h : Issues s t e a) {b : Bank} {target : Int} (fit : a.has e 2) (op : e.op = o) (lo : 0 ≤ target) (hi : target ≤ 4095)
    (hs : sem e (effOf s t e a) = ((effOf s t e a).withBank b).jump target) :
    done s (s.issue t o sem) = .next (settle s (s.ran1 t (a.after e 2 target.toNat .none) b)) := by
  rw [Eff.jump_inside _ lo hi] at hs
  exact done_of_issue op (State.issue_bank h fit (by decide) (a' := { (effOf s t e a).a with pc := target.toNat }) rfl hs)

/-- Settles O16: each transfer is a jump, which goes to its target or faults, or goes on with the next word. -/
theorem transfersSetThePc : Obligations.TransfersSetThePc := by
  intro s t e a h b next c goto on out
  refine ⟨fun fit => ⟨fun op hc lo hi => ?_, fun op hv lo hi => ?_, fun op lo hi => ?_, fun op lo hi => ?_, fun op hi => ?_⟩,
    fun fit => ⟨fun op hc => ?_, fun op hv => ?_, fun op => ?_, fun op hc far => ?_, fun op hv far => ?_, fun op far => ?_,
      fun op far => ?_, fun op far => ?_⟩⟩
  · exact done_jump h fit op lo hi (semBr_taken (e := e) (effOf s t e a) hc)
  · exact done_jump h fit op lo hi (semDbnz_taken _ hv)
  · exact done_jump h fit op lo hi rfl
  · exact done_jump h fit op lo hi rfl
  · exact done_jump h fit op (Int.natCast_nonneg _) (by exact_mod_cast hi) rfl
  · exact done_stepped h fit (Nat.le_refl 1) op (semBr_passed (effOf s t e a) hc)
  · exact done_stepped h fit (Nat.le_refl 1) op (semDbnz_passed _ hv)
  · exact done_stepped h fit (Nat.le_refl 1) op rfl
  · exact done_fault h fit op ((semBr_taken (effOf s t e a) hc).trans (Eff.jump_outside _ far))
  · exact done_fault h fit op ((semDbnz_taken _ hv).trans (Eff.jump_outside _ far))
  · exact done_fault h fit op (Eff.jump_outside _ far)
  · exact done_fault h fit op (Eff.jump_outside _ far)
  · exact done_fault h fit op (Eff.jump_outside _ fun ⟨_, hi⟩ => Nat.not_le.mpr far (by exact_mod_cast hi))

end Sys2Proof.Machine
end

section
/-! PROOFS. What an instruction leaves of the bytes of memory: a store all outside its bytes, every other one all (O19). -/

namespace Sys2Proof.Machine

variable {s : State} {t m : Nat} {e : EI} {a : Act} {f : Eff} {K : Nat → Prop}

/-! ### What an issue leaves of the bytes that its meaning leaves -/

/-- `u` reads every byte with an address in `K` as `s` does. -/
def State.SameBytes (K : Nat → Prop) (s u : State) : Prop := ∀ x, K x → u.byte x = s.byte x

theorem State.SameBytes.of_mem {u : State} (h : u.mem = s.mem) : s.SameBytes K u := fun x _ => State.byte_of_mem h x

theorem State.SameBytes.trans {u v : State} (h : s.SameBytes K u) (g : u.SameBytes K v) : s.SameBytes K v :=
  fun x hx => (g x hx).trans (h x hx)

/-- A meaning leaves the bytes in `K` of the state `s`, whether the instruction completes or is cut off. -/
def Res.SameBytes (K : Nat → Prop) (s : State) : Res → Prop
  | .ok f _ kept => s.SameBytes K f.s ∧ ∀ p, kept = some p → s.SameBytes K p.1
  | .bad u _ => s.SameBytes K u
  | .stop | .fault _ _ | .wait => True

theorem Res.sameBytes_ok {cost : Nat} (h : s.SameBytes K f.s) : (Res.ok f cost none).SameBytes K s := ⟨h, fun _ e => nomatch e⟩

theorem State.chanFault_mem (cause : Nat) (x : Word) (n : Nat) : (s.chanFault t cause x n a).mem = s.mem := by
  unfold State.chanFault
  dsimp only
  split <;> rfl

theorem State.debugStop_mem (reason pc : Nat) : (s.debugStop t reason pc a).mem = s.mem := rfl

theorem State.addSat_mem (g : RF) (n : Nat) : (s.addSat g n).mem = s.mem := State.setFld_mem _ _ _

theorem State.noteCe_mem (x : Nat) : (s.noteCe x).mem = s.mem := by
  unfold State.noteCe
  dsimp only
  split
  · rfl
  · split
    · rw [State.setFld_mem, State.addSat_mem]
    · rw [State.setFld_mem, State.addSat_mem]

theorem State.noteUe_mem (x : Nat) : (s.noteUe x).mem = s.mem := by
  unfold State.noteUe
  dsimp only
  split
  · rfl
  · rw [State.setFld_mem, State.addSat_mem]
    split
    · rfl
    · rw [State.setFld_mem]

/-- A read counts what it corrects or cannot correct, and leaves the memory. -/
theorem State.readWord_mem (x : Nat) : (s.readWord x).1.mem = s.mem := by
  unfold State.readWord
  split
  · rfl
  · exact State.noteCe_mem x
  · exact State.noteUe_mem x

theorem State.retire_sameBytes {n : Nat} {r : Res} (h : r.SameBytes K s) : s.SameBytes K (s.retire t n a r) := by
  cases r with
  | fault cause x => exact .of_mem (State.chanFault_mem _ _ _)
  | bad u x => exact State.SameBytes.trans h (.of_mem (State.chanFault_mem _ _ _))
  | wait => exact .of_mem rfl
  | stop => exact .of_mem rfl
  | ok f cost kept =>
    obtain ⟨completed, cut⟩ := h
    unfold State.retire
    dsimp only
    split
    · cases kept with
      | none => exact .of_mem rfl
      | some p =>
        dsimp only
        split
        · exact (cut p rfl).trans (.of_mem rfl)
        · exact .of_mem rfl
    · refine completed.trans (.of_mem ?_)
      split
      · rw [State.debugStop_mem, State.setEng_mem, State.setChan_mem]
      · rw [State.setEng_mem, State.setChan_mem]

/-- An instruction that finds no cycle left uses up the budget. -/
theorem State.issue_late (h : Issues s t e a) {sem : EI → Eff → Res} (late : ¬ a.has e 1) : s.issue t e.op sem = s.exhaust t a := by
  have word := h.pc
  unfold State.issue
  rw [h.act]
  simp only [State.readWord_clean _ _ h.clean, h.word, h.bp, false_and, if_false]
  rw [if_neg (Nat.not_lt.mpr word), if_neg Bool.false_ne_true, if_neg (fun n => n rfl), if_pos (Nat.not_le.mp late)]

theorem State.issue_sameBytes_of_issues (h : Issues s t e a) {sem : EI → Eff → Res} (hs : (sem e (effOf s t e a)).SameBytes K s) :
    s.SameBytes K (s.issue t e.op sem) := by
  by_cases fit : a.has e 1
  · rw [State.issue_eq h fit]
    exact State.retire_sameBytes hs
  · rw [State.issue_late h fit]
    exact .of_mem rfl

/-! ### Instructions that write no memory -/

/-- A meaning that leaves every byte of memory, whatever it works on. -/
def Quiet (sem : EI → Eff → Res) : Prop := ∀ e f, (sem e f).SameBytes (fun _ => True) f.s

/-- The issue of such an instruction leaves every byte: so do its fetch, a fault and a debug stop. -/
theorem State.issue_quiet {sem : EI → Eff → Res} (o : EOp) (hs : Quiet sem) : s.SameBytes (fun _ => True) (s.issue t o sem) := by
  unfold State.issue
  split
  · exact .of_mem rfl
  · next a _ =>
    split
    · exact .of_mem (State.chanFault_mem _ _ _)
    · have fetched := State.readWord_mem (s := s) (instrAddr t a.pc)
      generalize s.readWord (instrAddr t a.pc) = r at fetched ⊢
      obtain ⟨s1, w, bad⟩ := r
      have after {u : State} (h : s1.SameBytes (fun _ => True) u) : s.SameBytes (fun _ => True) u :=
        State.SameBytes.trans (.of_mem fetched) h
      dsimp only
      split
      · exact .of_mem rfl
      split
      · exact after (.of_mem (State.chanFault_mem _ _ _))
      split
      · split
        · exact after (.of_mem (State.chanFault_mem _ _ _))
        · exact .of_mem rfl
      · split
        · exact .of_mem rfl
        split
        · exact after (.of_mem rfl)
        · exact after (State.retire_sameBytes (hs _ _))

theorem Res.quiet_ok {u : State} {cost : Nat} (h : f.s.mem = u.mem) : (Res.ok f cost none).SameBytes (fun _ => True) u :=
  Res.sameBytes_ok (.of_mem h)

theorem Eff.jump_quiet (target : Int) : (f.jump target).SameBytes (fun _ => True) f.s := by
  unfold Eff.jump
  split
  · exact Res.quiet_ok rfl
  · trivial

theorem semBr_quiet : Quiet semBr := by
  intro e f
  cases hc : e.condition f.c.bank with
  | true =>
    rw [semBr_taken f hc]
    exact Eff.jump_quiet _
  | false =>
    rw [semBr_passed f hc]
    exact Res.quiet_ok rfl

theorem semDbnz_quiet : Quiet semDbnz := by
  intro e f
  unfold semDbnz
  dsimp only
  split
  · exact Res.quiet_ok rfl
  · exact Eff.jump_quiet (f := f.put e.rd _) _

theorem semBrk_quiet : Quiet semBrk := by
  intro e f
  unfold semBrk
  split <;> trivial

/-- Values from outside the tile are logged or replayed, which leaves the state. -/
@[simp] theorem Eff.ext_s (w : Word) : (f.ext w).1.s = f.s := by
  unfold Eff.ext
  split <;> rfl

theorem semMfs_quiet : Quiet semMfs := by
  intro e f
  unfold semMfs
  dsimp only
  split
  · refine Res.quiet_ok ?_
    split <;> exact congrArg State.mem (Eff.ext_s _)
  · exact Res.quiet_ok rfl

theorem semMts_quiet : Quiet semMts := by
  intro e f
  unfold semMts
  split <;> exact Res.quiet_ok rfl

/-- What RDIN does with a value and its freshness: rd and the LOG take it, and with the F bit the flag (R93). -/
def Eff.received (f : Eff) (e : EI) (w : Word) (fresh : Bool) : Res :=
  let p := f.ext w
  let q := if e.fe then p.1.ext (BitVec.ofNat 32 (b2n fresh)) else (p.1, 0)
  let b := q.1.c.bank.setVal e.rd p.2
  .ok (q.1.withBank (if e.fe then b.setFlag e.fl (q.2 != 0) else b)) 4 none

/-- A slot that has seen the value of a binding: its mark and its timestamp, where there is one (R93). -/
def Chan.seen (c : Chan) (b : Nat) (q : Word × Nat × Bool × Word) : Chan :=
  if q.2.2.1 then { c with fresh := tset (0, false) c.fresh b (q.2.1, true), stamp := tset 0 c.stamp b q.2.2.2 } else c

/-- RDIN by its binding: a replay, the oldest capture, or what the source shows. -/
theorem semRdin_eq (e : EI) (f : Eff) : semRdin e f =
    let kind := (f.c.desc.inp e.sub).1
    let n := (f.c.desc.inp e.sub).2
    if kind = 0 then .fault 6 0
    else if f.replay then f.received e 0 false
    else if kind = 4 then
      let q := f.s.popCapture f.sect n
      Eff.received { f with s := q.1 } e (q.2.getD 0) q.2.isSome
    else
      let q := f.s.source f.sect kind n
      let old := tget (0, false) f.c.fresh e.sub
      Eff.received { f with c := f.c.seen e.sub q } e q.1 (q.2.2.1 && (!old.2 || old.1 != q.2.1)) := rfl

theorem Eff.received_quiet {u : State} (w : Word) (fresh : Bool) (h : f.s.mem = u.mem) :
    (f.received e w fresh).SameBytes (fun _ => True) u := by
  unfold Eff.received
  refine Res.quiet_ok ((congrArg State.mem ?_).trans h)
  dsimp only [Eff.withBank]
  split
  · rw [Eff.ext_s, Eff.ext_s]
  · exact Eff.ext_s w

theorem State.popCapture_mem (k n : Nat) : (s.popCapture k n).1.mem = s.mem := by
  unfold State.popCapture
  split <;> rfl

theorem semRdin_quiet : Quiet semRdin := by
  intro e f
  rw [semRdin_eq]
  dsimp only
  split
  · trivial
  split
  · exact Eff.received_quiet _ _ rfl
  split
  · exact Eff.received_quiet _ _ (State.popCapture_mem _ _)
  · exact Eff.received_quiet _ _ rfl

theorem semRdint_quiet : Quiet semRdint := by
  intro e f
  unfold semRdint
  split
  · trivial
  · exact Res.quiet_ok (congrArg State.mem (Eff.ext_s _))

theorem semStout_quiet : Quiet semStout := by
  intro e f
  unfold semStout
  dsimp only
  split
  · trivial
  · exact Res.quiet_ok rfl

theorem State.post_mem (k : Nat) (x : Action) : (s.post k x).1.mem = s.mem := by
  unfold State.post
  split
  · rfl
  · dsimp only
    split <;> rfl

/-- A post reaches the action store, and not the memory. -/
theorem semPost_quiet (w : Nat) : Quiet (semPost w) := by
  intro e f
  have logged (x : Word) : (f.ext x).1.s.mem = f.s.mem := congrArg State.mem (Eff.ext_s x)
  have answered {g : Eff} (r : Word) (h : g.s.mem = f.s.mem) :
      (Res.ok (g.put e.rd r) (2 + w) (some (g.s, 1 + w))).SameBytes (fun _ => True) f.s :=
    ⟨.of_mem h, fun p hp => Option.some.inj hp ▸ .of_mem h⟩
  unfold semPost
  dsimp only
  split
  · split
    · exact answered _ ((State.post_mem _ _).trans (logged 0))
    · exact answered _ (logged 0)
  split
  · exact answered _ (logged 2)
  split
  · trivial
  · refine answered _ ((congrArg State.mem (Eff.ext_s _)).trans ?_)
    dsimp only
    split <;> exact State.post_mem _ _

theorem semCancel_quiet (w : Nat) : Quiet (semCancel w) := by
  intro e f
  unfold semCancel
  split
  · exact Res.quiet_ok (congrArg State.mem (Eff.ext_s _))
  split
  · exact Res.quiet_ok rfl
  · exact Res.quiet_ok rfl

/-- Every instruction but loads, stores and LUT leaves every byte. -/
theorem semOf_quiet (o : EOp) (h : o ∉ [EOp.ld, .st, .lut]) : Quiet (semOf o) := by
  intro e f
  cases o with
  | ld | st | lut => simp at h
  | br => exact semBr_quiet e f
  | dbnz => exact semDbnz_quiet e f
  | jmp | jr => exact Eff.jump_quiet _
  | call => exact Eff.jump_quiet (f := f.put 15 _) _
  | brk => exact semBrk_quiet e f
  | mfs => exact semMfs_quiet e f
  | mts => exact semMts_quiet e f
  | rdin => exact semRdin_quiet e f
  | rdint => exact semRdint_quiet e f
  | stout => exact semStout_quiet e f
  | post => exact semPost_quiet 0 e f
  | cancel => exact semCancel_quiet 0 e f
  | _ => exact Res.quiet_ok rfl

/-! ### What a store leaves -/

/-- A word that can be read is read as stored. -/
theorem State.readWord_value (x : Nat) (good : (s.readWord x).2.2 = false) : (s.readWord x).2.1 = s.word x := by
  unfold State.readWord at *
  split
  · rfl
  · rfl
  · next n0 n1 =>
    split at good
    · contradiction
    · contradiction
    · simp at good

/-- A read-modify-write leaves the memory where the word cannot be read, and stores the changed word otherwise. -/
theorem State.mergeWord_mem_cases (x : Nat) (g : Word → Word) :
    (s.mergeWord x g).mem = s.mem ∨ (s.mergeWord x g).mem = (s.setWord x (g (s.word x))).mem := by
  have read := State.readWord_mem (s := s) x
  have value := State.readWord_value (s := s) x
  unfold State.mergeWord
  generalize s.readWord x = r at read value ⊢
  obtain ⟨s1, v, bad⟩ := r
  dsimp only at read value ⊢
  split
  · exact .inl read
  · next good =>
    rw [value (Bool.eq_false_iff.mpr good), State.setFlips_mem]
    exact .inr (State.setWord_of_mem (t := { s1 with wbq := s1.wbq.erase x }) read x _)

theorem State.mergeWord_byte_other (x y : Nat) (g : Word → Word) (h : y < x ∨ x + 4 ≤ y) : (s.mergeWord x g).byte y = s.byte y := by
  rcases State.mergeWord_mem_cases (s := s) x g with left | stored
  · exact State.byte_of_mem left y
  · exact (State.byte_of_mem stored y).trans (State.byte_setWord_other _ _ _ _ h)

theorem State.writeWord_byte_other (x y : Nat) (v : Word) (h : y < x ∨ x + 4 ≤ y) : (s.writeWord x v).byte y = s.byte y :=
  (State.byte_of_mem (State.writeWord_mem x v) y).trans (State.byte_setWord_other _ _ _ _ h)

/-- A write through any view leaves the bytes outside its word. -/
theorem State.memWrite_byte_other (view size v : Nat) (x : Nat) (h : x < m - m % 4 ∨ m - m % 4 + 4 ≤ x) :
    (s.memWrite view m size v).byte x = s.byte x := by
  refine Eq.trans ?_ (State.byte_of_mem (s.touch_mem m) x)
  unfold State.memWrite
  dsimp only
  split
  · exact State.mergeWord_byte_other _ _ _ h
  · exact State.mergeWord_byte_other _ _ _ h
  · split
    · exact State.writeWord_byte_other _ _ _ h
    · exact State.mergeWord_byte_other _ _ _ h
  · split
    · exact State.writeWord_byte_other _ _ _ h
    · exact State.mergeWord_byte_other _ _ _ h

/-- A byte or halfword through the normal view is put into its lanes of the word. -/
theorem State.memWrite_part_eq {size : Nat} (v : Nat) (h : size ≠ 4) : s.memWrite 0 m size v = (s.touch m).mergeWord (m - m % 4)
    (fun w => (w &&& ~~~laneMask (m % 4) size) ||| BitVec.ofNat 32 (v % 2 ^ (8 * size) * 2 ^ (8 * (m % 4)))) := by
  unfold State.memWrite
  exact if_neg h

/-- A byte or halfword leaves the other bytes of its word too: where the word cannot be read, all of them. -/
theorem State.memWrite_part_byte_other {size : Nat} (v : Nat) (hs : size ≠ 4) (inside : m % 4 + size ≤ 4) (x : Nat)
    (h : x < m ∨ m + size ≤ x) : (s.memWrite 0 m size v).byte x = s.byte x := by
  have lanes := State.setWord_lanes_byte (s := s.touch m) (a := m - m % 4) (v := v) inside
    (fun i hi => (lanes_byte _ _ _ _ i hi).trans (by rw [State.word_byte _ _ _ hi])) x
  rw [Nat.sub_add_cancel (Nat.mod_le m 4), State.byte_store_other _ _ _ _ _ h] at lanes
  refine Eq.trans ?_ (State.byte_of_mem (s.touch_mem m) x)
  rw [State.memWrite_part_eq v hs]
  rcases State.mergeWord_mem_cases (s := s.touch m) (m - m % 4) _ with left | stored
  · exact State.byte_of_mem left x
  · exact (State.byte_of_mem stored x).trans lanes

/-- An aligned access of four bytes and more covers its word; a smaller one changes its own lanes alone. -/
theorem State.memWrite_size_byte_other {sz : Nat} (v : Nat) (ha : m % 4 % 2 ^ sz = 0) (x : Nat) (h : x < m ∨ m + 2 ^ sz ≤ x) :
    (s.memWrite 0 m (2 ^ sz) v).byte x = s.byte x := by
  match sz with
  | 0 => exact State.memWrite_part_byte_other v (by decide) (by omega) x h
  | 1 => exact State.memWrite_part_byte_other v (by decide) (by omega) x h
  | sz + 2 =>
    have wide : 4 ≤ 2 ^ (sz + 2) := Nat.pow_le_pow_right Nat.two_pos (Nat.le_add_left 2 sz)
    rw [Nat.mod_eq_of_lt (Nat.lt_of_lt_of_le (Nat.mod_lt m (by decide)) wide)] at ha
    exact State.memWrite_byte_other 0 _ v x (by omega)

/-- An aligned address is aligned in its word. -/
theorem mod_four_of_aligned {x sz : Nat} (h : x % 2 ^ sz = 0) : x % 4 % 2 ^ sz = 0 := by
  match sz with
  | 0 => exact Nat.mod_one _
  | 1 => omega
  | sz + 2 =>
    have quad : 4 ∣ 2 ^ (sz + 2) := ⟨2 ^ sz, by rw [Nat.pow_add, Nat.mul_comm]⟩
    rw [Nat.mod_eq_zero_of_dvd (quad.trans (Nat.dvd_of_mod_eq_zero h)), Nat.zero_mod]

/-- Where a store to a target leaves the bytes: outside its own, in a scratchpad outside its word, over the bus everywhere. -/
def Target.spares (size : Nat) : Target → Nat → Prop
  | .own m, x => x < m ∨ m + size ≤ x
  | .scratch m, x => x < normalView m - normalView m % 4 ∨ normalView m - normalView m % 4 + 4 ≤ x
  | .global _, _ => True
  | .violation, _ => True

/-- An address of the own data RAM lies in the same lane of its word, and not in the rotate view. -/
theorem targetOf_own {k x : Nat} (h : targetOf t k x = .own m) : m % 4 = x % 4 ∧ rotateView x = false := by
  unfold targetOf at h
  unfold rotateView
  split at h
  · cases h
    exact ⟨by omega, decide_eq_false (by omega)⟩
  split at h
  · cases h
    exact ⟨by omega, decide_eq_false (by omega)⟩
  split at h
  · cases h
  split at h <;> cases h

/-- ST leaves the bytes that its target spares. -/
theorem semSt_sameBytes (w : PortWait) (e : EI) (f : Eff) :
    (semSt w e f).SameBytes ((targetOf f.t f.slot (e.address f.c.bank).1.toNat).spares (2 ^ e.sz)) f.s := by
  unfold semSt
  dsimp only
  split
  · trivial
  next passes =>
  split
  · trivial
  split
  · next m ht =>
    obtain ⟨lane, plain⟩ := targetOf_own ht
    have aligned := mod_four_of_aligned (Decidable.not_not.mp fun odd => passes ⟨odd, plain⟩)
    rw [← lane] at aligned
    refine Res.sameBytes_ok fun x hx => ?_
    rw [ht] at hx
    have stored := State.memWrite_size_byte_other (s := f.s) ((f.c.bank.val e.rd).toNat % 2 ^ (8 * 2 ^ e.sz)) aligned x hx
    dsimp only
    split
    · exact (State.byte_of_mem (State.toPartner_mem _ _ _) x).trans stored
    · exact stored
  · next m ht =>
    refine Res.sameBytes_ok fun x hx => ?_
    rw [ht] at hx
    dsimp only
    split
    · rfl
    · exact (State.byte_of_mem (State.toPartner_mem _ _ _) x).trans (State.memWrite_byte_other _ _ _ x hx)
  · split
    · exact Res.sameBytes_ok (.of_mem rfl)
    split
    · trivial
    · exact Res.sameBytes_ok (.of_mem rfl)
  · trivial

/-- Settles O19: ST spares the bytes outside its target's, and the other instructions are quiet. -/
theorem storeTouchesOnlyItsBytes : Obligations.StoreTouchesOnlyItsBytes := by
  intro s u t w n
  refine ⟨fun e a h op hu => ?store, ?others⟩
  case store =>
    intro addr
    have left {x : Nat} (hx : (targetOf t a.slot addr).spares (2 ^ e.sz) x) : u.byte x = s.byte x := by
      have issued := State.issue_sameBytes_of_issues h (semSt_sameBytes w e (effOf s t e a)) x hx
      rw [op] at issued
      cases hu
      exact (settle_byte _ _ _).trans issued
    exact ⟨fun m ht x hx => left (by rw [ht]; exact hx), fun m ht x hx => left (by rw [ht]; exact hx),
      fun m ht x => left (by rw [ht]; trivial)⟩
  case others =>
    have quiet (o : EOp) {sem : EI → Eff → Res} (hs : Quiet sem) (hu : done s (s.issue t o sem) = .next u) (x : Nat) :
        u.byte x = s.byte x := by
      cases hu
      exact (settle_byte _ _ _).trans (State.issue_quiet o hs x trivial)
    have rule (o : EOp) (h : o ∉ [EOp.ld, .st, .lut] := by decide) := quiet o (semOf_quiet o h)
    simp only [List.forall_mem_cons, List.not_mem_nil, false_imp_iff, implies_true, and_true]
    exact ⟨rule .add, rule .sub, rule .adds, rule .subs, rule .and_, rule .or_, rule .xor, rule .andn, rule .shl, rule .shr, rule .sar,
      rule .shls, rule .min_, rule .max_, rule .abs, rule .neg, rule .mulq31, rule .mulq16, rule .mul, rule .clamp, rule .mac, rule .msu,
      rule .mpy, rule .rda, rule .wra, rule .clra, rule .adda, rule .eq, rule .ne, rule .lt, rule .le, rule .ltu, rule .leu, rule .tst,
      rule .sel, rule .addi, rule .addsi, rule .andi, rule .ori, rule .xori, rule .shi, rule .cmpi, rule .br, rule .dbnz, rule .li,
      rule .lui, rule .jmp, rule .call, rule .jr, rule .nop, rule .eos, rule .yield_, rule .brk, rule .mfs, rule .mts, rule .addp,
      rule .rdint, rule .stout, quiet .post (semPost_quiet n), quiet .cancel (semCancel_quiet n), rule .rdin, rule .rcps, rule .sqrs,
      quiet .illegal fun _ _ => Res.quiet_ok rfl⟩

end Sys2Proof.Machine
end

section
/-! PROOFS. Special registers, ADDP and LUT (O20). -/

namespace Sys2Proof.Machine

variable {s : State} {t : Nat} {e : EI} {a : Act} {f : Eff} {o : EOp} {sem : EI → Eff → Res}

/-! ### MFS and MTS (R71, R302) -/

/-- A live MFS of a register that the LOG takes: a read of TRIG clears it. -/
theorem semMfs_logged (live : f.a.log = none) (lo : 2 ≤ e.sub) (hi : e.sub ≤ 9) : semMfs e f =
    .ok ⟨f.s, f.t, { f.c with trig := if e.sub = 2 then 0 else f.c.trig, bank := f.c.bank.setVal e.rd (f.special e.sub) },
      { f.a with words := f.a.words ++ [f.special e.sub] }⟩ 1 none := by
  unfold semMfs
  dsimp only
  rw [if_pos ⟨lo, hi⟩, Eff.ext_live _ live, Eff.replay_live live]
  by_cases trig : e.sub = 2
  · rw [if_pos ⟨trig, rfl⟩, if_pos trig]
    rfl
  · rw [if_neg fun both => trig both.1, if_neg trig]
    rfl

theorem semMfs_plain (h : ¬ (2 ≤ e.sub ∧ e.sub ≤ 9)) : semMfs e f = .ok (f.put e.rd (f.special e.sub)) 1 none := if_neg h

theorem semMts_stat (h : e.sub = 0) : semMts e f = .ok (f.withBank (f.c.bank.setStat (f.c.bank.val e.ra))) 1 none := by
  unfold semMts
  rw [h]
  rfl

theorem semMts_pointer (h : e.sub ≠ 0) : semMts e f = .ok ⟨f.s, f.t, { f.c with bank := f.c.bank.setSpecial e.sub (f.c.bank.val e.ra) },
    { f.a with hazard := .ptr (e.sub % 4) }⟩ 1 none := by
  unfold semMts
  dsimp only
  rw [if_neg h]
  rfl

/-- An instruction that leaves the slot as `c` and the logged words as `ws`. -/
theorem done_logged {c : Chan} {u : State} {cost : Nat} {ws : List Word} (h : Issues s t e a) (fit : a.has e cost) (pos : 1 ≤ cost)
    (op : e.op = o) (hs : sem e (effOf s t e a) = .ok ⟨u, t, c, { (effOf s t e a).a with words := ws }⟩ cost none) (eng : u.eng = s.eng) :
    done s (s.issue t o sem) =
      .next (settle s ((u.setChan (16 * t + a.slot) c).goesOn t { a.after e cost (a.pc + 1) .none with words := ws })) := by
  obtain ⟨noLoad, noCancel, -, -⟩ := State.issues_calm h.act
  refine done_of_issue op ?_
  rw [State.issue_eq h (by unfold Act.has at *; omega), hs]
  exact State.retire_ok h.step fit (by rw [State.engOf_of_eng eng, noLoad]) (by rw [State.engOf_of_eng eng, noCancel])

/-! ### LUT (R90) -/

/-- A LUT may read the table of `n` entries at `p`: it lies in the slot's window or in the shared half of the data RAM (R90). -/
def tableFits (p n : Nat) : Prop := p + 4 * n - 1 < 0x100 ∨ 0x1000 ≤ p ∧ p + 4 * n - 1 < 0x2000

/-- The argument of LUT, unsigned or with its sign turned (R90). -/
def EI.lutArg (e : EI) (b : Bank) : Nat := (if e.fe then b.val e.ra ^^^ 0x80000000 else b.val e.ra).toNat

theorem semLut_misaligned (h : (f.c.bank.ptr e.sub).toNat % 4 ≠ 0) : semLut e f = .fault 4 (f.c.bank.ptr e.sub) := if_pos h

theorem semLut_outside (h : (f.c.bank.ptr e.sub).toNat % 4 = 0)
    (out : ¬ tableFits (f.c.bank.ptr e.sub).toNat e.imm.toNat) : semLut e f = .fault 5 (f.c.bank.ptr e.sub) := by
  unfold semLut
  dsimp only
  rw [if_neg (fun n => n h)]
  exact if_neg out

theorem State.entryAt_clean {m i : Nat} (h : s.flipCount (m + 4 * i) = 0) : s.entryAt m i = (s, some (s.word (m + 4 * i))) := by
  unfold State.entryAt
  rw [State.readWord_clean _ _ h]
  rfl

section
variable {m : Nat} (aligned : (f.c.bank.ptr e.sub).toNat % 4 = 0) (fits : tableFits (f.c.bank.ptr e.sub).toNat e.imm.toNat)
  (ht : targetOf f.t f.slot (f.c.bank.ptr e.sub).toNat = .own m)
include aligned fits ht

/-- LUT of a table in the own data RAM: it reads the two entries around its argument. -/
theorem semLut_own :
    let i := lutIndex e.imm.toNat (e.lutArg f.c.bank)
    let q := f.s.entryAt m i
    let r := q.1.entryAt m (i + 1)
    semLut e f = match q.2, r.2 with
      | some t0, some t1 => .ok ({ f with s := r.1 }.put e.rd (lutValue e.imm.toNat (e.lutArg f.c.bank) t0 t1)) 4 none
      | none, _ => .bad q.1 (BitVec.ofNat 32 ((f.c.bank.ptr e.sub).toNat + 4 * i))
      | some _, none => .bad r.1 (BitVec.ofNat 32 ((f.c.bank.ptr e.sub).toNat + 4 * (i + 1))) := by
  unfold semLut
  dsimp only
  rw [if_neg (fun n => n aligned), if_pos (show _ ∨ _ from fits), ht]
  rfl

theorem semLut_clean (h0 : f.s.flipCount (m + 4 * lutIndex e.imm.toNat (e.lutArg f.c.bank)) = 0)
    (h1 : f.s.flipCount (m + 4 * (lutIndex e.imm.toNat (e.lutArg f.c.bank) + 1)) = 0) :
    let i := lutIndex e.imm.toNat (e.lutArg f.c.bank)
    semLut e f = .ok (f.put e.rd (lutValue e.imm.toNat (e.lutArg f.c.bank) (f.s.word (m + 4 * i)) (f.s.word (m + 4 * (i + 1))))) 4 none := by
  intro i
  rw [semLut_own aligned fits ht, State.entryAt_clean h0]
  dsimp only
  rw [State.entryAt_clean h1]

/-- A first entry that cannot be read faults at its address; the sector has recorded it. -/
theorem semLut_broken (bad : (f.s.readWord (m + 4 * lutIndex e.imm.toNat (e.lutArg f.c.bank))).2.2 = true) :
    semLut e f = .bad (f.s.readWord (m + 4 * lutIndex e.imm.toNat (e.lutArg f.c.bank))).1
      (BitVec.ofNat 32 ((f.c.bank.ptr e.sub).toNat + 4 * lutIndex e.imm.toNat (e.lutArg f.c.bank))) := by
  rw [semLut_own aligned fits ht]
  have none_ : (f.s.entryAt m (lutIndex e.imm.toNat (e.lutArg f.c.bank))).2 = none := by
    unfold State.entryAt
    exact if_pos bad
  rw [none_]
  rfl

end

/-- An address of the shared half of the own data RAM leads there. -/
theorem targetOf_shared {k x : Nat} (lo : 0x1000 ≤ x) (hi : x < 0x2000) : targetOf t k x = .own (0x20000000 + t * 0x4000 + x) := by
  unfold targetOf
  rw [if_neg (by omega), if_pos ⟨lo, hi⟩]

/-- Settles O20: each register by its group, LUT by its table and what its entries hold. -/
theorem specialRegistersMove : Obligations.SpecialRegistersMove := by
  intro s t e a h b c f p n x
  refine ⟨fun fit => ⟨fun op plain => ?_, fun op lo hi live => ?_, fun op stat => ?_, fun op ptr => ?_, fun op => ?_⟩,
    fun fit op aligned lo hi end_ => ?_, fun fit op => ⟨fun odd => ?_, fun aligned out => ?_, fun aligned lo end_ m ht broken => ?_⟩⟩
  · exact done_stepped h fit (Nat.le_refl 1) op (semMfs_plain plain)
  · exact done_logged h fit (Nat.le_refl 1) op (semMfs_logged live lo hi) rfl
  · exact done_stepped h fit (Nat.le_refl 1) op (semMts_stat stat)
  · exact done_stepped h fit (Nat.le_refl 1) op (semMts_pointer ptr)
  · exact done_stepped h fit (Nat.le_refl 1) op rfl
  · intro m i clean0 clean1
    exact done_stepped h fit (by decide) op (semLut_clean aligned (.inr ⟨lo, end_⟩) (targetOf_shared lo hi) clean0 clean1)
  · exact done_fault h fit op (semLut_misaligned odd)
  · exact done_fault h fit op (semLut_outside aligned out)
  · exact done_of_issue op (State.issue_bad h fit (semLut_broken aligned (.inr ⟨lo, end_⟩) ht broken))

end Sys2Proof.Machine
end

section
/-! PROOFS. RDIN, RDINT and STOUT: what a binding reads and what it stages (O21). -/

namespace Sys2Proof.Machine

variable {s : State} {t : Nat} {e : EI} {a : Act} {f : Eff} {o : EOp}

/-! ### RDIN (R93) -/

/-- The bank after RDIN: rd takes the value, and with the F bit the flag its freshness. -/
def Bank.received (b : Bank) (e : EI) (w : Word) (fresh : Bool) : Bank :=
  let b1 := b.setVal e.rd w
  if e.fe then b1.setFlag e.fl fresh else b1

/-- The words of the LOG after a live RDIN (R302). -/
def Act.received (a : Act) (e : EI) (w : Word) (fresh : Bool) : List Word :=
  if e.fe then a.words ++ [w] ++ [BitVec.ofNat 32 (b2n fresh)] else a.words ++ [w]

theorem Eff.received_live (live : f.a.log = none) (w : Word) (fresh : Bool) : f.received e w fresh =
    .ok ⟨f.s, f.t, { f.c with bank := f.c.bank.received e w fresh }, { f.a with words := f.a.received e w fresh }⟩ 4 none := by
  have flag : (BitVec.ofNat 32 (b2n fresh) != 0) = fresh := by cases fresh <;> rfl
  unfold Eff.received Bank.received Act.received
  rw [Eff.ext_live _ live]
  cases e.fe with
  | false => rfl
  | true =>
    dsimp only
    rw [if_pos rfl, Eff.ext_live _ (by exact live)]
    dsimp only
    rw [flag]
    rfl

theorem Chan.seen_bank (c : Chan) (b : Nat) (q : Word × Nat × Bool × Word) : (c.seen b q).bank = c.bank := by
  unfold Chan.seen
  split <;> rfl

theorem semRdin_unbound (h : (f.c.desc.inp e.sub).1 = 0) : semRdin e f = .fault 6 0 := by
  rw [semRdin_eq]
  exact if_pos h

section
variable (live : f.a.log = none)
include live

theorem semRdin_capture (h : (f.c.desc.inp e.sub).1 = 4) :
    let q := f.s.popCapture f.sect (f.c.desc.inp e.sub).2
    semRdin e f = .ok ⟨q.1, f.t, { f.c with bank := f.c.bank.received e (q.2.getD 0) q.2.isSome },
      { f.a with words := f.a.received e (q.2.getD 0) q.2.isSome }⟩ 4 none := by
  rw [semRdin_eq]
  dsimp only
  rw [if_neg (by rw [h]; decide), Eff.replay_live live, if_neg Bool.false_ne_true, if_pos h, Eff.received_live (by exact live)]

theorem semRdin_source (h0 : (f.c.desc.inp e.sub).1 ≠ 0) (h4 : (f.c.desc.inp e.sub).1 ≠ 4) :
    let q := f.s.source f.sect (f.c.desc.inp e.sub).1 (f.c.desc.inp e.sub).2
    let old := tget (0, false) f.c.fresh e.sub
    let fresh := q.2.2.1 && (!old.2 || old.1 != q.2.1)
    semRdin e f = .ok ⟨f.s, f.t, { f.c.seen e.sub q with bank := f.c.bank.received e q.1 fresh },
      { f.a with words := f.a.received e q.1 fresh }⟩ 4 none := by
  rw [semRdin_eq]
  dsimp only
  rw [if_neg h0, Eff.replay_live live, if_neg Bool.false_ne_true, if_neg h4, Eff.received_live (by exact live), Chan.seen_bank]

theorem semRdint_live (h : (f.c.desc.inp e.sub).1 = 1) : semRdint e f =
    .ok ⟨f.s, f.t, { f.c with bank := f.c.bank.setVal e.rd (tget 0 f.c.stamp e.sub) },
      { f.a with words := f.a.words ++ [tget 0 f.c.stamp e.sub] }⟩ 1 none := by
  unfold semRdint
  rw [if_neg (fun n => n h), Eff.ext_live _ live]
  rfl

end

/-! ### STOUT (R94) -/

theorem semStout_unbound (h : (f.c.desc.out e.sub).1 = 0 ∨ (f.c.desc.out e.sub).1 = 4) : semStout e f = .fault 6 0 := if_pos h

theorem semStout_bound (h0 : (f.c.desc.out e.sub).1 ≠ 0) (h4 : (f.c.desc.out e.sub).1 ≠ 4) : semStout e f =
    .ok { f with a := { f.a with stage := tput f.a.stage e.sub (f.c.bank.val e.ra, e.fe) } } 1 none :=
  if_neg fun h => h.elim h0 h4

theorem State.popCapture_eng (k n : Nat) : (s.popCapture k n).1.eng = s.eng := by
  unfold State.popCapture
  split <;> rfl

/-- Settles O21: RDIN by the kind of its source, RDINT and STOUT by whether the binding is there. -/
theorem bindingsReadAndStage : Obligations.BindingsReadAndStage := by
  intro s t e a h live b i c kind n bad read
  refine ⟨fun fit op => ⟨fun capture => ?_, fun bound other => ?_⟩, fun fit => ⟨fun op converter => ?_, fun op bound other => ?_,
    fun op unbound => ?_, fun op other => ?_, fun op unbound => ?_⟩⟩
  · intro q
    have popped : q.1.eng = s.eng := State.popCapture_eng _ _
    exact done_logged h fit (by decide) op (semRdin_capture live capture) popped
  · exact done_logged h fit (by decide) op (semRdin_source live bound other) rfl
  · exact done_of_issue op (State.issue_bank h fit (Nat.le_refl 1) (a' := { (effOf s t e a).a with words := a.words ++ [tget 0 c.stamp e.sub] })
      rfl (semRdint_live live converter))
  · exact done_of_issue op (State.issue_bank h fit (Nat.le_refl 1)
      (a' := { (effOf s t e a).a with stage := tput a.stage e.sub (b.val e.ra, e.fe) }) rfl (semStout_bound bound other))
  · exact done_fault h fit op (semRdin_unbound unbound)
  · exact done_fault h fit op (if_pos other)
  · exact done_fault h fit op (semStout_unbound unbound)

end Sys2Proof.Machine
end

section
/-! PROOFS. Activations: their start, their endings and the budget (O23). -/

namespace Sys2Proof.Machine

variable {s : State} {t w : Nat} {a : Act}

/-! ### Start (R64, R65, R113) -/

/-- An idle engine that runs activates the first slice that may run. -/
theorem State.startNext_slice {x : Slice} {l : List Slice} (idle : (s.engOf t).act = none) (runs : s.engineRuns t = true)
    (live : s.live = true) (next : takeSlice (fun k => (s.slotOf t k).mayRun) (s.engOf t).layout = (some x, l)) :
    s.startNext t = (s.setEng t { s.engOf t with layout := l }).activate t x.slot (x.offset + 2) x.budget := by
  unfold State.startNext
  dsimp only
  rw [if_neg (by simp [idle, runs, live]), next]

/-! ### Illegal words (R77, R99) -/

/-- A word that spells no instruction faults, and no cycle is needed for it to issue. -/
theorem State.issue_illegal {sem : EI → Eff → Res} (act : s.issues t = some a) (pc : a.pc ≤ 4095) (clean : s.flipCount (instrAddr t a.pc) = 0)
    (bp : (s.engOf t).bp ≠ some (a.slot, a.pc)) (word : decodeWord (s.word (instrAddr t a.pc)).toNat = none) :
    s.issue t .illegal sem = s.chanFault t 2 0 0 a := by
  unfold State.issue
  rw [act]
  dsimp only
  rw [if_neg (Nat.not_lt.mpr pc), State.readWord_clean _ _ clean]
  dsimp only
  rw [if_neg fun both => bp both.1, if_neg Bool.false_ne_true, word]
  rfl

/-! ### Ends (R65, R67, R99) -/

/-- The slot of an activation that EOS or YIELD has ended (R67, R118). -/
def Chan.ended (c : Chan) (a : Act) (yields : Bool) : Chan :=
  { c with
    ovrConsec := 0, preempted := false, resumed := yields, first := false, bank := { c.bank with pc := if yields then a.pc else c.entry },
    halt := if a.step then some 3 else c.halt }

section
variable (act : (s.engOf t).act = some a) (drained : (s.engOf t).buf = []) (fits : a.used + w ≤ a.budget)
include act drained fits

/-- An activation ended by EOS or YIELD commits its stage buffer. -/
theorem State.activationEnd_commits {how : Ending} (ending : a.ending = some how) (well : how ≠ .fault) (live : a.log = none) :
    let s1 := s.commit t a.slot a.stage
    s.activationEnd t w = (s1.setChan (16 * t + a.slot) ((s1.chanOf (16 * t + a.slot)).ended a (how == .yield_))).ran t
      (b2n (how == .yield_)) { a with used := a.used + w } := by
  intro s1
  unfold State.activationEnd
  dsimp only
  rw [act]
  dsimp only
  rw [ending]
  dsimp only
  rw [if_neg (by simp [drained, fits]), if_neg well, if_neg (by simp [live])]
  rfl

/-- A faulted activation commits nothing. -/
theorem State.activationEnd_fault (ending : a.ending = some .fault) :
    s.activationEnd t w = s.ran t 3 { a with used := a.used + w } := by
  unfold State.activationEnd
  dsimp only
  rw [act]
  dsimp only
  rw [ending]
  dsimp only
  rw [if_neg (by simp [drained, fits]), if_pos rfl]

end

/-! ### Preemption (R65, R66, R118) -/

/-- The slot after an overrun: counted, preempted, back at the entry, with a fault of it or none. -/
def Chan.overrun (c : Chan) (fault : Option FaultInfo) : Chan :=
  { c with
    ovrTotal := min (c.ovrTotal + 1) 0xFFFF, ovrConsec := min (c.ovrConsec + 1) 0xFF, preempted := true, resumed := false, first := false,
    bank := { c.bank with pc := c.entry }, unreported := fault }

theorem State.ran_regs (how : Nat) : (s.ran t how a).regs = s.regs := rfl

/-- The state after an overrun of the activation `a`: its posted writes and its load are dropped (R65). -/
def State.overran (s : State) (t : Nat) (a : Act) (fault : Option FaultInfo) : State :=
  let s1 := s.setEng t { s.engOf t with buf := [], gload := none, cancelRd := none }
  ((s1.setChan (16 * t + a.slot) ((s.chanOf (16 * t + a.slot)).overrun fault)).setFld ALLOC_IRQ_STAT_OVERRUN 1).ran t 2
    { a with used := a.budget }

/-- A live activation that awaits no cancel and has used its budget overruns. -/
theorem State.preempt_overran (act : (s.engOf t).act = some a) (spent : a.used = a.budget) (running : a.ending = none) (live : a.log = none)
    (noCancel : (s.engOf t).cancelRd = none) : ∃ fault, s.preempt t = s.overran t a fault := by
  have past (p : Prop) : ¬ (a.used < a.budget ∧ p ∨ (s.engOf t).inTime a = true) := by simp [spent, running, Engine.inTime]
  have noReplay (p : Prop) : ¬ (a.log.isSome = true ∧ p) := by simp [live]
  have noWait : ¬ (s.engOf t).cancelRd.isSome = true := by simp [noCancel]
  have noFault : a.ending ≠ some .fault := by simp [running]
  unfold State.preempt
  dsimp only
  split
  · next idle => rw [act] at idle; cases idle
  · next b running =>
    obtain rfl : a = b := Option.some.inj (act.symm.trans running)
    rw [if_neg (past _), if_neg (noReplay _), if_neg (noReplay _), if_neg (noReplay _), if_neg noWait, if_neg noFault]
    exact ⟨_, rfl⟩

/-- An overrun leaves the engine idle with an empty posted-write buffer. -/
theorem State.overran_engOf (fault : Option FaultInfo) :
    ((s.overran t a fault).engOf t).act = none ∧ ((s.overran t a fault).engOf t).buf = [] := by
  unfold State.overran State.ran
  dsimp only
  rw [State.engOf_setEng_same]
  exact ⟨rfl, congrArg Engine.buf (State.engOf_setEng_same s t _)⟩

theorem State.overran_chanOf (fault : Option FaultInfo) :
    (s.overran t a fault).chanOf (16 * t + a.slot) = (s.chanOf (16 * t + a.slot)).overrun fault := State.chanOf_setChan_same _ _ _

theorem State.overran_flag (fault : Option FaultInfo) : (s.overran t a fault).fb ALLOC_IRQ_STAT_OVERRUN = true :=
  (State.fb_of_regs (State.ran_regs 2) _).trans (State.fb_setFld_one _ (by decide))

/-- Settles O23: the start by the layout, each ending by what has ended the activation, and the budget by an overrun. -/
theorem activationsStartAndEnd : Obligations.ActivationsStartAndEnd := by
  intro s t
  refine ⟨fun x l idle runs live next => ?start, fun e a h fit => ?endings, fun a act pc clean bp word => ?illegal,
    fun a how w act ending well drained fits live => ?ends, fun a w act ending drained fits => ?faulted,
    fun a act spent running live noCancel _ => ?overruns⟩
  case start => exact congrArg (done s) (State.startNext_slice idle runs live next)
  case endings =>
    intro b ending
    have ends {how : Ending} {o : EOp} (op : e.op = o) (hs : semOf o e (effOf s t e a) = semEnd how e (effOf s t e a)) :
        done s (s.issue t o (semOf o)) = ending how :=
      done_of_issue op (State.issue_bank h fit (Nat.le_refl 1) (a' := { (effOf s t e a).a with ending := some how }) rfl hs)
    refine ⟨fun op => ends op rfl, fun op => ends op rfl, fun op off => ?_, fun op on => ?_⟩
    · exact done_fault h fit op (if_neg (Bool.eq_false_iff.mp off))
    · have stops : semBrk e (effOf s t e a) = .stop := if_pos on
      exact done_of_issue op ((State.issue_eq h fit _).trans (congrArg (s.retire t _ a) stops))
  case illegal => exact congrArg (done s) (State.issue_illegal act pc clean bp word)
  case ends => exact congrArg (done s) (State.activationEnd_commits act drained fits ending well live)
  case faulted => exact congrArg (done s) (State.activationEnd_fault act drained fits ending)
  case overruns =>
    obtain ⟨fault, overran⟩ := State.preempt_overran act spent running live noCancel
    obtain ⟨idle, dropped⟩ := State.overran_engOf (s := s) (t := t) (a := a) fault
    refine ⟨_, congrArg (done s) overran, ?_⟩
    rw [State.engOf_of_eng (settle_eng _ _), State.chanOf_of_chans (settle_chans _ _), State.overran_chanOf, settle_fb]
    exact ⟨idle, dropped, rfl, rfl, rfl, rfl, rfl, State.overran_flag fault⟩

end Sys2Proof.Machine
end

section
/-! PROOFS. Handles, and requests at the allocator: what REQUEST_DONE answers, refused and performed (O25, O27). -/

namespace Sys2Proof.Machine

/-! ### Handles (R102) -/

theorem bits_lt (n hi lo : Nat) : bits n hi lo < 2 ^ (hi + 1 - lo) := Nat.mod_lt _ (Nat.two_pow_pos _)

/-- A multiple of a higher power of two leaves the bits of a field below it. -/
theorem bits_add_two_pow_mul (n x : Nat) {k hi : Nat} (lo : Nat) (below : hi < k) : bits (n + 2 ^ k * x) hi lo = bits n hi lo := by
  unfold bits
  rcases Nat.lt_or_ge hi lo with empty | nonempty
  · rw [show hi + 1 - lo = 0 by omega, Nat.pow_zero, Nat.mod_one, Nat.mod_one]
  · have split : 2 ^ k * x = 2 ^ lo * (2 ^ (hi + 1 - lo) * (2 ^ (k - (hi + 1)) * x)) := by
      rw [← Nat.mul_assoc, ← Nat.mul_assoc, ← Nat.pow_add, ← Nat.pow_add]
      congr 2
      omega
    rw [split, Nat.add_mul_div_left _ _ (Nat.two_pow_pos _), Nat.add_mul_mod_self_left]

/-- A handle is its generation and its slot, with CHECK in the byte above them. -/
theorem handleOf_eq (i : Nat) {gen : Nat} (small : gen < 4096) : ∃ check < 256, handleOf i gen = gen * 4096 + i + 2 ^ 24 * check ∧
    check = bits (gen * 4096 + i) 23 16 ^^^ bits (gen * 4096 + i) 15 8 ^^^ bits (gen * 4096 + i) 7 0 ^^^ 0x5A := by
  have byte (hi lo : Nat) (wide : hi + 1 - lo = 8) : bits (gen * 4096 + i) hi lo < 2 ^ 8 := wide ▸ bits_lt _ hi lo
  have fits := Nat.xor_lt_two_pow (Nat.xor_lt_two_pow (Nat.xor_lt_two_pow (byte 23 16 rfl) (byte 15 8 rfl)) (byte 7 0 rfl))
    (show 0x5A < 2 ^ 8 by decide)
  refine ⟨_, fits, ?_, rfl⟩
  unfold handleOf
  rw [Nat.mod_eq_of_lt small]

/-- Settles O25: CHECK stands in the top byte, and the bits below are those it is computed from. -/
theorem handlesCarryTheirCheck : Obligations.HandlesCarryTheirCheck := by
  intro i gen slot small h
  obtain ⟨check, byte, eq, made⟩ := handleOf_eq i small
  have low {hi : Nat} (lo : Nat) (below : hi < 24) : bits h hi lo = bits (gen * 4096 + i) hi lo :=
    (congrArg (bits · hi lo) eq).trans (bits_add_two_pow_mul _ check lo below)
  have top : bits h 31 24 = check := by simp only [h, eq, bits]; omega
  rw [top, low 16 (by decide), low 8 (by decide), low 0 (by decide), low 0 (by decide), low 12 (by decide)]
  refine ⟨made, ?slot, ?generation, show handleOf i gen < _ by omega⟩
  case slot => unfold bits; omega
  case generation => unfold bits; omega

/-! ### The answer to a request (R106, R110) -/

variable {s u : State} {q : Request} {r : List Request} {res tick : Nat}

/-- The state after the answer to a request stands in its buffer: CODE, FIELD, RESULT and TICK, with DONE set and PEND clear. -/
def State.answered (s : State) (b code field res tick : Nat) : State :=
  (((((s.setFld (ALLOC_RB_CMD_CODE b) code).setFld (ALLOC_RB_CMD_FIELD b) field).setFld (ALLOC_RB_RESULT_RESULT b) res).setFld
    (ALLOC_RB_TICK_TICK b) tick).setFld (ALLOC_RB_CMD_DONE b) 1).setFld (ALLOC_RB_CMD_PEND b) 0

@[simp] theorem State.toPartner_rb (kind : String) (ws : List Nat) : (s.toPartner kind ws).rb = s.rb := by
  obtain ⟨o, p, regs, e, -⟩ := s.toPartner_same kind ws
  rw [e]

theorem State.setSlot_rb (i : Nat) (c : Chan) : (s.setSlot i c).rb = s.rb := State.toPartner_rb _ _

theorem State.query_rb (b i : Nat) : (s.query b i).1.rb = s.rb := by
  unfold State.query
  dsimp only
  split <;> simp only [State.setFld_rb, State.setReg_rb]

/-- A release that has waited for the answer frees the buffer (R105). -/
def State.releaseAnswered (s : State) (b : Nat) : State :=
  if tget false s.rb b then (({ s with rb := tset false s.rb b false } : State).freeBuffer b).offBit ALLOC_RBFREE_FREE b else s

theorem State.releaseAnswered_none {b : Nat} (none : tget false s.rb b = false) : s.releaseAnswered b = s :=
  if_neg (Bool.eq_false_iff.mp none)

theorem State.answered_rb (b code field : Nat) : (s.answered b code field res tick).rb = s.rb := by
  simp only [State.answered, State.setFld_rb]

/-- The oldest request is judged, performed where it is accepted, and answered in its buffer. -/
theorem State.requestDone_judged (queue : s.aq = q :: r) {code field : Nat} (judged : ({ s with aq := r } : State).judge q = (code, field))
    (does : (if code = 0 then ({ s with aq := r } : State).perform q else ({ s with aq := r }, 0, 0)) = (u, res, tick)) :
    s.requestDone = (u.answered q.buf code field res tick).releaseAnswered q.buf := by
  unfold State.requestDone
  rw [queue]
  simp only [judged, does]
  rfl

/-! ### What each request performs (R107 to R109, R112) -/

section
variable (unstaged : q.staged = false)
include unstaged

theorem State.perform_create {j : Nat} (op : q.op = 1) (slot : s.pickSlot (s.reg (ALLOC_RB_PLACE_at q.buf)).toNat = some j)
    (keeps : (s.readDesc q.buf).mode.toNat.testBit 3 = false) :
    let d := s.readDesc q.buf
    let m := (startTick s.effTick d.start).getD s.effTick
    s.perform q = (s.setSlot j { newChan (s.chanOf j).gen d .starting with startTick := some m }, handleOf j (s.chanOf j).gen,
      m.toNat % 2 ^ 32) := by
  unfold State.perform
  rw [op]
  dsimp only
  rw [slot, unstaged]
  dsimp only
  unfold State.create
  rw [keeps]
  rfl

theorem State.perform_destroy (op : q.op = 2) :
    let i := (s.reg (ALLOC_RB_PLACE_at q.buf)).toNat % 4096
    (s.chanOf i).st ≠ .stopping → s.perform q = (s.setSlot i { s.chanOf i with
      st := .stopping, stopTick := some s.effTick, stop := none, kept := [], resume := none }, 0, s.effTick.toNat % 2 ^ 32) := by
  intro i goes
  have does : s.destroy i false = (s.setSlot i { s.chanOf i with
      st := .stopping, stopTick := some s.effTick, stop := none, kept := [], resume := none }, s.effTick.toNat % 2 ^ 32) := by
    unfold State.destroy
    dsimp only
    rw [if_neg Bool.false_ne_true, if_neg goes]
  unfold State.perform
  dsimp only
  rw [op, unstaged]
  exact congrArg (fun x : State × Nat => (x.1, 0, x.2)) does

theorem State.perform_modify (op : q.op = 3) :
    let i := (s.reg (ALLOC_RB_PLACE_at q.buf)).toNat % 4096
    s.perform q = (s.setSlot i { s.chanOf i with
      mods := (s.chanOf i).mods ++ [(s.effTick, (s.chanOf i).desc.modified (s.readDesc q.buf))] }, 0, s.effTick.toNat % 2 ^ 32) := by
  unfold State.perform
  dsimp only
  rw [op, unstaged]
  rfl

end

theorem State.perform_query (op : q.op = 4) :
    let i := (s.reg (ALLOC_RB_PLACE_at q.buf)).toNat % 4096
    s.perform q = ((s.query q.buf i).1, (s.query q.buf i).2, 0) := by
  unfold State.perform
  dsimp only
  rw [op]
  rfl

/-- Settles O27: the judgement refuses the request or lets its operation be performed, and the answer stands in the buffer. -/
theorem requestsAreJudgedAndDone : Obligations.RequestsAreJudgedAndDone := by
  intro s q r queue kept s0 place i c d e field fin
  have answers {u : State} {res tick : Nat} (does : (if (s0.judge q).1 = 0 then s0.perform q else (s0, 0, 0)) = (u, res, tick))
      (rb : u.rb = s.rb) : exec .requestDone s = .next (settle s (fin u (s0.judge q).1 res tick)) := by
    refine congrArg (done s) ((State.requestDone_judged queue (Prod.eta _).symm does).trans (State.releaseAnswered_none ?_))
    rw [State.answered_rb, rb]
    exact kept
  have accepted {u : State} {res tick : Nat} (code : (s0.judge q).1 = 0) (does : s0.perform q = (u, res, tick)) (rb : u.rb = s.rb) :
      exec .requestDone s = .next (settle s (fin u 0 res tick)) := code ▸ answers ((if_pos code).trans does) rb
  refine ⟨fun refused => ?refused, fun code unstaged => ⟨fun j op slot keeps => ?create, fun op goes => ?destroy, fun op => ?modify,
    fun op => ?query⟩⟩
  case refused => exact answers (if_neg refused) rfl
  case create => exact accepted code (State.perform_create unstaged op slot keeps) (State.setSlot_rb _ _)
  case destroy => exact accepted code (State.perform_destroy unstaged op goes) (State.setSlot_rb _ _)
  case modify => exact accepted code (State.perform_modify unstaged op) (State.setSlot_rb _ _)
  case query => exact accepted code (State.perform_query op) (State.query_rb _ _)

end Sys2Proof.Machine
end

section
/-! PROOFS. Faults and releases of channels, the fault log, and holds of engines (O28). -/

namespace Sys2Proof.Machine

variable {s : State} {i : Nat} {f : FaultInfo} {m at_ : BitVec 48}

/-! ### What a trace record and a message of a slot leave -/

/-- A trace record changes registers of Sillage, its FIFO and the counter of free values. -/
theorem State.trace_same (s : State) (kind : Nat) (time w1 w2 w3 : Word) : ∃ regs sil n,
    s.trace kind time w1 w2 w3 = { s with regs := regs, sil := sil, freeCtr := n } ∧
    ∀ g : RF, g.addr < SILLAGE_STAT_at → g.get (tget (rstWord g.addr) regs g.addr) = s.fld g := by
  have written (u : State) (f g : RF) (v : Nat) (late : SILLAGE_STAT_at ≤ f.addr) (early : g.addr < SILLAGE_STAT_at) :
      (u.setFld f v).fld g = u.fld g := u.fld_setFld_other f g v (by omega)
  unfold State.trace
  dsimp only
  split
  · split
    · exact ⟨_, s.sil, _, rfl, fun g early => written s.fresh _ g _ (by decide) early⟩
    · split
      · exact ⟨_, s.sil, _, rfl, fun g early => (written _ _ g _ (by decide) early).trans (written s.fresh _ g _ (by decide) early)⟩
      · split
        · exact ⟨_, _, _, rfl, fun g early => written _ _ g _ (by decide) early⟩
        · exact ⟨s.regs, _, _, rfl, fun g _ => rfl⟩
  · exact ⟨s.regs, s.sil, s.freeCtr, rfl, fun g _ => rfl⟩

theorem State.trace_fld (kind : Nat) (time w1 w2 w3 : Word) {g : RF} (early : g.addr < SILLAGE_STAT_at) :
    (s.trace kind time w1 w2 w3).fld g = s.fld g := by
  obtain ⟨regs, sil, n, e, same⟩ := s.trace_same kind time w1 w2 w3
  rw [e]
  exact same g early

theorem State.trace_flog (kind : Nat) (time w1 w2 w3 : Word) : (s.trace kind time w1 w2 w3).flog = s.flog := by
  obtain ⟨regs, sil, n, e, -⟩ := s.trace_same kind time w1 w2 w3
  rw [e]

@[simp] theorem State.toPartner_flog (kind : String) (ws : List Nat) : (s.toPartner kind ws).flog = s.flog := by
  obtain ⟨o, p, r, e, -⟩ := s.toPartner_same kind ws
  rw [e]

theorem State.setSlot_chanOf_same (c : Chan) : (s.setSlot i c).chanOf i = c :=
  (State.chanOf_of_chans (State.toPartner_chans _ _) i).trans (State.chanOf_setChan_same _ _ _)

theorem State.setSlot_flog (c : Chan) : (s.setSlot i c).flog = s.flog := State.toPartner_flog _ _

theorem State.setSlot_fld (c : Chan) {g : RF} (apart : g.addr ≠ PAIR_TXQ_at) : (s.setSlot i c).fld g = s.fld g :=
  State.toPartner_fld _ _ _ _ apart

/-! ### Faults (R112, R119) -/

/-- A channel that has faulted and waits for its release. -/
def Chan.faulted (c : Chan) (f : FaultInfo) (at_ : BitVec 48) : Chan :=
  { c with st := .faulted, fault := some f, unreported := none, mods := [], releaseTick := some at_, stop := none, kept := [] }

/-- The fault of a channel that is not STOPPING, while the log has room: the log, the cause, the record of Sillage, and the slot. -/
theorem State.takeFault_room (room : s.flog.length < 16) (running : (s.chanOf i).st ≠ .stopping) : ∃ time w1 w2 w3,
    s.takeFault i f at_ = ((({ s with flog := s.flog ++ [⟨BitVec.ofNat 32 (s.handle i), f⟩] } : State).setFld ALLOC_IRQ_STAT_FAULT 1).trace 4
      time w1 w2 w3).setSlot i ((s.chanOf i).faulted f at_) := by
  unfold State.takeFault
  dsimp only
  rw [if_neg running, if_neg (Nat.not_le.mpr room), if_neg fun both => Nat.not_le.mpr room both.1]
  exact ⟨_, _, _, _, rfl⟩

theorem State.faultReport_some {t k : Nat} (reported : (s.chanOf (16 * t + k)).unreported = some f) :
    s.faultReport t k = s.takeFault (16 * t + k) f s.effTick := by
  unfold State.faultReport
  dsimp only
  rw [reported]

/-! ### Releases (R112, R119, R120) -/

theorem State.releaseChan_once (before : (s.chanOf i).released = false) :
    (s.releaseChan i).chanOf i = { s.chanOf i with defOut := [], released := true, releaseTick := none } := by
  unfold State.releaseChan
  dsimp only
  rw [if_neg (Bool.eq_false_iff.mp before)]
  exact State.chanOf_setChan_same _ _ _

theorem State.releaseChan_gen : ((s.releaseChan i).chanOf i).gen = (s.chanOf i).gen := by
  cases before : (s.chanOf i).released with
  | true => unfold State.releaseChan; dsimp only; rw [if_pos before]
  | false => rw [State.releaseChan_once before]

theorem tickCome_some {n : BitVec 48} : tickCome n (some m) = true ↔ m.toNat ≤ n.toNat := decide_eq_true_iff

/-- A fault's release that is due. -/
theorem State.releaseDue_fault (running : (s.chanOf i).st ≠ .stopping) (set : (s.chanOf i).releaseTick = some m) (n : BitVec 48)
    (due : m.toNat ≤ n.toNat) : s.releaseDue i n = s.releaseChan i := by
  unfold State.releaseDue
  dsimp only
  rw [if_neg fun both => running both.1, set, if_pos (tickCome_some.mpr due)]

/-- A stop that is due: the channel is released, and its slot is freed. -/
theorem State.releaseDue_stop (stopping : (s.chanOf i).st = .stopping) (set : (s.chanOf i).stopTick = some m) (n : BitVec 48)
    (due : m.toNat ≤ n.toNat) : s.releaseDue i n = (s.releaseChan i).freeSlot i := by
  unfold State.releaseDue
  dsimp only
  rw [set, if_pos ⟨stopping, tickCome_some.mpr due⟩]

/-- A release waits for an apply that its sector's boundary has still to take (R203). -/
theorem State.channelRelease_eq : s.channelRelease i =
    if s.strobesFor (.sect (Fin.ofNat 16 (i / 256))) = [] then s.releaseDue i s.tb.tick else s := by
  unfold State.channelRelease
  simp only [List.isEmpty_iff]

/-! ### One bit of a field -/

/-- Taking the common bits off a number clears them. -/
theorem testBit_sub_and (x y j : Nat) : (x - (x &&& y)).testBit j = (x.testBit j && !y.testBit j) := by
  have common (x y : Nat) : ((x &&& y) % 2 = 1 ↔ x % 2 = 1 ∧ y % 2 = 1) ∧ x &&& y ≤ x := ⟨Nat.and_mod_two_eq_one, Nat.and_le_left⟩
  induction j generalizing x y with
  | zero =>
    have lowest := common x y
    rw [Bool.eq_iff_iff]
    simp only [Nat.testBit_zero, Bool.and_eq_true, Bool.not_eq_true', decide_eq_true_eq, decide_eq_false_iff_not]
    omega
  | succ j ih =>
    have half : (x - (x &&& y)) / 2 = x / 2 - (x / 2 &&& y / 2) := by
      have lowest := common x y
      rw [← Nat.and_div_two]
      omega
    rw [Nat.testBit_succ, Nat.testBit_succ, Nat.testBit_succ, half, ih]

theorem State.fbit_setFld_same (g : RF) (v j : Nat) (h : g.lo ≤ g.hi ∧ g.hi < 32) (inside : j < g.hi + 1 - g.lo) :
    (s.setFld g v).fbit g j = v.testBit j := by
  unfold State.fbit
  rw [State.fld_setFld_same _ _ _ h, Nat.testBit_mod_two_pow]
  simp [inside]

/-- A stored bit reads as stored, and the field's other bits are what they were. -/
theorem State.fbit_putBit (g : RF) (b : Bool) (k j : Nat) (h : g.lo ≤ g.hi ∧ g.hi < 32) (inside : j < g.hi + 1 - g.lo) :
    (s.putBit g k b).fbit g j = if j = k then b else s.fbit g j := by
  unfold State.putBit
  cases b with
  | true =>
    refine (State.fbit_setFld_same g _ j h inside).trans ?_
    rw [Nat.testBit_or, Nat.testBit_two_pow]
    by_cases stored : j = k
    · rw [if_pos stored, decide_eq_true stored.symm, Bool.or_true]
    · rw [if_neg stored, decide_eq_false (Ne.symm stored), Bool.or_false]
      rfl
  | false =>
    refine (State.fbit_setFld_same g _ j h inside).trans ?_
    rw [testBit_sub_and, Nat.testBit_two_pow]
    by_cases stored : j = k
    · rw [if_pos stored, decide_eq_true stored.symm, Bool.not_true, Bool.and_false]
    · rw [if_neg stored, decide_eq_false (Ne.symm stored), Bool.not_false, Bool.and_true]
      rfl

theorem State.fb_putBit_other (g f : RF) (b : Bool) (k : Nat) (apart : f.addr ≠ g.addr) : (s.putBit g k b).fb f = s.fb f := by
  cases b with
  | true => exact State.fb_setFld_apart g f _ (.inl apart)
  | false => exact State.fb_setFld_apart g f _ (.inl apart)

/-! ### Holds of engines (R121) -/

variable {w n : Nat} {v : Word}

/-- A channel of the engine runs, starts, stops or is staged. -/
def State.admits (s : State) (t : Nat) : Bool := (List.range 16).any fun k => (s.slotOf t k).st.admitted

/-- One bit of a write of ENGHOLD[w]. -/
def State.holdBit (w : Nat) (v : Word) (s : State) (j : Nat) : State :=
  (s.putBit (ALLOC_ENGHOLD_HOLD w) j (v.toNat.testBit j && !s.admits (32 * w + j))).raise ALLOC_STATUS_HOLDREF
    (v.toNat.testBit j && s.admits (32 * w + j))

/-- The state after the lowest `n` bits of a write of ENGHOLD[w]. -/
def State.holdBits (s : State) (w : Nat) (v : Word) (n : Nat) : State := (List.range n).foldl (State.holdBit w v) s

theorem State.engHold_eq (s : State) : s.engHold w v = s.holdBits w v 32 := by
  unfold State.engHold State.holdBits
  refine congrArg (fun step => List.foldl step s (List.range 32)) (funext fun u => funext fun j => ?_)
  unfold State.holdBit
  change (if v.toNat.testBit j = false then _ else if u.admits (32 * w + j) = true then _ else _) = _
  cases v.toNat.testBit j <;> cases u.admits (32 * w + j) <;> simp [State.raise, State.putBit]

theorem State.holdBits_succ : s.holdBits w v (n + 1) = (s.holdBits w v n).holdBit w v n := by
  unfold State.holdBits
  rw [List.range_succ, List.foldl_append, List.foldl_cons, List.foldl_nil]

theorem State.raise_chans (g : RF) (b : Bool) : (s.raise g b).chans = s.chans := by cases b <;> rfl
theorem State.putBit_chans (g : RF) (k : Nat) (b : Bool) : (s.putBit g k b).chans = s.chans := by cases b <;> rfl

theorem State.holdBits_chans : (s.holdBits w v n).chans = s.chans := by
  induction n with
  | zero => rfl
  | succ n ih => rw [State.holdBits_succ, State.holdBit, State.raise_chans, State.putBit_chans, ih]

theorem State.holdBits_admits (t : Nat) : (s.holdBits w v n).admits t = s.admits t := by
  unfold State.admits State.slotOf State.chanOf
  rw [State.holdBits_chans]

/-- A bit that has been written holds its engine where that admits no channel. -/
theorem State.holdBits_fbit {j : Nat} (wide : j < 32) : (s.holdBits w v n).fbit (ALLOC_ENGHOLD_HOLD w) j =
    if j < n then v.toNat.testBit j && !s.admits (32 * w + j) else s.fbit (ALLOC_ENGHOLD_HOLD w) j := by
  have apart : (ALLOC_ENGHOLD_HOLD w).addr ≠ ALLOC_STATUS_HOLDREF.addr := by
    show 0x40002040 + w * 4 ≠ 0x40002004
    omega
  induction n with
  | zero => rfl
  | succ n ih =>
    have raised (u : State) (b : Bool) : (u.raise ALLOC_STATUS_HOLDREF b).fbit (ALLOC_ENGHOLD_HOLD w) j = u.fbit (ALLOC_ENGHOLD_HOLD w) j := by
      unfold State.fbit
      rw [State.raise_fld_apart _ (.inl apart)]
    rw [State.holdBits_succ, State.holdBit, raised, State.fbit_putBit _ _ _ _ (show 0 ≤ 31 ∧ 31 < 32 by decide) wide, ih, State.holdBits_admits]
    by_cases last : j = n
    · simp [last]
    · simp [last, show j < n + 1 ↔ j < n by omega]

/-- HOLDREF stands where it stood, or where a hold has met an admitted channel. -/
theorem State.holdBits_holdref : (s.holdBits w v n).fb ALLOC_STATUS_HOLDREF =
    (s.fb ALLOC_STATUS_HOLDREF || (List.range n).any fun j => v.toNat.testBit j && s.admits (32 * w + j)) := by
  have apart : ALLOC_STATUS_HOLDREF.addr ≠ (ALLOC_ENGHOLD_HOLD w).addr := by
    show 0x40002004 ≠ 0x40002040 + w * 4
    omega
  induction n with
  | zero => exact (Bool.or_false _).symm
  | succ n ih =>
    rw [State.holdBits_succ, State.holdBit, State.raise_fb_same _ _ (by decide), State.fb_putBit_other _ _ _ _ apart, ih, State.holdBits_admits,
      List.range_succ, List.any_append, Bool.or_assoc]
    simp

/-- A register whose bits are those of a word holds that word. -/
theorem State.reg_of_fbit {a : Nat} (bit : ∀ j < 32, s.fbit ⟨a, 31, 0⟩ j = v.toNat.testBit j) : s.reg a = v := by
  apply BitVec.eq_of_getLsbD_eq
  intro j wide
  have same := bit j wide
  unfold State.fbit State.fld at same
  rwa [RF.get_whole, BitVec.testBit_toNat, BitVec.testBit_toNat] at same

theorem settle_fbit (u : State) (g : RF) (j : Nat) : (settle s u).fbit g j = u.fbit g j := congrArg (Nat.testBit · j) (settle_fld _ _ _)

/-- A write that meets no admitted channel stores its bits, and HOLDREF stays as it was. -/
theorem State.engHold_free (free : ∀ j < 32, s.admits (32 * w + j) = false) :
    (s.engHold w v).reg (ALLOC_ENGHOLD_at w) = v ∧ (s.engHold w v).fb ALLOC_STATUS_HOLDREF = s.fb ALLOC_STATUS_HOLDREF := by
  have unmet : ((List.range 32).any fun j => v.toNat.testBit j && s.admits (32 * w + j)) = false :=
    List.any_eq_false.mpr fun j wide => by simp [free j (List.mem_range.mp wide)]
  rw [State.engHold_eq, State.holdBits_holdref, unmet, Bool.or_false]
  refine ⟨State.reg_of_fbit fun j wide => ?_, rfl⟩
  rw [State.holdBits_fbit wide, if_pos wide, free j wide, Bool.not_false, Bool.and_true]

/-- A hold of an engine with an admitted channel is refused with HOLDREF. -/
theorem State.engHold_refused {j : Nat} (wide : j < 32) (asks : v.toNat.testBit j = true) (admits : s.admits (32 * w + j) = true) :
    (s.engHold w v).fbit (ALLOC_ENGHOLD_HOLD w) j = false ∧ (s.engHold w v).fb ALLOC_STATUS_HOLDREF = true := by
  have met : ((List.range 32).any fun j => v.toNat.testBit j && s.admits (32 * w + j)) = true :=
    List.any_eq_true.mpr ⟨j, List.mem_range.mpr wide, by rw [asks, admits]; rfl⟩
  rw [State.engHold_eq, State.holdBits_holdref, met, Bool.or_true, State.holdBits_fbit wide, if_pos wide, asks, admits]
  exact ⟨rfl, rfl⟩

theorem State.admits_false {t : Nat} (free : ∀ k < 16, (s.chanOf (16 * t + k)).st.admitted = false) : s.admits t = false :=
  List.any_eq_false.mpr fun k slot => Bool.eq_false_iff.mp (free k (List.mem_range.mp slot))

theorem State.admits_true {t k : Nat} (slot : k < 16) (admitted : (s.chanOf (16 * t + k)).st.admitted = true) : s.admits t = true :=
  List.any_eq_true.mpr ⟨k, List.mem_range.mpr slot, admitted⟩

/-- Settles O28: a report faults its channel, a due release ends it once no apply waits, a pop drops an entry, and a hold is judged
bit by bit. -/
theorem faultsEndChannels : Obligations.FaultsEndChannels := by
  refine ⟨fun s t k => ?channel, fun s v => ?pop, fun s w v => ⟨fun idle => ?stored, fun j k asks admitted => ?refused⟩⟩
  case channel =>
    intro i c
    refine ⟨fun f reported running room => ?fault, ?_⟩
    case fault =>
      obtain ⟨time, w1, w2, w3, taken⟩ := State.takeFault_room (f := f) (at_ := s.effTick) room running
      refine ⟨_, congrArg (done s) ((State.faultReport_some reported).trans taken), ?_⟩
      rw [State.chanOf_of_chans (settle_chans _ _), State.setSlot_chanOf_same, settle_flog, State.setSlot_flog, State.trace_flog, settle_fb]
      refine ⟨rfl, rfl, rfl, rfl, rfl, rfl, ?_⟩
      unfold State.fb
      rw [State.setSlot_fld _ (by decide), State.trace_fld _ _ _ _ _ (by decide)]
      exact State.fb_setFld_one _ (by decide)
    intro first
    have sector : t.val / 16 = i / 256 := by omega
    have boundary : first = s.strobesFor (.sect (Fin.ofNat 16 (i / 256))) := congrArg (fun k => s.strobesFor (.sect (Fin.ofNat 16 k))) sector
    rw [boundary]
    have release := State.channelRelease_eq (s := s) (i := i)
    refine ⟨fun applies => congrArg (done s) (release.trans (if_neg applies)), fun m free set due running before => ?released,
      fun m free set due stopping => ?freed⟩
    case released =>
      refine ⟨_, congrArg (done s) ((release.trans (if_pos free)).trans (State.releaseDue_fault running set _ due)), ?_⟩
      rw [State.chanOf_of_chans (settle_chans _ _), State.releaseChan_once before]
      exact ⟨rfl, rfl, rfl, rfl⟩
    case freed =>
      refine ⟨_, congrArg (done s) ((release.trans (if_pos free)).trans (State.releaseDue_stop stopping set _ due)), ?_⟩
      rw [State.chanOf_of_chans (settle_chans _ _), State.freeSlot, State.setSlot_chanOf_same, State.releaseChan_gen]
  case pop =>
    have lowest : v.toNat.testBit 0 = v.getLsbD 0 := BitVec.testBit_toNat v
    exact ⟨fun one => congrArg (done s) (if_pos (lowest.trans one)),
      fun zero => congrArg (done s) (if_neg (Bool.eq_false_iff.mp (lowest.trans zero)))⟩
  case stored =>
    have free (j : Nat) (wide : j < 32) : s.admits (32 * w + j) = false := State.admits_false fun k slot => by
      rw [show 16 * (32 * w.val + j) + k = 512 * w.val + (16 * j + k) by omega]
      exact idle _ (by omega)
    refine ⟨_, rfl, ?_⟩
    rw [settle_reg, settle_fb]
    exact State.engHold_free free
  case refused =>
    have admits : s.admits (32 * w + j) = true := State.admits_true k.isLt (by
      rwa [show 16 * (32 * w.val + j.val) + k.val = 512 * w.val + 16 * j.val + k.val by omega])
    refine ⟨_, rfl, ?_⟩
    rw [settle_fbit, settle_fb]
    exact State.engHold_refused j.isLt ((BitVec.testBit_toNat v).trans asks) admits

end Sys2Proof.Machine
end

section
/-! PROOFS. What a fault-record entry and a trip leave of the registers of other blocks and of memory. -/

namespace Sys2Proof.Machine

variable {s u t : State}

/-- A field that no fault-record entry and no trip writes: it stands below the safe plane, and is no code or state of a DAC and no
TRIPOPEN of a bay (R372). -/
structure RF.Untripped (g : RF) : Prop where
  below : g.addr < SAFE_STAT_at
  code : ∀ n, g.addr ≠ DAC_CODE_at n
  stat : ∀ n, g.addr ≠ DAC_STAT_at n
  open_ : ∀ k, g.addr ≠ BAY_STATUS_at k ∨ g.lo ≤ g.hi ∧ (g.hi < 3 ∨ 3 < g.lo)

/-- What an entry or a trip changes is neither an untripped field nor a byte outside the retention store's page (R372, R433). -/
structure State.TripOnly (s u : State) : Prop where
  fld : ∀ g : RF, g.Untripped → u.fld g = s.fld g
  byte : ∀ x, x / 0x1000000 ≠ 0x51 → u.byte x = s.byte x

theorem State.TripOnly.refl (s : State) : s.TripOnly s := ⟨fun _ _ => rfl, fun _ _ => rfl⟩

theorem State.TripOnly.trans (h : s.TripOnly u) (g : u.TripOnly t) : s.TripOnly t :=
  ⟨fun f hf => (g.fld f hf).trans (h.fld f hf), fun x hx => (g.byte x hx).trans (h.byte x hx)⟩

/-- A change of other parts of the state. -/
theorem State.TripOnly.upd (h : s.TripOnly u) (hr : t.regs = u.regs) (hm : t.mem = u.mem) : s.TripOnly t :=
  h.trans ⟨fun g _ => State.fld_of_regs hr g, fun x _ => State.byte_of_mem hm x⟩

theorem State.TripOnly.foldl {β : Type} {f : State → β → State} (hf : ∀ (u : State) x, u.TripOnly (f u x)) (l : List β) (s : State) :
    s.TripOnly (l.foldl f s) :=
  List.foldlRecOn (motive := fun u => s.TripOnly u) l f (.refl s) fun u h x _ => h.trans (hf u x)

/-! ### Registers -/

theorem State.TripOnly.setFld (h : s.TripOnly u) (f : RF) (v : Nat)
    (apart : ∀ g : RF, g.Untripped → g.addr ≠ f.addr ∨ g.lo ≤ g.hi ∧ (g.hi < f.lo ∨ f.hi < g.lo)) : s.TripOnly (u.setFld f v) :=
  h.trans ⟨fun g hg => State.fld_setFld_apart u f g v (apart g hg), fun _ _ => rfl⟩

/-- A field of the safe plane or of a block above it. -/
theorem State.TripOnly.setSafe (h : s.TripOnly u) (f : RF) (v : Nat) (above : SAFE_STAT_at ≤ f.addr) : s.TripOnly (u.setFld f v) :=
  h.setFld f v fun _ hg => .inl (Nat.ne_of_lt (hg.below.trans_le above))

theorem State.TripOnly.setSafeReg (h : s.TripOnly u) (a : Nat) (w : Word) (above : SAFE_STAT_at ≤ a) : s.TripOnly (u.setReg a w) :=
  h.trans ⟨fun g hg => State.fld_setReg_other u g a w (Nat.ne_of_lt (hg.below.trans_le above)), fun _ _ => rfl⟩

/-! ### Records (R381, R385, R433) -/

theorem State.trace_tripOnly (kind : Nat) (time w1 w2 w3 : Word) : s.TripOnly (s.trace kind time w1 w2 w3) := by
  obtain ⟨regs, sil, n, same, fld⟩ := s.trace_same kind time w1 w2 w3
  rw [same]
  have below : SAFE_STAT_at < SILLAGE_STAT_at := by decide
  exact ⟨fun g hg => fld g (hg.below.trans below), fun _ _ => rfl⟩

theorem State.store_regs (s : State) (a n v : Nat) : (s.store a n v).regs = s.regs := by
  induction n generalizing s a v with
  | zero => rfl
  | succ n ih => exact ih (s.setByte a (BitVec.ofNat 8 v)) _ _

theorem State.retainPut_regs (s : State) (a : Nat) (ws : List Word) : (s.retainPut a ws).regs = s.regs := by
  induction ws generalizing s a with
  | nil => rfl
  | cons w r ih => exact (ih (s.retainWrite a 4 w.toNat) _).trans (State.store_regs s a 4 w.toNat)

/-- Words that the device stores in the retention store change no byte outside them. -/
theorem State.retainPut_byte_other (a x : Nat) (ws : List Word) (h : x < a ∨ a + 4 * ws.length ≤ x) :
    (s.retainPut a ws).byte x = s.byte x := by
  induction ws generalizing s a with
  | nil => rfl
  | cons w r ih =>
    rw [List.length_cons] at h
    exact (ih (s := s.retainWrite a 4 w.toNat) _ (by omega)).trans (State.byte_store_other _ _ _ _ _ (by omega))

theorem State.retainPut_tripOnly (a : Nat) (ws : List Word) (lo : 0x51000000 ≤ a) (hi : a + 4 * ws.length ≤ 0x52000000) :
    s.TripOnly (s.retainPut a ws) :=
  ⟨fun g _ => State.fld_of_regs (s.retainPut_regs _ _) g, fun _ hx => State.retainPut_byte_other _ _ _ (by omega)⟩

theorem State.retainEntry_tripOnly (ws : List Word) (short : ws.length ≤ 8) : s.TripOnly (s.retainEntry ws) := by
  have place : s.fld RETAIN_STAT_FRPOS < 2 ^ 8 := bits_lt _ _ _
  unfold State.retainEntry
  dsimp only
  split
  · exact (((State.TripOnly.refl s).setSafe RETAIN_CNT_FRSKIP _ (by decide)).setSafe RETAIN_IRQ_STAT_FRSKIP 1 (by decide)).upd rfl rfl
  · have stored := (State.retainPut_tripOnly (s := s) (0x51002000 + 32 * s.fld RETAIN_STAT_FRPOS) ws (by omega) (by omega)).trans
      (State.retainPut_tripOnly (0x51004800 + 8 * ((s.safe.ringGen + 1) % 16))
        [BitVec.ofNat 32 ((s.fld RETAIN_STAT_FRPOS + 1) % 256), BitVec.ofNat 32 (s.safe.ringGen + 1)] (by omega) (by show _ + 4 * 2 ≤ _; omega))
    exact (stored.setSafe RETAIN_STAT_FRPOS _ (by decide)).upd rfl rfl

/-- The seven words of a fault-record entry and their CRC stand in its register window. -/
theorem State.TripOnly.setRecord (h : s.TripOnly u) (e : Nat) (l : List (Nat × Word)) :
    s.TripOnly (l.foldl (fun s p => s.setReg (SAFE_FREC_at e p.1) p.2) u) :=
  h.trans (.foldl (fun v p => (State.TripOnly.refl v).setSafeReg _ _ (by unfold SAFE_STAT_at SAFE_FREC_at; omega)) l u)

theorem State.faultEntry_tripOnly (s : State) (kind cls source detail : Nat) : s.TripOnly (s.faultEntry kind cls source detail) := by
  unfold State.faultEntry
  dsimp only
  have begun (x : Safe) : s.TripOnly { s.fresh with safe := x } := (State.TripOnly.refl s).upd rfl rfl
  refine ((((((begun _).setRecord _ _).setSafe SAFE_FRSTAT_COUNT _ (by decide)).setSafe SAFE_FRSTAT_NEWEST _ (by decide)).setSafe
    SAFE_IRQ_STAT_FREC 1 (by decide)).trans (State.retainEntry_tripOnly _ ?_)).trans (State.trace_tripOnly _ _ _ _ _)
  exact Nat.le_refl 8

theorem State.sillageTrigger_tripOnly (s : State) : s.TripOnly s.sillageTrigger := by
  unfold State.sillageTrigger State.sillageFreeze
  split
  · exact (((State.TripOnly.refl s).setSafe SILLAGE_STAT_FROZEN 1 (by decide)).setSafe SILLAGE_IRQ_STAT_FROZEN 1 (by decide)).upd rfl rfl
  · exact (State.TripOnly.refl s).upd rfl rfl

/-! ### DACs (R200, R202, R203) -/

theorem State.TripOnly.loopBreak (h : s.TripOnly u) (n : Nat) : s.TripOnly (u.loopBreak n) := by
  unfold State.loopBreak
  dsimp only
  split
  · split
    · exact h.upd rfl rfl
    · exact h
  · exact h

/-- A field of the state of a DAC. -/
theorem State.TripOnly.setDacStat (h : s.TripOnly u) (f : RF) (v n : Nat) (at_ : f.addr = DAC_STAT_at n) : s.TripOnly (u.setFld f v) :=
  h.setFld f v fun _ hg => .inl (at_ ▸ hg.stat n)

theorem State.TripOnly.setDac (h : s.TripOnly u) (n : Nat) (x : Dac) : s.TripOnly (u.setDac n x) := h.upd rfl rfl

theorem State.TripOnly.dacTo (h : s.TripOnly u) (n st : Nat) : s.TripOnly (u.dacTo n st) := by
  have entered := (h.loopBreak n).setDacStat (DAC_STAT_STATE n) st n rfl
  unfold State.dacTo
  dsimp only
  split
  · exact entered
  · exact (entered.setDacStat (DAC_STAT_LIMITING n) 0 n rfl).setDac n _

theorem State.TripOnly.dacEndHold (h : s.TripOnly u) (n : Nat) : s.TripOnly (u.dacEndHold n) := by
  have code : s.TripOnly (u.putCode n (u.dacOf n).pendCode) := by
    unfold State.putCode
    refine State.TripOnly.setFld ?_ (DAC_CODE_CODE n) _ fun _ hg => .inl (hg.code n)
    split
    · exact h
    · exact h.loopBreak n
  exact code.setDacStat (DAC_STAT_GAINF n) _ n rfl

theorem State.dacForce_tripOnly (s : State) (n : Nat) : s.TripOnly (s.dacForce n) := by
  have role (x : Dac) : s.TripOnly (s.setDac n x) := (State.TripOnly.refl s).setDac n x
  unfold State.dacForce
  dsimp only
  split
  · exact role _
  split
  · exact (((role _).dacEndHold n).dacTo n _).setDacStat (DAC_STAT_CODEVALID n) 1 n rfl
  · exact (role _).dacTo n _

/-! ### Trips (R371 to R373) -/

theorem State.classNow_tripOnly (s : State) : s.TripOnly s.classNow := by
  have shown := (State.TripOnly.refl s).setSafe SAFE_STAT_DEVCLASS (b2n (s.tripClass == 2)) (by decide)
  unfold State.classNow State.dropAlive
  split
  · exact shown
  · exact shown.upd rfl rfl

theorem State.joinTrip_tripOnly (s : State) (m : Nat) : s.TripOnly (s.joinTrip m) :=
  (((State.TripOnly.refl s).setSafe SAFE_CAUSE_CAUSE _ (by decide)).trans (State.classNow_tripOnly _)).trans (State.faultEntry_tripOnly _ _ _ _ _)

theorem State.tripSwitches_tripOnly (s : State) : s.TripOnly s.tripSwitches :=
  .foldl (fun u k => (State.TripOnly.refl u).setFld (BAY_STATUS_TRIPOPEN k) 1 fun _ hg => hg.open_ k) _ _

theorem State.tripNow_tripOnly (s : State) (m : Nat) : s.TripOnly (s.tripNow m) := by
  have pads : s.TripOnly s.pinsTrip := (State.TripOnly.refl s).upd rfl rfl
  have raised := (((pads.trans (State.tripSwitches_tripOnly _)).setSafe SAFE_STAT_TRIPPED 1 (by decide)).setSafe SAFE_CAUSE_CAUSE 0
    (by decide)).setSafe SAFE_IRQ_STAT_TRIP 1 (by decide)
  have forced := (raised.trans (State.joinTrip_tripOnly _ m)).trans (.foldl State.dacForce_tripOnly (List.range 32) _)
  unfold State.tripNow
  dsimp only
  split
  · exact (forced.setSafe SILLAGE_STAT_TRIGGERED 1 (by decide)).trans (State.sillageTrigger_tripOnly _)
  · exact forced

theorem State.TripOnly.deposed (h : s.TripOnly u) : s.TripOnly u.deposed :=
  h.upd State.deposed_regs (by unfold State.deposed; split <;> rfl)

/-- Sources that arise change what a trip may change, where the entry of another kind that arises with them does (R373, R381). -/
theorem State.raiseWith_tripOnly (s : State) (m : Nat) {entry : State → State} (he : ∀ x : State, x.TripOnly (entry x)) :
    s.TripOnly (s.raiseWith m entry) := by
  unfold State.raiseWith
  dsimp only
  split
  · refine State.TripOnly.trans ?_ (he _)
    split
    · exact s.classNow_tripOnly
    · exact s.joinTrip_tripOnly _
  split
  · exact he s
  split
  · have hands (x : Safe) : s.TripOnly { s.setFld SAFE_STAT_HANDOVER 1 with safe := x } :=
      ((State.TripOnly.refl s).setSafe SAFE_STAT_HANDOVER 1 (by decide)).upd rfl rfl
    have low (p : Pair → Pair) (x : Safe) : s.TripOnly (State.withPair { s.setFld SAFE_STAT_HANDOVER 1 with safe := x } p) :=
      (hands x).upd rfl rfl
    exact ((low _ _).deposed.trans (he _)).trans (State.faultEntry_tripOnly _ _ _ _ _)
  split
  · refine State.TripOnly.trans ?_ (he _)
    split
    · exact (State.TripOnly.refl s).upd rfl rfl
    · exact s.tripNow_tripOnly _
  · exact (s.tripNow_tripOnly _).trans (he _)

end Sys2Proof.Machine
end

section
/-! PROOFS. Bays: switch measurements, the reference buffer, and the limits of amplifiers (O34). -/

namespace Sys2Proof.Machine

variable {s : State} {k : Nat}

/-! ### Converters, and fields that are cleared -/

@[simp] theorem State.adcOf_setAdc_same (n : Nat) (x : Adc) : (s.setAdc n x).adcOf n = x := tget_tset_same _ _ _ _

theorem State.adcOf_setAdc_other {m n : Nat} (x : Adc) (h : m ≠ n) : (s.setAdc n x).adcOf m = s.adcOf m := tget_tset_other _ _ _ _ _ _ h

theorem State.adcOf_of_adc {u : State} (h : u.adc = s.adc) (n : Nat) : u.adcOf n = s.adcOf n := by
  unfold State.adcOf; rw [h]

theorem State.reg_of_regs {u : State} (h : u.regs = s.regs) (a : Nat) : u.reg a = s.reg a := by
  unfold State.reg; rw [h]

/-- Where the bits of a field stand does not depend on its register. -/
theorem RF.fits {a hi lo : Nat} (h : lo ≤ hi ∧ hi < 32) : (RF.mk a hi lo).lo ≤ (RF.mk a hi lo).hi ∧ (RF.mk a hi lo).hi < 32 := h

/-- A field that is cleared reads as clear. -/
theorem State.fb_setFld_zero (f : RF) (h : f.lo ≤ f.hi ∧ f.hi < 32) : (s.setFld f 0).fb f = false := by
  unfold State.fb
  rw [State.fld_setFld_same _ _ _ h, Nat.zero_mod]
  rfl

theorem State.fb_setB_same (f : RF) (b : Bool) (h : f.lo ≤ f.hi ∧ f.hi < 32) : (s.setB f b).fb f = b := by
  cases b with
  | true => exact State.fb_setFld_one f h
  | false => exact State.fb_setFld_zero f h

/-! ### Borrowed conversions (R156) -/

/-- A waiting measurement changes nothing, or borrows one converter. -/
theorem State.rcalBorrow_cases (k : Nat) : s.rcalBorrow k = s ∨
    ∃ n, s.rcalBorrow k = s.setAdc n { s.adcOf n with borrowed := some 16 } := by
  unfold State.rcalBorrow
  split
  · exact .inl rfl
  · split
    · exact .inr ⟨_, rfl⟩
    · exact .inl rfl

@[simp] theorem State.rcalBorrow_regs (k : Nat) : (s.rcalBorrow k).regs = s.regs := by
  rcases s.rcalBorrow_cases k with e | ⟨n, e⟩ <;> rw [e]
  rfl

theorem State.rcalBorrow_lowAt (k m : Nat) : ((s.rcalBorrow k).adcOf m).lowAt = (s.adcOf m).lowAt := by
  rcases s.rcalBorrow_cases k with e | ⟨n, e⟩ <;> rw [e]
  by_cases h : m = n
  · rw [h, State.adcOf_setAdc_same]
  · rw [State.adcOf_setAdc_other _ h]

/-! ### Switch measurements (R140) -/

/-- The state after a write of BAY_RCAL_CMD has stored its fields. -/
def State.rcalNamed (s : State) (k : Nat) (v : Word) : State :=
  (s.setFld (BAY_RCAL_CMD_TRACK k) (bits v.toNat 12 8)).setFld (BAY_RCAL_CMD_TERM k) (bits v.toNat 5 0)

theorem State.rcalGo_stores {v : Word} (h : v.getLsbD 31 = false ∨ s.fb (BAY_RCAL_CMD_BUSY k) = true) : s.rcalGo k v = s.rcalNamed k v :=
  if_pos h

/-- A command with GO while idle is refused, or starts a measurement that waits for a converter. -/
theorem State.rcalGo_judged {v : Word} (go : v.getLsbD 31 = true) (idle : s.fb (BAY_RCAL_CMD_BUSY k) = false) : s.rcalGo k v =
    let u := (s.rcalNamed k v).setReg (BAY_RCAL_RESULT_at k) 0
    if u.rcalRefused k (bits v.toNat 5 0) (bits v.toNat 12 8) then (u.setFld (BAY_RCAL_RESULT_VALID k) 1).setFld (BAY_RCAL_RESULT_REFUSED k) 1
    else ({ u.setFld (BAY_RCAL_CMD_BUSY k) 1 with
      rcal := tset none u.rcal k (some ⟨bits v.toNat 5 0, bits v.toNat 12 8⟩) } : State).rcalBorrow k :=
  if_neg (by simp [idle, show v.toNat.testBit 31 = true from go])

/-- A converter of the bay serves its measurement: it is borrowed for it, or lends itself (R156). -/
def State.rcalServed (s : State) (k : Nat) : Bool :=
  s.borrowedFor (2 * k) 16 || s.lends (2 * k) || s.borrowedFor (2 * k + 1) 16 || s.lends (2 * k + 1)

theorem State.all_unserved : [2 * k, 2 * k + 1].all (fun n => !(s.borrowedFor n 16 || s.lends n)) = !s.rcalServed k := by
  simp [State.rcalServed, Bool.and_assoc]

theorem State.rcalDone_none (ron : Nat) (h : tget none s.rcal k = none ∨ s.rcalServed k = false) : s.rcalDone k ron = s := by
  unfold State.rcalDone
  rw [State.all_unserved, if_pos (by simpa using h)]

theorem State.rcalDone_some (ron : Nat) (runs : tget none s.rcal k ≠ none) (served : s.rcalServed k = true) :
    s.rcalDone k ron = s.rcalEnd k (some ron) := by
  unfold State.rcalDone
  rw [State.all_unserved, if_neg (by simp [runs, served])]

/-- A measurement that ends with a result is no longer in progress, and shows it. -/
theorem State.rcalEnd_some (ron : Nat) : let u := s.rcalEnd k (some ron)
    tget none u.rcal k = none ∧ u.fb (BAY_RCAL_CMD_BUSY k) = false ∧ u.fb (BAY_RCAL_RESULT_VALID k) = true ∧
      u.fb (BAY_IRQ_STAT_RCALDONE k) = true ∧ u.fld (BAY_RCAL_RESULT_RON k) = if ron > 65534 then 0xFFFF else ron := by
  intro u
  have cmd : BAY_RCAL_CMD_at k ≠ BAY_RCAL_RESULT_at k ∧ BAY_RCAL_CMD_at k ≠ BAY_IRQ_STAT_at k := by
    unfold BAY_RCAL_CMD_at BAY_RCAL_RESULT_at BAY_IRQ_STAT_at; omega
  have irq : BAY_IRQ_STAT_at k ≠ BAY_RCAL_RESULT_at k := by unfold BAY_RCAL_RESULT_at BAY_IRQ_STAT_at; omega
  unfold u State.rcalEnd
  dsimp only
  generalize List.foldl _ _ _ = t
  refine ⟨tget_tset_same none t.rcal k none, ?busy, ?valid, ?irq, ?ron⟩
  case busy =>
    rw [State.fb_setFld_apart _ _ _ (.inl cmd.1), State.fb_setFld_apart _ _ _ (.inl cmd.2), State.fb_setFld_apart _ _ _ (.inl cmd.1)]
    exact State.fb_setFld_zero _ (RF.fits (by decide))
  case valid =>
    rw [State.fb_setFld_apart _ _ _ (.inr (by simp)), State.fb_setFld_apart _ _ _ (.inl irq.symm)]
    exact State.fb_setFld_one _ (RF.fits (by decide))
  case irq =>
    rw [State.fb_setFld_apart _ _ _ (.inl irq)]
    exact State.fb_setFld_one _ (RF.fits (by decide))
  case ron => exact State.fld_setFld_fits (RF.fits (by decide)) (by show _ < 65536; split <;> omega)

/-! ### The reference buffer (R130, R141, R157) -/

/-- The reference of a bay is on: in regulation, enabled or left on by a held region, and past the boundary of tick 0. -/
def State.refOn (s : State) (k : Nat) (ok : Bool) : Bool :=
  ok && (s.fb (BAY_CTRL_REFEN k) || s.baySw.refs.testBit k) && !s.baySw.before.testBit k

section
variable {ok : Bool}

theorem State.refOk_stays (on : s.refOn k ok = true) (was : s.fb (BAY_STATUS_REF_OK k) = true) :
    s.refOk k ok = (s.setFld (BAY_STATUS_REF_OK k) 1).rcalBorrow k := by
  unfold State.refOn at on
  unfold State.refOk
  dsimp only
  rw [if_pos on, if_pos was, on]
  rfl

/-- A converter notes when its reference was off. -/
def State.noteLow (t : BitVec 64) (s : State) (n : Nat) : State := s.setAdc n { s.adcOf n with lowAt := some t }

theorem State.refOk_rises (on : s.refOn k ok = true) (was : s.fb (BAY_STATUS_REF_OK k) = false) : s.refOk k ok =
    ([2 * k, 2 * k + 1].foldl (State.noteLow (s.tb.now - 1)) (s.setB (BAY_STATUS_REF_OK k) true)).rcalBorrow k := by
  unfold State.refOn at on
  unfold State.refOk
  dsimp only
  rw [if_pos on, if_neg (by simp [was]), on]
  rfl

theorem State.refOk_falls (off : s.refOn k ok = false) : s.refOk k ok =
    [2 * k, 2 * k + 1].foldl (fun s' n => (State.noteLow s.tb.now s' n).endLoan n) (s.setB (BAY_STATUS_REF_OK k) false) := by
  unfold State.refOn at off
  unfold State.refOk
  dsimp only
  rw [if_neg (by simp [off]), off]
  rfl

end

/-- A step on one converter changes that converter by `g`, no other and no register. -/
structure ConverterStep (f : State → Nat → State) (g : Adc → Adc) : Prop where
  own : ∀ u n, (f u n).adcOf n = g (u.adcOf n)
  other : ∀ u {m n}, m ≠ n → (f u n).adcOf m = u.adcOf m
  regs : ∀ u n, (f u n).regs = u.regs

theorem noteLow_converterStep (t : BitVec 64) : ConverterStep (State.noteLow t) fun x => { x with lowAt := some t } :=
  ⟨fun _ _ => State.adcOf_setAdc_same _ _, fun _ _ _ h => State.adcOf_setAdc_other _ h, fun _ _ => rfl⟩

theorem endLoan_converterStep : ConverterStep State.endLoan fun x => { x with borrowed := none } :=
  ⟨fun _ _ => State.adcOf_setAdc_same _ _, fun _ _ _ h => State.adcOf_setAdc_other _ h, fun _ _ => rfl⟩

theorem ConverterStep.comp {f f' : State → Nat → State} {g g' : Adc → Adc} (h : ConverterStep f g) (h' : ConverterStep f' g') :
    ConverterStep (fun u n => f' (f u n) n) (g' ∘ g) :=
  ⟨fun u n => (h'.own _ n).trans (congrArg g' (h.own u n)), fun u _ _ apart => (h'.other _ apart).trans (h.other u apart),
    fun u n => (h'.regs _ n).trans (h.regs u n)⟩

/-- Both converters of a bay take the step. -/
theorem ConverterStep.pair {f : State → Nat → State} {g : Adc → Adc} (h : ConverterStep f g) (s : State) (k : Nat) :
    let u := [2 * k, 2 * k + 1].foldl f s
    u.adcOf (2 * k) = g (s.adcOf (2 * k)) ∧ u.adcOf (2 * k + 1) = g (s.adcOf (2 * k + 1)) ∧ u.regs = s.regs :=
  ⟨(h.other _ (by omega)).trans (h.own _ _), (h.own _ _).trans (congrArg g (h.other _ (by omega))), (h.regs _ _).trans (h.regs _ _)⟩

/-! ### Amplifiers (R127) -/

variable {j : Nat}

/-- An enabled amplifier that enters its limit sets its flag, and the interrupt where the flag was clear. -/
theorem State.ampLimit_enters (mode : s.fb (BAY_AMP_CFG_MODE k j) = true) (past : s.baySw.before.testBit k = false)
    (free : s.fb (BAY_STATUS_HELD k) = false) (clear : s.fbit (BAY_STATUS_AMPLIM k) j = false) :
    s.ampLimit k j true = (s.putBit (BAY_STATUS_AMPLIM k) j true).setFld (BAY_IRQ_STAT_AMPLIM k) 1 := by
  unfold State.ampLimit
  dsimp only
  rw [if_pos (by simp [mode, past, free]), if_neg (by simp [clear])]
  rfl

theorem State.ampLimit_leaves : s.ampLimit k j false = s.putBit (BAY_STATUS_AMPLIM k) j false := if_neg (by simp)

/-- Settles O34: each clause is one branch of the bay's operation; what a measurement borrows leaves the registers. -/
theorem baysMeasureAndWatch : Obligations.BaysMeasureAndWatch := by
  intro s k v ron ok j s1 s2 term track a on open_
  have measures {u : State} (ho : open_) (h : s.rcalGo k v = u) : exec (.rcalGo k v) s = .next (settle s u) :=
    congrArg (done s) ((State.bayGate_open _ _ ho).trans h)
  have status : BAY_STATUS_at k ≠ BAY_IRQ_STAT_at k := by unfold BAY_STATUS_at BAY_IRQ_STAT_at; omega
  refine ⟨fun held => congrArg (done s) (State.bayGate_held _ _ (by simpa [open_] using held)),
    fun ho go idle accepted => measures ho ((State.rcalGo_judged go idle).trans (if_neg (Bool.eq_false_iff.mp accepted))),
    fun ho go idle refused => measures ho ((State.rcalGo_judged go idle).trans (if_pos refused)),
    fun ho h => measures ho (State.rcalGo_stores h),
    fun runs served => ⟨_, congrArg (done s) (State.rcalDone_some ron runs served), ?ended⟩,
    fun h => congrArg (done s) (State.rcalDone_none ron h), rfl,
    fun h was => congrArg (done s) (State.refOk_stays h was),
    fun h was => ⟨_, congrArg (done s) (State.refOk_rises h was), ?rises⟩,
    fun h => ⟨_, congrArg (done s) (State.refOk_falls h), ?falls⟩,
    fun mode past free clear => ⟨_, congrArg (done s) (State.ampLimit_enters mode past free clear), ?enters⟩,
    ⟨_, congrArg (done s) State.ampLimit_leaves, ?leaves⟩⟩
  case ended =>
    rw [settle_rcal, settle_fb, settle_fb, settle_fb, settle_fld]
    exact State.rcalEnd_some ron
  case rises =>
    obtain ⟨low, low', regs⟩ := (noteLow_converterStep (s.tb.now - 1)).pair (s.setB (BAY_STATUS_REF_OK k) true) k
    rw [State.adcOf_of_adc (settle_adc _ _), State.adcOf_of_adc (settle_adc _ _), State.rcalBorrow_lowAt, State.rcalBorrow_lowAt, low, low',
      settle_fb, State.fb_of_regs ((State.rcalBorrow_regs _).trans regs)]
    refine ⟨State.fb_setB_same _ true (RF.fits (by decide)), rfl, rfl, fun b hb => ?_⟩
    rw [settle_reg, State.reg_of_regs ((State.rcalBorrow_regs _).trans regs)]
    exact State.reg_setReg_other _ _ _ _ hb
  case falls =>
    obtain ⟨low, low', regs⟩ := ((noteLow_converterStep s.tb.now).comp endLoan_converterStep).pair (s.setB (BAY_STATUS_REF_OK k) false) k
    rw [State.adcOf_of_adc (settle_adc _ _), State.adcOf_of_adc (settle_adc _ _), low, low', settle_fb, State.fb_of_regs regs]
    refine ⟨State.fb_setB_same _ false (RF.fits (by decide)), rfl, rfl, fun b hb => ?_⟩
    rw [settle_reg, State.reg_of_regs regs]
    exact State.reg_setReg_other _ _ _ _ hb
  case enters =>
    rw [settle_fbit, settle_fb]
    refine ⟨?_, State.fb_setFld_one _ (RF.fits (by decide))⟩
    unfold State.fbit
    rw [State.fld_setFld_other _ _ _ _ status]
    exact (State.fbit_putBit _ true j j (RF.fits (by decide)) (by show j.val < 8; omega)).trans (if_pos rfl)
  case leaves =>
    rw [settle_fbit]
    refine ⟨(State.fbit_putBit _ false j j (RF.fits (by decide)) (by show j.val < 8; omega)).trans (if_pos rfl), fun b hb => ?_⟩
    rw [settle_reg]
    exact State.reg_setReg_other _ _ _ _ hb

end Sys2Proof.Machine
end

section
/-! PROOFS. The in-service tester: passes, results and faults. -/

namespace Sys2Proof.Machine

variable {s u v : State}

/-! ### What moves the tester on (R368) -/

/-- A field that no pass of the tester writes: it is no cause of the tester's, and STARVED and PASSES lie beside it. -/
structure RF.Unpassed (g : RF) : Prop where
  irq : g.addr ≠ IST_IRQ_STAT_at
  stat : g.addr ≠ IST_STAT_at ∨ g.lo ≤ g.hi ∧ 7 < g.lo ∧ g.hi < 16

theorem RF.unpassed_captured : IST_STAT_FCAP.Unpassed := ⟨by decide, .inr (by decide)⟩

theorem RF.Unpassed.of_ne {g : RF} (irq : g.addr ≠ IST_IRQ_STAT_at) (stat : g.addr ≠ IST_STAT_at) : g.Unpassed := ⟨irq, .inl stat⟩

/-- The tester moves on: its own places and the flags of its passes change, and no failure starts or stops waiting for its repeat. -/
structure State.TesterOnly (s u : State) : Prop where
  same : ∃ r i, u = { s with regs := r, ist := i }
  fld : ∀ g : RF, g.Unpassed → u.fld g = s.fld g
  retry : u.ist.retry = s.ist.retry

theorem State.TesterOnly.refl (s : State) : s.TesterOnly s := ⟨⟨_, _, rfl⟩, fun _ _ => rfl, rfl⟩

theorem State.TesterOnly.trans (h : s.TesterOnly u) (g : u.TesterOnly v) : s.TesterOnly v := by
  obtain ⟨⟨r, i, rfl⟩, fld, retry⟩ := h
  obtain ⟨⟨r', i', rfl⟩, fld', retry'⟩ := g
  exact ⟨⟨_, _, rfl⟩, fun f hf => (fld' f hf).trans (fld f hf), retry'.trans retry⟩

theorem State.TesterOnly.fb (h : s.TesterOnly u) {g : RF} (hg : g.Unpassed) : u.fb g = s.fb g := by
  unfold State.fb; rw [h.fld g hg]

theorem State.TesterOnly.mem (h : s.TesterOnly u) : u.mem = s.mem := by
  obtain ⟨⟨r, i, rfl⟩, -⟩ := h
  rfl

/-- Only the tester's own places change. -/
theorem State.TesterOnly.setIst (s : State) {i : Ist} (h : i.retry = s.ist.retry) : s.TesterOnly { s with ist := i } :=
  ⟨⟨_, _, rfl⟩, fun _ _ => rfl, h⟩

theorem State.TesterOnly.setFld (h : s.TesterOnly u) (f : RF) (n : Nat)
    (apart : ∀ g : RF, g.Unpassed → g.addr ≠ f.addr ∨ g.lo ≤ g.hi ∧ (g.hi < f.lo ∨ f.hi < g.lo)) : s.TesterOnly (u.setFld f n) :=
  h.trans ⟨⟨_, _, rfl⟩, fun g hg => State.fld_setFld_apart u f g n (apart g hg), rfl⟩

theorem State.istPass_tester (s : State) (kind : Nat) : s.TesterOnly (s.istPass kind) := by
  have fed := ((State.TesterOnly.refl s).setFld IST_STAT_STARVED (s.fld IST_STAT_STARVED - (s.fld IST_STAT_STARVED &&& 2 ^ (kind - 1)))
    fun _ hg => hg.stat.imp id fun ⟨wide, lo, _⟩ => ⟨wide, .inr lo⟩)
  have begun := fed.trans (.setIst _ (i := { s.ist with since := tset 0 s.ist.since kind s.tb.now }) rfl)
  unfold State.istPass
  dsimp only
  split
  · have counted := (begun.setFld IST_STAT_PASSES
      ((State.fld { s.offBit IST_STAT_STARVED (kind - 1) with ist := { s.ist with since := tset 0 s.ist.since kind s.tb.now } }
        IST_STAT_PASSES + 1) % 2 ^ 16) fun _ hg => hg.stat.imp id fun ⟨wide, _, hi⟩ => ⟨wide, .inl hi⟩).setFld IST_IRQ_STAT_PASS 1
          fun _ hg => .inl hg.irq
    exact counted.trans (.setIst _ rfl)
  · exact begun.trans (.setIst _ rfl)

theorem State.istPass_ist (kind : Nat) : ∃ p t, (s.istPass kind).ist = { s.ist with passed := p, since := t } := by
  unfold State.istPass
  dsimp only
  split
  · exact ⟨_, _, rfl⟩
  · exact ⟨_, _, rfl⟩

/-- A pass notes the group it has done with, and with the last of its groups it is a full pass. -/
theorem State.istCover_cases (kind n : Nat) : ∃ c, s.istCover kind n = { s with ist := { s.ist with covered := c } } ∨
    s.istCover kind n = ({ s with ist := { s.ist with covered := c } } : State).istPass kind := by
  unfold State.istCover
  dsimp only
  generalize (if s.ist.covered.contains (kind, n) then s.ist.covered else (kind, n) :: s.ist.covered) = l
  split
  · exact ⟨_, .inr rfl⟩
  · exact ⟨_, .inl rfl⟩

theorem State.istCover_tester (s : State) (kind n : Nat) : s.TesterOnly (s.istCover kind n) := by
  obtain ⟨c, e | e⟩ := s.istCover_cases kind n
  · exact e ▸ .setIst s rfl
  · exact e ▸ (State.TesterOnly.setIst s (i := { s.ist with covered := c }) rfl).trans (State.istPass_tester _ kind)

/-- A pass that has done with a group leaves the walks, the tests and the counts. -/
theorem State.istCover_ist (s : State) (kind n : Nat) : ∃ c p t,
    (s.istCover kind n).ist = { s.ist with covered := c, passed := p, since := t } := by
  obtain ⟨c, e | e⟩ := s.istCover_cases kind n
  · exact ⟨c, _, _, congrArg State.ist e⟩
  · obtain ⟨p, t, passed⟩ := State.istPass_ist (s := { s with ist := { s.ist with covered := c } }) kind
    exact ⟨c, p, t, (congrArg State.ist e).trans passed⟩

/-- The cycles left of a tick do not depend on the tester. -/
theorem State.TesterOnly.sectLeft (h : s.TesterOnly u) (k : Nat) : u.sectLeft k = s.sectLeft k := by
  obtain ⟨⟨r, i, rfl⟩, fld, -⟩ := h
  have sdiv : (CLK_SECT_SDIV k).Unpassed :=
    .of_ne (by unfold CLK_SECT_SDIV CLK_SECT_at IST_IRQ_STAT_at; dsimp only; omega)
      (by unfold CLK_SECT_SDIV CLK_SECT_at IST_STAT_at; dsimp only; omega)
  unfold State.sectLeft State.toSect
  dsimp only
  rw [fld TB_TICKLEN_CYCLES (.of_ne (by decide) (by decide)), fld CLK_CORE_M (.of_ne (by decide) (by decide)), fld _ sdiv]

/-! ### Results and faults (R368) -/

variable {key : Nat × Nat × Nat} {addr : Nat} {data : Word}

theorem State.istResult_pass : s.istResult key addr data true = { s with ist := { s.ist with retry := s.ist.retry.erase key } } := rfl

theorem State.istResult_first (first : s.ist.retry.contains key = false) :
    s.istResult key addr data false = { s with ist := { s.ist with retry := s.ist.retry ++ [key] } } :=
  if_neg (Bool.eq_false_iff.mp first)

theorem State.istResult_repeat (again : s.ist.retry.contains key = true) : s.istResult key addr data false =
    ({ s with ist := { s.ist with retry := s.ist.retry.erase key } } : State).istFault key.1 key.2.1 addr data :=
  if_pos again

/-- A fault is counted, and captured where none is. -/
def State.istCaptured (s : State) (kind unit addr : Nat) (data : Word) : State :=
  let s1 := s.addSat IST_CNT_FAULTS 1
  if s1.fb IST_STAT_FCAP then s1
  else ((((s1.setFld IST_FKIND_KIND kind).setFld IST_FKIND_UNIT unit).setFld IST_FADDR_ADDR addr).setReg IST_FDATA_at data).setFld
    IST_STAT_FCAP 1

variable {kind unit : Nat}

theorem State.istCaptured_captured : (s.istCaptured kind unit addr data).fb IST_STAT_FCAP = true := by
  unfold State.istCaptured
  dsimp only
  split
  · assumption
  · exact State.fb_setFld_one _ (by decide)

theorem State.istCaptured_mem : (s.istCaptured kind unit addr data).mem = s.mem := by
  unfold State.istCaptured
  dsimp only
  split
  · rfl
  · rfl

/-- A field of a block below the tester. -/
theorem State.istCaptured_fld {g : RF} (below : g.addr < IST_CFG_at) : (s.istCaptured kind unit addr data).fld g = s.fld g := by
  have counted : (s.addSat IST_CNT_FAULTS 1).fld g = s.fld g := State.fld_setFld_other _ _ _ _ (Nat.ne_of_lt (below.trans (by decide)))
  unfold State.istCaptured
  dsimp only
  split
  · exact counted
  · rw [State.fld_setFld_other _ _ _ _ (Nat.ne_of_lt (below.trans (by decide))),
      State.fld_setReg_other _ _ _ _ (Nat.ne_of_lt (below.trans (by decide))),
      State.fld_setFld_other _ _ _ _ (Nat.ne_of_lt (below.trans (by decide))),
      State.fld_setFld_other _ _ _ _ (Nat.ne_of_lt (below.trans (by decide))),
      State.fld_setFld_other _ _ _ _ (Nat.ne_of_lt (below.trans (by decide))), counted]

/-- Behind its capture and its interrupt, a fault changes only what an entry or a trip may change. -/
theorem State.istFault_tripOnly (s : State) (kind unit addr : Nat) (data : Word) : ∃ met,
    ((s.istCaptured kind unit addr data).raise IST_IRQ_STAT_FAULT met).TripOnly (s.istFault kind unit addr data) := by
  have entry (x : State) : x.TripOnly ((x.faultEntry 5 0 kind unit).trace 7 x.stamp
      (BitVec.ofNat 32 (kind * 2 ^ 24 + unit)) (BitVec.ofNat 32 addr) data) :=
    (State.faultEntry_tripOnly x _ _ _ _).trans (State.trace_tripOnly _ _ _ _ _)
  unfold State.istFault
  dsimp only
  split
  · exact ⟨false, entry _⟩
  · exact ⟨true, entry _⟩
  · exact ⟨true, State.raiseWith_tripOnly _ _ entry⟩
  · exact ⟨true, State.raiseWith_tripOnly _ _ entry⟩

/-- A fault is captured, and no byte outside the retention store's page has changed. -/
structure State.Captures (s u : State) : Prop where
  captured : u.fb IST_STAT_FCAP = true
  byte : ∀ x, x / 0x1000000 ≠ 0x51 → u.byte x = s.byte x

theorem RF.untripped_captured : IST_STAT_FCAP.Untripped where
  below := by decide
  code n := by show 0x4000d004 ≠ DAC_CODE_at n; unfold DAC_CODE_at; omega
  stat n := by show 0x4000d004 ≠ DAC_STAT_at n; unfold DAC_STAT_at; omega
  open_ _ := .inr (by decide)

theorem State.istFault_captures (s : State) (kind unit addr : Nat) (data : Word) : s.Captures (s.istFault kind unit addr data) := by
  obtain ⟨met, fld, byte⟩ := s.istFault_tripOnly kind unit addr data
  refine ⟨?_, fun x hx => (byte x hx).trans (State.byte_of_mem ?_ x)⟩
  · unfold State.fb
    rw [fld _ RF.untripped_captured, State.raise_fld_apart _ (.inl (by decide))]
    exact State.istCaptured_captured
  · cases met <;> exact State.istCaptured_mem

theorem State.istFault_fld {g : RF} (below : g.addr < IST_CFG_at) (free : g.Untripped) : (s.istFault kind unit addr data).fld g = s.fld g := by
  obtain ⟨met, fld, -⟩ := s.istFault_tripOnly kind unit addr data
  rw [fld g free, State.raise_fld_apart _ (.inl (Nat.ne_of_lt (below.trans (by decide)))), State.istCaptured_fld below]

theorem State.Captures.settled (h : s.Captures u) : ∃ v, done s u = .next v ∧ v.fb IST_STAT_FCAP = true ∧
    ∀ x, x / 0x1000000 ≠ 0x51 → v.byte x = s.byte x :=
  ⟨_, rfl, (settle_fb _ _ _).trans h.captured, fun x hx => (settle_byte _ _ _).trans (h.byte x hx)⟩

theorem State.Captures.then_ (h : s.Captures u) (g : u.TesterOnly v) : s.Captures v :=
  ⟨(g.fb RF.unpassed_captured).trans h.captured, fun x hx => (State.byte_of_mem g.mem x).trans (h.byte x hx)⟩

/-- A failure of the repeat is captured as a fault. -/
theorem State.istResult_captures (again : s.ist.retry.contains key = true) : s.Captures (s.istResult key addr data false) := by
  rw [State.istResult_repeat again]
  exact ⟨(State.istFault_captures _ _ _ _ _).captured, (State.istFault_captures _ _ _ _ _).byte⟩

theorem State.istResult_fld {g : RF} (ok : Bool) (below : g.addr < IST_CFG_at) (free : g.Untripped) :
    (s.istResult key addr data ok).fld g = s.fld g := by
  cases ok with
  | true => rfl
  | false =>
    cases again : s.ist.retry.contains key with
    | true => rw [State.istResult_repeat again]; exact State.istFault_fld below free
    | false => rw [State.istResult_first again]; rfl

theorem State.istSettles_false : s.istSettles key false = s.ist.retry.contains key := Bool.false_or _

theorem State.istSettles_true : s.istSettles key true = true := Bool.true_or _

end Sys2Proof.Machine
end

section
/-! PROOFS. Signature programs of the engines, and the walks of the march tests. -/

namespace Sys2Proof.Machine

variable {s : State}

/-! ### Signature programs (R364) -/

section
variable {n : Nat} {sig : Word}

/-- The program of the ROM that an engine runs next. -/
def State.progOf (s : State) (n : Nat) : Nat := tget 0 s.ist.prog n

/-- An engine goes on to the program behind the one it has run. -/
def State.progOn (s : State) (n i : Nat) : State := { s with ist := { s.ist with prog := tset 0 s.ist.prog n ((i + 1) % 16) } }

theorem State.istSignature_none (h : s.istOn 1 = false ∨ s.istTile n = false ∨
    s.sectLeft (n / 16) < min 240 (Config.programCycles (s.progOf n)) + 18) : s.istSignature n sig = s := if_pos h

variable (on : s.istOn 1 = true) (tile : s.istTile n = true)
  (room : min 240 (Config.programCycles (s.progOf n)) + 18 ≤ s.sectLeft (n / 16))
include on tile room

theorem State.istSignature_judged {ok : Bool} (judged : (sig == Config.signature (s.progOf n)) = ok) : s.istSignature n sig =
    if s.istSettles (1, n, s.progOf n) ok = false then s.istResult (1, n, s.progOf n) 0 sig ok
    else if s.progOf n = 15 then ((s.istResult (1, n, s.progOf n) 0 sig ok).progOn n (s.progOf n)).istCover 1 n
    else (s.istResult (1, n, s.progOf n) 0 sig ok).progOn n (s.progOf n) := by
  subst judged
  exact if_neg (not_or.mpr ⟨by simp [on], not_or.mpr ⟨by simp [tile], Nat.not_lt.mpr room⟩⟩)

/-- A good signature that is not the last of the ROM moves the engine on to the next program. -/
theorem State.istSignature_good (good : sig = Config.signature (s.progOf n)) (more : s.progOf n < 15) :
    s.istSignature n sig = { s with ist := { s.ist with
      retry := s.ist.retry.erase (1, n, s.progOf n), prog := tset 0 s.ist.prog n (s.progOf n + 1) } } := by
  rw [State.istSignature_judged on tile room (beq_iff_eq.mpr good), State.istSettles_true, if_neg (by decide), if_neg (by omega),
    State.istResult_pass, State.progOn, Nat.mod_eq_of_lt (by omega)]

variable (bad : sig ≠ Config.signature (s.progOf n))
include bad

theorem State.istSignature_first (first : s.ist.retry.contains (1, n, s.progOf n) = false) :
    s.istSignature n sig = { s with ist := { s.ist with retry := s.ist.retry ++ [(1, n, s.progOf n)] } } := by
  rw [State.istSignature_judged on tile room (beq_eq_false_iff_ne.mpr bad), if_pos (State.istSettles_false.trans first),
    State.istResult_first first]

theorem State.istSignature_captures (again : s.ist.retry.contains (1, n, s.progOf n) = true) : s.Captures (s.istSignature n sig) := by
  have next : s.Captures ((s.istResult (1, n, s.progOf n) 0 sig false).progOn n (s.progOf n)) :=
    (State.istResult_captures again).then_ (.setIst _ rfl)
  rw [State.istSignature_judged on tile room (beq_eq_false_iff_ne.mpr bad), if_neg (by rw [State.istSettles_false, again]; decide)]
  split
  · exact next.then_ (State.istCover_tester _ _ _)
  · exact next

end

/-! ### March walks (R365) -/

section
variable {tile : Bool} {k n : Nat} {m : March}

@[simp] theorem State.marchOf_setMarch_same : (s.setMarch tile k m).marchOf tile k = m := by
  cases tile <;> exact tget_tset_same _ _ _ _

theorem State.setMarch_tester (s : State) (tile : Bool) (k : Nat) (m : March) : s.TesterOnly (s.setMarch tile k m) := by
  cases tile <;> exact .setIst s rfl

/-- The walk of a sector stays where a pass is noted. -/
theorem State.istCover_marchOf (kind : Nat) : (s.istCover kind n).marchOf tile k = s.marchOf tile k := by
  obtain ⟨c, p, t, e⟩ := s.istCover_ist kind n
  unfold State.marchOf
  rw [e]

theorem State.marchAt_cases : s.marchAt tile k m = s.setMarch tile k (s.marchSkip tile k m 16) ∨
    s.marchAt tile k m = (s.setMarch tile k marchReset).istCover (if tile then 3 else 2) k := by
  unfold State.marchAt
  dsimp only
  split
  · exact .inl rfl
  · exact .inr rfl

theorem State.marchAt_tester (s : State) (tile : Bool) (k : Nat) (m : March) : s.TesterOnly (s.marchAt tile k m) := by
  rcases s.marchAt_cases (tile := tile) (k := k) (m := m) with e | e <;> rw [e]
  · exact s.setMarch_tester _ _ _
  · exact (s.setMarch_tester _ _ _).trans (State.istCover_tester _ _ _)

/-- A walk with no window under test passes held tiles to a place with none. -/
theorem State.marchSkip_idle (idle : m.busy = false) : (s.marchSkip tile k m n).busy = false := by
  induction n generalizing m with
  | zero => exact idle
  | succ n ih =>
    unfold State.marchSkip
    split
    · exact ih rfl
    · exact idle

theorem State.marchAt_idle (idle : m.busy = false) : ((s.marchAt tile k m).marchOf tile k).busy = false := by
  rcases s.marchAt_cases (tile := tile) (k := k) (m := m) with e | e <;> rw [e]
  · rw [State.marchOf_setMarch_same]
    exact State.marchSkip_idle idle
  · rw [State.istCover_marchOf, State.marchOf_setMarch_same]
    rfl

/-- A walk within its sector whose tile, if it walks through tiles, is not held stands where it is. -/
theorem State.marchAt_stays (inside : m.unit < marchUnits tile) (free : tile = true → s.tileHeld (16 * k + m.unit) = false) :
    s.marchAt tile k m = s.setMarch tile k m := by
  have stays : s.marchSkip tile k m 16 = m := if_neg (by
    cases tile with
    | true => simp [free rfl]
    | false => simp)
  unfold State.marchAt
  dsimp only
  rw [stays, if_pos inside]

/-- Behind a window that was abandoned a walk is still in its unit, where that window waits. -/
theorem March.step_again_unit : (m.step tile true).unit = m.unit := by
  unfold March.step
  dsimp only
  rw [if_pos (.inr (by simp))]

theorem State.march_runs {word : Nat} {diff : BitVec 39} {starts : Bool} (on : s.istOn (if tile then 3 else 2) = true)
    (free : s.istSkips (if tile then 3 else 2) k = false) : s.march tile k n word diff starts =
    if starts then s.marchStart tile k n else s.marchEnd tile k n word diff :=
  if_neg (by simp [on, free])

/-- The window that a walk has reached comes under test. -/
theorem State.marchStart_begins (idle : (s.marchOf tile k).busy = false) (unit : (s.marchOf tile k).unit = n)
    (inside : n < marchUnits tile) (room : tile = true → s.istTile (16 * k + n) = true ∧ 1536 ≤ s.sectLeft k) :
    s.marchStart tile k n = (s.setMarch tile k (s.marchOf tile k)).setMarch tile k { s.marchOf tile k with busy := true } := by
  have stays := s.marchAt_stays (tile := tile) (k := k) (m := s.marchOf tile k) (unit ▸ inside) fun h => by
    have free := (room h).1
    unfold State.istTile at free
    rw [unit]
    simpa using (Bool.and_eq_true_iff.mp (Bool.and_eq_true_iff.mp free).1).2
  have left : (s.setMarch tile k (s.marchOf tile k)).sectLeft k = s.sectLeft k := (s.setMarch_tester _ _ _).sectLeft k
  have tested : tile = true → (s.setMarch tile k (s.marchOf tile k)).istTile (16 * k + n) = true := fun h => by
    subst h
    exact (room rfl).1
  unfold State.marchStart
  dsimp only
  rw [if_neg (Bool.eq_false_iff.mp idle), stays, State.marchOf_setMarch_same, if_neg]
  rw [left, idle, unit]
  rintro (h | h | ⟨h, late⟩)
  · exact Bool.false_ne_true h
  · exact h rfl
  · rcases late with untested | late
    · exact Bool.false_ne_true (untested.symm.trans (tested h))
    · exact Nat.not_lt.mpr (room h).2 late

/-- A tile's window does not come under test with fewer than 1,536 cycles left. -/
theorem State.marchStart_late (idle : (s.marchOf true k).busy = false) (late : s.sectLeft k < 1536) :
    ((s.marchStart true k n).marchOf true k).busy = false := by
  unfold State.marchStart
  dsimp only
  rw [if_neg (Bool.eq_false_iff.mp idle), if_pos (.inr (.inr ⟨rfl, .inr (((s.marchAt_tester _ _ _).sectLeft k).symm ▸ late)⟩))]
  exact State.marchAt_idle idle

/-- What a march result settles: the kind of the test, its bank or tile, and the window. -/
def March.key (m : March) (tile : Bool) (k n : Nat) : Nat × Nat × Nat :=
  (if tile then 3 else 2, if tile then 16 * k + n else 8 * k + n, m.target tile)

section
variable {word : Nat} {diff : BitVec 39} (busy : (s.marchOf tile k).busy = true) (unit : (s.marchOf tile k).unit = n)
include busy unit

theorem State.marchEnd_abandoned (hit : (s.marchOf tile k).hit = true) :
    s.marchEnd tile k n word diff = s.marchAt tile k ((s.marchOf tile k).step tile true) :=
  (if_neg (by simp [busy, unit])).trans (if_pos hit)

variable (clean : (s.marchOf tile k).hit = false)
include clean

theorem State.marchEnd_judged : s.marchEnd tile k n word diff =
    let m := s.marchOf tile k
    let u := s.istResult (m.key tile k n) (if diff = 0 then 0 else m.base tile k + 4 * word) (diff.setWidth 32) (diff == 0)
    if s.istSettles (m.key tile k n) (diff == 0) then u.marchAt tile k (m.step tile false) else u.setMarch tile k { m with busy := false } :=
  (if_neg (by simp [busy, unit])).trans (if_neg (by simp [clean]))

theorem State.marchEnd_good : s.marchEnd tile k n word 0 = State.marchAt
    { s with ist := { s.ist with retry := s.ist.retry.erase ((s.marchOf tile k).key tile k n) } } tile k ((s.marchOf tile k).step tile false) :=
  (State.marchEnd_judged busy unit clean).trans (if_pos State.istSettles_true)

theorem State.marchEnd_first (bad : diff ≠ 0) (first : s.ist.retry.contains ((s.marchOf tile k).key tile k n) = false) :
    s.marchEnd tile k n word diff = State.setMarch
      { s with ist := { s.ist with retry := s.ist.retry ++ [(s.marchOf tile k).key tile k n] } } tile k { s.marchOf tile k with busy := false } := by
  rw [State.marchEnd_judged busy unit clean, beq_eq_false_iff_ne.mpr bad]
  dsimp only
  rw [if_neg (Bool.eq_false_iff.mp (State.istSettles_false.trans first)), State.istResult_first first]

theorem State.marchEnd_captures (bad : diff ≠ 0) (again : s.ist.retry.contains ((s.marchOf tile k).key tile k n) = true) :
    s.Captures (s.marchEnd tile k n word diff) := by
  rw [State.marchEnd_judged busy unit clean, beq_eq_false_iff_ne.mpr bad]
  dsimp only
  rw [if_pos (State.istSettles_false.trans again)]
  exact (State.istResult_captures again).then_ (State.marchAt_tester _ _ _ _)

end
end

end Sys2Proof.Machine
end

section
/-! PROOFS. Converter tests of the in-service tester, on conversions that it borrows. -/

namespace Sys2Proof.Machine

variable {s u : State} {q unit arg n k : Nat} {d : Word}

@[simp] theorem State.bayTests_setBayTests_same (b : BayTests) : (s.setBayTests k b).bayTests k = b := tget_tset_same _ _ _ _

theorem State.bayTests_of_ist (h : u.ist.bay = s.ist.bay) (k : Nat) : u.bayTests k = s.bayTests k := by
  unfold State.bayTests; rw [h]

/-! ### Begin and end (R156, R366) -/

theorem State.istConversion_runs (starts : Bool) (released : s.pwr.released = true) (awake : s.awake = true)
    (free : s.istSkips q (istBay q unit) = false) :
    s.istConversion q unit arg d starts = if starts then s.istBegin q unit arg else s.istEnd q unit arg d :=
  if_neg (by simp [released, awake, free])

theorem State.istBegin_none (none : s.istConv q unit = none) : s.istBegin q unit arg = s := by
  unfold State.istBegin
  dsimp only
  rw [none]

/-- A test that is due, in a bay where none runs, borrows its converter. -/
theorem State.istBegin_borrows (conv : s.istConv q unit = some n) (calm : (s.bayTests (istBay q unit)).run = none)
    (due : (q = 6 ∧ arg = 0) ∨ s.istOn q = true ∧
      (s.istNext (istBay q unit)).any (fun j => istNth (istBay q unit) j == (q, unit, arg)) = true) :
    s.istBegin q unit arg = (s.setAdc n { s.adcOf n with borrowed := some q }).setBayTests (istBay q unit)
      { s.bayTests (istBay q unit) with run := some ⟨q, unit, arg, n, false⟩ } := by
  unfold State.istBegin
  dsimp only
  rw [conv]
  exact if_neg (not_or.mpr ⟨by simp [calm], not_not.mpr due⟩)

/-- The test of a bay has ended, and its converter is its own again. -/
def State.unlend (s : State) (k n : Nat) : State :=
  (s.setBayTests k { s.bayTests k with run := none }).endLoan n

theorem State.istEnd_judged (run : (s.bayTests (istBay q unit)).run = some ⟨q, unit, arg, n, false⟩) (lent : s.borrowedFor n q = true) :
    s.istEnd q unit arg d = ((s.unlend (istBay q unit) n).istJudge ⟨q, unit, arg, n, false⟩ d).rcalBorrow (istBay q unit) := by
  unfold State.istEnd
  dsimp only
  rw [run]
  dsimp only
  rw [if_neg (by simp), if_neg (by simp [lent]), if_neg Bool.false_ne_true]
  rfl

@[simp] theorem State.rcalBorrow_ist (k : Nat) : (s.rcalBorrow k).ist = s.ist := by
  rcases s.rcalBorrow_cases k with e | ⟨n, e⟩ <;> rw [e]
  rfl

/-! ### Judgement (R137, R366, R368) -/

/-- The pass goes on in a bay: no test of any bay begins or ends. -/
structure State.GoesOn (s u : State) : Prop where
  tester : s.TesterOnly u
  run : ∀ j, (u.bayTests j).run = (s.bayTests j).run

theorem State.GoesOn.refl (s : State) : s.GoesOn s := ⟨.refl s, fun _ => rfl⟩

theorem State.GoesOn.cover (h : s.GoesOn u) (kind n : Nat) : s.GoesOn (u.istCover kind n) := by
  obtain ⟨c, p, t, e⟩ := u.istCover_ist kind n
  exact ⟨h.tester.trans (u.istCover_tester kind n),
    fun j => (congrArg BayTests.run (State.bayTests_of_ist (by rw [e]) j)).trans (h.run j)⟩

theorem State.istGoOn_goesOn (s : State) (k p : Nat) : s.GoesOn (s.istGoOn k p) := by
  have moved (pos : Nat) : s.GoesOn (s.setBayTests k { s.bayTests k with pos := pos }) := by
    refine ⟨.setIst s rfl, fun j => ?_⟩
    by_cases h : j = k
    · rw [h, State.bayTests_setBayTests_same]
    · exact congrArg BayTests.run (tget_tset_other _ _ _ _ _ _ h)
  unfold State.istGoOn
  dsimp only
  refine List.foldlRecOn (motive := s.GoesOn) _ _ (moved _) fun u h e _ => ?_
  split
  · exact h.cover _ _
  · exact h

/-- The judgement of a measured value: within the limit of its test, or in the range of a switch. -/
def State.istOk (s : State) (r : Loan) (d : Word) : Bool :=
  let x := s.istIdeal r.kind r.unit r.arg
  if r.kind = 6 then decide (1600 ≤ d.toNat ∧ d.toNat ≤ 6400) else decide ((d.toInt - x.1).natAbs ≤ x.2.natAbs)

/-- A measurement of the replica writes RON first, whether or not its kind is enabled (R137). -/
def State.ronNoted (s : State) (r : Loan) (d : Word) : State :=
  if r.kind = 6 ∧ r.arg = 0 then s.ronResult (istBay r.kind r.unit) d.toNat else s

variable {r : Loan}

theorem State.istJudge_off (off : (s.ronNoted r d).istOn r.kind = false) : s.istJudge r d = s.ronNoted r d := by
  unfold State.ronNoted at *
  unfold State.istJudge
  dsimp only
  rw [if_pos off]

/-- The result of a test is that of its judgement, and behind it the pass of the bay may go on. -/
theorem State.istJudge_on (on : (s.ronNoted r d).istOn r.kind = true) : ∃ addr,
    ((s.ronNoted r d).istResult (r.kind, r.unit, r.arg) addr d (s.istOk r d)).GoesOn (s.istJudge r d) := by
  have noted : (if r.kind = 6 ∧ r.arg = 0 then s.ronResult (istBay r.kind r.unit) d.toNat else s) = s.ronNoted r d := rfl
  have judged : (if r.kind = 6 then decide (1600 ≤ d.toNat ∧ d.toNat ≤ 6400)
      else decide ((d.toInt - (s.istIdeal r.kind r.unit r.arg).1).natAbs ≤ (s.istIdeal r.kind r.unit r.arg).2.natAbs)) = s.istOk r d := rfl
  unfold State.istJudge
  dsimp only
  rw [noted, judged, if_neg (show ¬ (s.ronNoted r d).istOn r.kind = false by simp [on])]
  split
  · split
    · exact ⟨_, State.istGoOn_goesOn _ _ _⟩
    · exact ⟨_, .refl _⟩
  · exact ⟨_, .refl _⟩

end Sys2Proof.Machine
end

section
/-! PROOFS. The replica, line windows, starved kinds, the scrubber and voted items; tests and scrubbing find faults (O52). -/

namespace Sys2Proof.Machine

variable {s : State} {k n : Nat} {d : Word}

/-! ### The replica (R137) -/

/-- A field of a bay that no trip writes. -/
theorem RF.Untripped.of_bay {g : RF} (bay : g.addr < 0x30100000) (analog : g.addr % 0x10000 < 0x8000)
    (open_ : ∀ k, g.addr ≠ BAY_STATUS_at k ∨ g.lo ≤ g.hi ∧ (g.hi < 3 ∨ 3 < g.lo)) : g.Untripped where
  below := bay.trans (by decide)
  code n := by unfold DAC_CODE_at; omega
  stat n := by unfold DAC_STAT_at; omega
  open_ := open_

theorem State.istJudge_fld {r : Loan} {g : RF} (below : g.addr < IST_CFG_at) (free : g.Untripped) :
    (s.istJudge r d).fld g = (s.ronNoted r d).fld g := by
  cases on : (s.ronNoted r d).istOn r.kind with
  | false => rw [State.istJudge_off on]
  | true =>
    obtain ⟨addr, goes⟩ := State.istJudge_on on
    have beside : g.Unpassed := .of_ne (Nat.ne_of_lt (below.trans (by decide))) (Nat.ne_of_lt (below.trans (by decide)))
    rw [goes.tester.fld g beside, State.istResult_fld _ below free]

/-- A measurement of the replica ends RONSTALE, and writes RON where it lies in its range. -/
theorem State.ronResult_fields (ron : Nat) : let u := s.ronResult k ron
    u.fb (BAY_STATUS_RONSTALE k) = false ∧
    (1600 ≤ ron → ron ≤ 6400 → u.fld (BAY_RONREP_RON k) = ron ∧ u.fb (BAY_STATUS_RONVALID k) = true) ∧
    (ron < 1600 ∨ 6400 < ron → u.fb (BAY_IRQ_STAT_RONRANGE k) = true) := by
  intro u
  have status : BAY_RONREP_at k ≠ BAY_STATUS_at k ∧ BAY_IRQ_STAT_at k ≠ BAY_STATUS_at k := by
    unfold BAY_RONREP_at BAY_STATUS_at BAY_IRQ_STAT_at; omega
  unfold u State.ronResult
  split
  case isTrue inside =>
    refine ⟨State.fb_setFld_zero _ (RF.fits (by decide)), fun _ _ => ⟨?_, ?_⟩, fun outside => by omega⟩
    · rw [State.fld_setFld_other _ _ _ _ status.1, State.fld_setFld_other _ _ _ _ status.1]
      exact State.fld_setFld_fits (RF.fits (by decide)) (by show ron < 65536; omega)
    · rw [State.fb_setFld_apart _ _ _ (.inr (by simp))]
      exact State.fb_setFld_one _ (RF.fits (by decide))
  case isFalse outside =>
    refine ⟨State.fb_setFld_zero _ (RF.fits (by decide)), fun lo hi => absurd ⟨lo, hi⟩ outside, fun _ => ?_⟩
    rw [State.fb_setFld_apart _ _ _ (.inl status.2)]
    exact State.fb_setFld_one _ (RF.fits (by decide))

/-! ### Line windows and starved kinds (R367, R368) -/

/-- A line's window ends, and its count begins again. -/
def State.linkEnds (s : State) (l : Nat) : State := { s with ist := { s.ist with link := tset 0 s.ist.link l 0 } }

theorem State.linkEnds_link (s : State) (l : Nat) : tget 0 (s.linkEnds l).ist.link l = 0 := tget_tset_same 0 s.ist.link l 0

section
variable {l : Nat} (on : s.istOn 8 = true) (line : s.fb (BL_CFG_EN l) = true)
include on line

theorem State.linkWindow_within (within : tget 0 s.ist.link l ≤ s.fld IST_LINKLIM_LIMIT) :
    s.linkWindow l = (s.linkEnds l).istCover 8 l := by
  unfold State.linkWindow
  dsimp only
  rw [if_neg (by simp [on, line]), if_neg (Nat.not_lt.mpr within)]
  rfl

theorem State.linkWindow_captures (exceeds : s.fld IST_LINKLIM_LIMIT < tget 0 s.ist.link l) : s.Captures (s.linkWindow l) := by
  have fault := State.istFault_captures (s.linkEnds l) 8 l 0 (BitVec.ofNat 32 (tget 0 s.ist.link l))
  unfold State.linkWindow
  dsimp only
  rw [if_neg (by simp [on, line]), if_pos exceeds]
  exact State.Captures.then_ ⟨fault.captured, fault.byte⟩ (State.istCover_tester _ _ _)

end

theorem State.istCover_link (kind : Nat) : (s.istCover kind n).ist.link = s.ist.link := by
  obtain ⟨c, p, t, e⟩ := s.istCover_ist kind n
  rw [e]

theorem State.istStarved_due {kind : Nat} (on : s.istOn kind = true)
    (due : s.fld IST_CFG_MAXPASS * 200000000 ≤ (s.tb.now - tget 0 s.ist.since kind).toNat) :
    s.istStarved kind = (s.orBit IST_STAT_STARVED (kind - 1)).setFld IST_IRQ_STAT_STARVED 1 := if_pos ⟨on, due⟩

theorem State.istStarved_none {kind : Nat} (h : s.istOn kind = false ∨
    ¬ s.fld IST_CFG_MAXPASS * 200000000 ≤ (s.tb.now - tget 0 s.ist.since kind).toNat) : s.istStarved kind = s :=
  if_neg fun ⟨on, due⟩ => h.elim (fun off => Bool.false_ne_true (off.symm.trans on)) (fun early => early due)

/-! ### The scrubber (R357, R358) -/

/-- Behind a visit the scrubber is at the next place. -/
def State.scrubsOn (s : State) (i : Nat) : State :=
  let t := s.voteWritten 0
  { t with scrub := { t.scrub with place := i } }

/-- A visit of an instruction word that is not the last place: RUNNING shows, the word is read, and the next place follows. -/
theorem State.scrubVisit_word (released : s.pwr.released = true) (awake : s.awake = true) (on : s.fb SCRUB_CFG_EN = true)
    (lo : 2672 ≤ s.scrub.place) (hi : s.scrub.place < 1051247) (free : (s.placeRegion s.scrub.place).any s.regionBusy = false)
    (runs : s.sectRuns ((s.scrub.place - 2672) / 65536) = true) :
    s.scrubVisit = ((s.setFld SCRUB_STAT_RUNNING 1).visitInstr (s.scrub.place - 2672)).scrubsOn (s.scrub.place + 1) := by
  have reached : s.placeRuns s.scrub.place = true := by
    unfold State.placeRuns scrubFrames
    simp [runs]
  unfold State.scrubVisit scrubFrames scrubPlaces
  dsimp only
  rw [if_neg (by simp [released, awake, on, reached]), if_neg (show ¬ s.scrub.place = 0 by omega),
    if_neg (show ¬ (s.placeRegion s.scrub.place).any s.regionBusy = true by simp [free]), if_neg (Nat.not_lt.mpr lo), if_pos (by omega)]
  rfl

theorem State.visitInstr_clean (clean : s.flipCount (0x21000000 + 4 * n) = 0) : s.visitInstr n = s := by
  unfold State.visitInstr
  dsimp only
  rw [clean]
  rfl

theorem State.visitInstr_single (single : s.flipCount (0x21000000 + 4 * n) = 1) :
    s.visitInstr n = (s.setFlips (0x21000000 + 4 * n) 0).scrubCe := by
  unfold State.visitInstr
  dsimp only
  rw [single]
  rfl

@[simp] theorem State.flips_setFlips_same (a m : Nat) : (s.setFlips a m).flips a = m := tget_tset_same _ _ _ _

/-! ### Voted items (R361) -/

/-- The bits that at least two of three copies hold. -/
def majority (x y z : Nat) : Nat := (x &&& y) ||| (x &&& z) ||| (y &&& z)

/-- In what each of the three copies of a voted item differs from the majority. -/
def notedCopies (t : Table Nat) (i x y z : Nat) : Table Nat := tset 0 (tset 0 (tset 0 t (3 * i + 0) x) (3 * i + 1) y) (3 * i + 2) z

theorem tget_notedCopies (t : Table Nat) (i x y z : Nat) : tget 0 (notedCopies t i x y z) (3 * i + 0) = x ∧
    tget 0 (notedCopies t i x y z) (3 * i + 1) = y ∧ tget 0 (notedCopies t i x y z) (3 * i + 2) = z := by
  unfold notedCopies
  rw [tget_tset_other _ _ _ (3 * i + 2) (3 * i + 0) _ (by omega), tget_tset_other _ _ _ (3 * i + 1) (3 * i + 0) _ (by omega),
    tget_tset_other _ _ _ (3 * i + 2) (3 * i + 1) _ (by omega)]
  exact ⟨tget_tset_same _ _ _ _, tget_tset_same _ _ _ _, tget_tset_same _ _ _ _⟩

/-- The three copies of a voted item differ by `x`, `y` and `z` from what acted, and their majority acts from now on. -/
def State.voteWith (s : State) (i x y z : Nat) : State :=
  let u := if majority x y z = 0 then s else s.voteMoves i (majority x y z)
  { u with scrub := { u.scrub with
    diffs := notedCopies u.scrub.diffs i (x ^^^ majority x y z) (y ^^^ majority x y z) (z ^^^ majority x y z) } }

theorem State.voteWith_none {i x y z : Nat} (none : majority x y z = 0) :
    s.voteWith i x y z = { s with scrub := { s.scrub with diffs := notedCopies s.scrub.diffs i x y z } } := by
  unfold State.voteWith
  dsimp only
  rw [none, if_pos rfl, Nat.xor_zero, Nat.xor_zero, Nat.xor_zero]

/-- In what copy `j` differs from what acted when bits of copy `c` have flipped. -/
def State.flippedCopy (s : State) (i c m j : Nat) : Nat := tget 0 s.scrub.diffs (3 * i + j) ^^^ (if j = c then m % 2 ^ 32 else 0)

theorem State.voteFlip_eq {i c : Nat} (m : Nat) (item : voted i = true) (copy : c < 3) :
    s.voteFlip i c m = s.voteWith i (s.flippedCopy i c m 0) (s.flippedCopy i c m 1) (s.flippedCopy i c m 2) :=
  if_neg (by simp [item, copy])

/-- A flip in one copy, where all copies agreed, is noted, and nothing that acts changes. -/
theorem State.voteFlip_agreed {i c m : Nat} (item : voted i = true) (copy : c < 3) (agree : ∀ j, j < 3 → tget 0 s.scrub.diffs (3 * i + j) = 0)
    (wide : m < 2 ^ 32) : ∃ diffs, s.voteFlip i c m = { s with scrub := { s.scrub with diffs := diffs } } ∧ tget 0 diffs (3 * i + c) = m := by
  have flipped (j : Nat) (hj : j < 3) : s.flippedCopy i c m j = if j = c then m else 0 := by
    rw [State.flippedCopy, agree j hj, Nat.zero_xor, Nat.mod_eq_of_lt wide]
  rw [State.voteFlip_eq m item copy, flipped 0 (by decide), flipped 1 (by decide), flipped 2 (by decide)]
  obtain rfl | rfl | rfl : c = 0 ∨ c = 1 ∨ c = 2 := by omega
  · exact ⟨_, State.voteWith_none (by simp [majority]), (tget_notedCopies _ _ _ _ _).1⟩
  · exact ⟨_, State.voteWith_none (by simp [majority]), (tget_notedCopies _ _ _ _ _).2.1⟩
  · exact ⟨_, State.voteWith_none (by simp [majority]), (tget_notedCopies _ _ _ _ _).2.2⟩

theorem State.voteFix_first {p : Nat × Nat} {r : List (Nat × Nat)} (h : s.scrub.diffs = p :: r) : s.voteFix =
    (({ s with scrub := { s.scrub with diffs := tset 0 s.scrub.diffs p.1 0 } } : State).addSat SCRUB_CNT_VOTEFIX 1).setFld
      SCRUB_IRQ_STAT_VOTEFIX 1 := by
  unfold State.voteFix
  rw [h]

end Sys2Proof.Machine
end

section
/-! PROOFS. Tests and scrubbing find faults (O52): what a command shows of a test's outcome. -/

namespace Sys2Proof.Machine

variable {s : State} {k : Nat} {d : Word}

/-! ### What a command leaves of the tester's own places -/

@[simp] theorem settle_marchOf (t : State) (tile : Bool) (k : Nat) : (settle s t).marchOf tile k = t.marchOf tile k := by
  unfold State.marchOf; rw [settle_ist]

@[simp] theorem settle_bayTests (t : State) (k : Nat) : (settle s t).bayTests k = t.bayTests k :=
  State.bayTests_of_ist (by rw [settle_ist]) k

@[simp] theorem settle_flips (t : State) (a : Nat) : (settle s t).flips a = t.flips a := by
  unfold State.flips; rw [settle_ecc]

/-! ### March windows -/

section
variable {tile : Bool} {n word : Nat} {diff : BitVec 39}

/-- What a command shows that has begun the test of a window. -/
theorem State.marchStart_shows (idle : (s.marchOf tile k).busy = false) (unit : (s.marchOf tile k).unit = n)
    (inside : n < marchUnits tile) (room : tile = true → s.istTile (16 * k + n) = true ∧ 1536 ≤ s.sectLeft k) :
    ∃ u, done s (s.marchStart tile k n) = .next u ∧ u.marchOf tile k = { s.marchOf tile k with busy := true } ∧
      ∀ a, u.byte a = s.byte a := by
  rw [State.marchStart_begins idle unit inside room]
  refine ⟨_, rfl, (settle_marchOf _ _ _).trans State.marchOf_setMarch_same, fun a => (settle_byte _ _ _).trans (State.byte_of_mem ?_ a)⟩
  exact ((s.setMarch_tester _ _ _).trans (State.setMarch_tester _ _ _ _)).mem

variable (busy : (s.marchOf tile k).busy = true) (unit : (s.marchOf tile k).unit = n) (clean : (s.marchOf tile k).hit = false)
include busy unit clean

theorem State.marchEnd_good_shows : ∃ u, done s (s.marchEnd tile k n word 0) = .next u ∧
    u.ist.retry = s.ist.retry.erase ((s.marchOf tile k).key tile k n) ∧ ∀ a, u.byte a = s.byte a := by
  rw [State.marchEnd_good busy unit clean]
  refine ⟨_, rfl, ?_, fun a => (settle_byte _ _ _).trans (State.byte_of_mem (State.marchAt_tester _ _ _ _).mem a)⟩
  rw [settle_ist, (State.marchAt_tester _ _ _ _).retry]

theorem State.marchEnd_first_shows (bad : diff ≠ 0) (first : s.ist.retry.contains ((s.marchOf tile k).key tile k n) = false) :
    ∃ u, done s (s.marchEnd tile k n word diff) = .next u ∧ u.ist.retry = s.ist.retry ++ [(s.marchOf tile k).key tile k n] ∧
      u.marchOf tile k = { s.marchOf tile k with busy := false } ∧ ∀ a, u.byte a = s.byte a := by
  rw [State.marchEnd_first busy unit clean bad first]
  refine ⟨_, rfl, ?_, (settle_marchOf _ _ _).trans State.marchOf_setMarch_same,
    fun a => (settle_byte _ _ _).trans (State.byte_of_mem (State.setMarch_tester _ _ _ _).mem a)⟩
  rw [settle_ist, (State.setMarch_tester _ _ _ _).retry]

end

/-! ### Converter tests -/

section
variable {q unit arg n : Nat}

/-- A borrowed conversion whose value lies within or beyond the limit of its test has that result, and its bay runs no test. -/
theorem State.istEnd_shows (run : (s.bayTests (istBay q unit)).run = some ⟨q, unit, arg, n, false⟩) (lent : s.borrowedFor n q = true)
    (on : s.istOn q = true) (measured : q ≠ 6) {ok : Bool}
    (judged : decide ((d.toInt - (s.istIdeal q unit arg).1).natAbs ≤ (s.istIdeal q unit arg).2.natAbs) = ok)
    {l : List (Nat × Nat × Nat)} (result : ∀ addr, let u := s.unlend (istBay q unit) n
      u.istResult (q, unit, arg) addr d ok = { u with ist := { u.ist with retry := l } }) :
    ∃ u, done s (s.istEnd q unit arg d) = .next u ∧ u.ist.retry = l ∧ (u.bayTests (istBay q unit)).run = none := by
  have noted : (s.unlend (istBay q unit) n).ronNoted ⟨q, unit, arg, n, false⟩ d = s.unlend (istBay q unit) n :=
    if_neg fun h => measured h.1
  have fits : (s.unlend (istBay q unit) n).istOk ⟨q, unit, arg, n, false⟩ d = ok := (if_neg measured).trans judged
  obtain ⟨addr, goes⟩ := State.istJudge_on (s := s.unlend (istBay q unit) n)
    (r := ⟨q, unit, arg, n, false⟩) (d := d) (by rw [noted]; exact on)
  rw [noted, fits, result addr] at goes
  rw [State.istEnd_judged run lent]
  refine ⟨_, rfl, ?_, ?_⟩
  · rw [settle_ist, State.rcalBorrow_ist, goes.tester.retry]
  · rw [settle_bayTests, State.bayTests_of_ist (congrArg Ist.bay (State.rcalBorrow_ist _)), goes.run]
    exact congrArg BayTests.run (State.bayTests_setBayTests_same (s := s) _)

/-- The value of a measurement of the replica goes to its bay, whatever becomes of the test (R137). -/
theorem State.istEnd_replica (k : Fin 16) (run : (s.bayTests k).run = some ⟨6, k, 0, n, false⟩) (lent : s.borrowedFor n 6 = true) :
    let u := s.istEnd 6 k 0 d
    u.fb (BAY_STATUS_RONSTALE k) = false ∧
    (1600 ≤ d.toNat → d.toNat ≤ 6400 → u.fld (BAY_RONREP_RON k) = d.toNat ∧ u.fb (BAY_STATUS_RONVALID k) = true) ∧
    (d.toNat < 1600 ∨ 6400 < d.toNat → u.fb (BAY_IRQ_STAT_RONRANGE k) = true) := by
  have kept (g : RF) {x : Nat} (addr : g.addr = 0x30000000 + x + k * 0x10000) (low : x < 0x8000)
      (beside : x ≠ 4 ∨ g.lo ≤ g.hi ∧ (g.hi < 3 ∨ 3 < g.lo)) :
      (s.istEnd 6 k 0 d).fld g = ((s.unlend k n).ronResult k d.toNat).fld g := by
    have apart (j : Nat) : g.addr ≠ BAY_STATUS_at j ∨ g.lo ≤ g.hi ∧ (g.hi < 3 ∨ 3 < g.lo) :=
      beside.imp_left fun h => by unfold BAY_STATUS_at; omega
    rw [State.istEnd_judged run lent]
    exact (State.fld_of_regs (State.rcalBorrow_regs _) g).trans
      (State.istJudge_fld (by unfold IST_CFG_at; omega) (.of_bay (by omega) (by omega) apart))
  dsimp only
  unfold State.fb
  rw [kept (BAY_STATUS_RONSTALE k) (x := 4) rfl (by decide) (.inr (by simp)),
    kept (BAY_RONREP_RON k) (x := 0x14) rfl (by decide) (.inl (by decide)),
    kept (BAY_STATUS_RONVALID k) (x := 4) rfl (by decide) (.inr (by simp)),
    kept (BAY_IRQ_STAT_RONRANGE k) (x := 8) rfl (by decide) (.inl (by decide))]
  exact State.ronResult_fields _

end

/-! ### The obligation -/

/-- Settles O52: each clause is one outcome of a test, read behind the command. -/
theorem testsAndScrubbingFindFaults : Obligations.TestsAndScrubbingFindFaults := by
  intro s repeats clear wait fails
  refine ⟨?signature, ?bank, ?tile, ?converter, ?replica, ?line, ?starved, ?scrub, ?flip, ?fix⟩
  case signature =>
    intro t sig i need
    exact ⟨fun on tile room => ⟨fun good more => congrArg (done s) (State.istSignature_good on tile room good more),
        fun bad first => congrArg (done s) (State.istSignature_first on tile room bad (Bool.eq_false_iff.mpr first)),
        fun bad again => (State.istSignature_captures on tile room bad again).settled⟩,
      fun h => congrArg (done s) (State.istSignature_none h)⟩
  case bank =>
    intro k b w d on free m x unit
    have runs (diff : BitVec 39) (starts : Bool) : exec (.spmarchWindow k b w diff starts ()) s =
        done s (if starts then s.marchStart false k b else s.marchEnd false k b w diff) :=
      congrArg (done s) (State.march_runs (tile := false) on free)
    rw [runs]
    refine ⟨fun idle => State.marchStart_shows idle unit b.isLt nofun, fun busy hit => ?_,
      fun busy clean => ⟨?_, fun bad first => ?_, fun bad again => ?_⟩⟩
    · rw [runs]
      refine congrArg (done s) ((State.marchEnd_abandoned busy unit hit).trans (State.marchAt_stays ?_ nofun))
      rw [March.step_again_unit, unit]
      exact b.isLt
    · rw [runs]
      exact State.marchEnd_good_shows busy unit clean
    · rw [runs]
      exact State.marchEnd_first_shows busy unit clean bad (Bool.eq_false_iff.mpr first)
    · unfold fails
      rw [runs]
      exact (State.marchEnd_captures busy unit clean bad again).settled
  case tile =>
    intro t w d on free k m x unit
    have runs (diff : BitVec 39) (starts : Bool) : exec (.trmarchWindow t w diff starts ()) s =
        done s (if starts then s.marchStart true k (t.val % 16) else s.marchEnd true k (t.val % 16) w diff) :=
      congrArg (done s) (State.march_runs (tile := true) on free)
    have tile : 16 * k + t.val % 16 = t.val := Nat.div_add_mod _ _
    have key : m.key true k (t.val % 16) = x := by
      unfold March.key
      rw [tile]
      rfl
    rw [runs]
    refine ⟨fun idle ready room => State.marchStart_shows idle unit (Nat.mod_lt _ (by decide)) fun _ => ⟨tile.symm ▸ ready, room⟩,
      fun idle late => ⟨_, rfl, by rw [settle_marchOf]; exact State.marchStart_late idle late⟩, fun busy clean => ⟨?_, fun bad again => ?_⟩⟩
    · rw [runs]
      exact key ▸ State.marchEnd_good_shows busy unit clean
    · unfold fails
      rw [runs]
      exact (State.marchEnd_captures busy unit clean bad (key.symm ▸ again)).settled
  case converter =>
    intro kind unit arg d n q k x released awake free
    have runs (starts : Bool) : exec (.istConversion kind unit arg d starts) s =
        done s (if starts then s.istBegin q unit arg else s.istEnd q unit arg d) :=
      congrArg (done s) (State.istConversion_runs starts released awake free)
    rw [runs, runs]
    refine ⟨fun conv calm due => ?_, fun none => congrArg (done s) (State.istBegin_none none),
      fun run lent on measured => ⟨fun within => ?_, fun beyond first => ?_⟩⟩
    · refine ⟨_, congrArg (done s) (State.istBegin_borrows conv calm due), ?_, ?_⟩
      · rw [State.adcOf_of_adc (settle_adc _ _)]
        exact congrArg Adc.borrowed (State.adcOf_setAdc_same _ _)
      · rw [settle_bayTests, State.bayTests_setBayTests_same]
    · exact State.istEnd_shows run lent on measured (decide_eq_true within) fun _ => State.istResult_pass
    · exact State.istEnd_shows run lent on measured (decide_eq_false (Nat.not_le.mpr beyond)) fun _ =>
        State.istResult_first (Bool.eq_false_iff.mpr first)
  case replica =>
    intro k d n released awake free run lent
    refine ⟨_, congrArg (done s) (State.istConversion_runs (q := 6) false released awake free), ?_⟩
    rw [settle_fb, settle_fld, settle_fb, settle_fb]
    exact State.istEnd_replica k run lent
  case line =>
    intro l on line
    refine ⟨fun within => ⟨_, congrArg (done s) (State.linkWindow_within on line within), ?_, ?_, fun a => ?_⟩,
      fun exceeds => (State.linkWindow_captures on line exceeds).settled⟩
    · rw [settle_ist, State.istCover_link]
      exact State.linkEnds_link s l
    · rw [settle_fb, (State.istCover_tester _ _ _).fb RF.unpassed_captured]
      rfl
    · exact (settle_byte _ _ _).trans (State.byte_of_mem (State.istCover_tester _ _ _).mem a)
  case starved =>
    intro kind due
    exact ⟨fun on h => congrArg (done s) (State.istStarved_due on h), fun h => congrArg (done s) (State.istStarved_none h)⟩
  case scrub =>
    intro released awake on lo hi free runs a
    have visit := State.scrubVisit_word released awake on lo hi free runs
    refine ⟨fun clean => congrArg (done s) ?_, fun single => ?_⟩
    · rw [visit, State.visitInstr_clean (s := s.setFld SCRUB_STAT_RUNNING 1) clean]
      rfl
    · rw [State.visitInstr_single (s := s.setFld SCRUB_STAT_RUNNING 1) single] at visit
      refine ⟨_, congrArg (done s) visit, ?_⟩
      rw [settle_flips, settle_fb, settle_scrub]
      exact ⟨State.flips_setFlips_same (s := s.setFld SCRUB_STAT_RUNNING 1) a 0, State.fb_setFld_one _ (RF.fits (by decide)), rfl⟩
  case flip =>
    intro i c m item copy agree wide
    obtain ⟨diffs, flipped, noted⟩ := State.voteFlip_agreed item copy agree wide
    refine ⟨_, congrArg (done s) flipped, ?_⟩
    rw [settle_regs, settle_scrub]
    exact ⟨rfl, rfl, rfl, noted⟩
  case fix =>
    intro p r h
    refine ⟨_, congrArg (done s) (State.voteFix_first h), ?_⟩
    rw [settle_scrub, settle_fb]
    exact ⟨tget_tset_same 0 s.scrub.diffs p.1 0, State.fb_setFld_one _ (RF.fits (by decide))⟩

end Sys2Proof.Machine
end

section
/-! PROOFS. Converters: what the start of a conversion and of a run leaves, and how triggers meet a run (O35). -/

namespace Sys2Proof.Machine

variable {s : State} {n : Nat}

/-! ### The start of a conversion, and what a converter keeps while its schedule moves on -/

/-- A conversion that starts changes how it converts, and nothing else of its converter (R138, R150, R165). -/
theorem State.startConv_adcOf (s : State) (n : Nat) : ∃ f o c, (s.startConv n).adcOf n =
    { s.adcOf n with begun := s.tb.now, short := false, factor := f, osrNow := o, clamped := c } := by
  unfold State.startConv State.startConvBy
  dsimp only
  split <;> exact ⟨_, _, _, State.adcOf_setAdc_same _ _⟩

/-- The only register that a start writes is the one that counts clamped lengths (R165). -/
theorem State.startConv_reg {a : Nat} (h : a ≠ ADC_ASYNC_STAT_at n) : (s.startConv n).reg a = s.reg a := by
  unfold State.startConv State.startConvBy
  dsimp only
  split
  · rw [State.reg_of_regs (State.setAdc_regs _ _ _)]
    split
    · exact State.reg_setReg_other _ _ _ _ h
    · rfl
  · rfl

theorem State.startRun_adcOf (s : State) (n : Nat) : ∃ f o c, (s.startRun n).adcOf n =
    { s.adcOf n with
      run := true, cur := 0, len := s.fld (ADC_CFG_LEN n) + 1, borrowed := none,
      begun := s.tb.now, short := false, factor := f, osrNow := o, clamped := c } := by
  obtain ⟨f, o, c, e⟩ := (s.setAdc n { s.adcOf n with
    run := true, cur := 0, len := s.fld (ADC_CFG_LEN n) + 1, borrowed := none }).startConv_adcOf n
  rw [State.adcOf_setAdc_same] at e
  exact ⟨f, o, c, e⟩

theorem State.rcalBorrow_adcOf (s : State) (k m : Nat) : ∃ b, (s.rcalBorrow k).adcOf m = { s.adcOf m with borrowed := b } := by
  rcases s.rcalBorrow_cases k with e | ⟨n, e⟩ <;> rw [e]
  · exact ⟨_, rfl⟩
  · by_cases h : m = n
    · rw [h, State.adcOf_setAdc_same]
      exact ⟨_, rfl⟩
    · rw [State.adcOf_setAdc_other _ h]
      exact ⟨_, rfl⟩

/-- From `s` to `u` no more than the schedule of converter `n` has moved on: what waits to be written and the measurement stay, and so do
the registers but the one that counts clamped lengths. -/
structure State.Reschedules (s : State) (n : Nat) (u : State) : Prop where
  toWrite : (u.adcOf n).toWrite = (s.adcOf n).toWrite
  cal : (u.adcOf n).cal = (s.adcOf n).cal
  reg : ∀ {a}, a ≠ ADC_ASYNC_STAT_at n → u.reg a = s.reg a

theorem State.Reschedules.refl (s : State) (n : Nat) : s.Reschedules n s := ⟨rfl, rfl, fun _ => rfl⟩

theorem State.Reschedules.fld {u : State} (h : s.Reschedules n u) {f : RF} (hf : f.addr ≠ ADC_ASYNC_STAT_at n) : u.fld f = s.fld f := by
  unfold State.fld; rw [h.reg hf]

theorem State.Reschedules.fb {u : State} (h : s.Reschedules n u) {f : RF} (hf : f.addr ≠ ADC_ASYNC_STAT_at n) : u.fb f = s.fb f := by
  unfold State.fb; rw [h.fld hf]

namespace State.Reschedules

variable {u : State} (h : s.Reschedules n u)
include h

theorem setAdc {x : Adc} (waits : x.toWrite = (u.adcOf n).toWrite) (cal : x.cal = (u.adcOf n).cal) : s.Reschedules n (u.setAdc n x) where
  toWrite := (congrArg Adc.toWrite (State.adcOf_setAdc_same n x)).trans (waits.trans h.toWrite)
  cal := (congrArg Adc.cal (State.adcOf_setAdc_same n x)).trans (cal.trans h.cal)
  reg := h.reg

theorem startConv : s.Reschedules n (u.startConv n) := by
  obtain ⟨f, o, c, e⟩ := u.startConv_adcOf n
  exact ⟨by rw [e, ← h.toWrite], by rw [e, ← h.cal], fun ha => (State.startConv_reg ha).trans (h.reg ha)⟩

theorem startRun : s.Reschedules n (u.startRun n) := .startConv (.setAdc h rfl rfl)

theorem goOn : s.Reschedules n (u.goOn n) := .setAdc (.startRun h) rfl rfl

theorem rcalBorrow (k : Nat) : s.Reschedules n (u.rcalBorrow k) := by
  obtain ⟨b, e⟩ := u.rcalBorrow_adcOf k n
  exact ⟨by rw [e, ← h.toWrite], by rw [e, ← h.cal], fun ha => (State.reg_of_regs (State.rcalBorrow_regs k) _).trans (h.reg ha)⟩

end State.Reschedules

/-! ### Triggers (R152, R154 to R156) -/

theorem State.adcTrigger_disabled (off : s.fb (ADC_CFG_EN n) = false) : s.adcTrigger n = s := if_pos off

section
variable (on : s.fb (ADC_CFG_EN n) = true)
include on

theorem State.adcTrigger_coincident (same : (s.adcOf n).lastTrig = some s.tb.now) :
    s.adcTrigger n = s.addSat (ADC_CNT_MISC_COINC n) 1 := by
  unfold State.adcTrigger
  rw [if_neg (by simp [on])]
  exact if_pos same

/-- A converter that has noted the edge at which its last trigger became visible (R154). -/
def State.noteTrigger (s : State) (n : Nat) : State := s.setAdc n { s.adcOf n with lastTrig := some s.tb.now }

variable (first : (s.adcOf n).lastTrig ≠ some s.tb.now)
include first

theorem State.adcTrigger_measuring (measures : (s.adcOf n).measures = true) : s.adcTrigger n = (s.noteTrigger n).adcDrop n := by
  unfold State.adcTrigger
  rw [if_neg (by simp [on])]
  exact (if_neg first).trans (if_pos measures)

variable (calm : (s.adcOf n).measures = false)
include calm

theorem State.adcTrigger_idle (idle : (s.adcOf n).run = false) : s.adcTrigger n = (s.noteTrigger n).startRun n := by
  unfold State.adcTrigger
  rw [if_neg (by simp [on])]
  exact (if_neg first).trans ((if_neg (by simp [calm])).trans (if_pos idle))

section
variable (running : (s.adcOf n).run = true)
include running

/-- A trigger meets a run as POLICY says (R155). -/
theorem State.adcTrigger_running : s.adcTrigger n =
    if s.fld (ADC_CFG_POLICY n) = 1 then
      if (s.adcOf n).queued then ((s.noteTrigger n).addSat (ADC_CNT_TRIG_QOVF n) 1).setFld (ADC_IRQ_STAT_DROP n) 1
      else (s.noteTrigger n).setAdc n { (s.noteTrigger n).adcOf n with queued := true }
    else if s.fld (ADC_CFG_POLICY n) = 2 then ((s.noteTrigger n).addSat (ADC_CNT_MISC_RESTARTS n) 1).startRun n
    else (s.noteTrigger n).adcDrop n := by
  unfold State.adcTrigger
  rw [if_neg (by simp [on])]
  refine (if_neg first).trans ((if_neg (by simp [calm])).trans ((if_neg (by simp [running])).trans ?_))
  split
  next h => exact ((if_neg (by omega)).trans (if_neg (by omega))).symm
  next h => exact (if_pos h).symm
  next h => exact ((if_neg (by omega)).trans (if_pos h)).symm
  next h h' => exact ((if_neg h).trans (if_neg h')).symm

end

/-- A trigger that starts or restarts a run finds the converter as it was, but for the note of its edge. -/
theorem State.adcTrigger_starts (h : (s.adcOf n).run = false ∨ s.fld (ADC_CFG_POLICY n) = 2) : ∃ u : State, s.adcTrigger n = u.startRun n ∧
    u.adcOf n = { s.adcOf n with lastTrig := some s.tb.now } ∧ u.fld (ADC_CFG_LEN n) = s.fld (ADC_CFG_LEN n) := by
  have note : (s.noteTrigger n).adcOf n = { s.adcOf n with lastTrig := some s.tb.now } := State.adcOf_setAdc_same _ _
  have len : (s.noteTrigger n).fld (ADC_CFG_LEN n) = s.fld (ADC_CFG_LEN n) := State.fld_of_regs (State.setAdc_regs _ _ _) _
  cases idle : (s.adcOf n).run with
  | false => exact ⟨_, State.adcTrigger_idle on first calm idle, note, len⟩
  | true =>
    have policy := h.resolve_left (by simp [idle])
    have apart : ADC_CFG_at n ≠ ADC_CNT_MISC_at n := by unfold ADC_CFG_at ADC_CNT_MISC_at; omega
    exact ⟨_, (State.adcTrigger_running on first calm idle).trans ((if_neg (by omega)).trans (if_pos policy)),
      (State.adcOf_of_adc (State.setFld_adc _ _ _) n).trans note, (State.fld_setFld_other _ _ _ _ apart).trans len⟩

end

theorem State.adcSwtrig_runs (runs : s.modRuns (n / 8) = true) : s.adcSwtrig n = s.adcTrigger n := if_pos runs

theorem State.adcSwtrig_stands (stands : s.modRuns (n / 8) ≠ true) :
    s.adcSwtrig n = s.setAdc n { s.adcOf n with swWait := (s.adcOf n).swWait + 1 } := if_neg stands

/-- Settles O35: by the gate of the bay, the clock of the converter, and what the trigger finds there. -/
theorem convertersRunByTheirTriggers : Obligations.ConvertersRunByTheirTriggers := by
  intro s n x s0 held runs
  have gate {u : State} (free : ¬ held) (h : s.adcSwtrig n = u) : exec (.adcSwtrig n) s = .next (settle s u) :=
    congrArg (done s) ((State.bayGate_open _ _ (Bool.eq_false_iff.mpr free)).trans h)
  have visible {u : State} (free : ¬ held) (hr : runs) (h : s.adcTrigger n = u) : exec (.adcSwtrig n) s = .next (settle s u) :=
    gate free ((State.adcSwtrig_runs hr).trans h)
  refine ⟨fun h => congrArg (done s) (State.bayGate_held _ _ h), fun free stands => gate free (State.adcSwtrig_stands stands),
    fun free hr off => visible free hr (State.adcTrigger_disabled off),
    fun free hr on same => visible free hr (State.adcTrigger_coincident on same),
    fun free hr on first measures => visible free hr (State.adcTrigger_measuring on first measures),
    fun free hr on first calm => ⟨fun h => ?starts, fun busy policy => ?drops, fun busy policy empty => ?waits, fun busy policy full => ?full⟩⟩
  case starts =>
    obtain ⟨t, trigger, found, len⟩ := State.adcTrigger_starts on first calm h
    obtain ⟨f, o, c, run⟩ := t.startRun_adcOf n
    refine ⟨_, visible free hr trigger, ?_⟩
    rw [State.adcOf_of_adc (settle_adc _ _), run, found, len]
    exact ⟨rfl, rfl, rfl, rfl, rfl, rfl⟩
  case drops =>
    exact visible free hr ((State.adcTrigger_running on first calm busy).trans ((if_neg (by omega)).trans (if_neg (by omega))))
  case waits =>
    have note : (s.noteTrigger n).adcOf n = { x with lastTrig := some s.tb.now } := State.adcOf_setAdc_same _ _
    refine visible free hr ((State.adcTrigger_running on first calm busy).trans ((if_pos policy).trans ((if_neg (by simpa using empty)).trans ?_)))
    rw [note]
    rfl
  case full => exact visible free hr ((State.adcTrigger_running on first calm busy).trans ((if_pos policy).trans (if_pos full)))

end Sys2Proof.Machine
end

section
/-! PROOFS. Results of converters: the end of a conversion, the record and its copy (O36). -/

namespace Sys2Proof.Machine

variable {s : State} {n : Nat}

/-! ### The end of a conversion (R147, R150, R152, R157, R162) -/

section
variable (calm : (s.adcOf n).cal = none)
include calm

theorem State.afterEnd_reschedules : s.Reschedules n (s.afterEnd n) := by
  have same := State.Reschedules.refl s n
  unfold State.afterEnd
  dsimp only
  split
  · exact .startConv (.setAdc same rfl rfl)
  split
  · exact .startConv (.setAdc same rfl rfl)
  split
  · next measuring => exact nomatch calm.symm.trans measuring
  split
  · exact .startRun (.setAdc same rfl rfl)
  split
  · split
    · exact .goOn same
    · exact .startRun same
  · refine .rcalBorrow ?_ _
    exact .setAdc same rfl rfl

end

section
variable (sync : s.fb (ADC_CFG_ASYNC n) = false)
include sync

theorem State.afterEnd_next (more : (s.adcOf n).cur + 1 < (s.adcOf n).len) :
    ((s.afterEnd n).adcOf n).cur = (s.adcOf n).cur + 1 ∧ ((s.afterEnd n).adcOf n).run = (s.adcOf n).run := by
  obtain ⟨f, o, c, e⟩ := (s.setAdc n { s.adcOf n with cur := (s.adcOf n).cur + 1 }).startConv_adcOf n
  unfold State.afterEnd
  dsimp only
  rw [if_neg (by simp [sync]), if_pos more, e, State.adcOf_setAdc_same]
  exact ⟨rfl, rfl⟩

theorem State.afterEnd_last (calm : (s.adcOf n).cal = none) (last : (s.adcOf n).len ≤ (s.adcOf n).cur + 1)
    (empty : (s.adcOf n).queued = false) (single : s.fb (ADC_CFG_CONT n) = false) : ((s.afterEnd n).adcOf n).run = false := by
  obtain ⟨b, e⟩ := (s.setAdc n { s.adcOf n with run := false }).rcalBorrow_adcOf (n / 2) n
  unfold State.afterEnd
  dsimp only
  rw [if_neg (by simp [sync]), if_neg (by omega)]
  split
  · next measuring => exact nomatch calm.symm.trans measuring
  · rw [if_neg (by simp [empty]), if_neg (by simp [single]), e, State.adcOf_setAdc_same]

end

section
variable {d : Word} {ovr refbad : Bool}

/-- The result of the conversion that ends now without angle synchronisation (R147, R157, R158, R162). -/
def State.endedResult (s : State) (n : Nat) (d : Word) (ovr refbad : Bool) : AdcPending :=
  ⟨(s.adcOf n).cur, rnd32 (max (-dLimit) (min d.toInt dLimit) * (s.adcOf n).factor) 30, s.stamp + BitVec.ofInt 32 s.jitter,
    ovr || decide (dLimit < d.toInt.natAbs), refbad || s.refDip n, false⟩

/-- The state in which the result of the conversion that ends now waits to be written. -/
def State.queueResult (s : State) (n : Nat) (d : Word) (ovr refbad : Bool) : State :=
  s.fresh.setAdc n { s.adcOf n with toWrite := (s.adcOf n).toWrite ++ [s.endedResult n d ovr refbad] }

theorem State.queueResult_adcOf : (s.queueResult n d ovr refbad).adcOf n =
    { s.adcOf n with toWrite := (s.adcOf n).toWrite ++ [s.endedResult n d ovr refbad] } := State.adcOf_setAdc_same _ _

theorem beyond_dLimit : decide (d.toInt.natAbs > 1181116006) = decide (dLimit < d.toInt.natAbs) :=
  decide_eq_decide.mpr (by unfold dLimit; omega)

theorem State.convEnd_runs (clock : s.modRuns (n / 8) = true) (calm : (s.adcOf n).cal = none) (running : (s.adcOf n).run = true)
    (sync : s.fb (ADC_CFG_ASYNC n) = false) : s.convEnd n d ovr refbad = (s.queueResult n d ovr refbad).afterEnd n := by
  unfold State.convEnd
  dsimp only
  rw [if_neg (by simp [adcGroup, clock]), calm]
  dsimp only
  rw [if_neg (by simp [running]), sync, beyond_dLimit]
  rfl

theorem State.convEnd_none (h : s.modRuns (n / 8) ≠ true ∨ ((s.adcOf n).cal = none ∧ (s.adcOf n).run = false)) :
    s.convEnd n d ovr refbad = s := by
  unfold State.convEnd
  rcases h with stands | ⟨calm, idle⟩
  · exact if_pos (Bool.eq_false_iff.mpr stands)
  · dsimp only
    rw [calm]
    dsimp only
    rw [if_pos idle, ite_self]

end

/-! ### Records and their copies (R157, R159, R161) -/

theorem State.resultWrite_none (h : s.modRuns (n / 8) ≠ true ∨ (s.adcOf n).toWrite = []) : s.resultWrite n = s := by
  unfold State.resultWrite
  rcases h with stands | empty
  · exact if_pos (Bool.eq_false_iff.mpr stands)
  · dsimp only
    rw [empty, ite_self]

/-- The record that replaces that of its entry (R157, R159, R162). -/
def State.recordOf (s : State) (n : Nat) (p : AdcPending) : AdcRec :=
  ⟨s.calibrated n p.entry p.d1, p.time, nextTag (tget recReset (s.adcOf n).recs p.entry).tag, p.ovr, p.refbad, p.sync,
    s.fld (ADC_SEQ_CALSET n p.entry), s.fb (ADC_SEQ_NOCAL n p.entry)⟩

/-- The converter whose record is written: the rest of the results waits, and the record is on its way to the sector. -/
def State.recorded (s : State) (n : Nat) (p : AdcPending) (r : List AdcPending) : Adc :=
  { s.adcOf n with
    toWrite := r
    recs := tset recReset (s.adcOf n).recs p.entry (s.recordOf n p)
    toCopy := (s.adcOf n).toCopy ++ [(p.entry, s.recordOf n p)] }

theorem State.resultWrite_first {p : AdcPending} {r : List AdcPending} (clock : s.modRuns (n / 8) = true)
    (h : (s.adcOf n).toWrite = p :: r) : s.resultWrite n =
      (((s.setAdc n (s.recorded n p r)).raise (ADC_IRQ_STAT_OVR n) p.ovr).raise (ADC_IRQ_STAT_REFBAD n) p.refbad).fire (0x60 + n) := by
  unfold State.resultWrite
  dsimp only
  rw [if_neg (by simp [adcGroup, clock]), h]
  rfl

@[simp] theorem State.raise_adc (f : RF) (met : Bool) : (s.raise f met).adc = s.adc := by
  cases met <;> rfl

theorem State.fire_adc {e : Nat} (h : 0x60 ≤ e) : (s.fire e).adc = s.adc := by
  obtain ⟨q, hq⟩ := State.fire_evq (s := s) h
  rw [hq]

theorem State.resultCopy_none (h : (s.adcOf n).toCopy = [] ∨ s.sectRuns (n / 2) = false) : s.resultCopy n = s := by
  unfold State.resultCopy
  dsimp only
  split
  · next first => exact if_neg (by simp [h.resolve_left (by simp [first])])
  · rfl

theorem State.resultCopy_first {e : Nat} {o : AdcRec} {r : List (Nat × AdcRec)} (h : (s.adcOf n).toCopy = (e, o) :: r)
    (runs : s.sectRuns (n / 2) = true) :
    s.resultCopy n = s.setAdc n { s.adcOf n with toCopy := r, copies := tset recReset (s.adcOf n).copies e o } := by
  unfold State.resultCopy
  dsimp only
  rw [h]
  exact if_pos runs

/-- Settles O36: a result from the end of its conversion to its record, the copy of the sector, and the requester. -/
theorem resultsReachTheirRecords : Obligations.ResultsReachTheirRecords := by
  intro s n x clock
  refine ⟨fun d ovr refbad hc calm running sync => ?ends, fun d ovr refbad h => congrArg (done s) (State.convEnd_none h),
    fun h => congrArg (done s) (State.resultWrite_none h), fun h => congrArg (done s) (State.resultCopy_none h), fun p r hc first => ?writes,
    fun e o r first runs => congrArg (done s) (State.resultCopy_first first runs), fun req e => rfl⟩
  case ends =>
    have queued := State.queueResult_adcOf (s := s) (n := n) (d := d) (ovr := ovr) (refbad := refbad)
    have calm' : ((s.queueResult n d ovr refbad).adcOf n).cal = none := by rw [queued]; exact calm
    refine ⟨_, congrArg (done s) (State.convEnd_runs hc calm running sync), ?_⟩
    rw [State.adcOf_of_adc (settle_adc _ _)]
    refine ⟨?_, fun more => ?_, fun last empty single => State.afterEnd_last sync calm' (by rw [queued]; exact last)
      (by rw [queued]; exact empty) single⟩
    · rw [(State.afterEnd_reschedules calm').toWrite, queued]
      rfl
    · obtain ⟨cur, run⟩ := State.afterEnd_next (s := s.queueResult n d ovr refbad) sync (by rw [queued]; exact more)
      rw [cur, run, queued]
      exact ⟨rfl, running⟩
  case writes =>
    refine ⟨_, congrArg (done s) (State.resultWrite_first hc first), ?_⟩
    rw [State.adcOf_of_adc (settle_adc _ _), State.adcOf_of_adc (State.fire_adc (by omega)), State.adcOf_of_adc (State.raise_adc _ _),
      State.adcOf_of_adc (State.raise_adc _ _), State.adcOf_setAdc_same, settle_fb, settle_fb, State.fb_of_regs (State.fire_regs (by omega)),
      State.fb_of_regs (State.fire_regs (by omega))]
    have record : tget recReset (s.recorded n p r).recs p.entry = s.recordOf n p := tget_tset_same _ _ _ _
    dsimp only
    rw [record]
    refine ⟨rfl, rfl, rfl, rfl, rfl, rfl, rfl, rfl, fun h => ?_, fun h => ?_⟩
    · rw [State.raise_fb_apart _ (.inr (by simp)), State.raise_fb_same _ _ (RF.fits (by decide)), h, Bool.or_true]
    · rw [State.raise_fb_same _ _ (RF.fits (by decide)), h, Bool.or_true]

end Sys2Proof.Machine
end

section
/-! PROOFS. Calibrations: how a measurement starts and ends, and pairs that are saved and restored (O37). -/

namespace Sys2Proof.Machine

variable {s : State} {n : Nat} {v : Word}

/-! ### The end of a command or measurement (R169, R170) -/

theorem calibrationCmd_ne_stat (n : Nat) : ADC_CAL_CMD_at n ≠ ADC_CAL_STAT_at n := by unfold ADC_CAL_CMD_at ADC_CAL_STAT_at; omega
theorem calibrationCmd_ne_irq (n : Nat) : ADC_CAL_CMD_at n ≠ ADC_IRQ_STAT_at n := by unfold ADC_CAL_CMD_at ADC_IRQ_STAT_at; omega
theorem calibrationStat_ne_irq (n : Nat) : ADC_CAL_STAT_at n ≠ ADC_IRQ_STAT_at n := by unfold ADC_CAL_STAT_at ADC_IRQ_STAT_at; omega
theorem calibrationCmd_ne_async (n : Nat) : ADC_CAL_CMD_at n ≠ ADC_ASYNC_STAT_at n := by unfold ADC_CAL_CMD_at ADC_ASYNC_STAT_at; omega
theorem calibrationStat_ne_async (n : Nat) : ADC_CAL_STAT_at n ≠ ADC_ASYNC_STAT_at n := by unfold ADC_CAL_STAT_at ADC_ASYNC_STAT_at; omega

/-- The state in which no measurement is in progress and the code shows. -/
def State.calEnded (s : State) (n code : Nat) : State :=
  let u := (s.setFld (ADC_CAL_STAT_CODE n) code).setFld (ADC_CAL_CMD_BUSY n) 0
  u.setAdc n { u.adcOf n with cal := none }

theorem State.calEnded_cal (code : Nat) : ((s.calEnded n code).adcOf n).cal = none := by
  unfold State.calEnded
  rw [State.adcOf_setAdc_same]

theorem State.calEnded_code {code : Nat} (fits : code < 256) : (s.calEnded n code).fld (ADC_CAL_STAT_CODE n) = code := by
  unfold State.calEnded
  rw [State.fld_of_regs (State.setAdc_regs _ _ _), State.fld_setFld_other _ _ _ _ (calibrationCmd_ne_stat n).symm]
  exact State.fld_setFld_fits (RF.fits (by decide)) fits

theorem State.calEnded_busy (code : Nat) : (s.calEnded n code).fb (ADC_CAL_CMD_BUSY n) = false := by
  unfold State.calEnded
  rw [State.fb_of_regs (State.setAdc_regs _ _ _)]
  exact State.fb_setFld_zero _ (RF.fits (by decide))

/-- A ZERO that fails has no valid value, and a FULL that fails notes it. -/
theorem State.calCode_cases (op code : Nat) :
    s.calCode n op code = s.calEnded n code ∧ (op = 2 → code = 0) ∨
    s.calCode n op code = (s.calEnded n code).setFld (ADC_CAL_STAT_ZVALID n) 0 ∧ op ≠ 2 ∨
    s.calCode n op code = (s.calEnded n code).setFld (ADC_IRQ_STAT_CALREJ n) 1 := by
  unfold State.calCode
  dsimp only
  split
  · next zero => exact .inl ⟨rfl, fun _ => zero⟩
  split
  · next one => exact .inr (.inl ⟨rfl, by omega⟩)
  split
  · exact .inr (.inr rfl)
  · next two => exact .inl ⟨rfl, fun h => absurd h two⟩

/-- No measurement of converter `n` is in progress, the code shows, and a FULL that fails is noted. -/
structure State.CalEnds (u : State) (n op code : Nat) : Prop where
  cal : (u.adcOf n).cal = none
  shows : u.fld (ADC_CAL_STAT_CODE n) = code
  idle : u.fb (ADC_CAL_CMD_BUSY n) = false
  noted : op = 2 → code ≠ 0 → u.fb (ADC_IRQ_STAT_CALREJ n) = true

theorem State.CalEnds.settled {op code : Nat} (h : s.CalEnds n op code) (r : State) : (settle r s).CalEnds n op code where
  cal := by rw [State.adcOf_of_adc (settle_adc _ _), h.cal]
  shows := by rw [settle_fld, h.shows]
  idle := by rw [settle_fb, h.idle]
  noted two bad := by rw [settle_fb, h.noted two bad]

theorem State.calCode_ends (op : Nat) {code : Nat} (fits : code < 256) : (s.calCode n op code).CalEnds n op code := by
  have cal := State.calEnded_cal (s := s) (n := n) code
  have shows_ := State.calEnded_code (s := s) (n := n) fits
  have idle := State.calEnded_busy (s := s) (n := n) code
  rcases s.calCode_cases (n := n) op code with ⟨e, good⟩ | ⟨e, other⟩ | e <;> rw [e]
  · exact ⟨cal, shows_, idle, fun two bad => absurd (good two) bad⟩
  · refine ⟨?_, ?_, ?_, fun two => absurd two other⟩
    · rw [State.adcOf_of_adc (State.setFld_adc _ _ _), cal]
    · rw [State.fld_setFld_apart _ _ _ _ (.inr (by simp)), shows_]
    · rw [State.fb_setFld_apart _ _ _ (.inl (calibrationCmd_ne_stat n)), idle]
  · refine ⟨?_, ?_, ?_, fun _ _ => State.fb_setFld_one _ (RF.fits (by decide))⟩
    · rw [State.adcOf_of_adc (State.setFld_adc _ _ _), cal]
    · rw [State.fld_setFld_other _ _ _ _ (calibrationStat_ne_irq n), shows_]
    · rw [State.fb_setFld_apart _ _ _ (.inl (calibrationCmd_ne_irq n)), idle]

/-! ### ZERO and FULL (R168, R169) -/

/-- The state after the fields of ADC_CAL_CMD are stored; a ZERO ends the validity of the last one. -/
def State.calNamed (s : State) (n op : Nat) (v : Word) : State :=
  if op = 1 then (s.calFields n v).setFld (ADC_CAL_STAT_ZVALID n) 0 else s.calFields n v

theorem State.calFields_adc : (s.calFields n v).adc = s.adc := by
  unfold State.calFields
  rw [State.setFld_adc, State.setFld_adc, State.setFld_adc]

theorem State.calNamed_adcOf (op m : Nat) : (s.calNamed n op v).adcOf m = s.adcOf m := by
  refine State.adcOf_of_adc ?_ m
  unfold State.calNamed
  split
  · rw [State.setFld_adc, State.calFields_adc]
  · exact State.calFields_adc

/-- The measurement that a ZERO or FULL commands; it waits where a run is in progress. -/
def commandedMeas (op : Nat) (v : Word) (waiting : Bool) : CalMeas :=
  ⟨op, bits v.toNat 11 8, bits v.toNat 14 12, bits v.toNat 18 16, [], false, waiting, false⟩

/-- The state that holds a commanded measurement. -/
def State.calHeld (s : State) (n op : Nat) (v : Word) : State :=
  ((s.calNamed n op v).setFld (ADC_CAL_CMD_BUSY n) 1).setAdc n
    { s.adcOf n with cal := some (commandedMeas op v (s.adcOf n).run), borrowed := none }

theorem State.calHeld_adcOf (op : Nat) : (s.calHeld n op v).adcOf n =
    { s.adcOf n with cal := some (commandedMeas op v (s.adcOf n).run), borrowed := none } := State.adcOf_setAdc_same _ _

/-- Converter `n` holds the commanded measurement, at the entry `cur`; a ZERO has no valid value yet. -/
structure State.CalHolds (u : State) (n op : Nat) (v : Word) (waiting : Bool) (cur : Nat) : Prop where
  cal : (u.adcOf n).cal = some (commandedMeas op v waiting)
  cur : (u.adcOf n).cur = cur
  busy : u.fb (ADC_CAL_CMD_BUSY n) = true
  unzeroed : op = 1 → u.fb (ADC_CAL_STAT_ZVALID n) = false

theorem State.CalHolds.settled {op cur : Nat} {waiting : Bool} (h : s.CalHolds n op v waiting cur) (r : State) :
    (settle r s).CalHolds n op v waiting cur where
  cal := by rw [State.adcOf_of_adc (settle_adc _ _), h.cal]
  cur := by rw [State.adcOf_of_adc (settle_adc _ _), h.cur]
  busy := by rw [settle_fb, h.busy]
  unzeroed one := by rw [settle_fb, h.unzeroed one]

theorem State.calHeld_holds (op : Nat) : (s.calHeld n op v).CalHolds n op v (s.adcOf n).run (s.adcOf n).cur where
  cal := by rw [State.calHeld_adcOf]
  cur := by rw [State.calHeld_adcOf]
  busy := by
    unfold State.calHeld
    rw [State.fb_of_regs (State.setAdc_regs _ _ _)]
    exact State.fb_setFld_one _ (RF.fits (by decide))
  unzeroed one := by
    subst one
    unfold State.calHeld
    rw [State.fb_of_regs (State.setAdc_regs _ _ _), State.fb_setFld_apart _ _ _ (.inl (calibrationCmd_ne_stat n).symm)]
    exact State.fb_setFld_zero _ (RF.fits (by decide))

/-- The state in which a commanded measurement has begun at its entry. -/
def State.calBegun (s : State) (n op : Nat) (v : Word) : State :=
  ((s.calHeld n op v).setAdc n { (s.calHeld n op v).adcOf n with cur := bits v.toNat 11 8 }).startConv n

theorem State.calBegun_holds (op : Nat) : (s.calBegun n op v).CalHolds n op v (s.adcOf n).run (bits v.toNat 11 8) := by
  have held := State.calHeld_holds (s := s) (n := n) (v := v) op
  have begun : (s.calHeld n op v).Reschedules n (s.calBegun n op v) := by
    refine .startConv ?_
    exact .setAdc (.refl _ n) rfl rfl
  obtain ⟨f, o, c, e⟩ := ((s.calHeld n op v).setAdc n { (s.calHeld n op v).adcOf n with cur := bits v.toNat 11 8 }).startConv_adcOf n
  refine ⟨begun.cal.trans held.cal, ?_, (begun.fb (calibrationCmd_ne_async n)).trans held.busy,
    fun one => (begun.fb (calibrationStat_ne_async n)).trans (held.unzeroed one)⟩
  unfold State.calBegun
  rw [e, State.adcOf_setAdc_same]

theorem State.calStart_busy (op : Nat) (busy : s.fb (ADC_CAL_CMD_BUSY n) = true) : s.calStart n op v = s := if_pos busy

section
variable {op : Nat} (idle : s.fb (ADC_CAL_CMD_BUSY n) = false)
include idle

theorem State.calStart_beyond (beyond : s.fld (ADC_CFG_LEN n) < bits v.toNat 11 8) :
    s.calStart n op v = (s.calNamed n op v).calCode n op 1 := by
  unfold State.calStart
  rw [if_neg (by simp [idle])]
  exact if_pos beyond

variable (inside : bits v.toNat 11 8 ≤ s.fld (ADC_CFG_LEN n))
include inside

theorem State.calStart_disabled (off : ¬ (s.fb (ADC_CFG_EN n) = true ∧ s.fb (ADC_CFG_ASYNC n) = false)) :
    s.calStart n op v = (s.calNamed n op v).calCode n op 2 := by
  unfold State.calStart
  rw [if_neg (by simp [idle])]
  refine (if_neg (by omega)).trans (if_pos ?_)
  exact (not_and_or.mp off).imp Bool.eq_false_iff.mpr Bool.eq_true_of_not_eq_false

variable (may : s.fb (ADC_CFG_EN n) = true ∧ s.fb (ADC_CFG_ASYNC n) = false)
include may

/-- A FULL needs a valid ZERO of its entry and set. -/
theorem State.calStart_unzeroed (unzeroed : s.fb (ADC_CAL_STAT_ZVALID n) = false) :
    s.calStart n 2 v = (s.calNamed n 2 v).calCode n 2 3 := by
  unfold State.calStart
  rw [if_neg (by simp [idle])]
  exact (if_neg (by omega)).trans ((if_neg (by simp [may])).trans (if_pos ⟨rfl, by simp [unzeroed]⟩))

variable (zeroed : op = 2 → s.fb (ADC_CAL_STAT_ZVALID n) = true ∧ s.fld (ADC_CAL_STAT_ZENTRY n) = bits v.toNat 11 8 ∧
  s.fld (ADC_CAL_STAT_ZSET n) = bits v.toNat 14 12)
include zeroed

/-- A measurement that is not refused is held, and begins at once where no run is in progress. -/
theorem State.calStart_accepted : s.calStart n op v = if (s.adcOf n).run then s.calHeld n op v else s.calBegun n op v := by
  unfold State.calBegun State.calHeld
  rw [← State.calNamed_adcOf (s := s) (n := n) (v := v) op n]
  unfold State.calStart
  rw [if_neg (by simp [idle])]
  exact (if_neg (by omega)).trans ((if_neg (by simp [may])).trans (if_neg fun h => h.2 (zeroed h.1)))

theorem State.calStart_waits (running : (s.adcOf n).run = true) : (s.calStart n op v).CalHolds n op v true (s.adcOf n).cur := by
  rw [State.calStart_accepted idle inside may zeroed, if_pos running, ← running]
  exact State.calHeld_holds op

theorem State.calStart_begins (still : (s.adcOf n).run = false) : (s.calStart n op v).CalHolds n op v false (bits v.toNat 11 8) := by
  rw [State.calStart_accepted idle inside may zeroed, if_neg (by simp [still]), ← still]
  exact State.calBegun_holds op

end

/-! ### ABORT (R169) -/

theorem State.Reschedules.afterCal {u : State} (h : s.Reschedules n u) (cont : Bool) : s.Reschedules n (u.afterCal n cont) := by
  unfold State.afterCal
  dsimp only
  split
  · exact h
  split
  · exact .startRun (.setAdc h rfl rfl)
  split
  · exact .startRun h
  · exact .rcalBorrow h _

theorem State.calAbort_none (calm : (s.adcOf n).cal = none) : s.calAbort n = s := by
  unfold State.calAbort
  rw [calm]

theorem State.calAbort_some {m : CalMeas} (h : (s.adcOf n).cal = some m) : s.calAbort n = (s.calCode n m.op 4).afterCal n m.cont := by
  unfold State.calAbort
  rw [h]

/-! ### SAVE and RESTORE (R171, R172) -/

theorem State.calStore_busy (op : Nat) (busy : s.fb (ADC_CAL_CMD_BUSY n) = true) : s.calStore n op v = s := if_pos busy

theorem State.calLoad_none {c : Nat} (h : s.newerCopy n c = none) : s.calLoad n c = (s.setFld (ADC_IRQ_STAT_RESTERR n) 1, false) := by
  unfold State.calLoad State.calSet
  rw [h]
  rfl

theorem State.calLoad_some {c k : Nat} (h : s.newerCopy n c = some k) : s.calLoad n c =
    (s.writePair n c ((s.retainWords (calAddr n c k) 4).getD 0 0) ((s.retainWords (calAddr n c k) 4).getD 1 0), true) := by
  unfold State.calLoad State.calSet
  rw [h]
  rfl

/-- Words of the retention store depend on its bytes and inverted bits alone. -/
theorem State.retainWords_of_mem {u : State} (mem : u.mem = s.mem) (ecc : u.ecc = s.ecc) (a k : Nat) :
    u.retainWords a k = s.retainWords a k := by
  have read (b : Nat) : (u.retainRead b 4).2.1 = (s.retainRead b 4).2.1 := by
    unfold State.retainRead State.flips
    rw [ecc]
    dsimp only
    split <;> dsimp only <;> rw [State.load_of_mem mem]
  unfold State.retainWords
  simp only [read]

theorem State.calFields_mem : (s.calFields n v).mem = s.mem := by
  unfold State.calFields
  rw [State.setFld_mem, State.setFld_mem, State.setFld_mem]

theorem State.calFields_ecc : (s.calFields n v).ecc = s.ecc := by
  unfold State.calFields
  rw [State.setFld_ecc, State.setFld_ecc, State.setFld_ecc]

section
variable (idle : s.fb (ADC_CAL_CMD_BUSY n) = false)
include idle

theorem State.calStore_saves : s.calStore n 4 v =
    ((s.calFields n v).calSave n (bits v.toNat 14 12)).setFld (ADC_CAL_STAT_CODE n) 0 := if_neg (by simp [idle])

theorem State.calStore_loads : s.calStore n 5 v = ((s.calFields n v).calLoad n (bits v.toNat 14 12)).1.setFld (ADC_CAL_STAT_CODE n)
    (if ((s.calFields n v).calLoad n (bits v.toNat 14 12)).2 then 0 else 0x0A) := if_neg (by simp [idle])

theorem State.calStore_fails (absent : (s.calFields n v).newerCopy n (bits v.toNat 14 12) = none) :
    s.calStore n 5 v = ((s.calFields n v).setFld (ADC_IRQ_STAT_RESTERR n) 1).setFld (ADC_CAL_STAT_CODE n) 0x0A := by
  rw [State.calStore_loads idle, State.calLoad_none absent]
  rfl

/-- The pair of the newer valid copy becomes that of its set. -/
theorem State.calStore_restores {k : Nat} (found : (s.calFields n v).newerCopy n (bits v.toNat 14 12) = some k) :
    let ws := s.retainWords (calAddr n (bits v.toNat 14 12) k) 4
    s.calStore n 5 v =
      ((s.calFields n v).writePair n (bits v.toNat 14 12) (ws.getD 0 0) (ws.getD 1 0)).setFld (ADC_CAL_STAT_CODE n) 0 := by
  rw [State.calStore_loads idle, State.calLoad_some found, State.retainWords_of_mem State.calFields_mem State.calFields_ecc]
  rfl

end

theorem State.reg_setFld_other {f : RF} {a : Nat} (m : Nat) (h : a ≠ f.addr) : (s.setFld f m).reg a = s.reg a :=
  State.reg_setReg_other _ _ _ _ h

/-- A pair that is written stands in the registers of its set. -/
theorem State.writePair_regs (c : Nat) (ofs gain : Word) : (s.writePair n c ofs gain).reg (ADC_CALOFS_at n c) = ofs ∧
    (s.writePair n c ofs gain).reg (ADC_CALGAIN_at n c) = gain := by
  have regs : (s.writePair n c ofs gain).regs =
      tset (rstWord (ADC_CALGAIN_at n c)) (s.setReg (ADC_CALOFS_at n c) ofs).regs (ADC_CALGAIN_at n c) gain := rfl
  have apart : ADC_CALOFS_at n c ≠ ADC_CALGAIN_at n c := by unfold ADC_CALOFS_at ADC_CALGAIN_at; omega
  unfold State.reg
  rw [regs, tget_tset_same, tget_tset_other _ _ _ _ _ _ apart]
  exact ⟨State.reg_setReg_same _ _ _, rfl⟩

/-- A pair that is restored stands in the registers of its set, and the command ends well. -/
theorem State.restored_shows (c : Nat) (ofs gain : Word) : let u := (s.writePair n c ofs gain).setFld (ADC_CAL_STAT_CODE n) 0
    u.fld (ADC_CAL_STAT_CODE n) = 0 ∧ u.reg (ADC_CALOFS_at n c) = ofs ∧ u.reg (ADC_CALGAIN_at n c) = gain := by
  have ofs_stat : ADC_CALOFS_at n c ≠ ADC_CAL_STAT_at n := by unfold ADC_CALOFS_at ADC_CAL_STAT_at; omega
  have gain_stat : ADC_CALGAIN_at n c ≠ ADC_CAL_STAT_at n := by unfold ADC_CALGAIN_at ADC_CAL_STAT_at; omega
  dsimp only
  rw [State.fld_setFld_fits (RF.fits (by decide)) (Nat.two_pow_pos _), State.reg_setFld_other _ ofs_stat, State.reg_setFld_other _ gain_stat]
  exact ⟨rfl, State.writePair_regs c ofs gain⟩

/-- Settles O37: by the gate of the bay and a command in progress, then each command by what refuses it. -/
theorem calibrationsStartEndAndKeep : Obligations.CalibrationsStartEndAndKeep := by
  intro s n v x e c s1 may open_
  have gate {f : State → State} {u : State} (free : open_) (h : f s = u) :
      done s (s.bayGate (n / 2) (ADC_CAL_CMD_at n) f) = .next (settle s u) :=
    congrArg (done s) ((State.bayGate_open _ _ free).trans h)
  refine ⟨?held, ?busy, fun free idle => ⟨?zero, ?zeroWaits, ?full, ?unzeroed, ?beyond, ?disabled,
    gate free (State.calStore_saves idle), ?restoreNone, ?restore⟩, fun free calm => gate free (State.calAbort_none calm), ?abort⟩
  case held =>
    intro held
    have denied (f : State → State) := congrArg (done s) (State.bayGate_held (k := n / 2) (ADC_CAL_CMD_at n) f (by simpa [open_] using held))
    simp only [List.forall_mem_cons]
    exact ⟨denied _, denied _, denied _, denied _, denied _, nofun⟩
  case busy =>
    intro free busy
    simp only [List.forall_mem_cons]
    exact ⟨gate free (State.calStart_busy 1 busy), gate free (State.calStart_busy 2 busy), gate free (State.calStore_busy 4 busy),
      gate free (State.calStore_busy 5 busy), nofun⟩
  case zero =>
    intro inside hm still
    have holds := (State.calStart_begins (op := 1) idle inside hm nofun still).settled s
    exact ⟨_, gate free rfl, holds.cal, holds.cur, holds.busy, holds.unzeroed rfl⟩
  case zeroWaits =>
    intro inside hm running
    have holds := (State.calStart_waits (op := 1) idle inside hm nofun running).settled s
    exact ⟨_, gate free rfl, holds.cal, holds.cur, holds.busy, holds.unzeroed rfl⟩
  case full =>
    intro inside hm still zvalid zentry zset
    have holds := (State.calStart_begins (op := 2) idle inside hm (fun _ => ⟨zvalid, zentry, zset⟩) still).settled s
    exact ⟨_, gate free rfl, holds.cal, holds.cur, holds.busy⟩
  case unzeroed =>
    intro inside hm unzeroed
    have ends := ((s.calNamed n 2 v).calCode_ends (n := n) 2 (code := 3) (by decide)).settled s
    exact ⟨_, gate free (State.calStart_unzeroed idle inside hm unzeroed), ends.shows, ends.idle, ends.noted rfl (by decide)⟩
  case beyond =>
    intro beyond
    exact ⟨_, gate free (State.calStart_beyond idle beyond), ((State.calCode_ends 1 (by decide)).settled s).shows⟩
  case disabled =>
    intro inside off
    exact ⟨_, gate free (State.calStart_disabled idle inside off), ((State.calCode_ends 1 (by decide)).settled s).shows⟩
  case restoreNone =>
    intro absent
    refine ⟨_, gate free (State.calStore_fails idle absent), ?_⟩
    rw [settle_fld, settle_fb, State.fb_setFld_apart _ _ _ (.inl (calibrationStat_ne_irq n).symm)]
    exact ⟨State.fld_setFld_fits (RF.fits (by decide)) (by show 0x0A < 256; decide), State.fb_setFld_one _ (RF.fits (by decide))⟩
  case restore =>
    intro k found
    refine ⟨_, gate free (State.calStore_restores idle found), ?_⟩
    rw [settle_fld, settle_reg, settle_reg]
    exact State.restored_shows c _ _
  case abort =>
    intro m free measuring
    have stays := (State.Reschedules.refl (s.calCode n m.op 4) n).afterCal m.cont
    have ends := s.calCode_ends (n := n) m.op (code := 4) (by decide)
    refine ⟨_, gate free (State.calAbort_some measuring), ?_⟩
    rw [State.adcOf_of_adc (settle_adc _ _), settle_fld, settle_fb, stays.cal, stays.fld (calibrationStat_ne_async n),
      stays.fb (calibrationCmd_ne_async n)]
    exact ⟨ends.cal, ends.shows, ends.idle⟩

end Sys2Proof.Machine
end

section
/-! PROOFS. Comparators and windows: crossings, samples, latches and their clears (O38). -/

namespace Sys2Proof.Machine

variable {s u : State} {k c d w : Nat}

/-! ### What an event that is lost at a clock that stands may write (R188) -/

/-- A field that no event writes: no counter and no cause of a comparator, and no bit of the counter in a window's status. -/
structure RF.Unsignalled (g : RF) : Prop where
  counter : ∀ k, ∀ c < 4, g.addr ≠ CMP_CNT_at k c
  window : ∀ k, ∀ w < 2, g.addr ≠ CMP_WIN_STAT_at k w ∨ g.lo ≤ g.hi ∧ (g.hi < 8 ∨ 15 < g.lo)
  cause : ∀ k, g.addr ≠ CMP_IRQ_STAT_at k

/-- A register outside the comparators of a bay, one of a comparator before its counters, and the configuration of a window. -/
theorem RF.Unsignalled.of_place {a hi lo : Nat} (place : a % 0x10000 < 0x6000 ∨ 0x60a4 < a % 0x10000 ∨
    a % 0x10000 < 0x6080 ∧ a % 0x20 < 0x10 ∨ 0x6080 ≤ a % 0x10000 ∧ a % 0x10 = 0) : (RF.mk a hi lo).Unsignalled where
  counter k c hc := by unfold CMP_CNT_at; dsimp only; omega
  window k w hw := by unfold CMP_WIN_STAT_at; dsimp only; omega
  cause k := by unfold CMP_IRQ_STAT_at; dsimp only; omega

section
variable {hi lo : Nat}

theorem RF.unsignalled_cmpCfg : (RF.mk (CMP_CFG_at k c) hi lo).Unsignalled := .of_place (by unfold CMP_CFG_at; omega)
theorem RF.unsignalled_cmpFilt (hc : c < 4) : (RF.mk (CMP_FILT_at k c) hi lo).Unsignalled := .of_place (by unfold CMP_FILT_at; omega)
theorem RF.unsignalled_cmpStat (hc : c < 4) : (RF.mk (CMP_STAT_at k c) hi lo).Unsignalled := .of_place (by unfold CMP_STAT_at; omega)
theorem RF.unsignalled_winCfg (hw : w < 2) : (RF.mk (CMP_WIN_CFG_at k w) hi lo).Unsignalled := .of_place (by unfold CMP_WIN_CFG_at; omega)
theorem RF.unsignalled_cmpWake : (RF.mk (CMP_WAKE_at k) hi lo).Unsignalled := .of_place (by unfold CMP_WAKE_at; omega)
theorem RF.unsignalled_bayStatus : (RF.mk (BAY_STATUS_at k) hi lo).Unsignalled := .of_place (by unfold BAY_STATUS_at; omega)

/-- The low bits of a window's status. -/
theorem RF.unsignalled_winStat (hw : w < 2) (low : lo ≤ hi ∧ hi < 8) : (RF.mk (CMP_WIN_STAT_at k w) hi lo).Unsignalled where
  counter j c hc := by unfold CMP_CNT_at CMP_WIN_STAT_at; dsimp only; omega
  window _ _ _ := .inr ⟨low.1, .inl low.2⟩
  cause j := by unfold CMP_IRQ_STAT_at CMP_WIN_STAT_at; dsimp only; omega

end

/-! ### The status of a comparator stands apart -/

theorem cmpStat_ne_other (apart : c ≠ d) : CMP_STAT_at k c ≠ CMP_STAT_at k d := by unfold CMP_STAT_at; omega
theorem cmpCfg_ne_stat (k c d : Nat) : CMP_CFG_at k c ≠ CMP_STAT_at k d := by unfold CMP_CFG_at CMP_STAT_at; omega
theorem cmpFilt_ne_stat (k c d : Nat) : CMP_FILT_at k c ≠ CMP_STAT_at k d := by unfold CMP_FILT_at CMP_STAT_at; omega
theorem cmpWake_ne_stat (hd : d < 4) : CMP_WAKE_at k ≠ CMP_STAT_at k d := by unfold CMP_WAKE_at CMP_STAT_at; omega
theorem cmpStat_ne_winStat (k c w : Nat) : CMP_STAT_at k c ≠ CMP_WIN_STAT_at k w := by unfold CMP_STAT_at CMP_WIN_STAT_at; omega
theorem winCfg_ne_cmpStat (k w c : Nat) : CMP_WIN_CFG_at k w ≠ CMP_STAT_at k c := by unfold CMP_WIN_CFG_at CMP_STAT_at; omega
theorem bayStatus_ne_cmpStat (k c : Nat) : BAY_STATUS_at k ≠ CMP_STAT_at k c := by unfold BAY_STATUS_at CMP_STAT_at; omega
theorem clkStat_ne_cmpStat (k c : Nat) : CLK_STAT_at ≠ CMP_STAT_at k c := by unfold CLK_STAT_at CMP_STAT_at; omega
theorem clkMod_ne_cmpStat (k c : Nat) : CLK_MOD_at ≠ CMP_STAT_at k c := by unfold CLK_MOD_at CMP_STAT_at; omega

section
variable {g : RF} (hg : g.Unsignalled)
include hg

theorem State.eventLost_fld (e : Nat) : (s.eventLost e).fld g = s.fld g := by
  unfold State.eventLost
  split
  · exact (State.fld_setFld_other _ _ _ _ (hg.cause _)).trans (State.fld_setFld_other _ _ _ _ (hg.counter _ _ (by omega)))
  split
  · exact (State.fld_setFld_other _ _ _ _ (hg.cause _)).trans (State.fld_setFld_apart _ _ _ _ (hg.window _ _ (by omega)))
  · rfl

theorem State.firePulse_fld (e : Nat) (d : Domain) : (s.firePulse e d).fld g = s.fld g := by
  unfold State.firePulse
  split
  · exact State.eventLost_fld hg e
  · rfl

theorem State.fire_fld (e : Nat) : (s.fire e).fld g = s.fld g := by
  unfold State.fire
  dsimp only
  split
  · rfl
  · exact List.foldlRecOn (motive := fun (u : State) => u.fld g = s.fld g) _ _ rfl
      fun u hu d _ => (State.firePulse_fld hg e d).trans hu

end

/-! ### Comparators in the state -/

@[simp] theorem State.cmpOf_setCmp_same (n : Nat) (x : Cmp) : (s.setCmp n x).cmpOf n = x := tget_tset_same _ _ _ _

theorem State.cmpOf_setCmp_other {m n : Nat} (x : Cmp) (h : m ≠ n) : (s.setCmp n x).cmpOf m = s.cmpOf m := tget_tset_other _ _ _ _ _ _ h

theorem State.cmpOf_of_cmp (h : u.cmp = s.cmp) (n : Nat) : u.cmpOf n = s.cmpOf n := by
  unfold State.cmpOf; rw [h]

theorem State.FabricOnly.cmp (h : s.FabricOnly u) : u.cmp = s.cmp := by
  obtain ⟨r, q, f, b, rfl⟩ := h
  rfl

theorem State.FabricOnly.pwr (h : s.FabricOnly u) : u.pwr = s.pwr := by
  obtain ⟨r, q, f, b, rfl⟩ := h
  rfl

/-! ### An edge of F (R184, R188, R190) -/

theorem State.putF_fabricOnly (f : Bool) : s.FabricOnly (s.putF k c f) := by
  unfold State.putF
  dsimp only
  split
  · exact .setB _ _
  · exact .trans (.setB _ _) (.addSat _ _)

/-- F takes a value, and sets the latch where it is 1 (R184). -/
def State.latchF (s : State) (k c : Nat) (f : Bool) : State :=
  if f then (s.putF k c f).setFld (CMP_STAT_L k c) 1 else s.putF k c f

/-- An edge of F latches, notes a latch that rises, and fires by the choice of EVT. -/
theorem State.edgeF_cases (f : Bool) : ∃ t : State, (t = s.latchF k c f ∨ t = (s.latchF k c f).orBit (CMP_IRQ_STAT_LSET k) c) ∧
    (s.edgeF k c f = t ∨ s.edgeF k c f = t.fire (4 * k + c)) :=
  ⟨_, (ite_eq_or_eq _ _ _).symm, (ite_eq_or_eq _ _ _).symm⟩

theorem State.latchF_fabricOnly (f : Bool) : s.FabricOnly (s.latchF k c f) := by
  unfold State.latchF
  split
  · exact (State.putF_fabricOnly f).trans (.setFld _ _)
  · exact State.putF_fabricOnly f

theorem State.edgeF_fabricOnly (f : Bool) : s.FabricOnly (s.edgeF k c f) := by
  obtain ⟨t, noted, fired⟩ := s.edgeF_cases (k := k) (c := c) f
  have latched : s.FabricOnly t := by
    rcases noted with rfl | rfl
    · exact State.latchF_fabricOnly f
    · exact (State.latchF_fabricOnly f).trans (.setFld _ _)
  rcases fired with e | e <;> rw [e]
  · exact latched
  · exact latched.trans (State.fire_fabricOnly _)

theorem State.putF_fld {g : RF} (hg : g.Unsignalled) (hc : c < 4) (f : Bool) :
    (s.putF k c f).fld g = (s.setB (CMP_STAT_F k c) f).fld g := by
  unfold State.putF
  dsimp only
  split
  · rfl
  · exact State.fld_setFld_other _ _ _ _ (hg.counter k c hc)

theorem State.edgeF_fld {g : RF} (hg : g.Unsignalled) (f : Bool) : (s.edgeF k c f).fld g = (s.latchF k c f).fld g := by
  obtain ⟨t, noted, fired⟩ := s.edgeF_cases (k := k) (c := c) f
  have latched : t.fld g = (s.latchF k c f).fld g := by
    rcases noted with rfl | rfl
    · rfl
    · exact State.fld_setFld_other _ _ _ _ (hg.cause k)
  rcases fired with e | e <;> rw [e]
  · exact latched
  · exact (State.fire_fld hg _).trans latched

section
variable (hc : c < 4) (f : Bool)
include hc

/-- An edge writes F and L of the comparator's status, where events write nothing. -/
theorem State.edgeF_fld_apart {g : RF} (hg : g.Unsignalled) (apart : g.addr ≠ CMP_STAT_at k c ∨ g.lo ≤ g.hi ∧ 1 < g.lo) :
    (s.edgeF k c f).fld g = s.fld g := by
  have put : (s.putF k c f).fld g = s.fld g :=
    (State.putF_fld hg hc f).trans (State.fld_setFld_apart _ _ _ _ (apart.imp_right fun h => ⟨h.1, .inr (by show 0 < g.lo; omega)⟩))
  rw [State.edgeF_fld hg]
  unfold State.latchF
  split
  · exact (State.fld_setFld_apart _ _ _ _ (apart.imp_right fun h => ⟨h.1, .inr h.2⟩)).trans put
  · exact put

theorem State.edgeF_F : (s.edgeF k c f).fb (CMP_STAT_F k c) = f := by
  have put : (s.putF k c f).fb (CMP_STAT_F k c) = f := by
    unfold State.fb
    rw [State.putF_fld (RF.unsignalled_cmpStat hc) hc]
    exact State.fb_setB_same _ _ (RF.fits (by decide))
  unfold State.fb
  rw [State.edgeF_fld (RF.unsignalled_cmpStat hc)]
  unfold State.latchF
  split
  · exact (State.fb_setFld_apart _ _ _ (.inr (by simp))).trans put
  · exact put

theorem State.edgeF_L : (s.edgeF k c f).fb (CMP_STAT_L k c) = (f || s.fb (CMP_STAT_L k c)) := by
  unfold State.fb
  rw [State.edgeF_fld (RF.unsignalled_cmpStat hc)]
  cases f with
  | true => exact State.fb_setFld_one _ (RF.fits (by decide))
  | false =>
    show ((s.putF k c false).fld (CMP_STAT_L k c) != 0) = _
    rw [State.putF_fld (RF.unsignalled_cmpStat hc) hc]
    exact State.fb_setFld_apart _ _ _ (.inr (by simp))

end

/-! ### An edge of a window (R186, R188, R190) -/

/-- From `s` to `u` window `w` of bay `k` has noted an edge: its latch, its error and the causes of the bay, and what an event writes. -/
structure State.WindowNotes (s : State) (k w : Nat) (u : State) : Prop where
  fabricOnly : s.FabricOnly u
  fld : ∀ g : RF, g.Unsignalled → g.addr ≠ CMP_WIN_STAT_at k w ∨ g.lo ≤ g.hi ∧ g.hi < 2 → u.fld g = s.fld g

theorem State.WindowNotes.refl (s : State) (k w : Nat) : s.WindowNotes k w s := ⟨.refl s, fun _ _ _ => rfl⟩

theorem State.WindowNotes.status {f : RF} (v : Nat) (at_ : f.addr = CMP_WIN_STAT_at k w) (above : 1 < f.lo) :
    s.WindowNotes k w (s.setFld f v) where
  fabricOnly := .setFld _ _
  fld _ _ apart := State.fld_setFld_apart _ _ _ _ (at_ ▸ apart.imp_right fun h => ⟨h.1, .inl (by omega)⟩)

theorem State.WindowNotes.cause {f : RF} (v : Nat) (at_ : f.addr = CMP_IRQ_STAT_at k) : s.WindowNotes k w (s.setFld f v) where
  fabricOnly := .setFld _ _
  fld _ hg _ := State.fld_setFld_other _ _ _ _ (at_ ▸ hg.cause k)

theorem State.WindowNotes.fire (e : Nat) : s.WindowNotes k w (s.fire e) where
  fabricOnly := State.fire_fabricOnly e
  fld _ hg _ := State.fire_fld hg e

section
variable {t : State} (h : s.WindowNotes k w u) (step : u.WindowNotes k w t)
include h step

theorem State.WindowNotes.trans : s.WindowNotes k w t where
  fabricOnly := h.fabricOnly.trans step.fabricOnly
  fld g hg apart := (step.fld g hg apart).trans (h.fld g hg apart)

theorem State.WindowNotes.ifThen {p : Prop} [Decidable p] : s.WindowNotes k w (if p then t else u) := by
  split
  · exact h.trans step
  · exact h

theorem State.WindowNotes.ifElse {p : Prop} [Decidable p] : s.WindowNotes k w (if p then u else t) := by
  split
  · exact h
  · exact h.trans step

end

/-- The state that the F signals of window `w` form. -/
def State.winNow (s : State) (k w : Nat) : Nat := winState (s.fb (CMP_STAT_F k (2 * w))) (s.fb (CMP_STAT_F k (2 * w + 1)))

theorem State.winNow_lt : s.winNow k w < 4 := by
  unfold State.winNow winState
  split
  · decide
  split <;> decide

theorem State.winEdge_off (off : s.fb (CMP_WIN_CFG_EN k w) = false) : s.winEdge k w = s := if_pos off

/-- An enabled window forms its state, and notes the edge. -/
theorem State.winEdge_on (on : s.fb (CMP_WIN_CFG_EN k w) = true) :
    (s.setFld (CMP_WIN_STAT_STATE k w) (s.winNow k w)).WindowNotes k w (s.winEdge k w) := by
  unfold State.winEdge
  rw [if_neg (by simp [on])]
  exact ((((State.WindowNotes.refl _ k w).ifThen ((State.WindowNotes.status 1 rfl (by simp)).trans (.cause 1 rfl))).ifElse
    (.status 1 rfl (by simp))).ifThen (.cause _ rfl)).ifElse (.fire _)

theorem State.winEdge_state (hw : w < 2) (on : s.fb (CMP_WIN_CFG_EN k w) = true) :
    (s.winEdge k w).fld (CMP_WIN_STAT_STATE k w) = s.winNow k w := by
  rw [(State.winEdge_on on).fld _ (RF.unsignalled_winStat hw (by decide)) (.inr (by simp))]
  exact State.fld_setFld_fits (RF.fits (by decide)) State.winNow_lt

theorem State.winEdge_fld {g : RF} (hg : g.Unsignalled) (apart : g.addr ≠ CMP_WIN_STAT_at k w) : (s.winEdge k w).fld g = s.fld g := by
  cases on : s.fb (CMP_WIN_CFG_EN k w) with
  | false => rw [State.winEdge_off on]
  | true => exact ((State.winEdge_on on).fld g hg (.inl apart)).trans (State.fld_setFld_other _ _ _ _ apart)

theorem State.winEdge_cmp : (s.winEdge k w).cmp = s.cmp := by
  cases on : s.fb (CMP_WIN_CFG_EN k w) with
  | false => rw [State.winEdge_off on]
  | true => exact (State.winEdge_on on).fabricOnly.cmp

theorem State.winEdge_cmpStat (hc : c < 4) (hi lo : Nat) :
    (s.winEdge k w).fb ⟨CMP_STAT_at k c, hi, lo⟩ = s.fb ⟨CMP_STAT_at k c, hi, lo⟩ :=
  congrArg (· != 0) (State.winEdge_fld (RF.unsignalled_cmpStat hc) (cmpStat_ne_winStat k c w))

/-! ### Samples (R174, R179, R182) -/

theorem State.cmpSync_runs (runs : s.modRuns (k / 4) = true) : s.cmpSync k c = s.setB (CMP_STAT_CSYNC k c) (s.cmpC k c) := if_pos runs

theorem State.cmpSync_stands (stands : s.modRuns (k / 4) ≠ true) : s.cmpSync k c = s := if_neg stands

/-- The last M samples, of which C is the newest. -/
def State.sampled (s : State) (k c : Nat) : List Bool := (s.cmpC k c :: (s.cmpOf (4 * k + c)).hist).take (s.fld (CMP_FILT_M k c))

/-- F after a sample: 1 with N ones, 0 with N zeros, and else as it was. -/
def State.majority (s : State) (k c : Nat) : Bool :=
  let ones := ((s.sampled k c).filter id).length
  if s.fld (CMP_FILT_N k c) ≤ ones then true
  else if s.fld (CMP_FILT_N k c) ≤ (s.sampled k c).length - ones then false else s.fb (CMP_STAT_F k c)

theorem State.majority_ones (high : s.fld (CMP_FILT_N k c) ≤ ((s.sampled k c).filter id).length) : s.majority k c = true := if_pos high

section
variable (few : ((s.sampled k c).filter id).length < s.fld (CMP_FILT_N k c))
include few

theorem State.majority_zeros (low : s.fld (CMP_FILT_N k c) ≤ (s.sampled k c).length - ((s.sampled k c).filter id).length) :
    s.majority k c = false := (if_neg (Nat.not_le.mpr few)).trans (if_pos low)

theorem State.majority_mixed (mixed : (s.sampled k c).length - ((s.sampled k c).filter id).length < s.fld (CMP_FILT_N k c)) :
    s.majority k c = s.fb (CMP_STAT_F k c) := (if_neg (Nat.not_le.mpr few)).trans (if_neg (Nat.not_le.mpr mixed))

end

/-- The state whose history holds the sample, before F follows it. -/
def State.takeSample (s : State) (k c : Nat) : State :=
  (s.setB (CMP_STAT_CSYNC k c) (s.cmpC k c)).setCmp (4 * k + c) { s.cmpOf (4 * k + c) with hist := s.sampled k c }

theorem State.takeSample_fld_apart {g : RF} (apart : g.addr ≠ CMP_STAT_at k c ∨ g.lo ≤ g.hi ∧ (g.hi < 2 ∨ 2 < g.lo)) :
    (s.takeSample k c).fld g = s.fld g :=
  (State.fld_of_regs (State.setCmp_regs _ _ _) g).trans (State.fld_setFld_apart _ _ _ _ apart)

theorem State.sampleF_takes (on : s.cmpOn k c = true) (free : s.fb (CMP_STAT_HOLD k c) = false)
    (runs : s.modRuns (k / 4) = true) : s.sampleF k c = (s.takeSample k c).edgeF k c (s.majority k c) := by
  have shown : (s.setB (CMP_STAT_CSYNC k c) (s.cmpC k c)).fb (CMP_STAT_CSYNC k c) = s.cmpC k c :=
    State.fb_setB_same _ _ (RF.fits (by decide))
  have m : (s.setB (CMP_STAT_CSYNC k c) (s.cmpC k c)).fld (CMP_FILT_M k c) = s.fld (CMP_FILT_M k c) :=
    State.fld_setFld_other _ _ _ _ (cmpFilt_ne_stat k c c)
  have need : (s.setB (CMP_STAT_CSYNC k c) (s.cmpC k c)).fld (CMP_FILT_N k c) = s.fld (CMP_FILT_N k c) :=
    State.fld_setFld_other _ _ _ _ (cmpFilt_ne_stat k c c)
  have old : (s.setB (CMP_STAT_CSYNC k c) (s.cmpC k c)).fb (CMP_STAT_F k c) = s.fb (CMP_STAT_F k c) :=
    State.fb_setFld_apart _ _ _ (.inr (by simp))
  unfold State.sampleF
  rw [if_neg (by simp [on, free, runs]), State.cmpSync_runs runs]
  dsimp only
  rw [shown, m, need, old]
  rfl

theorem State.sampleF_none (h : s.cmpOn k c = false ∨ s.fb (CMP_STAT_HOLD k c) = true ∨ s.modRuns (k / 4) = false) :
    s.sampleF k c = s := if_pos h

/-- From `s` to `u` no more than comparator `d` of bay `k` has sampled. -/
structure State.Samples (s : State) (k d : Nat) (u : State) : Prop where
  pwr : u.pwr = s.pwr
  cmp : ∀ n, n ≠ 4 * k + d → u.cmpOf n = s.cmpOf n
  fld : ∀ g : RF, g.Unsignalled → g.addr ≠ CMP_STAT_at k d → u.fld g = s.fld g

theorem State.sampleF_samples (hd : d < 4) : s.Samples k d (s.sampleF k d) := by
  by_cases h : s.cmpOn k d = false ∨ s.fb (CMP_STAT_HOLD k d) = true ∨ s.modRuns (k / 4) = false
  · rw [State.sampleF_none h]
    exact ⟨rfl, fun _ _ => rfl, fun _ _ _ => rfl⟩
  · simp only [not_or, Bool.not_eq_false, Bool.not_eq_true] at h
    obtain ⟨on, free, runs⟩ := h
    rw [State.sampleF_takes on free runs]
    have edge := (s.takeSample k d).edgeF_fabricOnly (k := k) (c := d) (s.majority k d)
    exact ⟨edge.pwr, fun n other => (State.cmpOf_of_cmp edge.cmp n).trans (State.cmpOf_setCmp_other _ other),
      fun g hg apart => (State.edgeF_fld_apart hd _ hg (.inl apart)).trans (State.takeSample_fld_apart (.inl apart))⟩

namespace State.Samples

variable (h : s.Samples k d u)
include h

theorem modRuns (g : Nat) : u.modRuns g = s.modRuns g := by
  have lock := h.fld CLK_STAT_LOCK (.of_place (by decide)) (clkStat_ne_cmpStat k d)
  have div := h.fld (modDiv g) (.of_place (by decide)) (clkMod_ne_cmpStat k d)
  unfold State.modRuns State.awake State.locked State.fbit
  rw [h.pwr, lock, div]

theorem cfg (hi lo : Nat) : u.fb ⟨CMP_CFG_at k c, hi, lo⟩ = s.fb ⟨CMP_CFG_at k c, hi, lo⟩ :=
  congrArg (· != 0) (h.fld _ RF.unsignalled_cmpCfg (cmpCfg_ne_stat k c d))

theorem winCfg (hw : w < 2) (hi lo : Nat) : u.fb ⟨CMP_WIN_CFG_at k w, hi, lo⟩ = s.fb ⟨CMP_WIN_CFG_at k w, hi, lo⟩ :=
  congrArg (· != 0) (h.fld _ (RF.unsignalled_winCfg hw) (winCfg_ne_cmpStat k w d))

theorem filt (hc : c < 4) (hi lo : Nat) : u.fld ⟨CMP_FILT_at k c, hi, lo⟩ = s.fld ⟨CMP_FILT_at k c, hi, lo⟩ :=
  h.fld _ (RF.unsignalled_cmpFilt hc) (cmpFilt_ne_stat k c d)

variable (apart : c ≠ d)
include apart

theorem own : u.cmpOf (4 * k + c) = s.cmpOf (4 * k + c) := h.cmp _ (by omega)

variable (hc : c < 4)
include hc

theorem stat (hi lo : Nat) : u.fb ⟨CMP_STAT_at k c, hi, lo⟩ = s.fb ⟨CMP_STAT_at k c, hi, lo⟩ :=
  congrArg (· != 0) (h.fld _ (RF.unsignalled_cmpStat hc) (cmpStat_ne_other apart))

/-- The other comparator of a window stays on or off. -/
theorem cmpOn (hd : d < 4) : u.cmpOn k c = s.cmpOn k c := by
  have held : u.fb (BAY_STATUS_HELD k) = s.fb (BAY_STATUS_HELD k) :=
    congrArg (· != 0) (h.fld _ RF.unsignalled_bayStatus (bayStatus_ne_cmpStat k d))
  have wake := h.fld (CMP_WAKE_WAKEEN k) RF.unsignalled_cmpWake (cmpWake_ne_stat hd)
  unfold State.cmpOn State.awake State.fbit
  rw [h.pwr, h.cfg, h.stat apart hc, held, h.own apart, wake]

theorem sampled : u.sampled k c = s.sampled k c := by
  unfold State.sampled State.cmpC
  rw [h.own apart, h.cfg, h.filt hc]

theorem majority : u.majority k c = s.majority k c := by
  unfold State.majority
  rw [h.sampled apart hc, h.filt hc, h.stat apart hc]

end State.Samples

/-! ### Crossings and sample edges (R174, R177, R179, R186) -/

theorem State.cmpCross_off (above : Bool) (off : s.cmpOn k c = false) : s.cmpCross k c above = s := if_pos off

theorem State.cmpCross_on (above : Bool) (on : s.cmpOn k c = true) :
    s.cmpCross k c above = (s.setCmp (4 * k + c) { s.cmpOf (4 * k + c) with r := above }).cmpSync k c := if_neg (by simp [on])

theorem State.cmpC_setCmp (x : Cmp) : (s.setCmp (4 * k + c) x).cmpC k c = (x.r != s.fb (CMP_CFG_POL k c)) := by
  unfold State.cmpC
  rw [State.cmpOf_setCmp_same, State.fb_of_regs (State.setCmp_regs _ _ _)]

theorem State.cmpCross_runs (above : Bool) (on : s.cmpOn k c = true) (runs : s.modRuns (k / 4) = true) : s.cmpCross k c above =
    (s.setCmp (4 * k + c) { s.cmpOf (4 * k + c) with r := above }).setB (CMP_STAT_CSYNC k c) (above != s.fb (CMP_CFG_POL k c)) := by
  rw [State.cmpCross_on above on, State.cmpSync_runs (s := s.setCmp _ _) runs, State.cmpC_setCmp]

theorem State.cmpCross_stands (above : Bool) (on : s.cmpOn k c = true) (stands : s.modRuns (k / 4) ≠ true) :
    s.cmpCross k c above = s.setCmp (4 * k + c) { s.cmpOf (4 * k + c) with r := above } :=
  (State.cmpCross_on above on).trans (State.cmpSync_stands stands)

/-- The state after the other comparator of the window has sampled, where that samples at the same edge. -/
def State.partnerSampled (s : State) (k c : Nat) (pair : Bool) : State :=
  if pair then s.sampleF k (c / 2 * 2 + (1 - c % 2)) else s

theorem State.filterSample_none (pair : Bool) (h : s.cmpOn k c = false ∨ s.modRuns (k / 4) ≠ true) : s.filterSample k c pair = s :=
  if_pos (h.symm.imp_left Bool.eq_false_iff.mpr)

section
variable (on : s.cmpOn k c = true) (runs : s.modRuns (k / 4) = true)
include on runs

theorem State.filterSample_edge (pair : Bool) :
    s.filterSample k c pair = ((s.partnerSampled k c pair).sampleF k c).winEdge k (c / 2) := if_neg (by simp [on, runs])

theorem State.filterSample_held (hold : s.fb (CMP_STAT_HOLD k c) = true) : s.filterSample k c false = s.winEdge k (c / 2) := by
  rw [State.filterSample_edge on runs]
  exact congrArg (·.winEdge k (c / 2)) (State.sampleF_none (.inr (.inl hold)))

end

section
variable (hc : c < 4)
include hc

theorem State.partnerSampled_samples (pair : Bool) : ∃ d < 4, c ≠ d ∧ s.Samples k d (s.partnerSampled k c pair) := by
  refine ⟨c / 2 * 2 + (1 - c % 2), by omega, by omega, ?_⟩
  unfold State.partnerSampled
  split
  · exact State.sampleF_samples (by omega)
  · exact ⟨rfl, fun _ _ => rfl, fun _ _ _ => rfl⟩

variable (on : s.cmpOn k c = true) (free : s.fb (CMP_STAT_HOLD k c) = false) (runs : s.modRuns (k / 4) = true)
include on free runs

/-- A comparator that samples takes C into its history, and its F follows the majority and sets L. -/
theorem State.sampleF_shows : let u := s.sampleF k c
    (u.cmpOf (4 * k + c)).hist = s.sampled k c ∧ u.fb (CMP_STAT_F k c) = s.majority k c ∧
    u.fb (CMP_STAT_L k c) = (s.majority k c || s.fb (CMP_STAT_L k c)) := by
  dsimp only
  rw [State.sampleF_takes on free runs, State.cmpOf_of_cmp (State.edgeF_fabricOnly _).cmp]
  refine ⟨congrArg Cmp.hist (State.cmpOf_setCmp_same _ _), State.edgeF_F hc _, ?_⟩
  rw [State.edgeF_L hc]
  exact congrArg (s.majority k c || · != 0) (State.takeSample_fld_apart (.inr (by simp)))

/-- A sample edge shows in the comparator as it was, whether or not the other of its window samples with it, and in their window. -/
theorem State.filterSample_shows (pair : Bool) : let u := s.filterSample k c pair
    (u.cmpOf (4 * k + c)).hist = s.sampled k c ∧ u.fb (CMP_STAT_F k c) = s.majority k c ∧
    u.fb (CMP_STAT_L k c) = (s.majority k c || s.fb (CMP_STAT_L k c)) ∧
    (s.fb (CMP_WIN_CFG_EN k (c / 2)) = true → u.fld (CMP_WIN_STAT_STATE k (c / 2)) = u.winNow k (c / 2)) := by
  obtain ⟨d, hd, apart, other⟩ := State.partnerSampled_samples (s := s) (k := k) hc pair
  obtain ⟨hist, f, l⟩ := State.sampleF_shows hc ((other.cmpOn apart hc hd).trans on) ((other.stat apart hc 4 4).trans free)
    ((other.modRuns _).trans runs)
  dsimp only
  rw [State.filterSample_edge on runs, State.cmpOf_of_cmp State.winEdge_cmp, State.winEdge_cmpStat hc, State.winEdge_cmpStat hc, hist, f, l,
    other.sampled apart hc, other.majority apart hc, other.stat apart hc]
  refine ⟨rfl, rfl, rfl, fun enabled => ?_⟩
  have hw : c / 2 < 2 := by omega
  rw [State.winEdge_state hw (((State.sampleF_samples hc).winCfg hw 0 0).trans ((other.winCfg hw 0 0).trans enabled))]
  unfold State.winNow
  rw [State.winEdge_cmpStat (by omega), State.winEdge_cmpStat (by omega)]

end

/-! ### Clears of latches (R184 to R186) -/

theorem State.latchClear_none (h : s.clearq.find? (fun q => q.1 == k && q.2.1 == c) = none ∨ s.modRuns (k / 4) ≠ true) :
    s.latchClear k c = s := by
  unfold State.latchClear
  split
  · next found => exact if_neg (h.resolve_left (by simp [found]))
  · rfl

theorem State.latchClear_arrives {q : Nat × Nat × Bool} (found : s.clearq.find? (fun q => q.1 == k && q.2.1 == c) = some q)
    (runs : s.modRuns (k / 4) = true) : s.latchClear k c = ({ s with clearq := s.clearq.erase q } : State).clearLatch k c := by
  unfold State.latchClear
  rw [found]
  exact if_pos runs

theorem State.clearLatch_comparator (hc : c < 4) : s.clearLatch k c = s.setB (CMP_STAT_L k c) (s.fb (CMP_STAT_F k c)) := if_pos hc

theorem State.clearLatch_window (w : Nat) : s.clearLatch k (4 + w) =
    s.setB (CMP_WIN_STAT_WL k w) (s.fb (CMP_WIN_CFG_EN k w) && s.fld (CMP_WIN_STAT_STATE k w) != 1) := by
  unfold State.clearLatch
  rw [if_neg (by omega), Nat.add_sub_cancel_left]

end Sys2Proof.Machine
end

section
/-! PROOFS. DACs: the end of a range hold, shorts, and their clear (O38). -/

namespace Sys2Proof.Machine

variable {s : State} {n : Nat}

theorem dacCode_ne_stat (n : Nat) : DAC_CODE_at n ≠ DAC_STAT_at n := by unfold DAC_CODE_at DAC_STAT_at; omega
theorem dacIrq_ne_stat (n : Nat) : DAC_IRQ_STAT_at n ≠ DAC_STAT_at n := by unfold DAC_IRQ_STAT_at DAC_STAT_at; omega
theorem dacIrq_ne_code (n : Nat) : DAC_IRQ_STAT_at n ≠ DAC_CODE_at n := by unfold DAC_IRQ_STAT_at DAC_CODE_at; omega
theorem dacCnt_ne_stat (n : Nat) : DAC_CNT_at n ≠ DAC_STAT_at n := by unfold DAC_CNT_at DAC_STAT_at; omega
theorem dacCnt_ne_code (n : Nat) : DAC_CNT_at n ≠ DAC_CODE_at n := by unfold DAC_CNT_at DAC_CODE_at; omega
theorem dacCnt_ne_irq (n : Nat) : DAC_CNT_at n ≠ DAC_IRQ_STAT_at n := by unfold DAC_CNT_at DAC_IRQ_STAT_at; omega
theorem dacCfg_ne_stat (n : Nat) : DAC_CFG_at n ≠ DAC_STAT_at n := by unfold DAC_CFG_at DAC_STAT_at; omega

/-! ### States of an output (R200, R202, R204) -/

@[simp] theorem State.dacOf_setDac_same (x : Dac) : (s.setDac n x).dacOf n = x := tget_tset_same _ _ _ _

@[simp] theorem State.loopBreak_regs (n : Nat) : (s.loopBreak n).regs = s.regs := by
  unfold State.loopBreak
  dsimp only
  split
  · split <;> rfl
  · rfl

/-- A state that is entered writes the state, and where it does not drive the pad the limiter. -/
theorem State.dacTo_fld_apart {g : RF} (st : Nat)
    (apart : g.addr ≠ DAC_STAT_at n ∨ g.lo ≤ g.hi ∧ (2 < g.lo ∧ (g.hi < 6 ∨ 6 < g.lo))) : (s.dacTo n st).fld g = s.fld g := by
  have entered : ((s.loopBreak n).setFld (DAC_STAT_STATE n) st).fld g = s.fld g :=
    (State.fld_setFld_apart _ _ _ _ (apart.imp_right fun h => ⟨h.1, .inr h.2.1⟩)).trans (State.fld_of_regs (State.loopBreak_regs n) g)
  unfold State.dacTo
  dsimp only
  split
  · exact entered
  · exact (State.fld_of_regs (State.setDac_regs _ _ _) g).trans
      ((State.fld_setFld_apart _ _ _ _ (apart.imp_right fun h => ⟨h.1, h.2.2⟩)).trans entered)

theorem State.dacTo_state {st : Nat} (fits : st < 8) : (s.dacTo n st).fld (DAC_STAT_STATE n) = st := by
  have entered : ((s.loopBreak n).setFld (DAC_STAT_STATE n) st).fld (DAC_STAT_STATE n) = st :=
    State.fld_setFld_fits (RF.fits (by decide)) fits
  unfold State.dacTo
  dsimp only
  split
  · exact entered
  · exact (State.fld_of_regs (State.setDac_regs _ _ _) _).trans ((State.fld_setFld_apart _ _ _ _ (.inr (by simp))).trans entered)

theorem State.dacTo_limiting {st : Nat} (released : st ≠ 2 ∧ st ≠ 3) : (s.dacTo n st).fb (DAC_STAT_LIMITING n) = false := by
  unfold State.dacTo
  dsimp only
  rw [if_neg (show ¬ (st = dacDrive ∨ st = dacRange) from not_or.mpr released)]
  exact (State.fb_of_regs (State.setDac_regs _ _ _) _).trans (State.fb_setFld_zero _ (RF.fits (by decide)))

/-! ### The end of a range hold (R202, R203) -/

theorem State.putCode_fld_apart {g : RF} (code : Nat) (apart : g.addr ≠ DAC_CODE_at n) : (s.putCode n code).fld g = s.fld g := by
  unfold State.putCode
  rw [State.fld_setFld_other _ _ _ _ apart]
  split
  · rfl
  · exact State.fld_of_regs (State.loopBreak_regs n) g

theorem State.dacEndHold_fld_apart {g : RF} (code : g.addr ≠ DAC_CODE_at n)
    (apart : g.addr ≠ DAC_STAT_at n ∨ g.lo ≤ g.hi ∧ (g.hi < 5 ∨ 5 < g.lo)) : (s.dacEndHold n).fld g = s.fld g :=
  (State.fld_setFld_apart _ _ _ _ apart).trans (State.putCode_fld_apart _ code)

theorem State.dacEndHold_code : (s.dacEndHold n).fld (DAC_CODE_CODE n) = (s.dacOf n).pendCode % 2 ^ 14 :=
  (State.fld_setFld_other _ _ _ _ (dacCode_ne_stat n)).trans (State.fld_setFld_same _ _ _ (RF.fits (by decide)))

theorem State.dacEndHold_gain : (s.dacEndHold n).fb (DAC_STAT_GAINF n) = (s.dacOf n).pendGain :=
  State.fb_setB_same _ _ (RF.fits (by decide))

theorem State.rangeHoldEnd_range (st : s.fld (DAC_STAT_STATE n) = 3) : s.rangeHoldEnd n = (s.dacEndHold n).dacTo n 2 := if_pos st

theorem State.rangeHoldEnd_other (st : s.fld (DAC_STAT_STATE n) ≠ 3) : s.rangeHoldEnd n = s := if_neg st

/-! ### Shorts (R204) -/

/-- The state in which a short shows in its flag, its cause and its count. -/
def State.shortNoted (s : State) (n : Nat) : State :=
  (((s.setDac n { s.dacOf n with flagged := false }).setFld (DAC_STAT_SHORT n) 1).setFld (DAC_IRQ_STAT_SHORT n) 1).addSat
    (DAC_CNT_SHORTS n) 1

theorem State.shortNoted_fld_apart {g : RF} (count : g.addr ≠ DAC_CNT_at n) (irq : g.addr ≠ DAC_IRQ_STAT_at n)
    (apart : g.addr ≠ DAC_STAT_at n ∨ g.lo ≤ g.hi ∧ (g.hi < 7 ∨ 7 < g.lo)) : (s.shortNoted n).fld g = s.fld g :=
  (State.fld_setFld_other _ _ _ _ count).trans ((State.fld_setFld_other _ _ _ _ irq).trans
    ((State.fld_setFld_apart _ _ _ _ apart).trans (State.fld_of_regs (State.setDac_regs _ _ _) g)))

theorem State.shortNoted_short : (s.shortNoted n).fb (DAC_STAT_SHORT n) = true :=
  (State.fb_setFld_apart _ _ _ (.inl (dacCnt_ne_stat n).symm)).trans ((State.fb_setFld_apart _ _ _ (.inl (dacIrq_ne_stat n).symm)).trans
    (State.fb_setFld_one _ (RF.fits (by decide))))

theorem State.shortNoted_cause : (s.shortNoted n).fb (DAC_IRQ_STAT_SHORT n) = true :=
  (State.fb_setFld_apart _ _ _ (.inl (dacCnt_ne_irq n).symm)).trans (State.fb_setFld_one _ (RF.fits (by decide)))

/-- The state from which a short takes the output to FAULT: a range hold has ended. -/
def State.shortHeld (s : State) (n : Nat) : State :=
  if s.fld (DAC_STAT_STATE n) = 3 then (s.shortNoted n).dacEndHold n else s.shortNoted n

theorem State.shortHeld_fb_apart {g : RF} (code : g.addr ≠ DAC_CODE_at n)
    (apart : g.addr ≠ DAC_STAT_at n ∨ g.lo ≤ g.hi ∧ (g.hi < 5 ∨ 5 < g.lo)) : (s.shortHeld n).fb g = (s.shortNoted n).fb g := by
  unfold State.shortHeld
  split
  · exact congrArg (· != 0) (State.dacEndHold_fld_apart code apart)
  · rfl

theorem State.shortHeld_code : (s.shortHeld n).fld (DAC_CODE_CODE n) =
    if s.fld (DAC_STAT_STATE n) = 3 then (s.dacOf n).pendCode % 2 ^ 14 else s.fld (DAC_CODE_CODE n) := by
  have noted : (s.shortNoted n).dacOf n = { s.dacOf n with flagged := false } := State.dacOf_setDac_same _
  unfold State.shortHeld
  split
  · rw [State.dacEndHold_code, noted]
  · exact State.shortNoted_fld_apart (dacCnt_ne_code n).symm (dacIrq_ne_code n).symm (.inl (dacCode_ne_stat n))

theorem State.shortSets_stays (off : s.fb (DAC_CFG_FAULTPOL n) = false) : s.shortSets n = s.shortNoted n := if_neg (by simp [off])

theorem State.shortSets_faults (on : s.fb (DAC_CFG_FAULTPOL n) = true) : s.shortSets n = (s.shortHeld n).dacTo n 4 := if_pos on

/-- A short that sets shows; by FAULTPOL the output stays in its state, or ends a range hold and faults. -/
theorem State.shortSets_shows : let u := s.shortSets n
    u.fb (DAC_STAT_SHORT n) = true ∧ u.fb (DAC_IRQ_STAT_SHORT n) = true ∧
    u.fld (DAC_CODE_CODE n) = (if s.fld (DAC_STAT_STATE n) = 3 ∧ s.fb (DAC_CFG_FAULTPOL n) = true then (s.dacOf n).pendCode % 2 ^ 14
      else s.fld (DAC_CODE_CODE n)) ∧
    u.fld (DAC_STAT_STATE n) = (if s.fb (DAC_CFG_FAULTPOL n) then 4 else s.fld (DAC_STAT_STATE n)) ∧
    u.fb (DAC_STAT_LIMITING n) = (!s.fb (DAC_CFG_FAULTPOL n) && s.fb (DAC_STAT_LIMITING n)) := by
  cases pol : s.fb (DAC_CFG_FAULTPOL n) with
  | false =>
    have stat {hi lo : Nat} (low : lo ≤ hi ∧ hi < 7) :
        (s.shortNoted n).fld ⟨DAC_STAT_at n, hi, lo⟩ = s.fld ⟨DAC_STAT_at n, hi, lo⟩ :=
      State.shortNoted_fld_apart (dacCnt_ne_stat n).symm (dacIrq_ne_stat n).symm (.inr ⟨low.1, .inl low.2⟩)
    dsimp only
    rw [State.shortSets_stays pol, if_neg (by simp)]
    exact ⟨State.shortNoted_short, State.shortNoted_cause,
      State.shortNoted_fld_apart (dacCnt_ne_code n).symm (dacIrq_ne_code n).symm (.inl (dacCode_ne_stat n)),
      stat (by decide), congrArg (· != 0) (stat (by decide))⟩
  | true =>
    have kept {g : RF} (apart : g.addr ≠ DAC_STAT_at n ∨ g.lo ≤ g.hi ∧ (2 < g.lo ∧ (g.hi < 6 ∨ 6 < g.lo))) :
        ((s.shortHeld n).dacTo n 4).fb g = (s.shortHeld n).fb g := congrArg (· != 0) (State.dacTo_fld_apart 4 apart)
    dsimp only
    rw [State.shortSets_faults pol, kept (.inr (by simp)), kept (.inl (dacIrq_ne_stat n)),
      State.shortHeld_fb_apart (dacCode_ne_stat n).symm (.inr (by simp)),
      State.shortHeld_fb_apart (dacIrq_ne_code n) (.inl (dacIrq_ne_stat n)),
      State.dacTo_fld_apart 4 (.inl (dacCode_ne_stat n)), State.shortHeld_code]
    exact ⟨State.shortNoted_short, State.shortNoted_cause, by simp, State.dacTo_state (by decide), State.dacTo_limiting (by decide)⟩

theorem State.dacShort_ends (flag : Bool) : s.dacShort n false flag =
    (s.setFld (DAC_STAT_LIMITING n) 0).setDac n { s.dacOf n with flagged := false } := rfl

theorem State.dacShort_undriven (flag : Bool) (drive : s.fld (DAC_STAT_STATE n) ≠ 2) (range : s.fld (DAC_STAT_STATE n) ≠ 3) :
    s.dacShort n true flag = s := by
  unfold State.dacShort
  exact (if_neg (by decide)).trans (if_pos ⟨drive, range⟩)

section
variable (drives : s.fld (DAC_STAT_STATE n) = 2 ∨ s.fld (DAC_STAT_STATE n) = 3)
include drives

theorem State.dacShort_driven (flag : Bool) : s.dacShort n true flag =
    if flag = false then s.setFld (DAC_STAT_LIMITING n) 1
    else if s.sectRuns (n / 2) then (s.setFld (DAC_STAT_LIMITING n) 1).shortSets n
    else (s.setFld (DAC_STAT_LIMITING n) 1).setDac n { s.dacOf n with flagged := true } := by
  have driven : ¬ (s.fld (DAC_STAT_STATE n) ≠ dacDrive ∧ s.fld (DAC_STAT_STATE n) ≠ dacRange) := fun h => drives.elim h.1 h.2
  unfold State.dacShort
  exact (if_neg (by decide)).trans (if_neg driven)

theorem State.dacShort_waits (stands : s.sectRuns (n / 2) = false) :
    s.dacShort n true true = (s.setFld (DAC_STAT_LIMITING n) 1).setDac n { s.dacOf n with flagged := true } :=
  (State.dacShort_driven drives true).trans ((if_neg (by decide)).trans (if_neg (by simp [stands])))

/-- A flagged short in DRIVE or RANGE at a clock that runs (R204). -/
theorem State.dacShort_shows (runs : s.sectRuns (n / 2) = true) : let u := s.dacShort n true true
    u.fb (DAC_STAT_SHORT n) = true ∧ u.fb (DAC_IRQ_STAT_SHORT n) = true ∧
    u.fld (DAC_CODE_CODE n) = (if s.fld (DAC_STAT_STATE n) = 3 ∧ s.fb (DAC_CFG_FAULTPOL n) = true then (s.dacOf n).pendCode % 2 ^ 14
      else s.fld (DAC_CODE_CODE n)) ∧
    u.fld (DAC_STAT_STATE n) = (if s.fb (DAC_CFG_FAULTPOL n) then 4 else s.fld (DAC_STAT_STATE n)) ∧
    u.fb (DAC_STAT_LIMITING n) = !s.fb (DAC_CFG_FAULTPOL n) := by
  have sets : s.dacShort n true true = (s.setFld (DAC_STAT_LIMITING n) 1).shortSets n :=
    (State.dacShort_driven drives true).trans ((if_neg (by decide)).trans (if_pos runs))
  have shown := (s.setFld (DAC_STAT_LIMITING n) 1).shortSets_shows (n := n)
  rw [State.fld_setFld_apart _ _ (DAC_STAT_STATE n) _ (.inr (by simp)), State.fb_setFld_apart _ _ _ (.inl (dacCfg_ne_stat n)),
    State.fld_setFld_other _ _ _ _ (dacCode_ne_stat n), State.fb_setFld_one _ (RF.fits (by decide)), Bool.and_true] at shown
  rw [sets]
  exact shown

end

/-! ### The clear of a short (R200, R204) -/

theorem State.shortClear_fault (st : s.fld (DAC_STAT_STATE n) = 4) :
    s.shortClear n = ((s.setFld (DAC_STAT_SHORT n) 0).dacTo n 1).setFld (DAC_STAT_CODEVALID n) 0 := if_pos st

theorem State.shortClear_other (st : s.fld (DAC_STAT_STATE n) ≠ 4) : s.shortClear n = s.setFld (DAC_STAT_SHORT n) 0 := if_neg st

/-- A FAULT that is cleared is WAIT without a valid code. -/
theorem State.shortClear_waits (st : s.fld (DAC_STAT_STATE n) = 4) : let u := s.shortClear n
    u.fb (DAC_STAT_SHORT n) = false ∧ u.fld (DAC_STAT_STATE n) = 1 ∧ u.fb (DAC_STAT_CODEVALID n) = false := by
  dsimp only
  rw [State.shortClear_fault st, State.fb_setFld_apart _ (DAC_STAT_SHORT n) _ (.inr (by simp)),
    State.fld_setFld_apart _ _ _ _ (.inr (by simp)), State.dacTo_state (by decide)]
  refine ⟨?_, rfl, State.fb_setFld_zero _ (RF.fits (by decide))⟩
  exact (congrArg (· != 0) (State.dacTo_fld_apart 1 (.inr (by simp)))).trans (State.fb_setFld_zero _ (RF.fits (by decide)))

/-- Settles O38: the comparators by their clock, hold and latches; the DACs by their state and the clock of their sector. -/
theorem comparatorsLatchAndDacsRecover : Obligations.ComparatorsLatchAndDacsRecover := by
  refine ⟨fun s k c => ?comparators, fun s n flag => ?dacs⟩
  case comparators =>
    intro m h ones need clock
    refine ⟨fun above on runs => congrArg (done s) (State.cmpCross_runs above on runs),
      fun above on stands => congrArg (done s) (State.cmpCross_stands above on stands),
      fun above off => congrArg (done s) (State.cmpCross_off above off), fun pair on free runs => ?samples,
      fun on hold runs => congrArg (done s) (State.filterSample_held on runs hold),
      fun pair h => congrArg (done s) (State.filterSample_none pair h), rfl, fun v held => congrArg (done s) (State.bayGate_held _ _ held),
      fun v free => congrArg (done s) (State.bayGate_open _ _ free), fun q found runs => ?clears, fun w q found runs => ?clearsWindow,
      fun l h => congrArg (done s) (State.latchClear_none h)⟩
    case samples =>
      obtain ⟨hist, f, l, window⟩ := State.filterSample_shows c.isLt on free runs pair
      refine ⟨_, rfl, ?_⟩
      rw [State.cmpOf_of_cmp (settle_cmp _ _), settle_fb, settle_fb, settle_fb, settle_fb, settle_fld]
      refine ⟨hist, fun high => ?_, fun few low => ?_, fun few mixed => ?_, window⟩
      · rw [f, l, State.majority_ones high]
        exact ⟨rfl, rfl⟩
      · rw [f, l, State.majority_zeros few low]
        exact ⟨rfl, rfl⟩
      · exact f.trans (State.majority_mixed few mixed)
    case clears => exact congrArg (done s) ((State.latchClear_arrives found runs).trans (State.clearLatch_comparator c.isLt))
    case clearsWindow => exact congrArg (done s) ((State.latchClear_arrives found runs).trans (State.clearLatch_window w))
  case dacs =>
    intro st x
    have open_ {f : State → State} {u : State} (free : ¬ s.fb (BAY_STATUS_HELD (n / 2)) = true) (h : f s = u) :
        done s (s.bayGate (n / 2) (DAC_STAT_at n) f) = .next (settle s u) :=
      congrArg (done s) ((State.bayGate_open _ _ (Bool.eq_false_iff.mpr free)).trans h)
    refine ⟨fun range => ?holdEnds, fun other => congrArg (done s) (State.rangeHoldEnd_other other),
      fun drives => congrArg (done s) (State.dacShort_driven drives false), fun drives runs => ?short,
      fun drives stands => congrArg (done s) (State.dacShort_waits drives stands),
      fun drive range => congrArg (done s) (State.dacShort_undriven flag drive range), congrArg (done s) (State.dacShort_ends flag),
      fun held => congrArg (done s) (State.bayGate_held _ _ held), fun free fault => ?recovers,
      fun free other => open_ free (State.shortClear_other other)⟩
    case holdEnds =>
      refine ⟨_, congrArg (done s) (State.rangeHoldEnd_range range), ?_⟩
      rw [settle_fld, settle_fld, settle_fb]
      exact ⟨State.dacTo_state (by decide), (State.dacTo_fld_apart 2 (.inl (dacCode_ne_stat n))).trans State.dacEndHold_code,
        (congrArg (· != 0) (State.dacTo_fld_apart 2 (.inr (by simp)))).trans State.dacEndHold_gain⟩
    case short =>
      refine ⟨_, rfl, ?_⟩
      simp only [settle_fld, settle_fb]
      exact State.dacShort_shows drives runs
    case recovers =>
      refine ⟨_, open_ free rfl, ?_⟩
      rw [settle_fb, settle_fld, settle_fb]
      exact State.shortClear_waits fault

end Sys2Proof.Machine
end

section
/-! PROOFS. Stored bits: flips of code words and of voted copies, write-backs, armed injections, and the wipe of the vault (O41). -/

namespace Sys2Proof.Machine

variable {s : State}

/-! ### Flips of stored bits (R358, R361) -/

/-- Words of memories whose code has 39 bits. -/
theorem State.memoryFlip_word {a : Nat} (m : Nat) (h : regionOf a = .scratch 0 ∨ regionOf a = .dram ∨ regionOf a = .iram ∨
    regionOf a = .vault ∨ regionOf a = .sillage) :
    s.memoryFlip (.memory a m) = s.setFlips (a - a % 4) (s.flips (a - a % 4) ^^^ m % 2 ^ 39) := by
  rcases h with h | h | h | h | h <;> simp [State.memoryFlip, State.flipBits, h]

theorem State.memoryFlip_retain {a : Nat} (m : Nat) (h : regionOf a = .retain) :
    s.memoryFlip (.memory a m) = s.setFlips (a - a % 8) (s.flips (a - a % 8) ^^^ m % 2 ^ 72) := by
  simp [State.memoryFlip, State.flipBits, h]

/-- The flips of a code word stand at each address of its word. -/
theorem State.flips_of_word {a b : Nat} (h : b / 4 = a / 4) : s.flips b = s.flips a := by
  unfold State.flips; rw [h]

theorem State.flips_setFlips_other {a b : Nat} (m : Nat) (h : b / 4 ≠ a / 4) : (s.setFlips a m).flips b = s.flips b :=
  tget_tset_other _ _ _ _ _ _ h

/-- A copy of voted state has 32 bits. -/
theorem State.voteFlip_wide (i c m : Nat) : s.voteFlip i c m = s.voteFlip i c (m % 2 ^ 32) := by
  unfold State.voteFlip
  rw [Nat.mod_mod]

/-- Two copies that come to differ in the same bits outvote the third: the item moves by those bits. -/
theorem State.voteFlip_outvoted {i c b m : Nat} (item : voted i = true) (copies : c < 3 ∧ b < 3 ∧ b ≠ c) (wide : m < 2 ^ 32)
    (moved : tget 0 s.scrub.diffs (3 * i + b) = m) (rest : ∀ j < 3, j ≠ b → tget 0 s.scrub.diffs (3 * i + j) = 0) :
    (s.voteFlip i c m).regs = (if m = 0 then s else s.voteMoves i m).regs := by
  have flipped (j : Nat) (hj : j < 3) : s.flippedCopy i c m j = if j = b ∨ j = c then m else 0 := by
    unfold State.flippedCopy
    rw [Nat.mod_eq_of_lt wide]
    by_cases hb : j = b
    · rw [hb, moved, if_neg copies.2.2, if_pos (.inl rfl), Nat.xor_zero]
    · rw [rest j hj hb, Nat.zero_xor]
      simp [hb]
  have two : Machine.majority (s.flippedCopy i c m 0) (s.flippedCopy i c m 1) (s.flippedCopy i c m 2) = m := by
    rw [flipped 0 (by decide), flipped 1 (by decide), flipped 2 (by decide)]
    obtain ⟨hc, hb, apart⟩ := copies
    interval_cases b <;> interval_cases c <;> simp_all [Machine.majority]
  rw [State.voteFlip_eq m item copies.1]
  unfold State.voteWith
  rw [two]

/-- An item that is a register moves in its bits that have a switch. -/
theorem State.voteMoves_reg {i : Nat} (m : Nat) (h : 1 < i) :
    (s.voteMoves i m).reg i = s.reg i ^^^ (BitVec.ofNat 32 m &&& BitVec.ofNat 32 (swBits i)) := by
  obtain ⟨n, rfl⟩ : ∃ n, i = n + 2 := ⟨i - 2, by omega⟩
  exact State.reg_setReg_same _ _ _

/-! ### Write-backs (R209) -/

theorem State.eccWriteback_stands {k : Nat} (stands : s.sectRuns k = false) : s.eccWriteback k = s := if_pos stands

theorem State.eccWriteback_oldest {k a : Nat} (runs : s.sectRuns k = true) (oldest : s.wbq.find? (fun a => eccSector a == k) = some a) :
    s.eccWriteback k = ({ s with wbq := s.wbq.erase a } : State).setFlips a 0 := by
  unfold State.eccWriteback
  rw [if_neg (by simp [runs]), oldest]

/-! ### Injections (R231) -/

/-- SCR_INJ_ARM stores the bits of SCR_INJ and arms it, whether or not it was armed. -/
theorem State.injWrite_arms (k : Nat) (v : Word) :
    s.injWrite k (v ||| 0x80000000) = s.setReg (SCR_INJ_at k) ((v &&& 0x00007F3F) ||| 0x80000000) := by
  have word (w : Word) : ((v ||| 0x80000000) &&& 0x80007F3F) ||| (w &&& 0x80000000) = (v &&& 0x00007F3F) ||| 0x80000000 := by
    have mask : (0x80007F3F : Word) = 0x00007F3F ||| 0x80000000 := by decide
    have bit : ∀ v w low arm : Bool, ((v || arm) && (low || arm) || w && arm) = (v && low || arm) := by decide
    apply BitVec.eq_of_getLsbD_eq
    intro i _
    rw [mask]
    simp only [BitVec.getLsbD_or, BitVec.getLsbD_and]
    exact bit _ _ _ _
  unfold State.injWrite
  rw [word]

/-! ### The vault (R223 to R225) -/

/-- A filter by the number alone leaves an entry or takes it off. -/
theorem tget_filter {α : Type} (d : α) (t : Table α) (p : Nat → Bool) (k : Nat) :
    tget d (t.filter (fun e => p e.1)) k = if p k then tget d t k else d := by
  induction t with
  | nil => simp [tget]
  | cons e r ih =>
    obtain ⟨j, v⟩ := e
    by_cases same : j = k
    · subst same
      cases hp : p j <;> simp [List.filter, hp, tget, ih]
    · cases hp : p j <;> simp [List.filter, hp, tget, ih, same]

variable {req : Nat} {v : Word}

theorem State.wipeCommand_keyed (may : s.denied req VAULT_WIPE_at true = false) (key : v.toNat / 2 ^ 16 = 0xA5C3) (go : v.getLsbD 0 = true) :
    s.wipeCommand req v = s.vaultWipe 3 := by
  unfold State.wipeCommand
  rw [may, if_neg Bool.false_ne_true, if_pos ⟨key, (BitVec.testBit_toNat v).trans go⟩]

theorem State.wipeCommand_unkeyed (may : s.denied req VAULT_WIPE_at true = false) (key : v.toNat / 2 ^ 16 ≠ 0xA5C3) :
    s.wipeCommand req v = s := by
  unfold State.wipeCommand
  rw [may, if_neg Bool.false_ne_true, if_neg (fun h => key h.1)]

/-- The end of a wipe shows in the registers of the vault. -/
theorem State.wipeDone_shows {c : Nat} (wiping : s.wipe = some c) (fits : c < 16) : s.wipeDone.wipe = none ∧
    s.wipeDone.fb VAULT_STAT_WIPING = false ∧ s.wipeDone.fld VAULT_STAT_LASTCAUSE = c ∧ s.wipeDone.fld VAULT_WPROT_PAGES = 0 ∧
    s.wipeDone.fb VAULT_IRQ_STAT_WIPED = true := by
  unfold State.wipeDone State.addSat
  rw [wiping]
  dsimp only
  refine ⟨rfl, ?_, ?_, ?_, ?_⟩
  · rw [State.fb_setFld_apart _ _ _ (by decide), State.fb_setFld_apart _ _ _ (by decide), State.fb_setFld_apart _ _ _ (by decide),
      State.fb_setFld_apart _ _ _ (by decide), State.fb_setFld_zero _ (by decide)]
  · rw [State.fld_setFld_apart _ _ _ _ (by decide), State.fld_setFld_apart _ _ _ _ (by decide), State.fld_setFld_apart _ _ _ _ (by decide),
      State.fld_setFld_fits (by decide) fits]
  · exact State.fld_setFld_fits (by decide) (by decide)
  · rw [State.fb_setFld_apart _ _ _ (by decide), State.fb_setFld_one _ (by decide)]

/-- The end of a wipe zeroes the bytes of the vault alone. -/
theorem State.wipeDone_byte {c : Nat} (wiping : s.wipe = some c) (x : Nat) :
    s.wipeDone.byte x = if x / 0x10000 = 0x5000 then 0 else s.byte x := by
  have kept : s.wipeDone.mem = s.mem.filter (fun p => !(p.1 / 0x10000 == 0x5000)) := by
    unfold State.wipeDone
    rw [wiping]
    rfl
  unfold State.byte
  rw [kept, tget_filter 0 s.mem (fun a => !(a / 0x10000 == 0x5000))]
  simp

/-- Settles O41: each command is one branch of its operation; what it leaves follows from the tables of bytes, flips and copies. -/
theorem storedBitsFlipAndAreMended : Obligations.StoredBitsFlipAndAreMended := by
  intro s
  refine ⟨fun a m h => ?word, fun a m h => ?retain, fun i c m item copy agree => ?copyDiffers,
    fun i c b m item register hc hb apart wide moved rest => ?outvoted, fun k stands => congrArg (done s) (State.eccWriteback_stands stands),
    fun k a runs oldest => ?writeback, fun k v held => congrArg (done s) (State.bayGate_held _ _ held),
    fun k v free => congrArg (done s) ((State.bayGate_open _ _ free).trans (State.injWrite_arms _ v)),
    fun req v may key go => congrArg (done s) (State.wipeCommand_keyed may key go),
    fun req v may key => congrArg (done s) (State.wipeCommand_unkeyed may key), fun c wiping fits => ?wiped⟩
  case word =>
    have aligned : (a - a % 4) / 4 = a / 4 := by omega
    refine ⟨_, congrArg (done s) (State.memoryFlip_word m h), ?_, fun x => settle_byte _ _ _, fun b other => ?_⟩
    · rw [settle_flips, State.flips_of_word aligned.symm, State.flips_setFlips_same, State.flips_of_word aligned]
    · rw [settle_flips, State.flips_setFlips_other _ (by omega)]
  case retain =>
    refine ⟨_, congrArg (done s) (State.memoryFlip_retain m h), ?_, fun x => settle_byte _ _ _⟩
    rw [settle_flips, State.flips_setFlips_same]
  case copyDiffers =>
    obtain ⟨diffs, flipped, noted⟩ := State.voteFlip_agreed item copy agree (Nat.mod_lt m (by decide : 0 < 2 ^ 32))
    refine ⟨_, congrArg (done s) ((State.voteFlip_wide i c m).trans flipped), fun b => settle_reg _ _ _, ?_, ?_⟩
    · rw [settle_scrub]
    · rw [settle_scrub]
      exact noted
  case outvoted =>
    have flips : exec (.memoryBitFlip (.voted i c m)) s = .next (settle s (s.voteFlip i c m)) := rfl
    refine ⟨_, flips, ?_⟩
    rw [settle_reg, State.reg_of_regs (State.voteFlip_outvoted item ⟨hc, hb, apart⟩ wide moved rest)]
    split
    · next none => rw [none]; simp
    · exact State.voteMoves_reg m register
  case writeback =>
    refine ⟨_, congrArg (done s) (State.eccWriteback_oldest runs oldest), ?_, fun x => settle_byte _ _ _, ?_⟩
    · rw [settle_wbq]
      rfl
    · rw [settle_flips, State.flips_setFlips_same]
  case wiped =>
    obtain ⟨none, ended, cause, pages, irq⟩ := State.wipeDone_shows wiping fits
    refine ⟨_, rfl, ?_⟩
    rw [settle_wipe, settle_fb, settle_fld, settle_fld, settle_fb]
    refine ⟨none, ended, cause, pages, irq, fun x inside => ?_, fun x outside => ?_⟩
    · rw [settle_byte, State.wipeDone_byte wiping, if_pos inside]
    · rw [settle_byte, State.wipeDone_byte wiping, if_neg outside]

end Sys2Proof.Machine
end

section
/-! PROOFS. Discarded writes of port B, the scratchpad port of the fabric, its mailboxes and outputs (O40). -/

namespace Sys2Proof.Machine

variable {s : State} {k j : Nat} {v : Word}

/-! ### Writes that a write on port A discards (R213) -/

/-- A discarded write shows in its sector, the first with its requester, and changes no byte. -/
theorem State.collide_shows (a : Nat) {req : Nat} (fits : req < 2 ^ 9) :
    (s.collide a req).fb (SCR_IRQ_STAT_COLL (eccSector a)) = true ∧
    (s.fb (SCR_IRQ_STAT_COLL (eccSector a)) = false → (s.collide a req).fld (SCR_COLL_REQ_REQUESTER (eccSector a)) = req) ∧
    (s.collide a req).mem = s.mem := by
  have irq_ne_req : SCR_IRQ_STAT_at (eccSector a) ≠ SCR_COLL_REQ_at (eccSector a) := by unfold SCR_IRQ_STAT_at SCR_COLL_REQ_at; omega
  unfold State.collide
  dsimp only
  split
  · next before =>
    refine ⟨(State.fb_setFld_apart _ _ _ (.inl irq_ne_req)).trans before, fun first => ?_, State.setFld_mem _ _ _⟩
    rw [first] at before
    exact absurd before Bool.false_ne_true
  · refine ⟨State.fb_setFld_one _ (RF.fits (by decide)), fun _ => ?_, by rw [State.setFld_mem, State.setFld_mem, State.setFld_mem]⟩
    rw [State.fld_setFld_other _ _ _ _ irq_ne_req.symm]
    exact State.fld_setFld_fits (RF.fits (by decide)) fits

/-! ### The fabric of a sector in the state -/

@[simp] theorem State.fabOf_setFab_same (x : Fabric) : (s.setFab k x).fabOf k = x := tget_tset_same _ _ _ _

theorem State.fabOf_of_fab {u : State} (h : u.fab = s.fab) (k : Nat) : u.fabOf k = s.fabOf k := by
  unfold State.fabOf; rw [h]

@[simp] theorem settle_fabOf (t : State) (k : Nat) : (settle s t).fabOf k = t.fabOf k := State.fabOf_of_fab (settle_fab s t) k

theorem State.MemoryOnly.fab {u : State} (h : s.MemoryOnly u) : u.fab = s.fab := by
  obtain ⟨r, m, e, q, i, rfl⟩ := h
  rfl

/-- A sector's clock runs by the lock of the core PLL, its divider, and the supplies. -/
theorem State.sectRuns_of {u : State} (lock : u.fld CLK_STAT_LOCK = s.fld CLK_STAT_LOCK)
    (divider : u.fld (CLK_SECT_SDIV k) = s.fld (CLK_SECT_SDIV k)) (pwr : u.pwr = s.pwr) : u.sectRuns k = s.sectRuns k := by
  unfold State.sectRuns State.sectReady State.awake State.locked State.fbit State.fb
  rw [lock, divider, pwr]

/-- A state that differs from `s` in its fabrics alone. -/
def State.PortOnly (s u : State) : Prop := ∃ b, u = { s with fab := b }

theorem State.PortOnly.refl (s : State) : s.PortOnly s := ⟨_, rfl⟩

theorem State.PortOnly.setFab (i : Nat) (x : Fabric) : s.PortOnly (s.setFab i x) := ⟨_, rfl⟩

section
variable {u : State} (h : s.PortOnly u)
include h

theorem State.PortOnly.trans {t : State} (g : u.PortOnly t) : s.PortOnly t := by
  obtain ⟨b, rfl⟩ := h
  obtain ⟨c, rfl⟩ := g
  exact ⟨c, rfl⟩

theorem State.PortOnly.mem : u.mem = s.mem := by
  obtain ⟨b, rfl⟩ := h
  rfl

theorem State.PortOnly.ecc : u.ecc = s.ecc := by
  obtain ⟨b, rfl⟩ := h
  rfl

theorem State.PortOnly.regs : u.regs = s.regs := by
  obtain ⟨b, rfl⟩ := h
  rfl

theorem State.PortOnly.pwr : u.pwr = s.pwr := by
  obtain ⟨b, rfl⟩ := h
  rfl

theorem State.PortOnly.sectRuns (k : Nat) : u.sectRuns k = s.sectRuns k :=
  State.sectRuns_of (State.fld_of_regs h.regs _) (State.fld_of_regs h.regs _) h.pwr

theorem State.PortOnly.fabRuns (k : Nat) : u.fabRuns k = s.fabRuns k := by
  obtain ⟨b, rfl⟩ := h
  rfl

theorem State.PortOnly.pairStandby : u.pairStandby = s.pairStandby := by
  unfold State.pairStandby; rw [State.fld_of_regs h.regs]

theorem State.PortOnly.fbit (g : RF) (i : Nat) : u.fbit g i = s.fbit g i := by
  unfold State.fbit; rw [State.fld_of_regs h.regs]

end

/-- A fabric in which what was empty is emptied. -/
theorem Fabric.no_reqs {f : Fabric} (none : f.reqs = []) : { f with reqs := [] } = f := by rw [← none]

/-! ### The port to the scratchpad (R228) -/

/-- The address of a word of the scratchpad of sector `k`, as the port takes it. -/
def portAddr (k word : Nat) : Nat := 0x10000000 + k * 0x40000 + 4 * (word % 0x10000)

theorem portAddr_aligned (k word : Nat) : portAddr k word % 4 = 0 := by unfold portAddr; omega

theorem eccSector_portAddr (hk : k < 16) (word : Nat) : eccSector (portAddr k word) = k := by
  unfold eccSector portAddr
  rw [if_neg (by omega)]
  omega

section
variable {word : Nat}

theorem State.fabServe_writes (live : s.pairStandby = false) : s.fabServe k false ⟨true, 0, word, v⟩ =
    (s.memWrite 0 (portAddr k word) 4 v.toNat).toPartner "WRITE" [portAddr k word + 0x1000000 * 0, 4, v.toNat] := by
  unfold State.fabServe
  exact (if_neg (Nat.zero_ne_add_one 2)).trans ((if_pos rfl).trans ((if_neg (by simp [live])).trans (if_neg Bool.false_ne_true)))

theorem State.fabServe_collides (live : s.pairStandby = false) :
    s.fabServe k true ⟨true, 0, word, v⟩ = s.collide (portAddr k word) (384 + k) := by
  unfold State.fabServe
  exact (if_neg (Nat.zero_ne_add_one 2)).trans ((if_pos rfl).trans ((if_neg (by simp [live])).trans (if_pos rfl)))

/-- A read queues the word that it meets, and whether it is uncorrectable. -/
theorem State.fabServe_read {q : FabReq} (coll : Bool) (view : ¬ q.view = 3) (reads : ¬ q.we = true) {u : State} {w : Word} {bad : Bool}
    (met : (s.touch (portAddr k q.word)).readWord (portAddr k q.word) = (u, w, bad)) :
    s.fabServe k coll q = u.setFab k { u.fabOf k with rets := (u.fabOf k).rets ++ [⟨w, bad⟩] } := by
  unfold portAddr at met
  unfold State.fabServe
  refine (if_neg view).trans ((if_neg reads).trans ?_)
  rw [met]

theorem State.fabServe_reads (clean : s.flipCount (portAddr k word) = 0) (coll : Bool) : s.fabServe k coll ⟨false, 0, word, v⟩ =
    (s.touch (portAddr k word)).setFab k
      { s.fabOf k with rets := (s.fabOf k).rets ++ [⟨s.word (portAddr k word), false⟩] } := by
  have met : (s.touch (portAddr k word)).readWord (portAddr k word) =
      (s.touch (portAddr k word), s.word (portAddr k word), false) := by
    rw [State.readWord_good (by rwa [State.flipCount_of_ecc (s.touch_ecc _)]), State.word_of_mem (s.touch_mem _)]
  have port : (s.touch (portAddr k word)).fabOf k = s.fabOf k := State.fabOf_of_fab (State.touch_memoryOnly _).fab k
  rw [State.fabServe_read (q := ⟨false, 0, word, v⟩) coll (Nat.zero_ne_add_one 2) Bool.false_ne_true met, port]

end

theorem State.fabServeAll_stands (coll : Bool) (stands : s.sectRuns k = false) : s.fabServeAll k coll = s := by
  unfold State.fabServeAll
  rw [stands, if_neg Bool.false_ne_true]

/-- With no request waiting nothing is served. -/
theorem State.fabServeAll_none (coll : Bool) (none : (s.fabOf k).reqs = []) :
    s.PortOnly (s.fabServeAll k coll) ∧ (s.fabServeAll k coll).fabOf k = s.fabOf k := by
  cases runs : s.sectRuns k with
  | false =>
    rw [State.fabServeAll_stands coll runs]
    exact ⟨.refl s, rfl⟩
  | true =>
    have emptied : s.fabServeAll k coll = s.setFab k { s.fabOf k with reqs := [] } := by
      unfold State.fabServeAll
      rw [if_pos runs, none]
      rfl
    rw [emptied, State.fabOf_setFab_same]
    exact ⟨.setFab _ _, Fabric.no_reqs none⟩

/-- At a clock that runs, a request that waits alone is served. -/
theorem State.fabServeAll_one {q : FabReq} (coll : Bool) (runs : s.sectRuns k = true) (one : (s.fabOf k).reqs = [q]) :
    s.fabServeAll k coll = (s.setFab k { s.fabOf k with reqs := [] }).fabServe k coll q := by
  unfold State.fabServeAll
  rw [if_pos runs, one]
  rfl

theorem State.fabRequest_loaded (q : FabReq) (coll : Bool) (loaded : s.fabLoaded k = true) : s.fabRequest k q coll = s.fabServeAll k coll :=
  if_pos loaded

section
variable (cells : s.fabricRuns k = true) (outside : s.fabLoaded k = false)
include cells outside

theorem State.fabRequest_taken (q : FabReq) (coll : Bool) (room : (s.fabOf k).reqs.length + (s.fabOf k).rets.length < 4) :
    s.fabRequest k q coll = (s.setFab k { s.fabOf k with reqs := (s.fabOf k).reqs ++ [q] }).fabServeAll k coll := by
  unfold State.fabRequest
  dsimp only
  rw [if_neg (by simp [outside]), if_neg (by simp [cells]; omega)]

/-- At a clock that runs, a request that is alone is served at once. -/
theorem State.fabRequest_served (q : FabReq) (coll : Bool) (runs : s.sectRuns k = true) (alone : (s.fabOf k).reqs = [])
    (room : (s.fabOf k).rets.length < 4) :
    ∃ t, s.PortOnly t ∧ t.fabOf k = s.fabOf k ∧ s.fabRequest k q coll = t.fabServe k coll q := by
  have one : ((s.setFab k { s.fabOf k with reqs := (s.fabOf k).reqs ++ [q] }).fabOf k).reqs = [q] := by
    rw [State.fabOf_setFab_same, alone, List.nil_append]
  refine ⟨_, (State.PortOnly.setFab _ _).trans (.setFab _ _), ?_,
    (State.fabRequest_taken cells outside q coll (by rw [alone]; simpa using room)).trans
    (State.fabServeAll_one coll (((State.PortOnly.setFab _ _).sectRuns k).trans runs) one)⟩
  rw [State.fabOf_setFab_same, State.fabOf_setFab_same]
  exact Fabric.no_reqs alone

theorem State.fabRequest_waits (q : FabReq) (coll : Bool) (stands : s.sectRuns k = false)
    (room : (s.fabOf k).reqs.length + (s.fabOf k).rets.length < 4) :
    s.fabRequest k q coll = s.setFab k { s.fabOf k with reqs := (s.fabOf k).reqs ++ [q] } :=
  (State.fabRequest_taken cells outside q coll room).trans (State.fabServeAll_stands coll (((State.PortOnly.setFab _ _).sectRuns k).trans stands))

end

/-- The oldest return leaves for the cells while they run. -/
theorem State.fabReturn_oldest {r : FabRet} {rest : List FabRet} (cells : s.fabricRuns k = true) (none : (s.fabOf k).reqs = [])
    (oldest : (s.fabOf k).rets = r :: rest) : ∃ t, s.PortOnly t ∧ s.fabReturn k =
      (t.setFab k { s.fabOf k with rets := rest, back := some r }).emit (.message "SP_RDATA" [k, r.data.toNat, b2n r.err]) := by
  obtain ⟨only, port⟩ := State.fabServeAll_none false none
  have runs : (s.fabServeAll k false).fabRuns (k / 2) = true := by
    unfold State.fabricRuns at cells
    simp only [Bool.and_eq_true] at cells
    exact (only.fabRuns _).trans cells.1.1
  refine ⟨_, only, ?_⟩
  unfold State.fabReturn
  rw [if_neg (by simp [runs]), port, oldest]

/-! ### The mailboxes (R229, R230) -/

theorem mbxTofab_ne_stat (hj : j < 8) : MBX_TOFAB_at k j ≠ MBX_STAT_at k := by unfold MBX_TOFAB_at MBX_STAT_at; omega
theorem mbxFromfab_ne_stat (hj : j < 8) : MBX_FROMFAB_at k j ≠ MBX_STAT_at k := by unfold MBX_FROMFAB_at MBX_STAT_at; omega
theorem mbxFromfab_ne_irq (k : Nat) (hj : j < 8) : MBX_FROMFAB_at k j ≠ SCR_IRQ_STAT_at k := by unfold MBX_FROMFAB_at SCR_IRQ_STAT_at; omega
theorem scratchIrq_ne_mbxStat (k : Nat) : SCR_IRQ_STAT_at k ≠ MBX_STAT_at k := by unfold SCR_IRQ_STAT_at MBX_STAT_at; omega
theorem mbxTofab_ne_txq (hj : j < 8) : MBX_TOFAB_at k j ≠ PAIR_TXQ_at := by unfold MBX_TOFAB_at PAIR_TXQ_at; omega
theorem mbxStat_ne_txq (k : Nat) : MBX_STAT_at k ≠ PAIR_TXQ_at := by unfold MBX_STAT_at PAIR_TXQ_at; omega

/-- A field has no bits above its width. -/
theorem State.fbit_above (g : RF) {i : Nat} (above : g.hi + 1 - g.lo ≤ i) : s.fbit g i = false :=
  Nat.testBit_lt_two_pow (Nat.lt_of_lt_of_le (bits_lt _ _ _) (Nat.pow_le_pow_right Nat.two_pos above))

section
variable (g : RF) (h : g.lo ≤ g.hi ∧ g.hi < 32)
include h

theorem State.fbit_orBit_same (inside : j < g.hi + 1 - g.lo) : (s.orBit g j).fbit g j = true := by
  have set : s.putBit g j true = s.orBit g j := if_pos rfl
  rw [← set, State.fbit_putBit g true j j h inside, if_pos rfl]

theorem State.fbit_offBit_same (inside : j < g.hi + 1 - g.lo) : (s.offBit g j).fbit g j = false := by
  have cleared : s.putBit g j false = s.offBit g j := if_neg Bool.false_ne_true
  rw [← cleared, State.fbit_putBit g false j j h inside, if_pos rfl]

/-- The other bits of a field of which one is cleared are what they were. -/
theorem State.fbit_offBit_other {i : Nat} (other : i ≠ j) : (s.offBit g j).fbit g i = s.fbit g i := by
  have cleared : s.putBit g j false = s.offBit g j := if_neg Bool.false_ne_true
  by_cases inside : i < g.hi + 1 - g.lo
  · rw [← cleared, State.fbit_putBit g false j i h inside, if_neg other]
  · rw [State.fbit_above g (by omega), State.fbit_above g (by omega)]

end

section
variable (stands : s.sectRuns k = false)
include stands

theorem State.mbxTofab_waits (j : Nat) (v : Word) : s.mbxTofab k j v = s.setFab k { s.fabOf k with tos := (s.fabOf k).tos ++ [(j, v)] } :=
  if_pos stands

theorem State.mbxDrain_stands : s.mbxDrain k = s := if_pos stands

end

section
variable (runs : s.sectRuns k = true)
include runs

theorem State.mbxDrain_runs : s.mbxDrain k =
    (s.fabOf k).tos.foldl (fun s p => s.mbxTofab k p.1 p.2) ((s.fabOf k).froms.foldl (fun s p => s.mbxPut k p.1 p.2)
      ((s.fabOf k).acks.foldl (fun s j => s.offBit (MBX_STAT_TOFULL k) j) (s.setFab k
        { s.fabOf k with acks := [], froms := [], tos := [], bells := (s.fabOf k).bells + (s.fabOf k).rings, rings := 0 }))) :=
  if_neg (by simp [runs])

/-- A word for a full mailbox is lost, and shows as an overflow. -/
theorem State.mbxTofab_full (v : Word) (full : s.fbit (MBX_STAT_TOFULL k) j = true) :
    s.mbxTofab k j v = (s.setFld (MBX_STAT_TOOVF k) 1).setFld (SCR_IRQ_STAT_MBXOVF k) 1 := by
  unfold State.mbxTofab
  rw [if_neg (by simp [runs]), if_pos full]

/-- A word for an empty mailbox is stored, and shows as full. -/
theorem State.mbxTofab_stores (hj : j < 8) (v : Word) (empty : s.fbit (MBX_STAT_TOFULL k) j = false) :
    (s.mbxTofab k j v).reg (MBX_TOFAB_at k j) = v ∧ (s.mbxTofab k j v).fbit (MBX_STAT_TOFULL k) j = true := by
  unfold State.mbxTofab
  rw [if_neg (by simp [runs]), if_neg (by simp [empty])]
  constructor
  · rw [State.toPartner_reg _ _ _ _ (mbxTofab_ne_txq hj)]
    exact (State.reg_setFld_other _ (mbxTofab_ne_stat hj)).trans (State.reg_setReg_same _ _ _)
  · unfold State.fbit
    rw [State.toPartner_fld _ _ _ _ (mbxStat_ne_txq k)]
    exact State.fbit_orBit_same (MBX_STAT_TOFULL k) (RF.fits (by decide)) hj

end

/-- Nothing is on its way between the fabric and the mailbox. -/
def Fabric.Quiet (f : Fabric) : Prop := f.acks = [] ∧ f.froms = [] ∧ f.tos = [] ∧ f.rings = 0

/-- Once what is on its way has arrived, nothing is. -/
theorem Fabric.Quiet.drained {f : Fabric} (h : f.Quiet) :
    { f with acks := [], froms := [], tos := [], bells := f.bells + f.rings, rings := 0 } = f := by
  obtain ⟨reqs, rets, out, oe, bells, acks, froms, back, tos, rings⟩ := f
  obtain ⟨rfl, rfl, rfl, rfl⟩ := h
  rfl

section
variable (cells : s.fabricRuns k = true) (outside : s.fabLoaded k = false)
include cells outside

theorem State.mbxAck_launched (j : Nat) : s.mbxAck k j = (s.setFab k { s.fabOf k with acks := (s.fabOf k).acks ++ [j] }).mbxDrain k := by
  unfold State.mbxAck
  rw [if_neg (by simp [outside]), if_neg (by simp [cells])]

theorem State.mbxFrom_launched (j : Nat) (v : Word) :
    s.mbxFrom k j v = (s.setFab k { s.fabOf k with froms := (s.fabOf k).froms ++ [(j, v)] }).mbxDrain k := by
  unfold State.mbxFrom
  rw [if_neg (by simp [outside]), if_neg (by simp [cells])]

section
variable (runs : s.sectRuns k = true) (quiet : (s.fabOf k).Quiet)
include runs quiet

/-- An acknowledge that is alone on its way clears the flag. -/
theorem State.mbxAck_arrives (j : Nat) :
    ∃ t, s.PortOnly t ∧ t.fabOf k = s.fabOf k ∧ s.mbxAck k j = t.offBit (MBX_STAT_TOFULL k) j := by
  have drained := quiet.drained
  obtain ⟨acks, froms, tos, rings⟩ := quiet
  rw [State.mbxAck_launched cells outside, State.mbxDrain_runs (((State.PortOnly.setFab _ _).sectRuns k).trans runs),
    State.fabOf_setFab_same, acks, froms, tos]
  exact ⟨_, (State.PortOnly.setFab _ _).trans (.setFab _ _), (State.fabOf_setFab_same _).trans drained, rfl⟩

/-- A word that is alone on its way arrives in the mailbox. -/
theorem State.mbxFrom_arrives (j : Nat) (v : Word) :
    ∃ t, s.PortOnly t ∧ t.fabOf k = s.fabOf k ∧ s.mbxFrom k j v = t.mbxPut k j v := by
  have drained := quiet.drained
  obtain ⟨acks, froms, tos, rings⟩ := quiet
  rw [State.mbxFrom_launched cells outside, State.mbxDrain_runs (((State.PortOnly.setFab _ _).sectRuns k).trans runs),
    State.fabOf_setFab_same, acks, froms, tos]
  exact ⟨_, (State.PortOnly.setFab _ _).trans (.setFab _ _), (State.fabOf_setFab_same _).trans drained, rfl⟩

end

end

/-- A word of the fabric for a full mailbox is lost, and shows as an overflow. -/
theorem State.mbxPut_full (hj : j < 8) (v : Word) (full : s.fbit (MBX_STAT_FROMFULL k) j = true) : let u := s.mbxPut k j v
    u.fb (MBX_STAT_FROMOVF k) = true ∧ u.fb (SCR_IRQ_STAT_MBXOVF k) = true ∧ u.reg (MBX_FROMFAB_at k j) = s.reg (MBX_FROMFAB_at k j) := by
  have put : s.mbxPut k j v = (s.setFld (MBX_STAT_FROMOVF k) 1).setFld (SCR_IRQ_STAT_MBXOVF k) 1 := if_pos full
  dsimp only
  rw [put, State.fb_setFld_apart _ _ _ (.inl (scratchIrq_ne_mbxStat k).symm), State.reg_setFld_other _ (mbxFromfab_ne_irq k hj),
    State.reg_setFld_other _ (mbxFromfab_ne_stat hj)]
  exact ⟨State.fb_setFld_one _ (RF.fits (by decide)), State.fb_setFld_one _ (RF.fits (by decide)), rfl⟩

/-- A word of the fabric for an empty mailbox is stored, shows as full, and interrupts. -/
theorem State.mbxPut_stores (hj : j < 8) (v : Word) (empty : s.fbit (MBX_STAT_FROMFULL k) j = false) : let u := s.mbxPut k j v
    u.reg (MBX_FROMFAB_at k j) = v ∧ u.fbit (MBX_STAT_FROMFULL k) j = true ∧ u.fb (SCR_IRQ_STAT_MBXIN k) = true ∧ u.fab = s.fab := by
  have put : s.mbxPut k j v = ((s.setReg (MBX_FROMFAB_at k j) v).orBit (MBX_STAT_FROMFULL k) j).setFld (SCR_IRQ_STAT_MBXIN k) 1 :=
    if_neg (by simp [empty])
  dsimp only
  rw [put]
  refine ⟨?_, ?_, State.fb_setFld_one _ (RF.fits (by decide)), ?_⟩
  · rw [State.reg_setFld_other _ (mbxFromfab_ne_irq k hj)]
    exact (State.reg_setFld_other _ (mbxFromfab_ne_stat hj)).trans (State.reg_setReg_same _ _ _)
  · unfold State.fbit
    rw [State.fld_setFld_other _ _ _ _ (scratchIrq_ne_mbxStat k).symm]
    exact State.fbit_orBit_same (MBX_STAT_FROMFULL k) (RF.fits (by decide)) hj
  · rw [State.setFld_fab, State.orBit, State.setFld_fab, State.setReg_fab]

/-! ### The doorbell and the outputs (R227, R229) -/

theorem State.mbxRing_rings (ring : v.getLsbD 0 = true) : s.mbxRing k v = s.setFab k
    (if s.sectRuns k then { s.fabOf k with bells := (s.fabOf k).bells + 1 } else { s.fabOf k with rings := (s.fabOf k).rings + 1 }) :=
  if_neg (by rw [BitVec.testBit_toNat, ring]; decide)

theorem State.mbxRing_silent (silent : v.getLsbD 0 = false) : s.mbxRing k v = s := if_pos ((BitVec.testBit_toNat v).trans silent)

/-- A word of which one bit has been set or cleared. -/
theorem getLsbD_switched (w : BitVec 32) (b : Bool) (j : Fin 32) (i : Nat) :
    (if b then w ||| BitVec.ofNat 32 (2 ^ j.val) else w &&& ~~~BitVec.ofNat 32 (2 ^ j.val)).getLsbD i =
      if i = j then b else w.getLsbD i := by
  have single : (BitVec.ofNat 32 (2 ^ j.val)).getLsbD i = decide (i = j) := by
    rw [BitVec.getLsbD_ofNat, Nat.testBit_two_pow, Bool.eq_iff_iff]
    simp only [Bool.and_eq_true, decide_eq_true_eq]
    omega
  have wide : i = j → i < 32 := fun h => h ▸ j.isLt
  cases b with
  | true =>
    rw [if_pos rfl, BitVec.getLsbD_or, single]
    split <;> simp_all
  | false =>
    rw [if_neg Bool.false_ne_true, BitVec.getLsbD_and, BitVec.getLsbD_not, single]
    split
    · simp_all
    · by_cases inside : i < 32
      · simp_all
      · rw [BitVec.getLsbD_of_ge w i (Nat.not_lt.mp inside), Bool.false_and]

theorem State.fabOut_stays (value oe : Bool) (h : ¬ (s.fabricRuns k = true ∧ s.fabLoaded k = false)) : s.fabOut k j value oe = s := by
  refine if_pos ?_
  rw [not_and_or] at h
  simpa using h

/-- A change switches one output and its enable. -/
theorem State.fabOut_switches (cells : s.fabricRuns k = true) (outside : s.fabLoaded k = false) (b : Fin 32) (value oe : Bool) (i : Nat) :
    ((s.fabOut k b value oe).fabOf k).out.getLsbD i = (if i = b then value else (s.fabOf k).out.getLsbD i) ∧
    ((s.fabOut k b value oe).fabOf k).oe.getLsbD i = (if i = b then oe else (s.fabOf k).oe.getLsbD i) := by
  unfold State.fabOut
  rw [if_neg (by simp [cells, outside])]
  dsimp only
  rw [State.fabOf_setFab_same]
  exact ⟨getLsbD_switched _ _ _ _, getLsbD_switched _ _ _ _⟩

/-- Settles O40: the port by the request that is alone, the mailboxes by their flag, each by the clocks of the cells and of the sector. -/
theorem fabricPortsAndMailboxesPass : Obligations.FabricPortsAndMailboxesPass := by
  intro s k j v f cells outside runs quiet open_
  have gate {a : Nat} {g : State → State} {u : State} (free : open_) (h : g s = u) :
      done s (s.bayGate k a g) = .next (settle s u) := congrArg (done s) ((State.bayGate_open _ _ free).trans h)
  have held {a : Nat} {g : State → State} (h : ¬ open_) :
      done s (s.bayGate k a g) = .next (settle s (s.accessError 403 a false false true)) :=
    congrArg (done s) (State.bayGate_held _ _ (Bool.not_eq_false _ ▸ h))
  have waits {x : Fabric} (stands : s.sectRuns k = false) : (s.setFab k x).mbxDrain k = s.setFab k x :=
    State.mbxDrain_stands (((State.PortOnly.setFab k x).sectRuns k).trans stands)
  have written (live : s.pairStandby = false) (j : Nat) : s.mbxWrite k j v = s.mbxTofab k j v := if_neg (by simp [live])
  refine ⟨fun word ⟨⟨hc, ho⟩, hs⟩ alone room live => ?port,
    fun we view word c ⟨hc, ho⟩ stands room => congrArg (done s) (State.fabRequest_waits hc ho _ c stands room),
    fun we view word c loaded => congrArg (done s) (State.fabRequest_loaded _ c loaded), fun r rest hc none oldest => ?returns,
    fun h => ⟨held h, held h⟩, fun free stands live => gate free ((written live j).trans (State.mbxTofab_waits stands j v)),
    fun free hs live => ⟨fun empty => ?stored, fun full => gate free ((written live j).trans (State.mbxTofab_full hs v full))⟩,
    fun free standby => gate free (if_pos standby), fun ⟨⟨hc, ho⟩, hs⟩ calm => ?ack, fun ⟨⟨hc, ho⟩, hs⟩ calm empty => ?arrives,
    fun ⟨⟨hc, ho⟩, hs⟩ calm full => ?overflows,
    fun ⟨hc, ho⟩ stands => ⟨congrArg (done s) ((State.mbxAck_launched hc ho j).trans (waits stands)),
      congrArg (done s) ((State.mbxFrom_launched hc ho j v).trans (waits stands))⟩,
    fun loaded => ⟨congrArg (done s) (if_pos loaded), congrArg (done s) (if_pos loaded)⟩,
    fun free ring => gate free (State.mbxRing_rings ring), fun free silent => gate free (State.mbxRing_silent silent),
    fun b value oe ⟨hc, ho⟩ => ?switches, fun b value oe h => congrArg (done s) (State.fabOut_stays value oe h)⟩
  case port =>
    intro a
    have addr : portAddr k word.toNat = a := by rw [portAddr, Nat.mod_eq_of_lt word.isLt]
    have served (q : FabReq) (c : Bool) := State.fabRequest_served hc ho q c hs alone room
    refine ⟨?_, ?_, fun clean => ?_⟩
    · obtain ⟨t, only, -, serve⟩ := served ⟨true, 0, word.toNat, v⟩ false
      refine ⟨_, congrArg (done s) (serve.trans (State.fabServe_writes (only.pairStandby.trans live))), State.wrote_word ?_⟩
      rw [settle_mem, State.toPartner_mem, State.memWrite_word_mem _ _ (portAddr_aligned _ _), BitVec.ofNat_toNat, BitVec.setWidth_eq,
        addr, State.setWord_of_mem only.mem]
    · obtain ⟨t, only, -, serve⟩ := served ⟨true, 0, word.toNat, v⟩ true
      obtain ⟨flag, first, mem⟩ := State.collide_shows (s := t) (portAddr k word.toNat) (req := 384 + k) (by omega)
      rw [eccSector_portAddr k.isLt, State.fb_of_regs only.regs] at first
      rw [eccSector_portAddr k.isLt] at flag
      refine ⟨_, congrArg (done s) (serve.trans (State.fabServe_collides (only.pairStandby.trans live))), ?_, fun before => ?_, fun x => ?_⟩
      · rw [settle_fb, flag]
      · rw [settle_fld, first before]
      · rw [settle_byte, State.byte_of_mem (mem.trans only.mem)]
    · obtain ⟨t, only, port, serve⟩ := served ⟨false, 0, word.toNat, v⟩ false
      have good : t.flipCount (portAddr k word.toNat) = 0 := by rw [addr, State.flipCount_of_ecc only.ecc, clean]
      refine ⟨_, congrArg (done s) (serve.trans (State.fabServe_reads good false)), ?_, fun x => ?_⟩
      · rw [settle_fabOf, State.fabOf_setFab_same, port, addr, State.word_of_mem only.mem]
      · rw [settle_byte, State.byte_of_mem (State.PortOnly.setFab k _).mem, State.byte_of_mem (State.touch_mem t _), State.byte_of_mem only.mem]
  case returns =>
    obtain ⟨t, -, sent⟩ := State.fabReturn_oldest hc none oldest
    refine ⟨_, congrArg (done s) sent, ?_, ?_, ?_, mem_outbox_settle s (List.mem_append_right _ (List.mem_singleton_self _))⟩
    all_goals rw [settle_fabOf, State.fabOf_of_fab (State.emit_fab _ _), State.fabOf_setFab_same]
    exact none
  case stored =>
    refine ⟨_, gate free (written live j), ?_⟩
    rw [settle_reg, settle_fbit]
    exact State.mbxTofab_stores hs j.isLt v empty
  case ack =>
    obtain ⟨t, only, port, arrives⟩ := State.mbxAck_arrives hc ho hs calm j
    refine ⟨_, congrArg (done s) arrives, ?_, ?_, fun i other => ?_, fun b other => ?_⟩
    · rw [settle_fbit]
      exact State.fbit_offBit_same (MBX_STAT_TOFULL k) (RF.fits (by decide)) j.isLt
    · rw [settle_fabOf, State.fabOf_of_fab (show (t.offBit _ _).fab = t.fab from State.setFld_fab _ _ _), port]
    · rw [settle_fbit]
      exact (State.fbit_offBit_other (MBX_STAT_TOFULL k) (RF.fits (by decide)) other).trans (only.fbit _ _)
    · rw [settle_reg]
      exact (State.reg_setFld_other _ other).trans (State.reg_of_regs only.regs b)
  case arrives =>
    obtain ⟨t, only, port, arrives⟩ := State.mbxFrom_arrives hc ho hs calm j v
    obtain ⟨word, full, irq, fab⟩ := State.mbxPut_stores j.isLt v ((only.fbit _ _).trans empty)
    refine ⟨_, congrArg (done s) arrives, ?_⟩
    rw [settle_reg, settle_fbit, settle_fb, settle_fabOf, State.fabOf_of_fab fab]
    exact ⟨word, full, irq, port⟩
  case overflows =>
    obtain ⟨t, only, -, arrives⟩ := State.mbxFrom_arrives hc ho hs calm j v
    refine ⟨_, congrArg (done s) arrives, ?_⟩
    rw [settle_fb, settle_fb, settle_reg, ← State.reg_of_regs only.regs]
    exact State.mbxPut_full j.isLt v ((only.fbit _ _).trans full)
  case switches =>
    have bit (i : Nat) := State.fabOut_switches hc ho b value oe i
    refine ⟨_, rfl, ?_⟩
    rw [settle_fabOf]
    refine ⟨(bit b).1.trans (if_pos rfl), (bit b).2.trans (if_pos rfl), fun i other => ?_⟩
    exact ⟨(bit i).1.trans (if_neg other), (bit i).2.trans (if_neg other)⟩

end Sys2Proof.Machine
end

section
/-! PROOFS. The DMA channels: GO and ABORT, the end of a block, and the words that move between scratchpads (O39). -/

namespace Sys2Proof.Machine

variable {s u : State} {k j : Nat} {v : Word}

/-! ### The end of a block (R220) -/

theorem scratchIrq_ne_dmaStat (m k j : Nat) : SCR_IRQ_STAT_at m ≠ DMA_STAT_at k j := by
  unfold SCR_IRQ_STAT_at DMA_STAT_at; omega

/-- The end of a block writes BUSY, ARMED and CODE of its channel and the flag DMAEND of its sector. -/
theorem State.dmaEnd_regs (code : Nat) : ∃ armed, (s.dmaEnd k j code).regs =
    ((((s.setFld (DMA_STAT_BUSY k j) 0).setFld (DMA_STAT_ARMED k j) armed).setFld (DMA_STAT_CODE k j) code).setFld
      (SCR_IRQ_STAT_DMAEND k) 1).regs := by
  unfold State.dmaEnd State.setB
  dsimp only
  exact ⟨_, rfl⟩

theorem State.dmaEnd_mem (code : Nat) : (s.dmaEnd k j code).mem = s.mem := by
  unfold State.dmaEnd
  dsimp only
  rw [State.setFld_mem, State.setFld_mem, State.setB_mem, State.setFld_mem]

/-- An ended channel is not BUSY and shows its code, and DMAEND is set. -/
theorem State.dmaEnd_shows {code : Nat} (fits : code < 16) : let u := s.dmaEnd k j code
    u.fb (DMA_STAT_BUSY k j) = false ∧ u.fld (DMA_STAT_CODE k j) = code ∧ u.fb (SCR_IRQ_STAT_DMAEND k) = true := by
  have apart := (scratchIrq_ne_dmaStat k k j).symm
  obtain ⟨armed, regs⟩ := State.dmaEnd_regs (s := s) (k := k) (j := j) code
  refine ⟨?_, ?_, ?_⟩
  · rw [State.fb_of_regs regs, State.fb_setFld_apart _ _ _ (.inl apart), State.fb_setFld_apart _ _ _ (.inr (by simp)),
      State.fb_setFld_apart _ _ _ (.inr (by simp)), State.fb_setFld_zero _ (RF.fits (by decide))]
  · rw [State.fld_of_regs regs, State.fld_setFld_other _ _ _ _ apart, State.fld_setFld_fits (RF.fits (by decide)) fits]
  · rw [State.fb_of_regs regs, State.fb_setFld_one _ (RF.fits (by decide))]

/-- The end of a block leaves the count of its words. -/
theorem State.dmaEnd_done (code : Nat) : (s.dmaEnd k j code).fld (DMA_STAT_DONE k j) = s.fld (DMA_STAT_DONE k j) := by
  obtain ⟨armed, regs⟩ := State.dmaEnd_regs (s := s) (k := k) (j := j) code
  rw [State.fld_of_regs regs, State.fld_setFld_other _ _ _ _ (scratchIrq_ne_dmaStat k k j).symm, State.fld_setFld_apart _ _ _ _ (.inr (by simp)),
    State.fld_setFld_apart _ _ _ _ (.inr (by simp)), State.fld_setFld_apart _ _ _ _ (.inr (by simp))]

/-- The end of a block leaves the record of a discarded write in every sector. -/
theorem State.dmaEnd_coll (code m : Nat) : (s.dmaEnd k j code).fb (SCR_IRQ_STAT_COLL m) = s.fb (SCR_IRQ_STAT_COLL m) := by
  obtain ⟨armed, regs⟩ := State.dmaEnd_regs (s := s) (k := k) (j := j) code
  have apart := scratchIrq_ne_dmaStat m k j
  rw [State.fb_of_regs regs, State.fb_setFld_apart _ _ _ (.inr (by simp)), State.fb_setFld_apart _ _ _ (.inl apart),
    State.fb_setFld_apart _ _ _ (.inl apart), State.fb_setFld_apart _ _ _ (.inl apart)]

/-! ### GO and ABORT (R219, R220) -/

theorem State.dmaCtrl_go (notBusy : s.fb (DMA_STAT_BUSY k j) = false) (notArmed : s.fb (DMA_STAT_ARMED k j) = false) :
    s.dmaCtrl k j (v ||| 0x80000000) = (s.setReg (DMA_CTRL_at k j) (v &&& 0x03C001FF)).dmaGo k j := by
  have stored : (v ||| 0x80000000) &&& 0x03C001FF = v &&& 0x03C001FF := by
    rw [BitVec.and_comm, BitVec.and_or_distrib_left, BitVec.and_comm _ v, show (0x03C001FF : Word) &&& 0x80000000 = 0 by decide]
    simp
  have go : (v ||| 0x80000000).toNat.testBit 31 = true := by
    rw [BitVec.testBit_toNat, BitVec.getLsbD_or, show (0x80000000 : Word).getLsbD 31 = true by decide, Bool.or_true]
  unfold State.dmaCtrl State.dmaBusy State.dmaArmed
  rw [notBusy, notArmed, stored, go]
  exact (if_neg Bool.false_ne_true).trans (if_pos rfl)

/-- While a channel is BUSY or ARMED a control word without ABORT does nothing. -/
theorem State.dmaCtrl_taken (taken : s.fb (DMA_STAT_BUSY k j) = true ∨ s.fb (DMA_STAT_ARMED k j) = true) (noAbort : v.getLsbD 30 = false) :
    s.dmaCtrl k j (v ||| 0x80000000) = s := by
  have bit : (v ||| 0x80000000).toNat.testBit 30 = false := by
    rw [BitVec.testBit_toNat, BitVec.getLsbD_or, noAbort]
    decide
  unfold State.dmaCtrl State.dmaBusy State.dmaArmed
  rw [if_pos (by simpa using taken), bit]
  rfl

theorem State.dmaGo_starts (good : s.dmaBad k j = false) (free : s.fb (DMA_CTRL_TRIG k j) = false) : s.dmaGo k j =
    ((s.setFld (DMA_STAT_BUSY k j) 1).setFld (DMA_STAT_ARMED k j) 0).setFld (DMA_STAT_DONE k j) 0 := by
  unfold State.dmaGo
  rw [good, free]
  rfl

theorem State.dmaGo_arms (good : s.dmaBad k j = false) (waits : s.fb (DMA_CTRL_TRIG k j) = true) : s.dmaGo k j =
    { s.setFld (DMA_STAT_ARMED k j) 1 with dmaTrig := tset none s.dmaTrig (8 * k + j) (some (s.fld (DMA_CTRL_EVENT k j))) } := by
  unfold State.dmaGo
  rw [good, waits]
  rfl

theorem State.dmaGo_refuses (bad : s.dmaBad k j = true) : s.dmaGo k j = (s.setFld (DMA_STAT_DONE k j) 0).dmaEnd k j 6 := if_pos bad

theorem State.dmaStop_busy (busy : s.fb (DMA_STAT_BUSY k j) = true) :
    s.dmaStop k j = { s with dmaAbort := tset false s.dmaAbort (8 * k + j) true } := if_pos busy

theorem State.dmaStop_armed (notBusy : s.fb (DMA_STAT_BUSY k j) = false) (armed : s.fb (DMA_STAT_ARMED k j) = true) :
    s.dmaStop k j = { s.setFld (DMA_STAT_ARMED k j) 0 with dmaTrig := tset none s.dmaTrig (8 * k + j) none } :=
  (if_neg (by simp [State.dmaBusy, notBusy])).trans (if_pos armed)

/-! ### What a word between scratchpads leaves (R209, R231, R303, R365) -/

/-- A register that the accesses of a word between scratchpads leave: not the tester's counts, the partner's queue or an injection. -/
def moveKeeps (b : Nat) : Prop := b ≠ IST_CNT_at ∧ b ≠ PAIR_TXQ_at ∧ ∀ m, b ≠ SCR_INJ_at m

theorem moveKeeps_dmaStat (k : Nat) (hj : j < 8) : moveKeeps (DMA_STAT_at k j) := by
  unfold moveKeeps DMA_STAT_at IST_CNT_at PAIR_TXQ_at SCR_INJ_at
  exact ⟨by omega, by omega, fun m => by omega⟩

theorem moveKeeps_pairStat : moveKeeps PAIR_STAT_at := by
  unfold moveKeeps PAIR_STAT_at IST_CNT_at PAIR_TXQ_at SCR_INJ_at
  exact ⟨by omega, by omega, fun m => by omega⟩

/-- The registers of the clocks. -/
theorem moveKeeps_clock {b : Nat} (clock : 0x40011000 ≤ b ∧ b < 0x40012000) : moveKeeps b := by
  unfold moveKeeps IST_CNT_at PAIR_TXQ_at SCR_INJ_at
  exact ⟨by omega, by omega, fun m => by omega⟩

theorem moveKeeps_sectClock {m : Nat} (hm : m < 64) : moveKeeps (CLK_SECT_at m) := moveKeeps_clock (by unfold CLK_SECT_at; omega)

/-- A state that keeps the supplies of `s` and the registers that an access of a word between scratchpads leaves. -/
def State.MoveKept (s u : State) : Prop := u.pwr = s.pwr ∧ ∀ b, moveKeeps b → u.reg b = s.reg b

section
variable (h : s.MoveKept u)
include h

theorem State.MoveKept.trans {t : State} (g : u.MoveKept t) : s.MoveKept t :=
  ⟨g.1.trans h.1, fun b kept => (g.2 b kept).trans (h.2 b kept)⟩

theorem State.MoveKept.fld (g : RF) (kept : moveKeeps g.addr) : u.fld g = s.fld g := by
  unfold State.fld
  rw [h.2 _ kept]

theorem State.MoveKept.fb (g : RF) (kept : moveKeeps g.addr) : u.fb g = s.fb g := by
  unfold State.fb
  rw [h.fld g kept]

theorem State.MoveKept.sectRuns {m : Nat} (hm : m < 64) : u.sectRuns m = s.sectRuns m :=
  State.sectRuns_of (h.fld _ (moveKeeps_clock (by decide))) (h.fld _ (moveKeeps_sectClock hm)) h.1

theorem State.MoveKept.pairStandby : u.pairStandby = s.pairStandby := by
  unfold State.pairStandby
  rw [h.fld _ moveKeeps_pairStat]

end

theorem State.loadsFirst_moveKept (req : Nat) (at_ : BitVec 64) : s.MoveKept (s.loadsFirst req at_) := by
  refine ⟨?_, fun b _ => State.loadsFirst_reg s req at_ b⟩
  obtain ⟨e, loads⟩ := s.loadsFirst_same req at_
  rw [loads]

theorem State.touch_moveKept (a : Nat) : s.MoveKept (s.touch a) := by
  refine ⟨?_, fun b kept => s.touch_reg a b kept.1⟩
  obtain ⟨i, r, touched, -⟩ := s.touch_same a
  rw [touched]

theorem State.toPartner_moveKept (kind : String) (ws : List Nat) : s.MoveKept (s.toPartner kind ws) := by
  refine ⟨?_, fun b kept => s.toPartner_reg kind ws b kept.2.1⟩
  obtain ⟨o, p, r, sent, -⟩ := s.toPartner_same kind ws
  rw [sent]

theorem State.MemoryOnly.pwr (h : s.MemoryOnly u) : u.pwr = s.pwr := by
  obtain ⟨r, m, e, q, i, rfl⟩ := h
  rfl

/-- A word written to a scratchpad leaves the registers but an injection that it meets. -/
theorem State.writeWord_moveKept (a : Nat) (w : Word) : s.MoveKept (s.writeWord a w) := by
  refine ⟨(State.writeWord_memoryOnly a w).pwr, fun b kept => ?_⟩
  have stored : ((({ s with wbq := s.wbq.erase a } : State).setWord a w).setFlips a 0).regs = s.regs :=
    State.store_regs { s with wbq := s.wbq.erase a } a 4 w.toNat
  unfold State.writeWord State.inject
  dsimp only
  split
  · split
    · rw [State.reg_setFld_other _ (kept.2.2 _), State.reg_of_regs (State.setFlips_regs _ _ _), State.reg_of_regs stored]
    · exact State.reg_of_regs stored b
  · exact State.reg_of_regs stored b

theorem State.memWrite_word_moveKept (m v : Nat) : s.MoveKept (s.memWrite 0 m 4 v) := by
  have write : s.memWrite 0 m 4 v = (s.touch m).writeWord (m - m % 4) (BitVec.ofNat 32 v) := by
    unfold State.memWrite
    exact if_pos rfl
  rw [write]
  exact (State.touch_moveKept m).trans (State.writeWord_moveKept _ _)

/-! ### Words on the device bus between scratchpads (R213, R216, R218) -/

section
variable {req a d : Nat}

/-- Whether a scratchpad may be reached is whether its sector runs. -/
theorem State.denied_scratch {view : Nat} (req : Nat) (write : Bool) (hr : regionOf a = .scratch view) :
    s.denied req a write = !s.sectRuns (a % 0x1000000 / 0x40000) := by
  simp [State.denied, State.regionCloses, hr]

theorem State.MoveKept.denied {view : Nat} (h : s.MoveKept u) (req : Nat) (write : Bool) (hr : regionOf a = .scratch view) :
    u.denied req a write = s.denied req a write := by
  rw [State.denied_scratch req write hr, State.denied_scratch req write hr, h.sectRuns (by omega)]

/-- The normal view's addresses are those of the bytes. -/
theorem normalView_normal (hr : regionOf a = .scratch 0) : normalView a = a := by
  have page : a / 0x1000000 = 0x10 := by
    unfold regionOf at hr
    dsimp only at hr
    split at hr
    · assumption
    all_goals simp [ite_eq_iff] at hr
  unfold normalView
  omega

/-- The loader function belongs to the host. -/
theorem State.loaderGate_device (a : Nat) (device : req < 403) : s.loaderGate req a = false := by
  unfold State.loaderGate
  rw [decide_eq_false (by omega)]
  rfl

theorem State.busRead_scratch (device : req < 403) (hr : regionOf a = .scratch 0) (aligned : a % 4 = 0)
    (may : s.denied req a false = false) : let r := (s.loadsFirst req s.tb.now).memRead a 4
    s.busRead req a 4 = (r.1, r.2.1, if r.2.2 then .ecc else .fine) := by
  have may0 := ((State.loadsFirst_moveKept req s.tb.now).denied req false hr).trans may
  have read := State.readOp_sectorRam (State.loaderGate_device a device) (.inr (.inr rfl)) aligned (.inl hr) may0
  rwa [State.regionRead_scratch hr, normalView_normal hr] at read

theorem State.memRead_flag (m size : Nat) : (s.memRead m size).2.2 = ((s.touch m).readWord (m - m % 4)).2.2 := rfl

theorem State.memRead_mem (m size : Nat) : (s.memRead m size).1.mem = s.mem :=
  (State.readWord_mem (s := s.touch m) (m - m % 4)).trans (s.touch_mem m)

theorem State.readWord_bad (bad : 2 ≤ s.flipCount a) : (s.readWord a).2.2 = true := by
  obtain ⟨n, count⟩ : ∃ n, s.flipCount a = n + 2 := ⟨s.flipCount a - 2, by omega⟩
  unfold State.readWord
  rw [count]
  rfl

/-- A word of a scratchpad with no inverted bit is read as stored. -/
theorem State.busRead_clean (device : req < 403) (hr : regionOf a = .scratch 0) (aligned : a % 4 = 0)
    (may : s.denied req a false = false) (clean : s.flipCount a = 0) :
    s.busRead req a 4 = ((s.loadsFirst req s.tb.now).touch a, s.load a 4, .fine) := by
  have good : (s.loadsFirst req s.tb.now).flipCount (a - a % 4) = 0 := by
    rw [aligned, Nat.sub_zero, State.flipCount_of_ecc (State.loadsFirst_ecc _), clean]
  have fine : ((s.loadsFirst req s.tb.now).memRead a 4).2.2 = false := by
    rw [State.memRead_flag, State.readWord_good (by rwa [State.flipCount_of_ecc (State.touch_ecc _ _)])]
  rw [State.busRead_scratch device hr aligned may, State.memRead_state _ good, State.memRead_value (.inr (.inr rfl)) aligned good, fine,
    State.load_of_mem (State.loadsFirst_mem _)]
  rfl

/-- An uncorrectable word of a scratchpad fails the access, and no byte changes. -/
theorem State.busRead_bad (device : req < 403) (hr : regionOf a = .scratch 0) (aligned : a % 4 = 0)
    (may : s.denied req a false = false) (bad : 2 ≤ s.flipCount a) :
    (s.busRead req a 4).2.2 = .ecc ∧ (s.busRead req a 4).1.mem = s.mem := by
  have flag : ((s.loadsFirst req s.tb.now).memRead a 4).2.2 = true := by
    rw [State.memRead_flag, aligned, Nat.sub_zero, State.readWord_bad]
    rwa [State.flipCount_of_ecc (State.touch_ecc _ _), State.flipCount_of_ecc (State.loadsFirst_ecc _)]
  rw [State.busRead_scratch device hr aligned may, flag]
  exact ⟨rfl, (State.memRead_mem a 4).trans (State.loadsFirst_mem _)⟩

/-- A read that meets a condition of R25 is refused, and no byte changes. -/
theorem State.busRead_refused (device : req < 403) (error : (s.loadsFirst req s.tb.now).busError req a 4 false ≠ (false, false, false)) :
    (s.busRead req a 4).2.2 = .refused ∧ (s.busRead req a 4).1.mem = s.mem := by
  have any : ∀ e : Bool × Bool × Bool, e ≠ (false, false, false) → (e.1 || e.2.1 || e.2.2) = true := by decide
  have same : s.busRead req a 4 = (s.loadsFirst req s.tb.now, 0, .refused) := by
    unfold State.busRead State.readOp State.busRefuse
    dsimp only
    rw [State.loaderGate_device a device, any _ error, if_neg Bool.false_ne_true, if_pos rfl, if_neg (by omega)]
  rw [same]
  exact ⟨rfl, State.loadsFirst_mem _⟩

/-- A word written to a scratchpad is stored there; what else it leaves is as `State.MoveKept` says. -/
theorem State.busWrite_scratch (device : req < 400) (hr : regionOf d = .scratch 0) (aligned : d % 4 = 0)
    (may : s.denied req d true = false) (live : s.pairStandby = false) (w : Word) :
    s.MoveKept (s.busWrite req d 4 w false).1 ∧ (s.busWrite req d 4 w false).1.mem = (s.setWord d w).mem := by
  have loads := State.loadsFirst_moveKept (s := s) req s.tb.now
  have write := State.writeOp_sectorRam w false (State.loaderGate_device d (Nat.lt_trans device (by decide))) (.inr (.inr rfl)) aligned (.inl hr)
    ((loads.denied req true hr).trans may)
  have stored := State.busStore_taken (req := req) (size := 4) w.toNat (.inl hr) (.inl (loads.pairStandby.trans live)) (.inl (rfl : false = false))
  rw [State.regionWrite_scratch _ hr, normalView_normal hr] at stored
  unfold State.busWrite
  rw [write, stored]
  refine ⟨loads.trans (State.MoveKept.trans ?_ (State.toPartner_moveKept _ _)), ?_⟩
  · exact State.memWrite_word_moveKept _ _
  · rw [State.toPartner_mem, State.memWrite_word_mem _ _ aligned, BitVec.ofNat_toNat, BitVec.setWidth_eq,
      State.setWord_of_mem (State.loadsFirst_mem _)]

end

/-! ### The words of a channel (R213, R218, R220) -/

/-- Where the word in flight of a channel comes from. -/
def State.dmaFrom (s : State) (k j : Nat) : Nat := dmaAddr (s.fld (DMA_SRC_SRC k j)) (s.fld (DMA_STAT_DONE k j)) (s.fb (DMA_CTRL_SFIX k j))

/-- Where the word in flight of a channel goes to. -/
def State.dmaTo (s : State) (k j : Nat) : Nat := dmaAddr (s.fld (DMA_DST_DST k j)) (s.fld (DMA_STAT_DONE k j)) (s.fb (DMA_CTRL_DFIX k j))

/-- The requester that a channel is on the device bus. -/
def dmaReq (k j : Nat) : Nat := 256 + 8 * k + j

theorem State.dmaWord_stands (coll : Bool) (stands : s.fb (DMA_STAT_BUSY k j) = false ∨ s.sectRuns k = false ∨ s.busRuns = false) :
    s.dmaWord k j coll = s := if_pos stands

/-- A word of a channel moves: its sector and the device bus run. -/
def State.dmaRuns (s : State) (k j : Nat) : Prop := s.fb (DMA_STAT_BUSY k j) = true ∧ s.sectRuns k = true ∧ s.busRuns = true

section
variable (runs : s.dmaRuns k j) (coll : Bool)
include runs

theorem State.dmaRuns.not_stands : ¬ (s.dmaBusy k j = false ∨ s.sectRuns k = false ∨ s.busRuns = false) := by
  obtain ⟨busy, sector, bus⟩ := runs
  simp [State.dmaBusy, busy, sector, bus]

theorem State.dmaWord_refused (refused : (s.busRead (dmaReq k j) (s.dmaFrom k j) 4).2.2 = .refused) :
    s.dmaWord k j coll = (s.busRead (dmaReq k j) (s.dmaFrom k j) 4).1.dmaEnd k j 4 := by
  refine (if_neg runs.not_stands).trans ?_
  unfold dmaReq State.dmaFrom at *
  dsimp only
  rw [refused]

theorem State.dmaWord_bad (bad : (s.busRead (dmaReq k j) (s.dmaFrom k j) 4).2.2 = .ecc) :
    s.dmaWord k j coll = (s.busRead (dmaReq k j) (s.dmaFrom k j) 4).1.dmaEnd k j 3 := by
  refine (if_neg runs.not_stands).trans ?_
  unfold dmaReq State.dmaFrom at *
  dsimp only
  rw [bad]

variable {r : State} {w : Nat} (read : s.busRead (dmaReq k j) (s.dmaFrom k j) 4 = (r, w, .fine))
  (may : r.busError (dmaReq k j) (s.dmaTo k j) 4 true = (false, false, false))
include read may

theorem State.dmaWord_collides (hr : regionOf (s.dmaTo k j) = .scratch 0) (live : r.pairStandby = false) :
    s.dmaWord k j true = (r.collide (normalView (s.dmaTo k j)) (dmaReq k j)).dmaEnd k j 2 := by
  refine (if_neg runs.not_stands).trans ?_
  unfold dmaReq State.dmaFrom State.dmaTo at *
  dsimp only
  rw [read]
  dsimp only
  rw [may]
  exact (if_neg Bool.false_ne_true).trans (if_pos ⟨rfl, .inl hr, live⟩)

/-- The word is written and counted; the last one, or one with an abort pending, ends the block. -/
theorem State.dmaWord_moves : s.dmaWord k j false =
    let moved := (r.busWrite (dmaReq k j) (s.dmaTo k j) 4 (BitVec.ofNat 32 w) false).1.setFld (DMA_STAT_DONE k j) (s.fld (DMA_STAT_DONE k j) + 1)
    if s.fld (DMA_STAT_DONE k j) + 1 ≥ s.fld (DMA_COUNT_COUNT k j) then moved.dmaEnd k j 1
    else if tget false s.dmaAbort (8 * k + j) then moved.dmaEnd k j 5
    else moved := by
  refine (if_neg runs.not_stands).trans ?_
  unfold dmaReq State.dmaFrom State.dmaTo at *
  dsimp only
  rw [read]
  dsimp only
  rw [may]
  exact (if_neg Bool.false_ne_true).trans (if_neg (fun h => Bool.false_ne_true h.1))

end

/-- The word in flight of a channel goes, permitted and with no inverted bit, from a scratchpad to a scratchpad of a device that is live. -/
structure State.DmaPlain (s : State) (k j : Nat) : Prop where
  source : regionOf (s.dmaFrom k j) = .scratch 0
  sourceAligned : s.dmaFrom k j % 4 = 0
  sourceMay : s.denied (dmaReq k j) (s.dmaFrom k j) false = false
  clean : s.flipCount (s.dmaFrom k j) = 0
  target : regionOf (s.dmaTo k j) = .scratch 0
  targetAligned : s.dmaTo k j % 4 = 0
  targetMay : s.denied (dmaReq k j) (s.dmaTo k j) true = false
  live : s.pairStandby = false

section
variable (hk : k < 16) (hj : j < 8)
include hk hj

theorem dmaReq_device : dmaReq k j < 400 := by unfold dmaReq; omega

/-- Its read answers the word and leaves the write permitted. -/
theorem State.DmaPlain.reads (plain : s.DmaPlain k j) :
    ∃ r, s.busRead (dmaReq k j) (s.dmaFrom k j) 4 = (r, s.load (s.dmaFrom k j) 4, .fine) ∧ s.MoveKept r ∧ r.mem = s.mem ∧
      r.busError (dmaReq k j) (s.dmaTo k j) 4 true = (false, false, false) := by
  have device := Nat.lt_trans (dmaReq_device hk hj) (by decide : 400 < 403)
  have kept := (State.loadsFirst_moveKept (s := s) (dmaReq k j) s.tb.now).trans (State.touch_moveKept (s.dmaFrom k j))
  refine ⟨_, State.busRead_clean device plain.source plain.sourceAligned plain.sourceMay plain.clean, kept,
    (State.touch_mem _ _).trans (State.loadsFirst_mem _), State.busError_none ?_ ?_ ?_⟩
  · simp [plain.target]
  · exact badSize_sectorRam (.inl plain.target) (.inr (.inr rfl)) plain.targetAligned
  · exact (kept.denied _ true plain.target).trans plain.targetMay

/-- The word is then stored, its count is written, and the channel is BUSY up to the end of its block. -/
theorem State.dmaWord_stored (runs : s.dmaRuns k j) (plain : s.DmaPlain k j) (fits : s.fld (DMA_STAT_DONE k j) < 65535) :
    ∃ m, m.mem = (s.setWord (s.dmaTo k j) (s.word (s.dmaFrom k j))).mem ∧
      m.fld (DMA_STAT_DONE k j) = s.fld (DMA_STAT_DONE k j) + 1 ∧ m.fb (DMA_STAT_BUSY k j) = true ∧
      s.dmaWord k j false = if s.fld (DMA_STAT_DONE k j) + 1 ≥ s.fld (DMA_COUNT_COUNT k j) then m.dmaEnd k j 1
        else if tget false s.dmaAbort (8 * k + j) then m.dmaEnd k j 5 else m := by
  obtain ⟨r, read, kept, mem, may⟩ := plain.reads hk hj
  obtain ⟨stays, stored⟩ := State.busWrite_scratch (dmaReq_device hk hj) plain.target plain.targetAligned
    ((kept.denied _ true plain.target).trans plain.targetMay) (kept.pairStandby.trans plain.live)
    (BitVec.ofNat 32 (s.load (s.dmaFrom k j) 4))
  refine ⟨_, ?_, ?_, ?_, State.dmaWord_moves runs read may⟩
  · rw [State.setFld_mem, stored, State.setWord_of_mem mem]
    rfl
  · exact State.fld_setFld_fits (RF.fits (by decide)) (Nat.lt_of_le_of_lt fits (by simp))
  · rw [State.fb_setFld_apart _ _ _ (.inr (by simp)), (kept.trans stays).fb _ (moveKeeps_dmaStat k hj)]
    exact runs.1

end

/-- Settles O39: GO and ABORT are branches of the control word; a word is a read, a write and its count, and each way it fails ends
the block with its code. -/
theorem dmaChannelsMoveBlocks : Obligations.DmaChannelsMoveBlocks := by
  intro s k j v s1 idle i src dst req runs open_ s0 ends
  have gate {g : State → State} {u : State} (free : open_) (h : g s = u) :
      done s (s.bayGate k (DMA_CTRL_at k j) g) = .next (settle s u) := congrArg (done s) ((State.bayGate_open _ _ free).trans h)
  have held {g : State → State} (h : ¬ open_) :
      done s (s.bayGate k (DMA_CTRL_at k j) g) = .next (settle s (s.accessError 403 (DMA_CTRL_at k j) false false true)) :=
    congrArg (done s) (State.bayGate_held _ _ (Bool.not_eq_false _ ▸ h))
  have ended {t : State} (c : Nat) (fits : c < 16) (mem : t.mem = s.mem) : ends s (settle s (t.dmaEnd k j c)) c := by
    obtain ⟨busy, code, irq⟩ := State.dmaEnd_shows (s := t) (k := k) (j := j) fits
    refine ⟨?_, ?_, ?_, fun x => ?_⟩
    · rw [settle_fb, busy]
    · rw [settle_fld, code]
    · rw [settle_fb, irq]
    · rw [settle_byte, State.byte_of_mem ((State.dmaEnd_mem c).trans mem)]
  have device : req < 403 := Nat.lt_trans (dmaReq_device k.isLt j.isLt) (by decide)
  refine ⟨fun h => ⟨held h, held h⟩,
    fun free ⟨hb, ha⟩ good direct => gate free ((State.dmaCtrl_go hb ha).trans (State.dmaGo_starts good direct)),
    fun free ⟨hb, ha⟩ good waits => gate free ((State.dmaCtrl_go hb ha).trans (State.dmaGo_arms good waits)),
    fun free ⟨hb, ha⟩ bad => ⟨_, gate free ((State.dmaCtrl_go hb ha).trans (State.dmaGo_refuses bad)), ended 6 (by decide) ?mem⟩,
    fun free taken noAbort => gate free (State.dmaCtrl_taken taken noAbort),
    fun free busy => gate free (State.dmaStop_busy busy), fun free hb armed => gate free (State.dmaStop_armed hb armed),
    fun moves rs as ms clean rd ad md live fits => ?stored, fun moves rs as ms clean rd ad md live => ?collides,
    fun c moves rs as ms flipped => ?bad, fun stands c => congrArg (done s) (State.dmaWord_stands c stands), fun moves error => ?refused⟩
  case mem => rw [State.setFld_mem, State.setReg_mem]
  case stored =>
    obtain ⟨m, mem, count, busy, word⟩ := State.dmaWord_stored k.isLt j.isLt moves ⟨rs, as, ms, clean, rd, ad, md, live⟩ fits
    have kept {u : State} (same : u.mem = m.mem) : (settle s u).word dst = s.word src ∧
        ∀ x, x < dst ∨ dst + 4 ≤ x → (settle s u).byte x = s.byte x := State.wrote_word ((settle_mem s u).trans (same.trans mem))
    have block (c : Nat) (fits : c < 16) : let u := settle s (m.dmaEnd k j c)
        (u.word dst = s.word src ∧ ∀ x, x < dst ∨ dst + 4 ≤ x → u.byte x = s.byte x) ∧
        u.fld (DMA_STAT_DONE k j) = i + 1 ∧ u.fld (DMA_STAT_CODE k j) = c ∧ u.fb (DMA_STAT_BUSY k j) = false := by
      obtain ⟨idle, code, -⟩ := State.dmaEnd_shows (s := m) (k := k) (j := j) fits
      refine ⟨kept (State.dmaEnd_mem c), ?_, ?_, ?_⟩
      · rw [settle_fld, State.dmaEnd_done, count]
      · rw [settle_fld, code]
      · rw [settle_fb, idle]
    by_cases last : i + 1 ≥ s.fld (DMA_COUNT_COUNT k j)
    · obtain ⟨⟨copied, rest⟩, counted, shows_⟩ := block 1 (by decide)
      exact ⟨_, congrArg (done s) (word.trans (if_pos last)), copied, rest, counted, fun _ => shows_,
        fun more => absurd last (Nat.not_le_of_lt more), fun more => absurd last (Nat.not_le_of_lt more)⟩
    · cases abort : tget false s.dmaAbort (8 * k + j) with
      | true =>
        obtain ⟨⟨copied, rest⟩, counted, shows_⟩ := block 5 (by decide)
        exact ⟨_, congrArg (done s) (word.trans ((if_neg last).trans (if_pos abort))), copied, rest, counted, fun h => absurd h last,
          fun _ _ => shows_, fun _ none => absurd none Bool.noConfusion⟩
      | false =>
        obtain ⟨copied, rest⟩ := kept rfl
        refine ⟨_, congrArg (done s) (word.trans ((if_neg last).trans (if_neg (by simp [abort])))), copied, rest, ?_, fun h => absurd h last,
          fun _ some => absurd some Bool.noConfusion, fun _ _ => ?_⟩
        · rw [settle_fld, count]
        · rw [settle_fb, busy]
  case collides =>
    obtain ⟨r, read, kept, mem, may⟩ := State.DmaPlain.reads k.isLt j.isLt ⟨rs, as, ms, clean, rd, ad, md, live⟩
    obtain ⟨flag, -, same⟩ := State.collide_shows (s := r) (normalView dst) (req := req) (by omega)
    obtain ⟨busy, code, -, bytes⟩ := ended 2 (by decide) (same.trans mem)
    refine ⟨_, congrArg (done s) (State.dmaWord_collides moves read may rd (kept.pairStandby.trans live)), ?_, code, busy, bytes⟩
    rw [congrArg eccSector (normalView_normal rd)] at flag
    rw [settle_fb, State.dmaEnd_coll]
    exact flag
  case bad =>
    obtain ⟨failed, mem⟩ := State.busRead_bad device rs as ms flipped
    exact ⟨_, congrArg (done s) (State.dmaWord_bad moves c failed), ended 3 (by decide) mem⟩
  case refused =>
    obtain ⟨failed, mem⟩ := State.busRead_refused device error
    exact ⟨_, congrArg (done s) (State.dmaWord_refused moves false failed), ended 4 (by decide) mem⟩

end Sys2Proof.Machine
end

section
/-! PROOFS. Sessions: OPEN, CHECK, the checker's result and APPLY (O42). -/

namespace Sys2Proof.Machine

variable {s : State}

/-! ### Who reaches a session (R233, R234) -/

section
variable {req : Nat}

theorem State.attarCmd_open (may : 403 ≤ req) : s.attarCmd req 1 0 false = s.attarOpen req := if_neg (Nat.not_lt.mpr may)

theorem State.attarCmd_check (may : 403 ≤ req) : s.attarCmd req 2 0 false = s.asOwner req State.attarCheck :=
  if_neg (Nat.not_lt.mpr may)

theorem State.attarCmd_apply (may : 403 ≤ req) (mode : Nat) :
    s.attarCmd req 3 mode false = s.asOwner req (fun s => s.attarApply mode) :=
  if_neg (Nat.not_lt.mpr may)

theorem State.asOwner_noSession (f : State → State) (closed : s.fld ATTAR_STAT_STATE = 0) : s.asOwner req f = s.cmdRes 2 :=
  if_pos closed

theorem State.asOwner_notOwner (f : State → State) (session : s.fld ATTAR_STAT_STATE ≠ 0) (other : s.fld ATTAR_STAT_OWNER ≠ req) :
    s.asOwner req f = s.cmdRes 3 :=
  (if_neg session).trans (if_pos other)

theorem State.asOwner_own (f : State → State) (session : s.fld ATTAR_STAT_STATE ≠ 0) (own : s.fld ATTAR_STAT_OWNER = req) :
    s.asOwner req f = f s :=
  (if_neg session).trans (if_neg (not_not_intro own))

/-! ### OPEN (R233) -/

theorem State.attarOpen_taken (session : s.fld ATTAR_STAT_STATE ≠ 0) : s.attarOpen req = s.cmdRes 1 := if_pos session

theorem State.attarOpen_noService (closed : s.fld ATTAR_STAT_STATE = 0) (idle : s.noService = true) : s.attarOpen req = s.cmdRes 4 :=
  (if_neg (not_not_intro closed)).trans (if_pos idle)

theorem State.attarOpen_starts (closed : s.fld ATTAR_STAT_STATE = 0) (serves : s.noService = false) : s.attarOpen req =
    ((({ s with attar := ⟨[], [], none, false, s.tb.now⟩ } : State).setFld ATTAR_STAT_STATE 1).setFld ATTAR_STAT_OWNER req).cmdRes 0 :=
  (if_neg (not_not_intro closed)).trans (if_neg (Bool.eq_false_iff.mp serves))

end

/-! ### CHECK and its end (R240 to R242) -/

/-- In an OPEN or a CHECKED session the checker starts. -/
theorem State.attarCheck_starts (ready : s.fld ATTAR_STAT_STATE = 1 ∨ s.fld ATTAR_STAT_STATE = 3) : s.attarCheck =
    (({ s with attar := { s.attar with dirty := false } } : State).setFld ATTAR_STAT_STATE 2).cmdRes 0 := by
  unfold State.attarCheck State.attarState
  rcases ready with state | state <;> (rw [state]; rfl)

theorem State.attarCheck_checking (state : s.fld ATTAR_STAT_STATE = 2) : s.attarCheck = s.cmdRes 5 := by
  unfold State.attarCheck State.attarState; rw [state]; rfl

theorem State.attarCheck_pending (state : s.fld ATTAR_STAT_STATE = 4) : s.attarCheck = s.cmdRes 7 := by
  unfold State.attarCheck State.attarState; rw [state]; rfl

/-- The state that a check ends in: CHECKED where there is no offence and no event met it, else OPEN. -/
def State.checkedState (s : State) : Nat := if s.sessionOffences.isEmpty && !s.attar.dirty then 3 else 1

theorem State.checkedState_fits : s.checkedState % 8 = s.checkedState := by
  unfold State.checkedState
  split <;> rfl

/-- What the checker writes beside STATE: the count, the first offence and the cause (R241, R242). -/
def State.checkResult (s : State) : State :=
  let o := (firstOffence s.sessionOffences).getD ⟨0, 0, 0⟩
  ((((s.setFld ATTAR_CHK_RESULT_COUNT (min s.sessionOffences.length 255)).setFld ATTAR_CHK_RESULT_CODE o.code).setFld
    ATTAR_CHK_ADDR_ADDR o.addr).setFld ATTAR_CHK_HANDLE_HANDLE o.handle).setFld ATTAR_IRQ_STAT_CHKDONE 1

theorem State.checkResult_count : s.checkResult.fld ATTAR_CHK_RESULT_COUNT = min s.sessionOffences.length 255 := by
  unfold State.checkResult
  rw [State.fld_setFld_apart _ _ _ _ (by decide), State.fld_setFld_apart _ _ _ _ (by decide), State.fld_setFld_apart _ _ _ _ (by decide),
    State.fld_setFld_apart _ _ _ _ (by decide), State.fld_setFld_same _ _ _ (by decide)]
  exact Nat.mod_eq_of_lt (Nat.lt_succ_of_le (Nat.min_le_right _ 255))

theorem State.checkDone_checking (state : s.fld ATTAR_STAT_STATE = 2) : s.checkDone =
    { s.checkResult.setFld ATTAR_STAT_STATE s.checkedState with attar := { s.checkResult.attar with dirty := false } } := by
  unfold State.checkDone
  exact if_neg (not_not_intro state)

theorem State.fld_with_attar (t : State) (x : Attar) (f : RF) : ({ t with attar := x } : State).fld f = t.fld f := rfl

/-- The fields after a check are those of its result, with STATE moved. Naming the state before `attar` is set keeps the kernel from
comparing the two states field by field. -/
theorem State.checkDone_fld (state : s.fld ATTAR_STAT_STATE = 2) (f : RF) :
    s.checkDone.fld f = (s.checkResult.setFld ATTAR_STAT_STATE s.checkedState).fld f :=
  (congrArg (·.fld f) (State.checkDone_checking state)).trans (State.fld_with_attar (s.checkResult.setFld _ _) _ f)

/-- The end of a check counts the offences in a field that stops at 255, sets its cause, and moves the session. -/
theorem State.checkDone_shows (state : s.fld ATTAR_STAT_STATE = 2) :
    s.checkDone.fld ATTAR_CHK_RESULT_COUNT = min s.sessionOffences.length 255 ∧
    s.checkDone.fb ATTAR_IRQ_STAT_CHKDONE = true ∧ s.checkDone.fld ATTAR_STAT_STATE = s.checkedState := by
  refine ⟨?count, ?cause, ?moved⟩
  case count => rw [State.checkDone_fld state, State.fld_setFld_apart _ _ _ _ (by decide), State.checkResult_count]
  case cause =>
    unfold State.fb
    rw [State.checkDone_fld state, State.fld_setFld_apart _ _ _ _ (by decide)]
    exact State.fb_setFld_one ATTAR_IRQ_STAT_CHKDONE (by decide)
  case moved =>
    rw [State.checkDone_fld state, State.fld_setFld_same _ _ _ (by decide)]
    exact State.checkedState_fits

/-! ### APPLY (R243, R244) -/

section
variable {mode : Nat}

theorem State.attarApply_notChecked (state : s.fld ATTAR_STAT_STATE = 1) : s.attarApply mode = s.cmdRes 6 := by
  unfold State.attarApply State.attarState; rw [state]; rfl

theorem State.attarApply_checking (state : s.fld ATTAR_STAT_STATE = 2) : s.attarApply mode = s.cmdRes 5 := by
  unfold State.attarApply State.attarState; rw [state]; rfl

theorem State.attarApply_pending (state : s.fld ATTAR_STAT_STATE = 4) : s.attarApply mode = s.cmdRes 7 := by
  unfold State.attarApply State.attarState; rw [state]; rfl

section
variable (checked : s.fld ATTAR_STAT_STATE = 3) {x : ApplyAt}
include checked

/-- The target of a checked session decides first: with the code of a refusal, APPLY answers it. -/
theorem State.attarApply_refused {c : Nat} (target : s.applyTarget mode = (x, c)) (refused : c ≠ 0) : s.attarApply mode = s.cmdRes c := by
  unfold State.attarApply State.attarState
  rw [checked, target]
  cases c with
  | zero => exact absurd rfl refused
  | succ c => rfl

/-- With an eligible target the clocks that take part decide. -/
theorem State.attarApply_eligible (target : s.applyTarget mode = (x, 0)) : s.attarApply mode =
    if s.clockStopped (s.takesPart s.attar.staged s.attar.reqs) then s.cmdRes 0xA
    else (({ s with attar := { s.attar with target := some x } } : State).setFld ATTAR_STAT_STATE 4).cmdRes 0 := by
  unfold State.attarApply State.attarState
  rw [checked, target]; rfl

theorem State.attarApply_stopped (target : s.applyTarget mode = (x, 0))
    (stopped : s.clockStopped (s.takesPart s.attar.staged s.attar.reqs) = true) : s.attarApply mode = s.cmdRes 0xA :=
  (State.attarApply_eligible checked target).trans (if_pos stopped)

theorem State.attarApply_arms (target : s.applyTarget mode = (x, 0))
    (runs : s.clockStopped (s.takesPart s.attar.staged s.attar.reqs) = false) : s.attarApply mode =
    (({ s with attar := { s.attar with target := some x } } : State).setFld ATTAR_STAT_STATE 4).cmdRes 0 :=
  (State.attarApply_eligible checked target).trans (if_neg (Bool.eq_false_iff.mp runs))

end

end

/-- Settles O42: OPEN by the session and the service it meets, CHECK and APPLY by the owner, the state and the target. -/
theorem sessionsOpenCheckAndArm : Obligations.SessionsOpenCheckAndArm := by
  intro s req may st own res os
  have opens {t : State} (h : s.attarOpen req = t) : exec (.openSession req) s = .next (settle s t) :=
    congrArg (done s) ((State.attarCmd_open may).trans h)
  have check {t : State} (h : s.asOwner req State.attarCheck = t) : exec (.attarCheck req) s = .next (settle s t) :=
    congrArg (done s) ((State.attarCmd_check may).trans h)
  have apply_ (m : Fin 4) {t : State} (h : s.asOwner req (fun s => s.attarApply m) = t) : exec (.attarApply req m) s = .next (settle s t) :=
    congrArg (done s) ((State.attarCmd_apply may m).trans h)
  have mine (f : State → State) {n : Nat} (state : st = n + 1) (o : own) : s.asOwner req f = f s :=
    State.asOwner_own f (ne_of_eq_of_ne state n.succ_ne_zero) o
  refine ⟨fun closed serves => opens (State.attarOpen_starts closed serves), fun session => opens (State.attarOpen_taken session),
    fun closed idle => opens (State.attarOpen_noService closed idle),
    fun closed => ⟨check (State.asOwner_noSession _ closed), fun m => apply_ m (State.asOwner_noSession _ closed)⟩,
    fun session other => ⟨check (State.asOwner_notOwner _ session other), fun m => apply_ m (State.asOwner_notOwner _ session other)⟩,
    fun o => ⟨fun checking => ⟨check ?_, fun m => apply_ m ?_⟩, fun pending => ⟨check ?_, fun m => apply_ m ?_⟩⟩,
    fun ready o => check ?starts, fun checking => ?ends, fun checked o runs => apply_ 0 ?tick, fun checked o stopped => apply_ 0 ?stopped,
    fun m x c checked o target => ⟨fun refused => apply_ m ?refused, fun eligible runs => apply_ m ?arms⟩, fun m state o => apply_ m ?notChecked⟩
  · exact (mine _ checking o).trans (State.attarCheck_checking checking)
  · exact (mine _ checking o).trans (State.attarApply_checking checking)
  · exact (mine _ pending o).trans (State.attarCheck_pending pending)
  · exact (mine _ pending o).trans (State.attarApply_pending pending)
  case starts => exact (ready.elim (mine _ · o) (mine _ · o)).trans (State.attarCheck_starts ready)
  case ends =>
    obtain ⟨count, cause, moved⟩ := State.checkDone_shows checking
    exact ⟨_, rfl, (settle_fld _ _ _).trans count, (settle_fb _ _ _).trans cause, (settle_fld _ _ _).trans moved⟩
  case tick => exact (mine _ checked o).trans (State.attarApply_arms checked rfl runs)
  case stopped => exact (mine _ checked o).trans (State.attarApply_stopped checked rfl stopped)
  case refused => exact (mine _ checked o).trans (State.attarApply_refused checked target refused)
  case arms => subst eligible; exact (mine _ checked o).trans (State.attarApply_arms checked target runs)
  case notChecked => exact (mine _ state o).trans (State.attarApply_notChecked state)

end Sys2Proof.Machine
end

section
/-! PROOFS. Pins: strobes of the GPIO words, the keyed lock, and the banks (O44). -/

namespace Sys2Proof.Machine

variable {s u : State} {a g req b : Nat} {v : Word} {f : Word → Word → Word}

/-! ### Strobes of a GPIO word (R259, R303) -/

theorem gpioOut_ne_pair (g : Nat) : GPIO_OUT_at g ≠ PAIR_IRQ_STAT_at ∧ GPIO_OUT_at g ≠ PAIR_TXQ_at := by
  unfold GPIO_OUT_at PAIR_IRQ_STAT_at PAIR_TXQ_at
  omega

theorem State.localWrite_reg (other : b ≠ PAIR_IRQ_STAT_at) : s.localWrite.reg b = s.reg b := State.reg_setFld_other _ other

theorem State.gpioOp_out (h : Word → Word) : (s.gpioOp g h).reg (GPIO_OUT_at g) = h (s.reg (GPIO_OUT_at g)) := State.reg_setReg_same _ _ _

theorem State.gpioOp_reg (h : Word → Word) (other : b ≠ GPIO_OUT_at g) : (s.gpioOp g h).reg b = s.reg b := State.reg_setReg_other _ _ _ _ other

/-- The bits of a strobe that act: a pair standby leaves out those of shared pins. -/
def State.strobeActs (s : State) (g : Nat) (v : Word) : Word := if s.pairStandby then v &&& ~~~s.sharedBits g else v

/-- A strobe acts on the output word; one that names shared pins is LOCALWR on a standby and goes to the partner elsewhere. -/
theorem State.gpioStrobe_eq : s.gpioStrobe a g v f =
    let u := s.gpioOp g (fun w => f w (s.strobeActs g v))
    if v &&& s.sharedBits g = 0 then u
    else if s.pairStandby then u.localWrite else u.toPartner "WRITE" [a, 4, (v &&& s.sharedBits g).toNat] := by
  unfold State.gpioStrobe State.strobeActs
  cases s.pairStandby with
  | true => exact if_pos rfl
  | false => exact if_neg Bool.false_ne_true

theorem State.gpioStrobe_unshared (unshared : v &&& s.sharedBits g = 0) :
    s.gpioStrobe a g v f = s.gpioOp g (fun w => f w (s.strobeActs g v)) := State.gpioStrobe_eq.trans (if_pos unshared)

theorem State.gpioStrobe_standby (standby : s.pairStandby = true) (shared : v &&& s.sharedBits g ≠ 0) :
    s.gpioStrobe a g v f = (s.gpioOp g (fun w => f w (s.strobeActs g v))).localWrite :=
  (State.gpioStrobe_eq.trans (if_neg shared)).trans (if_pos standby)

/-- Beyond the output word a strobe writes at most the cause of the pair and the level of its transmit queue. -/
theorem State.gpioStrobe_reg (irq : b ≠ PAIR_IRQ_STAT_at) (queue : b ≠ PAIR_TXQ_at) :
    (s.gpioStrobe a g v f).reg b = (s.gpioOp g (fun w => f w (s.strobeActs g v))).reg b := by
  rw [State.gpioStrobe_eq]
  dsimp only
  split
  · rfl
  · split
    · exact State.localWrite_reg irq
    · exact State.toPartner_reg _ _ _ _ queue

theorem State.gpioStrobe_out : (s.gpioStrobe a g v f).reg (GPIO_OUT_at g) = f (s.reg (GPIO_OUT_at g)) (s.strobeActs g v) := by
  obtain ⟨irq, queue⟩ := gpioOut_ne_pair g
  rw [State.gpioStrobe_reg irq queue, State.gpioOp_out]

/-! ### The keyed lock (R262) -/

theorem State.lockTimeout_none (closed : s.pins.lockSeq = none) : s.lockTimeout = s := by
  unfold State.lockTimeout
  rw [closed]

section
variable {r h : Nat} {t : BitVec 64} (seq : s.pins.lockSeq = some (r, h, t))
include seq

theorem State.lockTimeout_late (late : 256 < (s.tb.now - t).toNat) :
    s.lockTimeout = { s.lockErr with pins := { s.pins with lockSeq := none } } := by
  unfold State.lockTimeout
  rw [seq]
  exact if_pos late

theorem State.lockTimeout_inTime (inTime : (s.tb.now - t).toNat ≤ 256) : s.lockTimeout = s := by
  unfold State.lockTimeout
  rw [seq]
  exact if_neg (Nat.not_lt.mpr inTime)

end

section
variable (may : 403 ≤ req) (timed : s.lockTimeout = u)
include may timed

/-- The second keyed write of a sequence: its requester, key and group. -/
theorem State.xbarLock_second {t : BitVec 64} (seq : u.pins.lockSeq = some (req, v.toNat % 2 ^ 16, t)) (key : bits v.toNat 31 16 = 0x9394) :
    let g := v.toNat % 2 ^ 16
    s.xbarLock req v = State.invalidate { u.setReg (XBAR_LOCKED_at g) (u.reg (XBAR_LOCKED_at g) ||| u.reg (XBAR_LOCKMASK_at g)) with
      pins := { u.pins with lockSeq := none } } := by
  unfold State.xbarLock
  rw [if_neg (Nat.not_lt.mpr may), timed]
  refine if_pos ?_
  rw [seq]
  exact decide_eq_true ⟨rfl, key, rfl⟩

/-- A first keyed write opens a sequence, and ends one that was open with LOCKERR. -/
theorem State.xbarLock_first (first : bits v.toNat 31 16 = 0x6C6B ∧ v.toNat % 2 ^ 16 ≤ 10) :
    let o := if u.pins.lockSeq.isSome then u.lockErr else u
    s.xbarLock req v = { o with pins := { o.pins with lockSeq := some (req, v.toNat % 2 ^ 16, u.tb.now) } } := by
  unfold State.xbarLock
  rw [if_neg (Nat.not_lt.mpr may), timed]
  refine (if_neg ?_).trans (if_pos first)
  split
  · rw [first.1]; simp
  · exact Bool.false_ne_true

/-- A write that neither continues a sequence nor opens one. -/
theorem State.xbarLock_stray (noFirst : ¬ (bits v.toNat 31 16 = 0x6C6B ∧ v.toNat % 2 ^ 16 ≤ 10))
    (noSecond : ∀ r h t, u.pins.lockSeq = some (r, h, t) → ¬ (r = req ∧ bits v.toNat 31 16 = 0x9394 ∧ v.toNat % 2 ^ 16 = h)) :
    s.xbarLock req v = { u.lockErr with pins := { u.pins with lockSeq := none } } := by
  unfold State.xbarLock
  rw [if_neg (Nat.not_lt.mpr may), timed]
  refine (if_neg ?_).trans (if_neg noFirst)
  split
  · next r h t seq => rw [decide_eq_false (noSecond r h t seq)]; exact Bool.false_ne_true
  · exact Bool.false_ne_true

end

/-! ### Banks (R250) -/

/-- The two bits of bank `b` in a word of levels replaced by `x`: the word stays within the levels, and the bank reads `x`. -/
theorem bits_bank_replaced {l x : Nat} (hb : b < 8) (hl : l < 2 ^ 16) (hx : x < 4) :
    let n := l - bits l (2 * b + 1) (2 * b) * 4 ^ b + x * 4 ^ b
    n < 2 ^ 16 ∧ bits n (2 * b + 1) (2 * b) = x := by
  have read (n : Nat) : bits n (2 * b + 1) (2 * b) = n / 4 ^ b % 4 := by
    have field : 2 ^ (2 * b) = 4 ^ b := Nat.pow_mul 2 2 b
    have two : 2 * b + 1 + 1 - 2 * b = 2 := by omega
    exact congrArg₂ (fun q k => n / q % 2 ^ k) field two
  have pos : 0 < 4 ^ b := Nat.pow_pos (by omega)
  have whole : 4 ^ (7 - b) * 4 ^ b = 4 ^ 7 := (Nat.pow_add 4 (7 - b) b).symm.trans (congrArg (4 ^ ·) (Nat.sub_add_cancel (by omega)))
  have width : (2 : Nat) ^ 16 = 4 * 4 ^ (7 - b) * 4 ^ b := (congrArg (4 * ·) whole).symm.trans (Nat.mul_assoc _ _ _).symm
  intro n
  have quot : n / 4 ^ b = l / 4 ^ b - l / 4 ^ b % 4 + x := by
    rw [← read, ← Nat.sub_mul_div l (4 ^ b), ← Nat.add_mul_div_right _ _ pos, Nat.mul_comm (4 ^ b)]
  rw [width] at hl ⊢
  rw [read, ← Nat.div_lt_iff_lt_mul pos, quot]
  have below := (Nat.div_lt_iff_lt_mul pos).mpr hl
  clear_value n
  generalize l / 4 ^ b = q at below
  omega

theorem State.bankstat_lt (s : State) : s.fld XBAR_BANKSTAT_LEVEL < 2 ^ 16 := bits_lt _ _ _

theorem State.bankFail_absent (absent : bits (s.fld XBAR_BANKSTAT_LEVEL) (2 * b + 1) (2 * b) = 0) : s.bankFail b = s := if_pos absent

theorem State.bankFail_present (present : bits (s.fld XBAR_BANKSTAT_LEVEL) (2 * b + 1) (2 * b) ≠ 0) :
    let l := s.fld XBAR_BANKSTAT_LEVEL
    (s.bankFail b).regs =
      ((s.setFld XBAR_BANKSTAT_LEVEL (l - bits l (2 * b + 1) (2 * b) * 4 ^ b)).setFld XBAR_IRQ_STAT_BANKFAIL 1).regs ∧
    (s.bankFail b).pins.bankOff = s.pins.bankOff ||| 2 ^ b := by
  unfold State.bankFail
  rw [if_neg present]
  exact ⟨rfl, rfl⟩

theorem State.bankFail_marks (hb : b < 8) (present : bits (s.fld XBAR_BANKSTAT_LEVEL) (2 * b + 1) (2 * b) ≠ 0) :
    bits ((s.bankFail b).fld XBAR_BANKSTAT_LEVEL) (2 * b + 1) (2 * b) = 0 ∧ (s.bankFail b).fb XBAR_IRQ_STAT_BANKFAIL = true ∧
    (s.bankFail b).pins.bankOff.testBit b = true := by
  obtain ⟨fits, level⟩ := bits_bank_replaced hb s.bankstat_lt (show 0 < 4 by decide)
  rw [Nat.zero_mul, Nat.add_zero] at fits level
  obtain ⟨regs, off⟩ := State.bankFail_present present
  refine ⟨?_, ?_, ?_⟩
  · rw [State.fld_of_regs regs, State.fld_setFld_other _ _ _ _ (by decide), State.fld_setFld_fits (by decide) fits, level]
  · rw [State.fb_of_regs regs, State.fb_setFld_one _ (by decide)]
  · rw [off, Nat.testBit_or, Nat.testBit_two_pow_self, Bool.or_true]

theorem State.bankReturn_shows {level : Nat} (hb : b < 8) (hl : level < 4) :
    bits ((s.bankReturn b level).fld XBAR_BANKSTAT_LEVEL) (2 * b + 1) (2 * b) = level ∧
    (s.bankReturn b level).pins.bankOff.testBit b = true := by
  obtain ⟨fits, shown⟩ := bits_bank_replaced hb s.bankstat_lt hl
  refine ⟨?_, ?_⟩
  · exact (congrArg (bits · _ _) (State.fld_setFld_fits (by decide) fits)).trans shown
  · rw [show (s.bankReturn b level).pins.bankOff = s.pins.bankOff ||| 2 ^ b from rfl, Nat.testBit_or, Nat.testBit_two_pow_self, Bool.or_true]

/-- Settles O44: strobes by the bits that act, the lock by the sequence that is open, banks by their level. -/
theorem pinsAreWrittenAndLocked : Obligations.PinsAreWrittenAndLocked := by
  refine ⟨fun s g v => ?strobes, fun s req v => ?lock, fun s b level => ?banks⟩
  case strobes =>
    intro out w m act frame
    have strobe (a : Nat) (f : Word → Word → Word) :
        ∃ u, done s (s.gpioStrobe a g v f) = .next u ∧ u.reg out = f w act ∧ frame u := by
      obtain ⟨irq, queue⟩ := gpioOut_ne_pair g.val
      refine ⟨_, rfl, (settle_reg _ _ _).trans State.gpioStrobe_out, fun b other cause level => ?_, fun standby shared => ?_, fun unshared => ?_⟩
      · rw [settle_reg, State.gpioStrobe_reg cause level, State.gpioOp_reg _ other]
      · rw [settle_fb, State.gpioStrobe_standby standby shared]
        exact State.fb_setFld_one _ (by decide)
      · rw [settle_reg, settle_reg, State.gpioStrobe_unshared unshared]
        exact ⟨State.gpioOp_reg _ irq.symm, State.gpioOp_reg _ queue.symm⟩
    exact ⟨strobe _ _, strobe _ _, strobe _ _⟩
  case lock =>
    intro key g err opened closed first
    refine ⟨fun engine => congrArg (done s) (if_pos engine),
      fun may none => ?_, fun r h t may seq inTime => ?_, fun r h t may seq late => ?_,
      fun r h t seq => ⟨fun late => congrArg (done s) (State.lockTimeout_late seq late),
        fun inTime => congrArg (done s) (State.lockTimeout_inTime seq inTime)⟩,
      fun none => congrArg (done s) (State.lockTimeout_none none)⟩
    · have timed := State.lockTimeout_none none
      refine ⟨fun opens => congrArg (done s) ((State.xbarLock_first may timed opens).trans ?_), fun stray => congrArg (done s)
        (State.xbarLock_stray may timed stray fun r h t open_ => absurd (none.symm.trans open_) nofun)⟩
      rw [none]
      rfl
    · have timed := State.lockTimeout_inTime seq inTime
      refine ⟨fun same hk hg => ?_, fun opens => congrArg (done s) ((State.xbarLock_first may timed opens).trans ?_),
        fun noFirst noSecond => congrArg (done s) (State.xbarLock_stray may timed noFirst fun r' h' t' open_ => ?_)⟩
      · subst same hg
        exact congrArg (done s) (State.xbarLock_second may timed seq hk)
      · rw [seq]
        rfl
      · obtain ⟨rfl, rfl, rfl⟩ := Option.some.inj (seq.symm.trans open_)
        exact noSecond
    · have timed := State.lockTimeout_late seq late
      exact ⟨fun opens => congrArg (done s) (State.xbarLock_first may timed opens),
        fun stray => congrArg (done s) (State.xbarLock_stray may timed stray nofun)⟩
  case banks =>
    intro l
    refine ⟨fun present => ?_, fun absent => congrArg (done s) (State.bankFail_absent absent), ?_⟩
    · refine ⟨_, rfl, ?_⟩
      rw [settle_fld, settle_fb, settle_pins]
      exact State.bankFail_marks b.isLt present
    · refine ⟨_, rfl, ?_⟩
      rw [settle_fld, settle_pins]
      exact State.bankReturn_shows b.isLt level.isLt

end Sys2Proof.Machine
end

section
/-! PROOFS. CAN FD controllers: their queue, the frames that they receive, and how a transmission ends (O56). -/

namespace Sys2Proof.Machine

variable {s u : State} {m : Nat}

/-! ### Controllers and their registers -/

@[simp] theorem State.canOf_setCan_same (c : Can) : (s.setCan m c).canOf m = c := tget_tset_same _ _ _ _

theorem State.canOf_of_can (h : u.can = s.can) : u.canOf m = s.canOf m := congrArg (tget _ · m) h

theorem settle_canOf (r : State) : (settle r u).canOf m = u.canOf m := State.canOf_of_can (settle_can _ _)

theorem canStat_ne_irq (m : Nat) : CAN_STAT_at m ≠ CAN_IRQ_STAT_at m := by
  unfold CAN_STAT_at CAN_IRQ_STAT_at
  omega

theorem canCnt_ne_stat (m : Nat) : CAN_CNT_at m ≠ CAN_STAT_at m ∧ CAN_CNT_at m ≠ CAN_IRQ_STAT_at m := by
  unfold CAN_CNT_at CAN_STAT_at CAN_IRQ_STAT_at
  omega

/-! ### The start of a transmission (R397) -/

/-- A frame that goes into transmission is marked: the queue keeps its frames, and nothing else changes. -/
theorem State.canStart_shows : (s.canStart m).regs = s.regs ∧
    ((s.canStart m).canOf m).tx.map (·.1) = (s.canOf m).tx.map (·.1) ∧ ((s.canStart m).canOf m).rx = (s.canOf m).rx := by
  unfold State.canStart
  dsimp only
  split
  · exact ⟨rfl, rfl, rfl⟩
  · split
    · exact ⟨rfl, rfl, rfl⟩
    · next j _ =>
      rw [State.canOf_setCan_same]
      refine ⟨rfl, ?_, rfl⟩
      have frame : (fun p : (CanFrame × Bool) × Nat => (if p.2 = j then (p.1.1, true) else p.1).1) = fun p => p.1.1 := by
        funext p
        split <;> rfl
      rw [List.map_map]
      exact (congrArg (List.map · _) frame).trans (List.map_map.symm.trans (congrArg (List.map Prod.fst) (List.zipIdx_map_fst 0 _)))

theorem State.canStart_fld (g : RF) : (s.canStart m).fld g = s.fld g := State.fld_of_regs State.canStart_shows.1 g

theorem State.canStart_fb (g : RF) : (s.canStart m).fb g = s.fb g := State.fb_of_regs State.canStart_shows.1 g

theorem State.canPush_full (full : 8 ≤ (s.canOf m).tx.length) : s.canPush m = s.setFld (CAN_IRQ_STAT_TXOVF m) 1 := if_pos full

theorem State.canPush_room (room : (s.canOf m).tx.length < 8) : s.canPush m = (s.setCan m { s.canOf m with tx := (s.canOf m).tx ++
    [(⟨s.reg (CAN_TXID_at m), s.reg (CAN_TXCTRL_at m), 0, (List.range 16).map (fun w => s.reg (CAN_TXDATA_at m w))⟩, false)] }).canStart m :=
  if_neg (Nat.not_le.mpr room)

/-- A pushed frame is the last of the queue, whatever goes into transmission. -/
theorem State.canPush_queues (room : (s.canOf m).tx.length < 8) :
    ((s.canPush m).canOf m).tx.map (·.1) = (s.canOf m).tx.map (·.1) ++
      [⟨s.reg (CAN_TXID_at m), s.reg (CAN_TXCTRL_at m), 0, (List.range 16).map (fun w => s.reg (CAN_TXDATA_at m w))⟩] ∧
    ((s.canPush m).canOf m).rx = (s.canOf m).rx := by
  rw [State.canPush_room room, State.canStart_shows.2.1, State.canStart_shows.2.2, State.canOf_setCan_same, List.map_append]
  exact ⟨rfl, rfl⟩

/-! ### Error counts and the state (R399) -/

theorem State.canState_can : (s.canState m).can = s.can := by
  unfold State.canState
  dsimp only
  split
  · rfl
  · split <;> rfl

/-- The state that follows the error counts writes STATE and at most the cause PASSIVE. -/
theorem State.canState_fld {g : RF} (state : g.addr ≠ CAN_STAT_at m ∨ g.lo ≤ g.hi ∧ 1 < g.lo)
    (passive : g.addr ≠ CAN_IRQ_STAT_at m ∨ g.lo ≤ g.hi ∧ (g.hi < 5 ∨ 5 < g.lo)) : (s.canState m).fld g = s.fld g := by
  have kept (b : Bool) : (s.setB (CAN_STAT_STATE m) b).fld g = s.fld g :=
    State.fld_setFld_apart _ _ _ _ (state.imp_right fun h => ⟨h.1, .inr h.2⟩)
  unfold State.canState
  dsimp only
  split
  · rfl
  · split
    · rw [State.fld_setFld_apart _ _ _ _ passive, kept]
    · exact kept _

theorem State.canState_fb {g : RF} (state : g.addr ≠ CAN_STAT_at m ∨ g.lo ≤ g.hi ∧ 1 < g.lo)
    (passive : g.addr ≠ CAN_IRQ_STAT_at m ∨ g.lo ≤ g.hi ∧ (g.hi < 5 ∨ 5 < g.lo)) : (s.canState m).fb g = s.fb g := by
  unfold State.fb
  rw [State.canState_fld state passive]

/-- A good frame leaves the registers of the filters. -/
theorem State.canCounted_reg {a : Nat} (above : CAN_FILT_at m 0 ≤ a) : (((s.canRecDown m).canState m).fresh).reg a = s.reg a := by
  have stat : a ≠ CAN_STAT_at m := by unfold CAN_FILT_at at above; unfold CAN_STAT_at; omega
  have irq : a ≠ CAN_IRQ_STAT_at m := by unfold CAN_FILT_at at above; unfold CAN_IRQ_STAT_at; omega
  show ((s.canRecDown m).canState m).reg a = s.reg a
  have word := State.canState_fld (s := s.canRecDown m) (m := m) (g := ⟨a, 31, 0⟩) (.inl stat) (.inl irq)
  unfold State.fld at word
  rw [RF.get_whole, RF.get_whole] at word
  exact (BitVec.eq_of_toNat_eq word).trans (State.reg_setFld_other _ stat)

theorem State.canFilter_of_reg (h : ∀ a, CAN_FILT_at m 0 ≤ a → u.reg a = s.reg a) (id : Word) : u.canFilter m id = s.canFilter m id := by
  have filt (f : Nat) : u.reg (CAN_FILT_at m f) = s.reg (CAN_FILT_at m f) := h _ (by unfold CAN_FILT_at; omega)
  have mask (f : Nat) : u.reg (CAN_MASK_at m f) = s.reg (CAN_MASK_at m f) := h _ (by unfold CAN_FILT_at CAN_MASK_at; omega)
  have enabled : (List.range 8).filter (fun f => u.fb (CAN_FILT_EN m f)) = (List.range 8).filter (fun f => s.fb (CAN_FILT_EN m f)) := by
    simp only [State.fb, State.fld, filt]
  unfold State.canFilter
  dsimp only
  rw [enabled]
  split
  · rfl
  · simp only [State.fb, State.fld, filt, mask]

/-! ### Frames received (R398, R399) -/

section
variable {id ctrl time : Word} {data : List Word}

theorem State.canAccept_unmatched (none : s.canFilter m id = none) : s.canAccept m id ctrl time data = s := by
  unfold State.canAccept
  rw [none]

variable {k : Nat} (matched : s.canFilter m id = some k)
include matched

theorem State.canAccept_stores (room : (s.canOf m).rx.length < 32) : s.canAccept m id ctrl time data =
    (s.setCan m { s.canOf m with rx := (s.canOf m).rx ++
      [⟨id, (ctrl &&& 0x3F) ||| BitVec.ofNat 32 (2 ^ 31 + k * 256), time, data.take 16⟩] }).setFld (CAN_IRQ_STAT_RX m) 1 := by
  unfold State.canAccept
  rw [matched]
  exact if_neg (Nat.not_le.mpr room)

theorem State.canAccept_full (full : 32 ≤ (s.canOf m).rx.length) : s.canAccept m id ctrl time data =
    (s.addSat (CAN_CNT_RXOVFS m) 1).setFld (CAN_IRQ_STAT_RXOVF m) 1 := by
  unfold State.canAccept
  rw [matched]
  exact if_pos full

end

/-- A frame that reaches the filters leaves the queue. -/
theorem State.canAccept_tx (id ctrl time : Word) (data : List Word) : ((s.canAccept m id ctrl time data).canOf m).tx = (s.canOf m).tx := by
  cases matched : s.canFilter m id with
  | none => rw [State.canAccept_unmatched matched]
  | some k =>
    rcases Nat.lt_or_ge (s.canOf m).rx.length 32 with room | full
    · rw [State.canAccept_stores matched room, State.canOf_of_can (State.setFld_can _ _ _), State.canOf_setCan_same]
    · rw [State.canAccept_full matched full, State.canOf_of_can (State.setFld_can _ _ _)]
      rfl

/-- Whether controller `m` hears the bus: it is on, without LOOP, and a pin feeds its RX. -/
def State.canHears (s : State) (m : Nat) : Prop :=
  s.pwr.released = true ∧ s.awake = true ∧ s.fb (CAN_CFG_EN m) = true ∧ s.fb (CAN_CFG_LOOP m) = false ∧ s.fed (0x360 + m) = true

section
variable {id ctrl : Word} {age err : Nat} {data : List Word}

theorem State.canReceive_deaf (deaf : ¬ s.canHears m) : s.canReceive m id ctrl age data err = s := by
  refine if_pos (by_contra fun on => deaf ?_)
  simpa [State.canHears] using on

variable (hears : s.canHears m)
include hears

theorem State.canReceive_good : ∃ time, s.canReceive m id ctrl age data 0 =
    (((s.canRecDown m).canState m).fresh).canAccept m id ctrl time data := by
  obtain ⟨on, awake, en, loop, fed⟩ := hears
  exact ⟨_, (if_neg (by simp [on, awake, en, loop, fed])).trans (if_pos rfl)⟩

theorem State.canReceive_damaged (bad : err ≠ 0) : s.canReceive m id ctrl age data err =
    (((s.setFld (CAN_STAT_REC m) (min 255 (s.fld (CAN_STAT_REC m) + err))).addSat (CAN_CNT_ERRFRAMES m) 1).setFld
      (CAN_IRQ_STAT_ERR m) 1).canState m := by
  obtain ⟨on, awake, en, loop, fed⟩ := hears
  exact (if_neg (by simp [on, awake, en, loop, fed])).trans (if_neg bad)

theorem State.canReceive_stores {k : Nat} (matched : s.canFilter m id = some k) (room : (s.canOf m).rx.length < 32) :
    ∃ g, ((s.canReceive m id ctrl age data 0).canOf m).rx = (s.canOf m).rx ++ [g] ∧ g.id = id ∧ g.data = data.take 16 ∧
      g.ctrl = (ctrl &&& 0x3F) ||| BitVec.ofNat 32 (2 ^ 31 + k * 256) ∧
      (s.canReceive m id ctrl age data 0).fb (CAN_IRQ_STAT_RX m) = true := by
  obtain ⟨time, good⟩ := State.canReceive_good (id := id) (ctrl := ctrl) (age := age) (data := data) hears
  have can : (((s.canRecDown m).canState m).fresh).canOf m = s.canOf m := State.canOf_of_can State.canState_can
  rw [good, State.canAccept_stores ((State.canFilter_of_reg (fun _ => State.canCounted_reg) id).trans matched) (by rwa [can]), can,
    State.canOf_of_can (State.setFld_can _ _ _), State.canOf_setCan_same]
  exact ⟨_, rfl, rfl, rfl, rfl, State.fb_setFld_one _ (RF.fits (by decide))⟩

theorem State.canReceive_loses {k : Nat} (matched : s.canFilter m id = some k) (full : 32 ≤ (s.canOf m).rx.length) :
    ((s.canReceive m id ctrl age data 0).canOf m).rx = (s.canOf m).rx ∧
    (s.canReceive m id ctrl age data 0).fb (CAN_IRQ_STAT_RXOVF m) = true := by
  obtain ⟨time, good⟩ := State.canReceive_good (id := id) (ctrl := ctrl) (age := age) (data := data) hears
  have can : (((s.canRecDown m).canState m).fresh).canOf m = s.canOf m := State.canOf_of_can State.canState_can
  rw [good, State.canAccept_full ((State.canFilter_of_reg (fun _ => State.canCounted_reg) id).trans matched) (by rwa [can]),
    State.canOf_of_can (State.setFld_can _ _ _)]
  exact ⟨congrArg Can.rx can, State.fb_setFld_one _ (RF.fits (by decide))⟩

theorem State.canReceive_unmatched (none : s.canFilter m id = none) : (s.canReceive m id ctrl age data 0).can = s.can := by
  obtain ⟨time, good⟩ := State.canReceive_good (id := id) (ctrl := ctrl) (age := age) (data := data) hears
  rw [good, State.canAccept_unmatched ((State.canFilter_of_reg (fun _ => State.canCounted_reg) id).trans none)]
  exact State.canState_can

theorem State.canReceive_counts (bad : err ≠ 0) : (s.canReceive m id ctrl age data err).can = s.can ∧
    (s.canReceive m id ctrl age data err).fld (CAN_STAT_REC m) = min 255 (s.fld (CAN_STAT_REC m) + err) ∧
    (s.canReceive m id ctrl age data err).fb (CAN_IRQ_STAT_ERR m) = true := by
  obtain ⟨cntStat, -⟩ := canCnt_ne_stat m
  rw [State.canReceive_damaged hears bad]
  refine ⟨State.canState_can, ?_, ?_⟩
  · rw [State.canState_fld (.inr (by simp)) (.inl (canStat_ne_irq m)), State.fld_setFld_other _ _ _ _ (canStat_ne_irq m), State.addSat,
      State.fld_setFld_other _ _ _ _ cntStat.symm,
      State.fld_setFld_fits (RF.fits (by decide)) (show _ < 2 ^ 8 from Nat.lt_of_le_of_lt (Nat.min_le_left _ _) (by decide))]
  · rw [State.canState_fb (.inl (canStat_ne_irq m).symm) (.inr (by simp)), State.fb_setFld_one _ (RF.fits (by decide))]

end

/-! ### The end of a transmission (R397, R399) -/

/-- The queue after a transmission of frame `j` that a one-shot controller does not repeat. -/
def State.canRetry (s : State) (m j : Nat) : List (CanFrame × Bool) :=
  if s.fb (CAN_CFG_ONESHOT m) then ((s.canOf m).tx.eraseIdx j).map (fun f => (f.1, false)) else (s.canOf m).tx.map (fun f => (f.1, false))

theorem unmarked_frames (l : List (CanFrame × Bool)) : (l.map (fun f => (f.1, false))).map (·.1) = l.map (·.1) := List.map_map

theorem State.canRetry_frames (j : Nat) : (s.canRetry m j).map (·.1) =
    (if s.fb (CAN_CFG_ONESHOT m) then (s.canOf m).tx.eraseIdx j else (s.canOf m).tx).map (·.1) := by
  unfold State.canRetry
  split <;> exact unmarked_frames _

section
variable {j : Nat} (sends : s.canSends m = true) (current : (s.canOf m).current = some j)
include sends current

theorem State.canDone_sent (heard : s.fb (CAN_CFG_LOOP m) = true ∨ s.fed (0x360 + m) = true) :
    ∃ t : State, (t.canOf m).tx = ((s.canOf m).tx.eraseIdx j).map (fun f => (f.1, false)) ∧
    s.canDone m 0 = (((t.setFld (CAN_STAT_TEC m) (t.fld (CAN_STAT_TEC m) - 1)).setFld (CAN_IRQ_STAT_TXDONE m) 1).canState m).canStart m := by
  have bus : (s.fb (CAN_CFG_LOOP m) || s.fed (0x360 + m)) = true := by simpa using heard
  unfold State.canDone
  dsimp only
  rw [if_neg (by simp [sends]), current, bus]
  refine ⟨_, ?_, rfl⟩
  split
  · rw [State.canAccept_tx]
    exact congrArg Can.tx (State.canOf_setCan_same _)
  · exact congrArg Can.tx (State.canOf_setCan_same _)

theorem State.canDone_sends (heard : s.fb (CAN_CFG_LOOP m) = true ∨ s.fed (0x360 + m) = true) :
    ((s.canDone m 0).canOf m).tx.map (·.1) = ((s.canOf m).tx.eraseIdx j).map (·.1) ∧ (s.canDone m 0).fb (CAN_IRQ_STAT_TXDONE m) = true := by
  obtain ⟨t, gone, sent⟩ := State.canDone_sent sends current heard
  rw [sent]
  refine ⟨?_, ?_⟩
  · rw [State.canStart_shows.2.1, State.canOf_of_can State.canState_can]
    exact (congrArg (List.map _) gone).trans (unmarked_frames _)
  · rw [State.canStart_fb, State.canState_fb (.inl (canStat_ne_irq m).symm) (.inr (by simp)), State.fb_setFld_one _ (RF.fits (by decide))]

theorem State.canDone_lost (heard : s.fb (CAN_CFG_LOOP m) = true ∨ s.fed (0x360 + m) = true) :
    s.canDone m 1 = (s.setCan m { s.canOf m with tx := s.canRetry m j }).canStart m := by
  have bus : (s.fb (CAN_CFG_LOOP m) || s.fed (0x360 + m)) = true := by simpa using heard
  unfold State.canDone
  dsimp only
  rw [if_neg (by simp [sends]), current, bus]
  rfl

/-- A transmission that the bus ends in error, or that no pin on RX can hear. -/
theorem State.canDone_error {bus : Nat} (error : bus = 2 ∨ s.fb (CAN_CFG_LOOP m) = false ∧ s.fed (0x360 + m) = false) :
    let t := ((s.setCan m { s.canOf m with tx := s.canRetry m j }).addSat (CAN_CNT_ERRFRAMES m) 1).setFld (CAN_IRQ_STAT_ERR m) 1
    let n := s.fld (CAN_STAT_TEC m) + 8
    s.canDone m bus =
      if n > 255 then ((t.setFld (CAN_STAT_TEC m) 255).setFld (CAN_STAT_STATE m) 2).setFld (CAN_IRQ_STAT_BUSOFF m) 1
      else ((t.setFld (CAN_STAT_TEC m) n).canState m).canStart m := by
  have result : (if (s.fb (CAN_CFG_LOOP m) || s.fed (0x360 + m)) = true then bus else 2) = 2 := by
    rcases error with rfl | ⟨loop, fed⟩
    · exact ite_self _
    · rw [loop, fed]
      rfl
  unfold State.canDone
  dsimp only
  rw [if_neg (by simp [sends]), current, result]
  rfl

theorem State.canDone_errs {bus : Nat} (error : bus = 2 ∨ s.fb (CAN_CFG_LOOP m) = false ∧ s.fed (0x360 + m) = false) :
    (s.canDone m bus).fb (CAN_IRQ_STAT_ERR m) = true ∧
    (247 < s.fld (CAN_STAT_TEC m) → (s.canDone m bus).fld (CAN_STAT_STATE m) = 2 ∧ (s.canDone m bus).fb (CAN_IRQ_STAT_BUSOFF m) = true) ∧
    (s.fld (CAN_STAT_TEC m) ≤ 247 → (s.canDone m bus).fld (CAN_STAT_TEC m) = s.fld (CAN_STAT_TEC m) + 8) := by
  have irq := canStat_ne_irq m
  rw [State.canDone_error sends current error]
  dsimp only
  split
  · next off =>
    refine ⟨?_, fun _ => ⟨?_, State.fb_setFld_one _ (RF.fits (by decide))⟩, fun low => absurd off (by omega)⟩
    · rw [State.fb_setFld_apart _ _ _ (.inr (by simp)), State.fb_setFld_apart _ _ _ (.inl irq.symm),
        State.fb_setFld_apart _ _ _ (.inl irq.symm), State.fb_setFld_one _ (RF.fits (by decide))]
    · rw [State.fld_setFld_other _ _ _ _ irq, State.fld_setFld_fits (RF.fits (by decide)) (show 2 < 2 ^ 2 by decide)]
  · next on =>
    refine ⟨?_, fun high => absurd high (by omega), fun _ => ?_⟩
    · rw [State.canStart_fb, State.canState_fb (.inl irq.symm) (.inr (by simp)), State.fb_setFld_apart _ _ _ (.inl irq.symm),
        State.fb_setFld_one _ (RF.fits (by decide))]
    · rw [State.canStart_fld, State.canState_fld (.inr (by simp)) (.inl irq),
        State.fld_setFld_fits (RF.fits (by decide)) (show _ < 2 ^ 8 by omega)]

end

/-! ### The end of bus-off (R399) -/

theorem State.canBusOn_stays (h : s.fb (CAN_CFG_EN m) = false ∨ s.awake = false ∨ s.fld (CAN_STAT_STATE m) ≠ 2 ∨
    s.fb (CAN_CFG_AUTOREC m) = false ∧ (s.canOf m).recovering = false) : s.canBusOn m = s := by
  refine if_neg fun ⟨_, awake, en, off, recovers⟩ => ?_
  rcases h with h | h | h | ⟨auto, none⟩
  · exact Bool.eq_false_iff.mp h en
  · exact Bool.eq_false_iff.mp h awake
  · exact h off
  · exact recovers.elim (Bool.eq_false_iff.mp auto) (Bool.eq_false_iff.mp none)

theorem State.canBusOn_returns (released : s.pwr.released = true) (awake : s.awake = true) (en : s.fb (CAN_CFG_EN m) = true)
    (off : s.fld (CAN_STAT_STATE m) = 2) (recovers : s.fb (CAN_CFG_AUTOREC m) = true ∨ (s.canOf m).recovering = true) :
    (s.canBusOn m).regs = (((s.setFld (CAN_STAT_STATE m) 0).setFld (CAN_STAT_TEC m) 0).setFld (CAN_STAT_REC m) 0).regs :=
  (congrArg State.regs (if_pos ⟨released, awake, en, off, recovers⟩)).trans State.canStart_shows.1

/-- The three fields of CAN_STAT that the end of bus-off clears. -/
theorem State.canStat_cleared : let u := ((s.setFld (CAN_STAT_STATE m) 0).setFld (CAN_STAT_TEC m) 0).setFld (CAN_STAT_REC m) 0
    u.fld (CAN_STAT_STATE m) = 0 ∧ u.fld (CAN_STAT_TEC m) = 0 ∧ u.fld (CAN_STAT_REC m) = 0 := by
  refine ⟨?_, ?_, State.fld_setFld_same _ _ _ (RF.fits (by decide))⟩
  · rw [State.fld_setFld_apart _ _ _ _ (.inr (by simp)), State.fld_setFld_apart _ _ _ _ (.inr (by simp)),
      State.fld_setFld_fits (RF.fits (by decide)) (Nat.two_pow_pos _)]
  · rw [State.fld_setFld_apart _ _ _ _ (.inr (by simp)), State.fld_setFld_fits (RF.fits (by decide)) (Nat.two_pow_pos _)]

end Sys2Proof.Machine
end

section
/-! PROOFS. The serial pool: words of SPI, entries of I2C, frames of UART (O56). -/

namespace Sys2Proof.Machine

variable {s u : State} {m : Nat}

/-! ### SPI (R401, R402) -/

@[simp] theorem State.spiOf_setSpi_same (x : Serial) : (s.setSpi m x).spiOf m = x := tget_tset_same _ _ _ _

theorem State.spiOf_of_spi (h : u.spi = s.spi) : u.spiOf m = s.spiOf m := congrArg (tget _ · m) h

theorem settle_spiOf (r : State) : (settle r u).spiOf m = u.spiOf m := State.spiOf_of_spi (settle_spi _ _)

theorem State.spiTx_full (v : Word) (full : 8 ≤ (s.spiOf m).tx.length) : s.spiTx m v = s.setFld (SPI_STAT_TXOVF m) 1 := if_pos full

theorem State.spiTx_room (v : Word) (room : (s.spiOf m).tx.length < 8) : s.spiTx m v = s.setSpi m { s.spiOf m with
    tx := (s.spiOf m).tx ++ [v], busy := (s.spiOf m).busy || (s.fb (SPI_CFG_EN m) && !s.fb (SPI_CFG_SLAVE m)) } := if_neg (Nat.not_le.mpr room)

section
variable {v : Word}

theorem State.spiDone_stays (idle : s.spiMay m = false) : s.spiDone m v = s := if_pos idle

variable (may : s.spiMay m = true)
include may

/-- A word that passes leaves the transmit FIFO and enters the receive FIFO where that has room. -/
theorem State.spiDone_fifos : ((s.spiDone m v).spiOf m).tx = (s.spiOf m).tx.drop 1 ∧ ((s.spiDone m v).spiOf m).rx =
    (if (s.spiOf m).rx.length ≥ 8 then (s.spiOf m).rx
      else (s.spiOf m).rx ++ [if s.fed (0x310 + 3 * m) then s.spiCut m v else 0]) := by
  unfold State.spiDone
  rw [if_neg (by simp [may])]
  dsimp only
  simp only [decide_eq_true_eq]
  split
  · rw [State.spiOf_of_spi (State.setFld_spi _ _ _), State.spiOf_setSpi_same]
    exact ⟨rfl, rfl⟩
  · rw [State.spiOf_setSpi_same]
    exact ⟨rfl, rfl⟩

/-- The flags of a word: UNDERRUN with nothing to send, RXOVF with no room, DONE with the last word. -/
theorem State.spiDone_regs : (s.spiDone m v).regs =
    (((s.raise (SPI_STAT_UNDERRUN m) (s.spiOf m).tx.isEmpty).raise (SPI_STAT_RXOVF m) (decide ((s.spiOf m).rx.length ≥ 8))).raise
      (SPI_STAT_DONE m) (decide ((s.spiOf m).tx.drop 1 = [] ∧ (s.spiOf m).tx ≠ []))).regs := by
  unfold State.spiDone State.raise
  rw [if_neg (by simp [may])]
  dsimp only
  rcases (s.spiOf m).tx with _ | ⟨last, _ | ⟨next, rest⟩⟩
  all_goals
    by_cases full : (s.spiOf m).rx.length ≥ 8 <;> simp [full] <;> rfl

theorem State.spiDone_flags :
    ((s.spiOf m).tx.length = 1 → (s.spiDone m v).fb (SPI_STAT_DONE m) = true) ∧
    ((s.spiOf m).tx = [] → (s.spiDone m v).fb (SPI_STAT_UNDERRUN m) = true) ∧
    (8 ≤ (s.spiOf m).rx.length → (s.spiDone m v).fb (SPI_STAT_RXOVF m) = true) := by
  have flag (g : RF) := State.fb_of_regs (State.spiDone_regs (v := v) may) g
  refine ⟨fun last => ?_, fun empty => ?_, fun full => ?_⟩
  · obtain ⟨w, one⟩ := List.length_eq_one_iff.mp last
    rw [flag, State.raise_fb_same _ _ (RF.fits (by decide)), one]
    exact Bool.or_true _
  · rw [flag, State.raise_fb_apart _ (.inr (by simp)), State.raise_fb_apart _ (.inr (by simp)), State.raise_fb_same _ _ (RF.fits (by decide)),
      empty]
    exact Bool.or_true _
  · rw [flag, State.raise_fb_apart _ (.inr (by simp)), State.raise_fb_same _ _ (RF.fits (by decide)), decide_eq_true full, Bool.or_true]

end

/-! ### I2C (R401, R403) -/

@[simp] theorem State.i2cOf_setI2c_same (x : Serial) : (s.setI2c m x).i2cOf m = x := tget_tset_same _ _ _ _

theorem State.i2cOf_of_i2c (h : u.i2c = s.i2c) : u.i2cOf m = s.i2cOf m := congrArg (tget _ · m) h

theorem settle_i2cOf (r : State) : (settle r u).i2cOf m = u.i2cOf m := State.i2cOf_of_i2c (settle_i2c _ _)

theorem State.i2cCmd_full (v : Word) (full : 16 ≤ (s.i2cOf m).tx.length) : s.i2cCmd m v = s := if_pos full

theorem State.i2cCmd_room (v : Word) (room : (s.i2cOf m).tx.length < 16) : s.i2cCmd m v = s.setI2c m { s.i2cOf m with
    tx := (s.i2cOf m).tx ++ [v &&& 0x7FF], busy := (s.i2cOf m).busy || s.fb (I2C_CFG_EN m) } := if_neg (Nat.not_le.mpr room)

theorem State.i2cResult_fed (fed : s.fed (0x341 + 2 * m) = true) (op bus : Nat) : s.i2cResult m op bus = bus := if_pos fed

/-- With no pin on SDA a write meets no acknowledge, and everything else ends well. -/
theorem State.i2cResult_unfed (unfed : s.fed (0x341 + 2 * m) = false) (op bus : Nat) : s.i2cResult m op bus = if op = 0 then 1 else 0 :=
  if_neg (Bool.eq_false_iff.mp unfed)

section
variable {d : BitVec 8} {bus : Nat}

theorem State.i2cDone_stays (h : s.poolRuns = false ∨ s.fb (I2C_CFG_EN m) = false ∨ (s.i2cOf m).tx = []) : s.i2cDone m d bus = s := by
  unfold State.i2cDone
  dsimp only
  split
  · rfl
  · next e r queue => exact if_pos (h.imp_right (·.resolve_right (by rw [queue]; exact List.cons_ne_nil e r)))

variable {e : Word} {r : List Word} (runs : s.poolRuns = true) (en : s.fb (I2C_CFG_EN m) = true) (queue : (s.i2cOf m).tx = e :: r)
include runs en queue

theorem State.i2cDone_ends (ends : s.i2cResult m (bits e.toNat 9 8) bus = 0) : (s.i2cDone m d bus).i2cOf m = ⟨r,
    if (bits e.toNat 9 8 = 1 ∨ bits e.toNat 9 8 = 2) ∧ (s.i2cOf m).rx.length < 16
      then (s.i2cOf m).rx ++ [if s.fed (0x341 + 2 * m) then d.setWidth 32 else 0xFF] else (s.i2cOf m).rx, !r.isEmpty⟩ := by
  unfold State.i2cDone
  dsimp only
  rw [queue]
  dsimp only
  rw [if_neg (by simp [runs, en]), ends, if_neg (by simp), if_neg (by decide)]
  split
  · rw [State.i2cOf_of_i2c (State.setFld_i2c _ _ _), State.i2cOf_setI2c_same]
  · rw [State.i2cOf_setI2c_same]

theorem State.i2cDone_nack (write : bits e.toNat 9 8 = 0) (nack : s.i2cResult m 0 bus = 1) :
    ((s.i2cDone m d bus).i2cOf m).tx = [] ∧ (s.i2cDone m d bus).fb (I2C_STAT_NACK m) = true := by
  unfold State.i2cDone
  dsimp only
  rw [queue]
  dsimp only
  rw [if_neg (by simp [runs, en]), write, nack, if_pos ⟨rfl, rfl⟩]
  exact ⟨congrArg Serial.tx (State.i2cOf_setI2c_same _), State.fb_setFld_one _ (RF.fits (by decide))⟩

theorem State.i2cDone_arbLost (lost : s.i2cResult m (bits e.toNat 9 8) bus = 2) :
    ((s.i2cDone m d bus).i2cOf m).tx = [] ∧ (s.i2cDone m d bus).fb (I2C_STAT_ARBLOST m) = true := by
  unfold State.i2cDone
  dsimp only
  rw [queue]
  dsimp only
  rw [if_neg (by simp [runs, en]), lost, if_neg (by simp), if_pos rfl]
  exact ⟨congrArg Serial.tx (State.i2cOf_setI2c_same _), State.fb_setFld_one _ (RF.fits (by decide))⟩

end

theorem State.i2cTimeout_unfed (unfed : s.fed (0x340 + 2 * m) = false) : s.i2cTimeout m = s := by
  unfold State.i2cTimeout
  dsimp only
  split
  · rfl
  · exact if_neg (by simp [unfed])

theorem State.i2cTimeout_drops {e : Word} {r : List Word} (runs : s.poolRuns = true) (busy : (s.i2cOf m).busy = true)
    (fed : s.fed (0x340 + 2 * m) = true) (queue : (s.i2cOf m).tx = e :: r) : s.i2cTimeout m =
    (s.setI2c m { s.i2cOf m with tx := r, busy := !r.isEmpty }).setFld (I2C_STAT_TIMEOUT m) 1 := by
  unfold State.i2cTimeout
  dsimp only
  rw [queue]
  exact if_pos (by simp [runs, busy, fed])

/-! ### UART (R401, R404) -/

@[simp] theorem State.uartOf_setUart_same (x : Serial) : (s.setUart m x).uartOf m = x := tget_tset_same _ _ _ _

theorem State.uartOf_of_uart (h : u.uart = s.uart) : u.uartOf m = s.uartOf m := congrArg (tget _ · m) h

theorem settle_uartOf (r : State) : (settle r u).uartOf m = u.uartOf m := State.uartOf_of_uart (settle_uart _ _)

theorem State.uartTx_full (v : Word) (full : 16 ≤ (s.uartOf m).tx.length) : s.uartTx m v = s.setFld (UART_STAT_TXOVF m) 1 := if_pos full

theorem State.uartTx_room (v : Word) (room : (s.uartOf m).tx.length < 16) : s.uartTx m v = s.setUart m { s.uartOf m with
    tx := (s.uartOf m).tx ++ [v &&& 0x1FF], busy := (s.uartOf m).busy || s.uartMay m } := if_neg (Nat.not_le.mpr room)

/-- Whether UART `m` is on. -/
def State.uartOn (s : State) (m : Nat) : Prop := s.poolRuns = true ∧ s.fb (UART_CFG_EN m) = true

theorem State.not_uartOn (off : ¬ s.uartOn m) : s.poolRuns = false ∨ s.fb (UART_CFG_EN m) = false := by
  simpa [State.uartOn, imp_iff_not_or] using off

theorem State.uartSent_stays (h : ¬ s.uartOn m ∨ (s.uartOf m).tx = []) : s.uartSent m = s := by
  unfold State.uartSent
  dsimp only
  split
  · rfl
  · next e r queue => exact if_pos (State.not_uartOn (h.resolve_right (by rw [queue]; exact List.cons_ne_nil e r)))

theorem State.uartReceived_stays {d : BitVec 9} {b p f : Bool} (h : ¬ s.uartOn m ∨ s.fed (0x350 + 2 * m) = false) :
    s.uartReceived m d b p f = s := if_pos (h.elim (fun off => (State.not_uartOn off).imp_right .inl) (.inr ∘ .inr))

theorem State.uartCts_unfed (unfed : s.fed (0x351 + 2 * m) = false) : s.uartCts m = s := if_neg (by simp [unfed])

section
variable (on : s.uartOn m)
include on

theorem State.uartSent_sends {e : Word} {r : List Word} (queue : (s.uartOf m).tx = e :: r) : s.uartSent m =
    (s.emit (.message "UART" [m, e.toNat % 2 ^ s.uartBits m])).setUart m { s.uartOf m with tx := r, busy := !r.isEmpty && s.uartMay m } := by
  obtain ⟨runs, en⟩ := on
  unfold State.uartSent
  dsimp only
  rw [queue]
  exact if_neg (by simp [runs, en])

theorem State.uartCts_starts (fed : s.fed (0x351 + 2 * m) = true) (flow : s.fb (UART_CFG_FLOW m) = true)
    (half : s.fb (UART_CFG_RS485 m) = false) (waits : (s.uartOf m).tx ≠ []) : s.uartCts m = s.setUart m { s.uartOf m with busy := true } :=
  if_pos ⟨on.1, on.2, flow, half, fed, waits⟩

variable (fed : s.fed (0x350 + 2 * m) = true) (d : BitVec 9) (b p f : Bool)
include fed

theorem State.uartReceived_full (full : 16 ≤ (s.uartOf m).rx.length) : s.uartReceived m d b p f = s.setFld (UART_STAT_RXOVF m) 1 := by
  obtain ⟨runs, en⟩ := on
  exact (if_neg (by simp [runs, en, fed])).trans (if_pos full)

theorem State.uartReceived_room (room : (s.uartOf m).rx.length < 16) :
    let w := BitVec.ofNat 32 (2 ^ 15 + b2n b * 2 ^ 14 + b2n p * 2 ^ 13 + b2n f * 2 ^ 12 + d.toNat % 2 ^ s.uartBits m)
    s.uartReceived m d b p f =
      (s.setUart m { s.uartOf m with rx := (s.uartOf m).rx ++ [w] }).raise (UART_STAT_ERR m) (b || p || f) := by
  obtain ⟨runs, en⟩ := on
  exact (if_neg (by simp [runs, en, fed])).trans (if_neg (Nat.not_le.mpr room))

end

theorem State.raise_uart (g : RF) (met : Bool) : (s.raise g met).uart = s.uart := by
  cases met <;> rfl

end Sys2Proof.Machine
end

section
/-! PROOFS. Boundary scan, and the field interfaces together (O56). -/

namespace Sys2Proof.Machine

variable {s : State}

/-! ### Boundary scan (R406 to R408) -/

theorem State.tapTake_acts (ir how : Nat) (cells : Option (Table Signal)) (acts : ¬ (s.lc.state = 2 ∧ s.pwr.released = true)) :
    s.tapTake ir how cells = { s with tap := { s.tap with ir := ir, pads := how, cells := cells.getD s.tap.cells } } :=
  if_pos (by simpa [State.tapActs, imp_iff_not_or] using acts)

theorem State.tapTake_bypass (ir how : Nat) (cells : Option (Table Signal)) (deployed : s.lc.state = 2 ∧ s.pwr.released = true) :
    s.tapTake ir how cells = s.tapPlain 0xFF := if_neg (by simpa [State.tapActs] using deployed)

theorem exec_extest (cells : List (Nat × Bool × Bool)) {t : State} (h : s.tapTake 3 1 (some (cellTable cells)) = t) :
    exec (.extest cells) s = .next (settle s t.tapShow) := h ▸ rfl

/-- Cells take the values preloaded while nothing holds the pads. -/
theorem exec_samplePreload_free (cells : List (Nat × Bool × Bool)) (free : (s.tapPlain 2).tap.pads = 0) :
    exec (.samplePreload cells) s = .next (settle s { (s.tapPlain 2).tapShow with tap := { s.tap with ir := 2, pads := 0, cells := cellTable cells } }) := by
  refine congrArg (done s) ((if_pos free).trans ?_)
  rw [← free]
  rfl

theorem State.tapUpdate_other (v : Word) (other : s.tap.ir ≠ 0x20) : s.tapUpdate v = s := if_neg other

/-- An update of CFGLOAD, while the loader takes a full load of boundary scan and no pass-on is left. -/
theorem State.tapUpdate_loads (v : Word) (selected : s.tap.ir = 0x20) (none : s.loader.passOn = none) (before : s.pwr.released = false)
    (source : s.loader.source = .jtag) (loads : s.loader.phase ≠ .idle) (keeps : s.loader.phase ≠ .discard) :
    s.tapUpdate v = if 4096 ≤ s.loader.buf.length then s.setFld CFG_STAT_LATEWR 1
      else { s with loader := { s.loader with buf := s.loader.buf ++ [v] } } := by
  unfold State.tapUpdate State.streamWordIn
  rw [if_pos selected, none, before, source]
  dsimp only
  rw [if_neg (by decide), if_neg (by decide), if_neg (by simp [loads]), if_pos ⟨rfl, loads, keeps⟩]
  exact if_congr ⟨And.right, And.intro rfl⟩ rfl rfl

/-! ### The obligation -/

/-- Settles O56: each queue by its room, each transmission by its end and by what feeds the controller, the TAP by its instruction. -/
theorem fieldInterfacesMoveTheirEntries : Obligations.FieldInterfacesMoveTheirEntries := by
  intro s
  refine ⟨fun m => ?can, fun m v req => ?spi, fun m v d req => ?i2c, fun m v d b p f req => ?uart, ?tap⟩
  case can =>
    intro c f on
    refine ⟨fun full => congrArg (done s) (State.canPush_full full), fun room => ?push, rfl, rfl,
      fun off => congrArg (done s) (if_pos off), fun alive => congrArg (done s) (if_neg alive),
      fun id ctrl age data k hears matched => ⟨fun room => ?stores, fun full => ?loses⟩, fun id ctrl age data hears none => ?unmatched,
      fun id ctrl age data err hears bad => ?damaged, fun id ctrl age data err deaf => congrArg (done s) (State.canReceive_deaf deaf),
      fun j sends current loop unfed b => ?unheard, fun j sends current heard => ⟨?sent, ?lost, ?error⟩,
      fun released awake en off recovers => ?recovered, fun h => congrArg (done s) (State.canBusOn_stays h)⟩
    case push =>
      obtain ⟨queued, received⟩ := State.canPush_queues room
      refine ⟨_, rfl, ?_⟩
      rw [settle_canOf]
      exact ⟨queued, received⟩
    case stores =>
      obtain ⟨g, stored, hid, hdata, hctrl, flag⟩ := State.canReceive_stores (ctrl := ctrl) (age := age) (data := data) hears matched room
      exact ⟨_, g, rfl, (congrArg Can.rx (settle_canOf _)).trans stored, hid, hdata, hctrl, (settle_fb _ _ _).trans flag⟩
    case loses =>
      obtain ⟨kept, flag⟩ := State.canReceive_loses (ctrl := ctrl) (age := age) (data := data) hears matched full
      exact ⟨_, rfl, (congrArg Can.rx (settle_canOf _)).trans kept, (settle_fb _ _ _).trans flag⟩
    case unmatched => exact ⟨_, rfl, (settle_can _ _).trans (State.canReceive_unmatched hears none)⟩
    case damaged =>
      obtain ⟨kept, counted, flag⟩ := State.canReceive_counts (id := id) (ctrl := ctrl) (age := age) (data := data) hears bad
      exact ⟨_, rfl, (settle_can _ _).trans kept, (settle_fld _ _ _).trans counted, (settle_fb _ _ _).trans flag⟩
    case unheard => exact ⟨_, rfl, (settle_fb _ _ _).trans (State.canDone_errs sends current (.inr ⟨loop, unfed⟩)).1⟩
    case sent =>
      obtain ⟨queue, flag⟩ := State.canDone_sends sends current heard
      exact ⟨_, rfl, (congrArg (List.map (·.1) ·.tx) (settle_canOf _)).trans queue, (settle_fb _ _ _).trans flag⟩
    case lost =>
      refine ⟨_, congrArg (done s) (State.canDone_lost sends current heard), ?_⟩
      rw [settle_canOf, State.canStart_shows.2.1, State.canOf_setCan_same, State.canRetry_frames]
    case error =>
      obtain ⟨flag, off, counted⟩ := State.canDone_errs (bus := 2) sends current (.inl rfl)
      refine ⟨_, rfl, (settle_fb _ _ _).trans flag, fun high => ?_, fun low => (settle_fld _ _ _).trans (counted low)⟩
      exact ⟨(settle_fld _ _ _).trans (off high).1, (settle_fb _ _ _).trans (off high).2⟩
    case recovered =>
      have cleared (g : RF) := State.fld_of_regs (State.canBusOn_returns released awake en off recovers) g
      refine ⟨_, rfl, ?_⟩
      rw [settle_fld, settle_fld, settle_fld, cleared, cleared, cleared]
      exact State.canStat_cleared
  case spi =>
    intro x
    refine ⟨fun full => congrArg (done s) (State.spiTx_full v full), fun room => congrArg (done s) (State.spiTx_room v room), rfl,
      fun may room => ?passes, fun idle => congrArg (done s) (State.spiDone_stays idle), fun may full => ?overflows⟩
    case passes =>
      obtain ⟨sent, received⟩ := State.spiDone_fifos (v := v) may
      obtain ⟨last, empty, -⟩ := State.spiDone_flags (v := v) may
      refine ⟨_, rfl, ?_⟩
      rw [settle_spiOf, settle_fb, settle_fb]
      exact ⟨sent, received.trans (if_neg (Nat.not_le.mpr room)), last, empty⟩
    case overflows =>
      refine ⟨_, rfl, ?_⟩
      rw [settle_spiOf, settle_fb]
      exact ⟨(State.spiDone_fifos may).2.trans (if_pos full), (State.spiDone_flags may).2.2 full⟩
  case i2c =>
    intro x
    refine ⟨fun full => congrArg (done s) (State.i2cCmd_full v full), fun room => congrArg (done s) (State.i2cCmd_room v room), rfl,
      fun h n => congrArg (done s) (State.i2cDone_stays h), fun e r runs en queue => ?entry,
      fun unfed => congrArg (done s) (State.i2cTimeout_unfed unfed),
      fun e r runs busy fed queue => congrArg (done s) (State.i2cTimeout_drops runs busy fed queue)⟩
    intro sda
    have nack (bus : Fin 3) (write : bits e.toNat 9 8 = 0) (h : s.i2cResult m 0 bus = 1) : ∃ u, exec (.i2cEntryDone m d bus) s = .next u ∧
        (u.i2cOf m).tx = [] ∧ u.fb (I2C_STAT_NACK m) = true := by
      refine ⟨_, rfl, ?_⟩
      rw [settle_i2cOf, settle_fb]
      exact State.i2cDone_nack runs en queue write h
    refine ⟨fun h => ?ends, fun unfed write bus => nack bus write ((State.i2cResult_unfed unfed _ _).trans (if_pos rfl)),
      fun write => nack 1 write ?_, fun fed => ?lost⟩
    case ends =>
      have well : s.i2cResult m (bits e.toNat 9 8) 0 = 0 := by
        rcases Bool.eq_false_or_eq_true (s.fed (0x341 + 2 * m)) with fed | unfed
        · exact State.i2cResult_fed fed _ _
        · exact (State.i2cResult_unfed unfed _ _).trans (if_neg (h.resolve_left (Bool.eq_false_iff.mp unfed)))
      have queues := (settle_i2cOf s).trans (State.i2cDone_ends (d := d) runs en queue well)
      exact ⟨_, rfl, congrArg Serial.tx queues, congrArg Serial.rx queues⟩
    case lost =>
      refine ⟨_, rfl, ?_⟩
      rw [settle_i2cOf, settle_fb]
      exact State.i2cDone_arbLost runs en queue (State.i2cResult_fed fed _ _)
    · rcases Bool.eq_false_or_eq_true (s.fed (0x341 + 2 * m)) with fed | unfed
      · exact State.i2cResult_fed fed _ _
      · exact (State.i2cResult_unfed unfed _ _).trans (if_pos rfl)
  case uart =>
    intro x w en
    refine ⟨fun full => congrArg (done s) (State.uartTx_full v full), fun room => congrArg (done s) (State.uartTx_room v room), rfl,
      fun e r on queue => congrArg (done s) (State.uartSent_sends on queue), fun on fed room => ?receives,
      fun h => congrArg (done s) (State.uartReceived_stays h), fun h => congrArg (done s) (State.uartSent_stays h),
      fun on fed full => congrArg (done s) (State.uartReceived_full on fed d b p f full),
      fun unfed => congrArg (done s) (State.uartCts_unfed unfed),
      fun on fed flow half waits => congrArg (done s) (State.uartCts_starts on fed flow half waits)⟩
    refine ⟨_, congrArg (done s) (State.uartReceived_room on fed d b p f room), ?_⟩
    rw [settle_uartOf, State.uartOf_of_uart (State.raise_uart _ _), State.uartOf_setUart_same, settle_fb,
      State.raise_fb_same _ _ (RF.fits (by decide))]
    exact ⟨rfl, rfl, fun bad => (congrArg _ bad).trans (Bool.or_true _)⟩
  case tap =>
    intro pads acts plain levels
    refine ⟨rfl, rfl, rfl, fun l taken => congrArg (done s) (if_neg taken), exec_samplePreload_free,
      fun h => ⟨fun l => exec_extest l (State.tapTake_acts _ _ _ h), congrArg (done s) (State.tapTake_acts _ _ _ h),
        congrArg (done s) (State.tapTake_acts _ _ _ h)⟩,
      fun h => ?bypass, rfl,
      fun v selected none before source loads keeps full => congrArg (done s)
        ((State.tapUpdate_loads v selected none before source loads keeps).trans (if_pos full)),
      fun v selected none before source loads keeps room => congrArg (done s)
        ((State.tapUpdate_loads v selected none before source loads keeps).trans (if_neg (Nat.not_le.mpr room))),
      fun v other => congrArg (done s) (State.tapUpdate_other v other)⟩
    have deployed := not_not.mp h
    exact ⟨fun l => exec_extest l (State.tapTake_bypass _ _ _ deployed),
      congrArg (done s) (State.tapTake_bypass _ _ _ deployed), congrArg (done s) (State.tapTake_bypass _ _ _ deployed)⟩

end Sys2Proof.Machine
end

section
/-! PROOFS. What every command and every step keeps (O1, O4, O5, O6). -/

namespace Sys2Proof.Machine

/-- Every command keeps the canonical form, the life cycle's order, the queue and the part: the law of its own meaning says so. -/
theorem exec_keeps : ∀ (c : Instr) (s u : State), exec c s = .next u → Kept s u
  | .tickEdge, s, _ => execTickEdge_kept s _
  | .tickBoundary d, s, _ => execTickBoundary_kept s d _
  | .registerWrite req a size v, s, _ => execRegisterWrite_kept s req a size v _
  | .sysIrqEoi v, s, _ => execSysIrqEoi_kept s v _
  | .eventDelivery e d, s, _ => execEventDelivery_kept s e d _
  | .encoderEdge i1 k, s, _ => execEncoderEdge_kept s i1 k _
  | .indexEdge i1 forward, s, _ => execIndexEdge_kept s i1 forward _
  | .ssiRead i1, s, _ => execSsiRead_kept s i1 _
  | .ssiSample i1 data parity frame, s, _ => execSsiSample_kept s i1 data parity frame _
  | .encoderTimeout i1, s, _ => execEncoderTimeout_kept s i1 _
  | .tbNowLoRead req, s, _ => execTbNowLoRead_kept s req _
  | .hpostGo k, s, _ => execHpostGo_kept s k _
  | .hcancel mask, s, _ => execHcancel_kept s mask _
  | .hresultDone, s, _ => execHresultDone_kept s _
  | .arm k, s, _ => execArm_kept s k _
  | .fire k, s, _ => execFire_kept s k _
  | .assembly l, s, _ => execAssembly_kept s l _
  | .entryFree k, s, _ => execEntryFree_kept s k _
  | .cancelArm k n, s, _ => execCancelArm_kept s k n _
  | .pwmPeriodStart k j, s, _ => execPwmPeriodStart_kept s k j _
  | .pwmDutyWrite k n v, s, _ => execPwmDutyWrite_kept s k n v _
  | .captureEdge k u level n, s, _ => execCaptureEdge_kept s k u level n _
  | .capDataRead req k u, s, _ => execCapDataRead_kept s req k u _
  | .qdEdge k q e, s, _ => execQdEdge_kept s k q e _
  | .qdPosWrite k q v, s, _ => execQdPosWrite_kept s k q v _
  | .activationStart t, s, _ => execActivationStart_kept s t _
  | .preempt t, s, _ => execPreempt_kept s t _
  | .activationEnd t w, s, _ => execActivationEnd_kept s t w _
  | .postedWriteAccept t, s, _ => execPostedWriteAccept_kept s t _
  | .globalLoadResponse t n, s, _ => execGlobalLoadResponse_kept s t n _
  | .faultReport t k, s, _ => execFaultReport_kept s t k _
  | .channelRelease t k, s, _ => execChannelRelease_kept s t k _
  | .illegal t, s, _ => execIllegal_kept s t _
  | .add t, s, _ => execAdd_kept s t _
  | .sub t, s, _ => execSub_kept s t _
  | .adds t, s, _ => execAdds_kept s t _
  | .subs t, s, _ => execSubs_kept s t _
  | .and_ t, s, _ => execAnd_kept s t _
  | .or_ t, s, _ => execOr_kept s t _
  | .xor t, s, _ => execXor_kept s t _
  | .andn t, s, _ => execAndn_kept s t _
  | .shl t, s, _ => execShl_kept s t _
  | .shr t, s, _ => execShr_kept s t _
  | .sar t, s, _ => execSar_kept s t _
  | .shls t, s, _ => execShls_kept s t _
  | .min_ t, s, _ => execMin_kept s t _
  | .max_ t, s, _ => execMax_kept s t _
  | .abs t, s, _ => execAbs_kept s t _
  | .neg t, s, _ => execNeg_kept s t _
  | .mulq31 t, s, _ => execMulq31_kept s t _
  | .mulq16 t, s, _ => execMulq16_kept s t _
  | .mul t, s, _ => execMul_kept s t _
  | .clamp t, s, _ => execClamp_kept s t _
  | .mac t, s, _ => execMac_kept s t _
  | .msu t, s, _ => execMsu_kept s t _
  | .mpy t, s, _ => execMpy_kept s t _
  | .rda t, s, _ => execRda_kept s t _
  | .wra t, s, _ => execWra_kept s t _
  | .clra t, s, _ => execClra_kept s t _
  | .adda t, s, _ => execAdda_kept s t _
  | .eq t, s, _ => execEq_kept s t _
  | .ne t, s, _ => execNe_kept s t _
  | .lt t, s, _ => execLt_kept s t _
  | .le t, s, _ => execLe_kept s t _
  | .ltu t, s, _ => execLtu_kept s t _
  | .leu t, s, _ => execLeu_kept s t _
  | .tst t, s, _ => execTst_kept s t _
  | .sel t, s, _ => execSel_kept s t _
  | .addi t, s, _ => execAddi_kept s t _
  | .addsi t, s, _ => execAddsi_kept s t _
  | .andi t, s, _ => execAndi_kept s t _
  | .ori t, s, _ => execOri_kept s t _
  | .xori t, s, _ => execXori_kept s t _
  | .shi t, s, _ => execShi_kept s t _
  | .cmpi t, s, _ => execCmpi_kept s t _
  | .br t, s, _ => execBr_kept s t _
  | .dbnz t, s, _ => execDbnz_kept s t _
  | .li t, s, _ => execLi_kept s t _
  | .lui t, s, _ => execLui_kept s t _
  | .jmp t, s, _ => execJmp_kept s t _
  | .call t, s, _ => execCall_kept s t _
  | .ld t w, s, _ => execLd_kept s t w _
  | .st t w, s, _ => execSt_kept s t w _
  | .nop t, s, _ => execNop_kept s t _
  | .eos t, s, _ => execEos_kept s t _
  | .yield_ t, s, _ => execYield_kept s t _
  | .brk t, s, _ => execBrk_kept s t _
  | .jr t, s, _ => execJr_kept s t _
  | .mfs t, s, _ => execMfs_kept s t _
  | .mts t, s, _ => execMts_kept s t _
  | .addp t, s, _ => execAddp_kept s t _
  | .rdin t, s, _ => execRdin_kept s t _
  | .rdint t, s, _ => execRdint_kept s t _
  | .stout t, s, _ => execStout_kept s t _
  | .post t w, s, _ => execPost_kept s t w _
  | .cancel t, s, _ => execCancel_kept s t _
  | .lut t, s, _ => execLut_kept s t _
  | .rcps t, s, _ => execRcps_kept s t _
  | .sqrs t, s, _ => execSqrs_kept s t _
  | .claim req b, s, _ => execClaim_kept s req b _
  | .rbRelease req b, s, _ => execRelease_kept s req b _
  | .create req b staged, s, _ => execCreate_kept s req b staged _
  | .destroy req b staged, s, _ => execDestroy_kept s req b staged _
  | .modify req b staged, s, _ => execModify_kept s req b staged _
  | .query req b staged, s, _ => execQuery_kept s req b staged _
  | .requestDone, s, _ => execRequestDone_kept s _
  | .allocRbfree v, s, _ => execAllocRbfree_kept s v _
  | .flogPop v, s, _ => execFlogPop_kept s v _
  | .engholdWrite w v, s, _ => execEngholdWrite_kept s w v _
  | .rcalGo k v, s, _ => execRcalGo_kept s k v _
  | .rcalDone k ron, s, _ => execRcalDone_kept s k ron _
  | .ronstale k, s, _ => execRonstale_kept s k _
  | .refOk k ok, s, _ => execRefOk_kept s k ok _
  | .ampLimit k j on, s, _ => execAmpLimit_kept s k j on _
  | .adcSwtrig n, s, _ => execAdcSwtrig_kept s n _
  | .conversionEnd n d ovr refbad, s, _ => execConversionEnd_kept s n d ovr refbad _
  | .resultWrite n, s, _ => execResultWrite_kept s n _
  | .resultCopy n, s, _ => execResultCopy_kept s n _
  | .adcResLoRead req n e, s, _ => execAdcResLoRead_kept s req n e _
  | .calZero n v, s, _ => execCalZero_kept s n v _
  | .calFull n v, s, _ => execCalFull_kept s n v _
  | .calAbort n, s, _ => execCalAbort_kept s n _
  | .calSave n v, s, _ => execCalSave_kept s n v _
  | .calRestore n v, s, _ => execCalRestore_kept s n v _
  | .comparatorCross k c above, s, _ => execComparatorCross_kept s k c above _
  | .filterSample k c, s, _ => execFilterSample_kept s k c _
  | .settlingHoldEnd k c, s, _ => execSettlingHoldEnd_kept s k c _
  | .cmpLatchWrite k v, s, _ => execCmpLatchWrite_kept s k v _
  | .latchClear k l, s, _ => execLatchClear_kept s k l _
  | .rangeHoldEnd n, s, _ => execRangeHoldEnd_kept s n _
  | .dacShort n limiting, s, _ => execDacShort_kept s n limiting _
  | .shortClear n, s, _ => execShortClear_kept s n _
  | .eccWriteback k, s, _ => execEccWriteback_kept s k _
  | .dmaGo k j v, s, _ => execDmaGo_kept s k j v _
  | .dmaAbort k j, s, _ => execDmaAbort_kept s k j _
  | .dmaWord k j coll, s, _ => execDmaWord_kept s k j coll _
  | .fabricSpRequest k we view word data coll, s, _ => execFabricSpRequest_kept s k we view word data coll _
  | .fabricSpReturn k, s, _ => execFabricSpReturn_kept s k _
  | .mbxTofabWrite k j v, s, _ => execMbxTofabWrite_kept s k j v _
  | .mbxToAck k j, s, _ => execMbxToAck_kept s k j _
  | .mbxFromWr k j v, s, _ => execMbxFromWr_kept s k j v _
  | .mbxDoorbell k v, s, _ => execMbxDoorbell_kept s k v _
  | .scrInjArm k v, s, _ => execScrInjArm_kept s k v _
  | .vaultWipe req v, s, _ => execVaultWipe_kept s req v _
  | .wipeDone, s, _ => execWipeDone_kept s _
  | .openSession req, s, _ => execOpen_kept s req _
  | .attarCheck req, s, _ => execCheck_kept s req _
  | .checkDone, s, _ => execCheckDone_kept s _
  | .attarApply req mode, s, _ => execApply_kept s req mode _
  | .attarAbort req force, s, _ => execAbort_kept s req force _
  | .stagedWrite a v, s, _ => execStagedWrite_kept s a v _
  | .peek a, s, _ => execPeek_kept s a _
  | .applyStrobe, s, _ => execApplyStrobe_kept s _
  | .sessionTimeout, s, _ => execSessionTimeout_kept s _
  | .gpioSet g v, s, _ => execGpioSet_kept s g v _
  | .gpioClr g v, s, _ => execGpioClr_kept s g v _
  | .gpioTgl g v, s, _ => execGpioTgl_kept s g v _
  | .xbarLock req v, s, _ => execXbarLock_kept s req v _
  | .lockTimeout, s, _ => execLockTimeout_kept s _
  | .bankFail b, s, _ => execBankFail_kept s b _
  | .bankReturn b level, s, _ => execBankReturn_kept s b level _
  | .cycleStart l, s, _ => execCycleStart_kept s l _
  | .returnReceive l f, s, _ => execReturnReceive_kept s l f _
  | .nodeSymbolLock l k, s, _ => execNodeSymbolLock_kept s l k _
  | .nodeLockLoss l k, s, _ => execNodeLockLoss_kept s l k _
  | .nodeDataFrame l k f loop aux nfault, s, _ => execNodeDataFrame_kept s l k f loop aux nfault _
  | .nodeTimedFrame l k f, s, _ => execNodeTimedFrame_kept s l k f _
  | .nodeMark l k good down, s, _ => execNodeMark_kept s l k good down _
  | .nodeFiring l k, s, _ => execNodeFiring_kept s l k _
  | .nodePulseEnd l k, s, _ => execNodePulseEnd_kept s l k _
  | .nodeTimeout l k, s, _ => execNodeTimeout_kept s l k _
  | .nodeEpochRelease l k, s, _ => execNodeEpochRelease_kept s l k _
  | .tickPacket good p, s, _ => execTickPacket_kept s good p _
  | .logPacket good p, s, _ => execLogPacket_kept s good p _
  | .writePacket good addr size v, s, _ => execWritePacket_kept s good addr size v _
  | .sessionPacket good p, s, _ => execSessionPacket_kept s good p _
  | .allocPacket good p, s, _ => execAllocPacket_kept s good p _
  | .refreshPacket good p, s, _ => execRefreshPacket_kept s good p _
  | .bulkPacket good p left, s, _ => execBulkPacket_kept s good p left _
  | .statusPacket good p, s, _ => execStatusPacket_kept s good p _
  | .helloPacket good p, s, _ => execHelloPacket_kept s good p _
  | .helloSend, s, _ => execHelloSend_kept s _
  | .replay t, s, _ => execReplay_kept s t _
  | .heartbeatCheck, s, _ => execHeartbeatCheck_kept s _
  | .takeover, s, _ => execTakeover_kept s _
  | .aliveToggle, s, _ => execAliveToggle_kept s _
  | .aliveInEdge, s, _ => execAliveInEdge_kept s _
  | .partnerStatic, s, _ => execPartnerStatic_kept s _
  | .seekTimeout, s, _ => execSeekTimeout_kept s _
  | .syncTick now tick banks, s, _ => execSyncTick_kept s now tick banks _
  | .joinComplete, s, _ => execJoinComplete_kept s _
  | .resign v, s, _ => execResign_kept s v _
  | .rejoin v, s, _ => execRejoin_kept s v _
  | .epochSilenceEnd, s, _ => execEpochSilenceEnd_kept s _
  | .powerOn, s, _ => execPowerOn_kept s _
  | .railFall rail, s, _ => execRailFall_kept s rail _
  | .resetNAssert, s, _ => execResetNAssert_kept s _
  | .resetNRelease, s, _ => execResetNRelease_kept s _
  | .syncWord w, s, _ => execSyncWord_kept s w _
  | .auth h ws, s, _ => execAuth_kept s h ws _
  | .authCheckDone keyOk sigOk, s, _ => execAuthCheckDone_kept s keyOk sigOk _
  | .nopRecord h ws, s, _ => execNopRecord_kept s h ws _
  | .regwr h ws, s, _ => execRegwr_kept s h ws _
  | .frame h ws, s, _ => execFrame_kept s h ws _
  | .checkRecord h ws, s, _ => execCheckRecord_kept s h ws _
  | .rbegin h, s, _ => execRbegin_kept s h _
  | .rend h, s, _ => execRend_kept s h _
  | .keysel h plen, s, _ => execKeysel_kept s h plen _
  | .keyselBlock tagOk, s, _ => execKeyselBlock_kept s tagOk _
  | .passon h ws, s, _ => execPasson_kept s h ws _
  | .endRecord h hashOk, s, _ => execEnd_kept s h hashOk _
  | .configRelease us, s, _ => execConfigRelease_kept s us _
  | .ioEnable, s, _ => execIoEnable_kept s _
  | .cfgLoadwinWrite v, s, _ => execCfgLoadwinWrite_kept s v _
  | .loadDeadline, s, _ => execLoadDeadline_kept s _
  | .cfgRestart v, s, _ => execRestart_kept s v _
  | .fuseImgkey v, s, _ => execFuseImgkey_kept s v _
  | .fuseSvckey v, s, _ => execFuseSvckey_kept s v _
  | .fuseAeskey v, s, _ => execFuseAeskey_kept s v _
  | .keyram v, s, _ => execKeyram_kept s v _
  | .advanceLc v, s, _ => execAdvance_kept s v _
  | .service v, s, _ => execService_kept s v _
  | .leaveService v, s, _ => execLeave_kept s v _
  | .retire v, s, _ => execRetire_kept s v _
  | .setminver v, s, _ => execSetminver_kept s v _
  | .fuseAltboot v, s, _ => execFuseAltboot_kept s v _
  | .lccmdDone ok, s, _ => execLccmdDone_kept s ok _
  | .serviceExpiry, s, _ => execServiceExpiry_kept s _
  | .regionHold r, s, _ => execRegionHold_kept s r _
  | .partialCheckDone, s, _ => execPartialCheckDone_kept s _
  | .regionRelease r, s, _ => execRegionRelease_kept s r _
  | .abandon v, s, _ => execAbandon_kept s v _
  | .reload v, s, _ => execReload_kept s v _
  | .scrubVisit, s, _ => execScrubVisit_kept s _
  | .voteFix, s, _ => execVoteFix_kept s _
  | .istSignature t sig ok last, s, _ => execIstSignature_kept s t sig ok last _
  | .spmarchWindow k b addr diff abandoned last, s, _ => execSpmarchWindow_kept s k b addr diff abandoned last _
  | .trmarchWindow t addr diff abandoned last, s, _ => execTrmarchWindow_kept s t addr diff abandoned last _
  | .istConversion kind unit arg d last, s, _ => execIstConversion_kept s kind unit arg d last _
  | .linkWindow l last, s, _ => execLinkWindow_kept s l last _
  | .istStarved kind, s, _ => execIstStarved_kept s kind _
  | .trip v, s, _ => execTrip_kept s v _
  | .tripInput i1 low, s, _ => execTripInput_kept s i1 low _
  | .comparatorTrip n on, s, _ => execComparatorTrip_kept s n on _
  | .vmon out, s, _ => execVmon_kept s out _
  | .temp hot, s, _ => execTemp_kept s hot _
  | .clockMonitor bad, s, _ => execClockMonitor_kept s bad _
  | .tickWatchdog, s, _ => execTickWatchdog_kept s _
  | .handoverTrip, s, _ => execHandoverTrip_kept s _
  | .tripRelease v, s, _ => execTripRelease_kept s v _
  | .safeLock v, s, _ => execSafeLock_kept s v _
  | .kick v, s, _ => execKick_kept s v _
  | .wdwarn, s, _ => execWdwarn_kept s _
  | .watchdogExpiry, s, _ => execWatchdogExpiry_kept s _
  | .internalResetRelease, s, _ => execInternalResetRelease_kept s _
  | .tamperEvent e, s, _ => execTamperEvent_kept s e _
  | .rtcSecond, s, _ => execRtcSecond_kept s _
  | .sillageWrite, s, _ => execSillageWrite_kept s _
  | .sillageFreeze, s, _ => execSillageFreeze_kept s _
  | .sillageResume, s, _ => execSillageResume_kept s _
  | .sillageClear, s, _ => execSillageClear_kept s _
  | .sillageMark req v, s, _ => execSillageMark_kept s req v _
  | .pcieMemoryWrite off dws poison, s, _ => execPcieMemoryWrite_kept s off dws poison _
  | .pcieMemoryRead off n, s, _ => execPcieMemoryRead_kept s off n _
  | .unsupportedRequest, s, _ => execUnsupportedRequest_kept s _
  | .msiRelease, s, _ => execMsiRelease_kept s _
  | .perst, s, _ => execPerst_kept s _
  | .linkDown, s, _ => execLinkDown_kept s _
  | .canPush m, s, _ => execPush_kept s m _
  | .canAbort m, s, _ => execCanAbort_kept s m _
  | .canRecover m, s, _ => execRecover_kept s m _
  | .canPop m, s, _ => execPop_kept s m _
  | .canRxFrame m id ctrl age data, s, _ => execCanRxFrame_kept s m id ctrl age data _
  | .canTxDone m result, s, _ => execCanTxDone_kept s m result _
  | .busoffRecovery m, s, _ => execBusoffRecovery_kept s m _
  | .spiTx m v, s, _ => execSpiTx_kept s m v _
  | .spiRx req m, s, _ => execSpiRx_kept s req m _
  | .spiWordDone m data, s, _ => execSpiWordDone_kept s m data _
  | .i2cCmd m v, s, _ => execI2cCmd_kept s m v _
  | .i2cEntryDone m data result, s, _ => execI2cEntryDone_kept s m data result _
  | .i2cRx req m, s, _ => execI2cRx_kept s req m _
  | .i2cTimeout m, s, _ => execI2cTimeout_kept s m _
  | .uartTx m v, s, _ => execUartTx_kept s m v _
  | .uartRx req m, s, _ => execUartRx_kept s req m _
  | .uartFrameSent m, s, _ => execUartFrameSent_kept s m _
  | .uartFrameReceived m data break_ parity framing, s, _ => execUartFrameReceived_kept s m data break_ parity framing _
  | .idcode, s, _ => execIdcode_kept s _
  | .samplePreload cells, s, _ => execSamplePreload_kept s cells _
  | .extest cells, s, _ => execExtest_kept s cells _
  | .jtagClamp, s, _ => execJtagClamp_kept s _
  | .highz, s, _ => execHighz_kept s _
  | .bypass, s, _ => execBypass_kept s _
  | .cfgload, s, _ => execCfgload_kept s _
  | .cfgloadUpdate v, s, _ => execCfgloadUpdate_kept s v _
  | .testLogicReset, s, _ => execTestLogicReset_kept s _
  | .mpRead addr good, s, _ => execRead_kept s addr good _
  | .mpWrite addr v good, s, _ => execWrite_kept s addr v good _
  | .debugHalt addr good, s, _ => execHalt_kept s addr good _
  | .debugResume addr good, s, _ => execResume_kept s addr good _
  | .debugStep addr good, s, _ => execStep_kept s addr good _
  | .brkset addr v good, s, _ => execBrkset_kept s addr v good _
  | .brkclr addr good, s, _ => execBrkclr_kept s addr good _
  | .rdreg addr good, s, _ => execRdreg_kept s addr good _
  | .wrreg addr v good, s, _ => execWrreg_kept s addr v good _
  | .mpTimeout, s, _ => execMpTimeout_kept s _
  | .pllLock i1, s, _ => execPllLock_kept s i1 _
  | .pllUnlock i1, s, _ => execPllUnlock_kept s i1 _
  | .standbyRequest v, s, _ => execStandbyRequest_kept s v _
  | .standbyEntry, s, _ => execStandbyEntry_kept s _
  | .wake src cmps, s, _ => execWake_kept s src cmps _
  | .wakeLockTimeout, s, _ => execWakeLockTimeout_kept s _
  | .resumeBoundary, s, _ => execResumeBoundary_kept s _
  | .powerFailWarning, s, _ => execPowerFailWarning_kept s _
  | .snapshotDone, s, _ => execSnapshotDone_kept s _
  | .snap v, s, _ => execSnap_kept s v _
  | .erasesnap v, s, _ => execErasesnap_kept s v _
  | .erasefault v, s, _ => execErasefault_kept s v _
  | .mramRefresh, s, _ => execMramRefresh_kept s _
  | .rcRegisterRead req a size, s, _ => execRcRegisterRead_kept s req a size _
  | .virtualSourceWrap, s, _ => execVirtualSourceWrap_kept s _
  | .fabOutChange k j value oe, s, _ => execFabOutChange_kept s k j value oe _
  | .ubvelLinkDown, s, _ => execUbvelLinkDown_kept s _
  | .ubvelLinkUp dly, s, _ => execUbvelLinkUp_kept s dly _
  | .cfgClockTimeout, s, _ => execCfgClockTimeout_kept s _
  | .memoryBitFlip t, s, _ => execMemoryBitFlip_kept s t _
  | .pcieConfigRequest mse bme msiEn d3 grant, s, _ => execPcieConfigRequest_kept s mse bme msiEn d3 grant _
  | .perstNRelease, s, _ => execPerstNRelease_kept s _
  | .pcieLinkTrained gen2, s, _ => execPcieLinkTrained_kept s gen2 _
  | .uartCtsAssert m, s, _ => execUartCtsAssert_kept s m _
  | .batteryDomainLoss, s, _ => execBatteryDomainLoss_kept s _
  | .batteryDomainReturn, s, _ => execBatteryDomainReturn_kept s _

/-- Settles O1: the queue of the state is the list that `step` matches on. -/
theorem stepRunsTheFrontCommand : Obligations.StepRunsTheFrontCommand := fun _ _ _ => rfl

/-- A step keeps the canonical form and moves the life cycle onward: as a command does, or as the cycle does that passes on an empty queue. -/
theorem step_keeps {s u : State} (h : step s = .next u) : (s.canonical = true → u.canonical = true) ∧ (s.lc.sound = true → s.lc.Onward u.lc) := by
  unfold step at h
  split at h
  · cases h
    have kept : Kept s (settle s s.cycle) := settle_keeps s (State.cycle_kept (Kept.refl s))
    exact ⟨kept.canon, kept.life⟩
  · have kept := exec_keeps _ _ _ h
    exact ⟨kept.canon, kept.life⟩

/-- Settles O5: a step moves the life cycle onward. -/
theorem theLifeCycleNeverGoesBack : Obligations.TheLifeCycleNeverGoesBack := fun _ _ sound h => (step_keeps h).2 sound

/-- Settles O4: a step keeps the canonical form. -/
theorem everyStepKeepsTheCanonicalForm : Obligations.EveryStepKeepsTheCanonicalForm := fun _ _ canon h => (step_keeps h).1 canon

/-- Settles O6: what every command keeps holds the queue and the part. -/
theorem commandsLeaveQueueAndPart : Obligations.CommandsLeaveQueueAndPart := fun c s u h =>
  have kept := exec_keeps c s u h
  ⟨kept.queue, kept.part⟩

end Sys2Proof.Machine
end

section
/-! PROOFS. Stored cells: what storing words leaves of the state, and which bytes it changes. -/

namespace Sys2Proof.Machine

variable {s u t : State}

/-- Cells of memory and their inverted bits change, and nothing else. -/
def State.CellsOnly (s u : State) : Prop := ∃ m e, u = { s with mem := m, ecc := e }

theorem State.CellsOnly.refl (s : State) : s.CellsOnly s := ⟨_, _, rfl⟩

theorem State.CellsOnly.trans (h : s.CellsOnly u) (g : u.CellsOnly t) : s.CellsOnly t := by
  obtain ⟨m, e, rfl⟩ := h
  obtain ⟨m', e', rfl⟩ := g
  exact ⟨m', e', rfl⟩

theorem State.CellsOnly.foldl {β : Type} {f : State → β → State} (hf : ∀ (u : State) x, u.CellsOnly (f u x)) (l : List β) (s : State) :
    s.CellsOnly (l.foldl f s) :=
  List.foldlRecOn (motive := fun u => s.CellsOnly u) l f (.refl s) fun u h x _ => h.trans (hf u x)

theorem State.CellsOnly.regs (h : s.CellsOnly u) : u.regs = s.regs := by
  obtain ⟨m, e, rfl⟩ := h
  rfl

theorem State.store_cellsOnly (s : State) (a n v : Nat) : s.CellsOnly (s.store a n v) := by
  induction n generalizing s a v with
  | zero => exact .refl s
  | succ n ih => exact State.CellsOnly.trans ⟨_, s.ecc, rfl⟩ (ih (s.setByte a (BitVec.ofNat 8 v)) _ _)

theorem State.setFlips_cellsOnly (s : State) (a m : Nat) : s.CellsOnly (s.setFlips a m) := ⟨s.mem, _, rfl⟩

theorem State.setWord_cellsOnly (s : State) (a : Nat) (w : Word) : s.CellsOnly (s.setWord a w) := State.store_cellsOnly s a 4 w.toNat

theorem State.retainPut_cellsOnly (s : State) (a : Nat) (ws : List Word) : s.CellsOnly (s.retainPut a ws) := by
  induction ws generalizing s a with
  | nil => exact .refl s
  | cons w r ih => exact ((State.store_cellsOnly s a 4 w.toNat).trans (State.setFlips_cellsOnly _ _ _)).trans (ih _ _)

@[simp] theorem State.byte_setFlips (a m x : Nat) : (s.setFlips a m).byte x = s.byte x := rfl
@[simp] theorem State.word_setFlips (a m x : Nat) : (s.setFlips a m).word x = s.word x := State.word_of_mem rfl x

/-- A word is read from its four bytes. -/
theorem State.word_congr {a : Nat} (h : ∀ i, i < 4 → s.byte (a + i) = u.byte (a + i)) : s.word a = u.word a :=
  congrArg (BitVec.ofNat 32) (State.load_congr s u a 4 h)

theorem State.word_setWord_other {a b : Nat} (w : Word) (h : b + 4 ≤ a ∨ a + 4 ≤ b) : (s.setWord a w).word b = s.word b :=
  State.word_congr fun i hi => State.byte_setWord_other s a (b + i) w (by omega)

/-- Words from an address up are read one by one. -/
theorem State.words_eq_map (s : State) (a n : Nat) : s.words a n = (List.range n).map fun i => s.word (a + 4 * i) := by
  induction n generalizing a with
  | zero => rfl
  | succ n ih =>
    rw [List.range_succ_eq_map, List.map_cons, List.map_map]
    refine congrArg₂ List.cons rfl ((ih (a + 4)).trans (List.map_congr_left fun i _ => congrArg s.word ?_))
    show a + 4 + 4 * i = a + 4 * (i + 1)
    omega

end Sys2Proof.Machine
end

section
/-! PROOFS. The Sillage buffer: writes of its records, freeze, resume, clear and marks (O50). -/

namespace Sys2Proof.Machine

variable {s : State} {ws : List Word} {r : List (List Word × Bool)}

/-- The buffer with the oldest record taken out of the FIFO. -/
def State.takeOldest (s : State) (r : List (List Word × Bool)) : State := { s with sil := { s.sil with fifo := r } }

/-- The first `n` words of a record stored from an address up, with check bits that agree (R386). -/
def State.putRecord (s : State) (a : Nat) (ws : List Word) (n : Nat) : State :=
  (List.range n).foldl (fun s i => (s.setWord (a + 4 * i) (ws.getD i 0)).setFlips (a + 4 * i) 0) s

theorem State.putRecord_succ (a n : Nat) : s.putRecord a ws (n + 1) =
    ((s.putRecord a ws n).setWord (a + 4 * n) (ws.getD n 0)).setFlips (a + 4 * n) 0 := by
  unfold State.putRecord
  rw [List.range_succ, List.foldl_append]
  rfl

theorem State.putRecord_cellsOnly (s : State) (a : Nat) (ws : List Word) (n : Nat) : s.CellsOnly (s.putRecord a ws n) :=
  .foldl (fun u _ => (State.setWord_cellsOnly u _ _).trans (State.setFlips_cellsOnly _ _ _)) _ s

theorem State.putRecord_byte_other (a n x : Nat) (h : x < a ∨ a + 4 * n ≤ x) : (s.putRecord a ws n).byte x = s.byte x := by
  induction n with
  | zero => rfl
  | succ n ih =>
    rw [State.putRecord_succ, State.byte_setFlips, State.byte_setWord_other _ _ _ _ (by omega)]
    exact ih (by omega)

theorem State.putRecord_word (a n i : Nat) (h : i < n) : (s.putRecord a ws n).word (a + 4 * i) = ws.getD i 0 := by
  induction n with
  | zero => omega
  | succ n ih =>
    rw [State.putRecord_succ, State.word_setFlips]
    rcases Nat.lt_succ_iff_lt_or_eq.mp h with below | rfl
    · rw [State.word_setWord_other _ (by omega)]
      exact ih below
    · exact State.word_setWord _ _ _

/-- A record reads back as it was stored. -/
theorem State.putRecord_words (a : Nat) : (s.putRecord a ws ws.length).words a ws.length = ws := by
  rw [State.words_eq_map]
  refine List.ext_getElem (by simp) fun i h _ => ?_
  have inside : i < ws.length := by simpa using h
  rw [List.getElem_map, List.getElem_range, State.putRecord_word _ _ _ inside, List.getD_eq_getElem _ _ inside]

/-- A record that is no trigger is written at WPTR, which steps; short of the last place nothing else follows (R386, R387). -/
theorem State.sillageWrite_plain (live : s.fb SILLAGE_STAT_FROZEN = false) (oldest : s.sil.fifo = (ws, false) :: r)
    (free : s.sil.post = none) (inside : s.fld SILLAGE_STAT_WPTR < 32767) : s.sillageWrite =
      ((s.takeOldest r).putRecord (0x52000000 + 16 * s.fld SILLAGE_STAT_WPTR) ws 4).setFld SILLAGE_STAT_WPTR (s.fld SILLAGE_STAT_WPTR + 1) := by
  have next : (s.fld SILLAGE_STAT_WPTR + 1) % 32768 = s.fld SILLAGE_STAT_WPTR + 1 := Nat.mod_eq_of_lt (by omega)
  have kept : ((s.takeOldest r).putRecord (0x52000000 + 16 * s.fld SILLAGE_STAT_WPTR) ws 4).sil.post = none := by
    obtain ⟨m, e, stored⟩ := (s.takeOldest r).putRecord_cellsOnly (0x52000000 + 16 * s.fld SILLAGE_STAT_WPTR) ws 4
    rw [stored]
    exact free
  unfold State.sillageWrite
  rw [if_neg (by simp [live]), oldest]
  dsimp only
  rw [decide_eq_false (by omega), Bool.false_and, Bool.false_and, if_neg Bool.false_ne_true, if_neg Bool.false_ne_true,
    if_neg Bool.false_ne_true, next]
  split
  · rfl
  · next n counts => exact absurd (counts.symm.trans kept) (Option.some_ne_none n)

/-- SILLAGE_CTRL with its first bit freezes a running buffer. -/
theorem State.sillageCtrl_freeze (live : s.fb SILLAGE_STAT_FROZEN = false) : s.sillageCtrl 1 = s.sillageFreeze :=
  if_pos ⟨rfl, live⟩

theorem State.sillageCtrl_frozen (frozen : s.fb SILLAGE_STAT_FROZEN = true) : s.sillageCtrl 1 = s :=
  if_neg fun h => Bool.false_ne_true (h.2.symm.trans frozen)

theorem State.sillageWrite_frozen (frozen : s.fb SILLAGE_STAT_FROZEN = true) : s.sillageWrite = s := if_pos frozen

theorem State.sillageMark_off (req : Nat) (v : Word) (off : s.fbit SILLAGE_CFG_SRCEN 7 = false) : s.sillageMark req v = s :=
  if_neg (by simp [off])

/-- A mark of an enabled source enters a FIFO that has room; its record holds the requester, its data and the tick (R385). -/
theorem State.sillageMark_enters (req : Nat) (v : Word) (on : s.fbit SILLAGE_CFG_SRCEN 7 = true)
    (live : s.fb SILLAGE_STAT_FROZEN = false) (room : s.sil.fifo.length < 256) :
    ∃ e, (s.sillageMark req v).sil.fifo = s.sil.fifo ++ [e] ∧ e.1.drop 1 = [BitVec.ofNat 32 req ||| 0x80000000, v, s.tickLo] := by
  have live : s.fresh.fb SILLAGE_STAT_FROZEN = false := live
  have room : s.fresh.sil.fifo.length < 256 := room
  unfold State.sillageMark State.trace
  dsimp only
  rw [if_pos on, if_neg (by simp [live]), if_neg (Nat.not_le.mpr room)]
  exact ⟨_, by split <;> rfl, rfl⟩

/-- Settles O50: the oldest record by the words it stores, each command of SILLAGE_CTRL by its bit, a mark by its source. -/
theorem sillageRecordsAndFreezes : Obligations.SillageRecordsAndFreezes := by
  intro s n
  refine ⟨fun ws r live oldest free inside four => ⟨_, rfl, ?_⟩, fun live => congrArg (done s) (State.sillageCtrl_freeze live),
    fun frozen => ⟨congrArg (done s) (State.sillageCtrl_frozen frozen), congrArg (done s) (State.sillageWrite_frozen frozen)⟩,
    rfl, rfl, fun req v on live room => ?mark, fun req v off => congrArg (done s) (State.sillageMark_off req v off)⟩
  case mark =>
    obtain ⟨e, fifo, data⟩ := State.sillageMark_enters req.val v on live room
    exact ⟨_, e, rfl, (congrArg Sillage.fifo (settle_sil s _)).trans fifo, data⟩
  · rw [State.sillageWrite_plain live oldest free inside]
    obtain ⟨m, e, stored⟩ := (s.takeOldest r).putRecord_cellsOnly (0x52000000 + 16 * n) ws 4
    refine ⟨?_, fun x hx => ?_, ?_, ?_⟩
    · have back := (s.takeOldest r).putRecord_words (ws := ws) (0x52000000 + 16 * n)
      rw [four, State.words_eq_map] at back
      rw [State.words_eq_map]
      exact (List.map_congr_left fun i _ => State.word_of_mem (settle_mem s _) _).trans back
    · rw [settle_byte]
      exact State.putRecord_byte_other _ _ _ hx
    · rw [settle_sil, State.setFld_sil, stored]
      rfl
    · rw [settle_fld]
      exact State.fld_setFld_fits (by decide) (by show _ < 32768; exact Nat.succ_lt_succ inside)

end Sys2Proof.Machine
end

section
/-! PROOFS. What fault records, classes of trips and forced outputs leave: the fields of the chip's blocks but for a few of the safe plane,
and every part of the state that they do not name. -/

namespace Sys2Proof.Machine

variable {s u t : State}

/-- Two fields that share no bit. -/
abbrev RF.Apart (g f : RF) : Prop := g.addr ≠ f.addr ∨ g.lo ≤ g.hi ∧ (g.hi < f.lo ∨ f.hi < g.lo)

/-- The fields of the chip's blocks that a fault record, the class of a trip or the Sillage trigger may write (R371, R381, R387, R433),
beside the window of the records. -/
def recordFields : List RF :=
  [SAFE_FRSTAT_COUNT, SAFE_FRSTAT_NEWEST, SAFE_IRQ_STAT_FREC, SAFE_STAT_DEVCLASS, RETAIN_STAT_FRPOS, RETAIN_CNT_FRSKIP,
    RETAIN_IRQ_STAT_FRSKIP, SILLAGE_CNT_SKIPPED, SILLAGE_CNT_LOST, SILLAGE_IRQ_STAT_LOST, SILLAGE_IRQ_STAT_FROZEN,
    SILLAGE_STAT_TRIGGERED, SILLAGE_STAT_FROZEN]

/-- A field of the chip's blocks that none of them writes. -/
abbrev RF.Unforced (g : RF) : Prop :=
  (0x40000000 ≤ g.addr ∧ (g.addr < 0x4000e800 ∨ 0x4000ea00 ≤ g.addr)) ∧ ∀ f ∈ recordFields, g.Apart f

/-- What fault records, classes and forced outputs change: no unforced field, and of the state's other parts memory, the FIFO of Sillage, the
counter of free values, the DACs, the alive pin, the tester's loopback test and the safe plane's memory of its records. -/
structure State.Forces (s u : State) : Prop where
  fld : ∀ g : RF, g.Unforced → u.fld g = s.fld g
  same : ∃ r m e q n d p b sq us st rg, u = { s with
    regs := r, mem := m, ecc := e, sil := q, freeCtr := n, dac := d, pair := { s.pair with aliveOut := p }, ist := { s.ist with bay := b }
    safe := { s.safe with seq := sq, usec := us, stored := st, ringGen := rg } }

theorem State.Forces.refl (s : State) : s.Forces s := ⟨fun _ _ => rfl, _, _, _, _, _, _, _, _, _, _, _, _, rfl⟩

theorem State.Forces.trans (h : s.Forces u) (g : u.Forces t) : s.Forces t := by
  refine ⟨fun f hf => (g.fld f hf).trans (h.fld f hf), ?_⟩
  obtain ⟨_, _, _, _, _, _, _, _, _, _, _, _, rfl⟩ := h.same
  obtain ⟨_, _, _, _, _, _, _, _, _, _, _, _, rfl⟩ := g.same
  exact ⟨_, _, _, _, _, _, _, _, _, _, _, _, rfl⟩

theorem State.Forces.foldl {β : Type} {f : State → β → State} (hf : ∀ (u : State) x, u.Forces (f u x)) (l : List β) (s : State) :
    s.Forces (l.foldl f s) :=
  List.foldlRecOn (motive := fun u => s.Forces u) l f (.refl s) fun u h x _ => h.trans (hf u x)

theorem State.Forces.fb (h : s.Forces u) (g : RF) (hg : g.Unforced) : u.fb g = s.fb g := by
  unfold State.fb; rw [h.fld g hg]

theorem State.Forces.fbit (h : s.Forces u) (g : RF) (hg : g.Unforced) (i : Nat) : u.fbit g i = s.fbit g i := by
  unfold State.fbit; rw [h.fld g hg]

/-- A part of the state that reads none of what they change. -/
theorem State.Forces.part {α : Type} (h : s.Forces u) (f : State → α)
    (hf : ∀ r m e q n d p b sq us st rg, f { s with
      regs := r, mem := m, ecc := e, sil := q, freeCtr := n, dac := d, pair := { s.pair with aliveOut := p }, ist := { s.ist with bay := b }
      safe := { s.safe with seq := sq, usec := us, stored := st, ringGen := rg } } = f s) : f u = f s := by
  obtain ⟨_, _, _, _, _, _, _, _, _, _, _, _, rfl⟩ := h.same
  exact hf _ _ _ _ _ _ _ _ _ _ _ _

theorem State.Forces.pins (h : s.Forces u) : u.pins = s.pins := h.part State.pins fun _ _ _ _ _ _ _ _ _ _ _ _ => rfl
theorem State.Forces.pwr (h : s.Forces u) : u.pwr = s.pwr := h.part State.pwr fun _ _ _ _ _ _ _ _ _ _ _ _ => rfl
theorem State.Forces.lc (h : s.Forces u) : u.lc = s.lc := h.part State.lc fun _ _ _ _ _ _ _ _ _ _ _ _ => rfl
theorem State.Forces.wipe (h : s.Forces u) : u.wipe = s.wipe := h.part State.wipe fun _ _ _ _ _ _ _ _ _ _ _ _ => rfl
theorem State.Forces.loader (h : s.Forces u) : u.loader = s.loader := h.part State.loader fun _ _ _ _ _ _ _ _ _ _ _ _ => rfl
theorem State.Forces.tb (h : s.Forces u) : u.tb = s.tb := h.part State.tb fun _ _ _ _ _ _ _ _ _ _ _ _ => rfl
theorem State.Forces.snap (h : s.Forces u) : u.snap = s.snap := h.part State.snap fun _ _ _ _ _ _ _ _ _ _ _ _ => rfl

/-! ### Registers -/

/-- A field that shares no bit with an unforced one. -/
theorem State.setFld_forces (s : State) (f : RF) (v : Nat) (apart : ∀ g : RF, g.Unforced → g.Apart f) : s.Forces (s.setFld f v) :=
  ⟨fun g hg => State.fld_setFld_apart s f g v (apart g hg), _, _, _, _, _, _, _, _, _, _, _, _, rfl⟩

/-- One of the fields of records and classes. -/
theorem State.Forces.set (h : s.Forces u) (f : RF) (v : Nat) (listed : f ∈ recordFields) : s.Forces (u.setFld f v) :=
  h.trans (u.setFld_forces f v fun _ hg => hg.2 f listed)

/-- A field of a bay, of an encoder or of another window below the chip's blocks. -/
theorem State.Forces.setLow (h : s.Forces u) (f : RF) (v : Nat) (low : f.addr < 0x40000000) : s.Forces (u.setFld f v) :=
  h.trans (u.setFld_forces f v fun _ hg => .inl (Nat.ne_of_gt (low.trans_le hg.1.1)))

/-! ### Records (R381, R385, R433) -/

theorem State.trace_forces (s : State) (kind : Nat) (time w1 w2 w3 : Word) : s.Forces (s.trace kind time w1 w2 w3) := by
  have fresh : s.Forces s.fresh := ⟨fun _ _ => rfl, _, _, _, _, _, _, _, _, _, _, _, _, rfl⟩
  have queued (q : Sillage) : s.Forces { s.fresh with sil := q } := ⟨fun _ _ => rfl, _, _, _, _, _, _, _, _, _, _, _, _, rfl⟩
  unfold State.trace
  dsimp only
  split
  · split
    · exact fresh.set SILLAGE_CNT_SKIPPED _ (by decide)
    · split
      · exact (fresh.set SILLAGE_CNT_LOST _ (by decide)).set SILLAGE_IRQ_STAT_LOST 1 (by decide)
      · split
        · exact (queued _).set SILLAGE_STAT_TRIGGERED 1 (by decide)
        · exact queued _
  · exact .refl s

theorem State.CellsOnly.forces (h : s.CellsOnly u) : s.Forces u := by
  obtain ⟨m, e, rfl⟩ := h
  exact ⟨fun _ _ => rfl, _, _, _, _, _, _, _, _, _, _, _, _, rfl⟩

/-- The safe plane's memory of its records. -/
theorem State.Forces.remember (h : s.Forces u) (sq us st rg) :
    s.Forces { u with safe := { u.safe with seq := sq, usec := us, stored := st, ringGen := rg } } :=
  h.trans ⟨fun _ _ => rfl, _, _, _, _, _, _, _, _, _, _, _, _, rfl⟩

theorem State.retainEntry_forces (s : State) (ws : List Word) : s.Forces (s.retainEntry ws) := by
  unfold State.retainEntry
  dsimp only
  split
  · exact (((State.Forces.refl s).set RETAIN_CNT_FRSKIP _ (by decide)).set RETAIN_IRQ_STAT_FRSKIP 1 (by decide)).remember _ _ _ _
  · have stored := (State.retainPut_cellsOnly s (0x51002000 + 32 * s.fld RETAIN_STAT_FRPOS) ws).trans
      (State.retainPut_cellsOnly _ (0x51004800 + 8 * ((s.safe.ringGen + 1) % 16))
        [BitVec.ofNat 32 ((s.fld RETAIN_STAT_FRPOS + 1) % 256), BitVec.ofNat 32 (s.safe.ringGen + 1)])
    obtain ⟨m, e, same⟩ := stored
    rw [same]
    exact (((State.CellsOnly.forces ⟨m, e, rfl⟩).set RETAIN_STAT_FRPOS _ (by decide)).remember _ _ _ _)

/-- A word of the record window. -/
theorem State.setRecord_forces (s : State) (e : Nat) (p : Nat × Word) (he : e < 16) (hp : p.1 < 8) :
    s.Forces (s.setReg (SAFE_FREC_at e p.1) p.2) := by
  refine ⟨fun g hg => State.fld_setReg_other s g _ p.2 ?_, _, _, _, _, _, _, _, _, _, _, _, _, rfl⟩
  have outside := hg.1.2
  unfold SAFE_FREC_at
  omega

/-- The words of a record in its window. -/
theorem State.setRecords_forces (s : State) (e : Nat) (l : List (Nat × Word)) (he : e < 16) (hl : ∀ p ∈ l, p.1 < 8) :
    s.Forces (l.foldl (fun s p => s.setReg (SAFE_FREC_at e p.1) p.2) s) :=
  List.foldlRecOn (motive := fun u => s.Forces u) l _ (.refl s) fun u h p hp => h.trans (u.setRecord_forces e p he (hl p hp))

theorem State.faultEntry_forces (s : State) (kind cls source detail : Nat) : s.Forces (s.faultEntry kind cls source detail) := by
  have begun (sq us) : s.Forces { s.fresh with safe := { s.safe with seq := sq, usec := us } } :=
    ⟨fun _ _ => rfl, _, _, _, _, _, _, _, _, _, _, _, _, rfl⟩
  have words (ws : List Word) : ∀ p ∈ (List.range 8).zip ws, p.1 < 8 := fun p hp => List.mem_range.mp (List.of_mem_zip hp).1
  unfold State.faultEntry
  dsimp only
  exact (((((((begun _ _).trans (State.setRecords_forces _ _ _ (by split <;> omega) (words _))).set SAFE_FRSTAT_COUNT _ (by decide)).set
    SAFE_FRSTAT_NEWEST _ (by decide)).set SAFE_IRQ_STAT_FREC 1 (by decide)).trans (State.retainEntry_forces _ _)).trans
    (State.trace_forces _ _ _ _ _ _))

/-! ### Classes and triggers (R371, R376, R387) -/

theorem State.dropAlive_forces (s : State) : s.Forces s.dropAlive := by
  unfold State.dropAlive
  split
  · exact .refl s
  · exact ⟨fun _ _ => rfl, _, _, _, _, _, _, _, _, _, _, _, _, rfl⟩

theorem State.classNow_forces (s : State) : s.Forces s.classNow :=
  ((State.Forces.refl s).set SAFE_STAT_DEVCLASS (b2n (s.tripClass == 2)) (by decide)).trans (State.dropAlive_forces _)

theorem State.sillageTrigger_forces (s : State) : s.Forces s.sillageTrigger := by
  have queued (u : State) (q : Sillage) : u.Forces { u with sil := q } := ⟨fun _ _ => rfl, _, _, _, _, _, _, _, _, _, _, _, _, rfl⟩
  unfold State.sillageTrigger State.sillageFreeze
  split
  · exact (((State.Forces.refl s).set SILLAGE_STAT_FROZEN 1 (by decide)).set SILLAGE_IRQ_STAT_FROZEN 1 (by decide)).trans (queued _ _)
  · exact queued s _

/-! ### Outputs (R200, R203) -/

theorem State.loopBreak_forces (s : State) (n : Nat) : s.Forces (s.loopBreak n) := by
  unfold State.loopBreak
  dsimp only
  split
  · split
    · exact ⟨fun _ _ => rfl, _, _, _, _, _, _, _, _, _, _, _, _, rfl⟩
    · exact .refl s
  · exact .refl s

theorem State.setDac_forces (s : State) (n : Nat) (x : Dac) : s.Forces (s.setDac n x) :=
  ⟨fun _ _ => rfl, _, _, _, _, _, _, _, _, _, _, _, _, rfl⟩

/-- The registers of the DACs stand in the windows of the bays. -/
theorem dacRegs_low {n : Nat} (hn : n < 32) : DAC_CODE_at n < 0x40000000 ∧ DAC_STAT_at n < 0x40000000 := by
  unfold DAC_CODE_at DAC_STAT_at; omega

theorem State.dacTo_forces (s : State) {n : Nat} (hn : n < 32) (st : Nat) : s.Forces (s.dacTo n st) := by
  have entered := (s.loopBreak_forces n).setLow (DAC_STAT_STATE n) st (dacRegs_low hn).2
  unfold State.dacTo
  dsimp only
  split
  · exact entered
  · exact (entered.setLow (DAC_STAT_LIMITING n) 0 (dacRegs_low hn).2).trans (State.setDac_forces _ n _)

theorem State.dacEndHold_forces (s : State) {n : Nat} (hn : n < 32) : s.Forces (s.dacEndHold n) := by
  have code : s.Forces (s.putCode n (s.dacOf n).pendCode) := by
    unfold State.putCode
    refine State.Forces.setLow ?_ (DAC_CODE_CODE n) _ (dacRegs_low hn).1
    split
    · exact .refl s
    · exact s.loopBreak_forces n
  exact code.setLow (DAC_STAT_GAINF n) _ (dacRegs_low hn).2

theorem State.dacForce_forces (s : State) {n : Nat} (hn : n < 32) : s.Forces (s.dacForce n) := by
  unfold State.dacForce
  dsimp only
  split
  · exact s.setDac_forces n _
  split
  · exact (((s.setDac_forces n _).trans (State.dacEndHold_forces _ hn)).trans (State.dacTo_forces _ hn _)).setLow
      (DAC_STAT_CODEVALID n) 1 (dacRegs_low hn).2
  · exact (s.setDac_forces n _).trans (State.dacTo_forces _ hn _)

/-- An operation on each DAC. -/
theorem State.eachDac_forces {f : State → Nat → State} (hf : ∀ (u : State) n, n < 32 → u.Forces (f u n)) (s : State) :
    s.Forces ((List.range 32).foldl f s) :=
  List.foldlRecOn (motive := fun u => s.Forces u) _ f (.refl s) fun u h n hn => h.trans (hf u n (List.mem_range.mp hn))

theorem State.dacsForce_forces (s : State) : s.Forces ((List.range 32).foldl State.dacForce s) :=
  s.eachDac_forces fun u _ hn => u.dacForce_forces hn

theorem State.dacsOff_forces (s : State) : s.Forces s.dacsOff :=
  s.eachDac_forces fun u n hn => (u.dacTo_forces hn _).setLow (DAC_STAT_CODEVALID n) 0 (dacRegs_low hn).2

end Sys2Proof.Machine
end

section
/-! PROOFS. Snapshots, the erase commands of the retention store, and its refresh (O51). -/

namespace Sys2Proof.Machine

variable {s u t : State}

/-! ### Keyed commands -/

/-- The upper half of a register word, where a command has its key, is that of the word with lower bits set. -/
theorem key_or (v w : Word) (low : w.toNat < 2 ^ 16) : (v ||| w).toNat / 2 ^ 16 = v.toNat / 2 ^ 16 := by
  rw [BitVec.toNat_or, Nat.or_div_two_pow, Nat.div_eq_of_lt low, Nat.or_zero]

/-- A command word whose operation is put into its two lowest bits (R429). -/
theorem retainOp (v op : Word) (low : op.toNat < 4) : ((v &&& 0xFFFFFFFC) ||| op).toNat % 4 = op.toNat ∧
    ((v &&& 0xFFFFFFFC) ||| op).toNat / 2 ^ 16 = v.toNat / 2 ^ 16 := by
  have upper : (v &&& 0xFFFFFFFC).toNat / 2 ^ 16 = v.toNat / 2 ^ 16 := by
    have wide : v.toNat / 2 ^ 16 < 2 ^ 16 := by have := v.isLt; omega
    rw [BitVec.toNat_and, Nat.and_div_two_pow]
    exact (Nat.and_two_pow_sub_one_eq_mod (v.toNat / 2 ^ 16) 16).trans (Nat.mod_eq_of_lt wide)
  refine ⟨?_, (key_or _ _ (by omega)).trans upper⟩
  have none : (v &&& 0xFFFFFFFC).toNat % 2 ^ 2 = 0 := by
    rw [BitVec.toNat_and, Nat.and_mod_two_pow]
    exact Nat.and_zero _
  show _ % 2 ^ 2 = _
  rw [BitVec.toNat_or, Nat.or_mod_two_pow, none, Nat.zero_or, Nat.mod_eq_of_lt low]

theorem eraseOp (v : Word) : (v ||| 3).toNat % 4 = 3 := by
  have four : v.toNat % 2 ^ 2 < 4 := Nat.mod_lt _ (by decide)
  show _ % 2 ^ 2 = 3
  rw [BitVec.toNat_or, Nat.or_mod_two_pow]
  show v.toNat % 2 ^ 2 ||| 3 = 3
  interval_cases v.toNat % 2 ^ 2 <;> rfl

/-! ### The start of a snapshot (R428, R432) -/

/-- A stop of the engines changes the engines and the mark of the stop. -/
theorem State.stopEngines_same (s : State) : ∃ e, s.stopEngines = { s with eng := e, pwr := { s.pwr with snapStop := true } } := by
  have folded : ∃ e, s.eng.foldl (fun s p => s.setEng p.1 { s.engOf p.1 with act := none, buf := [], gload := none, cancelRd := none }) s
      = { s with eng := e } := by
    refine List.foldlRecOn (motive := fun (x : State) => ∃ e, x = { s with eng := e }) _ _ ⟨s.eng, rfl⟩ ?_
    rintro x ⟨e, rfl⟩ p -
    exact ⟨_, rfl⟩
  obtain ⟨e, h⟩ := folded
  unfold State.stopEngines
  rw [h]
  exact ⟨e, rfl⟩

/-- The headers of a snapshot's slots are zeroed, BUSY and the cause are shown, and the snapshot is in progress. -/
theorem State.snapStart_same (s : State) (cause : Nat) : ∃ t x, s.CellsOnly t ∧ x.cause = cause ∧
    s.snapStart cause = { (t.setFld RETAIN_STAT_BUSY 1).setFld RETAIN_STAT_CAUSE cause with snap := some x } := by
  unfold State.snapStart
  exact ⟨_, _, .foldl (fun _ _ => State.retainPut_cellsOnly _ _ _) _ s, rfl, rfl⟩

theorem State.snapStart_shows (s : State) (cause : Nat) : (∃ x, (s.snapStart cause).snap = some x ∧ x.cause = cause) ∧
    (s.snapStart cause).fb RETAIN_STAT_BUSY = true ∧ (s.snapStart cause).pwr = s.pwr ∧
    (s.snapStart cause).fb RETAIN_IRQ_STAT_PFW = s.fb RETAIN_IRQ_STAT_PFW := by
  obtain ⟨t, x, cells, hx, same⟩ := s.snapStart_same cause
  have regs : (s.snapStart cause).regs = ((t.setFld RETAIN_STAT_BUSY 1).setFld RETAIN_STAT_CAUSE cause).regs := by rw [same]
  have power : t.pwr = s.pwr := cells.forces.pwr
  refine ⟨⟨x, by rw [same], hx⟩, ?_, ?_, ?_⟩
  · rw [State.fb_of_regs regs, State.fb_setFld_apart _ _ _ (by decide), State.fb_setFld_one _ (by decide)]
  · rw [same]
    exact power
  · rw [State.fb_of_regs regs, State.fb_setFld_apart _ _ _ (by decide), State.fb_setFld_apart _ _ _ (by decide),
      State.fb_of_regs cells.regs]

/-! ### POWER_FAIL_WARNING (R427 to R429) -/

/-- The warning as it shows. -/
def State.warned (s : State) : State := (s.setFld RETAIN_STAT_PFW 1).setFld RETAIN_IRQ_STAT_PFW 1

theorem State.powerFail_unpowered (h : s.pwr.vdd = false) : s.powerFail = s := if_pos h

theorem State.warned_snapen : s.warned.fb RETAIN_CFG_SNAPEN = s.fb RETAIN_CFG_SNAPEN :=
  (State.fb_setFld_apart _ RETAIN_CFG_SNAPEN _ (by decide)).trans (State.fb_setFld_apart _ RETAIN_CFG_SNAPEN _ (by decide))

theorem State.powerFail_off (powered : s.pwr.vdd = true) (off : s.fb RETAIN_CFG_SNAPEN = false) : s.powerFail = s.warned := by
  unfold State.powerFail
  rw [if_neg (by simp [powered])]
  exact if_pos (State.warned_snapen.trans off)

theorem State.powerFail_starts (powered : s.pwr.vdd = true) (on : s.fb RETAIN_CFG_SNAPEN = true) (idle : s.snap = none) :
    s.powerFail = s.warned.stopEngines.snapStart 1 := by
  have idle : s.warned.snap = none := idle
  have on : ¬ s.warned.fb RETAIN_CFG_SNAPEN = false := by rw [State.warned_snapen, on]; simp
  unfold State.powerFail
  rw [if_neg (by simp [powered])]
  refine (if_neg on).trans ?_
  split
  · rfl
  · next x busy => exact absurd (busy.symm.trans idle) (Option.some_ne_none x)

/-! ### SNAP, ERASESNAP and ERASEFAULT (R429, R433, R438) -/

variable {v : Word}

/-- A command of RETAIN_CMD with its key, by its operation. -/
theorem State.retainCmd_snap (key : v.toNat / 2 ^ 16 = 0x5254) (op : v.toNat % 4 = 1) :
    s.retainCmd v = if s.snap.isSome then s.setFld RETAIN_STAT_RESULT 3 else s.snapStart 3 := by
  unfold State.retainCmd
  rw [if_neg (not_not.mpr key), op]
  rfl

/-- The headers of the first `n` slots are zeroed. -/
def State.zeroHeaders (s : State) (n : Nat) : State :=
  (List.range n).foldl (fun s i => s.retainPut (0x51004000 + 32 * i) [0, 0, 0, 0, 0, 0, 0, 0]) s

theorem State.retainCmd_erasesnap (key : v.toNat / 2 ^ 16 = 0x5254) (op : v.toNat % 4 = 2) :
    s.retainCmd v = (s.zeroHeaders 64).setReg RETAIN_SNAPLAST_at 0 := by
  unfold State.retainCmd
  rw [if_neg (not_not.mpr key), op]
  rfl

/-- Zeros stored as words read back as zeros, byte by byte. -/
theorem State.retainPut_zeros (s : State) (a n x : Nat) (lo : a ≤ x) (hi : x < a + 4 * n) :
    (s.retainPut a (List.replicate n 0)).byte x = 0 := by
  induction n generalizing s a with
  | zero => omega
  | succ n ih =>
    show ((s.retainWrite a 4 (0 : Word).toNat).retainPut (a + 4) (List.replicate n 0)).byte x = 0
    by_cases first : x < a + 4
    · obtain ⟨i, rfl⟩ := Nat.exists_eq_add_of_le lo
      have stored : (s.retainWrite a 4 (0 : Word).toNat).byte (a + i) = 0 :=
        (State.byte_store_same s a 4 0 i (by omega)).trans (by rw [Nat.zero_div]; rfl)
      exact (State.retainPut_byte_other _ _ _ (.inl (by omega))).trans stored
    · exact ih _ _ (by omega) (by omega)

theorem State.zeroHeaders_byte (s : State) (n x : Nat) : (s.zeroHeaders n).byte x =
    if 0x51004000 ≤ x ∧ x < 0x51004000 + 32 * n then 0 else s.byte x := by
  induction n with
  | zero => rw [if_neg (by omega)]; rfl
  | succ n ih =>
    have next : s.zeroHeaders (n + 1) = (s.zeroHeaders n).retainPut (0x51004000 + 32 * n) (List.replicate 8 0) := by
      unfold State.zeroHeaders
      rw [List.range_succ, List.foldl_append]
      rfl
    rw [next]
    by_cases here : 0x51004000 + 32 * n ≤ x ∧ x < 0x51004000 + 32 * n + 32
    · rw [State.retainPut_zeros _ _ _ _ here.1 here.2, if_pos (by omega)]
    · rw [State.retainPut_byte_other _ _ _ (by show x < _ ∨ _ + 4 * 8 ≤ x; omega), ih]
      exact if_congr (by omega) rfl rfl

/-- Whether an address lies in the fault area or in its pointer ring (R433). -/
def faultArea (a : Nat) : Bool := decide (0x51002000 ≤ a ∧ a < 0x51004000) || decide (0x51004800 ≤ a ∧ a < 0x51004880)

theorem faultArea_iff (a : Nat) : faultArea a = true ↔ (0x51002000 ≤ a ∧ a < 0x51004000) ∨ (0x51004800 ≤ a ∧ a < 0x51004880) := by
  unfold faultArea
  rw [Bool.or_eq_true, decide_eq_true_eq, decide_eq_true_eq]

theorem State.retainCmd_erasefault (key : v.toNat / 2 ^ 16 = 0x5254) (op : v.toNat % 4 = 3)
    (may : s.fld CFG_LC_STATE = 0 ∨ s.fld CFG_LC_STATE = 1 ∨ s.fld CFG_LC_STATE = 3) : s.retainCmd v = { s.setFld RETAIN_STAT_FRPOS 0 with
      mem := s.mem.filter (fun p => !faultArea p.1), ecc := s.ecc.filter (fun p => !faultArea (4 * p.1)) } := by
  unfold State.retainCmd
  rw [if_neg (not_not.mpr key), op]
  exact if_pos may

theorem State.retainCmd_erasefault_not (key : v.toNat / 2 ^ 16 = 0x5254) (op : v.toNat % 4 = 3)
    (may : ¬ (s.fld CFG_LC_STATE = 0 ∨ s.fld CFG_LC_STATE = 1 ∨ s.fld CFG_LC_STATE = 3)) : s.retainCmd v = s := by
  unfold State.retainCmd
  rw [if_neg (not_not.mpr key), op]
  exact if_neg may

/-! ### SNAPSHOT_DONE (R379, R428, R432) -/

/-- Reading the span of a snapshot changes what memories hold alone. -/
theorem State.spanWords_memoryOnly (s : State) (src : Word) : s.MemoryOnly (s.spanWords src).1 := by
  unfold State.spanWords
  refine List.foldlRecOn (motive := fun (acc : State × List Word × Bool) => s.MemoryOnly acc.1) _ _ (.refl s) fun acc h i _ => ?_
  have step := h.trans ((State.touch_memoryOnly (bits src.toNat 31 28 * 0x40000 + 0x10000000 + bits src.toNat 17 3 * 8 + 4 * i)).trans
    (State.readWord_memoryOnly (bits src.toNat 31 28 * 0x40000 + 0x10000000 + bits src.toNat 17 3 * 8 + 4 * i)))
  rw [Nat.add_comm (_ * 0x40000)] at step
  generalize (acc.1.touch _).readWord _ = r at step ⊢
  exact step

theorem State.snapPut_cellsOnly (s : State) (slot : Nat) (ws : List Word) : s.CellsOnly (s.snapPut slot ws) :=
  .foldl (fun _ _ => State.retainPut_cellsOnly _ _ _) _ s

/-- What the registers show of a snapshot that is written. -/
def State.snapShown (s : State) (slot : Nat) : State :=
  (((((s.setFld RETAIN_SNAPLAST_VALID 1).setFld RETAIN_SNAPLAST_SLOT slot).addSat RETAIN_CNT_SNAPS 1).setFld
    RETAIN_IRQ_STAT_SNAPDONE 1).setFld RETAIN_STAT_RESULT 1).setFld RETAIN_STAT_BUSY 0

theorem State.snapWrite_eq (s : State) (x : Snapshot) : ∃ t, s.MemoryOnly t ∧ s.snapWrite x = t.snapShown x.slot := by
  have read := s.spanWords_memoryOnly x.src
  unfold State.snapWrite
  generalize s.spanWords x.src = r at read ⊢
  obtain ⟨t, ws, bad⟩ := r
  obtain ⟨m, e, same⟩ := (t.snapPut_cellsOnly x.slot ws).trans (State.retainPut_cellsOnly _ (0x51004000 + 32 * x.slot) (s.snapHead x ws bad))
  exact ⟨_, read.trans (same ▸ ⟨_, _, _, _, _, rfl⟩), rfl⟩

@[simp] theorem State.snapShown_pwr (slot : Nat) : (s.snapShown slot).pwr = s.pwr := by
  unfold State.snapShown State.addSat
  simp only [State.setFld_pwr]

@[simp] theorem State.snapShown_safe (slot : Nat) : (s.snapShown slot).safe = s.safe := by
  unfold State.snapShown State.addSat
  simp only [State.setFld_safe]

/-- What a snapshot that has ended shows (R428, R432). -/
structure State.SnapShows (u : State) (slot : Nat) : Prop where
  valid : u.fb RETAIN_SNAPLAST_VALID = true
  slot : u.fld RETAIN_SNAPLAST_SLOT = slot
  result : u.fld RETAIN_STAT_RESULT = 1
  busy : u.fb RETAIN_STAT_BUSY = false
  cause : u.fb RETAIN_IRQ_STAT_SNAPDONE = true

/-- The fields that show a snapshot's end. -/
def snapFields : List RF := [RETAIN_SNAPLAST_VALID, RETAIN_SNAPLAST_SLOT, RETAIN_STAT_RESULT, RETAIN_STAT_BUSY, RETAIN_IRQ_STAT_SNAPDONE]

theorem State.SnapShows.keep {slot : Nat} (h : s.SnapShows slot) (same : ∀ g ∈ snapFields, u.fld g = s.fld g) : u.SnapShows slot where
  valid := (congrArg (· != 0) (same _ (by decide))).trans h.valid
  slot := (same _ (by decide)).trans h.slot
  result := (same _ (by decide)).trans h.result
  busy := (congrArg (· != 0) (same _ (by decide))).trans h.busy
  cause := (congrArg (· != 0) (same _ (by decide))).trans h.cause

theorem State.snapShown_shows {slot : Nat} (fits : slot < 64) : (s.snapShown slot).SnapShows slot := by
  unfold State.snapShown State.addSat
  constructor
  · simp (disch := decide) only [State.fb_setFld_apart, State.fb_setFld_one]
  · simp (disch := decide) only [State.fld_setFld_apart]
    exact State.fld_setFld_fits (by decide) fits
  · simp (disch := decide) only [State.fld_setFld_apart, State.fld_setFld_fits]
  · exact State.fb_setFld_zero _ (by decide)
  · simp (disch := decide) only [State.fb_setFld_apart, State.fb_setFld_one]

/-- Comparators are cleared in the windows of the bays (R195). -/
theorem State.cmpsClear_fld (s : State) {g : RF} (chip : 0x40000000 ≤ g.addr) : s.cmpsClear.fld g = s.fld g := by
  have low (n : Nat) (hn : n < 64) : CMP_STAT_at (n / 4) (n % 4) < 0x40000000 := by unfold CMP_STAT_at; omega
  have winLow (n : Nat) (hn : n < 32) : CMP_WIN_STAT_at (n / 2) (n % 2) < 0x40000000 := by unfold CMP_WIN_STAT_at; omega
  unfold State.cmpsClear
  refine List.foldlRecOn (motive := fun (x : State) => x.fld g = s.fld g) _ _ ?_ fun x h n hn => ?_
  · refine List.foldlRecOn (motive := fun (x : State) => x.fld g = s.fld g) _ _ rfl fun x h n hn => ?_
    exact (State.fld_setReg_other _ _ _ _ (Nat.ne_of_gt ((low n (List.mem_range.mp hn)).trans_le chip))).trans h
  · have apart : g.addr ≠ CMP_WIN_STAT_at (n / 2) (n % 2) := Nat.ne_of_gt ((winLow n (List.mem_range.mp hn)).trans_le chip)
    exact (State.fld_setFld_other _ _ _ _ apart).trans ((State.fld_setFld_other _ _ _ _ apart).trans h)

/-- A hold in reset changes no unforced field but the locks and the image of SILLAGE_STAT (R379). -/
theorem State.internalHold_fld (s : State) {g : RF} (hg : g.Unforced) (lock : g.Apart CLK_STAT_LOCK) (prev : g.addr ≠ SILLAGE_PREV_at) :
    s.internalHold.fld g = s.fld g := by
  have off := (State.dacsOff_forces (s.setFld CLK_STAT_LOCK 0).keepSillage.cmpsClear).fld g hg
  have cleared := (s.setFld CLK_STAT_LOCK 0).keepSillage.cmpsClear_fld hg.1.1
  have regs : s.internalHold.regs = ((s.setFld CLK_STAT_LOCK 0).keepSillage.cmpsClear.dacsOff).regs := rfl
  rw [State.fld_of_regs regs]
  exact off.trans (cleared.trans ((State.fld_setReg_other _ _ _ _ prev).trans (State.fld_setFld_apart _ _ _ _ lock)))

theorem State.wdResetHold_fld (s : State) {g : RF} (hg : g.Unforced) (lock : g.Apart CLK_STAT_LOCK) (prev : g.addr ≠ SILLAGE_PREV_at)
    (cause : g.Apart SAFE_RSTCAUSE_CAUSE) : s.wdResetHold.fld g = s.fld g :=
  (State.internalHold_fld _ hg lock prev).trans ((State.fld_setFld_apart _ _ _ _ cause).trans ((s.faultEntry_forces 3 0 0 0).fld g hg))

theorem State.wdResetHold_held (s : State) : s.wdResetHold.pwr.held = true := rfl

theorem State.dacsOff_snap (s : State) : s.dacsOff.snap = s.snap := s.dacsOff_forces.snap

theorem State.cmpsClear_same (s : State) : ∃ r, s.cmpsClear = { s with cmp := [], clearq := [], regs := r } := by
  unfold State.cmpsClear
  refine List.foldlRecOn (motive := fun (x : State) => ∃ r, x = { s with cmp := [], clearq := [], regs := r }) _ _ ?_ ?_
  · refine List.foldlRecOn (motive := fun (x : State) => ∃ r, x = { s with cmp := [], clearq := [], regs := r }) _ _ ⟨s.regs, rfl⟩ ?_
    rintro x ⟨r, rfl⟩ n -
    exact ⟨_, rfl⟩
  · rintro x ⟨r, rfl⟩ n -
    exact ⟨_, rfl⟩

theorem State.wdResetHold_snap (s : State) : s.wdResetHold.snap = s.snap := by
  obtain ⟨r, same⟩ := ((((s.faultEntry 3 0 0 0).setFld SAFE_RSTCAUSE_CAUSE 3).setFld CLK_STAT_LOCK 0).keepSillage).cmpsClear_same
  unfold State.wdResetHold State.internalHold
  dsimp only
  rw [State.dacsOff_snap, same]
  exact (s.faultEntry_forces 3 0 0 0).snap

/-- The state as the end of a snapshot leaves it, before a watchdog reset that waits for it goes on. -/
def State.snapEnded (s : State) (x : Snapshot) : State := { s.snapWrite x with snap := none }

theorem State.snapDone_waits {x : Snapshot} (some : s.snap = some x) (command : x.cause = 3)
    (stands : s.sectRuns (bits x.src.toNat 31 28) = false) : s.snapDone = s := by
  unfold State.snapDone
  rw [some]
  exact if_pos ⟨command, stands⟩

theorem State.snapDone_ends {x : Snapshot} (some : s.snap = some x) (runs : x.cause = 3 → s.sectRuns (bits x.src.toNat 31 28) = true) :
    s.snapDone = if (s.snapEnded x).safe.wdReset && !(s.snapEnded x).pwr.held then (s.snapEnded x).wdResetHold else s.snapEnded x := by
  unfold State.snapDone
  rw [some]
  exact if_neg fun h => Bool.false_ne_true (h.2.symm.trans (runs h.1))

theorem State.snapEnded_shows {x : Snapshot} (fits : x.slot < 64) : (s.snapEnded x).SnapShows x.slot ∧ (s.snapEnded x).pwr = s.pwr ∧
    (s.snapEnded x).safe = s.safe := by
  obtain ⟨t, read, written⟩ := s.snapWrite_eq x
  have regs : (s.snapEnded x).regs = (t.snapShown x.slot).regs := by simp only [State.snapEnded, written]
  have power : (s.snapEnded x).pwr = t.pwr := by simp only [State.snapEnded, written, State.snapShown_pwr]
  have safe : (s.snapEnded x).safe = t.safe := by simp only [State.snapEnded, written, State.snapShown_safe]
  have kept : t.pwr = s.pwr ∧ t.safe = s.safe := by
    clear regs power safe written
    obtain ⟨r, m, e, q, i, rfl⟩ := read
    exact ⟨rfl, rfl⟩
  exact ⟨(State.snapShown_shows fits).keep fun g _ => State.fld_of_regs regs g, power.trans kept.1, safe.trans kept.2⟩

/-- The end of a snapshot clears it and shows it, and goes on with the watchdog reset that has waited for it (R379, R432). -/
theorem State.snapDone_shows {x : Snapshot} (some : s.snap = some x)
    (runs : x.cause = 3 → s.sectRuns (bits x.src.toNat 31 28) = true) (fits : x.slot < 64) : s.snapDone.SnapShows x.slot ∧
    s.snapDone.snap = none ∧ (s.safe.wdReset = true → s.snapDone.pwr.held = true) ∧
    (s.safe.wdReset = false → s.snapDone.pwr.held = s.pwr.held) := by
  obtain ⟨shown, power, safe⟩ := s.snapEnded_shows fits
  have held : (s.snapEnded x).pwr.held = s.pwr.held := congrArg Power.held power
  have ends := State.snapDone_ends some runs
  by_cases goesOn : s.safe.wdReset = true ∧ s.pwr.held = false
  · rw [if_pos (by rw [safe, held, goesOn.1, goesOn.2]; rfl)] at ends
    rw [ends, goesOn.1]
    refine ⟨shown.keep fun g hg => ?_, State.wdResetHold_snap _, fun _ => State.wdResetHold_held _, fun h => absurd h.symm Bool.false_ne_true⟩
    have plain : ∀ g ∈ snapFields, g.Unforced ∧ g.Apart CLK_STAT_LOCK ∧ g.addr ≠ SILLAGE_PREV_at ∧ g.Apart SAFE_RSTCAUSE_CAUSE := by decide
    obtain ⟨unforced, lock, prev, cause⟩ := plain g hg
    exact State.wdResetHold_fld _ unforced lock prev cause
  · rw [if_neg (by rw [safe, held]; simpa using goesOn)] at ends
    rw [ends, held]
    exact ⟨shown, rfl, fun waits => Bool.not_eq_false _ ▸ fun awake => goesOn ⟨waits, awake⟩, fun _ => rfl⟩

/-! ### MRAM_REFRESH (R434) -/

theorem State.mramRefresh_off (h : s.snap ≠ none ∨ s.awake = false ∨ s.pwr.held = true) : s.mramRefresh = s := by
  refine if_pos ?_
  rcases h with busy | asleep | held
  · exact .inr (.inl (Option.isSome_iff_ne_none.mpr busy))
  · exact .inr (.inr (.inl asleep))
  · exact .inr (.inr (.inr held))

theorem State.retainRead_mem (s : State) (a size : Nat) : (s.retainRead a size).1.mem = s.mem ∧ (s.retainRead a size).1.ist = s.ist := by
  unfold State.retainRead
  dsimp only
  split <;> exact ⟨rfl, rfl⟩

theorem State.mramRefresh_visits (on : s.fb RETAIN_CFG_AUTOREF = true) (idle : s.snap = none) (awake : s.awake = true)
    (runs : s.pwr.held = false) : s.mramRefresh.ist.page = (s.ist.page + 1) % 128 ∧ s.mramRefresh.mem = s.mem := by
  unfold State.mramRefresh
  rw [if_neg (by simp [on, idle, awake, runs])]
  refine ⟨rfl, ?_⟩
  refine List.foldlRecOn (motive := fun (x : State) => x.mem = s.mem) _ _ rfl fun x h e _ => ?_
  dsimp only
  split
  · exact ((x.retainRead_mem _ _).1).trans h
  · exact ((x.retainRead_mem _ _).1).trans h

/-- Settles O51: the warning and SNAP by whether a snapshot is in progress, its end by what waits for it, each erasure by its area. -/
theorem snapshotsAreTakenAndErased : Obligations.SnapshotsAreTakenAndErased := by
  intro s key lc inside
  refine ⟨fun off => congrArg (done s) (State.powerFail_unpowered off), fun on off => congrArg (done s) (State.powerFail_off on off),
    fun powered on idle => ?warns, fun v hv idle => ?snaps, fun v x hv busy => ?refused,
    fun x busy command stands => congrArg (done s) (State.snapDone_waits busy command stands), fun x busy runs fits => ?ends,
    fun v hv => ?erasesnap, fun v hv may => ?erasefault, fun v hv may => ?kept, fun on idle awake runs => ?refresh,
    fun h => congrArg (done s) (State.mramRefresh_off h)⟩
  case warns =>
    obtain ⟨e, stopped⟩ := s.warned.stopEngines_same
    have regs : s.warned.stopEngines.regs = s.warned.regs := by rw [stopped]
    have stop : s.warned.stopEngines.pwr.snapStop = true := by rw [stopped]
    obtain ⟨⟨x, hx, cause⟩, busy, power, pfw⟩ := s.warned.stopEngines.snapStart_shows 1
    refine ⟨_, x, congrArg (done s) (State.powerFail_starts powered on idle), ?_, cause, ?_, ?_, ?_⟩
    · rw [settle_snap, hx]
    · rw [settle_pwr, power, stop]
    · rw [settle_fb, busy]
    · rw [settle_fb, pfw, State.fb_of_regs regs]
      exact State.fb_setFld_one _ (by decide)
  case snaps =>
    obtain ⟨op, upper⟩ := retainOp v 1 (by decide)
    obtain ⟨⟨x, hx, cause⟩, busy, -⟩ := s.snapStart_shows 3
    refine ⟨_, x, congrArg (done s) ((State.retainCmd_snap (upper.trans hv) op).trans (if_neg (by simp [idle]))), ?_, cause, ?_⟩
    · rw [settle_snap, hx]
    · rw [settle_fb, busy]
  case refused =>
    obtain ⟨op, upper⟩ := retainOp v 1 (by decide)
    exact congrArg (done s) ((State.retainCmd_snap (upper.trans hv) op).trans (if_pos (by simp [busy])))
  case ends =>
    obtain ⟨⟨valid, slot, result, idle, cause⟩, none, waited, unwaited⟩ := State.snapDone_shows busy runs fits
    refine ⟨_, rfl, ?_⟩
    rw [settle_snap, settle_fb, settle_fld, settle_fld, settle_fb, settle_fb, settle_pwr]
    exact ⟨none, valid, slot, result, idle, cause, waited, unwaited⟩
  case erasesnap =>
    obtain ⟨op, upper⟩ := retainOp v 2 (by decide)
    refine ⟨_, congrArg (done s) (State.retainCmd_erasesnap (upper.trans hv) op), fun x lo hi => ?_, fun x out => ?_, ?_⟩
    · rw [settle_byte, State.byte_of_mem (State.setReg_mem _ _ _), State.zeroHeaders_byte, if_pos ⟨lo, hi⟩]
    · rw [settle_byte, State.byte_of_mem (State.setReg_mem _ _ _), State.zeroHeaders_byte, if_neg (by omega)]
    · rw [settle_reg, State.reg_setReg_same]
  case erasefault =>
    refine ⟨_, congrArg (done s) (State.retainCmd_erasefault ((key_or v 3 (by decide)).trans hv) (eraseOp v) may), fun x hx => ?_, fun x hx => ?_, ?_⟩
    · rw [settle_byte]
      exact (tget_filter 0 s.mem (fun a => !faultArea a) x).trans (if_neg (by rw [(faultArea_iff x).mpr hx]; simp))
    · rw [settle_byte]
      exact (tget_filter 0 s.mem (fun a => !faultArea a) x).trans (if_pos (by rw [Bool.eq_false_iff.mpr fun h => hx ((faultArea_iff x).mp h)]; rfl))
    · rw [settle_fld]
      exact State.fld_setFld_fits (f := RETAIN_STAT_FRPOS) (by decide) (by decide)
  case kept =>
    exact congrArg (done s) (State.retainCmd_erasefault_not ((key_or v 3 (by decide)).trans hv) (eraseOp v) may)
  case refresh =>
    obtain ⟨page, mem⟩ := State.mramRefresh_visits on idle awake runs
    exact ⟨_, rfl, (congrArg Ist.page (settle_ist s _)).trans page, fun x => (settle_byte s _ x).trans (State.byte_of_mem mem x)⟩

end Sys2Proof.Machine
end

section
/-! PROOFS. The trip edge, sources that arise, and what a trip leaves (R371 to R374). -/

namespace Sys2Proof.Machine

variable {s u t : State} {m : Nat}

/-! ### What a trip shows -/

/-- A trip with the given causes is in force and shown, and the pads are at their safe levels. -/
def State.ShowsTrip (u : State) (m : Nat) : Prop :=
  u.fb SAFE_STAT_TRIPPED = true ∧ u.fb SAFE_IRQ_STAT_TRIP = true ∧ u.fld SAFE_CAUSE_CAUSE = m ∧ u.pins.tripped = true

theorem State.Forces.showsTrip (h : s.Forces u) (shown : s.ShowsTrip m) : u.ShowsTrip m := by
  obtain ⟨trip, irq, cause, pads⟩ := shown
  exact ⟨(h.fb _ (by decide)).trans trip, (h.fb _ (by decide)).trans irq, (h.fld _ (by decide)).trans cause,
    (congrArg Pins.tripped h.pins).trans pads⟩

/-- The trip edge before the causes join: pads and pad switches are forced. -/
def State.tripOpen (s : State) : State :=
  ((s.pinsTrip.tripSwitches.setFld SAFE_STAT_TRIPPED 1).setFld SAFE_CAUSE_CAUSE 0).setFld SAFE_IRQ_STAT_TRIP 1

theorem State.tripSwitches_forces (s : State) : s.Forces s.tripSwitches :=
  List.foldlRecOn (motive := fun u => s.Forces u) _ _ (.refl s) fun _ h k hk =>
    h.setLow (BAY_STATUS_TRIPOPEN k) 1 (by have := List.mem_range.mp hk; show BAY_STATUS_at k < _; unfold BAY_STATUS_at; omega)

theorem State.joinTrip_forces (s : State) (m : Nat) :
    (s.setFld SAFE_CAUSE_CAUSE (s.fld SAFE_CAUSE_CAUSE ||| m)).Forces (s.joinTrip m) :=
  (State.classNow_forces _).trans (State.faultEntry_forces _ _ _ _ _)

/-- Behind the joining of the causes a trip edge changes only what is forced. -/
theorem State.tripNow_forces (s : State) (m : Nat) :
    (s.tripOpen.setFld SAFE_CAUSE_CAUSE (s.tripOpen.fld SAFE_CAUSE_CAUSE ||| m)).Forces (s.tripNow m) := by
  have forced := (s.tripOpen.joinTrip_forces m).trans (State.dacsForce_forces _)
  unfold State.tripNow
  dsimp only
  split
  · exact (forced.set SILLAGE_STAT_TRIGGERED 1 (by decide)).trans (State.sillageTrigger_forces _)
  · exact forced

theorem State.tripOpen_cause (s : State) : s.tripOpen.fld SAFE_CAUSE_CAUSE = 0 := by
  unfold State.tripOpen
  simp (disch := decide) only [State.fld_setFld_apart, State.fld_setFld_fits]

theorem State.pinsTrip_tripped (s : State) : s.pinsTrip.pins.tripped = true := rfl

theorem State.tripOpen_pads (s : State) : s.tripOpen.pins.tripped = true := by
  have pads : s.tripOpen.pins = s.pinsTrip.tripSwitches.pins := by
    unfold State.tripOpen
    rw [State.setFld_pins, State.setFld_pins, State.setFld_pins]
  rw [pads, s.pinsTrip.tripSwitches_forces.pins, State.pinsTrip_tripped]

theorem State.tripOpen_shows (s : State) : s.tripOpen.fb SAFE_STAT_TRIPPED = true ∧ s.tripOpen.fb SAFE_IRQ_STAT_TRIP = true := by
  unfold State.tripOpen
  simp (disch := decide) only [State.fb_setFld_apart, State.fb_setFld_one, and_self]

theorem State.tripNow_shows (s : State) (fits : m < 2 ^ 14) : (s.tripNow m).ShowsTrip m := by
  refine (s.tripNow_forces m).showsTrip ⟨?_, ?_, ?_, ?_⟩
  · rw [State.fb_setFld_apart _ _ _ (by decide), s.tripOpen_shows.1]
  · rw [State.fb_setFld_apart _ _ _ (by decide), s.tripOpen_shows.2]
  · rw [State.tripOpen_cause, Nat.zero_or, State.fld_setFld_fits (by decide) fits]
  · rw [State.setFld_pins, s.tripOpen_pads]

/-! ### Sources that arise (R371, R373) -/

/-- No trip and no handover is in force, and none is configured. -/
def State.Calm (s : State) : Prop :=
  s.fb SAFE_STAT_TRIPPED = false ∧ s.fb SAFE_CFG_HANDOVER = false ∧ s.fb SAFE_STAT_HANDOVER = false

theorem State.raiseTrip_calm (calm : s.Calm) (arises : m &&& (s.fld SAFE_SRCEN_EN ||| 0x2000) ≠ 0) :
    s.raiseTrip m = s.tripNow (m &&& (s.fld SAFE_SRCEN_EN ||| 0x2000)) := by
  obtain ⟨untripped, unset, none⟩ := calm
  unfold State.raiseTrip State.raiseWith State.tripped
  dsimp only
  rw [untripped, if_neg Bool.false_ne_true, if_neg arises, unset, none, if_neg (by simp), if_neg Bool.false_ne_true]
  rfl

/-- An enabled source that arises trips with that source alone. -/
theorem State.raiseTrip_shows {i : Nat} (calm : s.Calm) (hi : i < 14) (on : s.fbit SAFE_SRCEN_EN i = true) (hm : m = 2 ^ i) :
    (s.raiseTrip m).ShowsTrip (2 ^ i) := by
  subst hm
  have alone : 2 ^ i &&& (s.fld SAFE_SRCEN_EN ||| 0x2000) = 2 ^ i := by
    have set : (s.fld SAFE_SRCEN_EN ||| 0x2000).testBit i = true := by
      rw [Nat.testBit_or, show (s.fld SAFE_SRCEN_EN).testBit i = true from on, Bool.true_or]
    rw [Nat.two_pow_and, set, Bool.toNat_true, Nat.mul_one]
  rw [State.raiseTrip_calm calm (by rw [alone]; exact (Nat.two_pow_pos i).ne'), alone]
  exact State.tripNow_shows s (Nat.pow_lt_pow_right (by decide) hi)

/-- A register change that leaves SAFE_STAT's TRIPPED and HANDOVER, SAFE_CFG and SAFE_SRCEN. -/
theorem State.putBit_active (s : State) (i : Nat) (b : Bool) (f : RF) (apart : f.Apart SAFE_STAT_ACTIVE) :
    (s.putBit SAFE_STAT_ACTIVE i b).fld f = s.fld f := by
  cases b with
  | true => exact State.fld_setFld_apart s SAFE_STAT_ACTIVE f _ apart
  | false => exact State.fld_setFld_apart s SAFE_STAT_ACTIVE f _ apart

theorem State.Calm.active (calm : s.Calm) (i : Nat) (b : Bool) : (s.putBit SAFE_STAT_ACTIVE i b).Calm := by
  have kept (f : RF) (apart : f.Apart SAFE_STAT_ACTIVE) : (s.putBit SAFE_STAT_ACTIVE i b).fb f = s.fb f := by
    unfold State.fb; rw [s.putBit_active i b f apart]
  exact ⟨(kept _ (by decide)).trans calm.1, (kept _ (by decide)).trans calm.2.1, (kept _ (by decide)).trans calm.2.2⟩

theorem State.Calm.of_regs (calm : s.Calm) (h : u.regs = s.regs) : u.Calm := by
  obtain ⟨untripped, unset, none⟩ := calm
  exact ⟨(State.fb_of_regs h _).trans untripped, (State.fb_of_regs h _).trans unset, (State.fb_of_regs h _).trans none⟩

/-- An enabled source trips as it becomes active. -/
theorem State.active_shows {i : Nat} (calm : s.Calm) (hi : i < 14) (on : s.fbit SAFE_SRCEN_EN i = true)
    (regs : u.regs = (s.putBit SAFE_STAT_ACTIVE i true).regs) (hm : m = 2 ^ i) : (u.raiseTrip m).ShowsTrip (2 ^ i) := by
  refine State.raiseTrip_shows ((calm.active i true).of_regs regs) hi ?_ hm
  unfold State.fbit
  rw [State.fld_of_regs regs, s.putBit_active i true SAFE_SRCEN_EN (by decide)]
  exact on

theorem State.level_shows {i : Nat} (calm : s.Calm) (hi : i < 14) (on : s.fbit SAFE_SRCEN_EN i = true) :
    (s.level i true).ShowsTrip (2 ^ i) := State.active_shows calm hi on rfl rfl

/-! ### What a source that arises leaves -/

/-- The fields that the trip edge and a handover write beside those of records and classes. -/
def tripFields : List RF := [SAFE_STAT_TRIPPED, SAFE_CAUSE_CAUSE, SAFE_IRQ_STAT_TRIP, SAFE_STAT_HANDOVER]

/-- A field of the chip's blocks that no source writes as it arises. -/
abbrev RF.Unraised (g : RF) : Prop := g.Unforced ∧ ∀ f ∈ tripFields, g.Apart f

/-- What arising sources change: no unraised field, and of the other parts what records and classes change, the pads, the pair's
deposing and the causes that wait for a handover. -/
structure State.Arises (s u : State) : Prop where
  fld : ∀ g : RF, g.Unraised → u.fld g = s.fld g
  same : ∃ r m e q n d p b y, u = { s with
    regs := r, mem := m, ecc := e, sil := q, freeCtr := n, dac := d, pair := p, ist := { s.ist with bay := b }, safe := y
    pins := u.pins }

theorem State.Forces.arises (h : s.Forces u) : s.Arises u := by
  refine ⟨fun g hg => h.fld g hg.1, ?_⟩
  obtain ⟨_, _, _, _, _, _, _, _, _, _, _, _, rfl⟩ := h.same
  exact ⟨_, _, _, _, _, _, _, _, _, rfl⟩

theorem State.Arises.trans (h : s.Arises u) (g : u.Arises t) : s.Arises t := by
  refine ⟨fun f hf => (g.fld f hf).trans (h.fld f hf), ?_⟩
  obtain ⟨_, _, _, _, _, _, _, _, _, hu⟩ := h.same
  obtain ⟨_, _, _, _, _, _, _, _, _, ht⟩ := g.same
  rw [hu] at ht
  exact ⟨_, _, _, _, _, _, _, _, _, ht⟩

theorem State.Arises.set (h : s.Arises u) (f : RF) (v : Nat) (listed : f ∈ tripFields) : s.Arises (u.setFld f v) :=
  h.trans ⟨fun g hg => State.fld_setFld_apart u f g v (hg.2 f listed), _, _, _, _, _, _, _, _, _, rfl⟩

/-- The safe plane's memory, and the pair's. -/
theorem State.Arises.keep (h : s.Arises u) (p : Pair) (y : Safe) : s.Arises { u with pair := p, safe := y } :=
  h.trans ⟨fun _ _ => rfl, _, _, _, _, _, _, _, _, _, rfl⟩

theorem State.joinTrip_arises (s : State) (m : Nat) : s.Arises (s.joinTrip m) :=
  (((State.Forces.refl s).arises).set SAFE_CAUSE_CAUSE _ (by decide)).trans (s.joinTrip_forces m).arises

theorem State.tripNow_arises (s : State) (m : Nat) : s.Arises (s.tripNow m) := by
  have pads : s.Arises s.pinsTrip := ⟨fun _ _ => rfl, _, _, _, _, _, _, _, _, _, rfl⟩
  exact (((((pads.trans s.pinsTrip.tripSwitches_forces.arises).set SAFE_STAT_TRIPPED 1 (by decide)).set SAFE_CAUSE_CAUSE 0 (by decide)).set
    SAFE_IRQ_STAT_TRIP 1 (by decide)).set SAFE_CAUSE_CAUSE _ (by decide)).trans (s.tripNow_forces m).arises

theorem State.deposed_arises (s : State) : s.Arises s.deposed := by
  unfold State.deposed
  split
  · exact (State.Forces.refl s).arises.keep _ _
  · exact (State.Forces.refl s).arises

theorem State.raiseWith_arises (s : State) (m : Nat) {entry : State → State} (he : ∀ x : State, x.Forces (entry x)) :
    s.Arises (s.raiseWith m entry) := by
  have same := (State.Forces.refl s).arises
  have then_ (x : State) (h : s.Arises x) : s.Arises (entry x) := h.trans (he x).arises
  unfold State.raiseWith
  dsimp only
  split
  · refine then_ _ ?_
    split
    · exact s.classNow_forces.arises
    · exact s.joinTrip_arises _
  split
  · exact then_ _ same
  split
  · refine State.Arises.trans (then_ _ ?_) (State.faultEntry_forces _ _ _ _ _).arises
    exact (((same.set SAFE_STAT_HANDOVER 1 (by decide)).keep _ _).keep _ _).trans (State.deposed_arises _)
  split
  · refine then_ _ ?_
    split
    · exact same.keep _ _
    · exact s.tripNow_arises _
  · exact then_ _ (s.tripNow_arises _)

theorem State.raiseTrip_arises (s : State) (m : Nat) : s.Arises (s.raiseTrip m) := s.raiseWith_arises m fun x => .refl x

theorem State.Arises.lc (h : s.Arises u) : u.lc = s.lc := by obtain ⟨_, _, _, _, _, _, _, _, _, hu⟩ := h.same; rw [hu]
theorem State.Arises.wipe (h : s.Arises u) : u.wipe = s.wipe := by obtain ⟨_, _, _, _, _, _, _, _, _, hu⟩ := h.same; rw [hu]
theorem State.Arises.pwr (h : s.Arises u) : u.pwr = s.pwr := by obtain ⟨_, _, _, _, _, _, _, _, _, hu⟩ := h.same; rw [hu]
theorem State.Arises.loader (h : s.Arises u) : u.loader = s.loader := by obtain ⟨_, _, _, _, _, _, _, _, _, hu⟩ := h.same; rw [hu]

theorem State.Arises.fb (h : s.Arises u) (g : RF) (hg : g.Unraised) : u.fb g = s.fb g := by
  unfold State.fb; rw [h.fld g hg]

end Sys2Proof.Machine
end

section
/-! PROOFS. Sources, releases, watchdogs and tamper events of the safe plane (O49). -/

namespace Sys2Proof.Machine

variable {s u t : State} {m : Nat}

/-- A command that ends in a shown trip. -/
theorem done_shows (shown : u.ShowsTrip m) : ∃ x, done s u = .next x ∧ x.fb SAFE_STAT_TRIPPED = true ∧ x.fb SAFE_IRQ_STAT_TRIP = true ∧
    x.fld SAFE_CAUSE_CAUSE = m ∧ x.pins.tripped = true := by
  refine ⟨settle s u, rfl, ?_⟩
  rw [settle_fb, settle_fb, settle_fld, settle_pins]
  exact shown

/-! ### SAFE_CTRL (R374, R384) -/

/-- Bits of a command word with lower bits set. -/
theorem ctrl_bit (v w : Word) (i : Nat) : (v ||| w).toNat.testBit i = (v.toNat.testBit i || w.toNat.testBit i) := by
  rw [BitVec.toNat_or, Nat.testBit_or]

/-- A bit of a range of bits that is 0. -/
theorem testBit_of_bits {n hi lo i : Nat} (zero : bits n hi lo = 0) (inside : lo ≤ i ∧ i ≤ hi) : n.testBit i = false := by
  have bit : (bits n hi lo).testBit (i - lo) = n.testBit i := by
    unfold bits
    rw [Nat.testBit_mod_two_pow, decide_eq_true (by omega : i - lo < hi + 1 - lo), Bool.true_and, Nat.testBit_div_two_pow,
      show i - lo + lo = i by omega]
  rw [← bit, zero, Nat.zero_testBit]

theorem State.safeCtrl_trip {v : Word} (key : v.toNat / 2 ^ 16 = 0x5346) (bit0 : v.toNat.testBit 0 = true) (bit1 : v.toNat.testBit 1 = false)
    (bit3 : v.toNat.testBit 3 = false) : s.safeCtrl v = s.raiseTrip 1 := by
  unfold State.safeCtrl
  simp only [key, bit0, bit1, bit3, not_true_eq_false, if_false, if_true, Bool.false_eq_true, ne_eq]

theorem State.safeCtrl_release {v : Word} (key : v.toNat / 2 ^ 16 = 0x5346) (bit0 : v.toNat.testBit 0 = false)
    (bit1 : v.toNat.testBit 1 = true) (bit3 : v.toNat.testBit 3 = false) : s.safeCtrl v = s.tripRelease (v.toNat.testBit 2) false := by
  unfold State.safeCtrl
  simp only [key, bit0, bit1, bit3, not_true_eq_false, if_false, if_true, Bool.false_eq_true, ne_eq, Bool.false_and]

theorem State.safeCtrl_lock {v : Word} (key : v.toNat / 2 ^ 16 = 0x5346) (bit0 : v.toNat.testBit 0 = false)
    (bit1 : v.toNat.testBit 1 = false) (bit3 : v.toNat.testBit 3 = true) : s.safeCtrl v = s.setFld SAFE_STAT_LOCKED 1 := by
  unfold State.safeCtrl
  simp only [key, bit0, bit1, bit3, not_true_eq_false, if_false, if_true, Bool.false_eq_true, ne_eq]

/-- The release of a process trip with no active source (R374). -/
theorem State.tripRelease_ends (force : Bool) (trip : s.fb SAFE_STAT_TRIPPED = true)
    (quiet : s.fld SAFE_STAT_ACTIVE &&& (s.fld SAFE_SRCEN_EN ||| 0x2000) = 0) (process : s.deviceCauses = 0) :
    (s.tripRelease force false).fb SAFE_STAT_TRIPPED = false ∧ (s.tripRelease force false).fld SAFE_CAUSE_CAUSE = 0 ∧
      (s.tripRelease force false).fb SAFE_IRQ_STAT_RELEASED = true := by
  have cls : s.tripClass = 1 := if_neg (by rw [process]; exact fun h => h rfl)
  have ends : s.tripRelease force false = ((((s.setFld SAFE_CAUSE_CAUSE 0).setFld SAFE_STAT_TRIPPED 0).setFld SAFE_STAT_DEVCLASS 0).setFld
      SAFE_IRQ_STAT_RELEASED 1).faultEntry 2 0 0 0 := by
    unfold State.tripRelease State.tripped
    simp only [trip, quiet, cls, Bool.true_eq_false, if_false, bne_self_eq_false, Bool.false_eq_true, false_or, false_and,
      Nat.reduceEqDiff]
  have entry := State.faultEntry_forces ((((s.setFld SAFE_CAUSE_CAUSE 0).setFld SAFE_STAT_TRIPPED 0).setFld SAFE_STAT_DEVCLASS 0).setFld
      SAFE_IRQ_STAT_RELEASED 1) 2 0 0 0
  rw [ends, entry.fb _ (by decide), entry.fld _ (by decide), entry.fb _ (by decide)]
  refine ⟨?_, ?_, State.fb_setFld_one _ (by decide)⟩
  · rw [State.fb_setFld_apart _ _ _ (by decide), State.fb_setFld_apart _ _ _ (by decide), State.fb_setFld_zero _ (by decide)]
  · simp (disch := decide) only [State.fld_setFld_apart, State.fld_setFld_fits]

theorem State.tripRelease_refused (force : Bool) (trip : s.fb SAFE_STAT_TRIPPED = true)
    (active : s.fld SAFE_STAT_ACTIVE &&& (s.fld SAFE_SRCEN_EN ||| 0x2000) ≠ 0) :
    s.tripRelease force false = s.setFld SAFE_STAT_RELREF 1 := by
  unfold State.tripRelease State.tripped
  simp only [trip, bne_iff_ne.mpr active, Bool.true_eq_false, if_false, true_or, or_true, if_true]

/-! ### Level sources (R371, R378) -/

/-- The comparators that hold CMP active with one more, or with that one gone. -/
def State.cmpHeld (s : State) (n : Nat) (on : Bool) : State :=
  { s with safe := { s.safe with cmps := s.safe.cmps.filter (· != n) ++ (if on then [n] else []) } }

theorem State.cmpHeld_tripCmp (s : State) (n : Nat) (on : Bool) : (s.cmpHeld n on).tripCmp = s.tripCmp := rfl

theorem State.cmpHeld_cmps (s : State) (n : Nat) (on : Bool) :
    (s.cmpHeld n on).safe.cmps = s.safe.cmps.filter (· != n) ++ (if on then [n] else []) := rfl

theorem State.cmpHeld_regs (s : State) (n : Nat) (on : Bool) : (s.cmpHeld n on).regs = s.regs := rfl

theorem State.cmpTrip_trip {n : Nat} {on : Bool} (trip : s.tripCmp n = true) (met : on = s.cmpC (n / 4) (n % 4)) :
    s.cmpTrip n on = if on then (s.cmpHeld n on).cmpLevels.raiseTrip 8 else (s.cmpHeld n on).cmpLevels := if_pos ⟨trip, met⟩

theorem State.cmpLevels_regs (s : State) :
    s.cmpLevels.regs = (s.putBit SAFE_STAT_ACTIVE 3 (!(s.safe.cmps.filter s.tripCmp).isEmpty)).regs := rfl

theorem State.cmpLevels_cmps (s : State) : s.cmpLevels.safe.cmps = s.safe.cmps.filter s.tripCmp := rfl

theorem State.putBit_regs (h : u.regs = s.regs) (f : RF) (i : Nat) (b : Bool) : (u.putBit f i b).regs = (s.putBit f i b).regs := by
  have field : u.fld f = s.fld f := State.fld_of_regs h f
  have reg : u.reg f.addr = s.reg f.addr := State.reg_of_regs h f.addr
  cases b <;> simp only [State.putBit, State.orBit, State.offBit, State.setFld, State.setReg, field, reg, h, if_true, Bool.false_eq_true, if_false]

/-- A trip comparator whose persistence is met arises. -/
theorem State.cmpTrip_shows {n : Nat} (calm : s.Calm) (on : s.fbit SAFE_SRCEN_EN 3 = true) (trip : s.tripCmp n = true)
    (met : s.cmpC (n / 4) (n % 4) = true) : (s.cmpTrip n true).ShowsTrip (2 ^ 3) := by
  have holds : (!((s.cmpHeld n true).safe.cmps.filter s.tripCmp).isEmpty) = true := by
    rw [State.cmpHeld_cmps, List.filter_append, if_pos rfl, List.filter_cons_of_pos trip, Bool.not_eq_true', List.isEmpty_eq_false_iff]
    exact List.append_ne_nil_of_right_ne_nil _ (List.cons_ne_nil _ _)
  rw [State.cmpTrip_trip trip met.symm, if_pos rfl]
  refine State.active_shows calm (by decide) on ?_ (by decide)
  rw [State.cmpLevels_regs, State.cmpHeld_tripCmp, holds]
  exact State.putBit_regs (s.cmpHeld_regs n true) _ _ _

/-- A comparator that returns leaves CMP active while another holds it. -/
theorem State.cmpTrip_returns {n : Nat} (trip : s.tripCmp n = true) (returned : s.cmpC (n / 4) (n % 4) = false) :
    (s.cmpTrip n false).safe.cmps = (s.safe.cmps.filter (· != n)).filter s.tripCmp ∧
      (s.cmpTrip n false).fbit SAFE_STAT_ACTIVE 3 = !(s.cmpTrip n false).safe.cmps.isEmpty := by
  rw [State.cmpTrip_trip trip returned.symm, if_neg Bool.false_ne_true, State.cmpLevels_cmps, State.cmpHeld_tripCmp, State.cmpHeld_cmps,
    if_neg Bool.false_ne_true, List.append_nil]
  refine ⟨rfl, ?_⟩
  unfold State.fbit
  rw [State.fld_of_regs (State.cmpLevels_regs _), State.cmpHeld_tripCmp, State.cmpHeld_cmps, if_neg Bool.false_ne_true, List.append_nil]
  exact (State.fbit_putBit SAFE_STAT_ACTIVE _ 3 3 (by decide) (by decide)).trans (if_pos rfl)

/-- The clock monitor leaves CLOCK active while a PLL holds it. -/
theorem State.clockBad_returns (s : State) : (s.clockBad 0 false).fbit SAFE_STAT_ACTIVE 8 = decide (s.safe.clock / 2 ≠ 0) := by
  have rest : (s.safe.clock - (s.safe.clock &&& 2 ^ 0) + b2n false * 2 ^ 0 != 0) = decide (s.safe.clock / 2 ≠ 0) := by
    have low : s.safe.clock &&& 2 ^ 0 = s.safe.clock % 2 := Nat.and_one_is_mod _
    rw [low, show b2n false = 0 from rfl, bne, beq_eq_decide, ← decide_not, decide_eq_decide]
    omega
  have regs : (s.clockBad 0 false).regs = (s.putBit SAFE_STAT_ACTIVE 8
      (s.safe.clock - (s.safe.clock &&& 2 ^ 0) + b2n false * 2 ^ 0 != 0)).regs := rfl
  unfold State.fbit
  rw [State.fld_of_regs regs, rest]
  exact (State.fbit_putBit SAFE_STAT_ACTIVE _ 8 8 (by decide) (by decide)).trans (if_pos rfl)

theorem State.clockBad_shows (calm : s.Calm) (on : s.fbit SAFE_SRCEN_EN 8 = true) : (s.clockBad 0 true).ShowsTrip (2 ^ 8) := by
  have holds : (s.safe.clock - (s.safe.clock &&& 2 ^ 0) + b2n true * 2 ^ 0 != 0) = true :=
    bne_iff_ne.mpr (by rw [show b2n true = 1 from rfl]; omega)
  have arises : s.clockBad 0 true = State.raiseTrip { s.putBit SAFE_STAT_ACTIVE 8 (s.safe.clock - (s.safe.clock &&& 2 ^ 0) + b2n true * 2 ^ 0 != 0)
      with safe := { s.safe with clock := s.safe.clock - (s.safe.clock &&& 2 ^ 0) + b2n true * 2 ^ 0 } } 0x100 := rfl
  rw [arises]
  exact State.active_shows (i := 8) calm (by decide) on (congrArg (fun b => (s.putBit SAFE_STAT_ACTIVE 8 b).regs) holds) (by decide)

/-! ### The handover's trip (R373) -/

theorem State.handoverTrip_shows (handover : s.fb SAFE_STAT_HANDOVER = true) (untripped : s.fb SAFE_STAT_TRIPPED = false)
    (deposed : s.fld PAIR_STAT_ROLE = 6) (fits : s.safe.hand < 2 ^ 14) : s.handoverTrip.fb SAFE_STAT_TRIPPED = true ∧
      s.handoverTrip.fb SAFE_STAT_HANDOVER = false ∧ s.handoverTrip.fld SAFE_CAUSE_CAUSE = s.safe.hand := by
  have role : s.role = 6 := deposed
  have still : (s.setFld SAFE_STAT_HANDOVER 0).fb SAFE_STAT_TRIPPED = false :=
    (State.fb_setFld_apart _ _ _ (by decide)).trans untripped
  obtain ⟨t, regs, trips⟩ : ∃ t : State, t.regs = (s.setFld SAFE_STAT_HANDOVER 0).regs ∧ s.handoverTrip = t.tripNow s.safe.hand := by
    refine ⟨{ s.setFld SAFE_STAT_HANDOVER 0 with safe := { s.safe with hand := 0 } }, rfl, ?_⟩
    unfold State.handoverTrip
    dsimp only
    rw [if_pos ⟨handover, by rw [role]; decide, by rw [role]; decide⟩, if_neg (by
      intro h
      exact absurd (still.symm.trans h) Bool.false_ne_true)]
  obtain ⟨shown, -, cause, -⟩ := t.tripNow_shows fits
  have opened : t.tripOpen.fb SAFE_STAT_HANDOVER = false := by
    unfold State.tripOpen
    rw [State.fb_setFld_apart _ _ _ (by decide), State.fb_setFld_apart _ _ _ (by decide), State.fb_setFld_apart _ _ _ (by decide),
      t.pinsTrip.tripSwitches_forces.fb _ (by decide)]
    exact (State.fb_of_regs (show t.pinsTrip.regs = _ from regs) _).trans (State.fb_setFld_zero _ (by decide))
  rw [trips]
  refine ⟨shown, ?_, cause⟩
  rw [(t.tripNow_forces _).fb _ (by decide), State.fb_setFld_apart _ _ _ (by decide), opened]

/-! ### Watchdogs (R377, R378) -/

theorem State.tickWatchdog_late (on : s.fb SAFE_TICKWD_EN = true) (released : s.pwr.released = true) (awake : s.awake = true)
    (late : 190 * max 100 (s.fld SAFE_TICKWD_US) ≤ (s.tb.now - s.tb.edge).toNat) : s.tickWatchdog = s.raiseTrip 0x80 :=
  if_pos ⟨on, released, awake, late⟩

theorem State.Calm.of_safe (calm : s.Calm) (h : u.regs = s.regs) {i : Nat} (hi : i < 14) (on : s.fbit SAFE_SRCEN_EN i = true)
    (hm : m = 2 ^ i) : (u.raiseTrip m).ShowsTrip (2 ^ i) :=
  State.raiseTrip_shows (calm.of_regs h) hi ((congrArg (Nat.testBit · i) (State.fld_of_regs h _)).trans on) hm

/-- The watchdog counts no longer. -/
def State.wdHalted (s : State) : State := { s with safe := { s.safe with wdStopped := true } }

theorem State.wdExpire_trips (trips : s.fld SAFE_WDCFG_ACTION = 0) : s.wdExpire = s.wdHalted.raiseTrip 0x40 := by
  unfold State.wdExpire
  rw [if_pos trips]
  rfl

theorem State.watchdogExpiry_shows (calm : s.Calm) (on : s.fbit SAFE_SRCEN_EN 6 = true) (passed : s.wdPassed (2 * s.wdWindow.2) = true)
    (trips : s.fld SAFE_WDCFG_ACTION = 0) : s.watchdogExpiry.ShowsTrip (2 ^ 6) := by
  unfold State.watchdogExpiry
  rw [if_pos passed, State.wdExpire_trips trips]
  exact calm.of_safe (i := 6) (show s.wdHalted.regs = s.regs from rfl) (by decide) on (by decide)

/-- A good kick restarts the watchdog, and the other word is the next. -/
def State.kicked (s : State) : State :=
  ({ s.wdStart with safe := { s.wdStart.safe with wdKicked := true } } : State).setFld SAFE_WDSTAT_NEXT
    (if s.fld SAFE_WDSTAT_NEXT = 0x3C5A then 0xC3A5 else 0x3C5A)

theorem State.kicked_shows (s : State) : s.kicked.safe.wd = some s.tb.now ∧
    s.kicked.fld SAFE_WDSTAT_NEXT = if s.fld SAFE_WDSTAT_NEXT = 0x3C5A then 0xC3A5 else 0x3C5A :=
  ⟨rfl, State.fld_setFld_fits (by decide) (by split <;> decide)⟩

/-- What a write of SAFE_WDKICK does. -/
theorem State.kick_eq (s : State) (v : Word) : s.kick v =
    if s.fb SAFE_WDCFG_EN = false then s
    else if s.safe.wdStopped then (if decide (v.toNat % 2 ^ 16 = s.fld SAFE_WDSTAT_NEXT) then s.kicked else s)
    else if decide (v.toNat % 2 ^ 16 = s.fld SAFE_WDSTAT_NEXT) ∧ (s.safe.wdKicked = false ∨ s.wdElapsed ≥ s.wdWindow.1) then s.kicked
    else s.wdExpire := rfl

theorem State.kick_off (v : Word) (off : s.fb SAFE_WDCFG_EN = false) : s.kick v = s := if_pos off

theorem State.kick_counting {v : Word} (on : s.fb SAFE_WDCFG_EN = true) (counts : s.safe.wdStopped = false) :
    s.kick v = if v.toNat % 2 ^ 16 = s.fld SAFE_WDSTAT_NEXT ∧ (s.safe.wdKicked = false ∨ s.wdElapsed ≥ s.wdWindow.1) then s.kicked
      else s.wdExpire := by
  rw [State.kick_eq, if_neg (ne_of_eq_of_ne on Bool.false_ne_true.symm), counts, if_neg Bool.false_ne_true]
  simp only [decide_eq_true_eq]

theorem State.kick_stopped {v : Word} (on : s.fb SAFE_WDCFG_EN = true) (stopped : s.safe.wdStopped = true)
    (bad : v.toNat % 2 ^ 16 ≠ s.fld SAFE_WDSTAT_NEXT) : s.kick v = s := by
  rw [State.kick_eq, if_neg (ne_of_eq_of_ne on Bool.false_ne_true.symm), if_pos stopped, decide_eq_false bad, if_neg Bool.false_ne_true]

theorem State.wdWarn_passed (passed : s.wdPassed s.wdWindow.2 = true) : s.wdWarn = s.setFld SAFE_IRQ_STAT_WDWARN 1 := if_pos passed

/-! ### Tamper events (R380) -/

theorem State.tamperMain_arises (s : State) : (s.setFld SAFE_IRQ_STAT_TAMPER 1).Arises s.tamperMain := by
  have entry (x : State) : x.Forces x.tamperEntry := x.faultEntry_forces _ _ _ _
  unfold State.tamperMain
  dsimp only
  split
  · exact (entry _).arises
  · exact ((State.Forces.refl _).arises.keep _ _).trans (State.raiseWith_arises _ _ entry)

/-- The event is recorded, and the vault and the key RAM go. -/
def State.tampered (s : State) (e : Nat) : State :=
  (((s.orBit SAFE_TAMPSTAT_EVT e).vaultWipe 1).setFld CFG_FUSE_KEYRAMOK 0).lcWith (fun x => { x with keyRam := none })

theorem State.tampered_shows (s : State) {e : Nat} (he : e < 6) : (s.tampered e).fbit SAFE_TAMPSTAT_EVT e = true ∧
    (s.tampered e).lc.keyRam = none ∧ (s.tampered e).wipe = some 1 ∧ (s.tampered e).fb VAULT_STAT_WIPING = true := by
  have regs : (s.tampered e).regs = (((s.orBit SAFE_TAMPSTAT_EVT e).setFld VAULT_STAT_WIPING 1).setFld CFG_FUSE_KEYRAMOK 0).regs := rfl
  refine ⟨?_, rfl, rfl, ?_⟩
  · unfold State.fbit
    rw [State.fld_of_regs regs, State.fld_setFld_apart _ _ _ _ (by decide), State.fld_setFld_apart _ _ _ _ (by decide)]
    exact State.fbit_setFld_same SAFE_TAMPSTAT_EVT _ e (by decide) he |>.trans (by rw [Nat.testBit_or, Nat.testBit_two_pow_self, Bool.or_true])
  · rw [State.fb_of_regs regs, State.fb_setFld_apart _ _ _ (by decide), State.fb_setFld_one _ (by decide)]

theorem State.tamper_acts {e : Nat} (on : s.tamperEnabled e = true) (supplied : s.pwr.avdd = true ∨ s.pwr.vbat = true) :
    s.tamper e = if (s.tampered e).pwr.vdd then (s.tampered e).tamperMain
      else { s.tampered e with safe := { (s.tampered e).safe with tamperLate := true } } := by
  unfold State.tamper
  rw [if_neg (by rw [on]; rcases supplied with h | h <;> simp [h])]
  rfl

theorem State.tamper_shows {e : Nat} (he : e < 6) (on : s.tamperEnabled e = true) (supplied : s.pwr.avdd = true ∨ s.pwr.vbat = true) :
    (s.tamper e).fbit SAFE_TAMPSTAT_EVT e = true ∧ (s.tamper e).lc.keyRam = none ∧ (s.tamper e).wipe = some 1 ∧
      (s.tamper e).fb VAULT_STAT_WIPING = true := by
  have shown := s.tampered_shows he
  have main := (s.tampered e).tamperMain_arises
  obtain ⟨event, ram, wipe, wiping⟩ := shown
  rw [State.tamper_acts on supplied]
  split
  · refine ⟨?_, main.lc ▸ ram, main.wipe ▸ wipe, ?_⟩
    · unfold State.fbit
      rw [main.fld _ (by decide), State.fld_setFld_apart _ _ _ _ (by decide)]
      exact event
    · rw [main.fb _ (by decide), State.fb_setFld_apart _ _ _ (by decide), wiping]
  · exact ⟨event, ram, wipe, wiping⟩

/-! ### The obligation -/

/-- Settles O49: an enabled source that arises with no trip and no handover shows the trip with that source alone, a release of a process
trip with no active source ends it, and kicks, warnings and tamper events act as their registers say. -/
theorem safePlaneTripsAndReleases : Obligations.SafePlaneTripsAndReleases := by
  unfold Obligations.SafePlaneTripsAndReleases
  intro s
  dsimp only
  refine ⟨fun untripped unset none => ⟨?_, ?_, ?_, ?_, ?_, ?_, ?_, ?_⟩, ?_, ?_, ?_, ?_, ?_, ?_, ?_, ?_, ?_, ?_, ?_, ?_⟩
  · intro v key zero on
    have calm : s.Calm := ⟨untripped, unset, none⟩
    have trips : s.safeCtrl (v ||| 1) = s.raiseTrip 1 := State.safeCtrl_trip ((key_or v 1 (by decide)).trans key)
      (by rw [ctrl_bit]; exact Bool.or_true _) (by rw [ctrl_bit, testBit_of_bits zero (by decide)]; rfl)
      (by rw [ctrl_bit, testBit_of_bits zero (by decide)]; rfl)
    have shown := State.raiseTrip_shows (i := 0) calm (by decide) on (m := 1) (by decide)
    rw [← trips] at shown
    exact done_shows shown
  · exact fun i on => done_shows (State.level_shows ⟨untripped, unset, none⟩ (by omega) on)
  · exact fun n on set mode met => done_shows (State.cmpTrip_shows ⟨untripped, unset, none⟩ on (Bool.and_eq_true_iff.mpr ⟨set, mode⟩) met)
  · exact fun on => done_shows (State.level_shows (i := 9) ⟨untripped, unset, none⟩ (by decide) on)
  · exact fun on => done_shows (State.level_shows (i := 10) ⟨untripped, unset, none⟩ (by decide) on)
  · exact fun on => done_shows (State.clockBad_shows ⟨untripped, unset, none⟩ on)
  · intro on enabled released awake late
    have shown := State.raiseTrip_shows (s := s) (i := 7) ⟨untripped, unset, none⟩ (by decide) on (m := 0x80) (by decide)
    have trips : s.tickWatchdog = s.raiseTrip 0x80 := State.tickWatchdog_late enabled released awake late
    rw [← trips] at shown
    exact done_shows shown
  · exact fun on passed trips => done_shows (State.watchdogExpiry_shows ⟨untripped, unset, none⟩ on passed trips)
  · intro n trip returned
    refine ⟨_, rfl, ?_⟩
    rw [settle_safe, settle_fbit]
    exact State.cmpTrip_returns trip returned
  · exact ⟨_, rfl, (settle_fbit _ _ _).trans s.clockBad_returns⟩
  · intro handover untripped deposed fits
    refine ⟨_, rfl, ?_⟩
    rw [settle_fb, settle_fb, settle_fld]
    exact State.handoverTrip_shows handover untripped deposed fits
  · intro v key bit0 bit3 trip
    have releases : s.safeCtrl (v ||| 2) = s.tripRelease ((v ||| 2).toNat.testBit 2) false :=
      State.safeCtrl_release ((key_or v 2 (by decide)).trans key) (by rw [ctrl_bit]; exact (congrArg (· || _) bit0))
        (by rw [ctrl_bit]; exact Bool.or_true _) (by rw [ctrl_bit]; exact (congrArg (· || _) bit3))
    refine ⟨fun quiet process => ⟨_, congrArg (done s) releases, ?_⟩, fun active => ?_⟩
    · rw [settle_fb, settle_fld, settle_fb]
      exact State.tripRelease_ends _ trip quiet process
    · exact congrArg (done s) (releases.trans (State.tripRelease_refused _ trip active))
  · intro v key zero
    exact congrArg (done s) (State.safeCtrl_lock ((key_or v 8 (by decide)).trans key)
      (by rw [ctrl_bit, testBit_of_bits zero (by decide)]; rfl) (by rw [ctrl_bit, testBit_of_bits zero (by decide)]; rfl)
      (by rw [ctrl_bit]; exact Bool.or_true _))
  · exact fun v off => congrArg (done s) (State.kick_off v off)
  · intro v on counts good window
    refine ⟨_, congrArg (done s) ((State.kick_counting on counts).trans (if_pos ⟨good, window⟩)), ?_⟩
    rw [settle_safe, settle_fld]
    exact s.kicked_shows
  · intro v on counts bad
    refine congrArg (done s) ((State.kick_counting on counts).trans (if_neg ?_))
    rintro ⟨good, window⟩
    rcases bad with bad | ⟨kicked, early⟩
    · exact bad good
    · rw [kicked] at window
      simp only [Bool.true_eq_false, false_or] at window
      omega
  · exact fun v on stopped bad => congrArg (done s) (State.kick_stopped on stopped bad)
  · exact fun passed => congrArg (done s) (State.wdWarn_passed passed)
  · intro e on supplied
    refine ⟨_, rfl, ?_⟩
    rw [settle_fbit, settle_lc, settle_wipe, settle_fb]
    exact State.tamper_shows e.isLt on supplied
  · exact fun supplied => congrArg (done s) (if_pos supplied)

end Sys2Proof.Machine
end

section
/-! PROOFS. Life-cycle commands: how they start, are refused and end (O54). -/

namespace Sys2Proof.Machine

variable {s u t : State} {op : Nat} {g : List Word}

/-! ### Command words -/

/-- A command word whose operation is put into its four lowest bits (R343, R350). -/
theorem opWord (v w : Word) (low : w.toNat < 16) : ((v &&& 0xFFFFFFF0) ||| w).toNat % 16 = w.toNat ∧
    ((v &&& 0xFFFFFFF0) ||| w).toNat / 2 ^ 16 = v.toNat / 2 ^ 16 := by
  have upper : (v &&& 0xFFFFFFF0).toNat / 2 ^ 16 = v.toNat / 2 ^ 16 := by
    have wide : v.toNat / 2 ^ 16 < 2 ^ 16 := by have := v.isLt; omega
    rw [BitVec.toNat_and, Nat.and_div_two_pow]
    exact (Nat.and_two_pow_sub_one_eq_mod (v.toNat / 2 ^ 16) 16).trans (Nat.mod_eq_of_lt wide)
  have none : (v &&& 0xFFFFFFF0).toNat % 2 ^ 4 = 0 := by
    rw [BitVec.toNat_and, Nat.and_mod_two_pow]
    exact Nat.and_zero _
  refine ⟨?_, (key_or _ _ (by omega)).trans upper⟩
  show _ % 2 ^ 4 = _
  rw [BitVec.toNat_or, Nat.or_mod_two_pow, none, Nat.zero_or, Nat.mod_eq_of_lt low]

/-- The life-cycle commands with the operation of each. -/
def lcCommands (v : Word) : List (Nat × Instr) :=
  [(1, .fuseImgkey v), (2, .fuseSvckey v), (3, .fuseAeskey v), (4, .keyram v), (5, .advanceLc v), (6, .service v), (7, .leaveService v),
    (8, .retire v), (9, .setminver v), (10, .fuseAltboot v)]

theorem lcCommands_op {v : Word} {p : Nat × Instr} (hp : p ∈ lcCommands v) : p.1 < 16 := by
  unfold lcCommands at hp
  fin_cases hp <;> simp

theorem exec_lcCommands {v : Word} {p : Nat × Instr} (hp : p ∈ lcCommands v) (s : State) : exec p.2 s = done s (s.lcOp p.1 v) := by
  unfold lcCommands at hp
  fin_cases hp <;> rfl

/-- The word that a life-cycle command writes. -/
def lcWord (op : Nat) (v : Word) : Word := (v &&& 0xFFFFFFF0) ||| BitVec.ofNat 32 op

theorem lcWord_op (v : Word) (h : op < 16) : (lcWord op v).toNat % 16 = op ∧ (lcWord op v).toNat / 2 ^ 16 = v.toNat / 2 ^ 16 := by
  have small : (BitVec.ofNat 32 op).toNat = op := BitVec.toNat_ofNat _ _ |>.trans (Nat.mod_eq_of_lt (by omega))
  have word := opWord v (BitVec.ofNat 32 op) (by omega)
  rw [small] at word
  exact word

/-! ### Results (R343) -/

/-- A fold that clears registers. -/
theorem State.clearRegs_zero (at_ : Nat → Nat) (distinct : ∀ i j, at_ i = at_ j → i = j) (n : Nat) (s : State) {i : Nat} (hi : i < n) :
    ((List.range n).foldl (fun s i => s.setReg (at_ i) 0) s).reg (at_ i) = 0 := by
  induction n with
  | zero => exact absurd hi (Nat.not_lt_zero i)
  | succ n ih =>
    rw [List.range_succ, List.foldl_append, List.foldl_cons, List.foldl_nil]
    by_cases same : i = n
    · rw [same, State.reg_setReg_same]
    · rw [State.reg_setReg_other _ _ _ _ fun h => same (distinct _ _ h)]
      exact ih (by omega)

theorem State.clearArgs_zero (s : State) {i : Nat} (hi : i < 64) : s.clearArgs.reg (CFG_ARG_at i) = 0 :=
  State.clearRegs_zero CFG_ARG_at (fun i j h => by unfold CFG_ARG_at at h; omega) 64 s hi

/-- Clearing the arguments changes registers only. -/
theorem State.clearArgs_same (s : State) : ∃ r, s.clearArgs = { s with regs := r } := by
  refine List.foldlRecOn (motive := fun (u : State) => ∃ r, u = { s with regs := r }) _ _ ⟨s.regs, rfl⟩ ?_
  rintro u ⟨r, rfl⟩ i -
  exact ⟨_, rfl⟩

/-- A new nonce changes registers and the counter of free values. -/
theorem State.newNonce_same (s : State) : ∃ r n, s.newNonce = { s with regs := r, freeCtr := n } := by
  refine List.foldlRecOn (motive := fun (u : State) => ∃ r n, u = { s with regs := r, freeCtr := n }) _ _ ⟨s.regs, s.freeCtr, rfl⟩ ?_
  rintro u ⟨r, n, rfl⟩ i -
  exact ⟨_, _, rfl⟩

theorem State.lcResult_lc (s : State) (code : Nat) : (s.lcResult code).lc = s.lc := by
  obtain ⟨r, h⟩ := s.clearArgs_same
  unfold State.lcResult
  rw [State.setFld_lc, State.setFld_lc, State.setFld_lc, h]

theorem State.lcResult_wipe (s : State) (code : Nat) : (s.lcResult code).wipe = s.wipe := by
  obtain ⟨r, h⟩ := s.clearArgs_same
  unfold State.lcResult
  rw [State.setFld_wipe, State.setFld_wipe, State.setFld_wipe, h]

theorem State.lcResult_shows (s : State) {code : Nat} (hc : code < 16) : (s.lcResult code).fld CFG_LCCMD_RESULT = code ∧
    (s.lcResult code).fb CFG_LCCMD_BUSY = false ∧ (s.lcResult code).fb CFG_IRQ_STAT_LCDONE = true := by
  unfold State.lcResult
  refine ⟨?_, ?_, State.fb_setFld_one _ (by decide)⟩
  · rw [State.fld_setFld_apart _ _ _ _ (by decide), State.fld_setFld_apart _ _ _ _ (by decide), State.fld_setFld_fits (by decide) hc]
  · rw [State.fb_setFld_apart _ _ _ (by decide), State.fb_setFld_zero _ (by decide)]

theorem State.lcResult_args (s : State) (code : Nat) (i : Fin 64) : (s.lcResult code).reg (CFG_ARG_at i) = 0 := by
  have apart (a : Nat) (h : a < 0x4000b100) : CFG_ARG_at i ≠ a := by unfold CFG_ARG_at; omega
  unfold State.lcResult
  rw [State.reg_setFld_other _ (apart _ (by decide)), State.reg_setFld_other _ (apart _ (by decide)),
    State.reg_setFld_other _ (apart _ (by decide)), State.clearArgs_zero _ i.isLt]

/-! ### Starting and refusing (R343, R344) -/

/-- The command as it starts: its arguments are taken and BUSY is set. -/
def State.lcStarts (s : State) (op : Nat) : State := (s.lcWith (fun x => { x with busy := some (op, s.args) })).setFld CFG_LCCMD_BUSY 1

/-- What a write of CFG_LCCMD does, by its operation and key. -/
theorem State.lcOp_eq (s : State) (v : Word) (h : op < 16) : s.lcOp op v =
    if s.lc.busy.isSome then ((s.lcRefuse op).clearArgs.setFld CFG_LCCMD_RESULT 1).setFld CFG_IRQ_STAT_LCDONE 1
    else if (s.loader.phase ≠ .idle ∧ s.loader.phase ≠ .discard) ∨ s.fb PR_STAT_BUSY then (s.lcRefuse op).lcResult 1
    else if v.toNat / 2 ^ 16 ≠ 0x4C43 then (s.lcRefuse op).lcResult 3
    else if s.lc.permits op = false then (s.lcRefuse op).lcResult 2
    else if op = 6 ∧ s.fld CFG_LC_TRIES ≥ 3 then (s.lcRefuse op).lcResult 6
    else if op = 9 ∧ (s.fld (CFG_ARG_ARG 0) > 63 ∨ s.fld (CFG_ARG_ARG 0) < s.lc.minver) then s.lcResult 7
    else if op = 8 then ((s.lcStarts op).raiseTrip 0x2000).stopEngines else s.lcStarts op := by
  obtain ⟨low, key⟩ := lcWord_op v h
  show s.lcCmd (lcWord op v) = _
  unfold State.lcCmd
  dsimp only
  rw [low, key]
  rfl

/-- The loader has no load in progress. -/
def State.LoadIdle (s : State) : Prop := (s.loader.phase = .idle ∨ s.loader.phase = .discard) ∧ s.fb PR_STAT_BUSY = false

theorem State.loadIdle_iff (s : State) :
    s.LoadIdle ↔ ¬ ((s.loader.phase ≠ .idle ∧ s.loader.phase ≠ .discard) ∨ s.fb PR_STAT_BUSY = true) := by
  unfold State.LoadIdle
  rw [not_or, Bool.not_eq_true, not_and_or, not_not, not_not]

theorem State.lcRefuse_lc (s : State) (op : Nat) : (s.lcRefuse op).lc = s.lc := by
  obtain ⟨r, n, h⟩ := s.newNonce_same
  unfold State.lcRefuse
  split
  · rw [h]
  · rfl

/-- A write of CFG_LCCMD with no command and no load in progress. -/
theorem State.lcOp_idle (v : Word) (h : op < 16) (free : s.lc.busy = none) (idle : s.LoadIdle) : s.lcOp op v =
    if v.toNat / 2 ^ 16 ≠ 0x4C43 then (s.lcRefuse op).lcResult 3
    else if s.lc.permits op = false then (s.lcRefuse op).lcResult 2
    else if op = 6 ∧ s.fld CFG_LC_TRIES ≥ 3 then (s.lcRefuse op).lcResult 6
    else if op = 9 ∧ (s.fld (CFG_ARG_ARG 0) > 63 ∨ s.fld (CFG_ARG_ARG 0) < s.lc.minver) then s.lcResult 7
    else if op = 8 then ((s.lcStarts op).raiseTrip 0x2000).stopEngines else s.lcStarts op := by
  rw [State.lcOp_eq s v h, free, if_neg (by decide), if_neg (s.loadIdle_iff.mp idle)]

theorem State.lcOp_unpermitted {v : Word} (h : op < 16) (free : s.lc.busy = none) (idle : s.LoadIdle) (key : v.toNat / 2 ^ 16 = 0x4C43)
    (never : s.lc.permits op = false) : s.lcOp op v = (s.lcRefuse op).lcResult 2 := by
  rw [State.lcOp_idle v h free idle, if_neg (not_not.mpr key), if_pos never]

theorem State.lcOp_permitted {v : Word} (h : op < 16) (free : s.lc.busy = none) (idle : s.LoadIdle) (key : v.toNat / 2 ^ 16 = 0x4C43)
    (may : s.lc.permits op = true) (tries : op = 6 → s.fld CFG_LC_TRIES < 3)
    (version : op = 9 → s.lc.minver ≤ s.fld (CFG_ARG_ARG 0) ∧ s.fld (CFG_ARG_ARG 0) ≤ 63) :
    s.lcOp op v = if op = 8 then ((s.lcStarts op).raiseTrip 0x2000).stopEngines else s.lcStarts op := by
  have permitted : ¬ s.lc.permits op = false := by rw [may]; decide
  rw [State.lcOp_idle v h free idle, if_neg (not_not.mpr key), if_neg permitted, if_neg, if_neg]
  · rintro ⟨is, wrong⟩
    have := version is
    omega
  · rintro ⟨is, wrong⟩
    have := tries is
    omega

/-! ### The end of a command (R343, R344) -/

theorem State.lcShow_lc (s : State) : s.lcShow.lc = s.lc := by
  unfold State.lcShow State.setB
  dsimp only
  rw [State.setFld_lc, State.setFld_lc, State.setFld_lc, State.setFld_lc, State.setFld_lc, State.setFld_lc, State.setFld_lc, State.setFld_lc]

theorem State.vaultWipe_lc (s : State) (cause : Nat) : (s.vaultWipe cause).lc = s.lc := rfl

theorem State.vaultWipe_wipe (s : State) (cause : Nat) : (s.vaultWipe cause).wipe = some cause := rfl

theorem State.lcChanged_parts (s : State) : s.lcChanged.lc = s.lc ∧ s.lcChanged.wipe = some 2 ∧
    s.lcChanged.fld CFG_LC_STATE = s.lc.state % 8 := by
  have entry := (s.lcShow.vaultWipe 2).faultEntry_forces 0x0A 0 s.lc.state 0
  refine ⟨entry.lc.trans ?_, entry.wipe.trans (State.vaultWipe_wipe _ _), (entry.fld _ (by decide)).trans ?_⟩
  · rw [State.vaultWipe_lc, State.lcShow_lc]
  · have regs : (s.lcShow.vaultWipe 2).regs = (s.lcShow.setFld VAULT_STAT_WIPING 1).regs := rfl
    rw [State.fld_of_regs regs, State.fld_setFld_apart _ _ _ _ (by decide)]
    unfold State.lcShow State.setB
    simp (disch := decide) only [State.fld_setFld_apart]
    exact State.fld_setFld_same _ _ _ (by decide)

/-- What follows a command other than RETIRE leaves the life cycle as the command made it. -/
theorem State.lcAfter_lc (s : State) (other : op ≠ 8) : (s.lcAfter op).lc = s.lc := by
  obtain ⟨q, n, drawn⟩ := s.lcChanged.newNonce_same
  unfold State.lcAfter
  split
  · exact s.lcChanged_parts.1
  · rw [drawn]
    exact s.lcChanged_parts.1
  · exact s.lcChanged_parts.1
  · exact absurd rfl other
  · exact s.lcShow_lc

theorem State.lcDone_performs {ok : Bool} (busy : s.lc.busy = some (op, g)) (good : s.lcOk op g ok = true) : s.lcDone ok =
    ((s.lcWith (fun x => { x.act op g (s.fld SAFE_RTCSEC_SEC + 60 * bits (g.getD 11 0).toNat 15 0) with busy := none })).lcAfter op).lcResult 0 := by
  unfold State.lcDone
  simp only [busy, good, if_true]

theorem State.lcDone_token {ok : Bool} (busy : s.lc.busy = some (6, g)) (bad : s.tokenOk g = false) : s.lcDone ok =
    (((s.lcWith (fun x => { x with busy := none })).addSat CFG_LC_TRIES 1).newNonce).lcResult 4 := by
  have refused : s.lcOk 6 g ok = false := bad
  unfold State.lcDone
  simp only [busy, refused, Bool.false_eq_true, if_false, if_true]

theorem State.lcDone_fuses {ok : Bool} (busy : s.lc.busy = some (op, g)) (bad : s.lcOk op g ok = false) (other : op ≠ 6) : s.lcDone ok =
    (s.lcWith (fun x => { x with busy := none })).lcResult 5 := by
  unfold State.lcDone
  simp only [busy, bad, Bool.false_eq_true, if_false, other]

/-- How a command that ends shows: the life cycle it leaves, and its result. -/
def State.LcEnds (u : State) (code : Nat) (l : LifeCycle) : Prop :=
  u.lc = l ∧ u.fld CFG_LCCMD_RESULT = code ∧ u.fb CFG_LCCMD_BUSY = false ∧ u.fb CFG_IRQ_STAT_LCDONE = true ∧ ∀ i : Fin 64, u.reg (CFG_ARG_at i) = 0

theorem State.lcResult_ends (s : State) {code : Nat} (hc : code < 16) : (s.lcResult code).LcEnds code s.lc := by
  obtain ⟨result, free, irq⟩ := s.lcResult_shows hc
  exact ⟨s.lcResult_lc code, result, free, irq, s.lcResult_args code⟩

theorem State.lcDone_performs_ends {ok : Bool} (busy : s.lc.busy = some (op, g)) (good : s.lcOk op g ok = true) (other : op ≠ 8) :
    (s.lcDone ok).LcEnds 0 { s.lc.act op g (s.fld SAFE_RTCSEC_SEC + 60 * bits (g.getD 11 0).toNat 15 0) with busy := none } := by
  rw [State.lcDone_performs busy good]
  have ends := State.lcResult_ends ((s.lcWith (fun x => { x.act op g (s.fld SAFE_RTCSEC_SEC + 60 * bits (g.getD 11 0).toNat 15 0) with
    busy := none })).lcAfter op) (code := 0) (by decide)
  rw [State.lcAfter_lc _ other] at ends
  exact ends

theorem State.lcDone_token_ends {ok : Bool} (busy : s.lc.busy = some (6, g)) (bad : s.tokenOk g = false) :
    (s.lcDone ok).LcEnds 4 { s.lc with busy := none } := by
  rw [State.lcDone_token busy bad]
  obtain ⟨r, n, drawn⟩ := ((s.lcWith (fun x => { x with busy := none })).addSat CFG_LC_TRIES 1).newNonce_same
  have ends := State.lcResult_ends ((s.lcWith (fun x => { x with busy := none })).addSat CFG_LC_TRIES 1).newNonce (code := 4) (by decide)
  have left : ((s.lcWith (fun x => { x with busy := none })).addSat CFG_LC_TRIES 1).newNonce.lc = { s.lc with busy := none } := by
    rw [drawn]
    rfl
  rw [left] at ends
  exact ends

theorem State.lcDone_fuses_ends {ok : Bool} (busy : s.lc.busy = some (op, g)) (bad : s.lcOk op g ok = false) (other : op ≠ 6) :
    (s.lcDone ok).LcEnds 5 { s.lc with busy := none } := by
  rw [State.lcDone_fuses busy bad other]
  exact State.lcResult_ends _ (by decide)

theorem State.serviceExpiry_ended {t : Nat} (service : s.lc.service = some t) (ended : t ≤ s.fld SAFE_RTCSEC_SEC) :
    s.serviceExpiry = (s.lcWith (fun x => { x with service := none })).lcChanged := by
  unfold State.serviceExpiry
  simp only [service, ended, if_true]

theorem State.serviceExpiry_runs {t : Nat} (service : s.lc.service = some t) (runs : s.fld SAFE_RTCSEC_SEC < t) : s.serviceExpiry = s := by
  unfold State.serviceExpiry
  simp only [service, Nat.not_le.mpr runs, if_false]

/-! ### The obligation -/

/-- LCCMD_DONE with the end that it shows. -/
theorem lccmdDone_ends {ok : Bool} {code : Nat} {l : LifeCycle} (ends : (s.lcDone ok).LcEnds code l) :
    ∃ u, exec (.lccmdDone ok) s = .next u ∧ u.lc = l ∧ u.fld CFG_LCCMD_RESULT = code ∧ u.fb CFG_LCCMD_BUSY = false ∧
      u.fb CFG_IRQ_STAT_LCDONE = true ∧ ∀ i : Fin 64, u.reg (CFG_ARG_at i) = 0 := by
  refine ⟨settle s (s.lcDone ok), rfl, ?_⟩
  simp only [settle_lc, settle_fld, settle_fb, settle_reg]
  exact ends

/-- Settles O54: a write of CFG_LCCMD is refused by the first of its conditions that fails or starts the command, and LCCMD_DONE performs
what the operation says where the fuses verify or the token is accepted. -/
theorem lifeCycleCommandsRunOrAreRefused : Obligations.LifeCycleCommandsRunOrAreRefused := by
  unfold Obligations.LifeCycleCommandsRunOrAreRefused
  intro s
  dsimp only
  refine ⟨fun v p hp free idle key => ⟨fun never => ?_, fun may plain tries version => ?_, fun may retires => ?_⟩,
    fun v p hp free idle key => ?_, fun v p hp busy => ?_, fun v p hp free load => ?_, fun op g busy => ⟨?_, ?_, ?_, ?_, ?_, ?_, ?_, ?_, ?_, ?_, ?_⟩,
    fun t service => ⟨fun ended => ?_, fun runs => ?_⟩⟩
  · obtain ⟨result, ended, irq⟩ := (s.lcRefuse p.1).lcResult_shows (code := 2) (by decide)
    refine ⟨_, (exec_lcCommands hp s).trans (congrArg (done s) (State.lcOp_unpermitted (lcCommands_op hp) free idle key never)), ?_⟩
    rw [settle_lc, settle_fld, settle_fb, settle_fb]
    exact ⟨(State.lcResult_lc _ 2).trans (s.lcRefuse_lc _), result, ended, irq⟩
  · exact (exec_lcCommands hp s).trans (congrArg (done s)
      ((State.lcOp_permitted (lcCommands_op hp) free idle key may tries version).trans (if_neg plain)))
  · have starts := State.lcOp_permitted (s := s) (lcCommands_op hp) free idle key may (by omega) (by omega)
    rw [if_pos retires, retires] at starts
    exact (exec_lcCommands hp s).trans (congrArg (done s) (by rw [retires]; exact starts))
  · refine ⟨_, (exec_lcCommands hp s).trans (congrArg (done s)
      ((State.lcOp_idle v (lcCommands_op hp) free idle).trans (if_pos key))), ?_⟩
    rw [settle_lc, settle_fld]
    exact ⟨(State.lcResult_lc _ 3).trans (s.lcRefuse_lc _), (State.lcResult_shows _ (by decide)).1⟩
  · exact (exec_lcCommands hp s).trans (congrArg (done s)
      ((State.lcOp_eq s v (lcCommands_op hp)).trans (if_pos (Option.isSome_iff_ne_none.mpr busy))))
  · have loads := not_not.mp fun h => load (s.loadIdle_iff.mpr h)
    refine (exec_lcCommands hp s).trans (congrArg (done s) ?_)
    rw [State.lcOp_eq s v (lcCommands_op hp), free, if_neg (by decide), if_pos loads]
  · rintro rfl
    exact lccmdDone_ends (State.lcDone_performs_ends busy rfl (by decide))
  · rintro rfl
    exact lccmdDone_ends (State.lcDone_performs_ends busy rfl (by decide))
  · rintro rfl
    exact lccmdDone_ends (State.lcDone_performs_ends busy rfl (by decide))
  · rintro rfl ok
    exact lccmdDone_ends (State.lcDone_performs_ends busy rfl (by decide))
  · rintro rfl
    refine ⟨lccmdDone_ends (State.lcDone_performs_ends busy rfl (by decide)), _, rfl, ?_⟩
    rw [settle_wipe, State.lcDone_performs busy rfl, State.lcResult_wipe]
    exact (State.lcChanged_parts _).2.1
  · rintro rfl ok
    exact lccmdDone_ends (State.lcDone_performs_ends busy rfl (by decide))
  · rintro rfl
    exact lccmdDone_ends (State.lcDone_performs_ends busy rfl (by decide))
  · rintro rfl
    exact lccmdDone_ends (State.lcDone_performs_ends busy rfl (by decide))
  · rintro rfl token ok
    exact lccmdDone_ends (State.lcDone_performs_ends busy token (by decide))
  · rintro rfl token ok
    exact lccmdDone_ends (State.lcDone_token_ends busy token)
  · intro notKeyram notService notLeave
    have checked : s.lcOk op g false = false := by
      unfold State.lcOk
      split
      · exact absurd rfl notKeyram
      · exact absurd rfl notLeave
      · exact absurd rfl notService
      · rfl
    exact lccmdDone_ends (State.lcDone_fuses_ends busy checked notService)
  · refine ⟨_, congrArg (done s) (State.serviceExpiry_ended service ended), ?_⟩
    rw [settle_lc, settle_wipe, settle_fld]
    exact State.lcChanged_parts _
  · exact congrArg (done s) (State.serviceExpiry_runs service runs)

end Sys2Proof.Machine
end

section
/-! PROOFS. The maintenance port: what it permits, and what its commands do (O58, O59). -/

namespace Sys2Proof.Machine

variable {s u t : State} {a v : Word}

/-! ### READ and WRITE (R382, R409 to R411) -/

theorem exec_mpRead (s : State) (a : Word) : exec (.mpRead a (mpSum 1 [a])) s = done s (s.mpRead a.toNat true) :=
  congrArg (fun b => done s (s.mpRead a.toNat b)) (beq_self_eq_true _)

theorem exec_mpWrite (s : State) (a v : Word) (c : Bool) :
    exec (.mpWrite a ⟨v, c⟩ (mpSum 2 [a, v])) s = done s (s.mpWrite a.toNat v true c) :=
  congrArg (fun b => done s (s.mpWrite a.toNat v b c)) (beq_self_eq_true _)

theorem State.mpRead_eq (s : State) (a : Nat) : s.mpRead a true =
    if s.lc.state = 4 then s.mpReply 1 0
    else if faultPath a then s.mpReply 0 (s.regView 404 a)
    else if s.lc.state = 2 then s.mpReply 1 0
    else if s.mpRuns = false then s.mpReply 5 0
    else if (s.busRead 404 a 4).2.2 = .refused then (s.busRead 404 a 4).1.mpReply 2 0
      else (s.busRead 404 a 4).1.mpReply 0 (BitVec.ofNat 32 (s.busRead 404 a 4).2.1) := if_neg Bool.true_eq_false_eq_False

theorem State.mpWrite_eq (s : State) (a : Nat) (v : Word) (c : Bool) : s.mpWrite a v true c =
    if s.lc.state = 4 ∨ s.lc.state = 2 then s.mpReply 1 0
    else if s.mpRuns = false then s.mpReply 5 0
    else (s.busWrite 404 a 4 v c).1.mpReply (if (s.busWrite 404 a 4 v c).2 = .refused then 2 else 0) 0 := if_neg Bool.true_eq_false_eq_False

/-- A state with an answer of the port that is not DENIED. -/
def State.Permits (s : State) : Prop := ∃ (t : State) (code : Nat) (d : Word), s = t.mpReply code d ∧ code ≠ 1

theorem State.mpRead_permits (s : State) (a : Nat) (open_ : s.lc.state ≠ 4) (may : faultPath a = true ∨ s.lc.state ≠ 2) :
    (s.mpRead a true).Permits := by
  rw [State.mpRead_eq, if_neg open_]
  split
  · exact ⟨_, _, _, rfl, by decide⟩
  next other =>
    rw [if_neg (may.resolve_left other)]
    split
    · exact ⟨_, _, _, rfl, by decide⟩
    split <;> exact ⟨_, _, _, rfl, by decide⟩

theorem State.mpRead_denied (s : State) (a : Nat) (closed : s.lc.state = 4 ∨ (faultPath a = false ∧ s.lc.state = 2)) :
    s.mpRead a true = s.mpReply 1 0 := by
  rw [State.mpRead_eq]
  rcases closed with retired | ⟨other, deployed⟩
  · exact if_pos retired
  · rw [other, deployed, if_neg (by decide), if_neg Bool.false_ne_true, if_pos rfl]

theorem State.mpWrite_permits (s : State) (a : Nat) (v : Word) (c : Bool) (may : ¬ (s.lc.state = 4 ∨ s.lc.state = 2)) :
    (s.mpWrite a v true c).Permits := by
  rw [State.mpWrite_eq, if_neg may]
  split
  · exact ⟨_, _, _, rfl, by decide⟩
  · exact ⟨_, _, _, rfl, by split <;> decide⟩

/-- The path of R382 reads the fault record: its status register and the words of its window. -/
theorem faultPath_iff (a : Nat) :
    faultPath a = true ↔ a = SAFE_FRSTAT_at ∨ (a % 4 = 0 ∧ ∃ (e : Fin 16) (w : Fin 8), a = SAFE_FREC_at e w) := by
  have window : SAFE_FREC_at 0 0 ≤ a ∧ a < SAFE_FREC_at 16 0 ∧ a % 4 = 0 ↔ a % 4 = 0 ∧ ∃ (e : Fin 16) (w : Fin 8), a = SAFE_FREC_at e w := by
    constructor
    · rintro ⟨low, high, word⟩
      unfold SAFE_FREC_at at *
      exact ⟨word, ⟨(a - 0x4000e800) / 32, by omega⟩, ⟨(a - 0x4000e800) % 32 / 4, by omega⟩, by dsimp only; omega⟩
    · rintro ⟨word, e, w, rfl⟩
      unfold SAFE_FREC_at at *
      omega
  unfold faultPath
  rw [Bool.or_eq_true, beq_iff_eq, Bool.and_eq_true, decide_eq_true_eq, beq_iff_eq, and_assoc, window]

/-! ### Engine commands (R410, R411) -/

theorem State.mpEngine_eq (s : State) (a mask : Word) (f : State → Nat → Nat → State × Nat × Word) : s.mpEngine a mask true f =
    if s.lc.state = 4 ∨ s.lc.state = 2 ∨ (s.lc.state = 3 ∧ s.secure (bits a.toNat 19 12) = true) then s.mpReply 1 0
    else if a &&& ~~~mask ≠ 0 then s.mpReply 7 0
    else if s.fld PAIR_STAT_ROLE ≠ 0 then s.mpReply 6 0
    else if s.mpRuns = false then s.mpReply 5 0
    else (f s (bits a.toNat 19 12) (bits a.toNat 11 8)).1.mpReply (f s (bits a.toNat 19 12) (bits a.toNat 11 8)).2.1
      (f s (bits a.toNat 19 12) (bits a.toNat 11 8)).2.2 := by
  unfold State.mpEngine
  exact if_neg Bool.true_eq_false_eq_False

/-- The engine commands of the port with a good CRC. -/
noncomputable def mpCommands (a v : Word) : List Instr :=
  [.debugHalt a (mpSum 0x10 [a]), .debugResume a (mpSum 0x11 [a]), .debugStep a (mpSum 0x12 [a]), .brkset a v (mpSum 0x13 [a, v]),
    .brkclr a (mpSum 0x14 [a]), .rdreg a (mpSum 0x15 [a]), .wrreg a v (mpSum 0x16 [a, v])]

theorem exec_debugHalt (s : State) (a : Word) : exec (.debugHalt a (mpSum 0x10 [a])) s = done s (s.mpEngine a 0xFFF00 true State.halt) :=
  congrArg (fun b => done s (s.mpEngine a 0xFFF00 b State.halt)) (beq_self_eq_true _)
theorem exec_debugResume (s : State) (a : Word) :
    exec (.debugResume a (mpSum 0x11 [a])) s = done s (s.mpEngine a 0xFFF00 true (fun s => s.resumeChan false)) :=
  congrArg (fun b => done s (s.mpEngine a 0xFFF00 b (fun s => s.resumeChan false))) (beq_self_eq_true _)
theorem exec_debugStep (s : State) (a : Word) :
    exec (.debugStep a (mpSum 0x12 [a])) s = done s (s.mpEngine a 0xFFF00 true (fun s => s.resumeChan true)) :=
  congrArg (fun b => done s (s.mpEngine a 0xFFF00 b (fun s => s.resumeChan true))) (beq_self_eq_true _)
theorem exec_brkset (s : State) (a v : Word) :
    exec (.brkset a v (mpSum 0x13 [a, v])) s = done s (s.mpEngine a 0xFFF00 true (fun s => s.brkSet v)) :=
  congrArg (fun b => done s (s.mpEngine a 0xFFF00 b (fun s => s.brkSet v))) (beq_self_eq_true _)
theorem exec_brkclr (s : State) (a : Word) : exec (.brkclr a (mpSum 0x14 [a])) s = done s (s.mpEngine a 0xFF000 true State.brkClr) :=
  congrArg (fun b => done s (s.mpEngine a 0xFF000 b State.brkClr)) (beq_self_eq_true _)
theorem exec_rdreg (s : State) (a : Word) :
    exec (.rdreg a (mpSum 0x15 [a])) s = done s (s.mpEngine a 0xFFFFF true (fun s => s.readDebug (bits a.toNat 7 0))) :=
  congrArg (fun b => done s (s.mpEngine a 0xFFFFF b (fun s => s.readDebug (bits a.toNat 7 0)))) (beq_self_eq_true _)
theorem exec_wrreg (s : State) (a v : Word) :
    exec (.wrreg a v (mpSum 0x16 [a, v])) s = done s (s.mpEngine a 0xFFFFF true (fun s => s.writeDebug (bits a.toNat 7 0) v)) :=
  congrArg (fun b => done s (s.mpEngine a 0xFFFFF b (fun s => s.writeDebug (bits a.toNat 7 0) v))) (beq_self_eq_true _)

/-- What a debug command answers is not DENIED. -/
def NeverDenied (f : State → Nat → Nat → State × Nat × Word) : Prop := ∀ s t k, (f s t k).2.1 ≠ 1

theorem halt_neverDenied : NeverDenied State.halt := by
  intro s t k
  unfold State.halt
  dsimp only
  split <;> exact Nat.ne_of_beq_eq_false rfl

theorem resumeChan_neverDenied (step : Bool) : NeverDenied (fun s => s.resumeChan step) := by
  intro s t k
  unfold State.resumeChan
  dsimp only
  split <;> exact Nat.ne_of_beq_eq_false rfl

theorem brkSet_neverDenied (v : Word) : NeverDenied (fun s => s.brkSet v) := by
  intro s t k
  unfold State.brkSet
  dsimp only
  split <;> exact Nat.ne_of_beq_eq_false rfl

theorem brkClr_neverDenied : NeverDenied State.brkClr := fun _ _ _ => Nat.ne_of_beq_eq_false rfl

theorem readDebug_neverDenied (r : Nat) : NeverDenied (fun s => s.readDebug r) := by
  intro s t k
  unfold State.readDebug
  dsimp only
  split
  · exact Nat.ne_of_beq_eq_false rfl
  · split <;> exact Nat.ne_of_beq_eq_false rfl

theorem writeDebug_neverDenied (r : Nat) (v : Word) : NeverDenied (fun s => s.writeDebug r v) := by
  intro s t k
  unfold State.writeDebug
  dsimp only
  split
  · exact Nat.ne_of_beq_eq_false rfl
  · split <;> exact Nat.ne_of_beq_eq_false rfl

/-- Every engine command is served by `mpEngine`. -/
theorem exec_mpCommands {c : Instr} (hc : c ∈ mpCommands a v) (s : State) :
    ∃ mask f, exec c s = done s (s.mpEngine a mask true f) ∧ NeverDenied f := by
  unfold mpCommands at hc
  simp only [List.mem_cons, List.not_mem_nil, or_false] at hc
  rcases hc with rfl | rfl | rfl | rfl | rfl | rfl | rfl
  · exact ⟨_, _, exec_debugHalt s a, halt_neverDenied⟩
  · exact ⟨_, _, exec_debugResume s a, resumeChan_neverDenied false⟩
  · exact ⟨_, _, exec_debugStep s a, resumeChan_neverDenied true⟩
  · exact ⟨_, _, exec_brkset s a v, brkSet_neverDenied v⟩
  · exact ⟨_, _, exec_brkclr s a, brkClr_neverDenied⟩
  · exact ⟨_, _, exec_rdreg s a, readDebug_neverDenied _⟩
  · exact ⟨_, _, exec_wrreg s a v, writeDebug_neverDenied _ v⟩

theorem State.mpEngine_permits {mask : Word} {f : State → Nat → Nat → State × Nat × Word} (never : NeverDenied f)
    (may : ¬ (s.lc.state = 4 ∨ s.lc.state = 2 ∨ (s.lc.state = 3 ∧ s.secure (bits a.toNat 19 12) = true))) :
    (s.mpEngine a mask true f).Permits := by
  rw [State.mpEngine_eq, if_neg may]
  split
  · exact ⟨_, _, _, rfl, by decide⟩
  split
  · exact ⟨_, _, _, rfl, by decide⟩
  split
  · exact ⟨_, _, _, rfl, by decide⟩
  · exact ⟨_, _, _, rfl, never _ _ _⟩

/-- A command with an answer that is not DENIED. -/
theorem permitted {c : Instr} (runs : exec c s = done s u) (permits : u.Permits) : ∃ (t : State) (code : Nat) (d : Word),
    exec c s = .next (settle s (t.emit (.message "MP" (mpAnswer code d)))) ∧ code ≠ 1 := by
  obtain ⟨t, code, d, rfl, other⟩ := permits
  exact ⟨t, code, d, runs, other⟩

/-- Settles O58: the life-cycle state and the secure mark decide alone, before all else but the CRC, whether a command is denied. -/
theorem maintenancePortKeepsTheLifeCycle : Obligations.MaintenancePortKeepsTheLifeCycle := by
  unfold Obligations.MaintenancePortKeepsTheLifeCycle
  intro s a v known
  dsimp only
  refine ⟨fun st => ⟨?_, fun c => ?_⟩, fun st c hc => ?_, fun st sec c hc => ?_, fun st => ⟨fun record => ?_, fun other => ?_, fun c => ?_, fun c hc => ?_⟩,
    fun st => ⟨?_, fun c => ?_, fun c hc => ?_⟩⟩
  · exact permitted (exec_mpRead s a) (s.mpRead_permits _ (by omega) (.inr (by omega)))
  · exact permitted (exec_mpWrite s a v c) (s.mpWrite_permits _ v c (by omega))
  · obtain ⟨mask, f, runs, never⟩ := exec_mpCommands hc s
    refine permitted runs (State.mpEngine_permits never ?_)
    rcases st with st | ⟨st, plain⟩
    · omega
    · exact fun h => plain ((h.resolve_left (by omega)).resolve_left (by omega)).2
  · obtain ⟨mask, f, runs, -⟩ := exec_mpCommands hc s
    exact runs.trans (congrArg (done s) ((s.mpEngine_eq a mask f).trans (if_pos (.inr (.inr ⟨st, sec⟩)))))
  · exact permitted (exec_mpRead s a) (s.mpRead_permits _ (by omega) (.inl ((faultPath_iff _).mpr record)))
  · exact (exec_mpRead s a).trans (congrArg (done s) (s.mpRead_denied _ (.inr ⟨Bool.eq_false_iff.mpr fun h => other ((faultPath_iff _).mp h), st⟩)))
  · exact (exec_mpWrite s a v c).trans (congrArg (done s) ((s.mpWrite_eq _ v c).trans (if_pos (.inr st))))
  · obtain ⟨mask, f, runs, -⟩ := exec_mpCommands hc s
    exact runs.trans (congrArg (done s) ((s.mpEngine_eq a mask f).trans (if_pos (.inr (.inl st)))))
  · exact (exec_mpRead s a).trans (congrArg (done s) (s.mpRead_denied _ (.inl st)))
  · exact (exec_mpWrite s a v c).trans (congrArg (done s) ((s.mpWrite_eq _ v c).trans (if_pos (.inl st))))
  · obtain ⟨mask, f, runs, -⟩ := exec_mpCommands hc s
    exact runs.trans (congrArg (done s) ((s.mpEngine_eq a mask f).trans (if_pos (.inl st))))

end Sys2Proof.Machine
end

section
/-! PROOFS. What the commands of the maintenance port do (O59). -/

namespace Sys2Proof.Machine

variable {s u : State} {a v : Word} {t k r : Nat}

/-! ### Requests that are not served (R409) -/

theorem mpRead_badCrc (s : State) {crc : BitVec 8} (bad : crc ≠ mpSum 1 [a]) : exec (.mpRead a crc) s = done s (s.mpReply 3 0) :=
  congrArg (done s) (if_pos (beq_eq_false_iff_ne.mpr bad))

theorem mpWrite_badCrc (s : State) {crc : BitVec 8} (bad : crc ≠ mpSum 2 [a, v]) (c : Bool) :
    exec (.mpWrite a ⟨v, c⟩ crc) s = done s (s.mpReply 3 0) :=
  congrArg (done s) (if_pos (beq_eq_false_iff_ne.mpr bad))

theorem debugHalt_badCrc (s : State) {crc : BitVec 8} (bad : crc ≠ mpSum 0x10 [a]) : exec (.debugHalt a crc) s = done s (s.mpReply 3 0) :=
  congrArg (done s) (if_pos (beq_eq_false_iff_ne.mpr bad))

theorem wrreg_badCrc (s : State) {crc : BitVec 8} (bad : crc ≠ mpSum 0x16 [a, v]) : exec (.wrreg a v crc) s = done s (s.mpReply 3 0) :=
  congrArg (done s) (if_pos (beq_eq_false_iff_ne.mpr bad))

theorem State.mpRead_record (path : faultPath a.toNat = true) (life : s.lc.state ≠ 4) :
    s.mpRead a.toNat true = s.mpReply 0 (s.regView 404 a.toNat) := by
  rw [State.mpRead_eq, if_neg life, if_pos path]

/-- In BLANK a read of another register takes the bus. -/
theorem State.mpRead_blank (path : faultPath a.toNat = false) (life : s.lc.state = 0) : s.mpRead a.toNat true =
    if s.mpRuns = false then s.mpReply 5 0
    else if (s.busRead 404 a.toNat 4).2.2 = .refused then (s.busRead 404 a.toNat 4).1.mpReply 2 0
      else (s.busRead 404 a.toNat 4).1.mpReply 0 (BitVec.ofNat 32 (s.busRead 404 a.toNat 4).2.1) := by
  rw [State.mpRead_eq, life, path, if_neg (by decide), if_neg Bool.false_ne_true, if_neg (by decide)]

theorem State.mpWrite_blank (life : s.lc.state = 0) (c : Bool) : s.mpWrite a.toNat v true c =
    if s.mpRuns = false then s.mpReply 5 0
    else (s.busWrite 404 a.toNat 4 v c).1.mpReply (if (s.busWrite 404 a.toNat 4 v c).2 = .refused then 2 else 0) 0 := by
  rw [State.mpWrite_eq, life, if_neg (by decide)]

theorem not_stopped (runs : s.mpRuns = true) : ¬ s.mpRuns = false := ne_of_eq_of_ne runs Bool.false_ne_true.symm

/-! ### Engine commands (R410 to R413) -/

theorem State.mpEngine_badBit {mask : Word} {f : State → Nat → Nat → State × Nat × Word} (life : s.lc.state = 0)
    (unused : a &&& ~~~mask ≠ 0) : s.mpEngine a mask true f = s.mpReply 7 0 := by
  rw [State.mpEngine_eq, life, if_neg (by simp), if_pos unused]

/-- In BLANK, outside a pair and with a running bus, an engine command with its address bits acts. -/
theorem State.mpEngine_acts {mask : Word} {f : State → Nat → Nat → State × Nat × Word} {code : Nat} {d : Word} (life : s.lc.state = 0)
    (runs : s.mpRuns = true) (single : s.fld PAIR_STAT_ROLE = 0) (used : a &&& ~~~mask = 0)
    (answer : f s (bits a.toNat 19 12) (bits a.toNat 11 8) = (u, code, d)) : s.mpEngine a mask true f = u.mpReply code d := by
  rw [State.mpEngine_eq, life, if_neg (by simp), if_neg (not_not.mpr used), single, if_neg (by decide), if_neg (not_stopped runs), answer]

theorem State.halt_live (live : (s.slotOf t k).st.live = true) (runs : (s.slotOf t k).stop = none) :
    s.halt t k = (s.setChan (16 * t + k) { s.slotOf t k with halt := some 0 }, 0, 0) := by
  unfold State.halt
  dsimp only
  exact if_neg (by rw [live, runs]; decide)

theorem State.halt_state (h : (s.slotOf t k).st.live = false ∨ (s.slotOf t k).stop ≠ none) : s.halt t k = (s, 4, 0) :=
  if_pos (h.imp_right Option.isSome_iff_ne_none.mpr)

theorem State.resumeChan_stopped (step : Bool) (owned : (s.slotOf t k).st ≠ .free) (stopped : (s.slotOf t k).stop ≠ none) :
    s.resumeChan step t k = (s.setChan (16 * t + k) { s.slotOf t k with resume := some step }, 0, 0) :=
  if_neg fun h => h.elim owned fun none => stopped (Option.isNone_iff_eq_none.mp none)

theorem State.resumeChan_state (step : Bool) (h : (s.slotOf t k).st = .free ∨ (s.slotOf t k).stop = none) :
    s.resumeChan step t k = (s, 4, 0) := if_pos (h.imp_right Option.isNone_iff_eq_none.mpr)

theorem State.brkSet_owned (v : Word) (owned : (s.slotOf t k).st ≠ .free) : s.brkSet v t k = (s.setEng t { s.engOf t with
    brk := true, bp := if v.toNat.testBit 31 then some (k, bits v.toNat 11 0) else (s.engOf t).bp }, 0, 0) := if_neg owned

theorem State.readDebug_unlisted (none : s.debugReg t k r = none) : s.readDebug r t k = (s, 7, 0) := by
  unfold State.readDebug
  rw [none]

theorem State.readDebug_listed {w : Word} (listed : s.debugReg t k r = some w) : s.readDebug r t k =
    if (s.slotOf t k).st = .free ∨ (s.slotOf t k).stop.isNone then (s, 4, 0) else (if r = 0x23 then s.fresh else s, 0, w) := by
  unfold State.readDebug
  rw [listed]

theorem State.writeDebug_unlisted (none : (s.slotOf t k).bank.debugWrite r v = none) : s.writeDebug r v t k = (s, 7, 0) := by
  unfold State.writeDebug
  dsimp only
  rw [none]

theorem State.writeDebug_listed {b : Bank} (listed : (s.slotOf t k).bank.debugWrite r v = some b) : s.writeDebug r v t k =
    if (s.slotOf t k).st = .free ∨ (s.slotOf t k).stop.isNone then (s, 4, 0) else
      (s.setChan (16 * t + k) { s.slotOf t k with bank := b }, 0, 0) := by
  unfold State.writeDebug
  dsimp only
  rw [listed]

/-- A channel that stands at a breakpoint or behind a halt. -/
theorem stopped_iff (c : Chan) : (c.st ≠ .free ∧ c.stop ≠ none) ↔ ¬ (c.st = .free ∨ c.stop.isNone = true) := by
  rw [not_or, Option.isNone_iff_eq_none]

theorem State.debugReg_general (low : r < 0x10) : s.debugReg t k r = some ((s.slotOf t k).bank.val r) := if_pos low

theorem Bank.debugWrite_general (b : Bank) (low : r < 0x10) : b.debugWrite r v = some (b.setVal r v) := if_pos low

/-- Settles O59: a request with a wrong CRC or without a bus answers its status; READ and WRITE perform the access as requester 404, and
the engine commands act on the addressed channel. -/
theorem maintenancePortActs : Obligations.MaintenancePortActs := by
  unfold Obligations.MaintenancePortActs
  intro s a v
  dsimp only
  refine ⟨rfl, fun crc => ⟨mpRead_badCrc s, mpWrite_badCrc s, debugHalt_badCrc s, wrreg_badCrc s⟩, fun life stands path => ⟨?_, fun c => ?_⟩,
    fun path life => ?_, fun life runs => ⟨fun path => ⟨fun served => ?_, fun refused => ?_⟩, fun c served => ?_, fun c refused => ?_, fun unused => ?_,
      fun single => ⟨fun used => ⟨fun live going => ?_, fun other => ?_, fun owned stopped => ⟨?_, ?_⟩, fun other => ⟨?_, ?_⟩, fun owned => ?_⟩,
        fun used => ?_, fun used => ⟨fun stopped low => ⟨?_, ?_⟩, fun w listed => ⟨fun stopped => ?_, fun going => ?_⟩, fun none => ?_,
          fun b listed => ⟨fun stopped => ?_, fun going => ?_⟩, fun none => ?_⟩⟩⟩⟩
  · exact (exec_mpRead s a).trans (congrArg (done s) ((State.mpRead_blank path life).trans (if_pos stands)))
  · exact (exec_mpWrite s a v c).trans (congrArg (done s) ((State.mpWrite_blank life c).trans (if_pos stands)))
  · exact (exec_mpRead s a).trans (congrArg (done s) (State.mpRead_record path life))
  · refine (exec_mpRead s a).trans (congrArg (done s) ?_)
    rw [State.mpRead_blank path life, if_neg (not_stopped runs), if_neg served]
    rfl
  · refine (exec_mpRead s a).trans (congrArg (done s) ?_)
    rw [State.mpRead_blank path life, if_neg (not_stopped runs), if_pos refused]
    rfl
  · refine (exec_mpWrite s a v c).trans (congrArg (done s) ?_)
    rw [State.mpWrite_blank life, if_neg (not_stopped runs), if_neg served]
    rfl
  · refine (exec_mpWrite s a v c).trans (congrArg (done s) ?_)
    rw [State.mpWrite_blank life, if_neg (not_stopped runs), if_pos refused]
    rfl
  · exact (exec_debugHalt s a).trans (congrArg (done s) (State.mpEngine_badBit life unused))
  · exact (exec_debugHalt s a).trans (congrArg (done s) (State.mpEngine_acts life runs single used (State.halt_live live going)))
  · exact (exec_debugHalt s a).trans (congrArg (done s) (State.mpEngine_acts life runs single used (State.halt_state other)))
  · exact (exec_debugResume s a).trans (congrArg (done s)
      (State.mpEngine_acts life runs single used (State.resumeChan_stopped false owned stopped)))
  · exact (exec_debugStep s a).trans (congrArg (done s)
      (State.mpEngine_acts life runs single used (State.resumeChan_stopped true owned stopped)))
  · exact (exec_debugResume s a).trans (congrArg (done s) (State.mpEngine_acts life runs single used (State.resumeChan_state false other)))
  · exact (exec_debugStep s a).trans (congrArg (done s) (State.mpEngine_acts life runs single used (State.resumeChan_state true other)))
  · exact (exec_brkset s a v).trans (congrArg (done s) (State.mpEngine_acts life runs single used (State.brkSet_owned v owned)))
  · exact (exec_brkclr s a).trans (congrArg (done s) (State.mpEngine_acts life runs single used rfl))
  · exact (exec_rdreg s a).trans (congrArg (done s) (State.mpEngine_acts life runs single used
      (((State.readDebug_listed (State.debugReg_general low)).trans (if_neg ((stopped_iff _).mp stopped))).trans
        (congrArg (fun x => (x, 0, _)) (if_neg (by omega))))))
  · exact (exec_wrreg s a v).trans (congrArg (done s) (State.mpEngine_acts life runs single used
      ((State.writeDebug_listed (Bank.debugWrite_general _ low)).trans (if_neg ((stopped_iff _).mp stopped)))))
  · exact (exec_rdreg s a).trans (congrArg (done s) (State.mpEngine_acts life runs single used
      ((State.readDebug_listed listed).trans (if_neg ((stopped_iff _).mp stopped)))))
  · exact (exec_rdreg s a).trans (congrArg (done s) (State.mpEngine_acts life runs single used
      ((State.readDebug_listed listed).trans (if_pos (not_not.mp fun h => going ((stopped_iff _).mpr h))))))
  · exact (exec_rdreg s a).trans (congrArg (done s) (State.mpEngine_acts life runs single used (State.readDebug_unlisted none)))
  · exact (exec_wrreg s a v).trans (congrArg (done s) (State.mpEngine_acts life runs single used
      ((State.writeDebug_listed listed).trans (if_neg ((stopped_iff _).mp stopped)))))
  · exact (exec_wrreg s a v).trans (congrArg (done s) (State.mpEngine_acts life runs single used
      ((State.writeDebug_listed listed).trans (if_pos (not_not.mp fun h => going ((stopped_iff _).mpr h))))))
  · exact (exec_wrreg s a v).trans (congrArg (done s) (State.mpEngine_acts life runs single used (State.writeDebug_unlisted none)))

end Sys2Proof.Machine
end

section
/-! PROOFS. The PCIe endpoint: requests, messages, its header, its resets and its link (O57). -/

namespace Sys2Proof.Machine

variable {s u : State}

/-! ### Memory requests (R389 to R392) -/

theorem State.linkUp_iff (s : State) : s.linkUp_ = true ↔ s.fb PCIE_STAT_LINKUP = true ∧ s.pcie.perst = false := by
  unfold State.linkUp_
  rw [Bool.and_eq_true, Bool.not_eq_true']

theorem State.decodes_iff (s : State) : s.decodes = true ↔
    (s.fb PCIE_STAT_LINKUP = true ∧ s.pcie.perst = false) ∧ s.pcie.mse = true ∧ s.fb PCIE_STAT_D3 = false := by
  unfold State.decodes
  rw [Bool.and_eq_true, Bool.and_eq_true, State.linkUp_iff, Bool.not_eq_true', and_assoc]

/-- The request counted and answered as unsupported. -/
def State.countedUr (s : State) : State := (s.addSat PCIE_CNT_UR 1).emit (.message "UR" [])

theorem State.unsupported_up (up : s.linkUp_ = true) : s.unsupported = s.countedUr := if_pos up

theorem State.unsupported_down (down : ¬ s.linkUp_ = true) : s.unsupported = s := if_neg down

theorem State.memoryWrite_decoded {x colls : Nat} {dws : List (Nat × Word)} (decodes : s.decodes = true) (runs : s.busRuns = true) :
    s.memoryWrite x dws false colls = s.putDwords x colls dws := by
  unfold State.memoryWrite
  rw [decodes, if_neg Bool.true_eq_false_eq_False, if_neg Bool.false_ne_true, if_pos runs]

theorem State.memoryWrite_poisoned {x colls : Nat} {dws : List (Nat × Word)} (decodes : s.decodes = true) :
    s.memoryWrite x dws true colls = (s.addSat PCIE_CNT_POISONED 1).setFld PCIE_IRQ_STAT_POISON 1 := by
  unfold State.memoryWrite
  rw [decodes, if_neg Bool.true_eq_false_eq_False, if_pos rfl]

theorem State.memoryRead_decoded {x n : Nat} (decodes : s.decodes = true) (runs : s.busRuns = true) :
    s.memoryRead x n = (s.getDwords x n).1.emit (.message "CPLD" (s.getDwords x n).2) := by
  unfold State.memoryRead
  rw [decodes, if_neg Bool.true_eq_false_eq_False, if_pos runs]

theorem State.memoryWrite_undecoded (x colls : Nat) (dws : List (Nat × Word)) (p : Bool) (off : s.decodes = false) :
    s.memoryWrite x dws p colls = s.unsupported := if_pos off

theorem State.memoryRead_undecoded (x n : Nat) (off : s.decodes = false) : s.memoryRead x n = s.unsupported := if_pos off

/-- A whole dword is one access. -/
theorem State.putDwords_whole (s : State) (x colls : Nat) (v : Word) :
    s.putDwords x colls [(0xF, v)] = (s.busWrite 403 (s.barAddr x) 4 v (colls.testBit 0)).1 := by
  have unshifted : v >>> (8 * 0) = v := BitVec.ushiftRight_zero v
  show (s.busWrite 403 (s.barAddr x + 0) 4 (v >>> (8 * 0)) (colls.testBit 0)).1 = _
  rw [unshifted, Nat.add_zero]

/-! ### The configuration header (R389, R391, R394) -/

theorem State.header_class (s : State) : bits (s.header 2).toNat 31 8 = 0x118000 ∧ bits (s.header 2).toNat 7 0 = s.fld SYS_REVISION_MAJOR := by
  have major : s.fld SYS_REVISION_MAJOR < 2 ^ 8 := bits_lt _ _ _
  have word : (s.header 2).toNat = 0x11800000 + s.fld SYS_REVISION_MAJOR := by
    show (BitVec.ofNat 32 (0x11800000 + s.fld SYS_REVISION_MAJOR)).toNat = _
    rw [BitVec.toNat_ofNat, Nat.mod_eq_of_lt (by omega)]
  rw [word]
  unfold bits
  omega

theorem State.configRequest_read {h : HeaderAccess} {bme en d3 : Bool} {g : Nat} {r : Fin 64} (up : s.linkUp_ = true) (read : h.read = some r) :
    s.configRequest h bme en d3 g = s.fresh.emit (.message "CPL" [r.val, (s.header r.val).toNat]) := by
  unfold State.configRequest
  rw [up, if_neg Bool.true_eq_false_eq_False, read]

/-- The header as a configuration write leaves it. -/
def State.headerSet (s : State) (mse : Bool) (bar : Word) (bme en d3 : Bool) (g : Nat) : State :=
  (((({ s with pcie := ⟨mse, bme, en, 2 ^ g, s.pcie.perst, bar &&& 0xFC000000⟩ } : State).setB PCIE_STAT_D3 d3).setB PCIE_STAT_BME bme).setB
    PCIE_STAT_MSIEN en).setFld PCIE_STAT_MSIGRANT g

theorem State.configRequest_write {mse : Bool} {bar : Word} {bme en d3 : Bool} {g : Nat} (up : s.linkUp_ = true) :
    s.configRequest ⟨mse, bar, none⟩ bme en d3 g =
      if mse ∧ s.loader.source = .host ∧ s.loader.phase ≠ .idle ∧ s.pwr.released = false ∧ s.loader.deadline = none then
        { s.headerSet mse bar bme en d3 g with loader := { s.loader with deadline := some s.tb.now } }
      else s.headerSet mse bar bme en d3 g := by
  unfold State.configRequest
  rw [up, if_neg Bool.true_eq_false_eq_False]
  rfl

theorem State.headerSet_shows (s : State) (mse : Bool) (bar : Word) (bme en d3 : Bool) (g : Fin 4) :
    (s.headerSet mse bar bme en d3 g).fb PCIE_STAT_D3 = d3 ∧ (s.headerSet mse bar bme en d3 g).fb PCIE_STAT_BME = bme ∧
      (s.headerSet mse bar bme en d3 g).fb PCIE_STAT_MSIEN = en ∧ (s.headerSet mse bar bme en d3 g).fld PCIE_STAT_MSIGRANT = g := by
  unfold State.headerSet
  generalize ({ s with pcie := _ } : State) = t
  refine ⟨?_, ?_, ?_, State.fld_setFld_fits (by decide) (lt_of_lt_of_le g.isLt (by decide))⟩
  · rw [State.fb_setFld_apart _ _ _ (by decide), State.setB, State.fb_setFld_apart _ _ _ (by decide), State.setB,
      State.fb_setFld_apart _ _ _ (by decide), State.fb_setB_same _ _ (by decide)]
  · rw [State.fb_setFld_apart _ _ _ (by decide), State.setB, State.fb_setFld_apart _ _ _ (by decide), State.fb_setB_same _ _ (by decide)]
  · rw [State.fb_setFld_apart _ _ _ (by decide), State.fb_setB_same _ _ (by decide)]

/-! ### Resets and the link (R390, R393, R394) -/

theorem State.headerReset_pcie (s : State) : s.headerReset.pcie.mse = false := rfl

theorem State.headerReset_linkup (s : State) : s.headerReset.fb PCIE_STAT_LINKUP = false := by
  unfold State.headerReset
  rw [State.fb_setFld_apart _ _ _ (by decide), State.fb_setFld_zero _ (by decide)]

theorem State.headerReset_reg (s : State) {a : Nat} (other : a ≠ PCIE_STAT_at) : s.headerReset.reg a = s.reg a := by
  unfold State.headerReset
  dsimp only
  rw [State.reg_setFld_other _ other, State.reg_setFld_other _ other, State.reg_setFld_other _ other, State.reg_setFld_other _ other,
    State.reg_setFld_other _ other, State.reg_setFld_other _ other]
  rfl

/-- A link loss resets the header and keeps the windows. -/
theorem State.pcieDown_shows (up : s.linkUp_ = true) : s.pcieDown.fb PCIE_STAT_LINKUP = false ∧ s.pcieDown.pcie.mse = false ∧
    s.pcieDown.fb PCIE_IRQ_STAT_LINKDOWN = true ∧ ∀ w : Fin 15, s.pcieDown.reg (PCIE_WIN_at w) = s.reg (PCIE_WIN_at w) := by
  have down : s.pcieDown = s.headerReset.setFld PCIE_IRQ_STAT_LINKDOWN 1 := if_pos up
  rw [down]
  refine ⟨?_, ?_, State.fb_setFld_one _ (by decide), fun w => ?_⟩
  · rw [State.fb_setFld_apart _ _ _ (by decide), s.headerReset_linkup]
  · rw [State.setFld_pcie, s.headerReset_pcie]
  · rw [State.reg_setFld_other _ (by show PCIE_WIN_at w ≠ PCIE_IRQ_STAT_at; unfold PCIE_WIN_at PCIE_IRQ_STAT_at; omega), s.headerReset_reg (by unfold PCIE_WIN_at PCIE_STAT_at; omega)]

/-- The endpoint, the PCIE block and the held messages at reset. -/
def State.pcieReset (s : State) : State :=
  { s with
    pcie := { State.reset.pcie with perst := true }
    msiHeld := []
    regs := s.regs.filter (fun p => p.1 / 0x1000 != 0x40010) }

theorem State.pcieReset_reg (s : State) {a : Nat} (block : a / 0x1000 = 0x40010) : s.pcieReset.reg a = rstWord a := by
  refine (tget_filter (rstWord a) s.regs (fun a => a / 0x1000 != 0x40010) a).trans (if_neg ?_)
  rw [block]
  decide

/-- PERST of an endpoint that was not in reset, where no host load is in progress. -/
theorem State.perstLow_eq (out : s.pcie.perst = false)
    (calm : s.pwr.released = true ∨ s.loader.source ≠ .host ∨ s.loader.phase = .idle) : s.perstLow =
      ((s.pcieReset.setB PCIE_STAT_LOADER (!s.pwr.released)).setFld PCIE_IRQ_STAT_PERST 1).offBit CLK_STAT_LOCK 4 := by
  have stays : ∀ t : State, t.pwr = s.pwr → t.loader = s.loader → t.perstLoad = t := by
    intro t power loader
    refine if_neg ?_
    rw [power, loader]
    rintro ⟨held, host, loads⟩
    rcases calm with h | h | h
    · exact absurd (h.symm.trans held) Bool.true_eq_false_eq_False
    · exact h host
    · exact loads h
  unfold State.perstLow
  rw [out, if_neg Bool.false_ne_true]
  exact stays _ rfl rfl

theorem State.perstLow_shows (out : s.pcie.perst = false)
    (calm : s.pwr.released = true ∨ s.loader.source ≠ .host ∨ s.loader.phase = .idle) : s.perstLow.pcie.perst = true ∧
      s.perstLow.pcie.mse = false ∧ s.perstLow.pcie.bme = false ∧ s.perstLow.fb PCIE_STAT_LINKUP = false ∧
      s.perstLow.fb PCIE_IRQ_STAT_PERST = true ∧ s.perstLow.locked 4 = false ∧
      ∀ w : Fin 15, s.perstLow.fld (PCIE_WIN_BASE w) = (PCIE_WIN_BASE w).get (rstWord (PCIE_WIN_at w)) := by
  have reset : ((s.pcieReset.setB PCIE_STAT_LOADER (!s.pwr.released)).setFld PCIE_IRQ_STAT_PERST 1).offBit CLK_STAT_LOCK 4 =
      s.perstLow := (State.perstLow_eq out calm).symm
  have pcie : s.perstLow.pcie = { State.reset.pcie with perst := true } := by
    rw [← reset, State.offBit, State.setFld_pcie, State.setFld_pcie, State.setB, State.setFld_pcie]
    rfl
  have down : (RF.get PCIE_STAT_LINKUP (rstWord PCIE_STAT_at)) = 0 := by decide
  rw [pcie, ← reset]
  refine ⟨rfl, rfl, rfl, ?_, ?_, State.fbit_offBit_same CLK_STAT_LOCK (by decide) (by decide : 4 < 5), fun w => ?_⟩
  · rw [State.offBit, State.fb_setFld_apart _ _ _ (by decide), State.fb_setFld_apart _ _ _ (by decide), State.setB,
      State.fb_setFld_apart _ _ _ (by decide), State.fb, State.fld, s.pcieReset_reg (by decide), down]
    rfl
  · rw [State.offBit, State.fb_setFld_apart _ _ _ (by decide), State.fb_setFld_one _ (by decide)]
  · have window (a : Nat) (h : a < 0x40010040 ∨ 0x4001007c ≤ a) : (PCIE_WIN_BASE w).addr ≠ a := by
      show PCIE_WIN_at w ≠ a
      unfold PCIE_WIN_at
      omega
    rw [State.offBit, State.fld_setFld_apart _ _ _ _ (.inl (window _ (by decide))), State.fld_setFld_apart _ _ _ _ (.inl (window _ (by decide))),
      State.setB, State.fld_setFld_apart _ _ _ _ (.inl (window _ (by decide))), State.fld, s.pcieReset_reg]
    show PCIE_WIN_at w / 0x1000 = 0x40010
    unfold PCIE_WIN_at
    omega

/-- Settles O57: a decoded request performs its accesses as requester 403, another is counted as unsupported, and resets, training, link
losses and configuration writes leave the header as their rules say. -/
theorem thePcieEndpointAnswersItsHost : Obligations.ThePcieEndpointAnswersItsHost := by
  unfold Obligations.ThePcieEndpointAnswersItsHost
  intro s
  dsimp only
  refine ⟨fun off v decode runs => ⟨fun colls => ?_, ?_⟩, fun off dws colls n decode runs => ⟨?_, ?_⟩, fun off dws colls decode => ?_,
    fun off dws n p colls up off_ => ⟨?_, ?_⟩, fun up => ?_, fun down => ?_, fun open_ => ?_, fun closed => ?_, fun out calm => ?_, fun held => ?_,
    rfl, fun g out locked => ?_, fun up => ?_, fun h bme en d3 g r up read => ?_, rfl, s.header_class.1, s.header_class.2, rfl,
    fun mse bar bme en d3 g up => ?_, fun h bme en d3 g down => ?_⟩
  · exact congrArg (done s) ((State.memoryWrite_decoded (s.decodes_iff.mpr decode) runs).trans (s.putDwords_whole _ colls v))
  · exact congrArg (done s) (State.memoryRead_decoded (s.decodes_iff.mpr decode) runs)
  · exact congrArg (done s) (State.memoryWrite_decoded (s.decodes_iff.mpr decode) runs)
  · exact congrArg (done s) (State.memoryRead_decoded (s.decodes_iff.mpr decode) runs)
  · exact congrArg (done s) (State.memoryWrite_poisoned (s.decodes_iff.mpr decode))
  · exact congrArg (done s) ((s.memoryWrite_undecoded _ _ _ p (Bool.eq_false_iff.mpr fun h => off_ (s.decodes_iff.mp h))).trans
      (State.unsupported_up (s.linkUp_iff.mpr up)))
  · exact congrArg (done s) ((s.memoryRead_undecoded _ _ (Bool.eq_false_iff.mpr fun h => off_ (s.decodes_iff.mp h))).trans
      (State.unsupported_up (s.linkUp_iff.mpr up)))
  · exact congrArg (done s) (State.unsupported_up (s.linkUp_iff.mpr up))
  · exact congrArg (done s) (State.unsupported_down fun h => down (s.linkUp_iff.mp h))
  · exact congrArg (done s) (if_pos open_)
  · exact congrArg (done s) (if_neg (by rw [closed]; exact Bool.false_ne_true))
  · refine ⟨_, rfl, ?_⟩
    rw [settle_pcie, settle_fb, settle_fb, State.locked, settle_fbit]
    simp only [settle_fld]
    exact State.perstLow_shows out calm
  · exact congrArg (done s) (if_pos held)
  · refine ⟨_, congrArg (done s) (if_pos ⟨out, locked⟩), ?_, ?_⟩
    · rw [settle_fb, State.setB, State.fb_setFld_apart _ _ _ (by decide), State.fb_setFld_one _ (by decide)]
    · rw [settle_fb, State.fb_setB_same _ _ (by decide)]
  · refine ⟨_, rfl, ?_⟩
    rw [settle_fb, settle_pcie, settle_fb]
    simp only [settle_reg]
    exact State.pcieDown_shows (s.linkUp_iff.mpr up)
  · exact congrArg (done s) (State.configRequest_read (s.linkUp_iff.mpr up) read)
  · obtain ⟨low, bus, msi, grant⟩ := s.headerSet_shows mse bar bme en d3 g
    have pcie : (s.headerSet mse bar bme en d3 g).pcie = ⟨mse, bme, en, 2 ^ g.val, false, bar &&& 0xFC000000⟩ := by
      rw [← up.2]
      rfl
    refine ⟨_, congrArg (done s) (State.configRequest_write (s.linkUp_iff.mpr up)), ?_⟩
    rw [settle_pcie, settle_fb, settle_fb, settle_fb, settle_fld, settle_loader]
    split
    · exact ⟨pcie, low, bus, msi, grant, fun _ _ _ _ _ => rfl⟩
    next none => exact ⟨pcie, low, bus, msi, grant, fun m h l r d => absurd ⟨m, h, l, r, d⟩ none⟩
  · exact congrArg (done s) (if_pos (Bool.eq_false_iff.mpr fun h => down (s.linkUp_iff.mp h)))

end Sys2Proof.Machine
end

section
/-! PROOFS. The nodes of the lines: states, frames, marks, firings and pulses (O46). -/

namespace Sys2Proof.Machine

variable {s u : State} {l k : Nat} {f : LineFrame}

/-! ### Where a node stands -/

theorem State.nodeOf_setNode_same (s : State) (l k : Nat) (x : Node) : (s.setNode l k x).nodeOf l k = x := tget_tset_same _ _ _ _

theorem State.nodeOf_of_nodes (h : u.nodes = s.nodes) : u.nodeOf l k = s.nodeOf l k := congrArg (tget (nodeReset l k) · (32 * l + k)) h

theorem settle_nodeOf (t : State) : (settle s t).nodeOf l k = t.nodeOf l k := State.nodeOf_of_nodes (settle_nodes s t)

theorem State.nodeOf_nodeSends (s : State) (l k : Nat) (data : Bool) (f : LineFrame) (bytes : List Nat) (x : Node) :
    ((s.setNode l k x).nodeSends l k data f bytes).nodeOf l k = x :=
  (State.nodeOf_of_nodes (show ((s.setNode l k x).nodeSends l k data f bytes).nodes = (s.setNode l k x).nodes from rfl)).trans
    (s.nodeOf_setNode_same l k x)

theorem State.nodeOf_nodeMarks (s : State) (l k : Nat) (x : Node) : ((s.setNode l k x).nodeMarks l k).nodeOf l k = x :=
  (State.nodeOf_of_nodes (show ((s.setNode l k x).nodeMarks l k).nodes = (s.setNode l k x).nodes from rfl)).trans (s.nodeOf_setNode_same l k x)

/-! ### States (R285, R289) -/

/-- A node in a state with its outputs safe and nothing armed or pending. -/
def Node.Safe (x : Node) (l k : Nat) (st : NodeState) : Prop := x.st = st ∧ x.outs = Config.nodeSafe l k ∧ x.armed = [] ∧ x.pulses = []

theorem Node.safe_safe (x : Node) (l k : Nat) (st : NodeState) : (x.safe l k st).Safe l k st := ⟨rfl, rfl, rfl, rfl⟩

theorem State.nodeLock_offline (offline : (s.nodeOf l k).st = .offline) : s.nodeLock l k = s.setNode l k ((s.nodeOf l k).safe l k .hold) :=
  if_pos offline

theorem State.nodeTimeout_run (run : (s.nodeOf l k).st = .run) : s.nodeTimeout l k = s.setNode l k ((s.nodeOf l k).safe l k .hold) := if_pos run

/-! ### Frames (R287, R288, R290) -/

/-- The count of accepted frames in a row that allow RUN. -/
def Node.readyAfter (x : Node) (k : Nat) (f : LineFrame) : Nat :=
  match f.seg k with | some (_, en, _) => if en && !f.safe then x.ready + 1 else 0 | none => 0

/-- A node with an accepted data frame. -/
def Node.receive (x : Node) (k : Nat) (f : LineFrame) : Node :=
  if (f.seg k).isSome then
    { x with epoch := f.epoch, ready := x.readyAfter k f, data := some f, sigs := x.sigs.drop f.sign, rxerr := 0, siglost := 0, eprej := false }
  else { x with epoch := f.epoch, ready := x.readyAfter k f, data := some f }

/-- Whether a data frame takes a node from RUN to HOLD. -/
def Node.holds (x : Node) (k : Nat) (f : LineFrame) : Bool :=
  x.st == .run && (f.safe || (match f.seg k with | some (_, en, _) => !en | none => false))

/-- What a node makes of a data frame that it accepts. -/
def Node.accept (x : Node) (l k : Nat) (f : LineFrame) : Node :=
  if x.holds k f then { (x.receive k f).safe l k .hold with ready := x.readyAfter k f } else x.receive k f

theorem State.nodeData_accepted (loop aux nfault : Nat) (on : (s.nodeOf l k).st ≠ .offline) (good : f.good = true)
    (epoch : (s.nodeOf l k).epoch ≤ f.epoch) : (s.nodeData l k f loop aux nfault).nodeOf l k = (s.nodeOf l k).accept l k f := by
  unfold State.nodeData
  dsimp only
  rw [if_neg on, good, if_neg Bool.true_eq_false_eq_False, if_neg (Nat.not_lt.mpr epoch), State.nodeOf_nodeSends]
  rfl

theorem Node.receive_keeps (x : Node) (k : Nat) (f : LineFrame) : (x.receive k f).data = some f ∧ (x.receive k f).epoch = f.epoch := by
  unfold Node.receive
  split <;> exact ⟨rfl, rfl⟩

theorem Node.accept_keeps (x : Node) (l k : Nat) (f : LineFrame) : (x.accept l k f).data = some f ∧ (x.accept l k f).epoch = f.epoch := by
  unfold Node.accept
  split <;> exact x.receive_keeps k f

theorem Node.accept_safe {x : Node} (run : x.st = .run) (safe : f.safe = true) : (x.accept l k f).Safe l k .hold := by
  have holds : x.holds k f = true := by
    unfold Node.holds
    rw [run, safe, Bool.true_or]
    rfl
  rw [Node.accept, if_pos holds]
  exact ⟨rfl, rfl, rfl, rfl⟩

/-- What a node sends downstream of a frame. -/
def nodeForward (l k : Nat) (f : LineFrame) : List Output :=
  if Config.nodeTerm l k then [] else [.message "NODE_FORWARD" (l :: k :: b2n (!f.good) :: f.bytes.map BitVec.toNat)]

theorem State.nodeSends_timed (s : State) (l k : Nat) (f : LineFrame) (x : Node) :
    (s.setNode l k x).nodeSends l k false f (f.bytes.map BitVec.toNat) =
      ({ s with outbox := s.outbox ++ nodeForward l k f } : State).setNode l k x := by
  have none (m : List Nat) : (if (false && (Config.nodeTerm l k || ((s.setNode l k x).nodeOf l k).wrap)) = true then
      [Output.message "NODE_TURN" m] else []) = [] := if_neg (by rw [Bool.false_and]; exact Bool.false_ne_true)
  unfold State.nodeSends
  dsimp only
  rw [none, List.append_nil]
  rfl

theorem State.nodeTimed_good (on : (s.nodeOf l k).st ≠ .offline) (good : f.good = true) (epoch : (s.nodeOf l k).epoch ≤ f.epoch) :
    s.nodeTimed l k f = ({ s with outbox := s.outbox ++ nodeForward l k f } : State).setNode l k
      { s.nodeOf l k with epoch := f.epoch, timed := some f } := by
  have bad : ¬ f.good = false := by rw [good]; decide
  unfold State.nodeTimed
  dsimp only
  rw [if_neg on, if_neg bad, if_neg (Nat.not_lt.mpr epoch), State.nodeSends_timed]

theorem State.nodeTimed_damaged (on : (s.nodeOf l k).st ≠ .offline) (bad : f.good = false) :
    s.nodeTimed l k f = ({ s with outbox := s.outbox ++ nodeForward l k f } : State).setNode l k
      { s.nodeOf l k with rxerr := min ((s.nodeOf l k).rxerr + 1) 255, timed := none } := by
  unfold State.nodeTimed
  dsimp only
  rw [if_neg on, if_pos bad, State.nodeSends_timed]
  rfl

/-- A damaged data frame goes on with ABORT, and only downstream where the node neither ends the line nor wraps. -/
theorem State.nodeData_damaged (loop aux nfault : Nat) (on : (s.nodeOf l k).st ≠ .offline) (bad : f.good = false)
    (plain : (s.nodeOf l k).wrap = false) (middle : Config.nodeTerm l k = false) :
    (s.nodeData l k f loop aux nfault).outbox = s.outbox ++ nodeForward l k f ∧
      (s.nodeData l k f loop aux nfault).nodeOf l k = { s.nodeOf l k with rxerr := sat8 ((s.nodeOf l k).rxerr + 1), ready := 0, data := none } := by
  have sent : s.nodeData l k f loop aux nfault = (s.setNode l k { s.nodeOf l k with
      rxerr := sat8 ((s.nodeOf l k).rxerr + 1), ready := 0, data := none }).nodeSends l k true f (f.bytes.map BitVec.toNat) := by
    unfold State.nodeData
    dsimp only
    rw [if_neg on, if_pos bad]
  rw [sent]
  refine ⟨?_, State.nodeOf_nodeSends _ _ _ _ _ _ _⟩
  unfold State.nodeSends nodeForward
  dsimp only
  rw [State.nodeOf_setNode_same, plain, middle, Bool.or_false, Bool.and_false, if_neg Bool.false_ne_true, if_neg Bool.false_ne_true,
    List.append_nil]
  rfl

/-! ### Marks (R285, R286, R288) -/

section
variable (x : Node) (term down : Bool)
@[simp] theorem Node.wrapCount_st : (x.wrapCount term down).st = x.st := rfl
@[simp] theorem Node.wrapCount_ready : (x.wrapCount term down).ready = x.ready := rfl
@[simp] theorem Node.wrapCount_data : (x.wrapCount term down).data = x.data := rfl
@[simp] theorem Node.wrapCount_timed : (x.wrapCount term down).timed = x.timed := rfl
@[simp] theorem Node.wrapCount_outs : (x.wrapCount term down).outs = x.outs := rfl
@[simp] theorem Node.wrapCount_image : (x.wrapCount term down).image = x.image := rfl
@[simp] theorem Node.wrapCount_follow : (x.wrapCount term down).follow = x.follow := rfl
end

/-- With FOLLOW the outputs take the staged image. -/
def Node.takeImage (x : Node) : Node := if x.follow then { x with outs := x.image, pulses := [] } else x

theorem Node.takeImage_outs (x : Node) : x.takeImage.outs = if x.follow then x.image else x.outs := by
  unfold Node.takeImage
  split <;> rfl

theorem Node.takeImage_other {α : Type} (x : Node) (g : Node → α) (hg : ∀ o p, g { x with outs := o, pulses := p } = g x) :
    g x.takeImage = g x := by
  unfold Node.takeImage
  split
  · exact hg _ _
  · rfl

/-- The settings that a data frame brings a node. -/
def Node.settings (x : Node) (k : Nat) (f : LineFrame) : Node :=
  { x with clen := f.clen, tmo := f.tmo, pulse := f.pulse, window := f.cycle + 1
           image := (match f.seg k with | some (_, _, i) => i | none => x.image)
           follow := (match f.seg k with | some (b, _, _) => b | none => x.follow) }

/-- What the timed frame of the same cycle arms. -/
def Node.armFrom (x : Node) (k : Nat) (f : LineFrame) (timed : Option LineFrame) : Node :=
  match timed with
  | some t => if t.cycle = f.cycle + 1 then x.arm k t.recs else { x with armed := [] }
  | none => { x with armed := [] }

theorem Node.armFrom_other {α : Type} (x : Node) (k : Nat) (f : LineFrame) (timed : Option LineFrame) (g : Node → α)
    (hg : ∀ a e, g { x with armed := a, rxerr := e } = g x) : g (x.armFrom k f timed) = g x := by
  unfold Node.armFrom
  split
  · split
    · exact hg _ _
    · exact hg _ x.rxerr
  · exact hg _ x.rxerr

/-- A MARK ends the cycle: what was received for it is gone. -/
def Node.ended (x : Node) (now : BitVec 64) : Node := { x with data := none, timed := none, mark := now }

/-- The first MARK in RUN at which the node can go from HOLD. -/
def Node.started (x : Node) : Node := { x with st := .run, outs := 0, pulses := [], armed := [] }

/-- The count of ready frames starts again at a MARK without a data frame. -/
def Node.readied (x : Node) : Node := { x with ready := if x.data.isSome then x.ready else 0 }

/-- A node at a MARK as it goes to RUN or stays. -/
def Node.atMark (x : Node) : Node := if x.st = .hold ∧ x.ready ≥ 2 ∧ x.data.isSome then x.started else x.readied

/-- What a MARK makes of a node (R286). -/
def Node.marked (x : Node) (k : Nat) (now : BitVec 64) : Node :=
  if x.st ≠ .run then x.ended now
  else match x.data with
  | none => ({ x.takeImage with armed := [] } : Node).ended now
  | some f => (((x.settings k f).takeImage).armFrom k f x.timed).ended now

theorem State.nodeMark_good (down : Bool) (on : (s.nodeOf l k).st ≠ .offline) : (s.nodeMark l k true down).nodeOf l k =
    ((s.nodeOf l k).wrapCount (Config.nodeTerm l k) down).atMark.marked k s.tb.now := by
  have stored (x : Node) : State.nodeOf (if x.st ≠ .run then (s.setNode l k (x.ended s.tb.now)).nodeMarks l k
      else match x.data with
      | none => (s.setNode l k (({ x.takeImage with armed := [] } : Node).ended s.tb.now)).nodeMarks l k
      | some f => (s.setNode l k ((((x.settings k f).takeImage).armFrom k f x.timed).ended s.tb.now)).nodeMarks l k) l k =
        x.marked k s.tb.now := by
    unfold Node.marked
    by_cases other : x.st ≠ .run
    · rw [if_pos other, if_pos other, State.nodeOf_nodeMarks]
    · rw [if_neg other, if_neg other]
      cases x.data <;> exact State.nodeOf_nodeMarks _ _ _ _
  unfold State.nodeMark
  exact (congrArg (State.nodeOf · l k) ((if_neg on).trans (if_neg Bool.true_eq_false_eq_False))).trans
    (stored ((s.nodeOf l k).wrapCount (Config.nodeTerm l k) down).atMark)

theorem Node.atMark_starts {x : Node} (hold : x.st = .hold) (ready : 2 ≤ x.ready) (data : x.data = some f) : x.atMark = x.started :=
  if_pos ⟨hold, ready, by rw [data]; rfl⟩

theorem Node.atMark_runs {x : Node} (run : x.st = .run) : x.atMark = x.readied :=
  if_neg fun h => absurd (run.symm.trans h.1) (by decide)

theorem Node.marked_data {x : Node} (run : x.st = .run) (data : x.data = some f) (now : BitVec 64) :
    x.marked k now = (((x.settings k f).takeImage).armFrom k f x.timed).ended now := by
  unfold Node.marked
  rw [if_neg (not_not.mpr run), data]

theorem Node.marked_empty {x : Node} (run : x.st = .run) (data : x.data = none) (now : BitVec 64) :
    x.marked k now = ({ x.takeImage with armed := [] } : Node).ended now := by
  unfold Node.marked
  rw [if_neg (not_not.mpr run), data]

theorem Node.marked_outs (x : Node) (now : BitVec 64) (timed : Option LineFrame) :
    ((((x.settings k f).takeImage).armFrom k f timed).ended now).outs = if (x.settings k f).follow then (x.settings k f).image else x.outs :=
  (Node.armFrom_other _ k f timed Node.outs fun _ _ => rfl).trans (x.settings k f).takeImage_outs

theorem Node.marked_armed (x : Node) (now : BitVec 64) {t : LineFrame} (cycle : t.cycle = f.cycle + 1) :
    ((((x.settings k f).takeImage).armFrom k f (some t)).ended now).armed =
      (t.recs.filter (fun w => bits w.toNat 31 27 == k || strobesAll (bits w.toNat 4 0))).filter (fun w => decide (bits w.toNat 20 5 ≤ f.clen)) := by
  have length : (x.settings k f).takeImage.clen = f.clen := Node.takeImage_other _ Node.clen fun _ _ => rfl
  unfold Node.armFrom
  dsimp only
  rw [if_pos cycle, Node.ended, Node.arm, length]

theorem Node.marked_st (x : Node) (now : BitVec 64) (timed : Option LineFrame) :
    ((((x.settings k f).takeImage).armFrom k f timed).ended now).st = x.st :=
  (Node.armFrom_other _ k f timed Node.st fun _ _ => rfl).trans (Node.takeImage_other _ Node.st fun _ _ => rfl)

theorem State.nodeMark_missed {down : Bool} (on : (s.nodeOf l k).st ≠ .offline) :
    ((s.nodeMark l k false down).nodeOf l k).data = none ∧ ((s.nodeMark l k false down).nodeOf l k).timed = none ∧
      ((s.nodeMark l k false down).nodeOf l k).armed = [] ∧ ((s.nodeMark l k false down).nodeOf l k).st = (s.nodeOf l k).st ∧
      ((s.nodeMark l k false down).nodeOf l k).outs = (s.nodeOf l k).outs := by
  unfold State.nodeMark
  dsimp only
  rw [if_neg on, if_pos rfl, State.nodeOf_setNode_same]
  exact ⟨rfl, rfl, rfl, rfl, rfl⟩

/-! ### Firings and pulses (R278, R286) -/

/-- The node that a firing of its one armed record leaves (R282, R286). -/
def Node.fired (x : Node) (l k : Nat) (w : Word) : Node :=
  (({ (x.endPulses (x.mark + BitVec.ofNat 64 (8 * bits w.toNat 20 5))).exec (x.mark + BitVec.ofNat 64 (8 * bits w.toNat 20 5)) w with
    armed := [] } : Node).sign l k (x.endPulses (x.mark + BitVec.ofNat 64 (8 * bits w.toNat 20 5))).outs)

theorem State.nodeFiring_one {w : Word} (run : (s.nodeOf l k).st = .run) (armed : (s.nodeOf l k).armed = [w]) :
    s.nodeFiring l k = s.setNode l k ((s.nodeOf l k).fired l k w) := by
  have due : [w].filter (fun v => bits v.toNat 20 5 == bits w.toNat 20 5) = [w] := List.filter_cons_of_pos (beq_self_eq_true _)
  have left : [w].filter (fun v => bits v.toNat 20 5 != bits w.toNat 20 5) = [] :=
    List.filter_cons_of_neg (by rw [bne_self_eq_false]; exact Bool.false_ne_true)
  unfold State.nodeFiring
  dsimp only
  rw [if_neg (not_not.mpr run), armed]
  dsimp only [List.foldl_nil]
  rw [due, left]
  rfl

theorem putOut_false (w : BitVec 64) {o : Nat} (ho : o < 64) : (putOut w o false).getLsbD o = false := by
  have one : (BitVec.ofNat 64 (2 ^ o)).getLsbD o = true := by
    rw [BitVec.getLsbD_ofNat, Nat.testBit_two_pow_self, decide_eq_true ho]
    rfl
  show (w &&& ~~~(BitVec.ofNat 64 (2 ^ o))).getLsbD o = false
  rw [BitVec.getLsbD_and, BitVec.getLsbD_not, one, Bool.not_true, Bool.and_false, Bool.and_false]

theorem State.nodePulseEnd_one {t : BitVec 64} {o : Nat} (one : (s.nodeOf l k).pulses = [(t, o)]) :
    ((s.nodePulseEnd l k).nodeOf l k).pulses = [] ∧ ((s.nodePulseEnd l k).nodeOf l k).outs = putOut (s.nodeOf l k).outs o false := by
  have ends : s.nodePulseEnd l k = s.setNode l k ((s.nodeOf l k).endPulses t) := by
    unfold State.nodePulseEnd
    dsimp only
    rw [one]
    rfl
  have due : decide (t.toNat ≤ t.toNat) = true := decide_eq_true (Nat.le_refl _)
  rw [ends, State.nodeOf_setNode_same]
  unfold Node.endPulses
  dsimp only
  rw [one]
  refine ⟨List.filter_cons_of_neg (by dsimp only; rw [due]; exact Bool.false_ne_true), ?_⟩
  rw [List.filter_cons_of_pos (p := fun q : BitVec 64 × Nat => decide (q.1.toNat ≤ t.toNat)) due]
  rfl

/-! ### The obligation -/

/-- Settles O46: each event of a node stores the node that its rules say, and a MARK in RUN takes the frames of its cycle. -/
theorem nodesFollowTheirFrames : Obligations.NodesFollowTheirFrames := by
  unfold Obligations.NodesFollowTheirFrames
  intro s l k
  dsimp only
  refine ⟨fun offline => ?_, ?_, fun run => ?_, fun f loop aux nf on good epoch plain => ?_, fun f loop aux nf run good epoch safe => ?_,
    fun f on good epoch => ?_, fun f on bad => ?_, fun f loop aux nf on bad plain middle => ?_, fun d f hold ready data => ?_,
    fun d f t run data timed cycle => ?_, fun d on => ?_, fun d run data => ?_, fun w run armed => ?_, fun t o one ho => ?_, rfl⟩
  · refine ⟨_, congrArg (done s) (State.nodeLock_offline offline), ?_⟩
    rw [settle_nodeOf, State.nodeOf_setNode_same]
    exact Node.safe_safe _ _ _ _
  · refine ⟨_, rfl, ?_⟩
    rw [settle_nodeOf, State.nodeLost, State.nodeOf_setNode_same]
    exact ⟨rfl, rfl, rfl, rfl⟩
  · refine ⟨_, congrArg (done s) (State.nodeTimeout_run run), ?_⟩
    rw [settle_nodeOf, State.nodeOf_setNode_same]
    exact Node.safe_safe _ _ _ _
  · refine ⟨_, rfl, ?_⟩
    rw [settle_nodeOf, State.nodeData_accepted loop aux nf on good epoch]
    exact Node.accept_keeps _ _ _ _
  · refine ⟨_, rfl, ?_⟩
    rw [settle_nodeOf, State.nodeData_accepted loop aux nf (by rw [run]; decide) good epoch]
    exact Node.accept_safe run safe
  · exact congrArg (done s) (State.nodeTimed_good on good epoch)
  · exact congrArg (done s) (State.nodeTimed_damaged on bad)
  · obtain ⟨sent, node⟩ := State.nodeData_damaged loop aux nf on bad plain middle
    obtain ⟨o, settled⟩ := settle_outbox (s := s) (s.nodeData l k f loop aux nf)
    refine ⟨_, o, rfl, settled.trans (congrArg (· ++ o) sent), ?_⟩
    rw [settle_nodeOf, node]
    exact ⟨rfl, rfl⟩
  · have marked := State.nodeMark_good d (by rw [hold]; decide : (s.nodeOf l k).st ≠ .offline)
    rw [Node.atMark_starts (x := (s.nodeOf l k).wrapCount (Config.nodeTerm l k) d) hold ready data,
      Node.marked_data (x := ((s.nodeOf l k).wrapCount (Config.nodeTerm l k) d).started) (f := f) rfl data] at marked
    refine ⟨_, rfl, ?_⟩
    rw [settle_nodeOf, marked, Node.marked_st, Node.marked_outs]
    refine ⟨rfl, fun off => if_neg ?_⟩
    rcases off with given | ⟨none, plain⟩
    · obtain ⟨⟨b, en, i⟩, seg, rfl⟩ := Option.map_eq_some_iff.mp given
      unfold Node.settings
      rw [seg]
      exact Bool.false_ne_true
    · unfold Node.settings
      rw [none]
      exact ne_of_eq_of_ne plain Bool.false_ne_true
  · have marked := State.nodeMark_good d (by rw [run]; decide : (s.nodeOf l k).st ≠ .offline)
    rw [Node.atMark_runs (x := (s.nodeOf l k).wrapCount (Config.nodeTerm l k) d) run,
      Node.marked_data (x := ((s.nodeOf l k).wrapCount (Config.nodeTerm l k) d).readied) (f := f) run data] at marked
    refine ⟨_, rfl, ?_⟩
    simp only [settle_nodeOf, marked]
    refine ⟨?_, rfl, fun en i seg => ?_, fun none => ?_⟩
    · rw [show ((s.nodeOf l k).wrapCount (Config.nodeTerm l k) d).readied.timed = some t from timed]
      exact Node.marked_armed _ _ cycle
    · rw [Node.marked_outs]
      unfold Node.settings
      rw [seg]
      exact if_pos rfl
    · rw [Node.marked_outs]
      unfold Node.settings
      rw [none]
      rfl
  · refine ⟨_, rfl, ?_⟩
    rw [settle_nodeOf]
    exact State.nodeMark_missed on
  · have marked := State.nodeMark_good d (by rw [run]; decide : (s.nodeOf l k).st ≠ .offline)
    rw [Node.atMark_runs (x := (s.nodeOf l k).wrapCount (Config.nodeTerm l k) d) run,
      Node.marked_empty (x := ((s.nodeOf l k).wrapCount (Config.nodeTerm l k) d).readied) run data] at marked
    refine ⟨_, rfl, ?_⟩
    rw [settle_nodeOf, marked]
    exact ⟨rfl, Node.takeImage_outs _⟩
  · exact congrArg (done s) (State.nodeFiring_one run armed)
  · obtain ⟨pulses, outs⟩ := State.nodePulseEnd_one one
    refine ⟨_, rfl, ?_⟩
    rw [settle_nodeOf, pulses, outs]
    exact ⟨rfl, putOut_false _ ho⟩

end Sys2Proof.Machine
end

section
/-! PROOFS. Why the statement on the pair's link and roles fails as it stands (O47): it speaks of every state, also of one whose table of
action stores has a number beyond the 16 sectors, and the counters of such a store lie on the registers of other blocks. -/

namespace Sys2Proof.Machine

/-- A forward angle entry whose target lies at the position itself: at A + 32 it is late, and without LATEFIRE it is dropped (R51, R52). -/
def lateEntry : Action := ⟨0, 0x40000000, 0, 0, 0, 0, .unjudged⟩

/-- A released device that joins, with that entry in a store numbered 0x470: its counter LATE_DROPPED would stand at the address of PAIR_STAT,
in the bits of ROLE. -/
def strayStore : State :=
  { State.reset with
    regs := [(PAIR_STAT_at, 2)], stores := [(0x470, ⟨[], [lateEntry], 0, none⟩)]
    tb := { State.reset.tb with speedOk := true }, pwr := { State.reset.pwr with released := true } }

theorem strayStore_address : TB_QCNT_LATE_at 0x470 = PAIR_STAT_at := rfl

/-- Up to the middle of the tick the entry is dropped, and the count of it makes the role STANDBY. -/
theorem strayStore_role : strayStore.heartbeatCheck.fld PAIR_STAT_ROLE = 3 := by decide

/-- Refutes O47: HEARTBEAT_CHECK lets time pass to the middle of the tick, and in `strayStore` the late entry that is dropped meanwhile is
counted in PAIR_STAT, so that a joining device with one missed heartbeat does not keep its role. -/
theorem not_pairLinkAndRolesFollow : ¬ Obligations.PairLinkAndRolesFollow := by
  unfold Obligations.PairLinkAndRolesFollow
  intro h
  obtain ⟨-, -, -, -, beat, -⟩ := h strayStore
  obtain ⟨u, runs, -, -, missed⟩ := beat (.inl rfl) (by decide)
  obtain ⟨-, role⟩ := missed rfl (by decide)
  have next : settle strayStore strayStore.heartbeatCheck = u := Host.Outcome.next.inj runs
  rw [← next, settle_fld, strayStore_role] at role
  exact absurd role (by decide)

end Sys2Proof.Machine
end

section
/-! PROOFS. Why the statement on held and released regions fails as it stands (O55): as in `strayStore`, the log of a store beyond the 16
sectors lies on a register of another block. -/

namespace Sys2Proof.Machine

/-- A released device with a region whose hold is due with no code, and a late entry of owner 1 in a store numbered 0x57C: its log
TB_QLOG would stand at the address of REG_STAT[5], with OWNER in the bits of CODE. -/
def strayRegion : State :=
  { State.reset with
    stores := [(0x57C, ⟨[], [{ lateEntry with w3 := 0x01000000 }], 0, none⟩)], scrub := { State.reset.scrub with holds := [(5, 0, none)] }
    tb := { State.reset.tb with speedOk := true }, pwr := { State.reset.pwr with released := true } }

theorem strayRegion_address : TB_QLOG_at 0x57C = REG_STAT_at 5 := rfl

/-- Up to the boundary the entry is dropped and logged, and its owner shows as the code of the region. -/
theorem strayRegion_code : (strayRegion.regionHold 5).fld (REG_STAT_CODE 5) = 1 := by decide +kernel

/-- Refutes O55: a hold without a code keeps CODE, but REGION_HOLD lets time pass to the boundary first, and in `strayRegion` the late entry
that is dropped meanwhile is logged in the status register of the region. -/
theorem not_regionsAreHeldLoadedAndReleased : ¬ Obligations.RegionsAreHeldLoadedAndReleased := by
  unfold Obligations.RegionsAreHeldLoadedAndReleased
  intro h
  obtain ⟨-, -, -, -, holds, -⟩ := h strayRegion
  obtain ⟨-, due⟩ := holds 5 0 none ⟨rfl, rfl⟩ rfl
  obtain ⟨u, runs, -, code, -⟩ := due (Nat.le_refl _) rfl (by decide)
  have next : settle strayRegion (strayRegion.regionHold 5) = u := Host.Outcome.next.inj runs
  have before : strayRegion.fld (REG_STAT_CODE 5) = 0 := by decide +kernel
  have same : u.fld (REG_STAT_CODE 5) = strayRegion.fld (REG_STAT_CODE 5) := code
  rw [← next, settle_fld, strayRegion_code, before] at same
  exact absurd same (by decide)

end Sys2Proof.Machine
end

section
/-! PROOFS. The loader at an error: its code and the flag outlive the clearing of the attempt (O53). -/

namespace Sys2Proof.Machine

variable {s t u : State}

/-! ### What the clearing of a failed attempt keeps (R319, R339, R419) -/

/-- Setting fields of other registers, one after the other. -/
theorem State.setFlds_reg (s : State) (f : Nat → RF) (v n : Nat) {a : Nat} (other : ∀ i, a ≠ (f i).addr) :
    ((List.range n).foldl (fun s k => s.setFld (f k) v) s).reg a = s.reg a :=
  List.foldlRecOn (motive := fun u : State => u.reg a = s.reg a) _ _ rfl fun u h i _ => (u.reg_setFld_other v (other i)).trans h

/-- The grade of the part sets clocks alone. -/
theorem State.gradeClocks_reg (s : State) {a : Nat} (block : a < 0x40011000) : s.gradeClocks.reg a = s.reg a := by
  have core : a ≠ CLK_CORE_at := Nat.ne_of_lt block
  unfold State.gradeClocks
  dsimp only
  split
  · rw [State.setFlds_reg _ CLK_FAB_FDIV 9 8 (fun k => by show a ≠ CLK_FAB_at k; unfold CLK_FAB_at; omega),
      State.setFlds_reg _ CLK_SECT_SDIV 6 16 (fun k => by show a ≠ CLK_SECT_at k; unfold CLK_SECT_at; omega), State.reg_setFld_other _ core]
  · rfl

/-- A clearing keeps the registers that it is to keep. -/
theorem State.clearAll_reg (s : State) {keep : Nat → Bool} {a : Nat} (kept : keep a = true) (block : a < 0x40011000) :
    (s.clearAll keep).reg a = s.reg a := by
  unfold State.clearAll
  rw [State.gradeClocks_reg _ block]
  exact (tget_filter (rstWord a) s.regs keep a).trans (if_pos kept)

/-- What an image sets in the safe plane and the endpoint stands in no other block. -/
theorem State.imageCleared_reg (s : State) {a : Nat} (safe : a / 0x1000 ≠ 0x4000e) (pcie : a / 0x1000 ≠ 0x40010) :
    s.imageCleared.reg a = s.reg a := by
  refine List.foldlRecOn (motive := fun u : State => u.reg a = s.reg a) _ _ rfl fun u h p hp => ?_
  have there := (List.mem_filter.mp hp).2
  have other : a ≠ p.1 := by
    rintro rfl
    simp [safe, pcie] at there
  split
  · exact h
  · rw [State.reg_setReg_other _ _ _ _ other, h]

/-- The clearing of a failed attempt keeps what tells of the loader's error. -/
theorem State.attemptClear_reg (s : State) {a : Nat} (block : a / 0x1000 = 0x4000b)
    (kept : keptInAttempt a = true) : s.attemptClear.reg a = s.reg a := by
  have side : a ≠ PAIR_STAT_at := fun h => absurd (h ▸ block) (by decide)
  unfold State.attemptClear
  rw [State.reg_setFld_other _ side, State.imageCleared_reg _ (by rw [block]; decide) (by rw [block]; decide),
    State.clearAll_reg _ kept (by omega)]

/-! ### Errors of a full image (R338, R339) -/

/-- CFG_STAT shows an error code, and the interrupts of CFG the error. -/
def State.ShowsError (s : State) (code : Nat) : Prop := s.fld CFG_STAT_ERRCODE = code ∧ s.fb CFG_IRQ_STAT_ERR = true

/-- What shows an error, other fields of its registers may change around. -/
theorem State.ShowsError.of_fields {code : Nat} (h : s.ShowsError code) (stat : u.fld CFG_STAT_ERRCODE = s.fld CFG_STAT_ERRCODE)
    (irq : u.fb CFG_IRQ_STAT_ERR = s.fb CFG_IRQ_STAT_ERR) : u.ShowsError code := ⟨stat.trans h.1, irq.trans h.2⟩

theorem State.ShowsError.set {code : Nat} (h : s.ShowsError code) (f : RF) (v : Nat) (stat : CFG_STAT_ERRCODE.Apart f)
    (irq : CFG_IRQ_STAT_ERR.Apart f) : (s.setFld f v).ShowsError code :=
  h.of_fields (State.fld_setFld_apart _ _ _ _ stat) (State.fb_setFld_apart _ _ _ irq)

theorem State.ShowsError.of_regs {code : Nat} (h : s.ShowsError code) (same : u.regs = s.regs) : u.ShowsError code :=
  h.of_fields (State.fld_of_regs same _) (State.fb_of_regs same _)

theorem State.attemptClear_fld (s : State) (f : RF) (block : f.addr / 0x1000 = 0x4000b) (kept : keptInAttempt f.addr = true) :
    s.attemptClear.fld f = s.fld f := congrArg f.get (s.attemptClear_reg block kept)

theorem State.ShowsError.cleared {code : Nat} (h : s.ShowsError code) : s.attemptClear.ShowsError code :=
  h.of_fields (s.attemptClear_fld _ (by decide) (by decide))
    (congrArg (· != 0) (s.attemptClear_fld CFG_IRQ_STAT_ERR (by decide) (by decide)))

theorem State.ShowsError.forced {code : Nat} (h : s.ShowsError code) (same : s.Forces u) : u.ShowsError code :=
  h.of_fields (same.fld _ (by decide)) (same.fb _ (by decide))

theorem State.ShowsError.finally {code : Nat} (h : s.ShowsError code) : s.finalFailure.ShowsError code :=
  ((h.set CFG_STAT_ERR 1 (by decide) (by decide)).set CFG_STAT_LOADING 0 (by decide) (by decide)).of_regs rfl

/-- The registers of an attempt that begins. -/
theorem State.attempt_regs (s : State) (src : LoadSource) (alt : Bool) :
    (s.attempt src alt).regs = (((s.setFld CFG_STAT_LOADING 1).setFld CFG_STAT_ERR 0).setB CFG_STAT_ALT alt).regs := by
  unfold State.attempt
  dsimp only
  split <;> rfl

theorem State.ShowsError.again {code : Nat} (h : s.ShowsError code) (src : LoadSource) (alt : Bool) : (s.attempt src alt).ShowsError code :=
  (((h.set CFG_STAT_LOADING 1 (by decide) (by decide)).set CFG_STAT_ERR 0 (by decide) (by decide)).set CFG_STAT_ALT (b2n alt) (by decide)
    (by decide)).of_regs (s.attempt_regs src alt)

/-- An error of a full image shows its code, whatever the mode does next. -/
theorem State.loadError_shows (s : State) {code : Nat} (pos : Nat) (fits : code < 256) : (s.loadError code pos).ShowsError code := by
  have noted : (((s.setFld CFG_STAT_ERRCODE code).setFld CFG_ERRPOS_POS pos).setFld CFG_IRQ_STAT_ERR 1).ShowsError code :=
    ⟨by rw [State.fld_setFld_apart _ _ _ _ (by decide), State.fld_setFld_apart _ _ _ _ (by decide), State.fld_setFld_fits (by decide) fits],
      State.fb_setFld_one _ (by decide)⟩
  have recorded := noted.forced (State.faultEntry_forces _ 9 0 code 0)
  unfold State.loadError
  dsimp only
  generalize ((((s.setFld CFG_STAT_ERRCODE code).setFld CFG_ERRPOS_POS pos).setFld CFG_IRQ_STAT_ERR 1).faultEntry 9 0 code 0) = t at recorded
  have cleared : (if code = 0x1C then t else t.setFld CFG_ACODE_CODE 0).attemptClear.ShowsError code := by
    split
    · exact recorded.cleared
    · exact (recorded.set CFG_ACODE_CODE 0 (by decide) (by decide)).cleared
  split
  · exact cleared.finally
  split
  · exact cleared.again _ _
  split
  · exact cleared.again _ _
  · exact cleared.finally

/-- A command fails with a code where it ends in an error of a full image. -/
def State.Fails (s : State) (c : Instr) (code : Nat) : Prop :=
  ∃ u, exec c s = .next u ∧ u.fld CFG_STAT_ERRCODE = code ∧ u.fb CFG_IRQ_STAT_ERR = true

theorem State.fails_of_loadError {c : Instr} {code pos : Nat} (fits : code < 256) (t : State)
    (acts : exec c s = done s (t.loadError code pos)) : s.Fails c code := by
  have shown := t.loadError_shows pos fits
  exact ⟨_, acts, (settle_fld _ _ _).trans shown.1, (settle_fb _ _ _).trans shown.2⟩

/-- The loader of a full image stops at an error. -/
theorem State.failAt_full {code pos : Nat} (full : s.loader.part = false) : s.failAt code pos = s.loadError code pos := by
  unfold State.failAt
  rw [full, if_neg Bool.false_ne_true]

theorem State.fails_of_failAt {c : Instr} {code : Nat} (pos : Nat) (fits : code < 256) (full : t.loader.part = false)
    (acts : exec c s = done s (t.failAt code pos)) : s.Fails c code :=
  State.fails_of_loadError fits t (acts.trans (congrArg (done s) (State.failAt_full full)))

end Sys2Proof.Machine
end

section
/-! PROOFS. The loader's stream: the sync word, AUTH and its checks, and what a record of the body finds before it acts (O53). -/

namespace Sys2Proof.Machine

variable {s t u : State} {h : Word} {ws : List Word}

/-! ### Words of a stream that comes with its command (R330, R337) -/

/-- The loader with words noted for the hash. -/
def Loader.reads (x : Loader) (ws : List Word) : Loader := { x with read := ws.reverse ++ x.read }

/-- The loader behind a record that leaves its place and the CRC. -/
def Loader.past (x : Loader) (ws : List Word) : Loader :=
  { x.reads ws with pos := x.pos + 4 * ws.length, crc := crcWords x.crc ws, checked := false }

/-- A state with words of its stream read. -/
def State.reads (s : State) (ws : List Word) : State := s.withLoader fun x => x.reads ws

theorem State.take_direct (direct : s.loader.source.buffered = false) (ws : List Word) : s.take ws = some (s.reads ws) := by
  unfold State.take State.reads State.withLoader Loader.reads
  simp only [direct, Bool.false_and, if_neg Bool.false_ne_true]

theorem State.supply_direct (direct : s.loader.source.buffered = false) (whole : s.loader.left = 0) (ws : List Word) :
    s.supply ws = some (s.reads ws) := (if_pos whole).trans (State.take_direct direct ws)

/-- A full image comes from a flash or from the pass-on input. -/
structure State.Streams (s : State) : Prop where
  full : s.loader.part = false
  direct : s.loader.source.buffered = false

theorem State.streams_of (full : s.loader.part = false) (source : s.loader.source = .flash ∨ s.loader.source = .chain) : s.Streams :=
  ⟨full, by rcases source with e | e <;> rw [e] <;> rfl⟩

theorem State.Streams.reads (from_ : s.Streams) (ws : List Word) : (s.reads ws).Streams := ⟨from_.full, from_.direct⟩

/-! ### Sync word and AUTH (R320, R329, R330, R333) -/

theorem State.syncWord_read (from_ : s.Streams) (phase : s.loader.phase = .sync) (whole : s.loader.left = 0) (w : Word) (sfdp : Bool) :
    s.syncWord w sfdp =
      if sfdp = false ∧ s.loader.source = .flash ∧ s.fld CFG_STAT_MODE = 0 then (s.reads [w]).failAt 0x13 0
      else if w = 0x5A5A4C38 then (s.reads [w]).withLoader (fun x => { x with phase := .auth, pos := 4 })
      else if w = 0xFFFFFFFF ∧ s.loader.source = .flash then (s.reads [w]).failAt 0x13 0
      else (s.reads [w]).failAt 1 0 := by
  unfold State.syncWord
  rw [if_neg (not_not_intro phase), State.supply_direct from_.direct whole]

/-- The two shapes of an AUTH record. -/
abbrev AuthHeader (h : Word) : Prop :=
  bits h.toNat 31 28 = 7 ∧ ((bits h.toNat 19 0 = 16 ∧ bits h.toNat 27 20 = 0) ∨ (bits h.toNat 19 0 = 48 ∧ bits h.toNat 27 20 = 1))

theorem State.authRecord_bad (from_ : s.Streams) (phase : s.loader.phase = .auth) (whole : s.loader.left = 0) (bad : ¬ AuthHeader h) :
    s.authRecord h ws = (s.reads [h]).failAt 2 4 := by
  unfold State.authRecord
  dsimp only
  rw [if_neg (not_not_intro phase), if_pos bad, State.supply_direct from_.direct whole]

theorem State.authRecord_good (from_ : s.Streams) (phase : s.loader.phase = .auth) (whole : s.loader.left = 0) (good : AuthHeader h)
    (len : ws.length = bits h.toNat 19 0) : s.authRecord h ws = (s.reads (h :: ws)).withLoader (fun x => { x with
      phase := .checks, auth := ws, pos := x.pos + 4 * (ws.length + 1), body := x.pos + 4 * (ws.length + 1), read := [] }) := by
  unfold State.authRecord
  dsimp only
  rw [if_neg (not_not_intro phase), if_neg (not_not_intro good), if_neg (not_not_intro len), State.supply_direct from_.direct whole, len]

/-! ### The checks behind AUTH (R330, R349) -/

/-- The key of the AUTH record has the fused hash. -/
def State.authKeyOk (s : State) : Bool := hashIs s.lc.imgKey (wordsAt s.loader.auth 16 16)

/-- The signature of the AUTH record is valid. -/
def State.authSigOk (s : State) : Bool :=
  ecdsaValid (sha256 (wordsAt s.loader.auth 0 16)) (wordsAt s.loader.auth 16 16) (wordsAt s.loader.auth 32 16)

/-- A full image whose checks have passed opens its body. -/
def State.authOpens (s : State) : State :=
  ((((s.setReg CFG_IMGID_at (s.loader.auth.getD 2 0)).setReg PAIR_IMGID_at (s.loader.auth.getD 2 0)).setFld CFG_SECVER_SECVER
    (bits (s.loader.auth.getD 3 0).toNat 5 0)).setB CFG_STAT_SIGNED (decide (s.loader.auth.length = 48))).withLoader
    (fun x => { x with phase := .body })

theorem State.authDone_full (from_ : s.Streams) (phase : s.loader.phase = .checks) :
    s.authDone =
      if s.loader.auth.getD 1 0 ≠ s.reg SYS_ID_at then s.failAt 3 4
      else if s.loader.auth.length ≠ 48 ∧ s.lc.state ≠ 0 then s.failAt 6 4
      else if s.lc.state ≠ 0 ∧ s.authKeyOk = false then s.failAt 4 4
      else if s.lc.state ≠ 0 ∧ s.authSigOk = false then s.failAt 5 4
      else if bits (s.loader.auth.getD 3 0).toNat 5 0 < s.lc.minver then s.failAt 7 4
      else s.authOpens := by
  unfold State.authDone
  dsimp only
  rw [if_neg (not_not_intro phase), from_.full]
  simp only [decide_eq_false_iff_not, if_neg Bool.false_ne_true]
  rfl

theorem State.authOpens_shows (s : State) : s.authOpens.loader = { s.loader with phase := .body } ∧
    s.authOpens.reg CFG_IMGID_at = s.loader.auth.getD 2 0 ∧
    s.authOpens.fld CFG_SECVER_SECVER = bits (s.loader.auth.getD 3 0).toNat 5 0 ∧
    s.authOpens.fb CFG_STAT_SIGNED = decide (s.loader.auth.length = 48) := by
  unfold State.authOpens
  refine ⟨rfl, ?_, ?_, ?_⟩
  · rw [State.reg_of_regs (State.withLoader_regs _ _), State.setB, State.reg_setFld_other _ (by decide), State.reg_setFld_other _ (by decide),
      State.reg_setReg_other _ _ _ _ (by decide), State.reg_setReg_same]
  · rw [State.fld_of_regs (State.withLoader_regs _ _), State.setB, State.fld_setFld_apart _ _ _ _ (by decide),
      State.fld_setFld_fits (by decide) (bits_lt _ _ _)]
  · rw [State.fb_of_regs (State.withLoader_regs _ _), State.fb_setB_same _ _ (by decide)]

/-! ### What a record of the body finds (R321, R330, R331) -/

/-- The loader of a full image stands before a record outside a section, within the length of the image, in a part that takes records in
the clear. -/
structure State.AtRecord (s : State) : Prop extends s.Streams where
  phase : s.loader.phase = .body
  whole : s.loader.left = 0
  room : s.loader.pos - s.loader.body < (s.loader.auth.getD 4 0).toNat
  clear : s.lc.state ≤ 1

/-- The three fields of a record's header. -/
def IsHeader (h : Word) (kind sub n : Nat) : Prop := bits h.toNat 31 28 = kind ∧ bits h.toNat 27 20 = sub ∧ bits h.toNat 19 0 = n

theorem State.AtRecord.headerError (at_ : s.AtRecord) (ok : headerOk h.toNat = true) : s.headerError h.toNat = none := by
  have clear := at_.clear
  have fine : s.loader.badHeader h.toNat = false := by simp [Loader.badHeader, ok, at_.whole]
  unfold State.headerError
  dsimp only
  rw [if_neg (fun e => absurd e.2 (Nat.not_le.mpr at_.room)), fine, if_neg Bool.false_ne_true, if_neg (by omega)]

/-- A good record acts on the state that has read its words. -/
theorem State.AtRecord.opens (at_ : s.AtRecord) {kind sub : Nat} (f : State → State) (is : IsHeader h kind sub ws.length)
    (ok : headerOk h.toNat = true) : s.record kind h ws f = f (s.reads (h :: ws)) := by
  obtain ⟨k, -, n⟩ := is
  unfold State.record
  dsimp only
  rw [if_neg (not_not_intro at_.phase), if_neg (fun e => e.2 k), at_.headerError ok, if_neg (not_not_intro n),
    State.supply_direct at_.direct at_.whole (h :: ws)]

/-- A stream that has run past LENGTH stops at its next record. -/
theorem State.record_long (phase : s.loader.phase = .body) (whole : s.loader.left = 0)
    (long : (s.loader.auth.getD 4 0).toNat ≤ s.loader.pos - s.loader.body) (f : State → State) :
    s.record (bits h.toNat 31 28) h ws f = s.failHere 0x10 := by
  have error : s.headerError h.toNat = some 0x10 := if_pos ⟨whole, long⟩
  unfold State.record
  dsimp only
  rw [if_neg (not_not_intro phase), if_neg (fun e => e.2 rfl), error]
  exact if_pos rfl

/-- The place of a record outside a section. -/
theorem Loader.offset_whole {x : Loader} (whole : x.left = 0) : x.offset = x.pos := if_pos whole

/-- A plain record outside a section. -/
theorem State.plainRecord_whole (whole : s.loader.left = 0) (h : Word) (ws : List Word) : s.plainRecord h ws = s.withLoader fun x => { x with
    pos := x.pos + 4 * (h :: ws).length, crc := crcWords x.crc (h :: ws), checked := false } := by
  unfold State.plainRecord State.passRecord State.withLoader
  dsimp only
  rw [whole, if_pos rfl]

end Sys2Proof.Machine
end

section
/-! PROOFS. The records of a full image in the clear: what each leaves, and the code with which a bad one ends the attempt (O53). -/

namespace Sys2Proof.Machine

variable {s t u : State} {h : Word} {ws : List Word}

/-! ### NOP, CHECK, RBEGIN and REND (R321, R327, R328) -/

theorem State.AtRecord.nop (at_ : s.AtRecord) (is : IsHeader h 0 0 ws.length) :
    s.nopRecord h ws = { s with loader := s.loader.past (h :: ws) } := by
  have ok : headerOk h.toNat = true := by obtain ⟨k, e, n⟩ := is; simp [headerOk, k, e]
  unfold State.nopRecord
  rw [at_.opens _ is ok, State.plainRecord_whole (s := s.reads (h :: ws)) at_.whole]
  rfl

theorem State.AtRecord.check {v : Word} (at_ : s.AtRecord) (is : IsHeader h 3 0 1) :
    s.checkRecord h [v] = if s.loader.crc ^^^ 0xFFFFFFFF = v then (s.reads [h, v]).withLoader (fun x => { x with
        pos := x.pos + 8, crc := 0xFFFFFFFF, checked := true })
      else (s.reads [h, v]).failHere 0x0E := by
  have ok : headerOk h.toNat = true := by obtain ⟨k, e, n⟩ := is; simp [headerOk, k, e, n]
  have place : (s.reads [h, v]).passRecord [h, v] 0xFFFFFFFF true =
      (s.reads [h, v]).withLoader (fun x => { x with pos := x.pos + 8, crc := 0xFFFFFFFF, checked := true }) := by
    unfold State.passRecord State.withLoader
    dsimp only
    rw [show (s.reads [h, v]).loader.left = 0 from at_.whole, if_pos rfl]
    rfl
  unfold State.checkRecord
  rw [at_.opens _ is ok, place]
  rfl

theorem State.withLoader_withLoader (s : State) (f g : Loader → Loader) : (s.withLoader f).withLoader g = s.withLoader fun x => g (f x) := rfl

/-- The loader in a region section. -/
def Loader.entered (x : Loader) (h : Word) (r : Nat) : Loader := { x.past [h] with region := some r, begun := x.begun + 1 }

/-- The loader behind a region section. -/
def Loader.left_ (x : Loader) (h : Word) : Loader := { x.past [h] with region := none }

theorem State.AtRecord.rbegin (at_ : s.AtRecord) (free : s.loader.region = none) {r : Fin 32} (is : IsHeader h 4 r 0) :
    s.rbegin h = if s.fb (REG_DEF_EN r) = false then (s.reads [h]).failHere 2
      else s.withLoader fun x => x.entered h r := by
  have ok : headerOk h.toNat = true := by obtain ⟨k, e, n⟩ := is; simp [headerOk, k, e, n]
  have kept : (s.reads [h]).loader.region = none := free
  have full : (s.reads [h]).loader.part = false := at_.full
  have same : (s.reads [h]).fb (REG_DEF_EN r) = s.fb (REG_DEF_EN r) := rfl
  unfold State.rbegin
  rw [at_.opens (ws := []) _ is ok]
  dsimp only
  rw [is.2.1, kept, full, if_neg (not_eq_of_beq_eq_false rfl), if_neg Bool.false_ne_true, State.plainRecord_whole (s := s.reads [h]) at_.whole, same]
  unfold State.reads
  rw [State.withLoader_withLoader, State.withLoader_withLoader]
  rfl

theorem State.regionReady_full (full : s.loader.part = false) : s.regionReady = true := by
  unfold State.regionReady
  rw [full]
  rfl

theorem State.AtRecord.rend (at_ : s.AtRecord) {r : Fin 32} (is : IsHeader h 5 r 0) :
    s.rend h = if s.loader.region ≠ some r.val then (s.reads [h]).failHere 2
      else s.withLoader fun x => x.left_ h := by
  have ok : headerOk h.toNat = true := by obtain ⟨k, e, n⟩ := is; simp [headerOk, k, e, n]
  have full : (s.reads [h]).loader.part = false := at_.full
  have ready := State.regionReady_full at_.full
  have same : (s.reads [h]).loader.region = s.loader.region := rfl
  unfold State.rend
  rw [ready, if_neg Bool.true_eq_false_eq_False, at_.opens (ws := []) _ is ok]
  rw [is.2.1, full, if_neg (fun e => Bool.false_ne_true e.1), if_neg (c := false = true ∧ _) (fun e => Bool.false_ne_true e.1),
    State.plainRecord_whole (s := s.reads [h]) at_.whole, same]
  unfold State.reads
  rw [State.withLoader_withLoader, State.withLoader_withLoader]
  rfl

/-! ### KEYSEL and the blocks of its section (R331, R332) -/

/-- The loader inside the section that a KEYSEL opens. -/
def Loader.section_ (x : Loader) (h p : Word) (src : Nat) : Loader := { x.reads [h, p] with
  crc := crcWords x.crc [h, p], left := p.toNat, plain := [], blocks := (p.toNat + 4095) / 4096, keySrc := src, secStart := x.pos + 8
  secLen := p.toNat }

/-- KEYSEL in the clear shows the key's source; without that key it fails. -/
theorem State.AtRecord.keysel (at_ : s.AtRecord) {p : Word} {src : Nat} (known : src = 1 ∨ src = 2)
    (is : IsHeader h 6 src (1 + p.toNat / 4 + 4 * ((p.toNat + 4095) / 4096))) (aligned : p.toNat % 4 = 0) (some_ : 4 ≤ p.toNat) :
    s.keysel h p = if (if src = 1 then s.lc.aesKey.isSome else s.lc.keyRam.isSome) = false
        then ((s.reads [h, p]).setFld CFG_STAT_KEYSRC src).failHere 9
      else ((s.reads [h, p]).setFld CFG_STAT_KEYSRC src).withLoader fun _ => s.loader.section_ h p src := by
  obtain ⟨k, e, n⟩ := is
  have ok : headerOk h.toNat = true := by rcases known with rfl | rfl <;> simp [headerOk, k, e]
  have full : (s.reads [h, p]).loader.part = false := at_.full
  unfold State.keysel
  dsimp only
  rw [if_neg (not_not_intro at_.phase), if_neg (not_not_intro k), at_.headerError ok, State.supply_direct at_.direct at_.whole [h, p]]
  dsimp only
  rw [if_neg (by omega), e, full, if_neg Bool.false_ne_true]
  rfl

/-- The bytes that the next block of a section holds. -/
abbrev Loader.blockBytes (x : Loader) : Nat := if x.blocks = 1 then x.secLen - 4096 * ((x.secLen - 1) / 4096) else 4096

/-! ### END (R330, R340, R347) -/

/-- The loader behind END. -/
def Loader.ended (x : Loader) (h : Word) : Loader := { x.reads [h] with
  phase := .release, more := h.toNat.testBit 20, pos := x.pos + 4
  passOn := if h.toNat.testBit 20 then some (x.source, x.pos + 4) else none
  passBuf := if h.toNat.testBit 20 then x.buf else [], buf := if h.toNat.testBit 20 then [] else x.buf }

/-- The loader stands behind END. -/
def State.ended (s : State) (h : Word) : State := { s with loader := s.loader.ended h }

/-- The release check: the state, or the error of its first offence. -/
def State.releaseJudged (t : State) : State :=
  match t.releaseOffence with
  | none => t
  | some o => (t.setFld CFG_ACODE_CODE o.code).failAt 0x1C o.addr

theorem State.AtRecord.endRecord (at_ : s.AtRecord) (free : s.loader.region = none) {sub : Fin 2} (is : IsHeader h 15 sub 0) :
    s.endRecord h =
      if s.regionsOk = false then (s.reads [h]).failAt 0x0D s.loader.pos
      else if sha256 ((h :: s.loader.read).reverse.flatMap wordBytes) ≠ wordsAt s.loader.auth 8 8 then (s.reads [h]).failAt 0x0F s.loader.pos
      else if (s.loader.auth.getD 4 0).toNat ≠ s.loader.pos + 4 - s.loader.body then (s.reads [h]).failAt 0x10 s.loader.pos
      else (s.ended h).takeClocks.releaseJudged := by
  have ok : headerOk h.toNat = true := by
    obtain ⟨k, e, n⟩ := is
    have := sub.isLt
    simp [headerOk, k, e, n]
    omega
  have kept : (s.reads [h]).loader.region = none := free
  have full : (s.reads [h]).loader.part = false := at_.full
  have place : (s.reads [h]).loader.offset = s.loader.pos := Loader.offset_whole at_.whole
  have regions : (s.reads [h]).regionsOk = s.regionsOk := rfl
  have auth : (s.reads [h]).loader.auth = s.loader.auth := rfl
  have body : (s.reads [h]).loader.body = s.loader.body := rfl
  have read : (s.reads [h]).loader.read = h :: s.loader.read := rfl
  have ended : ((s.reads [h]).withLoader fun x => if x.part = true then { x with phase := .release, pos := s.loader.pos + 4 } else { x with
      phase := .release, pos := s.loader.pos + 4, more := h.toNat.testBit 20
      passOn := if h.toNat.testBit 20 then some (x.source, s.loader.pos + 4) else none
      passBuf := if h.toNat.testBit 20 then x.buf else [], buf := if h.toNat.testBit 20 then [] else x.buf }) = s.ended h := by
    unfold State.withLoader
    dsimp only
    rw [if_neg (ne_of_eq_of_ne full Bool.false_ne_true)]
    rfl
  unfold State.endRecord
  rw [at_.opens (ws := []) _ is ok]
  dsimp only
  rw [kept, full, place, if_neg (by simp), regions, auth, body, read, if_neg Bool.false_ne_true, ended]
  simp only [true_and]
  unfold State.releaseJudged
  generalize (s.ended h).takeClocks.releaseOffence = o
  cases o <;> rfl

/-! ### PASSON (R321, R335) -/

theorem State.takePass_direct {src : LoadSource} {pos : Nat} (on : s.loader.passOn = some (src, pos)) (direct : src.buffered = false)
    (ws : List Word) : s.takePass ws = some (s.withLoader fun x => { x with
      passBuf := x.passBuf.drop ws.length, passOn := some (src, pos + 4 * ws.length) }) := by
  unfold State.takePass
  rw [on]
  dsimp only
  rw [direct, Bool.false_and, if_neg Bool.false_ne_true]

theorem State.passon_taken {src : LoadSource} {pos : Nat} (on : s.loader.passOn = some (src, pos)) (direct : src.buffered = false)
    (behind : s.loader.phase ≠ .body) (kind : bits h.toNat 31 28 = 8) (known : bits h.toNat 27 20 ≤ 1)
    (len : bits h.toNat 19 0 = ws.length) :
    s.passon h ws = if bits h.toNat 27 20 = 1
      then { s.emit (.message "PASSON" ((ws.flatMap wordBytes).map BitVec.toNat)) with loader := { s.loader with
        more := false, passOn := none, passBuf := [] } }
      else { s.emit (.message "PASSON" ((ws.flatMap wordBytes).map BitVec.toNat)) with loader := { s.loader with
        passOn := some (src, pos + 4 * (ws.length + 1)), passBuf := s.loader.passBuf.drop (ws.length + 1) } } := by
  unfold State.passon
  dsimp only
  rw [if_neg (not_not_intro kind), if_neg behind, if_neg (by omega), if_neg (not_not_intro len), State.takePass_direct on direct]
  rfl

end Sys2Proof.Machine
end

section
/-! PROOFS. Records that write: where the words of REGWR and FRAME go, and what they leave of the loader (O53). -/

namespace Sys2Proof.Machine

variable {s t u : State} {h : Word} {ws : List Word} {a : Nat} {v : Word}

/-! ### A register takes its value (R322, R356, R361) -/

/-- The loader but for what records of registers collect. -/
def Loader.Keeps (x y : Loader) : Prop := ∃ c w, y = { x with clk := c, wrote := w }

theorem Loader.Keeps.refl (x : Loader) : x.Keeps x := ⟨_, _, rfl⟩

theorem Loader.Keeps.trans {x y z : Loader} (h : x.Keeps y) (g : y.Keeps z) : x.Keeps z := by
  obtain ⟨c, w, rfl⟩ := h
  obtain ⟨c', w', rfl⟩ := g
  exact ⟨_, _, rfl⟩

/-- What a write of a voted register leaves. -/
theorem State.voted_same (s : State) (a : Nat) : (if a / 0x1000 = 0x4000C then s.voteWritten a else s).loader = s.loader ∧
    (if a / 0x1000 = 0x4000C then s.voteWritten a else s).regs = s.regs ∧
    (if a / 0x1000 = 0x4000C then s.voteWritten a else s).mem = s.mem := by
  split <;> exact ⟨rfl, rfl, rfl⟩

/-- A clock register waits for the release. -/
theorem State.imageReg_clock (s : State) (v : Word) (clock : a / 0x1000 = 0x40011) :
    s.imageReg a v = s.withLoader fun x => { x with clk := tput x.clk a v } := by
  have unvoted : ¬ a / 0x1000 = 0x4000C := by omega
  unfold State.imageReg
  dsimp only
  rw [if_neg unvoted, if_pos (Or.inl clock)]
  simp only [if_pos clock]

/-- Another register of a full image takes the fields that a record sets. -/
theorem State.imageReg_now (s : State) (v : Word) (now : a / 0x1000 ≠ 0x40011) (full : s.loader.part = false) :
    (s.imageReg a v).regs = (s.setReg a ((s.reg a &&& ~~~imageMask a) ||| (v &&& imageMask a))).regs ∧ (s.imageReg a v).mem = s.mem ∧
      (s.imageReg a v).loader = { s.loader with wrote := a :: s.loader.wrote.erase a } := by
  obtain ⟨l, r, m⟩ := s.voted_same a
  unfold State.imageReg
  dsimp only
  generalize (if a / 0x1000 = 0x4000C then s.voteWritten a else s) = t at l r m
  have clear : ¬ (a / 0x1000 = 0x40011 ∨ t.loader.part = true ∧ rwsMask a ≠ 0) := by rw [l, full]; simp [now]
  rw [if_neg clear, State.reg_of_regs r]
  refine ⟨?_, m, ?_⟩
  · show tset _ t.regs _ _ = tset _ s.regs _ _
    rw [r]
  · show ({ t.loader with wrote := a :: t.loader.wrote.erase a } : Loader) = _
    rw [l]

theorem State.imageReg_loader (s : State) (a : Nat) (v : Word) (full : s.loader.part = false) : s.loader.Keeps (s.imageReg a v).loader := by
  by_cases clock : a / 0x1000 = 0x40011
  · rw [s.imageReg_clock v clock]
    exact ⟨_, _, rfl⟩
  · rw [(s.imageReg_now v clock full).2.2]
    exact ⟨_, _, rfl⟩

/-! ### A memory takes a word (R9, R279, R303) -/

theorem State.imageWord_register (s : State) (v : Word) (there : regionOf a = .regs ∨ regionOf a = .bay) : s.imageWord a v = s.imageReg a v := by
  unfold State.imageWord
  rcases there with e | e <;> rw [e]

theorem State.imageWord_memory (s : State) (v : Word) (regs : regionOf a ≠ .regs) (bay : regionOf a ≠ .bay) :
    s.imageWord a v = if takesNone a then s else (s.writeWord a v).toPartner "WRITE" [a, 4, v.toNat] := by
  unfold State.imageWord
  split
  · exact absurd ‹_› regs
  · exact absurd ‹_› bay
  · rfl

/-- A memory that takes words holds the new one. -/
theorem State.imageWord_mem (s : State) (v : Word) (regs : regionOf a ≠ .regs) (bay : regionOf a ≠ .bay) (takes : takesNone a = false) :
    (s.imageWord a v).mem = (s.setWord a v).mem := by
  rw [s.imageWord_memory v regs bay, takes, if_neg Bool.false_ne_true, State.toPartner_mem, State.writeWord_mem]

theorem State.toPartner_loader (kind : String) (ws : List Nat) : (s.toPartner kind ws).loader = s.loader := by
  obtain ⟨o, p, r, e, -⟩ := s.toPartner_same kind ws
  rw [e]

theorem State.toPartner_ecc (kind : String) (ws : List Nat) : (s.toPartner kind ws).ecc = s.ecc := by
  obtain ⟨o, p, r, e, -⟩ := s.toPartner_same kind ws
  rw [e]

theorem State.MemoryOnly.loader (same : s.MemoryOnly u) : u.loader = s.loader := by
  obtain ⟨_, _, _, _, _, rfl⟩ := same
  rfl

theorem State.imageWord_loader (s : State) (a : Nat) (v : Word) (full : s.loader.part = false) : s.loader.Keeps (s.imageWord a v).loader := by
  by_cases there : regionOf a = .regs ∨ regionOf a = .bay
  · rw [s.imageWord_register v there]
    exact s.imageReg_loader a v full
  · rw [s.imageWord_memory v (fun e => there (.inl e)) (fun e => there (.inr e))]
    split
    · exact .refl _
    · rw [State.toPartner_loader, (State.writeWord_memoryOnly a v).loader]
      exact .refl _

/-- Outside the scratchpads a written word has no wrong bit, and no register changes. -/
theorem State.writeWord_plain (s : State) (v : Word) (outside : a / 0x1000000 ≠ 0x10) : (s.writeWord a v).regs = s.regs ∧ (s.writeWord a v).flips a = 0 := by
  unfold State.writeWord
  dsimp only
  rw [if_neg outside]
  refine ⟨?_, State.flips_setFlips_same a 0⟩
  obtain ⟨m, e, same⟩ := State.store_cellsOnly ({ s with wbq := s.wbq.erase a } : State) a 4 v.toNat
  show (({ s with wbq := s.wbq.erase a } : State).setWord a v).regs = _
  unfold State.setWord
  rw [same]

theorem State.imageWord_plain (s : State) (v : Word) (regs : regionOf a ≠ .regs) (bay : regionOf a ≠ .bay) (outside : a / 0x1000000 ≠ 0x10) :
    (takesNone a = false → (s.imageWord a v).flips a = 0) ∧ ∀ y, y ≠ PAIR_TXQ_at → (s.imageWord a v).reg y = s.reg y := by
  obtain ⟨same, clean⟩ := s.writeWord_plain v outside
  rw [s.imageWord_memory v regs bay]
  refine ⟨fun takes => ?_, fun y hy => ?_⟩
  · rw [takes, if_neg Bool.false_ne_true]
    unfold State.flips
    rw [State.toPartner_ecc]
    exact clean
  · split
    · rfl
    · rw [State.toPartner_reg _ _ _ _ hy, State.reg_of_regs same]

/-! ### REGWR (R322) -/

theorem State.regwrWords_one (s : State) (fixed : Bool) (a : Nat) (v : Word) (free : s.loader.region = none) :
    s.regwrWords fixed a [v] = if regwrTarget a then (s.imageWord a v, true) else (s, false) := by
  unfold State.regwrWords
  dsimp only
  rw [free]
  cases regwrTarget a <;> rfl

theorem State.AtRecord.regwr (at_ : s.AtRecord) (free : s.loader.region = none) {p v : Word} {sub : Fin 2} (is : IsHeader h 1 sub 2) :
    s.regwr h [p, v] = if p.toNat % 4 ≠ 0 ∨ regwrTarget p.toNat = false then (s.reads [h, p, v]).failAt 0x0D s.loader.pos
      else ((s.reads [h, p, v]).imageWord p.toNat v).plainRecord h [p, v] := by
  have ok : headerOk h.toNat = true := by
    obtain ⟨k, e, n⟩ := is
    have := sub.isLt
    simp [headerOk, k, e, n]
    omega
  have kept : (s.reads [h, p, v]).loader.region = none := free
  have full : (s.reads [h, p, v]).loader.part = false := at_.full
  have place : (s.reads [h, p, v]).loader.offset = s.loader.pos := Loader.offset_whole at_.whole
  have ready := State.regionReady_full at_.full
  have target : ([p, v].getD 0 0).toNat = p.toNat := rfl
  have data : [p, v].drop 1 = [v] := rfl
  unfold State.regwr
  rw [ready, if_neg Bool.true_eq_false_eq_False, at_.opens _ is ok]
  dsimp only
  rw [if_neg (fun e => Bool.false_ne_true (full.symm.trans e.1)), place, target, data, State.regwrWords_one _ _ _ _ kept]
  by_cases aligned : p.toNat % 4 = 0
  · rw [if_neg (not_not_intro aligned)]
    cases taken : regwrTarget p.toNat with
    | true =>
      rw [if_pos rfl, if_neg (not_or.mpr ⟨not_not_intro aligned, Bool.true_eq_false_eq_False⟩)]
    | false =>
      rw [if_neg Bool.false_ne_true, if_pos (Or.inr rfl)]
      dsimp only
      rw [full, if_neg Bool.false_ne_true]
  · rw [if_pos aligned, if_pos (Or.inl aligned)]

end Sys2Proof.Machine
end

section
/-! PROOFS. A FRAME record: where its frame's words go, and its place in the stream (R324, R326) (O53). -/

namespace Sys2Proof.Machine

variable {s t u : State} {h : Word} {ws : List Word} {f : Nat}

/-! ### Words one after the other -/

/-- Steps that each write one word of a row leave the row's words in their places. -/
theorem State.row_written (s : State) {step : State → Nat × Word → State} {b n : Nat}
    (one : ∀ u i v, i < n → (step u (i, v)).mem = (u.setWord (b + 4 * i) v).mem) (d : List Word) (len : d.length ≤ n) :
    ∀ i, i < d.length → (((List.range d.length).zip d).foldl step s).word (b + 4 * i) = d.getD i 0 := by
  induction d using List.reverseRecOn with
  | nil => exact fun i hi => absurd hi (Nat.not_lt_zero i)
  | append_singleton d v ih =>
    rw [List.length_append, List.length_singleton] at len ⊢
    intro i hi
    have row : (List.range (d.length + 1)).zip (d ++ [v]) = (List.range d.length).zip d ++ [(d.length, v)] := by
      rw [List.range_succ, List.zip_append (List.length_range)]
      rfl
    rw [row, List.foldl_append]
    have last := one (((List.range d.length).zip d).foldl step s) d.length v (by omega)
    rw [List.foldl_cons, List.foldl_nil, State.word_of_mem last]
    rcases Nat.lt_or_ge i d.length with earlier | final
    · rw [State.word_setWord_other v (by omega), ih (by omega) i earlier, List.getD_append _ _ _ _ earlier]
    · obtain rfl : i = d.length := by omega
      rw [State.word_setWord, List.getD_append_right _ _ _ _ (le_refl _), Nat.sub_self]
      rfl

theorem State.row_words (s : State) {step : State → Nat × Word → State} {b n : Nat}
    (one : ∀ u i v, i < n → (step u (i, v)).mem = (u.setWord (b + 4 * i) v).mem) {d : List Word} (len : d.length = n) :
    (((List.range n).zip d).foldl step s).words b n = d := by
  subst len
  rw [State.words_eq_map]
  refine List.ext_getElem (by simp) fun i hi hd => ?_
  rw [List.getElem_map, List.getElem_range, State.row_written s one d (le_refl _) i hd, List.getD_eq_getElem _ _ hd]

/-! ### The words of a frame (R324) -/

theorem State.frameWord_loader (s : State) (f i : Nat) (w : Word) (full : s.loader.part = false) : s.loader.Keeps (s.frameWord f i w).loader := by
  unfold State.frameWord
  split
  · exact s.imageWord_loader _ w full
  · exact s.imageWord_loader _ w full
  · exact .refl _
  · exact .refl _
  · split
    · exact s.imageReg_loader _ w full
    · exact .refl _

theorem Loader.Keeps.part {x y : Loader} (h : x.Keeps y) : y.part = x.part := by
  obtain ⟨c, w, rfl⟩ := h
  rfl

theorem State.frameWords_loader (s : State) (f : Nat) (l : List (Nat × Word)) (full : s.loader.part = false) :
    s.loader.Keeps (l.foldl (fun s p => s.frameWord f p.1 p.2) s).loader :=
  List.foldlRecOn (motive := fun u : State => s.loader.Keeps u.loader) l _ (.refl _) fun u h p _ =>
    h.trans (u.frameWord_loader f p.1 p.2 (h.part.trans full))

/-- The first word of a data RAM that a frame of TYPE 3 holds. -/
def dramFrame (f : Nat) : Nat := 0x20000000 + (16 * bits f 27 24 + bits f 23 16) * 0x4000 + 160 * bits f 15 0

theorem dramFrame_word {i : Nat} (col : bits f 23 16 ≤ 15) (m : bits f 15 0 ≤ 50) (hi : i < 40) :
    regionOf (dramFrame f + 4 * i) = .dram ∧ takesNone (dramFrame f + 4 * i) = false := by
  have sector : bits f 27 24 < 16 := bits_lt _ _ _
  obtain ⟨n, k, e, hn, hk⟩ : ∃ n k, dramFrame f + 4 * i = 0x20000000 + n * 0x4000 + k ∧ n < 256 ∧ k < 0x2000 :=
    ⟨16 * bits f 27 24 + bits f 23 16, 160 * bits f 15 0 + 4 * i, by unfold dramFrame; omega, by omega, by omega⟩
  have page : (dramFrame f + 4 * i) / 0x1000000 = 0x20 := by omega
  have inside : (dramFrame f + 4 * i) % 0x1000000 < 0x400000 := by omega
  have half : (dramFrame f + 4 * i) % 0x4000 < 0x2000 := by omega
  have region : regionOf (dramFrame f + 4 * i) = .dram := by
    unfold regionOf
    dsimp only
    rw [page]
    exact if_pos inside
  refine ⟨region, ?_⟩
  unfold takesNone reservedRam
  simp [region, half]

theorem State.frameWord_dram (s : State) {i : Nat} (w : Word) (ty : bits f 31 28 = 3) (col : bits f 23 16 ≤ 15) (m : bits f 15 0 ≤ 50)
    (hi : i < 40) : (s.frameWord f i w).mem = (s.setWord (dramFrame f + 4 * i) w).mem := by
  obtain ⟨region, takes⟩ := dramFrame_word col m hi
  have place : 0x20000000 + (16 * bits f 27 24 + bits f 23 16) * 0x4000 + 4 * (40 * bits f 15 0 + i) = dramFrame f + 4 * i := by
    unfold dramFrame
    omega
  unfold State.frameWord
  dsimp only
  rw [ty, place]
  exact s.imageWord_mem w (by rw [region]; decide) (by rw [region]; decide) takes

/-! ### FRAME (R326) -/

/-- A state behind the words of a frame. -/
def State.frameStored (s : State) (f : Nat) (d : List Word) : State :=
  ((List.range (frameUsed f)).zip d).foldl (fun s p => s.frameWord f p.1 p.2) s

/-- A state behind a frame that it takes. -/
def State.frameTaken (s : State) (f : Nat) (d : List Word) : State :=
  { s.frameStored f d with
    cfgFlip := (s.frameStored f d).cfgFlip.filter (fun p => p.1 / 64 != f)
    loader := { (s.frameStored f d).loader with
      done := if bits f 31 28 = 0 then f :: (s.frameStored f d).loader.done.erase f else (s.frameStored f d).loader.done } }

theorem State.frames_one (s : State) (f : Word) (d : List Word) (c : Word) (free : s.loader.region = none) (len : d.length = 40) :
    s.frames f.toNat 1 (d ++ [c]) =
      if s.frameAddrOk f.toNat = false ∨ (d.drop (frameUsed f.toNat)).any (· != 0) ∨ s.vectorOk f.toNat d = false then (s, 0x0C)
      else if crc32 ((f :: d).flatMap wordBytes) ≠ c then (s, 0x0B)
      else (s.frameTaken f.toNat d, 0) := by
  have data : (d ++ [c]).take 40 = d := List.take_left' len
  have check : (d ++ [c]).getD 40 0 = c := by rw [List.getD_append_right _ _ _ _ (by omega), len]; rfl
  unfold State.frames
  dsimp only
  rw [data, check, free, BitVec.ofNat_toNat, BitVec.setWidth_eq, if_neg Bool.true_eq_false_eq_False]
  rfl

theorem State.frameTaken_loader (s : State) (f : Nat) (d : List Word) (full : s.loader.part = false) :
    ∃ c w n, (s.frameTaken f d).loader = { s.loader with clk := c, wrote := w, done := n } := by
  obtain ⟨c, w, e⟩ := s.frameWords_loader f ((List.range (frameUsed f)).zip d) full
  refine ⟨c, w, if bits f 31 28 = 0 then f :: s.loader.done.erase f else s.loader.done, ?_⟩
  have e : (s.frameStored f d).loader = { s.loader with clk := c, wrote := w } := e
  show ({ (s.frameStored f d).loader with done := _ } : Loader) = _
  rw [e]

/-- A frame of TYPE 3 stands in its data RAM. -/
theorem State.frameTaken_dram (s : State) {d : List Word} (ty : bits f 31 28 = 3) (col : bits f 23 16 ≤ 15) (m : bits f 15 0 ≤ 50)
    (len : d.length = 40) : (s.frameTaken f d).words (dramFrame f) 40 = d := by
  have used : frameUsed f = 40 := by
    unfold frameUsed
    rw [ty]
    split <;> omega
  have row := s.row_words (step := fun s p => s.frameWord f p.1 p.2) (fun u i v hi => u.frameWord_dram v ty col m hi) len
  have stored : ∀ a, (s.frameTaken f d).word a = (s.frameStored f d).word a := State.word_of_mem rfl
  rw [State.words_eq_map] at row ⊢
  refine (List.map_congr_left fun i _ => ?_).trans row
  rw [stored, State.frameStored, used]

theorem State.frameAddrOk_dram (ty : bits f 31 28 = 3) (ok : s.frameAddrOk f = true) : bits f 23 16 ≤ 15 := by
  unfold State.frameAddrOk at ok
  rw [ty] at ok
  simp only [frameLimits, Bool.and_eq_true, decide_eq_true_eq] at ok
  exact ok.1.1.2

theorem State.AtRecord.frame (at_ : s.AtRecord) (free : s.loader.region = none) {f c : Word} {d : List Word} (is : IsHeader h 2 0 42)
    (len : d.length = 40) :
    s.frameRecord h (f :: d ++ [c]) =
      if s.frameAddrOk f.toNat = false ∨ (d.drop (frameUsed f.toNat)).any (· != 0) ∨ s.vectorOk f.toNat d = false
        then (s.reads (h :: (f :: d ++ [c]))).failAt 0x0C s.loader.pos
      else if crc32 ((f :: d).flatMap wordBytes) ≠ c then (s.reads (h :: (f :: d ++ [c]))).failAt 0x0B s.loader.pos
      else ((s.reads (h :: (f :: d ++ [c]))).frameTaken f.toNat d).plainRecord h (f :: d ++ [c]) := by
  have count : (f :: d ++ [c]).length = 42 := by simp [len]
  have ok : headerOk h.toNat = true := by obtain ⟨k, e, n⟩ := is; simp [headerOk, k, e, n]
  have full : (s.reads (h :: (f :: d ++ [c]))).loader.part = false := at_.full
  have place : (s.reads (h :: (f :: d ++ [c]))).loader.offset = s.loader.pos := Loader.offset_whole at_.whole
  have ready := State.regionReady_full at_.full
  have first : ((f :: d ++ [c]).getD 0 0).toNat = f.toNat := rfl
  have data : (f :: d ++ [c]).drop 1 = d ++ [c] := rfl
  have addr : (s.reads (h :: (f :: d ++ [c]))).frameAddrOk f.toNat = s.frameAddrOk f.toNat := rfl
  have kept : (s.reads (h :: (f :: d ++ [c]))).loader.region = none := free
  have one : (42 - 1) / 41 = 1 := rfl
  have vector : (s.reads (h :: (f :: d ++ [c]))).vectorOk f.toNat d = s.vectorOk f.toNat d := rfl
  unfold State.frameRecord
  rw [ready, if_neg Bool.true_eq_false_eq_False, at_.opens (sub := 0) _ (count ▸ is) ok]
  dsimp only
  rw [if_neg (fun e => Bool.false_ne_true (full.symm.trans e.1)), place, first, data, count, one, State.frames_one _ f d c kept len, addr, vector]
  split_ifs <;> rfl

end Sys2Proof.Machine
end

section
/-! PROOFS. The loader parses an image: each record acts as its kind says, and a bad one ends the attempt with its code (O53). -/

namespace Sys2Proof.Machine

variable {s t u : State} {h : Word} {ws : List Word}

/-! ### The heads of an image -/

theorem State.syncWord_modeless (from_ : s.Streams) (phase : s.loader.phase = .sync) (whole : s.loader.left = 0) (w : Word)
    (flash : s.loader.source = .flash) (octal : s.fld CFG_STAT_MODE = 0) : s.Fails (.syncWord ⟨w, false⟩) 0x13 :=
  State.fails_of_failAt 0 (by decide) (from_.reads [w]).full
    (congrArg (done s) ((State.syncWord_read from_ phase whole w false).trans (if_pos ⟨rfl, flash, octal⟩)))

/-- With SFDP tables where they are asked for, the word itself decides. -/
theorem State.syncWord_judged (from_ : s.Streams) (phase : s.loader.phase = .sync) (whole : s.loader.left = 0) (w : Word) {sfdp : Bool}
    (tables : sfdp = true ∨ s.loader.source ≠ .flash ∨ s.fld CFG_STAT_MODE ≠ 0) : s.syncWord w sfdp =
      if w = 0x5A5A4C38 then (s.reads [w]).withLoader (fun x => { x with phase := .auth, pos := 4 })
      else if w = 0xFFFFFFFF ∧ s.loader.source = .flash then (s.reads [w]).failAt 0x13 0
      else (s.reads [w]).failAt 1 0 := by
  have met : ¬ (sfdp = false ∧ s.loader.source = .flash ∧ s.fld CFG_STAT_MODE = 0) := by
    rintro ⟨a, b, c⟩
    rcases tables with e | e | e
    · exact Bool.false_ne_true (a.symm.trans e)
    · exact e b
    · exact e c
  rw [State.syncWord_read from_ phase whole, if_neg met]

theorem State.syncWord_opens (from_ : s.Streams) (phase : s.loader.phase = .sync) (whole : s.loader.left = 0) {sfdp : Bool}
    (tables : sfdp = true ∨ s.loader.source ≠ .flash ∨ s.fld CFG_STAT_MODE ≠ 0) :
    s.syncWord 0x5A5A4C38 sfdp = { s with loader := { s.loader.reads [0x5A5A4C38] with phase := .auth, pos := 4 } } := by
  rw [State.syncWord_judged from_ phase whole _ tables, if_pos rfl]
  rfl

theorem State.syncWord_erased (from_ : s.Streams) (phase : s.loader.phase = .sync) (whole : s.loader.left = 0) {sfdp : Bool}
    (tables : sfdp = true ∨ s.loader.source ≠ .flash ∨ s.fld CFG_STAT_MODE ≠ 0) (flash : s.loader.source = .flash) :
    s.Fails (.syncWord ⟨0xFFFFFFFF, sfdp⟩) 0x13 :=
  State.fails_of_failAt 0 (by decide) (from_.reads [0xFFFFFFFF]).full (congrArg (done s)
    (((State.syncWord_judged from_ phase whole 0xFFFFFFFF tables).trans (if_neg (by decide))).trans (if_pos ⟨rfl, flash⟩)))

theorem State.syncWord_strange (from_ : s.Streams) (phase : s.loader.phase = .sync) (whole : s.loader.left = 0) {w : Word} {sfdp : Bool}
    (tables : sfdp = true ∨ s.loader.source ≠ .flash ∨ s.fld CFG_STAT_MODE ≠ 0) (strange : w ≠ 0x5A5A4C38)
    (not_erased : w ≠ 0xFFFFFFFF ∨ s.loader.source = .chain) : s.Fails (.syncWord ⟨w, sfdp⟩) 1 := by
  have other : ¬ (w = 0xFFFFFFFF ∧ s.loader.source = .flash) := by
    rintro ⟨a, b⟩
    rcases not_erased with e | e
    · exact e a
    · exact absurd (b.symm.trans e) (by decide)
  exact State.fails_of_failAt 0 (by decide) (from_.reads [w]).full (congrArg (done s)
    (((State.syncWord_judged from_ phase whole _ tables).trans (if_neg strange)).trans (if_neg other)))

/-- The loader that waits for the checks of its AUTH record. -/
theorem State.auth_taken (from_ : s.Streams) (phase : s.loader.phase = .auth) (whole : s.loader.left = 0) {sub n : Nat}
    (is : IsHeader h 7 sub n) (shape : n = 16 ∧ sub = 0 ∨ n = 48 ∧ sub = 1) (len : ws.length = n) :
    s.authRecord h ws = { s with loader := { s.loader with
      phase := .checks, auth := ws, pos := s.loader.pos + 4 * (n + 1), body := s.loader.pos + 4 * (n + 1), read := [] } } := by
  obtain ⟨k, e, m⟩ := is
  rw [State.authRecord_good from_ phase whole ⟨k, by rw [e, m]; exact shape⟩ (len.trans m.symm), len]
  rfl

theorem State.auth_refused (from_ : s.Streams) (phase : s.loader.phase = .auth) (whole : s.loader.left = 0)
    (bad : ¬ (IsHeader h 7 0 16 ∨ IsHeader h 7 1 48)) : s.Fails (.auth h ws) 2 := by
  have shape : ¬ AuthHeader h := by
    rintro ⟨k, ⟨n, e⟩ | ⟨n, e⟩⟩
    · exact bad (.inl ⟨k, e, n⟩)
    · exact bad (.inr ⟨k, e, n⟩)
  exact State.fails_of_failAt 4 (by decide) (from_.reads [h]).full (congrArg (done s) (State.authRecord_bad from_ phase whole shape))

/-! ### The checks -/

section checks
variable (from_ : s.Streams) (phase : s.loader.phase = .checks)
include from_ phase

theorem State.auth_other (strange : s.loader.auth.getD 1 0 ≠ s.reg SYS_ID_at) : s.Fails (.authCheckDone () ()) 3 :=
  State.fails_of_failAt 4 (by decide) from_.full (congrArg (done s) ((State.authDone_full from_ phase).trans (if_pos strange)))

theorem State.auth_unsigned (ours : s.loader.auth.getD 1 0 = s.reg SYS_ID_at) (fused : s.lc.state ≠ 0) (short : s.loader.auth.length ≠ 48) :
    s.Fails (.authCheckDone () ()) 6 := by
  refine State.fails_of_failAt (t := s) 4 (by decide) from_.full (congrArg (done s) ?_)
  rw [State.authDone_full from_ phase, if_neg (not_not_intro ours), if_pos ⟨short, fused⟩]

theorem State.auth_wrongKey (ours : s.loader.auth.getD 1 0 = s.reg SYS_ID_at) (fused : s.lc.state ≠ 0) (signed : s.loader.auth.length = 48)
    (key : ¬ s.authKeyOk = true) : s.Fails (.authCheckDone () ()) 4 := by
  refine State.fails_of_failAt (t := s) 4 (by decide) from_.full (congrArg (done s) ?_)
  rw [State.authDone_full from_ phase, if_neg (not_not_intro ours), if_neg (fun e => e.1 signed), if_pos ⟨fused, Bool.not_eq_true _ ▸ key⟩]

theorem State.auth_wrongSig (ours : s.loader.auth.getD 1 0 = s.reg SYS_ID_at) (fused : s.lc.state ≠ 0) (signed : s.loader.auth.length = 48)
    (key : s.authKeyOk = true) (sig : ¬ s.authSigOk = true) : s.Fails (.authCheckDone () ()) 5 := by
  refine State.fails_of_failAt (t := s) 4 (by decide) from_.full (congrArg (done s) ?_)
  rw [State.authDone_full from_ phase, if_neg (not_not_intro ours), if_neg (fun e => e.1 signed),
    if_neg (fun e => Bool.false_ne_true (e.2.symm.trans key)), if_pos ⟨fused, Bool.not_eq_true _ ▸ sig⟩]

/-- A valid signature, or an unfused part, leaves the version to be judged. -/
theorem State.auth_judged (ours : s.loader.auth.getD 1 0 = s.reg SYS_ID_at)
    (valid : (s.loader.auth.length = 48 ∧ s.authKeyOk = true ∧ s.authSigOk = true) ∨ s.lc.state = 0) :
    s.authDone = if bits (s.loader.auth.getD 3 0).toNat 5 0 < s.lc.minver then s.failAt 7 4 else s.authOpens := by
  rw [State.authDone_full from_ phase, if_neg (not_not_intro ours)]
  rcases valid with ⟨signed, key, sig⟩ | blank
  · rw [if_neg (fun e => e.1 signed), if_neg (fun e => Bool.false_ne_true (e.2.symm.trans key)),
      if_neg (fun e => Bool.false_ne_true (e.2.symm.trans sig))]
  · rw [if_neg (fun e => e.2 blank), if_neg (fun e => e.1 blank), if_neg (fun e => e.1 blank)]

theorem State.auth_old (ours : s.loader.auth.getD 1 0 = s.reg SYS_ID_at)
    (valid : (s.loader.auth.length = 48 ∧ s.authKeyOk = true ∧ s.authSigOk = true) ∨ s.lc.state = 0)
    (old : bits (s.loader.auth.getD 3 0).toNat 5 0 < s.lc.minver) : s.Fails (.authCheckDone () ()) 7 :=
  State.fails_of_failAt 4 (by decide) from_.full (congrArg (done s) ((State.auth_judged from_ phase ours valid).trans (if_pos old)))

theorem State.auth_opens (ours : s.loader.auth.getD 1 0 = s.reg SYS_ID_at)
    (valid : (s.loader.auth.length = 48 ∧ s.authKeyOk = true ∧ s.authSigOk = true) ∨ s.lc.state = 0)
    (new : s.lc.minver ≤ bits (s.loader.auth.getD 3 0).toNat 5 0) : ∃ u, exec (.authCheckDone () ()) s = .next u ∧
      u.loader = { s.loader with phase := .body } ∧ u.reg CFG_IMGID_at = s.loader.auth.getD 2 0 ∧
      u.fld CFG_SECVER_SECVER = bits (s.loader.auth.getD 3 0).toNat 5 0 ∧
      u.fb CFG_STAT_SIGNED = decide (s.loader.auth.length = 48) := by
  obtain ⟨loader, image, version, signed⟩ := s.authOpens_shows
  refine ⟨_, congrArg (done s) ((State.auth_judged from_ phase ours valid).trans (if_neg (Nat.not_lt.mpr new))), ?_, ?_, ?_, ?_⟩
  · rw [settle_loader, loader]
  · rw [settle_reg, image]
  · rw [settle_fld, version]
  · rw [settle_fb, signed]

end checks

/-! ### Records of the body -/

section records
variable (at_ : s.AtRecord)
include at_

theorem State.nop_runs (is : IsHeader h 0 0 ws.length) :
    exec (.nopRecord h ws) s = .next (settle s { s with loader := s.loader.past (h :: ws) }) := congrArg (done s) (at_.nop is)

theorem State.check_right {v : Word} (is : IsHeader h 3 0 1) (right : s.loader.crc ^^^ 0xFFFFFFFF = v) :
    exec (.checkRecord h [v]) s = .next (settle s { s with loader := { s.loader.reads [h, v] with
      pos := s.loader.pos + 8, crc := 0xFFFFFFFF, checked := true } }) := congrArg (done s) ((at_.check is).trans (if_pos right))

theorem State.check_wrong {v : Word} (is : IsHeader h 3 0 1) (wrong : s.loader.crc ^^^ 0xFFFFFFFF ≠ v) : s.Fails (.checkRecord h [v]) 0x0E :=
  State.fails_of_failAt _ (by decide) (at_.reads [h, v]).full (congrArg (done s) ((at_.check is).trans (if_neg wrong)))

theorem State.rend_runs {r : Fin 32} (is : IsHeader h 5 r 0) (inside : s.loader.region = some r.val) :
    exec (.rend h) s = .next (settle s { s with loader := s.loader.left_ h }) :=
  congrArg (done s) ((at_.rend is).trans (if_neg (not_not_intro inside)))

theorem State.rend_fails {r : Fin 32} (is : IsHeader h 5 r 0) (outside : s.loader.region ≠ some r.val) : s.Fails (.rend h) 2 :=
  State.fails_of_failAt _ (by decide) (at_.reads [h]).full (congrArg (done s) ((at_.rend is).trans (if_pos outside)))

theorem State.rbegin_runs {r : Fin 32} (free : s.loader.region = none) (is : IsHeader h 4 r 0) (defined : s.fb (REG_DEF_EN r) = true) :
    exec (.rbegin h) s = .next (settle s { s with loader := s.loader.entered h r }) :=
  congrArg (done s) ((at_.rbegin free is).trans (if_neg (ne_of_eq_of_ne defined Bool.false_ne_true.symm)))

theorem State.rbegin_fails {r : Fin 32} (free : s.loader.region = none) (is : IsHeader h 4 r 0) (undefined : s.fb (REG_DEF_EN r) = false) :
    s.Fails (.rbegin h) 2 :=
  State.fails_of_failAt _ (by decide) (at_.reads [h]).full (congrArg (done s) ((at_.rbegin free is).trans (if_pos undefined)))

end records

end Sys2Proof.Machine
end

section
/-! PROOFS. Records that write, sections and their blocks, END, the pass-on and the host's words, each as its command (O53). -/

namespace Sys2Proof.Machine

variable {s t u : State} {h : Word} {ws : List Word}

/-! ### Sections -/

section sections
variable {p : Word} {src : Nat} (at_ : s.AtRecord) (known : src = 1 ∨ src = 2)
  (is : IsHeader h 6 src (1 + p.toNat / 4 + 4 * ((p.toNat + 4095) / 4096))) (aligned : p.toNat % 4 = 0) (some_ : 4 ≤ p.toNat)
include at_ known is aligned some_

theorem State.keysel_keyless (none_ : (if src = 1 then s.lc.aesKey else s.lc.keyRam) = none) : s.Fails (.keysel h p) 9 := by
  have keyless : (if src = 1 then s.lc.aesKey.isSome else s.lc.keyRam.isSome) = false := by
    rw [← apply_ite Option.isSome, none_]
    rfl
  have full : ((s.reads [h, p]).setFld CFG_STAT_KEYSRC src).loader.part = false := by
    rw [State.setFld_loader]
    exact at_.full
  exact State.fails_of_failAt _ (by decide) full
    (congrArg (done s) ((at_.keysel known is aligned some_).trans (if_pos keyless)))

theorem State.keysel_opens (key : (if src = 1 then s.lc.aesKey else s.lc.keyRam) ≠ none) : ∃ u, exec (.keysel h p) s = .next u ∧
    u.loader.left = p.toNat ∧ u.loader.plain = [] ∧ u.loader.blocks = (p.toNat + 4095) / 4096 ∧ u.loader.keySrc = src ∧
    u.fld CFG_STAT_KEYSRC = src := by
  have keyed : ¬ (if src = 1 then s.lc.aesKey.isSome else s.lc.keyRam.isSome) = false := by
    rw [← apply_ite Option.isSome, Bool.not_eq_false, Option.isSome_iff_ne_none]
    exact key
  refine ⟨_, congrArg (done s) ((at_.keysel known is aligned some_).trans (if_neg keyed)), ?_⟩
  rw [settle_loader, settle_fld, State.withLoader_loader, State.fld_of_regs (State.withLoader_regs _ _),
    State.fld_setFld_fits (by decide) (show src < 4 by omega)]
  exact ⟨rfl, rfl, rfl, rfl, rfl⟩

end sections

/-- What the tag of a block gives: its plaintext, where it is right. -/
def State.blockOpened (s : State) (b : CipherBlock) (key : List Word) : Option (List Byte) :=
  gcmOpen (key.flatMap wordBytes) (wordsAt s.loader.auth 5 2 ++ bytesOf 4 s.loader.block) (wordsAt s.loader.auth 2 2)
    (wordsAt b.words 0 (s.loader.blockBytes / 4)) (wordsAt b.words (s.loader.blockBytes / 4) 4)

section blocks
variable {b : CipherBlock} (from_ : s.Streams) (phase : s.loader.phase = .body) (more : s.loader.blocks ≠ 0)
  (len : b.words.length = s.loader.blockBytes / 4 + 4)
include from_ phase more len

theorem State.keyselBlock_keyless (none_ : s.sectionKey = none) :
    s.keyselBlock b = (s.reads b.words).failAt (if b.begun then 0x0A else 9) (s.loader.secStart - 8) := by
  have reach : ¬ (s.loader.phase ≠ .body ∨ s.loader.blocks = 0 ∨ b.words.length ≠ s.loader.blockBytes / 4 + 4) := by
    simp [phase, more, len]
  have keyless : (s.reads b.words).sectionKey = none := none_
  unfold State.keyselBlock
  simp only [if_neg reach, State.take_direct from_.direct, keyless]

theorem State.keyselBlock_keyed {key : List Word} {opened : Option (List Byte)} (keyed : s.sectionKey = some key)
    (tag : s.blockOpened b key = opened) : (opened = none → s.keyselBlock b = (s.reads b.words).failAt 0x0A (s.loader.secStart - 8)) ∧
      ∀ text, opened = some text → s.keyselBlock b = (s.reads b.words).withLoader (fun x => { x with
        blocks := x.blocks - 1, block := x.block + 1, plain := x.plain ++ bytesWords text }) := by
  have reach : ¬ (s.loader.phase ≠ .body ∨ s.loader.blocks = 0 ∨ b.words.length ≠ s.loader.blockBytes / 4 + 4) := by
    simp [phase, more, len]
  have key_ : (s.reads b.words).sectionKey = some key := keyed
  unfold State.blockOpened at tag
  unfold State.keyselBlock
  simp only [if_neg reach, State.take_direct from_.direct, key_, tag]
  exact ⟨fun e => by rw [e], fun text e => by rw [e]⟩

theorem State.block_keyless (none_ : s.sectionKey = none) : s.Fails (.keyselBlock b) (if b.begun then 0x0A else 9) :=
  State.fails_of_failAt (s.loader.secStart - 8) (by split <;> decide) (from_.reads b.words).full
    (congrArg (done s) (State.keyselBlock_keyless from_ phase more len none_))

theorem State.block_forged {key : List Word} (keyed : s.sectionKey = some key) (forged : s.blockOpened b key = none) :
    s.Fails (.keyselBlock b) 0x0A :=
  State.fails_of_failAt (s.loader.secStart - 8) (by decide) (from_.reads b.words).full
    (congrArg (done s) ((State.keyselBlock_keyed from_ phase more len keyed forged).1 rfl))

theorem State.block_opens {key : List Word} {text : List Byte} (keyed : s.sectionKey = some key) (opened : s.blockOpened b key = some text) :
    exec (.keyselBlock b) s = .next (settle s { s with loader := { s.loader.reads b.words with
      blocks := s.loader.blocks - 1, block := s.loader.block + 1, plain := s.loader.plain ++ bytesWords text } }) :=
  congrArg (done s) ((State.keyselBlock_keyed from_ phase more len keyed opened).2 text rfl)

end blocks

/-! ### Records that write -/

theorem clockBlock_target {a : Nat} (clock : a / 0x1000 = 0x40011) : regionOf a = .regs ∧ regwrTarget a = true := by
  have region : regionOf a = .regs := by
    unfold regionOf
    dsimp only
    rw [show a / 0x1000000 = 0x40 by omega]
    exact if_pos (by omega)
  refine ⟨region, ?_⟩
  unfold regwrTarget
  rw [region]
  dsimp only
  rw [show a % 0x1000000 / 0x1000 = 0x11 by omega]
  rfl

/-- A target among the scratchpads lies in the normal view. -/
theorem scratchpad_target {a : Nat} (page : a / 0x1000000 = 0x10) (target : regwrTarget a = true) : regionOf a = .scratch 0 := by
  have either_ : regionOf a = if a % 0x1000000 < 0x400000 then .scratch 0 else .unmapped := by
    unfold regionOf
    dsimp only
    rw [page]
    rfl
  by_cases inside : a % 0x1000000 < 0x400000
  · exact either_.trans (if_pos inside)
  · unfold regwrTarget at target
    rw [either_, if_neg inside] at target
    exact absurd target Bool.false_ne_true

section writes
variable (at_ : s.AtRecord) (free : s.loader.region = none)
include at_ free

theorem State.regwr_refused {p v : Word} {sub : Fin 2} (is : IsHeader h 1 sub 2) (bad : p.toNat % 4 ≠ 0 ∨ regwrTarget p.toNat = false) :
    s.Fails (.regwr h [p, v]) 0x0D :=
  State.fails_of_failAt _ (by decide) (at_.reads [h, p, v]).full (congrArg (done s) ((at_.regwr free is).trans (if_pos bad)))

/-- A word that its target takes goes there, and the loader goes on behind the record. -/
theorem State.regwr_taken {p v : Word} {sub : Fin 2} (is : IsHeader h 1 sub 2) (aligned : p.toNat % 4 = 0)
    (target : regwrTarget p.toNat = true) : ∃ u, exec (.regwr h [p, v]) s = .next u ∧
      u.regs = ((s.reads [h, p, v]).imageWord p.toNat v).regs ∧ u.mem = ((s.reads [h, p, v]).imageWord p.toNat v).mem ∧
      u.ecc = ((s.reads [h, p, v]).imageWord p.toNat v).ecc ∧ u.loader.clk = ((s.reads [h, p, v]).imageWord p.toNat v).loader.clk ∧
      u.loader.pos = s.loader.pos + 12 := by
  have keeps := (s.reads [h, p, v]).imageWord_loader p.toNat v at_.full
  have good : ¬ (p.toNat % 4 ≠ 0 ∨ regwrTarget p.toNat = false) :=
    not_or.mpr ⟨not_not_intro aligned, ne_of_eq_of_ne target Bool.false_ne_true.symm⟩
  have acts := (at_.regwr (v := v) free is).trans (if_neg good)
  generalize (s.reads [h, p, v]).imageWord p.toNat v = t at keeps acts ⊢
  obtain ⟨c, w, same⟩ := keeps
  have whole : t.loader.left = 0 := by rw [same]; exact at_.whole
  have pos : t.loader.pos = s.loader.pos := by rw [same]; rfl
  rw [State.plainRecord_whole whole] at acts
  refine ⟨_, congrArg (done s) acts, ?_, ?_, ?_, ?_, ?_⟩
  · rw [settle_regs, State.withLoader_regs]
  · rw [settle_mem, State.withLoader_mem]
  · rw [settle_ecc, State.withLoader_ecc]
  · rw [settle_loader, State.withLoader_loader]
  · rw [settle_loader, State.withLoader_loader]
    show t.loader.pos + 4 * 3 = _
    rw [pos]

theorem State.regwr_register {p v : Word} {sub : Fin 2} (is : IsHeader h 1 sub 2) (aligned : p.toNat % 4 = 0)
    (target : regwrTarget p.toNat = true) (there : regionOf p.toNat = .regs ∨ regionOf p.toNat = .bay)
    (now : p.toNat / 0x1000 ≠ 0x40011) : ∃ u, exec (.regwr h [p, v]) s = .next u ∧
      u.reg p.toNat = (s.reg p.toNat &&& ~~~imageMask p.toNat) ||| (v &&& imageMask p.toNat) ∧
      (∀ y, y ≠ p.toNat → u.reg y = s.reg y) ∧ u.mem = s.mem ∧ u.loader.pos = s.loader.pos + 12 := by
  obtain ⟨u, acts, regs, mem, -, -, pos⟩ := State.regwr_taken (v := v) at_ free is aligned target
  rw [State.imageWord_register _ v there] at regs mem
  obtain ⟨sets, same, -⟩ := (s.reads [h, p, v]).imageReg_now (a := p.toNat) v now at_.full
  refine ⟨u, acts, ?_, fun y other => ?_, mem.trans same, pos⟩
  · rw [State.reg_of_regs (regs.trans sets), State.reg_setReg_same]
    rfl
  · rw [State.reg_of_regs (regs.trans sets), State.reg_setReg_other _ _ _ _ other]
    rfl

theorem State.regwr_clock {p v : Word} {sub : Fin 2} (is : IsHeader h 1 sub 2) (aligned : p.toNat % 4 = 0)
    (clock : p.toNat / 0x1000 = 0x40011) : ∃ u, exec (.regwr h [p, v]) s = .next u ∧ u.regs = s.regs ∧
      u.loader.clk = tput s.loader.clk p.toNat v ∧ u.loader.pos = s.loader.pos + 12 := by
  obtain ⟨region, target⟩ := clockBlock_target clock
  obtain ⟨u, acts, regs, -, -, clk, pos⟩ := State.regwr_taken (v := v) at_ free is aligned target
  rw [State.imageWord_register _ v (.inl region), State.imageReg_clock _ v clock] at regs clk
  exact ⟨u, acts, regs, clk, pos⟩

theorem State.regwr_memory {p v : Word} {sub : Fin 2} (is : IsHeader h 1 sub 2) (aligned : p.toNat % 4 = 0)
    (target : regwrTarget p.toNat = true) (regs : regionOf p.toNat ≠ .regs) (bay : regionOf p.toNat ≠ .bay) :
    ∃ u, exec (.regwr h [p, v]) s = .next u ∧ u.word p.toNat = (if takesNone p.toNat then s.word p.toNat else v) ∧
      (∀ y, y < p.toNat ∨ p.toNat + 4 ≤ y → u.byte y = s.byte y) ∧
      (regionOf p.toNat ≠ .scratch 0 → (takesNone p.toNat = false → u.flips p.toNat = 0) ∧ ∀ y, y ≠ PAIR_TXQ_at → u.reg y = s.reg y) := by
  obtain ⟨u, acts, uregs, umem, uecc, -, -⟩ := State.regwr_taken (v := v) at_ free is aligned target
  have written : u.word p.toNat = (if takesNone p.toNat then s.word p.toNat else v) ∧
      ∀ y, y < p.toNat ∨ p.toNat + 4 ≤ y → u.byte y = s.byte y := by
    cases takes : takesNone p.toNat with
    | true =>
      rw [State.imageWord_memory _ v regs bay, takes, if_pos rfl] at umem
      exact ⟨State.word_of_mem (umem.trans rfl) _, fun y _ => State.byte_of_mem (umem.trans rfl) y⟩
    | false =>
      rw [State.imageWord_mem _ v regs bay takes] at umem
      obtain ⟨word, bytes⟩ := State.wrote_word umem
      exact ⟨word, bytes⟩
  refine ⟨u, acts, written.1, written.2, fun outside => ?_⟩
  have page : p.toNat / 0x1000000 ≠ 0x10 := fun e => outside (scratchpad_target e target)
  obtain ⟨clean, same⟩ := (s.reads [h, p, v]).imageWord_plain v regs bay page
  refine ⟨fun takes => ?_, fun y hy => ?_⟩
  · unfold State.flips
    rw [uecc]
    exact clean takes
  · rw [State.reg_of_regs uregs]
    exact same y hy

end writes

/-! ### FRAME and END -/

section frames
variable {f c : Word} {d : List Word} (at_ : s.AtRecord) (free : s.loader.region = none)
include at_ free

theorem State.frame_misplaced (is : IsHeader h 2 0 42) (len : d.length = 40) (bad : s.frameAddrOk f.toNat = false) :
    s.Fails (.frame h (f :: d ++ [c])) 0x0C :=
  State.fails_of_failAt _ (by decide) (at_.reads _).full (congrArg (done s) ((at_.frame free is len).trans (if_pos (.inl bad))))

/-- A frame whose address and content are good is judged by its CRC. -/
theorem State.frame_judged (is : IsHeader h 2 0 42) (len : d.length = 40) (ok : s.frameAddrOk f.toNat = true)
    (unused : (d.drop (frameUsed f.toNat)).all (· == 0) = true) (known : s.vectorOk f.toNat d = true) :
    s.frameRecord h (f :: d ++ [c]) =
      if crc32 ((f :: d).flatMap wordBytes) ≠ c then (s.reads (h :: (f :: d ++ [c]))).failAt 0x0B s.loader.pos
      else ((s.reads (h :: (f :: d ++ [c]))).frameTaken f.toNat d).plainRecord h (f :: d ++ [c]) := by
  have good : ¬ (s.frameAddrOk f.toNat = false ∨ (d.drop (frameUsed f.toNat)).any (· != 0) ∨ s.vectorOk f.toNat d = false) := by
    have none_ : (d.drop (frameUsed f.toNat)).any (· != 0) = false := by
      rw [← Bool.not_eq_true', List.not_any_eq_all_not, ← unused]
      congr 1
      funext x
      exact Bool.not_not _
    rw [ok, none_, known]
    simp
  exact (at_.frame free is len).trans (if_neg good)

theorem State.frame_spoilt (is : IsHeader h 2 0 42) (len : d.length = 40) (ok : s.frameAddrOk f.toNat = true)
    (unused : (d.drop (frameUsed f.toNat)).all (· == 0) = true) (known : s.vectorOk f.toNat d = true)
    (spoilt : crc32 ((f :: d).flatMap wordBytes) ≠ c) : s.Fails (.frame h (f :: d ++ [c])) 0x0B :=
  State.fails_of_failAt _ (by decide) (at_.reads _).full
    (congrArg (done s) ((State.frame_judged at_ free is len ok unused known).trans (if_pos spoilt)))

theorem State.frame_passes (is : IsHeader h 2 0 42) (len : d.length = 40) (ok : s.frameAddrOk f.toNat = true)
    (unused : (d.drop (frameUsed f.toNat)).all (· == 0) = true) (known : s.vectorOk f.toNat d = true)
    (right : crc32 ((f :: d).flatMap wordBytes) = c) : ∃ u, exec (.frame h (f :: d ++ [c])) s = .next u ∧
      u.loader.pos = s.loader.pos + 172 ∧ u.loader.phase = .body ∧
      (bits f.toNat 31 28 = 3 → bits f.toNat 15 0 ≤ 50 → u.words (dramFrame f.toNat) 40 = d) := by
  have acts := (State.frame_judged at_ free is len ok unused known).trans (if_neg (not_not_intro right))
  obtain ⟨k, w, n, loader⟩ := (s.reads (h :: (f :: d ++ [c]))).frameTaken_loader f.toNat d at_.full
  have dram (ty : bits f.toNat 31 28 = 3) (m : bits f.toNat 15 0 ≤ 50) :
      ((s.reads (h :: (f :: d ++ [c]))).frameTaken f.toNat d).words (dramFrame f.toNat) 40 = d :=
    State.frameTaken_dram _ ty (State.frameAddrOk_dram ty ok) m len
  generalize (s.reads (h :: (f :: d ++ [c]))).frameTaken f.toNat d = t at acts loader dram
  have whole : t.loader.left = 0 := by rw [loader]; exact at_.whole
  have count : (h :: (f :: d ++ [c])).length = 43 := by simp [len]
  rw [State.plainRecord_whole whole] at acts
  refine ⟨_, congrArg (done s) acts, ?_, ?_, fun ty m => ?_⟩
  · rw [settle_loader, State.withLoader_loader]
    show t.loader.pos + 4 * (h :: (f :: d ++ [c])).length = _
    rw [count, loader]
    rfl
  · rw [settle_loader, State.withLoader_loader]
    show t.loader.phase = .body
    rw [loader]
    exact at_.phase
  · rw [← dram ty m, State.words_eq_map, State.words_eq_map]
    exact List.map_congr_left fun i _ => State.word_of_mem (by rw [settle_mem, State.withLoader_mem]) _

variable {sub : Fin 2} (is : IsHeader h 15 sub 0)
include is

theorem State.end_regions (bad : s.regionsOk = false) : s.Fails (.endRecord h ()) 0x0D :=
  State.fails_of_failAt _ (by decide) (at_.reads [h]).full (congrArg (done s) ((at_.endRecord free is).trans (if_pos bad)))

theorem State.end_hash (ok : s.regionsOk = true)
    (bad : ¬ sha256 ((h :: s.loader.read).reverse.flatMap wordBytes) = wordsAt s.loader.auth 8 8) : s.Fails (.endRecord h ()) 0x0F := by
  refine State.fails_of_failAt s.loader.pos (by decide) (at_.reads [h]).full (congrArg (done s) ?_)
  rw [at_.endRecord free is, if_neg (ne_of_eq_of_ne ok Bool.false_ne_true.symm), if_pos bad]

theorem State.end_length (ok : s.regionsOk = true)
    (hash : sha256 ((h :: s.loader.read).reverse.flatMap wordBytes) = wordsAt s.loader.auth 8 8)
    (bad : (s.loader.auth.getD 4 0).toNat ≠ s.loader.pos + 4 - s.loader.body) : s.Fails (.endRecord h ()) 0x10 := by
  refine State.fails_of_failAt s.loader.pos (by decide) (at_.reads [h]).full (congrArg (done s) ?_)
  rw [at_.endRecord free is, if_neg (ne_of_eq_of_ne ok Bool.false_ne_true.symm), if_neg (not_not_intro hash), if_pos bad]

theorem State.end_judged (ok : s.regionsOk = true)
    (hash : sha256 ((h :: s.loader.read).reverse.flatMap wordBytes) = wordsAt s.loader.auth 8 8)
    (length : (s.loader.auth.getD 4 0).toNat = s.loader.pos + 4 - s.loader.body) :
    exec (.endRecord h ()) s = .next (settle s (s.ended h).takeClocks.releaseJudged) := by
  refine congrArg (done s) ?_
  rw [at_.endRecord free is, if_neg (ne_of_eq_of_ne ok Bool.false_ne_true.symm), if_neg (not_not_intro hash), if_neg (not_not_intro length)]

end frames

end Sys2Proof.Machine
end

section
/-! PROOFS. The loader parses an image: the words of a host, the deadline, RESTART, and all its clauses (O53). -/

namespace Sys2Proof.Machine

variable {s t u : State} {h : Word} {ws : List Word} {v : Word}

/-! ### The host's words, the deadline and RESTART (R337, R339, R350) -/

section host
variable (foreign : ∀ p, s.loader.passOn = some p → p.1 ≠ .host)
include foreign

/-- A word of the host that no pass-on takes. -/
theorem State.streamWordIn_own (v : Word) : s.streamWordIn .host v =
    if s.pwr.released then
      if s.fb PR_STAT_BUSY ∧ s.fb PR_STAT_SRC then s.setFld PR_STAT_BUSYWR 1
      else if s.fb PR_STAT_DISCARD then s
      else if s.fb PR_STAT_BUSY then
        (if s.loader.source = .host then s.withLoader (fun x => { x with buf := x.buf ++ [v] }) else s.setFld CFG_STAT_LATEWR 1)
      else ({ (s.setFld PR_STAT_BUSY 1).setFld PR_STAT_SRC 0 with loader := s.loader.partAt .host } : State).withLoader
        (fun x => { x with buf := x.buf ++ [v] })
    else if s.loader.source = .host ∧ s.loader.phase ≠ .idle ∧ s.loader.phase ≠ .discard
      then s.withLoader (fun x => { x with buf := x.buf ++ [v] })
    else s.setFld CFG_STAT_LATEWR 1 := by
  have untaken : s.loader.passOn.any (fun p => p.1 == .host) = false := by
    cases on : s.loader.passOn with
    | none => rfl
    | some p => exact beq_eq_false_iff_ne.mpr (foreign p on)
  have jtag : ∀ p : Prop, ¬ (LoadSource.host = .jtag ∧ p) := fun p e => absurd e.1 (by decide)
  have never : ∀ p q : Prop, ¬ (p ∧ LoadSource.host = .jtag ∧ q) := fun p q e => absurd e.2.1 (by decide)
  unfold State.streamWordIn
  dsimp only
  rw [untaken, if_neg Bool.false_ne_true, if_neg (jtag _), if_neg (jtag _), if_neg (never _ _)]

theorem State.loadwin_buffered (v : Word) (unreleased : s.pwr.released = false) (host : s.loader.source = .host)
    (busy : s.loader.phase ≠ .idle) (wanted : s.loader.phase ≠ .discard) :
    exec (.cfgLoadwinWrite v) s = .next (settle s { s with loader := { s.loader with buf := s.loader.buf ++ [v] } }) := by
  refine congrArg (done s) ((State.streamWordIn_own foreign v).trans ?_)
  rw [unreleased, if_neg Bool.false_ne_true, if_pos ⟨host, busy, wanted⟩]
  rfl

theorem State.loadwin_partial (v : Word) (released : s.pwr.released = true) (idle : s.fb PR_STAT_BUSY = false)
    (kept : s.fb PR_STAT_DISCARD = false) : ∃ u, exec (.cfgLoadwinWrite v) s = .next u ∧ u.fb PR_STAT_BUSY = true ∧ u.loader.part = true ∧
      u.loader.phase = .sync ∧ u.loader.buf = [v] := by
  have begins := State.streamWordIn_own foreign v
  rw [released, if_pos rfl, idle, if_neg (fun e => Bool.false_ne_true e.1), kept, if_neg Bool.false_ne_true, if_neg Bool.false_ne_true]
    at begins
  refine ⟨_, congrArg (done s) begins, ?_, ?_⟩
  · rw [settle_fb, State.fb_of_regs (State.withLoader_regs _ _)]
    show ((s.setFld PR_STAT_BUSY 1).setFld PR_STAT_SRC 0).fb PR_STAT_BUSY = true
    rw [State.fb_setFld_apart _ _ _ (by decide), State.fb_setFld_one _ (by decide)]
  · rw [settle_loader, State.withLoader_loader]
    exact ⟨rfl, rfl, rfl⟩

end host

theorem State.loadDeadline_fails (unreleased : s.pwr.released = false) (full : s.loader.part = false) (host : s.loader.source = .host)
    (busy : s.loader.phase ≠ .idle) (some_ : s.loader.deadline ≠ none) : s.Fails .loadDeadline 0x11 :=
  State.fails_of_failAt _ (by decide) full
    (congrArg (done s) (if_pos ⟨unreleased, host, busy, Option.isSome_iff_ne_none.mpr some_⟩))

theorem State.clockTimeout_fails (phase : s.loader.phase = .release) (full : s.loader.part = false)
    (unlocked : s.locked 1 = false ∨ s.locked 2 = false ∨ s.locked 3 = false) : s.Fails .cfgClockTimeout 0x12 := by
  have late : ¬ (s.locked 1 = true ∧ s.locked 2 = true ∧ s.locked 3 = true) := by
    rintro ⟨a, b, c⟩
    rcases unlocked with e | e | e <;> exact Bool.false_ne_true (e.symm.trans ‹_›)
  exact State.fails_of_failAt _ (by decide) full (congrArg (done s) (if_pos ⟨phase, full, late⟩))

/-- RESTART with its key. -/
theorem restart_word (key : v.toNat / 2 ^ 16 = 0x4C44) : (v ||| 1).toNat / 2 ^ 16 = 0x4C44 ∧ (v ||| 1).toNat.testBit 0 = true := by
  have both : (v ||| 1).toNat = v.toNat ||| 1 := BitVec.toNat_or _ _
  rw [both]
  refine ⟨?_, by simp⟩
  rw [Nat.or_div_two_pow, key]
  rfl

theorem State.restart_begins (key : v.toNat / 2 ^ 16 = 0x4C44) (mode : s.fld CFG_STAT_MODE = 3) (failed : s.fb CFG_STAT_ERR = true)
    (alive : s.lc.st ≠ 4) : ∃ u, exec (.cfgRestart v) s = .next u ∧ u.loader.phase = .sync ∧ u.loader.source = .host ∧
      u.loader.deadline = some s.tb.now ∧ u.fb CFG_STAT_LOADING = true ∧ u.fb CFG_STAT_ERR = false := by
  obtain ⟨word, bit⟩ := restart_word key
  have acts : s.cfgCmd (v ||| 1) = _ := if_pos ⟨word, bit, mode, failed, alive⟩
  have regs := s.attempt_regs .host false
  refine ⟨_, congrArg (done s) acts, ?_⟩
  rw [settle_loader, settle_fb, settle_fb, State.withLoader_loader, State.fb_of_regs (State.withLoader_regs _ _),
    State.fb_of_regs (State.withLoader_regs _ _), State.fb_setFld_apart _ _ _ (by decide), State.fb_setFld_apart _ _ _ (by decide),
    State.fb_of_regs regs, State.fb_of_regs regs, State.setB]
  refine ⟨rfl, rfl, rfl, ?_, ?_⟩
  · rw [State.fb_setFld_apart _ _ _ (by decide), State.fb_setFld_apart _ _ _ (by decide), State.fb_setFld_one _ (by decide)]
  · rw [State.fb_setFld_apart _ _ _ (by decide), State.fb_setFld_zero _ (by decide)]

/-! ### All clauses -/

/-- Settles O53: each command of the loader is one branch of its operation, and every error ends in the same clearing, which keeps its code. -/
theorem theLoaderParsesAnImage : Obligations.TheLoaderParsesAnImage := by
  unfold Obligations.TheLoaderParsesAnImage
  intro s fails hd runs x has past a
  refine ⟨fun full source => ?_, ?_, fun v foreign => ⟨?_, ?_⟩, ?_, ?_⟩
  · have from_ := State.streams_of full source
    refine ⟨fun phase whole => ⟨?_, fun t tables => ⟨?_, ?_, ?_⟩⟩, fun phase whole h ws => ⟨?_, ?_, ?_⟩, fun phase => ?_,
      fun phase whole long h ws kind => ?_, fun phase whole room clear => ?_, ?_, fun phase => State.clockTimeout_fails phase full⟩
    · exact fun w => State.syncWord_modeless from_ phase whole w
    · exact congrArg (done s) (State.syncWord_opens from_ phase whole tables)
    · exact State.syncWord_erased from_ phase whole tables
    · exact fun w => State.syncWord_strange from_ phase whole tables
    · exact fun is len => congrArg (done s) (State.auth_taken from_ phase whole is (.inl ⟨rfl, rfl⟩) len)
    · exact fun is len => congrArg (done s) (State.auth_taken from_ phase whole is (.inr ⟨rfl, rfl⟩) len)
    · exact State.auth_refused from_ phase whole
    · exact ⟨State.auth_other from_ phase, fun ours fused => ⟨State.auth_unsigned from_ phase ours fused,
        State.auth_wrongKey from_ phase ours fused, State.auth_wrongSig from_ phase ours fused⟩,
        fun ours valid => ⟨State.auth_old from_ phase ours valid, State.auth_opens from_ phase ours valid⟩⟩
    · exact State.fails_of_failAt _ (by decide) full
        (congrArg (done s) (by rw [State.nopRecord, ← kind]; exact State.record_long phase whole long _))
    · have at_ : s.AtRecord := ⟨from_, phase, whole, room, clear⟩
      refine ⟨fun h ws => State.nop_runs at_, fun free => ⟨fun h p v sub is => ⟨?_, ?_, ?_, ?_⟩, fun h f d c is len => ⟨?_, ?_⟩,
        fun h r is => ⟨State.rbegin_runs at_ free is, State.rbegin_fails at_ free is⟩, ?_⟩,
        fun h v is => ⟨State.check_right at_ is, State.check_wrong at_ is⟩,
        fun h r is => ⟨State.rend_runs at_ is, State.rend_fails at_ is⟩, fun h p src known is aligned some_ =>
          ⟨State.keysel_keyless at_ known is aligned some_, State.keysel_opens at_ known is aligned some_⟩⟩
      · exact State.regwr_refused at_ free is
      · exact State.regwr_register at_ free is
      · exact State.regwr_clock at_ free is
      · exact State.regwr_memory at_ free is
      · exact State.frame_misplaced at_ free is len
      · exact fun ok unused known => ⟨State.frame_spoilt at_ free is len ok unused known, State.frame_passes at_ free is len ok unused known⟩
      · intro h sub is hash more
        refine ⟨State.end_regions at_ free is, State.end_hash at_ free is, State.end_length at_ free is, ?_⟩
        intro ok right length t
        have judged := State.end_judged at_ free is ok right length
        have behind : (s.ended h).takeClocks = t := rfl
        rw [judged, behind]
        unfold State.releaseJudged
        generalize t.releaseOffence = o
        cases o <;> rfl
    · intro b n phase more len
      refine ⟨State.block_keyless from_ phase more len, ?_⟩
      intro key keyed opened
      exact ⟨State.block_forged from_ phase more len keyed, fun text => State.block_opens from_ phase more len keyed⟩
  · intro h ws src pos behind on source kind len sent
    have direct : src.buffered = false := by rcases source with e | e <;> rw [e] <;> rfl
    refine ⟨fun sub => ?_, fun sub => ?_⟩
    · exact congrArg (done s) ((State.passon_taken on direct behind kind (by omega) len).trans (if_neg (by omega)))
    · exact congrArg (done s) ((State.passon_taken on direct behind kind (by omega) len).trans (if_pos sub))
  · exact State.loadwin_buffered foreign v
  · exact State.loadwin_partial foreign v
  · exact State.loadDeadline_fails
  · exact fun v => State.restart_begins

end Sys2Proof.Machine
end

section
/-! PROOFS. What comparators and converters do when their clock starts leaves the registers of the clocks and the supplies (O60). -/

namespace Sys2Proof.Machine

variable {s u t : State} {n k c : Nat}

/-- The registers of the clocks and the supplies stay. -/
structure State.ClocksStay (s u : State) : Prop where
  reg : ∀ a, a / 0x1000 = 0x40011 → u.reg a = s.reg a
  pwr : u.pwr = s.pwr

namespace State.ClocksStay

theorem refl (s : State) : s.ClocksStay s := ⟨fun _ _ => rfl, rfl⟩

theorem trans (h : s.ClocksStay u) (g : u.ClocksStay t) : s.ClocksStay t :=
  ⟨fun a ha => (g.reg a ha).trans (h.reg a ha), g.pwr.trans h.pwr⟩

theorem of_regs (h : s.ClocksStay u) (regs : t.regs = u.regs) (pwr : t.pwr = u.pwr) : s.ClocksStay t :=
  h.trans ⟨fun a _ => State.reg_of_regs regs a, pwr⟩

/-- A field of another block. -/
theorem setFld (h : s.ClocksStay u) (f : RF) (v : Nat) (other : f.addr / 0x1000 ≠ 0x40011) : s.ClocksStay (u.setFld f v) :=
  h.trans ⟨fun _ ha => State.reg_setFld_other _ fun e => other (e ▸ ha), State.setFld_pwr _ _ _⟩

theorem fld (h : s.ClocksStay u) (f : RF) (block : f.addr / 0x1000 = 0x40011) : u.fld f = s.fld f := congrArg f.get (h.reg _ block)

theorem setAdc (h : s.ClocksStay u) (n : Nat) (x : Adc) : s.ClocksStay (u.setAdc n x) := h.of_regs rfl rfl

theorem setCmp (h : s.ClocksStay u) (n : Nat) (x : Cmp) : s.ClocksStay (u.setCmp n x) := h.of_regs rfl rfl

theorem ite {p : Prop} [Decidable p] (yes : s.ClocksStay t) (no : s.ClocksStay u) : s.ClocksStay (if p then t else u) := by
  split
  · exact yes
  · exact no

theorem foldl {β : Type} {f : State → β → State} (l : List β) (hf : ∀ (u : State) x, x ∈ l → u.ClocksStay (f u x)) (h : s.ClocksStay u) :
    s.ClocksStay (l.foldl f u) :=
  List.foldlRecOn (motive := fun u => s.ClocksStay u) l f h fun u h x hx => h.trans (hf u x hx)

end State.ClocksStay

/-! ### Addresses -/

/-- The registers of a converter that a trigger or an apply writes lie in its bay. -/
theorem adcRegs_bay (n : Nat) : ADC_CAL_STAT_at n / 0x1000 ≠ 0x40011 ∧ ADC_CAL_CMD_at n / 0x1000 ≠ 0x40011 ∧
    ADC_IRQ_STAT_at n / 0x1000 ≠ 0x40011 ∧ ADC_CNT_TRIG_at n / 0x1000 ≠ 0x40011 ∧ ADC_CNT_MISC_at n / 0x1000 ≠ 0x40011 ∧
    ADC_ASYNC_STAT_at n / 0x1000 ≠ 0x40011 := by
  unfold ADC_CAL_STAT_at ADC_CAL_CMD_at ADC_IRQ_STAT_at ADC_CNT_TRIG_at ADC_CNT_MISC_at ADC_ASYNC_STAT_at
  omega

/-- The registers of a comparator that an edge writes lie in its bay. -/
theorem cmpRegs_bay (k : Nat) (hc : c < 4) : CMP_STAT_at k c / 0x1000 ≠ 0x40011 ∧ CMP_CNT_at k c / 0x1000 ≠ 0x40011 ∧
    CMP_IRQ_STAT_at k / 0x1000 ≠ 0x40011 := by
  unfold CMP_STAT_at CMP_CNT_at CMP_IRQ_STAT_at
  omega

theorem winRegs_bay (k : Nat) {w : Nat} (hw : w < 2) : CMP_WIN_STAT_at k w / 0x1000 ≠ 0x40011 ∧ CMP_IRQ_STAT_at k / 0x1000 ≠ 0x40011 := by
  unfold CMP_WIN_STAT_at CMP_IRQ_STAT_at
  omega

/-! ### Comparators (R184, R188, R192) -/

theorem State.eventLost_clocksStay (s : State) (e : Nat) : s.ClocksStay (s.eventLost e) := by
  unfold State.eventLost
  split
  · obtain ⟨-, cnt, irq⟩ := cmpRegs_bay (e / 4) (Nat.mod_lt e (by decide : 0 < 4))
    exact ((State.ClocksStay.refl s).setFld _ _ cnt).setFld _ _ irq
  split
  · obtain ⟨win, irq⟩ := winRegs_bay ((e - 0x40) / 2) (Nat.mod_lt e (by decide : 0 < 2))
    exact ((State.ClocksStay.refl s).setFld _ _ win).setFld _ _ irq
  · exact .refl s

theorem State.fire_clocksStay (s : State) (e : Nat) : s.ClocksStay (s.fire e) := by
  unfold State.fire
  dsimp only
  split
  · exact .refl s
  · refine .foldl _ (fun u d _ => ?_) (.refl s)
    unfold State.firePulse
    split
    · exact u.eventLost_clocksStay e
    · exact (State.ClocksStay.refl u).of_regs rfl rfl

theorem State.putF_clocksStay (s : State) (k : Nat) (hc : c < 4) (f : Bool) : s.ClocksStay (s.putF k c f) := by
  obtain ⟨stat, cnt, -⟩ := cmpRegs_bay k hc
  unfold State.putF
  dsimp only
  split
  · exact (State.ClocksStay.refl s).setFld _ _ stat
  · exact ((State.ClocksStay.refl s).setFld _ _ stat).setFld _ _ cnt

theorem State.edgeF_clocksStay (s : State) (k : Nat) (hc : c < 4) (f : Bool) : s.ClocksStay (s.edgeF k c f) := by
  obtain ⟨stat, -, irq⟩ := cmpRegs_bay k hc
  have latched : s.ClocksStay (s.latchF k c f) := by
    unfold State.latchF
    split
    · exact (s.putF_clocksStay k hc f).setFld _ _ stat
    · exact s.putF_clocksStay k hc f
  obtain ⟨t, noted, fired⟩ := s.edgeF_cases (k := k) (c := c) f
  have stays : s.ClocksStay t := by
    rcases noted with rfl | rfl
    · exact latched
    · exact latched.setFld _ _ irq
  rcases fired with e | e <;> rw [e]
  · exact stays
  · exact stays.trans (t.fire_clocksStay _)

theorem State.cmpEnable_clocksStay (s : State) (k : Nat) (hc : c < 4) : s.ClocksStay (s.cmpEnable k c) := by
  have stat := (cmpRegs_bay k hc).1
  unfold State.cmpEnable
  dsimp only
  exact ((((((State.ClocksStay.refl s).setCmp _ _).trans (State.putF_clocksStay _ k hc _)).setFld _ _ stat).setFld _ _ stat).setFld _ _
    stat).setFld _ _ stat

theorem State.cmpReturn_clocksStay (s : State) (k : Nat) (hc : c < 4) : s.ClocksStay (s.cmpReturn k c) := by
  have stat := (cmpRegs_bay k hc).1
  unfold State.cmpReturn
  dsimp only
  split
  · exact .refl s
  split
  · exact ((((State.ClocksStay.refl s).setCmp _ _).setFld _ _ stat).trans (State.edgeF_clocksStay _ k hc _)).setFld _ _ stat
  · exact s.cmpEnable_clocksStay k hc

theorem State.winEdge_clocksStay (s : State) (k : Nat) {w : Nat} (hw : w < 2) : s.ClocksStay (s.winEdge k w) := by
  obtain ⟨win, irq⟩ := winRegs_bay k hw
  have formed (v : Nat) := (State.ClocksStay.refl s).setFld (CMP_WIN_STAT_STATE k w) v win
  unfold State.winEdge
  extract_lets lo hi old new s1 s2 s3 s4
  have h2 : s.ClocksStay s2 := .ite (((formed _).setFld _ _ win).setFld _ _ irq) (formed _)
  have h3 : s.ClocksStay s3 := .ite h2 (h2.setFld _ _ win)
  have h4 : s.ClocksStay s4 := .ite (h3.setFld _ _ irq) h3
  exact .ite (.refl s) (.ite h4 (h4.trans (s4.fire_clocksStay _)))

theorem State.cmpReturns_clocksStay (s : State) (g : Nat) : s.ClocksStay (s.cmpReturns g) := by
  unfold State.cmpReturns
  dsimp only
  split
  · exact .refl s
  · refine .foldl _ (fun u j _ => u.winEdge_clocksStay _ (Nat.mod_lt j (by decide))) ?_
    exact .foldl _ (fun u j _ => u.cmpReturn_clocksStay _ (Nat.mod_lt j (by decide))) (.refl s)

theorem State.cmpSync_clocksStay (s : State) (k : Nat) (hc : c < 4) : s.ClocksStay (s.cmpSync k c) := by
  unfold State.cmpSync
  split
  · exact (State.ClocksStay.refl s).setFld _ _ (cmpRegs_bay k hc).1
  · exact .refl s

/-! ### Converters (R138, R152 to R156, R163) -/

theorem State.startConvBy_clocksStay (s : State) (v : View) (kk n : Nat) : s.ClocksStay (s.startConvBy v kk n) := by
  obtain ⟨-, -, -, -, -, async⟩ := adcRegs_bay n
  unfold State.startConvBy
  dsimp only
  split
  · split
    · exact ((State.ClocksStay.refl s).setFld _ _ async).setAdc n _
    · exact (State.ClocksStay.refl s).setAdc n _
  · exact (State.ClocksStay.refl s).setAdc n _

theorem State.ClocksStay.startRun (h : s.ClocksStay u) (n : Nat) : s.ClocksStay (u.startRun n) :=
  (h.setAdc n _).trans (State.startConvBy_clocksStay _ _ _ n)

theorem State.ClocksStay.adcDrop (h : s.ClocksStay u) (n : Nat) : s.ClocksStay (u.adcDrop n) := by
  obtain ⟨-, -, irq, trig, -, -⟩ := adcRegs_bay n
  exact (h.setFld _ _ trig).setFld _ _ irq

theorem State.adcTrigger_clocksStay (s : State) (n : Nat) : s.ClocksStay (s.adcTrigger n) := by
  obtain ⟨-, -, irq, trig, misc, -⟩ := adcRegs_bay n
  have noted (x : Adc) := (State.ClocksStay.refl s).setAdc n x
  unfold State.adcTrigger
  dsimp only
  split
  · exact .refl s
  split
  · exact (State.ClocksStay.refl s).setFld _ _ misc
  split
  · exact (noted _).adcDrop n
  split
  · exact (noted _).startRun n
  split
  · exact (noted _).adcDrop n
  · split
    · exact ((noted _).setFld _ _ trig).setFld _ _ irq
    · exact (noted _).setAdc n _
  · exact ((noted _).setFld _ _ misc).startRun n
  · exact (noted _).adcDrop n

theorem State.adcSwArrive_clocksStay (s : State) (n : Nat) : s.ClocksStay (s.adcSwArrive n) := by
  unfold State.adcSwArrive
  dsimp only
  split
  · exact .refl s
  · exact .foldl _ (fun u _ _ => ((State.ClocksStay.refl u).setAdc n _).trans (State.adcTrigger_clocksStay _ n))
      ((State.ClocksStay.refl s).setAdc n _)

theorem State.calCode_clocksStay (s : State) (n op code : Nat) : s.ClocksStay (s.calCode n op code) := by
  obtain ⟨stat, cmd, irq, -, -, -⟩ := adcRegs_bay n
  have ended := (((State.ClocksStay.refl s).setFld (ADC_CAL_STAT_CODE n) code stat).setFld (ADC_CAL_CMD_BUSY n) 0 cmd)
  unfold State.calCode
  dsimp only
  split
  · exact ended.setAdc n _
  split
  · exact (ended.setAdc n _).setFld _ _ stat
  split
  · exact (ended.setAdc n _).setFld _ _ irq
  · exact ended.setAdc n _

theorem State.ClocksStay.dropQueued (h : s.ClocksStay u) (n : Nat) : s.ClocksStay (u.dropQueued n) := by
  unfold State.dropQueued
  dsimp only
  split
  · exact (h.setAdc n _).adcDrop n
  · exact h

theorem State.rcalBorrow_clocksStay (s : State) (k : Nat) : s.ClocksStay (s.rcalBorrow k) := by
  rcases s.rcalBorrow_cases k with e | ⟨n, e⟩ <;> rw [e]
  · exact .refl s
  · exact (State.ClocksStay.refl s).setAdc n _

theorem State.ClocksStay.afterCal (h : s.ClocksStay u) (n : Nat) (cont : Bool) : s.ClocksStay (u.afterCal n cont) := by
  unfold State.afterCal
  dsimp only
  split
  · exact h
  split
  · exact (h.setAdc n _).startRun n
  split
  · exact h.startRun n
  · exact h.trans (u.rcalBorrow_clocksStay _)

theorem State.adcApply_clocksStay (old s : State) (moved : Bool) (v : View) (kk n : Nat) : s.ClocksStay (State.adcApply old s moved v kk n) := by
  obtain ⟨stat, -, -, -, misc, -⟩ := adcRegs_bay n
  unfold State.adcApply
  extract_lets freq x e converting net redo s1 s2 y s3 z s4
  have h1 : s.ClocksStay s1 := by
    refine .ite (.setFld ?_ _ _ stat) (.refl s)
    split
    · exact s.calCode_clocksStay _ _ _
    · exact .refl s
  have h2 : s.ClocksStay s2 := .ite (h1.dropQueued n) h1
  have h3 : s.ClocksStay s3 := .ite (h2.setAdc n _) h2
  have h4 : s.ClocksStay s4 := .ite (h3.setAdc n _) h3
  refine .ite ((h3.dropQueued n).setAdc n _) (.ite (h4.startRun n) (.ite ?_ (.ite (h4.afterCal n _) h4)))
  have h5 : s.ClocksStay (s4.addSat (ADC_CNT_MISC_CFGRESTART n) 1) := h4.setFld _ _ misc
  exact h5.trans (State.startConvBy_clocksStay _ v kk n)

/-! ### The clock of the modulators, and of the sectors (R163, R192, R421) -/

theorem State.modRestart_clocksStay (s : State) : s.ClocksStay s.modRestart :=
  .foldl _ (fun u n _ => State.adcApply_clocksStay _ u false _ _ n) (.refl s)

theorem State.reclockAll_clocksStay (old s : State) : s.ClocksStay (State.reclockAll old s) := by
  refine .foldl _ (fun u k _ => ?_) (.refl s)
  unfold State.reclock
  exact .ite (.refl u) (.foldl _ (fun u j _ => (State.ClocksStay.refl u).of_regs rfl rfl) (.refl u))

/-- Whether a sector's clock runs hangs on the supplies and the clocks' registers. -/
theorem State.ClocksStay.sectRuns (h : s.ClocksStay u) (hk : k < 16) : u.sectRuns k = s.sectRuns k := by
  have lock : u.locked 1 = s.locked 1 := congrArg (Nat.testBit · 1) (h.fld CLK_STAT_LOCK (by decide))
  unfold State.sectRuns State.sectReady State.awake State.fb
  rw [h.pwr, lock, h.fld (CLK_SECT_SDIV k) (by show CLK_SECT_at k / 0x1000 = _; unfold CLK_SECT_at; omega)]

/-- Clocks of sectors that ran before release nothing anew. -/
theorem State.clocksStart_clocksStay (old s : State) (same : ∀ k, k < 16 → s.sectRuns k = old.sectRuns k) : s.ClocksStay (State.clocksStart old s) := by
  unfold State.clocksStart
  extract_lets s1
  have h1 : s.ClocksStay s1 := by
    refine List.foldlRecOn (motive := fun u : State => s.ClocksStay u) _ _ (State.reclockAll_clocksStay old s) fun u h k hk => ?_
    have below := List.mem_range.mp hk
    rw [h.sectRuns below, same k below, Bool.and_not_self, if_neg Bool.false_ne_true]
    exact h
  refine .foldl _ (fun u g _ => .ite ?_ (.refl u)) h1
  extract_lets s2
  have h2 : u.ClocksStay s2 := .foldl _ (fun u j _ => .ite (u.cmpSync_clocksStay _ (Nat.mod_lt j (by decide))) (.refl u)) (.refl u)
  exact .foldl _ (fun u j _ => u.adcSwArrive_clocksStay _) h2

end Sys2Proof.Machine
end

section
/-! PROOFS. Supplies and resets: what holds the device, and what the release of a reset starts (O60). -/

namespace Sys2Proof.Machine

variable {s u t : State}

/-! ### Power-on, falling rails and RESET_N (R415 to R417) -/

theorem State.setFlds_same (s : State) (f : Nat → RF) (v n : Nat) :
    ∃ r, (List.range n).foldl (fun s k => s.setFld (f k) v) s = { s with regs := r } :=
  List.foldlRecOn (motive := fun u : State => ∃ r, u = { s with regs := r }) _ _ ⟨s.regs, rfl⟩ fun u h i _ => by
    obtain ⟨r, rfl⟩ := h
    exact ⟨_, rfl⟩

theorem State.gradeClocks_same (s : State) : ∃ r, s.gradeClocks = { s with regs := r } := by
  unfold State.gradeClocks
  dsimp only
  split
  · obtain ⟨r, sect⟩ := (s.setFld CLK_CORE_M 72).setFlds_same CLK_SECT_SDIV 6 16
    obtain ⟨q, fab⟩ := ((List.range 16).foldl (fun s k => s.setFld (CLK_SECT_SDIV k) 6) (s.setFld CLK_CORE_M 72)).setFlds_same CLK_FAB_FDIV 9 8
    rw [fab, sect]
    exact ⟨_, rfl⟩
  · exact ⟨_, rfl⟩

/-- The grade of the part touches registers alone. -/
theorem State.gradeClocks_parts (t : State) : t.gradeClocks.pwr = t.pwr ∧ t.gradeClocks.lc = t.lc ∧ t.gradeClocks.part = t.part := by
  obtain ⟨r, e⟩ := t.gradeClocks_same
  rw [e]
  exact ⟨rfl, rfl, rfl⟩

/-- A clearing keeps the supplies but for what it ends, the life cycle and the part. -/
theorem State.clearAll_parts (s : State) (keep : Nat → Bool) :
    (s.clearAll keep).pwr = { s.pwr with released := false, ioEnabled := false, phase := .run, snapStop := false } ∧
    (s.clearAll keep).lc = s.lc ∧ (s.clearAll keep).part = s.part := State.gradeClocks_parts _

theorem State.findRing_pwr (s : State) : s.findRing.pwr = s.pwr := rfl

theorem State.findRing_regs (s : State) : ∃ v, s.findRing.regs = (s.setFld RETAIN_STAT_FRPOS v).regs := ⟨_, rfl⟩

theorem State.findRing_reg (s : State) {a : Nat} (other : a ≠ RETAIN_STAT_at) : s.findRing.reg a = s.reg a := by
  obtain ⟨v, e⟩ := s.findRing_regs
  rw [State.reg_of_regs e, State.reg_setFld_other _ other]

theorem State.findRing_fld (s : State) (f : RF) (other : f.addr ≠ RETAIN_STAT_at) : s.findRing.fld f = s.fld f :=
  congrArg f.get (s.findRing_reg other)

/-- The core domain as POWER_ON brings it up, before its entries. -/
def State.poweredUp (s : State) : State :=
  ((((if s.pwr.avdd = false ∧ s.pwr.vbat = false then s.setReg SAFE_RTCSEC_at 0 else s).clearAll (keptAtPowerOn s.pwr.vdd)).powered
    s.pwr.vdd).setFld SAFE_RSTCAUSE_CAUSE 1).findRing

theorem State.powerOn_down (down : s.pwr.railsUp = false) :
    s.powerOn = (if s.safe.tamperLate then s.poweredUp.tamperEntry else s.poweredUp).faultEntry 7 0 0 0 :=
  if_neg (ne_of_eq_of_ne down Bool.false_ne_true)

theorem State.powerOn_shows (down : s.pwr.railsUp = false) :
    s.powerOn.pwr.railsUp = true ∧ s.powerOn.pwr.held = true ∧ s.powerOn.fld SAFE_RSTCAUSE_CAUSE = 1 := by
  have late : s.poweredUp.Forces (if s.safe.tamperLate then s.poweredUp.tamperEntry else s.poweredUp) := by
    split
    · exact State.faultEntry_forces _ _ _ _ _
    · exact .refl _
  have entries := late.trans (State.faultEntry_forces _ 7 0 0 0)
  rw [State.powerOn_down down, entries.pwr, entries.fld _ (by decide)]
  refine ⟨rfl, rfl, ?_⟩
  unfold State.poweredUp
  rw [State.findRing_fld _ _ (by decide), State.fld_setFld_fits (by decide) (by decide)]

/-- The registers of the chip's blocks and the supplies stay. -/
structure State.BaysOnly (s u : State) : Prop where
  reg : ∀ a, 0x40000000 ≤ a → u.reg a = s.reg a
  pwr : u.pwr = s.pwr

theorem State.BaysOnly.trans (h : s.BaysOnly u) (g : u.BaysOnly t) : s.BaysOnly t :=
  ⟨fun a ha => (g.reg a ha).trans (h.reg a ha), g.pwr.trans h.pwr⟩

theorem State.BaysOnly.setReg (h : s.BaysOnly u) {a : Nat} (w : Word) (low : a < 0x40000000) : s.BaysOnly (u.setReg a w) :=
  h.trans ⟨fun _ hb => State.reg_setReg_other _ _ _ _ (Nat.ne_of_gt (low.trans_le hb)), State.setReg_pwr _ _ _⟩

theorem State.BaysOnly.setFld (h : s.BaysOnly u) (f : RF) (v : Nat) (low : f.addr < 0x40000000) : s.BaysOnly (u.setFld f v) := h.setReg _ low

theorem State.BaysOnly.foldl {f : State → Nat → State} (n : Nat) (hf : ∀ (u : State) i, i < n → u.BaysOnly (f u i)) (h : s.BaysOnly u) :
    s.BaysOnly ((List.range n).foldl f u) :=
  List.foldlRecOn (motive := fun u => s.BaysOnly u) _ f h fun u h i hi => h.trans (hf u i (List.mem_range.mp hi))

theorem State.BaysOnly.fld (h : s.BaysOnly u) (f : RF) (high : 0x40000000 ≤ f.addr) : u.fld f = s.fld f := congrArg f.get (h.reg _ high)

theorem State.cmpsClear_baysOnly (s : State) : s.BaysOnly s.cmpsClear := by
  have refl (u : State) : u.BaysOnly u := ⟨fun _ _ => rfl, rfl⟩
  have begun : s.BaysOnly { s with cmp := [], clearq := [] } := ⟨fun _ _ => rfl, rfl⟩
  unfold State.cmpsClear
  dsimp only
  refine .foldl 32 (fun u n hn => ?_) (.foldl 64 (fun u n hn => ?_) begun)
  · have low : CMP_WIN_STAT_at (n / 2) (n % 2) < 0x40000000 := by unfold CMP_WIN_STAT_at; omega
    exact ((refl u).setFld _ 0 low).setFld _ 0 low
  · exact (refl u).setReg 0 (by unfold CMP_STAT_at; omega)

/-- Registers change, and nothing else does. -/
def State.RegsOnly (s u : State) : Prop := ∃ r, u = { s with regs := r }

theorem State.RegsOnly.setReg (h : s.RegsOnly u) (a : Nat) (w : Word) : s.RegsOnly (u.setReg a w) := by
  obtain ⟨r, rfl⟩ := h
  exact ⟨_, rfl⟩

theorem State.RegsOnly.setFld (h : s.RegsOnly u) (f : RF) (v : Nat) : s.RegsOnly (u.setFld f v) := h.setReg _ _

theorem State.lcShow_regsOnly (s : State) : s.RegsOnly s.lcShow := by
  have refl : s.RegsOnly s := ⟨s.regs, rfl⟩
  unfold State.lcShow State.setB
  dsimp only
  exact (((((((refl.setFld _ _).setFld _ _).setFld _ _).setFld _ _).setFld _ _).setFld _ _).setFld _ _).setFld _ _

theorem State.lcShow_reg (s : State) {a : Nat} (lc : a ≠ CFG_LC_at) (fuse : a ≠ CFG_FUSE_at) : s.lcShow.reg a = s.reg a := by
  unfold State.lcShow State.setB
  dsimp only
  rw [State.reg_setFld_other _ fuse, State.reg_setFld_other _ fuse, State.reg_setFld_other _ fuse, State.reg_setFld_other _ fuse,
    State.reg_setFld_other _ fuse, State.reg_setFld_other _ fuse, State.reg_setFld_other _ lc, State.reg_setFld_other _ lc]

/-- The battery domain without its contents, before its registers show it. -/
def State.battEmpty (s : State) : State :=
  { s with
    mem := if s.pwr.vdd then s.mem else s.mem.filter (fun p => !(p.1 / 0x10000 == 0x5000))
    ecc := if s.pwr.vdd then s.ecc else s.ecc.filter (fun p => !(4 * p.1 / 0x10000 == 0x5000))
    pwr := { s.pwr with vbat := false, battLost := true }
    lc := { s.lc with keyRam := none, service := none } }

theorem State.battLoses_empty (s : State) : s.battLoses = ((((s.battEmpty.lcShow.setFld VAULT_STAT_LASTCAUSE 0).setReg SAFE_RTCSEC_at
    (rstWord SAFE_RTCSEC_at)).setReg SAFE_TAMPCFG_at (rstWord SAFE_TAMPCFG_at)).setReg SAFE_TAMPSTAT_at (rstWord SAFE_TAMPSTAT_at)).setReg
    VAULT_CNT_at (rstWord VAULT_CNT_at) := by
  unfold State.battLoses State.battEmpty
  cases s.pwr.vdd <;> rfl

theorem State.battLoses_parts (s : State) : s.battLoses.pwr = { s.pwr with vbat := false, battLost := true } ∧
    s.battLoses.lc = { s.lc with keyRam := none, service := none } := by
  obtain ⟨r, e⟩ := ((((s.battEmpty.lcShow_regsOnly.setFld VAULT_STAT_LASTCAUSE 0).setReg SAFE_RTCSEC_at (rstWord SAFE_RTCSEC_at)).setReg
    SAFE_TAMPCFG_at (rstWord SAFE_TAMPCFG_at)).setReg SAFE_TAMPSTAT_at (rstWord SAFE_TAMPSTAT_at)).setReg VAULT_CNT_at (rstWord VAULT_CNT_at)
  rw [s.battLoses_empty, e]
  exact ⟨rfl, rfl⟩

theorem State.battLoses_seconds (s : State) : s.battLoses.reg SAFE_RTCSEC_at = rstWord SAFE_RTCSEC_at := by
  rw [s.battLoses_empty, State.reg_setReg_other _ _ _ _ (by decide), State.reg_setReg_other _ _ _ _ (by decide),
    State.reg_setReg_other _ _ _ _ (by decide), State.reg_setReg_same]

/-- The clocks' status stays where the battery domain loses its contents. -/
theorem State.battLoses_clocks (s : State) : s.battLoses.reg CLK_STAT_at = s.reg CLK_STAT_at := by
  rw [s.battLoses_empty, State.reg_setReg_other _ _ _ _ (by decide), State.reg_setReg_other _ _ _ _ (by decide),
    State.reg_setReg_other _ _ _ _ (by decide), State.reg_setReg_other _ _ _ _ (by decide), State.reg_setFld_other _ (by decide),
    State.lcShow_reg _ (by decide) (by decide)]
  rfl

/-! ### What holds the device -/

/-- Every PLL is unlocked, and the comparators and DACs are off. -/
def State.allOff (s : State) : State := (s.setFld CLK_STAT_LOCK 0).cmpsClear.dacsOff

theorem State.allOff_pwr (s : State) : s.allOff.pwr = s.pwr :=
  (State.dacsOff_forces _).pwr.trans ((State.cmpsClear_baysOnly _).pwr.trans (State.setFld_pwr _ _ _))

theorem State.allOff_fld (s : State) (g : RF) (chip : g.Unforced) : s.allOff.fld g = (s.setFld CLK_STAT_LOCK 0).fld g :=
  ((State.dacsOff_forces _).fld g chip).trans ((State.cmpsClear_baysOnly _).fld g chip.1.1)

theorem State.allOff_unlocked (s : State) (i : Nat) : s.allOff.locked i = false := by
  unfold State.locked State.fbit
  rw [s.allOff_fld _ (by decide), State.fld_setFld_fits (by decide) (by decide)]
  exact Nat.zero_testBit i

/-- The supplies as a falling rail leaves them. -/
def State.railDown (s : State) (rail : Nat) : State := { s with
  pwr := { s.pwr with
    railsUp := false, held := true, released := false, ioEnabled := false, phase := .run
    vdd := s.pwr.vdd && rail != 0, avdd := s.pwr.avdd && rail != 3 }
  loader := State.reset.loader
  snap := none }

theorem State.railFall_eq (s : State) (rail : Nat) : s.railFall rail =
    if (s.railDown rail).allOff.pwr.avdd = false ∧ (s.railDown rail).allOff.pwr.vbat = false then (s.railDown rail).allOff.battLoses
    else (s.railDown rail).allOff := by
  unfold State.railFall State.allOff State.railDown
  rfl

theorem State.railFall_shows (s : State) (rail : Nat) : (s.railFall rail).pwr.railsUp = false ∧ (s.railFall rail).pwr.held = true ∧
    (s.railFall rail).pwr.released = false ∧ ∀ i, (s.railFall rail).locked i = false := by
  rw [s.railFall_eq]
  split
  · have clocks : (s.railDown rail).allOff.battLoses.fld CLK_STAT_LOCK = (s.railDown rail).allOff.fld CLK_STAT_LOCK :=
      congrArg CLK_STAT_LOCK.get (State.battLoses_clocks _)
    rw [(State.battLoses_parts _).1, State.allOff_pwr]
    exact ⟨rfl, rfl, rfl, fun i => (congrArg (Nat.testBit · i) clocks).trans (State.allOff_unlocked _ i)⟩
  · rw [State.allOff_pwr]
    exact ⟨rfl, rfl, rfl, State.allOff_unlocked _⟩

/-- RESET_N, its entry and its cause. -/
def State.resetNoted (s : State) : State :=
  ((({ s with safe := { s.safe with ticks := 0, usec := none }, loader := State.reset.loader } : State).faultEntry 8 0 0 0).setFld
    SAFE_RSTCAUSE_CAUSE 2).keepSillage

theorem State.resetAssert_shows (up : s.pwr.railsUp = true) (free : s.pwr.held = false) : s.resetAssert.pwr.held = true ∧
    s.resetAssert.pwr.released = false ∧ s.resetAssert.fld SAFE_RSTCAUSE_CAUSE = 2 := by
  have taken : ¬ (s.pwr.railsUp = false ∨ (s.pwr.held = true ∧ s.safe.wdReset = false)) := by
    rw [up, free]
    simp
  have acts : s.resetAssert = { s.resetNoted.allOff with
      pwr := { s.resetNoted.pwr with held := true, released := false, ioEnabled := false, phase := .run }
      safe := { s.resetNoted.safe with wdReset := false } } := by
    unfold State.resetAssert State.allOff State.resetNoted
    exact if_neg taken
  have cause : s.resetNoted.allOff.fld SAFE_RSTCAUSE_CAUSE = 2 := by
    rw [State.allOff_fld _ _ (by decide), State.fld_setFld_apart _ _ _ _ (by decide)]
    unfold State.resetNoted State.keepSillage
    rw [State.fld_setReg_other _ _ _ _ (by decide), State.fld_setFld_fits (by decide) (by decide)]
  rw [acts]
  generalize s.resetNoted.allOff = x at cause
  exact ⟨rfl, rfl, cause⟩

/-! ### What the release of a reset starts (R318, R319, R342) -/

/-- The state whose loader is to start: everything cleared, the pins sampled. -/
def State.pinsSampled (s : State) : State :=
  let s1 := s.clearAll keptAlways
  let s2 : State := { s1 with
    pwr := { s1.pwr with held := false }
    safe := { s1.safe with wdReset := false, cmps := [], clock := 0, tampDev := false }
    pcie := { State.reset.pcie with perst := s1.pcie.perst }
    msiHeld := [] }
  (((((s2.lcWith (fun x => { x with busy := none })).setFld CFG_LC_TRIES 0).setFld CFG_STAT_MODE s.part.modePins).setB PAIR_STAT_SIDE
    s.part.sidePin).setReg CFG_UID_LO_at (s.part.uid.setWidth 32)).setReg CFG_UID_HI_at (s.part.uid.extractLsb' 32 32)

/-- A reset ends SERVICE. -/
def State.serviceEnds (s : State) : State :=
  if s.lc.service.isSome then (s.lcWith (fun x => { x with service := none })).lcChanged else s.lcShow

/-- A battery domain that lost its supplies has the vault wiped. -/
def State.battNoted (s : State) : State := if s.pwr.battLost then { s.vaultWipe 4 with pwr := { s.pwr with battLost := false } } else s

/-- The state that has drawn its nonce and found its snapshot and its ring. -/
def State.readied (s : State) : State := s.pinsSampled.serviceEnds.battNoted.newNonce.findSnap.findRing

theorem State.startLoad_eq (s : State) : s.startLoad =
    if s.readied.lc.st = 4 then (s.readied.setFld CFG_STAT_LOADING 1).loadError 0x15 0
    else if s.part.modePins = 5 ∨ s.part.modePins = 6 then (s.readied.setFld CFG_STAT_LOADING 1).loadError 0x14 0
    else s.readied.attempt (modeSource s.part.modePins) false := by
  unfold State.startLoad State.readied State.battNoted State.serviceEnds State.pinsSampled
  rfl

/-- The loader is to start: the device is no longer held, and its mode is sampled. -/
structure State.Starts (s u : State) : Prop where
  held : u.pwr.held = false
  st : u.lc.st = s.lc.st
  mode : u.fld CFG_STAT_MODE = s.part.modePins

theorem State.pinsSampled_starts (s : State) (fits : s.part.modePins ≤ 4) : s.Starts s.pinsSampled := by
  refine ⟨rfl, ?_, ?_⟩
  · show (s.clearAll keptAlways).lc.st = s.lc.st
    rw [(s.clearAll_parts keptAlways).2.1]
  · unfold State.pinsSampled State.setB
    rw [State.fld_setReg_other _ _ _ _ (by decide), State.fld_setReg_other _ _ _ _ (by decide), State.fld_setFld_apart _ _ _ _ (by decide),
      State.fld_setFld_fits (by decide) (by show s.part.modePins < 8; omega)]

namespace State.Starts

variable (h : s.Starts u)
include h

theorem of_reg (held : t.pwr.held = u.pwr.held) (st : t.lc.st = u.lc.st) (stat : t.reg CFG_STAT_at = u.reg CFG_STAT_at) : s.Starts t :=
  ⟨held.trans h.held, st.trans h.st, (congrArg CFG_STAT_MODE.get stat).trans h.mode⟩

theorem shown : s.Starts u.lcShow := by
  obtain ⟨r, e⟩ := u.lcShow_regsOnly
  exact h.of_reg (by rw [e]) (by rw [e]) (u.lcShow_reg (by decide) (by decide))

theorem wiped (cause : Nat) : s.Starts (u.vaultWipe cause) := by
  have regs : (u.vaultWipe cause).regs = (u.setFld VAULT_STAT_WIPING 1).regs := rfl
  exact h.of_reg rfl rfl ((State.reg_of_regs regs _).trans (State.reg_setFld_other 1 (by decide)))

theorem forced (same : u.Forces t) : s.Starts t :=
  ⟨(congrArg Power.held same.pwr).trans h.held, (congrArg LifeCycle.st same.lc).trans h.st, (same.fld CFG_STAT_MODE (by decide)).trans h.mode⟩

theorem serviceEnds : s.Starts u.serviceEnds := by
  unfold State.serviceEnds
  split
  · have ended : s.Starts (u.lcWith fun x => { x with service := none }) := h.of_reg rfl rfl rfl
    exact (ended.shown.wiped 2).forced (State.faultEntry_forces _ _ _ _ _)
  · exact h.shown

theorem battNoted : s.Starts u.battNoted := by
  unfold State.battNoted
  split
  · exact (h.wiped 4).of_reg rfl rfl rfl
  · exact h

theorem newNonce : s.Starts u.newNonce := by
  refine List.foldlRecOn (motive := fun x : State => s.Starts x) _ _ h fun x hx i _ => ?_
  have stat : CFG_STAT_at ≠ CFG_NONCE_at i := by unfold CFG_STAT_at CFG_NONCE_at; omega
  exact hx.of_reg rfl rfl (State.reg_setReg_other _ _ _ _ stat)

theorem findSnap : s.Starts u.findSnap := by
  unfold State.findSnap
  split
  · exact h.of_reg rfl rfl (State.reg_setReg_other _ _ _ _ (by decide))
  · exact h.of_reg rfl rfl ((State.reg_setFld_other _ (by decide)).trans (State.reg_setFld_other _ (by decide)))

theorem findRing : s.Starts u.findRing := h.of_reg rfl rfl (u.findRing_reg (by decide))

end State.Starts

theorem State.readied_starts (s : State) (fits : s.part.modePins ≤ 4) : s.Starts s.readied :=
  (s.pinsSampled_starts fits).serviceEnds.battNoted.newNonce.findSnap.findRing

theorem State.attempt_pwr (s : State) (src : LoadSource) (alt : Bool) : (s.attempt src alt).pwr = s.pwr := by
  unfold State.attempt
  dsimp only
  split <;> rfl

theorem State.attempt_loader (s : State) (src : LoadSource) (alt : Bool) : (s.attempt src alt).loader = loaderAt src false alt [] := rfl

/-- The release of a reset starts the loader from the source of the sampled mode. -/
theorem State.startLoad_shows (s : State) (alive : s.lc.st ≠ 4) (fits : s.part.modePins ≤ 4) : s.startLoad.loader.phase = .sync ∧
    s.startLoad.loader.source = modeSource s.part.modePins ∧ s.startLoad.pwr.held = false ∧
    s.startLoad.fld CFG_STAT_MODE = s.part.modePins ∧ s.startLoad.fb CFG_STAT_LOADING = true := by
  obtain ⟨held, st, mode⟩ := s.readied_starts fits
  rw [s.startLoad_eq, if_neg (ne_of_eq_of_ne st alive), if_neg (by omega), State.attempt_loader, State.attempt_pwr,
    State.fld_of_regs (State.attempt_regs _ _ _), State.fb_of_regs (State.attempt_regs _ _ _), State.setB]
  refine ⟨rfl, rfl, held, ?_, ?_⟩
  · rw [State.fld_setFld_apart _ _ _ _ (by decide), State.fld_setFld_apart _ _ _ _ (by decide), State.fld_setFld_apart _ _ _ _ (by decide)]
    exact mode
  · rw [State.fb_setFld_apart _ _ _ (by decide), State.fb_setFld_apart _ _ _ (by decide), State.fb_setFld_one _ (by decide)]

end Sys2Proof.Machine
end

section
/-! PROOFS. PLLs that lock and unlock, device standby, its wake and its resume (O60). -/

namespace Sys2Proof.Machine

variable {s u t : State} {i : Nat}

/-! ### A PLL locks (R18, R163, R418, R421) -/

/-- The other bits of a field of which one is set are what they were. -/
theorem State.fbit_orBit_other (g : RF) (h : g.lo ≤ g.hi ∧ g.hi < 32) {i j : Nat} (inside : i < g.hi + 1 - g.lo) (other : i ≠ j) :
    (s.orBit g j).fbit g i = s.fbit g i := by
  have set : s.putBit g j true = s.orBit g j := if_pos rfl
  rw [← set, State.fbit_putBit g true j i h inside, if_neg other]

/-- The end of a CLOCK condition. -/
theorem State.clockBad_ends_clocksStay (s : State) (i : Nat) : s.ClocksStay (s.clockBad i false) := by
  unfold State.clockBad
  dsimp only
  rw [if_neg Bool.false_ne_true]
  refine State.ClocksStay.of_regs (u := s.putBit SAFE_STAT_ACTIVE 8 (s.safe.clock - (s.safe.clock &&& 2 ^ i) + b2n false * 2 ^ i != 0)) ?_ rfl rfl
  unfold State.putBit
  exact .ite ((State.ClocksStay.refl s).setFld _ _ (by decide)) ((State.ClocksStay.refl s).setFld _ _ (by decide))

/-- The state that shows the lock and ends the CLOCK conditions that waited for it. -/
def State.lockNoted (s : State) (i : Nat) : State :=
  if i = 0 then (s.orBit CLK_STAT_LOCK i).clockBad 1 false
  else if (s.orBit CLK_STAT_LOCK i).locked 1 && (s.orBit CLK_STAT_LOCK i).locked 2 && (s.orBit CLK_STAT_LOCK i).locked 3
    then (s.orBit CLK_STAT_LOCK i).clockBad 2 false
  else s.orBit CLK_STAT_LOCK i

theorem State.lockNoted_clocksStay (s : State) (i : Nat) : (s.orBit CLK_STAT_LOCK i).ClocksStay (s.lockNoted i) :=
  .ite (State.clockBad_ends_clocksStay _ 1) (.ite (State.clockBad_ends_clocksStay _ 2) (.refl _))

/-- The state with a lock, from which a wake counts. -/
def State.lockHolds (s : State) (i : Nat) : State :=
  { s.lockNoted i with pwr := { (s.lockNoted i).pwr with since := if i = 4 then s.pwr.since else s.tb.now } }

theorem State.lockHolds_reg (s : State) (i : Nat) {a : Nat} (block : a / 0x1000 = 0x40011) :
    (s.lockHolds i).reg a = (s.orBit CLK_STAT_LOCK i).reg a := (s.lockNoted_clocksStay i).reg a block

theorem State.lockHolds_pwr (s : State) (i : Nat) :
    (s.lockHolds i).pwr = { s.pwr with since := if i = 4 then s.pwr.since else s.tb.now } := by
  show ({ (s.lockNoted i).pwr with since := _ } : Power) = _
  rw [(s.lockNoted_clocksStay i).pwr]
  rfl

theorem State.lockHolds_locked (s : State) (hi : i < 5) : (s.lockHolds i).locked i = true := by
  have shown : (s.lockHolds i).fld CLK_STAT_LOCK = (s.orBit CLK_STAT_LOCK i).fld CLK_STAT_LOCK :=
    congrArg CLK_STAT_LOCK.get (s.lockHolds_reg i (by decide))
  unfold State.locked
  exact (congrArg (Nat.testBit · i) shown).trans (State.fbit_orBit_same CLK_STAT_LOCK (by decide) hi)

/-- The lock of the analog PLL starts no sector's clock. -/
theorem State.lockHolds_sectRuns (s : State) {k : Nat} (hk : k < 16) : (s.lockHolds 2).sectRuns k = s.sectRuns k := by
  have core : (s.lockHolds 2).locked 1 = s.locked 1 := by
    have shown : (s.lockHolds 2).fld CLK_STAT_LOCK = (s.orBit CLK_STAT_LOCK 2).fld CLK_STAT_LOCK :=
      congrArg CLK_STAT_LOCK.get (s.lockHolds_reg 2 (by decide))
    exact (congrArg (Nat.testBit · 1) shown).trans (State.fbit_orBit_other CLK_STAT_LOCK (by decide) (by decide) (by decide))
  have divider : (s.lockHolds 2).fld (CLK_SECT_SDIV k) = s.fld (CLK_SECT_SDIV k) := by
    have block : CLK_SECT_at k / 0x1000 = 0x40011 := by unfold CLK_SECT_at; omega
    have other : CLK_SECT_at k ≠ CLK_STAT_at := by unfold CLK_SECT_at CLK_STAT_at; omega
    exact congrArg (CLK_SECT_SDIV k).get ((s.lockHolds_reg 2 block).trans (State.reg_setFld_other _ other))
  unfold State.sectRuns State.sectReady State.awake State.fb
  rw [core, divider, s.lockHolds_pwr 2]

theorem State.passedOver_clocksStay (old s : State) : s.ClocksStay (State.passedOver old s) := by
  unfold State.passedOver
  refine .ite (.refl s) (.foldl _ (fun u d _ => .ite (.refl u) ?_) (.refl s))
  extract_lets s1 s2
  have h1 : u.ClocksStay s1 := (State.ClocksStay.refl u).of_regs rfl rfl
  have h2 : u.ClocksStay s2 := by
    dsimp only [s2]
    split
    · exact h1.setFld _ _ (by decide)
    · exact h1
  exact .ite (h2.setFld _ _ (by decide)) h2

theorem State.clocksStand_reg (old s : State) {a : Nat} (block : a / 0x1000 = 0x40011) : (State.clocksStand old s).reg a = s.reg a :=
  (State.reclockAll_clocksStay old _).reg a block

theorem State.pllLock_started (started : s.pllStarted i = true) (unlocked : s.locked i = false) : s.pllLock i =
    if i = 2 ∧ s.pwr.released then State.passedOver s (State.clocksStart s ((List.range 4).foldl State.cmpReturns (s.lockHolds i).modRestart))
    else State.passedOver s (if i = 1 then State.clocksStand s (s.lockHolds i) else s.lockHolds i) := by
  have taken : ¬ (s.pllStarted i = false ∨ s.locked i = true) := by rw [started, unlocked]; simp
  unfold State.pllLock State.lockHolds State.lockNoted
  exact if_neg taken

/-- A started PLL that locks is locked, whatever its clocks do then. -/
theorem State.pllLock_locks (hi : i < 5) (started : s.pllStarted i = true) (unlocked : s.locked i = false) : (s.pllLock i).locked i = true := by
  have kept {x : State} (reg : x.reg CLK_STAT_at = (s.lockHolds i).reg CLK_STAT_at) : (State.passedOver s x).locked i = true := by
    have same : (State.passedOver s x).fld CLK_STAT_LOCK = (s.lockHolds i).fld CLK_STAT_LOCK :=
      congrArg CLK_STAT_LOCK.get (((State.passedOver_clocksStay s x).reg _ (by decide)).trans reg)
    exact (congrArg (Nat.testBit · i) same).trans (s.lockHolds_locked hi)
  rw [State.pllLock_started started unlocked]
  split
  next analog =>
    obtain ⟨rfl, -⟩ := analog
    have returned : (s.lockHolds 2).ClocksStay ((List.range 4).foldl State.cmpReturns (s.lockHolds 2).modRestart) :=
      .foldl _ (fun u g _ => u.cmpReturns_clocksStay g) (s.lockHolds 2).modRestart_clocksStay
    have starts := State.clocksStart_clocksStay s _ fun k hk => (returned.sectRuns hk).trans (s.lockHolds_sectRuns hk)
    exact kept ((starts.reg _ (by decide)).trans (returned.reg _ (by decide)))
  next =>
    refine kept ?_
    split
    · exact State.clocksStand_reg s _ (by decide)
    · rfl

/-! ### A PLL loses lock (R421) -/

/-- The state that shows a lost lock. -/
def State.lockLost (s : State) (i : Nat) : State := (s.offBit CLK_STAT_LOCK i).setFld CLK_IRQ_STAT_UNLOCK 1

theorem State.lockLost_shows (s : State) (hi : i < 5) : (s.lockLost i).locked i = false ∧ (s.lockLost i).fb CLK_IRQ_STAT_UNLOCK = true := by
  refine ⟨?_, State.fb_setFld_one _ (by decide)⟩
  have kept : (s.lockLost i).fld CLK_STAT_LOCK = (s.offBit CLK_STAT_LOCK i).fld CLK_STAT_LOCK := State.fld_setFld_apart _ _ _ _ (by decide)
  exact (congrArg (Nat.testBit · i) kept).trans (State.fbit_offBit_same CLK_STAT_LOCK (by decide) hi)

theorem State.ClocksStay.lost (h : (s.lockLost i).ClocksStay u) (hi : i < 5) : u.locked i = false ∧ u.fb CLK_IRQ_STAT_UNLOCK = true := by
  obtain ⟨lock, cause⟩ := s.lockLost_shows hi
  exact ⟨(congrArg (Nat.testBit · i) (h.fld CLK_STAT_LOCK (by decide))).trans lock,
    (congrArg (· != 0) (h.fld CLK_IRQ_STAT_UNLOCK (by decide))).trans cause⟩

theorem State.linkDown_clocksStay (s : State) : s.ClocksStay s.linkDown := by
  unfold State.linkDown
  refine .ite (.refl s) (.setFld (.setFld ?_ _ _ (by decide)) _ _ (by decide))
  exact (State.ClocksStay.refl s).of_regs rfl rfl

theorem State.Arises.tb (h : s.Arises u) : u.tb = s.tb := by obtain ⟨_, _, _, _, _, _, _, _, _, hu⟩ := h.same; rw [hu]

/-- The state in which TB_NOW is not valid any more. -/
def State.timeLost (s : State) : State := { s with tb := { s.tb with nowValid := false }, safe := { s.safe with usec := none } }

/-- The state with a CLOCK condition noted, before it trips. -/
def State.clockNoted (s : State) (i : Nat) : State :=
  { s.putBit SAFE_STAT_ACTIVE 8 (s.safe.clock - (s.safe.clock &&& 2 ^ i) + b2n true * 2 ^ i != 0) with
    safe := { s.safe with clock := s.safe.clock - (s.safe.clock &&& 2 ^ i) + b2n true * 2 ^ i } }

theorem State.clockNoted_regs (s : State) (i : Nat) : ∃ b, (s.clockNoted i).regs = (s.putBit SAFE_STAT_ACTIVE 8 b).regs := ⟨_, rfl⟩

theorem State.clockNoted_tb (s : State) (i : Nat) : (s.clockNoted i).tb = s.tb := by
  unfold State.clockNoted
  generalize (s.safe.clock - (s.safe.clock &&& 2 ^ i) + b2n true * 2 ^ i != 0) = b
  cases b <;> rfl

/-- A CLOCK condition leaves the fields that no source writes, and the time base. -/
theorem State.clockBad_begins (s : State) (i : Nat) : (s.clockBad i true).tb = s.tb ∧
    ∀ g : RF, g.Unraised → g.Apart SAFE_STAT_ACTIVE → (s.clockBad i true).fld g = s.fld g := by
  have raised : (s.clockNoted i).Arises (s.clockBad i true) := (s.clockNoted i).raiseTrip_arises 0x100
  obtain ⟨b, regs⟩ := s.clockNoted_regs i
  exact ⟨raised.tb.trans (s.clockNoted_tb i), fun g hg apart =>
    (raised.fld g hg).trans ((State.fld_of_regs regs g).trans (s.putBit_active 8 b g apart))⟩

theorem State.pllUnlock_shows (hi : i < 5) (locked : s.locked i = true) : (s.pllUnlock i).locked i = false ∧
    (s.pllUnlock i).fb CLK_IRQ_STAT_UNLOCK = true ∧ (i = 0 → (s.pllUnlock i).tb.nowValid = false) := by
  have taken : ¬ s.locked i = false := ne_of_eq_of_ne locked Bool.false_ne_true.symm
  match i, hi with
  | 0, hi =>
    have acts : s.pllUnlock 0 = (s.lockLost 0).timeLost.clockBad 1 true := if_neg taken
    obtain ⟨time, kept⟩ := (s.lockLost 0).timeLost.clockBad_begins 1
    obtain ⟨lock, cause⟩ := s.lockLost_shows hi
    rw [acts]
    refine ⟨(congrArg (Nat.testBit · 0) (kept CLK_STAT_LOCK (by decide) (by decide))).trans lock,
      (congrArg (· != 0) (kept CLK_IRQ_STAT_UNLOCK (by decide) (by decide))).trans cause, fun _ => ?_⟩
    rw [time]
    rfl
  | 1, hi =>
    have acts : s.pllUnlock 1 = State.reclockAll s (s.lockLost 1) := if_neg taken
    rw [acts]
    exact ⟨((State.reclockAll_clocksStay s _).lost hi).1, ((State.reclockAll_clocksStay s _).lost hi).2, fun e => absurd e (by decide)⟩
  | 2, hi =>
    have acts : s.pllUnlock 2 = s.lockLost 2 := if_neg taken
    rw [acts]
    exact ⟨(s.lockLost_shows hi).1, (s.lockLost_shows hi).2, fun e => absurd e (by decide)⟩
  | 3, hi =>
    have acts : s.pllUnlock 3 = (s.lockLost 3).linkDown := if_neg taken
    rw [acts]
    exact ⟨((State.linkDown_clocksStay _).lost hi).1, ((State.linkDown_clocksStay _).lost hi).2, fun e => absurd e (by decide)⟩
  | 4, hi =>
    have acts : s.pllUnlock 4 = s.lockLost 4 := if_neg taken
    rw [acts]
    exact ⟨(s.lockLost_shows hi).1, (s.lockLost_shows hi).2, fun e => absurd e (by decide)⟩

end Sys2Proof.Machine
end

section
/-! PROOFS. Device standby: its request, its entry, the wake and the resume (O60). -/

namespace Sys2Proof.Machine

variable {s u t : State} {i : Nat}

/-! ### Request and entry (R422, R423) -/

theorem State.standbyRequest_unmet {v : Word} (unmet : v.toNat / 2 ^ 16 ≠ 0x5342 ∨ v.getLsbD 0 = false ∨ s.pwr.released = false ∨
    s.pwr.phase ≠ .run) : s.standbyRequest v = s.setFld CLK_STBY_PCIEKEEP (bits v.toNat 1 1) := if_pos unmet

section request
variable {v : Word} (key : v.toNat / 2 ^ 16 = 0x5342) (bit : v.getLsbD 0 = true) (released : s.pwr.released = true)
  (run : s.pwr.phase = .run)
include key bit released run

theorem State.standbyRequest_judged : s.standbyRequest v =
    if s.attarState ≠ 0 ∨ s.fb PR_STAT_BUSY ∨ s.snap.isSome ∨ s.fld CLK_WAKECFG_EN = 0
      then (s.setFld CLK_STBY_PCIEKEEP (bits v.toNat 1 1)).setFld CLK_IRQ_STAT_STBYREF 1
    else { s.setFld CLK_STBY_PCIEKEEP (bits v.toNat 1 1) with pwr := { s.pwr with phase := .armed, standbyAt := s.effTick } } := by
  have bit_ : v.toNat.testBit 0 = true := bit
  have met : ¬ (v.toNat / 2 ^ 16 ≠ 0x5342 ∨ v.toNat.testBit 0 = false ∨ s.pwr.released = false ∨ s.pwr.phase ≠ .run) := by
    rw [key, bit_, released, run]
    simp
  unfold State.standbyRequest
  exact if_neg met

theorem State.standbyRequest_refused (busy : s.attarState ≠ 0 ∨ s.fb PR_STAT_BUSY = true ∨ s.snap ≠ none ∨ s.fld CLK_WAKECFG_EN = 0) :
    s.standbyRequest v = (s.setFld CLK_STBY_PCIEKEEP (bits v.toNat 1 1)).setFld CLK_IRQ_STAT_STBYREF 1 :=
  (State.standbyRequest_judged key bit released run).trans (if_pos (by rwa [Option.isSome_iff_ne_none]))

theorem State.standbyRequest_arms (idle : s.attarState = 0) (free : s.fb PR_STAT_BUSY = false) (none_ : s.snap = none)
    (enabled : s.fld CLK_WAKECFG_EN ≠ 0) : s.standbyRequest v =
      { s.setFld CLK_STBY_PCIEKEEP (bits v.toNat 1 1) with pwr := { s.pwr with phase := .armed, standbyAt := s.effTick } } := by
  refine (State.standbyRequest_judged key bit released run).trans (if_neg ?_)
  rw [idle, free, none_]
  simp [enabled]

end request

/-- The lane, analog and core PLLs stop, and the PCIe PLL unless it is kept. -/
def State.pllsStop (x : State) : State :=
  let y := ((x.offBit CLK_STAT_LOCK 1).offBit CLK_STAT_LOCK 2).offBit CLK_STAT_LOCK 3
  (if y.fb CLK_STBY_PCIEKEEP then y else (y.offBit CLK_STAT_LOCK 4).pcieDown).linkDown

/-- The last step of an entry. -/
def State.standsBy (x : State) : State :=
  State.reclockAll x.pllsStop { x.pllsStop with
    pwr := { x.pllsStop.pwr with phase := .standby }
    safe := { x.pllsStop.safe with wd := none } }

theorem State.standbyEntry_stands (armed : s.pwr.phase = .armed) (due : s.pwr.standbyAt.toNat ≤ s.tb.tick.toNat) :
    ∃ x : State, s.standbyEntry = x.standsBy := by
  have taken : ¬ (s.pwr.phase ≠ .armed ∨ s.tb.tick.toNat < s.pwr.standbyAt.toNat) :=
    not_or.mpr ⟨not_not_intro armed, Nat.not_lt.mpr due⟩
  exact ⟨_, if_neg taken⟩

theorem State.pcieDown_clocksStay (s : State) : s.ClocksStay s.pcieDown := by
  have block : PCIE_STAT_at / 0x1000 ≠ 0x40011 := by decide
  have reset : s.ClocksStay s.headerReset := by
    have begun : s.ClocksStay { s with pcie := { State.reset.pcie with perst := s.pcie.perst } } := ⟨fun _ _ => rfl, rfl⟩
    exact (((((begun.setFld PCIE_STAT_D3 0 block).setFld PCIE_STAT_BME 0 block).setFld PCIE_STAT_MSIEN 0 block).setFld PCIE_STAT_MSIGRANT 0
      block).setFld PCIE_STAT_LINKUP 0 block).setFld PCIE_STAT_GEN2 0 block
  exact .ite (reset.setFld _ _ (by decide)) (.refl s)

theorem State.pllsStop_unlocked (x : State) (hi : i = 1 ∨ i = 2 ∨ i = 3) : x.pllsStop.locked i = false := by
  have stopped : (((x.offBit CLK_STAT_LOCK 1).offBit CLK_STAT_LOCK 2).offBit CLK_STAT_LOCK 3).locked i = false := by
    unfold State.locked
    rcases hi with rfl | rfl | rfl
    · rw [State.fbit_offBit_other _ (by decide) (by decide), State.fbit_offBit_other _ (by decide) (by decide),
        State.fbit_offBit_same _ (by decide) (by decide)]
    · rw [State.fbit_offBit_other _ (by decide) (by decide), State.fbit_offBit_same _ (by decide) (by decide)]
    · rw [State.fbit_offBit_same _ (by decide) (by decide)]
  unfold State.pllsStop
  extract_lets y
  have ends : (if y.fb CLK_STBY_PCIEKEEP then y else (y.offBit CLK_STAT_LOCK 4).pcieDown).locked i = false := by
    split
    · exact stopped
    · have fourth : (y.offBit CLK_STAT_LOCK 4).locked i = false :=
        (State.fbit_offBit_other CLK_STAT_LOCK (by decide) (by omega)).trans stopped
      exact (congrArg (Nat.testBit · i) ((State.pcieDown_clocksStay _).fld CLK_STAT_LOCK (by decide))).trans fourth
  exact (congrArg (Nat.testBit · i) ((State.linkDown_clocksStay _).fld CLK_STAT_LOCK (by decide))).trans ends

theorem State.standsBy_shows (x : State) : x.standsBy.pwr.phase = .standby ∧ ∀ i, i = 1 ∨ i = 2 ∨ i = 3 → x.standsBy.locked i = false := by
  have same := State.reclockAll_clocksStay x.pllsStop { x.pllsStop with
    pwr := { x.pllsStop.pwr with phase := .standby }
    safe := { x.pllsStop.safe with wd := none } }
  exact ⟨congrArg Power.phase same.pwr, fun i hi =>
    (congrArg (Nat.testBit · i) (same.fld CLK_STAT_LOCK (by decide))).trans (x.pllsStop_unlocked hi)⟩

/-! ### The wake (R425) -/

/-- Whether a comparator has met its condition to wake the device. -/
def State.wakeMet (s : State) (c : BitVec 64) (n : Nat) : Bool :=
  c.toNat.testBit n && s.fbit (CMP_WAKE_WAKEEN (n / 4)) (n % 4) && s.cmpOn (n / 4) (n % 4) &&
    (s.cmpOf n).r != s.fb (CMP_CFG_POL (n / 4) (n % 4))

/-- The comparators that have met their condition. -/
def State.wakers (s : State) (c : BitVec 64) : List Nat := (List.range 64).filter (s.wakeMet c)

/-- The sources that have met their condition. -/
def State.wakeSources (s : State) (src : BitVec 4) (c : BitVec 64) : Nat :=
  (src.toNat &&& 0xA) + b2n (src.toNat.testBit 0 && !(s.wakers c).isEmpty) +
    4 * b2n (src.toNat.testBit 2 && s.reg SAFE_RTCSEC_at == s.reg CLK_ALARM_at)

/-- The state that shows which comparators woke the device. -/
def State.wokeShown (s : State) (c : BitVec 64) : State :=
  (s.wakers c).foldl (fun s n => s.orBit (CMP_WAKE_WOKE (n / 4)) (n % 4)) s

theorem State.wake_eq (s : State) (src : BitVec 4) (c : BitVec 64) : s.wake src c =
    if s.pwr.phase ≠ .standby ∨ s.wakeSources src c &&& s.fld CLK_WAKECFG_EN = 0 then s
    else { (s.wokeShown c).setFld CLK_WAKESTAT_SRC (s.wakeSources src c &&& s.fld CLK_WAKECFG_EN) with
      pwr := { (s.wokeShown c).pwr with phase := .waking, since := s.tb.now } } := by
  unfold State.wake State.wokeShown State.wakeSources State.wakers State.wakeMet
  rfl

/-- The sources that are met are among those that arrive. -/
theorem State.wakeSources_among (s : State) (src : BitVec 4) (c : BitVec 64) : s.wakeSources src c &&& src.toNat = s.wakeSources src c := by
  have each : ∀ (src : BitVec 4) (a b : Bool), ((src.toNat &&& 0xA) + b2n (src.toNat.testBit 0 && a) + 4 * b2n (src.toNat.testBit 2 && b)) &&&
      src.toNat = (src.toNat &&& 0xA) + b2n (src.toNat.testBit 0 && a) + 4 * b2n (src.toNat.testBit 2 && b) := by decide
  exact each src _ _

theorem State.wake_other {src : BitVec 4} {c : BitVec 64} (no : s.pwr.phase ≠ .standby ∨ src.toNat &&& s.fld CLK_WAKECFG_EN = 0) :
    s.wake src c = s := by
  rw [s.wake_eq src c]
  refine if_pos (no.imp_right fun off => ?_)
  rw [← s.wakeSources_among src c, Nat.land_assoc, off, Nat.and_zero]

/-- Marking comparators sets their bits and no other. -/
theorem State.marked_bit (l : List Nat) (s : State) (n : Nat) :
    (l.foldl (fun s n => s.orBit (CMP_WAKE_WOKE (n / 4)) (n % 4)) s).fbit (CMP_WAKE_WOKE (n / 4)) (n % 4) = true ↔
      s.fbit (CMP_WAKE_WOKE (n / 4)) (n % 4) = true ∨ n ∈ l := by
  have fits : (CMP_WAKE_WOKE (n / 4)).lo ≤ (CMP_WAKE_WOKE (n / 4)).hi ∧ (CMP_WAKE_WOKE (n / 4)).hi < 32 :=
    (by decide : 12 ≤ 15 ∧ 15 < 32)
  have inside : n % 4 < 4 := Nat.mod_lt n (by decide)
  induction l generalizing s with
  | nil => simp
  | cons m l ih =>
    rw [List.foldl_cons, List.mem_cons]
    refine (ih _).trans ?_
    by_cases same : n = m
    · subst same
      simp [State.fbit_orBit_same (s := s) (CMP_WAKE_WOKE (n / 4)) fits inside]
    · have kept : (s.orBit (CMP_WAKE_WOKE (m / 4)) (m % 4)).fbit (CMP_WAKE_WOKE (n / 4)) (n % 4) =
          s.fbit (CMP_WAKE_WOKE (n / 4)) (n % 4) := by
        by_cases bay : n / 4 = m / 4
        · rw [← bay]
          exact State.fbit_orBit_other (CMP_WAKE_WOKE (n / 4)) fits inside (by omega)
        · have apart : CMP_WAKE_at (n / 4) ≠ CMP_WAKE_at (m / 4) := by unfold CMP_WAKE_at; omega
          exact congrArg (Nat.testBit · (n % 4)) (State.fld_setFld_apart s (CMP_WAKE_WOKE (m / 4)) _ _ (.inl apart))
      rw [kept]
      simp [same]

theorem State.mem_wakers {c : BitVec 64} {n : Nat} (hn : n < 64) : n ∈ s.wakers c ↔
    c.getLsbD n = true ∧ s.fbit (CMP_WAKE_WAKEEN (n / 4)) (n % 4) = true ∧ s.cmpOn (n / 4) (n % 4) = true ∧
      (s.cmpOf n).r ≠ s.fb (CMP_CFG_POL (n / 4) (n % 4)) := by
  have listed : n ∈ s.wakers c ↔ s.wakeMet c n = true := by simp [State.wakers, hn]
  rw [listed]
  unfold State.wakeMet
  rw [Bool.and_eq_true, Bool.and_eq_true, Bool.and_eq_true, bne_iff_ne, and_assoc, and_assoc]
  rfl

/-- A wake by one source shows it, and the comparators that have met their condition. -/
theorem State.wake_wakes {src : BitVec 4} {c : BitVec 64} (standby : s.pwr.phase = .standby) (hi : i < 4)
    (enabled : s.fbit CLK_WAKECFG_EN i = true) (sources : s.wakeSources src c = 2 ^ i) :
    (s.wake src c).pwr.phase = .waking ∧ (s.wake src c).pwr.since = s.tb.now ∧ (s.wake src c).fld CLK_WAKESTAT_SRC = 2 ^ i ∧
      ∀ n, n < 64 → ((s.wake src c).fbit (CMP_WAKE_WOKE (n / 4)) (n % 4) = true ↔
        s.fbit (CMP_WAKE_WOKE (n / 4)) (n % 4) = true ∨ n ∈ s.wakers c) := by
  have one : s.wakeSources src c &&& s.fld CLK_WAKECFG_EN = 2 ^ i := by
    have bit : (s.fld CLK_WAKECFG_EN).testBit i = true := enabled
    rw [sources, Nat.two_pow_and, bit]
    exact Nat.mul_one _
  have acts := s.wake_eq src c
  rw [one, if_neg (not_or.mpr ⟨not_not_intro standby, Nat.two_pow_pos i |>.ne'⟩)] at acts
  have regs : (s.wake src c).regs = ((s.wokeShown c).setFld CLK_WAKESTAT_SRC (2 ^ i)).regs := by rw [acts]
  refine ⟨by rw [acts], by rw [acts], ?_, fun n hn => ?_⟩
  · rw [State.fld_of_regs regs, State.fld_setFld_fits (by decide) (Nat.pow_lt_pow_right (by decide) hi)]
  · have apart : CMP_WAKE_at (n / 4) ≠ CLK_WAKESTAT_at := by unfold CMP_WAKE_at CLK_WAKESTAT_at; omega
    have kept : (s.wake src c).fld (CMP_WAKE_WOKE (n / 4)) = (s.wokeShown c).fld (CMP_WAKE_WOKE (n / 4)) :=
      (State.fld_of_regs regs _).trans (State.fld_setFld_apart _ _ _ _ (.inl apart))
    unfold State.fbit
    rw [kept]
    exact s.wakers c |> fun l => State.marked_bit l s n

theorem State.wakeSources_pin (s : State) (c : BitVec 64) (hi : i = 1 ∨ i = 3) : s.wakeSources (BitVec.ofNat 4 (2 ^ i)) c = 2 ^ i := by
  have second : ∀ a b : Bool, ((BitVec.ofNat 4 2).toNat &&& 0xA) + b2n ((BitVec.ofNat 4 2).toNat.testBit 0 && a) +
      4 * b2n ((BitVec.ofNat 4 2).toNat.testBit 2 && b) = 2 := by decide
  have fourth : ∀ a b : Bool, ((BitVec.ofNat 4 8).toNat &&& 0xA) + b2n ((BitVec.ofNat 4 8).toNat.testBit 0 && a) +
      4 * b2n ((BitVec.ofNat 4 8).toNat.testBit 2 && b) = 8 := by decide
  rcases hi with rfl | rfl
  · exact second _ _
  · exact fourth _ _

theorem State.wakeSources_cmp {c : BitVec 64} (met : s.wakers c ≠ []) : s.wakeSources (BitVec.ofNat 4 (2 ^ 0)) c = 2 ^ 0 := by
  have first : ∀ b : Bool, ((BitVec.ofNat 4 1).toNat &&& 0xA) + b2n ((BitVec.ofNat 4 1).toNat.testBit 0 && !false) +
      4 * b2n ((BitVec.ofNat 4 1).toNat.testBit 2 && b) = 1 := by decide
  unfold State.wakeSources
  rw [List.isEmpty_eq_false_iff.mpr met]
  exact first _

theorem State.wakeSources_alarm {c : BitVec 64} (alarm : s.reg SAFE_RTCSEC_at = s.reg CLK_ALARM_at) :
    s.wakeSources (BitVec.ofNat 4 (2 ^ 2)) c = 2 ^ 2 := by
  have third : ∀ a : Bool, ((BitVec.ofNat 4 4).toNat &&& 0xA) + b2n ((BitVec.ofNat 4 4).toNat.testBit 0 && a) +
      4 * b2n ((BitVec.ofNat 4 4).toNat.testBit 2 && true) = 4 := by decide
  unfold State.wakeSources
  rw [beq_iff_eq.mpr alarm]
  exact third _

/-! ### The resume (R192, R200, R426) -/

/-- The boundary from which the clocks run again. -/
def State.resumeBegins (s : State) : State :=
  State.reclockAll s.toArrival { s.toArrival with
    pwr := { s.toArrival.pwr with phase := .run, stands := s.toArrival.pwr.stands / 2 ^ 24 * 2 ^ 24 }
    tickCopy := (List.range 40).foldl (fun t i => tset 0 t i (s.toArrival.tb.tick - 1)) s.toArrival.tickCopy }

/-- The outputs that come back at it. -/
def State.outputsBack (x : State) : State :=
  (((List.range 32).filter (fun n => x.cmpsBack.sectRuns (n / 2))).foldl State.dacBoundary x.cmpsBack).pinsBoundary

/-- What shows the wake. -/
def State.wakeShown (x : State) : State := (x.setFld CLK_IRQ_STAT_WAKE 1).addSat CLK_WAKESTAT_WAKES 1

theorem State.wakeShown_pwr (x : State) : x.wakeShown.pwr = x.pwr := rfl

/-- The watchdog starts anew where it is enabled. -/
def State.watchAgain (x : State) : State := if x.fb SAFE_WDCFG_EN then x.wdStart else x

theorem State.resume_runs (waking : s.pwr.phase = .waking) (locked : s.relocked = true) (due : 200 ≤ (s.tb.edge - s.pwr.since).toInt) :
    s.resume = s.resumeBegins.outputsBack.wakeShown.watchAgain := by
  have taken : ¬ (s.pwr.phase ≠ .waking ∨ s.relocked = false ∨ (s.tb.edge - s.pwr.since).toInt < 200) :=
    not_or.mpr ⟨not_not_intro waking, not_or.mpr ⟨ne_of_eq_of_ne locked Bool.false_ne_true.symm, Int.not_lt.mpr due⟩⟩
  unfold State.resume
  exact if_neg taken

theorem State.shortSets_pwr (s : State) {n : Nat} (hn : n < 32) : (s.shortSets n).pwr = s.pwr := by
  unfold State.shortSets
  extract_lets st y s1
  have h1 : s1.pwr = s.pwr := by
    dsimp only [s1]
    rw [State.addSat, State.setFld_pwr, State.setFld_pwr, State.setFld_pwr, State.setDac_pwr]
  split
  · rw [(State.dacTo_forces _ hn _).pwr]
    split
    · exact (State.dacEndHold_forces s1 hn).pwr.trans h1
    · exact h1
  · exact h1

theorem State.dacBoundary_pwr (s : State) {n : Nat} (hn : n < 32) : (s.dacBoundary n).pwr = s.pwr := by
  unfold State.dacBoundary
  dsimp only
  have h : (if (s.dacOf n).flagged then s.shortSets n else s).pwr = s.pwr := by
    split
    · exact s.shortSets_pwr hn
    · rfl
  generalize (if (s.dacOf n).flagged then s.shortSets n else s) = x at h
  rw [← h]
  split
  · rfl
  split
  · rw [State.setDac_pwr]
  · unfold State.dacResume
    split
    · rfl
    split
    · exact (State.dacTo_forces x hn _).pwr
    · rw [State.setFld_pwr]
      exact (State.dacTo_forces x hn _).pwr

theorem State.outputsBack_pwr (x : State) : x.outputsBack.pwr = x.pwr := by
  have pins (y : State) : y.pinsBoundary.pwr = y.pwr := by
    unfold State.pinsBoundary
    dsimp only
    split <;> rfl
  have cmps : x.cmpsBack.pwr = x.pwr := by
    have marked (u : State) (n : Nat) : u.ClocksStay (if u.fb (CMP_CFG_MODE (n / 4) (n % 4)) = false ∨
        u.fb (BAY_STATUS_HELD (n / 4)) = true then u else u.setCmp n { u.cmpOf n with back := true }) :=
      .ite (.refl u) ((State.ClocksStay.refl u).setCmp n _)
    exact (State.ClocksStay.foldl (List.range 4) (fun u g _ => u.cmpReturns_clocksStay g)
      (.foldl (List.range 64) (fun u n _ => marked u n) (.refl x))).pwr
  unfold State.outputsBack
  rw [pins]
  refine List.foldlRecOn (motive := fun y : State => y.pwr = x.pwr) _ _ cmps fun y h n hn => ?_
  exact (y.dacBoundary_pwr (List.mem_range.mp (List.mem_filter.mp hn).1)).trans h

theorem State.resume_shows (waking : s.pwr.phase = .waking) (locked : s.relocked = true) (due : 200 ≤ (s.tb.edge - s.pwr.since).toInt) :
    s.resume.pwr.phase = .run ∧ s.resume.fb CLK_IRQ_STAT_WAKE = true := by
  have phase : s.resumeBegins.pwr.phase = .run := congrArg Power.phase (State.reclockAll_clocksStay _ _).pwr
  have again (x : State) : x.watchAgain.pwr = x.pwr ∧ x.watchAgain.regs = x.regs := by
    unfold State.watchAgain
    split <;> exact ⟨rfl, rfl⟩
  rw [State.resume_runs waking locked due, (again _).1, State.fb_of_regs (again _).2]
  refine ⟨?_, ?_⟩
  · rw [State.wakeShown_pwr, State.outputsBack_pwr]
    exact phase
  · exact (State.fb_setFld_apart _ _ _ (by decide)).trans (State.fb_setFld_one _ (by decide))

end Sys2Proof.Machine
end

section
/-! PROOFS. Supplies, resets, PLLs and device standby act as their events say (O60). -/

namespace Sys2Proof.Machine

variable {s u t : State}

/-! ### The battery domain returns (R436, R454) -/

theorem State.battReturn_absent (main : s.pwr.avdd = false) (battery : s.pwr.vbat = false) : s.battReturn =
    ((({ s with pwr := { s.pwr with vbat := true } } : State).setReg SAFE_RTCSEC_at (rstWord SAFE_RTCSEC_at)).setReg SAFE_TAMPCFG_at
      (rstWord SAFE_TAMPCFG_at)).setReg SAFE_TAMPSTAT_at (rstWord SAFE_TAMPSTAT_at) := by
  have taken : ¬ (s.pwr.avdd = true ∨ s.pwr.vbat = true) := by rw [main, battery]; simp
  unfold State.battReturn
  exact if_neg taken

theorem State.battReturn_shows (main : s.pwr.avdd = false) (battery : s.pwr.vbat = false) : s.battReturn.pwr.vbat = true ∧
    s.battReturn.reg SAFE_RTCSEC_at = rstWord SAFE_RTCSEC_at := by
  rw [State.battReturn_absent main battery]
  refine ⟨?_, ?_⟩
  · rw [State.setReg_pwr, State.setReg_pwr, State.setReg_pwr]
  · rw [State.reg_setReg_other _ _ _ _ (by decide), State.reg_setReg_other _ _ _ _ (by decide), State.reg_setReg_same]

theorem State.battLoss_absent (main : s.pwr.avdd = false) (battery : s.pwr.vbat = true) : s.battLoss = s.battLoses := by
  have taken : ¬ (s.pwr.avdd = true ∨ s.pwr.vbat = false) := by rw [main, battery]; simp
  exact if_neg taken

/-! ### All clauses -/

/-- A reset whose release loads shows the source of its mode. -/
theorem loads_of_startLoad {c : Instr} (acts : exec c s = done s s.startLoad) (alive : s.lc.st ≠ 4) (fits : s.part.modePins ≤ 4) :
    ∃ u, exec c s = .next u ∧ u.loader.phase = .sync ∧ u.loader.source = modeSource s.part.modePins ∧ u.pwr.held = false ∧
      u.fld CFG_STAT_MODE = s.part.modePins ∧ u.fb CFG_STAT_LOADING = true := by
  refine ⟨_, acts, ?_⟩
  rw [settle_loader, settle_pwr, settle_fld, settle_fb]
  exact s.startLoad_shows alive fits

/-- A wake by one source is seen behind its command. -/
theorem wakes_of_sources {c : BitVec 64} {i : Nat} (standby : s.pwr.phase = .standby) (hi : i < 4) (enabled : s.fbit CLK_WAKECFG_EN i = true)
    (sources : s.wakeSources (BitVec.ofNat 4 (2 ^ i)) c = 2 ^ i) : ∃ u, exec (.wake (BitVec.ofNat 4 (2 ^ i)) c) s = .next u ∧
      u.pwr.phase = .waking ∧ u.pwr.since = s.tb.now ∧ u.fld CLK_WAKESTAT_SRC = 2 ^ i ∧
      ∀ n, n < 64 → (u.fbit (CMP_WAKE_WOKE (n / 4)) (n % 4) = true ↔ s.fbit (CMP_WAKE_WOKE (n / 4)) (n % 4) = true ∨
        (c.getLsbD n = true ∧ s.fbit (CMP_WAKE_WAKEEN (n / 4)) (n % 4) = true ∧ s.cmpOn (n / 4) (n % 4) = true ∧
          (s.cmpOf n).r ≠ s.fb (CMP_CFG_POL (n / 4) (n % 4)))) := by
  obtain ⟨phase, since, source, woke⟩ := State.wake_wakes (c := c) standby hi enabled sources
  refine ⟨_, rfl, ?_, ?_, ?_, fun n hn => ?_⟩
  · rw [settle_pwr, phase]
  · rw [settle_pwr, since]
  · rw [settle_fld, source]
  · rw [settle_fbit, ← State.mem_wakers hn]
    exact woke n hn

/-- Settles O60: each event is one branch of its operation, and what follows in it leaves the clocks' registers and the supplies. -/
theorem suppliesResetsAndStandbyAct : Obligations.SuppliesResetsAndStandbyAct := by
  unfold Obligations.SuppliesResetsAndStandbyAct
  intro s loads
  refine ⟨fun down => ?_, fun up => congrArg (done s) (if_pos up), fun r => ?_, fun up free => ?_, fun held up alive fits => ⟨?_, fun wd => ?_⟩,
    fun free => ⟨?_, ?_⟩, fun i started unlocked => ?_, fun i idle => congrArg (done s) (if_pos idle), fun i locked => ?_,
    fun i unlocked => congrArg (done s) (if_pos unlocked), fun v unmet => congrArg (done s) (State.standbyRequest_unmet unmet),
    fun v key bit released run => ?_, fun armed due => ?_, fun early => congrArg (done s) (if_pos early), fun c => ?_,
    fun src c no => congrArg (done s) (State.wake_other no), fun waking late => congrArg (done s) (if_pos ⟨waking, late⟩), fun no => ?_,
    fun no => congrArg (done s) (if_pos no), fun waking locked due => ?_, fun main battery => ?_, fun no => congrArg (done s) (if_pos no),
    fun main battery => ?_⟩
  · refine ⟨_, rfl, ?_⟩
    rw [settle_pwr, settle_fld]
    exact State.powerOn_shows down
  · obtain ⟨up, held, released, locks⟩ := s.railFall_shows r
    refine ⟨_, rfl, ?_, ?_, ?_, fun i => ?_⟩
    · rw [settle_pwr, up]
    · rw [settle_pwr, held]
    · rw [settle_pwr, released]
    · exact (settle_fbit _ _ _).trans (locks i)
  · refine ⟨_, rfl, ?_⟩
    rw [settle_pwr, settle_fld]
    exact State.resetAssert_shows up free
  · exact loads_of_startLoad (congrArg (done s) (if_pos ⟨held, up⟩)) alive fits
  · exact loads_of_startLoad (congrArg (done s) (if_pos ⟨held, wd, up⟩)) alive fits
  · exact congrArg (done s) (if_neg fun e => Bool.false_ne_true (free.symm.trans e.1))
  · exact congrArg (done s) (if_neg fun e => Bool.false_ne_true (free.symm.trans e.1))
  · exact ⟨_, rfl, (settle_fbit _ _ _).trans (State.pllLock_locks i.isLt started unlocked)⟩
  · obtain ⟨lock, cause, time⟩ := State.pllUnlock_shows i.isLt locked
    refine ⟨_, rfl, (settle_fbit _ _ _).trans lock, (settle_fb _ _ _).trans cause, fun zero => ?_⟩
    rw [settle_tb]
    exact time (congrArg Fin.val zero)
  · intro t
    exact ⟨fun busy => congrArg (done s) (State.standbyRequest_refused key bit released run busy),
      fun idle free none_ enabled => congrArg (done s) (State.standbyRequest_arms key bit released run idle free none_ enabled)⟩
  · obtain ⟨x, stands⟩ := State.standbyEntry_stands armed due
    obtain ⟨phase, unlocked⟩ := x.standsBy_shows
    refine ⟨_, congrArg (done s) stands, ?_, ?_, ?_, ?_⟩
    · rw [settle_pwr, phase]
    · exact (settle_fbit _ _ _).trans (unlocked 1 (.inl rfl))
    · exact (settle_fbit _ _ _).trans (unlocked 2 (.inr (.inl rfl)))
    · exact (settle_fbit _ _ _).trans (unlocked 3 (.inr (.inr rfl)))
  · intro met wakes standby
    refine ⟨fun i hi enabled => wakes_of_sources standby (by omega) enabled (s.wakeSources_pin c hi), fun enabled some_ => ?_,
      fun enabled alarm => wakes_of_sources standby (by decide) enabled (State.wakeSources_alarm alarm)⟩
    obtain ⟨n, hn, has⟩ := some_
    exact wakes_of_sources standby (by decide) enabled (State.wakeSources_cmp (List.ne_nil_of_mem ((State.mem_wakers hn).mpr has)))
  · refine congrArg (done s) (if_neg fun e => ?_)
    rcases no with other | locked
    · exact other e.1
    · exact Bool.false_ne_true (e.2.symm.trans locked)
  · refine ⟨_, rfl, ?_⟩
    rw [settle_pwr, settle_fb]
    exact State.resume_shows waking locked due
  · obtain ⟨pwr, lc⟩ := s.battLoses_parts
    refine ⟨_, congrArg (done s) (State.battLoss_absent main battery), ?_⟩
    rw [settle_lc, settle_pwr, settle_reg, pwr, lc, s.battLoses_seconds]
    exact ⟨rfl, rfl, rfl, rfl, rfl⟩
  · refine ⟨_, rfl, ?_⟩
    rw [settle_pwr, settle_reg]
    exact State.battReturn_shows main battery

end Sys2Proof.Machine
end

section
/-! PROOFS. What a device drops that starts a join, and what a desynchronised one shows (O48). -/

namespace Sys2Proof.Machine

variable {s u t : State} {n k r : Nat}

/-- The registers of the chip's blocks but that of the transmit queue, and memory, stay. -/
structure State.Drops (s u : State) : Prop where
  reg : ∀ a, 0x40000000 ≤ a → a ≠ PAIR_TXQ_at → u.reg a = s.reg a
  mem : u.mem = s.mem

namespace State.Drops

theorem refl (s : State) : s.Drops s := ⟨fun _ _ _ => rfl, rfl⟩

theorem trans (h : s.Drops u) (g : u.Drops t) : s.Drops t :=
  ⟨fun a chip ha => (g.reg a chip ha).trans (h.reg a chip ha), g.mem.trans h.mem⟩

theorem of_regs (h : s.Drops u) (regs : t.regs = u.regs) (mem : t.mem = u.mem) : s.Drops t :=
  h.trans ⟨fun a _ _ => State.reg_of_regs regs a, mem⟩

/-- A field of a bay's window. -/
theorem setLow (h : s.Drops u) (f : RF) (v : Nat) (low : f.addr < 0x40000000) : s.Drops (u.setFld f v) :=
  h.trans ⟨fun _ chip _ => State.reg_setFld_other _ (Nat.ne_of_gt (low.trans_le chip)), State.setFld_mem _ _ _⟩

theorem fld (h : s.Drops u) (g : RF) (chip : 0x40000000 ≤ g.addr) (other : g.addr ≠ PAIR_TXQ_at) : u.fld g = s.fld g :=
  congrArg g.get (h.reg _ chip other)

theorem fb (h : s.Drops u) (g : RF) (chip : 0x40000000 ≤ g.addr) (other : g.addr ≠ PAIR_TXQ_at) : u.fb g = s.fb g :=
  congrArg (· != 0) (h.fld g chip other)

theorem foldl {β : Type} {f : State → β → State} (l : List β) (hf : ∀ (u : State) x, x ∈ l → u.Drops (f u x)) (h : s.Drops u) :
    s.Drops (l.foldl f u) :=
  List.foldlRecOn (motive := fun u => s.Drops u) l f h fun u h x hx => h.trans (hf u x hx)

end State.Drops

/-! ### Action stores and slots -/

theorem State.storeEmpty_drops (s : State) (k : Nat) : s.Drops (s.storeEmpty k) := ⟨fun _ _ _ => rfl, rfl⟩

theorem State.cancelOwned_drops (s : State) (k owner : Nat) : s.Drops (s.cancelOwned k owner) := ⟨fun _ _ _ => rfl, rfl⟩

theorem State.toPartner_drops (s : State) (kind : String) (ws : List Nat) : s.Drops (s.toPartner kind ws) :=
  ⟨fun a _ ha => State.toPartner_reg s kind ws a ha, State.toPartner_mem s kind ws⟩

theorem State.setChan_drops (s : State) (i : Nat) (c : Chan) : s.Drops (s.setChan i c) := ⟨fun _ _ _ => rfl, rfl⟩

theorem State.setSlot_drops (s : State) (i : Nat) (c : Chan) : s.Drops (s.setSlot i c) :=
  (s.setChan_drops i c).trans (State.toPartner_drops _ _ _)

theorem State.freeSlot_drops (s : State) (i : Nat) : s.Drops (s.freeSlot i) := s.setSlot_drops i _

theorem State.dropChans_drops (s : State) : s.Drops s.dropChans := by
  unfold State.dropChans
  refine State.Drops.of_regs ((State.Drops.refl s).foldl s.chans fun u p _ => ?_) rfl rfl
  split
  · exact .refl u
  · exact (u.cancelOwned_drops _ _).trans (State.freeSlot_drops _ _)

theorem State.stopReplay_drops (s : State) : s.Drops s.stopReplay := by
  unfold State.stopReplay
  refine (State.Drops.refl s).foldl s.eng fun u p _ => ?_
  split
  · split
    · exact (State.Drops.refl u).of_regs rfl rfl
    · exact .refl u
  · exact .refl u

/-! ### Outputs -/

theorem State.setDac_drops (s : State) (n : Nat) (x : Dac) : s.Drops (s.setDac n x) := ⟨fun _ _ _ => rfl, rfl⟩

theorem State.loopBreak_drops (s : State) (n : Nat) : s.Drops (s.loopBreak n) := by
  unfold State.loopBreak
  dsimp only
  split
  · split
    · exact ⟨fun _ _ _ => rfl, rfl⟩
    · exact .refl s
  · exact .refl s

theorem State.dacTo_drops (s : State) (hn : n < 32) (st : Nat) : s.Drops (s.dacTo n st) := by
  have entered := (s.loopBreak_drops n).setLow (DAC_STAT_STATE n) st (dacRegs_low hn).2
  unfold State.dacTo
  dsimp only
  split
  · exact entered
  · exact (entered.setLow (DAC_STAT_LIMITING n) 0 (dacRegs_low hn).2).trans (State.setDac_drops _ n _)

theorem State.dacEndHold_drops (s : State) (hn : n < 32) : s.Drops (s.dacEndHold n) := by
  have code : s.Drops (s.putCode n (s.dacOf n).pendCode) := by
    unfold State.putCode
    refine State.Drops.setLow ?_ (DAC_CODE_CODE n) _ (dacRegs_low hn).1
    split
    · exact .refl s
    · exact s.loopBreak_drops n
  exact code.setLow (DAC_STAT_GAINF n) _ (dacRegs_low hn).2

theorem State.dacForce_drops (s : State) (hn : n < 32) : s.Drops (s.dacForce n) := by
  have stored := s.setDac_drops n { s.dacOf n with role := s.pairStandby }
  unfold State.dacForce
  dsimp only
  split
  · exact stored
  split
  · exact ((stored.trans (State.dacEndHold_drops _ hn)).trans (State.dacTo_drops _ hn _)).setLow (DAC_STAT_CODEVALID n) 1 (dacRegs_low hn).2
  · exact stored.trans (State.dacTo_drops _ hn _)

/-! ### Roles -/

/-- The state with a new role, before shared pins are released. -/
theorem State.setRole_drops (s : State) (r : Nat) : (s.setFld PAIR_STAT_ROLE r).Drops (s.setRole r) := by
  unfold State.setRole
  dsimp only
  split
  · exact State.Drops.foldl _ (fun u n hn => u.dacForce_drops (List.mem_range.mp hn)) ⟨fun _ _ _ => rfl, rfl⟩
  · exact .refl _

theorem State.setRole_role (s : State) (fits : r < 8) : (s.setRole r).fld PAIR_STAT_ROLE = r :=
  ((s.setRole_drops r).fld _ (by decide) (by decide)).trans (State.fld_setFld_fits (RF.fits (by decide)) fits)

/-- A field of the chip's blocks of other bits than the role. -/
theorem State.setRole_fld (s : State) (r : Nat) (g : RF) (chip : 0x40000000 ≤ g.addr) (other : g.addr ≠ PAIR_TXQ_at)
    (apart : g.Apart PAIR_STAT_ROLE) : (s.setRole r).fld g = s.fld g :=
  ((s.setRole_drops r).fld g chip other).trans (State.fld_setFld_apart _ _ _ _ apart)

theorem State.setRole_fb (s : State) (r : Nat) (g : RF) (chip : 0x40000000 ≤ g.addr) (other : g.addr ≠ PAIR_TXQ_at)
    (apart : g.Apart PAIR_STAT_ROLE) : (s.setRole r).fb g = s.fb g := congrArg (· != 0) (s.setRole_fld r g chip other apart)

theorem State.setRole_mem (s : State) (r : Nat) : (s.setRole r).mem = s.mem := (s.setRole_drops r).mem.trans (State.setFld_mem _ _ _)

/-- Of the pair a new role reads nothing and writes at most the alive pin. -/
theorem State.setRole_part {α : Type} (s : State) (r : Nat) (f : Pair → α) (alive : ∀ p b, f { p with aliveOut := b } = f p) :
    f (s.setRole r).pair = f s.pair := by
  unfold State.setRole
  dsimp only
  split
  · exact (State.dacsForce_forces _).part (fun u => f u.pair) fun _ _ _ _ _ _ b _ _ _ _ _ => alive _ b
  · rfl

theorem State.setRole_pairKeeps (s : State) (r : Nat) : (s.setRole r).pair.joining = s.pair.joining ∧
    (s.setRole r).pair.sums = s.pair.sums :=
  ⟨s.setRole_part r Pair.joining fun _ _ => rfl, s.setRole_part r Pair.sums fun _ _ => rfl⟩

/-! ### Joins (R314, R355) -/

theorem regStat_apart (r : Nat) : 0x40000000 ≤ REG_STAT_at r ∧ REG_STAT_at r ≠ PAIR_TXQ_at := by
  unfold REG_STAT_at PAIR_TXQ_at
  omega

theorem State.Drops.regionHeld (h : s.Drops u) : u.regionHeld = s.regionHeld := by
  unfold State.regionHeld
  congr 1
  funext r
  exact h.fb _ (regStat_apart r).1 (regStat_apart r).2

/-- The state before the role JOINING is taken. -/
def State.joinPair (s : State) : State :=
  s.stopReplay.withPair (fun p => { p.quiet with joining := !s.regionHeld, joinHeld := s.regionHeld, lost := none })

theorem State.joinPair_drops (s : State) : s.Drops s.joinPair := s.stopReplay_drops.of_regs rfl rfl

theorem State.joinRole_eq (s : State) : s.joinRole = s.joinPair.setRole 2 := rfl

/-- A state with every action store and every slot emptied. -/
def State.emptied (s : State) : State := ((s.stores.map (·.1)).foldl State.storeEmpty s).dropChans

theorem State.emptied_drops (s : State) : s.Drops s.emptied :=
  ((State.Drops.refl s).foldl _ fun u k _ => u.storeEmpty_drops k).trans (State.dropChans_drops _)

/-- The state of a join that starts, but for its action stores. -/
theorem State.startJoin_same (s : State) : s.startJoin.regs = s.emptied.joinRole.regs ∧ s.startJoin.mem = s.emptied.joinRole.mem ∧
    s.startJoin.pair = s.emptied.joinRole.pair := ⟨rfl, rfl, rfl⟩

/-- What holds of the state that starts a join holds of the state after it but for the role. -/
theorem State.startJoin_drops (s : State) : (s.emptied.joinPair.setFld PAIR_STAT_ROLE 2).Drops s.startJoin := by
  obtain ⟨regs, mem, -⟩ := s.startJoin_same
  exact (s.emptied.joinPair.setRole_drops 2).of_regs regs mem

theorem State.startJoin_role (s : State) : s.startJoin.fld PAIR_STAT_ROLE = 2 :=
  (s.startJoin_drops.fld _ (by decide) (by decide)).trans (State.fld_setFld_fits (RF.fits (by decide)) (by decide))

theorem State.startJoin_fb (s : State) (g : RF) (chip : 0x40000000 ≤ g.addr) (other : g.addr ≠ PAIR_TXQ_at)
    (apart : g.Apart PAIR_STAT_ROLE) : s.startJoin.fb g = s.fb g := by
  rw [s.startJoin_drops.fb g chip other, State.fb_setFld_apart _ _ _ apart, s.emptied.joinPair_drops.fb g chip other,
    s.emptied_drops.fb g chip other]

theorem State.startJoin_mem (s : State) : s.startJoin.mem = s.mem := by
  rw [s.startJoin_drops.mem, State.setFld_mem, s.emptied.joinPair_drops.mem, s.emptied_drops.mem]

theorem State.startJoin_joining (s : State) : s.startJoin.pair.joining = !s.regionHeld := by
  obtain ⟨-, -, pair⟩ := s.startJoin_same
  rw [pair, State.joinRole_eq, (State.setRole_pairKeeps _ 2).1]
  exact congrArg (! ·) s.emptied_drops.regionHeld

/-! ### Desynchronisation (R316) -/

/-- The state before a desynchronised device drops what it mirrors. -/
def State.desyncShown (s : State) : State := (s.setFld PAIR_IRQ_STAT_DESYNC 1).addSat PAIR_CNT_DESYNCS 1

theorem State.desyncShown_fb (s : State) : s.desyncShown.fb PAIR_IRQ_STAT_DESYNC = true :=
  (State.fb_setFld_apart _ _ _ (by decide)).trans (State.fb_setFld_one _ (by decide))

theorem State.desyncShown_keeps (s : State) (g : RF) (apart : g.Apart PAIR_IRQ_STAT_DESYNC) (other : g.Apart PAIR_CNT_DESYNCS) :
    s.desyncShown.fb g = s.fb g := (State.fb_setFld_apart _ _ _ other).trans (State.fb_setFld_apart _ _ _ apart)

theorem State.desyncShown_mem (s : State) : s.desyncShown.mem = s.mem := rfl

/-- The state without replays and what they used. -/
def State.quieted (s : State) : State := s.stopReplay.withPair (fun p => { p.quiet with lost := none })

theorem State.quieted_drops (s : State) : s.Drops s.quieted := s.stopReplay_drops.of_regs (State.withPair_regs _ _) (State.withPair_mem _ _)

/-- A desynchronised device joins again or waits for it: in either case its role is JOINING. -/
theorem State.desync_same (s : State) : (s.desync.regs = s.desyncShown.startJoin.regs ∧ s.desync.mem = s.desyncShown.startJoin.mem) ∨
    s.desync.regs = (s.desyncShown.quieted.setRole 2).regs ∧ s.desync.mem = (s.desyncShown.quieted.setRole 2).mem := by
  unfold State.desync
  dsimp only
  split
  · exact .inl ⟨rfl, State.withPair_mem _ _⟩
  · exact .inr ⟨State.withPair_regs _ _, State.withPair_mem _ _⟩

theorem State.desync_role (s : State) : s.desync.fld PAIR_STAT_ROLE = 2 := by
  obtain ⟨regs, -⟩ | ⟨regs, -⟩ := s.desync_same
  · exact (State.fld_of_regs regs _).trans (State.startJoin_role _)
  · exact (State.fld_of_regs regs _).trans (State.setRole_role _ (by decide))

theorem State.desync_mem (s : State) : s.desync.mem = s.mem := by
  obtain ⟨-, mem⟩ | ⟨-, mem⟩ := s.desync_same
  · exact mem.trans ((State.startJoin_mem _).trans s.desyncShown_mem)
  · exact mem.trans ((State.setRole_mem _ 2).trans ((State.quieted_drops _).mem.trans s.desyncShown_mem))

/-- The interrupts of the pair that a desynchronised device shows. -/
theorem State.desync_irq (s : State) (g : RF) (irq : g.addr = PAIR_IRQ_STAT_at) : s.desync.fb g = s.desyncShown.fb g := by
  have chip : 0x40000000 ≤ g.addr := irq ▸ by decide
  have other : g.addr ≠ PAIR_TXQ_at := irq ▸ by decide
  have apart : g.Apart PAIR_STAT_ROLE := .inl (irq ▸ by decide)
  obtain ⟨regs, -⟩ | ⟨regs, -⟩ := s.desync_same
  · exact (State.fb_of_regs regs g).trans (State.startJoin_fb _ g chip other apart)
  · exact (State.fb_of_regs regs g).trans ((State.setRole_fb _ 2 g chip other apart).trans ((State.quieted_drops _).fb g chip other))

/-- Desynchronisation takes the role JOINING and its cause, and changes no byte. -/
theorem State.desync_shows (s : State) : s.desync.fld PAIR_STAT_ROLE = 2 ∧ s.desync.fb PAIR_IRQ_STAT_DESYNC = true ∧
    s.desync.mem = s.mem :=
  ⟨s.desync_role, (s.desync_irq _ rfl).trans s.desyncShown_fb, s.desync_mem⟩

theorem State.desync_alignerr (s : State) (shown : s.fb PAIR_IRQ_STAT_ALIGNERR = true) : s.desync.fb PAIR_IRQ_STAT_ALIGNERR = true :=
  (s.desync_irq _ rfl).trans ((s.desyncShown_keeps _ (by decide) (by decide)).trans shown)

end Sys2Proof.Machine
end

section
/-! PROOFS. How a packet arrives, and what a standby does with the mirrored writes, the session, the slots and the logs of its primary (O48). -/

namespace Sys2Proof.Machine

variable {s : State} {rx : PacketRx} {a : Nat} {v : Word}

/-! ### Arrival (R295) -/

/-- The state that has received a good packet. -/
def State.received (s : State) (rx : PacketRx) : State :=
  (s.withPair (fun p => { p with rxSeq := some (rx.seq + 1) })).setFld PAIR_LINKDLY_DLY rx.dly.toNat

/-- The state that has received a damaged packet. -/
def State.receivedBad (s : State) (rx : PacketRx) : State :=
  (s.withPair (fun p => { p with rxSeq := some ((if rx.crc then rx.seq else p.rxSeq.getD rx.seq) + 1) })).addSat PAIR_CNT2_CRCERR 1

/-- A packet whose CRC is right and whose sequence number is the next one. -/
def State.inOrder (s : State) (rx : PacketRx) : Bool := rx.crc && s.pair.rxSeq.all (· == rx.seq)

theorem State.inOrder_of (crc : rx.crc = true) (next : ∀ q, s.pair.rxSeq = some q → q = rx.seq) : s.inOrder rx = true := by
  unfold State.inOrder
  rw [crc, Bool.true_and]
  cases known : s.pair.rxSeq with
  | none => rfl
  | some q => simp [next q known]

theorem State.inOrder_not (damaged : rx.crc = false ∨ ∃ q, s.pair.rxSeq = some q ∧ q ≠ rx.seq) : s.inOrder rx = false := by
  unfold State.inOrder
  rcases damaged with crc | ⟨q, known, other⟩
  · rw [crc, Bool.false_and]
  · simp [known, other]

theorem State.listens (on : s.fld PAIR_STAT_ROLE ≠ 0) (link : s.fb PAIR_STAT_LINK = true) :
    ¬ (s.role = 0 ∨ s.fb PAIR_STAT_LINK = false) := by
  rintro (off | down)
  · exact on off
  · exact Bool.false_ne_true (down.symm.trans link)

theorem State.arrive_good (on : s.fld PAIR_STAT_ROLE ≠ 0) (link : s.fb PAIR_STAT_LINK = true) (good : s.inOrder rx = true)
    (take : Bool → State → State) : s.arrive rx take = take true (s.received rx) := by
  unfold State.inOrder at good
  have crc : rx.crc = true := (Bool.and_eq_true_iff.mp good).1
  unfold State.arrive
  rw [if_neg (State.listens on link)]
  dsimp only
  rw [if_pos good, crc]
  rfl

theorem State.arrive_bad (on : s.fld PAIR_STAT_ROLE ≠ 0) (link : s.fb PAIR_STAT_LINK = true) (bad : s.inOrder rx = false)
    (take : Bool → State → State) : s.arrive rx take = take false (s.receivedBad rx) := by
  unfold State.inOrder at bad
  unfold State.arrive
  rw [if_neg (State.listens on link)]
  dsimp only
  rw [bad]
  rfl

/-! ### What an arrival leaves -/

theorem State.received_fld (s : State) (rx : PacketRx) (g : RF) (other : g.addr ≠ PAIR_LINKDLY_at) : (s.received rx).fld g = s.fld g :=
  State.fld_setFld_other _ _ _ _ other

theorem State.received_fb (s : State) (rx : PacketRx) (g : RF) (other : g.addr ≠ PAIR_LINKDLY_at) : (s.received rx).fb g = s.fb g :=
  congrArg (· != 0) (s.received_fld rx g other)

theorem State.received_role (s : State) (rx : PacketRx) : (s.received rx).fld PAIR_STAT_ROLE = s.fld PAIR_STAT_ROLE :=
  s.received_fld rx _ (by decide)

theorem State.received_link (s : State) (rx : PacketRx) : (s.received rx).fb PAIR_STAT_LINK = s.fb PAIR_STAT_LINK :=
  s.received_fb rx _ (by decide)

theorem State.received_mem (s : State) (rx : PacketRx) : (s.received rx).mem = s.mem := rfl

theorem State.received_tb (s : State) (rx : PacketRx) : (s.received rx).tb = s.tb := rfl

theorem State.received_synced (s : State) (rx : PacketRx) : (s.received rx).pair.synced = s.pair.synced := rfl

theorem State.received_joining (s : State) (rx : PacketRx) : (s.received rx).pair.joining = s.pair.joining := rfl

/-- The clocks of the sectors do not stand at the delay of the link. -/
theorem sectClock_ne_linkdly (k : Nat) : (CLK_SECT_SDIV k).addr ≠ PAIR_LINKDLY_at := by
  show CLK_SECT_at k ≠ PAIR_LINKDLY_at
  unfold CLK_SECT_at PAIR_LINKDLY_at
  omega

theorem State.received_sectRuns (s : State) (rx : PacketRx) (k : Nat) : (s.received rx).sectRuns k = s.sectRuns k :=
  State.sectRuns_of (s.received_fld rx _ (by decide)) (s.received_fld rx _ (sectClock_ne_linkdly k)) rfl

theorem State.receivedBad_role (s : State) (rx : PacketRx) : (s.receivedBad rx).fld PAIR_STAT_ROLE = s.fld PAIR_STAT_ROLE :=
  State.fld_setFld_other _ _ _ _ (by decide)

theorem State.receivedBad_mem (s : State) (rx : PacketRx) : (s.receivedBad rx).mem = s.mem := rfl

/-! ### Mirrored writes (R303) -/

theorem State.takesMirror_standby (standby : s.fld PAIR_STAT_ROLE = 3) : s.takesMirror = true := by
  unfold State.takesMirror State.role
  rw [standby]
  rfl

theorem State.writePacket_good (standby : s.fld PAIR_STAT_ROLE = 3) (size : Nat) (coll : Bool) :
    s.writePacket true a size v coll = s.mirrorWrite a size v coll := by
  unfold State.writePacket
  rw [if_neg Bool.true_eq_false_eq_False, if_pos (State.takesMirror_standby standby)]

theorem State.damagedMirror_standby (standby : s.fld PAIR_STAT_ROLE = 3) : s.damagedMirror = s.desync :=
  if_pos (State.takesMirror_standby standby)

/-- No held region closes a scratchpad. -/
theorem State.regionCloses_scratch (here : regionOf a = .scratch 0) : s.regionCloses a = false := by
  unfold State.regionCloses
  simp [here]

/-- A mirrored write of a scratchpad. -/
theorem State.mirrorWrite_scratch (here : regionOf a = .scratch 0) (size : Nat) (coll : Bool) : s.mirrorWrite a size v coll =
    if s.sectRuns (a % 0x1000000 / 0x40000) = false then s
    else if coll ∧ meetsPortA a size then s.collide (normalView a) 400 else s.regionWrite a size v.toNat := by
  have memory : regionOf a ≠ .regs ∧ regionOf a ≠ .bay := by rw [here]; decide
  unfold State.mirrorWrite State.mirrorStore
  rw [State.regionCloses_scratch here, if_neg Bool.false_ne_true, if_pos memory]
  simp only [here]

theorem State.mirrorWrite_stopped (here : regionOf a = .scratch 0) (size : Nat) (coll : Bool)
    (stopped : s.sectRuns (a % 0x1000000 / 0x40000) = false) : s.mirrorWrite a size v coll = s := by
  rw [State.mirrorWrite_scratch here, if_pos stopped]

/-- A mirrored word that meets no engine is written. -/
theorem State.mirrorWrite_mem (here : regionOf a = .scratch 0) (aligned : a % 4 = 0)
    (runs : s.sectRuns (a % 0x1000000 / 0x40000) = true) : (s.mirrorWrite a 4 v false).mem = (s.setWord a v).mem := by
  rw [State.mirrorWrite_scratch here, runs, if_neg Bool.true_eq_false_eq_False, if_neg (fun h => Bool.false_ne_true h.1),
    State.regionWrite_scratch _ here, normalView_normal here, State.memWrite_word_mem _ _ aligned, BitVec.ofNat_toNat,
    BitVec.setWidth_eq]

theorem State.mirrorWrite_collides (here : regionOf a = .scratch 0) (runs : s.sectRuns (a % 0x1000000 / 0x40000) = true) :
    s.mirrorWrite a 4 v true = s.collide a 400 := by
  have port : meetsPortA a 4 = true := by unfold meetsPortA; rw [here]; rfl
  rw [State.mirrorWrite_scratch here, runs, if_neg Bool.true_eq_false_eq_False, if_pos ⟨rfl, port⟩, normalView_normal here]

theorem State.mirrorWrite_word (here : regionOf a = .scratch 0) (aligned : a % 4 = 0) : (s.mirrorWrite a 4 v false).word a =
    (if s.sectRuns (a % 0x1000000 / 0x40000) then v else s.word a) ∧
    ∀ x, x < a ∨ a + 4 ≤ x → (s.mirrorWrite a 4 v false).byte x = s.byte x := by
  cases runs : s.sectRuns (a % 0x1000000 / 0x40000) with
  | false => exact (State.mirrorWrite_stopped here 4 false runs).symm ▸ ⟨rfl, fun _ _ => rfl⟩
  | true =>
    have written := State.mirrorWrite_mem (v := v) here aligned runs
    exact ⟨(State.word_of_mem written a).trans (State.word_setWord _ _ _),
      fun x out => (State.byte_of_mem written x).trans (State.byte_setWord_other _ _ _ _ out)⟩

/-- The sector of a scratchpad's word. -/
theorem eccSector_scratch (here : regionOf a = .scratch 0) : eccSector a = a % 0x1000000 / 0x40000 := by
  have page : a / 0x1000000 = 0x10 := by
    have normal := normalView_normal here
    unfold normalView at normal
    omega
  unfold eccSector
  rw [page]
  rfl

theorem State.mirrorWrite_collided (here : regionOf a = .scratch 0) (runs : s.sectRuns (a % 0x1000000 / 0x40000) = true) :
    (s.mirrorWrite a 4 v true).fb (SCR_IRQ_STAT_COLL (a % 0x1000000 / 0x40000)) = true ∧ (s.mirrorWrite a 4 v true).mem = s.mem := by
  obtain ⟨shown, -, mem⟩ := s.collide_shows a (req := 400) (by decide)
  rw [State.mirrorWrite_collides here runs, ← eccSector_scratch here]
  exact ⟨shown, mem⟩

/-! ### Sessions, slots, refreshes and logs (R301, R305, R306) -/

/-- A good SESSION packet on a standby. -/
theorem State.sessionPacket_stage (standby : s.fld PAIR_STAT_ROLE = 3) :
    s.sessionPacket true (.stage a v) = s.withPair (fun q => { q with staged := tset none q.staged a (some v) }) := by
  unfold State.sessionPacket
  rw [if_neg Bool.true_eq_false_eq_False, State.takesMirror_standby standby, if_neg Bool.true_eq_false_eq_False]

theorem State.sessionPacket_request (standby : s.fld PAIR_STAT_ROLE = 3) (op i : Nat) (ws : List Word) :
    s.sessionPacket true (.request op i ws) = s.withPair (fun q => { q with reqs := q.reqs ++ [(op, i, ws)] }) := by
  unfold State.sessionPacket
  rw [if_neg Bool.true_eq_false_eq_False, State.takesMirror_standby standby, if_neg Bool.true_eq_false_eq_False]

/-- The end of a session with APPLIED. -/
theorem State.sessionPacket_applied (standby : s.fld PAIR_STAT_ROLE = 3) (tick : BitVec 48) :
    s.sessionPacket true (.ended 1 tick) = s.withPair (fun q => { q with
      ended := true, reqs := [], allocs := q.allocs ++ s.sessionAllocs tick
      staged := q.staged.filter (fun x => !engineSetting x.1)
      later := q.later ++ [(tick, q.staged.filter (fun x => engineSetting x.1))] }) := by
  unfold State.sessionPacket
  rw [if_neg Bool.true_eq_false_eq_False, State.takesMirror_standby standby, if_neg Bool.true_eq_false_eq_False]
  rfl

theorem State.sessionPacket_discarded (standby : s.fld PAIR_STAT_ROLE = 3) {how : Nat} (other : how ≠ 1) (tick : BitVec 48) :
    s.sessionPacket true (.ended how tick) = s.withPair (fun q => { q with staged := [], reqs := [] }) := by
  unfold State.sessionPacket
  rw [if_neg Bool.true_eq_false_eq_False, State.takesMirror_standby standby, if_neg Bool.true_eq_false_eq_False]
  split
  · next e => cases e
  · next e => cases e
  · next e => cases e; exact absurd rfl other
  · rfl

/-- The slots that an applied session changes are judged by the pair's requests and slots alone. -/
theorem State.received_sessionAllocs (s : State) (rx : PacketRx) (tick : BitVec 48) :
    (s.received rx).sessionAllocs tick = s.sessionAllocs tick := rfl

theorem State.allocPacket_good (standby : s.fld PAIR_STAT_ROLE = 3) (q : AllocPacket) :
    s.allocPacket true q = s.withPair (fun p => { p with allocs := p.allocs ++ [q] }) := by
  unfold State.allocPacket
  rw [if_neg Bool.true_eq_false_eq_False, if_pos (State.takesMirror_standby standby)]

theorem State.refreshPacket_good (standby : s.fld PAIR_STAT_ROLE = 3) (synced : s.pair.synced ≠ none) (q : RefreshPacket) :
    s.refreshPacket true q = s.withPair (fun p => { p with refs := p.refs ++ [q] }) :=
  if_pos ⟨rfl, State.takesMirror_standby standby, Option.isSome_iff_ne_none.mpr synced⟩

/-- A standby in replay takes the logs of its primary. -/
theorem State.logPacket_taken (standby : s.fld PAIR_STAT_ROLE = 3) (synced : s.pair.synced ≠ none) :
    ¬ (s.takesMirror = false ∨ s.pair.synced = none) := fun h =>
  h.elim (fun none => Bool.false_ne_true (none.symm.trans (State.takesMirror_standby standby))) synced

theorem State.logPacket_good (standby : s.fld PAIR_STAT_ROLE = 3) (synced : s.pair.synced ≠ none) (q : LogPacket) :
    s.logPacket true q = s.withPair (fun p => { p with logs := p.logs ++ [(q, s.tb.now)] }) := by
  unfold State.logPacket
  rw [if_neg (State.logPacket_taken standby synced), if_neg Bool.true_eq_false_eq_False]

theorem State.logPacket_damaged (standby : s.fld PAIR_STAT_ROLE = 3) (synced : s.pair.synced ≠ none) (q : LogPacket) :
    s.logPacket false q = s.diverge q.engine := by
  unfold State.logPacket
  rw [if_neg (State.logPacket_taken standby synced), if_pos rfl]

/-- The registers of an engine that diverges. -/
theorem State.diverge_regs (s : State) (t : Nat) :
    (s.diverge t).regs = ((s.orBit (PAIR_DIVERGE_ENG (t / 32)) (t % 32)).setFld PAIR_IRQ_STAT_DIVERGE 1).regs := rfl

theorem State.diverge_marks (s : State) (t : Nat) : (s.diverge t).fbit (PAIR_DIVERGE_ENG (t / 32)) (t % 32) = true := by
  have marked : (s.orBit (PAIR_DIVERGE_ENG (t / 32)) (t % 32)).fbit (PAIR_DIVERGE_ENG (t / 32)) (t % 32) = true :=
    State.fbit_orBit_same _ (RF.fits (by decide)) (Nat.mod_lt t (by decide : 0 < 32))
  have apart : PAIR_DIVERGE_at (t / 32) ≠ PAIR_IRQ_STAT_at := by unfold PAIR_DIVERGE_at PAIR_IRQ_STAT_at; omega
  unfold State.fbit at marked ⊢
  rw [State.fld_of_regs (s.diverge_regs t), State.fld_setFld_other _ _ _ _ apart, marked]

theorem State.diverge_irq (s : State) (t : Nat) : (s.diverge t).fb PAIR_IRQ_STAT_DIVERGE = true := by
  rw [State.fb_of_regs (s.diverge_regs t)]
  exact State.fb_setFld_one _ (RF.fits (by decide))

theorem State.diverge_logs (s : State) (t : Nat) : (s.diverge t).pair.logs = s.pair.logs := rfl

end Sys2Proof.Machine
end

section
/-! PROOFS. What the ticks and reports of a partner, the copy of a join and its sync tick do (O48). -/

namespace Sys2Proof.Machine

variable {s u : State} {a : Nat} {v : Word}

/-! ### Epochs and heartbeats (R309, R311) -/

/-- Taking an epoch leaves what stands apart from the lines' states and the epoch, and every part but the registers. -/
theorem State.setEpoch_pair (s : State) (e : Nat) : (s.setEpoch e).pair = s.pair := by
  unfold State.setEpoch
  refine List.foldlRecOn (motive := fun (u : State) => u.pair = s.pair) _ _ (State.setFld_pair _ _ _) fun u h l _ => ?_
  split
  · exact h
  · exact h

/-- A field of the epoch register or of a register above the lines'. -/
theorem State.setEpoch_high (s : State) (e : Nat) (g : RF) (high : 0x40009800 ≤ g.addr) :
    (s.setEpoch e).fld g = (s.setFld BL_EPOCH_EPOCH e).fld g := by
  unfold State.setEpoch
  refine List.foldlRecOn (motive := fun (u : State) => u.fld g = (s.setFld BL_EPOCH_EPOCH e).fld g) _ _ rfl fun u h l hl => ?_
  have line : g.addr ≠ BL_STAT_at l := by
    have few := List.mem_range.mp hl
    unfold BL_STAT_at
    omega
  split
  · exact (State.fld_setFld_other _ _ _ _ line).trans h
  · exact h

theorem State.setEpoch_fld (s : State) (e : Nat) (g : RF) (high : 0x40009800 ≤ g.addr) (other : g.addr ≠ BL_EPOCH_at) :
    (s.setEpoch e).fld g = s.fld g := (s.setEpoch_high e g high).trans (State.fld_setFld_other _ _ _ _ other)

theorem State.setEpoch_epoch (s : State) {e : Nat} (fits : e < 0x10000) : (s.setEpoch e).fld BL_EPOCH_EPOCH = e :=
  (s.setEpoch_high e _ (by decide)).trans (State.fld_setFld_fits (RF.fits (by decide)) fits)

theorem State.seeEpoch_fld (s : State) (e : Nat) (g : RF) (other : g.addr ≠ PAIR_PEPOCH_at) : (s.seeEpoch e).fld g = s.fld g :=
  State.fld_setFld_other _ _ _ _ other

theorem State.seeEpoch_fb (s : State) (e : Nat) (g : RF) (other : g.addr ≠ PAIR_PEPOCH_at) : (s.seeEpoch e).fb g = s.fb g :=
  congrArg (· != 0) (s.seeEpoch_fld e g other)

theorem State.heartbeat_fld (s : State) (own : Bool) (g : RF) (apart : g.Apart PAIR_STAT_HBMISS) : (s.heartbeat own).fld g = s.fld g :=
  State.fld_setFld_apart s _ _ _ apart

theorem State.heartbeat_hbmiss (s : State) (own : Bool) : (s.heartbeat own).fld PAIR_STAT_HBMISS = 0 :=
  State.fld_setFld_fits (s := s) (f := PAIR_STAT_HBMISS) (RF.fits (by decide)) (by decide)

theorem State.deposed_lone (lone : s.fld PAIR_STAT_ROLE = 5) : s.deposed.pair.depose = true := by
  unfold State.deposed
  rw [if_pos (.inr lone)]

/-! ### TICK packets (R304, R308, R313, R314) -/

/-- The state that has seen the epoch and the heartbeat of a TICK packet. -/
def State.tickSeen (s : State) (p : TickPacket) : State :=
  ((s.seeEpoch p.epoch).heartbeat (s.pair.synced.isNone || p.tick == s.tb.tick)).setEpoch p.epoch

/-- The state that keeps the checksums of a TICK packet. -/
def State.tickSummed (s : State) (p : TickPacket) : State :=
  (s.tickSeen p).withPair (fun q => { q with sums := q.sums ++ p.sums.map (fun x => (p.tick - 1, x.1, x.2)) })

theorem State.tickSeen_pair (s : State) (p : TickPacket) : (s.tickSeen p).pair =
    { s.pair with got := s.pair.got || (s.pair.synced.isNone || p.tick == s.tb.tick) } := State.setEpoch_pair _ _

theorem State.tickSeen_role (s : State) (p : TickPacket) : (s.tickSeen p).fld PAIR_STAT_ROLE = s.fld PAIR_STAT_ROLE := by
  unfold State.tickSeen
  rw [State.setEpoch_fld _ _ _ (by decide) (by decide), State.heartbeat_fld _ _ _ (by decide), State.seeEpoch_fld _ _ _ (by decide)]

theorem State.tickSeen_hbmiss (s : State) (p : TickPacket) : (s.tickSeen p).fld PAIR_STAT_HBMISS = 0 := by
  unfold State.tickSeen
  rw [State.setEpoch_fld _ _ _ (by decide) (by decide), State.heartbeat_hbmiss]

/-- What a good TICK packet does on a standby. -/
theorem State.tickPacket_standby (standby : s.fld PAIR_STAT_ROLE = 3) (p : TickPacket) : s.tickPacket true p =
    if p.overflow = true ∧ s.takesMirror = true then (s.tickSeen p).desync
    else if (s.tickSeen p).pair.synced.isNone then s.tickSeen p
    else if s.edgeOff p.tick p.now > 8 then ((s.tickSummed p).setFld PAIR_IRQ_STAT_ALIGNERR 1).desync else s.tickSummed p := by
  have role : s.role = 3 := standby
  unfold State.tickPacket
  rw [if_neg Bool.true_eq_false_eq_False]
  simp only [role]
  rfl

theorem State.tickPacket_overflow (standby : s.fld PAIR_STAT_ROLE = 3) {p : TickPacket} (full : p.overflow = true) :
    s.tickPacket true p = (s.tickSeen p).desync := by
  rw [State.tickPacket_standby standby, if_pos ⟨full, State.takesMirror_standby standby⟩]

/-- A TICK packet that reports no overflow, in a replay. -/
theorem State.tickPacket_replay (standby : s.fld PAIR_STAT_ROLE = 3) {p : TickPacket} (kept : p.overflow = false)
    (synced : s.pair.synced ≠ none) : s.tickPacket true p =
    if s.edgeOff p.tick p.now > 8 then ((s.tickSummed p).setFld PAIR_IRQ_STAT_ALIGNERR 1).desync else s.tickSummed p := by
  have replay : ¬ (s.tickSeen p).pair.synced.isNone = true := by
    rw [State.tickSeen_pair]
    simpa using synced
  rw [State.tickPacket_standby standby, if_neg (fun h => Bool.false_ne_true (kept.symm.trans h.1)), if_neg replay]

theorem State.tickPacket_aligned (standby : s.fld PAIR_STAT_ROLE = 3) {p : TickPacket} (kept : p.overflow = false)
    (synced : s.pair.synced ≠ none) (near : s.edgeOff p.tick p.now ≤ 8) : s.tickPacket true p = s.tickSummed p := by
  rw [State.tickPacket_replay standby kept synced, if_neg (Nat.not_lt.mpr near)]

theorem State.tickPacket_misaligned (standby : s.fld PAIR_STAT_ROLE = 3) {p : TickPacket} (kept : p.overflow = false)
    (synced : s.pair.synced ≠ none) (far : 8 < s.edgeOff p.tick p.now) :
    s.tickPacket true p = ((s.tickSummed p).setFld PAIR_IRQ_STAT_ALIGNERR 1).desync := by
  rw [State.tickPacket_replay standby kept synced, if_pos far]

/-- The checksums and the heartbeat of a TICK packet in a replay. -/
theorem State.tickSummed_shows (synced : s.pair.synced ≠ none) (p : TickPacket) :
    (s.tickSummed p).pair.sums = s.pair.sums ++ p.sums.map (fun x => (p.tick - 1, x.1, x.2)) ∧
    (s.tickSummed p).fld PAIR_STAT_HBMISS = 0 ∧ (s.tickSummed p).pair.got = (s.pair.got || decide (p.tick = s.tb.tick)) ∧
    (s.tickSummed p).fld PAIR_STAT_ROLE = s.fld PAIR_STAT_ROLE := by
  have pair := s.tickSeen_pair p
  have replay : s.pair.synced.isNone = false := Option.isNone_eq_false_iff.mpr (Option.isSome_iff_ne_none.mpr synced)
  refine ⟨?_, s.tickSeen_hbmiss p, ?_, s.tickSeen_role p⟩
  · have sums : (s.tickSeen p).pair.sums = s.pair.sums := by rw [pair]
    exact congrArg (· ++ _) sums
  · rw [replay, Bool.false_or] at pair
    exact congrArg Pair.got pair

theorem State.tickPacket_misaligned_shows (standby : s.fld PAIR_STAT_ROLE = 3) {p : TickPacket} (kept : p.overflow = false)
    (synced : s.pair.synced ≠ none) (far : 8 < s.edgeOff p.tick p.now) :
    (s.tickPacket true p).fb PAIR_IRQ_STAT_ALIGNERR = true ∧ (s.tickPacket true p).fld PAIR_STAT_ROLE = 2 := by
  rw [State.tickPacket_misaligned standby kept synced far]
  exact ⟨State.desync_alignerr _ (State.fb_setFld_one _ (RF.fits (by decide))), State.desync_role _⟩

/-- The TICK packet of a higher epoch deposes a device that holds the machine. -/
theorem State.tickPacket_deposes (holds : s.fld PAIR_STAT_ROLE = 4 ∨ s.fld PAIR_STAT_ROLE = 5) {p : TickPacket}
    (higher : s.fld BL_EPOCH_EPOCH < p.epoch) : (s.tickPacket true p).pair.depose = true := by
  have role : s.role = s.fld PAIR_STAT_ROLE := rfl
  have seen : (s.seeEpoch p.epoch).fld PAIR_STAT_ROLE = s.fld PAIR_STAT_ROLE := s.seeEpoch_fld _ _ (by decide)
  unfold State.tickPacket
  rw [if_neg Bool.true_eq_false_eq_False, role]
  rcases holds with primary | lone
  · simp only [primary, gt_iff_lt, higher, if_true]
    exact State.deposed_primary (seen.trans primary)
  · simp only [lone, gt_iff_lt, higher, if_true]
    exact State.deposed_lone (seen.trans lone)

/-- A deposed device follows the epoch of its partner. -/
theorem State.tickPacket_followed (deposed : s.fld PAIR_STAT_ROLE = 6) {p : TickPacket} (fits : p.epoch < 0x10000) :
    (s.tickPacket true p).fld BL_EPOCH_EPOCH = p.epoch := by
  have role : s.role = 6 := deposed
  unfold State.tickPacket
  rw [if_neg Bool.true_eq_false_eq_False]
  simp only [role]
  exact State.setEpoch_epoch _ fits

/-! ### STATUS packets (R312, R314) -/

/-- The state that has taken what a STATUS packet reports. -/
def State.statusSeen (s : State) (p : StatusPacket) : State :=
  (s.setFld PAIR_STAT_PROLE p.role).withPair (fun q => { q with
    asked := p.asked
    partnerReady := p.role == 3 && p.diverged.isEmpty && decide (p.age ≤ s.fld PAIR_CFG_AGELIM) })

theorem State.statusSeen_role (s : State) (p : StatusPacket) : (s.statusSeen p).fld PAIR_STAT_ROLE = s.fld PAIR_STAT_ROLE :=
  State.fld_setFld_apart s PAIR_STAT_PROLE _ _ (by decide)

theorem State.statusSeen_prole (s : State) {p : StatusPacket} (fits : p.role < 8) : (s.statusSeen p).fld PAIR_STAT_PROLE = p.role :=
  State.fld_setFld_fits (s := s) (f := PAIR_STAT_PROLE) (RF.fits (by decide)) fits

theorem State.statusPacket_joined (lone : s.fld PAIR_STAT_ROLE = 5) {p : StatusPacket} (standby : p.role = 3) : s.statusPacket true p =
    ((((s.statusSeen p).heartbeat true).setRole 4).setFld PAIR_IRQ_STAT_JOINED 1).addSat PAIR_CNT_JOINS 1 := by
  have role : s.role = 5 := lone
  unfold State.statusPacket
  rw [if_neg Bool.true_eq_false_eq_False]
  dsimp only
  rw [if_neg (fun h => absurd (role.symm.trans h) (by decide)), if_pos ⟨role, standby⟩]
  rfl

/-- A partner in STANDBY makes a LONE device PRIMARY. -/
theorem State.statusPacket_joined_shows (lone : s.fld PAIR_STAT_ROLE = 5) {p : StatusPacket} (standby : p.role = 3) :
    (s.statusPacket true p).fld PAIR_STAT_ROLE = 4 ∧ (s.statusPacket true p).fld PAIR_STAT_PROLE = 3 ∧
    (s.statusPacket true p).fb PAIR_IRQ_STAT_JOINED = true := by
  rw [State.statusPacket_joined lone standby]
  unfold State.addSat
  refine ⟨?_, ?_, ?_⟩
  · rw [State.fld_setFld_apart _ _ _ _ (by decide), State.fld_setFld_apart _ _ _ _ (by decide), State.setRole_role _ (by decide)]
  · rw [State.fld_setFld_apart _ _ _ _ (by decide), State.fld_setFld_apart _ _ _ _ (by decide),
      State.setRole_fld _ _ _ (by decide) (by decide) (by decide), State.heartbeat_fld _ _ _ (by decide),
      State.statusSeen_prole _ (standby ▸ by decide), standby]
  · rw [State.fb_setFld_apart _ _ _ (by decide)]
    exact State.fb_setFld_one _ (RF.fits (by decide))

theorem State.partnerLeft_role (s : State) : (s.partnerLeft false).fld PAIR_STAT_ROLE = 5 := State.setRole_role _ (by decide)

theorem State.statusPacket_left (primary : s.fld PAIR_STAT_ROLE = 4) {p : StatusPacket} (other : p.role ≠ 3) :
    (s.statusPacket true p).fld PAIR_STAT_ROLE = 5 := by
  have role : s.role = 4 := primary
  unfold State.statusPacket
  rw [if_neg Bool.true_eq_false_eq_False]
  dsimp only
  rw [if_pos role, if_neg other]
  exact State.partnerLeft_role _

/-! ### HELLO packets (R299, R315) -/

/-- The state that has taken what a HELLO packet reports. -/
def State.helloSeen (s : State) (p : HelloPacket) : State := (s.seeEpoch p.epoch).setFld PAIR_STAT_PROLE p.role

theorem State.helloSeen_fld (s : State) (p : HelloPacket) (g : RF) (apart : g.Apart PAIR_STAT_PROLE) (other : g.addr ≠ PAIR_PEPOCH_at) :
    (s.helloSeen p).fld g = s.fld g := (State.fld_setFld_apart _ _ _ _ apart).trans (s.seeEpoch_fld _ _ other)

theorem State.helloSeen_image (s : State) (p : HelloPacket) : (s.helloSeen p).reg PAIR_IMGID_at = s.reg PAIR_IMGID_at :=
  (State.reg_setFld_other _ (by decide)).trans (State.reg_setFld_other _ (by decide))

/-- SEEK meets a PRIMARY of the other side with the same image over a link that is up. -/
theorem State.seekMeets_primary (seek : s.fld PAIR_STAT_ROLE = 1) {side : Bool} {image : Word} (same : image = s.reg PAIR_IMGID_at)
    (other : b2n side ≠ s.fld PAIR_STAT_SIDE) (link : s.fb PAIR_STAT_LINK = true) : s.seekMeets 4 side image = s.startJoin := by
  have reached : ¬ (b2n side = s.fld PAIR_STAT_SIDE ∨ s.fb PAIR_STAT_LINK = false) := by
    rintro (e | down)
    · exact other e
    · exact Bool.false_ne_true (down.symm.trans link)
  have images : (image == s.reg PAIR_IMGID_at) = true := beq_iff_eq.mpr same
  unfold State.seekMeets
  rw [if_neg (fun n => n seek), images]
  dsimp only
  rw [if_neg reached, if_pos (.inl rfl)]
  rfl

theorem State.helloPacket_joins (seek : s.fld PAIR_STAT_ROLE = 1) {p : HelloPacket} (holds : p.role = 4)
    (same : p.image = s.reg PAIR_IMGID_at) (other : b2n p.side ≠ s.fld PAIR_STAT_SIDE) (link : s.fb PAIR_STAT_LINK = true) :
    s.helloPacket true p = (s.helloSeen p).startJoin := by
  have role : s.role = 1 := seek
  have met : (s.helloSeen p).seekMeets p.role p.side p.image = (s.helloSeen p).startJoin := by
    rw [holds]
    refine State.seekMeets_primary ?_ (same.trans (s.helloSeen_image p).symm) ?_ ?_
    · rw [s.helloSeen_fld p _ (by decide) (by decide), seek]
    · rwa [s.helloSeen_fld p _ (by decide) (by decide)]
    · exact (congrArg (· != 0) (s.helloSeen_fld p _ (by decide) (by decide))).trans link
  unfold State.helloPacket
  rw [if_neg Bool.true_eq_false_eq_False]
  dsimp only
  rw [if_neg (fun h => absurd (role.symm.trans h.1) (by decide))]
  exact met

/-- Regions are held by their own registers. -/
theorem State.regionHeld_of (h : ∀ r, u.fld (REG_STAT_HELD r) = s.fld (REG_STAT_HELD r)) : u.regionHeld = s.regionHeld := by
  unfold State.regionHeld State.fb
  congr 1
  funext r
  rw [h r]

theorem State.helloSeen_regionHeld (s : State) (p : HelloPacket) : (s.helloSeen p).regionHeld = s.regionHeld := by
  refine State.regionHeld_of fun r => s.helloSeen_fld p _ (.inl ?_) ?_
  · show REG_STAT_at r ≠ PAIR_STAT_at
    unfold REG_STAT_at PAIR_STAT_at
    omega
  · show REG_STAT_at r ≠ PAIR_PEPOCH_at
    unfold REG_STAT_at PAIR_PEPOCH_at
    omega

theorem State.received_regionHeld (s : State) (rx : PacketRx) : (s.received rx).regionHeld = s.regionHeld := by
  refine State.regionHeld_of fun r => s.received_fld rx _ ?_
  show REG_STAT_at r ≠ PAIR_LINKDLY_at
  unfold REG_STAT_at PAIR_LINKDLY_at
  omega

/-! ### Joins (R314) -/

/-- A join in progress. -/
theorem State.joins (joining : s.fld PAIR_STAT_ROLE = 2) (runs : s.pair.joining = true) (copying : s.pair.synced = none) :
    ¬ (s.role ≠ 2 ∨ s.pair.joining = false ∨ s.pair.synced.isSome = true) := by
  rintro (other | stopped | synced)
  · exact other joining
  · exact Bool.false_ne_true (stopped.symm.trans runs)
  · rw [copying] at synced
    exact Bool.false_ne_true synced

/-- The copy of a register takes its fields that a join copies. -/
theorem State.bulkPacket_register (joining : s.fld PAIR_STAT_ROLE = 2) (runs : s.pair.joining = true) (copying : s.pair.synced = none)
    (left : Nat) : s.bulkPacket true (.register a v) left = (s.setFld PAIR_JOINPROG_BYTES left).setReg a
      (((s.setFld PAIR_JOINPROG_BYTES left).reg a &&& ~~~copiedMask a) ||| (v &&& copiedMask a)) := by
  unfold State.bulkPacket
  rw [if_neg (State.joins joining runs copying), if_neg Bool.true_eq_false_eq_False]

theorem State.slotTakes_tb (s : State) (p : AllocPacket) : (s.slotTakes p).tb = s.tb := rfl

theorem State.takeAllocs_tb (s : State) (due : AllocPacket → Bool) : (s.takeAllocs due).tb = s.tb := by
  unfold State.takeAllocs
  exact List.foldlRecOn (motive := fun (u : State) => u.tb = s.tb) _ _ rfl fun u h p _ => (u.slotTakes_tb p).trans h

/-- The timebase at the sync tick. -/
theorem State.syncTick_shows (joining : s.fld PAIR_STAT_ROLE = 2) (runs : s.pair.joining = true) (copying : s.pair.synced = none)
    (now : BitVec 64) (tick : BitVec 48) : (s.syncTick now tick []).tb = { s.tb with now := now, tick := tick, edge := now } ∧
    (s.syncTick now tick []).pair.synced = some tick := by
  unfold State.syncTick
  rw [if_neg (State.joins joining runs copying)]
  exact ⟨State.takeAllocs_tb _ _, rfl⟩

end Sys2Proof.Machine
end

section
/-! PROOFS. The replay of a logged activation, on time and late (O48). -/

namespace Sys2Proof.Machine

variable {s : State} {t : Nat} {a : Act} {q : LogPacket × BitVec 64} {x : LogAct} {rest : List LogAct}

/-- A replayed activation that has issued its logged count and ended by preemption ends as it was logged: no engine diverges. -/
theorem State.preempt_logged (act : (s.engOf t).act = some a) (issued : a.limit ≤ a.count) (how : a.how = 2)
    {g : RF} (other : g.addr ≠ ALLOC_IRQ_STAT_at) : (s.preempt t).fld g = s.fld g := by
  have asLogged : ¬ (a.log.isSome = true ∧ ¬ (a.count ≥ a.limit ∧ a.how = 2)) := fun h => h.2 ⟨issued, how⟩
  have noFault : ¬ (a.log.isSome = true ∧ a.count ≥ a.limit ∧ a.how = 3) := fun h => absurd (how.symm.trans h.2.2) (by decide)
  have noStop : ¬ (a.log.isSome = true ∧ a.count ≥ a.limit ∧ a.how = 4) := fun h => absurd (how.symm.trans h.2.2) (by decide)
  have waits : (if (s.engOf t).cancelRd.isSome then s.forgetCancel t else s).regs = s.regs := by split <;> rfl
  unfold State.preempt
  dsimp only
  split
  · rfl
  · next b running =>
    obtain rfl : a = b := Option.some.inj (act.symm.trans running)
    rw [if_neg noFault, if_neg noStop, if_neg asLogged]
    split
    · rfl
    split
    · exact State.fld_of_regs waits g
    · rw [State.fld_of_regs (State.ran_regs _), State.fld_setFld_other _ _ _ _ other]
      exact State.fld_of_regs waits g

/-! ### Replay (R302) -/

/-- The LOGs that stay when an activation of one has begun. -/
def Pair.withoutAct (p : Pair) (q : LogPacket × BitVec 64) (rest : List LogAct) : List (LogPacket × BitVec 64) :=
  p.logs.flatMap (fun y => if y = q then (if rest.isEmpty then [] else [({ q.1 with acts := rest }, q.2)]) else [y])

/-- The state in which an activation of a LOG has left it and counts at its slot. -/
def State.replayTaken (s : State) (q : LogPacket × BitVec 64) (x : LogAct) (rest : List LogAct) : State :=
  let s1 := s.withPair (fun p => { p with logs := s.pair.withoutAct q rest })
  let c := s1.chanOf (16 * q.1.engine + x.slot)
  s1.setChan (16 * q.1.engine + x.slot) { c with acts := (c.acts + 1) % 2 ^ 16 }

/-- The activation that replays a logged one. -/
def State.replayed (s : State) (q : LogPacket × BitVec 64) (x : LogAct) (rest : List LogAct) : Act :=
  let s1 := s.withPair (fun p => { p with logs := s.pair.withoutAct q rest })
  let c := s1.chanOf (16 * q.1.engine + x.slot)
  ⟨x.slot, c.bank.pc, 0, c.budget, s1.replayOffset q.1.engine x.slot, none, [], .none, false, false, some x.words, [], 0, x.count, x.how⟩

/-- The activation of a LOG that came too late: it has spent its budget, and nothing of it is issued. -/
def State.replayedLate (s : State) (q : LogPacket × BitVec 64) (x : LogAct) (rest : List LogAct) : Act :=
  { s.replayed q x rest with used := (s.replayed q x rest).budget, limit := 0, how := 2 }

theorem State.replayedLate_spent (s : State) : (s.replayedLate q x rest).limit ≤ (s.replayedLate q x rest).count := Nat.le_refl 0

theorem State.replayAct_onTime : s.replayAct q x rest false = (s.replayTaken q x rest).setAct q.1.engine (some (s.replayed q x rest)) := rfl

theorem State.replayAct_late : s.replayAct q x rest true =
    (((s.replayTaken q x rest).diverge q.1.engine).setAct q.1.engine (some (s.replayedLate q x rest))).preempt q.1.engine := rfl

theorem State.act_setAct (u : State) (t : Nat) (o : Option Act) : ((u.setAct t o).engOf t).act = o := by
  unfold State.setAct
  rw [State.engOf_setEng_same]

/-- The same of an activation that has just begun. -/
theorem State.preempt_begun (u : State) (t : Nat) {b : Act} (issued : b.limit ≤ b.count) (how : b.how = 2) {g : RF}
    (other : g.addr ≠ ALLOC_IRQ_STAT_at) : ((u.setAct t (some b)).preempt t).fld g = u.fld g :=
  (State.preempt_logged (u.act_setAct t (some b)) issued how other).trans (State.fld_of_regs rfl g)

/-- A late activation leaves its engine DIVERGED. -/
theorem State.replayAct_diverges : (s.replayAct q x rest true).fbit (PAIR_DIVERGE_ENG (q.1.engine / 32)) (q.1.engine % 32) = true ∧
    (s.replayAct q x rest true).fb PAIR_IRQ_STAT_DIVERGE = true := by
  have kept (g : RF) (other : g.addr ≠ ALLOC_IRQ_STAT_at) :
      (s.replayAct q x rest true).fld g = ((s.replayTaken q x rest).diverge q.1.engine).fld g := by
    rw [State.replayAct_late]
    exact State.preempt_begun _ _ s.replayedLate_spent rfl other
  have apart : (PAIR_DIVERGE_ENG (q.1.engine / 32)).addr ≠ ALLOC_IRQ_STAT_at := by
    show PAIR_DIVERGE_at _ ≠ _
    unfold PAIR_DIVERGE_at ALLOC_IRQ_STAT_at
    omega
  constructor
  · have marked := (s.replayTaken q x rest).diverge_marks q.1.engine
    unfold State.fbit at marked ⊢
    rw [kept _ apart, marked]
  · have marked := (s.replayTaken q x rest).diverge_irq q.1.engine
    unfold State.fb at marked ⊢
    rw [kept _ (by decide), marked]

/-- The next logged activation of an idle engine that runs begins. -/
theorem State.replay_begins {n : BitVec 48} (role : s.fld PAIR_STAT_ROLE = 2 ∨ s.fld PAIR_STAT_ROLE = 3) (synced : s.pair.synced = some n)
    (idle : (s.engOf t).act = none) (runs : s.engineRuns t = true) (reached : n.toNat ≤ (s.tb.tick - 2).toNat)
    (next : s.pair.logs.find? (fun q => q.1.tick == s.tb.tick - 2 && q.1.engine == t) = some q) (acts : q.1.acts = x :: rest) :
    s.replay t = s.replayAct q x rest (s.logLate t (s.replayOffset t x.slot) q.2) := by
  have begins : ¬ (s.pair.synced.isNone = true ∨ ¬ (s.role = 2 ∨ s.role = 3) ∨ (s.engOf t).act.isSome = true ∨ s.engineRuns t = false ∨
      (s.tb.tick - 2).toNat < (s.pair.synced.getD 0).toNat) := by
    rw [synced, idle, runs]
    rintro (h | h | h | h | h)
    · cases h
    · exact h role
    · cases h
    · cases h
    · exact absurd h (Nat.not_lt.mpr reached)
  unfold State.replay
  dsimp only
  rw [if_neg begins, next]
  dsimp only
  rw [acts]

/-- A LOG that is found is one of the engine. -/
theorem State.replay_engine (next : s.pair.logs.find? (fun q => q.1.tick == s.tb.tick - 2 && q.1.engine == t) = some q) : q.1.engine = t := by
  have found := List.find?_some next
  exact eq_of_beq (Bool.and_eq_true_iff.mp found).2

end Sys2Proof.Machine
end

section
/-! PROOFS. The packets of a pair over a link that is up, good and damaged, the sync tick and the replay (O48). -/

namespace Sys2Proof.Machine

variable {s : State} {rx : PacketRx} {a : Nat} {v : Word}

/-! ### Good packets -/

/-- The distance of an edge does not read what an arrival writes. -/
theorem State.received_edgeOff (s : State) (rx : PacketRx) (m : BitVec 48) (now : BitVec 64) : (s.received rx).edgeOff m now = s.edgeOff m now := by
  unfold State.edgeOff
  rw [s.received_fld rx TB_TICKLEN_CYCLES (by decide), State.received_tb]

section
variable (link : s.fb PAIR_STAT_LINK = true) (good : s.inOrder rx = true)
include link good

theorem done_received {n : Nat} (role : s.fld PAIR_STAT_ROLE = n) (on : n ≠ 0) (take : Bool → State → State) :
    done s (s.arrive rx take) = .next (settle s (take true (s.received rx))) :=
  congrArg (done s) (State.arrive_good (role ▸ on) link good take)

/-- A mirrored write stores its word where the clock of the sector runs. -/
theorem exec_writePacket_stores (standby : s.fld PAIR_STAT_ROLE = 3) (here : regionOf a = .scratch 0) (aligned : a % 4 = 0) :
    ∃ u, exec (.writePacket rx a 4 ⟨v, false⟩) s = .next u ∧
      u.word a = (if s.sectRuns (a % 0x1000000 / 0x40000) then v else s.word a) ∧ ∀ x, x < a ∨ a + 4 ≤ x → u.byte x = s.byte x := by
  have took := State.writePacket_good (v := v) (a := a) ((s.received_role rx).trans standby) 4 false
  obtain ⟨word, bytes⟩ := State.mirrorWrite_word (s := s.received rx) (v := v) here aligned
  rw [State.received_sectRuns, State.word_of_mem (s.received_mem rx)] at word
  refine ⟨_, done_received link good standby (by decide) _, ?_, fun x out => ?_⟩
  · rw [State.word_of_mem (settle_mem _ _), took, word]
  · rw [settle_byte, took, bytes x out, State.byte_of_mem (s.received_mem rx)]

/-- A mirrored write that collides is recorded and stores nothing. -/
theorem exec_writePacket_collides (standby : s.fld PAIR_STAT_ROLE = 3) (here : regionOf a = .scratch 0)
    (runs : s.sectRuns (a % 0x1000000 / 0x40000) = true) : ∃ u, exec (.writePacket rx a 4 ⟨v, true⟩) s = .next u ∧
      u.fb (SCR_IRQ_STAT_COLL (a % 0x1000000 / 0x40000)) = true ∧ ∀ x, u.byte x = s.byte x := by
  have took := State.writePacket_good (v := v) (a := a) ((s.received_role rx).trans standby) 4 true
  obtain ⟨shown, mem⟩ := State.mirrorWrite_collided (s := s.received rx) (v := v) here ((s.received_sectRuns rx _).trans runs)
  refine ⟨_, done_received link good standby (by decide) _, ?_, fun x => ?_⟩
  · rw [settle_fb, took, shown]
  · rw [settle_byte, took, State.byte_of_mem mem, State.byte_of_mem (s.received_mem rx)]

/-- A TICK packet that reports an overflow desynchronises. -/
theorem exec_tickPacket_overflow (standby : s.fld PAIR_STAT_ROLE = 3) {q : TickPacket} (full : q.overflow = true) :
    ∃ u, exec (.tickPacket rx q) s = .next u ∧ u.fld PAIR_STAT_ROLE = 2 ∧ u.fb PAIR_IRQ_STAT_DESYNC = true := by
  obtain ⟨role, shown, -⟩ := ((s.received rx).tickSeen q).desync_shows
  refine ⟨_, done_received link good standby (by decide) _, ?_, ?_⟩
  · rw [settle_fld, State.tickPacket_overflow ((s.received_role rx).trans standby) full, role]
  · rw [settle_fb, State.tickPacket_overflow ((s.received_role rx).trans standby) full, shown]

/-- A TICK packet in a replay keeps its checksums and is a heartbeat. -/
theorem exec_tickPacket_replay (standby : s.fld PAIR_STAT_ROLE = 3) {q : TickPacket} (kept : q.overflow = false)
    (synced : s.pair.synced ≠ none) (near : s.edgeOff q.tick q.now ≤ 8) : ∃ u, exec (.tickPacket rx q) s = .next u ∧
      u.pair.sums = s.pair.sums ++ q.sums.map (fun x => (q.tick - 1, x.1, x.2)) ∧ u.fld PAIR_STAT_HBMISS = 0 ∧
      u.pair.got = (s.pair.got || decide (q.tick = s.tb.tick)) ∧ u.fld PAIR_STAT_ROLE = 3 := by
  have taken := State.tickPacket_aligned ((s.received_role rx).trans standby) kept synced
    ((s.received_edgeOff rx q.tick q.now).trans_le near)
  obtain ⟨sums, hbmiss, got, role⟩ := (s.received rx).tickSummed_shows synced q
  refine ⟨_, done_received link good standby (by decide) _, ?_, ?_, ?_, ?_⟩
  · rw [settle_pair, taken, sums]
    rfl
  · rw [settle_fld, taken, hbmiss]
  · rw [settle_pair, taken, got]
    rfl
  · rw [settle_fld, taken, role, State.received_role, standby]

/-- A TICK packet whose edge lies too far away desynchronises. -/
theorem exec_tickPacket_misaligned (standby : s.fld PAIR_STAT_ROLE = 3) {q : TickPacket} (kept : q.overflow = false)
    (synced : s.pair.synced ≠ none) (far : 8 < s.edgeOff q.tick q.now) : ∃ u, exec (.tickPacket rx q) s = .next u ∧
      u.fb PAIR_IRQ_STAT_ALIGNERR = true ∧ u.fld PAIR_STAT_ROLE = 2 := by
  obtain ⟨shown, role⟩ := State.tickPacket_misaligned_shows ((s.received_role rx).trans standby) kept synced
    (far.trans_eq (s.received_edgeOff rx q.tick q.now).symm)
  refine ⟨_, done_received link good standby (by decide) _, ?_, ?_⟩
  · rw [settle_fb, shown]
  · rw [settle_fld, role]

/-- A TICK packet of a higher epoch deposes a device that holds the machine. -/
theorem exec_tickPacket_deposes {q : TickPacket} (holds : s.fld PAIR_STAT_ROLE = 4 ∨ s.fld PAIR_STAT_ROLE = 5)
    (higher : s.fld BL_EPOCH_EPOCH < q.epoch) : ∃ u, exec (.tickPacket rx q) s = .next u ∧ u.pair.depose = true := by
  have on : s.fld PAIR_STAT_ROLE ≠ 0 := by omega
  have epoch : (s.received rx).fld BL_EPOCH_EPOCH < q.epoch := by rwa [s.received_fld rx _ (by decide)]
  refine ⟨_, done_received link good rfl on _, ?_⟩
  rw [settle_pair, State.tickPacket_deposes (by rwa [State.received_role]) epoch]

theorem exec_tickPacket_followed {q : TickPacket} (deposed : s.fld PAIR_STAT_ROLE = 6) (fits : q.epoch < 0x10000) :
    ∃ u, exec (.tickPacket rx q) s = .next u ∧ u.fld BL_EPOCH_EPOCH = q.epoch := by
  refine ⟨_, done_received link good deposed (by decide) _, ?_⟩
  rw [settle_fld, State.tickPacket_followed ((s.received_role rx).trans deposed) fits]

/-- The STATUS packet of a partner in STANDBY makes a LONE device PRIMARY. -/
theorem exec_statusPacket_joined {q : StatusPacket} (lone : s.fld PAIR_STAT_ROLE = 5) (standby : q.role = 3) :
    ∃ u, exec (.statusPacket rx q) s = .next u ∧ u.fld PAIR_STAT_ROLE = 4 ∧ u.fld PAIR_STAT_PROLE = 3 ∧
      u.fb PAIR_IRQ_STAT_JOINED = true := by
  obtain ⟨role, prole, joined⟩ := State.statusPacket_joined_shows ((s.received_role rx).trans lone) standby
  refine ⟨_, done_received link good lone (by decide) _, ?_, ?_, ?_⟩
  · rw [settle_fld, role]
  · rw [settle_fld, prole]
  · rw [settle_fb, joined]

theorem exec_statusPacket_left {q : StatusPacket} (primary : s.fld PAIR_STAT_ROLE = 4) (other : q.role ≠ 3) :
    ∃ u, exec (.statusPacket rx q) s = .next u ∧ u.fld PAIR_STAT_ROLE = 5 := by
  refine ⟨_, done_received link good primary (by decide) _, ?_⟩
  rw [settle_fld, State.statusPacket_left ((s.received_role rx).trans primary) other]

/-- The HELLO packet of a PRIMARY with the same image starts a join from SEEK. -/
theorem exec_helloPacket_joins {q : HelloPacket} (seek : s.fld PAIR_STAT_ROLE = 1) (holds : q.role = 4)
    (same : q.image = s.reg PAIR_IMGID_at) (other : b2n q.side ≠ s.fld PAIR_STAT_SIDE) :
    ∃ u, exec (.helloPacket rx q) s = .next u ∧ u.fld PAIR_STAT_ROLE = 2 ∧ u.pair.joining = !s.regionHeld := by
  have image : (s.received rx).reg PAIR_IMGID_at = s.reg PAIR_IMGID_at := State.reg_setFld_other _ (by decide)
  have joins := State.helloPacket_joins ((s.received_role rx).trans seek) holds (same.trans image.symm)
    (by rwa [s.received_fld rx _ (by decide)]) ((s.received_link rx).trans link)
  refine ⟨_, done_received link good seek (by decide) _, ?_, ?_⟩
  · rw [settle_fld, joins, State.startJoin_role]
  · rw [settle_pair, joins, State.startJoin_joining, State.helloSeen_regionHeld, State.received_regionHeld]

end

/-! ### Damaged packets -/

section
variable (link : s.fb PAIR_STAT_LINK = true) (bad : s.inOrder rx = false)
include link bad

theorem done_receivedBad (on : s.fld PAIR_STAT_ROLE ≠ 0) (take : Bool → State → State) :
    done s (s.arrive rx take) = .next (settle s (take false (s.receivedBad rx))) :=
  congrArg (done s) (State.arrive_bad on link bad take)

/-- A damaged mirrored write desynchronises. -/
theorem exec_writePacket_damaged (standby : s.fld PAIR_STAT_ROLE = 3) (n : Nat) (c : Bool) :
    ∃ u, exec (.writePacket rx a n ⟨v, c⟩) s = .next u ∧ u.fld PAIR_STAT_ROLE = 2 ∧ u.fb PAIR_IRQ_STAT_DESYNC = true ∧
      ∀ x, u.byte x = s.byte x := by
  have damaged : (s.receivedBad rx).writePacket false a n v c = (s.receivedBad rx).desync :=
    State.damagedMirror_standby ((s.receivedBad_role rx).trans standby)
  obtain ⟨role, shown, mem⟩ := (s.receivedBad rx).desync_shows
  refine ⟨_, done_receivedBad link bad (standby ▸ by decide) _, ?_, ?_, fun x => ?_⟩
  · rw [settle_fld, damaged, role]
  · rw [settle_fb, damaged, shown]
  · rw [settle_byte, damaged, State.byte_of_mem mem, State.byte_of_mem (s.receivedBad_mem rx)]

/-- A damaged LOG makes its engine DIVERGED. -/
theorem exec_logPacket_damaged (standby : s.fld PAIR_STAT_ROLE = 3) (synced : s.pair.synced ≠ none) (q : LogPacket) :
    ∃ u, exec (.logPacket rx q) s = .next u ∧ u.fbit (PAIR_DIVERGE_ENG (q.engine / 32)) (q.engine % 32) = true ∧
      u.pair.logs = s.pair.logs := by
  have damaged := State.logPacket_damaged ((s.receivedBad_role rx).trans standby) synced q
  refine ⟨_, done_receivedBad link bad (standby ▸ by decide) _, ?_, ?_⟩
  · rw [settle_fbit, damaged, State.diverge_marks]
  · rw [settle_pair, damaged, State.diverge_logs]
    rfl

end

/-! ### The sync tick and replay -/

theorem exec_syncTick (joining : s.fld PAIR_STAT_ROLE = 2) (runs : s.pair.joining = true) (copying : s.pair.synced = none)
    (now : BitVec 64) (tick : BitVec 48) : ∃ u, exec (.syncTick now tick []) s = .next u ∧ u.tb.now = now ∧ u.tb.tick = tick ∧
      u.tb.edge = now ∧ u.pair.synced = some tick := by
  obtain ⟨tb, synced⟩ := State.syncTick_shows joining runs copying now tick
  refine ⟨_, rfl, ?_⟩
  rw [settle_tb, settle_pair, tb, synced]
  exact ⟨rfl, rfl, rfl, rfl⟩

/-- The activation of a LOG in time begins. -/
theorem exec_replay_onTime {t : Fin 256} {q : LogPacket × BitVec 64} {x : LogAct} {rest : List LogAct} (engine : q.1.engine = t.val)
    (begins : s.replay t.val = s.replayAct q x rest false) : ∃ u b, exec (.replay t) s = .next u ∧ (u.engOf t).act = some b ∧
      b.slot = x.slot ∧ b.log = some x.words ∧ b.limit = x.count ∧ b.how = x.how := by
  refine ⟨_, s.replayed q x rest, congrArg (done s) begins, ?_, rfl, rfl, rfl, rfl⟩
  rw [State.engOf_of_eng (settle_eng _ _), State.replayAct_onTime, ← engine, State.act_setAct]

/-- The activation of a LOG that came too late leaves its engine DIVERGED. -/
theorem exec_replay_late {t : Fin 256} {q : LogPacket × BitVec 64} {x : LogAct} {rest : List LogAct} (engine : q.1.engine = t.val)
    (begins : s.replay t.val = s.replayAct q x rest true) : ∃ u, exec (.replay t) s = .next u ∧
      u.fbit (PAIR_DIVERGE_ENG (t / 32)) (t % 32) = true ∧ u.fb PAIR_IRQ_STAT_DIVERGE = true := by
  obtain ⟨marked, shown⟩ := State.replayAct_diverges (s := s) (q := q) (x := x) (rest := rest)
  rw [engine] at marked
  refine ⟨_, congrArg (done s) begins, ?_, ?_⟩
  · rw [settle_fbit, marked]
  · rw [settle_fb, shown]

/-- Settles O48: a good packet by what its kind does to the state that has received it, a damaged one by its damage, the sync tick and the
replay by their own operations. -/
theorem packetsMirrorThePrimary : Obligations.PacketsMirrorThePrimary := by
  intro s
  refine ⟨fun rx link crc next => ?good, fun rx link damaged => ?bad,
    fun now tick joining runs copying => exec_syncTick joining runs copying now tick,
    fun t q a rest n role synced idle runs reached found acts => ?replay⟩
  case good =>
    have good := State.inOrder_of crc next
    have mirrors (standby : s.fld PAIR_STAT_ROLE = 3) := (s.received_role rx).trans standby
    have sent {n : Nat} (role : s.fld PAIR_STAT_ROLE = n) (on : n ≠ 0) {take : Bool → State → State} {u : State}
        (h : take true (s.received rx) = u) : done s (s.arrive rx take) = .next (settle s u) := by
      rw [done_received link good role on, h]
    refine ⟨fun a v standby here aligned => exec_writePacket_stores link good standby here aligned,
      fun a v standby here runs => exec_writePacket_collides link good standby here runs,
      fun a v standby => sent standby (by decide) (State.sessionPacket_stage (mirrors standby)),
      fun op i ws standby => sent standby (by decide) (State.sessionPacket_request (mirrors standby) op i ws),
      fun tick standby => ?applied,
      fun how tick standby other => sent standby (by decide) (State.sessionPacket_discarded (mirrors standby) other tick),
      fun q standby => sent standby (by decide) (State.allocPacket_good (mirrors standby) q),
      fun q standby synced => sent standby (by decide) (State.refreshPacket_good (mirrors standby) synced q),
      fun q standby synced => sent standby (by decide) (State.logPacket_good (mirrors standby) synced q),
      fun q standby full => exec_tickPacket_overflow link good standby full,
      fun q standby kept synced near => exec_tickPacket_replay link good standby kept synced near,
      fun q standby kept synced far => exec_tickPacket_misaligned link good standby kept synced far,
      fun q holds higher => exec_tickPacket_deposes link good holds higher,
      fun q deposed fits => exec_tickPacket_followed link good deposed fits,
      fun q lone standby => exec_statusPacket_joined link good lone standby,
      fun q primary other => exec_statusPacket_left link good primary other,
      fun q seek holds same other => exec_helloPacket_joins link good seek holds same other,
      fun a v left joining runs copying => sent joining (by decide)
        (State.bulkPacket_register ((s.received_role rx).trans joining) runs copying left)⟩
    case applied =>
      refine ⟨_, sent standby (by decide) (State.sessionPacket_applied (mirrors standby) tick), ?_⟩
      rw [settle_pair]
      exact ⟨rfl, rfl, rfl, rfl, rfl⟩
  case bad =>
    have bad := State.inOrder_not damaged
    exact ⟨fun a n v c standby => exec_writePacket_damaged link bad standby n c,
      fun q on => done_receivedBad link bad on _,
      fun q standby synced _ => exec_logPacket_damaged link bad standby synced q⟩
  case replay =>
    have begins := State.replay_begins role synced idle runs reached found acts
    have engine := State.replay_engine found
    exact ⟨fun onTime => exec_replay_onTime engine (begins.trans (congrArg (s.replayAct q a rest) onTime)),
      fun late => exec_replay_late engine (begins.trans (congrArg (s.replayAct q a rest) late))⟩

end Sys2Proof.Machine
end
